-- ==== Sys2Proof/Word.lean ====
section
/-!
DEFINITION. The widths the manual computes on (R7, R8).
-/
namespace Sys2Proof

/-- A byte of memory. -/
abbrev Byte := BitVec 8
/-- A 16-bit half word: an instruction unit, an FP16 or BF16 value. -/
abbrev Half := BitVec 16
/-- A 32-bit word: the width of a data or uniform register. -/
abbrev Word := BitVec 32
/-- A 64-bit value: a pair (R14), an address, a status word of an engine. -/
abbrev DWord := BitVec 64
/-- A 128-bit value: a quad (R47). -/
abbrev QWord := BitVec 128

/-- A table with Nat keys, strictly rising, holding no entry equal to what a missing key reads as. -/
abbrev Sp (α : Type) := List (Nat × α)

/-- Bytes at addresses: device memory, a scratchpad. A byte not listed reads as zero. -/
abbrev Memory := Sp Byte

end Sys2Proof
end

