-- ==== Sys2Proof/Syntax.lean ====
section
/-!
DEFINITION. The abstract syntax of the part: one constructor of `Instr` for each row of the
operation table. The first 270 are the instructions of a thread, whose operands are the fields of
their words (R44-R63); the last 109 are the whole and indivisible steps that the device and its
hosts take, whose arguments name the object that moves.
-/
namespace Sys2Proof

/-- A per-thread data register v0-v127 (R13). -/
abbrev VReg := BitVec 7
/-- A uniform register k0-k63 of the weft (R148). -/
abbrev KReg := BitVec 6

/-- The vb operand of ALU-A and ALU-B: a data register, or with K = 1 a uniform register (R48). -/
inductive Src where
  | v (r : VReg)
  | k (r : KReg)
  deriving DecidableEq, Repr

/-- The order field of a memory word (R56): `sync` is ACQ on a load, REL on a store, ACQREL on an atomic. -/
inductive Order where
  | rlx | sync | sc
  deriving DecidableEq, Repr

/-- The four scopes, each of which includes those before it (R8, R56). -/
inductive Scope where
  | blk | dom | waf | sys
  deriving DecidableEq, Repr

/-- The cache policy of a global access, codes 0 to 4 (R56, R228). -/
inductive Policy where
  | normal | stream | noL1 | keepL2 | noL2A
  deriving DecidableEq, Repr

/-- The function of ATG (R59). -/
inductive AtomFn where
  | add | and | or | xor | smin | smax | exch | cas
  deriving DecidableEq, Repr

/-- The function of ATF (R59). -/
inductive AtfFn where
  | fadd | fmin | fmax
  deriving DecidableEq, Repr

/-- The kind of FENCE (R63). -/
inductive FenceKind where
  | acq | rel | acqrel | sc
  deriving DecidableEq, Repr

/-- The size of a per-lane copy: 4, 8 or 16 bytes (R63). -/
inductive CpSize where
  | b4 | b8 | b16
  deriving DecidableEq, Repr

/-- The operation of WRED (R63). -/
inductive RedOp where
  | sum | min | max
  deriving DecidableEq, Repr

/-- The type of WRED (R63). -/
inductive RedType where
  | i32 | f32 | f64
  deriving DecidableEq, Repr

/-- Every operation and event of the part, one constructor for each row of the operation table.
DESIGN CHOICE (log 6). DESIGN CHOICE (log 143). -/
inductive Instr where
  /- The 16-bit SHORT form (R45). -/
  /-- SHORT_MOV (R45): 16-bit word that copies vs into vd. -/
  | shortMov (d : BitVec 6) (r : BitVec 5)
  /-- SHORT_IADD (R45): 16-bit vd := vd + vs. -/
  | shortIadd (d : BitVec 6) (r : BitVec 5)
  /-- SHORT_ISUB (R45): 16-bit vd := vd - vs. -/
  | shortIsub (d : BitVec 6) (r : BitVec 5)
  /-- SHORT_IMUL (R45): 16-bit vd := vd * vs, low word. -/
  | shortImul (d : BitVec 6) (r : BitVec 5)
  /-- SHORT_AND (R45): 16-bit vd := vd AND vs. -/
  | shortAnd (d : BitVec 6) (r : BitVec 5)
  /-- SHORT_OR (R45): 16-bit vd := vd OR vs. -/
  | shortOr (d : BitVec 6) (r : BitVec 5)
  /-- SHORT_XOR (R45): 16-bit vd := vd XOR vs. -/
  | shortXor (d : BitVec 6) (r : BitVec 5)
  /-- SHORT_SHL (R45): 16-bit left shift of vd by vs. -/
  | shortShl (d : BitVec 6) (r : BitVec 5)
  /-- SHORT_SHRL (R45): 16-bit logical right shift of vd by vs. -/
  | shortShrl (d : BitVec 6) (r : BitVec 5)
  /-- SHORT_SHRA (R45): 16-bit arithmetic right shift of vd by vs. -/
  | shortShra (d : BitVec 6) (r : BitVec 5)
  /-- SHORT_FADD (R45): 16-bit FP32 vd := vd + vs. -/
  | shortFadd (d : BitVec 6) (r : BitVec 5)
  /-- SHORT_FSUB (R45): 16-bit FP32 vd := vd - vs. -/
  | shortFsub (d : BitVec 6) (r : BitVec 5)
  /-- SHORT_FMUL (R45): 16-bit FP32 vd := vd * vs. -/
  | shortFmul (d : BitVec 6) (r : BitVec 5)
  /-- SHORT_FMAX (R45): 16-bit FP32 maximumNumber of vd and vs. -/
  | shortFmax (d : BitVec 6) (r : BitVec 5)
  /-- SHORT_FMIN (R45): 16-bit FP32 minimumNumber of vd and vs. -/
  | shortFmin (d : BitVec 6) (r : BitVec 5)
  /-- SHORT_IADDI (R45): 16-bit vd := vd + immediate 0 to 31. -/
  | shortIaddi (d : BitVec 6) (i : BitVec 5)
  /- ALU-A (R50). -/
  /-- IADD (R91): 32-bit wrapping add. -/
  | iadd (d a : VReg) (b : Src)
  /-- ISUB (R91): 32-bit wrapping subtract. -/
  | isub (d a : VReg) (b : Src)
  /-- IMUL (R91): low word of the product. -/
  | imul (d a : VReg) (b : Src)
  /-- IMULHI (R91): high word of the signed product. -/
  | imulhi (d a : VReg) (b : Src)
  /-- IMULHIN (R91): high word of the unsigned product. -/
  | imulhin (d a : VReg) (b : Src)
  /-- IMAD (R91): vd := a*b + old vd, low word. -/
  | imad (d a : VReg) (b : Src)
  /-- IMIN (R92): signed minimum. -/
  | imin (d a : VReg) (b : Src)
  /-- IMAX (R92): signed maximum. -/
  | imax (d a : VReg) (b : Src)
  /-- IMINN (R92): unsigned minimum. -/
  | iminn (d a : VReg) (b : Src)
  /-- IMAXN (R92): unsigned maximum. -/
  | imaxn (d a : VReg) (b : Src)
  /-- AND (R93): bitwise AND. -/
  | and (d a : VReg) (b : Src)
  /-- OR (R93): bitwise OR. -/
  | or (d a : VReg) (b : Src)
  /-- XOR (R93): bitwise XOR. -/
  | xor (d a : VReg) (b : Src)
  /-- ANDN (R93): a AND NOT b. -/
  | andn (d a : VReg) (b : Src)
  /-- SHL (R93): left shift, counts of 32 or more give 0. -/
  | shl (d a : VReg) (b : Src)
  /-- SHRL (R93): logical right shift. -/
  | shrl (d a : VReg) (b : Src)
  /-- SHRA (R93): arithmetic right shift. -/
  | shra (d a : VReg) (b : Src)
  /-- ROTL (R93): rotate left by b mod 32. -/
  | rotl (d a : VReg) (b : Src)
  /-- SEL (R92): a if old vd nonzero, else b. -/
  | sel (d a : VReg) (b : Src)
  /-- IADDSAT (R91): saturating signed add. -/
  | iaddsat (d a : VReg) (b : Src)
  /-- ISUBSAT (R91): saturating signed subtract. -/
  | isubsat (d a : VReg) (b : Src)
  /-- BFX (R96): extract a bit field under a control word. -/
  | bfx (d a : VReg) (b : Src)
  /-- BFI (R96): insert a bit field into old vd. -/
  | bfi (d a : VReg) (b : Src)
  /-- IADD64 (R91): 64-bit pair add. -/
  | iadd64 (d a : VReg) (b : Src)
  /-- ISUB64 (R91): 64-bit pair subtract. -/
  | isub64 (d a : VReg) (b : Src)
  /-- IMULW (R91): exact signed 32x32 product into a pair. -/
  | imulw (d a : VReg) (b : Src)
  /-- IMULWN (R91): exact unsigned 32x32 product into a pair. -/
  | imulwn (d a : VReg) (b : Src)
  /-- SHL64 (R94): 64-bit left shift. -/
  | shl64 (d a : VReg) (b : Src)
  /-- SHRL64 (R94): 64-bit logical right shift. -/
  | shrl64 (d a : VReg) (b : Src)
  /-- SHRA64 (R94): 64-bit arithmetic right shift. -/
  | shra64 (d a : VReg) (b : Src)
  /-- ISEQ (R92): integer equality compare. -/
  | iseq (d a : VReg) (b : Src)
  /-- ISNE (R92): integer inequality compare. -/
  | isne (d a : VReg) (b : Src)
  /-- ISLT (R92): signed less-than compare. -/
  | islt (d a : VReg) (b : Src)
  /-- ISLE (R92): signed less-or-equal compare. -/
  | isle (d a : VReg) (b : Src)
  /-- ISLTN (R92): unsigned less-than compare. -/
  | isltn (d a : VReg) (b : Src)
  /-- ISLEN (R92): unsigned less-or-equal compare. -/
  | islen (d a : VReg) (b : Src)
  /-- FADD (R106): FP32 add. -/
  | fadd (d a : VReg) (b : Src)
  /-- FSUB (R106): FP32 subtract. -/
  | fsub (d a : VReg) (b : Src)
  /-- FMUL (R106): FP32 multiply. -/
  | fmul (d a : VReg) (b : Src)
  /-- FFMA (R106): FP32 fused multiply-add into old vd. -/
  | ffma (d a : VReg) (b : Src)
  /-- FMIN (R107): FP32 minimumNumber. -/
  | fmin (d a : VReg) (b : Src)
  /-- FMAX (R107): FP32 maximumNumber. -/
  | fmax (d a : VReg) (b : Src)
  /-- FSEQ (R108): FP32 equal compare. -/
  | fseq (d a : VReg) (b : Src)
  /-- FSNE (R108): FP32 not-equal compare. -/
  | fsne (d a : VReg) (b : Src)
  /-- FSLT (R108): FP32 less-than compare. -/
  | fslt (d a : VReg) (b : Src)
  /-- FSLE (R108): FP32 less-or-equal compare. -/
  | fsle (d a : VReg) (b : Src)
  /-- FSUNO (R108): FP32 unordered test. -/
  | fsuno (d a : VReg) (b : Src)
  /-- FCOPYSIGN (R109): copy sign of b onto a. -/
  | fcopysign (d a : VReg) (b : Src)
  /-- DADD (R106): FP64 add. -/
  | dadd (d a : VReg) (b : Src)
  /-- DSUB (R106): FP64 subtract. -/
  | dsub (d a : VReg) (b : Src)
  /-- DMUL (R106): FP64 multiply. -/
  | dmul (d a : VReg) (b : Src)
  /-- DFMA (R106): FP64 fused multiply-add. -/
  | dfma (d a : VReg) (b : Src)
  /-- DMIN (R107): FP64 minimumNumber. -/
  | dmin (d a : VReg) (b : Src)
  /-- DMAX (R107): FP64 maximumNumber. -/
  | dmax (d a : VReg) (b : Src)
  /-- DSEQ (R108): FP64 equal compare. -/
  | dseq (d a : VReg) (b : Src)
  /-- DSLT (R108): FP64 less-than compare. -/
  | dslt (d a : VReg) (b : Src)
  /-- DSLE (R108): FP64 less-or-equal compare. -/
  | dsle (d a : VReg) (b : Src)
  /-- DSUNO (R108): FP64 unordered test. -/
  | dsuno (d a : VReg) (b : Src)
  /-- HADD2 (R113): packed FP16 add. -/
  | hadd2 (d a : VReg) (b : Src)
  /-- HMUL2 (R113): packed FP16 multiply. -/
  | hmul2 (d a : VReg) (b : Src)
  /-- HFMA2 (R113): packed FP16 fused multiply-add. -/
  | hfma2 (d a : VReg) (b : Src)
  /-- BADD2 (R113): packed BF16 add. -/
  | badd2 (d a : VReg) (b : Src)
  /-- BMUL2 (R113): packed BF16 multiply. -/
  | bmul2 (d a : VReg) (b : Src)
  /-- BFMA2 (R113): packed BF16 fused multiply-add. -/
  | bfma2 (d a : VReg) (b : Src)
  /- ALU-B (R51). -/
  /-- CVT_F32_I32 (R118): convert I32 to FP32. -/
  | cvtF32I32 (d a : VReg)
  /-- CVT_F32_N32 (R118): convert N32 to FP32. -/
  | cvtF32N32 (d a : VReg)
  /-- CVT_I32_F32 (R118): convert FP32 to I32. -/
  | cvtI32F32 (d a : VReg)
  /-- CVT_N32_F32 (R118): convert FP32 to N32. -/
  | cvtN32F32 (d a : VReg)
  /-- CVT_F64_F32 (R118): widen FP32 to FP64. -/
  | cvtF64F32 (d a : VReg)
  /-- CVT_F32_F64 (R118): narrow FP64 to FP32. -/
  | cvtF32F64 (d a : VReg)
  /-- CVT_F64_I32 (R118): convert I32 to FP64. -/
  | cvtF64I32 (d a : VReg)
  /-- CVT_I32_F64 (R118): convert FP64 to I32. -/
  | cvtI32F64 (d a : VReg)
  /-- CVT_F64_I64 (R118): convert I64 to FP64. -/
  | cvtF64I64 (d a : VReg)
  /-- CVT_I64_F64 (R118): convert FP64 to I64. -/
  | cvtI64F64 (d a : VReg)
  /-- CVT_F16X2_F32 (R118): pack two FP32 into FP16x2. -/
  | cvtF16x2F32 (d a : VReg) (b : Src)
  /-- CVT_BF16X2_F32 (R118): pack two FP32 into BF16x2. -/
  | cvtBf16x2F32 (d a : VReg) (b : Src)
  /-- CVT_F32_F16 (R118): widen a selected FP16 half to FP32. -/
  | cvtF32F16 (d a : VReg) (h : BitVec 1)
  /-- CVT_F32_BF16 (R118): widen a selected BF16 half to FP32. -/
  | cvtF32Bf16 (d a : VReg) (h : BitVec 1)
  /-- CVT_F32_E4M3 (R118): widen a selected E4M3 byte to FP32. -/
  | cvtF32E4m3 (d a : VReg) (h : BitVec 2)
  /-- CVT_F32_E5M2 (R118): widen a selected E5M2 byte to FP32. -/
  | cvtF32E5m2 (d a : VReg) (h : BitVec 2)
  /-- CVT_E4M3X4_F32 (R79): pack four FP32 into E4M3 bytes, saturating. -/
  | cvtE4m3x4F32 (d a : VReg) (b : Src)
  /-- CVT_E5M2X4_F32 (R79): pack four FP32 into E5M2 bytes. -/
  | cvtE5m2x4F32 (d a : VReg) (b : Src)
  /-- FRINT (R111): round FP32 to integral value. -/
  | frint (d a : VReg)
  /-- FCLASS (R110): classify an FP32 value. -/
  | fclass (d a : VReg)
  /-- FABS (R109): clear the sign bit. -/
  | fabs (d a : VReg)
  /-- FNEG (R109): flip the sign bit. -/
  | fneg (d a : VReg)
  /-- POPC (R97): count one bits. -/
  | popc (d a : VReg)
  /-- CLZ (R97): count leading zeros. -/
  | clz (d a : VReg)
  /-- BREV (R97): reverse bit order. -/
  | brev (d a : VReg)
  /-- FRCP (R112): FP32 reciprocal, correctly rounded. -/
  | frcp (d a : VReg)
  /-- FRSQ (R112): FP32 reciprocal square root. -/
  | frsq (d a : VReg)
  /-- FSQRT (R112): FP32 square root. -/
  | fsqrt (d a : VReg)
  /-- FDIV (R112): FP32 divide. -/
  | fdiv (d a : VReg) (b : Src)
  /-- FEX2 (R115): base-2 exponential by the fixed integer algorithm. -/
  | fex2 (d a : VReg)
  /-- FLG2 (R117): base-2 logarithm by the fixed integer algorithm. -/
  | flg2 (d a : VReg)
  /-- DDIV (R112): FP64 divide. -/
  | ddiv (d a : VReg) (b : Src)
  /-- DSQRT (R112): FP64 square root. -/
  | dsqrt (d a : VReg)
  /-- IDIV (R98): signed divide; divide by zero gives all ones. -/
  | idiv (d a : VReg) (b : Src)
  /-- IREM (R98): signed remainder. -/
  | irem (d a : VReg) (b : Src)
  /-- IDIVN (R98): unsigned divide. -/
  | idivn (d a : VReg) (b : Src)
  /-- IREMN (R98): unsigned remainder. -/
  | iremn (d a : VReg) (b : Src)
  /-- SHFL (R175): read va of lane b within the issue set. -/
  | shfl (d a : VReg) (b : Src)
  /-- SHFLUP (R175): read va of lane i - b. -/
  | shflup (d a : VReg) (b : Src)
  /-- SHFLDN (R175): read va of lane i + b. -/
  | shfldn (d a : VReg) (b : Src)
  /-- SHFLX (R175): read va of lane i XOR b. -/
  | shflx (d a : VReg) (b : Src)
  /-- BALLOT (R176): mask of issue-set lanes with nonzero va. -/
  | ballot (d a : VReg)
  /-- VANY (R176): true if any lane's va is nonzero. -/
  | vany (d a : VReg)
  /-- VALL (R176): true if every lane's va is nonzero. -/
  | vall (d a : VReg)
  /-- REDADD (R176): wrapping sum across the issue set. -/
  | redadd (d a : VReg)
  /-- REDFADD (R177): FP32 sum across the issue set by a fixed tree. -/
  | redfadd (d a : VReg)
  /-- REDMAX (R176): signed maximum across the issue set. -/
  | redmax (d a : VReg)
  /-- REDMIN (R176): signed minimum across the issue set. -/
  | redmin (d a : VReg)
  /-- SCANADD (R176): inclusive prefix sum across the issue set. -/
  | scanadd (d a : VReg)
  /-- MOVX (R103): read a data register through an index register. -/
  | movx (d : VReg) (i : BitVec 2)
  /-- MOVXW (R103): write a data register through an index register. -/
  | movxw (i : BitVec 2) (a : VReg)
  /-- SETX (R102): write an index register whole. -/
  | setx (i : BitVec 2) (a : VReg)
  /-- GETX (R102): read an index register whole. -/
  | getx (d : VReg) (i : BitVec 2)
  /-- MOV64 (R101): copy a pair. -/
  | mov64 (d a : VReg)
  /- IMM (R52). -/
  /-- IADDI (R99): add a sign-extended 9-bit immediate. -/
  | iaddi (d a : VReg) (i : BitVec 9)
  /-- ANDI (R99): AND with a zero-extended immediate. -/
  | andi (d a : VReg) (i : BitVec 9)
  /-- ORI (R99): OR with a sign-extended immediate. -/
  | ori (d a : VReg) (i : BitVec 9)
  /-- XORI (R99): XOR with a sign-extended immediate. -/
  | xori (d a : VReg) (i : BitVec 9)
  /-- SHLI (R99): left shift by an immediate. -/
  | shli (d a : VReg) (i : BitVec 5)
  /-- SHRLI (R99): logical right shift by an immediate. -/
  | shrli (d a : VReg) (i : BitVec 5)
  /-- SHRAI (R99): arithmetic right shift by an immediate. -/
  | shrai (d a : VReg) (i : BitVec 5)
  /-- ISEQI (R99): equality compare with an immediate. -/
  | iseqi (d a : VReg) (i : BitVec 9)
  /-- ISLTI (R99): signed less-than with an immediate. -/
  | islti (d a : VReg) (i : BitVec 9)
  /-- ISLTNI (R99): unsigned less-than with an immediate. -/
  | isltni (d a : VReg) (i : BitVec 9)
  /-- IMULI (R99): multiply by an immediate. -/
  | imuli (d a : VReg) (i : BitVec 9)
  /-- IADD64I (R99): add an immediate to a pair. -/
  | iadd64i (d a : VReg) (i : BitVec 9)
  /-- MOVK (R173): copy a uniform register into vd of each lane. -/
  | movk (d : VReg) (n : KReg)
  /-- ISNEI (R99): inequality compare with an immediate. -/
  | isnei (d a : VReg) (i : BitVec 9)
  /- LIT (R53). -/
  /-- MOVI (R100): load a sign-extended 18-bit immediate. -/
  | movi (d : VReg) (i : BitVec 18)
  /-- MOVHI (R100): write bits 31:14 of vd, keeping 13:0. -/
  | movhi (d : VReg) (i : BitVec 18)
  /- CTL (R54). -/
  /-- BRA (R120): relative branch. -/
  | bra (off : BitVec 24)
  /-- BNZ (R120): per-lane branch if va is nonzero. -/
  | bnz (a : VReg) (off : BitVec 17)
  /-- BZ (R120): per-lane branch if va is zero. -/
  | bz (a : VReg) (off : BitVec 17)
  /-- CALL (R24): push PC+4 on the return stack, spilling if full, and branch. -/
  | call (off : BitVec 24)
  /-- CALLR (R24): call through a register pair. -/
  | callr (a : VReg)
  /-- RET (R25): pop or refill a return address and jump to it. -/
  | ret
  /-- JMPR (R120): jump through a register pair. -/
  | jmpr (a : VReg)
  /-- KBNZ (R171): branch the issue set if a uniform register is nonzero. -/
  | kbnz (a : KReg) (off : BitVec 18)
  /-- KBZ (R171): branch the issue set if a uniform register is zero. -/
  | kbz (a : KReg) (off : BitVec 18)
  /- UNI (R55). -/
  /-- KADD (R168): uniform add. -/
  | kadd (d a b : KReg)
  /-- KSUB (R168): uniform subtract. -/
  | ksub (d a b : KReg)
  /-- KMUL (R168): uniform multiply, low word. -/
  | kmul (d a b : KReg)
  /-- KAND (R168): uniform AND. -/
  | kand (d a b : KReg)
  /-- KOR (R168): uniform OR. -/
  | kor (d a b : KReg)
  /-- KXOR (R168): uniform XOR. -/
  | kxor (d a b : KReg)
  /-- KSHL (R168): uniform left shift. -/
  | kshl (d a b : KReg)
  /-- KSHR (R168): uniform logical right shift. -/
  | kshr (d a b : KReg)
  /-- KSRA (R168): uniform arithmetic right shift. -/
  | ksra (d a b : KReg)
  /-- KADDI (R168): uniform add of an 11-bit immediate. -/
  | kaddi (d a : KReg) (i : BitVec 11)
  /-- KSEQ (R168): uniform equality compare. -/
  | kseq (d a b : KReg)
  /-- KSLT (R168): uniform signed less-than. -/
  | kslt (d a b : KReg)
  /-- KSLTN (R168): uniform unsigned less-than. -/
  | ksltn (d a b : KReg)
  /-- KMIN (R168): uniform signed minimum. -/
  | kmin (d a b : KReg)
  /-- KMAX (R168): uniform signed maximum. -/
  | kmax (d a b : KReg)
  /-- KSEL (R168): uniform select on old kd. -/
  | ksel (d a b : KReg)
  /-- KADD64 (R168): uniform pair add. -/
  | kadd64 (d a b : KReg)
  /-- KMOVV (R168): copy v(va) of the lowest issue-set lane into a uniform register. -/
  | kmovv (d : KReg) (a : VReg)
  /-- KLDCB (R169): load a constant-bank word into a uniform register. -/
  | kldcb (d a : KReg) (i : BitVec 11)
  /-- KLI (R168): load a sign-extended 17-bit immediate into kd. -/
  | kli (d : KReg) (i : BitVec 17)
  /-- KLIH (R168): write bits 31:15 of kd. -/
  | klih (d : KReg) (i : BitVec 17)
  /-- KMULHI (R168): uniform signed high product. -/
  | kmulhi (d a b : KReg)
  /- MEM (R56-R62). -/
  /-- LDS_32 (R180): load a word from the block's SPM. -/
  | lds32 (d base : VReg) (i : BitVec 8)
  /-- LDS_64 (R180): load a pair from SPM. -/
  | lds64 (d base : VReg) (i : BitVec 8)
  /-- LDS_128 (R180): load a quad from SPM. -/
  | lds128 (d base : VReg) (i : BitVec 8)
  /-- STS_32 (R180): store a word to SPM. -/
  | sts32 (d base : VReg) (i : BitVec 8)
  /-- STS_64 (R180): store a pair to SPM. -/
  | sts64 (d base : VReg) (i : BitVec 8)
  /-- STS_128 (R180): store a quad to SPM. -/
  | sts128 (d base : VReg) (i : BitVec 8)
  /-- ATS_ADD_32 (R181): atomic add in SPM. -/
  | atsAdd32 (d base : VReg) (i : BitVec 8)
  /-- ATS_EXCH_32 (R181): atomic exchange in SPM. -/
  | atsExch32 (d base : VReg) (i : BitVec 8)
  /-- LDN_32 (R243): load a word from a cluster core's SPM. -/
  | ldn32 (d base : VReg) (t : BitVec 2) (o : Order) (i : BitVec 4)
  /-- LDN_64 (R243): load a pair from cluster SPM. -/
  | ldn64 (d base : VReg) (t : BitVec 2) (o : Order) (i : BitVec 4)
  /-- LDN_128 (R243): load a quad from cluster SPM. -/
  | ldn128 (d base : VReg) (t : BitVec 2) (o : Order) (i : BitVec 4)
  /-- STN_32 (R243): store a word to cluster SPM. -/
  | stn32 (d base : VReg) (t : BitVec 2) (o : Order) (i : BitVec 4)
  /-- STN_64 (R243): store a pair to cluster SPM. -/
  | stn64 (d base : VReg) (t : BitVec 2) (o : Order) (i : BitVec 4)
  /-- STN_128 (R243): store a quad to cluster SPM. -/
  | stn128 (d base : VReg) (t : BitVec 2) (o : Order) (i : BitVec 4)
  /-- ATN_ADD_32 (R243): atomic add in cluster SPM. -/
  | atnAdd32 (d base : VReg) (t : BitVec 2) (o : Order) (i : BitVec 4)
  /-- ATN_EXCH_32 (R243): atomic exchange in cluster SPM. -/
  | atnExch32 (d base : VReg) (t : BitVec 2) (o : Order) (i : BitVec 4)
  /-- LDG_Z8 (R127): global load of a zero-extended byte. -/
  | ldgZ8 (d a : VReg) (o : Order) (sc : Scope) (p : Policy)
  /-- LDG_S8 (R127): global load of a sign-extended byte. -/
  | ldgS8 (d a : VReg) (o : Order) (sc : Scope) (p : Policy)
  /-- LDG_Z16 (R127): global load of a zero-extended half. -/
  | ldgZ16 (d a : VReg) (o : Order) (sc : Scope) (p : Policy)
  /-- LDG_S16 (R127): global load of a sign-extended half. -/
  | ldgS16 (d a : VReg) (o : Order) (sc : Scope) (p : Policy)
  /-- LDG_32 (R127): global word load. -/
  | ldg32 (d a : VReg) (o : Order) (sc : Scope) (p : Policy)
  /-- LDG_64 (R127): global pair load. -/
  | ldg64 (d a : VReg) (o : Order) (sc : Scope) (p : Policy)
  /-- LDG_128 (R127): global quad load. -/
  | ldg128 (d a : VReg) (o : Order) (sc : Scope) (p : Policy)
  /-- STG_8 (R127): global byte store. -/
  | stg8 (d a : VReg) (o : Order) (sc : Scope) (p : Policy)
  /-- STG_16 (R127): global half store. -/
  | stg16 (d a : VReg) (o : Order) (sc : Scope) (p : Policy)
  /-- STG_32 (R127): global word store. -/
  | stg32 (d a : VReg) (o : Order) (sc : Scope) (p : Policy)
  /-- STG_64 (R127): global pair store. -/
  | stg64 (d a : VReg) (o : Order) (sc : Scope) (p : Policy)
  /-- STG_128 (R127): global quad store. -/
  | stg128 (d a : VReg) (o : Order) (sc : Scope) (p : Policy)
  /-- PFG (R131): prefetch a global line; never traps on its address. -/
  | pfg (a : VReg) (p : Policy)
  /-- ATG_32 (R132): 32-bit global atomic read-modify-write at the home L2. -/
  | atg32 (d a : VReg) (f : AtomFn) (o : Order) (sc : Scope)
  /-- ATG_64 (R132): 64-bit global atomic read-modify-write. -/
  | atg64 (d a : VReg) (f : AtomFn) (o : Order) (sc : Scope)
  /-- ATF_32 (R133): FP32 global atomic add, min or max. -/
  | atf32 (d a : VReg) (f : AtfFn) (o : Order) (sc : Scope)
  /-- LDP_32 (R247): plate-view word load. -/
  | ldp32 (d base : VReg) (i : BitVec 8)
  /-- LDP_64 (R247): plate-view pair load. -/
  | ldp64 (d base : VReg) (i : BitVec 8)
  /-- LDP_128 (R247): plate-view quad load. -/
  | ldp128 (d base : VReg) (i : BitVec 8)
  /-- PFP (R248): prefetch a plate line into the local L2. -/
  | pfp (base : VReg) (i : BitVec 8)
  /-- LDCB_32 (R182): constant-bank word load. -/
  | ldcb32 (d x : VReg) (i : BitVec 8)
  /-- LDCB_64 (R182): constant-bank pair load. -/
  | ldcb64 (d x : VReg) (i : BitVec 8)
  /-- LDCB_128 (R182): constant-bank quad load. -/
  | ldcb128 (d x : VReg) (i : BitVec 8)
  /-- LDH_32 (R250): host-window word load. -/
  | ldh32 (d base : VReg) (o : Order)
  /-- LDH_64 (R250): host-window pair load. -/
  | ldh64 (d base : VReg) (o : Order)
  /-- STH_32 (R250): host-window word store. -/
  | sth32 (d base : VReg) (o : Order)
  /-- STH_64 (R250): host-window pair store. -/
  | sth64 (d base : VReg) (o : Order)
  /-- ATH_ADD_64 (R250): host FetchAdd AtomicOp. -/
  | athAdd64 (d base : VReg) (o : Order)
  /-- ATH_CAS_64 (R250): host CAS AtomicOp. -/
  | athCas64 (d base : VReg) (o : Order)
  /-- ATH_EXCH_64 (R250): host Swap AtomicOp. -/
  | athExch64 (d base : VReg) (o : Order)
  /- SYS (R63). -/
  /-- BINIT (R185): initialise a block barrier with an arrival count. -/
  | binit (b : BitVec 4) (count : BitVec 12)
  /-- BARR (R185): arrive at a barrier once per lane. -/
  | barr (b : BitVec 4)
  /-- BARRX (R185): arrive and post expected transaction bytes. -/
  | barrx (b : BitVec 4) (ka : KReg)
  /-- BEXP (R185): post expected bytes without arriving. -/
  | bexp (b : BitVec 4) (ka : KReg)
  /-- BWAIT (R186): wait for completion of the barrier phase of parity p. -/
  | bwait (b : BitVec 4) (p : BitVec 1)
  /-- BTEST (R186): test without waiting whether the barrier phase has completed. -/
  | btest (d : VReg) (b : BitVec 4) (p : BitVec 1)
  /-- BDROP (R185): arrive and leave the barrier's membership. -/
  | bdrop (b : BitVec 4)
  /-- CPGS (R276): per-lane asynchronous copy from global memory to SPM. -/
  | cpgs (vs a : VReg) (b : BitVec 4) (z : CpSize)
  /-- CPSG (R276): per-lane asynchronous copy from SPM to global memory. -/
  | cpsg (vs a : VReg) (b : BitVec 4) (z : CpSize)
  /-- CPTL (R279): tile copy of a tensor box into SPM with clamping. -/
  | cptl (ka kb kc : KReg) (b : BitVec 4)
  /-- CPTS (R279): tile copy of an SPM box into a tensor. -/
  | cpts (ka kb kc : KReg) (b : BitVec 4)
  /-- CPPW (R346): stage a plate page into a weight-bank frame. -/
  | cppw (ka kb : KReg) (b : BitVec 4)
  /-- WAITCNT (R287): wait until outstanding-operation counters fall to the immediates. -/
  | waitcnt (ld st : BitVec 6) (cp : BitVec 5) (mx : BitVec 4)
  /-- MXPUSH (R306): check and queue a matrix parameter block. -/
  | mxpush (ka : KReg)
  /-- MXFENCE (R308): wait for every earlier command of the array. -/
  | mxfence
  /-- MXQUERY (R309): read the array's status word. -/
  | mxquery (d : VReg)
  /-- QBLK (R314): quantise 128 FP32 values to FP8 with a scale. -/
  | qblk (ka kb kc : KReg) (f : BitVec 1)
  /-- RRESV (R328): reserve a race slot, waiting if none is free. -/
  | rresv (kd : KReg) (q : BitVec 5)
  /-- RCOMMIT (R329): release and commit a reserved slot. -/
  | rcommit (q : BitVec 5) (ka : KReg)
  /-- RRECV (R328): receive a committed slot or end of stream, waiting if none. -/
  | rrecv (kd : KReg) (q : BitVec 5)
  /-- RRELEASE (R329): release a received slot. -/
  | rrelease (q : BitVec 5) (ka : KReg)
  /-- RTRYRESV (R328): try to reserve a slot without waiting. -/
  | rtryresv (kd : KReg) (q : BitVec 5)
  /-- RTRYRECV (R328): try to receive a slot without waiting. -/
  | rtryrecv (kd : KReg) (q : BitVec 5)
  /-- RCLOSE (R330): close a race. -/
  | rclose (q : BitVec 5)
  /-- RSTAT (R332): read a race's state word. -/
  | rstat (kd : KReg) (q : BitVec 5)
  /-- PINSTALL (R352): check an install descriptor, release and hand the install to the engravers. -/
  | pinstall (ka : KReg)
  /-- PSTATUS (R353): read an install ticket's code, acquiring on a final code. -/
  | pstatus (kd ka : KReg)
  /-- FENCE (R252): acquire, release or SC fence at a scope. -/
  | fence (kind : FenceKind) (sc : Scope)
  /-- SEAL (R254): release and enter a range in the seal table. -/
  | sealLines (ka kb : KReg)
  /-- UNSEAL (R255): remove a seal entry and invalidate its replicas. -/
  | unsealLines (ka kb : KReg)
  /-- CWB (R257): clean L1 dirty bytes of a range to a scope. -/
  | cwb (ka kb : KReg) (sc : Scope)
  /-- YIELD (R189): put lanes into WAIT at a phase boundary. -/
  | yield
  /-- WSYNC (R146): meet the named lanes of the weft. -/
  | wsync (ka : KReg)
  /-- EXIT (R190): make lanes DONE. -/
  | exit
  /-- TRAP (R388): take a SOFTWARE trap. -/
  | trap (n : BitVec 16)
  /-- BKPT (R388): take a BREAKPOINT trap. -/
  | bkpt
  /-- RETT (R388): reissue captured operations and return from handler mode. -/
  | rett
  /-- CSRR (R123): read a CSR into a register. -/
  | csrr (d : VReg) (csr : BitVec 12)
  /-- CSRW (R123): write a CSR from a register. -/
  | csrw (csr : BitVec 12) (a : VReg)
  /-- RDCYC (R125): read the core cycle counter into a pair. -/
  | rdcyc (d : VReg)
  /-- WRED (R448): contribute to a wafer collective reduction round. -/
  | wred (d a : VReg) (op : RedOp) (t : RedType) (g : BitVec 4)
  /-- EVSIG (R373): release at WAF scope and raise an event. -/
  | evsig (ka : KReg)
  /-- MOVSR (R172): read a special register. -/
  | movsr (d : VReg) (id : BitVec 7)
  /- The steps of the device that no instruction word names: host writes, engines, homes, routers, stewards. -/
  /-- PHASE_END (R159): after draining, the block writes its phase record, releases resources and is queued. -/
  | phaseEnd (blk : Nat)
  /-- QUEUE_DOORBELL (R356): host writes a queue TAIL through BAR2, at doorbell 65,536 × function + queue. -/
  | queueDoorbell (door tail : Nat)
  /-- QUEUE_ENTRY (R358): the command processor reads and checks the next queue entry. -/
  | queueEntry (q : Nat)
  /-- GRAPH_START (R365): once counters are free, nodes are read and checked and ready nodes found. -/
  | graphStart (q : Nat)
  /-- KERNEL_NODE (R196): A KERNEL node starts and the launch record is checked and accepted or refused. -/
  | kernelNode (q node : Nat)
  /-- MILL_NODE (R318): A MILL node starts and the mill records are checked. -/
  | millNode (q node : Nat)
  /-- MILL_START (R319): an accepted mill takes its race regions, pins buffers and divides its cores. -/
  | millStart (gid : Nat)
  /-- MILL_CORE_JOIN (R319): A further free core joins the mill and goes to the next stage. -/
  | millCoreJoin (gid core : Nat)
  /-- COPY_NODE (R362): A COPY node copies LEN bytes in ascending order. -/
  | copyNode (q node : Nat)
  /-- INSTALL_NODE (R361): an INSTALL node reads and checks its descriptor and starts an install. -/
  | installNode (q node : Nat)
  /-- COND_NODE (R363): A COND node reads its predicate and chooses list A or B. -/
  | condNode (q node : Nat)
  /-- LOOP_NODE (R364): A ready LOOP reads its predicate and re-arms or exits. -/
  | loopNode (q node : Nat)
  /-- LOOP_REARM (R364): once no body node is ready or running, the LOOP resets the body and decrements it. -/
  | loopRearm (q node : Nat)
  /-- EVENT_NODE (R361): an EVENT node raises its event and signals its vector. -/
  | eventNode (q node : Nat)
  /-- WAIT_NODE (R371): A WAIT node begins waiting on an event counter. -/
  | waitNode (q node : Nat)
  /-- NODE_COMPLETE (R366): A completed node decrements its chosen successors or stops the graph. -/
  | nodeComplete (q node : Nat)
  /-- GRAPH_COMPLETE (R368): the graph releases, writes its record, raises its event and advances HEAD. -/
  | graphComplete (q : Nat)
  /-- QCFG_WRITE (R457): write of a queue's configuration, refused while busy. -/
  | qcfgWrite (vi q reg value : Nat)
  /-- EVRAISE (R455): host register write raises an event once. -/
  | evraise (vi n : Nat)
  /-- HAND_BLOCK (R435): the wafer dispatcher hands the head block of a grid to a domain. -/
  | handBlock (gid stage : Nat)
  /-- PLACE_BLOCK (R202): the domain dispatcher places one head block on the first core it fits. -/
  | placeBlock (dom : Nat)
  /-- CLUSTER_CONVERT (R200): A complete idle cluster starts conversion between fused and unfused. -/
  | clusterConvert (dom cl : Nat)
  /-- CLUSTER_CONVERT_DONE (R200): L1 cleaning of a converting cluster completes and the head is retried. -/
  | clusterConvertDone (dom cl : Nat)
  /-- BLOCK_RETIRE (R163): A finished block retires, frees resources and is counted complete. -/
  | blockRetire (blk : Nat)
  /-- GRID_COMPLETE (R204): all blocks counted: the grid releases and raises GRIDEV and its vector. -/
  | gridComplete (gid : Nat)
  /-- PAGE_WALK (R212): the walker translates a VA through five levels and fills TLBs. -/
  | pageWalk (op lane : Nat)
  /-- PARK_PENDING_ADMIT (R220): A park-pending weft takes a freed park place and posts its fault. -/
  | parkPendingAdmit (dom : Nat)
  /-- MEM_COMPLETE (R130): A memory operation completes and its counter retires in issue order. -/
  | memComplete (op : Nat)
  /-- FENCE_COMPLETE (R253): A fence, release or acquire finishes its cache actions and the lanes are ready again. -/
  | fenceComplete (op : Nat)
  /-- HOME_ACCESS (R441): an access, fill or merge reaches a line's home L2 and updates the directory. -/
  | homeAccess (op lane : Nat)
  /-- INVALIDATION_ACCEPT (R440): an L2 bank accepts an invalidation into its queue and acknowledges it. -/
  | invalidationAccept (dom line target : Nat)
  /-- INVALIDATION_APPLY (R440): A bank applies a queued invalidation to a remote copy. -/
  | invalidationApply (dom bank : Nat)
  /-- TLBINV (R221): system software starts a TLB invalidation of a VA range and ASN. -/
  | tlbinv (vi value : Nat)
  /-- TLBINV_DONE (R221): the invalidation has completed in every domain and DONE is set. -/
  | tlbinvDone (vi : Nat)
  /-- ASNROOT (R455): write installs the root table of an ASN. -/
  | asnroot (vi off value : Nat)
  /-- L2HASH_WRITE (R232): change of the L2 bank hash masks, cleaning and invalidating the L2. -/
  | l2hashWrite (dom index value : Nat)
  /-- MIGRATE_START (R354): A migration starts forwarding and copying a page. -/
  | migrateStart (vi : Nat)
  /-- MIGRATE_COPIED (R354): the migration copy of every line has ended. -/
  | migrateCopied (vi : Nat)
  /-- MIGRATE_FINISH (R354): after the invalidation, L1s clean and drop old lines and forwarding stops. -/
  | migrateFinish (vi : Nat)
  /-- COPY_LAND (R283): bytes of a copy land and are counted at its barrier. -/
  | copyLand (core slot k : Nat)
  /-- COPY_COMPLETE (R281): A copy completes, arrives at its barrier and frees its slot. -/
  | copyComplete (core slot : Nat)
  /-- LOADW (R298): matrix command loads a weight set into a slot. -/
  | loadw (core part : Nat)
  /-- STREAM (R300): matrix command streams activation rows through a weight slot. -/
  | stream (core part : Nat)
  /-- ACCUM (R302): matrix command moves SPM rows into accumulator rows. -/
  | accum (core part : Nat)
  /-- DRAIN (R302): matrix command converts accumulator rows into SPM. -/
  | drain (core part : Nat)
  /-- SIGNAL (R303): matrix command arrives on a barrier once earlier commands complete. -/
  | signal (core part : Nat)
  /-- MX_COMPLETE (R295): A matrix command completes, writing STATUS and retiring from the counter. -/
  | mxComplete (core part : Nat)
  /-- WEIGHT_STAGE (R345): the weight bank starts staging a plate page into a frame. -/
  | weightStage (core frame : Nat)
  /-- WEIGHT_STAGE_DONE (R345): A staged frame becomes VALID or EMPTY. -/
  | weightStageDone (core frame : Nat)
  /-- MX_POWER_GATE (R312): an array quarter idle for MXIDLE cycles is power-gated. -/
  | mxPowerGate (core part quarter : Nat)
  /-- MX_WAKE (R312): A gated quarter finishes its MXWAKE latency. -/
  | mxWake (core part quarter : Nat)
  /-- INSTALL_ACCEPT (R350): the install is checked and charged against IBUDGET. -/
  | installAccept (vi ticket : Nat)
  /-- ENGRAVE_READ (R347): the engraver reads a source page. -/
  | engraveRead (vi ticket page : Nat)
  /-- ENGRAVE_PROGRAM (R347): the engraver programs a free page slot. -/
  | engraveProgram (vi ticket page fblk ok : Nat)
  /-- ENGRAVE_VERIFY (R347): the engraver reads back and decodes a programmed slot. -/
  | engraveVerify (vi ticket page ok : Nat)
  /-- PLATE_SWITCH (R348): A plate page's map entry switches version and copies are invalidated. -/
  | plateSwitch (vi ticket page : Nat)
  /-- BLOCK_RECLAIM (R342): the engraver moves live pages out of a mixed flash block. -/
  | blockReclaim (dom fblk dest : Nat)
  /-- BLOCK_ERASE (R343): A stale flash block is erased, wear counted and retired at 5,000. -/
  | blockErase (dom fblk ok : Nat)
  /-- RACE_GRANT (R323): A race home applies operations and makes reserve and receive grants. -/
  | raceGrant (gid race : Nat)
  /-- COMMIT_COMPLETE (R329): an RCOMMIT release completes and the slot becomes COMMITTED. -/
  | commitComplete (op : Nat)
  /-- RELEASE_COMPLETE (R329): an RRELEASE release completes and the slot becomes FREE. -/
  | releaseComplete (op : Nat)
  /-- MILL_COMPLETE (R335): the mill releases, unpins buffers, frees cores and raises events. -/
  | millComplete (gid : Nat)
  /-- MILLWRIGHT_STEP (R337): at the end of an interval a domain millwright decides at most one move. -/
  | millwrightStep (gid dom : Nat)
  /-- WAFER_MILLWRIGHT_STEP (R336): every sixteenth lead-domain interval the wafer millwright decides a move. -/
  | waferMillwrightStep (gid : Nat)
  /-- OCC_SAMPLE (R336): A race home takes an occupancy sample on request. -/
  | occSample (gid race dom : Nat)
  /-- MOVE_APPLY (R338): the wafer dispatcher applies or drops a core move. -/
  | moveApply (gid : Nat)
  /-- PREEMPT_COMMAND (R397): system software issues a pre-emption command through PRECMD. -/
  | preemptCommand (vi value : Nat)
  /-- DRAIN_BUDGET_EXPIRE (R400): A draining block not finished by t + BUDGET is saved. -/
  | drainBudgetExpire (blk : Nat)
  /-- FLUSH_RELEASE (R401): A flushed block's operations finish, resources release and it requeues. -/
  | flushRelease (blk : Nat)
  /-- SAVE_WRITE (R402): A saved block's area is written and tagged and resources freed. -/
  | saveWrite (blk : Nat)
  /-- PREEMPT_DONE (R397): every domain completes the command and its event is raised. -/
  | preemptDone (cmd : Nat)
  /-- FQPOP (R456): read returns the oldest unanswered fault handle. -/
  | fqpop (vi : Nat)
  /-- FQ_RESUME (R385): FQACT RESUME unparks the weft and reissues or re-injects. -/
  | fqResume (vi handle : Nat)
  /-- FQ_DELIVER (R385): FQACT DELIVER resumes and turns system faults into traps. -/
  | fqDeliver (vi handle : Nat)
  /-- FQ_ABORT (R385): FQACT ABORT ends a faulted copy with ABORTED. -/
  | fqAbort (vi handle : Nat)
  /-- L1_TAG_PARITY_ERROR (R394): L1 tag parity error invalidates the line and parks resident wefts. -/
  | l1TagParityError (core line : Nat)
  /-- LINK_CRC_FAIL (R395): A flit fails CRC and is retried, the link going down after 16. -/
  | linkCrcFail (link packet : Nat)
  /-- PACKET_FORWARD (R422): A router forwards a packet by its route table or drops it. -/
  | packetForward (dom packet : Nat)
  /-- RT_ARM (R424): RTCMD ARM turn-checks and arms a route table. -/
  | rtArm (dom tbl : Nat)
  /-- RT_SELECT (R424): RTCMD SELECT sets the table bit of new injections. -/
  | rtSelect (dom tbl : Nat)
  /-- RT_DRAIN (R424): RTCMD DRAIN starts draining the old table with a token. -/
  | rtDrain (dom tbl : Nat)
  /-- RT_CLEAR (R424): RTCMD CLEAR clears DROPS, ARMERR and DRAINED. -/
  | rtClear (dom : Nat)
  /-- DRAIN_TOKEN_VISIT (R426): the drain token visits a domain, reading OLDCNT and DIRTY. -/
  | drainTokenVisit (dom : Nat)
  /-- NAME_AGE_TICK (R428): every 65,536 link cycles name-table ages rise. -/
  | nameAgeTick (dom : Nat)
  /-- RENAME (R429): write to RENAME starts retiring a core and claiming its name. -/
  | renameCore (dom value : Nat)
  /-- RENAME_COMPLETE (R429): every domain acknowledges the announce and the rename completes. -/
  | renameComplete (dom : Nat)
  /-- VFCTL_WRITE (R434): A clock request starts a link pause or is refused. -/
  | vfctlWrite (dom value : Nat)
  /-- LINK_PAUSE_END (R434): after 2,048 link cycles the clock and voltage change and links resume. -/
  | linkPauseEnd (dom : Nat)
  /-- POWER_LIMIT_TICK (R460): every 1 ms over PWRLIM stewards lower the highest FCUR. -/
  | powerLimitTick (watts : Nat)
  /-- CTREE_BUILD (R456): A CTREE write builds a group's combining tree. -/
  | ctreeBuild (vi ident group root : Nat)
  /-- WRED_ROUND_RESULT (R449): A round's result or failure reaches a member, writing status and vd. -/
  | wredRoundResult (gid group round member : Nat)
  /-- PEER_ACCESS (R453): A peer access arrives and is performed at SYS scope. -/
  | peerAccess (port fn off size data : Nat)
  /-- HOST_MEM_ACCESS (R451): A host CXL.mem or BAR4 access to module DRAM. -/
  | hostMemAccess (vi fn off size data : Nat)
  /-- ATTEST (R459): ATTEST GO writes a signed quote. -/
  | attest (vi value : Nat)
  /-- GDAYBOOK_WRITE (R462): A GDAYBOOK write ends the armed graph daybook. -/
  | gdaybookWrite (vi value : Nat)
  /-- GDAYBOOK_ARM (R462): once graphs complete, USED and STATUS are written and the new VA armed. -/
  | gdaybookArm (vi : Nat)
  /-- PARTMAP (R455): write of a virtual interface's physical-domain mask. -/
  | partmap (vi mask : Nat)
  /-- POWER_ON (R461): power on: stewards verify firmware and bring up domains. -/
  | powerOn
  /-- DOMAIN_RESET (R341): A domain reset, dropping tickets and unfusing clusters. -/
  | domainReset (dom : Nat)
  /-- REGISTER_WRITE (R455): write to a register with no behaviour of its own. -/
  | registerWrite (vi off size value : Nat)
  /-- HOLD_LIFT (R397): system software lifts the hold of a pre-emption command, so that blocks of the held scope
  may be placed again. -/
  | holdLift (vi cmd : Nat)
  /-- GRID_END (R385): system software ends a grid or mill, which ends its blocks and fault entries with status
  ENDED. -/
  | gridEnd (gid : Nat)
  /-- TICKET_ABORT (R351): system software aborts an install ticket, which stops its unswitched pages and gives it
  the final code ABORTED. -/
  | ticketAbort (vi ticket : Nat)
  /-- KEEP_MARK_CLEAR (R233): system software clears the L2 keep marks of a domain. -/
  | keepMarkClear (dom : Nat)
  /-- VIRTUAL_INTERFACE_RESET (R371): A reset of a virtual interface empties its ticket table, zeroes its events and
  restarts its launch identities. -/
  | virtualInterfaceReset (vi : Nat)
  /-- POWER_LOSS (R341): loss of power ends every operation, and only completed plate switches survive. -/
  | powerLoss
  /-- HOST_COMPLETION_TIMEOUT (R250): A host access whose completion does not arrive in time times out and parks the
  weft as PROTECT. -/
  | hostCompletionTimeout (op lane : Nat)
  /-- SEAL_COMPLETE (R254): A SEAL entry is in force in every domain, or an UNSEAL has invalidated every replica,
  and the waiting lanes go on. -/
  | sealComplete (op : Nat)
  /-- LINK_TAKE_DOWN (R418): system software takes a stitched link down, so that it carries nothing until a domain
  reset of both ends. -/
  | linkTakeDown (link : Nat)
  deriving DecidableEq, Repr

end Sys2Proof
end

