-- ==== Sys2Proof/WellFormed.lean ====
section
/-!
DEFINITION. Which operand values a word may carry (R47, R48, R63): the shapes of register fields,
the nonzero barrier count, the coordinate register window and the special-register ids.
A step of the device has no word, and nothing to check here.
-/
namespace Sys2Proof

/-- Why a set of field values is no instruction. Each makes the word ILLEGAL (R65). -/
inductive Breach where
  /-- A pair or a group of two at an odd register (R14, R47). -/
  | oddPair
  /-- A quad or a group of four at a register that is no multiple of 4 (R47). -/
  | quadAlign
  /-- BINIT with the reserved count 0 (R63). -/
  | zeroCount
  /-- CPTL or CPTS with a coordinate register above 59 (R63). -/
  | coordBase
  /-- MOVSR with a special-register id above 19 (R63). -/
  | specialId
  deriving DecidableEq, Repr

/-- The register starts a pair (R14). -/
def evenV (r : VReg) : Bool := r.toNat % 2 == 0
/-- The register starts a quad (R47). -/
def quadV (r : VReg) : Bool := r.toNat % 4 == 0
/-- The uniform register starts a pair (R47). -/
def evenK (r : KReg) : Bool := r.toNat % 2 == 0
/-- The operand starts a pair, of data or of uniform registers (R48). -/
def evenSrc : Src → Bool
  | .v r => evenV r
  | .k r => evenK r

/-- The breach to report when the condition fails. -/
def need (c : Bool) (b : Breach) : Option Breach := if c then none else some b

/-- The first shape rule the instruction breaks, if any (R47, R48, R63). -/
def Instr.breach : Instr → Option Breach
  | .shortMov _ _ => none
  | .shortIadd _ _ => none
  | .shortIsub _ _ => none
  | .shortImul _ _ => none
  | .shortAnd _ _ => none
  | .shortOr _ _ => none
  | .shortXor _ _ => none
  | .shortShl _ _ => none
  | .shortShrl _ _ => none
  | .shortShra _ _ => none
  | .shortFadd _ _ => none
  | .shortFsub _ _ => none
  | .shortFmul _ _ => none
  | .shortFmax _ _ => none
  | .shortFmin _ _ => none
  | .shortIaddi _ _ => none
  | .iadd _ _ _ => none
  | .isub _ _ _ => none
  | .imul _ _ _ => none
  | .imulhi _ _ _ => none
  | .imulhin _ _ _ => none
  | .imad _ _ _ => none
  | .imin _ _ _ => none
  | .imax _ _ _ => none
  | .iminn _ _ _ => none
  | .imaxn _ _ _ => none
  | .and _ _ _ => none
  | .or _ _ _ => none
  | .xor _ _ _ => none
  | .andn _ _ _ => none
  | .shl _ _ _ => none
  | .shrl _ _ _ => none
  | .shra _ _ _ => none
  | .rotl _ _ _ => none
  | .sel _ _ _ => none
  | .iaddsat _ _ _ => none
  | .isubsat _ _ _ => none
  | .bfx _ _ _ => none
  | .bfi _ _ _ => none
  | .iadd64 d a b => need (evenV d) .oddPair <|> need (evenV a) .oddPair <|> need (evenSrc b) .oddPair
  | .isub64 d a b => need (evenV d) .oddPair <|> need (evenV a) .oddPair <|> need (evenSrc b) .oddPair
  | .imulw d _ _ => need (evenV d) .oddPair
  | .imulwn d _ _ => need (evenV d) .oddPair
  | .shl64 d a _ => need (evenV d) .oddPair <|> need (evenV a) .oddPair
  | .shrl64 d a _ => need (evenV d) .oddPair <|> need (evenV a) .oddPair
  | .shra64 d a _ => need (evenV d) .oddPair <|> need (evenV a) .oddPair
  | .iseq _ _ _ => none
  | .isne _ _ _ => none
  | .islt _ _ _ => none
  | .isle _ _ _ => none
  | .isltn _ _ _ => none
  | .islen _ _ _ => none
  | .fadd _ _ _ => none
  | .fsub _ _ _ => none
  | .fmul _ _ _ => none
  | .ffma _ _ _ => none
  | .fmin _ _ _ => none
  | .fmax _ _ _ => none
  | .fseq _ _ _ => none
  | .fsne _ _ _ => none
  | .fslt _ _ _ => none
  | .fsle _ _ _ => none
  | .fsuno _ _ _ => none
  | .fcopysign _ _ _ => none
  | .dadd d a b => need (evenV d) .oddPair <|> need (evenV a) .oddPair <|> need (evenSrc b) .oddPair
  | .dsub d a b => need (evenV d) .oddPair <|> need (evenV a) .oddPair <|> need (evenSrc b) .oddPair
  | .dmul d a b => need (evenV d) .oddPair <|> need (evenV a) .oddPair <|> need (evenSrc b) .oddPair
  | .dfma d a b => need (evenV d) .oddPair <|> need (evenV a) .oddPair <|> need (evenSrc b) .oddPair
  | .dmin d a b => need (evenV d) .oddPair <|> need (evenV a) .oddPair <|> need (evenSrc b) .oddPair
  | .dmax d a b => need (evenV d) .oddPair <|> need (evenV a) .oddPair <|> need (evenSrc b) .oddPair
  | .dseq _ a b => need (evenV a) .oddPair <|> need (evenSrc b) .oddPair
  | .dslt _ a b => need (evenV a) .oddPair <|> need (evenSrc b) .oddPair
  | .dsle _ a b => need (evenV a) .oddPair <|> need (evenSrc b) .oddPair
  | .dsuno _ a b => need (evenV a) .oddPair <|> need (evenSrc b) .oddPair
  | .hadd2 _ _ _ => none
  | .hmul2 _ _ _ => none
  | .hfma2 _ _ _ => none
  | .badd2 _ _ _ => none
  | .bmul2 _ _ _ => none
  | .bfma2 _ _ _ => none
  | .cvtF32I32 _ _ => none
  | .cvtF32N32 _ _ => none
  | .cvtI32F32 _ _ => none
  | .cvtN32F32 _ _ => none
  | .cvtF64F32 d _ => need (evenV d) .oddPair
  | .cvtF32F64 _ a => need (evenV a) .oddPair
  | .cvtF64I32 d _ => need (evenV d) .oddPair
  | .cvtI32F64 _ a => need (evenV a) .oddPair
  | .cvtF64I64 d a => need (evenV d) .oddPair <|> need (evenV a) .oddPair
  | .cvtI64F64 d a => need (evenV d) .oddPair <|> need (evenV a) .oddPair
  | .cvtF16x2F32 _ _ _ => none
  | .cvtBf16x2F32 _ _ _ => none
  | .cvtF32F16 _ _ _ => none
  | .cvtF32Bf16 _ _ _ => none
  | .cvtF32E4m3 _ _ _ => none
  | .cvtF32E5m2 _ _ _ => none
  | .cvtE4m3x4F32 _ a b => need (evenV a) .oddPair <|> need (evenSrc b) .oddPair
  | .cvtE5m2x4F32 _ a b => need (evenV a) .oddPair <|> need (evenSrc b) .oddPair
  | .frint _ _ => none
  | .fclass _ _ => none
  | .fabs _ _ => none
  | .fneg _ _ => none
  | .popc _ _ => none
  | .clz _ _ => none
  | .brev _ _ => none
  | .frcp _ _ => none
  | .frsq _ _ => none
  | .fsqrt _ _ => none
  | .fdiv _ _ _ => none
  | .fex2 _ _ => none
  | .flg2 _ _ => none
  | .ddiv d a b => need (evenV d) .oddPair <|> need (evenV a) .oddPair <|> need (evenSrc b) .oddPair
  | .dsqrt d a => need (evenV d) .oddPair <|> need (evenV a) .oddPair
  | .idiv _ _ _ => none
  | .irem _ _ _ => none
  | .idivn _ _ _ => none
  | .iremn _ _ _ => none
  | .shfl _ _ _ => none
  | .shflup _ _ _ => none
  | .shfldn _ _ _ => none
  | .shflx _ _ _ => none
  | .ballot _ _ => none
  | .vany _ _ => none
  | .vall _ _ => none
  | .redadd _ _ => none
  | .redfadd _ _ => none
  | .redmax _ _ => none
  | .redmin _ _ => none
  | .scanadd _ _ => none
  | .movx _ _ => none
  | .movxw _ _ => none
  | .setx _ _ => none
  | .getx _ _ => none
  | .mov64 d a => need (evenV d) .oddPair <|> need (evenV a) .oddPair
  | .iaddi _ _ _ => none
  | .andi _ _ _ => none
  | .ori _ _ _ => none
  | .xori _ _ _ => none
  | .shli _ _ _ => none
  | .shrli _ _ _ => none
  | .shrai _ _ _ => none
  | .iseqi _ _ _ => none
  | .islti _ _ _ => none
  | .isltni _ _ _ => none
  | .imuli _ _ _ => none
  | .iadd64i d a _ => need (evenV d) .oddPair <|> need (evenV a) .oddPair
  | .movk _ _ => none
  | .isnei _ _ _ => none
  | .movi _ _ => none
  | .movhi _ _ => none
  | .bra _ => none
  | .bnz _ _ => none
  | .bz _ _ => none
  | .call _ => none
  | .callr a => need (evenV a) .oddPair
  | .ret => none
  | .jmpr a => need (evenV a) .oddPair
  | .kbnz _ _ => none
  | .kbz _ _ => none
  | .kadd _ _ _ => none
  | .ksub _ _ _ => none
  | .kmul _ _ _ => none
  | .kand _ _ _ => none
  | .kor _ _ _ => none
  | .kxor _ _ _ => none
  | .kshl _ _ _ => none
  | .kshr _ _ _ => none
  | .ksra _ _ _ => none
  | .kaddi _ _ _ => none
  | .kseq _ _ _ => none
  | .kslt _ _ _ => none
  | .ksltn _ _ _ => none
  | .kmin _ _ _ => none
  | .kmax _ _ _ => none
  | .ksel _ _ _ => none
  | .kadd64 d a b => need (evenK d) .oddPair <|> need (evenK a) .oddPair <|> need (evenK b) .oddPair
  | .kmovv _ _ => none
  | .kldcb _ _ _ => none
  | .kli _ _ => none
  | .klih _ _ => none
  | .kmulhi _ _ _ => none
  | .lds32 _ _ _ => none
  | .lds64 d _ _ => need (evenV d) .oddPair
  | .lds128 d _ _ => need (quadV d) .quadAlign
  | .sts32 _ _ _ => none
  | .sts64 d _ _ => need (evenV d) .oddPair
  | .sts128 d _ _ => need (quadV d) .quadAlign
  | .atsAdd32 d _ _ => need (evenV d) .oddPair
  | .atsExch32 d _ _ => need (evenV d) .oddPair
  | .ldn32 _ _ _ _ _ => none
  | .ldn64 d _ _ _ _ => need (evenV d) .oddPair
  | .ldn128 d _ _ _ _ => need (quadV d) .quadAlign
  | .stn32 _ _ _ _ _ => none
  | .stn64 d _ _ _ _ => need (evenV d) .oddPair
  | .stn128 d _ _ _ _ => need (quadV d) .quadAlign
  | .atnAdd32 d _ _ _ _ => need (evenV d) .oddPair
  | .atnExch32 d _ _ _ _ => need (evenV d) .oddPair
  | .ldgZ8 _ a _ _ _ => need (evenV a) .oddPair
  | .ldgS8 _ a _ _ _ => need (evenV a) .oddPair
  | .ldgZ16 _ a _ _ _ => need (evenV a) .oddPair
  | .ldgS16 _ a _ _ _ => need (evenV a) .oddPair
  | .ldg32 _ a _ _ _ => need (evenV a) .oddPair
  | .ldg64 d a _ _ _ => need (evenV d) .oddPair <|> need (evenV a) .oddPair
  | .ldg128 d a _ _ _ => need (quadV d) .quadAlign <|> need (evenV a) .oddPair
  | .stg8 _ a _ _ _ => need (evenV a) .oddPair
  | .stg16 _ a _ _ _ => need (evenV a) .oddPair
  | .stg32 _ a _ _ _ => need (evenV a) .oddPair
  | .stg64 d a _ _ _ => need (evenV d) .oddPair <|> need (evenV a) .oddPair
  | .stg128 d a _ _ _ => need (quadV d) .quadAlign <|> need (evenV a) .oddPair
  | .pfg a _ => need (evenV a) .oddPair
  | .atg32 d a _ _ _ => need (evenV d) .oddPair <|> need (evenV a) .oddPair
  | .atg64 d a _ _ _ => need (quadV d) .quadAlign <|> need (evenV a) .oddPair
  | .atf32 d a _ _ _ => need (evenV d) .oddPair <|> need (evenV a) .oddPair
  | .ldp32 _ base _ => need (evenV base) .oddPair
  | .ldp64 d base _ => need (evenV d) .oddPair <|> need (evenV base) .oddPair
  | .ldp128 d base _ => need (quadV d) .quadAlign <|> need (evenV base) .oddPair
  | .pfp base _ => need (evenV base) .oddPair
  | .ldcb32 _ _ _ => none
  | .ldcb64 d _ _ => need (evenV d) .oddPair
  | .ldcb128 d _ _ => need (quadV d) .quadAlign
  | .ldh32 _ base _ => need (evenV base) .oddPair
  | .ldh64 d base _ => need (evenV d) .oddPair <|> need (evenV base) .oddPair
  | .sth32 _ base _ => need (evenV base) .oddPair
  | .sth64 d base _ => need (evenV d) .oddPair <|> need (evenV base) .oddPair
  | .athAdd64 d base _ => need (quadV d) .quadAlign <|> need (evenV base) .oddPair
  | .athCas64 d base _ => need (quadV d) .quadAlign <|> need (evenV base) .oddPair
  | .athExch64 d base _ => need (quadV d) .quadAlign <|> need (evenV base) .oddPair
  | .binit _ count => need (count != 0) .zeroCount
  | .barr _ => none
  | .barrx _ _ => none
  | .bexp _ _ => none
  | .bwait _ _ => none
  | .btest _ _ _ => none
  | .bdrop _ => none
  | .cpgs _ a _ _ => need (evenV a) .oddPair
  | .cpsg _ a _ _ => need (evenV a) .oddPair
  | .cptl _ _ kc _ => need (kc.toNat < 60) .coordBase
  | .cpts _ _ kc _ => need (kc.toNat < 60) .coordBase
  | .cppw ka _ _ => need (evenK ka) .oddPair
  | .waitcnt _ _ _ _ => none
  | .mxpush _ => none
  | .mxfence => none
  | .mxquery _ => none
  | .qblk _ _ _ _ => none
  | .rresv kd _ => need (evenK kd) .oddPair
  | .rcommit _ ka => need (evenK ka) .oddPair
  | .rrecv kd _ => need (evenK kd) .oddPair
  | .rrelease _ ka => need (evenK ka) .oddPair
  | .rtryresv kd _ => need (evenK kd) .oddPair
  | .rtryrecv kd _ => need (evenK kd) .oddPair
  | .rclose _ => none
  | .rstat _ _ => none
  | .pinstall ka => need (evenK ka) .oddPair
  | .pstatus _ _ => none
  | .fence _ _ => none
  | .sealLines ka _ => need (evenK ka) .oddPair
  | .unsealLines ka _ => need (evenK ka) .oddPair
  | .cwb ka _ _ => need (evenK ka) .oddPair
  | .yield => none
  | .wsync _ => none
  | .exit => none
  | .trap _ => none
  | .bkpt => none
  | .rett => none
  | .csrr _ _ => none
  | .csrw _ _ => none
  | .rdcyc d => need (evenV d) .oddPair
  | .wred d a _ t _ => need (t != .f64 || (evenV d && evenV a)) .oddPair
  | .evsig _ => none
  | .movsr _ id => need (id.toNat < 20) .specialId
  | .phaseEnd _ => none
  | .queueDoorbell _ _ => none
  | .queueEntry _ => none
  | .graphStart _ => none
  | .kernelNode _ _ => none
  | .millNode _ _ => none
  | .millStart _ => none
  | .millCoreJoin _ _ => none
  | .copyNode _ _ => none
  | .installNode _ _ => none
  | .condNode _ _ => none
  | .loopNode _ _ => none
  | .loopRearm _ _ => none
  | .eventNode _ _ => none
  | .waitNode _ _ => none
  | .nodeComplete _ _ => none
  | .graphComplete _ => none
  | .qcfgWrite _ _ _ _ => none
  | .evraise _ _ => none
  | .handBlock _ _ => none
  | .placeBlock _ => none
  | .clusterConvert _ _ => none
  | .clusterConvertDone _ _ => none
  | .blockRetire _ => none
  | .gridComplete _ => none
  | .pageWalk _ _ => none
  | .parkPendingAdmit _ => none
  | .memComplete _ => none
  | .fenceComplete _ => none
  | .homeAccess _ _ => none
  | .invalidationAccept _ _ _ => none
  | .invalidationApply _ _ => none
  | .tlbinv _ _ => none
  | .tlbinvDone _ => none
  | .asnroot _ _ _ => none
  | .l2hashWrite _ _ _ => none
  | .migrateStart _ => none
  | .migrateCopied _ => none
  | .migrateFinish _ => none
  | .copyLand _ _ _ => none
  | .copyComplete _ _ => none
  | .loadw _ _ => none
  | .stream _ _ => none
  | .accum _ _ => none
  | .drain _ _ => none
  | .signal _ _ => none
  | .mxComplete _ _ => none
  | .weightStage _ _ => none
  | .weightStageDone _ _ => none
  | .mxPowerGate _ _ _ => none
  | .mxWake _ _ _ => none
  | .installAccept _ _ => none
  | .engraveRead _ _ _ => none
  | .engraveProgram _ _ _ _ _ => none
  | .engraveVerify _ _ _ _ => none
  | .plateSwitch _ _ _ => none
  | .blockReclaim _ _ _ => none
  | .blockErase _ _ _ => none
  | .raceGrant _ _ => none
  | .commitComplete _ => none
  | .releaseComplete _ => none
  | .millComplete _ => none
  | .millwrightStep _ _ => none
  | .waferMillwrightStep _ => none
  | .occSample _ _ _ => none
  | .moveApply _ => none
  | .preemptCommand _ _ => none
  | .drainBudgetExpire _ => none
  | .flushRelease _ => none
  | .saveWrite _ => none
  | .preemptDone _ => none
  | .fqpop _ => none
  | .fqResume _ _ => none
  | .fqDeliver _ _ => none
  | .fqAbort _ _ => none
  | .l1TagParityError _ _ => none
  | .linkCrcFail _ _ => none
  | .packetForward _ _ => none
  | .rtArm _ _ => none
  | .rtSelect _ _ => none
  | .rtDrain _ _ => none
  | .rtClear _ => none
  | .drainTokenVisit _ => none
  | .nameAgeTick _ => none
  | .renameCore _ _ => none
  | .renameComplete _ => none
  | .vfctlWrite _ _ => none
  | .linkPauseEnd _ => none
  | .powerLimitTick _ => none
  | .ctreeBuild _ _ _ _ => none
  | .wredRoundResult _ _ _ _ => none
  | .peerAccess _ _ _ _ _ => none
  | .hostMemAccess _ _ _ _ _ => none
  | .attest _ _ => none
  | .gdaybookWrite _ _ => none
  | .gdaybookArm _ => none
  | .partmap _ _ => none
  | .powerOn => none
  | .domainReset _ => none
  | .registerWrite _ _ _ _ => none
  | .holdLift _ _ => none
  | .gridEnd _ => none
  | .ticketAbort _ _ => none
  | .keepMarkClear _ => none
  | .virtualInterfaceReset _ => none
  | .powerLoss => none
  | .hostCompletionTimeout _ _ => none
  | .sealComplete _ => none
  | .linkTakeDown _ => none

/-- The field values are ones the word may carry. -/
def Instr.WellFormed (i : Instr) : Prop := i.breach = none

/-- The number of bytes of the instruction's word (R44), or 0 for a step that has no word. -/
def Instr.len : Instr → Nat
  | .shortMov _ _ => 2
  | .shortIadd _ _ => 2
  | .shortIsub _ _ => 2
  | .shortImul _ _ => 2
  | .shortAnd _ _ => 2
  | .shortOr _ _ => 2
  | .shortXor _ _ => 2
  | .shortShl _ _ => 2
  | .shortShrl _ _ => 2
  | .shortShra _ _ => 2
  | .shortFadd _ _ => 2
  | .shortFsub _ _ => 2
  | .shortFmul _ _ => 2
  | .shortFmax _ _ => 2
  | .shortFmin _ _ => 2
  | .shortIaddi _ _ => 2
  | .iadd _ _ _ => 4
  | .isub _ _ _ => 4
  | .imul _ _ _ => 4
  | .imulhi _ _ _ => 4
  | .imulhin _ _ _ => 4
  | .imad _ _ _ => 4
  | .imin _ _ _ => 4
  | .imax _ _ _ => 4
  | .iminn _ _ _ => 4
  | .imaxn _ _ _ => 4
  | .and _ _ _ => 4
  | .or _ _ _ => 4
  | .xor _ _ _ => 4
  | .andn _ _ _ => 4
  | .shl _ _ _ => 4
  | .shrl _ _ _ => 4
  | .shra _ _ _ => 4
  | .rotl _ _ _ => 4
  | .sel _ _ _ => 4
  | .iaddsat _ _ _ => 4
  | .isubsat _ _ _ => 4
  | .bfx _ _ _ => 4
  | .bfi _ _ _ => 4
  | .iadd64 _ _ _ => 4
  | .isub64 _ _ _ => 4
  | .imulw _ _ _ => 4
  | .imulwn _ _ _ => 4
  | .shl64 _ _ _ => 4
  | .shrl64 _ _ _ => 4
  | .shra64 _ _ _ => 4
  | .iseq _ _ _ => 4
  | .isne _ _ _ => 4
  | .islt _ _ _ => 4
  | .isle _ _ _ => 4
  | .isltn _ _ _ => 4
  | .islen _ _ _ => 4
  | .fadd _ _ _ => 4
  | .fsub _ _ _ => 4
  | .fmul _ _ _ => 4
  | .ffma _ _ _ => 4
  | .fmin _ _ _ => 4
  | .fmax _ _ _ => 4
  | .fseq _ _ _ => 4
  | .fsne _ _ _ => 4
  | .fslt _ _ _ => 4
  | .fsle _ _ _ => 4
  | .fsuno _ _ _ => 4
  | .fcopysign _ _ _ => 4
  | .dadd _ _ _ => 4
  | .dsub _ _ _ => 4
  | .dmul _ _ _ => 4
  | .dfma _ _ _ => 4
  | .dmin _ _ _ => 4
  | .dmax _ _ _ => 4
  | .dseq _ _ _ => 4
  | .dslt _ _ _ => 4
  | .dsle _ _ _ => 4
  | .dsuno _ _ _ => 4
  | .hadd2 _ _ _ => 4
  | .hmul2 _ _ _ => 4
  | .hfma2 _ _ _ => 4
  | .badd2 _ _ _ => 4
  | .bmul2 _ _ _ => 4
  | .bfma2 _ _ _ => 4
  | .cvtF32I32 _ _ => 4
  | .cvtF32N32 _ _ => 4
  | .cvtI32F32 _ _ => 4
  | .cvtN32F32 _ _ => 4
  | .cvtF64F32 _ _ => 4
  | .cvtF32F64 _ _ => 4
  | .cvtF64I32 _ _ => 4
  | .cvtI32F64 _ _ => 4
  | .cvtF64I64 _ _ => 4
  | .cvtI64F64 _ _ => 4
  | .cvtF16x2F32 _ _ _ => 4
  | .cvtBf16x2F32 _ _ _ => 4
  | .cvtF32F16 _ _ _ => 4
  | .cvtF32Bf16 _ _ _ => 4
  | .cvtF32E4m3 _ _ _ => 4
  | .cvtF32E5m2 _ _ _ => 4
  | .cvtE4m3x4F32 _ _ _ => 4
  | .cvtE5m2x4F32 _ _ _ => 4
  | .frint _ _ => 4
  | .fclass _ _ => 4
  | .fabs _ _ => 4
  | .fneg _ _ => 4
  | .popc _ _ => 4
  | .clz _ _ => 4
  | .brev _ _ => 4
  | .frcp _ _ => 4
  | .frsq _ _ => 4
  | .fsqrt _ _ => 4
  | .fdiv _ _ _ => 4
  | .fex2 _ _ => 4
  | .flg2 _ _ => 4
  | .ddiv _ _ _ => 4
  | .dsqrt _ _ => 4
  | .idiv _ _ _ => 4
  | .irem _ _ _ => 4
  | .idivn _ _ _ => 4
  | .iremn _ _ _ => 4
  | .shfl _ _ _ => 4
  | .shflup _ _ _ => 4
  | .shfldn _ _ _ => 4
  | .shflx _ _ _ => 4
  | .ballot _ _ => 4
  | .vany _ _ => 4
  | .vall _ _ => 4
  | .redadd _ _ => 4
  | .redfadd _ _ => 4
  | .redmax _ _ => 4
  | .redmin _ _ => 4
  | .scanadd _ _ => 4
  | .movx _ _ => 4
  | .movxw _ _ => 4
  | .setx _ _ => 4
  | .getx _ _ => 4
  | .mov64 _ _ => 4
  | .iaddi _ _ _ => 4
  | .andi _ _ _ => 4
  | .ori _ _ _ => 4
  | .xori _ _ _ => 4
  | .shli _ _ _ => 4
  | .shrli _ _ _ => 4
  | .shrai _ _ _ => 4
  | .iseqi _ _ _ => 4
  | .islti _ _ _ => 4
  | .isltni _ _ _ => 4
  | .imuli _ _ _ => 4
  | .iadd64i _ _ _ => 4
  | .movk _ _ => 4
  | .isnei _ _ _ => 4
  | .movi _ _ => 4
  | .movhi _ _ => 4
  | .bra _ => 4
  | .bnz _ _ => 4
  | .bz _ _ => 4
  | .call _ => 4
  | .callr _ => 4
  | .ret => 4
  | .jmpr _ => 4
  | .kbnz _ _ => 4
  | .kbz _ _ => 4
  | .kadd _ _ _ => 4
  | .ksub _ _ _ => 4
  | .kmul _ _ _ => 4
  | .kand _ _ _ => 4
  | .kor _ _ _ => 4
  | .kxor _ _ _ => 4
  | .kshl _ _ _ => 4
  | .kshr _ _ _ => 4
  | .ksra _ _ _ => 4
  | .kaddi _ _ _ => 4
  | .kseq _ _ _ => 4
  | .kslt _ _ _ => 4
  | .ksltn _ _ _ => 4
  | .kmin _ _ _ => 4
  | .kmax _ _ _ => 4
  | .ksel _ _ _ => 4
  | .kadd64 _ _ _ => 4
  | .kmovv _ _ => 4
  | .kldcb _ _ _ => 4
  | .kli _ _ => 4
  | .klih _ _ => 4
  | .kmulhi _ _ _ => 4
  | .lds32 _ _ _ => 4
  | .lds64 _ _ _ => 4
  | .lds128 _ _ _ => 4
  | .sts32 _ _ _ => 4
  | .sts64 _ _ _ => 4
  | .sts128 _ _ _ => 4
  | .atsAdd32 _ _ _ => 4
  | .atsExch32 _ _ _ => 4
  | .ldn32 _ _ _ _ _ => 4
  | .ldn64 _ _ _ _ _ => 4
  | .ldn128 _ _ _ _ _ => 4
  | .stn32 _ _ _ _ _ => 4
  | .stn64 _ _ _ _ _ => 4
  | .stn128 _ _ _ _ _ => 4
  | .atnAdd32 _ _ _ _ _ => 4
  | .atnExch32 _ _ _ _ _ => 4
  | .ldgZ8 _ _ _ _ _ => 4
  | .ldgS8 _ _ _ _ _ => 4
  | .ldgZ16 _ _ _ _ _ => 4
  | .ldgS16 _ _ _ _ _ => 4
  | .ldg32 _ _ _ _ _ => 4
  | .ldg64 _ _ _ _ _ => 4
  | .ldg128 _ _ _ _ _ => 4
  | .stg8 _ _ _ _ _ => 4
  | .stg16 _ _ _ _ _ => 4
  | .stg32 _ _ _ _ _ => 4
  | .stg64 _ _ _ _ _ => 4
  | .stg128 _ _ _ _ _ => 4
  | .pfg _ _ => 4
  | .atg32 _ _ _ _ _ => 4
  | .atg64 _ _ _ _ _ => 4
  | .atf32 _ _ _ _ _ => 4
  | .ldp32 _ _ _ => 4
  | .ldp64 _ _ _ => 4
  | .ldp128 _ _ _ => 4
  | .pfp _ _ => 4
  | .ldcb32 _ _ _ => 4
  | .ldcb64 _ _ _ => 4
  | .ldcb128 _ _ _ => 4
  | .ldh32 _ _ _ => 4
  | .ldh64 _ _ _ => 4
  | .sth32 _ _ _ => 4
  | .sth64 _ _ _ => 4
  | .athAdd64 _ _ _ => 4
  | .athCas64 _ _ _ => 4
  | .athExch64 _ _ _ => 4
  | .binit _ _ => 4
  | .barr _ => 4
  | .barrx _ _ => 4
  | .bexp _ _ => 4
  | .bwait _ _ => 4
  | .btest _ _ _ => 4
  | .bdrop _ => 4
  | .cpgs _ _ _ _ => 4
  | .cpsg _ _ _ _ => 4
  | .cptl _ _ _ _ => 4
  | .cpts _ _ _ _ => 4
  | .cppw _ _ _ => 4
  | .waitcnt _ _ _ _ => 4
  | .mxpush _ => 4
  | .mxfence => 4
  | .mxquery _ => 4
  | .qblk _ _ _ _ => 4
  | .rresv _ _ => 4
  | .rcommit _ _ => 4
  | .rrecv _ _ => 4
  | .rrelease _ _ => 4
  | .rtryresv _ _ => 4
  | .rtryrecv _ _ => 4
  | .rclose _ => 4
  | .rstat _ _ => 4
  | .pinstall _ => 4
  | .pstatus _ _ => 4
  | .fence _ _ => 4
  | .sealLines _ _ => 4
  | .unsealLines _ _ => 4
  | .cwb _ _ _ => 4
  | .yield => 4
  | .wsync _ => 4
  | .exit => 4
  | .trap _ => 4
  | .bkpt => 4
  | .rett => 4
  | .csrr _ _ => 4
  | .csrw _ _ => 4
  | .rdcyc _ => 4
  | .wred _ _ _ _ _ => 4
  | .evsig _ => 4
  | .movsr _ _ => 4
  | .phaseEnd _ => 0
  | .queueDoorbell _ _ => 0
  | .queueEntry _ => 0
  | .graphStart _ => 0
  | .kernelNode _ _ => 0
  | .millNode _ _ => 0
  | .millStart _ => 0
  | .millCoreJoin _ _ => 0
  | .copyNode _ _ => 0
  | .installNode _ _ => 0
  | .condNode _ _ => 0
  | .loopNode _ _ => 0
  | .loopRearm _ _ => 0
  | .eventNode _ _ => 0
  | .waitNode _ _ => 0
  | .nodeComplete _ _ => 0
  | .graphComplete _ => 0
  | .qcfgWrite _ _ _ _ => 0
  | .evraise _ _ => 0
  | .handBlock _ _ => 0
  | .placeBlock _ => 0
  | .clusterConvert _ _ => 0
  | .clusterConvertDone _ _ => 0
  | .blockRetire _ => 0
  | .gridComplete _ => 0
  | .pageWalk _ _ => 0
  | .parkPendingAdmit _ => 0
  | .memComplete _ => 0
  | .fenceComplete _ => 0
  | .homeAccess _ _ => 0
  | .invalidationAccept _ _ _ => 0
  | .invalidationApply _ _ => 0
  | .tlbinv _ _ => 0
  | .tlbinvDone _ => 0
  | .asnroot _ _ _ => 0
  | .l2hashWrite _ _ _ => 0
  | .migrateStart _ => 0
  | .migrateCopied _ => 0
  | .migrateFinish _ => 0
  | .copyLand _ _ _ => 0
  | .copyComplete _ _ => 0
  | .loadw _ _ => 0
  | .stream _ _ => 0
  | .accum _ _ => 0
  | .drain _ _ => 0
  | .signal _ _ => 0
  | .mxComplete _ _ => 0
  | .weightStage _ _ => 0
  | .weightStageDone _ _ => 0
  | .mxPowerGate _ _ _ => 0
  | .mxWake _ _ _ => 0
  | .installAccept _ _ => 0
  | .engraveRead _ _ _ => 0
  | .engraveProgram _ _ _ _ _ => 0
  | .engraveVerify _ _ _ _ => 0
  | .plateSwitch _ _ _ => 0
  | .blockReclaim _ _ _ => 0
  | .blockErase _ _ _ => 0
  | .raceGrant _ _ => 0
  | .commitComplete _ => 0
  | .releaseComplete _ => 0
  | .millComplete _ => 0
  | .millwrightStep _ _ => 0
  | .waferMillwrightStep _ => 0
  | .occSample _ _ _ => 0
  | .moveApply _ => 0
  | .preemptCommand _ _ => 0
  | .drainBudgetExpire _ => 0
  | .flushRelease _ => 0
  | .saveWrite _ => 0
  | .preemptDone _ => 0
  | .fqpop _ => 0
  | .fqResume _ _ => 0
  | .fqDeliver _ _ => 0
  | .fqAbort _ _ => 0
  | .l1TagParityError _ _ => 0
  | .linkCrcFail _ _ => 0
  | .packetForward _ _ => 0
  | .rtArm _ _ => 0
  | .rtSelect _ _ => 0
  | .rtDrain _ _ => 0
  | .rtClear _ => 0
  | .drainTokenVisit _ => 0
  | .nameAgeTick _ => 0
  | .renameCore _ _ => 0
  | .renameComplete _ => 0
  | .vfctlWrite _ _ => 0
  | .linkPauseEnd _ => 0
  | .powerLimitTick _ => 0
  | .ctreeBuild _ _ _ _ => 0
  | .wredRoundResult _ _ _ _ => 0
  | .peerAccess _ _ _ _ _ => 0
  | .hostMemAccess _ _ _ _ _ => 0
  | .attest _ _ => 0
  | .gdaybookWrite _ _ => 0
  | .gdaybookArm _ => 0
  | .partmap _ _ => 0
  | .powerOn => 0
  | .domainReset _ => 0
  | .registerWrite _ _ _ _ => 0
  | .holdLift _ _ => 0
  | .gridEnd _ => 0
  | .ticketAbort _ _ => 0
  | .keepMarkClear _ => 0
  | .virtualInterfaceReset _ => 0
  | .powerLoss => 0
  | .hostCompletionTimeout _ _ => 0
  | .sealComplete _ => 0
  | .linkTakeDown _ => 0

end Sys2Proof
end

