-- ==== Sys2Proof/Decode.lean ====
section
/-!
DEFINITION. Decoding of instruction words (R44-R65), total on any bytes, every refused word by the
name of its reason; and after it the encoder, written from the same field lines.
-/
namespace Sys2Proof

/-- Why a pattern of bits is no instruction. Every one of the first five traps ILLEGAL (R65). -/
inductive Reject where
  /-- The format reserves the opcode value (R51-R55, R60-R63). -/
  | reservedOp
  /-- MEM space 6 or 7 (R56). -/
  | reservedSpace
  /-- A selector, size, policy, order, function or type field holds a reserved value, or vb[6] is 1 with K = 1. -/
  | reservedValue
  /-- A must-be-zero bit is 1, or K = 1 where vb has shape Z or S (R48). -/
  | mustBeZero
  /-- A field holds a value its shape does not allow (R47). -/
  | shape (b : Breach)
  /-- The byte list ends inside the word; fetch never gives such a list (R22). -/
  | truncated
  deriving DecidableEq, Repr

/-- Bits [lo+n-1:lo] of a word. -/
def field (w lo n : Nat) : Nat := w / 2 ^ lo % 2 ^ n

/-- The instruction, if the must-be-zero bits are zero (R65). -/
def zeros (c : Bool) (i : Instr) : Except Reject Instr := if c then .ok i else .error .mustBeZero

/-- The instruction, if the field holds a value that is not reserved (R65). -/
def legal (c : Option Instr) : Except Reject Instr :=
  match c with
  | some i => .ok i
  | none => .error .reservedValue

/-- The Order field of a word. -/
def Order.ofCode : Nat → Option Order
  | 0 => some .rlx
  | 1 => some .sync
  | 2 => some .sc
  | _ => none

/-- The code of the Order field. -/
def Order.code : Order → Nat
  | .rlx => 0
  | .sync => 1
  | .sc => 2

/-- The Scope field of a word. -/
def Scope.ofCode : Nat → Option Scope
  | 0 => some .blk
  | 1 => some .dom
  | 2 => some .waf
  | 3 => some .sys
  | _ => none

/-- The code of the Scope field. -/
def Scope.code : Scope → Nat
  | .blk => 0
  | .dom => 1
  | .waf => 2
  | .sys => 3

/-- The Policy field of a word. -/
def Policy.ofCode : Nat → Option Policy
  | 0 => some .normal
  | 1 => some .stream
  | 2 => some .noL1
  | 3 => some .keepL2
  | 4 => some .noL2A
  | _ => none

/-- The code of the Policy field. -/
def Policy.code : Policy → Nat
  | .normal => 0
  | .stream => 1
  | .noL1 => 2
  | .keepL2 => 3
  | .noL2A => 4

/-- The AtomFn field of a word. -/
def AtomFn.ofCode : Nat → Option AtomFn
  | 0 => some .add
  | 1 => some .and
  | 2 => some .or
  | 3 => some .xor
  | 4 => some .smin
  | 5 => some .smax
  | 6 => some .exch
  | 7 => some .cas
  | _ => none

/-- The code of the AtomFn field. -/
def AtomFn.code : AtomFn → Nat
  | .add => 0
  | .and => 1
  | .or => 2
  | .xor => 3
  | .smin => 4
  | .smax => 5
  | .exch => 6
  | .cas => 7

/-- The AtfFn field of a word. -/
def AtfFn.ofCode : Nat → Option AtfFn
  | 0 => some .fadd
  | 1 => some .fmin
  | 2 => some .fmax
  | _ => none

/-- The code of the AtfFn field. -/
def AtfFn.code : AtfFn → Nat
  | .fadd => 0
  | .fmin => 1
  | .fmax => 2

/-- The FenceKind field of a word. -/
def FenceKind.ofCode : Nat → Option FenceKind
  | 0 => some .acq
  | 1 => some .rel
  | 2 => some .acqrel
  | 3 => some .sc
  | _ => none

/-- The code of the FenceKind field. -/
def FenceKind.code : FenceKind → Nat
  | .acq => 0
  | .rel => 1
  | .acqrel => 2
  | .sc => 3

/-- The CpSize field of a word. -/
def CpSize.ofCode : Nat → Option CpSize
  | 0 => some .b4
  | 1 => some .b8
  | 2 => some .b16
  | _ => none

/-- The code of the CpSize field. -/
def CpSize.code : CpSize → Nat
  | .b4 => 0
  | .b8 => 1
  | .b16 => 2

/-- The RedOp field of a word. -/
def RedOp.ofCode : Nat → Option RedOp
  | 0 => some .sum
  | 1 => some .min
  | 2 => some .max
  | _ => none

/-- The code of the RedOp field. -/
def RedOp.code : RedOp → Nat
  | .sum => 0
  | .min => 1
  | .max => 2

/-- The RedType field of a word. -/
def RedType.ofCode : Nat → Option RedType
  | 0 => some .i32
  | 1 => some .f32
  | 2 => some .f64
  | _ => none

/-- The code of the RedType field. -/
def RedType.code : RedType → Nat
  | .i32 => 0
  | .f32 => 1
  | .f64 => 2

/-- The vb operand: with K = 1 bit 6 must be 0 (R48). -/
def Src.ofCode (k vb : Nat) : Option Src :=
  if k = 0 then some (.v (BitVec.ofNat 7 vb))
  else if vb < 64 then some (.k (BitVec.ofNat 6 vb))
  else none

/-- The vb field and the K bit, shifted to their places (R46). -/
def Src.code : Src → Nat
  | .v r => r.toNat * 2 ^ 25
  | .k r => r.toNat * 2 ^ 25 + 16

/-- The SHORT word (R45). -/
def decodeShort (w : Nat) : Instr :=
  let d := BitVec.ofNat 6 (field w 5 6)
  let s := BitVec.ofNat 5 (field w 11 5)
  match field w 1 4 with
  | 0 => .shortMov d s
  | 1 => .shortIadd d s
  | 2 => .shortIsub d s
  | 3 => .shortImul d s
  | 4 => .shortAnd d s
  | 5 => .shortOr d s
  | 6 => .shortXor d s
  | 7 => .shortShl d s
  | 8 => .shortShrl d s
  | 9 => .shortShra d s
  | 10 => .shortFadd d s
  | 11 => .shortFsub d s
  | 12 => .shortFmul d s
  | 13 => .shortFmax d s
  | 14 => .shortFmin d s
  | _ => .shortIaddi d s

/-- ALU-A: every op6 is defined (R50). -/
def decodeAluA (w : Nat) : Except Reject Instr :=
  let d := BitVec.ofNat 7 (field w 11 7)
  let a := BitVec.ofNat 7 (field w 18 7)
  match field w 5 6 with
  | 0 => legal ((Src.ofCode (field w 4 1) (field w 25 7)).map fun b => .iadd d a b)
  | 1 => legal ((Src.ofCode (field w 4 1) (field w 25 7)).map fun b => .isub d a b)
  | 2 => legal ((Src.ofCode (field w 4 1) (field w 25 7)).map fun b => .imul d a b)
  | 3 => legal ((Src.ofCode (field w 4 1) (field w 25 7)).map fun b => .imulhi d a b)
  | 4 => legal ((Src.ofCode (field w 4 1) (field w 25 7)).map fun b => .imulhin d a b)
  | 5 => legal ((Src.ofCode (field w 4 1) (field w 25 7)).map fun b => .imad d a b)
  | 6 => legal ((Src.ofCode (field w 4 1) (field w 25 7)).map fun b => .imin d a b)
  | 7 => legal ((Src.ofCode (field w 4 1) (field w 25 7)).map fun b => .imax d a b)
  | 8 => legal ((Src.ofCode (field w 4 1) (field w 25 7)).map fun b => .iminn d a b)
  | 9 => legal ((Src.ofCode (field w 4 1) (field w 25 7)).map fun b => .imaxn d a b)
  | 10 => legal ((Src.ofCode (field w 4 1) (field w 25 7)).map fun b => .and d a b)
  | 11 => legal ((Src.ofCode (field w 4 1) (field w 25 7)).map fun b => .or d a b)
  | 12 => legal ((Src.ofCode (field w 4 1) (field w 25 7)).map fun b => .xor d a b)
  | 13 => legal ((Src.ofCode (field w 4 1) (field w 25 7)).map fun b => .andn d a b)
  | 14 => legal ((Src.ofCode (field w 4 1) (field w 25 7)).map fun b => .shl d a b)
  | 15 => legal ((Src.ofCode (field w 4 1) (field w 25 7)).map fun b => .shrl d a b)
  | 16 => legal ((Src.ofCode (field w 4 1) (field w 25 7)).map fun b => .shra d a b)
  | 17 => legal ((Src.ofCode (field w 4 1) (field w 25 7)).map fun b => .rotl d a b)
  | 18 => legal ((Src.ofCode (field w 4 1) (field w 25 7)).map fun b => .sel d a b)
  | 19 => legal ((Src.ofCode (field w 4 1) (field w 25 7)).map fun b => .iaddsat d a b)
  | 20 => legal ((Src.ofCode (field w 4 1) (field w 25 7)).map fun b => .isubsat d a b)
  | 21 => legal ((Src.ofCode (field w 4 1) (field w 25 7)).map fun b => .bfx d a b)
  | 22 => legal ((Src.ofCode (field w 4 1) (field w 25 7)).map fun b => .bfi d a b)
  | 23 => legal ((Src.ofCode (field w 4 1) (field w 25 7)).map fun b => .iadd64 d a b)
  | 24 => legal ((Src.ofCode (field w 4 1) (field w 25 7)).map fun b => .isub64 d a b)
  | 25 => legal ((Src.ofCode (field w 4 1) (field w 25 7)).map fun b => .imulw d a b)
  | 26 => legal ((Src.ofCode (field w 4 1) (field w 25 7)).map fun b => .imulwn d a b)
  | 27 => legal ((Src.ofCode (field w 4 1) (field w 25 7)).map fun b => .shl64 d a b)
  | 28 => legal ((Src.ofCode (field w 4 1) (field w 25 7)).map fun b => .shrl64 d a b)
  | 29 => legal ((Src.ofCode (field w 4 1) (field w 25 7)).map fun b => .shra64 d a b)
  | 30 => legal ((Src.ofCode (field w 4 1) (field w 25 7)).map fun b => .iseq d a b)
  | 31 => legal ((Src.ofCode (field w 4 1) (field w 25 7)).map fun b => .isne d a b)
  | 32 => legal ((Src.ofCode (field w 4 1) (field w 25 7)).map fun b => .islt d a b)
  | 33 => legal ((Src.ofCode (field w 4 1) (field w 25 7)).map fun b => .isle d a b)
  | 34 => legal ((Src.ofCode (field w 4 1) (field w 25 7)).map fun b => .isltn d a b)
  | 35 => legal ((Src.ofCode (field w 4 1) (field w 25 7)).map fun b => .islen d a b)
  | 36 => legal ((Src.ofCode (field w 4 1) (field w 25 7)).map fun b => .fadd d a b)
  | 37 => legal ((Src.ofCode (field w 4 1) (field w 25 7)).map fun b => .fsub d a b)
  | 38 => legal ((Src.ofCode (field w 4 1) (field w 25 7)).map fun b => .fmul d a b)
  | 39 => legal ((Src.ofCode (field w 4 1) (field w 25 7)).map fun b => .ffma d a b)
  | 40 => legal ((Src.ofCode (field w 4 1) (field w 25 7)).map fun b => .fmin d a b)
  | 41 => legal ((Src.ofCode (field w 4 1) (field w 25 7)).map fun b => .fmax d a b)
  | 42 => legal ((Src.ofCode (field w 4 1) (field w 25 7)).map fun b => .fseq d a b)
  | 43 => legal ((Src.ofCode (field w 4 1) (field w 25 7)).map fun b => .fsne d a b)
  | 44 => legal ((Src.ofCode (field w 4 1) (field w 25 7)).map fun b => .fslt d a b)
  | 45 => legal ((Src.ofCode (field w 4 1) (field w 25 7)).map fun b => .fsle d a b)
  | 46 => legal ((Src.ofCode (field w 4 1) (field w 25 7)).map fun b => .fsuno d a b)
  | 47 => legal ((Src.ofCode (field w 4 1) (field w 25 7)).map fun b => .fcopysign d a b)
  | 48 => legal ((Src.ofCode (field w 4 1) (field w 25 7)).map fun b => .dadd d a b)
  | 49 => legal ((Src.ofCode (field w 4 1) (field w 25 7)).map fun b => .dsub d a b)
  | 50 => legal ((Src.ofCode (field w 4 1) (field w 25 7)).map fun b => .dmul d a b)
  | 51 => legal ((Src.ofCode (field w 4 1) (field w 25 7)).map fun b => .dfma d a b)
  | 52 => legal ((Src.ofCode (field w 4 1) (field w 25 7)).map fun b => .dmin d a b)
  | 53 => legal ((Src.ofCode (field w 4 1) (field w 25 7)).map fun b => .dmax d a b)
  | 54 => legal ((Src.ofCode (field w 4 1) (field w 25 7)).map fun b => .dseq d a b)
  | 55 => legal ((Src.ofCode (field w 4 1) (field w 25 7)).map fun b => .dslt d a b)
  | 56 => legal ((Src.ofCode (field w 4 1) (field w 25 7)).map fun b => .dsle d a b)
  | 57 => legal ((Src.ofCode (field w 4 1) (field w 25 7)).map fun b => .dsuno d a b)
  | 58 => legal ((Src.ofCode (field w 4 1) (field w 25 7)).map fun b => .hadd2 d a b)
  | 59 => legal ((Src.ofCode (field w 4 1) (field w 25 7)).map fun b => .hmul2 d a b)
  | 60 => legal ((Src.ofCode (field w 4 1) (field w 25 7)).map fun b => .hfma2 d a b)
  | 61 => legal ((Src.ofCode (field w 4 1) (field w 25 7)).map fun b => .badd2 d a b)
  | 62 => legal ((Src.ofCode (field w 4 1) (field w 25 7)).map fun b => .bmul2 d a b)
  | 63 => legal ((Src.ofCode (field w 4 1) (field w 25 7)).map fun b => .bfma2 d a b)
  | _ => .error .reservedOp

/-- ALU-B (R51). Where vb has shape Z or S, K must be 0 (R48). -/
def decodeAluB (w : Nat) : Except Reject Instr :=
  let d := BitVec.ofNat 7 (field w 11 7)
  let a := BitVec.ofNat 7 (field w 18 7)
  match field w 5 6 with
  | 0 => zeros (field w 4 1 == 0 && field w 25 7 == 0) (.cvtF32I32 d a)
  | 1 => zeros (field w 4 1 == 0 && field w 25 7 == 0) (.cvtF32N32 d a)
  | 2 => zeros (field w 4 1 == 0 && field w 25 7 == 0) (.cvtI32F32 d a)
  | 3 => zeros (field w 4 1 == 0 && field w 25 7 == 0) (.cvtN32F32 d a)
  | 4 => zeros (field w 4 1 == 0 && field w 25 7 == 0) (.cvtF64F32 d a)
  | 5 => zeros (field w 4 1 == 0 && field w 25 7 == 0) (.cvtF32F64 d a)
  | 6 => zeros (field w 4 1 == 0 && field w 25 7 == 0) (.cvtF64I32 d a)
  | 7 => zeros (field w 4 1 == 0 && field w 25 7 == 0) (.cvtI32F64 d a)
  | 8 => zeros (field w 4 1 == 0 && field w 25 7 == 0) (.cvtF64I64 d a)
  | 9 => zeros (field w 4 1 == 0 && field w 25 7 == 0) (.cvtI64F64 d a)
  | 10 => legal ((Src.ofCode (field w 4 1) (field w 25 7)).map fun b => .cvtF16x2F32 d a b)
  | 11 => legal ((Src.ofCode (field w 4 1) (field w 25 7)).map fun b => .cvtBf16x2F32 d a b)
  | 12 => zeros (field w 4 1 == 0 && field w 26 6 == 0) (.cvtF32F16 d a (BitVec.ofNat 1 (field w 25 1)))
  | 13 => zeros (field w 4 1 == 0 && field w 26 6 == 0) (.cvtF32Bf16 d a (BitVec.ofNat 1 (field w 25 1)))
  | 14 => zeros (field w 4 1 == 0 && field w 27 5 == 0) (.cvtF32E4m3 d a (BitVec.ofNat 2 (field w 25 2)))
  | 15 => zeros (field w 4 1 == 0 && field w 27 5 == 0) (.cvtF32E5m2 d a (BitVec.ofNat 2 (field w 25 2)))
  | 16 => legal ((Src.ofCode (field w 4 1) (field w 25 7)).map fun b => .cvtE4m3x4F32 d a b)
  | 17 => legal ((Src.ofCode (field w 4 1) (field w 25 7)).map fun b => .cvtE5m2x4F32 d a b)
  | 18 => zeros (field w 4 1 == 0 && field w 25 7 == 0) (.frint d a)
  | 19 => zeros (field w 4 1 == 0 && field w 25 7 == 0) (.fclass d a)
  | 20 => zeros (field w 4 1 == 0 && field w 25 7 == 0) (.fabs d a)
  | 21 => zeros (field w 4 1 == 0 && field w 25 7 == 0) (.fneg d a)
  | 22 => zeros (field w 4 1 == 0 && field w 25 7 == 0) (.popc d a)
  | 23 => zeros (field w 4 1 == 0 && field w 25 7 == 0) (.clz d a)
  | 24 => zeros (field w 4 1 == 0 && field w 25 7 == 0) (.brev d a)
  | 25 => zeros (field w 4 1 == 0 && field w 25 7 == 0) (.frcp d a)
  | 26 => zeros (field w 4 1 == 0 && field w 25 7 == 0) (.frsq d a)
  | 27 => zeros (field w 4 1 == 0 && field w 25 7 == 0) (.fsqrt d a)
  | 28 => legal ((Src.ofCode (field w 4 1) (field w 25 7)).map fun b => .fdiv d a b)
  | 29 => zeros (field w 4 1 == 0 && field w 25 7 == 0) (.fex2 d a)
  | 30 => zeros (field w 4 1 == 0 && field w 25 7 == 0) (.flg2 d a)
  | 34 => legal ((Src.ofCode (field w 4 1) (field w 25 7)).map fun b => .ddiv d a b)
  | 35 => zeros (field w 4 1 == 0 && field w 25 7 == 0) (.dsqrt d a)
  | 36 => legal ((Src.ofCode (field w 4 1) (field w 25 7)).map fun b => .idiv d a b)
  | 37 => legal ((Src.ofCode (field w 4 1) (field w 25 7)).map fun b => .irem d a b)
  | 38 => legal ((Src.ofCode (field w 4 1) (field w 25 7)).map fun b => .idivn d a b)
  | 39 => legal ((Src.ofCode (field w 4 1) (field w 25 7)).map fun b => .iremn d a b)
  | 40 => legal ((Src.ofCode (field w 4 1) (field w 25 7)).map fun b => .shfl d a b)
  | 41 => legal ((Src.ofCode (field w 4 1) (field w 25 7)).map fun b => .shflup d a b)
  | 42 => legal ((Src.ofCode (field w 4 1) (field w 25 7)).map fun b => .shfldn d a b)
  | 43 => legal ((Src.ofCode (field w 4 1) (field w 25 7)).map fun b => .shflx d a b)
  | 44 => zeros (field w 4 1 == 0 && field w 25 7 == 0) (.ballot d a)
  | 45 => zeros (field w 4 1 == 0 && field w 25 7 == 0) (.vany d a)
  | 46 => zeros (field w 4 1 == 0 && field w 25 7 == 0) (.vall d a)
  | 47 => zeros (field w 4 1 == 0 && field w 25 7 == 0) (.redadd d a)
  | 48 => zeros (field w 4 1 == 0 && field w 25 7 == 0) (.redfadd d a)
  | 49 => zeros (field w 4 1 == 0 && field w 25 7 == 0) (.redmax d a)
  | 50 => zeros (field w 4 1 == 0 && field w 25 7 == 0) (.redmin d a)
  | 51 => zeros (field w 4 1 == 0 && field w 25 7 == 0) (.scanadd d a)
  | 52 => zeros (field w 4 1 == 0 && field w 18 7 == 0 && field w 27 5 == 0) (.movx d (BitVec.ofNat 2 (field w 25 2)))
  | 53 => zeros (field w 4 1 == 0 && field w 11 7 == 0 && field w 27 5 == 0) (.movxw (BitVec.ofNat 2 (field w 25 2)) a)
  | 54 => zeros (field w 4 1 == 0 && field w 11 7 == 0 && field w 27 5 == 0) (.setx (BitVec.ofNat 2 (field w 25 2)) a)
  | 55 => zeros (field w 4 1 == 0 && field w 18 7 == 0 && field w 27 5 == 0) (.getx d (BitVec.ofNat 2 (field w 25 2)))
  | 56 => zeros (field w 4 1 == 0 && field w 25 7 == 0) (.mov64 d a)
  | _ => .error .reservedOp

/-- IMM (R52). -/
def decodeImm (w : Nat) : Except Reject Instr :=
  let d := BitVec.ofNat 7 (field w 9 7)
  let a := BitVec.ofNat 7 (field w 16 7)
  match field w 4 5 with
  | 0 => .ok (.iaddi d a (BitVec.ofNat 9 (field w 23 9)))
  | 1 => .ok (.andi d a (BitVec.ofNat 9 (field w 23 9)))
  | 2 => .ok (.ori d a (BitVec.ofNat 9 (field w 23 9)))
  | 3 => .ok (.xori d a (BitVec.ofNat 9 (field w 23 9)))
  | 4 => zeros (field w 28 4 == 0) (.shli d a (BitVec.ofNat 5 (field w 23 5)))
  | 5 => zeros (field w 28 4 == 0) (.shrli d a (BitVec.ofNat 5 (field w 23 5)))
  | 6 => zeros (field w 28 4 == 0) (.shrai d a (BitVec.ofNat 5 (field w 23 5)))
  | 7 => .ok (.iseqi d a (BitVec.ofNat 9 (field w 23 9)))
  | 8 => .ok (.islti d a (BitVec.ofNat 9 (field w 23 9)))
  | 9 => .ok (.isltni d a (BitVec.ofNat 9 (field w 23 9)))
  | 10 => .ok (.imuli d a (BitVec.ofNat 9 (field w 23 9)))
  | 11 => .ok (.iadd64i d a (BitVec.ofNat 9 (field w 23 9)))
  | 12 => zeros (field w 16 7 == 0 && field w 29 3 == 0) (.movk d (BitVec.ofNat 6 (field w 23 6)))
  | 13 => .ok (.isnei d a (BitVec.ofNat 9 (field w 23 9)))
  | _ => .error .reservedOp

/-- LIT (R53). -/
def decodeLit (w : Nat) : Except Reject Instr :=
  let d := BitVec.ofNat 7 (field w 7 7)
  match field w 4 3 with
  | 0 => .ok (.movi d (BitVec.ofNat 18 (field w 14 18)))
  | 1 => .ok (.movhi d (BitVec.ofNat 18 (field w 14 18)))
  | _ => .error .reservedOp

/-- CTL (R54). -/
def decodeCtl (w : Nat) : Except Reject Instr :=
  match field w 4 4 with
  | 0 => .ok (.bra (BitVec.ofNat 24 (field w 8 24)))
  | 1 => .ok (.bnz (BitVec.ofNat 7 (field w 8 7)) (BitVec.ofNat 17 (field w 15 17)))
  | 2 => .ok (.bz (BitVec.ofNat 7 (field w 8 7)) (BitVec.ofNat 17 (field w 15 17)))
  | 3 => .ok (.call (BitVec.ofNat 24 (field w 8 24)))
  | 4 => zeros (field w 15 17 == 0) (.callr (BitVec.ofNat 7 (field w 8 7)))
  | 5 => zeros (field w 8 24 == 0) (.ret)
  | 6 => zeros (field w 15 17 == 0) (.jmpr (BitVec.ofNat 7 (field w 8 7)))
  | 7 => .ok (.kbnz (BitVec.ofNat 6 (field w 8 6)) (BitVec.ofNat 18 (field w 14 18)))
  | 8 => .ok (.kbz (BitVec.ofNat 6 (field w 8 6)) (BitVec.ofNat 18 (field w 14 18)))
  | _ => .error .reservedOp

/-- UNI (R55). -/
def decodeUni (w : Nat) : Except Reject Instr :=
  let d := BitVec.ofNat 6 (field w 9 6)
  let a := BitVec.ofNat 6 (field w 15 6)
  match field w 4 5 with
  | 0 => zeros (field w 27 5 == 0) (.kadd d a (BitVec.ofNat 6 (field w 21 6)))
  | 1 => zeros (field w 27 5 == 0) (.ksub d a (BitVec.ofNat 6 (field w 21 6)))
  | 2 => zeros (field w 27 5 == 0) (.kmul d a (BitVec.ofNat 6 (field w 21 6)))
  | 3 => zeros (field w 27 5 == 0) (.kand d a (BitVec.ofNat 6 (field w 21 6)))
  | 4 => zeros (field w 27 5 == 0) (.kor d a (BitVec.ofNat 6 (field w 21 6)))
  | 5 => zeros (field w 27 5 == 0) (.kxor d a (BitVec.ofNat 6 (field w 21 6)))
  | 6 => zeros (field w 27 5 == 0) (.kshl d a (BitVec.ofNat 6 (field w 21 6)))
  | 7 => zeros (field w 27 5 == 0) (.kshr d a (BitVec.ofNat 6 (field w 21 6)))
  | 8 => zeros (field w 27 5 == 0) (.ksra d a (BitVec.ofNat 6 (field w 21 6)))
  | 9 => .ok (.kaddi d a (BitVec.ofNat 11 (field w 21 6 * 32 + field w 27 5)))
  | 10 => zeros (field w 27 5 == 0) (.kseq d a (BitVec.ofNat 6 (field w 21 6)))
  | 11 => zeros (field w 27 5 == 0) (.kslt d a (BitVec.ofNat 6 (field w 21 6)))
  | 12 => zeros (field w 27 5 == 0) (.ksltn d a (BitVec.ofNat 6 (field w 21 6)))
  | 13 => zeros (field w 27 5 == 0) (.kmin d a (BitVec.ofNat 6 (field w 21 6)))
  | 14 => zeros (field w 27 5 == 0) (.kmax d a (BitVec.ofNat 6 (field w 21 6)))
  | 15 => zeros (field w 27 5 == 0) (.ksel d a (BitVec.ofNat 6 (field w 21 6)))
  | 16 => zeros (field w 27 5 == 0) (.kadd64 d a (BitVec.ofNat 6 (field w 21 6)))
  | 17 => zeros (field w 22 10 == 0) (.kmovv d (BitVec.ofNat 7 (field w 15 7)))
  | 18 => .ok (.kldcb d a (BitVec.ofNat 11 (field w 21 6 * 32 + field w 27 5)))
  | 19 => .ok (.kli d (BitVec.ofNat 17 (field w 15 17)))
  | 20 => .ok (.klih d (BitVec.ofNat 17 (field w 15 17)))
  | 21 => zeros (field w 27 5 == 0) (.kmulhi d a (BitVec.ofNat 6 (field w 21 6)))
  | _ => .error .reservedOp

/-- MEM space 0, the scratchpad (R57). -/
def decodeSpm (w : Nat) : Except Reject Instr :=
  let d := BitVec.ofNat 7 (field w 10 7)
  let base := BitVec.ofNat 7 (field w 17 7)
  match field w 7 3 with
  | 0 => .ok (.lds32 d base (BitVec.ofNat 8 (field w 24 8)))
  | 1 => .ok (.lds64 d base (BitVec.ofNat 8 (field w 24 8)))
  | 2 => .ok (.lds128 d base (BitVec.ofNat 8 (field w 24 8)))
  | 3 => .ok (.sts32 d base (BitVec.ofNat 8 (field w 24 8)))
  | 4 => .ok (.sts64 d base (BitVec.ofNat 8 (field w 24 8)))
  | 5 => .ok (.sts128 d base (BitVec.ofNat 8 (field w 24 8)))
  | 6 => .ok (.atsAdd32 d base (BitVec.ofNat 8 (field w 24 8)))
  | 7 => .ok (.atsExch32 d base (BitVec.ofNat 8 (field w 24 8)))
  | _ => .error .reservedOp

/-- MEM space 1, the cluster (R58). -/
def decodeCluster (w : Nat) : Except Reject Instr :=
  let d := BitVec.ofNat 7 (field w 10 7)
  let base := BitVec.ofNat 7 (field w 17 7)
  match field w 7 3 with
  | 0 => legal ((Order.ofCode (field w 26 2)).map fun o => .ldn32 d base (BitVec.ofNat 2 (field w 24 2)) o (BitVec.ofNat 4 (field w 28 4)))
  | 1 => legal ((Order.ofCode (field w 26 2)).map fun o => .ldn64 d base (BitVec.ofNat 2 (field w 24 2)) o (BitVec.ofNat 4 (field w 28 4)))
  | 2 => legal ((Order.ofCode (field w 26 2)).map fun o => .ldn128 d base (BitVec.ofNat 2 (field w 24 2)) o (BitVec.ofNat 4 (field w 28 4)))
  | 3 => legal ((Order.ofCode (field w 26 2)).map fun o => .stn32 d base (BitVec.ofNat 2 (field w 24 2)) o (BitVec.ofNat 4 (field w 28 4)))
  | 4 => legal ((Order.ofCode (field w 26 2)).map fun o => .stn64 d base (BitVec.ofNat 2 (field w 24 2)) o (BitVec.ofNat 4 (field w 28 4)))
  | 5 => legal ((Order.ofCode (field w 26 2)).map fun o => .stn128 d base (BitVec.ofNat 2 (field w 24 2)) o (BitVec.ofNat 4 (field w 28 4)))
  | 6 => legal ((Order.ofCode (field w 26 2)).map fun o => .atnAdd32 d base (BitVec.ofNat 2 (field w 24 2)) o (BitVec.ofNat 4 (field w 28 4)))
  | 7 => legal ((Order.ofCode (field w 26 2)).map fun o => .atnExch32 d base (BitVec.ofNat 2 (field w 24 2)) o (BitVec.ofNat 4 (field w 28 4)))
  | _ => .error .reservedOp

/-- MEM space 2, global memory (R59). -/
def decodeGlobal (w : Nat) : Except Reject Instr :=
  let d := BitVec.ofNat 7 (field w 11 7)
  let a := BitVec.ofNat 7 (field w 18 7)
  match field w 7 4 with
  | 0 => legal ((Order.ofCode (field w 25 2)).bind fun o => (Scope.ofCode (field w 27 2)).bind fun sc => (Policy.ofCode (field w 29 3)).map fun p => .ldgZ8 d a o sc p)
  | 1 => legal ((Order.ofCode (field w 25 2)).bind fun o => (Scope.ofCode (field w 27 2)).bind fun sc => (Policy.ofCode (field w 29 3)).map fun p => .ldgS8 d a o sc p)
  | 2 => legal ((Order.ofCode (field w 25 2)).bind fun o => (Scope.ofCode (field w 27 2)).bind fun sc => (Policy.ofCode (field w 29 3)).map fun p => .ldgZ16 d a o sc p)
  | 3 => legal ((Order.ofCode (field w 25 2)).bind fun o => (Scope.ofCode (field w 27 2)).bind fun sc => (Policy.ofCode (field w 29 3)).map fun p => .ldgS16 d a o sc p)
  | 4 => legal ((Order.ofCode (field w 25 2)).bind fun o => (Scope.ofCode (field w 27 2)).bind fun sc => (Policy.ofCode (field w 29 3)).map fun p => .ldg32 d a o sc p)
  | 5 => legal ((Order.ofCode (field w 25 2)).bind fun o => (Scope.ofCode (field w 27 2)).bind fun sc => (Policy.ofCode (field w 29 3)).map fun p => .ldg64 d a o sc p)
  | 6 => legal ((Order.ofCode (field w 25 2)).bind fun o => (Scope.ofCode (field w 27 2)).bind fun sc => (Policy.ofCode (field w 29 3)).map fun p => .ldg128 d a o sc p)
  | 7 => legal ((Order.ofCode (field w 25 2)).bind fun o => (Scope.ofCode (field w 27 2)).bind fun sc => (Policy.ofCode (field w 29 3)).map fun p => .stg8 d a o sc p)
  | 8 => legal ((Order.ofCode (field w 25 2)).bind fun o => (Scope.ofCode (field w 27 2)).bind fun sc => (Policy.ofCode (field w 29 3)).map fun p => .stg16 d a o sc p)
  | 9 => legal ((Order.ofCode (field w 25 2)).bind fun o => (Scope.ofCode (field w 27 2)).bind fun sc => (Policy.ofCode (field w 29 3)).map fun p => .stg32 d a o sc p)
  | 10 => legal ((Order.ofCode (field w 25 2)).bind fun o => (Scope.ofCode (field w 27 2)).bind fun sc => (Policy.ofCode (field w 29 3)).map fun p => .stg64 d a o sc p)
  | 11 => legal ((Order.ofCode (field w 25 2)).bind fun o => (Scope.ofCode (field w 27 2)).bind fun sc => (Policy.ofCode (field w 29 3)).map fun p => .stg128 d a o sc p)
  | 12 => if field w 11 7 == 0 && field w 25 4 == 0 then legal ((Policy.ofCode (field w 29 3)).map fun p => .pfg a p) else .error .mustBeZero
  | 13 => legal ((AtomFn.ofCode (field w 29 3)).bind fun f => (Order.ofCode (field w 25 2)).bind fun o => (Scope.ofCode (field w 27 2)).map fun sc => .atg32 d a f o sc)
  | 14 => legal ((AtomFn.ofCode (field w 29 3)).bind fun f => (Order.ofCode (field w 25 2)).bind fun o => (Scope.ofCode (field w 27 2)).map fun sc => .atg64 d a f o sc)
  | 15 => legal ((AtfFn.ofCode (field w 29 3)).bind fun f => (Order.ofCode (field w 25 2)).bind fun o => (Scope.ofCode (field w 27 2)).map fun sc => .atf32 d a f o sc)
  | _ => .error .reservedOp

/-- MEM space 3, the plate view (R60). -/
def decodePlate (w : Nat) : Except Reject Instr :=
  let base := BitVec.ofNat 7 (field w 17 7)
  match field w 7 3 with
  | 0 => .ok (.ldp32 (BitVec.ofNat 7 (field w 10 7)) base (BitVec.ofNat 8 (field w 24 8)))
  | 1 => .ok (.ldp64 (BitVec.ofNat 7 (field w 10 7)) base (BitVec.ofNat 8 (field w 24 8)))
  | 2 => .ok (.ldp128 (BitVec.ofNat 7 (field w 10 7)) base (BitVec.ofNat 8 (field w 24 8)))
  | 3 => zeros (field w 10 7 == 0) (.pfp base (BitVec.ofNat 8 (field w 24 8)))
  | _ => .error .reservedOp

/-- MEM space 4, the constant bank (R61). -/
def decodeConst (w : Nat) : Except Reject Instr :=
  let d := BitVec.ofNat 7 (field w 10 7)
  let x := BitVec.ofNat 7 (field w 17 7)
  match field w 7 3 with
  | 0 => .ok (.ldcb32 d x (BitVec.ofNat 8 (field w 24 8)))
  | 1 => .ok (.ldcb64 d x (BitVec.ofNat 8 (field w 24 8)))
  | 2 => .ok (.ldcb128 d x (BitVec.ofNat 8 (field w 24 8)))
  | _ => .error .reservedOp

/-- MEM space 5, the host window (R62). -/
def decodeHost (w : Nat) : Except Reject Instr :=
  let d := BitVec.ofNat 7 (field w 11 7)
  let base := BitVec.ofNat 7 (field w 18 7)
  match field w 7 4 with
  | 0 => if field w 27 5 == 0 then legal ((Order.ofCode (field w 25 2)).map fun o => .ldh32 d base o) else .error .mustBeZero
  | 1 => if field w 27 5 == 0 then legal ((Order.ofCode (field w 25 2)).map fun o => .ldh64 d base o) else .error .mustBeZero
  | 2 => if field w 27 5 == 0 then legal ((Order.ofCode (field w 25 2)).map fun o => .sth32 d base o) else .error .mustBeZero
  | 3 => if field w 27 5 == 0 then legal ((Order.ofCode (field w 25 2)).map fun o => .sth64 d base o) else .error .mustBeZero
  | 4 => if field w 27 5 == 0 then legal ((Order.ofCode (field w 25 2)).map fun o => .athAdd64 d base o) else .error .mustBeZero
  | 5 => if field w 27 5 == 0 then legal ((Order.ofCode (field w 25 2)).map fun o => .athCas64 d base o) else .error .mustBeZero
  | 6 => if field w 27 5 == 0 then legal ((Order.ofCode (field w 25 2)).map fun o => .athExch64 d base o) else .error .mustBeZero
  | _ => .error .reservedOp

/-- SYS (R63). -/
noncomputable def decodeSys (w : Nat) : Except Reject Instr :=
  match field w 4 6 with
  | 0 => zeros (field w 22 2 == 0 && field w 28 4 == 0) (.binit (BitVec.ofNat 4 (field w 24 4)) (BitVec.ofNat 12 (field w 10 12)))
  | 1 => zeros (field w 10 14 == 0 && field w 28 4 == 0) (.barr (BitVec.ofNat 4 (field w 24 4)))
  | 2 => zeros (field w 16 8 == 0 && field w 28 4 == 0) (.barrx (BitVec.ofNat 4 (field w 24 4)) (BitVec.ofNat 6 (field w 10 6)))
  | 3 => zeros (field w 16 8 == 0 && field w 28 4 == 0) (.bexp (BitVec.ofNat 4 (field w 24 4)) (BitVec.ofNat 6 (field w 10 6)))
  | 4 => zeros (field w 10 14 == 0 && field w 29 3 == 0) (.bwait (BitVec.ofNat 4 (field w 24 4)) (BitVec.ofNat 1 (field w 28 1)))
  | 5 => zeros (field w 17 7 == 0 && field w 29 3 == 0) (.btest (BitVec.ofNat 7 (field w 10 7)) (BitVec.ofNat 4 (field w 24 4)) (BitVec.ofNat 1 (field w 28 1)))
  | 6 => zeros (field w 10 14 == 0 && field w 28 4 == 0) (.bdrop (BitVec.ofNat 4 (field w 24 4)))
  | 8 => if field w 30 2 == 0 then legal ((CpSize.ofCode (field w 28 2)).map fun z => .cpgs (BitVec.ofNat 7 (field w 10 7)) (BitVec.ofNat 7 (field w 17 7)) (BitVec.ofNat 4 (field w 24 4)) z) else .error .mustBeZero
  | 9 => if field w 30 2 == 0 then legal ((CpSize.ofCode (field w 28 2)).map fun z => .cpsg (BitVec.ofNat 7 (field w 10 7)) (BitVec.ofNat 7 (field w 17 7)) (BitVec.ofNat 4 (field w 24 4)) z) else .error .mustBeZero
  | 10 => .ok (.cptl (BitVec.ofNat 6 (field w 10 6)) (BitVec.ofNat 6 (field w 16 6)) (BitVec.ofNat 6 (field w 22 6)) (BitVec.ofNat 4 (field w 28 4)))
  | 11 => .ok (.cpts (BitVec.ofNat 6 (field w 10 6)) (BitVec.ofNat 6 (field w 16 6)) (BitVec.ofNat 6 (field w 22 6)) (BitVec.ofNat 4 (field w 28 4)))
  | 12 => zeros (field w 22 6 == 0) (.cppw (BitVec.ofNat 6 (field w 10 6)) (BitVec.ofNat 6 (field w 16 6)) (BitVec.ofNat 4 (field w 28 4)))
  | 13 => zeros (field w 31 1 == 0) (.waitcnt (BitVec.ofNat 6 (field w 10 6)) (BitVec.ofNat 6 (field w 16 6)) (BitVec.ofNat 5 (field w 22 5)) (BitVec.ofNat 4 (field w 27 4)))
  | 16 => zeros (field w 16 16 == 0) (.mxpush (BitVec.ofNat 6 (field w 10 6)))
  | 17 => zeros (field w 10 22 == 0) (.mxfence)
  | 18 => zeros (field w 17 15 == 0) (.mxquery (BitVec.ofNat 7 (field w 10 7)))
  | 19 => zeros (field w 29 3 == 0) (.qblk (BitVec.ofNat 6 (field w 10 6)) (BitVec.ofNat 6 (field w 16 6)) (BitVec.ofNat 6 (field w 22 6)) (BitVec.ofNat 1 (field w 28 1)))
  | 24 => zeros (field w 15 1 == 0 && field w 22 10 == 0) (.rresv (BitVec.ofNat 6 (field w 16 6)) (BitVec.ofNat 5 (field w 10 5)))
  | 25 => zeros (field w 15 1 == 0 && field w 22 10 == 0) (.rcommit (BitVec.ofNat 5 (field w 10 5)) (BitVec.ofNat 6 (field w 16 6)))
  | 26 => zeros (field w 15 1 == 0 && field w 22 10 == 0) (.rrecv (BitVec.ofNat 6 (field w 16 6)) (BitVec.ofNat 5 (field w 10 5)))
  | 27 => zeros (field w 15 1 == 0 && field w 22 10 == 0) (.rrelease (BitVec.ofNat 5 (field w 10 5)) (BitVec.ofNat 6 (field w 16 6)))
  | 28 => zeros (field w 15 1 == 0 && field w 22 10 == 0) (.rtryresv (BitVec.ofNat 6 (field w 16 6)) (BitVec.ofNat 5 (field w 10 5)))
  | 29 => zeros (field w 15 1 == 0 && field w 22 10 == 0) (.rtryrecv (BitVec.ofNat 6 (field w 16 6)) (BitVec.ofNat 5 (field w 10 5)))
  | 30 => zeros (field w 15 17 == 0) (.rclose (BitVec.ofNat 5 (field w 10 5)))
  | 31 => zeros (field w 15 1 == 0 && field w 22 10 == 0) (.rstat (BitVec.ofNat 6 (field w 16 6)) (BitVec.ofNat 5 (field w 10 5)))
  | 32 => zeros (field w 16 16 == 0) (.pinstall (BitVec.ofNat 6 (field w 10 6)))
  | 33 => zeros (field w 22 10 == 0) (.pstatus (BitVec.ofNat 6 (field w 10 6)) (BitVec.ofNat 6 (field w 16 6)))
  | 36 => if field w 14 18 == 0 then legal ((FenceKind.ofCode (field w 10 2)).bind fun kind => (Scope.ofCode (field w 12 2)).map fun sc => .fence kind sc) else .error .mustBeZero
  | 37 => zeros (field w 22 10 == 0) (.sealLines (BitVec.ofNat 6 (field w 10 6)) (BitVec.ofNat 6 (field w 16 6)))
  | 38 => zeros (field w 22 10 == 0) (.unsealLines (BitVec.ofNat 6 (field w 10 6)) (BitVec.ofNat 6 (field w 16 6)))
  | 39 => if field w 24 8 == 0 then legal ((Scope.ofCode (field w 22 2)).map fun sc => .cwb (BitVec.ofNat 6 (field w 10 6)) (BitVec.ofNat 6 (field w 16 6)) sc) else .error .mustBeZero
  | 40 => zeros (field w 10 22 == 0) (.yield)
  | 41 => zeros (field w 16 16 == 0) (.wsync (BitVec.ofNat 6 (field w 10 6)))
  | 42 => zeros (field w 10 22 == 0) (.exit)
  | 43 => zeros (field w 26 6 == 0) (.trap (BitVec.ofNat 16 (field w 10 16)))
  | 44 => zeros (field w 10 22 == 0) (.bkpt)
  | 45 => zeros (field w 10 22 == 0) (.rett)
  | 46 => zeros (field w 29 3 == 0) (.csrr (BitVec.ofNat 7 (field w 10 7)) (BitVec.ofNat 12 (field w 17 12)))
  | 47 => zeros (field w 29 3 == 0) (.csrw (BitVec.ofNat 12 (field w 17 12)) (BitVec.ofNat 7 (field w 10 7)))
  | 48 => zeros (field w 17 15 == 0) (.rdcyc (BitVec.ofNat 7 (field w 10 7)))
  | 49 => legal ((RedOp.ofCode (field w 24 2)).bind fun op => (RedType.ofCode (field w 26 2)).map fun t => .wred (BitVec.ofNat 7 (field w 10 7)) (BitVec.ofNat 7 (field w 17 7)) op t (BitVec.ofNat 4 (field w 28 4)))
  | 50 => zeros (field w 16 16 == 0) (.evsig (BitVec.ofNat 6 (field w 10 6)))
  | 51 => zeros (field w 24 8 == 0) (.movsr (BitVec.ofNat 7 (field w 10 7)) (BitVec.ofNat 7 (field w 17 7)))
  | _ => .error .reservedOp

/-- MEM: the space field selects the line of fields (R56). -/
def decodeMem (w : Nat) : Except Reject Instr :=
  match field w 4 3 with
  | 0 => decodeSpm w
  | 1 => decodeCluster w
  | 2 => decodeGlobal w
  | 3 => decodePlate w
  | 4 => decodeConst w
  | 5 => decodeHost w
  | _ => .error .reservedSpace

/-- A 32-bit word with bit 0 set: bits [3:1] select the format (R46). -/
noncomputable def decodeFormat (w : Nat) : Except Reject Instr :=
  match field w 1 3 with
  | 0 => decodeAluA w
  | 1 => decodeAluB w
  | 2 => decodeImm w
  | 3 => decodeMem w
  | 4 => decodeCtl w
  | 5 => decodeUni w
  | 6 => decodeSys w
  | _ => decodeLit w

/-- The instruction, if its register fields have legal shapes (R47). -/
def checkShape (i : Instr) : Except Reject Instr :=
  match i.breach with
  | none => .ok i
  | some b => .error (.shape b)

/-- A 32-bit word (R46-R65). DEDUCED (log 28). DEDUCED (log 29). -/
noncomputable def decode32 (w : Nat) : Except Reject Instr :=
  match decodeFormat w with
  | .ok i => checkShape i
  | .error r => .error r

/-- A word of either length, its first unit lowest: bit 0 of the first unit gives the length (R44). -/
noncomputable def decodeWord (w : Nat) : Except Reject Instr :=
  if w % 2 = 0 then .ok (decodeShort (w % 2 ^ 16)) else decode32 (w % 2 ^ 32)

/-- A little-endian number from bytes (R7). -/
def leNat : List Byte → Nat
  | [] => 0
  | b :: bs => b.toNat + 256 * leNat bs

/-- The low `n` bytes of a number, lowest first (R7). -/
def leBytes : Nat → Nat → List Byte
  | 0, _ => []
  | n + 1, x => BitVec.ofNat 8 x :: leBytes n (x / 256)

/-- The first instruction of a list of bytes, and the bytes after it (R22, R44). -/
noncomputable def decode : List Byte → Except Reject (Instr × List Byte)
  | b0 :: b1 :: rest =>
    if b0.toNat % 2 = 0 then .ok (decodeShort (leNat [b0, b1]), rest)
    else
      match rest with
      | b2 :: b3 :: rest' =>
        match decode32 (leNat [b0, b1, b2, b3]) with
        | .ok i => .ok (i, rest')
        | .error r => .error r
      | _ => .error .truncated
  | _ => .error .truncated

/-- The field line of a SHORT word (R45). -/
def wordShort (op : Nat) (d : BitVec 6) (s : Nat) : Nat := op * 2 + d.toNat * 2 ^ 5 + s * 2 ^ 11
/-- The field line of ALU-A (R46). -/
def wordAluA (op : Nat) (d a : VReg) (b : Src) : Nat :=
  1 + op * 2 ^ 5 + d.toNat * 2 ^ 11 + a.toNat * 2 ^ 18 + b.code
/-- The field line of ALU-B with a register in vb (R46). -/
def wordAluB (op : Nat) (d a : VReg) (b : Src) : Nat :=
  3 + op * 2 ^ 5 + d.toNat * 2 ^ 11 + a.toNat * 2 ^ 18 + b.code
/-- The field line of ALU-B with a selector in vb, or zero (R51). -/
def wordAluBSel (op : Nat) (d a : VReg) (sel : Nat) : Nat :=
  3 + op * 2 ^ 5 + d.toNat * 2 ^ 11 + a.toNat * 2 ^ 18 + sel * 2 ^ 25
/-- The field line of IMM (R46). -/
def wordImm (op : Nat) (d a : VReg) (imm : Nat) : Nat :=
  5 + op * 2 ^ 4 + d.toNat * 2 ^ 9 + a.toNat * 2 ^ 16 + imm * 2 ^ 23
/-- The field line of LIT (R46). -/
def wordLit (op : Nat) (d : VReg) (imm : Nat) : Nat :=
  15 + op * 2 ^ 4 + d.toNat * 2 ^ 7 + imm * 2 ^ 14
/-- The field line of CTL: `rest` is the value of the bits above op4 (R54). -/
def wordCtl (op rest : Nat) : Nat := 9 + op * 2 ^ 4 + rest * 2 ^ 8
/-- The field line of UNI: `imm5` is bits [31:27] (R55). -/
def wordUni (op : Nat) (d a b : KReg) (imm5 : Nat) : Nat :=
  11 + op * 2 ^ 4 + d.toNat * 2 ^ 9 + a.toNat * 2 ^ 15 + b.toNat * 2 ^ 21 + imm5 * 2 ^ 27
/-- UNI with an 11-bit immediate, kb its high six bits and imm5 its low five (R55). -/
def wordUniImm (op : Nat) (d a : KReg) (i : BitVec 11) : Nat :=
  11 + op * 2 ^ 4 + d.toNat * 2 ^ 9 + a.toNat * 2 ^ 15 + i.toNat / 32 * 2 ^ 21 + i.toNat % 32 * 2 ^ 27
/-- UNI whose bits above kd are one value (R55). -/
def wordUniTop (op : Nat) (d : KReg) (top : Nat) : Nat := 11 + op * 2 ^ 4 + d.toNat * 2 ^ 9 + top * 2 ^ 15
/-- The field line of MEM spaces 0, 3 and 4 (R57, R60, R61). -/
def wordMem8 (space op : Nat) (d base : VReg) (imm : Nat) : Nat :=
  7 + space * 2 ^ 4 + op * 2 ^ 7 + d.toNat * 2 ^ 10 + base.toNat * 2 ^ 17 + imm * 2 ^ 24
/-- The field line of MEM space 1 (R58). -/
def wordCluster (op : Nat) (d base : VReg) (t : BitVec 2) (o : Order) (imm : BitVec 4) : Nat :=
  7 + 1 * 2 ^ 4 + op * 2 ^ 7 + d.toNat * 2 ^ 10 + base.toNat * 2 ^ 17 + t.toNat * 2 ^ 24
    + o.code * 2 ^ 26 + imm.toNat * 2 ^ 28
/-- The field line of MEM space 2: `top` is the function or policy (R59). -/
def wordGlobal (op : Nat) (d a : VReg) (o : Order) (s : Scope) (top : Nat) : Nat :=
  7 + 2 * 2 ^ 4 + op * 2 ^ 7 + d.toNat * 2 ^ 11 + a.toNat * 2 ^ 18 + o.code * 2 ^ 25
    + s.code * 2 ^ 27 + top * 2 ^ 29
/-- The field line of MEM space 5 (R62). -/
def wordHost (op : Nat) (d base : VReg) (o : Order) : Nat :=
  7 + 5 * 2 ^ 4 + op * 2 ^ 7 + d.toNat * 2 ^ 11 + base.toNat * 2 ^ 18 + o.code * 2 ^ 25
/-- The field line of SYS: `rest` is the value of the bits above op6 (R63). -/
def wordSys (op rest : Nat) : Nat := 13 + op * 2 ^ 4 + rest * 2 ^ 10

/-- The word of an instruction, the sum of its fields at their places (R45-R63); 0 for a step that has no word. -/
def encode : Instr → Nat
  | .shortMov d r => wordShort 0 d r.toNat
  | .shortIadd d r => wordShort 1 d r.toNat
  | .shortIsub d r => wordShort 2 d r.toNat
  | .shortImul d r => wordShort 3 d r.toNat
  | .shortAnd d r => wordShort 4 d r.toNat
  | .shortOr d r => wordShort 5 d r.toNat
  | .shortXor d r => wordShort 6 d r.toNat
  | .shortShl d r => wordShort 7 d r.toNat
  | .shortShrl d r => wordShort 8 d r.toNat
  | .shortShra d r => wordShort 9 d r.toNat
  | .shortFadd d r => wordShort 10 d r.toNat
  | .shortFsub d r => wordShort 11 d r.toNat
  | .shortFmul d r => wordShort 12 d r.toNat
  | .shortFmax d r => wordShort 13 d r.toNat
  | .shortFmin d r => wordShort 14 d r.toNat
  | .shortIaddi d i => wordShort 15 d i.toNat
  | .iadd d a b => wordAluA 0x00 d a b
  | .isub d a b => wordAluA 0x01 d a b
  | .imul d a b => wordAluA 0x02 d a b
  | .imulhi d a b => wordAluA 0x03 d a b
  | .imulhin d a b => wordAluA 0x04 d a b
  | .imad d a b => wordAluA 0x05 d a b
  | .imin d a b => wordAluA 0x06 d a b
  | .imax d a b => wordAluA 0x07 d a b
  | .iminn d a b => wordAluA 0x08 d a b
  | .imaxn d a b => wordAluA 0x09 d a b
  | .and d a b => wordAluA 0x0A d a b
  | .or d a b => wordAluA 0x0B d a b
  | .xor d a b => wordAluA 0x0C d a b
  | .andn d a b => wordAluA 0x0D d a b
  | .shl d a b => wordAluA 0x0E d a b
  | .shrl d a b => wordAluA 0x0F d a b
  | .shra d a b => wordAluA 0x10 d a b
  | .rotl d a b => wordAluA 0x11 d a b
  | .sel d a b => wordAluA 0x12 d a b
  | .iaddsat d a b => wordAluA 0x13 d a b
  | .isubsat d a b => wordAluA 0x14 d a b
  | .bfx d a b => wordAluA 0x15 d a b
  | .bfi d a b => wordAluA 0x16 d a b
  | .iadd64 d a b => wordAluA 0x17 d a b
  | .isub64 d a b => wordAluA 0x18 d a b
  | .imulw d a b => wordAluA 0x19 d a b
  | .imulwn d a b => wordAluA 0x1A d a b
  | .shl64 d a b => wordAluA 0x1B d a b
  | .shrl64 d a b => wordAluA 0x1C d a b
  | .shra64 d a b => wordAluA 0x1D d a b
  | .iseq d a b => wordAluA 0x1E d a b
  | .isne d a b => wordAluA 0x1F d a b
  | .islt d a b => wordAluA 0x20 d a b
  | .isle d a b => wordAluA 0x21 d a b
  | .isltn d a b => wordAluA 0x22 d a b
  | .islen d a b => wordAluA 0x23 d a b
  | .fadd d a b => wordAluA 0x24 d a b
  | .fsub d a b => wordAluA 0x25 d a b
  | .fmul d a b => wordAluA 0x26 d a b
  | .ffma d a b => wordAluA 0x27 d a b
  | .fmin d a b => wordAluA 0x28 d a b
  | .fmax d a b => wordAluA 0x29 d a b
  | .fseq d a b => wordAluA 0x2A d a b
  | .fsne d a b => wordAluA 0x2B d a b
  | .fslt d a b => wordAluA 0x2C d a b
  | .fsle d a b => wordAluA 0x2D d a b
  | .fsuno d a b => wordAluA 0x2E d a b
  | .fcopysign d a b => wordAluA 0x2F d a b
  | .dadd d a b => wordAluA 0x30 d a b
  | .dsub d a b => wordAluA 0x31 d a b
  | .dmul d a b => wordAluA 0x32 d a b
  | .dfma d a b => wordAluA 0x33 d a b
  | .dmin d a b => wordAluA 0x34 d a b
  | .dmax d a b => wordAluA 0x35 d a b
  | .dseq d a b => wordAluA 0x36 d a b
  | .dslt d a b => wordAluA 0x37 d a b
  | .dsle d a b => wordAluA 0x38 d a b
  | .dsuno d a b => wordAluA 0x39 d a b
  | .hadd2 d a b => wordAluA 0x3A d a b
  | .hmul2 d a b => wordAluA 0x3B d a b
  | .hfma2 d a b => wordAluA 0x3C d a b
  | .badd2 d a b => wordAluA 0x3D d a b
  | .bmul2 d a b => wordAluA 0x3E d a b
  | .bfma2 d a b => wordAluA 0x3F d a b
  | .cvtF32I32 d a => wordAluBSel 0x00 d a 0
  | .cvtF32N32 d a => wordAluBSel 0x01 d a 0
  | .cvtI32F32 d a => wordAluBSel 0x02 d a 0
  | .cvtN32F32 d a => wordAluBSel 0x03 d a 0
  | .cvtF64F32 d a => wordAluBSel 0x04 d a 0
  | .cvtF32F64 d a => wordAluBSel 0x05 d a 0
  | .cvtF64I32 d a => wordAluBSel 0x06 d a 0
  | .cvtI32F64 d a => wordAluBSel 0x07 d a 0
  | .cvtF64I64 d a => wordAluBSel 0x08 d a 0
  | .cvtI64F64 d a => wordAluBSel 0x09 d a 0
  | .cvtF16x2F32 d a b => wordAluB 0x0A d a b
  | .cvtBf16x2F32 d a b => wordAluB 0x0B d a b
  | .cvtF32F16 d a h => wordAluBSel 0x0C d a h.toNat
  | .cvtF32Bf16 d a h => wordAluBSel 0x0D d a h.toNat
  | .cvtF32E4m3 d a h => wordAluBSel 0x0E d a h.toNat
  | .cvtF32E5m2 d a h => wordAluBSel 0x0F d a h.toNat
  | .cvtE4m3x4F32 d a b => wordAluB 0x10 d a b
  | .cvtE5m2x4F32 d a b => wordAluB 0x11 d a b
  | .frint d a => wordAluBSel 0x12 d a 0
  | .fclass d a => wordAluBSel 0x13 d a 0
  | .fabs d a => wordAluBSel 0x14 d a 0
  | .fneg d a => wordAluBSel 0x15 d a 0
  | .popc d a => wordAluBSel 0x16 d a 0
  | .clz d a => wordAluBSel 0x17 d a 0
  | .brev d a => wordAluBSel 0x18 d a 0
  | .frcp d a => wordAluBSel 0x19 d a 0
  | .frsq d a => wordAluBSel 0x1A d a 0
  | .fsqrt d a => wordAluBSel 0x1B d a 0
  | .fdiv d a b => wordAluB 0x1C d a b
  | .fex2 d a => wordAluBSel 0x1D d a 0
  | .flg2 d a => wordAluBSel 0x1E d a 0
  | .ddiv d a b => wordAluB 0x22 d a b
  | .dsqrt d a => wordAluBSel 0x23 d a 0
  | .idiv d a b => wordAluB 0x24 d a b
  | .irem d a b => wordAluB 0x25 d a b
  | .idivn d a b => wordAluB 0x26 d a b
  | .iremn d a b => wordAluB 0x27 d a b
  | .shfl d a b => wordAluB 0x28 d a b
  | .shflup d a b => wordAluB 0x29 d a b
  | .shfldn d a b => wordAluB 0x2A d a b
  | .shflx d a b => wordAluB 0x2B d a b
  | .ballot d a => wordAluBSel 0x2C d a 0
  | .vany d a => wordAluBSel 0x2D d a 0
  | .vall d a => wordAluBSel 0x2E d a 0
  | .redadd d a => wordAluBSel 0x2F d a 0
  | .redfadd d a => wordAluBSel 0x30 d a 0
  | .redmax d a => wordAluBSel 0x31 d a 0
  | .redmin d a => wordAluBSel 0x32 d a 0
  | .scanadd d a => wordAluBSel 0x33 d a 0
  | .movx d i => wordAluBSel 0x34 d 0 i.toNat
  | .movxw i a => wordAluBSel 0x35 0 a i.toNat
  | .setx i a => wordAluBSel 0x36 0 a i.toNat
  | .getx d i => wordAluBSel 0x37 d 0 i.toNat
  | .mov64 d a => wordAluBSel 0x38 d a 0
  | .iaddi d a i => wordImm 0x00 d a i.toNat
  | .andi d a i => wordImm 0x01 d a i.toNat
  | .ori d a i => wordImm 0x02 d a i.toNat
  | .xori d a i => wordImm 0x03 d a i.toNat
  | .shli d a i => wordImm 0x04 d a i.toNat
  | .shrli d a i => wordImm 0x05 d a i.toNat
  | .shrai d a i => wordImm 0x06 d a i.toNat
  | .iseqi d a i => wordImm 0x07 d a i.toNat
  | .islti d a i => wordImm 0x08 d a i.toNat
  | .isltni d a i => wordImm 0x09 d a i.toNat
  | .imuli d a i => wordImm 0x0A d a i.toNat
  | .iadd64i d a i => wordImm 0x0B d a i.toNat
  | .movk d n => wordImm 0x0C d 0 n.toNat
  | .isnei d a i => wordImm 0x0D d a i.toNat
  | .movi d i => wordLit 0 d i.toNat
  | .movhi d i => wordLit 1 d i.toNat
  | .bra off => wordCtl 0 off.toNat
  | .bnz a off => wordCtl 1 (a.toNat + off.toNat * 2 ^ 7)
  | .bz a off => wordCtl 2 (a.toNat + off.toNat * 2 ^ 7)
  | .call off => wordCtl 3 off.toNat
  | .callr a => wordCtl 4 a.toNat
  | .ret => wordCtl 5 0
  | .jmpr a => wordCtl 6 a.toNat
  | .kbnz a off => wordCtl 7 (a.toNat + off.toNat * 2 ^ 6)
  | .kbz a off => wordCtl 8 (a.toNat + off.toNat * 2 ^ 6)
  | .kadd d a b => wordUni 0x00 d a b 0
  | .ksub d a b => wordUni 0x01 d a b 0
  | .kmul d a b => wordUni 0x02 d a b 0
  | .kand d a b => wordUni 0x03 d a b 0
  | .kor d a b => wordUni 0x04 d a b 0
  | .kxor d a b => wordUni 0x05 d a b 0
  | .kshl d a b => wordUni 0x06 d a b 0
  | .kshr d a b => wordUni 0x07 d a b 0
  | .ksra d a b => wordUni 0x08 d a b 0
  | .kaddi d a i => wordUniImm 0x09 d a i
  | .kseq d a b => wordUni 0x0A d a b 0
  | .kslt d a b => wordUni 0x0B d a b 0
  | .ksltn d a b => wordUni 0x0C d a b 0
  | .kmin d a b => wordUni 0x0D d a b 0
  | .kmax d a b => wordUni 0x0E d a b 0
  | .ksel d a b => wordUni 0x0F d a b 0
  | .kadd64 d a b => wordUni 0x10 d a b 0
  | .kmovv d a => wordUniTop 0x11 d a.toNat
  | .kldcb d a i => wordUniImm 0x12 d a i
  | .kli d i => wordUniTop 0x13 d i.toNat
  | .klih d i => wordUniTop 0x14 d i.toNat
  | .kmulhi d a b => wordUni 0x15 d a b 0
  | .lds32 d base i => wordMem8 0 0 d base i.toNat
  | .lds64 d base i => wordMem8 0 1 d base i.toNat
  | .lds128 d base i => wordMem8 0 2 d base i.toNat
  | .sts32 d base i => wordMem8 0 3 d base i.toNat
  | .sts64 d base i => wordMem8 0 4 d base i.toNat
  | .sts128 d base i => wordMem8 0 5 d base i.toNat
  | .atsAdd32 d base i => wordMem8 0 6 d base i.toNat
  | .atsExch32 d base i => wordMem8 0 7 d base i.toNat
  | .ldn32 d base t o i => wordCluster 0 d base t o i
  | .ldn64 d base t o i => wordCluster 1 d base t o i
  | .ldn128 d base t o i => wordCluster 2 d base t o i
  | .stn32 d base t o i => wordCluster 3 d base t o i
  | .stn64 d base t o i => wordCluster 4 d base t o i
  | .stn128 d base t o i => wordCluster 5 d base t o i
  | .atnAdd32 d base t o i => wordCluster 6 d base t o i
  | .atnExch32 d base t o i => wordCluster 7 d base t o i
  | .ldgZ8 d a o sc p => wordGlobal 0 d a o sc p.code
  | .ldgS8 d a o sc p => wordGlobal 1 d a o sc p.code
  | .ldgZ16 d a o sc p => wordGlobal 2 d a o sc p.code
  | .ldgS16 d a o sc p => wordGlobal 3 d a o sc p.code
  | .ldg32 d a o sc p => wordGlobal 4 d a o sc p.code
  | .ldg64 d a o sc p => wordGlobal 5 d a o sc p.code
  | .ldg128 d a o sc p => wordGlobal 6 d a o sc p.code
  | .stg8 d a o sc p => wordGlobal 7 d a o sc p.code
  | .stg16 d a o sc p => wordGlobal 8 d a o sc p.code
  | .stg32 d a o sc p => wordGlobal 9 d a o sc p.code
  | .stg64 d a o sc p => wordGlobal 10 d a o sc p.code
  | .stg128 d a o sc p => wordGlobal 11 d a o sc p.code
  | .pfg a p => wordGlobal 12 0 a .rlx .blk p.code
  | .atg32 d a f o sc => wordGlobal 13 d a o sc f.code
  | .atg64 d a f o sc => wordGlobal 14 d a o sc f.code
  | .atf32 d a f o sc => wordGlobal 15 d a o sc f.code
  | .ldp32 d base i => wordMem8 3 0 d base i.toNat
  | .ldp64 d base i => wordMem8 3 1 d base i.toNat
  | .ldp128 d base i => wordMem8 3 2 d base i.toNat
  | .pfp base i => wordMem8 3 3 0 base i.toNat
  | .ldcb32 d x i => wordMem8 4 0 d x i.toNat
  | .ldcb64 d x i => wordMem8 4 1 d x i.toNat
  | .ldcb128 d x i => wordMem8 4 2 d x i.toNat
  | .ldh32 d base o => wordHost 0 d base o
  | .ldh64 d base o => wordHost 1 d base o
  | .sth32 d base o => wordHost 2 d base o
  | .sth64 d base o => wordHost 3 d base o
  | .athAdd64 d base o => wordHost 4 d base o
  | .athCas64 d base o => wordHost 5 d base o
  | .athExch64 d base o => wordHost 6 d base o
  | .binit b count => wordSys 0x00 (b.toNat * 2 ^ 14 + count.toNat)
  | .barr b => wordSys 0x01 (b.toNat * 2 ^ 14)
  | .barrx b ka => wordSys 0x02 (b.toNat * 2 ^ 14 + ka.toNat)
  | .bexp b ka => wordSys 0x03 (b.toNat * 2 ^ 14 + ka.toNat)
  | .bwait b p => wordSys 0x04 (b.toNat * 2 ^ 14 + p.toNat * 2 ^ 18)
  | .btest d b p => wordSys 0x05 (d.toNat + b.toNat * 2 ^ 14 + p.toNat * 2 ^ 18)
  | .bdrop b => wordSys 0x06 (b.toNat * 2 ^ 14)
  | .cpgs vs a b z => wordSys 0x08 (vs.toNat + a.toNat * 2 ^ 7 + b.toNat * 2 ^ 14 + z.code * 2 ^ 18)
  | .cpsg vs a b z => wordSys 0x09 (vs.toNat + a.toNat * 2 ^ 7 + b.toNat * 2 ^ 14 + z.code * 2 ^ 18)
  | .cptl ka kb kc b => wordSys 0x0A (ka.toNat + kb.toNat * 2 ^ 6 + kc.toNat * 2 ^ 12 + b.toNat * 2 ^ 18)
  | .cpts ka kb kc b => wordSys 0x0B (ka.toNat + kb.toNat * 2 ^ 6 + kc.toNat * 2 ^ 12 + b.toNat * 2 ^ 18)
  | .cppw ka kb b => wordSys 0x0C (ka.toNat + kb.toNat * 2 ^ 6 + b.toNat * 2 ^ 18)
  | .waitcnt ld st cp mx => wordSys 0x0D (ld.toNat + st.toNat * 2 ^ 6 + cp.toNat * 2 ^ 12 + mx.toNat * 2 ^ 17)
  | .mxpush ka => wordSys 0x10 ka.toNat
  | .mxfence => wordSys 0x11 0
  | .mxquery d => wordSys 0x12 d.toNat
  | .qblk ka kb kc f => wordSys 0x13 (ka.toNat + kb.toNat * 2 ^ 6 + kc.toNat * 2 ^ 12 + f.toNat * 2 ^ 18)
  | .rresv kd q => wordSys 0x18 (kd.toNat * 2 ^ 6 + q.toNat)
  | .rcommit q ka => wordSys 0x19 (q.toNat + ka.toNat * 2 ^ 6)
  | .rrecv kd q => wordSys 0x1A (kd.toNat * 2 ^ 6 + q.toNat)
  | .rrelease q ka => wordSys 0x1B (q.toNat + ka.toNat * 2 ^ 6)
  | .rtryresv kd q => wordSys 0x1C (kd.toNat * 2 ^ 6 + q.toNat)
  | .rtryrecv kd q => wordSys 0x1D (kd.toNat * 2 ^ 6 + q.toNat)
  | .rclose q => wordSys 0x1E q.toNat
  | .rstat kd q => wordSys 0x1F (kd.toNat * 2 ^ 6 + q.toNat)
  | .pinstall ka => wordSys 0x20 ka.toNat
  | .pstatus kd ka => wordSys 0x21 (kd.toNat + ka.toNat * 2 ^ 6)
  | .fence kind sc => wordSys 0x24 (kind.code + sc.code * 2 ^ 2)
  | .sealLines ka kb => wordSys 0x25 (ka.toNat + kb.toNat * 2 ^ 6)
  | .unsealLines ka kb => wordSys 0x26 (ka.toNat + kb.toNat * 2 ^ 6)
  | .cwb ka kb sc => wordSys 0x27 (ka.toNat + kb.toNat * 2 ^ 6 + sc.code * 2 ^ 12)
  | .yield => wordSys 0x28 0
  | .wsync ka => wordSys 0x29 ka.toNat
  | .exit => wordSys 0x2A 0
  | .trap n => wordSys 0x2B n.toNat
  | .bkpt => wordSys 0x2C 0
  | .rett => wordSys 0x2D 0
  | .csrr d csr => wordSys 0x2E (d.toNat + csr.toNat * 2 ^ 7)
  | .csrw csr a => wordSys 0x2F (csr.toNat * 2 ^ 7 + a.toNat)
  | .rdcyc d => wordSys 0x30 d.toNat
  | .wred d a op t g => wordSys 0x31 (d.toNat + a.toNat * 2 ^ 7 + op.code * 2 ^ 14 + t.code * 2 ^ 16 + g.toNat * 2 ^ 18)
  | .evsig ka => wordSys 0x32 ka.toNat
  | .movsr d id => wordSys 0x33 (d.toNat + id.toNat * 2 ^ 7)
  | .phaseEnd _ => 0
  | .queueDoorbell _ _ => 0
  | .queueEntry _ => 0
  | .graphStart _ => 0
  | .kernelNode _ _ => 0
  | .millNode _ _ => 0
  | .millStart _ => 0
  | .millCoreJoin _ _ => 0
  | .copyNode _ _ => 0
  | .installNode _ _ => 0
  | .condNode _ _ => 0
  | .loopNode _ _ => 0
  | .loopRearm _ _ => 0
  | .eventNode _ _ => 0
  | .waitNode _ _ => 0
  | .nodeComplete _ _ => 0
  | .graphComplete _ => 0
  | .qcfgWrite _ _ _ _ => 0
  | .evraise _ _ => 0
  | .handBlock _ _ => 0
  | .placeBlock _ => 0
  | .clusterConvert _ _ => 0
  | .clusterConvertDone _ _ => 0
  | .blockRetire _ => 0
  | .gridComplete _ => 0
  | .pageWalk _ _ => 0
  | .parkPendingAdmit _ => 0
  | .memComplete _ => 0
  | .fenceComplete _ => 0
  | .homeAccess _ _ => 0
  | .invalidationAccept _ _ _ => 0
  | .invalidationApply _ _ => 0
  | .tlbinv _ _ => 0
  | .tlbinvDone _ => 0
  | .asnroot _ _ _ => 0
  | .l2hashWrite _ _ _ => 0
  | .migrateStart _ => 0
  | .migrateCopied _ => 0
  | .migrateFinish _ => 0
  | .copyLand _ _ _ => 0
  | .copyComplete _ _ => 0
  | .loadw _ _ => 0
  | .stream _ _ => 0
  | .accum _ _ => 0
  | .drain _ _ => 0
  | .signal _ _ => 0
  | .mxComplete _ _ => 0
  | .weightStage _ _ => 0
  | .weightStageDone _ _ => 0
  | .mxPowerGate _ _ _ => 0
  | .mxWake _ _ _ => 0
  | .installAccept _ _ => 0
  | .engraveRead _ _ _ => 0
  | .engraveProgram _ _ _ _ _ => 0
  | .engraveVerify _ _ _ _ => 0
  | .plateSwitch _ _ _ => 0
  | .blockReclaim _ _ _ => 0
  | .blockErase _ _ _ => 0
  | .raceGrant _ _ => 0
  | .commitComplete _ => 0
  | .releaseComplete _ => 0
  | .millComplete _ => 0
  | .millwrightStep _ _ => 0
  | .waferMillwrightStep _ => 0
  | .occSample _ _ _ => 0
  | .moveApply _ => 0
  | .preemptCommand _ _ => 0
  | .drainBudgetExpire _ => 0
  | .flushRelease _ => 0
  | .saveWrite _ => 0
  | .preemptDone _ => 0
  | .fqpop _ => 0
  | .fqResume _ _ => 0
  | .fqDeliver _ _ => 0
  | .fqAbort _ _ => 0
  | .l1TagParityError _ _ => 0
  | .linkCrcFail _ _ => 0
  | .packetForward _ _ => 0
  | .rtArm _ _ => 0
  | .rtSelect _ _ => 0
  | .rtDrain _ _ => 0
  | .rtClear _ => 0
  | .drainTokenVisit _ => 0
  | .nameAgeTick _ => 0
  | .renameCore _ _ => 0
  | .renameComplete _ => 0
  | .vfctlWrite _ _ => 0
  | .linkPauseEnd _ => 0
  | .powerLimitTick _ => 0
  | .ctreeBuild _ _ _ _ => 0
  | .wredRoundResult _ _ _ _ => 0
  | .peerAccess _ _ _ _ _ => 0
  | .hostMemAccess _ _ _ _ _ => 0
  | .attest _ _ => 0
  | .gdaybookWrite _ _ => 0
  | .gdaybookArm _ => 0
  | .partmap _ _ => 0
  | .powerOn => 0
  | .domainReset _ => 0
  | .registerWrite _ _ _ _ => 0
  | .holdLift _ _ => 0
  | .gridEnd _ => 0
  | .ticketAbort _ _ => 0
  | .keepMarkClear _ => 0
  | .virtualInterfaceReset _ => 0
  | .powerLoss => 0
  | .hostCompletionTimeout _ _ => 0
  | .sealComplete _ => 0
  | .linkTakeDown _ => 0

/-- The bytes of an instruction's word as they stand in memory, lowest first (R7, R44). -/
def encodeBytes (i : Instr) : List Byte := leBytes i.len (encode i)

/-- The instruction of the table word `w`: `nbits` gives the row's length, and bits above it are zero. -/
noncomputable def decodeTableWord (nbits w : Nat) : Option Instr :=
  if nbits = 0 then none
  else
    match decode (leBytes 4 (w % 2 ^ nbits)) with
    | .ok (i, _) => some i
    | .error _ => none

end Sys2Proof
end

