-- ==== Sys2Proof/Config.lean ====
section
/-!
DEFINITION. What an implementation fixes, and the free values: constants without a body, so that
nothing can be proved of what they are.
-/
namespace Sys2Proof.Config

/-- The cycles that pass on a core between two issues, beyond the one of the issue itself (R125).
DESIGN CHOICE (log 18). -/
opaque freeCycles : Nat → Nat

/-- The choice of the line that an L1 evicts from a full set under ordinary replacement (R228).
DESIGN CHOICE (log 19). -/
opaque freeVictim : Nat → Nat

/-- The correctable errors that a domain has counted between two changes of its orrery entry (R392, R431).
DESIGN CHOICE (log 157). -/
opaque freeErrors : Nat → Nat

/-- Which of its value at the launch and the values stored to it since a 16-bit unit of code reads as (R23).
DESIGN CHOICE (log 31). -/
opaque freeUnit : Nat → Nat

/-- Whether a read in the midst of a change finds the new value: of a plate page that switches, or of a scratchpad byte
beside a command of the matrix engine (R235, R310, R348). DEDUCED (log 115). DEDUCED (log 187). -/
opaque freeVersion : Nat → Bool

/-- Whether the programming or the verification of a page slot fails while a block is reclaimed (R342, R347).
DESIGN CHOICE (log 165). -/
opaque flashFails : Nat → Bool

/-- Which remote copy, if any, a domain's L2 evicts when it allocates another (R437, R445). DESIGN CHOICE (log 20). -/
opaque freeEvict : Nat → Nat

/-- The set of its L2 bank that a line address falls in (R233). DESIGN CHOICE (log 21). -/
opaque l2Set : Nat → Nat

/-- The device context key that the stewards draw at a module reset, as a number of 256 bits (R408).
DESIGN CHOICE (log 22). -/
opaque contextKey : Nat → Nat

/-- The PC that a fault-queue entry records where no instruction failed (R384, R394). DESIGN CHOICE (log 23). -/
opaque freePc : Nat → DWord

/-- The next bit of a domain's pseudo-random sequence of classes (R421). DESIGN CHOICE (log 24). -/
opaque freeClass : Nat → Nat

/-- The bytes of the firmware image of a number (R459). DESIGN CHOICE (log 25). -/
opaque firmwareImage : Nat → List Byte

/-- The bytes of the signature of a quote under the module's attestation key (R459). DESIGN CHOICE (log 25). -/
opaque signature : List Byte → Nat → Byte

/-- The core voltage in millivolts that the steward of a domain chooses at a code of VFCTL (R433).
DESIGN CHOICE (log 26). -/
opaque coreVoltage : Nat → Nat → Nat

/-- Whether the steward's estimate puts a domain at a code of VFCTL above a share of power in watts (R434, R460).
DESIGN CHOICE (log 26). -/
opaque powerAbove : Nat → Nat → Nat → Bool

end Sys2Proof.Config
end

