-- ==== Sys2Proof/Machine/State.lean ====
section
/-!
DEFINITION. The state of the module as plain data: threads, wefts, blocks and grids; cores and
domains; the memory and its caches; the engines; the queues, virtual interfaces and the fabric.
-/
namespace Sys2Proof.Machine

/-! ## Threads (R13-R27, R136, R379) -/

/-- The state of a lane (R136). -/
inductive LaneState where
  /-- No thread is bound to the lane. -/
  | empty
  /-- The thread executes user code. -/
  | run
  /-- The thread waits at a BWAIT, WSYNC, blocking race instruction or YIELD. -/
  | wait
  /-- The thread runs its trap handler. -/
  | trap
  /-- The thread has executed EXIT. -/
  | done
  deriving DecidableEq, Repr

/-- What a lane in WAIT waits for (R136). -/
inductive Wait where
  | none
  /-- BWAIT on barrier `b` for the phase of parity `p` (R186). -/
  | barrier (b p : Nat)
  /-- WSYNC with the recorded mask (R146). -/
  | wsync (mask : Nat)
  /-- YIELD (R157). -/
  | yield
  /-- RRESV, or RRECV where `recv` holds, on race `q`, whose slot address goes to the pair k(kd) (R328). -/
  | race (q kd : Nat) (recv : Bool)
  deriving DecidableEq, Repr

/-- An entry of the reissue queue (R378): the word, the effective address, the operand words. -/
structure ReOp where
  word : Nat
  addr : Nat
  data : Nat
  deriving DecidableEq, Repr

/-- A captured operation that a lane is to re-inject (R382, R385, R388): its place in the lane's program
order, its word, the PC of its instruction, its address and operand words, whether it was issued in handler
mode, and whether it stands under DELIVER. -/
structure ParkedOp where
  op : Nat
  word : Nat
  pc : DWord
  addr : Nat
  data : Nat
  handler : Bool
  deliver : Bool := false
  deriving DecidableEq, Repr

/-- A thread: its registers, CSRs, PC, return stack and frame (R137, R379). -/
structure Thread where
  /-- The lane's state (R136). -/
  tst : LaneState := .empty
  /-- The PC, a 64-bit virtual address (R21). -/
  pc : DWord := 0
  /-- v0-v127; a register not listed holds zero (R13). -/
  v : Sp Word := []
  /-- x0-x3 (R17). -/
  x : Sp Word := []
  /-- FCSR (R19). -/
  fcsr : Word := 0
  /-- SPTR (R18, R24). -/
  sptr : DWord := 0
  /-- The on-chip return addresses, oldest first, at most four (R24). -/
  rs : List DWord := []
  /-- What the lane in WAIT waits for. -/
  wait : Wait := .none
  /-- TCAUSE (R380). -/
  tcause : Word := 0
  /-- TPCH:TPCL, the resume PC (R379). -/
  tpc : DWord := 0
  /-- TADDRH:TADDRL, the faulting address (R379). -/
  taddr : DWord := 0
  /-- TINFO (R381). -/
  tinfo : Word := 0
  /-- HSCR0-HSCR3 (R379). -/
  hscr : Sp Word := []
  /-- The reissue queue, in issue order, at most eight entries (R378). -/
  trq : List ReOp := []
  /-- The operation whose completion the lane awaits before it issues anything further: a fence, a
  held store or atomic, a refill, a seal (R25, R126, R253, R254). -/
  hold : Option Nat := Option.none
  /-- The captured operations that the lane re-injects before its next instruction, in program order: those
  that a park captured (R382, R385), or those of the frame at RETT (R388). -/
  parkq : List ParkedOp := []
  /-- The v and the x registers whose words are poisoned (R392, R393). -/
  vBad : List Nat := []
  xBad : List Nat := []
  /-- A system fault met next is taken as a trap, after DELIVER (R385). -/
  deliver : Bool := false
  /-- The trap of an L1 tag error, under DELIVER, that a waiting lane takes once its wait is met (R136, R394). -/
  due : Bool := false
  /-- The number that the next operation had as the lane last entered its handler (R377). -/
  entered : Nat := 0
  deriving DecidableEq, Repr

/-! ## Wefts, blocks, grids (R138-R164, R192-R198) -/

/-- The state of a weft (R140). -/
inductive WeftState where
  | active | parked | saved | released | finished
  deriving DecidableEq, Repr

/-- A fault-queue entry (R384). -/
structure FqEntry where
  kind : Nat := 1
  cause : Nat := 0
  reason : Nat := 0
  space : Nat := 0
  issue : Nat := 0
  done : Nat := 0
  block : Nat := 0
  addr : Nat := 0
  pc : Nat := 0
  weft : Nat := 0
  slot : Nat := 0
  asn : Nat := 0
  deriving DecidableEq, Repr

/-- An entry of an outstanding-operation counter: the operation and whether it has completed;
entries retire in issue order (R285, R286). -/
structure CntEntry where
  op : Nat
  done : Bool := false
  deriving DecidableEq, Repr

/-- A race slot that a weft holds: reserved and not committed, or, where `recv` holds, received and
not released; its address is what the reserve or receive returned (R158, R324). -/
structure HeldSlot where
  race : Nat
  slot : Nat
  recv : Bool
  addr : Nat
  deriving DecidableEq, Repr

/-- The classes of engine operations that a WAITCNT may observe (R287). -/
inductive EngClass where
  | copy | matrix
  deriving DecidableEq, Repr

/-- A failure of an engine operation of a weft that a WAITCNT is still to deliver (R284, R287, R305):
the operation's place among those of its class that the weft issued, its order among all, its status
or code and the first failing address. -/
structure Failure where
  cls : EngClass
  seq : Nat
  op : Nat
  code : Nat
  addr : Nat
  deriving DecidableEq, Repr

/-- A weft (R138, R148). Its lanes are the threads of `State.threads`. DEDUCED (log 52). -/
structure Weft where
  /-- The weft's state (R140). -/
  wst : WeftState := .finished
  /-- The index of its role in the role table (R151). -/
  role : Nat := 0
  /-- k0-k63; a register not listed holds zero (R148). -/
  k : Sp Word := []
  /-- The k registers whose words are poisoned (R392, R393). -/
  kBad : List Nat := []
  /-- The starvation counters of the user and the handler stream (R143). -/
  sbUser : Nat := 0
  sbHandler : Nat := 0
  /-- The stream that issued at the previous issue: true for the handler stream (R144). -/
  lastHandler : Bool := false
  /-- The core partition, slot row and position the weft holds (R138, R197). -/
  part : Nat := 0
  row : Nat := 0
  pos : Nat := 0
  /-- The load, store, copy and matrix counters, as their entries in issue order (R285). -/
  ld : List CntEntry := []
  st : List CntEntry := []
  cp : List CntEntry := []
  mx : List CntEntry := []
  /-- How many copies and matrix commands the weft has issued (R287). -/
  cpSeq : Nat := 0
  mxSeq : Nat := 0
  /-- The failures that a WAITCNT of the weft is still to deliver (R287). -/
  failures : List Failure := []
  /-- MXQUERY's FAILED (R309). -/
  mxFailed : Bool := false
  /-- The race slots the weft holds (R324). -/
  slots : List HeldSlot := []
  /-- The fault-queue entry the weft has posted, or will post from park pending (R220, R382). -/
  park : Option FqEntry := none
  /-- The weft is in park pending: its entry is not yet posted (R220); and the operation whose failure the
  entry records, if it was issued. -/
  pending : Bool := false
  parkOp : Option Nat := none
  /-- The entry is of a fetch or at-issue fault, which RESUME ends by reissue (R385). -/
  atIssue : Bool := false
  deriving DecidableEq, Repr

/-- A named barrier (R183). A barrier of which nothing is listed is uninitialised. -/
structure Barrier where
  init : Bool := false
  expa : Int := 0
  pend : Int := 0
  expb : Nat := 0
  rcvb : Nat := 0
  par : Nat := 0
  err : Bool := false
  deriving DecidableEq, Repr

/-- What reaches a barrier in one cycle (R184): members dropped, arrivals, bytes expected and landed, and the failure
of an engine, as source, code and address. -/
structure BarUpdate where
  drop : Nat := 0
  arrivals : Nat := 0
  expected : Nat := 0
  landed : Nat := 0
  fail : Option (Nat × Nat × Nat) := none
  deriving DecidableEq, Repr

/-- What a cycle that spans several turns holds (R184, R366, R371, R457): whether the turn after the next one falls into
its cycle; the updates still to be tested, by block and barrier; the core partitions that have issued in it; the events,
by virtual interface, whose waiting nodes are still to be tested; the nodes, by queue, that have become ready in it and
those that have failed; and the doorbells still to be taken, each with the TAIL written. -/
structure Cycle where
  joined : Bool := false
  merges : List (Nat × Nat × BarUpdate) := []
  parts : List Nat := []
  raised : List (Nat × Nat) := []
  ready : List (Nat × Nat) := []
  failed : List (Nat × Nat) := []
  bells : List (Nat × Nat) := []
  deriving DecidableEq, Repr

/-- The state of a block (R164). -/
inductive BlockState where
  | queued | resident | draining | saved | retired | lost
  deriving DecidableEq, Repr

/-- What the steward decided for a block under a pre-emption command (R399). -/
inductive Method where
  | drain | flush | save
  deriving DecidableEq, Repr

/-- A block's place in a context region: a save area, or a phase record; the domain, the first PA, the
units of 64 KiB and the bytes in use (R403). -/
structure Area where
  save : Bool := false
  dom : Nat := 0
  base : Nat := 0
  units : Nat := 1
  len : Nat := 0
  deriving DecidableEq, Repr

/-- A byte of an allocation written while a matrix array had commands queued: its offset, what it held before, the
issue number then, and the array whose command wrote it, if one did, as core × 4 + partition (R293, R310). -/
structure SpmOld where
  addr : Nat
  old : Byte
  seq : Nat
  array : Option Nat := none
  deriving DecidableEq, Repr

/-- A block (R150). -/
structure Block where
  /-- The grid or mill it belongs to, and its stage there. -/
  gid : Nat := 0
  stage : Nat := 0
  /-- The linear block id (R155). -/
  lin : Nat := 0
  bst : BlockState := .queued
  /-- The number of YIELDs it has completed (R156). -/
  phase : Nat := 0
  /-- The core of the current phase, by its physical number in the module. -/
  core : Nat := 0
  /-- The order of its placement on the core (R205). DEDUCED (log 88). -/
  age : Nat := 0
  /-- The scratchpad allocation, by offset (R179). -/
  spm : Memory := []
  /-- The poisoned words of the allocation, by offset / 4 (R393). -/
  spmBad : Sp Nat := []
  /-- The bytes that a queued command may still find old, latest first (R310). -/
  was : List SpmOld := []
  /-- b0-b15 (R183). -/
  bars : Sp Barrier := []
  /-- The domain that the wafer dispatcher has handed it to for its next placement (R435), and the
  domain that counts it (R204). -/
  hand : Option Nat := none
  countDom : Nat := 0
  /-- Its latest phase record and its save area (R403). -/
  record : Option Area := none
  area : Option Area := none
  /-- The issues its wefts have made in the phase, and the cycle of its core at placement (R398). -/
  issues : Nat := 0
  since : Nat := 0
  /-- The global atomics that each lane has performed in the phase, by weft × 32 + lane (R414). -/
  atoms : Sp Nat := []
  /-- A race instruction other than RSTAT, or a WRED, has issued in the phase (R333, R450). -/
  raced : Bool := false
  /-- The core partitions to which it has pushed matrix commands in the phase (R407). -/
  pushed : Nat := 0
  /-- The method decided for it (R399), the commands that wait for it (R397), its issues when a DRAIN was
  decided (R400), and whether it has stopped issuing (R401, R402). -/
  method : Option Method := none
  under : List Nat := []
  drainAt : Nat := 0
  stopped : Bool := false
  /-- The domain in which a flushed phase, or one whose save area failed its checks, ran (R161, R445). -/
  left : Option Nat := none
  /-- It was saved by a host command in a replay, which no record tells of (R416). -/
  aside : Bool := false
  deriving DecidableEq, Repr

/-- The kind of a role (R152). -/
inductive RoleKind where
  | general | copy | vector | matrix
  deriving DecidableEq, Repr

/-- A role entry of a launch record (R195). -/
structure Role where
  kind : RoleKind := .general
  prio : Nat := 0
  regs : Nat := 8
  wefts : Nat := 1
  carry : BitVec 128 := 0
  deriving DecidableEq, Repr

/-- The accepted fields of a launch or stage record (R192, R193, R194). -/
structure Launch where
  flags : Word := 0
  code : DWord := 0
  nbid : Nat × Nat × Nat := (1, 1, 1)
  ntid : Nat × Nat × Nat := (1, 1, 1)
  width : Nat := 8
  spm : Nat := 0
  carrySpm : Nat := 0
  nbar : Nat := 0
  handler : DWord := 0
  hints : DWord := 0
  event : DWord := 0
  daybook : DWord := 0
  coll : DWord := 0
  roles : List Role := []
  /-- The 64 KiB constant bank (R169). -/
  bank : Memory := []
  deriving DecidableEq, Repr

/-- A daybook while its launch, or its graphs, run (R413, R462): the header's VA and ASN, mode, level,
buffer, the bytes of records written, whether any was dropped, the next SEQ of each SRC; in replay, the
records not yet used, in order; and where it diverged. -/
structure Daybook where
  va : Nat := 0
  replay : Bool := false
  level : Nat := 1
  buf : Nat := 0
  bufLen : Nat := 0
  used : Nat := 0
  dropped : Bool := false
  seqs : Sp Nat := []
  recs : List Nat := []
  diverged : Option (Nat × Nat × Nat) := none
  deriving DecidableEq, Repr

/-- The state of a race slot that is not FREE, and the weft that holds or held it (R321). -/
inductive SlotState where
  | reserved | committed | received
  deriving DecidableEq, Repr
structure RaceSlot where
  sst : SlotState
  blk : Nat
  weft : Nat
  deriving DecidableEq, Repr

/-- The state of a race (R321). -/
inductive RaceState where
  | opened | closed | abandoned
  deriving DecidableEq, Repr

/-- A race: its record (R317), its slots that are not FREE, its pointers and its waiting queues of
block and weft (R321). -/
structure Race where
  slotLog : Nat := 6
  scope : Nat := 0
  prod : Nat := 0
  cons : Nat := 0
  slots : Nat := 2
  home : Nat := 0
  base : Nat := 0
  rst : RaceState := .opened
  slot : Sp RaceSlot := []
  rp : Nat := 0
  cp : Nat := 0
  reservers : List (Nat × Nat) := []
  receivers : List (Nat × Nat) := []
  deriving DecidableEq, Repr

/-- A move of a core between stages (R337): the core, the donor, the bottleneck, the deciding domain
and its interval, and whether the wafer step decided it. -/
structure Move where
  core : Nat
  donor : Nat
  bneck : Nat
  src : Nat
  interval : Nat
  wafer : Bool
  deriving DecidableEq, Repr

/-- What a mill adds to its launch (R315-R339): the header's fields, the stages' MINC, MAXC and WEIGHT,
the races, the stage of each core and the stage a departing core goes to, the core counts, the
occupancy samples each decider holds (64 for the wafer step), its intervals, and the moves to apply. -/
structure Mill where
  raceMb : Nat := 0
  interval : Nat := 10
  cores : Nat := 1
  minc : List Nat := []
  maxc : List Nat := []
  weight : List Nat := []
  races : List Race := []
  started : Bool := false
  held : Sp Nat := []
  departing : Sp Nat := []
  mover : Sp Nat := []
  count : List Nat := []
  lead : Nat := 0
  samples : Sp (Sp Nat) := []
  intervals : Sp Nat := []
  moves : List Move := []
  deriving DecidableEq, Repr

/-- A round of a collective group (R449, R450): op and type of its first contribution, whether the ranks'
differ, each rank's contribution and its flags, the ranks whose contributions have not reached the root, the combining
tree that serves it, whether it has failed, and whether its result has left the root. -/
structure Round where
  op : Nat := 0
  ty : Nat := 0
  mismatch : Bool := false
  parts : Sp (Nat × Nat) := []
  onWay : List Nat := []
  tree : Option (List (Nat × Nat)) := none
  lost : Bool := false
  left : Bool := false
  told : List Nat := []
  deriving DecidableEq, Repr

/-- A collective group as the device read it, with the next round of each rank, and the rounds; or the first
field of its entry that is outside its limits (R447-R449). -/
structure Group where
  breach : Option Nat := none
  first : Nat := 0
  count : Nat := 1
  weft : Nat := 0
  stage : Nat := 0xFF
  statva : Nat := 0
  next : Sp Nat := []
  rounds : Sp Round := []
  deriving DecidableEq, Repr

/-- The figures of R398 for a stage: phases ended, their issues and their cycles. -/
structure Figures where
  ended : Nat := 0
  issues : Nat := 0
  cycles : Nat := 0
  deriving DecidableEq, Repr

/-- A status recorded against a launch: its code, and the block and the phase that it names (R284, R305, R370). -/
structure LaunchStatus where
  code : Nat
  lin : Nat := 0
  phase : Nat := 0
  deriving DecidableEq, Repr

/-- A grid, or a mill of several stages. -/
structure Grid where
  /-- The launch record of the grid, or of each stage of the mill in stage order. -/
  stages : List Launch := []
  /-- What it is beside, if it is a mill. -/
  mill : Option Mill := none
  /-- The virtual interface and the address space it runs in. -/
  vi : Nat := 0
  asn : Nat := 0
  /-- The launch identity (R397), and the queue and node that launched it. -/
  ident : Nat := 0
  node : Nat × Nat := (0, 0)
  /-- The priority class, SYSREL, RECORD, the completion events and COLL (R193, R194, R315). -/
  prio : Nat := 0
  sysrel : Bool := false
  record : Nat := 0
  event : DWord := 0
  coll : Nat := 0
  /-- The next block of each stage whose first phase is to be handed (R435), and whether the shares are closed
  (R436). -/
  nextLin : List Nat := []
  closed : Bool := false
  /-- For each domain: the first phases handed to it, the blocks counted there; and the domains whose share is
  complete (R204). -/
  handed : Sp Nat := []
  counted : Sp Nat := []
  shares : List Nat := []
  /-- Memory as instruction fetch found it at the launch, and the number of the next store then (R23). -/
  code : Memory := []
  since : Nat := 0
  /-- The first status recorded (R370); and whether system software has ended it. -/
  status : Option LaunchStatus := none
  ended : Bool := false
  /-- It has completed, and its node has not yet. -/
  complete : Bool := false
  /-- The placement count of the grid or stage on each core, as stage × 4096 + core (R201). -/
  places : Sp Nat := []
  /-- The figures of each stage (R398). -/
  figures : Sp Figures := []
  /-- The daybook (R413). -/
  book : Option Daybook := none
  /-- The collective groups read (R447), and the combining trees built (R456) as pairs of a domain and its
  parent, from the root, by group. -/
  groups : Sp Group := []
  trees : Sp (List (Nat × Nat)) := []
  deriving DecidableEq, Repr

/-! ## Memory operations (R126-R134, R179-R182, R243, R247, R250, R377) -/

/-- The memory space of an access (R56). -/
inductive MSpace where
  | spm | cluster | global | plate | const | host
  deriving DecidableEq, Repr

/-- What an access does at its address. `spill` and `refill` are those of the return stack (R24, R25). -/
inductive AccFn where
  | load
  | store
  | atom (f : AtomFn)
  | fatom (f : AtfFn)
  | spill
  | refill
  deriving DecidableEq, Repr

/-- The access that a memory instruction makes in each lane: its space, function, size in bytes,
sign extension, order, scope, policy, the first register of its data group and the cluster target. -/
structure Access where
  space : MSpace := .global
  fn : AccFn := .load
  size : Nat := 4
  signed : Bool := false
  order : Order := .rlx
  scope : Scope := .blk
  policy : Policy := .normal
  dest : Nat := 0
  target : Nat := 0
  deriving DecidableEq, Repr

/-- Where the access of one lane stands. -/
inductive AccSt where
  /-- Issued and awaiting translation and its checks (R377). -/
  | held
  /-- Translated: the physical address, or the allocation's block for a scratchpad; NC; plate. -/
  | ready (pa : Nat) (nc plate : Bool)
  /-- It has its place (R259); a load's value is fixed. -/
  | served
  /-- Withdrawn into the reissue queue (R377). -/
  | withdrawn
  deriving DecidableEq, Repr

/-- Where the message of an access that needs the mesh stands (R421): not sent, its request in flight, at the
home, its response in flight, back, or dropped on the way (R422). -/
inductive Trip where
  | none | request | atHome | response | back | lost
  deriving DecidableEq, Repr

/-- The access of one lane. A 128-bit access is two halves of 64 bits, placed independently (R268). -/
structure LaneAcc where
  lane : Nat
  addr : Nat
  data : Nat := 0
  aux : Nat := 0
  st : AccSt := .held
  /-- The halves still to be placed: bit 0 the low half, bit 1 the high half. -/
  left : Nat := 1
  /-- What the access has read. -/
  val : Nat := 0
  /-- Re-injected under DELIVER: a system fault of it is taken as a trap (R385). -/
  deliver : Bool := false
  trip : Trip := .none
  /-- A write to the host stands on the link, and is still to be performed there (R251). -/
  link : Bool := false
  deriving DecidableEq, Repr

/-- What an outstanding operation is. -/
inductive OpKind where
  /-- A load, store or atomic. -/
  | access
  /-- PFG or PFP: not counted, and captured by no trap (R131, R248). -/
  | prefetch
  /-- FENCE (R252). -/
  | fence (k : FenceKind) (s : Scope)
  /-- SEAL and UNSEAL of a range (R254, R255). -/
  | sealOp (base len : Nat)
  | unsealOp (base len : Nat)
  /-- The same, with all done but the last step: the entry in force everywhere; the release after the
  replicas are gone. -/
  | sealed
  | unsealed
  /-- CWB of a range (R257). -/
  | cwb (s : Scope) (base len : Nat)
  /-- The release of an RCOMMIT or RRELEASE of a slot, and of an RCLOSE (R329, R330). -/
  | commit (race slot : Nat)
  | relSlot (race slot : Nat)
  | rclose (race : Nat)
  /-- PINSTALL's release, with the install that follows it (R352): DEST, SRC, LENGTH, TICKET, FLAGS, EVENT. -/
  | install (dest src len ticket flags event : Nat)
  /-- EVSIG's release, with the event that it raises (R373). -/
  | evsig (n : Nat)
  /-- A WRED whose result is outstanding: group, round and rank (R449). -/
  | wred (group round rank : Nat)
  /-- MXFENCE on the array of a partition of the issuing core (R308). -/
  | mxfence (part : Nat)
  deriving DecidableEq, Repr

/-- An outstanding operation of a weft. -/
structure MemOp where
  kind : OpKind := .access
  blk : Nat := 0
  weft : Nat := 0
  /-- The core that issued it. -/
  core : Nat := 0
  pc : DWord := 0
  word : Nat := 0
  acc : Access := {}
  lanes : List LaneAcc := []
  /-- The lanes of the issue set that took no precise trap on it (R384). -/
  issue : Nat := 0
  /-- Issued in handler mode. -/
  handler : Bool := false
  /-- The place in program order of an operation that was captured and re-injected; else it is its own
  number (R385). -/
  prior : Option Nat := none
  deriving DecidableEq, Repr

/-! ## Translation (R211-R221, R238) -/

/-- A TLB entry: one page or run, of a virtual interface (R213, R218). DEDUCED (log 57). -/
structure TlbEnt where
  vi : Nat := 0
  asn : Nat := 0
  /-- The first VA of the page or run, and the log2 of its size. -/
  va : Nat := 0
  bits : Nat := 12
  /-- The PA it maps to. -/
  pa : Nat := 0
  r : Bool := false
  w : Bool := false
  x : Bool := false
  g : Bool := false
  plate : Bool := false
  nc : Bool := false
  d : Bool := false
  deriving DecidableEq, Repr

/-- An entry of a walk cache: the non-leaf entry of a level that a walk of a VA under an ASN read, as the VA's bits
above that level's and the table that it names (R218). -/
structure WalkEnt where
  vi : Nat
  asn : Nat
  level : Nat
  va : Nat
  table : Nat
  deriving DecidableEq, Repr

/-- An entry of a seal table (R238). -/
structure SealEnt where
  asn : Nat
  base : Nat
  len : Nat
  deriving DecidableEq, Repr

/-! ## Caches (R222-R233, R437-R441) -/

/-- A line of an L1 or a remote copy: its bytes by offset, the valid bit of each 64-byte sector, the
256-bit dirty mask, the policy of the latest access that allocated or stored to it, the poisoned
8-byte words with the storage that failed (R222, R393, R437), and the wefts whose stores its dirty bytes hold, by
key (R395). -/
structure CLine where
  data : Memory := []
  valid : Nat := 0
  dirty : Nat := 0
  policy : Policy := .normal
  bad : Sp Nat := []
  writers : List Nat := []
  deriving DecidableEq, Repr

/-- An entry of the home directory: the sharer pointers, at most four; overflow, state B; and the H
bit (R439). -/
structure DirEnt where
  line : Nat
  sharers : List Nat := []
  overflow : Bool := false
  host : Bool := false
  deriving DecidableEq, Repr

/-- An invalidation that a home has sent and that its target has not accepted: the line, the target's
domain and the domain whose access caused it (R440, R441). -/
structure Inval where
  line : Nat
  target : Nat
  src : Nat
  deriving DecidableEq, Repr

/-- A range of lines that a copy owns in its domain's L2: the copy's core and slot, the lines (R239).
DEDUCED (log 67). -/
structure Own where
  core : Nat
  slot : Nat
  first : Nat
  count : Nat
  deriving DecidableEq, Repr

/-! ## Copies (R273-R284, R346) -/

/-- A piece that a copy is still to move: its SPM offset, its global VA and, once translated, its PA;
its bytes; whether its destination bytes are written (R276, R279); whether its page is non-cacheable (R229); and
whether its page refused the write at issue (R239). -/
structure Elem where
  spm : Nat
  va : Nat
  n : Nat
  pa : Option Nat := none
  live : Bool := true
  nc : Bool := false
  refused : Bool := false
  deriving DecidableEq, Repr

/-- A stream whose copy waits for a slot of its core, at the copy's PC (R273). -/
structure CopyWait where
  blk : Nat
  weft : Nat
  handler : Bool
  pc : DWord
  deriving DecidableEq, Repr

/-- What a copy slot holds (R273): a copy into SPM, a copy to global memory, or a CPPW staging of a
plate page into a frame. -/
inductive CopyKind where
  | load | store
  | stage (page frame : Nat)
  deriving DecidableEq, Repr

/-- A copy under way. -/
structure Copy where
  kind : CopyKind := .load
  /-- A tile copy, whose addresses are checked as it proceeds (R278, R283). -/
  tile : Bool := false
  blk : Nat := 0
  weft : Nat := 0
  /-- Its number in the issue order, and its place among its weft's copies (R286, R287). -/
  op : Nat := 0
  seq : Nat := 0
  pc : DWord := 0
  /-- The barrier it names, if any (R282). -/
  bar : Option Nat := none
  policy : Policy := .normal
  /-- The pieces still to be moved. -/
  pend : List Elem := []
  /-- The status and the first failing address (R284). -/
  status : Nat := 0
  addr : Nat := 0
  /-- The entry it has posted to the engine fault queue while it is paused (R284, R384). -/
  fault : Option FqEntry := none
  deriving DecidableEq, Repr

/-! ## Matrix arrays and weight banks (R289-R312, R345) -/

/-- A slot view: format, KPASS, SCALED and SPARSE of the latest LOADW pushed to a slot (R294). -/
structure MxView where
  fmt : Nat
  kpass : Nat
  scaled : Bool
  sparse : Bool
  deriving DecidableEq, Repr

/-- A weight slot: what it latched, its scale, its validity bit, the weight set and its metadata (R289). -/
structure WSlot where
  view : MxView := ⟨0, 1, false, false⟩
  wscale : Nat := 0
  valid : Bool := false
  data : Memory := []
  idx : Memory := []
  deriving DecidableEq, Repr

/-- A queued command: who pushed it, its number in the issue order and among its weft's commands, the
offset of its parameter block and the copy of its 64 bytes; the plate page it waits for; its STATUS
once its effect is made; the bytes of a DRAIN that have not landed yet, by offset (R292, R295, R310). -/
structure MxCmd where
  blk : Nat
  weft : Nat
  op : Nat
  seq : Nat
  off : Nat
  par : Memory
  need : Option Nat := none
  res : Option Nat := none
  land : Sp Byte := []
  deriving DecidableEq, Repr

/-- The matrix array of a core partition (R289): slot views, weight slots, accumulator words by
row × 32 + column, the rows whose storage has failed, the command queue, the power-gated quarters and
the spare rows in use. -/
structure MxArray where
  views : Sp MxView := []
  slots : Sp WSlot := []
  acc : Sp Word := []
  accBad : List Nat := []
  queue : List MxCmd := []
  gated : Nat := 0
  spare : Nat := 0
  deriving DecidableEq, Repr

/-- A frame of a weight bank that is STAGING or VALID (R345): the plate page's PA, the version and
bytes copied, the first 4 KiB codeword that cannot be corrected, whether a switch has overtaken the staging (R348),
whether its reads found no way to the page's home (R422), and the poisoned words, by offset / 4 (R392, R393). -/
structure Frame where
  valid : Bool := false
  tag : Nat := 0
  version : Nat := 0
  data : Memory := []
  bad : Option Nat := none
  stale : Bool := false
  lost : Bool := false
  poison : Sp Nat := []
  deriving DecidableEq, Repr

/-! ## Cores -/

/-- A core. DESIGN CHOICE (log 14). -/
structure Core where
  /-- The 64-bit cycle counter (R125). -/
  cyc : DWord := 0
  /-- The 16-bit name, where a rename has given the core another than its first (R156, R429). -/
  name : Option Nat := none
  /-- The row that issued last, for each core partition; 15 after core reset (R205). -/
  lastRow : Sp Nat := []
  /-- The 64-entry L1 TLB, newest first (R218). -/
  tlb : List TlbEnt := []
  /-- The L1, or the core's slice of its cluster's fused L1, by line address (R222, R230). -/
  l1 : Sp CLine := []
  /-- The copy slots in use, 0 to 31 (R273). -/
  copies : Sp Copy := []
  /-- The streams whose copies wait for a slot, in the order in which they began to (R273). -/
  copyq : List CopyWait := []
  /-- The matrix array of each core partition (R289). DEDUCED (log 142). -/
  arrays : Sp MxArray := []
  /-- The test record: how many rows of each core partition's array are defective (R311). DESIGN CHOICE (log 170). -/
  defects : Sp Nat := []
  /-- The weight bank's frames that are not EMPTY, 0 to 4,095, and the order of their last use (R345). -/
  bank : Sp Frame := []
  bankUse : List Nat := []
  deriving DecidableEq, Repr

/-! ## Domains and virtual interfaces -/

/-- An entry of the plate map: the page slot and the version (R341). -/
structure PlateEnt where
  slot : Nat
  version : Nat
  deriving DecidableEq, Repr

/-- Where one page of an install stands (R347). -/
inductive PageState where
  | queued | programming | verifying | switching | done | skipped | failed
  deriving DecidableEq, Repr

/-- A page of an install: the PA of its plate page, the VA of its source, its state, the bytes read, the
page slot being programmed and the blocks tried. -/
structure InstPage where
  dest : Nat
  src : Nat
  pst : PageState := .queued
  data : Memory := []
  slot : Nat := 0
  tried : List Nat := []
  /-- Whether the page keeps its version: it moves as its block is reclaimed, from the slot `src` (R342). -/
  keeps : Bool := false
  deriving DecidableEq, Repr

/-- An entry of a ticket table: an install and its code (R350, R351). `dom` is the domain that issued it
with PINSTALL; `node` the queue and node of an INSTALL node. -/
structure Install where
  ticket : Nat
  code : Nat := 2
  dest : Nat := 0
  src : Nat := 0
  len : Nat := 0
  skip : Bool := false
  event : Nat := 0
  asn : Nat := 0
  dom : Option Nat := none
  node : Option (Nat × Nat) := none
  /-- The order of its acceptance, once accepted. -/
  accepted : Option Nat := none
  pages : List InstPage := []
  /-- The code of the page that failed first. -/
  fail : Option Nat := none
  remapped : Bool := false
  deriving DecidableEq, Repr

/-- A flash erase block: page slots programmed, wear count, retired (R342, R343). -/
structure FBlock where
  used : Nat := 0
  wear : Nat := 0
  retired : Bool := false
  deriving DecidableEq, Repr

/-- A drain of a route table: the table, the router where it began, the place in the snake of the next
visit, the pass, whether the pass is clean so far; the domain where the token stands, or that has sent it on (R426). -/
structure Drain where
  tbl : Nat
  start : Nat
  here : Nat
  moving : Bool := false
  at_ : Nat := 0
  pass : Nat := 1
  clean : Bool := true
  deriving DecidableEq, Repr

/-- What a mesh packet carries: an access, as operation and lane, or nothing; the claim of a name for a domain, or
its announce (R429); the drain token (R426); a rank's contribution to a round of a group of a launch (R449); or a
steward's message for a core, by number, and whether it is a flooded copy (R427, R428). -/
inductive Cargo where
  | access
  | claim (src name : Nat)
  | announce (src name : Nat)
  | token
  | part (gid group round rank : Nat)
  | message (n : Nat) (copy : Bool)
  deriving DecidableEq, Repr

/-- A mesh packet (R421, R428): its partition, destination, class, table, message kind; the domain whose router
holds it and the port it arrived at; the access it carries, as operation and lane; the source core's name and
domain where it carries them; and what else it carries. DESIGN CHOICE (log 73). -/
structure Packet where
  part : Nat := 0
  dest : Nat := 0
  cls : Nat := 0
  tbl : Nat := 0
  kind : Nat := 0
  here : Nat := 0
  port : Nat := 0
  carries : Option (Nat × Nat) := none
  source : Option (Nat × Nat) := none
  cargo : Cargo := .access
  deriving DecidableEq, Repr

/-- The answer to a fault handle on its way to the core of a partition by that core's name (R385, R427, R428): the
domain that sent it, its flooded copies that are still under way, whether a domain has accepted it, and whether its
sender has received NAMEMISS. -/
structure NameMsg where
  part : Nat
  name : Nat
  src : Nat
  handle : Nat
  resume : Bool
  copies : Nat := 0
  taken : Bool := false
  missed : Bool := false
  deriving DecidableEq, Repr

/-- An entry of a name table (R428). -/
structure NameEnt where
  part : Nat
  name : Nat
  dom : Nat
  age : Nat := 0
  deriving DecidableEq, Repr

/-- The rename registers of a domain (R429, R455); the domains still to answer the claim or to acknowledge the
announce; and, while the name is claimed, the spare core, the dead core whose VALID this rename has cleared, and
whether there is a conflict. -/
structure RenameReg where
  spare : Nat := 0
  name : Nat := 0
  status : Nat := 0
  waiting : List Nat := []
  claim : Option (Nat × Option Nat) := none
  conflict : Bool := false
  deriving DecidableEq, Repr

/-- A peer port: whether its link is up; the window that this module exports there, PEERWIN (BASE, LEN, VI); and the
peer module beyond it, its export's length and bytes by window offset (R453). DESIGN CHOICE (log 15).
DESIGN CHOICE (log 71). -/
structure Peer where
  up : Bool := true
  base : Nat := 0
  len : Nat := 0
  vi : Nat := 0
  farLen : Nat := 0
  farMem : Memory := []
  deriving DecidableEq, Repr

/-- The MIGRATE registers of a virtual interface (R354, R455). -/
structure Migration where
  old : Nat := 0
  new : Nat := 0
  sz : Nat := 0
  status : Nat := 0
  deriving DecidableEq, Repr

/-- A domain. DESIGN CHOICE (log 10). -/
structure Domain where
  /-- STATE in the orrery: 0 absent or in reset, 1 up, 2 degraded, 3 down; the steward's firmware image, its version,
  and whether its signature verifies against the fused digest (R431, R459). -/
  st : Nat := 0
  firmware : Nat := 0
  fwVersion : Nat := 0
  fwGood : Bool := true
  /-- COREMAP: the usable cores (R1, R431). DESIGN CHOICE (log 11). -/
  coremap : Nat := 2 ^ 36 - 1
  /-- The usable L2 banks, and the correctable errors counted (R431). -/
  banks : Nat := 0xFFFF
  corrected : Nat := 0
  /-- The context region of each virtual interface: CTXBASE and CTXLEN (R403). -/
  ctx : Sp (Nat × Nat) := []
  /-- The cluster that is being converted, and to which mode (R200). -/
  conv : Option (Nat × Bool) := none
  /-- The placements made on the domain's cores: the source of block ages (R205). -/
  ages : Nat := 0
  /-- The mill that holds the race region (R319). -/
  raceRegion : Option Nat := none
  /-- The virtual interface that each core last served (R412). -/
  served : Sp Nat := []
  /-- The links N, E, S, W: down or not; whether retries have been counted; the retries of the flit at each (R395,
  R418). -/
  down : Nat := 0
  degraded : Nat := 0
  retries : Sp Nat := []
  /-- RTCTL: RSEL, the states of tables A and B, ARMERR, DRAINED, ERRIDX, DROPS (R424). -/
  rsel : Nat := 0
  sta : Nat := 1
  stb : Nat := 1
  armErr : Bool := false
  drained : Bool := false
  errIdx : Nat := 0
  drops : Nat := 0
  /-- The entries of tables A and B that differ from the reset tables, as table × 640 + i (R422). -/
  routes : Sp Nat := []
  /-- DIRTY (R426). -/
  dirty : Bool := false
  /-- The name table (R428), by index. -/
  names : Sp NameEnt := []
  /-- RENAME (R429, R455). -/
  rename : RenameReg := {}
  /-- VFCTL: REFUSED, BUSY, FCUR, FCODE (R433); and the code that a change in progress sets (R434, R460). -/
  vfRefused : Bool := false
  vfBusy : Bool := false
  fcur : Nat := 8
  fcode : Nat := 8
  vfNext : Nat := 8
  /-- Reserve blocks left, blocks retired since manufacture, and the erase blocks that have been used (R340-R344). -/
  spare : Nat := 8192
  retired : Nat := 0
  fblocks : Sp FBlock := []
  /-- The capacity of main DRAM and of the plate store in GiB, as the orrery reports them (R211, R340).
  DESIGN CHOICE (log 12). -/
  dramGib : Nat := 48
  flashGib : Nat := 512
  /-- The 16,384-entry L2 TLB, newest first (R218). -/
  tlb : List TlbEnt := []
  /-- The clusters that are fused (R200). -/
  fused : List Nat := []
  /-- The remote copies in this domain's L2, by line address (R437). -/
  remote : Sp CLine := []
  /-- The plate lines that this domain's L2 holds, by line address, each with the policy that allocated it (R228,
  R235). -/
  plates : Sp Policy := []
  /-- The walk cache of non-leaf entries, newest first (R218). -/
  walks : List WalkEnt := []
  /-- The home directory, oldest allocation first (R439). -/
  dir : List DirEnt := []
  /-- The invalidations sent for lines homed here and not yet accepted: those lines are busy (R441). -/
  busy : List Inval := []
  /-- The back-invalidations sent to the host for lines homed here, and not yet complete (R446). -/
  snoops : List Inval := []
  /-- The invalidation queue of each L2 bank, oldest first (R440). -/
  invq : Sp (List Nat) := []
  /-- The ranges that copies own in this L2 (R239). -/
  owned : List Own := []
  /-- The owned lines that a held access has recalled (R240). -/
  recalls : List Nat := []
  /-- The lines with a keep mark, oldest first (R233). -/
  keep : List Nat := []
  /-- L2HASH0 to L2HASH3, over PA[51:8] (R232). -/
  l2hash : List Nat := [0x111, 0x222, 0x444, 0x888]
  /-- Whether the link of the host port is up (R250). -/
  portUp : Bool := true
  /-- The plate map: the entries that are not EMPTY, by plate page (R341). -/
  plateMap : Sp PlateEnt := []
  /-- The pages in the midst of a switch, by plate page: the page slot that the old entry named (R348). -/
  switching : Sp (Option Nat) := []
  /-- The pages that the engraver moves for no ticket: those of a block that it reclaims, and those whose switch had
  begun as their ticket was dropped (R342, R347). -/
  moves : List InstPage := []
  /-- CTREE of each virtual interface, as the bytes of its window from +0x68 (R455). -/
  ctree : Sp Memory := []
  /-- MXIDLE (R312). -/
  mxIdle : Nat := 0x1000
  /-- The contents of the programmed page slots, by slot number: block × 64 + slot (R340). DESIGN CHOICE (log 8). -/
  flash : Sp Memory := []
  /-- The 4 KiB codewords that LDPC cannot correct, as slot × 16 + codeword (R247, R392). -/
  flashBad : List Nat := []
  deriving DecidableEq, Repr

/-- A write of the device that is still to take its place: the address space, the VA, the bytes and their number; or,
of no bytes, the end of a quote (R413, R432, R459). -/
structure DevPut where
  asn : Nat
  va : Nat
  n : Nat
  x : Nat
  deriving DecidableEq, Repr

/-- A virtual interface. -/
structure VIface where
  /-- The root table of each ASN (R212). -/
  roots : Sp Nat := []
  /-- The seal table (R238). -/
  seals : List SealEnt := []
  /-- PARTMAP: the mask of its physical domains (R455). -/
  partmap : Nat := 0
  /-- MIGRATE (R354, R455). -/
  mig : Migration := {}
  /-- The event counters (R371), and the interrupt vectors sent, in order (R372, R451). -/
  events : Sp Nat := []
  irqs : List Nat := []
  /-- The ticket table: an entry joins at the end, and moves to the end when it gets its final code (R351). -/
  tickets : List Install := []
  /-- IBUDGET (R344). -/
  ibudget : Nat := 0
  /-- The next launch identity (R397). -/
  nextIdent : Nat := 1
  /-- The bytes of the registers below 0x600 that only hold what is written: ASNROOT's ASN, TLBINV's VA and
  LEN, PRECMD's fields, MIGRATE's PAs and SZ, FQVEC, ORRBASE, ATTEST's NONCE and BUF (R455). -/
  regs : Memory := []
  /-- TLBINV: ASN, ALL, G, GO and DONE (R455). -/
  tlbinv : Nat := 0
  /-- ATTEST's GO and DONE (R455). -/
  attest : Nat := 0
  /-- GEN of the orrery image (R430). -/
  orrGen : Nat := 0
  /-- The entries of the orrery image as the stewards have last written them, by offset from the first (R430, R432). -/
  orrImage : Memory := []
  /-- The writes of daybooks and of the orrery image that the device is to make, in order (R413, R432). -/
  puts : List DevPut := []
  /-- The handle that FQPOP last returned, and VFERR (R455). -/
  fqLast : Nat := 0
  vferr : Nat := 0
  /-- GDAYBOOK: the VA it reads as, the daybook armed there, and a write that waits for its end (R462). -/
  gbookVa : Nat := 0
  gbook : Option Daybook := none
  gbookNext : Option Nat := none
  deriving DecidableEq, Repr

/-! ## The agenda -/

/-- The instruction at issue: which lanes of which weft, in which stream, and its word (R141). DESIGN CHOICE (log 4). -/
structure Issue where
  blk : Nat := 0
  weft : Nat := 0
  handler : Bool := false
  lanes : List Nat := []
  pc : DWord := 0
  word : Nat := 0
  len : Nat := 4
  /-- The value the stream's starvation counter takes when this issue is made (R143). -/
  sb : Nat := 0
  /-- The lanes whose system fault at this issue is taken as a trap, after DELIVER (R385). -/
  deliver : Nat := 0
  /-- The lanes in which the instruction reads a poisoned register, each with the register's number (R389). -/
  bad : List (Nat × Nat) := []
  deriving DecidableEq, Repr

/-- Who moves next. DESIGN CHOICE (log 1). -/
inductive Turn where
  /-- A core partition issues: the slot row, the weft and its stream are those of R139, R144 and R205. -/
  | issue (core part : Nat)
  /-- A step of the device or of a host. -/
  | event (i : Instr)
  /-- No step: the next two turns fall into one cycle (R184). -/
  | sameCycle
  deriving DecidableEq, Repr

/-- Where a posted fault-queue entry stands (R384): a weft's place, or a copy slot of a core. -/
inductive FaultRef where
  | weft (blk weft : Nat)
  | engine (core slot : Nat)
  deriving DecidableEq, Repr

/-- Where a node of a graph stands (R361-R366). -/
inductive NodeState where
  | idle | ready | running | rearm | done
  deriving DecidableEq, Repr

/-- A node of a running graph: its 64 bytes, its successor lists, its counters (R364, R365), its state, the
bytes a COPY has moved, and, once it has ended, its status and address (R370). -/
structure Node where
  par : Memory := []
  listA : List Nat := []
  listB : List Nat := []
  cnt : Nat := 0
  back : Nat := 0
  iter : Nat := 0
  nst : NodeState := .idle
  pos : Nat := 0
  res : Option (Nat × Nat) := none
  /-- The list that a COND or LOOP decrements at its end: true for list A or the body. -/
  takesA : Bool := true
  /-- It has been ready at least once. -/
  reached : Bool := false
  deriving DecidableEq, Repr

/-- The graph of a queue's entry (R358-R369): the entry's fields, the nodes once read, the ready nodes in
order, the waiting WAIT nodes' order, and what its completion record will say. -/
structure Graph where
  entry : Memory := []
  started : Bool := false
  nodes : Sp Node := []
  ready : List Nat := []
  stopped : Bool := false
  status : Nat := 0
  node : Nat := 0xFFFFFFFF
  detail : Nat := 0
  info : Nat := 0
  addr : Nat := 0
  /-- The offset of the entry's first failing field, where one failed (R358). -/
  breach : Option Nat := none
  /-- Whether its BRANCH records are covered by USED (R462), and the words of its completion record that are written
  (R369). -/
  covered : Bool := false
  written : Nat := 0
  /-- The arming of the graph daybook under which it started (R462). -/
  book : Bool := false
  deriving DecidableEq, Repr

/-- A queue (R356, R457). DESIGN CHOICE (log 13). -/
structure Queue where
  base : Nat := 0
  sizeLog : Nat := 4
  vi : Nat := 64
  asn : Nat := 0
  enable : Bool := false
  head : Nat := 0
  tail : Nat := 0
  err : Nat := 0
  graph : Option Graph := none
  deriving DecidableEq, Repr

/-- A pre-emption command under way (R397): the fields, the function that issued it, the blocks of each outcome,
whether its hold stands, and whether every domain has completed it. DEDUCED (log 120). -/
structure PreCmd where
  vi : Nat
  flags : Nat
  budget : Nat
  ident : Nat
  domains : Nat
  event : Nat
  issuer : Nat := 64
  drained : Nat := 0
  flushed : Nat := 0
  saved : Nat := 0
  noroom : Nat := 0
  hold : Bool := false
  done : Bool := false
  deriving DecidableEq, Repr

/-- The state of the module. DESIGN CHOICE (log 17). -/
structure State where
  threads : Sp Thread := []
  wefts : Sp Weft := []
  blocks : Sp Block := []
  grids : Sp Grid := []
  /-- The numbers the next block and the next grid get. -/
  nextBlk : Nat := 0
  nextGid : Nat := 0
  cores : Sp Core := []
  domains : Sp Domain := []
  vis : Sp VIface := []
  /-- Main DRAM with the L2 of its home above it, by physical address (R211). DESIGN CHOICE (log 7).
  DESIGN CHOICE (log 55). -/
  mem : Memory := []
  /-- The poisoned 8-byte words of it, by PA / 8, with the storage that failed (R393). DEDUCED (log 68). -/
  bad : Sp Nat := []
  /-- For each 16-bit unit, by PA / 2, the values stored to it, each with the number of its latest store, and
  the number of the next store (R23). -/
  stored : Sp (List (Nat × Nat)) := []
  storedNo : Nat := 0
  /-- Host memory, by host address (R452). DESIGN CHOICE (log 70). -/
  hostMem : Memory := []
  /-- The peer ports, as domain × 2 + port (R453). -/
  peers : Sp Peer := []
  /-- The outstanding operations by number, in issue order, and the next number. -/
  ops : Sp MemOp := []
  nextOp : Nat := 0
  /-- The queues that are configured or used (R356). -/
  queues : Sp Queue := []
  /-- The WAIT nodes that wait, as queue and node, in the order in which they began (R371). -/
  waiters : List (Nat × Nat) := []
  /-- The pre-emption commands issued, by number (R397). -/
  cmds : Sp PreCmd := []
  /-- The mesh packets in flight (R421), and the drain in progress (R426). -/
  packets : Sp Packet := []
  nextPacket : Nat := 0
  drain : Option Drain := none
  /-- The answers to fault handles that are on their way to a core by its name (R428). -/
  messages : Sp NameMsg := []
  nextMessage : Nat := 0
  /-- The fused minimum of a firmware version (R459). -/
  fwMin : Nat := 0
  /-- PWRLIM (R455, R460). -/
  pwrlim : Nat := 25000
  /-- The device context key's number: it counts the module resets (R408). -/
  key : Nat := 0
  /-- The fault-queue entries whose handles FQPOP has returned and FQACT has not answered (R456). -/
  popped : List FaultRef := []
  /-- The posted fault-queue entries that are not ended, oldest first (R384, R456). -/
  faults : List FaultRef := []
  /-- The park-pending wefts, as block and weft, in the order in which their faults arose (R220). -/
  pendq : List (Nat × Nat) := []
  /-- The instruction at issue. -/
  iss : Issue := {}
  /-- Whether the last turn stalled at issue (R142). -/
  stalled : Bool := false
  /-- The cycle that the turns before this one have left open (R184). -/
  cycle : Cycle := {}
  /-- The turns to come; when it is empty the model's own order applies. -/
  agenda : List Turn := []
  /-- The core partition that issued last under the model's own order. -/
  lastPart : Nat := 0
  /-- The number of free values used so far: the model's own field. DESIGN CHOICE (log 16). -/
  free : Nat := 0
  deriving DecidableEq, Repr

/-- The module after power-on reset, with no firmware loaded and nothing placed (R16, R461). DESIGN CHOICE (log 9). -/
def State.reset : State := {}

/-- Why the machine stops with a fault. There is no reason: every condition that the spec names is a trap, a
system fault, a status or a refusal that the machine itself goes on from, so no step ends in a fault. -/
inductive Fault where
  deriving DecidableEq, Repr

/-- Why an instruction has no meaning. -/
inductive Refusal where
  /-- The instruction has no meaning in the model yet. -/
  | notModelled (mnemonic : String)
  deriving DecidableEq, Repr

end Sys2Proof.Machine
end

