-- ==== Sys2Proof/Machine/Access.lean ====
section
/-!
DEFINITION. The access that each memory instruction makes: its space, function, size, order, scope,
policy and data group (R56-R62, R127, R132, R180-R182, R243, R247, R249).
-/
namespace Sys2Proof.Machine

/-- The access of a memory instruction; a prefetch and every other instruction make none. -/
def accessOf : Instr → Option Access
  | .shortMov _ _ => none
  | .shortIadd _ _ => none
  | .shortIsub _ _ => none
  | .shortImul _ _ => none
  | .shortAnd _ _ => none
  | .shortOr _ _ => none
  | .shortXor _ _ => none
  | .shortShl _ _ => none
  | .shortShrl _ _ => none
  | .shortShra _ _ => none
  | .shortFadd _ _ => none
  | .shortFsub _ _ => none
  | .shortFmul _ _ => none
  | .shortFmax _ _ => none
  | .shortFmin _ _ => none
  | .shortIaddi _ _ => none
  | .iadd _ _ _ => none
  | .isub _ _ _ => none
  | .imul _ _ _ => none
  | .imulhi _ _ _ => none
  | .imulhin _ _ _ => none
  | .imad _ _ _ => none
  | .imin _ _ _ => none
  | .imax _ _ _ => none
  | .iminn _ _ _ => none
  | .imaxn _ _ _ => none
  | .and _ _ _ => none
  | .or _ _ _ => none
  | .xor _ _ _ => none
  | .andn _ _ _ => none
  | .shl _ _ _ => none
  | .shrl _ _ _ => none
  | .shra _ _ _ => none
  | .rotl _ _ _ => none
  | .sel _ _ _ => none
  | .iaddsat _ _ _ => none
  | .isubsat _ _ _ => none
  | .bfx _ _ _ => none
  | .bfi _ _ _ => none
  | .iadd64 _ _ _ => none
  | .isub64 _ _ _ => none
  | .imulw _ _ _ => none
  | .imulwn _ _ _ => none
  | .shl64 _ _ _ => none
  | .shrl64 _ _ _ => none
  | .shra64 _ _ _ => none
  | .iseq _ _ _ => none
  | .isne _ _ _ => none
  | .islt _ _ _ => none
  | .isle _ _ _ => none
  | .isltn _ _ _ => none
  | .islen _ _ _ => none
  | .fadd _ _ _ => none
  | .fsub _ _ _ => none
  | .fmul _ _ _ => none
  | .ffma _ _ _ => none
  | .fmin _ _ _ => none
  | .fmax _ _ _ => none
  | .fseq _ _ _ => none
  | .fsne _ _ _ => none
  | .fslt _ _ _ => none
  | .fsle _ _ _ => none
  | .fsuno _ _ _ => none
  | .fcopysign _ _ _ => none
  | .dadd _ _ _ => none
  | .dsub _ _ _ => none
  | .dmul _ _ _ => none
  | .dfma _ _ _ => none
  | .dmin _ _ _ => none
  | .dmax _ _ _ => none
  | .dseq _ _ _ => none
  | .dslt _ _ _ => none
  | .dsle _ _ _ => none
  | .dsuno _ _ _ => none
  | .hadd2 _ _ _ => none
  | .hmul2 _ _ _ => none
  | .hfma2 _ _ _ => none
  | .badd2 _ _ _ => none
  | .bmul2 _ _ _ => none
  | .bfma2 _ _ _ => none
  | .cvtF32I32 _ _ => none
  | .cvtF32N32 _ _ => none
  | .cvtI32F32 _ _ => none
  | .cvtN32F32 _ _ => none
  | .cvtF64F32 _ _ => none
  | .cvtF32F64 _ _ => none
  | .cvtF64I32 _ _ => none
  | .cvtI32F64 _ _ => none
  | .cvtF64I64 _ _ => none
  | .cvtI64F64 _ _ => none
  | .cvtF16x2F32 _ _ _ => none
  | .cvtBf16x2F32 _ _ _ => none
  | .cvtF32F16 _ _ _ => none
  | .cvtF32Bf16 _ _ _ => none
  | .cvtF32E4m3 _ _ _ => none
  | .cvtF32E5m2 _ _ _ => none
  | .cvtE4m3x4F32 _ _ _ => none
  | .cvtE5m2x4F32 _ _ _ => none
  | .frint _ _ => none
  | .fclass _ _ => none
  | .fabs _ _ => none
  | .fneg _ _ => none
  | .popc _ _ => none
  | .clz _ _ => none
  | .brev _ _ => none
  | .frcp _ _ => none
  | .frsq _ _ => none
  | .fsqrt _ _ => none
  | .fdiv _ _ _ => none
  | .fex2 _ _ => none
  | .flg2 _ _ => none
  | .ddiv _ _ _ => none
  | .dsqrt _ _ => none
  | .idiv _ _ _ => none
  | .irem _ _ _ => none
  | .idivn _ _ _ => none
  | .iremn _ _ _ => none
  | .shfl _ _ _ => none
  | .shflup _ _ _ => none
  | .shfldn _ _ _ => none
  | .shflx _ _ _ => none
  | .ballot _ _ => none
  | .vany _ _ => none
  | .vall _ _ => none
  | .redadd _ _ => none
  | .redfadd _ _ => none
  | .redmax _ _ => none
  | .redmin _ _ => none
  | .scanadd _ _ => none
  | .movx _ _ => none
  | .movxw _ _ => none
  | .setx _ _ => none
  | .getx _ _ => none
  | .mov64 _ _ => none
  | .iaddi _ _ _ => none
  | .andi _ _ _ => none
  | .ori _ _ _ => none
  | .xori _ _ _ => none
  | .shli _ _ _ => none
  | .shrli _ _ _ => none
  | .shrai _ _ _ => none
  | .iseqi _ _ _ => none
  | .islti _ _ _ => none
  | .isltni _ _ _ => none
  | .imuli _ _ _ => none
  | .iadd64i _ _ _ => none
  | .movk _ _ => none
  | .isnei _ _ _ => none
  | .movi _ _ => none
  | .movhi _ _ => none
  | .bra _ => none
  | .bnz _ _ => none
  | .bz _ _ => none
  | .call _ => none
  | .callr _ => none
  | .ret => none
  | .jmpr _ => none
  | .kbnz _ _ => none
  | .kbz _ _ => none
  | .kadd _ _ _ => none
  | .ksub _ _ _ => none
  | .kmul _ _ _ => none
  | .kand _ _ _ => none
  | .kor _ _ _ => none
  | .kxor _ _ _ => none
  | .kshl _ _ _ => none
  | .kshr _ _ _ => none
  | .ksra _ _ _ => none
  | .kaddi _ _ _ => none
  | .kseq _ _ _ => none
  | .kslt _ _ _ => none
  | .ksltn _ _ _ => none
  | .kmin _ _ _ => none
  | .kmax _ _ _ => none
  | .ksel _ _ _ => none
  | .kadd64 _ _ _ => none
  | .kmovv _ _ => none
  | .kldcb _ _ _ => none
  | .kli _ _ => none
  | .klih _ _ => none
  | .kmulhi _ _ _ => none
  | .lds32 d _ _ =>
    some { space := .spm, fn := .load, size := 4, dest := d.toNat }
  | .lds64 d _ _ =>
    some { space := .spm, fn := .load, size := 8, dest := d.toNat }
  | .lds128 d _ _ =>
    some { space := .spm, fn := .load, size := 16, dest := d.toNat }
  | .sts32 d _ _ =>
    some { space := .spm, fn := .store, size := 4, dest := d.toNat }
  | .sts64 d _ _ =>
    some { space := .spm, fn := .store, size := 8, dest := d.toNat }
  | .sts128 d _ _ =>
    some { space := .spm, fn := .store, size := 16, dest := d.toNat }
  | .atsAdd32 d _ _ =>
    some { space := .spm, fn := .atom .add, size := 4, dest := d.toNat }
  | .atsExch32 d _ _ =>
    some { space := .spm, fn := .atom .exch, size := 4, dest := d.toNat }
  | .ldn32 d _ t o _ =>
    some { space := .cluster, fn := .load, size := 4, order := o, scope := .dom, dest := d.toNat, target := t.toNat }
  | .ldn64 d _ t o _ =>
    some { space := .cluster, fn := .load, size := 8, order := o, scope := .dom, dest := d.toNat, target := t.toNat }
  | .ldn128 d _ t o _ =>
    some { space := .cluster, fn := .load, size := 16, order := o, scope := .dom, dest := d.toNat, target := t.toNat }
  | .stn32 d _ t o _ =>
    some { space := .cluster, fn := .store, size := 4, order := o, scope := .dom, dest := d.toNat, target := t.toNat }
  | .stn64 d _ t o _ =>
    some { space := .cluster, fn := .store, size := 8, order := o, scope := .dom, dest := d.toNat, target := t.toNat }
  | .stn128 d _ t o _ =>
    some { space := .cluster, fn := .store, size := 16, order := o, scope := .dom, dest := d.toNat, target := t.toNat }
  | .atnAdd32 d _ t o _ =>
    some { space := .cluster, fn := .atom .add, size := 4, order := o, scope := .dom, dest := d.toNat, target := t.toNat }
  | .atnExch32 d _ t o _ =>
    some { space := .cluster, fn := .atom .exch, size := 4, order := o, scope := .dom, dest := d.toNat, target := t.toNat }
  | .ldgZ8 d _ o sc p =>
    some { space := .global, fn := .load, size := 1, order := o, scope := sc, policy := p, dest := d.toNat }
  | .ldgS8 d _ o sc p =>
    some { space := .global, fn := .load, size := 1, signed := true, order := o, scope := sc, policy := p, dest := d.toNat }
  | .ldgZ16 d _ o sc p =>
    some { space := .global, fn := .load, size := 2, order := o, scope := sc, policy := p, dest := d.toNat }
  | .ldgS16 d _ o sc p =>
    some { space := .global, fn := .load, size := 2, signed := true, order := o, scope := sc, policy := p, dest := d.toNat }
  | .ldg32 d _ o sc p =>
    some { space := .global, fn := .load, size := 4, order := o, scope := sc, policy := p, dest := d.toNat }
  | .ldg64 d _ o sc p =>
    some { space := .global, fn := .load, size := 8, order := o, scope := sc, policy := p, dest := d.toNat }
  | .ldg128 d _ o sc p =>
    some { space := .global, fn := .load, size := 16, order := o, scope := sc, policy := p, dest := d.toNat }
  | .stg8 d _ o sc p =>
    some { space := .global, fn := .store, size := 1, order := o, scope := sc, policy := p, dest := d.toNat }
  | .stg16 d _ o sc p =>
    some { space := .global, fn := .store, size := 2, order := o, scope := sc, policy := p, dest := d.toNat }
  | .stg32 d _ o sc p =>
    some { space := .global, fn := .store, size := 4, order := o, scope := sc, policy := p, dest := d.toNat }
  | .stg64 d _ o sc p =>
    some { space := .global, fn := .store, size := 8, order := o, scope := sc, policy := p, dest := d.toNat }
  | .stg128 d _ o sc p =>
    some { space := .global, fn := .store, size := 16, order := o, scope := sc, policy := p, dest := d.toNat }
  | .pfg _ _ => none
  | .atg32 d _ f o sc =>
    some { space := .global, fn := .atom f, size := 4, order := o, scope := sc, dest := d.toNat }
  | .atg64 d _ f o sc =>
    some { space := .global, fn := .atom f, size := 8, order := o, scope := sc, dest := d.toNat }
  | .atf32 d _ f o sc =>
    some { space := .global, fn := .fatom f, size := 4, order := o, scope := sc, dest := d.toNat }
  | .ldp32 d _ _ =>
    some { space := .plate, fn := .load, size := 4, dest := d.toNat }
  | .ldp64 d _ _ =>
    some { space := .plate, fn := .load, size := 8, dest := d.toNat }
  | .ldp128 d _ _ =>
    some { space := .plate, fn := .load, size := 16, dest := d.toNat }
  | .pfp _ _ => none
  | .ldcb32 d _ _ =>
    some { space := .const, fn := .load, size := 4, dest := d.toNat }
  | .ldcb64 d _ _ =>
    some { space := .const, fn := .load, size := 8, dest := d.toNat }
  | .ldcb128 d _ _ =>
    some { space := .const, fn := .load, size := 16, dest := d.toNat }
  | .ldh32 d _ o =>
    some { space := .host, fn := .load, size := 4, order := o, scope := .sys, dest := d.toNat }
  | .ldh64 d _ o =>
    some { space := .host, fn := .load, size := 8, order := o, scope := .sys, dest := d.toNat }
  | .sth32 d _ o =>
    some { space := .host, fn := .store, size := 4, order := o, scope := .sys, dest := d.toNat }
  | .sth64 d _ o =>
    some { space := .host, fn := .store, size := 8, order := o, scope := .sys, dest := d.toNat }
  | .athAdd64 d _ o =>
    some { space := .host, fn := .atom .add, size := 8, order := o, scope := .sys, dest := d.toNat }
  | .athCas64 d _ o =>
    some { space := .host, fn := .atom .cas, size := 8, order := o, scope := .sys, dest := d.toNat }
  | .athExch64 d _ o =>
    some { space := .host, fn := .atom .exch, size := 8, order := o, scope := .sys, dest := d.toNat }
  | .binit _ _ => none
  | .barr _ => none
  | .barrx _ _ => none
  | .bexp _ _ => none
  | .bwait _ _ => none
  | .btest _ _ _ => none
  | .bdrop _ => none
  | .cpgs _ _ _ _ => none
  | .cpsg _ _ _ _ => none
  | .cptl _ _ _ _ => none
  | .cpts _ _ _ _ => none
  | .cppw _ _ _ => none
  | .waitcnt _ _ _ _ => none
  | .mxpush _ => none
  | .mxfence => none
  | .mxquery _ => none
  | .qblk _ _ _ _ => none
  | .rresv _ _ => none
  | .rcommit _ _ => none
  | .rrecv _ _ => none
  | .rrelease _ _ => none
  | .rtryresv _ _ => none
  | .rtryrecv _ _ => none
  | .rclose _ => none
  | .rstat _ _ => none
  | .pinstall _ => none
  | .pstatus _ _ => none
  | .fence _ _ => none
  | .sealLines _ _ => none
  | .unsealLines _ _ => none
  | .cwb _ _ _ => none
  | .yield => none
  | .wsync _ => none
  | .exit => none
  | .trap _ => none
  | .bkpt => none
  | .rett => none
  | .csrr _ _ => none
  | .csrw _ _ => none
  | .rdcyc _ => none
  | .wred _ _ _ _ _ => none
  | .evsig _ => none
  | .movsr _ _ => none
  | .phaseEnd _ => none
  | .queueDoorbell _ _ => none
  | .queueEntry _ => none
  | .graphStart _ => none
  | .kernelNode _ _ => none
  | .millNode _ _ => none
  | .millStart _ => none
  | .millCoreJoin _ _ => none
  | .copyNode _ _ => none
  | .installNode _ _ => none
  | .condNode _ _ => none
  | .loopNode _ _ => none
  | .loopRearm _ _ => none
  | .eventNode _ _ => none
  | .waitNode _ _ => none
  | .nodeComplete _ _ => none
  | .graphComplete _ => none
  | .qcfgWrite _ _ _ _ => none
  | .evraise _ _ => none
  | .handBlock _ _ => none
  | .placeBlock _ => none
  | .clusterConvert _ _ => none
  | .clusterConvertDone _ _ => none
  | .blockRetire _ => none
  | .gridComplete _ => none
  | .pageWalk _ _ => none
  | .parkPendingAdmit _ => none
  | .memComplete _ => none
  | .fenceComplete _ => none
  | .homeAccess _ _ => none
  | .invalidationAccept _ _ _ => none
  | .invalidationApply _ _ => none
  | .tlbinv _ _ => none
  | .tlbinvDone _ => none
  | .asnroot _ _ _ => none
  | .l2hashWrite _ _ _ => none
  | .migrateStart _ => none
  | .migrateCopied _ => none
  | .migrateFinish _ => none
  | .copyLand _ _ _ => none
  | .copyComplete _ _ => none
  | .loadw _ _ => none
  | .stream _ _ => none
  | .accum _ _ => none
  | .drain _ _ => none
  | .signal _ _ => none
  | .mxComplete _ _ => none
  | .weightStage _ _ => none
  | .weightStageDone _ _ => none
  | .mxPowerGate _ _ _ => none
  | .mxWake _ _ _ => none
  | .installAccept _ _ => none
  | .engraveRead _ _ _ => none
  | .engraveProgram _ _ _ _ _ => none
  | .engraveVerify _ _ _ _ => none
  | .plateSwitch _ _ _ => none
  | .blockReclaim _ _ _ => none
  | .blockErase _ _ _ => none
  | .raceGrant _ _ => none
  | .commitComplete _ => none
  | .releaseComplete _ => none
  | .millComplete _ => none
  | .millwrightStep _ _ => none
  | .waferMillwrightStep _ => none
  | .occSample _ _ _ => none
  | .moveApply _ => none
  | .preemptCommand _ _ => none
  | .drainBudgetExpire _ => none
  | .flushRelease _ => none
  | .saveWrite _ => none
  | .preemptDone _ => none
  | .fqpop _ => none
  | .fqResume _ _ => none
  | .fqDeliver _ _ => none
  | .fqAbort _ _ => none
  | .l1TagParityError _ _ => none
  | .linkCrcFail _ _ => none
  | .packetForward _ _ => none
  | .rtArm _ _ => none
  | .rtSelect _ _ => none
  | .rtDrain _ _ => none
  | .rtClear _ => none
  | .drainTokenVisit _ => none
  | .nameAgeTick _ => none
  | .renameCore _ _ => none
  | .renameComplete _ => none
  | .vfctlWrite _ _ => none
  | .linkPauseEnd _ => none
  | .powerLimitTick _ => none
  | .ctreeBuild _ _ _ _ => none
  | .wredRoundResult _ _ _ _ => none
  | .peerAccess _ _ _ _ _ => none
  | .hostMemAccess _ _ _ _ _ => none
  | .attest _ _ => none
  | .gdaybookWrite _ _ => none
  | .gdaybookArm _ => none
  | .partmap _ _ => none
  | .powerOn => none
  | .domainReset _ => none
  | .registerWrite _ _ _ _ => none
  | .holdLift _ _ => none
  | .gridEnd _ => none
  | .ticketAbort _ _ => none
  | .keepMarkClear _ => none
  | .virtualInterfaceReset _ => none
  | .powerLoss => none
  | .hostCompletionTimeout _ _ => none
  | .sealComplete _ => none
  | .linkTakeDown _ => none

end Sys2Proof.Machine
end

