-- ==== Sys2Proof/Machine/Sparse.lean ====
section
/-!
DEFINITION. Tables with Nat keys, kept in rising order of key: registers, memory bytes, and the
device's own tables. `Sp.set` keeps the canonical form, in which no entry equals what a missing key
reads as; `Sp.put` stores an entry whatever it holds.
-/
namespace Sys2Proof
namespace Sp

variable {α : Type}

/-- The entry at key `k`, if the table lists one. -/
def find? : Sp α → Nat → Option α
  | [], _ => none
  | (k', a) :: m, k => if k' = k then some a else find? m k

/-- The entry at key `k`, or `d` if the table lists none. -/
def get (d : α) (m : Sp α) (k : Nat) : α := (find? m k).getD d

/-- The table without any entry at key `k`. -/
def del : Sp α → Nat → Sp α
  | [], _ => []
  | (k', a) :: m, k => if k' = k then del m k else (k', a) :: del m k

/-- The table with `a` at key `k`, in its place in the order. -/
def put : Sp α → Nat → α → Sp α
  | [], k, a => [(k, a)]
  | (k', b) :: m, k, a =>
    if k < k' then (k, a) :: (k', b) :: m
    else if k = k' then (k, a) :: m
    else (k', b) :: put m k a

/-- The table in which key `k` reads as `a`, where a missing key reads as `d`. -/
def set [DecidableEq α] (d : α) (m : Sp α) (k : Nat) (a : α) : Sp α :=
  if a = d then del m k else put m k a

/-- The table with the entry at `k`, `d` if missing, replaced by its image. -/
def upd (d : α) (m : Sp α) (k : Nat) (f : α → α) : Sp α := put m k (f (get d m k))

/-- The keys, in order. -/
def keys (m : Sp α) : List Nat := m.map (·.1)

/-- Every key is at least `lo` and the keys rise strictly. -/
def rising (lo : Nat) : Sp α → Bool
  | [] => true
  | (k, _) :: m => decide (lo ≤ k) && rising (k + 1) m

/-- The canonical form: strictly rising keys, no entry equal to `d`. -/
def wf [DecidableEq α] (d : α) (m : Sp α) : Bool := rising 0 m && m.all (fun e => e.2 != d)

end Sp

namespace Memory

/-- The canonical form of a memory: strictly rising addresses, no listed zero byte. -/
def wf (m : Memory) : Bool := Sp.wf 0 m

/-- One byte. -/
def byte (m : Memory) (a : Nat) : Byte := Sp.get 0 m a

/-- The memory with one byte written. -/
def setByte (m : Memory) (a : Nat) (b : Byte) : Memory := Sp.set 0 m a b

/-- `n` bytes from address `a`, lowest address in the low byte (R7). -/
def read (m : Memory) (a : Nat) : Nat → Nat
  | 0 => 0
  | n + 1 => (byte m a).toNat + 256 * read m (a + 1) n

/-- The memory with the low `n` bytes of `x` written from address `a`, low byte first (R7). -/
def write (m : Memory) (a : Nat) : Nat → Nat → Memory
  | 0, _ => m
  | n + 1, x => write (setByte m a (BitVec.ofNat 8 x)) (a + 1) n (x / 256)

/-- The memory with a list of bytes written from address `a`. -/
def writeBytes (m : Memory) (a : Nat) : List Byte → Memory
  | [] => m
  | b :: bs => writeBytes (setByte m a b) (a + 1) bs

/-- `n` bytes from address `a` as a list. -/
def readBytes (m : Memory) (a : Nat) : Nat → List Byte
  | 0 => []
  | n + 1 => byte m a :: readBytes m (a + 1) n

end Memory
end Sys2Proof
end

