-- ==== Sys2Proof/Machine/Operands.lean ====
section
/-!
DEFINITION. The operand forms: words, pairs, quads and groups of data registers, uniform registers
and their pairs, immediates (R13, R14, R47, R48, R52-R55).
-/
namespace Sys2Proof.Machine

/-- v(r) of a thread; v0 reads as zero (R13). -/
def Thread.reg (t : Thread) (r : Nat) : Word := if r = 0 then 0 else Sp.get 0 t.v r

/-- The thread with v(r) written, which covers a poisoned word; a write to v0 is discarded (R13, R393). -/
def Thread.setReg (t : Thread) (r : Nat) (x : Word) : Thread :=
  if r = 0 then t else { t with v := Sp.set 0 t.v r x, vBad := t.vBad.filter (· != r) }

/-- The pair v(r+1):v(r); the pair named v0 reads as zero (R14). -/
def Thread.pair (t : Thread) (r : Nat) : DWord := if r = 0 then 0 else t.reg (r + 1) ++ t.reg r

/-- The thread with the pair v(r+1):v(r) written; a write to the pair named v0 is discarded whole (R14). -/
def Thread.setPair (t : Thread) (r : Nat) (x : DWord) : Thread :=
  if r = 0 then t else (t.setReg r (x.extractLsb' 0 32)).setReg (r + 1) (x.extractLsb' 32 32)

/-- The quad v(r+3):…:v(r); the quad named v0 reads as zero (R47). -/
def Thread.quad (t : Thread) (r : Nat) : QWord :=
  if r = 0 then 0 else (t.reg (r + 3) ++ t.reg (r + 2)) ++ (t.reg (r + 1) ++ t.reg r)

/-- The thread with the quad at v(r) written; a write to the quad named v0 is discarded whole (R47). -/
def Thread.setQuad (t : Thread) (r : Nat) (x : QWord) : Thread :=
  if r = 0 then t
  else
    (((t.setReg r (x.extractLsb' 0 32)).setReg (r + 1) (x.extractLsb' 32 32)).setReg (r + 2)
      (x.extractLsb' 64 32)).setReg (r + 3) (x.extractLsb' 96 32)

/-- k(r) of a weft; k0 reads as zero (R148). -/
def Weft.kreg (w : Weft) (r : Nat) : Word := if r = 0 then 0 else Sp.get 0 w.k r

/-- The weft with k(r) written, which covers a poisoned word; a write to k0 is discarded (R148, R393). -/
def Weft.setK (w : Weft) (r : Nat) (x : Word) : Weft :=
  if r = 0 then w else { w with k := Sp.set 0 w.k r x, kBad := w.kBad.filter (· != r) }

/-- The pair k(r+1):k(r); the pair named k0 reads as zero (R48). -/
def Weft.kpair (w : Weft) (r : Nat) : DWord := if r = 0 then 0 else w.kreg (r + 1) ++ w.kreg r

/-- The weft with the pair k(r+1):k(r) written; a write to the pair named k0 is discarded (R167). -/
def Weft.setKPair (w : Weft) (r : Nat) (x : DWord) : Weft :=
  if r = 0 then w else (w.setK r (x.extractLsb' 0 32)).setK (r + 1) (x.extractLsb' 32 32)

/-- A word operand of ALU-A or ALU-B (R48). -/
def srcWord (w : Weft) (t : Thread) : Src → Word
  | .v r => t.reg r.toNat
  | .k r => w.kreg r.toNat

/-- A pair operand of ALU-A or ALU-B (R48). -/
def srcPair (w : Weft) (t : Thread) : Src → DWord
  | .v r => t.pair r.toNat
  | .k r => w.kpair r.toNat

/-- xI (R17). -/
def Thread.xreg (t : Thread) (i : BitVec 2) : Word := Sp.get 0 t.x i.toNat

/-- The thread with xI written, its reserved bits as zero, which covers a poisoned word (R17, R102, R393). -/
def Thread.setX (t : Thread) (i : BitVec 2) (x : Word) : Thread :=
  { t with x := Sp.set 0 t.x i.toNat (x &&& 0x007F7F7F), xBad := t.xBad.filter (· != i.toNat) }

/-- BASE of an index register (R17). -/
def xBase (x : Word) : Nat := (x.extractLsb' 0 7).toNat
/-- BOUND of an index register (R17). -/
def xBound (x : Word) : Nat := (x.extractLsb' 8 7).toNat
/-- INDEX of an index register (R17). -/
def xIndex (x : Word) : Nat := (x.extractLsb' 16 7).toNat

/-- A run of registers that one operand field names: the first and how many (R47). -/
abbrev Regs := Nat × Nat

/-- A field of shape W (R47). -/
def one (r : VReg) : Regs := (r.toNat, 1)
/-- A field of shape P or G2 (R47). -/
def two (r : VReg) : Regs := (r.toNat, 2)
/-- A field of shape Q or G4 (R47). -/
def four (r : VReg) : Regs := (r.toNat, 4)

/-- The data registers that a vb operand of shape W names (R48). -/
def srcRegs : Src → List Regs
  | .v r => [one r]
  | .k _ => []
/-- The data registers that a vb operand of shape P names (R48). -/
def srcRegs2 : Src → List Regs
  | .v r => [two r]
  | .k _ => []

/-- The uniform registers that a vb operand names, `n` of them (R48). -/
def srcKs (n : Nat) : Src → List Regs
  | .v _ => []
  | .k r => [(r.toNat, n)]

/-- Whether two runs of registers share one. -/
def Regs.meets (a b : Regs) : Bool := decide (a.1 < b.1 + b.2) && decide (b.1 < a.1 + a.2)

/-- FCSR of a thread: RM (R19). -/
def fcsrRM (f : Word) : Nat := (f.extractLsb' 0 2).toNat
/-- FCSR.FTZ (R19). -/
def fcsrFTZ (f : Word) : Bool := f.getLsbD 2
/-- FCSR.E5INF (R19). -/
def fcsrE5INF (f : Word) : Bool := f.getLsbD 8

end Sys2Proof.Machine
end

