-- ==== Sys2Proof/Machine/Ops.lean ====
section
/-!
DEFINITION. The shared operations: access to threads, wefts and blocks; taking a trap and returning
from one; parking a weft; and the issue of an instruction to the lanes of its issue set.
-/
namespace Sys2Proof.Machine

/-! ## Homes of the state -/

/-- The key of the thread at lane `l` of weft `w` of block `b`. DEDUCED (log 5). -/
def tkey (b w l : Nat) : Nat := b * 4096 + w * 32 + l
/-- The key of weft `w` of block `b`. -/
def wkey (b w : Nat) : Nat := b * 128 + w

def State.thread (s : State) (b w l : Nat) : Thread := Sp.get {} s.threads (tkey b w l)
def State.setThread (s : State) (b w l : Nat) (t : Thread) : State :=
  { s with threads := Sp.put s.threads (tkey b w l) t }
def State.weft (s : State) (b w : Nat) : Weft := Sp.get {} s.wefts (wkey b w)
def State.setWeft (s : State) (b w : Nat) (x : Weft) : State :=
  { s with wefts := Sp.put s.wefts (wkey b w) x }
def State.block (s : State) (b : Nat) : Block := Sp.get {} s.blocks b
def State.setBlock (s : State) (b : Nat) (x : Block) : State := { s with blocks := Sp.put s.blocks b x }
def State.grid (s : State) (g : Nat) : Grid := Sp.get {} s.grids g
def State.setGrid (s : State) (g : Nat) (x : Grid) : State := { s with grids := Sp.put s.grids g x }
def State.core (s : State) (c : Nat) : Core := Sp.get {} s.cores c
def State.setCore (s : State) (c : Nat) (x : Core) : State := { s with cores := Sp.put s.cores c x }

def State.domain (s : State) (d : Nat) : Domain := Sp.get {} s.domains d
def State.setDomain (s : State) (d : Nat) (x : Domain) : State := { s with domains := Sp.put s.domains d x }
def State.viface (s : State) (v : Nat) : VIface := Sp.get {} s.vis v
def State.setVI (s : State) (v : Nat) (x : VIface) : State := { s with vis := Sp.put s.vis v x }

/-- The launch record a block runs under: its grid's, or its stage's in a mill. -/
def State.launch (s : State) (b : Nat) : Launch :=
  let k := s.block b
  ((s.grid k.gid).stages[k.stage]?).getD {}

/-- The weft width of a block (R138). -/
def State.width (s : State) (b : Nat) : Nat := (s.launch b).width

/-- The role of a weft (R151). -/
def State.roleOf (s : State) (b w : Nat) : Role := ((s.launch b).roles[(s.weft b w).role]?).getD {}

/-- The number of threads of a block (R150). -/
def Launch.threads (l : Launch) : Nat := l.ntid.1 * l.ntid.2.1 * l.ntid.2.2
/-- The number of wefts of a block (R135). -/
def Launch.wefts (l : Launch) : Nat := (l.threads + l.width - 1) / l.width
/-- The number of blocks of a grid (R155). -/
def Launch.blocks (l : Launch) : Nat := l.nbid.1 * l.nbid.2.1 * l.nbid.2.2

/-- The domain of a core: 40 physical cores in each. -/
def domOf (core : Nat) : Nat := core / 40

/-- The 16-bit name of a core: its first name, or the one a rename gave it (R156, R429). -/
def State.coreName (s : State) (c : Nat) : Nat := ((s.core c).name).getD (c / 40 * 256 + c % 40)

/-- The virtual number of a physical domain within a virtual interface's partition (R156). -/
def State.virtualDomain (s : State) (vi dom : Nat) : Nat :=
  ((List.range dom).filter fun d => (s.viface vi).partmap.testBit d).length

/-- The lanes a mask names, in ascending order. -/
def maskLanes (m : Nat) : List Nat := (List.range 32).filter (fun l => m.testBit l)
/-- The mask of a list of lanes. -/
def laneMask (ls : List Nat) : Nat := ls.foldl (fun m l => m ||| 1 <<< l) 0

/-! ## Conditions and causes (R380, R381) -/

/-- The causes of traps and system faults (R381). -/
inductive Cause where
  | illegal | role | regrange | xrange | misalign | sealed | plateWrite | translate | protect
  | mxparam | barrier | race | software | breakpoint | uncorrectable | integrity | privilege
  deriving DecidableEq, Repr

/-- The cause code (R381). -/
def Cause.code : Cause → Nat
  | .illegal => 0x01
  | .role => 0x02
  | .regrange => 0x03
  | .xrange => 0x04
  | .misalign => 0x05
  | .sealed => 0x06
  | .plateWrite => 0x07
  | .translate => 0x08
  | .protect => 0x09
  | .mxparam => 0x0A
  | .barrier => 0x0B
  | .race => 0x0C
  | .software => 0x0D
  | .breakpoint => 0x0E
  | .uncorrectable => 0x10
  | .integrity => 0x11
  | .privilege => 0x12

/-- A condition that a lane meets: what its frame or its fault-queue entry records (R381, R384).
`sys` marks a system fault; `skip` is what TPC adds to the PC. -/
structure Cond where
  cause : Cause
  reason : Nat := 0
  addr : Nat := 0
  info : Nat := 0
  sys : Bool := false
  skip : Nat := 0
  deriving DecidableEq, Repr

/-- The access that a MEM word names (R56-R62). -/
def decodeAccess (word : Nat) : Option Access :=
  match decodeMem word with
  | .ok i => accessOf i
  | .error _ => none

/-! ## Held operations (R377) -/

/-- Whether an access function stops its lane while it is held (R377). -/
def AccFn.isStore : AccFn → Bool
  | .load => false
  | .store => true
  | .atom _ => true
  | .fatom _ => true
  | .spill => true
  | .refill => true

/-- Whether an access is of the return stack, which restarts instead of being captured (R27). -/
def AccFn.isStack : AccFn → Bool
  | .spill => true
  | .refill => true
  | _ => false

/-- The operation with the held access of lane `l` withdrawn. -/
def MemOp.withdraw (o : MemOp) (l : Nat) : MemOp :=
  { o with lanes := o.lanes.map fun a => if a.lane = l && a.st == .held then { a with st := .withdrawn } else a }

/-- The place of an operation in the program order of its lanes (R385). -/
def MemOp.place (id : Nat) (o : MemOp) : Nat := o.prior.getD id

/-- What an operation leaves to be captured of lane `l`, if a load, store or atomic is held there (R377). -/
def MemOp.captured (id : Nat) (o : MemOp) (l : Nat) : List ParkedOp :=
  (o.lanes.filter fun a => a.lane = l && a.st == .held && o.kind == .access && !o.acc.fn.isStack).map fun a =>
    { op := o.place id, word := o.word, pc := o.pc, addr := a.addr, data := a.data, handler := o.handler }

/-- Whether the operation is of this weft. -/
def MemOp.ofWeft (o : MemOp) (b w : Nat) : Bool := o.blk = b && o.weft = w

/-- The captured operations of a lane, in issue order, and the state with them withdrawn (R377). DEDUCED (log 34).
DEDUCED (log 40). -/
def captureHeld (s : State) (b w l : Nat) : List ParkedOp × State :=
  ((s.ops.map fun e => if e.2.ofWeft b w then e.2.captured e.1 l else []).flatten,
   { s with ops := s.ops.map fun e => (e.1, if e.2.ofWeft b w then e.2.withdraw l else e.2) })

/-- The entry of the reissue queue that a captured operation makes (R378). -/
def ParkedOp.toReOp (p : ParkedOp) : ReOp := { word := p.word, addr := p.addr, data := p.data }

/-! ## Parking and trap entry (R376-R386) -/

/-- The number of wefts of a domain that hold a park place (R220). -/
def parkedIn (s : State) (dom : Nat) : Nat :=
  (s.faults.filter fun f =>
    match f with
    | .weft b _ => domOf (s.block b).core == dom
    | .engine _ _ => false).length

/-- Post an entry to its fault queue (R384); its virtual interface is told by the vector of FQVEC, where that
is enabled (R455). -/
def postFault (s : State) (vi : Nat) (f : FaultRef) : State :=
  let v := s.viface vi
  let q := v.regs.read 0x4C8 4
  let s := { s with faults := s.faults ++ [f] }
  if q.testBit 31 then s.setVI vi { v with irqs := v.irqs ++ [q % 2048] } else s

/-- The virtual interface and the address space of a block (R212). -/
def State.viOf (s : State) (b : Nat) : Nat := (s.grid (s.block b).gid).vi
def State.asnOf (s : State) (b : Nat) : Nat := (s.grid (s.block b).gid).asn

/-- Whether a weft of a domain is park pending (R220). -/
def pendingIn (s : State) (dom : Nat) : Bool := s.pendq.any fun x => domOf (s.block x.1).core == dom

/-- Park a weft with an entry: it takes a park place of its domain and posts, or is park pending behind those
whose faults arose before (R220, R382). -/
def parkWeft (s : State) (b w : Nat) (e : FqEntry) (atIssue : Bool) : State :=
  let x := s.weft b w
  if x.park.isSome then s
  else
    let d := domOf (s.block b).core
    let full := decide (1024 ≤ parkedIn s d) || pendingIn s d
    let s := s.setWeft b w { x with wst := .parked, park := some e, pending := full, atIssue := atIssue }
    if full then { s with pendq := s.pendq ++ [(b, w)] } else postFault s (s.viOf b) (.weft b w)

/-- The entry that a condition of a weft posts (R384). DEDUCED (log 32). -/
def faultEntry (s : State) (b w kind : Nat) (c : Cond) (issue done : Nat) (pc : DWord) : FqEntry :=
  { kind := kind, cause := c.cause.code, reason := c.reason,
    space := if c.cause = .integrity then 0 else c.info % 16,
    issue := issue, done := done, block := (s.block b).lin, addr := c.addr, pc := pc.toNat,
    weft := w, slot := 0, asn := (s.grid (s.block b).gid).asn }

/-- A CALL whose spill has failed, undone: the lane stands at it again, its return stack as before (R27). -/
def undoCall (t : Thread) (pc : DWord) (a : LaneAcc) : Thread :=
  { t with pc := pc, sptr := t.sptr + 8, rs := BitVec.ofNat 64 a.data :: t.rs.dropLast, hold := none }

/-- The return-stack operation that holds a lane, and its access there (R25, R126). -/
def stackHold (s : State) (b w l : Nat) : Option (Nat × MemOp × LaneAcc) :=
  (s.thread b w l).hold.bind fun id => (Sp.find? s.ops id).bind fun o =>
    if o.acc.fn.isStack then (o.lanes.find? (·.lane == l)).map fun a => (id, o, a) else none

/-- A lane that a spill or refill holds stands at its CALL or RET again, and the access is withdrawn (R27). -/
def restartStack (s : State) (b w l : Nat) : State :=
  match stackHold s b w l with
  | none => s
  | some (id, o, a) =>
    let t := s.thread b w l
    let o' : MemOp := { o with lanes := o.lanes.map fun x => if x.lane = l then { x with st := .withdrawn } else x }
    ({ s with ops := Sp.put s.ops id o' }).setThread b w l
      (if o.acc.fn = AccFn.spill then undoCall t o.pc a else { t with hold := none })

/-- Whether a lane awaits the translation of a return-stack access (R27). -/
def stackHeld (s : State) (b w l : Nat) : Bool :=
  match stackHold s b w l with
  | some (_, _, a) => a.st == .held
  | none => false

/-- Capture every held operation of every lane of a weft, for its park; a lane that awaits the translation of a
return-stack access stands at its instruction again (R27, R382). -/
def captureWeft (s : State) (b w : Nat) : State :=
  (List.range 32).foldl (fun s l =>
    let s := if stackHeld s b w l then restartStack s b w l else s
    let r := captureHeld s b w l
    if r.1.isEmpty then r.2
    else
      let t := r.2.thread b w l
      r.2.setThread b w l { t with parkq := r.1 ++ t.parkq }) s

/-- TCAUSE of a condition (R380). -/
def Cond.tcause (c : Cond) : Word :=
  BitVec.ofNat 32 (c.cause.code + c.reason * 2 ^ 8 + (if c.sys then 2 ^ 16 else 0))

/-- Take a trap in one lane (R376): the frame is written, the held operations are captured, and the
lane enters handler mode at the grid's HANDLER address; a CALL or RET that has not ended is to run again
(R27), and a fence still holds the lane (R253). -/
def enterTrap (s : State) (b w l : Nat) (c : Cond) : State :=
  let s := restartStack s b w l
  let r := captureHeld s b w l
  let t := s.thread b w l
  r.2.setThread b w l
    { t with
      tst := .trap
      pc := (s.launch b).handler
      tcause := c.tcause
      tpc := t.pc + BitVec.ofNat 64 c.skip
      taddr := BitVec.ofNat 64 c.addr
      tinfo := BitVec.ofNat 32 c.info
      trq := (r.1 ++ t.parkq).map ParkedOp.toReOp
      parkq := []
      wait := .none
      entered := s.nextOp
      deliver := false }

/-- A condition met by one lane, to be delivered as a trap: in handler mode it parks the weft
instead, with an entry of KIND 3 that holds the instruction's masks (R384, R386). -/
def deliverTrap (s : State) (b w l : Nat) (c : Cond) (issue done : Nat) : State :=
  if (s.thread b w l).tst = .trap then
    parkWeft s b w (faultEntry s b w 3 c issue done (s.thread b w l).pc) true
  else enterTrap s b w l c

/-- The effect of RETT in one lane whose target is legal: the frame's PC and user mode (R388). -/
def leaveTrap (t : Thread) : Thread := { t with tst := .run, pc := t.tpc, trq := [] }

/-- System faults of lanes of a weft, with the masks their entry records (R382, R383): a lane in RUN under
DELIVER takes its fault as a trap (R136, R385); any other lane parks the weft. DEDUCED (log 39). -/
def systemFault (s : State) (b w : Nat) (fails : List (Nat × Cond)) (deliver issue done : Nat) (pc : DWord)
    (atIssue : Bool) : State :=
  let traps := fun e : Nat × Cond => deliver.testBit e.1 && (s.thread b w e.1).tst == .run
  let s' := (fails.filter traps).foldl (fun s e => enterTrap s b w e.1 { e.2 with sys := true }) s
  match fails.filter (fun e => !traps e) with
  | [] => s'
  | e :: _ =>
    let kind := if (s.thread b w e.1).tst == .trap then 3 else 1
    parkWeft s' b w (faultEntry s b w kind e.2 issue done pc) atIssue

/-! ## Readiness (R88, R142) -/

/-- The number of registers of the group at `dest` that an access writes. -/
def Access.writes (a : Access) : Nat :=
  match a.fn with
  | .load => (a.size + 3) / 4
  | .atom _ => (a.size + 3) / 4
  | .fatom _ => 1
  | .store => 0
  | .spill => 0
  | .refill => 0

/-- Whether an operation writes registers when it ends: an access, or a WRED (R88, R449). -/
def OpKind.writes : OpKind → Bool
  | .access => true
  | .wred _ _ _ => true
  | _ => false

/-- Whether an operation still owes lane `l` the write of a register in one of the runs `rs` (R88). -/
def MemOp.owes (o : MemOp) (l : Nat) (rs : List Regs) : Bool :=
  o.kind.writes && o.acc.writes != 0 &&
    rs.any (fun r => r.meets (o.acc.dest, o.acc.writes)) &&
    o.lanes.any (fun a => a.lane = l && a.st != .withdrawn)

/-- Whether the lane holds a store or atomic that awaits its translation and checks (R126, R377). -/
def MemOp.stops (o : MemOp) (l : Nat) : Bool :=
  o.kind == .access && o.acc.fn.isStore && o.lanes.any (fun a => a.lane = l && a.st == .held)

/-- The outstanding operations of a weft. -/
def State.weftOps (s : State) (b w : Nat) : List MemOp :=
  (s.ops.filter fun e => e.2.ofWeft b w).map (·.2)

/-- Whether lane `l` issues nothing at all: a held store, a fence, captured operations still to be re-injected, or,
at the start of its handler, an operation issued before it that still owes a register (R31, R126, R253, R377, R385). -/
def laneStopped (s : State) (b w l : Nat) : Bool :=
  let t := s.thread b w l
  t.hold.isSome || !t.parkq.isEmpty ||
    List.any s.ops fun e => e.2.ofWeft b w &&
      (e.2.stops l || (t.tst == .trap && decide (e.1 < t.entered) && e.2.owes l [(0, 128)]))

/-- Whether lane `l` must wait before it issues an instruction that names the registers `rs`: it issues nothing, or
awaits an outstanding write (R88). -/
def laneBusy (s : State) (b w l : Nat) (rs : List Regs) : Bool :=
  laneStopped s b w l || (s.weftOps b w).any fun o => o.owes l rs

/-! ## Issue (R87, R142, R143) -/

/-- The issue classes (R64). -/
inductive IClass where
  | integer | fp32 | fp64 | memory | sync
  deriving DecidableEq, Repr

/-- Whether a role kind permits an issue class (R152). -/
def RoleKind.permits : RoleKind → IClass → Bool
  | .general, _ => true
  | .vector, _ => true
  | .copy, c => c = .integer || c = .memory || c = .sync
  | .matrix, c => c = .integer || c = .memory || c = .sync

/-- What becomes of an instruction of which some lane reads a poisoned register (R383, R389). -/
inductive OnPoison where
  /-- It executes once for its issue set, and nothing is performed. -/
  | whole
  /-- The lanes that read none perform it. -/
  | lanes
  /-- It takes the poisoned register as the first of the lane's own checks. -/
  | checks
  deriving DecidableEq, Repr

/-- What an instruction is checked for before it reads any operand: whether the role permits it, and
the data registers its fields name, in ascending order of the fields' places in the word (R31, R381). -/
structure Pre where
  permitted : RoleKind → Bool
  regs : List Regs
  /-- ILLEGAL or PRIVILEGE, which the word and the mode decide, before the role is looked at. -/
  early : Option Cond := none
  poison : OnPoison := .whole

/-- The condition that the word, the mode, the role and the allotment alone decide, if any: ILLEGAL
or PRIVILEGE, then ROLE, then REGRANGE for the first failing field (R31, R142). -/
def preCond (s : State) (p : Pre) : Option Cond :=
  let r := s.roleOf s.iss.blk s.iss.weft
  if p.early.isSome then p.early
  else if !p.permitted r.kind then
    some { cause := .role, addr := s.iss.pc.toNat, info := (s.weft s.iss.blk s.iss.weft).role }
  else
    match p.regs.find? (fun f => decide (r.regs ≤ f.1 + f.2 - 1)) with
    | some f => some { cause := .regrange, addr := s.iss.pc.toNat, info := f.1 + f.2 - 1 }
    | none => none

/-- What an instruction does to one lane. -/
inductive LaneRes where
  /-- The thread goes on at the next instruction. -/
  | next (t : Thread)
  /-- The thread goes on at its own new PC, or in its new state. -/
  | goto (t : Thread)
  /-- The lane takes a trap. -/
  | trap (c : Cond)

/-- The PC after the instruction at issue (R22). -/
def nextPc (s : State) : DWord := s.iss.pc + BitVec.ofNat 64 s.iss.len

/-- The lanes of the issue set that stand under DELIVER do so no longer once they have issued (R385). -/
def clearDeliver (s : State) : State :=
  (maskLanes s.iss.deliver).foldl (fun s l =>
    s.setThread s.iss.blk s.iss.weft l { s.thread s.iss.blk s.iss.weft l with deliver := false }) s

/-- Record that the stream has issued: its starvation counter, and which stream it was (R143, R144). -/
def noteIssue (s : State) : State :=
  let s := clearDeliver s
  let s := s.setBlock s.iss.blk { s.block s.iss.blk with issues := (s.block s.iss.blk).issues + 1 }
  let x := s.weft s.iss.blk s.iss.weft
  s.setWeft s.iss.blk s.iss.weft
    (if s.iss.handler then { x with sbHandler := s.iss.sb, lastHandler := true }
     else { x with sbUser := s.iss.sb, lastHandler := false })

/-- The caches and TLBs as the look-ups of `u` leave them, the threads, wefts and blocks as in `s`. -/
def State.withIssue (u s : State) : State :=
  { u with threads := s.threads, wefts := s.wefts, blocks := s.blocks, iss := s.iss }

/-- Whether a lane's part of an instruction completes it. -/
def LaneRes.completes : LaneRes → Bool
  | .next _ => true
  | .goto _ => true
  | .trap _ => false

/-- One lane's part of an instruction. -/
def laneStep (f : Nat → LaneRes) (s : State) (l : Nat) : State :=
  match f l with
  | .next t => s.setThread s.iss.blk s.iss.weft l { t with pc := nextPc s }
  | .goto t => s.setThread s.iss.blk s.iss.weft l t
  | .trap c =>
    deliverTrap s s.iss.blk s.iss.weft l c (laneMask s.iss.lanes) (laneMask (s.iss.lanes.filter fun k => (f k).completes))

/-- Every lane of the issue set takes the trap, each in its own handler (R142, R170). -/
def trapAll (s : State) (c : Cond) : State :=
  s.iss.lanes.foldl (fun s l => deliverTrap s s.iss.blk s.iss.weft l c (laneMask s.iss.lanes) 0) s

/-- Every lane of the issue set meets one condition: a precise trap, or a system fault that parks the
weft with an empty partial-completion mask (R382, R383). -/
def raiseAll (s : State) (c : Cond) : State :=
  if c.sys then
    systemFault s s.iss.blk s.iss.weft (s.iss.lanes.map fun l => (l, { c with sys := false })) s.iss.deliver
      (laneMask s.iss.lanes) 0 s.iss.pc true
  else trapAll s c

/-- Advance every lane of the issue set past the instruction. -/
def advanceAll (s : State) : State :=
  s.iss.lanes.foldl (fun s' l =>
    s'.setThread s.iss.blk s.iss.weft l { s'.thread s.iss.blk s.iss.weft l with pc := nextPc s }) s

/-- Whether a waiting race instruction of the weft still owes the write of one of the uniform
registers in the runs `ks` (R148). -/
def kOwed (s : State) (b w : Nat) (ks : List Regs) : Bool :=
  !ks.isEmpty && (List.range 32).any fun l =>
    match (s.thread b w l).tst, (s.thread b w l).wait with
    | .wait, .race _ kd _ => ks.any (fun r => r.meets (kd, 2))
    | _, _ => false

/-- Whether the issue set must wait, as a dependence stall: on the data registers `rs` in any lane,
or on the uniform registers `ks` (R88, R142, R148). -/
def issueBusy (s : State) (rs ks : List Regs) : Bool :=
  (s.iss.lanes.any fun l => laneBusy s s.iss.blk s.iss.weft l rs) || kOwed s s.iss.blk s.iss.weft ks

/-- UNCORRECTABLE, reason 1: a lane reads the poisoned register of this number (R389). -/
def regCond (n : Nat) : Cond := { cause := .uncorrectable, reason := 1, addr := n }

/-- The lanes of the issue set that read a poisoned register, each with its condition. -/
def State.badConds (s : State) : List (Nat × Cond) := s.iss.bad.map fun f => (f.1, regCond f.2)

/-- Whether a lane of the issue set reads a poisoned register. -/
def State.isBad (s : State) (l : Nat) : Bool := s.iss.bad.any (·.1 == l)

/-- UNCORRECTABLE of a lane of the issue set that reads a poisoned register, as the first of its checks (R389). -/
def State.badCond (s : State) (l : Nat) : Option Cond :=
  (s.iss.bad.find? (·.1 == l)).map fun f => { regCond f.2 with sys := true }

/-- The entry of a weft that has parked names more lanes of its issue set. -/
def noteIssueMask (s : State) (b w mask : Nat) : State :=
  let x := s.weft b w
  s.setWeft b w { x with park := x.park.map fun e => { e with issue := e.issue ||| mask } }

/-- An instruction of which some lanes read a poisoned register: the others perform it, and then these meet their
system fault, unless a condition of the others has parked the weft (R383, R384). DESIGN CHOICE (log 172). -/
def splitFault (body : State → State) (s : State) : State :=
  let b := s.iss.blk
  let w := s.iss.weft
  let ok := s.iss.lanes.filter fun l => !s.isBad l
  let t := if ok.isEmpty then s else { body { s with iss := { s.iss with lanes := ok } } with iss := s.iss }
  let trapped := fun l => (s.thread b w l).tst != .trap && (t.thread b w l).tst == .trap
  if (t.weft b w).park.isSome then noteIssueMask t b w (laneMask (s.iss.bad.map (·.1)))
  else systemFault t b w s.badConds s.iss.deliver (laneMask (s.iss.lanes.filter fun l => !trapped l))
    (laneMask (ok.filter fun l => !trapped l)) s.iss.pc true

/-- The issue of an instruction (R142): with no lane it does nothing; a condition of the word, role
or allotment traps every lane whatever writes are outstanding; a dependence stalls the stream without
change; a poisoned register is a system fault of the lanes that read it (R389); otherwise the instruction
takes its effect `body`, from the state with the issue recorded. -/
def issue (p : Pre) (busy : State → Bool) (body : State → State) (s : State) :
    Host.Outcome State Fault Refusal :=
  if s.iss.lanes.isEmpty then .next s
  else
    match preCond s p with
    | some c => .next (trapAll (noteIssue s) c)
    | none =>
      if busy s then .next { s with stalled := true }
      else
        match s.iss.bad, p.poison with
        | [], _ => .next (body (noteIssue s))
        | _ :: _, .checks => .next (body (noteIssue s))
        | _ :: _, .lanes => .next (splitFault body (noteIssue s))
        | _ :: _, .whole =>
          .next (systemFault (noteIssue s) s.iss.blk s.iss.weft s.badConds s.iss.deliver (laneMask s.iss.lanes) 0 s.iss.pc true)

/-- The thread of a lane of the issue set. -/
def State.lane (s : State) (l : Nat) : Thread := s.thread s.iss.blk s.iss.weft l
/-- The weft of the issue set. -/
def State.wft (s : State) : Weft := s.weft s.iss.blk s.iss.weft

/-- An instruction that acts on each lane of the issue set by itself: every lane is computed from the
state before the instruction, so no lane sees another's result (R9, R87, R174). -/
def issueLanes (c : IClass) (rs ks : List Regs) (f : State → Nat → LaneRes) (s : State) :
    Host.Outcome State Fault Refusal :=
  issue { permitted := fun k => k.permits c, regs := rs, poison := .lanes } (fun s => issueBusy s rs ks)
    (fun s => s.iss.lanes.foldl (laneStep (f s)) s) s

/-- An instruction that executes once for its issue set and writes the weft's uniform registers (R167). -/
def issueOnce (rs ks : List Regs) (f : State → Weft) (s : State) : Host.Outcome State Fault Refusal :=
  issue { permitted := fun k => k.permits .integer, regs := rs } (fun s => issueBusy s rs ks)
    (fun s => advanceAll (s.setWeft s.iss.blk s.iss.weft (f s))) s

/-- A value of the free-value counter, and the state that has used it: the model's own field. -/
def State.fresh (s : State) : Nat × State := (s.free, { s with free := s.free + 1 })

/-! ## Scratchpad bytes beside the matrix engine (R310) -/

/-- Whether some array has commands queued. -/
def mxQueued (s : State) : Bool := s.cores.any fun e => e.2.arrays.any fun a => !a.2.queue.isEmpty

/-- The bytes of an allocation about to be written are kept while a queued command may read them, and no longer;
`array` is the array whose command writes them, if one does (R293, R310). DEDUCED (log 167). -/
def noteSpm (s : State) (blk off n : Nat) (array : Option Nat) : State :=
  if mxQueued s then
    let b := s.block blk
    s.setBlock blk { b with
      was := (List.range n).map (fun i => { addr := off + i, old := b.spm.byte (off + i), seq := s.nextOp, array := array }) ++
        b.was }
  else if (s.block blk).was.isEmpty then s
  else s.setBlock blk { s.block blk with was := [] }

/-- What a queued command of an array, pushed at an issue number, may still find old of an allocation: the bytes
overwritten since, but for those that stood there before a write of its own array's commands, latest first (R293,
R310). -/
def stillOld (array push : Nat) : List SpmOld → List Nat → List SpmOld
  | [], _ => []
  | e :: es, gone =>
    if gone.contains e.addr then stillOld array push es gone
    else if e.array == some array then stillOld array push es (e.addr :: gone)
    else if push < e.seq then e :: stillOld array push es gone
    else stillOld array push es (e.addr :: gone)

/-- An allocation as one read of it finds it, where each of some bytes is old or new, freely (R310). -/
def spmSeen (s : State) (blk : Nat) (olds : List SpmOld) : Memory × State :=
  olds.foldl (fun r e =>
    let f := r.2.fresh
    (if Config.freeVersion f.1 then r.1.write e.addr 1 e.old.toNat else r.1, f.2)) ((s.block blk).spm, s)

/-- The ILLEGAL condition of the word at issue (R65, R381). -/
def illegalCond (s : State) : Cond := { cause := .illegal, addr := s.iss.pc.toNat, info := s.iss.word }

/-- ILLEGAL in handler mode, for an instruction that waits on other lanes or agents (R191). -/
def handlerIllegal (s : State) : Option Cond := if s.iss.handler then some (illegalCond s) else none

/-! ## Outstanding operations and their counters (R130, R285, R286) -/

/-- The outstanding-operation counters of a weft (R285). -/
inductive Counter where
  | ld | st | cp | mx
  deriving DecidableEq, Repr

def Weft.counter (w : Weft) : Counter → List CntEntry
  | .ld => w.ld
  | .st => w.st
  | .cp => w.cp
  | .mx => w.mx

def Weft.setCounter (w : Weft) (c : Counter) (q : List CntEntry) : Weft :=
  match c with
  | .ld => { w with ld := q }
  | .st => { w with st := q }
  | .cp => { w with cp := q }
  | .mx => { w with mx := q }

/-- The maximum of a counter (R285). -/
def Counter.max : Counter → Nat
  | .ld => 63
  | .st => 63
  | .cp => 31
  | .mx => 15

/-- Whether the weft's counter can take `n` more entries (R130). -/
def Weft.room (w : Weft) (c : Counter) (n : Nat) : Bool := decide ((w.counter c).length + n ≤ c.max)

/-- The counter an access steps (R130, R180, R182, R243, R249). -/
def AccFn.counter : AccFn → Counter
  | .load => .ld
  | .store => .st
  | .atom _ => .ld
  | .fatom _ => .ld
  | .spill => .st
  | .refill => .ld

/-- Drop the completed entries at the head of a counter: entries retire in issue order (R286). -/
def retireHead : List CntEntry → List CntEntry
  | [] => []
  | e :: q => if e.done then retireHead q else e :: q

/-- Mark operation `id` completed in a counter and retire what stands at its head (R286). -/
def countDone (q : List CntEntry) (id : Nat) : List CntEntry :=
  retireHead (q.map fun e => if e.op = id then { e with done := true } else e)

/-- Put an operation at the end of the issue order. -/
def addOp (s : State) (o : MemOp) : State := { s with ops := Sp.put s.ops s.nextOp o, nextOp := s.nextOp + 1 }

/-- The same, and step a counter of its weft (R130). -/
def addCounted (s : State) (c : Counter) (o : MemOp) : State :=
  let x := s.weft o.blk o.weft
  addOp (s.setWeft o.blk o.weft (x.setCounter c (x.counter c ++ [{ op := s.nextOp }]))) o

/-- The operation at issue, with the given accesses of its lanes. -/
def issuedOp (s : State) (a : Access) (lanes : List LaneAcc) (issue : Nat) : MemOp :=
  { blk := s.iss.blk, weft := s.iss.weft, core := (s.block s.iss.blk).core, pc := s.iss.pc,
    word := s.iss.word, acc := a, lanes := lanes, issue := issue, handler := s.iss.handler }

/-- The halves that a lane's access is placed in: two for a 128-bit access outside the scratchpads (R268). -/
def Access.halves (a : Access) : Nat := if a.size = 16 && a.space == .global then 3 else 1

/-- How many operations of a lane are held (R377). -/
def heldCount (s : State) (b w l : Nat) : Nat :=
  ((s.weftOps b w).map fun o =>
    (o.lanes.filter fun a => a.lane = l && a.st == .held && o.kind == .access && !o.acc.fn.isStack).length).sum

/-- Re-inject one captured operation in the lanes that hold it, each with its address and operand words, at
its own place in program order (R385, R388); it leaves their queues. -/
def reinject (s : State) (b w : Nat) (a : Access) (p : ParkedOp) (lanes : List (Nat × ParkedOp)) : State :=
  let s := lanes.foldl (fun s e =>
    let t := s.thread b w e.1
    s.setThread b w e.1 { t with parkq := t.parkq.drop 1 }) s
  addCounted s a.fn.counter
    { blk := b, weft := w, core := (s.block b).core, pc := p.pc, word := p.word, acc := a
      lanes := lanes.map fun e =>
        { lane := e.1, addr := e.2.addr, data := e.2.data, left := a.halves, deliver := e.2.deliver }
      issue := laneMask (lanes.map (·.1)), handler := p.handler
      prior := if p.op < s.nextOp then some p.op else none }

/-- Whether a lane may re-inject a captured operation now: one under DELIVER waits until its lane is back in
RUN, unless the phase is ending (R136, R385). -/
def mayReinject (s : State) (b w l : Nat) (p : ParkedOp) : Bool :=
  (s.thread b w l).tst != .wait || !p.deliver || (s.block b).bst == .draining

/-- The captured operations that lead the queues of a weft's lanes, each with its lane. -/
def parkHeads (s : State) (b w : Nat) : List (Nat × ParkedOp) :=
  (List.range 32).filterMap fun l =>
    match (s.thread b w l).parkq with
    | p :: _ => if mayReinject s b w l p then some (l, p) else none
    | [] => none

/-- Re-inject captured operations of a weft in program order, while its counters have room and no lane holds
eight (R130, R377, R385, R388). DEDUCED (log 36). -/
def reinjectWeft (b w : Nat) : Nat → State → State
  | 0, s => s
  | fuel + 1, s =>
    match parkHeads s b w with
    | [] => s
    | h :: hs =>
      let p := hs.foldl (fun m e => if e.2.op < m.op then e.2 else m) h.2
      let mine := (h :: hs).filter fun e => e.2.op == p.op
      match decodeAccess p.word with
      | none => s
      | some a =>
        if (s.weft b w).room a.fn.counter 1 && mine.all fun e => decide (heldCount s b w e.1 < 8) then
          reinjectWeft b w fuel (reinject s b w a p mine)
        else s

/-- Whether a lane of a weft has captured more than the eight operations that a context holds (R406). -/
def overCaptured (s : State) (b w : Nat) : Bool :=
  (List.range 32).any fun l => decide (8 < (s.thread b w l).trq.length + (s.thread b w l).parkq.length)

/-- Every weft that is not parked re-injects what its lanes have captured, before their next instructions (R385,
R388); one of a block that has stopped does so only where a context could not hold it (R406). -/
def reinjectAll (s : State) : State :=
  if s.threads.all fun e => e.2.parkq.isEmpty then s
  else
    (s.wefts.filter fun e =>
      e.2.park.isNone && (!(s.block (e.1 / 128)).stopped || overCaptured s (e.1 / 128) (e.1 % 128))).foldl
      (fun s e => reinjectWeft (e.1 / 128) (e.1 % 128) 256 s) s

/-- INTEGRITY, reason 1: a parity error on an L1 tag (R394). -/
def parityCond : Cond := { cause := .integrity, reason := 1, sys := true }

/-- A lane that waited when the trap of an L1 tag error was delivered takes it once it is back in RUN (R136, R394).
DEDUCED (log 39). -/
def takeDue (s : State) : State :=
  if s.threads.all fun e => !e.2.due then s
  else
    s.threads.foldl (fun s e =>
      let b := e.1 / 4096
      let w := e.1 % 4096 / 32
      let t := s.thread b w (e.1 % 32)
      if t.due && t.tst == .run && (s.weft b w).wst == .active then
        enterTrap (s.setThread b w (e.1 % 32) { t with due := false }) b w (e.1 % 32) parityCond
      else s) s

/-! ## Control-transfer targets (R21, R121) -/

/-- Whether a virtual address is canonical: bits [63:57] equal bit 56 (R21, R28). -/
def canonical (a : DWord) : Bool := BitVec.signExtend 64 (a.extractLsb' 0 57) == a

/-- The trap that a target raises, if it is no legal target (R121). -/
def targetCond (a : DWord) : Option Cond :=
  if !canonical a then some { cause := .translate, reason := 4, addr := a.toNat, info := 7 }
  else if a.getLsbD 0 then some { cause := .misalign, addr := a.toNat, info := 7 }
  else none

/-- Transfer control to a target, or trap on it (R119, R121). -/
def transfer (t : Thread) (a : DWord) : LaneRes :=
  match targetCond a with
  | some c => .trap c
  | none => .goto { t with pc := a }

/-- A relative branch target: the address of the word plus 2 × sext(off), on 64 bits (R54). -/
def relTarget {n : Nat} (pc : DWord) (off : BitVec n) : DWord := pc + 2 * BitVec.signExtend 64 off

end Sys2Proof.Machine
end

