-- ==== Sys2Proof/Machine/Physical.lean ====
section
/-!
DEFINITION. Physical addresses: home domains and regions, and the sizes of pages (R211, R213, R451).
-/
namespace Sys2Proof.Machine

/-! ## Physical addresses (R211) -/

/-- The regions of a domain's offset space (R211). -/
inductive Region where
  | dram | plate | host | hole
  deriving DecidableEq, Repr

/-- The home domain of a physical address (R211). -/
def homeOf (pa : Nat) : Nat := pa / 2 ^ 46

/-- The offset of a physical address in its home domain (R211). -/
def offsetOf (pa : Nat) : Nat := pa % 2 ^ 46

/-- The first offset of the plate space (R211). -/
def plateBase : Nat := 0x100000000000

/-- The domains that carry a host port (R451). -/
def hostPorts : List Nat := [3, 4, 24, 31, 32, 39, 59, 60]

/-- The region a physical address lies in, up to the domain's capacities (R211). -/
def regionOf (s : State) (pa : Nat) : Region :=
  let d := s.domain (homeOf pa)
  let o := offsetOf pa
  if 2 ^ 52 ≤ pa then .hole
  else if o < d.dramGib * 2 ^ 30 ∧ o < 0xC00000000 then .dram
  else if plateBase ≤ o ∧ o < plateBase + d.flashGib * 2 ^ 30 ∧ o < 0x108000000000 then .plate
  else if 0x300000000000 ≤ o ∧ o < 0x400000000000 ∧ hostPorts.contains (homeOf pa) then .host
  else .hole

/-- The page number of a plate address within its domain (R341). -/
def platePage (pa : Nat) : Nat := (offsetOf pa - plateBase) / 65536

/-- The log2 of a leaf's size by its SZ code (R213). -/
def szBits : Nat → Nat
  | 0 => 12
  | 1 => 16
  | 2 => 21
  | 3 => 25
  | 4 => 30
  | 5 => 34
  | _ => 39

end Sys2Proof.Machine
end

