-- ==== Sys2Proof/Machine/Route.lean ====
section
/-!
DEFINITION. The mesh between domains: ports and links, the route tables and their reset contents, the
turn check, the path a packet takes, and what lets a message cross (R418-R423, R434, R458).
-/
namespace Sys2Proof.Machine

/-- The Manhattan distance between two physical domains (R435). -/
def hops (a b : Nat) : Nat := ((a % 8 - b % 8) + (b % 8 - a % 8)) + ((a / 8 - b / 8) + (b / 8 - a / 8))

/-- The mask of the physical domains of the partition that holds a domain (R455). -/
def State.partOf (s : State) (d : Nat) : Nat :=
  match List.find? (fun e => e.2.partmap.testBit d) s.vis with
  | some e => e.2.partmap
  | none => 0

/-- The domains that a mask names, in ascending order. -/
def maskDomains (m : Nat) : List Nat := (List.range 64).filter (fun d => m.testBit d)

/-- The domain beyond a port of a domain's router: N, E, S and W are 1 to 4 (R418). -/
def neighbour (d p : Nat) : Option Nat :=
  match p with
  | 1 => if 8 ≤ d then some (d - 8) else none
  | 2 => if d % 8 < 7 then some (d + 1) else none
  | 3 => if d < 56 then some (d + 8) else none
  | 4 => if d % 8 > 0 then some (d - 1) else none
  | _ => none

/-- The port on the far side of a link. -/
def opposite (p : Nat) : Nat :=
  match p with
  | 1 => 3
  | 2 => 4
  | 3 => 1
  | 4 => 2
  | _ => 0

/-- Whether a port has a link that is down; either end marks it (R395, R418). -/
def linkDown (s : State) (d p : Nat) : Bool :=
  (s.domain d).down.testBit (p - 1) ||
    match neighbour d p with
    | some n => (s.domain n).down.testBit (opposite p - 1)
    | none => true

/-- The first hop of the minimal path of a class that takes any negative dimension first (R423). -/
def firstHop (d cls dest : Nat) : Nat :=
  let west := dest % 8 < d % 8
  let north := dest / 8 < d / 8
  let east := d % 8 < dest % 8
  let south := d / 8 < dest / 8
  if west && north then (if cls = 0 then 4 else 1)
  else if west then 4
  else if north then 1
  else if east && south then (if cls = 0 then 2 else 3)
  else if east then 2
  else if south then 3
  else 0

/-- An entry of the reset table (R423): NONE where the hop that led to the input port was not on a minimal
path, or where a packet travelling positive would have to turn negative. DEDUCED (log 76). -/
def resetRoute (d i : Nat) : Nat :=
  let cls := i / 320
  let port := i / 64 % 5
  let dest := i % 64
  let hop := firstHop d cls dest
  if dest = d then 0
  else if port = 0 then hop
  else
    match neighbour d port with
    | none => 7
    | some n =>
      if hops n dest ≠ hops d dest + 1 then 7
      else if (port = 1 ∨ port = 4) ∧ (hop = 1 ∨ hop = 4) then 7
      else hop

/-- An entry of a route table: the reset table's, unless another is written (R422). -/
def routeEntry (s : State) (d tbl i : Nat) : Nat :=
  (Sp.find? (s.domain d).routes (tbl * 640 + i)).getD (resetRoute d i)

/-- The index of an entry (R422). -/
def routeIndex (cls port dest : Nat) : Nat := 320 * cls + 64 * port + dest

/-- Whether an entry passes the turn check (R423). -/
def turnGood (d i e : Nat) : Bool :=
  let port := i / 64 % 5
  let dest := i % 64
  if dest = d then e == 0 || (port == 0 && e == 7)
  else if e = 7 then true
  else if port = 1 ∨ port = 4 then (e == 2 || e == 3) && e != port
  else decide (1 ≤ e) && decide (e ≤ 4) && e != port

/-- The first entry of a table that fails the turn check (R423). -/
def turnFailure (s : State) (d tbl : Nat) : Option Nat :=
  (List.range 640).find? fun i => !turnGood d i (routeEntry s d tbl i)

/-- The class that a source takes for a destination on a table, of the class its sequence gives (R421). -/
def injectClass (s : State) (d tbl dest first : Nat) : Option Nat :=
  if routeEntry s d tbl (routeIndex first 0 dest) ≠ 7 then some first
  else if routeEntry s d tbl (routeIndex (1 - first) 0 dest) ≠ 7 then some (1 - first)
  else none

/-- Whether a packet of a class and table gets from a router to its destination over links that are `open_`. -/
def routeReaches (s : State) (open_ : Nat → Nat → Bool) (tbl cls dest : Nat) : Nat → Nat → Nat → Bool
  | 0, _, _ => false
  | fuel + 1, d, port =>
    match routeEntry s d tbl (routeIndex cls port dest) with
    | 0 => d == dest
    | p => match neighbour d p with
      | none => false
      | some n => open_ d p && routeReaches s open_ tbl cls dest fuel n (opposite p)

/-- Whether a message gets from one domain to another in one of the classes over links that are `open_`. -/
def routed (s : State) (open_ : Nat → Nat → Bool) (d dest : Nat) : Bool :=
  d == dest || routeReaches s open_ (s.domain d).rsel 0 dest 64 d 0 || routeReaches s open_ (s.domain d).rsel 1 dest 64 d 0

/-- Whether a domain is reachable from another in one of the classes (R435). -/
def reachable (s : State) (d dest : Nat) : Bool := routed s (fun d p => !linkDown s d p) d dest

/-- Whether a link is paused: the domain at either end is changing its clock (R434). -/
def linkPaused (s : State) (d p : Nat) : Bool :=
  (s.domain d).vfBusy ||
    match neighbour d p with
    | some n => (s.domain n).vfBusy
    | none => false

/-- The state of a table of a router: 0 FREE, 1 ARMED, 2 DRAINING (R424). -/
def tableState (x : Domain) (tbl : Nat) : Nat := if tbl = 0 then x.sta else x.stb

/-! ## Messages without a packet of their own -/

/-- How a message between two domains and its answer fare that the model makes no packet for: both cross; one waits
at a link that is paused; or one is dropped, by a router or, where neither class has a route, as it is injected; then
whether the message itself has arrived (R418, R420-R422, R434, R458). DESIGN CHOICE (log 73). -/
inductive Way where
  | crosses
  | waits
  | dropped (router : Option Nat) (arrived : Bool)
  deriving DecidableEq, Repr

/-- The way of a packet of a class and a table on from a router that it entered by a port (R422, R424, R434). -/
def traceRoute (s : State) (tbl cls dest : Nat) : Nat → Nat → Nat → Way
  | 0, d, _ => .dropped (some d) false
  | fuel + 1, d, port =>
    if tableState (s.domain d) tbl = 0 then .dropped (some d) false
    else
      match routeEntry s d tbl (routeIndex cls port dest) with
      | 0 => if d = dest then .crosses else .dropped (some d) false
      | p =>
        match neighbour d p with
        | none => .dropped (some d) false
        | some n =>
          if linkDown s d p then .dropped (some d) false
          else if linkPaused s d p then .waits
          else traceRoute s tbl cls dest fuel n (opposite p)

/-- The way of a packet that a domain injects, in the class of its sequence or the other, on its own table (R421). -/
def sendWay (s : State) (d dest first : Nat) : Way :=
  match injectClass s d (s.domain d).rsel dest first with
  | none => .dropped none false
  | some cls => traceRoute s (s.domain d).rsel cls dest 64 d 0

/-- The way of a message from a domain to another and of its answer back; a message that leaves its partition is
dropped where it would be delivered (R420, R458). -/
def wayTo (s : State) (d dest : Nat) : Way :=
  if d = dest then .crosses
  else
    match sendWay s d dest (Config.freeClass s.free % 2) with
    | .crosses =>
      if !(s.partOf d).testBit dest then .dropped (some dest) false
      else
        match sendWay s dest d (Config.freeClass (s.free + 1) % 2) with
        | .dropped r _ => .dropped r true
        | w => w
    | w => w

/-- A router drops a message and counts it (R422, R424, R458). -/
def countDrop (s : State) (d : Nat) : State :=
  s.setDomain d { s.domain d with drops := min 1023 ((s.domain d).drops + 1) }

/-- The same of a message that was dropped on its way, if a router dropped it (R421, R422). -/
def noteDrop (s : State) (router : Option Nat) : State :=
  match router with
  | some d => countDrop s d
  | none => s

/-- The next messages draw their classes anew (R421). -/
def drawClasses (s : State) : State := { s with free := s.free + 2 }

end Sys2Proof.Machine
end

