-- ==== Sys2Proof/Machine/Cache.lean ====
section
/-!
DEFINITION. The caches: L1 lines, remote copies, the home directory and its invalidations, and the
actions of releases and acquires on them (R222-R233, R239, R240, R437-R446).
-/
namespace Sys2Proof.Machine

/-- An action that goes ahead, or that must wait; either way, with the state it leaves. -/
abbrev Try := Except State State

/-- An attempt that may come to nothing: the state it leaves. -/
def tried (r : Try) : State :=
  match r with
  | .ok s => s
  | .error s => s

/-- A read that goes ahead, with its value and the storage of a poisoned word it consumes (R393), or
that must wait. -/
abbrev TryRead := Except State (State × Nat × Option Nat)

/-! ## Lines (R222, R230, R232) -/

/-- The line address of a physical address. -/
def lineOf (pa : Nat) : Nat := pa / 256
/-- The home domain of a line. -/
def lineHome (line : Nat) : Nat := homeOf (line * 256)

/-- The mask of `n` bytes at an offset of a line. -/
def byteMask (off n : Nat) : Nat := (2 ^ n - 1) * 2 ^ off

/-- Whether every one of `n` bytes at an offset is dirty or in a valid sector (R223). -/
def CLine.has (c : CLine) (off n : Nat) : Bool :=
  (List.range n).all fun i => c.dirty.testBit (off + i) || c.valid.testBit ((off + i) / 64)

/-- The storage that failed under one of the 8-byte words of `n` bytes at an offset, if any (R393). -/
def badIn (bad : Sp Nat) (off n : Nat) : Option Nat :=
  ((List.range (off % 8 + n)).filterMap fun i => Sp.find? bad ((off - off % 8 + i) / 8)).head?

/-- Copy the bytes that a mask names from offsets of one memory to addresses of another. -/
def copyMask (m : Memory) (base : Nat) (src : Memory) (mask : Nat) : Memory :=
  (List.range 256).foldl (fun m i => if mask.testBit i then m.setByte (base + i) (src.byte i) else m) m

/-- Whether a mask covers the whole of 8-byte word `w` of a line. -/
def wordCovered (mask w : Nat) : Bool := mask / 2 ^ (8 * w) % 256 == 255

/-- The poison of a line's words after a write of the bytes a mask names: a word covered whole is
poisoned no longer, and poison among the written bytes travels (R393). -/
def badAfter (bad : Sp Nat) (base : Nat) (src : Sp Nat) (mask : Nat) : Sp Nat :=
  (List.range 32).foldl (fun b w =>
    let b := if wordCovered mask w then Sp.del b (base + w) else b
    match Sp.find? src w with
    | some r => if mask / 2 ^ (8 * w) % 256 != 0 then Sp.put b (base + w) r else b
    | none => b) bad

/-- The cluster of a core, and the first core of it (R200). -/
def clusterOf (core : Nat) : Nat := core % 40 / 4
def clusterBase (core : Nat) : Nat := core - core % 4

/-- Whether a core's cluster is fused (R200). -/
def State.isFused (s : State) (core : Nat) : Bool := (s.domain (domOf core)).fused.contains (clusterOf core)

/-- The core that holds a line in the L1 that `core` uses: its own, or the slice's in a fused cluster (R230). -/
def sliceOf (s : State) (core line : Nat) : Nat :=
  if s.isFused core then clusterBase core + line % 4 else core

/-- The set of a line within an L1 or a slice of 64 sets (R222, R230). -/
def setOf (s : State) (core line : Nat) : Nat := if s.isFused core then line / 4 % 64 else line % 64

/-- The cores whose L1s a cache action of a core acts on (R226). -/
def l1Cores (s : State) (core : Nat) : List Nat :=
  if s.isFused core then (List.range 4).map (clusterBase core + ·) else [core]

def State.l1Line (s : State) (sc line : Nat) : Option CLine := Sp.find? (s.core sc).l1 line
def State.setL1 (s : State) (sc line : Nat) (c : CLine) : State :=
  s.setCore sc { s.core sc with l1 := Sp.put (s.core sc).l1 line c }
def State.dropL1 (s : State) (sc line : Nat) : State :=
  s.setCore sc { s.core sc with l1 := Sp.del (s.core sc).l1 line }
def State.remLine (s : State) (d line : Nat) : Option CLine := Sp.find? (s.domain d).remote line
def State.setRem (s : State) (d line : Nat) (c : CLine) : State :=
  s.setDomain d { s.domain d with remote := Sp.put (s.domain d).remote line c }
def State.dropRem (s : State) (d line : Nat) : State :=
  s.setDomain d { s.domain d with remote := Sp.del (s.domain d).remote line }

/-- The parity of the bits of a number below 2⁴⁴. -/
def parity (x : Nat) : Nat := (List.range 44).foldl (fun p i => if x.testBit i then 1 - p else p) 0

/-- The logical L2 bank of a line in a domain (R232). -/
def bankOf (s : State) (d line : Nat) : Nat :=
  (List.range 4).foldl (fun b i => b + parity (line &&& (s.domain d).l2hash.getD i 0) * 2 ^ i) 0

/-- The usable bank that stands for a logical bank: itself or, for the n-th unusable one, the n-th usable one, so that
the two share its ways (R232). DEDUCED (log 134). -/
def usableBank (s : State) (d b : Nat) : Nat :=
  let usable := (List.range 16).filter (s.domain d).banks.testBit
  if usable.contains b then b
  else usable.getD (((List.range b).filter fun i => !usable.contains i).length % usable.length) b

/-! ## Home directory (R439-R441) -/

/-- The domains that an entry names (R441). -/
def DirEnt.targets (s : State) (e : DirEnt) : List Nat :=
  if e.overflow then (maskDomains (s.partOf (lineHome e.line))).filter (· != lineHome e.line) else e.sharers

def State.dirEnt (s : State) (line : Nat) : Option DirEnt := (s.domain (lineHome line)).dir.find? (·.line == line)

/-- Send invalidations of a line to domains, except the one that caused them; until they are accepted
the line is busy (R441). DEDUCED (log 62). -/
def sendInval (s : State) (line : Nat) (targets : List Nat) (src : Nat) : State :=
  let h := lineHome line
  s.setDomain h { s.domain h with
    busy := (s.domain h).busy ++ (targets.filter (· != src)).map fun t => { line := line, target := t, src := src } }

/-- A change at home of a line whose entry has the H bit sends a back-invalidation to the host, target 64, unless the
host caused it (R446). DEDUCED (log 166). -/
def snoopHost (s : State) (e : DirEnt) (src : Nat) : State :=
  let h := lineHome e.line
  if !e.host || src = 65 then s
  else s.setDomain h { s.domain h with snoops := (s.domain h).snoops ++ [{ line := e.line, target := 64, src := src }] }

/-- The directory without an entry for a line. -/
def dirDrop (s : State) (line : Nat) : State :=
  let h := lineHome line
  s.setDomain h { s.domain h with dir := (s.domain h).dir.filter (·.line != line) }

/-- Make room in the directory set of a line: the way allocated longest ago is invalidated (R441). DEDUCED (log 63). -/
def dirRoom (s : State) (line : Nat) : State :=
  let set := (s.domain (lineHome line)).dir.filter fun e => e.line % 65536 == line % 65536
  match set with
  | [] => s
  | e :: _ => if set.length < 16 then s else dirDrop (snoopHost (sendInval s e.line (e.targets s) 64) e 64) e.line

/-- A domain named in an entry of the directory, or overflow (R439, R441). -/
def DirEnt.add (e : DirEnt) (x : Nat) : DirEnt :=
  if e.overflow || e.sharers.contains x then e
  else if e.sharers.length < 4 then { e with sharers := e.sharers ++ [x] }
  else { e with sharers := [], overflow := true }

/-- The directory with an entry for a line changed, or made (R439). -/
def dirUpdate (s : State) (line : Nat) (f : DirEnt → DirEnt) : State :=
  let s := if (s.dirEnt line).isSome then s else
    let s := dirRoom s line
    let h := lineHome line
    s.setDomain h { s.domain h with dir := (s.domain h).dir ++ [{ line := line }] }
  let h := lineHome line
  s.setDomain h { s.domain h with dir := (s.domain h).dir.map fun e => if e.line == line then f e else e }

/-! ## Migrating pages (R354, R355) -/

/-- What a migration under way makes of a physical address of the page: its address in the other frame, and
whether the copy has ended. -/
structure Moved where
  pa : Nat
  copied : Bool
  deriving DecidableEq, Repr

/-- The address in the other frame of a byte of a migrating page: in the new frame for one of the old frame, in
the old frame for one of the new (R354). -/
def movedTo (s : State) (pa : Nat) (fromOld : Bool) : Option Moved :=
  s.vis.findSome? fun e =>
    let m := e.2.mig
    let here := if fromOld then m.old else m.new
    let there := if fromOld then m.new else m.old
    if (m.status = 1 ∨ m.status = 2) ∧ here ≤ pa ∧ pa < here + 2 ^ szBits m.sz then
      some { pa := there + (pa - here), copied := m.status == 2 }
    else none

/-- Where a byte has its place: in the new frame once its page's copy has ended, else where its address says
(R354, R355). -/
def placeOf (s : State) (pa : Nat) : Nat :=
  match movedTo s pa true with
  | some m => if m.copied then m.pa else pa
  | none => pa

/-- The line of a migrating page's other frame that stands for the same bytes, once the copy has ended (R355). -/
def aliasLine (s : State) (line : Nat) : Option Nat :=
  match movedTo s (line * 256) true with
  | some m => if m.copied then some (lineOf m.pa) else none
  | none => match movedTo s (line * 256) false with
    | some m => if m.copied then some (lineOf m.pa) else none
    | none => none

/-- Whether a line lies in the new frame of a page whose copy has not ended (R354). -/
def incoming (s : State) (line : Nat) : Bool :=
  match movedTo s (line * 256) false with
  | some m => !m.copied
  | none => false

/-! ## Merges at home (R225, R438, R441) -/

/-- The directory as a merge, a write or an atomic from a domain leaves the entry of a line: none, or S1 in its
place for a writer whose remote copy holds a valid sector (R441). -/
def dirKeep (s : State) (line src : Nat) (atomic : Bool) : State :=
  let holds := match s.remLine src line with
    | some c => !atomic && c.valid != 0 && src != lineHome line
    | none => false
  if holds then dirUpdate s line fun e => { e with sharers := [src], overflow := false, host := false } else dirDrop s line

/-- The invalidations that a change of a line causes (R441). -/
def dirSend (s : State) (line src : Nat) : State :=
  match s.dirEnt line with
  | none => s
  | some e => snoopHost (sendInval s line (e.targets s) src) e src

/-- What a merge, a write or an atomic from a domain does to the directory (R441); the copies of a migrating
page's other frame are invalidated too (R355). -/
def dirWrite (s : State) (line src : Nat) (atomic : Bool) : State :=
  let s := dirKeep (dirSend s line src) line src atomic
  match aliasLine s line with
  | some l => dirDrop (dirSend s l src) l
  | none => s

/-- Whether a line is busy at its home (R441). -/
def homeBusy (s : State) (line : Nat) : Bool :=
  (s.domain (lineHome line)).busy.any fun i => i.line == line

/-- Whether the copy of an entry of the ownership table still has bytes to write to a line (R239). -/
def Own.holds (s : State) (o : Own) (line : Nat) : Bool :=
  decide (o.first ≤ line) && decide (line < o.first + o.count) &&
    match Sp.find? (s.core o.core).copies o.slot with
    | some c => c.pend.any fun e => e.live && (e.pa.map lineOf) == some line
    | none => false

/-- Whether a copy still has bytes to write to a line that it owns in the L2 of a domain (R239). -/
def ownedLine (s : State) (d line : Nat) : Bool := (s.domain d).owned.any fun o => o.holds s line

/-- An access that reaches an owned line is held, and the line recalled (R240). -/
def l2Gate (s : State) (d line : Nat) : Try :=
  if ownedLine s d line then
    .error (s.setDomain d { s.domain d with recalls := (s.domain d).recalls.filter (· != line) ++ [line] })
  else .ok s

/-- The same in a domain's L2 and in that of the line's home. -/
def bothGates (s : State) (d line : Nat) : Try := do l2Gate (← l2Gate s d line) (lineHome line) line

/-- An access placed at a busy line waits (R441), and one placed in the new frame of a migrating page (R354).
DEDUCED (log 61). -/
def homeGate (s : State) (line : Nat) : Try :=
  let busy := homeBusy s line || match aliasLine s line with
    | some l => homeBusy s l
    | none => false
  if busy || incoming s line then .error s else .ok s

/-- An access from a domain comes to a line's home L2: held while a copy owns the line there or in the domain's own L2,
and while the line is busy (R240, R441). -/
def homeReach (s : State) (d line : Nat) : Try := do homeGate (← bothGates s d line) line

/-- The bytes of a line as they stand at home. -/
def State.homeRead (s : State) (pa n : Nat) : Nat := s.mem.read (placeOf s pa) n
def State.homeBad (s : State) (pa n : Nat) : Option Nat := badIn s.bad (placeOf s pa) n

/-- The bytes of a line that a mask names merge at home, and at the new frame too while its page is copied (R354). -/
def homeBytes (s : State) (line : Nat) (data : Memory) (mask : Nat) (bad : Sp Nat) : State :=
  let put := fun (s : State) (pa : Nat) =>
    { s with mem := copyMask s.mem pa data mask, bad := badAfter s.bad (pa / 8) bad mask }
  let s' := put s (placeOf s (line * 256))
  match movedTo s (line * 256) true with
  | some m => if m.copied then s' else put s' m.pa
  | none => s'

/-- A merge at home of dirty bytes that a domain sends, or a write there (R225, R438, R441). -/
def mergeHome (s : State) (src line : Nat) (data : Memory) (mask : Nat) (bad : Sp Nat) : State :=
  dirWrite (homeBytes s line data mask bad) line src false

/-! ## Stores that a message loses (R395, R422) -/

/-- The wefts of two lists of keys. -/
def joinWriters (a b : List Nat) : List Nat := a ++ b.filter fun k => !a.contains k

/-- Store bytes are lost with the message that carried them: each weft whose stores they hold, by key, parks with
INTEGRITY, reason 2, in an entry that names no lane (R395, R422). DEDUCED (log 74). -/
def loseStores (s : State) (writers : List Nat) : State :=
  writers.foldl (fun s k =>
    if (s.weft (k / 128) (k % 128)).wst == .active then
      let r := s.fresh
      parkWeft r.2 (k / 128) (k % 128)
        (faultEntry r.2 (k / 128) (k % 128) 1 { cause := .integrity, reason := 2 } 0 0 (Config.freePc r.1)) false
    else s) s

/-! ## Remote copies and the ways of the L2 (R228, R233, R235, R437) -/

/-- Clean a remote copy: its dirty bytes merge at home (R437); where a router drops them, or what acknowledges them,
their stores are lost (R395, R422, R458). -/
def cleanRemote (s : State) (d line : Nat) : Try :=
  match s.remLine d line with
  | none => .ok s
  | some c =>
    if c.dirty = 0 then .ok s
    else
      let clean := { c with dirty := 0, writers := [] }
      let merge := fun (s : State) => do
        let s ← homeGate (← l2Gate s (lineHome line) line) line
        .ok ((mergeHome s d line c.data c.dirty c.bad).setRem d line clean)
      match wayTo s d (lineHome line) with
      | .waits => .error s
      | .crosses => merge (drawClasses s)
      | .dropped at_ arrived => do
        let s ← if arrived then merge s else .ok (s.setRem d line clean)
        .ok (loseStores (noteDrop (drawClasses s) at_) c.writers)

/-- A remote copy is cleaned and dropped (R437, R445). -/
def evictRemote (s : State) (d line : Nat) : Try := do .ok ((← cleanRemote s d line).dropRem d line)

/-- Whether two lines fall in one set of a domain's L2, whose banks in use share what the unusable ones held (R210,
R232, R233). -/
def sameL2Set (s : State) (d a b : Nat) : Bool :=
  usableBank s d (bankOf s d a) == usableBank s d (bankOf s d b) && Config.l2Set a % 1024 == Config.l2Set b % 1024

/-- The ways of a set that a mill's race region leaves: 16 less R/4 (R233). -/
def l2Ways (s : State) (d : Nat) : Nat :=
  match (s.domain d).raceRegion.bind fun g => (s.grid g).mill with
  | some m => 16 - m.raceMb / 4
  | none => 16

/-- Whether a domain's L2 holds a plate line. -/
def plateHeld (s : State) (d line : Nat) : Bool := (Sp.find? (s.domain d).plates line).isSome

/-- A line leaves a set of the L2. -/
def l2Drop (s : State) (d line : Nat) : Try :=
  if plateHeld s d line then .ok (s.setDomain d { s.domain d with plates := Sp.del (s.domain d).plates line })
  else evictRemote s d line

/-- Put a keep mark on a line: a set holds at most four, and a fifth evicts the oldest kept line (R233).
A line that has one already becomes the newest of them. DEDUCED (log 64). DESIGN CHOICE (log 177). -/
def markKeep (s : State) (d line : Nat) : Try :=
  let x := s.domain d
  let same := x.keep.filter fun l => sameL2Set s d l line
  let mark := fun (s : State) (keep : List Nat) => s.setDomain d { s.domain d with keep := keep.filter (· != line) ++ [line] }
  if same.contains line || decide (same.length < 4) then .ok (mark s x.keep)
  else
    let old := same.headD 0
    do .ok (mark (← l2Drop s d old) (x.keep.filter (· != old)))

/-- The remote copies and the plate lines of a domain's L2 that share a set with a line. -/
def setMates (s : State) (d line : Nat) : List Nat :=
  (Sp.keys (s.domain d).plates ++ Sp.keys (s.domain d).remote).filter fun l => sameL2Set s d l line

/-- The policy of a plate line or a remote copy that a domain's L2 holds. -/
def l2Policy (s : State) (d line : Nat) : Option Policy :=
  (Sp.find? (s.domain d).plates line).orElse fun _ => (s.remLine d line).map (·.policy)

/-- The line of a set that gives way: a STREAM line first, else a free choice (R228). -/
def l2Victim (s : State) (d : Nat) (ls : List Nat) (n : Nat) : Nat :=
  match ls.find? fun l => l2Policy s d l == some Policy.stream with
  | some l => l
  | none => ls.getD (Config.freeEvict n % ls.length) 0

/-- Make room in a set of the L2 for a line: a full set gives way, and one that is not full may, where lines of
the domain's own home that the model does not list fill it (R210, R228, R233). -/
def l2Room (s : State) (d line : Nat) : Try :=
  let all := setMates s d line
  let ls := all.filter fun l => !(s.domain d).keep.contains l
  let r := s.fresh
  if ls.isEmpty || (decide (all.length < l2Ways s d) && Config.freeEvict r.1 % 2 = 0) then .ok r.2
  else l2Drop r.2 d (l2Victim s d ls (r.1 + 1))

/-- Allocate a remote copy (R437, R445). -/
def allocRemote (s : State) (d line : Nat) (p : Policy) : Try :=
  if (s.remLine d line).isSome then .ok s
  else do .ok ((← l2Room s d line).setRem d line { policy := p })

/-- The copy of a migrating page's other frame leaves a domain's L2, once the page's copy has ended (R355). -/
def dropAlias (s : State) (d line : Nat) : Try :=
  match aliasLine s line with
  | some l => evictRemote s d l
  | none => .ok s

/-- Fill a sector of a remote copy from its home; only bytes that are not dirty are written (R437, R441). -/
def fillRemote (s : State) (d line sec : Nat) : Try := do
  let s ← homeGate (← l2Gate s (lineHome line) line) line
  let c := (s.remLine d line).getD {}
  let mask := byteMask (64 * sec) 64 &&& (2 ^ 256 - 1 - c.dirty)
  let src : Memory := (List.range 64).foldl (fun m i =>
    Memory.setByte m (64 * sec + i) (BitVec.ofNat 8 (s.homeRead (line * 256 + 64 * sec + i) 1))) []
  let bad := (List.range 8).foldl (fun b w =>
    match s.homeBad (line * 256 + 64 * sec + 8 * w) 8 with
    | some r => if wordCovered c.dirty (8 * sec + w) then b else Sp.put b (8 * sec + w) r
    | none => b) c.bad
  let s := s.setRem d line { c with data := copyMask c.data 0 src mask, valid := c.valid ||| 1 <<< sec, bad := bad }
  .ok (dirUpdate s line (·.add d))

/-- Write bytes into a remote copy as dirty bytes, for the wefts whose stores they hold; nothing is read from home
(R437). -/
def dirtyRemote (s : State) (d line : Nat) (data : Memory) (mask : Nat) (bad : Sp Nat) (p : Policy) (who : List Nat) :
    Try := do
  let s ← allocRemote s d line p
  let c := (s.remLine d line).getD {}
  .ok (s.setRem d line { c with
    data := copyMask c.data 0 data mask, dirty := c.dirty ||| mask, policy := p, bad := badAfter c.bad 0 bad mask
    writers := joinWriters c.writers who })

/-- Main DRAM with the dirty bytes that the L2s hold beside it: what stores released at DOM scope or wider
have left (R23, R437). -/
def releasedMem (s : State) : Memory :=
  s.domains.foldl (fun m d => d.2.remote.foldl (fun m c => copyMask m (placeOf s (c.1 * 256)) c.2.data c.2.dirty) m) s.mem

/-! ## Stores and instruction fetch (R23) -/

/-- The byte that stands beside a store, of a core if one makes it, in a 16-bit unit: the core's own dirty byte,
else the released one. -/
def unitByte (s : State) (core : Option Nat) (a : Nat) : Nat :=
  match core.bind fun c => s.l1Line (sliceOf s c (lineOf a)) (lineOf a) with
  | some c => if c.dirty.testBit (a % 256) then (c.data.byte (a % 256)).toNat else ((releasedMem s).byte (placeOf s a)).toNat
  | none => ((releasedMem s).byte (placeOf s a)).toNat

/-- The value of a 16-bit unit with the bytes of a store in it. -/
def unitAfter (s : State) (core : Option Nat) (u pa n x : Nat) : Nat :=
  let byte := fun i =>
    let a := 2 * u + i
    if pa ≤ a ∧ a < pa + n then x / 256 ^ (a - pa) % 256 else unitByte s core a
  byte 0 + 256 * byte 1

/-- The units that stand for a 16-bit unit: itself, and that of the other frame of a migrating page (R354). -/
def unitPlaces (s : State) (u : Nat) : List Nat :=
  u :: (((movedTo s (2 * u) true).orElse fun _ => movedTo s (2 * u) false).map fun m => m.pa / 2).toList

/-- Note a store of bytes, by a core if one makes it, for the fetches of running grids: the value that each 16-bit
unit takes (R23). -/
def noteStore (s : State) (core : Option Nat) (pa n x : Nat) : State :=
  let units := (List.range ((pa + n - 1) / 2 - pa / 2 + 1)).map (pa / 2 + ·)
  { s with
    stored := units.foldl (fun m u =>
      let v := if pa ≤ 2 * u ∧ 2 * u + 2 ≤ pa + n then x / 256 ^ (2 * u - pa) % 65536 else unitAfter s core u pa n x
      (unitPlaces s u).foldl (fun m u => Sp.put m u ((Sp.get [] m u).filter (·.1 != v) ++ [(v, s.storedNo)])) m) s.stored
    storedNo := s.storedNo + 1 }

/-- Note the units of which a cleaning by a core has brought one byte alone (R23, R224). -/
def noteHalves (s : State) (core line : Nat) (c : CLine) : State :=
  (List.range 256).foldl (fun s i =>
    let other := if i % 2 = 0 then i + 1 else i - 1
    if c.dirty.testBit i && !c.dirty.testBit other then noteStore s (some core) (line * 256 + i) 1 (c.data.byte i).toNat else s) s

/-! ## The local L2 -/

/-- A line accessed with policy KEEPL2 gets a keep mark in the L2 that allocates it (R228, R233). -/
def keepAs (s : State) (d line : Nat) (p : Policy) : Try := if p = .keepL2 then markKeep s d line else .ok s

/-- Make bytes of a line readable at a domain's L2: at its home, or in a remote copy, filled where needed; NOL2A
allocates none (R228, R437). The messages between the two have their way. -/
def l2Ready (s : State) (d line off n : Nat) (p : Policy) : Try := do
  let s ← dropAlias (← l2Gate s d line) d line
  if lineHome line = d then keepAs (← homeGate s line) d line p
  else if p = .noL2A ∧ (s.remLine d line).isNone then homeReach s d line
  else
    let s ← keepAs (← allocRemote s d line p) d line p
    if ((s.remLine d line).getD {}).has off n then .ok s else fillRemote s d line (off / 64)

/-- Whether `l2Ready` must send to the line's home. -/
def l2Asks (s : State) (d line off n : Nat) : Bool :=
  lineHome line != d && !((s.remLine d line).getD {}).has off n

/-- The way of the messages that `l2Ready` sends, if it must send any. -/
def l2Way (s : State) (d line off n : Nat) : Way := if l2Asks s d line off n then wayTo s d (lineHome line) else .crosses

/-- The value of bytes that `l2Ready` has made readable, and their poison. -/
def l2Value (s : State) (d line off n : Nat) : Nat × Option Nat :=
  match if lineHome line = d then none else s.remLine d line with
  | none => (s.homeRead (line * 256 + off) n, s.homeBad (line * 256 + off) n)
  | some c => (c.data.read off n, badIn c.bad off n)

/-- Whether a write of a line at a domain's L2 goes on to the line's home (R228). -/
def putsHome (s : State) (d line : Nat) (p : Policy) : Bool :=
  lineHome line != d && p == .noL2A && (s.remLine d line).isNone

/-- Write bytes of a line at a domain's L2, for the wefts whose stores they hold: a merge at home, or dirty bytes of
a remote copy (R228, R437). The message that it sends to the home, if any, has its way. -/
def l2Put (s : State) (d line : Nat) (data : Memory) (mask : Nat) (bad : Sp Nat) (p : Policy) (who : List Nat) : Try := do
  let s ← dropAlias s d line
  if lineHome line = d then
    let s ← keepAs (← homeGate s line) d line p
    .ok (mergeHome s d line data mask bad)
  else if putsHome s d line p then do
    .ok (mergeHome (← homeGate (← l2Gate s (lineHome line) line) line) d line data mask bad)
  else dirtyRemote (← keepAs s d line p) d line data mask bad p who

/-- The same, held while a copy owns the line (R240). -/
def l2Write (s : State) (d line : Nat) (data : Memory) (mask : Nat) (bad : Sp Nat) (p : Policy) (who : List Nat) : Try := do
  l2Put (← l2Gate s d line) d line data mask bad p who

/-- The same for bytes that no packet has brought: a message to the home waits or is dropped as its way has it, and
then the stores are lost (R395, R422, R458). -/
def l2Send (s : State) (d line : Nat) (data : Memory) (mask : Nat) (bad : Sp Nat) (p : Policy) (who : List Nat) : Try :=
  match if putsHome s d line p then wayTo s d (lineHome line) else .crosses with
  | .crosses => l2Put s d line data mask bad p who
  | .waits => .error s
  | .dropped at_ arrived => do
    let s ← if arrived then l2Put s d line data mask bad p who else .ok s
    .ok (loseStores (noteDrop (drawClasses s) at_) who)

/-! ## The L1 (R222-R226) -/

/-- Clean an L1 line: exactly its dirty bytes go to the L2, and the mask is cleared (R224). -/
def cleanL1 (s : State) (sc line : Nat) : Try :=
  match s.l1Line sc line with
  | none => .ok s
  | some c =>
    if c.dirty = 0 then .ok s
    else do
      let s ← l2Send (← l2Gate s (domOf sc) line) (domOf sc) line c.data c.dirty c.bad c.policy c.writers
      .ok (noteHalves (s.setL1 sc line { c with dirty := 0, writers := [] }) sc line c)

/-- The line that gives way in a full set: a STREAM line first, else a free choice (R228). -/
def victim (s : State) (set : List (Nat × CLine)) : Nat × State :=
  match set.find? fun e => e.2.policy == .stream with
  | some e => (e.1, s)
  | none =>
    let r := s.fresh
    (((set[Config.freeVictim r.1 % set.length]?).map (·.1)).getD 0, r.2)

/-- Clean a line and drop it from an L1 (R224, R239). -/
def evictL1 (s : State) (sc line : Nat) : Try := do .ok ((← cleanL1 s sc line).dropL1 sc line)

/-- The line of a migrating page's other frame leaves the L1, once the page's copy has ended (R355). -/
def dropAliasL1 (s : State) (core line : Nat) : Try :=
  match aliasLine s line with
  | some l => evictL1 s (sliceOf s core l) l
  | none => .ok s

/-- Allocate a line in the L1, with every sector invalid; eviction cleans, then drops (R222-R224). -/
def allocL1 (s : State) (core line : Nat) (p : Policy) : Try := do
  let s ← dropAliasL1 s core line
  let sc := sliceOf s core line
  match s.l1Line sc line with
  | some _ => .ok s
  | none =>
    let set := (s.core sc).l1.filter fun e => setOf s core e.1 == setOf s core line
    if set.length < 8 then .ok (s.setL1 sc line { policy := p })
    else do
      let v := victim s set
      .ok ((← evictL1 v.2 sc v.1).setL1 sc line { policy := p })

/-- Fill a sector of a present L1 line from the L2, for an access of a policy (R223, R228). -/
def fillL1 (s : State) (core line sec : Nat) (p : Policy) : Try := do
  let sc := sliceOf s core line
  let d := domOf core
  let s ← l2Ready s d line (64 * sec) 64 p
  let c := (s.l1Line sc line).getD {}
  let mask := byteMask (64 * sec) 64 &&& (2 ^ 256 - 1 - c.dirty)
  let src : Memory := (List.range 64).foldl (fun m i =>
    Memory.setByte m (64 * sec + i) (BitVec.ofNat 8 (l2Value s d line (64 * sec + i) 1).1)) []
  let bad := (List.range 8).foldl (fun b w =>
    match (l2Value s d line (64 * sec + 8 * w) 8).2 with
    | some r => if wordCovered c.dirty (8 * sec + w) then b else Sp.put b (8 * sec + w) r
    | none => b) c.bad
  .ok (s.setL1 sc line { c with data := copyMask c.data 0 src mask, valid := c.valid ||| 1 <<< sec, bad := bad })

/-- A load through the L1 (R223). -/
def loadL1 (s : State) (core pa n : Nat) (p : Policy) : TryRead := do
  let line := lineOf pa
  let off := pa % 256
  let sc := sliceOf s core line
  let s ← allocL1 s core line p
  let s ← if ((s.l1Line sc line).getD {}).has off n then .ok s else fillL1 s core line (off / 64) p
  let c := (s.l1Line sc line).getD {}
  let clean := (List.range n).any fun i => !c.dirty.testBit (off + i)
  .ok (s, c.data.read off n, if clean then badIn c.bad off n else none)

/-- A store of a weft, by key, through the L1: its bytes are written and their mask bits set (R223). -/
def storeL1 (s : State) (core pa n x : Nat) (p : Policy) (who : Nat) : Try := do
  let line := lineOf pa
  let off := pa % 256
  let sc := sliceOf s core line
  let s ← allocL1 s core line p
  let c := (s.l1Line sc line).getD {}
  .ok (s.setL1 sc line { c with
    data := c.data.write off n x, dirty := c.dirty ||| byteMask off n, policy := p, writers := joinWriters c.writers [who]
    bad := badAfter c.bad 0 [] (byteMask off n) })

/-- A present L1 copy of stored bytes is updated, and their mask bits are cleared (R259). -/
def updateL1 (s : State) (core pa n x : Nat) : State :=
  let line := lineOf pa
  let sc := sliceOf s core line
  match s.l1Line sc line with
  | none => s
  | some c =>
    let m := byteMask (pa % 256) n
    s.setL1 sc line { c with
      data := c.data.write (pa % 256) n x, dirty := c.dirty &&& (2 ^ 256 - 1 - m), bad := badAfter c.bad 0 [] m }

/-- Read at a domain's L2 (R259). -/
def readL2 (s : State) (d pa n : Nat) (p : Policy) : TryRead := do
  let s ← l2Ready s d (lineOf pa) (pa % 256) n p
  .ok (s, l2Value s d (lineOf pa) (pa % 256) n)

/-- Read at the home L2, with no remote copy made (R229, R437). -/
def readHome (s : State) (d pa n : Nat) : TryRead := do
  let s ← dropAlias (← l2Gate s d (lineOf pa)) d (lineOf pa)
  let s ← homeReach s d (lineOf pa)
  .ok (s, s.homeRead pa n, s.homeBad pa n)

/-- Bytes as a line's data at their offset. -/
def lineData (pa n x : Nat) : Memory := Memory.write [] (pa % 256) n x

/-- Write at the home L2; a present remote copy of the writer's domain is updated, without dirty marks (R437). -/
def placeHome (s : State) (d pa n x : Nat) : Try := do
  let line := lineOf pa
  let m := byteMask (pa % 256) n
  let s ← homeGate (← dropAlias s d line) line
  let s := match s.remLine d line with
    | none => s
    | some c => s.setRem d line { c with
        data := c.data.write (pa % 256) n x, dirty := c.dirty &&& (2 ^ 256 - 1 - m), bad := badAfter c.bad 0 [] m }
  .ok (mergeHome s d line (lineData pa n x) m [])

/-- The same, held while a copy owns the line in the writer's L2 or at home (R240). -/
def writeHome (s : State) (d pa n x : Nat) : Try := do placeHome (← bothGates s d (lineOf pa)) d pa n x

/-! ## Releases and acquires (R226, R442, R446) -/

/-- The sectors of a line that hold a dirty byte, as the valid bits name them. -/
def CLine.dirtySectors (c : CLine) : Nat :=
  (List.range 4).foldl (fun m i => if c.dirty / 2 ^ (64 * i) % 2 ^ 64 = 0 then m else m ||| 1 <<< i) 0

/-- Invalidate every valid sector that holds no dirty byte (R226, R440). DEDUCED (log 186). -/
def CLine.invalidate (c : CLine) : CLine := { c with valid := c.valid &&& c.dirtySectors }

/-- The sectors of a line that an invalidation leaves valid and in which some byte is clean. -/
def CLine.mixed (c : CLine) : List Nat :=
  (List.range 4).filter fun i => c.valid.testBit i && c.dirty / 2 ^ (64 * i) % 2 ^ 64 != 2 ^ 64 - 1

/-- A line with a sector that is no longer valid. -/
def CLine.dropSector (c : CLine) (sec : Nat) : CLine :=
  { c with valid := if c.valid.testBit sec then c.valid - 2 ^ sec else c.valid }

/-- Try an action on each of a list of lines: those that can go ahead do, and whether all could. -/
def tryAll (f : State → Nat → Try) (lines : List Nat) (s : State) : Bool × State :=
  lines.foldl (fun r l =>
    match f r.2 l with
    | .ok s => (r.1, s)
    | .error s => (false, s)) (true, s)

/-- Clean every dirty byte of the L1 that a core uses (R226). -/
def cleanL1All (s : State) (core : Nat) : Bool × State :=
  (l1Cores s core).foldl (fun r sc =>
    let q := tryAll (fun s l => cleanL1 s sc l) (Sp.keys (r.2.core sc).l1) r.2
    (r.1 && q.1, q.2)) (true, s)

/-- Whether a merge from a domain has invalidations that are not accepted (R441). -/
def unacknowledged (s : State) (d : Nat) : Bool := s.domains.any fun e => e.2.busy.any fun i => i.src == d

/-- Whether every invalidation that a write at its line's own home caused has been accepted: what a release of
the device waits for (R367, R368, R442). DEDUCED (log 147). -/
def deviceQuiet (s : State) : Bool := !s.domains.any fun e => e.2.busy.any fun i => i.src == e.1 || i.src == 64

/-- Whether a back-invalidation to the host that some of the domains caused is under way (R446). -/
def snooping (s : State) (p : Nat → Nat → Bool) : Bool := s.domains.any fun e => e.2.snoops.any fun i => p e.1 i.src

/-- Whether a release of the device at a scope is complete (R367, R368, R442, R446). -/
def deviceQuietAt (s : State) (sc : Scope) : Bool :=
  deviceQuiet s && !(sc == .sys && snooping s fun _ _ => true)

/-- Whether a merge from a domain at its own home has invalidations that are not accepted: the L2 has not yet
acknowledged the bytes (R226, R441). -/
def homeUnacknowledged (s : State) (d : Nat) : Bool := (s.domain d).busy.any fun i => i.src == d

/-- A release's actions at a scope, as far as they can go; done when every byte is acknowledged, and at SYS scope
every back-invalidation (R226, R442, R446). -/
def releaseTry (s : State) (core : Nat) (sc : Scope) : Try :=
  if sc = .blk then .ok s
  else
    let r := cleanL1All s core
    if sc = .dom then (if r.1 && !homeUnacknowledged r.2 (domOf core) then .ok r.2 else .error r.2)
    else
      let d := domOf core
      let q := tryAll (fun s l => cleanRemote s d l) (Sp.keys (r.2.domain d).remote) r.2
      if r.1 && q.1 && !unacknowledged q.2 d && !(sc == .sys && snooping q.2 fun _ src => src == d) then .ok q.2
      else .error q.2

/-- The clean bytes that stay valid in an invalidated remote copy are read at home again, or their sector is dropped
(R266, R440, R443). DEDUCED (log 186). -/
def refreshRemote (s : State) (d line : Nat) : State :=
  (((s.remLine d line).map CLine.mixed).getD []).foldl (fun s sec =>
    match if wayTo s d (lineHome line) = .crosses then fillRemote s d line sec else .error s with
    | .ok s => s
    | .error _ => s.setRem d line (((s.remLine d line).getD {}).dropSector sec)) s

/-- Apply an accepted invalidation to the remote copy of its line (R440). -/
def applyInval (s : State) (d line : Nat) : State :=
  match s.remLine d line with
  | none => s
  | some c => refreshRemote (s.setRem d line c.invalidate) d line

/-- Apply every invalidation that a domain's L2 has accepted (R442). -/
def applyAll (s : State) (d : Nat) : State :=
  let s := (s.domain d).invq.foldl (fun s q => q.2.foldl (fun s l => applyInval s d l) s) s
  s.setDomain d { s.domain d with invq := [] }

/-- The clean bytes that stay valid in an invalidated line of an L1 are read at the L2 again, or their sector is
dropped (R226, R266). DEDUCED (log 186). -/
def refreshL1 (s : State) (core sc line : Nat) : State :=
  (((s.l1Line sc line).map CLine.mixed).getD []).foldl (fun s sec =>
    let c := (s.l1Line sc line).getD {}
    match if l2Way s (domOf core) line (64 * sec) 64 = .crosses then fillL1 s core line sec c.policy else .error s with
    | .ok s => s
    | .error _ => s.setL1 sc line (c.dropSector sec)) s

/-- Invalidate the sectors of the L1 that a core uses, but for those that hold dirty bytes (R226). -/
def invalidateL1 (s : State) (core : Nat) : State :=
  (l1Cores s core).foldl (fun s sc =>
    let lines := Sp.keys (s.core sc).l1
    let s := s.setCore sc { s.core sc with l1 := (s.core sc).l1.map fun e => (e.1, e.2.invalidate) }
    lines.foldl (fun s line => refreshL1 s core sc line) s) s

/-- Whether an acquire of a domain at WAF scope or wider can complete: every invalidation that is sent to it has been
accepted (R443). -/
def acquireReady (s : State) (d : Nat) (sc : Scope) : Bool :=
  !((sc == .waf || sc == .sys) && s.domains.any fun e => e.2.busy.any fun i => i.target == d)

/-- An acquire's actions at a scope (R226, R442, R446). -/
def acquire (s : State) (core : Nat) (sc : Scope) : State :=
  match sc with
  | .blk => s
  | .dom => invalidateL1 s core
  | .waf => invalidateL1 (applyAll s (domOf core)) core
  | .sys => invalidateL1 (applyAll s (domOf core)) core

end Sys2Proof.Machine
end

