-- ==== Sys2Proof/Machine/Translate.lean ====
section
/-!
DEFINITION. Physical addresses, page tables, the walk and its A and D updates, TLBs, and the checks
of an access against its page (R126, R211-R219, R238).
-/
namespace Sys2Proof.Machine

/-! ## Page-table entries (R213, R214) -/

/-- The field of a PTE from bit `lo`, `n` bits wide. -/
def pteField (e lo n : Nat) : Nat := e / 2 ^ lo % 2 ^ n

/-- The level that holds a leaf of an SZ code (R214). -/
def szLevel : Nat → Nat
  | 0 => 0
  | 1 => 0
  | 2 => 1
  | 3 => 1
  | 4 => 2
  | 5 => 2
  | _ => 3

/-- What a walk of one entry says (R213-R215). -/
inductive PteRes where
  /-- The walk ends in TRANSLATE with the reason code. -/
  | bad (reason : Nat)
  /-- The next table. -/
  | table (pa : Nat)
  /-- A leaf, without its A and D updates. -/
  | leaf (t : TlbEnt)
  deriving DecidableEq, Repr

/-- Read one entry at a level (R213-R215). -/
def readPte (s : State) (asn va level e : Nat) : PteRes :=
  let frame := pteField e 12 40 * 2 ^ 12
  let sz := pteField e 9 3
  if pteField e 0 1 = 0 then .bad 1
  else if pteField e 52 12 ≠ 0 then .bad 2
  else if pteField e 1 3 = 0 then
    if pteField e 4 8 ≠ 0 ∨ level = 0 then .bad 2
    else if regionOf s frame ≠ .dram then .bad 3
    else .table frame
  else
    let plate := pteField e 5 1 = 1
    let size := 2 ^ szBits sz
    if sz = 7 ∨ level = 4 ∨ szLevel sz ≠ level ∨ frame % size ≠ 0 ∨ (plate ∧ pteField e 6 1 = 1) then .bad 2
    else
      let first := regionOf s frame
      if first = .hole ∨ regionOf s (frame + size - 1) ≠ first ∨ (plate ↔ first ≠ .plate) then .bad 3
      else
        .leaf
          { asn := asn, va := va / size * size, bits := szBits sz, pa := frame
            r := pteField e 1 1 = 1, w := pteField e 2 1 = 1, x := pteField e 3 1 = 1
            g := pteField e 4 1 = 1, plate := plate, nc := pteField e 6 1 = 1, d := pteField e 8 1 = 1 }

/-- The result of a walk: its failure, or the leaf and the PA of its entry. -/
inductive WalkRes where
  | fail (cause : Cause) (reason : Nat)
  | ok (entry : Nat) (t : TlbEnt)
  deriving DecidableEq, Repr

/-- The entry of a table at a level for a VA: the PA of the entry, and what it says; a poisoned entry is never
used (R212, R393). -/
def readEntry (s : State) (asn va n base : Nat) : Nat × Except WalkRes PteRes :=
  let a := base + 8 * (va / 2 ^ (12 + 9 * n) % 512)
  (a, match s.homeBad a 8 with
    | some r => .error (.fail .uncorrectable r)
    | none => .ok (readPte s asn va n (s.homeRead a 8)))

/-- Walk from a table at level `n - 1` down (R212); of a run, it reads the entry that the access indexes
(R214, R216). DEDUCED (log 60). -/
def walkFrom (s : State) (asn va : Nat) : Nat → Nat → WalkRes
  | 0, _ => .fail .translate 2
  | n + 1, base =>
    match readEntry s asn va n base with
    | (_, .error r) => r
    | (_, .ok (.bad r)) => .fail .translate r
    | (_, .ok (.table t)) => walkFrom s asn va n t
    | (a, .ok (.leaf t)) => .ok a t

/-- The root table of an address space (R212). -/
def rootOf (s : State) (vi asn : Nat) : Nat := Sp.get 0 (s.viface vi).roots asn

/-- The walk of a VA under an ASN (R212): five levels from the root, which must lie in main DRAM. DEDUCED (log 59). -/
def walk (s : State) (vi asn va : Nat) : WalkRes :=
  if regionOf s (rootOf s vi asn) ≠ .dram then .fail .translate 3 else walkFrom s asn va 5 (rootOf s vi asn)

/-! ## The walker of a domain (R218, R219, R221) -/

/-- Whether a walk-cache entry stands for the entry of a level that a walk would read. -/
def WalkEnt.is (e : WalkEnt) (vi asn level va : Nat) : Bool :=
  e.vi == vi && e.asn == asn && e.level == level && e.va == va / 2 ^ (12 + 9 * level)

/-- What a walk of a domain's walker comes to: its result, if it goes ahead; the non-leaf entries that it has read; the
L2 in which a copy owns the line of an entry that it is held at, and that line; and the router that dropped a read. -/
structure Walked where
  res : Option WalkRes := none
  read : List WalkEnt := []
  held : Option (Nat × Nat) := none
  drop : Option Nat := none
  deriving DecidableEq, Repr

/-- The L2 that holds a walker's access to a line, its own or that of the line's home (R240). -/
def holder (s : State) (d line : Nat) : Option Nat :=
  if ownedLine s d line then some d else if ownedLine s (lineHome line) line then some (lineHome line) else none

/-- The walk of a domain's walker from a table at level `n - 1` down: a non-leaf entry in its walk cache is used
as it was read; a read waits at an owned or a busy line, or for its way to the table's home, and one that is dropped
ends the walk (R218, R221, R240, R422, R441, R458). -/
def walkVia (s : State) (d vi asn va : Nat) : Nat → Nat → Walked
  | 0, _ => { res := some (.fail .translate 2) }
  | n + 1, base =>
    match (s.domain d).walks.find? (·.is vi asn n va) with
    | some e => walkVia s d vi asn va n e.table
    | none =>
      match readEntry s asn va n base with
      | (a, res) =>
        match wayTo s d (homeOf a), holder s d (lineOf a), homeGate s (lineOf a) with
        | .dropped at_ _, _, _ => { res := some (.fail .integrity 2), drop := at_ }
        | .waits, _, _ => {}
        | .crosses, some x, _ => { held := some (x, lineOf a) }
        | .crosses, none, .error _ => {}
        | .crosses, none, .ok _ =>
          match res with
          | .error r => { res := some r }
          | .ok (.bad r) => { res := some (.fail .translate r) }
          | .ok (.leaf t) => { res := some (.ok a t) }
          | .ok (.table t) =>
            let r := walkVia s d vi asn va n t
            { r with read := { vi := vi, asn := asn, level := n, va := va / 2 ^ (12 + 9 * n), table := t } :: r.read }

/-- What a walk leaves: a recall of the line that it is held at, the count of a dropped read, and the walk cache, of
1,024 entries (R218, R240, R424). -/
def Walked.leaves (w : Walked) (s : State) (d : Nat) : State :=
  let s := match w.held with
    | some (x, line) => tried (l2Gate s x line)
    | none => s
  let s := if w.drop.isSome then noteDrop (drawClasses s) w.drop else s
  if w.read.isEmpty then s else s.setDomain d { s.domain d with walks := (w.read ++ (s.domain d).walks).take 1024 }

/-- A domain's walk of a VA (R212, R218). -/
def domainWalk (s : State) (d vi asn va : Nat) : Option WalkRes × State :=
  if regionOf s (rootOf s vi asn) ≠ .dram then (some (.fail .translate 3), s)
  else
    let w := walkVia s d vi asn va 5 (rootOf s vi asn)
    (w.res, w.leaves s d)

/-! ## TLBs and translation (R216, R218, R219) -/

/-- Whether a TLB entry translates a VA under an ASN of a virtual interface (R218). -/
def TlbEnt.covers (t : TlbEnt) (vi asn va : Nat) : Bool :=
  t.vi == vi && (t.g || t.asn == asn) && va / 2 ^ t.bits * 2 ^ t.bits == t.va

/-- The PA of a VA in the page (R214). -/
def TlbEnt.phys (t : TlbEnt) (va : Nat) : Nat := t.pa + va % 2 ^ t.bits

/-- Whether some entry of the virtual interface's seal table covers a VA of a page; a range goes on past the last VA
at the first (R238, R254). -/
def sealedAt (s : State) (vi asn va : Nat) (g : Bool) : Bool :=
  (s.viface vi).seals.any fun e => (g || e.asn == asn) && decide ((va + 2 ^ 57 - e.base) % 2 ^ 57 < e.len)

/-- Fill a TLB of `cap` entries with a translation, in place of any older one of the same page.
DESIGN CHOICE (log 56). -/
def tlbFill (cap : Nat) (tlb : List TlbEnt) (t : TlbEnt) : List TlbEnt :=
  (t :: tlb.filter fun e => !(e.va == t.va && e.bits == t.bits && e.asn == t.asn && e.vi == t.vi)).take cap

/-- Fill the L1 TLB of a core. -/
def fillCore (s : State) (core : Nat) (t : TlbEnt) : State :=
  s.setCore core { s.core core with tlb := tlbFill 64 (s.core core).tlb t }

/-- Whether an operation has an access that awaits the translation of a page. -/
def MemOp.awaits (s : State) (o : MemOp) (t : TlbEnt) : Bool :=
  (o.acc.space == .global || o.acc.space == .plate || o.acc.space == .host) &&
    o.lanes.any fun a => a.st == .held && t.covers (s.viOf o.blk) (s.asnOf o.blk) (a.addr % 2 ^ 57)

/-- The cores of a domain that wait for the translation of a page. -/
def waitingOn (s : State) (d : Nat) (t : TlbEnt) : List Nat :=
  ((s.ops.filter fun e => domOf e.2.core == d && e.2.awaits s t).map fun e => e.2.core).eraseDups

/-- A walk fills the L2 TLB of a domain, and the L1 TLB of every core waiting on it (R219). -/
def fillTlbs (s : State) (core : Nat) (t : TlbEnt) : State :=
  let d := domOf core
  let s' := (core :: (waitingOn s d t).filter (· != core)).foldl (fun s c => fillCore s c t) s
  s'.setDomain d { s'.domain d with tlb := tlbFill 16384 (s'.domain d).tlb t }

/-- Whether bits of a page-table entry are all set. -/
def pteHas (s : State) (entry bits : Nat) : Bool := s.homeRead entry 8 &&& bits == bits

/-- Set bits of a page-table entry by an atomic OR of a domain's walker at the entry's home, if any of them is clear;
it waits at an owned or a busy line (R216, R240, R441). -/
def orPte (s : State) (d entry bits : Nat) : Try :=
  if pteHas s entry bits then .ok s
  else do
    let s ← homeReach s d (lineOf entry)
    .ok (dirWrite (homeBytes s (lineOf entry) (lineData entry 8 (s.homeRead entry 8 ||| bits)) (byteMask (entry % 256) 8) [])
      (lineOf entry) 64 true)

/-- What an access does at the page it translates: whether it reads and writes there, and whether it goes to
host memory. -/
structure PageUse where
  reads : Bool := true
  writes : Bool := false
  host : Bool := false
  deriving DecidableEq, Repr

/-- Whether an access through this page sets D: it writes, and no check of R126 or R217 refuses it (R216). -/
def mayDirty (s : State) (vi asn va : Nat) (t : TlbEnt) (u : PageUse) : Bool :=
  u.writes && t.w && (!u.reads || t.r) && !t.plate && !sealedAt s vi asn va t.g && (regionOf s t.pa == .host) == u.host

/-- The entry of a TLB for a VA, usable for a write only with D set where D may be set. -/
def tlbFind (s : State) (tlb : List TlbEnt) (vi asn va : Nat) (u : PageUse) : Option TlbEnt :=
  match tlb.find? (fun t => t.covers vi asn va) with
  | some t => if !t.d && mayDirty s vi asn va t u then none else some t
  | none => none

/-- The outcome of a translation: the page, its failure, or a wait. -/
inductive TransRes where
  | ok (t : TlbEnt)
  | fault (cause : Cause) (reason : Nat)
  | wait
  deriving DecidableEq, Repr

/-- The condition that a failed translation of a VA raises, which lies in a space (R381). -/
def walkCond (c : Cause) (reason va space : Nat) : Cond :=
  { cause := c, reason := reason, addr := va, info := if c = .integrity then 0 else space, sys := true }

/-- A walk's end: it sets A, and D for a write that may go ahead, and fills the TLBs (R216, R219). -/
def endWalk (s : State) (core vi asn va : Nat) (u : PageUse) : WalkRes → TransRes × State
  | .fail c r => (.fault c r, s)
  | .ok entry t =>
    let dirty := mayDirty s vi asn va t u
    match orPte s (domOf core) entry (if dirty then 0x180 else 0x80) with
    | .error s => (.wait, s)
    | .ok s =>
      let t := { t with vi := vi, d := t.d || dirty }
      (.ok t, fillTlbs s core t)

/-- Translate a VA for a core (R212-R219): from its L1 TLB, from its domain's L2 TLB, or by a walk. -/
def translate (s : State) (core vi asn va : Nat) (u : PageUse) : TransRes × State :=
  match tlbFind s (s.core core).tlb vi asn va u with
  | some t => (.ok t, s)
  | none =>
    match tlbFind s (s.domain (domOf core)).tlb vi asn va u with
    | some t => (.ok t, fillCore s core t)
    | none =>
      match domainWalk s (domOf core) vi asn va with
      | (none, s) => (.wait, s)
      | (some r, s) => endWalk s core vi asn va u r

/-- The 4 KiB pages whose misses a core's L1 TLB holds: those of its accesses that await translation (R219). -/
def missPages (s : State) (core : Nat) : List (Nat × Nat × Nat) :=
  ((s.ops.filter fun e => e.2.core == core && (e.2.acc.space == .global || e.2.acc.space == .plate || e.2.acc.space == .host)).map
    fun e => (e.2.lanes.filter fun a => a.st == .held).map fun a =>
      (s.viOf e.2.blk, s.asnOf e.2.blk, a.addr % 2 ^ 57 / 4096)).flatten.eraseDups.filter
    fun p => !(s.core core).tlb.any fun t => t.covers p.1 p.2.1 (4096 * p.2.2)

/-- Whether an access of the weft at issue to one of some VAs must wait: it misses in the core's L1 TLB, whose 16
miss entries are full (R219). -/
def missStall (s : State) (vas : List Nat) : Bool :=
  let b := s.iss.blk
  let core := (s.block b).core
  decide (16 ≤ (missPages s core).length) &&
    vas.any fun va => !(s.core core).tlb.any fun t => t.covers (s.viOf b) (s.asnOf b) (va % 2 ^ 57)

/-- `n` bytes of a plate page as its map entry names them; an EMPTY page reads as zeros (R235, R341). -/
def plateRead (s : State) (pa n : Nat) : Nat :=
  match Sp.find? (s.domain (homeOf pa)).plateMap (platePage pa) with
  | some e => Memory.read (Sp.get [] (s.domain (homeOf pa)).flash e.slot) (pa % 65536) n
  | none => 0

/-- The page slot in which a read finds a plate page: in the midst of a switch it is the old one or the
new one, freely (R235, R348). -/
def plateSlot (s : State) (pa : Nat) : Option Nat × State :=
  let d := s.domain (homeOf pa)
  let now := (Sp.find? d.plateMap (platePage pa)).map (·.slot)
  match Sp.find? d.switching (platePage pa) with
  | none => (now, s)
  | some old => let r := s.fresh; (if Config.freeVersion r.1 then now else old, r.2)

/-- A read of `n` bytes of one version of a plate page, and the failure of a codeword that it needs (R235, R247,
R341). -/
def plateGet (s : State) (pa n : Nat) : State × Nat × Option Nat :=
  let q := plateSlot s pa
  match q.1 with
  | none => (q.2, 0, none)
  | some slot =>
    let d := s.domain (homeOf pa)
    (q.2, Memory.read (Sp.get [] d.flash slot) (pa % 65536) n,
      if d.flashBad.contains (slot * 16 + pa % 65536 / 4096) then some 6 else none)

/-! ## Checks against the page (R126, R217) -/

/-- The check of a space 2 access: permission, PLATEWRITE, SEALED, and the page's kind (R126, R217). -/
def checkGlobal (s : State) (vi asn va : Nat) (t : TlbEnt) (load store : Bool) : Option (Cause × Nat) :=
  if (load && !t.r) || (store && !t.w) then some (.protect, 0)
  else if store && t.plate then some (.plateWrite, 0)
  else if store && sealedAt s vi asn va t.g then some (.sealed, 1)
  else if regionOf s t.pa = .host then some (.protect, 0)
  else none

/-- The check of a plate read: a leaf with P = 1 and R = 1 (R217, R247). -/
def checkPlate (t : TlbEnt) : Option (Cause × Nat) :=
  if t.plate && t.r then none else some (.protect, 0)

/-- The check of a host access: a host-aperture leaf with the permission (R217, R250). -/
def checkHost (s : State) (t : TlbEnt) (load store : Bool) : Option (Cause × Nat) :=
  if regionOf s t.pa = .host ∧ (!load || t.r) ∧ (!store || t.w) then none else some (.protect, 0)

/-- The check of a fetched unit's page: X = 1, and no host aperture (R22, R217). -/
def checkFetch (s : State) (t : TlbEnt) : Option (Cause × Nat) :=
  if t.x && regionOf s t.pa != .host then none else some (.protect, 0)

end Sys2Proof.Machine
end

