-- ==== Sys2Proof/Machine/Fetch.lean ====
section
/-!
DEFINITION. The choice of the issue set (R141, R143) and instruction fetch (R22, R23).
-/
namespace Sys2Proof.Machine

/-! ## The issue set of a stream (R141, R143) -/

/-- The lanes of a stream: those in RUN, or those in TRAP (R141). -/
def streamLanes (s : State) (b w : Nat) (handler : Bool) : List Nat :=
  (List.range 32).filter fun l => (s.thread b w l).tst == (if handler then .trap else .run)

/-- The least of a list, if it has any. -/
def listMin : List Nat → Option Nat
  | [] => none
  | x :: xs =>
    match listMin xs with
    | none => some x
    | some y => some (min x y)

/-- The PC of a lane as a number. -/
def lanePc (s : State) (b w l : Nat) : Nat := (s.thread b w l).pc.toNat

/-- The starvation counter of a stream (R143). -/
def Weft.sb (x : Weft) (handler : Bool) : Nat := if handler then x.sbHandler else x.sbUser

/-- The PC whose lanes issue, and whether the starvation breaker chose it (R143). -/
def candidate (s : State) (b w : Nat) (handler : Bool) : Option (Nat × Bool) :=
  let pcs := (streamLanes s b w handler).map (lanePc s b w)
  match listMin pcs with
  | none => none
  | some low =>
    match listMin (pcs.filter fun p => decide (low < p)) with
    | none => some (low, false)
    | some up => if (s.weft b w).sb handler = 256 then some (up, true) else some (low, false)

/-- Whether a lane waits at a RET for a refill, so that its PC is not yet known (R26). DEDUCED (log 152). -/
def awaitsRet (s : State) (b w l : Nat) : Bool :=
  match stackHold s b w l with
  | some (_, o, _) => o.acc.fn == .refill
  | none => false

/-- The issue of a stream before its word is fetched: its lanes, its PC and the value its starvation
counter will take (R141, R143). While lanes of the stream wait at a RET the choice waits too, so that no timing
decides it (R142, R207); and a set of which some lane issues nothing now is not issued, whatever its word is (R31,
R142). -/
def issueSet (s : State) (b w : Nat) (handler : Bool) : Option Issue :=
  match candidate s b w handler with
  | none => none
  | some (pc, breaker) =>
   if (streamLanes s b w handler).any (awaitsRet s b w) then none
   else
    let all := streamLanes s b w handler
    let lanes := all.filter fun l => lanePc s b w l == pc
    if lanes.any (laneStopped s b w) then none else
    let sb := if breaker then 0 else if lanes.length < all.length then (s.weft b w).sb handler + 1 else 0
    some { blk := b, weft := w, handler := handler, lanes := lanes, pc := BitVec.ofNat 64 pc, sb := sb,
           deliver := laneMask (lanes.filter fun l => (s.thread b w l).deliver) }

/-! ## Fetch (R22) -/

/-- The storage that failed under a 16-bit unit of code: in a copy of the fetching domain, or at home (R393). -/
def codeBad (s : State) (d pa : Nat) : Option Nat :=
  match s.remLine d (lineOf pa) with
  | some c => if c.has (pa % 256) 2 then badIn c.bad (pa % 256) 2 else s.homeBad pa 2
  | none => s.homeBad pa 2

/-- What a fetch comes to: a unit or a word, a condition, or a wait for its translation or its way. -/
inductive FetchRes (α : Type) where
  | ok (a : α)
  | cond (c : Cond)
  | wait

/-- The way of a fetch to the home of a line of code that its domain's L2 does not hold (R421, R434, R458). -/
def codeWay (s : State) (d pa : Nat) : Way :=
  if plateHeld s d (lineOf pa) || ((s.remLine d (lineOf pa)).getD {}).has (pa % 256) 2 then .crosses else wayTo s d (homeOf pa)

/-- A 16-bit unit of code at a physical address for a core: its value at the launch of the grid, or a value
stored to it since, freely (R23); a plate page is never stored to. A poisoned unit raises UNCORRECTABLE (R393), and a
read that is dropped INTEGRITY (R422). -/
def codeUnit (s : State) (core : Nat) (g : Grid) (va pa : Nat) : FetchRes Nat × State :=
  let bad := fun (r : Nat) =>
    FetchRes.cond { cause := .uncorrectable, reason := r, addr := va, info := 6, sys := true }
  match codeWay s (domOf core) pa with
  | .waits => (.wait, s)
  | .dropped at_ _ => (.cond { cause := .integrity, reason := 2, addr := va, sys := true }, noteDrop (drawClasses s) at_)
  | .crosses =>
    if regionOf s pa = .plate then
      match plateGet s pa 2 with
      | (s, v, none) => (.ok v, s)
      | (s, _, some r) => (bad r, s)
    else
      match codeBad s (domOf core) pa with
      | some r => (bad r, s)
      | none =>
        let vals := g.code.read pa 2 :: ((Sp.get [] s.stored (pa / 2)).filter fun e => decide (g.since ≤ e.2)).map (·.1)
        match vals with
        | [v] => (.ok v, s)
        | _ => let r := s.fresh; (.ok (vals.getD (Config.freeUnit r.1 % vals.length) 0), r.2)

/-- One 16-bit unit at a VA for a thread of a grid, or the condition its page or its bytes raise (R22, R23, R393). -/
def fetchUnit (s : State) (core : Nat) (g : Grid) (va : DWord) : FetchRes Nat × State :=
  if !canonical va then (.cond { cause := .translate, reason := 4, addr := va.toNat, info := 6 }, s)
  else
    match translate s core g.vi g.asn (va.toNat % 2 ^ 57) {} with
    | (.wait, s) => (.wait, s)
    | (.fault c r, s) => (.cond (walkCond c r va.toNat 6), s)
    | (.ok t, s) =>
      match checkFetch s t with
      | some _ => (.cond { cause := .protect, addr := va.toNat, info := 6, sys := true }, s)
      | none => codeUnit s core g va.toNat (t.phys (va.toNat % 2 ^ 57))

/-- The word at a VA and its length: a second unit where bit 0 of the first is 1 (R22, R44). DESIGN CHOICE (log 31). -/
def fetchWord (s : State) (core : Nat) (g : Grid) (pc : DWord) : FetchRes (Nat × Nat) × State :=
  match fetchUnit s core g pc with
  | (.wait, s) => (.wait, s)
  | (.cond c, s) => (.cond c, s)
  | (.ok u, s) =>
    if u % 2 = 0 then (.ok (u, 2), s)
    else
      match fetchUnit s core g (pc + 2) with
      | (.wait, s) => (.wait, s)
      | (.cond c, s) => (.cond c, s)
      | (.ok v, s) => (.ok (u + 65536 * v, 4), s)

/-- A condition that fetch raises in the whole issue set (R22, R382): a PC that is not canonical
traps every lane, anything else is a system fault. No instruction has issued: the starvation counter, the stream
that issued last and the phase's count of issues stay. DESIGN CHOICE (log 151). -/
def fetchFault (s : State) (i : Issue) (c : Cond) : State :=
  if c.sys then
    systemFault s i.blk i.weft (i.lanes.map fun l => (l, { c with sys := false })) i.deliver
      (laneMask i.lanes) 0 i.pc true
  else trapAll { s with iss := i } c

end Sys2Proof.Machine
end

