-- ==== Sys2Proof/Machine/Device.lean ====
section
/-!
DEFINITION. What the command processors, stewards and dispatchers do by themselves: reads and writes of
memory under an address space, events and interrupt vectors, and the usable cores of a partition.
-/
namespace Sys2Proof.Machine

/-! ## Domains of a partition (R455) -/

/-- The physical domains of a virtual interface's partition, ascending (R455). -/
def State.domsOf (s : State) (vi : Nat) : List Nat := maskDomains (s.viface vi).partmap

/-- The domain from which the device acts for a virtual interface: its lowest. DESIGN CHOICE (log 156). -/
def State.leadDom (s : State) (vi : Nat) : Nat := (s.domsOf vi).headD 0

/-! ## Memory accesses of the device (R349, R356, R362, R363, R369) -/

/-- The outcome of an access of the device: it is done, it must wait, or it meets a fault at a VA. -/
inductive DevRes (α : Type) where
  | ok (a : α)
  | wait
  | fault (va : Nat) (s : State)

/-- Continue after an access that is done. -/
def DevRes.bind {α β : Type} (x : DevRes α) (f : α → DevRes β) : DevRes β :=
  match x with
  | .ok a => f a
  | .wait => .wait
  | .fault va s => .fault va s

/-- The page of a VA, by a walk of the address space, with its A and D updates (R212, R216). -/
def devWalk (s : State) (vi asn va : Nat) (write : Bool) : DevRes (TlbEnt × State) :=
  if !canonical (BitVec.ofNat 64 va) then .fault va s
  else
    match domainWalk s (s.leadDom vi) vi asn (va % 2 ^ 57) with
    | (none, _) => .wait
    | (some (.fail _ _), s) => .fault va s
    | (some (.ok entry t), s) =>
      let dirty := mayDirty s vi asn (va % 2 ^ 57) t { reads := !write, writes := write }
      match orPte s (s.leadDom vi) entry (if dirty then 0x180 else 0x80) with
      | .error _ => .wait
      | .ok s => .ok (t, s)

/-- Go ahead with an access at a PA if its home can be reached; one that leaves the partition is dropped, and meets a
fault (R418, R434, R458). -/
def devAt {α : Type} (s : State) (vi va pa : Nat) (f : State → DevRes α) : DevRes α :=
  match wayTo s (s.leadDom vi) (homeOf pa) with
  | .crosses => f s
  | .waits => .wait
  | .dropped at_ _ => .fault va (noteDrop (drawClasses s) at_)

/-- Read bytes of one 64-byte block, as a load at WAF scope; the VA of a fault is that of the first byte that meets it
(R126, R349, R362). -/
def devGet (s : State) (vi asn va n : Nat) : DevRes (Nat × State) :=
  (devWalk s vi asn va false).bind fun q =>
    let pa := q.1.phys (va % 2 ^ 57)
    if !q.1.r || regionOf q.2 pa = .host then .fault va q.2
    else devAt q.2 vi va pa fun s =>
      if q.1.plate then
        let r := plateGet s pa n
        if r.2.2.isSome then .fault va r.1 else .ok (r.2.1, r.1)
      else
        match readHome s (homeOf pa) pa n with
        | .error _ => .wait
        | .ok (s, v, none) => .ok (v, s)
        | .ok (s, _, some _) => .fault (va + ((List.range n).find? fun i => (s.homeBad (pa + i) 1).isSome).getD 0) s

/-- Write bytes of one 64-byte block, as a store at WAF scope (R23, R126, R362, R369). -/
def devPut (s : State) (vi asn va n x : Nat) : DevRes State :=
  (devWalk s vi asn va true).bind fun q =>
    let pa := q.1.phys (va % 2 ^ 57)
    if !q.1.w || q.1.plate || sealedAt q.2 vi asn (va % 2 ^ 57) q.1.g || regionOf q.2 pa = .host then .fault va q.2
    else devAt q.2 vi va pa fun s =>
      match writeHome s (homeOf pa) pa n x with
      | .error _ => .wait
      | .ok s => .ok (noteStore s none pa n x)

/-- The pieces of `n` bytes at a VA that lie each in one 64-byte block. -/
def blockPieces (va n : Nat) : List (Nat × Nat) :=
  (List.range (n / 64 + 2)).filterMap fun i =>
    let lo := max va ((va / 64 + i) * 64)
    let hi := min (va + n) ((va / 64 + i + 1) * 64)
    if lo < hi then some (lo, hi - lo) else none

/-- Read pieces into a memory by offset from `base`. -/
def devReadAll (vi asn base : Nat) : List (Nat × Nat) → State → Memory → DevRes (Memory × State)
  | [], s, m => .ok (m, s)
  | (va, n) :: ps, s, m =>
    (devGet s vi asn va n).bind fun r => devReadAll vi asn base ps r.2 (m.write (va - base) n r.1)

/-- Read `n` bytes at a VA (R196, R318, R365). -/
def devRead (s : State) (vi asn va n : Nat) : DevRes (Memory × State) :=
  devReadAll vi asn va (blockPieces va n) s []

/-- Write pieces of a memory by offset from `base`. -/
def devWriteAll (vi asn base : Nat) (m : Memory) : List (Nat × Nat) → State → DevRes State
  | [], s => .ok s
  | (va, n) :: ps, s =>
    (devPut s vi asn va n (m.read (va - base) n)).bind fun s => devWriteAll vi asn base m ps s

/-- Write the first `n` bytes of a memory at a VA. -/
def devWrite (s : State) (vi asn va n : Nat) (m : Memory) : DevRes State :=
  devWriteAll vi asn va m (blockPieces va n) s

/-- Write a number of `n` bytes at a VA. -/
def devPoke (s : State) (vi asn va n x : Nat) : DevRes State := devWrite s vi asn va n (Memory.write [] 0 n x)

/-! ## Writes that the device makes by itself (R413, R432) -/

/-- Whether a write of the device at a VA would meet a fault (R126, R413). -/
def putFaults (s : State) (vi asn va : Nat) : Bool :=
  !canonical (BitVec.ofNat 64 va) ||
    match walk s vi asn (va % 2 ^ 57) with
    | .fail _ _ => true
    | .ok _ t => !t.w || t.plate || sealedAt s vi asn (va % 2 ^ 57) t.g || regionOf s (t.phys (va % 2 ^ 57)) != .dram

/-- The device is to write bytes of one 64-byte block, after what it is to write before; none where the write would
meet a fault (R413, R432). -/
def devQueue (s : State) (vi asn va n x : Nat) : Option State :=
  if putFaults s vi asn va then none
  else some (s.setVI vi { s.viface vi with puts := (s.viface vi).puts ++ [{ asn := asn, va := va, n := n, x := x }] })

/-- The next write that the device is to make for a virtual interface takes its place, once the one before it is
released; at the end of a quote DONE is set (R413, R432, R459). -/
def flushPut (s : State) (vi : Nat) : State :=
  match (s.viface vi).puts with
  | [] => s
  | p :: ps =>
    let next := fun (s : State) => s.setVI vi { s.viface vi with puts := ps }
    if !deviceQuietAt s .sys then s
    else if p.n = 0 then s.setVI vi { s.viface vi with puts := ps, attest := 2 }
    else
      match devPut s vi p.asn p.va p.n p.x with
      | .wait => s
      | .fault _ s => next s
      | .ok s => next s

/-- The next write of every virtual interface that has one. -/
def flushPuts (s : State) : State :=
  if s.vis.all fun e => e.2.puts.isEmpty then s else s.vis.foldl (fun s e => flushPut s e.1) s

/-! ## Events and vectors (R371, R372) -/

def State.queue (s : State) (q : Nat) : Queue := Sp.get {} s.queues q
def State.setQueue (s : State) (q : Nat) (x : Queue) : State := { s with queues := Sp.put s.queues q x }
/-- A node of the graph that a queue runs. -/
def State.node (s : State) (q n : Nat) : Node := Sp.get {} (((s.queue q).graph).getD {}).nodes n
def State.setNode (s : State) (q n : Nat) (x : Node) : State :=
  match (s.queue q).graph with
  | none => s
  | some g => s.setQueue q { s.queue q with graph := some { g with nodes := Sp.put g.nodes n x } }

/-- A field of a node: `n` bytes at an offset (R360). -/
def Node.f (x : Node) (o n : Nat) : Nat := x.par.read o n

/-- Test the waiting WAIT nodes of an event in the order in which they began to wait (R371). -/
def testWaits (vi n : Nat) : List (Nat × Nat) → State → State
  | [], s => s
  | w :: ws, s =>
    let x := s.node w.1 w.2
    let cnt := Sp.get 0 (s.viface vi).events n
    if (s.queue w.1).vi = vi ∧ x.f 0x10 2 = n ∧ x.f 0x14 4 ≤ cnt ∧ x.nst = .running then
      let s := if (x.f 0x12 1).testBit 0 then
          s.setVI vi { s.viface vi with events := Sp.set 0 (s.viface vi).events n (cnt - x.f 0x14 4) } else s
      testWaits vi n ws
        { s.setNode w.1 w.2 { x with res := some (0, 0) } with waiters := s.waiters.filter (· != w) }
    else testWaits vi n ws s

/-- One more in the counter of an event, which saturates (R371). -/
def countRaise (s : State) (vi n : Nat) : State :=
  let v := s.viface vi
  s.setVI vi { v with events := Sp.put v.events n (min (Sp.get 0 v.events n + 1) 0xFFFFFFFF) }

/-- Test the waiting WAIT nodes of an event, at the end of the cycle where it goes on (R371). -/
def testEvent (s : State) (vi n : Nat) : State :=
  if s.cycle.joined then { s with cycle := { s.cycle with raised := s.cycle.raised ++ [(vi, n)] } }
  else testWaits vi n s.waiters s

/-- Raise events of a virtual interface in one cycle: every raise is counted, and then the waiting WAIT nodes are
tested (R371). -/
def raiseEvents (s : State) (vi : Nat) (ns : List Nat) : State :=
  let ns := ns.filter (· != 0)
  let s := ns.foldl (fun s n => countRaise s vi n) s
  ns.eraseDups.foldl (fun s n => testEvent s vi n) s

/-- Raise an event (R371). -/
def raiseEvent (s : State) (vi n : Nat) : State := raiseEvents s vi [n]

/-- Send an interrupt vector of a function (R372, R451). -/
def sendVector (s : State) (vi vec : Nat) : State :=
  s.setVI vi { s.viface vi with irqs := (s.viface vi).irqs ++ [vec] }

/-- A discarded register write or a dropped vector is counted, saturating (R451, R454). -/
def countErr (s : State) (vi : Nat) : State :=
  s.setVI vi { s.viface vi with vferr := min ((s.viface vi).vferr + 1) 0xFFFFFFFF }

/-! ## Domains, cores and their partitions (R1, R427, R455) -/

/-- Whether a core is usable: CNAME.VALID (R427). -/
def State.usable (s : State) (core : Nat) : Bool := (s.domain (domOf core)).coremap.testBit (core % 40)

/-- The physical domain of a virtual number (R430). -/
def State.physDomain (s : State) (vi vd : Nat) : Option Nat := (s.domsOf vi)[vd]?

/-- The usable cores of a domain (R1). -/
def State.coresIn (s : State) (d : Nat) : List Nat :=
  ((List.range 40).map (d * 40 + ·)).filter s.usable

/-- Insert a number into a list in ascending order of a key, after those of equal key. -/
def insertBy (f : Nat → Nat) (x : Nat) : List Nat → List Nat
  | [] => [x]
  | y :: ys => if f x < f y then x :: y :: ys else y :: insertBy f x ys

/-- A list in ascending order of a key, equal keys in their order. -/
def sortBy (f : Nat → Nat) (l : List Nat) : List Nat := l.foldl (fun acc x => insertBy f x acc) []

/-- The usable cores of a domain, in ascending order of name (R202). -/
def State.coresByName (s : State) (d : Nat) : List Nat := sortBy s.coreName (s.coresIn d)

/-- The blocks resident or draining on a core. -/
def State.onCore (s : State) (core : Nat) : List (Nat × Block) :=
  List.filter (fun e => (e.2.bst == .resident || e.2.bst == .draining) && e.2.core == core) s.blocks

/-- The mill that a core is assigned to or departing from, and the stage it serves (R320, R338). -/
def State.millOf (s : State) (core : Nat) : Option (Nat × Nat) :=
  (s.grids.filterMap fun e =>
    match e.2.mill with
    | some m => (Sp.find? m.held core).map fun st => (e.1, st)
    | none => none).head?

end Sys2Proof.Machine
end

