-- ==== Sys2Proof/Machine/Keccak.lean ====
section
/-!
DEFINITION. SHAKE256 of FIPS 202 and KMAC256 of NIST SP 800-185, for digests and tags (R408, R415, R430).
-/
namespace Sys2Proof.Machine

/-- The state of the feedback register after `t` steps: its low bit is rc(t) of FIPS 202, section 3.2.5. -/
def feedback : Nat → Nat
  | 0 => 1
  | t + 1 => (2 * feedback t) ^^^ (feedback t / 128 * 0x171)

/-- The constant of round `ir`: bit 2ʲ − 1 is rc(j + 7 × ir), for j up to 6. -/
def roundConst (ir : Nat) : DWord :=
  BitVec.ofNat 64 (((List.range 7).map fun j => feedback (j + 7 * ir) % 2 * 2 ^ (2 ^ j - 1)).sum)

/-- The places of the lanes (1, 0), (0, 2), … in the order in which rho meets them, as x + 5 × y. -/
def rhoWalk : Nat → Nat × Nat → List Nat
  | 0, _ => []
  | n + 1, p => (p.1 + 5 * p.2) :: rhoWalk n (p.2, (2 * p.1 + 3 * p.2) % 5)

/-- The rotation of the lane at place `i`: that of the t-th lane met is the t-th triangular number. -/
def rhoOffset (i : Nat) : Nat :=
  match (rhoWalk 24 (1, 0)).findIdx? (· == i) with
  | some t => (t + 1) * (t + 2) / 2 % 64
  | none => 0

/-- The lane of a state at column x and row y, both modulo 5. -/
def laneAt (a : List DWord) (x y : Nat) : DWord := a.getD (x % 5 + 5 * (y % 5)) 0

/-- A state whose lane at each column and row is given. -/
def laneMap (f : Nat → Nat → DWord) : List DWord := (List.range 25).map fun i => f (i % 5) (i / 5)

/-- The parity of a column. -/
def columnParity (a : List DWord) (x : Nat) : DWord := (List.range 5).foldl (fun p y => p ^^^ laneAt a x y) 0

/-- The step mappings of a round: theta; rho and pi, the lane now at (x, y) coming from (x + 3y, x); chi; iota. -/
def theta (a : List DWord) : List DWord :=
  let par := (List.range 5).map (columnParity a)
  laneMap fun x y => laneAt a x y ^^^ (par.getD ((x + 4) % 5) 0 ^^^ (par.getD ((x + 1) % 5) 0).rotateLeft 1)
def rhoPi (a : List DWord) : List DWord :=
  laneMap fun x y => (laneAt a (x + 3 * y) x).rotateLeft (rhoOffset ((x + 3 * y) % 5 + 5 * x))
def chi (a : List DWord) : List DWord :=
  laneMap fun x y => laneAt a x y ^^^ (~~~laneAt a (x + 1) y &&& laneAt a (x + 2) y)
def iota (ir : Nat) (a : List DWord) : List DWord := a.set 0 (laneAt a 0 0 ^^^ roundConst ir)

/-- The permutation. -/
def keccakF (a : List DWord) : List DWord :=
  (List.range 24).foldl (fun a ir => iota ir (chi (rhoPi (theta a)))) a

/-- A block of bytes as lanes, low byte first. -/
def lanesOf (bs : List Byte) : List DWord :=
  (List.range 25).map fun i =>
    (List.range 8).foldl (fun (x : DWord) j => x ||| ((bs.getD (8 * i + j) 0).setWidth 64 <<< (8 * j))) 0

/-- The bytes of lanes. -/
def bytesOf (a : List DWord) : List Byte :=
  (a.map fun x => (List.range 8).map fun j => x.extractLsb' (8 * j) 8).flatten

/-- The rate of SHAKE256 and KMAC256 in bytes. -/
def keccakRate : Nat := 136

/-- Absorb whole blocks; `n` bounds their number. -/
def absorb : Nat → List Byte → List DWord → List DWord
  | 0, _, a => a
  | n + 1, bs, a =>
    if bs.isEmpty then a
    else absorb n (bs.drop keccakRate) (keccakF (List.zipWith (· ^^^ ·) a (lanesOf (bs.take keccakRate))))

/-- The sponge: a message with its domain bits padded to whole blocks, and `out` bytes of at most one block. -/
def sponge (dom : Byte) (msg : List Byte) (out : Nat) : List Byte :=
  let r := msg.length % keccakRate
  let pad := if r = keccakRate - 1 then [dom ||| 0x80]
    else [dom] ++ List.replicate (keccakRate - r - 2) 0 ++ [0x80]
  let m := msg ++ pad
  (bytesOf (absorb (m.length / keccakRate) m (List.replicate 25 0))).take out

/-- SHAKE256 (R415, R430, R459). PRESUMED (log 141). -/
def shake256 (msg : List Byte) (out : Nat) : List Byte := sponge 0x1F msg out

/-- The bytes of a number, high first, without leading zeros; `n` bounds them. -/
def bigEndian : Nat → Nat → List Byte
  | 0, _ => []
  | n + 1, x => if x < 256 then [BitVec.ofNat 8 x] else bigEndian n (x / 256) ++ [BitVec.ofNat 8 x]

/-- left_encode and right_encode of SP 800-185. -/
def leftEncode (x : Nat) : List Byte := let b := bigEndian 9 x; BitVec.ofNat 8 b.length :: b
def rightEncode (x : Nat) : List Byte := let b := bigEndian 9 x; b ++ [BitVec.ofNat 8 b.length]
/-- encode_string and bytepad of SP 800-185. -/
def encodeString (s : List Byte) : List Byte := leftEncode (8 * s.length) ++ s
def bytepad (s : List Byte) : List Byte :=
  let m := leftEncode keccakRate ++ s
  m ++ List.replicate ((keccakRate - m.length % keccakRate) % keccakRate) 0

/-- KMAC256, of an output of `out` bytes (R408). -/
def kmac256 (key msg custom : List Byte) (out : Nat) : List Byte :=
  sponge 0x04
    (bytepad (encodeString [0x4B, 0x4D, 0x41, 0x43] ++ encodeString custom) ++
      (bytepad (encodeString key) ++ msg ++ rightEncode (8 * out))) out

end Sys2Proof.Machine
end

