-- ==== Sys2Proof/Machine/Control.lean ====
section
/-!
DEFINITION. Control flow, calls and returns, control registers, traps and the end of a thread
(R24-R27, R119-R125, R146, R156, R171, R188-R191, R387, R388).
-/
namespace Sys2Proof.Machine

/-! ## Branches (R119-R121, R171) -/

/-- BRA (R120): every lane goes to the target. -/
def execBra (off : BitVec 24) (s : State) : Host.Outcome State Fault Refusal :=
  issueLanes .sync [] [] (fun s l => transfer (s.lane l) (relTarget s.iss.pc off)) s

/-- BNZ (R120): a lane whose va is nonzero goes to the target. -/
def execBnz (a : VReg) (off : BitVec 17) (s : State) : Host.Outcome State Fault Refusal :=
  issueLanes .sync [one a] [] (fun s l =>
    if (s.lane l).reg a.toNat != 0 then transfer (s.lane l) (relTarget s.iss.pc off)
    else .next (s.lane l)) s

/-- BZ (R120): a lane whose va is zero goes to the target. -/
def execBz (a : VReg) (off : BitVec 17) (s : State) : Host.Outcome State Fault Refusal :=
  issueLanes .sync [one a] [] (fun s l =>
    if (s.lane l).reg a.toNat == 0 then transfer (s.lane l) (relTarget s.iss.pc off)
    else .next (s.lane l)) s

/-- JMPR (R120): every lane goes to its own pair; the return stack is unchanged. -/
def execJmpr (a : VReg) (s : State) : Host.Outcome State Fault Refusal :=
  issueLanes .sync [two a] [] (fun s l => transfer (s.lane l) ((s.lane l).pair a.toNat)) s

/-- KBNZ (R171): one test of k(ka) moves every lane of the issue set. -/
def execKbnz (a : KReg) (off : BitVec 18) (s : State) : Host.Outcome State Fault Refusal :=
  issueLanes .sync [] [(a.toNat, 1)] (fun s l =>
    if s.wft.kreg a.toNat != 0 then transfer (s.lane l) (relTarget s.iss.pc off)
    else .next (s.lane l)) s

/-- KBZ (R171). -/
def execKbz (a : KReg) (off : BitVec 18) (s : State) : Host.Outcome State Fault Refusal :=
  issueLanes .sync [] [(a.toNat, 1)] (fun s l =>
    if s.wft.kreg a.toNat == 0 then transfer (s.lane l) (relTarget s.iss.pc off)
    else .next (s.lane l)) s

/-! ## Calls and returns (R24-R27) -/

/-- The access of a spill or a refill: that of a 64-bit RLX access at BLK scope, policy 0 (R26). -/
def stackAccess (fn : AccFn) : Access := { space := .global, fn := fn, size := 8 }

/-- The trap of a spill or refill address, if any, before it is translated (R26, R126). -/
def stackCond (a : DWord) : Option Cond :=
  if !canonical a then some { cause := .translate, reason := 4, addr := a.toNat, info := 2 }
  else if a.toNat % 8 != 0 then some { cause := .misalign, addr := a.toNat, info := 2 }
  else none

/-- The effect of a call that pushes on chip: the return address, and the target (R24). -/
def pushCall (t : Thread) (ret target : DWord) : Thread := { t with rs := t.rs ++ [ret], pc := target }

/-- The effect of a call whose oldest entry has gone to the spill area (R24). -/
def spillCall (t : Thread) (ret target : DWord) : Thread :=
  { t with sptr := t.sptr - 8, rs := t.rs.drop 1 ++ [ret], pc := target }

/-- CALL and CALLR in one lane: the target is validated before anything changes; with four entries on chip the
lane goes on once its spill store is translated, and until then issues nothing (R24, R27, R121, R126). A target that
fails, odd ones too, goes before a spill address that is not canonical. DESIGN CHOICE (log 171). -/
def callLane (s : State) (l : Nat) (target : DWord) : LaneRes :=
  let t := s.lane l
  match targetCond target with
  | some c => .trap c
  | none =>
    if t.rs.length < 4 then .goto (pushCall t (s.iss.pc + 4) target)
    else
      match stackCond (t.sptr - 8) with
      | some c => .trap c
      | none => .goto { spillCall t (s.iss.pc + 4) target with hold := some s.nextOp }

/-- Whether lane `l` of the call at issue spills (R24). -/
def spills (s : State) (target : Nat → DWord) (l : Nat) : Bool :=
  decide (4 ≤ (s.lane l).rs.length) && (targetCond (target l)).isNone &&
    (stackCond ((s.lane l).sptr - 8)).isNone

/-- The part of a lane that has completed a CALL or RET in the operation of those that spill or refill: it has its
place already (R383, R384); `val` is the target of a RET. -/
def onChip (l val : Nat) : LaneAcc := { lane := l, addr := 0, st := .served, left := 0, val := val, aux := 1 }

/-- CALL and CALLR (R24): the lanes that spill share one store, counted once (R26, R130). -/
def execCallTo (rs : List Regs) (target : State → Nat → DWord) (s : State) :
    Host.Outcome State Fault Refusal :=
  issue { permitted := fun k => k.permits .sync, regs := rs, poison := .lanes }
    (fun s => issueBusy s rs [] || (s.iss.lanes.any (spills s (target s)) && !s.wft.room .st 1) ||
      missStall s ((s.iss.lanes.filter (spills s (target s))).map fun l => ((s.lane l).sptr - 8).toNat))
    (fun s =>
      let sp := s.iss.lanes.filter (spills s (target s))
      let done := s.iss.lanes.filter fun l => !sp.contains l && (callLane s l (target s l)).completes
      let s' := s.iss.lanes.foldl (laneStep fun l => callLane s l (target s l)) s
      if sp.isEmpty then s'
      else
        addCounted s' .st (issuedOp s (stackAccess .spill)
          (done.map (onChip · 0) ++ sp.map fun l =>
            { lane := l, deliver := s.iss.deliver.testBit l, addr := ((s.lane l).sptr - 8).toNat,
               data := ((s.lane l).rs.headD 0).toNat })
          (laneMask (done ++ sp)))) s

/-- CALL (R120): the branch target. -/
def execCall (off : BitVec 24) (s : State) : Host.Outcome State Fault Refusal :=
  execCallTo [] (fun s _ => relTarget s.iss.pc off) s

/-- CALLR (R120): the pair named by va. -/
def execCallr (a : VReg) (s : State) : Host.Outcome State Fault Refusal :=
  execCallTo [two a] (fun s l => (s.lane l).pair a.toNat) s

/-- The end of a RET whose target came from the spill area (R25): validated, then SPTR moves. -/
def refillRet (t : Thread) (target : DWord) : LaneRes :=
  match targetCond target with
  | some c => .trap c
  | none => .goto { t with sptr := t.sptr + 8, pc := target, hold := none }

/-- The end of a RET whose target was on chip (R25). -/
def popRet (t : Thread) (target : DWord) : LaneRes := transfer { t with rs := t.rs.dropLast, hold := none } target

/-- Whether lane `l` of the RET at issue refills (R25). -/
def refills (s : State) (l : Nat) : Bool := (s.lane l).rs.isEmpty && (stackCond (s.lane l).sptr).isNone

/-- RET in one lane (R25): the newest on-chip entry, or a wait for the refill load; where another lane of the issue
set refills, the lane leaves with it, as the issue set moves whole (R142, R207). -/
def retLane (s : State) (l : Nat) : LaneRes :=
  let t := s.lane l
  let waits := s.iss.lanes.any (refills s)
  if t.rs.isEmpty then
    match stackCond t.sptr with
    | some c => .trap c
    | none => .goto { t with hold := some s.nextOp }
  else
    match targetCond (t.rs.getLastD 0) with
    | some c => .trap c
    | none => if waits then .goto { t with hold := some s.nextOp } else popRet t (t.rs.getLastD 0)

/-- RET (R25): the lanes that refill share one load, counted once (R26). -/
def execRet (s : State) : Host.Outcome State Fault Refusal :=
  issue { permitted := fun k => k.permits .sync, regs := [] }
    (fun s => issueBusy s [] [] || (s.iss.lanes.any (refills s) && !s.wft.room .ld 1) ||
      missStall s ((s.iss.lanes.filter (refills s)).map fun l => (s.lane l).sptr.toNat))
    (fun s =>
      let rf := s.iss.lanes.filter (refills s)
      let done := s.iss.lanes.filter fun l => !rf.contains l && (retLane s l).completes
      let s' := s.iss.lanes.foldl (laneStep (retLane s)) s
      if rf.isEmpty then s'
      else
        addCounted s' .ld (issuedOp s (stackAccess .refill)
          ((done.map fun l => onChip l ((s.lane l).rs.getLastD 0).toNat) ++
            rf.map fun l => { lane := l, deliver := s.iss.deliver.testBit l, addr := (s.lane l).sptr.toNat })
          (laneMask (done ++ rf)))) s

/-! ## Control and status registers (R18-R20, R123, R124, R379) -/

/-- The condition that a CSR number raises in the mode of the issue set: reserved numbers and writes
of read-only CSRs are ILLEGAL, privileged ones in user mode PRIVILEGE (R18, R379). -/
def csrCond (s : State) (write : Bool) (n : Nat) : Option Cond :=
  if n < 4 then none
  else if n = 4 then (if write then some (illegalCond s) else none)
  else if n < 0x100 || 0x1FF < n then some (illegalCond s)
  else if !s.iss.handler then some { cause := .privilege, addr := s.iss.pc.toNat, info := n }
  else if n = 0x101 || n = 0x102 || n = 0x106 || (0x108 ≤ n && n ≤ 0x10B) then none
  else if n = 0x100 || n = 0x103 || n = 0x104 || n = 0x105 || (0x140 ≤ n && n ≤ 0x17F) then
    (if write then some (illegalCond s) else none)
  else some (illegalCond s)

/-- Word `w` of an entry of the reissue queue (R378). -/
def ReOp.wordAt (e : ReOp) (w : Nat) : Word :=
  if w = 0 then BitVec.ofNat 32 e.word
  else if w = 1 then 0
  else if w < 4 then BitVec.ofNat 32 (e.addr / 2 ^ (32 * (w - 2)))
  else BitVec.ofNat 32 (e.data / 2 ^ (32 * (w - 4)))

/-- The value of a readable CSR, reserved bits zero (R18, R20, R379). -/
def csrRead (t : Thread) (n : Nat) : Word :=
  match n with
  | 0 => t.fcsr
  | 1 => BitVec.zeroExtend 32 (t.fcsr.extractLsb' 3 5)
  | 2 => t.sptr.extractLsb' 0 32
  | 3 => t.sptr.extractLsb' 32 32
  | 4 => BitVec.ofNat 32 t.rs.length
  | 0x100 => t.tcause
  | 0x101 => t.tpc.extractLsb' 0 32
  | 0x102 => t.tpc.extractLsb' 32 32
  | 0x103 => t.taddr.extractLsb' 0 32
  | 0x104 => t.taddr.extractLsb' 32 32
  | 0x105 => t.tinfo
  | 0x106 => BitVec.ofNat 32 t.trq.length
  | _ =>
    if 0x108 ≤ n ∧ n ≤ 0x10B then Sp.get 0 t.hscr (n - 0x108)
    else if 0x140 ≤ n ∧ n ≤ 0x17F then
      match t.trq[(n - 0x140) / 8]? with
      | some e => e.wordAt ((n - 0x140) % 8)
      | none => 0
    else 0

/-- The thread with a writable CSR written; reserved bits are ignored (R10, R20, R123, R379). -/
def csrWrite (t : Thread) (n : Nat) (x : Word) : Thread :=
  match n with
  | 0 => { t with fcsr := x &&& 0x1FF }
  | 1 => { t with fcsr := (t.fcsr &&& ~~~0xF8#32) ||| ((x &&& 0x1F) <<< 3) }
  | 2 => { t with sptr := t.sptr.extractLsb' 32 32 ++ x }
  | 3 => { t with sptr := x ++ t.sptr.extractLsb' 0 32 }
  | 0x101 => { t with tpc := t.tpc.extractLsb' 32 32 ++ x }
  | 0x102 => { t with tpc := x ++ t.tpc.extractLsb' 0 32 }
  | 0x106 => { t with trq := t.trq.take (x.toNat % 16) }
  | _ => if 0x108 ≤ n ∧ n ≤ 0x10B then { t with hscr := Sp.set 0 t.hscr (n - 0x108) x } else t

/-- Whether a CSR instruction must wait: FCSR and FFLAGS, for the flags of a WRED of the lanes that has not been
delivered (R20, R449). -/
def flagsOwed (s : State) (csr : Nat) : Bool :=
  decide (csr < 2) && (s.weftOps s.iss.blk s.iss.weft).any fun o =>
    match o.kind with
    | .wred _ _ _ => s.iss.lanes.any fun l => o.issue.testBit l
    | _ => false

/-- CSRR (R123): each lane reads its own copy. -/
def execCsrr (d : VReg) (csr : BitVec 12) (s : State) : Host.Outcome State Fault Refusal :=
  issue { permitted := fun k => k.permits .sync, regs := [one d], early := csrCond s false csr.toNat, poison := .lanes }
    (fun s => issueBusy s [one d] [] || flagsOwed s csr.toNat)
    (fun s => s.iss.lanes.foldl (laneStep fun l =>
      .next ((s.lane l).setReg d.toNat (csrRead (s.lane l) csr.toNat))) s) s

/-- CSRW (R123): each lane writes its own copy. -/
def execCsrw (csr : BitVec 12) (a : VReg) (s : State) : Host.Outcome State Fault Refusal :=
  issue { permitted := fun k => k.permits .sync, regs := [one a], early := csrCond s true csr.toNat, poison := .lanes }
    (fun s => issueBusy s [one a] [] || flagsOwed s csr.toNat)
    (fun s => s.iss.lanes.foldl (laneStep fun l =>
      .next (csrWrite (s.lane l) csr.toNat ((s.lane l).reg a.toNat))) s) s

/-- RDCYC (R125): the core's cycle counter, the same in every lane. -/
def execRdcyc (d : VReg) (s : State) : Host.Outcome State Fault Refusal :=
  issueLanes .sync [two d] [] (fun s l =>
    .next ((s.lane l).setPair d.toNat (s.core (s.block s.iss.blk).core).cyc)) s

/-! ## Special registers (R156, R172) -/

/-- The coordinates of a linear index in a box of three dimensions (R135, R155). -/
def coords (dim : Nat × Nat × Nat) (i : Nat) : Nat × Nat × Nat :=
  (i % dim.1, i / dim.1 % dim.2.1, i / dim.1 / dim.2.1)

/-- The special register `id` of lane `l` of the issue set (R156). -/
def specialReg (s : State) (l id : Nat) : Nat :=
  let b := s.block s.iss.blk
  let k := s.launch s.iss.blk
  let tid := coords k.ntid (s.iss.weft * k.width + l)
  let bid := coords k.nbid b.lin
  match id with
  | 0 => l
  | 1 => tid.1
  | 2 => tid.2.1
  | 3 => tid.2.2
  | 4 => bid.1
  | 5 => bid.2.1
  | 6 => bid.2.2
  | 7 => s.iss.weft
  | 8 => k.width
  | 9 => k.ntid.1
  | 10 => k.ntid.2.1
  | 11 => k.ntid.2.2
  | 12 => s.coreName b.core
  | 13 => s.virtualDomain (s.grid b.gid).vi (domOf b.core)
  | 14 => if (s.grid b.gid).mill.isSome then b.stage else 0xFFFFFFFF
  | 15 => b.phase
  | 16 => (s.weft s.iss.blk s.iss.weft).role
  | 17 => k.nbid.1
  | 18 => k.nbid.2.1
  | _ => k.nbid.2.2

/-- MOVSR (R172). -/
def execMovsr (d : VReg) (id : BitVec 7) (s : State) : Host.Outcome State Fault Refusal :=
  issueLanes .sync [one d] [] (fun s l =>
    .next ((s.lane l).setReg d.toNat (BitVec.ofNat 32 (specialReg s l id.toNat)))) s

/-! ## Traps and the return from a trap (R388) -/

/-- TRAP n (R388): a SOFTWARE trap, resumed past the word. -/
def execTrap (n : BitVec 16) (s : State) : Host.Outcome State Fault Refusal :=
  issueLanes .sync [] [] (fun s _ =>
    .trap { cause := .software, addr := s.iss.pc.toNat, info := n.toNat, skip := 4 }) s

/-- BKPT (R388): a BREAKPOINT trap, resumed at the word. -/
def execBkpt (s : State) : Host.Outcome State Fault Refusal :=
  issueLanes .sync [] [] (fun s _ => .trap { cause := .breakpoint, addr := s.iss.pc.toNat }) s

/-- PRIVILEGE for a RETT in user mode (R381, R388). -/
def rettCond (s : State) : Option Cond :=
  if s.iss.handler then none
  else some { cause := .privilege, addr := s.iss.pc.toNat, info := s.iss.word }

/-- The captured operations that RETT re-injects in a lane, in the order of its reissue queue, which counts as
issued now, before the instruction at TPC (R388); RETT takes their 256 numbers. -/
def reissued (s : State) (l : Nat) : List ParkedOp :=
  let t := s.lane l
  t.trq.zipIdx.map fun e =>
    { op := s.nextOp + 8 * l + e.2, word := e.1.word, pc := t.tpc, addr := e.1.addr, data := e.1.data, handler := false }

/-- RETT in one lane (R388): a legal target is taken, and every captured operation goes to be re-injected. -/
def rettLane (s : State) (l : Nat) : LaneRes :=
  match targetCond (s.lane l).tpc with
  | some c => .trap c
  | none => .goto { leaveTrap (s.lane l) with parkq := reissued s l }

/-- RETT (R388): it waits while a lane would have more than eight held operations (R377); the operations are
re-injected, each stepping its counter, before the lane's next instruction. -/
def execRett (s : State) : Host.Outcome State Fault Refusal :=
  issue { permitted := fun k => k.permits .sync, regs := [], early := rettCond s }
    (fun s => issueBusy s [] [] ||
      s.iss.lanes.any fun l => decide (8 < heldCount s s.iss.blk s.iss.weft l + (s.lane l).trq.length))
    (fun s =>
      let s' := s.iss.lanes.foldl (laneStep (rettLane s)) s
      { s' with nextOp := s.nextOp + 256 }) s

/-! ## Meeting, yielding and exit (R146, R157, R188-R190) -/

/-- A lane that is never to issue again, or has no thread. -/
def LaneState.over : LaneState → Bool
  | .empty => true
  | .done => true
  | _ => false

/-- Whether every lane that a mask names has arrived at a WSYNC of that mask (R146). -/
def wsyncMet (s : State) (b w mask : Nat) : Bool :=
  (maskLanes mask).all fun l =>
    (s.thread b w l).tst.over || ((s.thread b w l).tst == .wait && (s.thread b w l).wait == .wsync mask)

/-- Every lane waiting with a mask that is met enters RUN past its own WSYNC (R146). DEDUCED (log 51). -/
def wsyncRelease (s : State) (b w : Nat) : State :=
  (List.range 32).foldl (fun s' l =>
    let t := s.thread b w l
    match t.tst, t.wait with
    | .wait, .wsync m =>
      if wsyncMet s b w m then s'.setThread b w l { t with tst := .run, wait := .none, pc := t.pc + 4 }
      else s'
    | _, _ => s') s

/-- Whether every lane of every weft of the block is EMPTY, DONE or waiting at a YIELD, and one waits (R157). -/
def yieldMet (s : State) (b : Nat) : Bool :=
  let waits := fun w l => (s.thread b w l).tst == .wait && (s.thread b w l).wait == .yield
  let ws := List.range (s.launch b).wefts
  (ws.all fun w => (List.range 32).all fun l => (s.thread b w l).tst.over || waits w l) &&
    ws.any fun w => (List.range 32).any fun l => waits w l

/-- The figures of a phase that has ended: at YIELD completion, or as its block retires (R398). -/
def noteFigures (s : State) (b : Nat) : State :=
  let k := s.block b
  let g := s.grid k.gid
  let f := Sp.get {} g.figures k.stage
  let cyc := ((s.core k.core).cyc - BitVec.ofNat 64 k.since).toNat
  let f' : Figures := { ended := f.ended + 1, issues := f.issues + k.issues, cycles := f.cycles + cyc }
  s.setGrid k.gid { g with figures := Sp.put g.figures k.stage f' }

/-- A YIELD completes for the whole block at once: the phase has ended, and the block enters DRAINING (R157, R164,
R398). -/
def yieldCheck (s : State) (b : Nat) : State :=
  if (s.block b).bst == .resident && yieldMet s b then noteFigures (s.setBlock b { s.block b with bst := .draining }) b else s

/-- A weft whose every lane is DONE or EMPTY is FINISHED (R140). -/
def finishCheck (s : State) (b w : Nat) : State :=
  if (List.range 32).all fun l => (s.thread b w l).tst.over then
    s.setWeft b w { s.weft b w with wst := .finished }
  else s

/-- RACE with reason HELD, for a weft that holds a race slot (R158, R190, R381). -/
def heldCond (s : State) : Option Cond :=
  match s.wft.slots with
  | [] => none
  | h :: _ => some { cause := .race, reason := 8, addr := h.addr }

/-- WSYNC (R146, R188): a lane that the mask names waits until every named lane has arrived. -/
def execWsync (ka : KReg) (s : State) : Host.Outcome State Fault Refusal :=
  issue { permitted := fun k => k.permits .sync, regs := [], early := handlerIllegal s }
    (fun s => issueBusy s [] [(ka.toNat, 1)])
    (fun s =>
      let m := (s.wft.kreg ka.toNat).toNat % 2 ^ s.width s.iss.blk
      wsyncRelease (s.iss.lanes.foldl (laneStep fun l =>
        if m.testBit l then .goto { s.lane l with tst := .wait, wait := .wsync m } else .next (s.lane l)) s)
        s.iss.blk s.iss.weft) s

/-- YIELD (R157, R158, R189): a lane waits for the whole block; a weft that holds a race slot traps RACE. -/
def execYield (s : State) : Host.Outcome State Fault Refusal :=
  issue { permitted := fun k => k.permits .sync, regs := [], early := handlerIllegal s }
    (fun s => issueBusy s [] [])
    (fun s =>
      match heldCond s with
      | some c => trapAll s c
      | none =>
        yieldCheck (s.iss.lanes.foldl (laneStep fun l =>
          .goto { s.lane l with tst := .wait, wait := .yield }) s) s.iss.blk) s

/-- EXIT (R190, R387): the lane is DONE, its reissue queue discarded. DEDUCED (log 27). -/
def execExit (s : State) : Host.Outcome State Fault Refusal :=
  issue { permitted := fun k => k.permits .sync, regs := [] }
    (fun s => issueBusy s [] [])
    (fun s =>
      match heldCond s with
      | some c => trapAll s c
      | none =>
        yieldCheck (finishCheck (wsyncRelease (s.iss.lanes.foldl (laneStep fun l =>
          .next { s.lane l with tst := .done, trq := [] }) s) s.iss.blk s.iss.weft)
          s.iss.blk s.iss.weft) s.iss.blk) s

end Sys2Proof.Machine
end

