-- ==== Sys2Proof/Machine/Flags.lean ====
section
/-!
DEFINITION. The floating-point flags (R19, R76) and the formats, values and rounding that set them
(R67-R79). A flag set is a number whose bits are those of FFLAGS: NX 0, UF 1, OF 2, DZ 3, NV 4.
-/
namespace Sys2Proof.Machine

/-- The flags, as bits of FFLAGS (R18, R19). -/
def fNX : Nat := 1
def fUF : Nat := 2
def fOF : Nat := 4
def fDZ : Nat := 8
def fNV : Nat := 16

/-- The thread with flags ORed into its FCSR (R19). -/
def Thread.raise (t : Thread) (flags : Nat) : Thread :=
  { t with fcsr := t.fcsr ||| (BitVec.ofNat 32 (flags % 32) <<< 3) }

/-! ## Formats (R67-R69) -/

/-- A floating-point format: EXP and FRAC widths, bias, whether it has infinities, and its largest
finite value as `maxSig × 2^maxQ`. -/
structure Fmt where
  ebits : Nat
  fbits : Nat
  bias : Nat
  infs : Bool
  maxSig : Nat
  maxQ : Int
  /-- The canonical NaN (R69, R70). -/
  nan : Nat

def fp64 : Fmt := ⟨11, 52, 1023, true, 2 ^ 53 - 1, 971, 0x7FF8000000000000⟩
def fp32 : Fmt := ⟨8, 23, 127, true, 2 ^ 24 - 1, 104, 0x7FC00000⟩
def fp16 : Fmt := ⟨5, 10, 15, true, 2 ^ 11 - 1, 5, 0x7E00⟩
def bf16 : Fmt := ⟨8, 7, 127, true, 2 ^ 8 - 1, 120, 0x7FC0⟩
def e4m3 : Fmt := ⟨4, 3, 7, false, 14, 5, 0x7F⟩
def e5m2 : Fmt := ⟨5, 2, 15, true, 7, 13, 0x7E⟩

/-- The quantum of the subnormal range, as a power of two (R72). -/
def Fmt.qmin (f : Fmt) : Int := 1 - f.bias - f.fbits

/-- The magnitude pattern of infinity. -/
def Fmt.inf (f : Fmt) : Nat := (2 ^ f.ebits - 1) * 2 ^ f.fbits

/-- The pattern of the largest finite magnitude. -/
def Fmt.maxFinite (f : Fmt) : Nat := (f.maxQ - f.qmin).toNat * 2 ^ f.fbits + f.maxSig

/-- The sign bit as a number. -/
def Fmt.sign (f : Fmt) (neg : Bool) : Nat := if neg then 2 ^ (f.ebits + f.fbits) else 0

/-- A value: a NaN, an infinity, or `(-1)^neg × m × 2^e`. -/
inductive FVal where
  | nan (signalling : Bool)
  | inf (neg : Bool)
  | fin (neg : Bool) (m : Nat) (e : Int)
  deriving DecidableEq, Repr

/-- The value of a pattern (R67-R69). -/
def unpack (f : Fmt) (x : Nat) : FVal :=
  let neg := x.testBit (f.ebits + f.fbits)
  let e := x / 2 ^ f.fbits % 2 ^ f.ebits
  let m := x % 2 ^ f.fbits
  if e = 2 ^ f.ebits - 1 ∧ f.infs then
    if m = 0 then .inf neg else .nan (f.fbits ≥ 7 && !m.testBit (f.fbits - 1))
  else if !f.infs ∧ e = 2 ^ f.ebits - 1 ∧ m = 2 ^ f.fbits - 1 then .nan false
  else if e = 0 then .fin neg m f.qmin
  else .fin neg (2 ^ f.fbits + m) (f.qmin + e - 1)

/-- Whether the value is a signalling NaN. -/
def FVal.isSNaN : FVal → Bool
  | .nan s => s
  | _ => false
/-- Whether the value is a NaN. -/
def FVal.isNaN : FVal → Bool
  | .nan _ => true
  | _ => false
/-- Whether the value is a zero. -/
def FVal.isZero : FVal → Bool
  | .fin _ 0 _ => true
  | _ => false
/-- The sign of a number. -/
def FVal.neg : FVal → Bool
  | .nan _ => false
  | .inf n => n
  | .fin n _ _ => n

/-- Step 1 of R75: a subnormal input becomes a zero of its sign. -/
def flushIn (f : Fmt) (ftz : Bool) (x : Nat) : Nat :=
  if ftz ∧ x / 2 ^ f.fbits % 2 ^ f.ebits = 0 then f.sign (x.testBit (f.ebits + f.fbits)) else x

/-! ## Rounding (R72, R75, R76) -/

/-- A result pattern and the flags it raises. -/
structure FRes where
  bits : Nat
  flags : Nat
  deriving DecidableEq, Repr

/-- Where a value stands between two neighbours. -/
inductive Tail where
  | exact | below | half | above
  deriving DecidableEq, Repr

/-- `m × 2^e`, and a little more where `sticky`, in units of `2^q`: the whole part and the tail. -/
def splitAt (m : Nat) (e : Int) (sticky : Bool) (q : Int) : Nat × Tail :=
  if q ≤ e then (m * 2 ^ (e - q).toNat, if sticky then .below else .exact)
  else
    let d := (q - e).toNat
    let r := m % 2 ^ d
    let h := 2 ^ (d - 1)
    (m / 2 ^ d,
      if r = 0 then (if sticky then .below else .exact)
      else if r < h then .below
      else if r = h then (if sticky then .above else .half)
      else .above)

/-- Whether the mode rounds the magnitude up (R72). -/
def roundsUp (rm : Nat) (neg : Bool) (k : Nat) : Tail → Bool
  | .exact => false
  | .below => (rm == 2 && neg) || (rm == 3 && !neg)
  | .half => (rm == 0 && k % 2 == 1) || (rm == 2 && neg) || (rm == 3 && !neg)
  | .above => rm == 0 || (rm == 2 && neg) || (rm == 3 && !neg)

/-- Round in units of `2^q`: the whole number, and whether it differs from the exact value. -/
def roundAt (rm : Nat) (neg : Bool) (m : Nat) (e : Int) (sticky : Bool) (q : Int) : Nat × Bool :=
  let s := splitAt m e sticky q
  (if roundsUp rm neg s.1 s.2 then s.1 + 1 else s.1, s.2 != .exact)

/-- The magnitude an overflow delivers (R72). -/
def overflowBits (f : Fmt) (rm : Nat) (neg : Bool) : Nat :=
  if rm = 0 ∨ (rm = 2 ∧ neg) ∨ (rm = 3 ∧ !neg) then f.inf else f.maxFinite

/-- Round the nonzero value `m × 2^e` (and a little more where `sticky`) once to a format (R72): with
unbounded exponent for overflow and tininess, at the fixed quantum in the subnormal range (R76). -/
def roundTo (f : Fmt) (rm : Nat) (neg : Bool) (m : Nat) (e : Int) (sticky : Bool) : FRes :=
  if m = 0 then ⟨f.sign neg, if sticky then fUF + fNX else 0⟩
  else
    let qU := Int.ofNat m.log2 + e - f.fbits
    let u := roundAt rm neg m e sticky qU
    if f.maxQ < qU ∨ (qU = f.maxQ ∧ f.maxSig < u.1) then
      ⟨f.sign neg + overflowBits f rm neg, fOF + fNX⟩
    else
      let tiny := decide (qU < f.qmin) && !(qU + 1 == f.qmin && u.1 == 2 ^ (f.fbits + 1))
      let q := max qU f.qmin
      let r := roundAt rm neg m e sticky q
      ⟨f.sign neg + (q - f.qmin).toNat * 2 ^ f.fbits + r.1,
        (if r.2 then fNX else 0) + (if tiny && r.2 then fUF else 0)⟩

/-- Step 3 of R75: a nonzero subnormal result becomes a zero of its sign, with UF and NX. -/
def flushOut (f : Fmt) (ftz : Bool) (r : FRes) : FRes :=
  let mag := r.bits % 2 ^ (f.ebits + f.fbits)
  if ftz ∧ mag ≠ 0 ∧ mag < 2 ^ f.fbits then ⟨r.bits - mag, r.flags ||| (fUF + fNX)⟩ else r

/-! ## Exact arithmetic on values -/

/-- A canonical NaN, with NV for a signalling input or an invalid operation (R70, R76). -/
def nanRes (f : Fmt) (invalid : Bool) : FRes := ⟨f.nan, if invalid then fNV else 0⟩

/-- The sign of an exact zero sum (R74). -/
def zeroSign (rm : Nat) (n1 n2 : Bool) : Bool := if n1 == n2 then n1 else rm == 2

/-- The exact sum of two finite values, in units of the lesser exponent. -/
def addFin (n1 : Bool) (m1 : Nat) (e1 : Int) (n2 : Bool) (m2 : Nat) (e2 : Int) : Int × Int :=
  let e := min e1 e2
  let a : Int := Int.ofNat (m1 * 2 ^ (e1 - e).toNat)
  let b : Int := Int.ofNat (m2 * 2 ^ (e2 - e).toNat)
  ((if n1 then -a else a) + (if n2 then -b else b), e)

/-- Round a signed whole number of units `2^e`; an exact zero takes the given sign. -/
def roundInt (f : Fmt) (rm : Nat) (x : Int) (e : Int) (zneg : Bool) : FRes :=
  if x = 0 then ⟨f.sign zneg, 0⟩ else roundTo f rm (decide (x < 0)) x.natAbs e false

/-- The sum of two values, rounded once (R72, R74, R106). -/
def fAdd (f : Fmt) (rm : Nat) (x y : FVal) : FRes :=
  match x, y with
  | .nan s, y => nanRes f (s || y.isSNaN)
  | x, .nan s => nanRes f (s || x.isSNaN)
  | .inf n1, .inf n2 => if n1 = n2 then ⟨f.sign n1 + f.inf, 0⟩ else nanRes f true
  | .inf n, .fin _ _ _ => ⟨f.sign n + f.inf, 0⟩
  | .fin _ _ _, .inf n => ⟨f.sign n + f.inf, 0⟩
  | .fin n1 m1 e1, .fin n2 m2 e2 =>
    let s := addFin n1 m1 e1 n2 m2 e2
    roundInt f rm s.1 s.2 (zeroSign rm n1 n2)

/-- The value with its sign turned. -/
def FVal.negate : FVal → FVal
  | .nan s => .nan s
  | .inf n => .inf (!n)
  | .fin n m e => .fin (!n) m e

/-- The product of two values, rounded once (R106). -/
def fMul (f : Fmt) (rm : Nat) (x y : FVal) : FRes :=
  match x, y with
  | .nan s, y => nanRes f (s || y.isSNaN)
  | x, .nan s => nanRes f (s || x.isSNaN)
  | .inf n1, .inf n2 => ⟨f.sign (n1 != n2) + f.inf, 0⟩
  | .inf n1, .fin n2 m _ => if m = 0 then nanRes f true else ⟨f.sign (n1 != n2) + f.inf, 0⟩
  | .fin n1 m _, .inf n2 => if m = 0 then nanRes f true else ⟨f.sign (n1 != n2) + f.inf, 0⟩
  | .fin n1 m1 e1, .fin n2 m2 e2 => roundTo f rm (n1 != n2) (m1 * m2) (e1 + e2) false

/-- Whether a product is 0 × ∞ (R76). -/
def zeroTimesInf (x y : FVal) : Bool :=
  match x, y with
  | .inf _, .fin _ 0 _ => true
  | .fin _ 0 _, .inf _ => true
  | _, _ => false

/-- a × b + c with one rounding; 0 × ∞ is invalid even beside a quiet NaN addend (R76, R106). -/
def fFma (f : Fmt) (rm : Nat) (x y z : FVal) : FRes :=
  let snan := x.isSNaN || y.isSNaN || z.isSNaN
  if zeroTimesInf x y then nanRes f true
  else if x.isNaN || y.isNaN || z.isNaN then nanRes f snan
  else
    match x, y with
    | .fin n1 m1 e1, .fin n2 m2 e2 => fAdd f rm (.fin (n1 != n2) (m1 * m2) (e1 + e2)) z
    | x, y => fAdd f rm (.inf (x.neg != y.neg)) z

/-- The quotient of two values, rounded once (R112). -/
def fDiv (f : Fmt) (rm : Nat) (x y : FVal) : FRes :=
  let neg := x.neg != y.neg
  match x, y with
  | .nan s, y => nanRes f (s || y.isSNaN)
  | x, .nan s => nanRes f (s || x.isSNaN)
  | .inf _, .inf _ => nanRes f true
  | .inf _, .fin _ _ _ => ⟨f.sign neg + f.inf, 0⟩
  | .fin _ _ _, .inf _ => ⟨f.sign neg, 0⟩
  | .fin _ m1 e1, .fin _ m2 e2 =>
    if m2 = 0 then (if m1 = 0 then nanRes f true else ⟨f.sign neg + f.inf, fDZ⟩)
    else if m1 = 0 then ⟨f.sign neg, 0⟩
    else
      let k := m2.log2 + f.fbits + 4
      roundTo f rm neg (m1 * 2 ^ k / m2) (e1 - e2 - k) (m1 * 2 ^ k % m2 != 0)

/-- The integer square root by bits, from bit `n - 1` down, given the root so far. -/
def isqrtFrom (x : Nat) : Nat → Nat → Nat
  | 0, r => r
  | n + 1, r => if (r + 2 ^ n) * (r + 2 ^ n) ≤ x then isqrtFrom x n (r + 2 ^ n) else isqrtFrom x n r

/-- The integer square root. -/
def isqrt (x : Nat) : Nat := isqrtFrom x (x.log2 / 2 + 1) 0

/-- The square root, rounded once (R112). -/
def fSqrt (f : Fmt) (rm : Nat) (x : FVal) : FRes :=
  match x with
  | .nan s => nanRes f s
  | .inf n => if n then nanRes f true else ⟨f.inf, 0⟩
  | .fin n m e =>
    if m = 0 then ⟨f.sign n, 0⟩
    else if n then nanRes f true
    else
      let k := 2 * (f.fbits + 4) + (if (e % 2 = 0) then 0 else 1)
      let a := m * 2 ^ k
      roundTo f rm false (isqrt a) ((e - k) / 2) (isqrt a * isqrt a != a)

/-- The reciprocal square root, rounded once (R112). -/
def fRsqrt (f : Fmt) (rm : Nat) (x : FVal) : FRes :=
  match x with
  | .nan s => nanRes f s
  | .inf n => if n then nanRes f true else ⟨0, 0⟩
  | .fin n m e =>
    if m = 0 then ⟨f.sign n + f.inf, fDZ⟩
    else if n then nanRes f true
    else
      let m' := if e % 2 = 0 then m else 2 * m
      let e' := if e % 2 = 0 then e else e - 1
      let k := m'.log2 / 2 + f.fbits + 4
      let a := 2 ^ (2 * k) / m'
      let r := isqrt a
      roundTo f rm false r (-(e' / 2) - k) (r * r * m' != 2 ^ (2 * k))

/-- The order of two numbers: less, equal, greater. -/
def fCmp (x y : FVal) : Ordering :=
  match x, y with
  | .inf n1, .inf n2 => if n1 = n2 then .eq else if n1 then .lt else .gt
  | .inf n, _ => if n then .lt else .gt
  | _, .inf n => if n then .gt else .lt
  | .fin n1 m1 e1, .fin n2 m2 e2 =>
    let s := addFin n1 m1 e1 (!n2) m2 e2
    if s.1 < 0 then .lt else if s.1 = 0 then .eq else .gt
  | _, _ => .eq

/-- minimumNumber, or maximumNumber where `mx`, of two patterns, with −0 < +0 (R76, R107). -/
def fMinMax (f : Fmt) (mx : Bool) (a b : Nat) : FRes :=
  let x := unpack f a
  let y := unpack f b
  let flags := if x.isSNaN || y.isSNaN then fNV else 0
  if x.isNaN && y.isNaN then ⟨f.nan, flags⟩
  else if x.isNaN then ⟨b, flags⟩
  else if y.isNaN then ⟨a, flags⟩
  else
    let less := match fCmp x y with
      | .lt => true
      | .gt => false
      | .eq => x.neg && !y.neg
    ⟨if less != mx then a else b, 0⟩

/-! ## Conversions (R77-R79) -/

/-- A value of one format rounded to another (R72, R77). -/
def fConv (f : Fmt) (rm : Nat) (x : FVal) : FRes :=
  match x with
  | .nan s => nanRes f s
  | .inf n => ⟨f.sign n + f.inf, 0⟩
  | .fin n m e => roundTo f rm n m e false

/-- A value rounded to an integral value: its magnitude, and whether it changed (R78, R111). -/
def toIntegral (rm : Nat) (neg : Bool) (m : Nat) (e : Int) : Nat × Bool := roundAt rm neg m e false 0

/-- A value converted to an integer from `lo` to `hi` (R78). -/
def fToInt (rm : Nat) (lo hi : Int) (x : FVal) : Int × Nat :=
  match x with
  | .nan _ => (0, fNV)
  | .inf n => (if n then lo else hi, fNV)
  | .fin n m e =>
    let r := toIntegral rm n m e
    let v : Int := if n then -(Int.ofNat r.1) else Int.ofNat r.1
    if hi < v then (hi, fNV) else if v < lo then (lo, fNV) else (v, if r.2 then fNX else 0)

/-- An integer converted to a format (R77). -/
def intToF (f : Fmt) (rm : Nat) (x : Int) : FRes := roundInt f rm x 0 false

/-- A value converted to E4M3, saturating (R79). -/
def toE4M3 (x : FVal) : FRes :=
  match x with
  | .nan s => nanRes e4m3 s
  | .inf n => ⟨e4m3.sign n + e4m3.maxFinite, fOF + fNX⟩
  | .fin n m e =>
    let r := roundTo e4m3 0 n m e false
    if r.flags.testBit 2 then ⟨e4m3.sign n + e4m3.maxFinite, fOF + fNX⟩ else r

/-- A value converted to E5M2: saturating, or overflowing to infinity where `e5inf` (R79). -/
def toE5M2 (e5inf : Bool) (x : FVal) : FRes :=
  match x with
  | .nan s => nanRes e5m2 s
  | .inf n => if e5inf then ⟨e5m2.sign n + e5m2.inf, 0⟩ else ⟨e5m2.sign n + e5m2.maxFinite, fOF + fNX⟩
  | .fin n m e =>
    let r := roundTo e5m2 0 n m e false
    if r.flags.testBit 2 then
      ⟨e5m2.sign n + (if e5inf then e5m2.inf else e5m2.maxFinite), fOF + fNX⟩
    else r

end Sys2Proof.Machine
end

