-- ==== Sys2Proof/Machine/Memory.lean ====
section
/-!
DEFINITION. The memory instructions at issue: their addresses, the checks that the address alone
decides, and the operation they leave outstanding (R126-R132, R179-R182, R241-R250).
-/
namespace Sys2Proof.Machine

/-! ## What an access carries (R378) -/

/-- The operand words of a store, or the whole group of an atomic, the result part lowest (R47, R378). -/
def accData (t : Thread) (a : Access) : Nat :=
  match a.fn with
  | .store =>
    if a.size = 16 then (t.quad a.dest).toNat
    else if a.size = 8 then (t.pair a.dest).toNat
    else (t.reg a.dest).toNat
  | .atom _ =>
    if a.size = 8 then (t.pair a.dest).toNat + 2 ^ 64 * (t.pair (a.dest + 2)).toNat
    else (t.reg a.dest).toNat + 2 ^ 32 * (t.reg (a.dest + 1)).toNat
  | .fatom _ => (t.reg a.dest).toNat + 2 ^ 32 * (t.reg (a.dest + 1)).toNat
  | .load => 0
  | .spill => 0
  | .refill => 0

/-- The data registers that the group field of an access names (R47). -/
def Access.group (a : Access) : Regs :=
  match a.fn with
  | .atom _ => (a.dest, a.size / 2)
  | .fatom _ => (a.dest, 2)
  | _ => (a.dest, (a.size + 3) / 4)

/-- Whether the thread of a lane has eight held operations (R377). -/
def heldFull (s : State) (l : Nat) : Bool := decide (8 ≤ heldCount s s.iss.blk s.iss.weft l)

/-- A memory instruction at issue: each lane passes its checks, traps, or meets a system fault; the lanes that pass
leave one operation outstanding, which steps its counter once (R29, R130, R383). An instruction with a lane for
which `stall` holds waits. A poisoned register that a lane reads comes before its other checks (R389).
DEDUCED (log 42). -/
def memIssue (a : Access) (rs : List Regs) (stall : State → Bool) (check : State → Nat → Option Cond)
    (acc : State → Nat → LaneAcc) (s : State) : Host.Outcome State Fault Refusal :=
  issue { permitted := fun k => k.permits .memory, regs := rs, poison := .checks }
    (fun s => issueBusy s rs [] || !s.wft.room a.fn.counter 1 || s.iss.lanes.any (heldFull s) || stall s)
    (fun s =>
      let check := fun (s : State) (l : Nat) => (s.badCond l).orElse fun _ => check s l
      let ok := s.iss.lanes.filter fun l => (check s l).isNone
      let fails := s.iss.lanes.filterMap fun l =>
        match check s l with
        | some c => if c.sys then some (l, { c with sys := false }) else none
        | none => none
      let mask := laneMask (ok ++ fails.map (·.1))
      let s' := s.iss.lanes.foldl (fun s' l =>
        match check s l with
        | some c =>
          if c.sys then s' else deliverTrap s' s.iss.blk s.iss.weft l c (laneMask s.iss.lanes) (laneMask ok)
        | none => s'.setThread s.iss.blk s.iss.weft l { s.lane l with pc := nextPc s }) s
      let s' := if ok.isEmpty then s' else addCounted s' a.fn.counter (issuedOp s a (ok.map (acc s)) mask)
      if fails.isEmpty then s'
      else systemFault s' s.iss.blk s.iss.weft fails s.iss.deliver mask (laneMask ok) s.iss.pc true) s

/-- The access of a lane at an address, as issued. -/
def laneAcc (s : State) (a : Access) (l addr : Nat) : LaneAcc :=
  { lane := l, addr := addr, data := accData (s.lane l) a, left := a.halves, deliver := s.iss.deliver.testBit l }

/-! ## Addresses and their checks -/

/-- The offset of a scratchpad or constant-bank access: a register plus a scaled immediate (R179, R243). -/
def offsetAddr (t : Thread) (base : VReg) (imm : Nat) : Nat := (t.reg base.toNat + BitVec.ofNat 32 imm).toNat

/-- Scratchpad checks, of an allocation of `bytes` bytes if there is one (R179, R243). -/
def spmCond (a : Access) (space o : Nat) (bytes : Option Nat) : Option Cond :=
  if o % a.size != 0 then some { cause := .misalign, addr := o, info := space }
  else
    match bytes with
    | some n => if n < o + a.size then some { cause := .protect, addr := o, info := space, sys := true } else none
    | none => some { cause := .protect, addr := o, info := space, sys := true }

/-- The checks of a virtual address that need no translation (R28, R29, R126). -/
def vaCond (a : Access) (space : Nat) (va : DWord) : Option Cond :=
  if !canonical va then some { cause := .translate, reason := 4, addr := va.toNat, info := space }
  else if va.toNat % a.size != 0 then some { cause := .misalign, addr := va.toNat, info := space }
  else none

/-- The resident block of a grid, or of a mill's stage, that is the oldest on a core (R231). -/
def exportBlock (s : State) (core gid stage : Nat) : Option Nat :=
  let bs := s.blocks.filter fun e => e.2.bst == .resident && e.2.core == core && e.2.gid == gid && e.2.stage == stage
  (bs.foldl (fun (m : Option (Nat × Block)) e =>
    match m with
    | none => some e
    | some x => if e.2.age < x.2.age then some e else some x) none).map (·.1)

/-- The block whose allocation a cluster access of target `t` by a block reaches (R231). -/
def clusterTargetOf (s : State) (blk t : Nat) : Option Nat :=
  let b := s.block blk
  if t = 0 then some blk
  else exportBlock s (clusterBase b.core + (b.core % 4 ^^^ t)) b.gid b.stage

/-- The same for the block at issue. -/
def clusterTarget (s : State) (t : Nat) : Option Nat := clusterTargetOf s s.iss.blk t

/-- A scratchpad access (R179-R181): its lane places, if any, are in the block's own allocation. -/
def spmIssue (a : Access) (base : VReg) (imm : Nat) (s : State) : Host.Outcome State Fault Refusal :=
  memIssue a [a.group, one base] (fun _ => false)
    (fun s l => spmCond a 0 (offsetAddr (s.lane l) base imm) (some (s.launch s.iss.blk).spm))
    (fun s l =>
      let o := offsetAddr (s.lane l) base imm
      { laneAcc s a l o with st := .ready o false false, aux := s.iss.blk }) s

/-- A cluster access (R242, R243): its target allocation is resolved as it leaves the core (R245). -/
def clusterIssue (a : Access) (base : VReg) (imm : Nat) (s : State) : Host.Outcome State Fault Refusal :=
  memIssue a [a.group, one base] (fun _ => false)
    (fun s l => spmCond a 1 (offsetAddr (s.lane l) base imm)
      ((clusterTarget s a.target).map fun b => (s.launch b).spm))
    (fun s l =>
      let o := offsetAddr (s.lane l) base imm
      { laneAcc s a l o with st := .ready o false false, aux := (clusterTarget s a.target).getD 0 }) s

/-- A load from the constant bank (R182). -/
def constIssue (a : Access) (x : VReg) (imm : Nat) (s : State) : Host.Outcome State Fault Refusal :=
  memIssue a [a.group, one x] (fun _ => false)
    (fun s l =>
      let o := offsetAddr (s.lane l) x imm % 65536
      if o % a.size != 0 then some { cause := .misalign, addr := o, info := 4 } else none)
    (fun s l =>
      let o := offsetAddr (s.lane l) x imm % 65536
      { laneAcc s a l o with st := .ready o false false }) s

/-- An access at a virtual address of a space: global (R126), plate (R247) or host (R250). -/
def vaIssue (a : Access) (space : Nat) (base : VReg) (imm : Nat) (s : State) : Host.Outcome State Fault Refusal :=
  memIssue a [a.group, two base]
    (fun s => missStall s (s.iss.lanes.map fun l => ((s.lane l).pair base.toNat + BitVec.ofNat 64 imm).toNat))
    (fun s l => vaCond a space ((s.lane l).pair base.toNat + BitVec.ofNat 64 imm))
    (fun s l => laneAcc s a l ((s.lane l).pair base.toNat + BitVec.ofNat 64 imm).toNat) s

/-- PFG and PFP (R131, R248, R377): a lane whose address is canonical asks for its line; no trap, no counter. -/
def prefetchIssue (a : Access) (base : VReg) (imm : Nat) (s : State) : Host.Outcome State Fault Refusal :=
  issue { permitted := fun k => k.permits .memory, regs := [two base], poison := .lanes }
    (fun s => issueBusy s [two base] [] || s.iss.lanes.any (heldFull s) ||
      missStall s (s.iss.lanes.map fun l => ((s.lane l).pair base.toNat + BitVec.ofNat 64 imm).toNat))
    (fun s =>
      let va := fun l => (s.lane l).pair base.toNat + BitVec.ofNat 64 imm
      let ok := s.iss.lanes.filter fun l => canonical (va l)
      let s' := advanceAll s
      if ok.isEmpty then s'
      else addOp s' { issuedOp s a (ok.map fun l => { lane := l, addr := (va l).toNat }) (laneMask ok) with kind := .prefetch }) s

/-! ## The instructions -/

/-- LDS_32 (R180): Load a word from the block's SPM. -/
def execLds32 (d : VReg) (base : VReg) (i : BitVec 8) (s : State) : Host.Outcome State Fault Refusal :=
  spmIssue ((accessOf (.lds32 d base i)).getD {}) base (4 * i.toNat) s

/-- LDS_64 (R180): Load a pair from SPM. -/
def execLds64 (d : VReg) (base : VReg) (i : BitVec 8) (s : State) : Host.Outcome State Fault Refusal :=
  spmIssue ((accessOf (.lds64 d base i)).getD {}) base (4 * i.toNat) s

/-- LDS_128 (R180): Load a quad from SPM. -/
def execLds128 (d : VReg) (base : VReg) (i : BitVec 8) (s : State) : Host.Outcome State Fault Refusal :=
  spmIssue ((accessOf (.lds128 d base i)).getD {}) base (4 * i.toNat) s

/-- STS_32 (R180): Store a word to SPM. -/
def execSts32 (d : VReg) (base : VReg) (i : BitVec 8) (s : State) : Host.Outcome State Fault Refusal :=
  spmIssue ((accessOf (.sts32 d base i)).getD {}) base (4 * i.toNat) s

/-- STS_64 (R180): Store a pair to SPM. -/
def execSts64 (d : VReg) (base : VReg) (i : BitVec 8) (s : State) : Host.Outcome State Fault Refusal :=
  spmIssue ((accessOf (.sts64 d base i)).getD {}) base (4 * i.toNat) s

/-- STS_128 (R180): Store a quad to SPM. -/
def execSts128 (d : VReg) (base : VReg) (i : BitVec 8) (s : State) : Host.Outcome State Fault Refusal :=
  spmIssue ((accessOf (.sts128 d base i)).getD {}) base (4 * i.toNat) s

/-- ATS_ADD_32 (R181): Atomic add in SPM. -/
def execAtsAdd32 (d : VReg) (base : VReg) (i : BitVec 8) (s : State) : Host.Outcome State Fault Refusal :=
  spmIssue ((accessOf (.atsAdd32 d base i)).getD {}) base (4 * i.toNat) s

/-- ATS_EXCH_32 (R181): Atomic exchange in SPM. -/
def execAtsExch32 (d : VReg) (base : VReg) (i : BitVec 8) (s : State) : Host.Outcome State Fault Refusal :=
  spmIssue ((accessOf (.atsExch32 d base i)).getD {}) base (4 * i.toNat) s

/-- LDN_32 (R243): Load a word from a cluster core's SPM. -/
def execLdn32 (d : VReg) (base : VReg) (t : BitVec 2) (o : Order) (i : BitVec 4) (s : State) : Host.Outcome State Fault Refusal :=
  clusterIssue ((accessOf (.ldn32 d base t o i)).getD {}) base (16 * i.toNat) s

/-- LDN_64 (R243): Load a pair from cluster SPM. -/
def execLdn64 (d : VReg) (base : VReg) (t : BitVec 2) (o : Order) (i : BitVec 4) (s : State) : Host.Outcome State Fault Refusal :=
  clusterIssue ((accessOf (.ldn64 d base t o i)).getD {}) base (16 * i.toNat) s

/-- LDN_128 (R243): Load a quad from cluster SPM. -/
def execLdn128 (d : VReg) (base : VReg) (t : BitVec 2) (o : Order) (i : BitVec 4) (s : State) : Host.Outcome State Fault Refusal :=
  clusterIssue ((accessOf (.ldn128 d base t o i)).getD {}) base (16 * i.toNat) s

/-- STN_32 (R243): Store a word to cluster SPM. -/
def execStn32 (d : VReg) (base : VReg) (t : BitVec 2) (o : Order) (i : BitVec 4) (s : State) : Host.Outcome State Fault Refusal :=
  clusterIssue ((accessOf (.stn32 d base t o i)).getD {}) base (16 * i.toNat) s

/-- STN_64 (R243): Store a pair to cluster SPM. -/
def execStn64 (d : VReg) (base : VReg) (t : BitVec 2) (o : Order) (i : BitVec 4) (s : State) : Host.Outcome State Fault Refusal :=
  clusterIssue ((accessOf (.stn64 d base t o i)).getD {}) base (16 * i.toNat) s

/-- STN_128 (R243): Store a quad to cluster SPM. -/
def execStn128 (d : VReg) (base : VReg) (t : BitVec 2) (o : Order) (i : BitVec 4) (s : State) : Host.Outcome State Fault Refusal :=
  clusterIssue ((accessOf (.stn128 d base t o i)).getD {}) base (16 * i.toNat) s

/-- ATN_ADD_32 (R243): Atomic add in cluster SPM. -/
def execAtnAdd32 (d : VReg) (base : VReg) (t : BitVec 2) (o : Order) (i : BitVec 4) (s : State) : Host.Outcome State Fault Refusal :=
  clusterIssue ((accessOf (.atnAdd32 d base t o i)).getD {}) base (16 * i.toNat) s

/-- ATN_EXCH_32 (R243): Atomic exchange in cluster SPM. -/
def execAtnExch32 (d : VReg) (base : VReg) (t : BitVec 2) (o : Order) (i : BitVec 4) (s : State) : Host.Outcome State Fault Refusal :=
  clusterIssue ((accessOf (.atnExch32 d base t o i)).getD {}) base (16 * i.toNat) s

/-- LDG_Z8 (R127): Global load of a zero-extended byte. -/
def execLdgZ8 (d : VReg) (a : VReg) (o : Order) (sc : Scope) (p : Policy) (s : State) : Host.Outcome State Fault Refusal :=
  vaIssue ((accessOf (.ldgZ8 d a o sc p)).getD {}) 2 a 0 s

/-- LDG_S8 (R127): Global load of a sign-extended byte. -/
def execLdgS8 (d : VReg) (a : VReg) (o : Order) (sc : Scope) (p : Policy) (s : State) : Host.Outcome State Fault Refusal :=
  vaIssue ((accessOf (.ldgS8 d a o sc p)).getD {}) 2 a 0 s

/-- LDG_Z16 (R127): Global load of a zero-extended half. -/
def execLdgZ16 (d : VReg) (a : VReg) (o : Order) (sc : Scope) (p : Policy) (s : State) : Host.Outcome State Fault Refusal :=
  vaIssue ((accessOf (.ldgZ16 d a o sc p)).getD {}) 2 a 0 s

/-- LDG_S16 (R127): Global load of a sign-extended half. -/
def execLdgS16 (d : VReg) (a : VReg) (o : Order) (sc : Scope) (p : Policy) (s : State) : Host.Outcome State Fault Refusal :=
  vaIssue ((accessOf (.ldgS16 d a o sc p)).getD {}) 2 a 0 s

/-- LDG_32 (R127): Global word load. -/
def execLdg32 (d : VReg) (a : VReg) (o : Order) (sc : Scope) (p : Policy) (s : State) : Host.Outcome State Fault Refusal :=
  vaIssue ((accessOf (.ldg32 d a o sc p)).getD {}) 2 a 0 s

/-- LDG_64 (R127): Global pair load. -/
def execLdg64 (d : VReg) (a : VReg) (o : Order) (sc : Scope) (p : Policy) (s : State) : Host.Outcome State Fault Refusal :=
  vaIssue ((accessOf (.ldg64 d a o sc p)).getD {}) 2 a 0 s

/-- LDG_128 (R127): Global quad load. -/
def execLdg128 (d : VReg) (a : VReg) (o : Order) (sc : Scope) (p : Policy) (s : State) : Host.Outcome State Fault Refusal :=
  vaIssue ((accessOf (.ldg128 d a o sc p)).getD {}) 2 a 0 s

/-- STG_8 (R127): Global byte store. -/
def execStg8 (d : VReg) (a : VReg) (o : Order) (sc : Scope) (p : Policy) (s : State) : Host.Outcome State Fault Refusal :=
  vaIssue ((accessOf (.stg8 d a o sc p)).getD {}) 2 a 0 s

/-- STG_16 (R127): Global half store. -/
def execStg16 (d : VReg) (a : VReg) (o : Order) (sc : Scope) (p : Policy) (s : State) : Host.Outcome State Fault Refusal :=
  vaIssue ((accessOf (.stg16 d a o sc p)).getD {}) 2 a 0 s

/-- STG_32 (R127): Global word store. -/
def execStg32 (d : VReg) (a : VReg) (o : Order) (sc : Scope) (p : Policy) (s : State) : Host.Outcome State Fault Refusal :=
  vaIssue ((accessOf (.stg32 d a o sc p)).getD {}) 2 a 0 s

/-- STG_64 (R127): Global pair store. -/
def execStg64 (d : VReg) (a : VReg) (o : Order) (sc : Scope) (p : Policy) (s : State) : Host.Outcome State Fault Refusal :=
  vaIssue ((accessOf (.stg64 d a o sc p)).getD {}) 2 a 0 s

/-- STG_128 (R127): Global quad store. -/
def execStg128 (d : VReg) (a : VReg) (o : Order) (sc : Scope) (p : Policy) (s : State) : Host.Outcome State Fault Refusal :=
  vaIssue ((accessOf (.stg128 d a o sc p)).getD {}) 2 a 0 s

/-- PFG (R131): Prefetch a global line; never traps on its address. -/
def execPfg (a : VReg) (p : Policy) (s : State) : Host.Outcome State Fault Refusal :=
  prefetchIssue { space := .global, policy := p } a 0 s

/-- ATG_32 (R132): 32-bit global atomic read-modify-write at the home L2. -/
def execAtg32 (d : VReg) (a : VReg) (f : AtomFn) (o : Order) (sc : Scope) (s : State) : Host.Outcome State Fault Refusal :=
  vaIssue ((accessOf (.atg32 d a f o sc)).getD {}) 2 a 0 s

/-- ATG_64 (R132): 64-bit global atomic read-modify-write. -/
def execAtg64 (d : VReg) (a : VReg) (f : AtomFn) (o : Order) (sc : Scope) (s : State) : Host.Outcome State Fault Refusal :=
  vaIssue ((accessOf (.atg64 d a f o sc)).getD {}) 2 a 0 s

/-- ATF_32 (R133): FP32 global atomic add, min or max. -/
def execAtf32 (d : VReg) (a : VReg) (f : AtfFn) (o : Order) (sc : Scope) (s : State) : Host.Outcome State Fault Refusal :=
  vaIssue ((accessOf (.atf32 d a f o sc)).getD {}) 2 a 0 s

/-- LDP_32 (R247): Plate-view word load. -/
def execLdp32 (d : VReg) (base : VReg) (i : BitVec 8) (s : State) : Host.Outcome State Fault Refusal :=
  vaIssue ((accessOf (.ldp32 d base i)).getD {}) 3 base (16 * i.toNat) s

/-- LDP_64 (R247): Plate-view pair load. -/
def execLdp64 (d : VReg) (base : VReg) (i : BitVec 8) (s : State) : Host.Outcome State Fault Refusal :=
  vaIssue ((accessOf (.ldp64 d base i)).getD {}) 3 base (16 * i.toNat) s

/-- LDP_128 (R247): Plate-view quad load. -/
def execLdp128 (d : VReg) (base : VReg) (i : BitVec 8) (s : State) : Host.Outcome State Fault Refusal :=
  vaIssue ((accessOf (.ldp128 d base i)).getD {}) 3 base (16 * i.toNat) s

/-- PFP (R248): Prefetch a plate line into the local L2. -/
def execPfp (base : VReg) (i : BitVec 8) (s : State) : Host.Outcome State Fault Refusal :=
  prefetchIssue { space := .plate } base (16 * i.toNat) s

/-- LDCB_32 (R182): Constant-bank word load. -/
def execLdcb32 (d : VReg) (x : VReg) (i : BitVec 8) (s : State) : Host.Outcome State Fault Refusal :=
  constIssue ((accessOf (.ldcb32 d x i)).getD {}) x (4 * i.toNat) s

/-- LDCB_64 (R182): Constant-bank pair load. -/
def execLdcb64 (d : VReg) (x : VReg) (i : BitVec 8) (s : State) : Host.Outcome State Fault Refusal :=
  constIssue ((accessOf (.ldcb64 d x i)).getD {}) x (4 * i.toNat) s

/-- LDCB_128 (R182): Constant-bank quad load. -/
def execLdcb128 (d : VReg) (x : VReg) (i : BitVec 8) (s : State) : Host.Outcome State Fault Refusal :=
  constIssue ((accessOf (.ldcb128 d x i)).getD {}) x (4 * i.toNat) s

/-- LDH_32 (R250): Host-window word load. -/
def execLdh32 (d : VReg) (base : VReg) (o : Order) (s : State) : Host.Outcome State Fault Refusal :=
  vaIssue ((accessOf (.ldh32 d base o)).getD {}) 5 base 0 s

/-- LDH_64 (R250): Host-window pair load. -/
def execLdh64 (d : VReg) (base : VReg) (o : Order) (s : State) : Host.Outcome State Fault Refusal :=
  vaIssue ((accessOf (.ldh64 d base o)).getD {}) 5 base 0 s

/-- STH_32 (R250): Host-window word store. -/
def execSth32 (d : VReg) (base : VReg) (o : Order) (s : State) : Host.Outcome State Fault Refusal :=
  vaIssue ((accessOf (.sth32 d base o)).getD {}) 5 base 0 s

/-- STH_64 (R250): Host-window pair store. -/
def execSth64 (d : VReg) (base : VReg) (o : Order) (s : State) : Host.Outcome State Fault Refusal :=
  vaIssue ((accessOf (.sth64 d base o)).getD {}) 5 base 0 s

/-- ATH_ADD_64 (R250): Host FetchAdd AtomicOp. -/
def execAthAdd64 (d : VReg) (base : VReg) (o : Order) (s : State) : Host.Outcome State Fault Refusal :=
  vaIssue ((accessOf (.athAdd64 d base o)).getD {}) 5 base 0 s

/-- ATH_CAS_64 (R250): Host CAS AtomicOp. -/
def execAthCas64 (d : VReg) (base : VReg) (o : Order) (s : State) : Host.Outcome State Fault Refusal :=
  vaIssue ((accessOf (.athCas64 d base o)).getD {}) 5 base 0 s

/-- ATH_EXCH_64 (R250): Host Swap AtomicOp. -/
def execAthExch64 (d : VReg) (base : VReg) (o : Order) (s : State) : Host.Outcome State Fault Refusal :=
  vaIssue ((accessOf (.athExch64 d base o)).getD {}) 5 base 0 s

end Sys2Proof.Machine
end

