-- ==== Sys2Proof/Machine/MemEvents.lean ====
section
/-!
DEFINITION. The steps that carry an outstanding memory operation on: its translation, its place, and
its completion (R26, R126, R130, R219-R221, R237, R243-R251, R259-R268, R377, R382, R437).
-/
namespace Sys2Proof.Machine

/-! ## Operations and their lanes -/

def State.op? (s : State) (id : Nat) : Option MemOp := Sp.find? s.ops id
def State.setOp (s : State) (id : Nat) (o : MemOp) : State := { s with ops := Sp.put s.ops id o }
def State.dropOp (s : State) (id : Nat) : State := { s with ops := Sp.del s.ops id }

/-- The access of a lane of an operation. -/
def MemOp.lane? (o : MemOp) (l : Nat) : Option LaneAcc := o.lanes.find? (·.lane == l)

/-- The operation with the access of a lane replaced. -/
def MemOp.setLane (o : MemOp) (a : LaneAcc) : MemOp :=
  { o with lanes := o.lanes.map fun x => if x.lane == a.lane then a else x }

/-- The state with the access of a lane of an operation replaced. -/
def setAcc (s : State) (id : Nat) (a : LaneAcc) : State :=
  match s.op? id with
  | some o => s.setOp id (o.setLane a)
  | none => s

/-- Whether an access still awaits its place. -/
def LaneAcc.pending (a : LaneAcc) : Bool :=
  match a.st with
  | .held => true
  | .ready _ _ _ => true
  | .served => false
  | .withdrawn => false

/-- The lanes of an operation that have completed it: the partial-completion mask (R384). DEDUCED (log 33). -/
def MemOp.doneMask (o : MemOp) : Nat := laneMask ((o.lanes.filter fun a => a.st == .served).map (·.lane))

/-- The code of a memory space in SPACE (R56, R381). -/
def MSpace.code : MSpace → Nat
  | .spm => 0
  | .cluster => 1
  | .global => 2
  | .plate => 3
  | .const => 4
  | .host => 5

/-! ## Faults of outstanding accesses (R126, R377, R382-R386) -/

/-- The operation whose failure a park entry records, of the weft that has just parked. -/
def noteParkOp (s : State) (b w id : Nat) : State := s.setWeft b w { s.weft b w with parkOp := some id }

/-- An access that meets a system fault stands as held again, to be captured; a return-stack access whose CALL or
RET has not ended restarts it, and one whose CALL has gone on is sent again (R27, R377). -/
def failAcc (s : State) (id : Nat) (o : MemOp) (a : LaneAcc) : State :=
  if !o.acc.fn.isStack then setAcc s id { a with st := .held, trip := .none, link := false }
  else if (s.thread o.blk o.weft a.lane).hold = some id then restartStack s o.blk o.weft a.lane
  else setAcc s id { a with trip := .none }

/-- A system fault that an access of a lane meets after issue (R382): under DELIVER a lane in RUN takes it as a
trap, and that of a lane that is DONE is discarded (R136, R385); otherwise the weft parks and every held operation
of it is captured. -/
def accSystemFault (s : State) (id : Nat) (o : MemOp) (a : LaneAcc) (c : Cond) : State :=
  let t := s.thread o.blk o.weft a.lane
  if a.deliver && t.tst == .done then setAcc s id { a with st := .withdrawn }
  else
    let s := failAcc s id o a
    let s := systemFault s o.blk o.weft [(a.lane, c)] (if a.deliver then 1 <<< a.lane else 0) o.issue o.doneMask
      (if t.tst == .trap then t.pc else o.pc) o.acc.fn.isStack
    if (s.weft o.blk o.weft).park.isSome then captureWeft (noteParkOp s o.blk o.weft id) o.blk o.weft else s

/-- The operation without a lane, which took a precise trap on it (R383, R384). -/
def MemOp.without (o : MemOp) (l : Nat) : MemOp :=
  { o with issue := laneMask ((maskLanes o.issue).filter (· != l)) }

/-- PLATEWRITE or SEALED: a precise trap of the lane at the instruction, which reads and writes nothing (R126). -/
def accPreciseTrap (s : State) (id : Nat) (o : MemOp) (a : LaneAcc) (c : Cond) : State :=
  let s := s.setOp id ((o.setLane { a with st := .withdrawn }).without a.lane)
  let t := s.thread o.blk o.weft a.lane
  let s := s.setThread o.blk o.weft a.lane (if o.acc.fn = .spill then undoCall t o.pc a else { t with pc := o.pc })
  deliverTrap s o.blk o.weft a.lane c o.issue o.doneMask

/-- Whether an access reads, and whether it writes (R126). -/
def AccFn.reads : AccFn → Bool
  | .load => true
  | .store => false
  | .atom _ => true
  | .fatom _ => true
  | .spill => false
  | .refill => true
def AccFn.writes : AccFn → Bool
  | .load => false
  | .store => true
  | .atom _ => true
  | .fatom _ => true
  | .spill => true
  | .refill => false

/-- What an access does at its page (R216). -/
def Access.pageUse (a : Access) : PageUse :=
  { reads := a.fn.reads, writes := a.fn.writes, host := a.space == .host }

/-- The check of an access against its page (R126, R217, R247, R250). -/
def checkAccess (s : State) (o : MemOp) (a : LaneAcc) (t : TlbEnt) : Option (Cause × Nat) :=
  match o.acc.space with
  | .global => checkGlobal s (s.viOf o.blk) (s.asnOf o.blk) (a.addr % 2 ^ 57) t o.acc.fn.reads o.acc.fn.writes
  | .plate => checkPlate t
  | .host => checkHost s t o.acc.fn.reads o.acc.fn.writes
  | .spm => none
  | .cluster => none
  | .const => none

/-- A translated access awaits its place, and one of a plate page has a single place (R235); the lane of a
translated spill issues again (R24, R126). -/
def accReady (s : State) (id : Nat) (o : MemOp) (a : LaneAcc) (t : TlbEnt) : State :=
  let s := setAcc s id { a with st := .ready (t.phys (a.addr % 2 ^ 57)) t.nc t.plate, left := if t.plate then 1 else a.left }
  match o.acc.fn with
  | .spill =>
    let th := s.thread o.blk o.weft a.lane
    s.setThread o.blk o.weft a.lane { th with hold := none }
  | _ => s

/-- The outcome of a lane's translation and checks (R126, R219, R382). -/
def accTranslate (s : State) (id : Nat) (o : MemOp) (a : LaneAcc) : State :=
  let parked := (s.weft o.blk o.weft).park.isSome
  let fault := fun (s' : State) (c : Cond) => if parked then s else accSystemFault s' id o a { c with sys := false }
  match translate s o.core (s.viOf o.blk) (s.asnOf o.blk) (a.addr % 2 ^ 57) o.acc.pageUse with
  | (.wait, s') => s'
  | (.fault c r, s') =>
    if o.kind = .prefetch then setAcc s' id { a with st := .served }
    else fault s' (walkCond c r a.addr o.acc.space.code)
  | (.ok t, s') =>
    match checkAccess s' o a t with
    | none => if o.kind = .prefetch && t.nc then setAcc s' id { a with st := .served } else accReady s' id o a t
    | some (c, r) =>
      if o.kind = .prefetch then setAcc s' id { a with st := .served }
      else if c = .protect then fault s' { cause := c, addr := a.addr, info := o.acc.space.code }
      else accPreciseTrap s' id o a { cause := c, reason := r, addr := a.addr }

/-- The block whose allocation a scratchpad or cluster access reaches (R179, R231). -/
def MemOp.target (s : State) (o : MemOp) : Option Nat :=
  if o.acc.space == .cluster then clusterTargetOf s o.blk o.acc.target else some o.blk

/-- A re-injected scratchpad or cluster access is checked anew, and leaves for its allocation (R179, R243, R245,
R385). -/
def accResolve (s : State) (id : Nat) (o : MemOp) (a : LaneAcc) : State :=
  match spmCond o.acc o.acc.space.code a.addr ((o.target s).map fun b => (s.launch b).spm) with
  | none => setAcc s id { a with st := .ready a.addr false false, aux := (o.target s).getD 0 }
  | some c => if (s.weft o.blk o.weft).park.isSome then s else accSystemFault s id o a { c with sys := false }

/-- PAGE_WALK (R212-R220): the translation of a held access of a lane, from a TLB or by a walk, and
the checks that follow it. DEDUCED (log 41). -/
def execPageWalk (op lane : Nat) (s : State) : Host.Outcome State Fault Refusal :=
  match s.op? op with
  | none => .next s
  | some o =>
    match o.lane? lane with
    | none => .next s
    | some a =>
      .next (if a.st != .held then s
        else if o.acc.space == .spm || o.acc.space == .cluster then accResolve s op o a
        else accTranslate s op o a)

/-! ## The order of a thread's accesses (R30, R244, R251, R261, R262, R267) -/

/-- Whether an access is an acquire, and whether it is a release; an SC access is both (R128, R244, R262).
DEDUCED (log 188). -/
def Access.acquires (a : Access) : Bool := a.order == .sc || (a.order != .rlx && a.fn.reads)
def Access.releases (a : Access) : Bool := a.order == .sc || (a.order != .rlx && a.fn.writes)

/-- Whether two address ranges share a byte. -/
def rangesMeet (a n b m : Nat) : Bool := decide (a < b + m) && decide (b < a + n)

/-- The address that stands for a byte of either frame of a migrating page (R354, R355). -/
def frameAddr (s : State) (pa : Nat) : Nat :=
  match movedTo s pa true with
  | some m => m.pa
  | none => pa

/-- Whether two accesses may reach one byte, as far as their addresses are known: scratchpad bytes by block and
offset, others by physical address, in either frame of a migrating page, or, where one is not translated, by the
offset in its 4 KiB page, as two virtual pages may lie in one frame (R30, R355). -/
def sameBytes (s : State) (o : MemOp) (a : LaneAcc) (o' : MemOp) (a' : LaneAcc) : Bool :=
  let local? := fun x : MSpace => x == .spm || x == .cluster
  if local? o.acc.space && local? o'.acc.space then
    (a.aux == a'.aux || a.st == .held || a'.st == .held) && rangesMeet a.addr o.acc.size a'.addr o'.acc.size
  else if local? o.acc.space || local? o'.acc.space || o.acc.space == .const || o'.acc.space == .const then false
  else
    match a.st, a'.st with
    | .ready p _ _, .ready p' _ _ => rangesMeet (frameAddr s p) o.acc.size (frameAddr s p') o'.acc.size
    | _, _ => rangesMeet (a.addr % 4096) o.acc.size (a'.addr % 4096) o'.acc.size

/-- Whether an access writes global memory at WAF or SYS scope. -/
def MemOp.wideWrite (o : MemOp) : Bool :=
  o.acc.space == .global && o.acc.fn.writes && (o.acc.scope == .waf || o.acc.scope == .sys)

/-- Whether an access goes to a non-cacheable page, or may (R229). -/
def LaneAcc.nc (a : LaneAcc) : Bool :=
  match a.st with
  | .ready _ nc _ => nc
  | .held => true
  | .served => false
  | .withdrawn => false

/-- Whether an access is SC at WAF scope or wider: it has its place in the partition's SC order after its thread's
stores are performed at WAF scope (R443). -/
def Access.wideSc (a : Access) : Bool :=
  a.space == .global && a.order == .sc && (a.scope == .waf || a.scope == .sys)

/-- Whether access `e`, earlier in a thread's program order, must have its place before access `a` (R244, R251,
R261, R262, R443). -/
def mustPrecede (s : State) (o' : MemOp) (e : LaneAcc) (o : MemOp) (a : LaneAcc) : Bool :=
  o'.acc.acquires || o.acc.releases || (o'.acc.order == .sc && o.acc.order == .sc) ||
    (o.acc.wideSc && o'.acc.fn.writes) || (o'.acc.space == .host && o.acc.space == .host) ||
    (sameBytes s o' e o a &&
      (o'.acc.fn.writes || o.acc.fn.writes || e.nc || (o'.acc.scope != .blk && o.acc.scope != .blk)))

/-- A captured operation of a lane as the access that it will be again. -/
def ParkedOp.asOp (p : ParkedOp) : MemOp := { acc := (decodeAccess p.word).getD {} }
def ParkedOp.asAcc (p : ParkedOp) (l : Nat) : LaneAcc := { lane := l, addr := p.addr, data := p.data }

/-- The captured operations of a lane that some access or fence comes after in program order; a block that is being
saved or flushed does not wait for them (R244, R385, R402). -/
def capturedBefore (s : State) (o : MemOp) (l at_ : Nat) : List ParkedOp :=
  if (s.block o.blk).stopped then [] else ((s.thread o.blk o.weft l).parkq).filter fun p => decide (p.op < at_)

/-- Whether the access of a lane must wait for an earlier one of its thread (R127, R244, R261); an SC access also
waits for the invalidations of its thread's earlier SC writes (R267). -/
def waitsEarlier (s : State) (id : Nat) (o : MemOp) (a : LaneAcc) : Bool :=
  let at_ := o.place id
  (o.acc.order == .sc && unacknowledged s (domOf o.core) &&
    List.any s.ops fun x =>
      decide (x.2.place x.1 < at_) && x.2.kind == .access && x.2.ofWeft o.blk o.weft && x.2.wideWrite && x.2.acc.order == .sc &&
        x.2.lanes.any fun e => e.lane == a.lane && e.st == .served) ||
  (List.any s.ops fun x =>
    decide (x.2.place x.1 < at_) && x.2.kind == .access && x.2.ofWeft o.blk o.weft &&
      x.2.lanes.any fun e => e.lane == a.lane && e.pending && mustPrecede s x.2 e o a) ||
  (capturedBefore s o a.lane at_).any fun p => mustPrecede s p.asOp (p.asAcc a.lane) o a

/-- Whether the access of a lane must wait for another lane's: a write for that of a lower lane of its instruction to
the same byte, or a refill for an earlier spill of the weft there (R127, R132, R208). -/
def waitsLane (s : State) (id : Nat) (o : MemOp) (a : LaneAcc) : Bool :=
  let at_ := o.place id
  (o.acc.fn.writes && List.any s.ops fun x =>
    decide (x.2.place x.1 = at_) && x.2.ofWeft o.blk o.weft &&
      x.2.lanes.any fun e => decide (e.lane < a.lane) && e.pending && sameBytes s x.2 e o a) ||
  (o.acc.fn.writes && (List.range a.lane).any fun l =>
    (capturedBefore s o l (at_ + 1)).any fun p => p.op == at_ && sameBytes s p.asOp (p.asAcc l) o a) ||
  (o.acc.fn == .refill && List.any s.ops fun x =>
    decide (x.2.place x.1 < at_) && x.2.ofWeft o.blk o.weft && x.2.acc.fn == .spill &&
      x.2.lanes.any fun e => e.pending && sameBytes s x.2 e o a)

/-- Whether the access of a lane must wait for another access. -/
def mustWait (s : State) (id : Nat) (o : MemOp) (a : LaneAcc) : Bool := waitsEarlier s id o a || waitsLane s id o a

/-! ## What an access does at its place -/

/-- The new value of an atomic on `n` bits (R132). -/
def atomNew (f : AtomFn) (n old op cmp : Nat) : Nat :=
  let x := BitVec.ofNat n old
  let y := BitVec.ofNat n op
  match f with
  | .add => (x + y).toNat
  | .and => (x &&& y).toNat
  | .or => (x ||| y).toNat
  | .xor => (x ^^^ y).toNat
  | .smin => (if y.slt x then y else x).toNat
  | .smax => (if x.slt y then y else x).toNat
  | .exch => y.toNat
  | .cas => if x = BitVec.ofNat n cmp then y.toNat else x.toNat

/-- The new value of an FP32 atomic, which raises no flag (R133). -/
def fatomNew (f : AtfFn) (old op : Nat) : Nat :=
  match f with
  | .fadd => (fAdd fp32 0 (unpack fp32 old) (unpack fp32 op)).bits
  | .fmin => (fMinMax fp32 false old op).bits
  | .fmax => (fMinMax fp32 true old op).bits

/-- The new value of a location under an access that writes, from its old value and the operands. -/
def accNew (a : Access) (old data : Nat) : Nat :=
  let bits := 8 * a.size
  match a.fn with
  | .atom f => atomNew f bits (old % 2 ^ bits) (data / 2 ^ bits % 2 ^ bits) (data % 2 ^ bits)
  | .fatom f => fatomNew f (old % 2 ^ 32) (data / 2 ^ 32 % 2 ^ 32)
  | .store => data % 2 ^ bits
  | .spill => data % 2 ^ bits
  | .load => old
  | .refill => old

/-- An access to a scratchpad allocation (R179-R181, R243, R260, R310). -/
def spmAccess (s : State) (o : MemOp) (a : LaneAcc) : TryRead :=
  let b := s.block a.aux
  let old := b.spm.read a.addr o.acc.size
  let bad := if o.acc.fn.reads then ((List.range o.acc.size).filterMap fun i => Sp.find? b.spmBad ((a.addr + i) / 4)).head? else none
  if bad.isSome then .ok (s, old, bad)
  else if o.acc.fn.writes then
    let s := noteSpm s a.aux a.addr o.acc.size none
    let b := s.block a.aux
    .ok (s.setBlock a.aux { b with
      spm := b.spm.write a.addr o.acc.size (accNew o.acc old a.data)
      spmBad := b.spmBad.filter fun e => !(decide (a.addr ≤ 4 * e.1) && decide (4 * e.1 + 4 ≤ a.addr + o.acc.size)) }, old, none)
  else .ok (s, old, none)

/-- A read of a plate page at the issuing domain's L2, which holds the line from then on, but for NOL2A and for a
codeword that failed; KEEPL2 marks it (R228, R233, R235). -/
def plateLoad (s : State) (d pa n : Nat) (p : Policy) : TryRead :=
  match plateGet s pa n with
  | (s, v, some r) => .ok (s, v, some r)
  | (s, v, none) => do
    let s ←
      if plateHeld s d (lineOf pa) then keepAs s d (lineOf pa) p
      else if p = .noL2A then .ok s
      else do
        let s ← l2Room s d (lineOf pa)
        keepAs (s.setDomain d { s.domain d with plates := Sp.put (s.domain d).plates (lineOf pa) p }) d (lineOf pa) p
    .ok (s, v, none)

/-- The dirty bytes of a line leave the L1 of a core, and its domain's remote copy, for an access at the home
(R228, R229, R437). -/
def cleanToHome (s : State) (core line : Nat) : Try := do cleanRemote (← cleanL1 s (sliceOf s core line) line) (domOf core) line

/-- A global load (R223, R228, R229, R235, R259, R437). -/
def globalLoad (s : State) (o : MemOp) (pa n : Nat) (nc plate : Bool) : TryRead :=
  let d := domOf o.core
  let line := lineOf pa
  let p := o.acc.policy
  if plate then plateLoad s d pa n p
  else if nc then do readHome (← cleanToHome s o.core line) d pa n
  else
    match o.acc.scope with
    | .blk =>
      if p = .noL1 then do readL2 (← cleanL1 s (sliceOf s o.core line) line) d pa n p
      else loadL1 s o.core pa n p
    | .dom => do readL2 (← cleanL1 s (sliceOf s o.core line) line) d pa n p
    | _ => do
      let s ← cleanToHome s o.core line
      readHome (← keepAs s (lineHome line) line p) d pa n

/-- A global store (R23, R223, R228, R229, R259, R437). -/
def globalStore (s : State) (o : MemOp) (pa n x : Nat) (nc : Bool) : Try := do
  let d := domOf o.core
  let line := lineOf pa
  let p := o.acc.policy
  let s ← dropAliasL1 s o.core line
  let l1 := o.acc.scope = .blk ∧ p ≠ .noL1 ∧ !nc
  let wide := o.acc.scope = .waf ∨ o.acc.scope = .sys
  let s ←
    if l1 then storeL1 s o.core pa n x p (wkey o.blk o.weft)
    else if nc ∨ wide then do
      let s ← if nc then .ok s else keepAs s (lineHome line) line p
      .ok (updateL1 (← writeHome s d pa n x) o.core pa n x)
    else do .ok (updateL1 (← l2Write s d line (lineData pa n x) (byteMask (pa % 256) n) [] p [wkey o.blk o.weft]) o.core pa n x)
  .ok (noteStore s (some o.core) pa n x)

/-- The line leaves the issuing domain's caches for an atomic: the L1 cleans and drops it, and a
remote copy is cleaned and loses its valid sectors (R134, R437). -/
def atomPrepare (s : State) (core line : Nat) : Try := do
  let d := domOf core
  let s ← evictL1 (← dropAliasL1 s core line) (sliceOf s core line) line
  let s ← bothGates s d line
  let s ← dropAlias (← cleanRemote s d line) d line
  let s := match s.remLine d line with
    | some c => s.setRem d line { c with valid := 0 }
    | none => s
  homeGate s line

/-- A global atomic, at the home L2 (R132-R134, R437, R441). -/
def globalAtomic (s : State) (o : MemOp) (a : LaneAcc) (pa : Nat) : TryRead := do
  let n := o.acc.size
  let s ← atomPrepare s o.core (lineOf pa)
  let old := s.homeRead pa n
  match s.homeBad pa n with
  | some r => .ok (s, old, some r)
  | none =>
    let new := accNew o.acc old a.data
    let s := homeBytes s (lineOf pa) (lineData pa n new) (byteMask (pa % 256) n) []
    .ok (noteStore (dirWrite s (lineOf pa) (domOf o.core) true) (some o.core) pa n new, old, none)

/-- What a host access meets beyond the port (R250, R452, R453): a place in host memory, a place in a
peer's window, or a completion error; each with the address that an error records. -/
inductive HostPlace where
  | host (addr : Nat)
  | peer (port addr : Nat)
  | error (addr : Nat)
  deriving DecidableEq, Repr

/-- Resolve an access in the host aperture (R452, R453). -/
def hostPlace (s : State) (pa : Nat) : HostPlace :=
  let d := homeOf pa
  let o := offsetOf pa - 0x300000000000
  if o < 0x80000000000 then (if (s.domain d).portUp then .host o else .error o)
  else
    let port := d * 2 + (if o < 0xC0000000000 then 0 else 1)
    let w := o % 0x40000000000
    let p := Sp.get {} s.peers port
    if p.up ∧ w < p.farLen then .peer port w else .error w

/-- A host access, performed at the host's or the peer's completer (R250, R451, R453). -/
def hostAccess (s : State) (o : MemOp) (a : LaneAcc) : HostPlace → State × Nat
  | .host h =>
    let old := s.hostMem.read h o.acc.size
    (if o.acc.fn.writes then { s with hostMem := s.hostMem.write h o.acc.size (accNew o.acc old a.data) } else s, old)
  | .peer port w =>
    let p := Sp.get {} s.peers port
    let old := p.farMem.read w o.acc.size
    (if o.acc.fn.writes then
      { s with peers := Sp.put s.peers port { p with farMem := p.farMem.write w o.acc.size (accNew o.acc old a.data) } }
     else s, old)
  | .error _ => (s, 0)

/-- The place of an access of a lane, or of one of its 64-bit halves (R259, R268); both halves of a read of a
plate page are of one version (R235). -/
def accPlace (s : State) (o : MemOp) (a : LaneAcc) (half : Nat) : TryRead :=
  match a.st with
  | .ready pa nc plate =>
    let n := if o.acc.halves = 3 ∧ !plate then 8 else o.acc.size
    let p := pa + 8 * half
    match o.acc.space with
    | .spm => spmAccess s o a
    | .cluster => spmAccess s o a
    | .const => .ok (s, (s.launch o.blk).bank.read a.addr n, none)
    | .plate => plateLoad s (domOf o.core) p n .normal
    | .host => let r := hostAccess s o a (hostPlace s pa); .ok (r.1, r.2, none)
    | .global =>
      match o.acc.fn with
      | .atom _ => globalAtomic s o a pa
      | .fatom _ => globalAtomic s o a pa
      | .load => globalLoad s o p n nc plate
      | .refill => globalLoad s o p n nc plate
      | .store => do .ok (← globalStore s o p n (a.data / 2 ^ (64 * half) % 2 ^ (8 * n)) nc, 0, none)
      | .spill => do .ok (← globalStore s o p n (a.data % 2 ^ 64) nc, 0, none)
  | _ => .error s

/-- A prefetch of a line (R131, R228, R235, R248): the sectors that can be filled now come to the levels its policy
allows, or the plate line to the L2; what is dropped on its way does not come (R422). -/
def prefetchLine (s : State) (o : MemOp) (pa : Nat) (plate : Bool) : State :=
  let d := domOf o.core
  let line := lineOf pa
  let p := o.acc.policy
  let ask := fun (s : State) (way : Way) (f : State → State) =>
    match way with
    | .crosses => f s
    | .waits => s
    | .dropped at_ _ => noteDrop (drawClasses s) at_
  if plate then
    ask s (if plateHeld s d line then .crosses else wayTo s d (homeOf pa)) fun s =>
      match plateLoad s d (pa / 256 * 256) 256 p with
      | .ok (s, _, _) => s
      | .error s => s
  else
    (List.range 4).foldl (fun s sec =>
      ask s (l2Way s d line (64 * sec) 64) fun s =>
        tried (if p = .noL1 then l2Ready s d line (64 * sec) 64 p
          else do fillL1 (← allocL1 s o.core line p) o.core line sec p)) s

/-- The record of a placed half of an access, and the acquire that follows once its value is fixed (R262). -/
def accServed (s : State) (id : Nat) (o : MemOp) (a : LaneAcc) (half v : Nat) : State :=
  let left := if half = 0 then a.left / 2 * 2 else a.left % 2
  let a := { a with left := left, val := a.val ||| v * 2 ^ (64 * half), st := if left = 0 then .served else a.st }
  let s := setAcc s id a
  if left = 0 && o.acc.acquires then acquire s o.core o.acc.scope else s

/-- A failed host access (R237, R250): the lane's access parks the weft as PROTECT with the host address. -/
def hostError (s : State) (id : Nat) (o : MemOp) (a : LaneAcc) (addr : Nat) : State :=
  if (s.weft o.blk o.weft).park.isSome then s
  else accSystemFault s id o a { cause := .protect, addr := addr, info := 5 }

/-- Take an access to its place: first the actions of a release (R244), then the access, an acquire when it can
complete (R443); a poisoned word raises UNCORRECTABLE (R393). -/
def accServe (s : State) (id : Nat) (o : MemOp) (a : LaneAcc) (half : Nat) : State :=
  match if o.acc.releases || o.acc.wideSc then releaseTry s o.core o.acc.scope else .ok s with
  | .error s => s
  | .ok s =>
    if o.acc.acquires && !acquireReady s (domOf o.core) o.acc.scope then s else
    match o.acc.space, a.st with
    | .host, .ready pa _ _ =>
      match hostPlace s pa with
      | .error h => hostError s id o a h
      | p => let r := hostAccess s o a p; accServed r.1 id o a half r.2
    | _, _ =>
      match accPlace s o a half with
      | .error s => s
      | .ok (s, v, none) => accServed s id o a half v
      | .ok (s, _, some r) =>
        if (s.weft o.blk o.weft).park.isSome then s
        else accSystemFault s id o a { cause := .uncorrectable, reason := r, addr := a.addr, info := o.acc.space.code }

/-! ## Completion (R25, R130, R286) -/

/-- The result of a load or atomic, in the lane's registers (R127, R132, R180). -/
def accWrite (t : Thread) (a : Access) (v : Nat) : Thread :=
  match a.fn with
  | .store => t
  | .spill => t
  | .refill => t
  | _ =>
    if a.size = 16 then t.setQuad a.dest (BitVec.ofNat 128 v)
    else if a.size = 8 then t.setPair a.dest (BitVec.ofNat 64 v)
    else if a.signed then t.setReg a.dest (BitVec.signExtend 32 (BitVec.ofNat (8 * a.size) v))
    else t.setReg a.dest (BitVec.ofNat 32 (v % 2 ^ (8 * a.size)))

/-- The end of a RET in a lane: it goes on, or its target traps (R25, R121). -/
def endRet (s : State) (o : MemOp) (a : LaneAcc) (t : Thread) : LaneRes → State
  | .trap c =>
    deliverTrap (s.setThread o.blk o.weft a.lane { t with hold := none }) o.blk o.weft a.lane c o.issue o.doneMask
  | .goto t => s.setThread o.blk o.weft a.lane t
  | .next t => s.setThread o.blk o.weft a.lane t

/-- What the completion of an access does in its lane: a result is written; a RET goes on (R25). -/
def accComplete (s : State) (o : MemOp) (a : LaneAcc) : State :=
  if a.st != .served then s
  else
    let t := s.thread o.blk o.weft a.lane
    let target := BitVec.ofNat 64 a.val
    match o.acc.fn with
    | .refill => endRet s o a t (if a.aux = 1 then popRet t target else refillRet t target)
    | _ => s.setThread o.blk o.weft a.lane (accWrite t o.acc a.val)

/-- Whether a lane's access counts as completed: it has its place, or the port has put its write to the host on the
link; and its response is back (R130, R251). -/
def LaneAcc.counted (a : LaneAcc) : Bool :=
  a.st == .withdrawn || ((a.st == .served || a.link) && (a.trip == .none || a.trip == .back))

/-- Whether every lane of an operation has completed: a store at WAF scope or wider also needs its invalidations
accepted (R130, R437). -/
def opFinished (s : State) (o : MemOp) : Bool :=
  o.lanes.all LaneAcc.counted && (!o.wideWrite || !unacknowledged s (domOf o.core))

/-- Whether a write to the host is still to be performed there (R251). -/
def MemOp.onLink (o : MemOp) : Bool := o.lanes.any fun a => a.link && a.pending

/-- The entry that a pending weft will post, with the lanes that have completed the failing instruction by now
(R220). -/
def parkDone (x : Weft) (id : Nat) (o : MemOp) : Option FqEntry :=
  if x.pending && x.parkOp == some id then x.park.map fun e => { e with done := o.doneMask } else x.park

/-- Retire an operation's entry in a counter of its weft (R286). -/
def retireEntry (s : State) (id : Nat) (o : MemOp) (c : Counter) : State :=
  let x := s.weft o.blk o.weft
  s.setWeft o.blk o.weft { x.setCounter c (countDone (x.counter c) id) with park := parkDone x id o }

/-- Retire an operation and its entry in a counter of its weft (R286). -/
def retireOp (s : State) (id : Nat) (o : MemOp) (c : Counter) : State := (retireEntry s id o c).dropOp id

/-- MEM_COMPLETE (R88, R130, R251): an operation's results reach their registers and its counter entry retires; a
write that stands on the host link stays until it is performed. -/
def execMemComplete (op : Nat) (s : State) : Host.Outcome State Fault Refusal :=
  match s.op? op with
  | none => .next s
  | some o =>
    if opFinished s o then
      match o.kind with
      | .access =>
        .next (if o.onLink then retireEntry s op o o.acc.fn.counter
          else retireOp (o.lanes.foldl (fun s a => accComplete s o a) s) op o o.acc.fn.counter)
      | .prefetch => .next (s.dropOp op)
      | _ => .next s
    else .next s

/-- HOST_COMPLETION_TIMEOUT (R250): a host access of a lane ends in a completion error. -/
def execHostCompletionTimeout (op lane : Nat) (s : State) : Host.Outcome State Fault Refusal :=
  match s.op? op with
  | none => .next s
  | some o =>
    match o.lane? lane with
    | none => .next s
    | some a =>
      match a.st, o.acc.space with
      | .ready pa _ _, .host =>
        let addr := match hostPlace s pa with
          | .host h => h
          | .peer _ w => w
          | .error h => h
        .next (hostError s op o a addr)
      | _, _ => .next s

/-- INVALIDATION_ACCEPT (R440, R441, R446): the bank of the target accepts an invalidation, if its queue has room; or
the host, as target 64, completes a back-invalidation. -/
def execInvalidationAccept (dom line target : Nat) (s : State) : Host.Outcome State Fault Refusal :=
  let h := s.domain dom
  match h.snoops.find? (fun i => i.line == line && i.target == target) with
  | some i => .next (s.setDomain dom { h with snoops := h.snoops.erase i })
  | none =>
  match h.busy.find? (fun i => i.line == line && i.target == target) with
  | none => .next s
  | some i =>
    let bank := bankOf s target line
    if wayTo s dom target ≠ .crosses then .next s
    else
    let q := Sp.get [] (s.domain target).invq bank
    if 64 ≤ q.length then .next s
    else
      let s := s.setDomain dom { h with busy := h.busy.erase i }
      .next (s.setDomain target { s.domain target with invq := Sp.put (s.domain target).invq bank (q ++ [line]) })

/-- INVALIDATION_APPLY (R440): a bank applies the oldest invalidation of its queue. -/
def execInvalidationApply (dom bank : Nat) (s : State) : Host.Outcome State Fault Refusal :=
  match Sp.get [] (s.domain dom).invq bank with
  | [] => .next s
  | line :: q =>
    .next (applyInval (s.setDomain dom { s.domain dom with invq := Sp.set [] (s.domain dom).invq bank q }) dom line)

/-- PARK_PENDING_ADMIT (R220): the park-pending weft of the domain whose fault arose first takes a free place. -/
def execParkPendingAdmit (dom : Nat) (s : State) : Host.Outcome State Fault Refusal :=
  if 1024 ≤ parkedIn s dom then .next s
  else
    match s.pendq.find? (fun x => domOf (s.block x.1).core == dom) with
    | none => .next s
    | some x =>
      let w := s.weft x.1 x.2
      let park := match w.parkOp.bind fun id => (s.op? id).map fun o => parkDone w id o with
        | some e => e
        | none => w.park
      let s := { s with pendq := s.pendq.erase x }
      .next (postFault (s.setWeft x.1 x.2 { w with pending := false, park := park }) (s.viOf x.1) (.weft x.1 x.2))

/-- KEEP_MARK_CLEAR (R233): system software clears a domain's keep marks. -/
def execKeepMarkClear (dom : Nat) (s : State) : Host.Outcome State Fault Refusal :=
  .next (s.setDomain dom { s.domain dom with keep := [] })

end Sys2Proof.Machine
end

