-- ==== Sys2Proof/Machine/Sync.lean ====
section
/-!
DEFINITION. Named barriers, FENCE, SEAL, UNSEAL, CWB and WAITCNT (R183-R187, R252-R257, R269, R287).
-/
namespace Sys2Proof.Machine

/-! ## Barriers (R183-R187) -/

/-- Barrier `n` of a block. -/
def Block.bar (b : Block) (n : Nat) : Barrier := Sp.get {} b.bars n

/-- The BARRIER condition of barrier `n`: source, code and first failing address (R381). -/
def barrierCond (n src code addr : Nat) : Cond :=
  { cause := .barrier, addr := addr, info := code % 256 + src * 256 + n * 4096 }

/-- The lanes of a block that wait on a barrier, as weft and lane. -/
def barWaiters (s : State) (b n : Nat) : List (Nat × Nat) :=
  ((List.range (s.launch b).wefts).map fun w =>
    ((List.range 32).filter fun l =>
      match (s.thread b w l).tst, (s.thread b w l).wait with
      | .wait, .barrier m _ => m == n
      | _, _ => false).map fun l => (w, l)).flatten

/-- Every lane waiting on a barrier traps BARRIER at its BWAIT (R185, R187). -/
def barTrap (s : State) (b n : Nat) (c : Cond) : State :=
  (barWaiters s b n).foldl (fun s x => enterTrap s b x.1 x.2 c) s

/-- Every lane waiting on a barrier enters RUN past its BWAIT (R186). -/
def barWake (s : State) (b n : Nat) : State :=
  (barWaiters s b n).foldl (fun s x =>
    let t := s.thread b x.1 x.2
    s.setThread b x.1 x.2 { t with tst := .run, wait := .none, pc := t.pc + 4 }) s

/-- What one merged update of a barrier does (R184, R185): members dropped, arrivals, bytes expected,
bytes landed, and whether an engine failed. DEDUCED (log 50). -/
def Barrier.update (x : Barrier) (drop arrivals expected landed : Nat) (failed : Bool) : Barrier :=
  let expa := x.expa - drop
  let pend := x.pend - arrivals
  let expb := x.expb + expected
  let rcvb := x.rcvb + landed
  if failed || decide (pend < 0) || decide (expb < rcvb) || decide (0xFFFFFF < expb) || decide (expa < 0) then
    { x with expa := expa, pend := pend, expb := expb, rcvb := rcvb, err := true }
  else if pend = 0 ∧ rcvb = expb then
    { x with init := decide (expa ≠ 0), expa := expa, pend := expa, expb := 0, rcvb := 0, par := 1 - x.par }
  else { x with expa := expa, pend := pend, expb := expb, rcvb := rcvb }

/-- A merged update of barrier `n` of a block is tested (R184): discarded where ERR = 1 or INIT = 0; a phase
that completes wakes its waiters, and ERR traps them, with an engine's source, code and address. -/
def barApply (s : State) (b n : Nat) (u : BarUpdate) : State :=
  let x := (s.block b).bar n
  if x.err || !x.init then s
  else
    let y := x.update u.drop u.arrivals u.expected u.landed u.fail.isSome
    let s' := s.setBlock b { s.block b with bars := Sp.put (s.block b).bars n y }
    if y.err then
      let f := u.fail.getD (0, 0, 0)
      barTrap s' b n (barrierCond n f.1 f.2.1 f.2.2)
    else if y.par != x.par then barWake s' b n
    else s'

/-- Two updates of one cycle, merged (R184). -/
def BarUpdate.add (u v : BarUpdate) : BarUpdate :=
  { drop := u.drop + v.drop, arrivals := u.arrivals + v.arrivals, expected := u.expected + v.expected
    landed := u.landed + v.landed, fail := u.fail.orElse fun _ => v.fail }

/-- What a cycle holds of a barrier, and the rest of it. -/
def Cycle.take (c : Cycle) (b n : Nat) : Option BarUpdate × Cycle :=
  ((c.merges.find? fun m => m.1 == b && m.2.1 == n).map (·.2.2),
   { c with merges := c.merges.filter fun m => !(m.1 == b && m.2.1 == n) })

/-- An update reaches a barrier: it is merged with those of its cycle before it, and tested at once unless the cycle
goes on (R184). -/
def barUpdate (s : State) (b n : Nat) (u : BarUpdate) : State :=
  match s.cycle.take b n, s.cycle.joined with
  | (none, _), false => barApply s b n u
  | (none, c), true => { s with cycle := { c with merges := c.merges ++ [(b, n, u)] } }
  | (some v, c), false => barApply { s with cycle := c } b n (v.add u)
  | (some v, c), true => { s with cycle := { c with merges := c.merges ++ [(b, n, v.add u)] } }

/-- What a cycle holds of every barrier is tested at its end (R184). -/
def testBarriers (s : State) (c : Cycle) : State := c.merges.foldl (fun s m => barApply s m.1 m.2.1 m.2.2) s

/-- The condition that a barrier's number and state raise for an instruction (R187). -/
def barCond (s : State) (n : Nat) (init waits : Bool) : Option Cond :=
  let x := (s.block s.iss.blk).bar n
  if (s.launch s.iss.blk).nbar ≤ n then some (barrierCond n 0 0 0)
  else if !init && !x.init then some (barrierCond n 0 0 0)
  else if waits && x.err then some (barrierCond n 0 0 0)
  else none

/-- Whether a lane of the issue set still has an access that awaits its place: an arrival is a release
at BLK scope (R186, R269). DEDUCED (log 43). -/
def lanesPending (s : State) : Bool :=
  (s.weftOps s.iss.blk s.iss.weft).any fun o =>
    o.kind == .access && o.lanes.any fun a => s.iss.lanes.contains a.lane && a.pending

/-- A barrier instruction: it acts once for its issue set, or traps every lane of it (R185, R187). -/
def barIssue (n : Nat) (ks : List Regs) (early : State → Option Cond) (init waits arrives : Bool)
    (body : State → State) (rs : List Regs) (s : State) : Host.Outcome State Fault Refusal :=
  issue { permitted := fun k => k.permits .sync, regs := rs, early := early s }
    (fun s => issueBusy s rs ks || (arrives && lanesPending s))
    (fun s =>
      match barCond s n init waits with
      | some c => trapAll s c
      | none => body s) s

/-- BINIT (R185): the barrier starts afresh; lanes that wait on it trap BARRIER. An arrival of the same cycle that is
tested at its end counts on the new state. DESIGN CHOICE (log 173). -/
def execBinit (b : BitVec 4) (count : BitVec 12) (s : State) : Host.Outcome State Fault Refusal :=
  barIssue b.toNat [] (fun _ => none) true false false
    (fun s =>
      let s' := s.setBlock s.iss.blk { s.block s.iss.blk with
        bars := Sp.put (s.block s.iss.blk).bars b.toNat { init := true, expa := count.toNat, pend := count.toNat } }
      advanceAll (barTrap s' s.iss.blk b.toNat (barrierCond b.toNat 0 0 0))) [] s

/-- BARR (R185): one arrival for each lane. -/
def execBarr (b : BitVec 4) (s : State) : Host.Outcome State Fault Refusal :=
  barIssue b.toNat [] (fun _ => none) false false true
    (fun s => advanceAll (barUpdate s s.iss.blk b.toNat { arrivals := s.iss.lanes.length })) [] s

/-- BARRX (R185): one arrival for each lane, and k(ka) bytes expected. -/
def execBarrx (b : BitVec 4) (ka : KReg) (s : State) : Host.Outcome State Fault Refusal :=
  barIssue b.toNat [(ka.toNat, 1)] (fun _ => none) false false true
    (fun s => advanceAll
      (barUpdate s s.iss.blk b.toNat { arrivals := s.iss.lanes.length, expected := (s.wft.kreg ka.toNat).toNat })) [] s

/-- BEXP (R185): k(ka) bytes expected, and no arrival. -/
def execBexp (b : BitVec 4) (ka : KReg) (s : State) : Host.Outcome State Fault Refusal :=
  barIssue b.toNat [(ka.toNat, 1)] (fun _ => none) false false false
    (fun s => advanceAll (barUpdate s s.iss.blk b.toNat { expected := (s.wft.kreg ka.toNat).toNat })) [] s

/-- BDROP (R185): one arrival for each lane, and as many members fewer from the next phase on. -/
def execBdrop (b : BitVec 4) (s : State) : Host.Outcome State Fault Refusal :=
  barIssue b.toNat [] (fun _ => none) false false true
    (fun s => advanceAll (barUpdate s s.iss.blk b.toNat { drop := s.iss.lanes.length, arrivals := s.iss.lanes.length })) [] s

/-- BWAIT (R186): a lane goes on if the phase of parity p has completed, and waits otherwise. -/
def execBwait (b : BitVec 4) (p : BitVec 1) (s : State) : Host.Outcome State Fault Refusal :=
  barIssue b.toNat [] handlerIllegal false true false
    (fun s =>
      if ((s.block s.iss.blk).bar b.toNat).par != p.toNat then advanceAll s
      else s.iss.lanes.foldl (laneStep fun l =>
        .goto { s.lane l with tst := .wait, wait := .barrier b.toNat p.toNat }) s) [] s

/-- BTEST (R186): whether the phase of parity p has completed. -/
def execBtest (d : VReg) (b : BitVec 4) (p : BitVec 1) (s : State) : Host.Outcome State Fault Refusal :=
  barIssue b.toNat [] (fun _ => none) false true false
    (fun s =>
      let r : Word := if ((s.block s.iss.blk).bar b.toNat).par != p.toNat then 0xFFFFFFFF else 0
      s.iss.lanes.foldl (laneStep fun l => .next ((s.lane l).setReg d.toNat r)) s) [one d] s

/-! ## WAITCNT (R270, R287) -/

/-- Whether a WAITCNT with these immediates for copies and matrix commands observes a failed operation (R287). -/
def observes (w : Weft) (cp mx : Nat) (f : Failure) : Bool :=
  match f.cls with
  | .copy => decide (cp + f.seq + 1 ≤ w.cpSeq)
  | .matrix => decide (mx + f.seq + 1 ≤ w.mxSeq)

/-- The BARRIER condition of a failure that a WAITCNT delivers (R381). DESIGN CHOICE (log 168). -/
def Failure.cond (f : Failure) : Cond :=
  barrierCond 0 (match f.cls with | .copy => 1 | .matrix => 2) f.code f.addr

/-- The failure of the operation issued first, among those that are observed. -/
def firstFailure (fs : List Failure) : Option Failure :=
  fs.foldl (fun (m : Option Failure) f =>
    match m with
    | none => some f
    | some g => if f.op < g.op then some f else some g) none

/-- WAITCNT (R287): waits until each counter is at or below its immediate; then delivers at most one failure. -/
def execWaitcnt (ld st : BitVec 6) (cp : BitVec 5) (mx : BitVec 4) (s : State) : Host.Outcome State Fault Refusal :=
  issue { permitted := fun k => k.permits .sync, regs := [] }
    (fun s => issueBusy s [] [] ||
      !(decide (s.wft.ld.length ≤ ld.toNat) && decide (s.wft.st.length ≤ st.toNat) &&
        decide (s.wft.cp.length ≤ cp.toNat) && decide (s.wft.mx.length ≤ mx.toNat)))
    (fun s =>
      match firstFailure (s.wft.failures.filter (observes s.wft cp.toNat mx.toNat)) with
      | none => advanceAll s
      | some f =>
        trapAll (s.setWeft s.iss.blk s.iss.weft { s.wft with failures := s.wft.failures.erase f }) f.cond) s

/-! ## FENCE, SEAL, UNSEAL and CWB (R252-R257) -/

/-- The lanes of the issue set wait for an operation, and stand past the instruction meanwhile (R253). -/
def holdLanes (s : State) (o : MemOp) : State :=
  addOp (s.iss.lanes.foldl (laneStep fun l => .next { s.lane l with hold := some s.nextOp }) s) o

/-- An operation that waits on no address. -/
def waitOp (s : State) (k : OpKind) : MemOp := { issuedOp s {} [] (laneMask s.iss.lanes) with kind := k }

/-- FENCE (R252, R253). -/
def execFence (kind : FenceKind) (sc : Scope) (s : State) : Host.Outcome State Fault Refusal :=
  issue { permitted := fun k => k.permits .memory, regs := [] } (fun s => issueBusy s [] [])
    (fun s => holdLanes s (waitOp s (.fence kind sc))) s

/-- The operand checks of SEAL and UNSEAL (R254). -/
def rangeCond (base : DWord) (len : Nat) : Option Cond :=
  let top := base + BitVec.ofNat 64 len - 1
  if base.toNat % 65536 != 0 || len = 0 || len % 65536 != 0 then
    some { cause := .misalign, addr := base.toNat, info := 8 }
  else if !canonical base || !canonical top then
    some { cause := .translate, reason := 4, addr := base.toNat, info := 8 }
  else none

/-- The SEALED condition of a seal-table failure (R256). -/
def sealCond (base : DWord) (reason : Nat) : Cond := { cause := .sealed, reason := reason, addr := base.toNat }

/-- The entries that a seal table holds or that a SEAL under way will add (R256). -/
def sealsTaken (s : State) (vi : Nat) : Nat :=
  (s.viface vi).seals.length +
    (s.ops.filter fun e =>
      match e.2.kind with
      | .sealOp _ _ => s.viOf e.2.blk == vi
      | _ => false).length

/-- SEAL (R254, R256): its release and its entry follow in FENCE_COMPLETE, its end in SEAL_COMPLETE. -/
def execSealLines (ka kb : KReg) (s : State) : Host.Outcome State Fault Refusal :=
  issue { permitted := fun k => k.permits .memory, regs := [] }
    (fun s => issueBusy s [] [(ka.toNat, 2), (kb.toNat, 1)])
    (fun s =>
      let base := s.wft.kpair ka.toNat
      let len := (s.wft.kreg kb.toNat).toNat
      match rangeCond base len with
      | some c => trapAll s c
      | none =>
        if 256 ≤ sealsTaken s (s.viOf s.iss.blk) then trapAll s (sealCond base 2)
        else holdLanes s (waitOp s (.sealOp (base.toNat % 2 ^ 57) len))) s

/-- UNSEAL (R255, R256): the entry is removed; SEAL_COMPLETE and a release follow. DEDUCED (log 66). -/
def execUnsealLines (ka kb : KReg) (s : State) : Host.Outcome State Fault Refusal :=
  issue { permitted := fun k => k.permits .memory, regs := [] }
    (fun s => issueBusy s [] [(ka.toNat, 2), (kb.toNat, 1)])
    (fun s =>
      let base := s.wft.kpair ka.toNat
      let len := (s.wft.kreg kb.toNat).toNat
      match rangeCond base len with
      | some c => trapAll s c
      | none =>
        let vi := s.viOf s.iss.blk
        let e : SealEnt := { asn := s.asnOf s.iss.blk, base := base.toNat % 2 ^ 57, len := len }
        if (s.viface vi).seals.contains e then
          holdLanes (s.setVI vi { s.viface vi with seals := (s.viface vi).seals.erase e })
            (waitOp s (.unsealOp e.base len))
        else trapAll s (sealCond base 3)) s

/-- CWB (R257): at BLK scope, and with a length of 0, it does nothing. -/
def execCwb (ka kb : KReg) (sc : Scope) (s : State) : Host.Outcome State Fault Refusal :=
  issue { permitted := fun k => k.permits .memory, regs := [] }
    (fun s => issueBusy s [] [(ka.toNat, 2), (kb.toNat, 1)])
    (fun s =>
      let len := (s.wft.kreg kb.toNat).toNat
      if sc = .blk ∨ len = 0 then advanceAll s
      else holdLanes s (waitOp s (.cwb sc ((s.wft.kpair ka.toNat).toNat) len))) s

/-- Whether a lane that an operation holds still has an earlier access outstanding, of those `f` selects, or one that
was captured and is still to be re-injected (R252, R385). -/
def earlierPending (s : State) (id : Nat) (o : MemOp) (f : AccFn → Bool) : Bool :=
  (List.any s.ops fun x =>
    decide (x.2.place x.1 < id) && x.2.kind == .access && f x.2.acc.fn && x.2.ofWeft o.blk o.weft &&
      x.2.lanes.any fun e => o.issue.testBit e.lane && e.pending) ||
  (maskLanes o.issue).any fun l => (capturedBefore s o l id).any fun p => f p.asOp.acc.fn

/-- The lanes that an operation holds are ready again, and the operation is gone (R253). -/
def freeLanes (s : State) (id : Nat) (o : MemOp) : State :=
  (maskLanes o.issue).foldl (fun s l =>
    let t := s.thread o.blk o.weft l
    if t.hold = some id then s.setThread o.blk o.weft l { t with hold := none } else s) (s.dropOp id)

/-- A release by the lanes that an operation holds (R252, R442): every earlier access has its place,
and the caches are cleaned as the scope asks. -/
def opRelease (s : State) (id : Nat) (o : MemOp) (sc : Scope) : Try :=
  if earlierPending s id o (fun _ => true) then .error s else releaseTry s o.core sc

/-- An acquire by the lanes that an operation holds (R252): every earlier load has its value, and the
caches are invalidated as the scope asks, once it can complete (R443). -/
def opAcquire (s : State) (id : Nat) (o : MemOp) (sc : Scope) : Try :=
  if earlierPending s id o AccFn.reads || !acquireReady s (domOf o.core) sc then .error s else .ok (acquire s o.core sc)

/-- A fence of a kind and scope, as far as it can go (R252). -/
def fenceTry (s : State) (id : Nat) (o : MemOp) (k : FenceKind) (sc : Scope) : Try :=
  match k with
  | .acq => opAcquire s id o sc
  | .rel => opRelease s id o sc
  | .acqrel => do opAcquire (← opRelease s id o sc) id o sc
  | .sc => do opAcquire (← opRelease s id o sc) id o sc

/-- SEAL_COMPLETE (R254, R255): a SEAL whose entry is in force ends; an UNSEAL has its replicas
invalidated in every L2 of the partition, and goes on to its release. -/
def execSealComplete (op : Nat) (s : State) : Host.Outcome State Fault Refusal :=
  match s.op? op with
  | none => .next s
  | some o =>
    match o.kind with
    | .sealed => .next (freeLanes s op o)
    | .unsealOp _ _ =>
      let ds := maskDomains (s.viface (s.viOf o.blk)).partmap
      let s := ds.foldl (fun s d =>
        s.setDomain d { s.domain d with remote := (s.domain d).remote.map fun e => (e.1, e.2.invalidate) }) s
      .next (s.setOp op { o with kind := .unsealed })
    | _ => .next s

end Sys2Proof.Machine
end

