-- ==== Sys2Proof/Machine/Copy.lean ====
section
/-!
DEFINITION. The copy unit: per-lane and tile copies, their landing under ownership, their completion
and their failures (R239, R240, R273-R284).
-/
namespace Sys2Proof.Machine

/-! ## Slots, ownership and counters (R239, R273, R282, R285) -/

/-- The least copy slot of a core that is free (R273). DESIGN CHOICE (log 184). -/
def freeSlot (s : State) (core : Nat) : Option Nat :=
  (List.range 32).find? fun i => (Sp.find? (s.core core).copies i).isNone

def State.copy? (s : State) (core slot : Nat) : Option Copy := Sp.find? (s.core core).copies slot
def State.setCopy (s : State) (core slot : Nat) (c : Copy) : State :=
  s.setCore core { s.core core with copies := Sp.put (s.core core).copies slot c }

/-- Whether a role may execute a copy instruction (R152). -/
def copyRole (k : RoleKind) : Bool := k == .general || k == .copy

/-- The barrier that a copy's field names in the block at issue (R282). -/
def copyBar (s : State) (b : BitVec 4) : Option Nat :=
  if b.toNat < (s.launch s.iss.blk).nbar then some b.toNat else none

/-- BARRIER where a copy names an uninitialised barrier (R282). -/
def copyBarCond (s : State) (b : BitVec 4) : Option Cond :=
  match copyBar s b with
  | some n => if ((s.block s.iss.blk).bar n).init then none else some (barrierCond n 0 0 0)
  | none => none

/-- Whether a stream still waits for a slot: its block runs, and some lane stands at the copy. -/
def CopyWait.stands (s : State) (e : CopyWait) : Bool :=
  (s.block e.blk).bst == .resident && !(s.block e.blk).stopped && (s.weft e.blk e.weft).park.isNone &&
    (List.range 32).any fun l =>
      let t := s.thread e.blk e.weft l
      t.pc == e.pc && t.tst == (if e.handler then LaneState.trap else LaneState.run)

/-- The stream at issue, as it waits for a slot. -/
def waitAtIssue (s : State) : CopyWait := { blk := s.iss.blk, weft := s.iss.weft, handler := s.iss.handler, pc := s.iss.pc }

/-- Whether the copy at issue finds a slot: one is free, and no stream of the core began to wait for one before it
(R273). DEDUCED (log 132). -/
def slotFor (s : State) (core : Nat) : Bool :=
  (freeSlot s core).isSome &&
    !((s.core core).copyq.takeWhile (· != waitAtIssue s)).any fun e => e.stands s

/-- The core with the queue of streams that wait for its slots. -/
def setCopyq (s : State) (core : Nat) (q : List CopyWait) : State :=
  if (s.core core).copyq = q then s else s.setCore core { s.core core with copyq := q }

/-- The streams of a core that wait for a slot, after the one at issue has found one or has joined them (R273). -/
def nextCopyq (s : State) (core : Nat) : List CopyWait :=
  let q := (s.core core).copyq.filter fun e => e != waitAtIssue s && e.stands s
  if slotFor s core then q
  else if (s.core core).copyq.contains (waitAtIssue s) then (s.core core).copyq
  else q ++ [waitAtIssue s]

/-- The issue of a copy instruction: it stalls while its slot, its weft's counter or its ownership is wanting, and a
stream that finds no slot keeps its place among those that wait (R142, R273). -/
def issueCopy (rs : List Regs) (core : Nat) (busy wants : Bool) (body : State → State) (s : State) :
    Host.Outcome State Fault Refusal :=
  let p : Pre := { permitted := copyRole, regs := rs }
  let q := nextCopyq s core
  let stalls := busy || !slotFor s core || !s.wft.room .cp 1 || wants
  issue p (fun _ => stalls) (fun s' => setCopyq (body s') core q)
    (if stalls && !busy && (preCond s p).isNone && !s.iss.lanes.isEmpty then setCopyq s core q else s)

/-- A line added to a rising list of lines. -/
def insertLine (line : Nat) : List Nat → List Nat
  | [] => [line]
  | l :: ls => if line < l then line :: l :: ls else if line = l then l :: ls else l :: insertLine line ls

/-- The runs of consecutive lines in a rising list, by first line and length. -/
def lineRuns : List Nat → List (Nat × Nat)
  | [] => []
  | l :: ls =>
    match lineRuns ls with
    | (f, n) :: rs => if f = l + 1 then (l, n + 1) :: rs else (l, 1) :: (f, n) :: rs
    | [] => [(l, 1)]

/-- The lines that the translated pieces of a copy write. -/
def destLines (es : List Elem) : List Nat :=
  (es.filterMap fun e => if e.live then e.pa.map lineOf else none).eraseDups.foldl (fun ls l => insertLine l ls) []

/-- Clean lines and drop them from the L1 of a core, with their aliases (R239, R355). -/
def dropLines (core : Nat) : List Nat → State → Try
  | [], s => .ok s
  | l :: ls, s => do dropLines core ls (← evictL1 (← dropAliasL1 s core l) (sliceOf s core l) l)

/-- A copy's ownership of lines (R239): the issuing core's L1 drops them, and each run of consecutive lines takes an
entry; it waits where entries are wanting, and for an earlier copy that owns one of the lines (R288). -/
def ownLines (s : State) (core slot : Nat) (lines : List Nat) : Try :=
  let d := domOf core
  let mine := fun o : Own => o.core == core && o.slot == slot
  let new := lines.filter fun l => !(s.domain d).owned.any fun o => mine o && o.holds s l
  let runs := lineRuns new
  if (new.any fun l => (s.domain d).owned.any fun o => !mine o && o.holds s l) ||
      decide (4096 < (s.domain d).owned.length + runs.length) then .error s
  else do
    let s ← dropLines core new s
    .ok (s.setDomain d { s.domain d with
      owned := (s.domain d).owned ++ runs.map fun r => { core := core, slot := slot, first := r.1, count := r.2 } })

/-- The recalls of lines that no copy owns any longer are over (R239, R240). -/
def endRecalls (s : State) (d : Nat) : State :=
  if (s.domain d).recalls.isEmpty then s
  else s.setDomain d { s.domain d with recalls := (s.domain d).recalls.filter (ownedLine s d) }

/-- A copy takes a slot and steps its weft's copy counter (R273, R285). -/
def startCopy (s : State) (slot : Nat) (c : Copy) : State :=
  let x := s.weft c.blk c.weft
  let core := (s.block c.blk).core
  let s := s.setWeft c.blk c.weft { x with cp := x.cp ++ [{ op := s.nextOp }], cpSeq := x.cpSeq + 1 }
  { s.setCopy core slot { c with op := s.nextOp, seq := x.cpSeq } with nextOp := s.nextOp + 1 }

/-- Whether a block has reached its YIELD, or its every lane has exited (R284). -/
def blockOver (s : State) (b : Nat) : Bool :=
  (s.block b).bst != .resident ||
    (List.range (s.launch b).wefts).all fun w => (List.range 32).all fun l =>
      (s.thread b w l).tst == .empty || (s.thread b w l).tst == .done

/-- The end of a copy (R281-R284): it arrives at its barrier with its last landed bytes, or leaves its
failure to a WAITCNT; its counter entry retires and its slot is free. DEDUCED (log 144). -/
def endCopy (s : State) (core slot : Nat) (c : Copy) (landed : Nat) : State :=
  let x := s.weft c.blk c.weft
  let fail := if c.status = 0 then none else some (1, c.status, c.addr)
  let rec' : Failure := { cls := .copy, seq := c.seq, op := c.op, code := c.status, addr := c.addr }
  let s := s.setWeft c.blk c.weft
    { x with cp := countDone x.cp c.op
             failures := if (c.bar.isNone || blockOver s c.blk) && c.status != 0 then x.failures ++ [rec'] else x.failures }
  let s := s.setCore core { s.core core with copies := Sp.del (s.core core).copies slot }
  let d := domOf core
  let s := endRecalls (s.setDomain d { s.domain d with
    owned := (s.domain d).owned.filter fun o => !(o.core == core && o.slot == slot) }) d
  match c.bar with
  | some n => barUpdate s c.blk n { arrivals := 1, landed := landed, fail := fail }
  | none => s

/-! ## Issue of per-lane copies (R274-R276) -/

/-- The outcome of one lane's checks: a condition, or the piece it moves; none where its translation waits. -/
abbrev LaneCopy := Nat × Option (Except Cond Elem)

/-- The checks of one lane of CPGS or CPSG (R275), with the walks they make. DEDUCED (log 44). -/
def copyLane (store : Bool) (vs a : VReg) (n : Nat) (s : State) (l : Nat) : Option (Except Cond Elem) × State :=
  let t := s.lane l
  let o := (t.reg vs.toNat).toNat
  let g := t.pair a.toNat
  let core := (s.block s.iss.blk).core
  let vi := s.viOf s.iss.blk
  let asn := s.asnOf s.iss.blk
  let va := g.toNat % 2 ^ 57
  let fails := fun c : Cond => some (Except.error c)
  if !canonical g then (fails { cause := .translate, reason := 4, addr := g.toNat, info := 2 }, s)
  else if o % n != 0 then (fails { cause := .misalign, addr := o, info := 0 }, s)
  else if g.toNat % n != 0 then (fails { cause := .misalign, addr := g.toNat, info := 2 }, s)
  else
    match translate s core vi asn va { reads := !store, writes := store } with
    | (.wait, s) => (none, s)
    | (.fault c r, s) => (fails (walkCond c r g.toNat 2), s)
    | (.ok t, s) =>
      match checkGlobal s vi asn va t (!store) store with
      | some (c, r) =>
        if c = .protect then (fails { cause := c, addr := g.toNat, info := 2, sys := true }, s)
        else (fails { cause := c, reason := r, addr := g.toNat }, s)
      | none =>
        if (s.launch s.iss.blk).spm < o + n then (fails { cause := .protect, addr := o, info := 0, sys := true }, s)
        else (some (.ok { spm := o, va := g.toNat, n := n, pa := some (t.phys va), nc := t.nc }), s)

/-- The checks of every lane of the issue set, in ascending order. -/
def copyLanes (store : Bool) (vs a : VReg) (n : Nat) (s : State) : List LaneCopy × State :=
  s.iss.lanes.foldl (fun r l =>
    let q := copyLane store vs a n r.2 l
    (r.1 ++ [(l, q.1)], q.2)) ([], s)

/-- The pieces of the passing lanes; of two that write one SPM place, only the higher lane's is written (R276). -/
def passing (store : Bool) : List LaneCopy → List Elem
  | [] => []
  | (_, some (.ok e)) :: q =>
    let rest := passing store q
    { e with live := store || !rest.any fun x => x.spm == e.spm } :: rest
  | _ :: q => passing store q

/-- The conditions that lanes met. -/
def copyConds (q : List LaneCopy) : List (Nat × Cond) :=
  q.filterMap fun x =>
    match x.2 with
    | some (.error c) => some (x.1, c)
    | _ => none

/-- Whether a copy of these pieces can own its destination now (R239, R273). -/
def canOwn (store : Bool) (core slot : Nat) (es : List Elem) (s : State) : Bool :=
  !store || (match ownLines s core slot (destLines es) with
    | .ok _ => true
    | .error _ => false)

/-- The state in which a copy to global memory owns its destination; else no change (R239). -/
def owned (store : Bool) (core slot : Nat) (es : List Elem) (s : State) : State :=
  if store then
    match ownLines s core slot (destLines es) with
    | .ok s => s
    | .error s => s
  else s

/-- CPGS and CPSG (R275, R276, R281). Where every lane that meets a system fault stands under DELIVER, those lanes
trap, no copy issues then, and the lanes that passed issue again. DESIGN CHOICE (log 153). -/
def copyLanesIssue (store : Bool) (vs a : VReg) (b : BitVec 4) (n : Nat) (s : State) : Host.Outcome State Fault Refusal :=
  let q := copyLanes store vs a n s
  let es := passing store q.1
  let cs := copyConds q.1
  let fails := cs.filter fun c => c.2.sys
  let core := (s.block s.iss.blk).core
  let slot := (freeSlot s core).getD 0
  let passed := s.iss.lanes.filter fun l => !(cs.any fun c => c.1 == l)
  issueCopy [one vs, two a] core (issueBusy s [one vs, two a] [] || lanesPending s)
    ((copyBarCond s b).isNone &&
      (missStall s (s.iss.lanes.map fun l => ((s.lane l).pair a.toNat).toNat) || q.1.any (·.2.isNone) ||
        (fails.isEmpty && !canOwn store core slot es q.2)))
    (fun s' =>
      match copyBarCond s' b with
      | some c => trapAll s' c
      | none =>
        let traps := fun (done : Nat) (s1 : State) =>
          (cs.filter fun c => !c.2.sys).foldl (fun s c =>
            deliverTrap s s.iss.blk s.iss.weft c.1 c.2 (laneMask s.iss.lanes) done) s1
        if !fails.isEmpty then
          systemFault (traps 0 (q.2.withIssue s')) s.iss.blk s.iss.weft (fails.map fun c => (c.1, { c.2 with sys := false }))
            s.iss.deliver (laneMask (s.iss.lanes.filter fun l => !(cs.any fun c => c.1 == l && !c.2.sys))) 0 s.iss.pc true
        else
          let s3 := traps (laneMask passed) ((owned store core slot es q.2).withIssue s')
          let s4 := passed.foldl (laneStep fun l => .next (s3.lane l)) s3
          let c : Copy := { kind := if store then .store else .load, blk := s.iss.blk, weft := s.iss.weft,
                            pc := s.iss.pc, bar := copyBar s b, pend := es }
          let s5 := startCopy s4 slot c
          if es.isEmpty then endCopy s5 core slot ((s5.copy? core slot).getD c) 0 else s5) s

/-- The bytes of a per-lane copy's size (R274). -/
def CpSize.bytes : CpSize → Nat
  | .b4 => 4
  | .b8 => 8
  | .b16 => 16

/-- CPGS (R274-R276). -/
def execCpgs (vs a : VReg) (b : BitVec 4) (z : CpSize) (s : State) : Host.Outcome State Fault Refusal :=
  copyLanesIssue false vs a b (CpSize.bytes z) s

/-- CPSG (R274-R276). -/
def execCpsg (vs a : VReg) (b : BitVec 4) (z : CpSize) (s : State) : Host.Outcome State Fault Refusal :=
  copyLanesIssue true vs a b (CpSize.bytes z) s

/-! ## Tile copies (R277-R280) -/

/-- A tile descriptor (R277). -/
structure Tile where
  base : Nat
  rank : Nat
  esize : Nat
  swz : Nat
  policy : Nat
  dim : List Nat
  str : List Nat
  box : List Nat
  deriving DecidableEq, Repr

/-- Read a descriptor from SPM. -/
def readTile (m : Memory) (o : Nat) : Tile :=
  { base := m.read o 8, rank := m.read (o + 8) 1, esize := m.read (o + 9) 1, swz := m.read (o + 10) 1
    policy := m.read (o + 11) 1
    dim := (List.range 5).map fun i => m.read (o + 0x10 + 4 * i) 4
    str := 0 :: (List.range 4).map fun i => m.read (o + 0x24 + 4 * i) 4
    box := (List.range 5).map fun i => m.read (o + 0x34 + i) 1 }

/-- Bytes of an element. -/
def Tile.e (t : Tile) : Nat := 2 ^ t.esize
/-- The swizzle span W, or the alignment of an unswizzled box (R277, R278). -/
def Tile.span (t : Tile) : Nat := if t.swz = 0 then 16 else 16 * 2 ^ t.swz
/-- The bytes of the box. -/
def Tile.bytes (t : Tile) : Nat := t.e * ((t.box.take t.rank).foldl (fun p b => p * (b + 1)) 1)

/-- The offset of the first field that breaches R277, in ascending order; the box-size constraints last (R278). -/
def tileBreach (m : Memory) (o : Nat) (t : Tile) : Option Nat :=
  let dims := (List.range 5).filterMap fun i =>
    let d := t.dim.getD i 0
    if (if i < t.rank then 1 ≤ d ∧ d ≤ 0x7FFFFFFF else d = 0) then none else some (0x10 + 4 * i)
  let strs := (List.range 4).filterMap fun i =>
    let d := t.str.getD (i + 1) 0
    if (if i + 1 < t.rank then 1 ≤ d else d = 0) then none else some (0x24 + 4 * i)
  let boxes := (List.range 5).filterMap fun i =>
    if t.rank ≤ i ∧ t.box.getD i 0 ≠ 0 then some (0x34 + i) else none
  if !canonical (BitVec.ofNat 64 t.base) || t.base % 16 != 0 then some 0
  else if t.rank = 0 ∨ 5 < t.rank then some 0x08
  else if 3 < t.esize then some 0x09
  else if 3 < t.swz then some 0x0A
  else if 4 < t.policy then some 0x0B
  else if m.read (o + 0x0C) 4 ≠ 0 then some 0x0C
  else
    match dims ++ strs ++ boxes with
    | x :: _ => some x
    | [] =>
      if m.read (o + 0x39) 7 ≠ 0 then some 0x39
      else if ((t.box.getD 0 0 + 1) * t.e) % t.span ≠ 0 ∨ 65536 < t.bytes then some 0x34
      else none

/-- The swizzle of a dense box offset (R280). -/
def swz (code l : Nat) : Nat :=
  if code = 0 then l
  else
    let w := 16 * 2 ^ code
    let m := w / 16
    let u := l / 16 % m
    let r := l / w % m
    l - 16 * u + 16 * (u ^^^ r)

/-- The coordinates of the box element of dense index `i` (R279). -/
def boxCoords (box : List Nat) (i : Nat) : List Nat :=
  (box.foldl (fun (p : List Nat × Nat) b => (p.1 ++ [p.2 % (b + 1)], p.2 / (b + 1))) ([], i)).1

/-- The piece of a tile copy for the box element of dense index `i`; a CPTS reads one outside the tensor and does not
write it (R279). -/
def tileElem (t : Tile) (store : Bool) (start : List Int) (spm i : Nat) : Elem :=
  let cs := (start.zip (boxCoords (t.box.take t.rank) i)).map fun p => p.1 + (p.2 : Int)
  let xs := (cs.zip t.dim).map fun p => (min (max p.1 0) (p.2 - 1 : Int)).toNat
  let inside := (cs.zip xs).all fun p => p.1 == (p.2 : Int)
  let g := t.base + t.e * xs.headD 0 + 16 * ((xs.zip t.str).map fun p => p.1 * p.2).sum
  { spm := spm + swz t.swz (t.e * i), va := g % 2 ^ 64, n := t.e, live := !store || inside }

/-- The cache policy of a code (R129). -/
def policyOf : Nat → Policy
  | 1 => .stream
  | 2 => .noL1
  | 3 => .keepL2
  | 4 => .noL2A
  | _ => .normal

/-- The storage that failed under the first poisoned word of bytes of an allocation (R393). -/
def spmFailed (bad : Sp Nat) (off n : Nat) : Option Nat :=
  (List.find? (fun e => decide (4 * e.1 < off + n) && decide (off < 4 * e.1 + 4)) bad).map (·.2)

/-- The poisoned register that holds a start coordinate of a tile, if any (R389, R393). -/
def badStart (s : State) (kc rank : Nat) : Option Nat := ((List.range rank).map (kc + ·)).find? s.wft.kBad.contains

/-- The condition that a tile copy's operands raise before its barrier is checked (R278, R393). A poisoned word of the
descriptor, or a poisoned register that its rank names, is met when it is read. -/
def tileCond (s : State) (desc spm kc : Nat) : Option Cond :=
  let m := (s.block s.iss.blk).spm
  let size := (s.launch s.iss.blk).spm
  let t := readTile m desc
  if desc % 64 ≠ 0 then some { cause := .misalign, addr := desc, info := 8 }
  else if size < desc + 64 then some { cause := .protect, addr := desc, info := 8, sys := true }
  else
    match spmFailed (s.block s.iss.blk).spmBad desc 64, tileBreach m desc t, badStart s kc t.rank with
    | some r, _, _ => some { cause := .uncorrectable, reason := r, addr := desc, info := 8, sys := true }
    | none, some f, _ => some { cause := .mxparam, addr := desc, info := f }
    | none, none, some k => some { regCond (128 + k) with sys := true }
    | none, none, none =>
      if spm % t.span ≠ 0 then some { cause := .misalign, addr := spm, info := 0 }
      else if size < spm + t.bytes then some { cause := .protect, addr := spm, info := 0, sys := true }
      else none

/-- What a tile copy's translation of a page finds for a piece (R239, R283, R284). -/
inductive PageRes where
  /-- The page translates and permits the access. -/
  | ok (t : TlbEnt)
  /-- A plate page or a sealed range, which a CPTS may not write. -/
  | refused
  /-- The page is untranslatable or refuses the access: the cause and the reason. -/
  | fault (c : Cause) (reason : Nat)
  /-- Its walk waits. -/
  | wait
  deriving DecidableEq, Repr

/-- Translate a piece of a tile copy, walking where the TLBs miss. A page with P = 1 refuses a CPTS as status 2 gives,
whatever its W bit is. DESIGN CHOICE (log 179). -/
def tilePage (s : State) (core b : Nat) (store : Bool) (va : Nat) : PageRes × State :=
  let vi := s.viOf b
  let asn := s.asnOf b
  if !canonical (BitVec.ofNat 64 va) then (.fault .translate 4, s)
  else
    match translate s core vi asn (va % 2 ^ 57) { reads := !store, writes := store } with
    | (.wait, s) => (.wait, s)
    | (.fault c r, s) => (.fault c r, s)
    | (.ok t, s) =>
      if regionOf s t.pa = .host ∨ (!store ∧ !t.r) then (.fault .protect 0, s)
      else if store && (t.plate || sealedAt s vi asn (va % 2 ^ 57) t.g) then (.refused, s)
      else if store && !t.w then (.fault .protect 0, s)
      else (.ok t, s)

/-- A piece with its page. -/
def Elem.onPage (e : Elem) (t : TlbEnt) : Elem := { e with pa := some (t.phys (e.va % 2 ^ 57)), nc := t.nc }

/-- The pieces of a CPTS as its issue leaves them: translated, refused, or to be translated again as the copy comes to
them; none where a walk waits (R239). -/
def tileTranslate (core b : Nat) : List Elem → State → Option (List Elem) × State
  | [], s => (some [], s)
  | e :: es, s =>
    if !e.live then
      let r := tileTranslate core b es s
      (r.1.map (e :: ·), r.2)
    else
      match tilePage s core b true e.va with
      | (.wait, s) => (none, s)
      | (res, s) =>
        let e' := match res with
          | .ok t => e.onPage t
          | .refused => { e with refused := true }
          | _ => e
        let r := tileTranslate core b es s
        (r.1.map (e' :: ·), r.2)

/-- CPTL and CPTS (R278, R279). -/
def tileIssue (store : Bool) (ka kb kc : KReg) (b : BitVec 4) (s : State) : Host.Outcome State Fault Refusal :=
  let desc := (s.wft.kreg ka.toNat).toNat
  let spm := (s.wft.kreg kb.toNat).toNat
  let t := readTile (s.block s.iss.blk).spm desc
  let start := (List.range t.rank).map fun i => (s.wft.kreg (kc.toNat + i)).toInt
  let core := (s.block s.iss.blk).core
  let slot := (freeSlot s core).getD 0
  let es := (List.range (t.bytes / t.e)).map (tileElem t store start spm)
  let q := if store then tileTranslate core s.iss.blk es s else (some es, s)
  let good := (tileCond s desc spm kc.toNat).isNone && (copyBarCond s b).isNone
  let pend := q.1.getD []
  issueCopy [] core (issueBusy s [] [(ka.toNat, 1), (kb.toNat, 1), (kc.toNat, min t.rank 5)] || lanesPending s)
    (good && ((store && missStall s ((es.filter (·.live)).map (·.va))) || q.1.isNone || !canOwn store core slot pend q.2))
    (fun s' =>
      match tileCond s' desc spm kc.toNat with
      | some c => raiseAll s' c
      | none =>
        match copyBarCond s' b with
        | some c => trapAll s' c
        | none =>
          startCopy (advanceAll ((owned store core slot pend q.2).withIssue s')) slot
            { kind := if store then .store else .load, tile := true, blk := s.iss.blk, weft := s.iss.weft,
              pc := s.iss.pc, bar := copyBar s b, policy := policyOf t.policy, pend := pend }) s

/-- CPTL (R277-R280). -/
def execCptl (ka kb kc : KReg) (b : BitVec 4) (s : State) : Host.Outcome State Fault Refusal :=
  tileIssue false ka kb kc b s

/-- CPTS (R277-R280). -/
def execCpts (ka kb kc : KReg) (b : BitVec 4) (s : State) : Host.Outcome State Fault Refusal :=
  tileIssue true ka kb kc b s

/-! ## The transfer (R271, R276, R279, R281-R284, R288) -/

/-- Record the first failure of a copy (R284); an abort takes its place. DESIGN CHOICE (log 178). -/
def Copy.fail (c : Copy) (code addr : Nat) : Copy :=
  if c.status = 0 then { c with status := code, addr := addr } else c

/-- Pieces leave a copy. -/
def Copy.drop (c : Copy) (gone : List Elem) : Copy := { c with pend := gone.foldl List.erase c.pend }

/-- A read of the global side of a copy through the L1, in which nothing is allocated or filled, nor any line changed: a
byte that is dirty or in a valid sector there, else the L2's (R222, R223, R271). Under NOL1 a clean byte is the L1's or
the L2's, freely. DEDUCED (log 187). -/
def copyReadL1 (s : State) (core pa n : Nat) (p : Policy) : TryRead := do
  let line := lineOf pa
  let off := pa % 256
  let s ← dropAliasL1 s core line
  let l1 := (s.l1Line (sliceOf s core line) line).getD {}
  let f := if p = .noL1 then s.fresh else (0, s)
  let past := p = .noL1 ∧ Config.freeVersion f.1
  let here := fun i => l1.dirty.testBit (off + i) || (l1.valid.testBit ((off + i) / 64) && !past)
  let s ← if (List.range n).all here then .ok f.2 else l2Ready f.2 (domOf core) line off n p
  let byte := fun i =>
    if here i then ((l1.data.byte (off + i)).toNat, if l1.dirty.testBit (off + i) then none else badIn l1.bad (off + i) 1)
    else l2Value s (domOf core) line (off + i) 1
  let bytes := (List.range n).map byte
  .ok (s, bytes.foldr (fun b v => b.1 + 256 * v) 0, bytes.findSome? (·.2))

/-- A read of the global side of a copy, served as an LDG at BLK scope with its policy would be (R222, R229, R235,
R276, R279). -/
def copyRead (s : State) (core pa n : Nat) (nc : Bool) (p : Policy) : TryRead :=
  if regionOf s pa = .plate then plateLoad s (domOf core) pa n p
  else if nc then do readHome (← cleanToHome s core (lineOf pa)) (domOf core) pa n
  else copyReadL1 s core pa n p

/-- The way of the messages that a read of the global side of a copy sends, if it sends any (R421, R434, R458). -/
def copyWay (s : State) (core pa n : Nat) (nc : Bool) (p : Policy) : Way :=
  let d := domOf core
  let line := lineOf pa
  if regionOf s pa = .plate then (if plateHeld s d line then .crosses else wayTo s d (homeOf pa))
  else if nc then wayTo s d (homeOf pa)
  else if p != .noL1 && ((s.l1Line (sliceOf s core line) line).getD {}).has (pa % 256) n then .crosses
  else l2Way s d line (pa % 256) n

/-- A write of the global side of a copy of a weft, by key, under ownership: at the L2, or at the home of a
non-cacheable page; one that is dropped on its way is lost (R228, R229, R239, R395, R437, R441, R458). -/
def copyWrite (s : State) (core who pa n x : Nat) (nc : Bool) (p : Policy) : Try :=
  let d := domOf core
  let line := lineOf pa
  let put := fun (s : State) => do
    let s ←
      if nc then do placeHome (← if lineHome line = d then .ok s else l2Gate s (lineHome line) line) d pa n x
      else l2Put s d line (lineData pa n x) (byteMask (pa % 256) n) [] p [who]
    .ok (noteStore s (some core) pa n x)
  match if nc || putsHome s d line p then wayTo s d (lineHome line) else .crosses with
  | .crosses => put s
  | .waits => .error s
  | .dropped at_ arrived => do
    let s ← if arrived then put s else .ok s
    .ok (loseStores (noteDrop (drawClasses s) at_) [who])

/-- Whether a piece is of a line that a held access has recalled (R240). -/
def Elem.recalled (s : State) (d : Nat) (e : Elem) : Bool :=
  e.live && match e.pa with
    | some pa => (s.domain d).recalls.contains (lineOf pa)
    | none => false

/-- Whether the page of a piece need not be looked for (again). -/
def Elem.found (e : Elem) : Bool := e.pa.isSome || !e.live || e.refused

/-- The pieces that a copy may move now: those before the first whose page it is still to find, as a copy that fails has
moved all before the failing one (R276, R284). -/
def Copy.open_ (c : Copy) : List Elem := c.pend.takeWhile Elem.found

/-- The first piece of a recalled line, which a copy to global memory writes next (R240). -/
def recalledPiece (s : State) (core : Nat) (c : Copy) : Option Elem :=
  if c.kind == .store then c.open_.find? (·.recalled s (domOf core)) else none

/-- The fault-queue entry of a tile copy that meets an untranslatable page (R284, R384). -/
def copyFault (s : State) (slot : Nat) (c : Copy) (cause : Cause) (reason va : Nat) : FqEntry :=
  { kind := 2, cause := cause.code, reason := reason, space := if cause = .integrity then 0 else 2,
    block := (s.block c.blk).lin, addr := va, pc := c.pc.toNat, weft := c.weft, slot := slot, asn := s.asnOf c.blk }

/-- The pieces of a copy on a page. -/
def Copy.onPage (c : Copy) (t : TlbEnt) (va : Nat) (f : Elem → Elem) : Copy :=
  { c with pend := c.pend.map fun x =>
      if x.pa.isNone && x.live && x.va / 2 ^ t.bits == va / 2 ^ t.bits then f x else x }

/-- The page of the first piece that a copy has not found is looked for (R239, R283, R284): the copy with the page's
pieces translated; a store owns their lines before it writes any byte there. The copy pauses on a fault, once all
before the piece has moved; nothing where it must wait. -/
def findPage (s : State) (core slot : Nat) (c : Copy) (e : Elem) : Option (State × Copy) :=
  let store := c.kind == .store
  match tilePage s core c.blk store e.va with
  | (.wait, _) => none
  | (.fault cause r, s) =>
    if c.open_.isEmpty then some (s, { c with fault := some (copyFault s slot c cause r e.va) }) else none
  | (.refused, s) => some (s, { c with pend := c.pend.map fun x => if x = e then { x with refused := true } else x })
  | (.ok t, s) =>
    let c := c.onPage t e.va (·.onPage t)
    if store then
      match ownLines s core slot (destLines c.pend) with
      | .ok s => some (s, c)
      | .error _ => none
    else some (s, c)

/-- Whether two pieces have their source bytes in one 64-byte sector. -/
def sameSector (c : Copy) (e x : Elem) : Bool :=
  if c.kind == .store then x.spm / 64 == e.spm / 64 else x.va / 64 == e.va / 64

/-- Whether the source of a piece meets an uncorrectable error; `pa` is the PA of a piece of its sector (R284). -/
def sourceLost (s : State) (core : Nat) (c : Copy) (pa : Nat) (nc : Bool) (x : Elem) : Bool :=
  if c.kind == .store then
    let b := s.block c.blk
    (List.range x.n).any fun i => (Sp.find? b.spmBad ((x.spm + i) / 4)).isSome
  else
    match copyRead s core (pa / 64 * 64 + x.va % 64) x.n nc c.policy with
    | .ok r => r.2.2.isSome
    | .error _ => false

/-- Move one translated piece; a piece that is not live is read and discarded (R276, R279). -/
def movePiece (s : State) (core : Nat) (c : Copy) (e : Elem) (pa : Nat) : Try :=
  let b := s.block c.blk
  if c.kind == .store then
    if e.live then copyWrite s core (wkey c.blk c.weft) pa e.n (b.spm.read e.spm e.n) e.nc c.policy else .ok s
  else do
    let r ← copyRead s core pa e.n e.nc c.policy
    let b := r.1.block c.blk
    .ok (if e.live then r.1.setBlock c.blk { b with spm := b.spm.write e.spm e.n r.2.1 } else r.1)

/-- The pieces that may move together with one: those of its line. -/
def pieceGroup (c : Copy) (e : Elem) : List Elem :=
  c.open_.filter fun x => x.refused == e.refused &&
    match x.pa, e.pa with
    | some a, some b => lineOf a == lineOf b
    | _, _ => x.va / 256 == e.va / 256

/-- A part of a piece: `n` of its bytes from an offset. -/
def Elem.part (e : Elem) (off n : Nat) : Elem :=
  { e with spm := e.spm + off, va := e.va + off, pa := e.pa.map (· + off), n := n }

/-- `m` bytes of a piece from an offset, as a piece of the copy by itself (R288); nothing where there are none. -/
def cutPiece (c : Copy) (e : Elem) (off m : Nat) : List Elem × Copy :=
  let m := min m (e.n - off)
  let parts := ([e.part 0 off, e.part off m, e.part (off + m) (e.n - off - m)] : List Elem).filter fun x => x.n != 0
  if m = 0 then ([], c)
  else ([e.part off m], { c with pend := c.pend.takeWhile (· != e) ++ parts ++ (c.pend.dropWhile (· != e)).drop 1 })

/-- Whether two pieces of a copy to global memory write a byte in common. -/
def Elem.meets (e x : Elem) : Bool :=
  e.live && x.live && match e.pa, x.pa with
    | some a, some b => rangesMeet a e.n b x.n
    | _, _ => false

/-- The pieces that a copy moves at a choice `j` for a piece: all of its line, or from 1 on, some of its bytes in any
order; but a piece before it that writes one of its bytes goes first (R276, R279, R288). -/
def choosePieces (c : Copy) (e : Elem) (j : Nat) : List Elem × Copy :=
  if j = 0 then (pieceGroup c e, c)
  else
    match if c.kind == .store then c.open_.find? (·.meets e) else none with
    | some x => if x = e then cutPiece c e ((j - 1) / 16) ((j - 1) % 16 + 1) else ([x], c)
    | none => cutPiece c e ((j - 1) / 16) ((j - 1) % 16 + 1)

/-- What a move of pieces has done: the state, the copy, the pieces whose bytes have been read or written, and the
bytes that count as landed. -/
structure Landing where
  s : State
  c : Copy
  moved : List Elem := []
  landed : Nat := 0

/-- The pieces of a lost sector are not written, and the copy records the address of one (R284). -/
def Landing.lose (r : Landing) (e x : Elem) : Landing :=
  let gone := r.c.pend.filter (sameSector r.c e)
  { r with c := (r.c.fail 3 x.va).drop gone, landed := r.landed + (gone.map (·.n)).sum }

/-- Move pieces of one line one after another; stops at one that must wait. Where a source word is lost, or the read of
it is dropped on its way, the pieces of its 64-byte sector are not written (R284, R422, R458). DEDUCED (log 145). -/
def moveAll (core : Nat) : List Elem → Landing → Landing
  | [], r => r
  | e :: es, r =>
    let pa := e.pa.getD 0
    if !r.c.pend.contains e then moveAll core es r
    else if e.refused then moveAll core es { r with c := (r.c.fail 2 e.va).drop [e] }
    else
      match if r.c.kind == .store then Way.crosses else copyWay r.s core pa e.n e.nc r.c.policy with
      | .waits => r
      | .dropped at_ _ => moveAll core es ({ r with s := noteDrop (drawClasses r.s) at_ }.lose e e)
      | .crosses =>
        match r.c.pend.find? fun x => sameSector r.c e x && sourceLost r.s core r.c pa e.nc x with
        | some x => moveAll core es (r.lose e x)
        | none =>
          match movePiece r.s core r.c e pa with
          | .error s => { r with s := s }
          | .ok s =>
            moveAll core es { s := s, c := r.c.drop [e], moved := r.moved ++ [e], landed := r.landed + e.n }

/-- A landing in SPM clears the poison of every word that it covers whole (R393). -/
def landedWords (s : State) (blk : Nat) (moved : List Elem) : State :=
  let b := s.block blk
  let covered := fun w => (List.range 4).all fun i =>
    moved.any fun e => e.live && decide (e.spm ≤ 4 * w + i) && decide (4 * w + i < e.spm + e.n)
  if b.spmBad.isEmpty then s else s.setBlock blk { b with spmBad := b.spmBad.filter fun x => !covered x.1 }

/-- Move the pieces that a choice `j` for one of them names. -/
def moveChosen (s : State) (core slot : Nat) (c : Copy) (e : Elem) (j : Nat) : Landing :=
  let q := choosePieces c e j
  let r := moveAll core q.1 { s := s, c := q.2 }
  let s := r.s.setCopy core slot r.c
  if c.kind == .store then { r with s := endRecalls s (domOf core) } else { r with s := landedWords s c.blk r.moved }

/-- Look for the page of a piece, and move the pieces of its line if no piece stands before it. A fault is posted to
the engine fault queue (R283, R284, R384). -/
def copySeek (s : State) (core slot : Nat) (c : Copy) (e : Elem) : Landing :=
  match findPage s core slot c e with
  | none => { s := s, c := c }
  | some (s, c') =>
    if c'.fault.isSome then { s := postFault (s.setCopy core slot c') (s.viOf c.blk) (.engine core slot), c := c' }
    else
      match c'.pend with
      | x :: _ => if c.open_.isEmpty then moveChosen s core slot c' x 0 else { s := s.setCopy core slot c', c := c' }
      | [] => { s := s, c := c' }

/-- A move of a copy: the recalled line first; else `k` names one of the pieces that may move now, or the first whose
page is to be found, and how much of it moves (R240, R276, R283, R284, R288). -/
def copyMove (s : State) (core slot k : Nat) (c : Copy) : Landing :=
  let n := c.open_.length
  match recalledPiece s core c with
  | some e => moveChosen s core slot c e 0
  | none =>
    match c.pend[k % (n + 1)]? with
    | none => { s := s, c := c }
    | some e => if k % (n + 1) = n then copySeek s core slot c e else moveChosen s core slot c e (k / (n + 1))

/-- The bytes that have landed in SPM are counted at the barrier of their copy (R283). -/
def countLanded (c : Copy) (r : Landing) : State :=
  match c.kind, c.bar with
  | .load, some n => if r.landed = 0 then r.s else barUpdate r.s c.blk n { landed := r.landed }
  | _, _ => r.s

/-- COPY_LAND (R271, R276, R283, R288): pieces of a copy move, and their bytes are counted at its barrier. The
last bytes of a copy into SPM land in COPY_COMPLETE. DEDUCED (log 45). -/
def execCopyLand (core slot k : Nat) (s : State) : Host.Outcome State Fault Refusal :=
  match s.copy? core slot with
  | none => .next s
  | some c =>
    match c.kind, c.fault with
    | .stage _ _, _ => .next s
    | _, some _ => .next s
    | kind, none =>
      let r := copyMove s core slot k c
      if kind == .load && r.c.pend.isEmpty then .next s else .next (countLanded c r)

/-- The landing that ends a copy, or its end where nothing is left to move (R281, R283). -/
def copyFinish (s : State) (core slot : Nat) (c : Copy) : State :=
  match c.kind with
  | .load =>
    let r := copyMove s core slot 0 c
    if r.c.pend.isEmpty && r.c.fault.isNone then endCopy r.s core slot r.c r.landed
    else countLanded c r
  | .store => if c.pend.isEmpty then endCopy s core slot c 0 else s
  | .stage _ _ => s

end Sys2Proof.Machine
end

