-- ==== Sys2Proof/Machine/Matrix.lean ====
section
/-!
DEFINITION. The matrix engine: parameter blocks, the command queue, the arithmetic of R80-R86, the
weight bank and CPPW, MXPUSH, MXFENCE, MXQUERY and QBLK (R289-R314, R345, R346).
-/
namespace Sys2Proof.Machine

/-! ## Formats (R81, R296, R299, R301) -/

/-- The element size of a WFMT or AFMT code (R296). -/
def mxSize (f : Nat) : Nat := if f < 2 then 2 else if f = 6 then 8 else 1
/-- The pass length L of a format (R81, R296). -/
def mxPass (f : Nat) : Nat := if f < 2 ∨ f = 6 then 32 else 64
/-- The format group (R299). -/
def mxGroup (f : Nat) : Nat := if f = 6 then 3 else f / 2
/-- The largest KPASS of a format (R296). -/
def mxPassMax (f : Nat) : Nat := if f < 2 then 4 else if f = 6 then 1 else 2
/-- The floating-point format of a code (R296). -/
def mxFmt (f : Nat) : Fmt :=
  match f with
  | 0 => bf16
  | 1 => fp16
  | 2 => e4m3
  | 3 => e5m2
  | _ => fp64
/-- The element size of an ACCUM or DRAIN FMT code (R301). -/
def accSize (f : Nat) : Nat :=
  match f with
  | 1 => 2
  | 2 => 2
  | 3 => 1
  | 4 => 1
  | 7 => 8
  | _ => 4

/-- K_w of a view: the K indices of the weight set (R296). -/
def MxView.kw (v : MxView) : Nat := v.kpass * mxPass v.fmt
/-- The bytes of the weight set of a view (R297). -/
def MxView.bytes (v : MxView) : Nat := 32 * v.kw * mxSize v.fmt / (if v.sparse then 2 else 1)

/-! ## Arrays and their queue (R289, R293) -/

def State.array (s : State) (core part : Nat) : MxArray := Sp.get {} (s.core core).arrays part
def State.setArray (s : State) (core part : Nat) (a : MxArray) : State :=
  s.setCore core { s.core core with arrays := Sp.put (s.core core).arrays part a }

/-- A word of the accumulator memory. -/
def MxArray.word (a : MxArray) (r n : Nat) : Nat := (Sp.get 0 a.acc (r * 32 + n)).toNat
/-- The array with a word of the accumulator memory written. -/
def MxArray.setWord (a : MxArray) (r n x : Nat) : MxArray :=
  { a with acc := Sp.set 0 a.acc (r * 32 + n) (BitVec.ofNat 32 x) }
/-- Element `n` of the row pair at an even row (R289). -/
def MxArray.pair (a : MxArray) (r n : Nat) : Nat := a.word r (2 * n) + 2 ^ 32 * a.word r (2 * n + 1)
/-- The array with an element of a row pair written. -/
def MxArray.setPair (a : MxArray) (r n x : Nat) : MxArray :=
  (a.setWord r (2 * n) (x % 2 ^ 32)).setWord r (2 * n + 1) (x / 2 ^ 32)

/-- Field of a parameter block: `n` bytes at an offset. -/
def MxCmd.f (c : MxCmd) (o n : Nat) : Nat := c.par.read o n

/-- The slot that a LOADW or STREAM names (R296, R299). -/
def MxCmd.slot (c : MxCmd) : Nat := c.f 1 1 % 2
/-- The view that a LOADW gives its slot (R294). -/
def MxCmd.view (c : MxCmd) : MxView :=
  { fmt := c.f 4 1, kpass := c.f 5 1, scaled := (c.f 1 1).testBit 1, sparse := (c.f 1 1).testBit 2 }

/-! ## The checks of MXPUSH (R294, R303, R306) -/

/-- Whether every byte from `lo` to `hi - 1` is zero. -/
def zeros (m : Memory) (lo hi : Nat) : Bool := m.read lo (hi - lo) = 0

/-- The first of the checks that fails. -/
def firstBreach (cs : List (Bool × Nat)) : Option Nat := (cs.find? (·.1)).map (·.2)

/-- The offset that a LOADW breaches (R296, R306). -/
def loadwBreach (c : MxCmd) : Option Nat :=
  let fl := c.f 1 1
  let src := c.f 2 1
  let v := c.view
  let addr := c.f 8 8
  firstBreach
    [(fl / 8 != 0, 1),
     (decide (2 < src), 2),
     (decide ((if src = 2 then 3 else 0) < c.f 3 1), 3),
     (decide (6 < v.fmt), 4),
     (v.kpass == 0 || decide (mxPassMax v.fmt < v.kpass), 5),
     (c.f 6 2 != 0, 6),
     (if src = 0 then addr % 64 != 0 || decide (65536 < addr % 65536 + v.bytes)
      else addr % 16 != 0 || addr / 2 ^ 32 != 0, 8),
     (!v.scaled && c.f 0x10 4 != 0, 0x10),
     (if v.sparse then c.f 0x14 4 % 8 != 0 else c.f 0x14 4 != 0, 0x14),
     (!zeros c.par 0x18 0x3C, 0x18),
     (v.scaled && !(v.kw == 128 && decide (v.fmt ≤ 3)), 1),
     (v.sparse && !(v.fmt == 0 || v.fmt == 2 || v.fmt == 3), 1)]

/-- Whether AROW and M leave the accumulator memory, or break a row pair (R299). -/
def rowsBreach (pairs : Bool) (m arow : Nat) : Bool :=
  if pairs then arow % 2 != 0 || decide (1024 < arow + 2 * m) else decide (1024 < arow + m)

/-- Whether M is out of its limits (R299). -/
def countBreach (pairs : Bool) (m : Nat) : Bool := m == 0 || decide ((if pairs then 512 else 1024) < m)

/-- The offset that a STREAM breaches, against the view of its slot (R299, R306). -/
def streamBreach (c : MxCmd) (view : Option MxView) : Option Nat :=
  let fl := c.f 1 1
  let src := c.f 2 1
  let af := c.f 4 1
  match view with
  | none => some 1
  | some v =>
    firstBreach
      [(fl / 8 != 0 || fl.testBit 2 != v.scaled, 1),
       (src != 1 && src != 2, 2),
       (decide ((if src = 2 then 3 else 0) < c.f 3 1), 3),
       (decide (6 < af) || mxGroup af != mxGroup v.fmt, 4),
       (c.f 5 1 != 0, 5),
       (countBreach (af == 6) (c.f 6 2), 6),
       (c.f 8 4 % 16 != 0, 8),
       (c.f 0xC 4 % 16 != 0, 0xC),
       (if fl.testBit 2 then c.f 0x10 4 % 4 != 0 else c.f 0x10 4 != 0, 0x10),
       (rowsBreach (af == 6) (c.f 6 2) (c.f 0x14 2), 0x14),
       (!zeros c.par 0x16 0x3C, 0x16)]

/-- The offset that an ACCUM or DRAIN breaches (R301, R306). -/
def moveBreach (c : MxCmd) (drain : Bool) : Option Nat :=
  let fl := c.f 1 1
  let fmt := c.f 4 1
  let ok := if drain then fmt ≤ 7 ∧ fmt ≠ 5 else fmt ≤ 2 ∨ fmt = 6 ∨ fmt = 7
  firstBreach
    [(fl / (if drain then 4 else 2) != 0, 1),
     (c.f 2 2 != 0, 2),
     (!decide ok, 4),
     (c.f 5 1 != 0, 5),
     (countBreach (fmt == 7) (c.f 6 2), 6),
     (c.f 8 4 % 16 != 0, 8),
     (c.f 0xC 4 % 16 != 0, 0xC),
     (c.f 0x10 4 != 0, 0x10),
     (rowsBreach (fmt == 7) (c.f 6 2) (c.f 0x14 2), 0x14),
     (!zeros c.par 0x16 0x3C, 0x16),
     (drain && fl.testBit 1 && fmt != 4, 1)]

/-- The offset of the first field of a parameter block that fails its check (R306 step 3). -/
def mxBreach (c : MxCmd) (a : MxArray) (nbar : Nat) : Option Nat :=
  match c.f 0 1 with
  | 1 => loadwBreach c
  | 2 => streamBreach c (Sp.find? a.views c.slot)
  | 3 => moveBreach c false
  | 4 => moveBreach c true
  | 5 => firstBreach [(c.f 1 1 != 0, 1), (decide (nbar ≤ c.f 2 1), 2), (!zeros c.par 3 0x3C, 3)]
  | _ => some 0

/-- The SPM ranges of the block's own allocation that a command reads or writes, by first offset and
length (R306 step 4). DEDUCED (log 49). -/
def mxRanges (c : MxCmd) (a : MxArray) : List (Nat × Nat) :=
  let m := c.f 6 2
  match c.f 0 1 with
  | 1 => (if c.f 2 1 = 1 then [(c.f 8 4, c.view.bytes)] else []) ++
      (if c.view.sparse then [(c.f 0x14 4, c.view.kw / 2 * 8)] else [])
  | 2 =>
    let kw := ((Sp.find? a.views c.slot).map MxView.kw).getD 0
    (if c.f 2 1 = 1 then [(c.f 8 4, (m - 1) * c.f 0xC 4 + kw * mxSize (c.f 4 1))] else []) ++
      (if (c.f 1 1).testBit 2 then [(c.f 0x10 4, 4 * m)] else [])
  | 5 => []
  | _ => [(c.f 8 4, (m - 1) * c.f 0xC 4 + 32 * accSize (c.f 4 1))]

/-- The condition that a push raises, if any (R306, R393); a poisoned word of the block is met when the block is read,
after step 2 and before its fields are checked. DESIGN CHOICE (log 155). -/
def mxCond (s : State) (c : MxCmd) (a : MxArray) : Option Cond :=
  let size := (s.launch c.blk).spm
  if c.off % 64 != 0 then some { cause := .misalign, addr := c.off, info := 8 }
  else if size < c.off + 64 then some { cause := .protect, addr := c.off, info := 8, sys := true }
  else
    match spmFailed (s.block c.blk).spmBad c.off 64, mxBreach c a (s.launch c.blk).nbar with
    | some r, _ => some { cause := .uncorrectable, reason := r, addr := c.off, info := 8, sys := true }
    | none, some o => some { cause := .mxparam, addr := c.off, info := o }
    | none, none =>
      match (mxRanges c a).find? fun r => decide (size < r.1 + r.2) with
      | some r => some { cause := .protect, addr := max r.1 size, info := 0, sys := true }
      | none =>
        if c.f 0 1 = 5 && !((s.block c.blk).bar (c.f 2 1)).init then some (barrierCond (c.f 2 1) 0 0 0) else none

/-- The command that a push at an SPM offset makes. -/
def pushed (s : State) (off : Nat) : MxCmd :=
  { blk := s.iss.blk, weft := s.iss.weft, op := s.nextOp, seq := s.wft.mxSeq, off := off
    par := Memory.writeBytes [] 0 ((s.block s.iss.blk).spm.readBytes off 64) }

/-- MXPUSH (R306, R307). -/
def execMxpush (ka : KReg) (s : State) : Host.Outcome State Fault Refusal :=
  let core := (s.block s.iss.blk).core
  issue { permitted := fun k => k == .general || k == .matrix, regs := [] }
    (fun s => issueBusy s [] [(ka.toNat, 1)] || lanesPending s || !s.wft.room .mx 1 ||
      decide (32 ≤ (s.array core s.wft.part).queue.length))
    (fun s =>
      let part := s.wft.part
      let a := s.array core part
      let c := pushed s (s.wft.kreg ka.toNat).toNat
      match mxCond s c a with
      | some e => raiseAll s e
      | none =>
        let w := s.wft
        let s := s.setArray core part { a with
          queue := a.queue ++ [c], views := if c.f 0 1 = 1 then Sp.put a.views c.slot c.view else a.views }
        let s := s.setWeft s.iss.blk s.iss.weft { w with mx := w.mx ++ [{ op := s.nextOp }], mxSeq := w.mxSeq + 1 }
        let b := s.block s.iss.blk
        let s := s.setBlock s.iss.blk { b with pushed := b.pushed ||| 1 <<< part }
        advanceAll { s with nextOp := s.nextOp + 1 }) s

/-- MXFENCE (R308). -/
def execMxfence (s : State) : Host.Outcome State Fault Refusal :=
  issue { permitted := fun k => k == .general || k == .matrix, regs := [] } (fun s => issueBusy s [] [])
    (fun s => holdLanes s (waitOp s (.mxfence s.wft.part))) s

/-- MXQUERY's word (R309). -/
def mxQueryWord (a : MxArray) (failed : Bool) : Nat :=
  let bit := fun (b : Bool) (i : Nat) => if b then 2 ^ i else 0
  96 * 2 ^ 16 + a.spare % 4 * 2 ^ 12 + bit (Sp.find? a.views 1).isSome 11 + bit (Sp.find? a.views 0).isSome 10 +
    bit (Sp.get {} a.slots 1).valid 9 + bit (Sp.get {} a.slots 0).valid 8 + bit failed 7 + bit (a.gated == 0) 6 +
    a.queue.length % 64

/-- MXQUERY (R309). -/
def execMxquery (d : VReg) (s : State) : Host.Outcome State Fault Refusal :=
  issue { permitted := fun k => k == .general || k == .matrix, regs := [one d] } (fun s => issueBusy s [one d] [])
    (fun s =>
      let x := BitVec.ofNat 32 (mxQueryWord (s.array (s.block s.iss.blk).core s.wft.part) s.wft.mxFailed)
      let s := s.setWeft s.iss.blk s.iss.weft { s.wft with mxFailed := false }
      s.iss.lanes.foldl (laneStep fun l => .next ((s.lane l).setReg d.toNat x)) s) s

/-! ## Arithmetic (R80-R86) -/

/-- The exact product of two values (R81). -/
def fProd (x y : FVal) : FVal :=
  if x.isNaN || y.isNaN || zeroTimesInf x y then .nan false
  else
    match x, y with
    | .fin n1 m1 e1, .fin n2 m2 e2 => .fin (n1 != n2) (m1 * m2) (e1 + e2)
    | x, y => .inf (x.neg != y.neg)

/-- PassSum of the exact products of a pass, as an FP32 pattern (R81). -/
def passSum (ps : List FVal) : Nat :=
  let has := fun n => ps.any fun p => p == .inf n
  if ps.any FVal.isNaN || (has false && has true) then fp32.nan
  else if has false then fp32.inf
  else if has true then fp32.sign true + fp32.inf
  else
    let es := ps.filterMap fun p =>
      match p with
      | .fin _ m e => if m = 0 then none else some (Int.ofNat m.log2 + e)
      | _ => none
    match es with
    | [] => 0
    | e0 :: es =>
      let top := es.foldl max e0
      let total : Int := ps.foldl (fun s p =>
        match p with
        | .fin n m e =>
          let sh := e + 32 - top
          let x := if 0 ≤ sh then m * 2 ^ sh.toNat else m / 2 ^ (-sh).toNat
          if n then s - (x : Int) else s + (x : Int)
        | _ => s) 0
      (roundInt fp32 0 total (top - 32) false).bits

/-- FP32 addition and multiplication of patterns, in RNE (R80, R82, R83). -/
def mxAdd (x y : Nat) : Nat := (fAdd fp32 0 (unpack fp32 x) (unpack fp32 y)).bits
def mxMul (x y : Nat) : Nat := (fMul fp32 0 (unpack fp32 x) (unpack fp32 y)).bits

/-- The weights kept in a column, in ascending order of K index: the index and the element (R297). -/
def WSlot.column (w : WSlot) (n : Nat) : List (Nat × Nat) :=
  let e := mxSize w.view.fmt
  if w.view.sparse then
    (List.range (w.view.kw / 2)).map fun j =>
      (4 * (j / 2) + w.idx.read (8 * j) 8 / 4 ^ n % 4, w.data.read (e * (32 * j + n)) e)
  else (List.range w.view.kw).map fun k => (k, w.data.read (e * (32 * k + n)) e)

/-- Whether the metadata orders the kept rows of every group in every column (R297). -/
def WSlot.metaOk (w : WSlot) : Bool :=
  !w.view.sparse || (List.range 32).all fun n =>
    (List.range (w.view.kw / 4)).all fun g =>
      decide (w.idx.read (16 * g) 8 / 4 ^ n % 4 < w.idx.read (16 * g + 8) 8 / 4 ^ n % 4)

/-- The value of an INT8 element: I8, or N8 (R84). -/
def int8 (fmt x : Nat) : Int := if fmt = 4 then (BitVec.ofNat 8 x).toInt else x % 256

/-- The sums of the passes of an output element (R81, R300): `act k` is activation element k. -/
def passes (w : WSlot) (afmt : Nat) (act : Nat → Nat) (col : List (Nat × Nat)) : List Nat :=
  (List.range w.view.kpass).map fun j =>
    passSum ((col.filter fun (x : Nat × Nat) => x.1 / mxPass w.view.fmt == j).map fun (x : Nat × Nat) =>
      fProd (unpack (mxFmt afmt) (act x.1)) (unpack (mxFmt w.view.fmt) x.2))

/-- An output element of a STREAM from its start (R82-R85, R300); `scale` is the row's activation scale. -/
def streamElem (w : WSlot) (afmt : Nat) (act : Nat → Nat) (n scale acc : Nat) : Nat :=
  let col := w.column n
  match mxGroup afmt with
  | 2 => (((acc : Int) + (col.map fun (x : Nat × Nat) => int8 afmt (act x.1) * int8 w.view.fmt x.2).sum) % 2 ^ 32).toNat
  | 3 => col.foldl (fun acc (x : Nat × Nat) =>
      (fFma fp64 0 (unpack fp64 (act x.1)) (unpack fp64 x.2) (unpack fp64 acc)).bits) acc
  | _ =>
    let ps := passes w afmt act col
    if w.view.scaled then
      match ps with
      | [] => acc
      | p :: ps => mxAdd acc (mxMul (ps.foldl mxAdd p) (mxMul scale w.wscale))
    else ps.foldl mxAdd acc

/-- An SPM element widened exactly to FP32; a NaN becomes canonical (R77, R302). -/
def mxWiden (fmt x : Nat) : Nat :=
  (fConv fp32 0 (unpack (match fmt with | 1 => bf16 | 2 => fp16 | _ => fp32) x)).bits

/-- The accumulator word or element that ACCUM leaves (R302). -/
def accumElem (add : Bool) (fmt old x : Nat) : Nat :=
  match fmt with
  | 6 => if add then (old + x) % 2 ^ 32 else x
  | 7 => if add then (fAdd fp64 0 (unpack fp64 old) (unpack fp64 x)).bits
         else if (unpack fp64 x).isNaN then fp64.nan else x
  | _ => if add then mxAdd old (mxWiden fmt x) else mxWiden fmt x

/-- The SPM element that DRAIN writes (R302). -/
def drainElem (e5inf : Bool) (fmt x : Nat) : Nat :=
  match fmt with
  | 0 => if (unpack fp32 x).isNaN then fp32.nan else x
  | 1 => (fConv bf16 0 (unpack fp32 x)).bits
  | 2 => (fConv fp16 0 (unpack fp32 x)).bits
  | 3 => (toE4M3 (unpack fp32 x)).bits
  | 4 => (toE5M2 e5inf (unpack fp32 x)).bits
  | 7 => if (unpack fp64 x).isNaN then fp64.nan else x
  | _ => x

/-! ## Execution of commands (R293, R295, R298, R300, R302, R303) -/

/-- Whether bytes of an allocation hold a poisoned word (R393). -/
def spmPoisoned (s : State) (blk off n : Nat) : Bool :=
  (s.block blk).spmBad.any fun e => decide (4 * e.1 < off + n) && decide (off < 4 * e.1 + 4)

/-- Bytes of an allocation written by an engine; poison of words covered whole is cleared (R393). -/
def spmWrite (s : State) (blk off n x : Nat) : State :=
  let b := s.block blk
  s.setBlock blk { b with
    spm := b.spm.write off n x
    spmBad := b.spmBad.filter fun e => !(decide (off ≤ 4 * e.1) && decide (4 * e.1 + 4 ≤ off + n)) }

/-- The command of an array that executes next, if its effect is still to be made and no quarter it
needs is gated: its OP is `op` (R293, R312). -/
def mxHead (s : State) (core part op : Nat) : Option MxCmd :=
  let a := s.array core part
  match a.queue with
  | c :: _ => if c.f 0 1 = op ∧ c.res = none ∧ (op = 5 ∨ a.gated = 0) then some c else none
  | [] => none

/-- The command at the head changed. -/
def mxSetHead (s : State) (core part : Nat) (f : MxCmd → MxCmd) : State :=
  let a := s.array core part
  match a.queue with
  | c :: q => s.setArray core part { a with queue := f c :: q }
  | [] => s

/-- The command at the head has made its effect, and ends with a STATUS (R304). -/
def mxEnd (s : State) (core part status : Nat) : State :=
  mxSetHead s core part fun c => { c with res := some status, need := none }

/-- An array as the notes of overwritten bytes name it. -/
def arrayId (core part : Nat) : Nat := core * 4 + part

/-- An allocation as a queued command of an array reads it: a byte that another agent has overwritten since the push is
old or new (R293, R310). -/
def spmQueued (s : State) (array blk : Nat) (c : MxCmd) : Memory × State :=
  spmSeen s blk (stillOld array c.op (s.block blk).was [])

/-- A LOADW ends: its slot holds the set, or becomes invalid (R298). Of several failures the source's is reported before
poisoned metadata, and that before bad metadata. DESIGN CHOICE (log 180). -/
def loadwEnd (s : State) (core part : Nat) (c : MxCmd) (r : Except Nat Memory) : State :=
  let a := s.array core part
  let old : WSlot := Sp.get {} a.slots c.slot
  let bad := fun code =>
    mxEnd (s.setArray core part { a with slots := Sp.put a.slots c.slot { old with valid := false } }) core part code
  match r with
  | .error code => bad code
  | .ok data =>
    let len := c.view.kw / 2 * 8
    if c.view.sparse && spmPoisoned s c.blk (c.f 0x14 4) len then bad 2
    else
      let q := spmQueued s (arrayId core part) c.blk c
      let s := q.2
      let w : WSlot :=
        { view := c.view, wscale := c.f 0x10 4, valid := true, data := data
          idx := if c.view.sparse then Memory.writeBytes [] 0 (q.1.readBytes (c.f 0x14 4) len) else [] }
      if w.metaOk then
        mxEnd (s.setArray core part { a with slots := Sp.put a.slots c.slot w }) core part 0
      else bad 5

/-- A LOADW of `n` bytes of an allocation ends, with them as its set if none is poisoned (R298). -/
def loadwSpm (s : State) (core part : Nat) (c : MxCmd) (blk off n : Nat) : State :=
  if spmPoisoned s blk off n then loadwEnd s core part c (.error 2)
  else
    let q := spmQueued s (arrayId core part) blk c
    loadwEnd q.2 core part c (.ok (Memory.writeBytes [] 0 (q.1.readBytes off n)))

/-- The frame of a core's weight bank that holds a plate page, STAGING or VALID (R345). -/
def frameOf (s : State) (core page : Nat) : Option (Nat × Frame) := List.find? (fun e => e.2.tag == page) (s.core core).bank

/-- Mark a frame as the most recently used (R345, R346). -/
def touchFrame (s : State) (core frame : Nat) : State :=
  s.setCore core { s.core core with bankUse := (s.core core).bankUse.filter (· != frame) ++ [frame] }

/-- A frame becomes EMPTY (R345). -/
def emptyFrame (s : State) (core frame : Nat) : State :=
  s.setCore core { s.core core with
    bank := Sp.del (s.core core).bank frame, bankUse := (s.core core).bankUse.filter (· != frame) }

/-- Whether one of `n` bytes of a frame lies in a poisoned word (R392, R393). -/
def Frame.poisoned (f : Frame) (off n : Nat) : Bool := (spmFailed f.poison off n).isSome

/-- The PA of the weights that a LOADW from BANK names, if it translates; nothing yet, where the walk waits (R298).
DEDUCED (log 48). -/
def bankAddr (s : State) (core : Nat) (c : MxCmd) : Option (Option Nat) × State :=
  let va := c.f 8 8
  if !canonical (BitVec.ofNat 64 va) then (some none, s)
  else
    match translate s core (s.viOf c.blk) (s.asnOf c.blk) (va % 2 ^ 57) {} with
    | (.wait, s) => (none, s)
    | (.fault _ _, s) => (some none, s)
    | (.ok t, s) => (some (if t.plate && t.r then some (t.phys (va % 2 ^ 57)) else none), s)

/-- LOADW (R298): from SPM, a cluster allocation, or the weight bank, which it waits for. -/
def execLoadw (core part : Nat) (s : State) : Host.Outcome State Fault Refusal :=
  match mxHead s core part 1 with
  | none => .next s
  | some c =>
    match c.f 2 1 with
    | 0 =>
      match bankAddr s core c with
      | (none, s) => .next s
      | (some none, s) => .next (loadwEnd s core part c (.error 1))
      | (some (some pa), s) =>
        match frameOf s core (pa / 65536 * 65536) with
        | some (frame, f) =>
          if !f.valid then .next (mxSetHead s core part fun c => { c with need := some f.tag })
          else if f.poisoned (pa % 65536) c.view.bytes then .next (loadwEnd (emptyFrame s core frame) core part c (.error 2))
          else .next (loadwEnd (touchFrame s core frame) core part c
            (.ok (Memory.writeBytes [] 0 (f.data.readBytes (pa % 65536) c.view.bytes))))
        | none => .next (mxSetHead s core part fun c => { c with need := some (pa / 65536 * 65536) })
    | 1 => .next (loadwSpm s core part c c.blk (c.f 8 4) c.view.bytes)
    | _ =>
      match clusterTargetOf s c.blk (c.f 3 1) with
      | none => .next (loadwEnd s core part c (.error 3))
      | some b =>
        if (s.launch b).spm < c.f 8 4 + c.view.bytes then .next (loadwEnd s core part c (.error 3))
        else .next (loadwSpm s core part c b (c.f 8 4) c.view.bytes)

/-- One activation row through a slot, into its accumulator row or row pair; none where a word it
reads is poisoned (R300, R304, R310). -/
def streamRow (core part : Nat) (w : WSlot) (c : MxCmd) (src : Nat) (s : State) (m : Nat) : Option State :=
  let a := s.array core part
  let af := c.f 4 1
  let e := mxSize af
  let start := (c.f 1 1).testBit 1
  let at' := c.f 8 4 + m * c.f 0xC 4
  let r := c.f 0x14 2 + (if af = 6 then 2 * m else m)
  let rows := if af = 6 then [r, r + 1] else [r]
  if spmPoisoned s src at' (w.view.kw * e) || (w.view.scaled && spmPoisoned s c.blk (c.f 0x10 4 + 4 * m) 4) ||
      (!start && rows.any a.accBad.contains) then none
  else
    let q := spmQueued s (arrayId core part) src c
    let q' := spmQueued q.2 (arrayId core part) c.blk c
    let act := fun k => q.1.read (at' + e * k) e
    let scale := q'.1.read (c.f 0x10 4 + 4 * m) 4
    let a := { a with accBad := a.accBad.filter fun x => !rows.contains x }
    some (q'.2.setArray core part <| (List.range 32).foldl (fun a n =>
      if af = 6 then a.setPair r n (streamElem w af act n scale (if start then 0 else a.pair r n))
      else a.setWord r n (streamElem w af act n scale (if start then 0 else a.word r n))) a)

/-- The rows of a command in order, up to the first that fails: the result and the failing row. -/
def mxRows {α : Type} (f : α → Nat → Option α) : List Nat → α → α × Option Nat
  | [], x => (x, none)
  | m :: ms, x =>
    match f x m with
    | none => (x, some m)
    | some y => mxRows f ms y

/-- STATUS of a command that did its rows up to a failing one (R304). -/
def rowStatus : Option Nat → Nat
  | none => 0
  | some m => m * 2 ^ 16 + 2

/-- STREAM (R300). DEDUCED (log 47). -/
def execStream (core part : Nat) (s : State) : Host.Outcome State Fault Refusal :=
  match mxHead s core part 2 with
  | none => .next s
  | some c =>
    let a := s.array core part
    let w : WSlot := Sp.get {} a.slots c.slot
    let src := if c.f 2 1 = 1 then some c.blk else clusterTargetOf s c.blk (c.f 3 1)
    if !w.valid then .next (mxEnd s core part 4)
    else
      match src with
      | none => .next (mxEnd s core part 3)
      | some b =>
        if (s.launch b).spm < c.f 8 4 + (c.f 6 2 - 1) * c.f 0xC 4 + w.view.kw * mxSize (c.f 4 1) then .next (mxEnd s core part 3)
        else
          let r := mxRows (streamRow core part w c b) (List.range (c.f 6 2)) s
          .next (mxEnd r.1 core part (rowStatus r.2))

/-- One row of an ACCUM (R302, R304, R310). -/
def accumRow (core part : Nat) (c : MxCmd) (s : State) (m : Nat) : Option State :=
  let a := s.array core part
  let fmt := c.f 4 1
  let e := accSize fmt
  let add := (c.f 1 1).testBit 0
  let at' := c.f 8 4 + m * c.f 0xC 4
  let r := c.f 0x14 2 + (if fmt = 7 then 2 * m else m)
  let rows := if fmt = 7 then [r, r + 1] else [r]
  if spmPoisoned s c.blk at' (32 * e) || (add && rows.any a.accBad.contains) then none
  else
    let q := spmQueued s (arrayId core part) c.blk c
    let x := fun n => q.1.read (at' + e * n) e
    let a := { a with accBad := a.accBad.filter fun x => !rows.contains x }
    some (q.2.setArray core part <| (List.range 32).foldl (fun a n =>
      if fmt = 7 then a.setPair r n (accumElem add fmt (a.pair r n) (x n))
      else a.setWord r n (accumElem add fmt (a.word r n) (x n))) a)

/-- ACCUM (R302). -/
def execAccum (core part : Nat) (s : State) : Host.Outcome State Fault Refusal :=
  match mxHead s core part 3 with
  | none => .next s
  | some c =>
    let r := mxRows (accumRow core part c) (List.range (c.f 6 2)) s
    .next (mxEnd r.1 core part (rowStatus r.2))

/-- The accumulator rows that row `m` of a DRAIN reads (R302). -/
def MxCmd.drainRows (c : MxCmd) (m : Nat) : List Nat :=
  let r := c.f 0x14 2 + (if c.f 4 1 = 7 then 2 * m else m)
  if c.f 4 1 = 7 then [r, r + 1] else [r]

/-- The place of row `m` of a DRAIN in its allocation (R302). -/
def MxCmd.drainAt (c : MxCmd) (m : Nat) : Nat := c.f 8 4 + m * c.f 0xC 4

/-- The bytes of row `m` of a DRAIN, lowest first (R302). -/
def MxCmd.drainBytes (c : MxCmd) (a : MxArray) (m : Nat) : List Byte :=
  let fmt := c.f 4 1
  let r := (c.drainRows m).headD 0
  ((List.range 32).map fun n =>
    Memory.readBytes (Memory.write [] 0 (accSize fmt)
      (drainElem ((c.f 1 1).testBit 1) fmt (if fmt = 7 then a.pair r n else a.word r n))) 0 (accSize fmt)).flatten

/-- The first row of a DRAIN that its accumulator storage has lost, else the number of its rows (R304). -/
def MxCmd.drainGood (c : MxCmd) (a : MxArray) : Nat :=
  ((List.range (c.f 6 2)).find? fun m => (c.drainRows m).any a.accBad.contains).getD (c.f 6 2)

/-- What the first `n` rows of a DRAIN write in its allocation, by offset (R302). -/
def MxCmd.drainOut (c : MxCmd) (a : MxArray) (n : Nat) : Sp Byte :=
  (List.range n).foldl (fun o m =>
    (((c.drainBytes a m).zip (List.range (32 * accSize (c.f 4 1)))).foldl (fun o x => Sp.put o (c.drainAt m + x.2) x.1) o)) []

/-- CLEAR leaves zeros in the accumulator rows that a DRAIN has read (R302). -/
def MxCmd.drainClear (c : MxCmd) (a : MxArray) (n : Nat) : MxArray :=
  if (c.f 1 1).testBit 0 then
    (List.range n).foldl (fun a m => (c.drainRows m).foldl (fun a r => (List.range 32).foldl (fun a i => a.setWord r i 0) a) a) a
  else a

/-- Bytes of a DRAIN land in its allocation (R271, R295). -/
def landDrain (s : State) (array : Nat) (c : MxCmd) (bs : List (Nat × Byte)) : State :=
  bs.foldl (fun s e =>
    let s := noteSpm s c.blk e.1 1 (some array)
    s.setBlock c.blk { s.block c.blk with spm := (s.block c.blk).spm.setByte e.1 e.2 }) s

/-- Some of the bytes of a DRAIN that have not landed: the first, and a free choice of the others (R310).
DEDUCED (log 167). -/
def pickLanding (s : State) : List (Nat × Byte) → List (Nat × Byte) × State
  | [] => ([], s)
  | e :: es =>
    es.foldl (fun r x =>
      let f := r.2.fresh
      (if Config.freeVersion f.1 then r.1 ++ [x] else r.1, f.2)) ([e], s)

/-- A DRAIN at the head of its queue lands some of its bytes (R295, R310). -/
def drainStep (s : State) (core part : Nat) (c : MxCmd) : State :=
  let q := pickLanding s c.land
  let s := landDrain q.2 (arrayId core part) c q.1
  mxSetHead s core part fun c => { c with land := q.1.foldl (fun l e => Sp.del l e.1) c.land }

/-- DRAIN (R295, R302, R304): its rows are read and cleared up to one that has failed, and its bytes land one by one
from then on; MX_COMPLETE lands the last. -/
def execDrain (core part : Nat) (s : State) : Host.Outcome State Fault Refusal :=
  match mxHead s core part 4, (s.array core part).queue with
  | some c, _ =>
    let a := s.array core part
    let n := c.drainGood a
    let s := mxEnd (s.setArray core part (c.drainClear a n)) core part (rowStatus (if n = c.f 6 2 then none else some n))
    let c := { c with land := c.drainOut a n }
    .next (drainStep (mxSetHead s core part fun x => { x with land := c.land }) core part c)
  | none, c :: _ => .next (if c.land.isEmpty then s else drainStep s core part c)
  | none, [] => .next s

/-- The failures of a block's commands on one array that no event has delivered yet, first issued first (R305). -/
def mxUndelivered (s : State) (blk part : Nat) : List (Nat × Failure) :=
  ((List.range (s.launch blk).wefts).map fun w =>
    if (s.weft blk w).part = part then
      ((s.weft blk w).failures.filter fun f => f.cls == .matrix).map fun f => (w, f)
    else []).flatten

/-- SIGNAL (R303, R305): one arrival on its barrier, or ERR for the failures not yet delivered; of several, the
frame records the one issued first. DESIGN CHOICE (log 154). -/
def execSignal (core part : Nat) (s : State) : Host.Outcome State Fault Refusal :=
  match mxHead s core part 5 with
  | none => .next s
  | some c =>
    let fs := mxUndelivered s c.blk part
    let s := fs.foldl (fun s e =>
      s.setWeft c.blk e.1 { s.weft c.blk e.1 with failures := (s.weft c.blk e.1).failures.erase e.2 }) s
    match firstFailure (fs.map (·.2)) with
    | none => .next (mxEnd (barUpdate s c.blk (c.f 2 1) { arrivals := 1 }) core part 0)
    | some f => .next (mxEnd (barUpdate s c.blk (c.f 2 1) { fail := some (2, f.code, f.addr) }) core part 0)

/-- The last bytes of a command land, and the words that a DRAIN has written whole are poisoned no longer (R295,
R393). -/
def landRest (s : State) (array : Nat) (c : MxCmd) (st : Nat) : State :=
  let s := landDrain s array c c.land
  let b := s.block c.blk
  let rows := if c.f 0 1 = 4 then (if st % 256 = 0 then c.f 6 2 else st / 2 ^ 16) else 0
  let covered := fun w => (List.range 4).all fun i => (List.range rows).any fun m =>
    decide (c.drainAt m ≤ 4 * w + i) && decide (4 * w + i < c.drainAt m + 32 * accSize (c.f 4 1))
  if b.spmBad.isEmpty then s else s.setBlock c.blk { b with spmBad := b.spmBad.filter fun x => !covered x.1 }

/-- MX_COMPLETE (R286, R295, R304, R305, R309): STATUS takes its place, and the command retires. -/
def execMxComplete (core part : Nat) (s : State) : Host.Outcome State Fault Refusal :=
  let a := s.array core part
  match a.queue with
  | [] => .next s
  | c :: q =>
    match c.res with
    | none => .next s
    | some st =>
      let s := landRest (s.setArray core part { a with queue := q }) (arrayId core part) c st
      let s := spmWrite (noteSpm s c.blk (c.off + 0x3C) 4 (some (arrayId core part))) c.blk (c.off + 0x3C) 4 st
      let x := s.weft c.blk c.weft
      let bad := st % 256 != 0
      let f : Failure := { cls := .matrix, seq := c.seq, op := c.op, code := st % 256, addr := c.off }
      .next (s.setWeft c.blk c.weft { x with
        mx := countDone x.mx c.op, mxFailed := x.mxFailed || bad
        failures := if bad then x.failures ++ [f] else x.failures })

/-! ## The weight bank (R236, R345, R346) -/

/-- The plate page that a command waits for and no frame holds, of the arrays of a core. -/
def bankNeed (s : State) (core : Nat) : Option Nat :=
  ((s.core core).arrays.filterMap fun e =>
    match e.2.queue with
    | c :: _ =>
      match c.need with
      | some p => if (frameOf s core p).isNone then some p else none
      | none => none
    | [] => none).head?

/-- The frame that a miss stages into: the lowest EMPTY one, else the VALID one used longest ago that
no LOADW waits to read (R345). -/
def missFrame (s : State) (core : Nat) : Option Nat :=
  let k := s.core core
  if k.bank.length < 4096 then (List.range 4096).find? fun i => (Sp.find? k.bank i).isNone
  else k.bankUse.find? fun i => (Sp.get {} k.bank i).valid

/-- The plate page that a CPPW of the core is to stage into a frame, if it may now: no frame holds the
page, the frame is not STAGING, and no LOADW waits for what the frame holds (R346). -/
def cppwNeed (s : State) (core frame : Nat) : Option Nat :=
  let k := s.core core
  let f := Sp.find? k.bank frame
  let free := match f with
    | none => true
    | some x => x.valid && !k.arrays.any fun e => (e.2.queue.headD
        { blk := 0, weft := 0, op := 0, seq := 0, off := 0, par := [] }).need == some x.tag
  if !free then none
  else
    (k.copies.filterMap fun e =>
      match e.2.kind with
      | .stage p n => if n = frame ∧ e.2.status = 0 ∧ (frameOf s core p).isNone then some p else none
      | _ => none).head?

/-- What a bank stages of a plate page: its map entry is read once, and that version's slot (R345). -/
def stagedPage (s : State) (page : Nat) : Frame :=
  let d := s.domain (homeOf page)
  match Sp.find? d.plateMap (platePage page) with
  | none => { tag := page }
  | some e =>
    { tag := page, version := e.version, data := Sp.get [] d.flash e.slot
      bad := (List.range 16).find? fun i => d.flashBad.contains (e.slot * 16 + i) }

/-- Start staging a plate page into a frame (R345); it waits for its way to the page's home, and a read that is dropped
on it fails (R422, R434, R458). -/
def stageFrame (s : State) (core frame page : Nat) : State :=
  let start := fun (s : State) (f : Frame) =>
    touchFrame (s.setCore core { s.core core with bank := Sp.put (s.core core).bank frame f }) core frame
  match wayTo s (domOf core) (homeOf page) with
  | .crosses => start s (stagedPage s page)
  | .waits => s
  | .dropped at_ _ => start (noteDrop (drawClasses s) at_) { tag := page, lost := true }

/-- WEIGHT_STAGE (R345, R346): the bank starts to stage the page that a waiting LOADW needs into the
frame that a miss takes, or the page of a CPPW into the frame it names. -/
def execWeightStage (core frame : Nat) (s : State) : Host.Outcome State Fault Refusal :=
  match bankNeed s core with
  | some p =>
    if missFrame s core = some frame then .next (stageFrame s core frame p)
    else
      match cppwNeed s core frame with
      | some p => .next (stageFrame s core frame p)
      | none => .next s
  | none =>
    match cppwNeed s core frame with
    | some p => .next (stageFrame s core frame p)
    | none => .next s

/-- The commands and the copies that wait for a page end with UNCORRECTABLE; `w` is its first codeword that cannot be
corrected (R345, R346). -/
def stageFailed (s : State) (core page w : Nat) : State :=
  let s := (List.range 4).foldl (fun s p =>
    match (s.array core p).queue with
    | c :: _ => if c.need = some page then loadwEnd s core p c (.error 2) else s
    | [] => s) s
  s.setCore core { s.core core with copies := (s.core core).copies.map fun e =>
    match e.2.kind with
    | .stage p _ => (e.1, if p = page then { e.2 with status := 3, addr := e.2.addr + 4096 * w } else e.2)
    | _ => e }

/-- WEIGHT_STAGE_DONE (R345, R348): the frame becomes VALID; EMPTY where flash failed, or where a
switch overtook the staging, which then starts again. -/
def execWeightStageDone (core frame : Nat) (s : State) : Host.Outcome State Fault Refusal :=
  match Sp.find? (s.core core).bank frame with
  | none => .next s
  | some f =>
    if f.valid then .next s
    else if f.stale then .next (emptyFrame s core frame)
    else
      match if f.lost then some 0 else f.bad with
      | some w => .next (stageFailed (emptyFrame s core frame) core f.tag w)
      | none => .next (s.setCore core { s.core core with bank := Sp.put (s.core core).bank frame { f with valid := true } })

/-- CPPW's checks (R346): the condition, or the plate page; none where the walk waits. -/
def cppwPage (s : State) (core : Nat) (va : DWord) : Option (Except Cond Nat) × State :=
  if !canonical va then (some (.error { cause := .translate, reason := 4, addr := va.toNat, info := 8 }), s)
  else if va.toNat % 65536 != 0 then (some (.error { cause := .misalign, addr := va.toNat, info := 8 }), s)
  else
    match translate s core (s.viOf s.iss.blk) (s.asnOf s.iss.blk) (va.toNat % 2 ^ 57) {} with
    | (.wait, s) => (none, s)
    | (.fault c r, s) => (some (.error (walkCond c r va.toNat 8)), s)
    | (.ok t, s) =>
      if t.plate && t.r then (some (.ok (t.phys (va.toNat % 2 ^ 57) / 65536 * 65536)), s)
      else (some (.error { cause := .protect, addr := va.toNat, info := 8, sys := true }), s)

/-- CPPW (R346). -/
def execCppw (ka kb : KReg) (b : BitVec 4) (s : State) : Host.Outcome State Fault Refusal :=
  let core := (s.block s.iss.blk).core
  let va := s.wft.kpair ka.toNat
  let q := cppwPage s core va
  issueCopy [] core (issueBusy s [] [(ka.toNat, 2), (kb.toNat, 1)])
    (missStall s [va.toNat] || q.1.isNone)
    (fun s' =>
      let s1 := q.2.withIssue s'
      match q.1 with
      | none => s'
      | some (.error c) => raiseAll s1 c
      | some (.ok page) =>
        match copyBarCond s' b with
        | some c => trapAll s1 c
        | none =>
          let s2 := match frameOf s core page with
            | some e => touchFrame s1 core e.1
            | none => s1
          startCopy (advanceAll s2) ((freeSlot s core).getD 0)
            { kind := .stage page ((s.wft.kreg kb.toNat).toNat % 4096), blk := s.iss.blk, weft := s.iss.weft
              pc := s.iss.pc, bar := copyBar s b, addr := va.toNat }) s

/-- COPY_COMPLETE (R281-R284, R346): a copy whose last bytes can land, or whose frame is VALID, ends. -/
def execCopyComplete (core slot : Nat) (s : State) : Host.Outcome State Fault Refusal :=
  match s.copy? core slot with
  | none => .next s
  | some c =>
    match c.kind with
    | .stage page _ =>
      if c.status != 0 then .next (endCopy s core slot c 0)
      else
        match frameOf s core page with
        | some (_, f) => if f.valid then .next (endCopy s core slot c 0) else .next s
        | none => .next s
    | _ => if c.fault.isSome then .next s else .next (copyFinish s core slot c)

/-! ## Power (R312) -/

/-- MX_POWER_GATE (R312): an idle quarter is gated, unless MXIDLE disables it. -/
def execMxPowerGate (core part quarter : Nat) (s : State) : Host.Outcome State Fault Refusal :=
  let a := s.array core part
  if (s.domain (domOf core)).mxIdle = 0 ∨ a.queue ≠ [] ∨ 4 ≤ quarter then .next s
  else .next (s.setArray core part { a with gated := a.gated ||| 1 <<< quarter })

/-- MX_WAKE (R312): a gated quarter that a command needs is awake again. -/
def execMxWake (core part quarter : Nat) (s : State) : Host.Outcome State Fault Refusal :=
  let a := s.array core part
  match a.queue with
  | c :: _ =>
    if c.f 0 1 != 5 && a.gated.testBit quarter then
      .next (s.setArray core part { a with gated := a.gated - 2 ^ quarter })
    else .next s
  | [] => .next s

/-! ## QBLK (R313, R314) -/

/-- A value quantised to FP8 by a positive scale: the exact quotient rounded once (R79, R314). -/
def qblkElem (e5 : Bool) (x : Nat) (sc : FVal) : FRes :=
  match unpack fp32 x, sc with
  | .fin n m e, .fin _ ms es =>
    if m = 0 then ⟨(if e5 then e5m2 else e4m3).sign n, 0⟩
    else
      let num := m * 2 ^ 64
      let f := if e5 then e5m2 else e4m3
      let r := roundTo f 0 n (num / ms) (e - es - 64) (num % ms != 0)
      if r.flags.testBit 2 then ⟨f.sign n + f.maxFinite, fOF + fNX⟩ else r
  | .inf n, _ => if e5 then ⟨e5m2.sign n + e5m2.inf, 0⟩ else ⟨e4m3.sign n + e4m3.maxFinite, fOF + fNX⟩
  | _, _ => ⟨0, 0⟩

/-- QBLK of 128 source words: the bytes, the scale, the flags (R314). -/
def qblk (e5 : Bool) (xs : List Nat) : List Nat × Nat × Nat :=
  if xs.any fun x => (unpack fp32 x).isNaN then
    (xs.map fun x => if e5 then 0x7E else (if x.testBit 31 then 0xFF else 0x7F), fp32.nan, fNV)
  else
    let amax := (xs.filterMap fun x => if x % 2 ^ 31 = fp32.inf then none else some (x % 2 ^ 31)).foldl max 0
    let q := fDiv fp32 0 (unpack fp32 amax) (.fin false (if e5 then 57344 else 448) 0)
    let sc := if amax = 0 ∨ q.bits = 0 then 0x3F800000 else q.bits
    let rs := xs.map fun x => qblkElem e5 x (unpack fp32 sc)
    (rs.map (·.bits), sc, rs.foldl (fun f r => f ||| r.flags) q.flags)

/-- The condition that QBLK's operands raise (R313). -/
def qblkCond (s : State) (oa ob oc : Nat) : Option Cond :=
  let size := (s.launch s.iss.blk).spm
  let mis := fun o n => if o % n != 0 then some ({ cause := .misalign, addr := o, info := 0 } : Cond) else none
  let out := fun o n => if size < o + n then some ({ cause := .protect, addr := o, info := 0, sys := true } : Cond) else none
  ([mis oa 16, mis ob 16, mis oc 4, out oa 512, out ob 128, out oc 4].filterMap id).head?

/-- QBLK (R310, R313, R314). -/
def execQblk (ka kb kc : KReg) (f : BitVec 1) (s : State) : Host.Outcome State Fault Refusal :=
  issue { permitted := fun k => k == .general || k == .vector, regs := [] }
    (fun s => issueBusy s [] [(ka.toNat, 1), (kb.toNat, 1), (kc.toNat, 1)] || lanesPending s)
    (fun s =>
      let oa := (s.wft.kreg ka.toNat).toNat
      let ob := (s.wft.kreg kb.toNat).toNat
      let oc := (s.wft.kreg kc.toNat).toNat
      match qblkCond s oa ob oc with
      | some c => raiseAll s c
      | none =>
        match spmFailed (s.block s.iss.blk).spmBad oa 512 with
        | some r => raiseAll s { cause := .uncorrectable, reason := r, addr := oa, info := 0, sys := true }
        | none =>
          let b := s.iss.blk
          let r := qblk (f == 1) ((List.range 128).map fun i => (s.block b).spm.read (oa + 4 * i) 4)
          let s := noteSpm (noteSpm s b ob 128 none) b oc 4 none
          let s := ((List.range 128).zip r.1).foldl (fun s e => spmWrite s b (ob + e.1) 1 e.2) s
          let blk := s.block b
          let s := s.setBlock b { blk with
            spmBad := blk.spmBad.filter fun x => !(decide (ob ≤ 4 * x.1) && decide (4 * x.1 + 4 ≤ ob + 128)) }
          let s := spmWrite s b oc 4 r.2.1
          s.iss.lanes.foldl (laneStep fun l => .next ((s.lane l).raise r.2.2)) s) s

end Sys2Proof.Machine
end

