-- ==== Sys2Proof/Machine/Context.lean ====
section
/-!
DEFINITION. Phase records and save areas: their room in the context region, their layouts, their tags,
and what a placement loads from them (R159, R160, R403-R411).
-/
namespace Sys2Proof.Machine

/-! ## The context region (R403) -/

/-- The areas that blocks of a virtual interface hold in a domain. DESIGN CHOICE (log 58). -/
def areasIn (s : State) (vi d : Nat) : List Area :=
  (s.blocks.map fun e =>
    if (s.grid e.2.gid).vi = vi then ([e.2.record, e.2.area].filterMap id).filter (·.dom == d) else []).flatten

/-- The first free run of units in the context region of a domain, if there is one (R403). -/
def freeUnits (s : State) (vi d units : Nat) : Option Nat :=
  let r := Sp.get (0, 0) (s.domain d).ctx vi
  let used := areasIn s vi d
  let total := r.2 / 65536
  ((List.range (total + 1 - units)).find? fun i =>
    i + units ≤ total &&
      !used.any fun a => decide (a.base < r.1 + (i + units) * 65536) && decide (r.1 + i * 65536 < a.base + a.units * 65536)).map
    fun i => r.1 + i * 65536

/-- The units that a length takes (R403). -/
def unitsOf (len : Nat) : Nat := (len + 65535) / 65536

/-- The lines of an area. -/
def areaLines (base len : Nat) : List Nat := (List.range ((base + len + 255) / 256 - base / 256)).map (base / 256 + ·)

/-- Whether the device must wait for a line of an area at its home (R441). -/
def areaBusy (s : State) (base len : Nat) : Bool :=
  (areaLines base len).any fun l =>
    match homeGate s l with
    | .error _ => true
    | .ok _ => false

/-- The device writes an area of main DRAM, whose words at the offsets `bad` are poisoned, with the storage that
failed; it waits for a busy line, and the copies of the lines are invalidated (R393, R403, R441). DEDUCED (log 95). -/
def putArea (s : State) (base len : Nat) (m : Memory) (bad : List (Nat × Nat)) : Try :=
  if areaBusy s base len then .error s
  else
    let s := (areaLines base len).foldl (fun s l => if (s.dirEnt l).isSome then dirWrite s l 64 false else s) s
    let clean := s.bad.filter fun e => !(decide (base ≤ 8 * e.1) && decide (8 * e.1 < base + len))
    .ok { s with mem := s.mem.writeBytes base (m.readBytes 0 len)
                 bad := bad.foldl (fun b e => Sp.put b ((base + e.1) / 8) e.2) clean }

/-- The bytes of an area, if no word of it is poisoned (R410). -/
def getArea (s : State) (a : Area) : Option Memory :=
  if s.bad.any fun e => decide (a.base < 8 * e.1 + 8) && decide (8 * e.1 < a.base + a.len) then none
  else some (Memory.writeBytes [] 0 (s.mem.readBytes a.base a.len))

/-! ## The tag (R408) -/

/-- The ASCII text KD-W64 CONTEXT. -/
def contextText : List Byte := [0x4B, 0x44, 0x2D, 0x57, 0x36, 0x34, 0x20, 0x43, 0x4F, 0x4E, 0x54, 0x45, 0x58, 0x54]

/-- The bytes of a number, low first. -/
def littleEndian (n x : Nat) : List Byte := (List.range n).map fun i => BitVec.ofNat 8 (x / 256 ^ i)

/-- TAG of an area, of its bytes with TAG taken as zero (R408). -/
def areaTag (s : State) (len : Nat) (m : Memory) : Memory :=
  Memory.writeBytes [] 0
    (kmac256 (littleEndian 32 (Config.contextKey s.key)) ((m.write 0xF0 16 0).readBytes 0 len) contextText 16)

/-- The area with its tag. -/
def tagged (s : State) (len : Nat) (m : Memory) : Memory := m.write 0xF0 16 ((areaTag s len m).read 0 16)

/-! ## Layouts (R404-R407, R409) -/

/-- The number of a lane's state (R406). -/
def LaneState.code : LaneState → Nat
  | .empty => 0
  | .run => 1
  | .wait => 2
  | .trap => 3
  | .done => 4
def laneOfCode : Nat → LaneState
  | 1 => .run
  | 2 => .wait
  | 3 => .trap
  | 4 => .done
  | _ => .empty

/-- The first 0x38 bytes that a thread record and a phase record share: PC, RSDEPTH, FCSR, SPTR and the
return stack (R406, R409). -/
def putThreadHead (m : Memory) (o : Nat) (pc : DWord) (st : LaneState) (t : Thread) : Memory :=
  let m := m.write o 8 pc.toNat
  let m := m.write (o + 8) 1 st.code
  let m := m.write (o + 0xA) 1 t.rs.length
  let m := m.write (o + 0xC) 4 t.fcsr.toNat
  let m := m.write (o + 0x10) 8 t.sptr.toNat
  (List.range 4).foldl (fun m i => m.write (o + 0x18 + 8 * i) 8 (t.rs.getD i 0).toNat) m

/-- What the head holds, read into a thread. -/
def getThreadHead (m : Memory) (o : Nat) : Thread :=
  { tst := laneOfCode (m.read (o + 8) 1), pc := BitVec.ofNat 64 (m.read o 8)
    fcsr := BitVec.ofNat 32 (m.read (o + 0xC) 4), sptr := BitVec.ofNat 64 (m.read (o + 0x10) 8)
    rs := (List.range (m.read (o + 0xA) 1)).map fun i => BitVec.ofNat 64 (m.read (o + 0x18 + 8 * i) 8) }

/-- The registers of a role's carry set, ascending (R159, R195). -/
def Role.carried (r : Role) : List Nat := (List.range 128).filter r.carry.getLsbD

/-- The bytes of a lane's entry in a phase record and in a save area (R406, R409). -/
def Role.phaseBytes (r : Role) : Nat := 56 + 4 * r.carried.length
def Role.saveBytes (r : Role) : Nat := 448 + 4 * r.regs

/-- The role of weft `w` of a launch (R151). -/
def Launch.roleIndex (l : Launch) (w : Nat) : Nat :=
  (l.roles.foldl (fun (p : Nat × Nat × Bool) r =>
    if p.2.2 then p else if w < p.2.1 + r.wefts then (p.1, p.2.1, true) else (p.1 + 1, p.2.1 + r.wefts, false)) (0, 0, false)).1
def Launch.roleAt (l : Launch) (w : Nat) : Role := (l.roles[l.roleIndex w]?).getD {}

/-- The offset of weft `w`'s first lane entry from the first of all, for entries of `f` bytes a lane. -/
def weftOffset (l : Launch) (f : Role → Nat) (w : Nat) : Nat :=
  ((List.range w).map fun i => l.width * f (l.roleAt i)).sum

/-- Round up to a multiple. -/
def alignUp (x n : Nat) : Nat := (x + n - 1) / n * n

/-- The offset of the carry SPM, and the length, of a phase record (R409). -/
def phaseSpm (l : Launch) : Nat := alignUp (0x100 + weftOffset l Role.phaseBytes l.wefts) 64
def phaseLen (l : Launch) (carry : Bool) : Nat :=
  if carry && l.carrySpm != 0 then phaseSpm l + l.carrySpm else 0x100 + weftOffset l Role.phaseBytes l.wefts

/-- The offsets of a save area (R404-R407). -/
def saveThreads (l : Launch) : Nat := 0x200 + 512 * l.wefts
def saveSpm (l : Launch) : Nat := alignUp (saveThreads l + weftOffset l Role.saveBytes l.wefts) 1024
def saveArrays (l : Launch) : Nat := saveSpm l + l.spm
def saveLen (l : Launch) (arrays : Nat) : Nat :=
  let n := ((List.range 4).filter fun p => arrays.testBit p).length
  if l.spm = 0 ∧ n = 0 then saveThreads l + weftOffset l Role.saveBytes l.wefts else saveArrays l + 148544 * n

/-- The header that save areas and phase records share (R404). DEDUCED (log 149). -/
def areaHead (s : State) (b : Nat) (save : Bool) (len : Nat) : Memory :=
  let k := s.block b
  let g := s.grid k.gid
  let l := s.launch b
  let m := Memory.write [] 0 2 (if save then 1 else 2)
  let m := m.write 2 2 1
  let m := m.write 4 4 len
  let m := m.write 8 8 g.ident
  let m := m.write 0x10 4 k.lin
  let m := m.write 0x14 4 (if save then k.phase else k.phase + 1)
  let m := m.write 0x18 2 g.asn
  let m := m.write 0x1A 1 g.vi
  let m := m.write 0x1B 1 (if g.mill.isSome then k.stage else 0xFF)
  let m := m.write 0x1C 1 l.wefts
  let m := m.write 0x1D 1 l.width
  let m := m.write 0x1E 1 (if k.raced then 1 else 0)
  let m := if save then m.write 0x1F 1 k.pushed else m
  let m := if save then m.write 0x20 4 k.issues else m
  let m := if save then
      (List.range 4).foldl (fun m p =>
        m.write (0x24 + p) 1 (((List.range l.wefts).find? fun w => (s.weft b w).part == p).getD 0)) m
    else m
  let m := m.write 0x28 4 (if save then 0x200 else 0)
  let m := m.write 0x2C 4 (if save then saveThreads l else 0x100)
  let m := m.write 0x30 4 (if save then saveSpm l else phaseSpm l)
  m.write 0x34 4 (if save && k.pushed != 0 then saveArrays l else 0)

/-- The lane entry of a phase record: a lane at a YIELD carries the PC after it (R159, R409). -/
def putPhaseLane (r : Role) (m : Memory) (o : Nat) (t : Thread) : Memory :=
  let m := match t.tst with
    | .empty => m
    | .done => putThreadHead m o t.pc .done t
    | _ => putThreadHead m o (t.pc + 4) .run t
  r.carried.zipIdx.foldl (fun m x => m.write (o + 56 + 4 * x.2) 4 (t.reg x.1).toNat) m

/-- The phase record of a block that stands at its YIELDs, or that retires (R409, R415): with its carry SPM or not. -/
def phaseRecord (s : State) (b : Nat) (carry : Bool) : Memory :=
  let l := s.launch b
  let len := phaseLen l carry
  let m := areaHead s b false len
  let m := (List.range l.wefts).foldl (fun m w =>
    let r := l.roleAt w
    (List.range l.width).foldl (fun m i =>
      putPhaseLane r m (0x100 + weftOffset l Role.phaseBytes w + r.phaseBytes * i) (s.thread b w i)) m) m
  if carry then m.writeBytes (phaseSpm l) ((s.block b).spm.readBytes 0 l.carrySpm) else m

/-- The digest of the phase that ends, under its own number (R156, R415). DEDUCED (log 96). -/
def phaseDigest (s : State) (b : Nat) (len : Nat) (m : Memory) : List Byte :=
  shake256 (littleEndian 4 (s.block b).lin ++ littleEndian 4 (s.block b).phase ++ m.readBytes 0x100 (len - 0x100)) 16

/-- An entry of the fault queue, as its 48 bytes (R384). -/
def FqEntry.bytes (e : FqEntry) : Memory :=
  let m := Memory.write [] 0 1 e.kind
  let m := m.write 1 1 e.cause
  let m := m.write 2 1 e.reason
  let m := m.write 3 1 e.space
  let m := m.write 4 4 e.issue
  let m := m.write 8 4 e.done
  let m := m.write 0xC 4 e.block
  let m := m.write 0x10 8 e.addr
  let m := m.write 0x18 8 e.pc
  let m := m.write 0x20 1 e.weft
  let m := m.write 0x21 1 e.slot
  m.write 0x22 2 e.asn

/-- The entry that 48 bytes hold. -/
def FqEntry.ofBytes (m : Memory) (o : Nat) : FqEntry :=
  { kind := m.read o 1, cause := m.read (o + 1) 1, reason := m.read (o + 2) 1, space := m.read (o + 3) 1
    issue := m.read (o + 4) 4, done := m.read (o + 8) 4, block := m.read (o + 0xC) 4, addr := m.read (o + 0x10) 8
    pc := m.read (o + 0x18) 8, weft := m.read (o + 0x20) 1, slot := m.read (o + 0x21) 1, asn := m.read (o + 0x22) 2 }

/-- The barrier section of a save area (R404): each count in the bits of its field. DEDUCED (log 190). -/
def putBars (m : Memory) (b : Block) (nbar : Nat) : Memory :=
  (List.range nbar).foldl (fun m n =>
    let x := b.bar n
    let bit := fun (c : Bool) i => if c then 2 ^ i else 0
    let w := bit x.init 0 + bit x.err 1 + x.par % 2 * 4 + (x.expa % 2 ^ 12).toNat * 16 + (x.pend % 2 ^ 13).toNat * 2 ^ 16
    let m := m.write (0x100 + 16 * n) 4 w
    let m := m.write (0x104 + 16 * n) 4 (x.expb % 2 ^ 24)
    m.write (0x108 + 16 * n) 4 (x.rcvb % 2 ^ 25)) m
def getBars (m : Memory) (nbar : Nat) : Sp Barrier :=
  (List.range nbar).foldl (fun bs n =>
    let w := m.read (0x100 + 16 * n) 4
    Sp.set {} bs n
      { init := w.testBit 0, err := w.testBit 1, par := w / 4 % 2, expa := (w / 16 % 4096 : Nat), pend := (w / 2 ^ 16 % 8192 : Nat)
        expb := m.read (0x104 + 16 * n) 4, rcvb := m.read (0x108 + 16 * n) 4 }) []

/-- A weft record (R405). -/
def putWeft (m : Memory) (o : Nat) (x : Weft) : Memory :=
  let m := (List.range 64).foldl (fun m i => m.write (o + 4 * i) 4 (x.kreg i).toNat) m
  let m := m.write (o + 0x100) 2 x.sbUser
  let m := m.write (o + 0x102) 2 x.sbHandler
  let m := m.write (o + 0x104) 1 (if x.park.isSome then 1 else 0)
  let m := m.write (o + 0x105) 1 x.slots.length
  let m := x.slots.zipIdx.foldl (fun m e =>
    let p := o + 0x110 + 16 * e.2
    let m := m.write p 1 e.1.race
    let m := m.write (p + 1) 1 (if e.1.recv then 1 else 0)
    m.write (p + 8) 8 e.1.addr) m
  match x.park with
  | some e => m.write (o + 0x190) 48 (e.bytes.read 0 48)
  | none => m

/-- A weft as a weft record gives it, on top of what the record does not hold. -/
def getWeft (m : Memory) (o : Nat) (slotOf : Nat → Nat → Nat) (x : Weft) : Weft :=
  { x with
    k := (List.range 64).foldl (fun k i => Sp.set 0 k i (BitVec.ofNat 32 (m.read (o + 4 * i) 4))) []
    sbUser := m.read (o + 0x100) 2, sbHandler := m.read (o + 0x102) 2
    wst := if m.read (o + 0x104) 1 = 1 then .parked else .active
    park := if m.read (o + 0x104) 1 = 1 then some (FqEntry.ofBytes m (o + 0x190)) else none
    slots := (List.range (m.read (o + 0x105) 1)).map fun i =>
      let p := o + 0x110 + 16 * i
      { race := m.read p 1, slot := slotOf (m.read p 1) (m.read (p + 8) 8), recv := m.read (p + 1) 1 = 1, addr := m.read (p + 8) 8 } }

/-- The captured operations of a lane, in the order of its reissue queue: those of its frame, then those
captured when its weft parked (R378, R382). -/
def Thread.captured (t : Thread) : List ReOp := t.trq ++ t.parkq.map ParkedOp.toReOp

/-- A thread record (R406). DEDUCED (log 128). -/
def putThread (m : Memory) (o regs : Nat) (t : Thread) : Memory :=
  let m := putThreadHead m o t.pc t.tst t
  let kind := match t.wait with
    | .barrier b p => (1, b + 16 * p)
    | .wsync w => (2, w)
    | .yield => (5, 0)
    | _ => (0, 0)
  let m := m.write (o + 9) 1 kind.1
  let m := m.write (o + 0xB) 1 (if t.tst = .trap then t.trq.length else t.captured.length)
  let m := (List.range 4).foldl (fun m i => m.write (o + 0x38 + 4 * i) 4 (t.xreg (BitVec.ofNat 2 i)).toNat) m
  let m := m.write (o + 0x48) 4 kind.2
  let m := m.write (o + 0x4C) 4 t.tcause.toNat
  let m := m.write (o + 0x50) 8 t.tpc.toNat
  let m := m.write (o + 0x58) 8 t.taddr.toNat
  let m := m.write (o + 0x60) 4 t.tinfo.toNat
  let m := (List.range 4).foldl (fun m i => m.write (o + 0x80 + 4 * i) 4 (Sp.get 0 t.hscr i).toNat) m
  let m := t.captured.zipIdx.foldl (fun m e =>
    let p := o + 0xC0 + 32 * e.2
    let m := m.write p 4 e.1.word
    let m := m.write (p + 8) 8 e.1.addr
    m.write (p + 16) 16 e.1.data) m
  (List.range regs).foldl (fun m i => m.write (o + 0x1C0 + 4 * i) 4 (t.reg i).toNat) m

/-- The captured operation of an entry of the reissue queue. -/
def getReOp (m : Memory) (p : Nat) : ReOp := { word := m.read p 4, addr := m.read (p + 8) 8, data := m.read (p + 16) 16 }

/-- A thread as a thread record gives it; `op` numbers its captured operations. DEDUCED (log 37). -/
def getThread (m : Memory) (o regs op : Nat) : Thread :=
  let t := getThreadHead m o
  let n := m.read (o + 0xB) 1
  let all := ((List.range 8).map fun i => getReOp m (o + 0xC0 + 32 * i)).filter fun e => e.word != 0
  let frame := if t.tst = .trap then all.take n else []
  let rest := if t.tst = .trap then all.drop n else all
  { t with
    v := (List.range regs).foldl (fun v i => Sp.set 0 v i (BitVec.ofNat 32 (m.read (o + 0x1C0 + 4 * i) 4))) []
    x := (List.range 4).foldl (fun v i => Sp.set 0 v i (BitVec.ofNat 32 (m.read (o + 0x38 + 4 * i) 4))) []
    wait := match m.read (o + 9) 1 with
      | 1 => .barrier (m.read (o + 0x48) 4 % 16) (m.read (o + 0x48) 4 / 16 % 2)
      | 2 => .wsync (m.read (o + 0x48) 4)
      | 5 => .yield
      | _ => .none
    tcause := BitVec.ofNat 32 (m.read (o + 0x4C) 4), tpc := BitVec.ofNat 64 (m.read (o + 0x50) 8)
    taddr := BitVec.ofNat 64 (m.read (o + 0x58) 8), tinfo := BitVec.ofNat 32 (m.read (o + 0x60) 4)
    hscr := (List.range 4).foldl (fun v i => Sp.set 0 v i (BitVec.ofNat 32 (m.read (o + 0x80 + 4 * i) 4))) []
    trq := frame
    parkq := rest.zipIdx.map fun e =>
      { op := op + e.2, word := e.1.word, pc := t.pc, addr := e.1.addr, data := e.1.data, handler := t.tst == .trap } }

/-- An array image (R407): the views and slots, the weights and metadata, the accumulator rows. -/
def putArray (m : Memory) (o : Nat) (a : MxArray) : Memory :=
  let view := fun (m : Memory) p (v : MxView) =>
    (((m.write p 1 v.fmt).write (p + 1) 1 v.kpass).write (p + 2) 1 (if v.scaled then 1 else 0)).write (p + 3) 1 (if v.sparse then 1 else 0)
  let m := (List.range 2).foldl (fun m i =>
    let w : WSlot := Sp.get {} a.slots i
    let p := o + 32 * i
    let m := match Sp.find? a.views i with
      | some v => view (m.write p 1 1) (p + 4) v
      | none => m
    let m := view m (p + 12) w.view
    let m := m.write (p + 8) 1 (if w.valid then 1 else 0)
    let m := m.write (p + 16) 4 w.wscale
    let q := o + 64 + 8704 * i
    (m.writeBytes q (w.data.readBytes 0 8192)).writeBytes (q + 8192) (w.idx.readBytes 0 512)) m
  a.acc.foldl (fun m e => m.write (o + 17472 + 4 * e.1) 4 e.2.toNat) m

/-- An array as an image gives it, in place of what the array holds, but for its queue (R407). -/
def getArray (m : Memory) (o : Nat) (a : MxArray) : MxArray :=
  let view := fun p : Nat =>
    ({ fmt := m.read p 1, kpass := m.read (p + 1) 1, scaled := m.read (p + 2) 1 = 1, sparse := m.read (p + 3) 1 = 1 } : MxView)
  { a with
    views := (List.range 2).foldl (fun vs i => if m.read (o + 32 * i) 1 = 1 then Sp.put vs i (view (o + 32 * i + 4)) else vs) []
    slots := (List.range 2).foldl (fun ws i =>
      let p := o + 32 * i
      let q := o + 64 + 8704 * i
      Sp.put ws i
        { view := view (p + 12), wscale := m.read (p + 16) 4, valid := m.read (p + 8) 1 = 1
          data := Memory.writeBytes [] 0 (m.readBytes q 8192), idx := Memory.writeBytes [] 0 (m.readBytes (q + 8192) 512) }) []
    acc := (List.range 32768).foldl (fun v i => Sp.set 0 v i (BitVec.ofNat 32 (m.read (o + 17472 + 4 * i) 4))) []
    accBad := [] }

/-- The save area of a block (R404-R407), before its tag. -/
def saveArea (s : State) (b : Nat) : Memory :=
  let l := s.launch b
  let k := s.block b
  let m := putBars (areaHead s b true (saveLen l k.pushed)) k l.nbar
  let m := (List.range l.wefts).foldl (fun m w =>
    let m := putWeft m (0x200 + 512 * w) (s.weft b w)
    let r := l.roleAt w
    (List.range l.width).foldl (fun m i =>
      putThread m (saveThreads l + weftOffset l Role.saveBytes w + r.saveBytes * i) r.regs (s.thread b w i)) m) m
  let m := m.writeBytes (saveSpm l) (k.spm.readBytes 0 l.spm)
  ((List.range 4).filter fun p => k.pushed.testBit p).zipIdx.foldl (fun m p =>
    putArray m (saveArrays l + 148544 * p.2) (s.array k.core p.1)) m

/-! ## What is poisoned (R393) -/

/-- The places of poisoned 4-byte words among the words of a run from an offset: the storage is a register file. -/
def badWords (off : Nat) (ns : List Nat) : List (Nat × Nat) := ns.map fun i => (off + 4 * i, 1)

/-- The poisoned words of a phase record, by offset, with the storage that failed (R393, R409). -/
def phaseBad (s : State) (b : Nat) (carry : Bool) : List (Nat × Nat) :=
  let l := s.launch b
  let regs := (List.range l.wefts).map fun w =>
    let r := l.roleAt w
    (List.range l.width).map fun i =>
      badWords (0x100 + weftOffset l Role.phaseBytes w + r.phaseBytes * i + 56)
        ((r.carried.zipIdx.filter fun x => (s.thread b w i).vBad.contains x.1).map (·.2))
  let spm := (s.block b).spmBad.filter fun e => carry && decide (4 * e.1 < l.carrySpm)
  regs.flatten.flatten ++ spm.map fun e => (phaseSpm l + 4 * e.1, e.2)

/-- The poisoned words of a save area (R393, R404-R407). DEDUCED (log 46). -/
def saveBad (s : State) (b : Nat) : List (Nat × Nat) :=
  let l := s.launch b
  let k := s.block b
  let regs := (List.range l.wefts).map fun w =>
    let r := l.roleAt w
    badWords (0x200 + 512 * w) (s.weft b w).kBad ++
      ((List.range l.width).map fun i =>
        let o := saveThreads l + weftOffset l Role.saveBytes w + r.saveBytes * i
        badWords (o + 0x38) (s.thread b w i).xBad ++ badWords (o + 0x1C0) ((s.thread b w i).vBad.filter (· < r.regs))).flatten
  let arrays := ((List.range 4).filter fun p => k.pushed.testBit p).zipIdx.map fun p =>
    (s.array k.core p.1).accBad.map fun r => (saveArrays l + 148544 * p.2 + 17472 + 128 * r, 2)
  regs.flatten ++ (k.spmBad.map fun e => (saveSpm l + 4 * e.1, e.2)) ++ arrays.flatten

/-! ## Checks and loading (R160, R410, R411) -/

/-- Whether an area is that of a block, and its tag is right (R410). -/
def areaGood (s : State) (b : Nat) (save : Bool) (m : Memory) (a : Area) : Bool :=
  let k := s.block b
  let g := s.grid k.gid
  m.read 0 2 == (if save then 1 else 2) && m.read 8 8 == g.ident && m.read 0x10 4 == k.lin &&
    m.read 0x14 4 == k.phase && m.read 0x18 2 == g.asn && m.read 0x1A 1 == g.vi &&
    m.read 0x1B 1 == (if g.mill.isSome then k.stage else 0xFF) &&
    m.read 0xF0 16 == (areaTag s a.len m).read 0 16

/-- The threads of a block at the start of its first phase (R16, R136, R148). -/
def startThreads (s : State) (b : Nat) : State :=
  let l := s.launch b
  (List.range l.wefts).foldl (fun s w =>
    (List.range l.width).foldl (fun s i =>
      s.setThread b w i (if w * l.width + i < l.threads then { tst := .run, pc := l.code } else {})) s) s

/-- The threads and the carry SPM of a block at the start of a later phase (R160, R409). -/
def loadPhase (s : State) (b : Nat) (m : Memory) : State :=
  let l := s.launch b
  let s := (List.range l.wefts).foldl (fun s w =>
    let r := l.roleAt w
    (List.range l.width).foldl (fun s i =>
      let o := 0x100 + weftOffset l Role.phaseBytes w + r.phaseBytes * i
      let t := getThreadHead m o
      s.setThread b w i { t with
        v := r.carried.zipIdx.foldl (fun v x => Sp.set 0 v x.1 (BitVec.ofNat 32 (m.read (o + 56 + 4 * x.2) 4))) [] }) s) s
  s.setBlock b { s.block b with spm := Memory.writeBytes [] 0 (m.readBytes (phaseSpm l) l.carrySpm) }

/-- The number of a race slot by its address (R321). -/
def slotNumber (s : State) (gid race addr : Nat) : Nat :=
  match (s.grid gid).mill with
  | some x => let r := (x.races[race]?).getD {}; (addr - r.base) / 2 ^ r.slotLog
  | none => 0

/-- Everything that a save area holds, loaded on the block's new core (R407, R410). -/
def loadSave (s : State) (b : Nat) (m : Memory) : State :=
  let l := s.launch b
  let arrays := m.read 0x1F 1
  let s := (List.range l.wefts).foldl (fun s w =>
    let s := s.setWeft b w (getWeft m (0x200 + 512 * w) (slotNumber s (s.block b).gid) (s.weft b w))
    let r := l.roleAt w
    (List.range l.width).foldl (fun s i =>
      s.setThread b w i (getThread m (saveThreads l + weftOffset l Role.saveBytes w + r.saveBytes * i) r.regs
        (s.nextOp + 8 * tkey 0 w i))) s) s
  let k := s.block b
  let s := s.setBlock b { k with
    spm := Memory.writeBytes [] 0 (m.readBytes (saveSpm l) l.spm), bars := getBars m l.nbar, issues := m.read 0x20 4
    raced := (m.read 0x1E 1).testBit 0 }
  ((List.range 4).filter fun p => arrays.testBit p).zipIdx.foldl (fun s p =>
    let part := (s.weft b (m.read (0x24 + p.1) 1)).part
    let s := s.setArray k.core part (getArray m (saveArrays l + 148544 * p.2) (s.array k.core part))
    s.setBlock b { s.block b with pushed := (s.block b).pushed ||| 1 <<< part }) s

end Sys2Proof.Machine
end

