-- ==== Sys2Proof/Machine/Daybook.lean ====
section
/-!
DEFINITION. Daybooks: their headers, the records of decisions, and what replay forces (R413-R417, R462).
-/
namespace Sys2Proof.Machine

/-! ## Headers (R413) -/

/-- Field of a 32-byte record: `n` bytes at an offset (R414). -/
def recField (r o n : Nat) : Nat := r / 256 ^ o % 256 ^ n

/-- Read the records of a replay. -/
def readRecords (vi asn buf : Nat) : Nat → Nat → State → List Nat → DevRes (List Nat × State)
  | 0, _, s, acc => .ok (acc, s)
  | n + 1, i, s, acc =>
    (devRead s vi asn (buf + 32 * i) 32).bind fun r => readRecords vi asn buf n (i + 1) r.2 (acc ++ [r.1.read 0 32])

/-- Read and check a daybook header against a RECORD level (R413): none where it is refused. -/
def readBook (s : State) (vi asn va record : Nat) : DevRes (Option Daybook × State) :=
  if va % 64 != 0 then .ok (none, s)
  else
    (devRead s vi asn va 64).bind fun r =>
      let m := r.1
      let mode := m.read 0 1
      let buf := m.read 8 8
      let len := m.read 0x10 8
      if (mode != 1 && mode != 2) || buf % 32 != 0 || len % 32 != 0 then .ok (none, r.2)
      else if mode = 1 then
        .ok (some { va := va, level := record, buf := buf, bufLen := len }, r.2)
      else if m.read 2 2 != 1 || m.read 1 1 != record then .ok (none, r.2)
      else
        (readRecords vi asn buf (m.read 0x18 8 / 32) 0 r.2 []).bind fun q =>
          .ok (some { va := va, replay := true, level := record, buf := buf, bufLen := len, recs := q.1 }, q.2)

/-- LEVEL and STATUS as a header holds them while its daybook records (R413). -/
def openBook (s : State) (vi asn : Nat) (b : Daybook) : State :=
  if b.replay then s else (devQueue s vi asn b.va 4 (1 + b.level * 256)).getD s

/-- A field of a daybook's header is to be written. DEDUCED (log 103). -/
def putBook (s : State) (vi asn : Nat) (b : Daybook) (o n x : Nat) : State := (devQueue s vi asn (b.va + o) n x).getD s

/-- Where a replay has diverged goes to the header, and STATUS becomes 3 (R413, R417). -/
def putDivergence (s : State) (vi asn : Nat) (b : Daybook) (blk ph kind : Nat) : State :=
  let put := fun (s : State) => putBook s vi asn b
  put (put (put (put s 0x20 4 blk) 0x24 4 ph) 0x28 1 kind) 2 2 3

/-- The end of a daybook: USED, STATUS and, on divergence, where (R413, R417). -/
def closeBook (s : State) (vi asn : Nat) (b : Daybook) : State :=
  let s := if b.replay then s else putBook s vi asn b 0x18 8 b.used
  match b.diverged with
  | some (blk, ph, kind) => putDivergence s vi asn b blk ph kind
  | none => if b.replay then s else putBook s vi asn b 2 2 (if b.dropped then 2 else 1)

/-! ## Records (R414) -/

/-- Write the next record of a daybook in record mode: dropped where the buffer is full or faults (R413). -/
def bookWrite (s : State) (vi asn : Nat) (b : Daybook) (kind src stage : Nat) (body : Nat) : State × Daybook :=
  let seq := Sp.get 0 b.seqs src
  let b' := { b with seqs := Sp.put b.seqs src (seq + 1) }
  let r := kind + src * 256 + stage * 65536 + seq * 2 ^ 32 + body * 2 ^ 64
  if b.dropped || decide (b.bufLen < b.used + 32) then (s, { b' with dropped := true })
  else
    match devQueue s vi asn (b.buf + b.used) 32 r with
    | some s => (s, { b' with used := b.used + 32 })
    | none => (s, { b' with dropped := true })

/-- Record a decision of a launch, where it keeps a daybook in record mode of that level (R414). -/
def logDecision (s : State) (gid kind src stage body : Nat) : State :=
  let g := s.grid gid
  match g.book with
  | none => s
  | some b =>
    if b.replay || decide (b.level < (if kind = 7 then 2 else 1)) then s
    else
      let r := bookWrite s g.vi g.asn b kind src (if g.mill.isSome then stage else 0xFF) body
      r.1.setGrid gid { r.1.grid gid with book := some r.2 }

/-! ## Replay (R416) -/

/-- The next unused record of a replay that a predicate selects; none where the launch is not replayed. -/
def bookNext (s : State) (gid : Nat) (p : Nat → Bool) : Option (Option Nat) :=
  match (s.grid gid).book with
  | none => none
  | some b => if b.replay then some (b.recs.find? p) else none

/-- Use a record of a replay. -/
def bookUse (s : State) (gid r : Nat) : State :=
  match (s.grid gid).book with
  | none => s
  | some b => s.setGrid gid { s.grid gid with book := some { b with recs := b.recs.erase r } }

/-- The GRANT record that comes next for a race (R414, R416): none where the launch is not replayed. -/
def nextGrant (s : State) (gid race : Nat) : Option (Option Nat) :=
  bookNext s gid fun r => recField r 0 1 == 3 && recField r 8 1 == race

/-- What a replay says of an atomic that is about to be performed (R416, R417). -/
inductive AtomicTurn where
  | free
  | now (r : Nat)
  | wait
  | never
  deriving DecidableEq, Repr

/-- STAGE of a record about a block: the stage in a mill, 0xFF in a grid (R414). -/
def stageByte (s : State) (gid stage : Nat) : Nat := if (s.grid gid).mill.isSome then stage else 0xFF

/-- The level-2 check of an atomic to a line by a lane (R416): whether it is the next one recorded there. -/
def atomicTurn (s : State) (gid stage line lin phase weft lane : Nat) : AtomicTurn :=
  match (s.grid gid).book with
  | none => .free
  | some b =>
    if !b.replay || b.level < 2 then .free
    else
      let rs := b.recs.filter fun r => recField r 0 1 == 7 && recField r 8 8 == line * 256
      let mine := fun r =>
        recField r 2 1 == stageByte s gid stage && recField r 16 4 == lin && recField r 20 4 == phase &&
          recField r 24 1 == weft && recField r 25 1 == lane
      match rs.find? mine with
      | none => .never
      | some r => if rs.head? = some r then .now r else .wait

end Sys2Proof.Machine
end

