-- ==== Sys2Proof/Machine/Finish.lean ====
section
/-!
DEFINITION. The ends of phases, blocks and grids: what a block leaves behind, the completion tree, the
finish of stages, and the end of a launch (R157-R164, R198, R204, R331, R334, R370, R415-R417).
-/
namespace Sys2Proof.Machine

/-! ## Outstanding work of a block (R158) -/

/-- Whether the issued operations of a block have all completed: its accesses and fences, its copies and
its matrix commands; and the cluster accesses already resolved to its allocation (R245). -/
def opsDone (s : State) (b : Nat) : Bool :=
  let k := s.block b
  !(s.ops.any fun e => e.2.blk == b && e.2.kind != .prefetch) &&
    !(s.ops.any fun e => e.2.acc.space == .cluster && e.2.lanes.any fun a => a.aux == b && a.pending) &&
    !((s.core k.core).copies.any fun e => e.2.blk == b) &&
    !((s.core k.core).arrays.any fun e => e.2.queue.any fun c => c.blk == b)

/-- Whether nothing of a block is outstanding, and no weft of it is parked (R158). -/
def workDone (s : State) (b : Nat) : Bool :=
  opsDone s b && (List.range (s.launch b).wefts).all fun w => (s.weft b w).wst != .parked

/-- Whether no lane of a block is in RUN or TRAP: each stands at its YIELD, or is over (R157). -/
def atYield (s : State) (b : Nat) : Bool :=
  (List.range (s.launch b).wefts).all fun w => (List.range 32).all fun l =>
    (s.thread b w l).tst != .run && (s.thread b w l).tst != .trap

/-- The threads and wefts of a block are gone, with what its prefetches still had to do. -/
def clearWefts (s : State) (b : Nat) : State :=
  { s with
    threads := List.filter (fun e => e.1 / 4096 != b) s.threads
    wefts := List.filter (fun e => e.1 / 128 != b) s.wefts
    ops := List.filter (fun e => e.2.blk != b) s.ops }

/-- A weft that leaves its core: FINISHED for good, if it was; else in another state (R140). -/
def WeftState.leaves (x y : WeftState) : WeftState := if x = .finished then .finished else y

/-- The registers of a block's wefts are freed as its phase ends (R140). -/
def releaseWefts (s : State) (b : Nat) : State :=
  (List.range (s.launch b).wefts).foldl (fun t w => t.setWeft b w { wst := (s.weft b w).wst.leaves .released }) (clearWefts s b)

/-- Everything that a block has under way is ended without effect: its operations, copies, matrix
commands and fault-queue entries. -/
def dropWork (s : State) (b : Nat) : State :=
  let c := (s.block b).core
  let mine := List.filter (fun (e : Nat × Copy) => e.2.blk == b) (s.core c).copies
  let d := domOf c
  let s := endRecalls (s.setDomain d { s.domain d with
    owned := (s.domain d).owned.filter fun o => !(o.core == c && mine.any fun e => e.1 == o.slot) }) d
  let gone := fun f : FaultRef => match f with
    | .weft b' _ => b' == b
    | .engine c' sl => c' == c && mine.any fun e => e.1 == sl
  let s := { s with faults := s.faults.filter (!gone ·), popped := s.popped.filter (!gone ·)
                    pendq := s.pendq.filter (·.1 != b) }
  let s := s.setCore c { s.core c with
    copies := List.filter (fun e => e.2.blk != b) (s.core c).copies
    arrays := (s.core c).arrays.map fun e => (e.1, { e.2 with queue := e.2.queue.filter (·.blk != b) }) }
  clearWefts s b

/-! ## Statuses, commands and cores -/

/-- Record a status of a block against its launch: the first stands (R370). -/
def recordStatus (s : State) (b code : Nat) : State :=
  let k := s.block b
  let g := s.grid k.gid
  if g.status.isSome then s
  else s.setGrid k.gid { g with status := some { code := code, lin := k.lin, phase := k.phase } }

/-- Record the failures that no event has delivered to the block (R284, R305). -/
def noteFailures (s : State) (b : Nat) : State :=
  let fs := ((List.range (s.launch b).wefts).map fun w => (s.weft b w).failures).flatten
  let s := if fs.any (·.cls == .copy) then recordStatus s b 0x11 else s
  if fs.any (·.cls == .matrix) then recordStatus s b 0x12 else s

/-- A pre-emption command of nothing. -/
def noCmd : PreCmd := { vi := 0, flags := 0, budget := 0, ident := 0, domains := 0, event := 0 }

/-- A pre-emption is recorded when it is done: a DRAIN with the issues at its decision (R400, R414, R416).
DEDUCED (log 122). -/
def logPreempt (s : State) (b : Nat) (m : Method) : State :=
  let k := s.block b
  let body := fun (code r : Nat) => k.lin + k.phase * 2 ^ 32 + code * 2 ^ 64 + r * 2 ^ 96
  let log := fun x : Nat => logDecision s k.gid 5 (s.virtualDomain (s.viOf b) (domOf k.core)) k.stage x
  match m with
  | .drain => if k.method == some .drain then log (body 1 k.drainAt) else s
  | .flush => log (body 2 k.issues)
  | .save => log (body 3 k.issues)

/-- The record of a replay that makes a block leave its core now: its phase has made the issues recorded (R416). -/
def duePreempt (s : State) (b : Nat) : Option (Nat × Method) :=
  let k := s.block b
  match bookNext s k.gid fun r =>
      recField r 0 1 == 5 && recField r 8 4 == k.lin && recField r 12 4 == k.phase && recField r 20 4 == k.issues &&
        (recField r 2 1 == 0xFF || recField r 2 1 == k.stage) && recField r 16 1 != 1 with
  | some (some r) => some (r, if recField r 16 1 = 2 then .flush else .save)
  | _ => none

/-- A block has left its core by the method `m`: the commands that wait for it count it (R397). -/
def leaveCmd (s : State) (b : Nat) (m : Method) : State :=
  let s := logPreempt s b m
  let s := (s.block b).under.foldl (fun s n =>
    let c := Sp.get noCmd s.cmds n
    let c := match m with
      | .drain => { c with drained := c.drained + 1 }
      | .flush => { c with flushed := c.flushed + 1 }
      | .save => { c with saved := c.saved + 1 }
    { s with cmds := Sp.put s.cmds n c }) s
  s.setBlock b { s.block b with method := none, under := [], stopped := false }

/-- A departing core that holds no block serves its new stage (R338). -/
def settleCore (s : State) (core : Nat) : State :=
  match s.millOf core with
  | none => s
  | some (g, _) =>
    match (s.grid g).mill with
    | none => s
    | some m =>
      match Sp.find? m.departing core with
      | none => s
      | some st =>
        if (s.onCore core).isEmpty then
          s.setGrid g { s.grid g with mill := some { m with
            held := Sp.put m.held core st, departing := Sp.del m.departing core, mover := Sp.del m.mover core } }
        else s

/-! ## The completion tree (R204) -/

/-- The number of blocks of a launch: of its grid, or of all its stages. -/
def Grid.blocks (g : Grid) : Nat := (g.stages.map Launch.blocks).sum

/-- Complete the shares that are closed and whose counts are met: each raises DOMEV once (R204). -/
def checkShares (s : State) (gid : Nat) : State :=
  let g := s.grid gid
  if !g.closed then s
  else
    let new := (s.domsOf g.vi).filter fun d =>
      !g.shares.contains d && Sp.get 0 g.counted d == Sp.get 0 g.handed d
    raiseEvents (s.setGrid gid { g with shares := g.shares ++ new }) g.vi (new.map fun _ => g.event.toNat / 2 ^ 16 % 2 ^ 16)

/-- Count a block that is RETIRED or LOST in its count domain (R204). -/
def countBlock (s : State) (b : Nat) : State :=
  let k := s.block b
  let g := s.grid k.gid
  checkShares (s.setGrid k.gid { g with counted := Sp.put g.counted k.countDom (Sp.get 0 g.counted k.countDom + 1) }) k.gid

/-! ## Races at the end of stages and blocks (R321, R322, R331, R334) -/

/-- Whether a slot holds or will hold a token. -/
def RaceSlot.pending (x : RaceSlot) : Bool := x.sst != .received

/-- The receive pointer passes over slots that a lost block gave up (R334). -/
def Race.normal (r : Race) : Race :=
  match (List.range r.slots).find? fun i =>
      match Sp.find? r.slot ((r.cp + i) % r.slots) with
      | some x => x.pending
      | none => false with
  | some i => { r with cp := (r.cp + i) % r.slots }
  | none => { r with cp := r.rp }

/-- At end of stream: CLOSED, with no slot RESERVED or COMMITTED (R321). -/
def Race.eos (r : Race) : Bool := r.rst == .closed && !(r.slot.any fun e => e.2.pending)

/-- A race whose consumers have all retired: ABANDONED, its COMMITTED slots FREE (R331). -/
def Race.abandon (r : Race) : Race :=
  if r.rst == .abandoned then r
  else ({ r with rst := .abandoned, slot := List.filter (fun e => e.2.sst != .committed) r.slot } : Race)

/-- The slots that a lost block held are FREE (R334). -/
def Race.giveUp (r : Race) (b : Nat) (held : List Nat) : Race :=
  ({ r with slot := List.filter (fun e => !(e.2.blk == b && held.contains e.1)) r.slot
            reservers := r.reservers.filter (·.1 != b), receivers := r.receivers.filter (·.1 != b) } : Race).normal

/-- Whether every block of a stage has been handed and has retired or is lost. -/
def stageOver (s : State) (gid st : Nat) : Bool :=
  let g := s.grid gid
  decide (((g.stages[st]?).getD {}).blocks ≤ g.nextLin.getD st 0) &&
    s.blocks.all fun e => !(e.2.gid == gid && e.2.stage == st) || e.2.bst == .retired || e.2.bst == .lost

/-- The changes of race state that stages bring about whose blocks have all retired: their input races
are ABANDONED, and as each such stage has finished, its output races are CLOSED (R331, R334). -/
def settleRaces (s : State) (gid : Nat) : State :=
  match (s.grid gid).mill with
  | none => s
  | some m =>
    let rs := m.races.map fun r =>
      let r := if stageOver s gid r.prod && r.rst == .opened then { r with rst := .closed } else r
      if stageOver s gid r.cons then r.abandon else r
    s.setGrid gid { s.grid gid with mill := some { m with races := rs } }

/-- A block gives up its held slots as it becomes LOST (R334). DEDUCED (log 110). -/
def giveUpSlots (s : State) (b : Nat) : State :=
  let k := s.block b
  match (s.grid k.gid).mill with
  | none => s
  | some m =>
    let held := ((List.range (s.launch b).wefts).map fun w => (s.weft b w).slots).flatten
    let rs := m.races.zipIdx.map fun x => x.1.giveUp b ((held.filter (·.race == x.2)).map (·.slot))
    s.setGrid k.gid { s.grid k.gid with mill := some { m with races := rs } }

/-! ## The end of a launch (R370, R417) -/

/-- End a launch: its blocks are over, its shares close (R370, R385, R417). DEDUCED (log 94). -/
def endLaunch (s : State) (gid : Nat) (status : LaunchStatus) : State :=
  let g := s.grid gid
  if g.complete || g.ended then s
  else
    let mine := List.filter (fun (e : Nat × Block) => e.2.gid == gid && e.2.bst != .retired && e.2.bst != .lost) s.blocks
    let s := mine.foldl (fun s e =>
      let s := dropWork s e.1
      let s := leaveCmd (s.setBlock e.1 { s.block e.1 with method := none }) e.1 .drain
      let core := (s.block e.1).core
      settleCore (s.setBlock e.1 { s.block e.1 with bst := .retired, record := none, area := none }) core) s
    let g := s.grid gid
    let s := s.setGrid gid { g with
      ended := true, status := some status, closed := true, counted := g.handed, nextLin := g.stages.map Launch.blocks }
    checkShares (settleRaces s gid) gid

/-- A replay diverges: the launch ends, and its daybook says where (R417). -/
def diverge (s : State) (gid lin phase kind : Nat) : State :=
  let g := s.grid gid
  let s := match g.book with
    | some b => s.setGrid gid { g with book := some { b with diverged := some (lin, phase, kind) } }
    | none => s
  endLaunch s gid { code := 0x13, lin := lin, phase := phase }

/-- GRID_END (R370, R385): system software ends a grid or mill. -/
def execGridEnd (gid : Nat) (s : State) : Host.Outcome State Fault Refusal :=
  match Sp.find? s.grids gid with
  | none => .next s
  | some _ => .next (endLaunch s gid { code := 0x14 })

/-- The digest of a phase goes to the daybook, or is checked against it (R415-R417). -/
def noteDigest (s : State) (b : Nat) (len : Nat) (m : Memory) : State :=
  let k := s.block b
  let phase := k.phase
  let dig := (Memory.writeBytes [] 0 (phaseDigest s b len m)).read 0 16
  let src := s.virtualDomain (s.grid k.gid).vi (domOf k.core)
  match bookNext s k.gid fun r => recField r 0 1 == 6 && recField r 8 4 == k.lin && recField r 12 4 == phase &&
      (recField r 2 1 == 0xFF || recField r 2 1 == k.stage) with
  | none => logDecision s k.gid 6 src k.stage (k.lin + phase * 2 ^ 32 + dig * 2 ^ 64)
  | some none => diverge s k.gid k.lin phase 6
  | some (some r) =>
    if recField r 16 16 = dig then bookUse s k.gid r else diverge s k.gid k.lin phase 6

/-- PHASE_END (R157-R161, R403, R409): a draining block whose work has completed writes its phase record,
frees its core and is QUEUED for its next phase. -/
def execPhaseEnd (blk : Nat) (s : State) : Host.Outcome State Fault Refusal :=
  let k := s.block blk
  let vi := (s.grid k.gid).vi
  if k.bst != .draining || !workDone s blk || !atYield s blk then .next s
  else
    match releaseTry s k.core .dom with
    | .error s => .next s
    | .ok s =>
      let len := phaseLen (s.launch blk) true
      match freeUnits (s.setBlock blk { k with record := none }) vi (domOf k.core) (unitsOf len) with
      | none => .next s
      | some base =>
        let m := tagged s len (phaseRecord s blk true)
        match putArea s base len m (phaseBad s blk true) with
        | .error s => .next s
        | .ok s =>
        let s := noteDigest (noteFailures s blk) blk len m
        if (s.grid k.gid).ended then .next s
        else
          let s := leaveCmd (releaseWefts s blk) blk .drain
          let s := s.setBlock blk { s.block blk with
            bst := .queued, phase := k.phase + 1, hand := none, area := none
            record := some { dom := domOf k.core, base := base, units := unitsOf len, len := len }
            spm := [], spmBad := [], was := [], bars := [], pushed := 0, raced := false, issues := 0, atoms := [] }
          .next (settleCore s k.core)

/-- BLOCK_RETIRE (R163, R204, R272, R331, R334): a block whose every lane is DONE or EMPTY and whose work has
completed retires, and is counted; its stores reach DOM scope. -/
def execBlockRetire (blk : Nat) (s : State) : Host.Outcome State Fault Refusal :=
  let k := s.block blk
  let done := (List.range (s.launch blk).wefts).all fun w => (List.range 32).all fun l => (s.thread blk w l).tst.over
  if k.bst != .resident || !done || !workDone s blk then .next s
  else
    match releaseTry s k.core .dom with
    | .error s => .next s
    | .ok s =>
      let len := phaseLen (s.launch blk) false
      let m := phaseRecord s blk false
      let s := noteDigest (noteFigures (noteFailures s blk) blk) blk len m
      if (s.grid k.gid).ended then .next s
      else
        let s := leaveCmd (clearWefts s blk) blk .drain
        let s := s.setBlock blk { s.block blk with
          bst := .retired, record := none, area := none, spm := [], spmBad := [], was := [], bars := [] }
        .next (settleRaces (countBlock (settleCore s k.core) blk) k.gid)

/-- A block becomes LOST, with everything that it has under way; a slot whose RCOMMIT or RRELEASE is still under way
stays as it is (R334, R338, R411). DEDUCED (log 93). DEDUCED (log 182). -/
def loseBlock (s : State) (b : Nat) : State :=
  let k := s.block b
  let s := dropWork (recordStatus (giveUpSlots s b) b 0x10) b
  let s := settleCore (s.setBlock b { s.block b with bst := .lost, record := none, area := none }) k.core
  settleRaces (countBlock s b) k.gid

/-! ## Completion (R204, R335) -/

/-- The cores where a launch has placed blocks. -/
def Grid.cores (g : Grid) : List Nat := ((Sp.keys g.places).map (· % 4096)).eraseDups

/-- The release of a launch's completion, on every core that has run it. -/
def releaseCores (cores : List Nat) (sc : Scope) (s : State) : Bool × State :=
  cores.foldl (fun r c =>
    match releaseTry r.2 c sc with
    | .ok s => (r.1, s)
    | .error s => (false, s)) (true, s)

/-- Whether every share of a launch is complete. -/
def sharesMet (s : State) (gid : Nat) : Bool :=
  let g := s.grid gid
  g.closed && (s.domsOf g.vi).all g.shares.contains

/-- Give a node its outcome, if it is running (R370). -/
def nodeOutcome (s : State) (q n code addr : Nat) : State :=
  let x := s.node q n
  if x.nst == .running then s.setNode q n { x with res := some (code, addr) } else s

/-- What follows the release of a launch: GRIDEV, the vector, and the outcome of its node (R194, R204). -/
def announceLaunch (s : State) (gid : Nat) : State :=
  let g := s.grid gid
  let s := s.setGrid gid { g with complete := true, book := none }
  let s := { s with blocks := s.blocks.map fun e =>
    (e.1, if e.2.gid = gid then { e.2 with record := none, area := none } else e.2) }
  let s := raiseEvent s g.vi (g.event.toNat % 2 ^ 16)
  let s := if g.event.getLsbD 43 then sendVector s g.vi (g.event.toNat / 2 ^ 32 % 2048) else s
  let st := g.status.getD { code := 0 }
  nodeOutcome s g.node.1 g.node.2 st.code st.lin

/-- The scope of a launch's completion (R204). -/
def Grid.scope (g : Grid) : Scope := if g.sysrel then .sys else .waf

/-- The daybook of a launch ends before its release, and what the device is still to write of it is written: the
state with it ended, if it was not (R413). -/
def endBook (s : State) (gid : Nat) : Try :=
  let g := s.grid gid
  match g.book with
  | some b => .error ((closeBook s g.vi g.asn b).setGrid gid { g with book := none })
  | none => if (s.viface g.vi).puts.isEmpty then .ok s else .error s

/-- GRID_COMPLETE (R204): the grid's release, then its event, its vector and the outcome of its node. -/
def execGridComplete (gid : Nat) (s : State) : Host.Outcome State Fault Refusal :=
  match Sp.find? s.grids gid with
  | none => .next s
  | some g =>
    if g.mill.isSome || g.complete || !sharesMet s gid then .next s
    else
      match endBook s gid with
      | .error s => .next s
      | .ok s =>
        let r := releaseCores g.cores g.scope s
        .next (if r.1 then announceLaunch r.2 gid else r.2)

end Sys2Proof.Machine
end

