-- ==== Sys2Proof/Machine/Arbitrate.lean ====
section
/-!
DEFINITION. The issue class of each instruction (R64), and the choice of the slot row, the wefts and
the stream that a core partition issues (R139, R144, R205).
-/
namespace Sys2Proof.Machine

/-- The issue class of an instruction (R64); a step of the device has none, and `sync` stands in. -/
def classOf : Instr → IClass
  | .shortMov _ _ => .integer
  | .shortIadd _ _ => .integer
  | .shortIsub _ _ => .integer
  | .shortImul _ _ => .integer
  | .shortAnd _ _ => .integer
  | .shortOr _ _ => .integer
  | .shortXor _ _ => .integer
  | .shortShl _ _ => .integer
  | .shortShrl _ _ => .integer
  | .shortShra _ _ => .integer
  | .shortFadd _ _ => .fp32
  | .shortFsub _ _ => .fp32
  | .shortFmul _ _ => .fp32
  | .shortFmax _ _ => .fp32
  | .shortFmin _ _ => .fp32
  | .shortIaddi _ _ => .integer
  | .iadd _ _ _ => .integer
  | .isub _ _ _ => .integer
  | .imul _ _ _ => .integer
  | .imulhi _ _ _ => .integer
  | .imulhin _ _ _ => .integer
  | .imad _ _ _ => .integer
  | .imin _ _ _ => .integer
  | .imax _ _ _ => .integer
  | .iminn _ _ _ => .integer
  | .imaxn _ _ _ => .integer
  | .and _ _ _ => .integer
  | .or _ _ _ => .integer
  | .xor _ _ _ => .integer
  | .andn _ _ _ => .integer
  | .shl _ _ _ => .integer
  | .shrl _ _ _ => .integer
  | .shra _ _ _ => .integer
  | .rotl _ _ _ => .integer
  | .sel _ _ _ => .integer
  | .iaddsat _ _ _ => .integer
  | .isubsat _ _ _ => .integer
  | .bfx _ _ _ => .integer
  | .bfi _ _ _ => .integer
  | .iadd64 _ _ _ => .integer
  | .isub64 _ _ _ => .integer
  | .imulw _ _ _ => .integer
  | .imulwn _ _ _ => .integer
  | .shl64 _ _ _ => .integer
  | .shrl64 _ _ _ => .integer
  | .shra64 _ _ _ => .integer
  | .iseq _ _ _ => .integer
  | .isne _ _ _ => .integer
  | .islt _ _ _ => .integer
  | .isle _ _ _ => .integer
  | .isltn _ _ _ => .integer
  | .islen _ _ _ => .integer
  | .fadd _ _ _ => .fp32
  | .fsub _ _ _ => .fp32
  | .fmul _ _ _ => .fp32
  | .ffma _ _ _ => .fp32
  | .fmin _ _ _ => .fp32
  | .fmax _ _ _ => .fp32
  | .fseq _ _ _ => .fp32
  | .fsne _ _ _ => .fp32
  | .fslt _ _ _ => .fp32
  | .fsle _ _ _ => .fp32
  | .fsuno _ _ _ => .fp32
  | .fcopysign _ _ _ => .fp32
  | .dadd _ _ _ => .fp64
  | .dsub _ _ _ => .fp64
  | .dmul _ _ _ => .fp64
  | .dfma _ _ _ => .fp64
  | .dmin _ _ _ => .fp64
  | .dmax _ _ _ => .fp64
  | .dseq _ _ _ => .fp64
  | .dslt _ _ _ => .fp64
  | .dsle _ _ _ => .fp64
  | .dsuno _ _ _ => .fp64
  | .hadd2 _ _ _ => .fp64
  | .hmul2 _ _ _ => .fp64
  | .hfma2 _ _ _ => .fp64
  | .badd2 _ _ _ => .fp64
  | .bmul2 _ _ _ => .fp64
  | .bfma2 _ _ _ => .fp64
  | .cvtF32I32 _ _ => .fp32
  | .cvtF32N32 _ _ => .fp32
  | .cvtI32F32 _ _ => .fp32
  | .cvtN32F32 _ _ => .fp32
  | .cvtF64F32 _ _ => .fp64
  | .cvtF32F64 _ _ => .fp64
  | .cvtF64I32 _ _ => .fp64
  | .cvtI32F64 _ _ => .fp64
  | .cvtF64I64 _ _ => .fp64
  | .cvtI64F64 _ _ => .fp64
  | .cvtF16x2F32 _ _ _ => .fp64
  | .cvtBf16x2F32 _ _ _ => .fp64
  | .cvtF32F16 _ _ _ => .fp64
  | .cvtF32Bf16 _ _ _ => .fp64
  | .cvtF32E4m3 _ _ _ => .fp64
  | .cvtF32E5m2 _ _ _ => .fp64
  | .cvtE4m3x4F32 _ _ _ => .fp64
  | .cvtE5m2x4F32 _ _ _ => .fp64
  | .frint _ _ => .fp32
  | .fclass _ _ => .fp32
  | .fabs _ _ => .fp32
  | .fneg _ _ => .fp32
  | .popc _ _ => .integer
  | .clz _ _ => .integer
  | .brev _ _ => .integer
  | .frcp _ _ => .fp32
  | .frsq _ _ => .fp32
  | .fsqrt _ _ => .fp32
  | .fdiv _ _ _ => .fp32
  | .fex2 _ _ => .fp32
  | .flg2 _ _ => .fp32
  | .ddiv _ _ _ => .fp64
  | .dsqrt _ _ => .fp64
  | .idiv _ _ _ => .integer
  | .irem _ _ _ => .integer
  | .idivn _ _ _ => .integer
  | .iremn _ _ _ => .integer
  | .shfl _ _ _ => .integer
  | .shflup _ _ _ => .integer
  | .shfldn _ _ _ => .integer
  | .shflx _ _ _ => .integer
  | .ballot _ _ => .integer
  | .vany _ _ => .integer
  | .vall _ _ => .integer
  | .redadd _ _ => .integer
  | .redfadd _ _ => .fp32
  | .redmax _ _ => .integer
  | .redmin _ _ => .integer
  | .scanadd _ _ => .integer
  | .movx _ _ => .integer
  | .movxw _ _ => .integer
  | .setx _ _ => .integer
  | .getx _ _ => .integer
  | .mov64 _ _ => .integer
  | .iaddi _ _ _ => .integer
  | .andi _ _ _ => .integer
  | .ori _ _ _ => .integer
  | .xori _ _ _ => .integer
  | .shli _ _ _ => .integer
  | .shrli _ _ _ => .integer
  | .shrai _ _ _ => .integer
  | .iseqi _ _ _ => .integer
  | .islti _ _ _ => .integer
  | .isltni _ _ _ => .integer
  | .imuli _ _ _ => .integer
  | .iadd64i _ _ _ => .integer
  | .movk _ _ => .integer
  | .isnei _ _ _ => .integer
  | .movi _ _ => .integer
  | .movhi _ _ => .integer
  | .bra _ => .sync
  | .bnz _ _ => .sync
  | .bz _ _ => .sync
  | .call _ => .sync
  | .callr _ => .sync
  | .ret => .sync
  | .jmpr _ => .sync
  | .kbnz _ _ => .sync
  | .kbz _ _ => .sync
  | .kadd _ _ _ => .integer
  | .ksub _ _ _ => .integer
  | .kmul _ _ _ => .integer
  | .kand _ _ _ => .integer
  | .kor _ _ _ => .integer
  | .kxor _ _ _ => .integer
  | .kshl _ _ _ => .integer
  | .kshr _ _ _ => .integer
  | .ksra _ _ _ => .integer
  | .kaddi _ _ _ => .integer
  | .kseq _ _ _ => .integer
  | .kslt _ _ _ => .integer
  | .ksltn _ _ _ => .integer
  | .kmin _ _ _ => .integer
  | .kmax _ _ _ => .integer
  | .ksel _ _ _ => .integer
  | .kadd64 _ _ _ => .integer
  | .kmovv _ _ => .integer
  | .kldcb _ _ _ => .integer
  | .kli _ _ => .integer
  | .klih _ _ => .integer
  | .kmulhi _ _ _ => .integer
  | .lds32 _ _ _ => .memory
  | .lds64 _ _ _ => .memory
  | .lds128 _ _ _ => .memory
  | .sts32 _ _ _ => .memory
  | .sts64 _ _ _ => .memory
  | .sts128 _ _ _ => .memory
  | .atsAdd32 _ _ _ => .memory
  | .atsExch32 _ _ _ => .memory
  | .ldn32 _ _ _ _ _ => .memory
  | .ldn64 _ _ _ _ _ => .memory
  | .ldn128 _ _ _ _ _ => .memory
  | .stn32 _ _ _ _ _ => .memory
  | .stn64 _ _ _ _ _ => .memory
  | .stn128 _ _ _ _ _ => .memory
  | .atnAdd32 _ _ _ _ _ => .memory
  | .atnExch32 _ _ _ _ _ => .memory
  | .ldgZ8 _ _ _ _ _ => .memory
  | .ldgS8 _ _ _ _ _ => .memory
  | .ldgZ16 _ _ _ _ _ => .memory
  | .ldgS16 _ _ _ _ _ => .memory
  | .ldg32 _ _ _ _ _ => .memory
  | .ldg64 _ _ _ _ _ => .memory
  | .ldg128 _ _ _ _ _ => .memory
  | .stg8 _ _ _ _ _ => .memory
  | .stg16 _ _ _ _ _ => .memory
  | .stg32 _ _ _ _ _ => .memory
  | .stg64 _ _ _ _ _ => .memory
  | .stg128 _ _ _ _ _ => .memory
  | .pfg _ _ => .memory
  | .atg32 _ _ _ _ _ => .memory
  | .atg64 _ _ _ _ _ => .memory
  | .atf32 _ _ _ _ _ => .memory
  | .ldp32 _ _ _ => .memory
  | .ldp64 _ _ _ => .memory
  | .ldp128 _ _ _ => .memory
  | .pfp _ _ => .memory
  | .ldcb32 _ _ _ => .memory
  | .ldcb64 _ _ _ => .memory
  | .ldcb128 _ _ _ => .memory
  | .ldh32 _ _ _ => .memory
  | .ldh64 _ _ _ => .memory
  | .sth32 _ _ _ => .memory
  | .sth64 _ _ _ => .memory
  | .athAdd64 _ _ _ => .memory
  | .athCas64 _ _ _ => .memory
  | .athExch64 _ _ _ => .memory
  | .binit _ _ => .sync
  | .barr _ => .sync
  | .barrx _ _ => .sync
  | .bexp _ _ => .sync
  | .bwait _ _ => .sync
  | .btest _ _ _ => .sync
  | .bdrop _ => .sync
  | .cpgs _ _ _ _ => .memory
  | .cpsg _ _ _ _ => .memory
  | .cptl _ _ _ _ => .memory
  | .cpts _ _ _ _ => .memory
  | .cppw _ _ _ => .memory
  | .waitcnt _ _ _ _ => .sync
  | .mxpush _ => .sync
  | .mxfence => .sync
  | .mxquery _ => .sync
  | .qblk _ _ _ _ => .sync
  | .rresv _ _ => .sync
  | .rcommit _ _ => .sync
  | .rrecv _ _ => .sync
  | .rrelease _ _ => .sync
  | .rtryresv _ _ => .sync
  | .rtryrecv _ _ => .sync
  | .rclose _ => .sync
  | .rstat _ _ => .sync
  | .pinstall _ => .memory
  | .pstatus _ _ => .memory
  | .fence _ _ => .memory
  | .sealLines _ _ => .memory
  | .unsealLines _ _ => .memory
  | .cwb _ _ _ => .memory
  | .yield => .sync
  | .wsync _ => .sync
  | .exit => .sync
  | .trap _ => .sync
  | .bkpt => .sync
  | .rett => .sync
  | .csrr _ _ => .sync
  | .csrw _ _ => .sync
  | .rdcyc _ => .sync
  | .wred _ _ _ _ _ => .sync
  | .evsig _ => .sync
  | .movsr _ _ => .sync
  | .phaseEnd _ => .sync
  | .queueDoorbell _ _ => .sync
  | .queueEntry _ => .sync
  | .graphStart _ => .sync
  | .kernelNode _ _ => .sync
  | .millNode _ _ => .sync
  | .millStart _ => .sync
  | .millCoreJoin _ _ => .sync
  | .copyNode _ _ => .sync
  | .installNode _ _ => .sync
  | .condNode _ _ => .sync
  | .loopNode _ _ => .sync
  | .loopRearm _ _ => .sync
  | .eventNode _ _ => .sync
  | .waitNode _ _ => .sync
  | .nodeComplete _ _ => .sync
  | .graphComplete _ => .sync
  | .qcfgWrite _ _ _ _ => .sync
  | .evraise _ _ => .sync
  | .handBlock _ _ => .sync
  | .placeBlock _ => .sync
  | .clusterConvert _ _ => .sync
  | .clusterConvertDone _ _ => .sync
  | .blockRetire _ => .sync
  | .gridComplete _ => .sync
  | .pageWalk _ _ => .sync
  | .parkPendingAdmit _ => .sync
  | .memComplete _ => .sync
  | .fenceComplete _ => .sync
  | .homeAccess _ _ => .sync
  | .invalidationAccept _ _ _ => .sync
  | .invalidationApply _ _ => .sync
  | .tlbinv _ _ => .sync
  | .tlbinvDone _ => .sync
  | .asnroot _ _ _ => .sync
  | .l2hashWrite _ _ _ => .sync
  | .migrateStart _ => .sync
  | .migrateCopied _ => .sync
  | .migrateFinish _ => .sync
  | .copyLand _ _ _ => .sync
  | .copyComplete _ _ => .sync
  | .loadw _ _ => .sync
  | .stream _ _ => .sync
  | .accum _ _ => .sync
  | .drain _ _ => .sync
  | .signal _ _ => .sync
  | .mxComplete _ _ => .sync
  | .weightStage _ _ => .sync
  | .weightStageDone _ _ => .sync
  | .mxPowerGate _ _ _ => .sync
  | .mxWake _ _ _ => .sync
  | .installAccept _ _ => .sync
  | .engraveRead _ _ _ => .sync
  | .engraveProgram _ _ _ _ _ => .sync
  | .engraveVerify _ _ _ _ => .sync
  | .plateSwitch _ _ _ => .sync
  | .blockReclaim _ _ _ => .sync
  | .blockErase _ _ _ => .sync
  | .raceGrant _ _ => .sync
  | .commitComplete _ => .sync
  | .releaseComplete _ => .sync
  | .millComplete _ => .sync
  | .millwrightStep _ _ => .sync
  | .waferMillwrightStep _ => .sync
  | .occSample _ _ _ => .sync
  | .moveApply _ => .sync
  | .preemptCommand _ _ => .sync
  | .drainBudgetExpire _ => .sync
  | .flushRelease _ => .sync
  | .saveWrite _ => .sync
  | .preemptDone _ => .sync
  | .fqpop _ => .sync
  | .fqResume _ _ => .sync
  | .fqDeliver _ _ => .sync
  | .fqAbort _ _ => .sync
  | .l1TagParityError _ _ => .sync
  | .linkCrcFail _ _ => .sync
  | .packetForward _ _ => .sync
  | .rtArm _ _ => .sync
  | .rtSelect _ _ => .sync
  | .rtDrain _ _ => .sync
  | .rtClear _ => .sync
  | .drainTokenVisit _ => .sync
  | .nameAgeTick _ => .sync
  | .renameCore _ _ => .sync
  | .renameComplete _ => .sync
  | .vfctlWrite _ _ => .sync
  | .linkPauseEnd _ => .sync
  | .powerLimitTick _ => .sync
  | .ctreeBuild _ _ _ _ => .sync
  | .wredRoundResult _ _ _ _ => .sync
  | .peerAccess _ _ _ _ _ => .sync
  | .hostMemAccess _ _ _ _ _ => .sync
  | .attest _ _ => .sync
  | .gdaybookWrite _ _ => .sync
  | .gdaybookArm _ => .sync
  | .partmap _ _ => .sync
  | .powerOn => .sync
  | .domainReset _ => .sync
  | .registerWrite _ _ _ _ => .sync
  | .holdLift _ _ => .sync
  | .gridEnd _ => .sync
  | .ticketAbort _ _ => .sync
  | .keepMarkClear _ => .sync
  | .virtualInterfaceReset _ => .sync
  | .powerLoss => .sync
  | .hostCompletionTimeout _ _ => .sync
  | .sealComplete _ => .sync
  | .linkTakeDown _ => .sync

/-! ## Slot rows (R138, R139, R205) -/

/-- The wefts that hold a place in a slot row: block and weft index. -/
def rowWefts (s : State) (core part row : Nat) : List (Nat × Nat) :=
  (s.wefts.filter fun e =>
    let b := s.block (e.1 / 128)
    (b.bst == .resident || b.bst == .draining) && b.core == core && e.2.part == part && e.2.row == row).map
    fun e => (e.1 / 128, e.1 % 128)

/-- Whether a weft may issue at all: ACTIVE, in a RESIDENT block (R140). -/
def mayIssue (s : State) (b w : Nat) : Bool :=
  (s.weft b w).wst == .active && (s.block b).bst == .resident && !(s.block b).stopped && (duePreempt s b).isNone

/-- The stream of a weft that goes next, of those that are ready (R144). -/
def pickStream (user handler last : Bool) : Option Bool :=
  if user && handler then some (!last)
  else if user then some false
  else if handler then some true
  else none

/-- Whether weft (b, w) comes before weft (b', w') in age: placement, then weft index (R139). -/
def olderWeft (s : State) (x y : Nat × Nat) : Bool :=
  decide ((s.block x.1).age < (s.block y.1).age) ||
    ((s.block x.1).age == (s.block y.1).age && decide (x.2 ≤ y.2))

/-- A list of wefts in age order. -/
def insertAge (s : State) (x : Nat × Nat × Bool) : List (Nat × Nat × Bool) → List (Nat × Nat × Bool)
  | [] => [x]
  | y :: ys =>
    if olderWeft s (x.1, x.2.1) (y.1, y.2.1) then x :: y :: ys else y :: insertAge s x ys

/-- The rank of a row whose issuing wefts are `g`: role priority, block age, distance from the row
that issued last; the row of the higher priority, then of the lesser age, then of the lesser
distance goes first (R205). -/
structure Rank where
  prio : Nat
  age : Nat
  dist : Nat

def Rank.before (x y : Rank) : Bool :=
  decide (y.prio < x.prio) || (x.prio == y.prio &&
    (decide (x.age < y.age) || (x.age == y.age && decide (x.dist < y.dist))))

def rankOf (s : State) (last row : Nat) (g : List (Nat × Nat × Bool)) : Rank :=
  { prio := g.foldl (fun p x => max p (s.roleOf x.1 x.2.1).prio) 0
    age := g.foldl (fun a x => min a (s.block x.1).age) ((g.head?.map fun x => (s.block x.1).age).getD 0)
    dist := (row + 15 - last) % 16 }

/-- The best of the candidate rows (R205). -/
def bestRow (s : State) (last : Nat) :
    List (Nat × List (Nat × Nat × Bool)) → Option (Nat × List (Nat × Nat × Bool))
  | [] => none
  | x :: xs =>
    match bestRow s last xs with
    | none => some x
    | some y => if (rankOf s last y.1 y.2).before (rankOf s last x.1 x.2) then some y else some x

end Sys2Proof.Machine
end

