-- ==== Sys2Proof/Machine/Integer.lean ====
section
/-!
DEFINITION. The integer, bit and address instructions (R87-R103), SHORT forms among them (R45), and
the move of a uniform register (R173).
-/
namespace Sys2Proof.Machine

/-! ## Results (R91-R98) -/

/-- All ones for true, zero for false (R92). -/
def mask32 (c : Bool) : Word := if c then 0xFFFFFFFF else 0

/-- Sat32 of an exact result (R91). -/
def sat32 (x : Int) : Word := BitVec.ofInt 32 (min (max x (-2147483648)) 2147483647)

/-- The high word of the I32 product (R91). -/
def mulHi (a b : Word) : Word := (BitVec.signExtend 64 a * BitVec.signExtend 64 b).extractLsb' 32 32
/-- The high word of the N32 product (R91). -/
def mulHiN (a b : Word) : Word := (BitVec.zeroExtend 64 a * BitVec.zeroExtend 64 b).extractLsb' 32 32
/-- The exact I32 product (R91). -/
def mulWide (a b : Word) : DWord := BitVec.signExtend 64 a * BitVec.signExtend 64 b
/-- The exact N32 product (R91). -/
def mulWideN (a b : Word) : DWord := BitVec.zeroExtend 64 a * BitVec.zeroExtend 64 b

/-- The lesser and the greater as I32 and as N32 (R92). -/
def minS (a b : Word) : Word := if a.slt b then a else b
def maxS (a b : Word) : Word := if a.slt b then b else a
def minU (a b : Word) : Word := if a.ult b then a else b
def maxU (a b : Word) : Word := if a.ult b then b else a

/-- SHL: the whole of b is the count (R93). -/
def shlW (a b : Word) : Word := if b.toNat < 32 then a <<< b.toNat else 0
/-- SHRL (R93). -/
def shrlW (a b : Word) : Word := if b.toNat < 32 then a >>> b.toNat else 0
/-- SHRA (R93). -/
def shraW (a b : Word) : Word :=
  if b.toNat < 32 then a.sshiftRight b.toNat else mask32 a.msb
/-- ROTL by b[4:0] (R93). -/
def rotlW (a b : Word) : Word := a.rotateLeft (b.toNat % 32)

/-- SHL64, SHRL64 and SHRA64: a word count, 64 or more moving every bit out (R94). -/
def shl64 (a : DWord) (b : Word) : DWord := if b.toNat < 64 then a <<< b.toNat else 0
def shrl64 (a : DWord) (b : Word) : DWord := if b.toNat < 64 then a >>> b.toNat else 0
def shra64 (a : DWord) (b : Word) : DWord :=
  if b.toNat < 64 then a.sshiftRight b.toNat else if a.msb then BitVec.allOnes 64 else 0

/-- POS and the field width w = min(LEN, 32 - POS) of a field control word (R95). -/
def bfPos (b : Word) : Nat := b.toNat % 32
def bfLen (b : Word) : Nat := min (b.toNat / 2 ^ 8 % 64) (32 - bfPos b)

/-- BFX (R96). -/
def bfx (a b : Word) : Word :=
  let f := a.toNat / 2 ^ bfPos b % 2 ^ bfLen b
  if b.getLsbD 16 && decide (0 < bfLen b) && f.testBit (bfLen b - 1)
  then BitVec.ofInt 32 (Int.ofNat f - 2 ^ bfLen b) else BitVec.ofNat 32 f

/-- BFI: `d` is the word into which it inserts (R96). -/
def bfi (a b d : Word) : Word :=
  let m : Word := BitVec.ofNat 32 ((2 ^ bfLen b - 1) * 2 ^ bfPos b)
  (d &&& ~~~m) ||| ((a <<< bfPos b) &&& m)

/-- The number of 1 bits among the low `n` (R97). -/
def popCount (a : Nat) : Nat → Nat
  | 0 => 0
  | n + 1 => (if a.testBit n then 1 else 0) + popCount a n

/-- The number of 0 bits above the highest 1 bit of the low `n` (R97). -/
def clzCount (a : Nat) : Nat → Nat
  | 0 => 0
  | n + 1 => if a.testBit n then 0 else 1 + clzCount a n

/-- Bit i of the result is bit 31 - i of a (R97). -/
def revBits (a : Nat) : Nat → Nat
  | 0 => 0
  | n + 1 => (if a.testBit (31 - n) then 2 ^ n else 0) + revBits a n

/-- IDIV, rounded toward zero; a zero divisor gives all ones, and -2^31 by -1 wraps (R98). -/
def idivW (a b : Word) : Word := if b = 0 then 0xFFFFFFFF else BitVec.ofInt 32 (a.toInt.tdiv b.toInt)
/-- IREM: the sign of the dividend; a zero divisor gives a (R98). -/
def iremW (a b : Word) : Word := if b = 0 then a else BitVec.ofInt 32 (a.toInt.tmod b.toInt)
/-- IDIVN (R98). -/
def idivnW (a b : Word) : Word := if b = 0 then 0xFFFFFFFF else BitVec.ofNat 32 (a.toNat / b.toNat)
/-- IREMN (R98). -/
def iremnW (a b : Word) : Word := if b = 0 then a else BitVec.ofNat 32 (a.toNat % b.toNat)

/-! ## Shapes of the three-register forms (R50, R90) -/

/-- vd, va and vb words (R90). -/
def aluWord (f : Word → Word → Word) (c : IClass) (d a : VReg) (b : Src) (s : State) :=
  issueLanes c ([one d, one a] ++ srcRegs b) (srcKs 1 b) (fun s l => .next ((s.lane l).setReg d.toNat
    (f ((s.lane l).reg a.toNat) (srcWord s.wft (s.lane l) b)))) s

/-- The same, with the old vd as a third source (R50, W+). -/
def aluAccum (f : Word → Word → Word → Word) (c : IClass) (d a : VReg) (b : Src) (s : State) :=
  issueLanes c ([one d, one a] ++ srcRegs b) (srcKs 1 b) (fun s l => .next ((s.lane l).setReg d.toNat
    (f ((s.lane l).reg a.toNat) (srcWord s.wft (s.lane l) b) ((s.lane l).reg d.toNat)))) s

/-- vd, va and vb pairs (R50, P). -/
def aluPair (f : DWord → DWord → DWord) (c : IClass) (d a : VReg) (b : Src) (s : State) :=
  issueLanes c ([two d, two a] ++ srcRegs2 b) (srcKs 2 b) (fun s l => .next ((s.lane l).setPair d.toNat
    (f ((s.lane l).pair a.toNat) (srcPair s.wft (s.lane l) b)))) s

/-- A pair from two words (R50, IMULW). -/
def aluWide (f : Word → Word → DWord) (d a : VReg) (b : Src) (s : State) :=
  issueLanes .integer ([two d, one a] ++ srcRegs b) (srcKs 1 b) (fun s l => .next ((s.lane l).setPair d.toNat
    (f ((s.lane l).reg a.toNat) (srcWord s.wft (s.lane l) b)))) s

/-- A pair from a pair and a word count (R50, R94). -/
def aluShift64 (f : DWord → Word → DWord) (d a : VReg) (b : Src) (s : State) :=
  issueLanes .integer ([two d, two a] ++ srcRegs b) (srcKs 1 b) (fun s l => .next ((s.lane l).setPair d.toNat
    (f ((s.lane l).pair a.toNat) (srcWord s.wft (s.lane l) b)))) s

/-- One word from one word (R97). -/
def aluUnary (f : Word → Word) (d a : VReg) (s : State) :=
  issueLanes .integer [one d, one a] [] (fun s l => .next ((s.lane l).setReg d.toNat
    (f ((s.lane l).reg a.toNat)))) s

/-- A word and an immediate that every lane shares (R99). -/
def aluImm (f : Word → Word → Word) (d a : VReg) (imm : Word) (s : State) :=
  issueLanes .integer [one d, one a] [] (fun s l => .next ((s.lane l).setReg d.toNat
    (f ((s.lane l).reg a.toNat) imm))) s

/-- A SHORT word: vd := vd op vs, as its 32-bit equivalent (R45). -/
def aluShort (f : Word → Word → Word) (d : BitVec 6) (r : BitVec 5) (s : State) :=
  aluWord f .integer (d.setWidth 7) (d.setWidth 7) (.v (r.setWidth 7)) s

/-! ## ALU-A (R91-R96) and division (R98) -/

/-- IADD (R91): 32-bit wrapping add. -/
def execIadd (d a : VReg) (b : Src) (s : State) : Host.Outcome State Fault Refusal :=
  aluWord (fun a b => a + b) .integer d a b s

/-- ISUB (R91): 32-bit wrapping subtract. -/
def execIsub (d a : VReg) (b : Src) (s : State) : Host.Outcome State Fault Refusal :=
  aluWord (fun a b => a - b) .integer d a b s

/-- IMUL (R91): Low word of the product. -/
def execImul (d a : VReg) (b : Src) (s : State) : Host.Outcome State Fault Refusal :=
  aluWord (fun a b => a * b) .integer d a b s

/-- IMULHI (R91): High word of the signed product. -/
def execImulhi (d a : VReg) (b : Src) (s : State) : Host.Outcome State Fault Refusal :=
  aluWord mulHi .integer d a b s

/-- IMULHIN (R91): High word of the unsigned product. -/
def execImulhin (d a : VReg) (b : Src) (s : State) : Host.Outcome State Fault Refusal :=
  aluWord mulHiN .integer d a b s

/-- IMIN (R92): Signed minimum. -/
def execImin (d a : VReg) (b : Src) (s : State) : Host.Outcome State Fault Refusal :=
  aluWord minS .integer d a b s

/-- IMAX (R92): Signed maximum. -/
def execImax (d a : VReg) (b : Src) (s : State) : Host.Outcome State Fault Refusal :=
  aluWord maxS .integer d a b s

/-- IMINN (R92): Unsigned minimum. -/
def execIminn (d a : VReg) (b : Src) (s : State) : Host.Outcome State Fault Refusal :=
  aluWord minU .integer d a b s

/-- IMAXN (R92): Unsigned maximum. -/
def execImaxn (d a : VReg) (b : Src) (s : State) : Host.Outcome State Fault Refusal :=
  aluWord maxU .integer d a b s

/-- AND (R93): Bitwise AND. -/
def execAnd (d a : VReg) (b : Src) (s : State) : Host.Outcome State Fault Refusal :=
  aluWord (fun a b => a &&& b) .integer d a b s

/-- OR (R93): Bitwise OR. -/
def execOr (d a : VReg) (b : Src) (s : State) : Host.Outcome State Fault Refusal :=
  aluWord (fun a b => a ||| b) .integer d a b s

/-- XOR (R93): Bitwise XOR. -/
def execXor (d a : VReg) (b : Src) (s : State) : Host.Outcome State Fault Refusal :=
  aluWord (fun a b => a ^^^ b) .integer d a b s

/-- ANDN (R93): a AND NOT b. -/
def execAndn (d a : VReg) (b : Src) (s : State) : Host.Outcome State Fault Refusal :=
  aluWord (fun a b => a &&& ~~~b) .integer d a b s

/-- SHL (R93): Left shift, counts of 32 or more give 0. -/
def execShl (d a : VReg) (b : Src) (s : State) : Host.Outcome State Fault Refusal :=
  aluWord shlW .integer d a b s

/-- SHRL (R93): Logical right shift. -/
def execShrl (d a : VReg) (b : Src) (s : State) : Host.Outcome State Fault Refusal :=
  aluWord shrlW .integer d a b s

/-- SHRA (R93): Arithmetic right shift. -/
def execShra (d a : VReg) (b : Src) (s : State) : Host.Outcome State Fault Refusal :=
  aluWord shraW .integer d a b s

/-- ROTL (R93): Rotate left by b mod 32. -/
def execRotl (d a : VReg) (b : Src) (s : State) : Host.Outcome State Fault Refusal :=
  aluWord rotlW .integer d a b s

/-- IADDSAT (R91): Saturating signed add. -/
def execIaddsat (d a : VReg) (b : Src) (s : State) : Host.Outcome State Fault Refusal :=
  aluWord (fun a b => sat32 (a.toInt + b.toInt)) .integer d a b s

/-- ISUBSAT (R91): Saturating signed subtract. -/
def execIsubsat (d a : VReg) (b : Src) (s : State) : Host.Outcome State Fault Refusal :=
  aluWord (fun a b => sat32 (a.toInt - b.toInt)) .integer d a b s

/-- BFX (R96): Extract a bit field under a control word. -/
def execBfx (d a : VReg) (b : Src) (s : State) : Host.Outcome State Fault Refusal :=
  aluWord bfx .integer d a b s

/-- ISEQ (R92): Integer equality compare. -/
def execIseq (d a : VReg) (b : Src) (s : State) : Host.Outcome State Fault Refusal :=
  aluWord (fun a b => mask32 (a == b)) .integer d a b s

/-- ISNE (R92): Integer inequality compare. -/
def execIsne (d a : VReg) (b : Src) (s : State) : Host.Outcome State Fault Refusal :=
  aluWord (fun a b => mask32 (a != b)) .integer d a b s

/-- ISLT (R92): Signed less-than compare. -/
def execIslt (d a : VReg) (b : Src) (s : State) : Host.Outcome State Fault Refusal :=
  aluWord (fun a b => mask32 (a.slt b)) .integer d a b s

/-- ISLE (R92): Signed less-or-equal compare. -/
def execIsle (d a : VReg) (b : Src) (s : State) : Host.Outcome State Fault Refusal :=
  aluWord (fun a b => mask32 (a.sle b)) .integer d a b s

/-- ISLTN (R92): Unsigned less-than compare. -/
def execIsltn (d a : VReg) (b : Src) (s : State) : Host.Outcome State Fault Refusal :=
  aluWord (fun a b => mask32 (a.ult b)) .integer d a b s

/-- ISLEN (R92): Unsigned less-or-equal compare. -/
def execIslen (d a : VReg) (b : Src) (s : State) : Host.Outcome State Fault Refusal :=
  aluWord (fun a b => mask32 (a.ule b)) .integer d a b s

/-- IDIV (R98): Signed divide; divide by zero gives all ones. -/
def execIdiv (d a : VReg) (b : Src) (s : State) : Host.Outcome State Fault Refusal :=
  aluWord idivW .integer d a b s

/-- IREM (R98): Signed remainder. -/
def execIrem (d a : VReg) (b : Src) (s : State) : Host.Outcome State Fault Refusal :=
  aluWord iremW .integer d a b s

/-- IDIVN (R98): Unsigned divide. -/
def execIdivn (d a : VReg) (b : Src) (s : State) : Host.Outcome State Fault Refusal :=
  aluWord idivnW .integer d a b s

/-- IREMN (R98): Unsigned remainder. -/
def execIremn (d a : VReg) (b : Src) (s : State) : Host.Outcome State Fault Refusal :=
  aluWord iremnW .integer d a b s

/-- IMAD (R91): vd := a*b + old vd, low word. -/
def execImad (d a : VReg) (b : Src) (s : State) : Host.Outcome State Fault Refusal :=
  aluAccum (fun a b d => a * b + d) .integer d a b s

/-- SEL (R92): a if old vd nonzero, else b. -/
def execSel (d a : VReg) (b : Src) (s : State) : Host.Outcome State Fault Refusal :=
  aluAccum (fun a b d => if d = 0 then b else a) .integer d a b s

/-- BFI (R96): Insert a bit field into old vd. -/
def execBfi (d a : VReg) (b : Src) (s : State) : Host.Outcome State Fault Refusal :=
  aluAccum bfi .integer d a b s

/-- IADD64 (R91): 64-bit pair add. -/
def execIadd64 (d a : VReg) (b : Src) (s : State) : Host.Outcome State Fault Refusal :=
  aluPair (fun a b => a + b) .integer d a b s

/-- ISUB64 (R91): 64-bit pair subtract. -/
def execIsub64 (d a : VReg) (b : Src) (s : State) : Host.Outcome State Fault Refusal :=
  aluPair (fun a b => a - b) .integer d a b s

/-- IMULW (R91): Exact signed 32x32 product into a pair. -/
def execImulw (d a : VReg) (b : Src) (s : State) : Host.Outcome State Fault Refusal :=
  aluWide mulWide d a b s

/-- IMULWN (R91): Exact unsigned 32x32 product into a pair. -/
def execImulwn (d a : VReg) (b : Src) (s : State) : Host.Outcome State Fault Refusal :=
  aluWide mulWideN d a b s

/-- SHL64 (R94): 64-bit left shift. -/
def execShl64 (d a : VReg) (b : Src) (s : State) : Host.Outcome State Fault Refusal :=
  aluShift64 shl64 d a b s

/-- SHRL64 (R94): 64-bit logical right shift. -/
def execShrl64 (d a : VReg) (b : Src) (s : State) : Host.Outcome State Fault Refusal :=
  aluShift64 shrl64 d a b s

/-- SHRA64 (R94): 64-bit arithmetic right shift. -/
def execShra64 (d a : VReg) (b : Src) (s : State) : Host.Outcome State Fault Refusal :=
  aluShift64 shra64 d a b s

/-! ## Bit counts and moves (R97, R101-R103) -/

/-- POPC (R97): Count one bits. -/
def execPopc (d a : VReg) (s : State) : Host.Outcome State Fault Refusal :=
  aluUnary (fun a => BitVec.ofNat 32 (popCount a.toNat 32)) d a s

/-- CLZ (R97): Count leading zeros. -/
def execClz (d a : VReg) (s : State) : Host.Outcome State Fault Refusal :=
  aluUnary (fun a => BitVec.ofNat 32 (clzCount a.toNat 32)) d a s

/-- BREV (R97): Reverse bit order. -/
def execBrev (d a : VReg) (s : State) : Host.Outcome State Fault Refusal :=
  aluUnary (fun a => BitVec.ofNat 32 (revBits a.toNat 32)) d a s

/-- MOV64 (R101): Copy a pair. -/
def execMov64 (d a : VReg) (s : State) : Host.Outcome State Fault Refusal :=
  issueLanes .integer [two d, two a] [] (fun s l =>
    .next ((s.lane l).setPair d.toNat ((s.lane l).pair a.toNat))) s

/-- The register that an indexed access reaches, or the trap that it meets: XRANGE if INDEX is not
below BOUND, else REGRANGE at or above the allotment (R17, R103). -/
def indexedReg (s : State) (x : Word) : Except Cond Nat :=
  let r := xBase x + xIndex x
  if xBound x ≤ xIndex x then .error { cause := .xrange, addr := s.iss.pc.toNat, info := x.toNat }
  else if (s.roleOf s.iss.blk s.iss.weft).regs ≤ r then
    .error { cause := .regrange, addr := s.iss.pc.toNat, info := r }
  else .ok r

/-- The registers that indexed accesses of the issue set reach, which count as named (R88). -/
def indexedBusy (s : State) (i : BitVec 2) : Bool :=
  s.iss.lanes.any fun l =>
    laneBusy s s.iss.blk s.iss.weft l [(xBase ((s.lane l).xreg i) + xIndex ((s.lane l).xreg i), 1)]

/-- SETX (R102): Write an index register whole. -/
def execSetx (i : BitVec 2) (a : VReg) (s : State) : Host.Outcome State Fault Refusal :=
  issueLanes .integer [one a] [] (fun s l =>
    .next ((s.lane l).setX i ((s.lane l).reg a.toNat))) s

/-- GETX (R102): Read an index register whole. -/
def execGetx (d : VReg) (i : BitVec 2) (s : State) : Host.Outcome State Fault Refusal :=
  issueLanes .integer [one d] [] (fun s l =>
    .next ((s.lane l).setReg d.toNat ((s.lane l).xreg i))) s

/-- MOVX (R103): Read a data register through an index register. -/
def execMovx (d : VReg) (i : BitVec 2) (s : State) : Host.Outcome State Fault Refusal :=
  issue { permitted := fun k => k.permits .integer, regs := [one d], poison := .lanes }
    (fun s => issueBusy s [one d] [] || indexedBusy s i)
    (fun s => s.iss.lanes.foldl (laneStep fun l =>
      match indexedReg s ((s.lane l).xreg i) with
      | .error c => .trap c
      | .ok r => .next ((s.lane l).setReg d.toNat ((s.lane l).reg r))) s) s

/-- MOVXW (R103): Write a data register through an index register. -/
def execMovxw (i : BitVec 2) (a : VReg) (s : State) : Host.Outcome State Fault Refusal :=
  issue { permitted := fun k => k.permits .integer, regs := [one a], poison := .lanes }
    (fun s => issueBusy s [one a] [] || indexedBusy s i)
    (fun s => s.iss.lanes.foldl (laneStep fun l =>
      match indexedReg s ((s.lane l).xreg i) with
      | .error c => .trap c
      | .ok r => .next ((s.lane l).setReg r ((s.lane l).reg a.toNat))) s) s

/-! ## Immediate forms (R99, R100, R173) -/

/-- IADDI (R99): Add a sign-extended 9-bit immediate. -/
def execIaddi (d a : VReg) (i : BitVec 9) (s : State) : Host.Outcome State Fault Refusal :=
  aluImm (fun a b => a + b) d a (BitVec.signExtend 32 i) s

/-- ANDI (R99): AND with a zero-extended immediate. -/
def execAndi (d a : VReg) (i : BitVec 9) (s : State) : Host.Outcome State Fault Refusal :=
  aluImm (fun a b => a &&& b) d a (BitVec.zeroExtend 32 i) s

/-- ORI (R99): OR with a sign-extended immediate. -/
def execOri (d a : VReg) (i : BitVec 9) (s : State) : Host.Outcome State Fault Refusal :=
  aluImm (fun a b => a ||| b) d a (BitVec.signExtend 32 i) s

/-- XORI (R99): XOR with a sign-extended immediate. -/
def execXori (d a : VReg) (i : BitVec 9) (s : State) : Host.Outcome State Fault Refusal :=
  aluImm (fun a b => a ^^^ b) d a (BitVec.signExtend 32 i) s

/-- ISEQI (R99): Equality compare with an immediate. -/
def execIseqi (d a : VReg) (i : BitVec 9) (s : State) : Host.Outcome State Fault Refusal :=
  aluImm (fun a b => mask32 (a == b)) d a (BitVec.signExtend 32 i) s

/-- ISNEI (R99): Inequality compare with an immediate. -/
def execIsnei (d a : VReg) (i : BitVec 9) (s : State) : Host.Outcome State Fault Refusal :=
  aluImm (fun a b => mask32 (a != b)) d a (BitVec.signExtend 32 i) s

/-- ISLTI (R99): Signed less-than with an immediate. -/
def execIslti (d a : VReg) (i : BitVec 9) (s : State) : Host.Outcome State Fault Refusal :=
  aluImm (fun a b => mask32 (a.slt b)) d a (BitVec.signExtend 32 i) s

/-- ISLTNI (R99): Unsigned less-than with an immediate. -/
def execIsltni (d a : VReg) (i : BitVec 9) (s : State) : Host.Outcome State Fault Refusal :=
  aluImm (fun a b => mask32 (a.ult b)) d a (BitVec.signExtend 32 i) s

/-- IMULI (R99): Multiply by an immediate. -/
def execImuli (d a : VReg) (i : BitVec 9) (s : State) : Host.Outcome State Fault Refusal :=
  aluImm (fun a b => a * b) d a (BitVec.signExtend 32 i) s

/-- SHLI (R99): Left shift by an immediate. -/
def execShli (d a : VReg) (i : BitVec 5) (s : State) : Host.Outcome State Fault Refusal :=
  aluImm shlW d a (BitVec.zeroExtend 32 i) s

/-- SHRLI (R99): Logical right shift by an immediate. -/
def execShrli (d a : VReg) (i : BitVec 5) (s : State) : Host.Outcome State Fault Refusal :=
  aluImm shrlW d a (BitVec.zeroExtend 32 i) s

/-- SHRAI (R99): Arithmetic right shift by an immediate. -/
def execShrai (d a : VReg) (i : BitVec 5) (s : State) : Host.Outcome State Fault Refusal :=
  aluImm shraW d a (BitVec.zeroExtend 32 i) s

/-- IADD64I (R99): Add an immediate to a pair. -/
def execIadd64i (d a : VReg) (i : BitVec 9) (s : State) : Host.Outcome State Fault Refusal :=
  issueLanes .integer [two d, two a] [] (fun s l => .next ((s.lane l).setPair d.toNat
    ((s.lane l).pair a.toNat + BitVec.signExtend 64 i))) s

/-- MOVI (R100): Load a sign-extended 18-bit immediate. -/
def execMovi (d : VReg) (i : BitVec 18) (s : State) : Host.Outcome State Fault Refusal :=
  issueLanes .integer [one d] [] (fun s l =>
    .next ((s.lane l).setReg d.toNat (BitVec.signExtend 32 i))) s

/-- MOVHI (R100): Write bits 31:14 of vd, keeping 13:0. DEDUCED (log 30). -/
def execMovhi (d : VReg) (i : BitVec 18) (s : State) : Host.Outcome State Fault Refusal :=
  issueLanes .integer [one d] [] (fun s l =>
    .next ((s.lane l).setReg d.toNat (i ++ ((s.lane l).reg d.toNat).extractLsb' 0 14))) s

/-- MOVK (R173): Copy a uniform register into vd of each lane. -/
def execMovk (d : VReg) (n : KReg) (s : State) : Host.Outcome State Fault Refusal :=
  issueLanes .integer [one d] [(n.toNat, 1)] (fun s l =>
    .next ((s.lane l).setReg d.toNat (s.wft.kreg n.toNat))) s

/-! ## SHORT forms (R45) -/

/-- SHORT_IADD (R45): 16-bit vd := vd + vs. -/
def execShortIadd (d : BitVec 6) (r : BitVec 5) (s : State) : Host.Outcome State Fault Refusal :=
  aluShort (fun a b => a + b) d r s

/-- SHORT_ISUB (R45): 16-bit vd := vd - vs. -/
def execShortIsub (d : BitVec 6) (r : BitVec 5) (s : State) : Host.Outcome State Fault Refusal :=
  aluShort (fun a b => a - b) d r s

/-- SHORT_IMUL (R45): 16-bit vd := vd * vs, low word. -/
def execShortImul (d : BitVec 6) (r : BitVec 5) (s : State) : Host.Outcome State Fault Refusal :=
  aluShort (fun a b => a * b) d r s

/-- SHORT_AND (R45): 16-bit vd := vd AND vs. -/
def execShortAnd (d : BitVec 6) (r : BitVec 5) (s : State) : Host.Outcome State Fault Refusal :=
  aluShort (fun a b => a &&& b) d r s

/-- SHORT_OR (R45): 16-bit vd := vd OR vs. -/
def execShortOr (d : BitVec 6) (r : BitVec 5) (s : State) : Host.Outcome State Fault Refusal :=
  aluShort (fun a b => a ||| b) d r s

/-- SHORT_XOR (R45): 16-bit vd := vd XOR vs. -/
def execShortXor (d : BitVec 6) (r : BitVec 5) (s : State) : Host.Outcome State Fault Refusal :=
  aluShort (fun a b => a ^^^ b) d r s

/-- SHORT_SHL (R45): 16-bit left shift of vd by vs. -/
def execShortShl (d : BitVec 6) (r : BitVec 5) (s : State) : Host.Outcome State Fault Refusal :=
  aluShort shlW d r s

/-- SHORT_SHRL (R45): 16-bit logical right shift of vd by vs. -/
def execShortShrl (d : BitVec 6) (r : BitVec 5) (s : State) : Host.Outcome State Fault Refusal :=
  aluShort shrlW d r s

/-- SHORT_SHRA (R45): 16-bit arithmetic right shift of vd by vs. -/
def execShortShra (d : BitVec 6) (r : BitVec 5) (s : State) : Host.Outcome State Fault Refusal :=
  aluShort shraW d r s

/-- SHORT_MOV (R45): 16-bit word that copies vs into vd. -/
def execShortMov (d : BitVec 6) (r : BitVec 5) (s : State) : Host.Outcome State Fault Refusal :=
  aluWord (fun a b => a ||| b) .integer (d.setWidth 7) (r.setWidth 7) (.v 0) s

/-- SHORT_IADDI (R45): 16-bit vd := vd + immediate 0 to 31. -/
def execShortIaddi (d : BitVec 6) (i : BitVec 5) (s : State) : Host.Outcome State Fault Refusal :=
  aluImm (fun a b => a + b) (d.setWidth 7) (d.setWidth 7) (BitVec.zeroExtend 32 i) s

end Sys2Proof.Machine
end

