-- ==== Sys2Proof/Machine/Float.lean ====
section
/-!
DEFINITION. The floating-point and conversion instructions (R104-R118), SHORT forms among them (R45).
-/
namespace Sys2Proof.Machine

/-! ## Shapes (R104) -/

/-- A word result and its flags, delivered to vd; a write to v0 is discarded, the flags still set (R104). -/
def fpWord (t : Thread) (d : Nat) (r : FRes) : LaneRes := .next ((t.setReg d (BitVec.ofNat 32 r.bits)).raise r.flags)

/-- A pair result and its flags (R104). -/
def fpPair (t : Thread) (d : Nat) (r : FRes) : LaneRes := .next ((t.setPair d (BitVec.ofNat 64 r.bits)).raise r.flags)

/-- FlushIn of an FP32 word under a thread's FCSR, as a value (R75, R105). -/
def in32 (t : Thread) (x : Word) : FVal := unpack fp32 (flushIn fp32 (fcsrFTZ t.fcsr) x.toNat)
/-- FlushIn of an FP64 pair, as a value. -/
def in64 (t : Thread) (x : DWord) : FVal := unpack fp64 (flushIn fp64 (fcsrFTZ t.fcsr) x.toNat)
/-- FlushOut of an FP32 result. -/
def out32 (t : Thread) (r : FRes) : FRes := flushOut fp32 (fcsrFTZ t.fcsr) r
/-- FlushOut of an FP64 result. -/
def out64 (t : Thread) (r : FRes) : FRes := flushOut fp64 (fcsrFTZ t.fcsr) r

/-- FP32 arithmetic of two words (R106). -/
def fp32Bin (f : Nat → FVal → FVal → FRes) (d a : VReg) (b : Src) (s : State) :
    Host.Outcome State Fault Refusal :=
  issueLanes .fp32 ([one d, one a] ++ srcRegs b) (srcKs 1 b) (fun s l =>
    let t := s.lane l
    fpWord t d.toNat (out32 t (f (fcsrRM t.fcsr) (in32 t (t.reg a.toNat)) (in32 t (srcWord s.wft t b))))) s

/-- FP64 arithmetic of two pairs (R106). -/
def fp64Bin (f : Nat → FVal → FVal → FRes) (d a : VReg) (b : Src) (s : State) :
    Host.Outcome State Fault Refusal :=
  issueLanes .fp64 ([two d, two a] ++ srcRegs2 b) (srcKs 2 b) (fun s l =>
    let t := s.lane l
    fpPair t d.toNat (out64 t (f (fcsrRM t.fcsr) (in64 t (t.pair a.toNat)) (in64 t (srcPair s.wft t b))))) s

/-- One FP32 word to one word, with flushing (R111, R112). -/
def fp32Un (f : Nat → FVal → FRes) (d a : VReg) (s : State) : Host.Outcome State Fault Refusal :=
  issueLanes .fp32 [one d, one a] [] (fun s l =>
    let t := s.lane l
    fpWord t d.toNat (out32 t (f (fcsrRM t.fcsr) (in32 t (t.reg a.toNat))))) s

/-- FMIN and FMAX of two words (R107). -/
def fp32MinMax (mx : Bool) (d a : VReg) (b : Src) (s : State) : Host.Outcome State Fault Refusal :=
  issueLanes .fp32 ([one d, one a] ++ srcRegs b) (srcKs 1 b) (fun s l =>
    let t := s.lane l
    let z := fcsrFTZ t.fcsr
    fpWord t d.toNat (fMinMax fp32 mx (flushIn fp32 z (t.reg a.toNat).toNat)
      (flushIn fp32 z (srcWord s.wft t b).toNat))) s

/-- DMIN and DMAX of two pairs (R107). -/
def fp64MinMax (mx : Bool) (d a : VReg) (b : Src) (s : State) : Host.Outcome State Fault Refusal :=
  issueLanes .fp64 ([two d, two a] ++ srcRegs2 b) (srcKs 2 b) (fun s l =>
    let t := s.lane l
    let z := fcsrFTZ t.fcsr
    fpPair t d.toNat (fMinMax fp64 mx (flushIn fp64 z (t.pair a.toNat).toNat)
      (flushIn fp64 z (srcPair s.wft t b).toNat))) s

/-- The compares (R108). -/
inductive FRel where
  | eq | ne | lt | le | uno
  deriving DecidableEq, Repr

/-- The mask a compare writes and the flags it raises (R108). -/
def fRel (r : FRel) (x y : FVal) : FRes :=
  let nan := x.isNaN || y.isNaN
  let snan := x.isSNaN || y.isSNaN
  let c := fCmp x y
  let yes : Bool := match r with
    | .eq => !nan && c == .eq
    | .ne => nan || c != .eq
    | .lt => !nan && c == .lt
    | .le => !nan && c != .gt
    | .uno => nan
  let nv : Bool := match r with
    | .lt => nan
    | .le => nan
    | _ => snan
  ⟨if yes then 0xFFFFFFFF else 0, if nv then fNV else 0⟩

/-- An FP32 compare (R108). -/
def fp32Rel (r : FRel) (d a : VReg) (b : Src) (s : State) : Host.Outcome State Fault Refusal :=
  issueLanes .fp32 ([one d, one a] ++ srcRegs b) (srcKs 1 b) (fun s l =>
    let t := s.lane l
    fpWord t d.toNat (fRel r (in32 t (t.reg a.toNat)) (in32 t (srcWord s.wft t b)))) s

/-- An FP64 compare: a word from two pairs (R108). -/
def fp64Rel (r : FRel) (d a : VReg) (b : Src) (s : State) : Host.Outcome State Fault Refusal :=
  issueLanes .fp64 ([one d, two a] ++ srcRegs2 b) (srcKs 2 b) (fun s l =>
    let t := s.lane l
    fpWord t d.toNat (fRel r (in64 t (t.pair a.toNat)) (in64 t (srcPair s.wft t b)))) s

/-- The two elements of a packed word, put back together with the flags of both (R71, R113). -/
def pack2 (lo hi : FRes) : FRes := ⟨lo.bits + hi.bits * 65536, lo.flags ||| hi.flags⟩

/-- Element `i` of a packed word as a value (R71). -/
def half (f : Fmt) (x : Word) (i : Nat) : FVal := unpack f (x.toNat / 2 ^ (16 * i) % 65536)

/-- Packed arithmetic in RNE, subnormals kept (R113). -/
def packed (f : Fmt) (op : FVal → FVal → FVal → FRes) (d a : VReg) (b : Src) (s : State) :
    Host.Outcome State Fault Refusal :=
  issueLanes .fp64 ([one d, one a] ++ srcRegs b) (srcKs 1 b) (fun s l =>
    let t := s.lane l
    let e := fun i => op (half f (t.reg a.toNat) i) (half f (srcWord s.wft t b) i) (half f (t.reg d.toNat) i)
    fpWord t d.toNat (pack2 (e 0) (e 1))) s

/-! ## FRINT and FCLASS (R110, R111) -/

/-- FRINT: an integral value of the input's sign; only NX and NV arise (R111). -/
def fRint (rm : Nat) (x : FVal) : FRes :=
  match x with
  | .nan s => nanRes fp32 s
  | .inf n => ⟨fp32.sign n + fp32.inf, 0⟩
  | .fin n m e =>
    let r := toIntegral rm n m e
    ⟨(roundTo fp32 rm n r.1 0 false).bits, if r.2 then fNX else 0⟩

/-- FCLASS: one of ten classes as one bit (R110). -/
def fClass (x : Nat) : Nat :=
  match unpack fp32 x with
  | .nan s => if s then 0x100 else 0x200
  | .inf n => if n then 0x001 else 0x080
  | .fin n m _ =>
    if m = 0 then (if n then 0x008 else 0x010)
    else if x / 2 ^ 23 % 256 = 0 then (if n then 0x004 else 0x020)
    else if n then 0x002 else 0x040

/-! ## FEX2 and FLG2 (R114-R117) -/

/-- T of R114: RNE(2^(30 + j/64)). -/
def exTable : List Nat :=
  [0x40000000, 0x40B268FA, 0x4166C34C, 0x421D1462, 0x42D561B4, 0x438FB0CB, 0x444C0740, 0x450A6ABB] ++
  [0x45CAE0F2, 0x468D6FAE, 0x47521CC6, 0x4818EE22, 0x48E1E9BA, 0x49AD1598, 0x4A7A77D4, 0x4B4A169C] ++
  [0x4C1BF829, 0x4CF022CA, 0x4DC69CDD, 0x4E9F6CD4, 0x4F7A9930, 0x50582888, 0x51382182, 0x521A8AD7] ++
  [0x52FF6B55, 0x53E6C9DA, 0x54D0AD5A, 0x55BD1CDB, 0x56AC1F75, 0x579DBC57, 0x5891FAC1, 0x5988E209] ++
  [0x5A82799A, 0x5B7EC8F2, 0x5C7DD7A4, 0x5D7FAD59, 0x5E8451D0, 0x5F8BCCDB, 0x60962665, 0x61A3666D] ++
  [0x62B39509, 0x63C6BA64, 0x64DCDEC3, 0x65F60A7F, 0x6712460B, 0x683199ED, 0x69540EC9, 0x6A79AD56] ++
  [0x6BA27E65, 0x6CCE8AE1, 0x6DFDDBCC, 0x6F307A41, 0x70666F76, 0x719FC4B9, 0x72DC8374, 0x741CB528] ++
  [0x75606374, 0x76A7980F, 0x77F25CCE, 0x7940BB9E, 0x7A92BE8B, 0x7BE86FBA, 0x7D41D96E, 0x7E9F0606]

/-- G of R116: RNE(2^36 / (64 + j)). -/
def lgRecip : List Nat :=
  [0x40000000, 0x3F03F03F, 0x3E0F83E1, 0x3D226358, 0x3C3C3C3C, 0x3B5CC0ED, 0x3A83A83B, 0x39B0AD12] ++
  [0x38E38E39, 0x381C0E07, 0x3759F22A, 0x369D036A, 0x35E50D79, 0x3531DEC1, 0x34834835, 0x33D91D2A] ++
  [0x33333333, 0x329161FA, 0x31F3831F, 0x3159721F, 0x30C30C31, 0x30303030, 0x2FA0BE83, 0x2F149903] ++
  [0x2E8BA2E9, 0x2E05C0B8, 0x2D82D82E, 0x2D02D02D, 0x2C8590B2, 0x2C0B02C1, 0x2B931057, 0x2B1DA461] ++
  [0x2AAAAAAB, 0x2A3A0FD6, 0x29CBC14E, 0x295FAD41, 0x28F5C28F, 0x288DF0CB, 0x28282828, 0x27C4597A] ++
  [0x27627627, 0x27027027, 0x26A439F6, 0x2647C694, 0x25ED097B, 0x2593F69B, 0x253C8254, 0x24E6A171] ++
  [0x24924925, 0x243F6F02, 0x23EE08FC, 0x239E0D5B, 0x234F72C2, 0x23023023, 0x22B63CBF, 0x226B9022] ++
  [0x22222222, 0x21D9EAD8, 0x2192E29F, 0x214D0215, 0x21084211, 0x20C49BA6, 0x20820821, 0x20408102]

/-- L of R116: RNE(log2(2^30 / G[j]) × 2^30). -/
def lgTable : List Nat :=
  [0x00000000, 0x016E7968, 0x02D75A6F, 0x043ACE28, 0x0598FDBF, 0x06F21091, 0x08462C46, 0x099574F1] ++
  [0x0AE00D1D, 0x0C2615E8, 0x0D67AF16, 0x0EA4F726, 0x0FDE0B5D, 0x111307DB, 0x124407AA, 0x137124CF] ++
  [0x149A784C, 0x15C01A39, 0x16E221CE, 0x1800A563, 0x191BBA89, 0x1A33760B, 0x1B47EBF7, 0x1C592FAD] ++
  [0x1D6753E0, 0x1E726AA2, 0x1F7A8568, 0x207FB517, 0x21820A02, 0x228193F5, 0x237E623D, 0x247883A8] ++
  [0x2570068E, 0x2664F8D5, 0x275767F6, 0x284760FC, 0x2934F098, 0x2A20230E, 0x2B09044E, 0x2BEF9FE8] ++
  [0x2CD4011D, 0x2DB632D5, 0x2E963FAD, 0x2F7431F3, 0x305013AC, 0x3129EE96, 0x3201CC2B, 0x32D7B5A5] ++
  [0x33ABB3FA, 0x347DCFE8, 0x354E11EA, 0x361C824E, 0x36E9291F, 0x37B40E3A, 0x387D3946, 0x3944B1BA] ++
  [0x3A0A7EDB, 0x3ACEA7C0, 0x3B913358, 0x3C52285C, 0x3D118D65, 0x3DCF68E3, 0x3E8BC116, 0x3F469C23]

/-- FEX2 of a finite `(-1)^neg × m × 2^e` (R115). -/
def fEx2Fin (rm : Nat) (neg : Bool) (m : Nat) (e : Int) : FRes :=
  let t0 : Int := if 0 ≤ e + 23 then Int.ofNat (m * 2 ^ (e + 23).toNat) else Int.ofNat m
  let d : Nat := if 0 ≤ e + 23 then 1 else 2 ^ (-(e + 23)).toNat
  let v : Int := (if neg then -t0 else t0).fdiv d
  let t := min (max v (-2147483648)) 2147483648
  let n := t.fdiv 8388608
  let f := (t - n * 8388608).toNat
  let j := f / 131072
  let r := f % 131072
  let q1 := 0x2C5C85FE * r / 8388608
  let u2 := r * r / 65536
  let q2 := 0x0F5FDF00 * u2 / 1073741824
  let u3 := u2 * r / 8388608
  let q3 := 0x038D611B * u3 / 1073741824
  let p := 1073741824 + q1 + q2 + q3
  roundTo fp32 rm false ((exTable[j]?).getD 0 * p / 1073741824) (n - 30) false

/-- FEX2 (R115). -/
def fEx2 (rm : Nat) (x : FVal) : FRes :=
  match x with
  | .nan s => nanRes fp32 s
  | .inf n => if n then ⟨0, 0⟩ else ⟨fp32.inf, 0⟩
  | .fin n m e => fEx2Fin rm n m e

/-- FLG2 of a positive `m × 2^e` (R117). -/
def fLg2Pos (rm : Nat) (m : Nat) (e : Int) : FRes :=
  let sh := 23 - m.log2
  let mm : Int := Int.ofNat (m * 2 ^ sh)
  let ex : Int := e - sh + 23
  let j := ((mm - 8388608) / 131072).toNat
  let q : Int := 1073741824
  let w := (mm * Int.ofNat ((lgRecip[j]?).getD 0)).fdiv 8388608 - q
  let w2 := (w * w).fdiv q
  let w3 := (w2 * w).fdiv q
  let w4 := (w3 * w).fdiv q
  let y := (0x5C551D95 * w).fdiv q - (0x2E2A8ECA * w2).fdiv q + (0x1EC709DC * w3).fdiv q - (0x17154765 * w4).fdiv q
  roundInt fp32 rm (ex * q + Int.ofNat ((lgTable[j]?).getD 0) + y) (-30) false

/-- FLG2 (R117). -/
def fLg2 (rm : Nat) (x : FVal) : FRes :=
  match x with
  | .nan s => nanRes fp32 s
  | .inf n => if n then nanRes fp32 true else ⟨fp32.inf, 0⟩
  | .fin n m e =>
    if m = 0 then ⟨fp32.sign true + fp32.inf, fDZ⟩
    else if n then nanRes fp32 true
    else fLg2Pos rm m e

/-! ## The instructions -/

/-- FADD (R106): FP32 add. -/
def execFadd (d a : VReg) (b : Src) (s : State) : Host.Outcome State Fault Refusal :=
  fp32Bin (fAdd fp32) d a b s

/-- FSUB (R106): FP32 subtract. -/
def execFsub (d a : VReg) (b : Src) (s : State) : Host.Outcome State Fault Refusal :=
  fp32Bin (fun rm x y => fAdd fp32 rm x y.negate) d a b s

/-- FMUL (R106): FP32 multiply. -/
def execFmul (d a : VReg) (b : Src) (s : State) : Host.Outcome State Fault Refusal :=
  fp32Bin (fMul fp32) d a b s

/-- FDIV (R112): FP32 divide. -/
def execFdiv (d a : VReg) (b : Src) (s : State) : Host.Outcome State Fault Refusal :=
  fp32Bin (fDiv fp32) d a b s

/-- DADD (R106): FP64 add. -/
def execDadd (d a : VReg) (b : Src) (s : State) : Host.Outcome State Fault Refusal :=
  fp64Bin (fAdd fp64) d a b s

/-- DSUB (R106): FP64 subtract. -/
def execDsub (d a : VReg) (b : Src) (s : State) : Host.Outcome State Fault Refusal :=
  fp64Bin (fun rm x y => fAdd fp64 rm x y.negate) d a b s

/-- DMUL (R106): FP64 multiply. -/
def execDmul (d a : VReg) (b : Src) (s : State) : Host.Outcome State Fault Refusal :=
  fp64Bin (fMul fp64) d a b s

/-- DDIV (R112): FP64 divide. -/
def execDdiv (d a : VReg) (b : Src) (s : State) : Host.Outcome State Fault Refusal :=
  fp64Bin (fDiv fp64) d a b s

/-- FFMA (R106): FP32 fused multiply-add into old vd. -/
def execFfma (d a : VReg) (b : Src) (s : State) : Host.Outcome State Fault Refusal :=
  issueLanes .fp32 ([one d, one a] ++ srcRegs b) (srcKs 1 b) (fun s l =>
    let t := s.lane l
    fpWord t d.toNat (out32 t (fFma fp32 (fcsrRM t.fcsr) (in32 t (t.reg a.toNat)) (in32 t (srcWord s.wft t b))
      (in32 t (t.reg d.toNat))))) s

/-- DFMA (R106): FP64 fused multiply-add. -/
def execDfma (d a : VReg) (b : Src) (s : State) : Host.Outcome State Fault Refusal :=
  issueLanes .fp64 ([two d, two a] ++ srcRegs2 b) (srcKs 2 b) (fun s l =>
    let t := s.lane l
    fpPair t d.toNat (out64 t (fFma fp64 (fcsrRM t.fcsr) (in64 t (t.pair a.toNat)) (in64 t (srcPair s.wft t b))
      (in64 t (t.pair d.toNat))))) s

/-- FMIN (R107): FP32 minimumNumber. -/
def execFmin (d a : VReg) (b : Src) (s : State) : Host.Outcome State Fault Refusal :=
  fp32MinMax false d a b s

/-- FMAX (R107): FP32 maximumNumber. -/
def execFmax (d a : VReg) (b : Src) (s : State) : Host.Outcome State Fault Refusal :=
  fp32MinMax true d a b s

/-- DMIN (R107): FP64 minimumNumber. -/
def execDmin (d a : VReg) (b : Src) (s : State) : Host.Outcome State Fault Refusal :=
  fp64MinMax false d a b s

/-- DMAX (R107): FP64 maximumNumber. -/
def execDmax (d a : VReg) (b : Src) (s : State) : Host.Outcome State Fault Refusal :=
  fp64MinMax true d a b s

/-- FSEQ (R108): FP32 equal compare. -/
def execFseq (d a : VReg) (b : Src) (s : State) : Host.Outcome State Fault Refusal :=
  fp32Rel .eq d a b s

/-- FSNE (R108): FP32 not-equal compare. -/
def execFsne (d a : VReg) (b : Src) (s : State) : Host.Outcome State Fault Refusal :=
  fp32Rel .ne d a b s

/-- FSLT (R108): FP32 less-than compare. -/
def execFslt (d a : VReg) (b : Src) (s : State) : Host.Outcome State Fault Refusal :=
  fp32Rel .lt d a b s

/-- FSLE (R108): FP32 less-or-equal compare. -/
def execFsle (d a : VReg) (b : Src) (s : State) : Host.Outcome State Fault Refusal :=
  fp32Rel .le d a b s

/-- FSUNO (R108): FP32 unordered test. -/
def execFsuno (d a : VReg) (b : Src) (s : State) : Host.Outcome State Fault Refusal :=
  fp32Rel .uno d a b s

/-- DSEQ (R108): FP64 equal compare. -/
def execDseq (d a : VReg) (b : Src) (s : State) : Host.Outcome State Fault Refusal :=
  fp64Rel .eq d a b s

/-- DSLT (R108): FP64 less-than compare. -/
def execDslt (d a : VReg) (b : Src) (s : State) : Host.Outcome State Fault Refusal :=
  fp64Rel .lt d a b s

/-- DSLE (R108): FP64 less-or-equal compare. -/
def execDsle (d a : VReg) (b : Src) (s : State) : Host.Outcome State Fault Refusal :=
  fp64Rel .le d a b s

/-- DSUNO (R108): FP64 unordered test. -/
def execDsuno (d a : VReg) (b : Src) (s : State) : Host.Outcome State Fault Refusal :=
  fp64Rel .uno d a b s

/-- FABS (R109): Clear the sign bit. -/
def execFabs (d a : VReg) (s : State) : Host.Outcome State Fault Refusal :=
  issueLanes .fp32 [one d, one a] [] (fun s l =>
    let x := (s.lane l).reg a.toNat
    .next ((s.lane l).setReg d.toNat (if (unpack fp32 x.toNat).isNaN then 0x7FC00000 else x &&& 0x7FFFFFFF))) s

/-- FNEG (R109): Flip the sign bit. -/
def execFneg (d a : VReg) (s : State) : Host.Outcome State Fault Refusal :=
  issueLanes .fp32 [one d, one a] [] (fun s l =>
    let x := (s.lane l).reg a.toNat
    .next ((s.lane l).setReg d.toNat (if (unpack fp32 x.toNat).isNaN then 0x7FC00000 else x ^^^ 0x80000000))) s

/-- FCOPYSIGN (R109): Copy sign of b onto a. -/
def execFcopysign (d a : VReg) (b : Src) (s : State) : Host.Outcome State Fault Refusal :=
  issueLanes .fp32 ([one d, one a] ++ srcRegs b) (srcKs 1 b) (fun s l =>
    let x := (s.lane l).reg a.toNat
    .next ((s.lane l).setReg d.toNat (if (unpack fp32 x.toNat).isNaN then 0x7FC00000
      else (x &&& 0x7FFFFFFF) ||| (srcWord s.wft (s.lane l) b &&& 0x80000000)))) s

/-- FCLASS (R110): Classify an FP32 value. -/
def execFclass (d a : VReg) (s : State) : Host.Outcome State Fault Refusal :=
  issueLanes .fp32 [one d, one a] [] (fun s l =>
    .next ((s.lane l).setReg d.toNat (BitVec.ofNat 32 (fClass ((s.lane l).reg a.toNat).toNat)))) s

/-- FRINT (R111): Round FP32 to integral value. -/
def execFrint (d a : VReg) (s : State) : Host.Outcome State Fault Refusal :=
  issueLanes .fp32 [one d, one a] [] (fun s l =>
    let t := s.lane l
    fpWord t d.toNat (fRint (fcsrRM t.fcsr) (in32 t (t.reg a.toNat)))) s

/-- FRCP (R112): FP32 reciprocal, correctly rounded. -/
def execFrcp (d a : VReg) (s : State) : Host.Outcome State Fault Refusal :=
  fp32Un (fun rm x => fDiv fp32 rm (.fin false 1 0) x) d a s

/-- FRSQ (R112): FP32 reciprocal square root. -/
def execFrsq (d a : VReg) (s : State) : Host.Outcome State Fault Refusal :=
  fp32Un (fRsqrt fp32) d a s

/-- FSQRT (R112): FP32 square root. -/
def execFsqrt (d a : VReg) (s : State) : Host.Outcome State Fault Refusal :=
  fp32Un (fSqrt fp32) d a s

/-- FEX2 (R115): Base-2 exponential by the fixed integer algorithm. -/
def execFex2 (d a : VReg) (s : State) : Host.Outcome State Fault Refusal :=
  fp32Un fEx2 d a s

/-- FLG2 (R117): Base-2 logarithm by the fixed integer algorithm. -/
def execFlg2 (d a : VReg) (s : State) : Host.Outcome State Fault Refusal :=
  fp32Un fLg2 d a s

/-- DSQRT (R112): FP64 square root. -/
def execDsqrt (d a : VReg) (s : State) : Host.Outcome State Fault Refusal :=
  issueLanes .fp64 [two d, two a] [] (fun s l =>
    let t := s.lane l
    fpPair t d.toNat (out64 t (fSqrt fp64 (fcsrRM t.fcsr) (in64 t (t.pair a.toNat))))) s

/-- HADD2 (R113): Packed FP16 add. -/
def execHadd2 (d a : VReg) (b : Src) (s : State) : Host.Outcome State Fault Refusal :=
  packed fp16 (fun x y _ => fAdd fp16 0 x y) d a b s

/-- HMUL2 (R113): Packed FP16 multiply. -/
def execHmul2 (d a : VReg) (b : Src) (s : State) : Host.Outcome State Fault Refusal :=
  packed fp16 (fun x y _ => fMul fp16 0 x y) d a b s

/-- HFMA2 (R113): Packed FP16 fused multiply-add. -/
def execHfma2 (d a : VReg) (b : Src) (s : State) : Host.Outcome State Fault Refusal :=
  packed fp16 (fun x y z => fFma fp16 0 x y z) d a b s

/-- BADD2 (R113): Packed BF16 add. -/
def execBadd2 (d a : VReg) (b : Src) (s : State) : Host.Outcome State Fault Refusal :=
  packed bf16 (fun x y _ => fAdd bf16 0 x y) d a b s

/-- BMUL2 (R113): Packed BF16 multiply. -/
def execBmul2 (d a : VReg) (b : Src) (s : State) : Host.Outcome State Fault Refusal :=
  packed bf16 (fun x y _ => fMul bf16 0 x y) d a b s

/-- BFMA2 (R113): Packed BF16 fused multiply-add. -/
def execBfma2 (d a : VReg) (b : Src) (s : State) : Host.Outcome State Fault Refusal :=
  packed bf16 (fun x y z => fFma bf16 0 x y z) d a b s

/-! ## Conversions (R118) -/

/-- CVT_F32_I32 (R118): Convert I32 to FP32. -/
def execCvtF32I32 (d a : VReg) (s : State) : Host.Outcome State Fault Refusal :=
  issueLanes .fp32 [one d, one a] [] (fun s l =>
    let t := s.lane l
    fpWord t d.toNat (intToF fp32 (fcsrRM t.fcsr) (t.reg a.toNat).toInt)) s

/-- CVT_F32_N32 (R118): Convert N32 to FP32. -/
def execCvtF32N32 (d a : VReg) (s : State) : Host.Outcome State Fault Refusal :=
  issueLanes .fp32 [one d, one a] [] (fun s l =>
    let t := s.lane l
    fpWord t d.toNat (intToF fp32 (fcsrRM t.fcsr) (Int.ofNat (t.reg a.toNat).toNat))) s

/-- An integer result and its flags as a word (R78). -/
def intWord (r : Int × Nat) : FRes := ⟨(BitVec.ofInt 32 r.1).toNat, r.2⟩

/-- CVT_I32_F32 (R118): Convert FP32 to I32. -/
def execCvtI32F32 (d a : VReg) (s : State) : Host.Outcome State Fault Refusal :=
  issueLanes .fp32 [one d, one a] [] (fun s l =>
    let t := s.lane l
    fpWord t d.toNat (intWord (fToInt (fcsrRM t.fcsr) (-2147483648) 2147483647 (in32 t (t.reg a.toNat))))) s

/-- CVT_N32_F32 (R118): Convert FP32 to N32. -/
def execCvtN32F32 (d a : VReg) (s : State) : Host.Outcome State Fault Refusal :=
  issueLanes .fp32 [one d, one a] [] (fun s l =>
    let t := s.lane l
    fpWord t d.toNat (intWord (fToInt (fcsrRM t.fcsr) 0 4294967295 (in32 t (t.reg a.toNat))))) s

/-- CVT_F64_F32 (R118): Widen FP32 to FP64. -/
def execCvtF64F32 (d a : VReg) (s : State) : Host.Outcome State Fault Refusal :=
  issueLanes .fp64 [two d, one a] [] (fun s l =>
    let t := s.lane l
    fpPair t d.toNat (fConv fp64 (fcsrRM t.fcsr) (in32 t (t.reg a.toNat)))) s

/-- CVT_F32_F64 (R118): Narrow FP64 to FP32. -/
def execCvtF32F64 (d a : VReg) (s : State) : Host.Outcome State Fault Refusal :=
  issueLanes .fp64 [one d, two a] [] (fun s l =>
    let t := s.lane l
    fpWord t d.toNat (out32 t (fConv fp32 (fcsrRM t.fcsr) (in64 t (t.pair a.toNat))))) s

/-- CVT_F64_I32 (R118): Convert I32 to FP64. -/
def execCvtF64I32 (d a : VReg) (s : State) : Host.Outcome State Fault Refusal :=
  issueLanes .fp64 [two d, one a] [] (fun s l =>
    let t := s.lane l
    fpPair t d.toNat (intToF fp64 (fcsrRM t.fcsr) (t.reg a.toNat).toInt)) s

/-- CVT_I32_F64 (R118): Convert FP64 to I32. -/
def execCvtI32F64 (d a : VReg) (s : State) : Host.Outcome State Fault Refusal :=
  issueLanes .fp64 [one d, two a] [] (fun s l =>
    let t := s.lane l
    fpWord t d.toNat (intWord (fToInt (fcsrRM t.fcsr) (-2147483648) 2147483647 (in64 t (t.pair a.toNat))))) s

/-- CVT_F64_I64 (R118): Convert I64 to FP64. -/
def execCvtF64I64 (d a : VReg) (s : State) : Host.Outcome State Fault Refusal :=
  issueLanes .fp64 [two d, two a] [] (fun s l =>
    let t := s.lane l
    fpPair t d.toNat (intToF fp64 (fcsrRM t.fcsr) (t.pair a.toNat).toInt)) s

/-- CVT_I64_F64 (R118): Convert FP64 to I64. -/
def execCvtI64F64 (d a : VReg) (s : State) : Host.Outcome State Fault Refusal :=
  issueLanes .fp64 [two d, two a] [] (fun s l =>
    let t := s.lane l
    let r := fToInt (fcsrRM t.fcsr) (-9223372036854775808) 9223372036854775807 (in64 t (t.pair a.toNat))
    fpPair t d.toNat ⟨(BitVec.ofInt 64 r.1).toNat, r.2⟩) s

/-- CVT_F16X2_F32 (R118): Pack two FP32 into FP16x2. -/
def execCvtF16x2F32 (d a : VReg) (b : Src) (s : State) : Host.Outcome State Fault Refusal :=
  issueLanes .fp64 ([one d, one a] ++ srcRegs b) (srcKs 1 b) (fun s l =>
    let t := s.lane l
    fpWord t d.toNat (pack2 (fConv fp16 0 (unpack fp32 (t.reg a.toNat).toNat))
      (fConv fp16 0 (unpack fp32 (srcWord s.wft t b).toNat)))) s

/-- CVT_BF16X2_F32 (R118): Pack two FP32 into BF16x2. -/
def execCvtBf16x2F32 (d a : VReg) (b : Src) (s : State) : Host.Outcome State Fault Refusal :=
  issueLanes .fp64 ([one d, one a] ++ srcRegs b) (srcKs 1 b) (fun s l =>
    let t := s.lane l
    fpWord t d.toNat (pack2 (fConv bf16 0 (unpack fp32 (t.reg a.toNat).toNat))
      (fConv bf16 0 (unpack fp32 (srcWord s.wft t b).toNat)))) s

/-- CVT_F32_F16 (R118): Widen a selected FP16 half to FP32. -/
def execCvtF32F16 (d a : VReg) (h : BitVec 1) (s : State) : Host.Outcome State Fault Refusal :=
  issueLanes .fp64 [one d, one a] [] (fun s l =>
    let t := s.lane l
    fpWord t d.toNat (fConv fp32 0 (half fp16 (t.reg a.toNat) h.toNat))) s

/-- CVT_F32_BF16 (R118): Widen a selected BF16 half to FP32. -/
def execCvtF32Bf16 (d a : VReg) (h : BitVec 1) (s : State) : Host.Outcome State Fault Refusal :=
  issueLanes .fp64 [one d, one a] [] (fun s l =>
    let t := s.lane l
    fpWord t d.toNat (fConv fp32 0 (half bf16 (t.reg a.toNat) h.toNat))) s

/-- CVT_F32_E4M3 (R118): Widen a selected E4M3 byte to FP32. -/
def execCvtF32E4m3 (d a : VReg) (h : BitVec 2) (s : State) : Host.Outcome State Fault Refusal :=
  issueLanes .fp64 [one d, one a] [] (fun s l =>
    let t := s.lane l
    fpWord t d.toNat (fConv fp32 0 (unpack e4m3 ((t.reg a.toNat).toNat / 2 ^ (8 * h.toNat) % 256)))) s

/-- CVT_F32_E5M2 (R118): Widen a selected E5M2 byte to FP32. -/
def execCvtF32E5m2 (d a : VReg) (h : BitVec 2) (s : State) : Host.Outcome State Fault Refusal :=
  issueLanes .fp64 [one d, one a] [] (fun s l =>
    let t := s.lane l
    fpWord t d.toNat (fConv fp32 0 (unpack e5m2 ((t.reg a.toNat).toNat / 2 ^ (8 * h.toNat) % 256)))) s

/-- Four FP32 values narrowed to bytes, from byte 0 upwards: va, va+1, vb, vb+1 (R51, R118). -/
def pack4 (f : FVal → FRes) (a b : DWord) : FRes :=
  let e := fun (x : DWord) (i : Nat) => f (unpack fp32 (x.toNat / 2 ^ (32 * i) % 2 ^ 32))
  ⟨(e a 0).bits + (e a 1).bits * 2 ^ 8 + (e b 0).bits * 2 ^ 16 + (e b 1).bits * 2 ^ 24,
    (e a 0).flags ||| (e a 1).flags ||| (e b 0).flags ||| (e b 1).flags⟩

/-- CVT_E4M3X4_F32 (R79): Pack four FP32 into E4M3 bytes, saturating. -/
def execCvtE4m3x4F32 (d a : VReg) (b : Src) (s : State) : Host.Outcome State Fault Refusal :=
  issueLanes .fp64 ([one d, two a] ++ srcRegs2 b) (srcKs 2 b) (fun s l =>
    let t := s.lane l
    fpWord t d.toNat (pack4 toE4M3 (t.pair a.toNat) (srcPair s.wft t b))) s

/-- CVT_E5M2X4_F32 (R79): Pack four FP32 into E5M2 bytes. -/
def execCvtE5m2x4F32 (d a : VReg) (b : Src) (s : State) : Host.Outcome State Fault Refusal :=
  issueLanes .fp64 ([one d, two a] ++ srcRegs2 b) (srcKs 2 b) (fun s l =>
    let t := s.lane l
    fpWord t d.toNat (pack4 (toE5M2 (fcsrE5INF t.fcsr)) (t.pair a.toNat) (srcPair s.wft t b))) s

/-! ## SHORT forms (R45) -/

/-- SHORT_FADD (R45): 16-bit FP32 vd := vd + vs. -/
def execShortFadd (d : BitVec 6) (r : BitVec 5) (s : State) : Host.Outcome State Fault Refusal :=
  fp32Bin (fAdd fp32) (d.setWidth 7) (d.setWidth 7) (.v (r.setWidth 7)) s

/-- SHORT_FSUB (R45): 16-bit FP32 vd := vd - vs. -/
def execShortFsub (d : BitVec 6) (r : BitVec 5) (s : State) : Host.Outcome State Fault Refusal :=
  fp32Bin (fun rm x y => fAdd fp32 rm x y.negate) (d.setWidth 7) (d.setWidth 7) (.v (r.setWidth 7)) s

/-- SHORT_FMUL (R45): 16-bit FP32 vd := vd * vs. -/
def execShortFmul (d : BitVec 6) (r : BitVec 5) (s : State) : Host.Outcome State Fault Refusal :=
  fp32Bin (fMul fp32) (d.setWidth 7) (d.setWidth 7) (.v (r.setWidth 7)) s

/-- SHORT_FMAX (R45): 16-bit FP32 maximumNumber of vd and vs. -/
def execShortFmax (d : BitVec 6) (r : BitVec 5) (s : State) : Host.Outcome State Fault Refusal :=
  fp32MinMax true (d.setWidth 7) (d.setWidth 7) (.v (r.setWidth 7)) s

/-- SHORT_FMIN (R45): 16-bit FP32 minimumNumber of vd and vs. -/
def execShortFmin (d : BitVec 6) (r : BitVec 5) (s : State) : Host.Outcome State Fault Refusal :=
  fp32MinMax false (d.setWidth 7) (d.setWidth 7) (.v (r.setWidth 7)) s

end Sys2Proof.Machine
end

