-- ==== Sys2Proof/Machine/CrossLane.lean ====
section
/-!
DEFINITION. The cross-lane operations (R174-R178).
-/
namespace Sys2Proof.Machine

/-- va of lane `l` of the issue set. -/
def laneVal (s : State) (a : VReg) (l : Nat) : Word := (s.lane l).reg a.toNat

/-- The lane whose va a shuffle gives lane `l`: lane `j` of its own choosing where that is a lane of the issue set,
else its own (R175). -/
def shuffleFrom (j : Nat → Nat → Int) (s : State) (b : Src) (l : Nat) : Nat :=
  let k := j l (srcWord s.wft (s.lane l) b).toNat
  if 0 ≤ k ∧ k < s.width s.iss.blk ∧ (k.toNat ∈ s.iss.lanes ∨ s.isBad k.toNat) then k.toNat else l

/-- A shuffle: every lane takes the va of the lane that it chooses (R175). -/
def shuffle (j : Nat → Nat → Int) (d a : VReg) (b : Src) (s : State) : Host.Outcome State Fault Refusal :=
  issueLanes .integer ([one d, one a] ++ srcRegs b) (srcKs 1 b) (fun s l =>
    .next ((s.lane l).setReg d.toNat (laneVal s a (shuffleFrom j s b l)))) s

/-- A vote, reduction or scan: each lane takes a function of the issue set's values (R176). -/
def reduce (f : (Nat → Word) → List Nat → Nat → Word) (d a : VReg) (s : State) :
    Host.Outcome State Fault Refusal :=
  issueLanes .integer [one d, one a] [] (fun s l =>
    .next ((s.lane l).setReg d.toNat (f (laneVal s a) s.iss.lanes l))) s

/-- Combine of R177 by a binary operation, with the flags so far: an absent value leaves the other as it is. -/
def combine (f : Nat → Nat → FRes) (x y : Option FRes) : Option FRes :=
  match x, y with
  | some p, some q => let r := f p.bits q.bits; some ⟨r.bits, p.flags ||| q.flags ||| r.flags⟩
  | some p, none => some p
  | none, q => q

/-- One level of the tree: neighbours are combined (R177). -/
def treeLevel (f : Nat → Nat → FRes) : List (Option FRes) → List (Option FRes)
  | x :: y :: rest => combine f x y :: treeLevel f rest
  | xs => xs

/-- The tree of R177 over positions, `n` levels deep. -/
def treeSum (f : Nat → Nat → FRes) : Nat → List (Option FRes) → Option FRes
  | 0, xs => xs.headD none
  | n + 1, xs => treeSum f n (treeLevel f xs)

/-- FP32 addition in RNE with subnormals kept (R177). -/
def addF32 (x y : Nat) : FRes := fAdd fp32 0 (unpack fp32 x) (unpack fp32 y)

/-- The sum of the issue set by the tree of lane positions, NaN made canonical, and every Combine's flags (R177). -/
def redfadd (s : State) (a : VReg) : FRes :=
  let leaves := (List.range 32).map fun p =>
    if p < s.width s.iss.blk ∧ p ∈ s.iss.lanes then some (FRes.mk (laneVal s a p).toNat 0) else none
  let snan := s.iss.lanes.any fun l => (unpack fp32 (laneVal s a l).toNat).isSNaN
  match treeSum addF32 5 leaves with
  | none => ⟨0, 0⟩
  | some r =>
    ⟨if (unpack fp32 r.bits).isNaN then fp32.nan else r.bits, if snan then r.flags ||| fNV else r.flags⟩

/-- SHFL (R175): Read va of lane b within the issue set. -/
def execShfl (d a : VReg) (b : Src) (s : State) : Host.Outcome State Fault Refusal :=
  shuffle (fun _ b => Int.ofNat b) d a b s

/-- SHFLUP (R175): Read va of lane i - b. -/
def execShflup (d a : VReg) (b : Src) (s : State) : Host.Outcome State Fault Refusal :=
  shuffle (fun i b => Int.ofNat i - Int.ofNat b) d a b s

/-- SHFLDN (R175): Read va of lane i + b. -/
def execShfldn (d a : VReg) (b : Src) (s : State) : Host.Outcome State Fault Refusal :=
  shuffle (fun i b => Int.ofNat i + Int.ofNat b) d a b s

/-- SHFLX (R175): Read va of lane i XOR b. -/
def execShflx (d a : VReg) (b : Src) (s : State) : Host.Outcome State Fault Refusal :=
  shuffle (fun i b => Int.ofNat (i ^^^ b)) d a b s

/-- BALLOT (R176): Mask of issue-set lanes with nonzero va. -/
def execBallot (d a : VReg) (s : State) : Host.Outcome State Fault Refusal :=
  reduce (fun x ls _ => BitVec.ofNat 32 (laneMask (ls.filter fun l => x l != 0))) d a s

/-- VANY (R176): True if any lane's va is nonzero. -/
def execVany (d a : VReg) (s : State) : Host.Outcome State Fault Refusal :=
  reduce (fun x ls _ => mask32 (ls.any fun l => x l != 0)) d a s

/-- VALL (R176): True if every lane's va is nonzero. -/
def execVall (d a : VReg) (s : State) : Host.Outcome State Fault Refusal :=
  reduce (fun x ls _ => mask32 (ls.all fun l => x l != 0)) d a s

/-- REDADD (R176): Wrapping sum across the issue set. -/
def execRedadd (d a : VReg) (s : State) : Host.Outcome State Fault Refusal :=
  reduce (fun x ls _ => ls.foldl (fun acc l => acc + x l) 0) d a s

/-- REDMAX (R176): Signed maximum across the issue set. -/
def execRedmax (d a : VReg) (s : State) : Host.Outcome State Fault Refusal :=
  reduce (fun x ls l => ls.foldl (fun acc k => maxS acc (x k)) (x l)) d a s

/-- REDMIN (R176): Signed minimum across the issue set. -/
def execRedmin (d a : VReg) (s : State) : Host.Outcome State Fault Refusal :=
  reduce (fun x ls l => ls.foldl (fun acc k => minS acc (x k)) (x l)) d a s

/-- SCANADD (R176): Inclusive prefix sum across the issue set. -/
def execScanadd (d a : VReg) (s : State) : Host.Outcome State Fault Refusal :=
  reduce (fun x ls i => (ls.filter fun l => decide (l ≤ i)).foldl (fun acc l => acc + x l) 0) d a s

/-- REDFADD (R177): FP32 sum across the issue set by a fixed tree. -/
def execRedfadd (d a : VReg) (s : State) : Host.Outcome State Fault Refusal :=
  issueLanes .fp32 [one d, one a] [] (fun s l => fpWord (s.lane l) d.toNat (redfadd s a)) s

end Sys2Proof.Machine
end

