-- ==== Sys2Proof/Machine/Launch.lean ====
section
/-!
DEFINITION. Launch records: their fields, their checks in order, and the acceptance of a grid; what a
block occupies on a core, and whether it fits (R192-R201).
-/
namespace Sys2Proof.Machine

/-! ## Launch records (R192-R196, R316) -/

/-- A bit of a number. -/
def bitOf (x i : Nat) : Bool := x.testBit i

/-- The checks of role entry `i` of a record, in ascending offset (R195, R196). -/
def roleChecks (m : Memory) (i : Nat) : List (Bool × Nat) :=
  let o := 0x60 + 24 * i
  let nrole := m.read 0x1F 1
  if nrole ≤ i then [(m.read o 24 != 0, o)]
  else
    let kind := m.read o 1
    let regs := m.read (o + 2) 1
    let wefts := m.read (o + 3) 1
    let threads := m.read 0x18 2 * m.read 0x1A 2 * m.read 0x1C 2
    let width := m.read 0x1E 1
    let sum := ((List.range nrole).map fun j => m.read (0x60 + 24 * j + 3) 1).sum
    let carry := m.read (o + 8) 16
    [ (decide (3 < kind) || (List.range i).any fun j => m.read (0x60 + 24 * j) 1 == kind, o)
    , (decide (3 < m.read (o + 1) 1), o + 1)
    , (regs % 8 != 0 || regs == 0 || decide (128 < regs), o + 2)
    , (wefts == 0 || decide (128 < wefts) || (i + 1 == nrole && sum != (threads + width - 1) / width), o + 3)
    , (m.read (o + 4) 4 != 0, o + 4)
    , (bitOf carry 0 || decide (32 < ((List.range 128).filter (bitOf carry)).length) || decide (2 ^ regs ≤ carry), o + 8) ]

/-- The checks of a launch record, or of a stage record, in ascending offset (R192-R196, R316), but for
the daybook header's. DEDUCED (log 86). -/
def launchChecks (m : Memory) (stage : Bool) : List (Bool × Nat) :=
  let f := m.read 4 4
  let record := f / 32 % 4
  let home := f / 8 % 4
  let badTarget := fun o => !canonical (BitVec.ofNat 64 (m.read o 8)) || m.read o 8 % 2 == 1
  [ (m.read 0 2 != (if stage then 2 else 1), 0)
  , (m.read 2 2 != 1, 2)
  , (decide (2 ^ 9 ≤ f) || record == 3 || home == 3 || (stage && (f / 128 % 4 != 0 || record != 0 || bitOf f 2)), 4)
  , (badTarget 8, 8)
  , (m.read 0x10 4 == 0 || decide (2 ^ 31 ≤ m.read 0x10 4), 0x10)
  , (m.read 0x14 2 == 0, 0x14)
  , (m.read 0x16 2 == 0, 0x16)
  , (m.read 0x18 2 == 0 || decide (1024 < m.read 0x18 2), 0x18)
  , (m.read 0x1A 2 == 0 || decide (1024 < m.read 0x1A 2), 0x1A)
  , (m.read 0x1C 2 == 0 || decide (64 < m.read 0x1C 2) ||
      decide (1024 < m.read 0x18 2 * m.read 0x1A 2 * m.read 0x1C 2), 0x1C)
  , (!([8, 16, 32].contains (m.read 0x1E 1)), 0x1E)
  , (m.read 0x1F 1 == 0 || decide (4 < m.read 0x1F 1), 0x1F)
  , (m.read 0x20 4 % 1024 != 0 || decide (262144 < m.read 0x20 4), 0x20)
  , (m.read 0x24 2 % 1024 != 0 || decide (16384 < m.read 0x24 2) || decide (m.read 0x20 4 < m.read 0x24 2), 0x24)
  , (decide (16 < m.read 0x26 1), 0x26)
  , (m.read 0x27 1 != 0, 0x27)
  , (m.read 0x28 8 % 4 != 0, 0x28)
  , (m.read 0x30 4 % 4 != 0 || decide (65536 < m.read 0x30 4), 0x30)
  , (m.read 0x34 4 != 0, 0x34)
  , (badTarget 0x38, 0x38)
  , (home != 2 && m.read 0x40 8 != 0, 0x40)
  , (if stage then m.read 0x48 8 != 0 else decide (2 ^ 44 ≤ m.read 0x48 8), 0x48)
  , ((stage || record == 0) && m.read 0x50 8 != 0, 0x50)
  , (stage && m.read 0x58 8 != 0, 0x58) ] ++
  ((List.range 4).map (roleChecks m)).flatten ++
  (if stage then
    [ (m.read 0xC0 2 == 0 || decide (2560 < m.read 0xC0 2), 0xC0)
    , (decide (m.read 0xC2 2 < m.read 0xC0 2) || decide (2560 < m.read 0xC2 2), 0xC2)
    , (m.read 0xC4 2 == 0, 0xC4)
    , (m.read 0xC6 58 != 0, 0xC6) ]
  else [(m.read 0xC0 64 != 0, 0xC0)])

/-- The kind of a role by its number (R195). -/
def roleKindOf : Nat → RoleKind
  | 0 => .general
  | 1 => .copy
  | 2 => .vector
  | _ => .matrix

/-- The fields of a record that passes its checks; its bank is not yet read. -/
def parseLaunch (m : Memory) : Launch :=
  { flags := BitVec.ofNat 32 (m.read 4 4), code := BitVec.ofNat 64 (m.read 8 8)
    nbid := (m.read 0x10 4, m.read 0x14 2, m.read 0x16 2), ntid := (m.read 0x18 2, m.read 0x1A 2, m.read 0x1C 2)
    width := m.read 0x1E 1, spm := m.read 0x20 4, carrySpm := m.read 0x24 2, nbar := m.read 0x26 1
    handler := BitVec.ofNat 64 (m.read 0x38 8), hints := BitVec.ofNat 64 (m.read 0x40 8)
    event := BitVec.ofNat 64 (m.read 0x48 8), daybook := BitVec.ofNat 64 (m.read 0x50 8)
    coll := BitVec.ofNat 64 (m.read 0x58 8)
    roles := (List.range (m.read 0x1F 1)).map fun i =>
      let o := 0x60 + 24 * i
      { kind := roleKindOf (m.read o 1), prio := m.read (o + 1) 1, regs := m.read (o + 2) 1
        wefts := m.read (o + 3) 1, carry := BitVec.ofNat 128 (m.read (o + 8) 16) } }

/-- Why a launch is refused: the node's status and its address (R196, R318, R370). -/
abbrev Refused := Nat × Nat

/-- The bank of a record (R169, R196). -/
def readBank (s : State) (vi asn : Nat) (m : Memory) : DevRes (Memory × State) :=
  devRead s vi asn (m.read 0x28 8) (m.read 0x30 4)

/-- Check the daybook that a record names at a RECORD level, if it keeps one (R196, R413). -/
def checkBook (s : State) (vi asn va record : Nat) : DevRes (Bool × Option Daybook × State) :=
  if record = 0 then .ok (true, none, s)
  else (readBook s vi asn va record).bind fun r => .ok (r.1.isSome, r.1, r.2)

/-! ## What a block occupies (R197, R201) -/

/-- A place held by a weft: partition, row, position, width and allotment. -/
structure Spot where
  part : Nat
  row : Nat
  pos : Nat
  width : Nat
  regs : Nat
  deriving DecidableEq, Repr

/-- The lane quarters that a position covers (R197). -/
def quartersOf (width pos : Nat) : List Nat :=
  if width = 32 then [0, 1, 2, 3] else if width = 16 then [2 * pos, 2 * pos + 1] else [pos]

/-- The register entries free in a lane quarter of a partition (R197). -/
def freeEntries (occ : List Spot) (part q : Nat) : Nat :=
  512 - ((occ.filter fun x => x.part == part && (quartersOf x.width x.pos).contains q).map (·.regs)).sum

/-- Whether a weft of allotment `a` has its register entries at a position. -/
def entriesFree (occ : List Spot) (part width pos a : Nat) : Bool :=
  (quartersOf width pos).all fun q => decide (a ≤ freeEntries occ part q)

/-- The place of one weft in a partition, if there is one (R201). DEDUCED (log 87). -/
def findSpot (occ : List Spot) (part width a : Nat) : Option Spot :=
  let empty := fun r => !(occ.any fun x => x.part == part && x.row == r)
  let spot := fun (p : Nat × Nat) => ({ part := part, row := p.1, pos := p.2, width := width, regs := a } : Spot)
  let positions := List.range (32 / width)
  let shared := ((List.range 16).map fun r => positions.map fun p => (r, p)).flatten.find? fun (x : Nat × Nat) =>
    (occ.any fun y => y.part == part && y.row == x.1 && y.width == width) &&
      !(occ.any fun y => y.part == part && y.row == x.1 && y.pos == x.2) && entriesFree occ part width x.2 a
  if width = 32 then
    if entriesFree occ part 32 0 a then ((List.range 16).find? empty).map fun r => spot (r, 0) else none
  else
    match shared with
    | some x => some (spot x)
    | none =>
      match (List.range 16).find? empty with
      | none => none
      | some r => (positions.find? fun p => entriesFree occ part width p a).map fun p => spot (r, p)

/-- The places of a block's wefts from weft `j` on, by its placement count (R201). -/
def placeWefts (l : Launch) (c : Nat) : Nat → Nat → List Spot → List Spot → Option (List Spot)
  | 0, _, _, acc => some acc
  | n + 1, j, occ, acc =>
    match findSpot occ ((l.wefts * c + j) % 4) l.width (l.roleAt j).regs with
    | none => none
    | some x => placeWefts l c n (j + 1) (x :: occ) (acc ++ [x])

/-- The places that wefts hold on a core. -/
def occupied (s : State) (core : Nat) : List Spot :=
  ((s.onCore core).map fun e =>
    (List.range (s.launch e.1).wefts).map fun w =>
      let x := s.weft e.1 w
      ({ part := x.part, row := x.row, pos := x.pos, width := (s.launch e.1).width
         regs := ((s.launch e.1).roleAt w).regs } : Spot)).flatten

/-- The places a block of a launch would take on a core, if it fits; its cluster's mode apart (R201). -/
def fitCore (s : State) (core : Nat) (l : Launch) (count : Nat) : Option (List Spot) :=
  let on := s.onCore core
  if 16 ≤ on.length ∨ 256 < (on.map fun e => (s.launch e.1).spm / 1024).sum + l.spm / 1024 ∨
      48 < (on.map fun e => (s.launch e.1).nbar).sum + l.nbar then none
  else placeWefts l count l.wefts 0 (occupied s core) []

/-- Whether a block of a launch fits an empty core (R196). -/
def fitsEmpty (l : Launch) : Bool := (placeWefts l 0 l.wefts 0 [] []).isSome

/-! ## Acceptance of a grid (R196, R397) -/

/-- A new launch gets its identity, its number and its daybook. -/
def acceptLaunch (s : State) (g : Grid) (book : Option Daybook) : Nat × State :=
  let v := s.viface g.vi
  let s := match book with
    | some b => openBook s g.vi g.asn b
    | none => s
  let s := (s.setVI g.vi { s.viface g.vi with nextIdent := v.nextIdent + 1 }).setGrid s.nextGid
    { g with ident := v.nextIdent, book := book, code := releasedMem s, since := s.storedNo }
  (s.nextGid, { s with nextGid := s.nextGid + 1 })

/-- Check and accept a grid launch whose record stands at a VA (R196): its number, or why it is refused. -/
def launchGrid (s : State) (vi asn va : Nat) (node : Nat × Nat) : DevRes (Except Refused Nat × State) :=
  if va % 64 != 0 then .ok (.error (3, va), s)
  else
    (devRead s vi asn va 256).bind fun r =>
      let m := r.1
      let cs := launchChecks m false
      match firstBreach (cs.filter (·.2 ≤ 0x50)) with
      | some o => .ok (.error (1, o), r.2)
      | none =>
        (checkBook r.2 vi asn (m.read 0x50 8) (m.read 4 4 / 32 % 4)).bind fun b =>
          if !b.1 then .ok (.error (1, 0x50), b.2.2)
          else
            match firstBreach cs with
            | some o => .ok (.error (1, o), b.2.2)
            | none =>
              let l := parseLaunch m
              if !fitsEmpty l then .ok (.error (2, 0x60), b.2.2)
              else
                (readBank b.2.2 vi asn m).bind fun k =>
                  let f := m.read 4 4
                  let a := acceptLaunch k.2
                    { stages := [{ l with bank := k.1 }], vi := vi, asn := asn, node := node, prio := f / 128 % 4
                      sysrel := bitOf f 2, record := f / 32 % 4, event := l.event, coll := m.read 0x58 8, nextLin := [0] }
                    b.2.1
                  .ok (.ok a.1, a.2)

end Sys2Proof.Machine
end

