-- ==== Sys2Proof/Machine/Home.lean ====
section
/-!
DEFINITION. The place of an access: its way over the mesh to its home and back, and the atomics that a
daybook of level 2 records (R259, R395, R414, R416, R420-R422, R437, R458).
-/
namespace Sys2Proof.Machine

/-! ## Injection (R420, R421) -/

/-- Put a packet into the router of a domain, in a class and on a table. -/
def addPacket (s : State) (src cls tbl : Nat) (p : Packet) : State :=
  { s with packets := Sp.put s.packets s.nextPacket { p with cls := cls, tbl := tbl, here := src, port := 0 }
           nextPacket := s.nextPacket + 1 }

/-- Put a packet into the router of its source domain, on a table, in the class of the domain's sequence or, where
that has no route, in the other; none where neither class has one (R421). -/
def injectOn (s : State) (src tbl : Nat) (p : Packet) : Option State :=
  let r := s.fresh
  (injectClass r.2 src tbl p.dest (Config.freeClass r.1 % 2)).map fun c => addPacket r.2 src c tbl p

/-- The same, on the table that the source domain has selected (R421). -/
def inject (s : State) (src : Nat) (p : Packet) : Option State := injectOn s src (s.domain src).rsel p

/-- INTEGRITY, reason 2: what an access's packet carried is lost (R395, R421, R422). -/
def linkCond (a : LaneAcc) : Cond := { cause := .integrity, reason := 2, addr := a.addr }

/-- The message of an access is lost: its weft takes the system fault, once it is not parked. DEDUCED (log 38).
DEDUCED (log 74). -/
def loseTrip (s : State) (id lane : Nat) : State :=
  match s.op? id with
  | none => s
  | some o =>
    match o.lane? lane with
    | none => s
    | some a =>
      let a := { a with trip := .lost }
      let s := setAcc s id a
      if (s.weft o.blk o.weft).park.isSome then s else accSystemFault s id (o.setLane a) a (linkCond a)

/-- Whether the access of a lane must send a request to another domain: it is served there, or its bytes
are in no cache of its own domain; and always where its home is outside the partition (R437, R458). -/
def needsMesh (s : State) (o : MemOp) (a : LaneAcc) : Bool :=
  match a.st with
  | .ready pa nc plate =>
    let line := lineOf pa
    let d := domOf o.core
    let wide := o.acc.scope == .waf || o.acc.scope == .sys
    let useL1 := o.acc.scope == .blk && o.acc.policy != .noL1
    let l1 := useL1 && ((s.l1Line (sliceOf s o.core line) line).getD {}).has (pa % 256) o.acc.size
    let cached := l1 || ((s.remLine d line).getD {}).has (pa % 256) o.acc.size
    let plateHere := plateHeld s d line
    let served := match o.acc.fn with
      | .atom _ => true
      | .fatom _ => true
      | .load => !cached
      | .refill => !cached
      | .store => !useL1 && putsHome s d line o.acc.policy
      | .spill => !useL1 && putsHome s d line o.acc.policy
    let there := match o.acc.space with
      | .global => (plate && !plateHere) || nc || wide || served || !(s.viface (s.viOf o.blk)).partmap.testBit (homeOf pa)
      | .plate => !plateHere
      | .host => true
      | .spm => false
      | .cluster => false
      | .const => false
    decide (homeOf pa ≠ d) && there
  | _ => false

/-- Send the request or the response of an access (R421). -/
def sendTrip (s : State) (id : Nat) (o : MemOp) (a : LaneAcc) (back : Bool) : State :=
  match a.st with
  | .held => s
  | .withdrawn => s
  | _ =>
    let pa := match a.st with
      | .ready pa _ _ => pa
      | _ => 0
    let home := if back then a.aux else homeOf pa
    let me := domOf o.core
    let p : Packet := { part := s.viOf o.blk, dest := if back then me else home, kind := if back then 1 else 0, carries := some (id, a.lane)
                        source := if back then none else some (s.coreName o.core, me) }
    match inject s (if back then home else me) p with
    | some s => setAcc s id { a with trip := if back then .response else .request }
    | none => loseTrip s id a.lane

/-! ## HOME_ACCESS (R259, R437, R441) -/

/-- Whether an access is a global atomic, which a daybook of level 2 orders (R414). -/
def MemOp.isAtomic (o : MemOp) : Bool :=
  o.acc.space == .global &&
    match o.acc.fn with
    | .atom _ => true
    | .fatom _ => true
    | _ => false

/-- What a daybook does as an atomic is performed: the lane's count rises, and the record is written or used (R414,
R416). DEDUCED (log 127). -/
def noteAtomic (s : State) (o : MemOp) (lane pa : Nat) (rec' : Option Nat) : State :=
  let k := s.block o.blk
  let i := o.weft * 32 + lane
  let ord := Sp.get 0 k.atoms i
  let s := s.setBlock o.blk { k with atoms := Sp.put k.atoms i (ord + 1) }
  match rec' with
  | some r => bookUse s k.gid r
  | none =>
    logDecision s k.gid 7 (s.virtualDomain (s.viOf o.blk) (homeOf pa)) k.stage
      (lineOf pa * 256 + k.lin * 2 ^ 64 + k.phase * 2 ^ 96 + o.weft * 2 ^ 128 + lane * 2 ^ 136 + ord * 2 ^ 160)

/-- Whether an access has its place. -/
def accDone (s : State) (id lane : Nat) : Bool :=
  match (s.op? id).bind fun o => o.lane? lane with
  | some a => a.st == .served
  | none => false

/-- An access takes its place; an atomic under a replay waits for its record (R416, R417). -/
def servePlace (s : State) (id : Nat) (o : MemOp) (a : LaneAcc) (half pa : Nat) : State :=
  if o.isAtomic then
    let k := s.block o.blk
    match atomicTurn s k.gid k.stage (lineOf pa) k.lin k.phase o.weft a.lane with
    | .wait => s
    | .never => diverge s k.gid k.lin k.phase 7
    | turn =>
      let rec' := match turn with
        | .now r => some r
        | _ => none
      let s' := accServe s id o a half
      if accDone s' id a.lane then noteAtomic s' o a.lane pa rec' else s'
  else accServe s id o a half

/-- The response of an access that has its place at another domain goes back. -/
def respond (s : State) (id lane home : Nat) : State :=
  match s.op? id with
  | none => s
  | some o =>
    match o.lane? lane with
    | some a =>
      if a.st == .served && a.trip == .atHome then sendTrip s id o { a with aux := home } true else s
    | none => s

/-- A write to the host that is still to be put on the link (R251). DEDUCED (log 169). -/
def toLink (o : MemOp) (a : LaneAcc) : Bool := o.acc.space == .host && !o.acc.fn.reads && !a.link

/-- An access that is where it is served: a write to the host goes on the link first, and its thread's store counter
then no longer counts it (R251); any other takes its place. -/
def atPlace (s : State) (id : Nat) (o : MemOp) (a : LaneAcc) (half pa : Nat) : State :=
  if toLink o a then
    let s := setAcc s id { a with link := true }
    if a.trip == .atHome then sendTrip s id o { a with link := true, aux := homeOf pa } true else s
  else respond (servePlace s id o a half pa) id a.lane (homeOf pa)

/-- HOME_ACCESS (R259, R437, R441): an access of a lane takes its place, if nothing it must follow is
outstanding and its request has reached its home; `lane` counts from 32 for the high half of a 128-bit access. -/
def execHomeAccess (op lane : Nat) (s : State) : Host.Outcome State Fault Refusal :=
  match s.op? op with
  | none => .next s
  | some o =>
    match o.lane? (lane % 32) with
    | none => .next s
    | some a =>
      match a.st with
      | .ready pa _ plate =>
        if o.kind = .prefetch then .next (setAcc (prefetchLine s o pa plate) op { a with st := .served })
        else if !a.left.testBit (lane / 32) || mustWait s op o a then .next s
        else
          match a.trip with
          | .none => .next (if needsMesh s o a && !a.link then sendTrip s op o a false else atPlace s op o a (lane / 32) pa)
          | .atHome => .next (atPlace s op o a (lane / 32) pa)
          | .lost => .next (loseTrip s op a.lane)
          | .request => .next s
          | .response => .next (if a.link then servePlace s op o a (lane / 32) pa else s)
          | .back => .next (if a.link then servePlace s op o a (lane / 32) pa else s)
      | .served => .next (if a.trip == .lost then loseTrip s op a.lane else s)
      | .held => .next s
      | .withdrawn => .next s

end Sys2Proof.Machine
end

