-- ==== Sys2Proof/Machine/Orrery.lean ====
section
/-!
DEFINITION. The orrery images that the stewards keep (R344, R424, R430-R432).
-/
namespace Sys2Proof.Machine

/-! ## What an entry reports (R340-R344, R431) -/

/-- An erase block of a domain. -/
def Domain.fblock (x : Domain) (b : Nat) : FBlock := Sp.get {} x.fblocks b

/-- Whether a block is in service: of the capacity at sale, or drawn from the reserve, and not retired (R340, R343). -/
def inService (x : Domain) (b : Nat) : Bool :=
  (decide (b < x.flashGib * 256) || (decide (131072 ≤ b) && decide (b < 131072 + (8192 - x.spare)))) && !(x.fblock b).retired

/-- MAXWEAR: the greatest wear count among blocks in service (R344). -/
def maxWear (x : Domain) : Nat := (x.fblocks.map fun e => if inService x e.1 then e.2.wear else 0).foldl max 0

/-- RTCTL of a domain's router (R424). -/
def rtctl (x : Domain) : Nat :=
  x.rsel + x.sta * 2 ^ 2 + x.stb * 2 ^ 4 + (if x.armErr then 2 ^ 6 else 0) + (if x.drained then 2 ^ 7 else 0) +
    x.errIdx * 2 ^ 8 + x.drops * 2 ^ 18

/-- The state of a link as LINKS reports it (R418, R431). -/
def linkState (s : State) (d p : Nat) : Nat :=
  match neighbour d p with
  | none => 0
  | some n =>
    if linkDown s d p then 3
    else if (s.domain d).degraded.testBit (p - 1) || (s.domain n).degraded.testBit (opposite p - 1) then 2
    else 1

/-- A mask of cluster numbers. -/
def clusterMask (cs : List Nat) : Nat := cs.foldl (fun m c => m ||| 1 <<< c) 0

/-- The 256 bytes of a domain's entry (R431). -/
def orreryEntry (s : State) (vd d : Nat) : Memory :=
  let x := s.domain d
  let m := Memory.write [] 0x00 1 vd
  let m := m.write 0x01 1 d
  let m := m.write 0x02 1 x.st
  let m := m.write 0x03 1 (s.coresIn d).length
  let m := m.write 0x04 2 (clusterMask x.fused)
  let m := m.write 0x06 2 x.banks
  let m := m.write 0x08 8 x.coremap
  let m := (List.range 40).foldl (fun m i =>
    m.write (0x10 + i) 1 ((List.range 4).foldl (fun b p => b + (s.array (d * 40 + i) p).spare % 4 * 4 ^ p) 0)) m
  let m := m.write 0x38 2 x.dramGib
  let m := m.write 0x3A 2 x.flashGib
  let m := m.write 0x3C 2 x.spare
  let m := m.write 0x3E 2 (maxWear x)
  let m := (List.range 4).foldl (fun m i => m.write (0x40 + i) 1 (linkState s d (i + 1))) m
  let m := m.write 0x44 4 (rtctl x % 256)
  let m := m.write 0x48 2 (600 + 25 * x.fcur)
  let m := m.write 0x4A 2 (Config.coreVoltage d x.fcur)
  let m := m.write 0x4C 4 x.corrected
  (List.range 40).foldl (fun m i =>
    m.write (0x50 + 2 * i) 2 (if s.usable (d * 40 + i) then s.coreName (d * 40 + i) else 0xFFFF)) m

/-- The entries of a virtual interface's orrery, in ascending virtual number (R430). -/
def orreryEntries (s : State) (vi : Nat) : List Byte :=
  ((s.domsOf vi).zipIdx.map fun e => (orreryEntry s e.2 e.1).readBytes 0 256).flatten

/-- DIGEST: the first 256 bits of SHAKE256 over all entries, as the image holds them; over the entries of now where the
virtual interface has no image (R430). -/
def orreryDigest (s : State) (vi : Nat) : List Byte :=
  let v := s.viface vi
  shake256 (if v.regs.read 0x500 8 = 0 then orreryEntries s vi else v.orrImage.readBytes 0 (256 * (s.domsOf vi).length)) 32

/-- The header of an orrery with some entries (R430). -/
def orreryHeader (s : State) (vi gen : Nat) (entries : List Byte) : Memory :=
  let m := Memory.write [] 0x00 4 0x5952524F
  let m := m.write 0x04 2 1
  let m := m.write 0x06 1 (s.domsOf vi).length
  let m := m.write 0x08 8 gen
  m.writeBytes 0x10 (shake256 entries 32)

/-! ## Keeping the images current (R432) -/

/-- The device is to write bytes at a VA; a piece that would fault is dropped. -/
def queueBytes (s : State) (vi asn va n : Nat) (m : Memory) : State :=
  (blockPieces va n).foldl (fun s p => (devQueue s vi asn p.1 p.2 (m.read (p.1 - va) p.2)).getD s) s

/-- A change of a virtual interface's orrery image, where it has one: GEN odd, the bytes at an offset, DIGEST, and GEN
at the next even value, each released before the next (R430, R432). -/
def changeOrrery (s : State) (vi off n : Nat) (m : Memory) : State :=
  let v := s.viface vi
  let base := v.regs.read 0x500 8
  if base = 0 then s
  else
    let gen := v.orrGen + 2
    let image :=
      if 64 ≤ off then v.orrImage.writeBytes (off - 64) (m.readBytes 0 n)
      else Memory.writeBytes [] 0 (m.readBytes 64 (n - 64))
    let s := s.setVI vi { v with orrGen := gen, orrImage := image }
    let s := queueBytes s vi 0 (base + 8) 8 (Memory.write [] 0 8 (gen - 1))
    let s := queueBytes s vi 0 (base + off) n m
    let s := queueBytes s vi 0 (base + 0x10) 32 (Memory.writeBytes [] 0 (orreryDigest s vi))
    queueBytes s vi 0 (base + 8) 8 (Memory.write [] 0 8 gen)

/-- Write the whole orrery image of a virtual interface (R430). DEDUCED (log 104). -/
def writeOrrery (s : State) (vi : Nat) : State :=
  let es := orreryEntries s vi
  changeOrrery s vi 0 (64 + es.length)
    (((orreryHeader s vi ((s.viface vi).orrGen + 1) es).writeBytes 64 es))

/-- The correctable errors of a domain's storage, as its steward has counted them by now (R392, R431). -/
def countCorrected (s : State) (d : Nat) : State :=
  let r := s.fresh
  r.2.setDomain d { r.2.domain d with corrected := min 0xFFFFFFFF ((r.2.domain d).corrected + Config.freeErrors r.1) }

/-- A domain's entry has changed: its steward writes it into every image that holds it (R430-R432). -/
def refreshOrrery (s : State) (d : Nat) : State :=
  let s := countCorrected s d
  (s.vis.filter fun e => e.2.partmap.testBit d).foldl (fun s e =>
    let vd := s.virtualDomain e.1 d
    changeOrrery s e.1 (64 + 256 * vd) 256 (orreryEntry s vd d)) s

/-- A link has changed: the entries of the domains at its ends (R431). -/
def refreshLink (s : State) (d p : Nat) : State :=
  match neighbour d p with
  | some n => refreshOrrery (refreshOrrery s d) n
  | none => refreshOrrery s d

/-- Every entry that may show a domain's links has changed: its own, and its neighbours' (R431). -/
def refreshAround (s : State) (d : Nat) : State :=
  ([1, 2, 3, 4].filterMap (neighbour d)).foldl refreshOrrery (refreshOrrery s d)

end Sys2Proof.Machine
end

