-- ==== Sys2Proof/Machine/Place.lean ====
section
/-!
DEFINITION. The dispatchers: handing blocks to domains, placing them on cores, restoring saved blocks,
and converting clusters (R160, R161, R198-R204, R410-R412, R435, R436).
-/
namespace Sys2Proof.Machine

/-! ## What waits (R202, R435) -/

/-- Whether a block waits for a core. -/
def Block.waits (k : Block) : Bool := k.bst == .queued || k.bst == .saved

/-- The waiting blocks of a grid or stage, in ascending linear block id. -/
def waiting (s : State) (gid st : Nat) (p : Block → Bool) : List Nat :=
  let bs := List.filter (fun (e : Nat × Block) => e.2.gid == gid && e.2.stage == st && e.2.waits && p e.2) s.blocks
  sortBy (fun b => (s.block b).lin) (bs.map (·.1))

/-- The launch record of a grid or stage. -/
def stageLaunch (s : State) (gid st : Nat) : Launch := ((s.grid gid).stages[st]?).getD {}

/-- Whether a launch's blocks may be dispatched. -/
def Grid.live (g : Grid) : Bool :=
  !g.complete && !g.ended &&
    match g.mill with
    | some m => m.started
    | none => true

/-- Whether a grid may only use fused clusters (R200). -/
def Launch.fused (l : Launch) : Bool := l.flags.getLsbD 1
/-- Whether a grid's phases may be flushed and restarted (R193). -/
def Launch.idem (l : Launch) : Bool := l.flags.getLsbD 0

/-- Whether a cluster's four cores are all usable (R200). -/
def clusterComplete (s : State) (core : Nat) : Bool := (List.range 4).all fun i => s.usable (clusterBase core + i)

/-- Whether a core serves a grid or stage: no mill's core serves a grid, and a mill's core only its stage,
and no further block of it once it is departing (R320, R338, R435). -/
def serves (s : State) (gid st core : Nat) : Bool :=
  s.usable core &&
    match (s.grid gid).mill with
    | none => (s.millOf core).isNone
    | some m => Sp.find? m.held core == some st && (Sp.find? m.departing core).isNone

/-- The cores of a domain that a grid may use, whatever the modes of their clusters (R435). -/
def mayUse (s : State) (gid st d : Nat) : List Nat :=
  (s.coresByName d).filter fun c => serves s gid st c && (!(stageLaunch s gid st).fused || clusterComplete s c)

/-- Whether a domain is up (R431). -/
def domainUp (s : State) (d : Nat) : Bool := (s.domain d).st == 1 || (s.domain d).st == 2

/-- Whether a domain has capacity for a grid or stage (R435). -/
def hasCapacity (s : State) (gid st d : Nat) : Bool :=
  domainUp s d && decide ((waiting s gid st fun k => k.hand == some d).length < 2 * (mayUse s gid st d).length)

/-! ## Handing (R199, R435, R436) -/

/-- The hint of a block's first phase, as a physical domain (R199). In mode 2 the byte is read anew
at each attempt to hand the block, and while the read must wait the block is not handed; a byte that is poisoned or
whose read a router drops is no hint either. DEDUCED (log 91). DESIGN CHOICE (log 158). DEDUCED (log 174). -/
def hintOf (s : State) (gid st lin : Nat) : DevRes (Option Nat × State) :=
  let g := s.grid gid
  let l := stageLaunch s gid st
  let ds := s.domsOf g.vi
  match l.flags.toNat / 8 % 4 with
  | 1 => .ok (ds[lin * ds.length / l.blocks]?, s)
  | 2 =>
    match devGet s g.vi g.asn (l.hints.toNat + lin) 1 with
    | .ok (x, s) => .ok (if x = 0xFF then none else ds[x]?, s)
    | .wait => .wait
    | .fault _ s => .ok (none, s)
  | _ => .ok (none, s)

/-- The domain that a head block goes to, by its hint (R435). -/
def handTo (s : State) (gid st : Nat) (h : Option Nat) : Option Nat :=
  let ds := (s.domsOf (s.grid gid).vi).filter fun d => hasCapacity s gid st d
  match h with
  | some x =>
    if ds.contains x then some x
    else
      (sortBy (fun d => 40 * hops x d + (40 - (s.coresIn d).length)) (ds.filter (reachable s x))).head?
  | none => (sortBy (fun d => 40 - (s.coresIn d).length) ds).head?

/-- The core of a partition that holds a name. -/
def coreNamed (s : State) (vi name : Nat) : Option Nat :=
  ((s.domsOf vi).map s.coresIn).flatten.find? fun c => s.coreName c == name

/-- The PLACE record of a block's phase, where its launch is replayed; a block that a host command has saved in the
replay has none (R416). DEDUCED (log 159). -/
def placeRecord (s : State) (gid st lin phase : Nat) : Option (Option Nat) :=
  if s.blocks.any fun e => e.2.gid == gid && e.2.stage == st && e.2.lin == lin && e.2.aside then none
  else bookNext s gid fun r => recField r 0 1 == 1 && recField r 8 4 == lin && recField r 12 4 == phase &&
    recField r 2 1 == (if (s.grid gid).mill.isSome then st else 0xFF)

/-- The next block of a grid or stage to be handed, and its block if it has one. DEDUCED (log 89). -/
def handHead (s : State) (gid st : Nat) : Option (Nat × Option Nat) :=
  let fresh := (s.grid gid).nextLin.getD st 0
  let isNew := decide (fresh < (stageLaunch s gid st).blocks)
  match waiting s gid st fun k => k.hand.isNone with
  | b :: _ => if isNew && decide (fresh < (s.block b).lin) then some (fresh, none) else some ((s.block b).lin, some b)
  | [] => if isNew then some (fresh, none) else none

/-- Hand a block to a domain: a first phase is created, counted there, and the shares close with the last
one of the launch (R204, R436). -/
def handBlock (s : State) (gid st lin d : Nat) (blk : Option Nat) : State :=
  match blk with
  | some b => s.setBlock b { s.block b with hand := some d }
  | none =>
    let g := s.grid gid
    let next := g.nextLin.set st (lin + 1)
    let closed := (g.stages.zip next).all fun x => decide (x.1.blocks ≤ x.2)
    let s := s.setBlock s.nextBlk { gid := gid, stage := st, lin := lin, hand := some d, countDom := d }
    let s := s.setGrid gid { g with
      nextLin := next, closed := closed, handed := Sp.put g.handed d (Sp.get 0 g.handed d + 1) }
    checkShares { s with nextBlk := s.nextBlk + 1 } gid

/-- HAND_BLOCK (R435, R436): the wafer dispatcher hands the head block of a grid or stage to a domain. -/
def execHandBlock (gid stage : Nat) (s : State) : Host.Outcome State Fault Refusal :=
  match Sp.find? s.grids gid with
  | none => .next s
  | some g =>
    if !g.live then .next s
    else
      match handHead s gid stage with
      | none => .next s
      | some (lin, blk) =>
        let phase := (blk.map fun b => (s.block b).phase).getD 0
        match placeRecord s gid stage lin phase with
        | some none => .next (diverge s gid lin phase 1)
        | some (some r) =>
          match coreNamed s g.vi (recField r 16 2) with
          | none => .next (diverge s gid lin phase 1)
          | some c => .next (handBlock s gid stage lin (domOf c) blk)
        | none =>
          let area := (blk.bind fun b => if (s.block b).bst == .saved then (s.block b).area else (s.block b).record)
          let h := match area with
            | some a => DevRes.ok (some a.dom, s)
            | none => hintOf s gid stage lin
          match h with
          | .ok (h, s) =>
            match handTo s gid stage h with
            | none => .next s
            | some d => .next (handBlock s gid stage lin d blk)
          | _ => .next s

/-! ## Loading a placed block (R160, R161, R198, R410-R412) -/

/-- What a block starts from. -/
inductive Start where
  /-- The launch state (R16, R196). -/
  | first
  /-- Its phase record (R160). -/
  | phase (m : Memory)
  /-- Its save area (R410). -/
  | save (m : Memory)
  /-- Its save area fails its checks: the block is QUEUED again, to start from its phase record (R164, R411). -/
  | again
  /-- Nothing that passes its checks (R411). -/
  | lost

/-- The bytes of an area as a domain loads them: none where a word of it is poisoned, or where a router drops a message
of the load (R410, R422). DEDUCED (log 189). -/
def loadArea (s : State) (d : Nat) (a : Area) : Option Memory :=
  match wayTo s d a.dom with
  | .dropped _ _ => none
  | _ => getArea s a

/-- Where a block starts again from its latest phase record, if that passes its checks (R401, R411). -/
def restartOf (s : State) (b d : Nat) : Start :=
  match (s.block b).record with
  | none => .first
  | some a =>
    match loadArea s d a with
    | none => .lost
    | some m => if areaGood s b false m a then .phase m else .lost

/-- What becomes of a SAVED block whose save area fails its checks (R411). -/
def afterBadArea (s : State) (b d : Nat) (raced : Bool) : Start :=
  if !(s.launch b).idem || raced then .lost
  else
    match restartOf s b d with
    | .lost => .lost
    | _ => .again

/-- What a block starts from as it is placed in a domain (R410, R411). -/
def startOf (s : State) (b d : Nat) : Start :=
  let k := s.block b
  match k.bst, k.area with
  | .saved, some a =>
    match loadArea s d a with
    | some m => if areaGood s b true m a then .save m else afterBadArea s b d ((m.read 0x1E 1).testBit 0)
    | none => afterBadArea s b d k.raced
  | _, _ => restartOf s b d

/-- The areas that a block may be loaded from. -/
def Block.areas (k : Block) : List Area := [k.record, k.area].filterMap id

/-- The domain in which a block last ran, if it has (R161, R445). -/
def Block.behind (k : Block) : Option Nat :=
  match k.bst, k.area, k.left with
  | .saved, some a, _ => some a.dom
  | _, _, some d => some d
  | _, _, none => k.record.map (·.dom)

/-- Before a core receives a block of another virtual interface than it last served, its L1 is cleaned and
invalidated, its arrays zeroed and its frames EMPTY; or it is not yet clean (R412). -/
def switchCore (s : State) (core vi : Nat) : Bool × State :=
  let d := domOf core
  match Sp.find? (s.domain d).served core with
  | none => (true, s)
  | some v =>
    if v = vi then (true, s)
    else
      let r := cleanL1All s core
      if !r.1 then r
      else
        let s := (l1Cores r.2 core).foldl (fun s c => s.setCore c { s.core c with l1 := [] }) r.2
        (true, s.setCore core { s.core core with
          arrays := (s.core core).arrays.map fun e => (e.1, { e.2 with views := [], slots := [], acc := [], accBad := [] })
          bank := [], bankUse := [] })

/-- The part of R161 that a new domain asks of the old one: its remote copies are clean and acknowledged. -/
def leaveDomain (s : State) (od : Nat) : Bool × State :=
  let r := tryAll (fun s l => cleanRemote s od l) (Sp.keys (s.domain od).remote) s
  (r.1 && !unacknowledged r.2 od, r.2)

/-- The wefts of a block at the places it takes; a restored weft keeps what its record does not hold. -/
def seatWefts (s : State) (b : Nat) (spots : List Spot) (keep : Bool) : State :=
  spots.zipIdx.foldl (fun s x =>
    let w : Weft := if keep then s.weft b x.2 else {}
    s.setWeft b x.2 { w with wst := .active, role := (s.launch b).roleIndex x.2
                             part := x.1.part, row := x.1.row, pos := x.1.pos }) s

/-- Wefts all of whose lanes are over are FINISHED; the fault entries of restored wefts are posted again (R140,
R410). -/
def wakeWefts (s : State) (b : Nat) : State :=
  (List.range (s.launch b).wefts).foldl (fun s w =>
    let x := s.weft b w
    match x.park with
    | none => finishCheck s b w
    | some e => parkWeft (s.setWeft b w { x with wst := .active, park := none, pending := false }) b w e x.atIssue) s

/-- A message that loads an area is counted where a router drops it (R422, R424). -/
def noteLoad (d : Nat) (s : State) (a : Area) : State :=
  match wayTo s d a.dom with
  | .dropped at_ _ => noteDrop (drawClasses s) at_
  | _ => s

/-- Place a waiting block on a core at the places given (R16, R160, R161, R198, R201, R205, R410-R412).
DEDUCED (log 92). -/
def placeOn (s : State) (b core : Nat) (spots : List Spot) : State :=
  let k := s.block b
  let g := s.grid k.gid
  let d := domOf core
  if k.areas.any fun a => areaBusy s a.base a.len || wayTo s d a.dom == .waits then s
  else
  let s' := k.areas.foldl (noteLoad d) s
  match startOf s b d with
  | .lost => loseBlock s' b
  | .again => s'.setBlock b { k with bst := .queued, area := none, left := k.area.map (·.dom) }
  | start =>
    let key := k.stage * 4096 + core
    let sc : Option Scope := match k.behind with
      | some o => some (if o = d then .dom else .waf)
      | none => if Sp.get 0 g.places key = 0 then some g.scope else none
    if sc.any fun x => !acquireReady s d x then s
    else
    let sw := switchCore s core g.vi
    let lv := match k.behind with
      | some o => if o = d then (true, sw.2) else leaveDomain sw.2 o
      | none => (true, sw.2)
    if !sw.1 || !lv.1 then lv.2
    else
      let s := lv.2
      let s := match sc with
        | some x => acquire s core x
        | none => s
      let dom := s.domain d
      let s := s.setDomain d { dom with ages := dom.ages + 1, served := Sp.put dom.served core g.vi }
      let base : Block := { k with
        bst := .resident, core := core, age := dom.ages, hand := none, area := none, method := none, stopped := false
        left := none, aside := false, since := (s.core core).cyc.toNat }
      let fresh : Block := { base with spm := [], spmBad := [], was := [], bars := [], issues := 0, raced := false, pushed := 0, atoms := [] }
      let restored := match start with
        | .save _ => true
        | _ => false
      let s := match start with
        | .save m =>
          loadSave (seatWefts (s.setBlock b { base with
            pushed := 0, since := ((s.core core).cyc - BitVec.ofNat 64 k.since).toNat }) b spots true) b m
        | .phase m => loadPhase (seatWefts (s.setBlock b fresh) b spots false) b m
        | _ => startThreads (seatWefts (s.setBlock b fresh) b spots false) b
      let bookPlace := placeRecord lv.2 k.gid k.stage k.lin k.phase
      let s := s.setGrid k.gid { s.grid k.gid with places := Sp.put g.places key (Sp.get 0 g.places key + 1) }
      let s := match bookPlace with
        | some (some r) => bookUse s k.gid r
        | _ => logDecision s k.gid 1 (s.virtualDomain g.vi d) k.stage
            (k.lin + k.phase * 2 ^ 32 + s.coreName core * 2 ^ 64 + (if restored then 2 ^ 80 else 0))
      wakeWefts s b

/-! ## Placing (R200-R203, R397, R416) -/

/-- Whether a pre-emption command holds a launch's blocks back from a domain (R397). -/
def held (s : State) (gid d : Nat) : Bool :=
  let g := s.grid gid
  s.cmds.any fun e =>
    e.2.hold && e.2.vi == g.vi && (!e.2.flags.testBit 2 || e.2.ident == g.ident) &&
      e.2.domains.testBit (s.virtualDomain g.vi d)

/-- Whether a core's cluster has the mode that a grid or stage asks for, and is not being converted (R200). -/
def modeFits (s : State) (gid st core : Nat) : Bool :=
  s.isFused core == (stageLaunch s gid st).fused &&
    match (s.domain (domOf core)).conv with
    | some (cl, _) => clusterOf core != cl
    | none => true

/-- The places a block of a grid or stage would take on a core. -/
def fitOn (s : State) (gid st core : Nat) : Option (List Spot) :=
  if modeFits s gid st core then
    fitCore s core (stageLaunch s gid st) (Sp.get 0 (s.grid gid).places (st * 4096 + core))
  else none

/-- The first core in a list that a block fits (R202). -/
def firstFit (s : State) (gid st : Nat) : List Nat → Option (Nat × List Spot)
  | [] => none
  | c :: cs =>
    match fitOn s gid st c with
    | some x => some (c, x)
    | none => firstFit s gid st cs

/-- A placement: the block, the core and the places; or a forced core that the launch does not hold (R416, R417). -/
inductive Choice where
  | place (b core : Nat) (spots : List Spot)
  | diverge (b : Nat)

/-- The placement that a replay's records allow on a domain next: each core takes its blocks in the order of
its records (R416); a block waits for a core that its mill may still come to hold. -/
def forcedChoice (s : State) (gid st d : Nat) : List Nat → Option Choice
  | [] => none
  | b :: bs =>
    let k := s.block b
    match placeRecord s gid st k.lin k.phase with
    | some (some r) =>
      let name := recField r 16 2
      match coreNamed s (s.grid gid).vi name with
      | none => some (.diverge b)
      | some c =>
        let launchHolds := match (s.grid gid).mill with
          | some m => (Sp.find? m.held c).isSome || decide (m.count.sum < m.cores)
          | none => (s.millOf c).isNone
        if !launchHolds then some (.diverge b)
        else if (bookNext s gid fun r' => recField r' 0 1 == 1 && recField r' 16 2 == name) == some (some r) &&
            (mayUse s gid st d).contains c then
          match fitOn s gid st c with
          | some x => some (.place b c x)
          | none => forcedChoice s gid st d bs
        else forcedChoice s gid st d bs
    | none => (firstFit s gid st (mayUse s gid st d)).map fun x => .place b x.1 x.2
    | some none => forcedChoice s gid st d bs

/-- The placement that a queue of a domain allows: its head's, on the first core by name (R202). -/
def queueChoice (s : State) (d : Nat) (q : Nat × Nat) : Option Choice :=
  let bs := waiting s q.1 q.2 fun k => k.hand == some d
  if held s q.1 d then none
  else
    match (s.grid q.1).book with
    | some { replay := true, .. } => forcedChoice s q.1 q.2 d bs
    | _ =>
      match bs with
      | [] => none
      | b :: _ =>
        (firstFit s q.1 q.2 (mayUse s q.1 q.2 d)).map fun x => .place b x.1 x.2

/-- The queues of a dispatcher in the order in which it tries them (R202); the stages of one mill, which were accepted
together, in ascending number. DESIGN CHOICE (log 160). -/
def queueOrder (s : State) : List (Nat × Nat) :=
  let live := List.filter (fun (e : Nat × Grid) => e.2.live) s.grids
  ((sortBy (fun gid => 3 - (s.grid gid).prio) (live.map (·.1))).map fun gid =>
    (List.range (s.grid gid).stages.length).map fun st => (gid, st)).flatten

/-- PLACE_BLOCK (R202): the dispatcher of a domain places the first head block that fits. -/
def execPlaceBlock (dom : Nat) (s : State) : Host.Outcome State Fault Refusal :=
  match ((queueOrder s).filterMap (queueChoice s dom)).head? with
  | none => .next s
  | some (.place b core spots) => .next (placeOn s b core spots)
  | some (.diverge b) => .next (diverge s (s.block b).gid (s.block b).lin (s.block b).phase 1)

/-! ## Converting a cluster (R200) -/

/-- Whether the head of a queue fits no core of its own mode in a domain (R200). The head of a launch that a
pre-emption command holds has no cluster converted for it. DESIGN CHOICE (log 161). -/
def stuckHead (s : State) (d : Nat) (q : Nat × Nat) : Bool :=
  !(waiting s q.1 q.2 fun k => k.hand == some d).isEmpty && !held s q.1 d &&
    (firstFit s q.1 q.2 (mayUse s q.1 q.2 d)).isNone

/-- Whether a cluster may be converted for a head: complete, of the other mode, with no block, and no core
departing or assigned to another stage (R200). -/
def convertible (s : State) (d cl : Nat) (q : Nat × Nat) : Bool :=
  let cores := (List.range 4).map fun i => d * 40 + cl * 4 + i
  clusterComplete s (d * 40 + cl * 4) &&
    (s.domain d).fused.contains cl != (stageLaunch s q.1 q.2).fused &&
    cores.all fun c => (s.onCore c).isEmpty &&
      match s.millOf c with
      | none => true
      | some x => x == q && serves s q.1 q.2 c

/-- The cluster that a head has converted: the one that holds the lowest core name (R200). -/
def clusterFor (s : State) (d : Nat) (q : Nat × Nat) : Option Nat :=
  (sortBy (fun cl => ((List.range 4).map fun i => s.coreName (d * 40 + cl * 4 + i)).foldl min 0xFFFF)
    ((List.range 10).filter fun cl => convertible s d cl q)).head?

/-- Whether a fused cluster has lost a core and holds no block (R200). -/
def mustUnfuse (s : State) (d cl : Nat) : Bool :=
  (s.domain d).fused.contains cl && !clusterComplete s (d * 40 + cl * 4) &&
    (List.range 4).all fun i => (s.onCore (d * 40 + cl * 4 + i)).isEmpty

/-- CLUSTER_CONVERT (R200): a domain begins to convert a cluster for a head that fits no core of its mode,
or unfuses one that is no longer complete. DEDUCED (log 90). -/
def execClusterConvert (dom cl : Nat) (s : State) : Host.Outcome State Fault Refusal :=
  let x := s.domain dom
  if x.conv.isSome then .next s
  else if mustUnfuse s dom cl then .next (s.setDomain dom { x with conv := some (cl, false) })
  else if (queueOrder s).any fun q => stuckHead s dom q && clusterFor s dom q == some cl then
    .next (s.setDomain dom { x with conv := some (cl, !x.fused.contains cl) })
  else .next s

/-- CLUSTER_CONVERT_DONE (R200): the four L1s are clean and invalid, and the cluster has its new mode. -/
def execClusterConvertDone (dom cl : Nat) (s : State) : Host.Outcome State Fault Refusal :=
  match (s.domain dom).conv with
  | none => .next s
  | some (c, fuse) =>
    if c ≠ cl then .next s
    else
      let cores := (List.range 4).map fun i => dom * 40 + cl * 4 + i
      let r := cores.foldl (fun (r : Bool × State) c => let q := cleanL1All r.2 c; (r.1 && q.1, q.2)) (true, s)
      if !r.1 then .next r.2
      else
        let s := cores.foldl (fun s c => s.setCore c { s.core c with l1 := [] }) r.2
        let x := s.domain dom
        .next (refreshOrrery (s.setDomain dom { x with
          conv := none, fused := if fuse then x.fused ++ [cl] else x.fused.filter (· != cl) }) dom)

end Sys2Proof.Machine
end

