-- ==== Sys2Proof/Machine/Mill.lean ====
section
/-!
DEFINITION. Mills: the header and race records and their checks, the start of a mill and the cores that
join it, the race instructions and the steps of the races' homes, and a mill's completion (R315-R335).
-/
namespace Sys2Proof.Machine

/-! ## The mill record (R315-R318) -/

/-- The checks of a mill header in ascending offset, but for CORES and the daybook header's (R315). -/
def millChecks (m : Memory) : List (Bool × Nat) :=
  let f := m.read 4 4
  let record := f / 32 % 4
  [ (m.read 0 2 != 3, 0)
  , (m.read 2 2 != 1, 2)
  , (f % 4 != 0 || f / 8 % 4 != 0 || decide (2 ^ 9 ≤ f) || record == 3, 4)
  , (m.read 8 1 == 0 || decide (16 < m.read 8 1), 8)
  , (decide (32 < m.read 9 1), 9)
  , (!([0, 4, 8, 12, 16].contains (m.read 0xA 1)), 0xA)
  , (decide (m.read 0xB 1 < 10) || decide (20 < m.read 0xB 1), 0xB)
  , (m.read 0x10 8 % 64 != 0, 0x10)
  , (m.read 0x18 8 % 64 != 0, 0x18)
  , (decide (2 ^ 44 ≤ m.read 0x20 8), 0x20)
  , (record == 0 && m.read 0x28 8 != 0, 0x28)
  , (m.read 0x38 200 != 0, 0x38) ]

/-- The checks of a race record in ascending offset, but for its buffer's mapping (R317). -/
def raceChecks (m : Memory) (nstage ndom : Nat) : List (Bool × Nat) :=
  [ (decide (m.read 0 1 < 6) || decide (12 < m.read 0 1), 0)
  , (decide (3 < m.read 1 1), 1)
  , (decide (nstage ≤ m.read 2 1), 2)
  , (decide (nstage ≤ m.read 3 1) || m.read 3 1 == m.read 2 1, 3)
  , (decide (m.read 4 4 < 2) || decide (65536 < m.read 4 4), 4)
  , (decide (ndom ≤ m.read 8 1), 8)
  , (m.read 9 7 != 0, 9)
  , (m.read 0x10 8 % 65536 != 0, 0x10)
  , (m.read 0x18 40 != 0, 0x18) ]

/-- Whether a buffer is mapped as R317 asks, from a VA to its end, page by page; or a fault met in reading its
translation (R318). DEDUCED (log 101). -/
def bufferMapped (vi asn home top : Nat) : Nat → Nat → State → DevRes (Bool × State)
  | 0, va, s => .ok (decide (top ≤ va), s)
  | n + 1, va, s =>
    if top ≤ va then .ok (true, s)
    else if !canonical (BitVec.ofNat 64 va) then .ok (false, s)
    else
      match domainWalk s (s.leadDom vi) vi asn (va % 2 ^ 57) with
      | (none, _) => .wait
      | (some (.fail .translate _), s) => .ok (false, s)
      | (some (.fail _ _), s) => .fault va s
      | (some (.ok entry t), s) =>
        match orPte s (s.leadDom vi) entry 0x80 with
        | .error _ => .wait
        | .ok s =>
          let pa := t.phys (va % 2 ^ 57)
          if t.r && t.w && !t.plate && !t.nc && regionOf s pa == .dram && homeOf pa == home then
            bufferMapped vi asn home top n ((va / 2 ^ t.bits + 1) * 2 ^ t.bits) s
          else .ok (false, s)

/-- The offset of a field of a stage record (1) or a race record (2) (R318). -/
def millOffset (kind i o : Nat) : Nat := kind * 2 ^ 56 + i * 256 + o

/-- Read and check the stage records from stage `i` on: the stages, with their records (R318 step 2). -/
def readStages (vi asn base : Nat) : Nat → Nat → State → List Memory → DevRes (Except Refused (List Memory) × State)
  | 0, _, s, acc => .ok (.ok acc, s)
  | n + 1, i, s, acc =>
    (devRead s vi asn (base + 256 * i) 256).bind fun r =>
      match firstBreach (launchChecks r.1 true) with
      | some o => .ok (.error (1, millOffset 1 i o), r.2)
      | none => readStages vi asn base n (i + 1) r.2 (acc ++ [r.1])

/-- The race of a record that passes its checks; its home as a physical domain. -/
def parseRace (m : Memory) (home : Nat) : Race :=
  { slotLog := m.read 0 1, scope := m.read 1 1, prod := m.read 2 1, cons := m.read 3 1, slots := m.read 4 4
    home := home, base := m.read 0x10 8 }

/-- The bytes of a race's buffer. -/
def Race.bytes (r : Race) : Nat := r.slots * 2 ^ r.slotLog

/-- Read and check the race records from race `q` on (R318 step 4). -/
def readRaces (vi asn base nstage : Nat) :
    Nat → Nat → State → List Race → DevRes (Except Refused (List Race) × State)
  | 0, _, s, acc => .ok (.ok acc, s)
  | n + 1, q, s, acc =>
    (devRead s vi asn (base + 64 * q) 64).bind fun r =>
      let ds := r.2.domsOf vi
      match firstBreach (raceChecks r.1 nstage ds.length) with
      | some o => .ok (.error (1, millOffset 2 q o), r.2)
      | none =>
        let x := parseRace r.1 ((ds[r.1.read 8 1]?).getD 0)
        (bufferMapped vi asn x.home (x.base + x.bytes) (x.bytes / 4096 + 1) x.base r.2).bind fun b =>
          if b.1 then readRaces vi asn base nstage n (q + 1) b.2 (acc ++ [x])
          else .ok (.error (1, millOffset 2 q 0x10), b.2)

/-- The stages that a stage's races lead to, in up to `n` hops. -/
def downstream (rs : List Race) : Nat → List Nat → List Nat
  | 0, ss => ss
  | n + 1, ss => downstream rs n (ss ++ (rs.filter fun r => ss.contains r.prod && !ss.contains r.cons).map (·.cons)).eraseDups

/-- The lowest-numbered race that lies on a cycle (R318 step 5). -/
def cyclicRace (rs : List Race) : Option Nat :=
  (rs.zipIdx.find? fun x => (downstream rs 16 [x.1.cons]).contains x.1.prod).map (·.2)

/-- The race whose buffer first crosses the limit of its home's race region (R318 step 5). -/
def overRegion (rs : List Race) (mb : Nat) : Option Nat :=
  (rs.zipIdx.find? fun x =>
    decide (mb * 2 ^ 20 < ((rs.take (x.2 + 1)).map fun r => if r.home = x.1.home then r.bytes else 0).sum)).map (·.2)

/-- The stage at which the running sum of MINC first exceeds the usable cores (R318 step 6). -/
def overMinc (minc : List Nat) (cores : Nat) : Option Nat :=
  (List.range minc.length).find? fun i => decide (cores < (minc.take (i + 1)).sum)

/-- Read the constant banks of the stages (R318 step 7). -/
def readBanks (vi asn : Nat) : List Memory → State → List Launch → DevRes (List Launch × State)
  | [], s, acc => .ok (acc, s)
  | m :: ms, s, acc =>
    (readBank s vi asn m).bind fun r => readBanks vi asn ms r.2 (acc ++ [{ parseLaunch m with bank := r.1 }])

/-- The checks of R318 that follow the reading of the records: none where all pass. -/
def millBreach (s : State) (vi : Nat) (ms : List Memory) (rs : List Race) (mb : Nat) : Option Refused :=
  match cyclicRace rs with
  | some q => some (1, millOffset 2 q 2)
  | none =>
    match overRegion rs mb with
    | some q => some (2, millOffset 2 q 0x10)
    | none =>
      match overMinc (ms.map fun m => m.read 0xC0 2) ((s.domsOf vi).map fun d => (s.coresIn d).length).sum with
      | some i => some (2, millOffset 1 i 0xC0)
      | none => (ms.zipIdx.find? fun x => !fitsEmpty (parseLaunch x.1)).map fun x => (2, millOffset 1 x.2 0x60)

/-- Check and accept a mill launch whose header stands at a VA (R318): its number, or why it is refused. -/
def launchMill (s : State) (vi asn va : Nat) (node : Nat × Nat) : DevRes (Except Refused Nat × State) :=
  if va % 64 != 0 then .ok (.error (3, va), s)
  else
    (devRead s vi asn va 256).bind fun r =>
      let h := r.1
      let f := h.read 4 4
      let cs := millChecks h
      match firstBreach (cs.filter (·.2 ≤ 0x28)) with
      | some o => .ok (.error (1, o), r.2)
      | none =>
        (checkBook r.2 vi asn (h.read 0x28 8) (f / 32 % 4)).bind fun b =>
          if !b.1 then .ok (.error (1, 0x28), b.2.2)
          else
            match firstBreach cs with
            | some o => .ok (.error (1, o), b.2.2)
            | none =>
              (readStages vi asn (h.read 0x10 8) (h.read 8 1) 0 b.2.2 []).bind fun st =>
                match st.1 with
                | .error e => .ok (.error e, st.2)
                | .ok ms =>
                  let minc := ms.map fun m => m.read 0xC0 2
                  let maxc := ms.map fun m => m.read 0xC2 2
                  if h.read 0xC 4 < minc.sum ∨ maxc.sum < h.read 0xC 4 then .ok (.error (1, 0xC), st.2)
                  else
                    (readRaces vi asn (h.read 0x18 8) ms.length (h.read 9 1) 0 st.2 []).bind fun rs =>
                      match rs.1 with
                      | .error e => .ok (.error e, rs.2)
                      | .ok races =>
                        match millBreach rs.2 vi ms races (h.read 0xA 1) with
                        | some e => .ok (.error e, rs.2)
                        | none =>
                          (readBanks vi asn ms rs.2 []).bind fun k =>
                            let a := acceptLaunch k.2
                              { stages := k.1, vi := vi, asn := asn, node := node, prio := f / 128 % 4, sysrel := bitOf f 2
                                record := f / 32 % 4, event := BitVec.ofNat 64 (h.read 0x20 8), coll := h.read 0x30 8
                                nextLin := ms.map fun _ => 0
                                mill := some
                                  { raceMb := h.read 0xA 1, interval := h.read 0xB 1, cores := h.read 0xC 4, minc := minc
                                    maxc := maxc, weight := ms.map fun m => m.read 0xC4 2, races := races } }
                              b.2.1
                            .ok (.ok a.1, a.2)

/-! ## The start of a mill (R319, R436) -/

/-- The stage that gets the next core (R319). -/
def nextStage (m : Mill) (cores : List Nat) : Option Nat :=
  let c := fun i => cores.getD i 0
  let w := fun i => m.weight.getD i 1
  ((List.range cores.length).filter fun t => decide (c t < m.maxc.getD t 0)).foldl (fun best t =>
    match best with
    | none => some t
    | some u => if c t * w u < c u * w t then some t else some u) none

/-- Give out `n` more cores (R319). -/
def divide (m : Mill) : Nat → List Nat → List Nat
  | 0, cores => cores
  | n + 1, cores =>
    match nextStage m cores with
    | none => cores
    | some t => divide m n (cores.set t (cores.getD t 0 + 1))

/-- The cores that a mill may take, in order (R436). -/
def millCores (s : State) (gid : Nat) : List Nat :=
  let g := s.grid gid
  let ds := s.domsOf g.vi
  let from' := match g.mill with
    | some { races := r :: _, .. } => r.home
    | _ => ds.headD 0
  ((sortBy (hops from') (ds.filter (domainUp s))).map fun d =>
    (s.coresByName d).filter fun c => (s.onCore c).isEmpty && (s.millOf c).isNone).flatten

/-- The stage of each of the cores dealt out, in stage order (R436). -/
def dealt (cores : List Nat) : List Nat := (cores.zipIdx.map fun x => List.replicate x.1 x.2).flatten

/-- The domains that home a mill's races. -/
def Mill.homes (m : Mill) : List Nat := (m.races.map (·.home)).eraseDups

/-- Whether a mill may take its race regions (R319 step 1). -/
def regionsFree (s : State) (gid : Nat) (m : Mill) : Bool :=
  m.homes.all fun d => (s.domain d).raceRegion.isNone || (s.domain d).raceRegion == some gid

/-- The stage for which the records of a replay first name a core: that of a block placed there, or the one
that a move takes it from (R414, R436). -/
def bookedStage (s : State) (gid core : Nat) : Option Nat :=
  (bookNext s gid fun r =>
    (recField r 0 1 == 1 && recField r 16 2 == s.coreName core) ||
      (recField r 0 1 == 2 && recField r 14 2 == s.coreName core)).bind fun r =>
    r.map fun r => if recField r 0 1 = 1 then recField r 2 1 else recField r 12 1

/-- The cores that the records of a replay give to a mill, and that it does not hold yet (R436). -/
def owedCores (s : State) (gid : Nat) (m : Mill) : Nat :=
  ((((s.domsOf (s.grid gid).vi).map s.coresIn).flatten).filter fun c =>
    (bookedStage s gid c).isSome && (Sp.find? m.held c).isNone).length

/-- The cores that a mill takes as it starts, each with its stage, and the count of each stage; none where too
few hold no block (R319, R436). In a replay the cores that its records name go where they say. DEDUCED (log 162). -/
def dealCores (s : State) (gid : Nat) (m : Mill) : Option (Sp Nat × List Nat) :=
  let free := millCores s gid
  let booked := free.filterMap fun c => (bookedStage s gid c).map fun t => (c, t)
  let rest := free.filter fun c => (bookedStage s gid c).isNone
  let had := fun t => (booked.filter (·.2 == t)).length
  let least := m.minc.zipIdx.map fun x => max x.1 (had x.2)
  let pads := least.sum - booked.length
  if rest.length < pads then none
  else
    let more := min (rest.length - pads) (m.cores - least.sum - (owedCores s gid m - booked.length))
    let count := divide m more least
    let held := (booked ++ rest.zip (dealt (count.zipIdx.map fun x => x.1 - had x.2))).foldl
      (fun h x => Sp.put h x.1 x.2) []
    some (held, count)

/-- The core that joins a mill next, and its stage (R319, R436). In a replay a core that its records name joins
the stage they say, and no other takes its place. -/
def nextJoin (s : State) (gid : Nat) (m : Mill) : Option (Nat × Nat) :=
  if m.cores ≤ m.count.sum then none
  else
    let free := millCores s gid
    match (free.filterMap fun c => (bookedStage s gid c).map fun t => (c, t)).head? with
    | some x => some x
    | none =>
      if m.cores ≤ m.count.sum + owedCores s gid m then none
      else free.head?.bind fun c => (nextStage m m.count).map fun t => (c, t)

/-- MILL_START (R319, R436): the mill takes its race regions when they are free of other mills, and its
cores when enough hold no block; its blocks may then be handed. DEDUCED (log 106). -/
def execMillStart (gid : Nat) (s : State) : Host.Outcome State Fault Refusal :=
  let g := s.grid gid
  match g.mill with
  | none => .next s
  | some m =>
    let before := (List.filter (fun (e : Nat × Grid) => !e.2.complete && !e.2.ended &&
      (decide (g.prio < e.2.prio) || (e.2.prio == g.prio && decide (e.1 < gid)))) s.grids)
    let waits := before.any fun e =>
      match e.2.mill with
      | some x => !x.started && x.homes.any m.homes.contains && regionsFree s e.1 x
      | none => false
    if m.started || g.ended || waits || !regionsFree s gid m then .next s
    else
      let s := m.homes.foldl (fun s d => s.setDomain d { s.domain d with raceRegion := some gid }) s
      match dealCores s gid m with
      | none => .next s
      | some (held, count) =>
        let lead := (((Sp.keys held).map domOf).foldl min 63)
        .next (s.setGrid gid { g with mill := some { m with started := true, held := held, count := count, lead := lead } })

/-- MILL_CORE_JOIN (R319): a free core joins the stage that the division would choose next. -/
def execMillCoreJoin (gid core : Nat) (s : State) : Host.Outcome State Fault Refusal :=
  let g := s.grid gid
  match g.mill with
  | none => .next s
  | some m =>
    if !m.started || g.complete || g.ended then .next s
    else
      match nextJoin s gid m with
      | none => .next s
      | some (c, t) =>
        if c ≠ core then .next s
        else
          .next (s.setGrid gid { g with mill := some { m with
            held := Sp.put m.held core t, count := m.count.set t (m.count.getD t 0 + 1) } })

/-! ## Race instructions (R324-R332) -/

/-- The race a block's instruction names, with its mill. -/
def raceOf (s : State) (b q : Nat) : Option Race :=
  ((s.grid (s.block b).gid).mill).bind fun m => m.races[q]?

/-- A race put back. -/
def setRace (s : State) (gid q : Nat) (r : Race) : State :=
  match (s.grid gid).mill with
  | none => s
  | some m => s.setGrid gid { s.grid gid with mill := some { m with races := m.races.set q r } }

/-- The effective scope of a race for a core (R325). -/
def effScope (r : Race) (core : Nat) : Scope :=
  if r.scope = 3 then .sys else if r.scope = 2 ∨ domOf core ≠ r.home then .waf else .dom

/-- The address of a slot (R321). -/
def Race.addr (r : Race) (i : Nat) : Nat := r.base + i * 2 ^ r.slotLog

/-- The side of a race that an instruction is for. -/
inductive RaceSide where
  | prod | cons | any
  deriving DecidableEq, Repr

/-- The RACE condition of a reason (R327, R381). DEDUCED (log 54). DEDUCED (log 111). -/
def raceCond (reason addr : Nat) : Cond := { cause := .race, reason := reason, addr := addr }

/-- Whether the weft at issue has an RCLOSE of a race on its way (R330). -/
def closing (s : State) (q : Nat) : Bool :=
  List.any s.ops fun e => e.2.ofWeft s.iss.blk s.iss.weft && e.2.kind == .rclose q

/-- The first check of R327 that a race instruction fails: `held` is the slot it names, if it names one, and
`grants` says that it asks for a slot. -/
def raceFault (s : State) (q : Nat) (side : RaceSide) (held : Option (Nat × Bool)) (grants : Bool) : Option Cond :=
  let k := s.block s.iss.blk
  match (s.grid k.gid).mill with
  | none => some (raceCond 1 0)
  | some m =>
    match m.races[q]? with
    | none => some (raceCond 2 0)
    | some r =>
      let wrong := match side with
        | .prod => k.stage != r.prod
        | .cons => k.stage != r.cons
        | .any => false
      let names := match held with
        | some (a, recv) => !(s.wft.slots.any fun h => h.race == q && h.addr == a && h.recv == recv)
        | none => false
      if wrong then some (raceCond 3 0)
      else if names then some (raceCond 4 ((held.map (·.1)).getD 0))
      else if grants && side == .prod && r.rst == .abandoned then some (raceCond 6 0)
      else if grants && side == .prod && (r.rst == .closed || closing s q) then some (raceCond 5 0)
      else if grants && decide (8 ≤ s.wft.slots.length) then some (raceCond 7 0)
      else none

/-- The block has executed a race instruction in its phase (R333). -/
def noteRace (s : State) : State := s.setBlock s.iss.blk { s.block s.iss.blk with raced := true }

/-- A race instruction that passes its checks takes its effect; RSTAT alone leaves no mark. -/
def raceIssue (q : Nat) (side : RaceSide) (grants mark : Bool) (rs ks : List Regs) (early : State → Option Cond)
    (held : State → Option (Nat × Bool)) (busy : State → Bool) (body : State → State) (s : State) :
    Host.Outcome State Fault Refusal :=
  issue { permitted := fun k => k.permits .sync, regs := rs, early := early s }
    (fun s => issueBusy s rs ks || (busy s && (raceFault s q side (held s) grants).isNone))
    (fun s =>
      let s := if mark then noteRace s else s
      match raceFault s q side (held s) grants with
      | some c => trapAll s c
      | none => body s) s

/-- Write a uniform pair of a weft (R148, R167). -/
def setPair (s : State) (b w kd x : Nat) : State :=
  s.setWeft b w ((s.weft b w).setKPair kd (BitVec.ofNat 64 x))

/-- A request in a waiting queue: the block, and the weft with the pair it names (R321). -/
def raceReq (b w kd : Nat) : Nat × Nat := (b, w + 128 * kd)

/-- Log a grant, or use its record (R414, R416). DEDUCED (log 108). -/
def noteGrant (s : State) (gid q kind slot b w : Nat) : State :=
  let k := s.block b
  match nextGrant s gid q with
  | some (some r) => bookUse s gid r
  | some none => s
  | none =>
    let home := ((raceOf s b q).map (·.home)).getD 0
    logDecision s gid 3 (s.virtualDomain (s.grid gid).vi home) k.stage
      (q + kind * 256 + slot * 2 ^ 32 + k.lin * 2 ^ 64 + k.phase * 2 ^ 96 + w * 2 ^ 128)

/-- Give a slot to a weft: it holds the slot, its pair names it, and it acquires (R322, R324, R328). -/
def grantSlot (s : State) (b w q kd : Nat) (recv : Bool) : State :=
  let k := s.block b
  match raceOf s b q with
  | none => s
  | some r =>
    let i := if recv then r.cp else r.rp
    let sst : SlotState := if recv then .received else .reserved
    let r' := { r with slot := Sp.put r.slot i { sst := sst, blk := b, weft := w } }
    let r' := if recv then ({ r' with cp := (i + 1) % r.slots } : Race).normal else { r' with rp := (i + 1) % r.slots }
    let s := noteGrant s k.gid q (if recv then 1 else 0) i b w
    let s := setPair (setRace s k.gid q r') b w kd (r.addr i)
    let s := s.setWeft b w { s.weft b w with
      slots := (s.weft b w).slots ++ [{ race := q, slot := i, recv := recv, addr := r.addr i }] }
    acquire s k.core (effScope r k.core)

/-- Whether a slot is grantable: slot rp FREE, or slot cp COMMITTED (R322). -/
def Race.canReserve (r : Race) : Bool := r.rst == .opened && (Sp.find? r.slot r.rp).isNone
def Race.canReceive (r : Race) : Bool :=
  match Sp.find? r.slot r.cp with
  | some x => x.sst == .committed
  | none => false

/-- RRESV (R327, R328): the issue set waits for a slot to be granted. -/
def execRresv (kd : KReg) (q : BitVec 5) (s : State) : Host.Outcome State Fault Refusal :=
  raceIssue q.toNat .prod true true [] [(kd.toNat, 2)] handlerIllegal (fun _ => none) (fun _ => false)
    (fun s =>
      let s := s.iss.lanes.foldl (laneStep fun l =>
        .goto { s.lane l with tst := .wait, wait := .race q.toNat kd.toNat false }) s
      match raceOf s s.iss.blk q.toNat with
      | none => s
      | some r => setRace s (s.block s.iss.blk).gid q.toNat
          { r with reservers := r.reservers ++ [raceReq s.iss.blk s.iss.weft kd.toNat] }) s

/-- RRECV (R327, R328): the issue set waits for a token, or for the end of the stream. -/
def execRrecv (kd : KReg) (q : BitVec 5) (s : State) : Host.Outcome State Fault Refusal :=
  raceIssue q.toNat .cons true true [] [(kd.toNat, 2)] handlerIllegal (fun _ => none) (fun _ => false)
    (fun s =>
      let s := s.iss.lanes.foldl (laneStep fun l =>
        .goto { s.lane l with tst := .wait, wait := .race q.toNat kd.toNat true }) s
      match raceOf s s.iss.blk q.toNat with
      | none => s
      | some r => setRace s (s.block s.iss.blk).gid q.toNat
          { r with receivers := r.receivers ++ [raceReq s.iss.blk s.iss.weft kd.toNat] }) s

/-- What a replay says of a try form: nothing is forced; its record is the next one of the race, with the kind of
its answer; it must wait for another; or no record remains that can serve it (R416, R417). -/
inductive TryTurn where
  | free
  | now (kind : Nat)
  | wait
  | never
  deriving DecidableEq, Repr

/-- Whether a GRANT record is for a weft of a block's phase, with one of some kinds of answer (R414). -/
def grantFor (s : State) (b w : Nat) (kinds : List Nat) (r : Nat) : Bool :=
  kinds.contains (recField r 9 1) && recField r 2 1 == stageByte s (s.block b).gid (s.block b).stage &&
    recField r 16 4 == (s.block b).lin && recField r 20 4 == (s.block b).phase &&
    recField r 24 1 == w

/-- The records of a replay for a race that are for a weft. -/
def grantLeft (s : State) (gid q b w : Nat) (kinds : List Nat) : Option (Option Nat) :=
  bookNext s gid fun r => recField r 0 1 == 3 && recField r 8 1 == q && grantFor s b w kinds r

/-- What a replay says of a try form of the weft at issue (R416, R417). -/
def tryTurn (s : State) (q : Nat) (kinds : List Nat) : TryTurn :=
  let gid := (s.block s.iss.blk).gid
  match nextGrant s gid q, grantLeft s gid q s.iss.blk s.iss.weft kinds with
  | none, _ => .free
  | _, none => .free
  | _, some none => .never
  | some none, _ => .never
  | some (some r), some (some _) =>
    if grantFor s s.iss.blk s.iss.weft kinds r then .now (recField r 9 1) else .wait

/-- Whether a race can give the answer of a kind: a slot, a token, the end of the stream, or a refusal. -/
def Race.answers (r : Race) : Nat → Bool
  | 0 => r.canReserve
  | 1 => r.canReceive
  | 2 => r.eos || r.rst == .abandoned
  | _ => true

/-- The kind of answer that a try form gets: the recorded one; or a grant if its queue is empty and one can be made,
else the end of the stream where it waits for tokens, else a refusal (R323, R328, R416). -/
def tryAnswer (r : Race) (recv : Bool) : TryTurn → Nat
  | .now kind => kind
  | _ =>
    if recv then
      if r.receivers.isEmpty && r.canReceive then 1 else if r.answers 2 then 2 else 3
    else if r.reservers.isEmpty && r.canReserve then 0 else 3

/-- Whether an acquire of a core at the effective scope of a race can complete (R325, R328, R443). -/
def raceAcquires (s : State) (r : Race) (core : Nat) : Bool := acquireReady s (domOf core) (effScope r core)

/-- A try form waits for its turn among a replay's records, until the recorded answer can be given (R416), and,
where its answer acquires, until that can complete (R328). -/
def tryWaits (s : State) (q : Nat) (recv : Bool) (kinds : List Nat) : Bool :=
  match raceOf s s.iss.blk q with
  | none => false
  | some r =>
    let turn := tryTurn s q kinds
    (match turn with
      | .wait => true
      | .now kind => !r.answers kind
      | _ => false) ||
      (turn != .never && tryAnswer r recv turn != 3 && !raceAcquires s r (s.block s.iss.blk).core)

/-- A try form executes: its pair names the slot granted, or 1 at the end of the stream, or 0; a replay in which no
record remains for it diverges (R323, R328, R417). -/
def tryRace (q kd : Nat) (recv : Bool) (kinds : List Nat) (s : State) : State :=
  let b := s.iss.blk
  let w := s.iss.weft
  let k := s.block b
  match raceOf s b q with
  | none => s
  | some r =>
    match tryTurn s q kinds with
    | .never => diverge s k.gid k.lin k.phase 3
    | turn =>
      advanceAll (match tryAnswer r recv turn with
        | 0 => grantSlot s b w q kd false
        | 1 => grantSlot s b w q kd true
        | 2 => acquire (setPair (noteGrant s k.gid q 2 0 b w) b w kd 1) k.core (effScope r k.core)
        | _ => setPair (noteGrant s k.gid q 3 0 b w) b w kd 0)

/-- RTRYRESV (R323, R327, R328): a slot if the queue is empty and one is grantable, else 0. -/
def execRtryresv (kd : KReg) (q : BitVec 5) (s : State) : Host.Outcome State Fault Refusal :=
  raceIssue q.toNat .prod true true [] [(kd.toNat, 2)] (fun _ => none) (fun _ => none)
    (fun s => tryWaits s q.toNat false [0, 3]) (tryRace q.toNat kd.toNat false [0, 3]) s

/-- RTRYRECV (R323, R327, R328): a token if the queue is empty and one is grantable; 1 at the end of the
stream; else 0. DEDUCED (log 53). -/
def execRtryrecv (kd : KReg) (q : BitVec 5) (s : State) : Host.Outcome State Fault Refusal :=
  raceIssue q.toNat .cons true true [] [(kd.toNat, 2)] (fun _ => none) (fun _ => none)
    (fun s => tryWaits s q.toNat true [1, 2, 3]) (tryRace q.toNat kd.toNat true [1, 2, 3]) s

/-- The slot that a pair names, as reserved or received. -/
def slotNamed (ka : KReg) (recv : Bool) (s : State) : Option (Nat × Bool) := some ((s.wft.kpair ka.toNat).toNat, recv)

/-- The weft ceases to hold a slot, and the operation that ends its part begins (R324, R329). -/
def letGo (s : State) (q addr : Nat) (recv : Bool) : State :=
  match s.wft.slots.find? fun h => h.race == q && h.addr == addr && h.recv == recv with
  | none => s
  | some h =>
    let s := s.setWeft s.iss.blk s.iss.weft { s.wft with slots := s.wft.slots.erase h }
    addOp (advanceAll s) (waitOp s (if recv then .relSlot q h.slot else .commit q h.slot))

/-- RCOMMIT (R324, R327, R329). -/
def execRcommit (q : BitVec 5) (ka : KReg) (s : State) : Host.Outcome State Fault Refusal :=
  raceIssue q.toNat .prod false true [] [(ka.toNat, 2)] (fun _ => none) (slotNamed ka false) (fun _ => false)
    (fun s => letGo s q.toNat (s.wft.kpair ka.toNat).toNat false) s

/-- RRELEASE (R324, R327, R329). -/
def execRrelease (q : BitVec 5) (ka : KReg) (s : State) : Host.Outcome State Fault Refusal :=
  raceIssue q.toNat .cons false true [] [(ka.toNat, 2)] (fun _ => none) (slotNamed ka true) (fun _ => false)
    (fun s => letGo s q.toNat (s.wft.kpair ka.toNat).toNat true) s

/-- RCLOSE (R327, R330): its release and its effect at the home follow in FENCE_COMPLETE. -/
def execRclose (q : BitVec 5) (s : State) : Host.Outcome State Fault Refusal :=
  raceIssue q.toNat .prod false true [] [] (fun _ => none) (fun _ => none) (fun _ => false)
    (fun s => addOp (advanceAll s) (waitOp s (.rclose q.toNat))) s

/-- The word of RSTAT (R332). -/
def Race.stat (r : Race) : Nat :=
  r.slot.length + (if r.rst == .closed then 2 ^ 31 else 0) + (if r.rst == .abandoned then 2 ^ 30 else 0) + (if r.eos then 2 ^ 29 else 0)

/-- RSTAT (R327, R332). -/
def execRstat (kd : KReg) (q : BitVec 5) (s : State) : Host.Outcome State Fault Refusal :=
  raceIssue q.toNat .any false false [] [(kd.toNat, 1)] (fun _ => none) (fun _ => none) (fun _ => false)
    (fun s =>
      match raceOf s s.iss.blk q.toNat with
      | none => s
      | some r => advanceAll (s.setWeft s.iss.blk s.iss.weft (s.wft.setK kd.toNat (BitVec.ofNat 32 r.stat)))) s

/-! ## The steps of a race's home (R322, R323, R328, R329) -/

/-- The lanes of a weft that wait with a request, and what becomes of each. -/
def wakeRace (s : State) (b w q kd : Nat) (recv : Bool) (f : State → Nat → State) : State :=
  (List.range 32).foldl (fun s l =>
    let t := s.thread b w l
    if t.tst = .wait ∧ t.wait = .race q kd recv then f s l else s) s

/-- A lane leaves WAIT with its PC advanced (R328). -/
def passRace (b w : Nat) (s : State) (l : Nat) : State :=
  let t := s.thread b w l
  s.setThread b w l { t with tst := .run, wait := .none, pc := t.pc + 4 }

/-- The block, weft and pair of a request. -/
def reqParts (x : Nat × Nat) : Nat × Nat × Nat := (x.1, x.2 % 128, x.2 / 128)

/-- The request that is granted next: the head; in replay, the one that the next record names (R416). -/
def nextRequest (s : State) (gid q : Nat) (kinds : List Nat) (reqs : List (Nat × Nat)) : Option (Nat × Nat) :=
  match nextGrant s gid q with
  | none => reqs.head?
  | some none => none
  | some (some r) => reqs.find? fun x => grantFor s x.1 (x.2 % 128) kinds r

/-- Grant a slot to a waiting request. DEDUCED (log 109). -/
def grantWaiting (s : State) (gid q : Nat) (recv : Bool) (x : Nat × Nat) : State :=
  let p := reqParts x
  match raceOf s p.1 q with
  | none => s
  | some r =>
    if decide (8 ≤ (s.weft p.1 p.2.1).slots.length) || !raceAcquires s r (s.block p.1).core then s
    else
      let r := if recv then { r with receivers := r.receivers.erase x } else { r with reservers := r.reservers.erase x }
      let s := grantSlot (setRace s gid q r) p.1 p.2.1 q p.2.2 recv
      wakeRace s p.1 p.2.1 q p.2.2 recv (passRace p.1 p.2.1)

/-- A waiting receiver leaves with the value 1 and acquires (R328). -/
def endReceiver (gid q : Nat) (s : State) (x : Nat × Nat) : State :=
  let p := reqParts x
  match raceOf s p.1 q with
  | none => s
  | some r =>
    let core := (s.block p.1).core
    if !raceAcquires s r core then s
    else
      let s := setRace s gid q { r with receivers := r.receivers.erase x }
      let s := setPair (noteGrant s gid q 2 0 p.1 p.2.1) p.1 p.2.1 p.2.2 1
      wakeRace (acquire s core (effScope r core)) p.1 p.2.1 q p.2.2 true (passRace p.1 p.2.1)

/-- The waiting reservers of a race that is CLOSED or ABANDONED trap, their PCs at the RRESV (R328). -/
def trapReservers (gid q reason : Nat) (r : Race) (s : State) : State :=
  r.reservers.foldl (fun s x =>
    let p := reqParts x
    wakeRace s p.1 p.2.1 q p.2.2 false fun s l =>
      enterTrap (s.setThread p.1 p.2.1 l { s.thread p.1 p.2.1 l with tst := .run, wait := .none }) p.1 p.2.1 l (raceCond reason 0))
    (setRace s gid q { r with reservers := [] })

/-- A waiting request that no remaining record of a replay can serve (R417). -/
def unserved (s : State) (gid q : Nat) (kinds : List Nat) (reqs : List (Nat × Nat)) : Option (Nat × Nat) :=
  reqs.find? fun x => grantLeft s gid q x.1 (x.2 % 128) kinds == some none

/-- The same of the requests of a race: its reservers wait for a record while it is OPEN. DEDUCED (log 109). -/
def unservedOf (s : State) (gid q : Nat) (r : Race) : Option (Nat × Nat) :=
  (unserved s gid q [1, 2] r.receivers).or (if r.rst = .opened then unserved s gid q [0] r.reservers else none)

/-- RACE_GRANT (R322, R323, R328): the home of a race makes at most one reserve grant and one receive grant;
waiting receivers learn of the end of the stream, and waiting reservers of a race that takes no more. -/
def execRaceGrant (gid race : Nat) (s : State) : Host.Outcome State Fault Refusal :=
  match (s.grid gid).mill.bind fun m => m.races[race]? with
  | none => .next s
  | some r =>
    match unservedOf s gid race r with
    | some x => .next (diverge s gid (s.block x.1).lin (s.block x.1).phase 3)
    | none =>
      let s := match r.rst with
        | .opened =>
          if r.canReserve then
            match nextRequest s gid race [0] r.reservers with
            | some x => grantWaiting s gid race false x
            | none => s
          else s
        | .closed => trapReservers gid race 5 r s
        | .abandoned => trapReservers gid race 6 r s
      match (s.grid gid).mill.bind fun m => m.races[race]? with
      | none => .next s
      | some r =>
        if r.canReceive then
          match nextRequest s gid race [1] r.receivers with
          | some x => .next (grantWaiting s gid race true x)
          | none => .next s
        else if r.eos || r.rst == .abandoned then
          match nextRequest s gid race [2] r.receivers with
          | some x => .next (endReceiver gid race s x)
          | none => .next s
        else .next s

/-- The end of the part of a weft in a slot, once its release is complete (R329). -/
def endSlot (s : State) (id : Nat) (o : MemOp) (q i : Nat) (commit : Bool) : State :=
  match raceOf s o.blk q, opRelease s id o (((raceOf s o.blk q).map fun r => effScope r o.core).getD .dom) with
  | none, _ => s.dropOp id
  | some _, .error s => s
  | some _, .ok s =>
    match raceOf s o.blk q with
    | none => s.dropOp id
    | some r =>
      let r := if commit && r.rst != .abandoned then
          { r with slot := Sp.put r.slot i { sst := .committed, blk := o.blk, weft := o.weft } }
        else ({ r with slot := Sp.del r.slot i } : Race).normal
      setRace (s.dropOp id) (s.block o.blk).gid q r

/-- COMMIT_COMPLETE (R329): the slot becomes COMMITTED, or FREE in an ABANDONED race. -/
def execCommitComplete (op : Nat) (s : State) : Host.Outcome State Fault Refusal :=
  match s.op? op with
  | none => .next s
  | some o =>
    match o.kind with
    | .commit q i => .next (endSlot s op o q i true)
    | _ => .next s

/-- RELEASE_COMPLETE (R329): the slot becomes FREE. -/
def execReleaseComplete (op : Nat) (s : State) : Host.Outcome State Fault Refusal :=
  match s.op? op with
  | none => .next s
  | some o =>
    match o.kind with
    | .relSlot q i => .next (endSlot s op o q i false)
    | _ => .next s

/-- An RCLOSE whose release is complete takes its effect at the home (R330). -/
def closeRace (s : State) (o : MemOp) (q : Nat) : State :=
  match raceOf s o.blk q with
  | none => s
  | some r => setRace s (s.block o.blk).gid q (if r.rst == .opened then { r with rst := .closed } else r)

/-! ## Completion (R335) -/

/-- MILL_COMPLETE (R335): every stage has finished: the mill's release, its region and cores freed, its
events raised. -/
def execMillComplete (gid : Nat) (s : State) : Host.Outcome State Fault Refusal :=
  let g := s.grid gid
  match g.mill with
  | none => .next s
  | some m =>
    if g.complete || !((List.range g.stages.length).all (stageOver s gid)) || !sharesMet s gid then .next s
    else
      match endBook s gid with
      | .error s => .next s
      | .ok s =>
        let r := releaseCores g.cores g.scope s
        if !r.1 then .next r.2
        else
          let s := m.homes.foldl (fun s d =>
            if (s.domain d).raceRegion = some gid then s.setDomain d { s.domain d with raceRegion := none } else s) r.2
          .next (announceLaunch (s.setGrid gid { s.grid gid with
            mill := some { m with held := [], departing := [], mover := [], moves := [] } }) gid)

end Sys2Proof.Machine
end

