-- ==== Sys2Proof/Machine/Collective.lean ====
section
/-!
DEFINITION. The wafer collective WRED: its groups, its combining trees, and its rounds (R447-R450, R456).
-/
namespace Sys2Proof.Machine

/-! ## Groups (R447, R448) -/

/-- The MXPARAM condition of WRED (R448). -/
def wredCond (addr info : Nat) : Cond := { cause := .mxparam, addr := addr, info := info }

/-- The condition that a read of the device from a state meets at a VA. DEDUCED (log 129). -/
def devFaultCond (s : State) (vi asn va : Nat) : Cond :=
  let c := fun (x : Cause) r => walkCond x r va 2
  if !canonical (BitVec.ofNat 64 va) then { c .translate 4 with sys := false }
  else
    match (domainWalk s (s.leadDom vi) vi asn (va % 2 ^ 57)).1 with
    | none => c .integrity 2
    | some (.fail x r) => c x r
    | some (.ok _ t) =>
      let pa := t.phys (va % 2 ^ 57)
      if !t.r || regionOf s pa == .host then c .protect 0
      else
        match wayTo s (s.leadDom vi) (homeOf pa) with
        | .dropped _ _ => c .integrity 2
        | _ => if t.plate then c .uncorrectable 6 else c .uncorrectable ((s.homeBad pa 1).getD 5)

/-- The first field of a group's entry that is outside its limits, in a mill or in a grid (R447). -/
def groupBreach (mill : Bool) (m : Memory) : Option Nat :=
  if m.read 4 4 = 0 ∨ 65535 < m.read 4 4 then some 0x04
  else if !mill && m.read 9 1 != 0xFF then some 0x09
  else if m.read 0xA 6 ≠ 0 then some 0x0A
  else if m.read 0x10 8 % 4 ≠ 0 then some 0x10
  else if m.read 0x18 8 ≠ 0 then some 0x18
  else none

/-- Read and check a group's entry, once for a launch (R447, R448): the group, or the condition that stands in its
way. DEDUCED (log 150). -/
def readGroup (s : State) (gid n : Nat) : DevRes (Except Cond Group × State) :=
  let g := s.grid gid
  let keep := fun (s : State) (x : Group) => s.setGrid gid { s.grid gid with groups := Sp.put (s.grid gid).groups n x }
  match Sp.find? g.groups n with
  | some x =>
    match x.breach with
    | some o => .ok (.error (wredCond (g.coll + 16 + 32 * n) o), s)
    | none => .ok (.ok x, s)
  | none =>
    if g.coll = 0 then .ok (.error (wredCond 0 0), s)
    else
      match devRead s g.vi g.asn g.coll 16 with
      | .wait => .wait
      | .fault va s' => .ok (.error (devFaultCond s g.vi g.asn va), s')
      | .ok (m, s) =>
        let at' := g.coll + 16 + 32 * n
        if m.read 0 1 ≤ n then .ok (.error (wredCond g.coll 0), s)
        else
          match devRead s g.vi g.asn at' 32 with
          | .wait => .wait
          | .fault va s' => .ok (.error (devFaultCond s g.vi g.asn va), s')
          | .ok (m, s) =>
            match groupBreach g.mill.isSome m with
            | some o => .ok (.error (wredCond at' o), keep s { breach := some o })
            | none =>
              let x : Group := { first := m.read 0 4, count := m.read 4 4, weft := m.read 8 1, stage := m.read 9 1, statva := m.read 0x10 8 }
              .ok (.ok x, keep s x)

/-- The check that a weft is the one through which a member contributes (R448). -/
def memberCond (s : State) (b w n : Nat) (x : Group) : Option Cond :=
  let k := s.block b
  let g := s.grid k.gid
  let at' := g.coll + 16 + 32 * n
  if k.lin < x.first ∨ x.first + x.count ≤ k.lin then some (wredCond at' 0x00)
  else if x.stage ≠ (if g.mill.isSome then k.stage else 0xFF) then some (wredCond at' 0x09)
  else if x.weft ≠ w then some (wredCond at' 0x08)
  else none

/-! ## Combination (R449) -/

/-- The format of a floating type. -/
def redFmt : RedType → Option Fmt
  | .i32 => none
  | .f32 => some fp32
  | .f64 => some fp64

/-- One combination of two values (R449). DEDUCED (log 131). -/
def redCombine (op : RedOp) (ty : RedType) (a b : Nat) : FRes :=
  match redFmt ty with
  | none =>
    let x := BitVec.ofNat 32 a
    let y := BitVec.ofNat 32 b
    match op with
    | .sum => ⟨(x + y).toNat, 0⟩
    | .min => ⟨(minS x y).toNat, 0⟩
    | .max => ⟨(maxS x y).toNat, 0⟩
  | some f =>
    match op with
    | .sum => fAdd f 0 (unpack f a) (unpack f b)
    | .min => fMinMax f false a b
    | .max => fMinMax f true a b

/-- A value with a NaN made canonical (R177, R449). -/
def redCanon (ty : RedType) (x : FRes) : FRes :=
  match redFmt ty with
  | none => x
  | some f => if (unpack f x.bits).isNaN then ⟨f.nan, x.flags⟩ else x

/-- The tree over positions, NaN made canonical (R177, R449). -/
def redTree (op : RedOp) (ty : RedType) (n : Nat) (leaves : List (Option FRes)) : FRes :=
  redCanon ty ((treeSum (redCombine op ty) n leaves).getD ⟨0, 0⟩)

/-- A lane's operand: a pair for F64, else a word (R448). -/
def redOperand (ty : RedType) (t : Thread) (a : Nat) : Nat :=
  if ty = .f64 then (t.pair a).toNat else (t.reg a).toNat

/-- The contribution of the issue set; a signalling NaN that is summed sets NV (R177, R449). -/
def contribution (s : State) (op : RedOp) (ty : RedType) (a : Nat) : FRes :=
  let x := fun l => redOperand ty (s.lane l) a
  let r := redTree op ty 5 ((List.range 32).map fun p => if s.iss.lanes.contains p then some ⟨x p, 0⟩ else none)
  let snan := match redFmt ty with
    | some f => op == RedOp.sum && s.iss.lanes.any fun l => (unpack f (x l)).isSNaN
    | none => false
  if snan then ⟨r.bits, r.flags ||| fNV⟩ else r

/-! ## WRED (R448, R449) -/

/-- Whether some link of a tree is as `p` says of its domain and port. -/
def treeLink (p : Nat → Nat → Bool) (tree : List (Nat × Nat)) : Bool :=
  tree.any fun e => e.1 != e.2 && (List.range 4).any fun i => neighbour e.1 (i + 1) == some e.2 && p e.1 (i + 1)

/-- Whether a link of a tree is down. -/
def treeDown (s : State) (tree : List (Nat × Nat)) : Bool := treeLink (linkDown s) tree

/-- Whether the weft at issue has a WRED that is not delivered (R448). -/
def wredBusy (s : State) : Bool :=
  (s.weftOps s.iss.blk s.iss.weft).any fun o =>
    match o.kind with
    | .wred _ _ _ => true
    | _ => false

/-- A contribution enters its tree at a domain, as a collective packet (R421, R449). -/
def sendPart (s : State) (vi d gid n r rank : Nat) : State :=
  let c := s.fresh
  addPacket c.2 d (Config.freeClass c.1 % 2) (s.domain d).rsel { part := vi, dest := d, kind := 2, cargo := .part gid n r rank }

/-- The contribution of a rank in a domain joins its round (R449). -/
def joinRound (s : State) (d gid n rank : Nat) (op : RedOp) (ty : RedType) (v : FRes) (x : Group) : State × Nat :=
  let g := s.grid gid
  let r := Sp.get 0 x.next rank
  let tree := Sp.find? g.trees n
  let fresh : Round := { op := op.code, ty := ty.code, tree := tree, lost := (tree.map (treeDown s)).getD false }
  let rd := (Sp.find? x.rounds r).getD fresh
  let rd := { rd with
    mismatch := rd.mismatch || rd.op != op.code || rd.ty != ty.code
    parts := Sp.put rd.parts rank (v.bits, v.flags), onWay := rd.onWay ++ [rank] }
  let x := { x with next := Sp.put x.next rank (r + 1), rounds := Sp.put x.rounds r rd }
  (sendPart (s.setGrid gid { g with groups := Sp.put g.groups n x }) g.vi d gid n r rank, r)

/-- The result of WRED is a register write outstanding in each lane of its issue set (R449). -/
def wredOp (s : State) (d : Nat) (ty : RedType) (n r rank : Nat) : MemOp :=
  let a : Access := { fn := .load, size := if ty = .f64 then 8 else 4, dest := d }
  { issuedOp s a (s.iss.lanes.map fun l => { lane := l, addr := 0, st := .served, left := 0 }) (laneMask s.iss.lanes) with
    kind := .wred n r rank }

/-- WRED (R448, R449): the member's contribution enters its round. -/
def execWred (d a : VReg) (op : RedOp) (ty : RedType) (g : BitVec 4) (s : State) : Host.Outcome State Fault Refusal :=
  let n := if ty = .f64 then 2 else 1
  let rs : List Regs := [(d.toNat, n), (a.toNat, n)]
  issue { permitted := fun k => k.permits .sync, regs := rs, early := handlerIllegal s }
    (fun s => issueBusy s rs [] || wredBusy s ||
      match readGroup s (s.block s.iss.blk).gid g.toNat with
      | .wait => true
      | _ => false)
    (fun s =>
      let b := s.iss.blk
      let gid := (s.block b).gid
      match readGroup s gid g.toNat with
      | .wait => s
      | .fault _ s => s
      | .ok (.error c, s) => raiseAll s c
      | .ok (.ok x, s) =>
        match memberCond s b s.iss.weft g.toNat x with
        | some c => raiseAll s c
        | none =>
          let rank := (s.block b).lin - x.first
          let v := contribution s op ty a.toNat
          let s := s.setBlock b { s.block b with raced := true }
          let q := joinRound s (domOf (s.block b).core) gid g.toNat rank op ty v x
          advanceAll (addOp q.1 (wredOp q.1 d.toNat ty g.toNat q.2 rank))) s

/-! ## Results (R449, R450) -/

/-- Whether every rank of a round has contributed (R449). -/
def Round.full (rd : Round) (count : Nat) : Bool := rd.tree.isSome && rd.parts.length == count

/-- Whether every contribution has come up the round's tree to its root (R449, R456). -/
def Round.complete (rd : Round) (count : Nat) : Bool := rd.full count && rd.onWay.isEmpty

/-- The value of a complete round (R449). -/
def Round.value (rd : Round) (op : RedOp) (ty : RedType) (count : Nat) : FRes :=
  let leaf := fun r => (Sp.find? rd.parts r).map fun p => (⟨p.1, p.2⟩ : FRes)
  redTree op ty 16 ((List.range count).map leaf)

/-- The status of a round that ends (R449). -/
def Round.status (rd : Round) : Nat := if rd.lost then 1 else if rd.mismatch then 2 else 0

/-- The result of a round in a lane of a member: vd, and the flags of every combination (R449). -/
def takeResult (t : Thread) (d : Nat) (wide : Bool) (v : FRes) : Thread :=
  let t := t.raise v.flags
  if wide then t.setPair d (BitVec.ofNat 64 v.bits) else t.setReg d (BitVec.ofNat 32 v.bits)

/-- A round of a group as a member leaves it. -/
def putRound (s : State) (gid group n : Nat) (x : Group) (rd : Round) : State :=
  let y := (Sp.find? (s.grid gid).groups group).getD x
  s.setGrid gid { s.grid gid with groups := Sp.put (s.grid gid).groups group { y with rounds := Sp.put y.rounds n rd } }

/-- A round reaches a member: its status word is written; then, once every invalidation on its way to the member's
domain has been accepted, the acquire, vd, and the flags (R443, R449). -/
def deliverRound (s : State) (gid group n rank id : Nat) (o : MemOp) (x : Group) (rd : Round) : State :=
  let g := s.grid gid
  let core := (s.block o.blk).core
  if !rd.told.contains rank then
    let told := { rd with told := rd.told ++ [rank] }
    match devPut s g.vi g.asn (x.statva + 4 * rank) 4 (n % 2 ^ 24 * 256 + rd.status) with
    | .ok s => putRound s gid group n x told
    | .fault _ s => putRound s gid group n x told
    | .wait => s
  else if !acquireReady s (domOf core) .waf then s
  else
    let s := acquire s core .waf
    let s := match rd.status, RedOp.ofCode rd.op, RedType.ofCode rd.ty with
      | 0, some op, some ty =>
        o.lanes.foldl (fun (s : State) (a : LaneAcc) => s.setThread o.blk o.weft a.lane
          (takeResult (s.thread o.blk o.weft a.lane) o.acc.dest (ty == RedType.f64) (rd.value op ty x.count))) s
      | _, _, _ => s
    (putRound s gid group n x { rd with left := true }).dropOp id

/-- Whether the result of a round can come down its tree: it is complete, and no link of the tree is paused (R434,
R449). -/
def Round.ready (s : State) (rd : Round) (count : Nat) : Bool :=
  rd.complete count && !treeLink (linkPaused s) (rd.tree.getD [])

/-- WRED_ROUND_RESULT (R449, R450): the result of a round reaches a member over its tree, or its failure through
the stewards. -/
def execWredRoundResult (gid group round member : Nat) (s : State) : Host.Outcome State Fault Refusal :=
  match Sp.find? (s.grid gid).groups group with
  | none => .next s
  | some x =>
    match Sp.find? x.rounds round,
        List.find? (fun (e : Nat × MemOp) => (s.block e.2.blk).gid == gid && e.2.kind == .wred group round member) s.ops with
    | some rd, some (id, o) =>
      .next (if rd.lost || rd.ready s x.count then deliverRound s gid group round member id o x rd else s)
    | _, _ => .next s

/-! ## Trees (R450, R456) -/

/-- Every launch with its rounds changed. -/
def mapRounds (s : State) (f : Nat → Nat → Nat → Round → Round) : State :=
  { s with grids := s.grids.map fun e =>
      (e.1, { e.2 with groups := e.2.groups.map fun x =>
        (x.1, { x.2 with rounds := x.2.rounds.map fun r => (r.1, f e.1 x.1 r.1 r.2) }) }) }

/-- A round of a group of a launch changed. -/
def setRound (s : State) (gid n r : Nat) (f : Round → Round) : State :=
  mapRounds s fun g n' r' rd => if g = gid ∧ n' = n ∧ r' = r then f rd else rd

/-- A round fails, if a contribution has entered its tree and its result has not left the root (R450). -/
def Round.fail (rd : Round) : Round := if rd.parts.isEmpty || rd.left then rd else { rd with lost := true }

/-- Rounds whose trees use the link between two domains end PARTIAL_LOST (R450). -/
def breakLink (s : State) (d e : Nat) : State :=
  mapRounds s fun _ _ _ rd =>
    if (rd.tree.getD []).any fun x => x == (d, e) || x == (e, d) then rd.fail else rd

/-- Rounds whose trees use a router end PARTIAL_LOST (R450). -/
def breakRouter (s : State) (d : Nat) : State :=
  mapRounds s fun _ _ _ rd => if (rd.tree.getD []).any fun x => x.1 == d then rd.fail else rd

/-- The rounds that a block leaves undelivered as it is saved end PARTIAL_LOST, but for those whose result is
still delivered to it, since every rank has contributed (R402, R450). DEDUCED (log 125). -/
def loseRounds (s : State) (b : Nat) : State :=
  let gid := (s.block b).gid
  let mine := (s.ops.filter fun e => e.2.blk == b).map fun e => e.2.kind
  mapRounds s fun g n r rd =>
    if g = gid && mine.any fun k => match k with
        | .wred n' r' _ => n' == n && r' == r && !rd.full (Sp.get {} (s.grid gid).groups n).count
        | _ => false then rd.fail else rd

/-- One step of the breadth-first search: the domains of the partition that the front reaches over up links,
each once, in ascending physical number (R456). -/
def treeGrow (s : State) (doms : List Nat) : List (Nat × Nat) → List (Nat × Nat) → List (Nat × Nat)
  | tree, [] => tree
  | tree, (d, _) :: front =>
    let next := doms.filter fun x =>
      !tree.any (·.1 == x) && (List.range 4).any fun i => neighbour d (i + 1) == some x && !linkDown s d (i + 1)
    treeGrow s doms (tree ++ next.map fun x => (x, d)) front

/-- The breadth-first spanning tree from a root, level by level (R456). -/
def treeFrom (s : State) (doms : List Nat) : Nat → List (Nat × Nat) → List (Nat × Nat) → List (Nat × Nat)
  | 0, tree, _ => tree
  | n + 1, tree, front =>
    let t := treeGrow s doms tree front
    treeFrom s doms n t (t.drop tree.length)

/-- A tree serves the rounds issued after it is built, and those that waited for a first tree (R450, R456).
DEDUCED (log 130). -/
def serveRounds (x : Group) (tree : List (Nat × Nat)) : Group :=
  { x with rounds := x.rounds.map fun r => (r.1, if r.2.tree.isNone then { r.2 with tree := some tree } else r.2) }

/-- Build the combining tree of a group of a launch, within its partition (R456, R458). -/
def buildTree (s : State) (vi ident group root : Nat) : State :=
  match List.find? (fun (e : Nat × Grid) => e.2.vi == vi && e.2.ident == ident && !e.2.complete) s.grids, s.physDomain vi root with
  | some (gid, g), some d =>
    let tree := treeFrom s (s.domsOf vi) 64 [(d, d)] [(d, d)]
    let groups := g.groups.map fun x => (x.1, if x.1 = group % 16 then serveRounds x.2 tree else x.2)
    s.setGrid gid { g with trees := Sp.put g.trees (group % 16) tree, groups := groups }
  | _, _ => s

/-- The CTREE register of a virtual interface in a domain's window (R455). -/
def State.setCtree (s : State) (d vi : Nat) (m : Memory) : State :=
  s.setDomain d { s.domain d with ctree := Sp.put (s.domain d).ctree vi m }

/-- CTREE_BUILD (R455, R456): a write of the whole register with GO, in the window of the root domain. -/
def execCtreeBuild (vi ident group root : Nat) (s : State) : Host.Outcome State Fault Refusal :=
  let s := match s.physDomain vi root with
    | some d => s.setCtree d vi (((Memory.write [] 0 8 ident).write 8 1 group).write 9 1 root)
    | none => s
  .next (buildTree s vi ident group root)

end Sys2Proof.Machine
end

