-- ==== Sys2Proof/Machine/Millwright.lean ====
section
/-!
DEFINITION. The millwright: the occupancy samples, the steps of the domains and of the wafer, and the
moves of cores between stages (R336-R339).
-/
namespace Sys2Proof.Machine

/-- Whether a domain holds cores of a mill. -/
def Mill.inDomain (m : Mill) (d : Nat) : Bool := m.held.any fun e => domOf e.1 == d

/-- Whether a decider runs: a domain that holds cores of a mill, or the wafer millwright, as 64 (R336). -/
def Mill.decider (m : Mill) (d : Nat) : Bool := m.started && (d == 64 || m.inDomain d)

/-- OCC_SAMPLE (R336): the occupancy of a race, taken at its home for a step of a decider. -/
def execOccSample (gid race dom : Nat) (s : State) : Host.Outcome State Fault Refusal :=
  let g := s.grid gid
  match g.mill with
  | none => .next s
  | some m =>
    match m.races[race]? with
    | none => .next s
    | some r =>
      if !m.decider dom || g.complete then .next s
      else
        let xs := Sp.put (Sp.get [] m.samples dom) race r.slot.length
        .next (s.setGrid gid { g with mill := some { m with samples := Sp.put m.samples dom xs } })

/-- A fraction: occupancy over SLOTS. -/
abbrev Frac := Nat × Nat

/-- Whether a fraction is less than another. DEDUCED (log 112). -/
def fracLt (a b : Frac) : Bool := decide (a.1 * b.2 < b.1 * a.2)

/-- The sampled fractions of the input or output races of a stage. -/
def fracs (m : Mill) (xs : Sp Nat) (st : Nat) (input : Bool) : List Frac :=
  (m.races.zipIdx.filter fun r => (if input then r.1.cons else r.1.prod) == st).map fun r => (Sp.get 0 xs r.2, r.1.slots)

/-- Whether a stage holds the mill back (R337). -/
def bottleneck (m : Mill) (xs : Sp Nat) (st : Nat) : Bool :=
  let i := fracs m xs st true
  let o := fracs m xs st false
  i.any (fracLt (3, 4)) && (o.isEmpty || o.any fun f => fracLt f (1, 4)) &&
    decide (m.count.getD st 0 < m.maxc.getD st 0)

/-- Whether a stage may give a core of the set `cores` (R337). -/
def donor (m : Mill) (xs : Sp Nat) (cores : List Nat) (st : Nat) : Bool :=
  let i := fracs m xs st true
  let o := fracs m xs st false
  decide (m.minc.getD st 0 < m.count.getD st 0) && (cores.any fun c => Sp.find? m.held c == some st) &&
    ((!i.isEmpty && i.all fun f => fracLt f (1, 8)) || o.any (fracLt (7, 8)))

/-- The greatest of a list of fractions. -/
def maxFrac (fs : List Frac) : Frac := fs.foldl (fun a b => if fracLt a b then b else a) (0, 1)

/-- The bottleneck whose greatest input fraction is greatest; ties to the lower number (R337). -/
def pickBneck (m : Mill) (xs : Sp Nat) (stages : List Nat) : Option Nat :=
  (stages.filter (bottleneck m xs)).foldl (fun b st =>
    match b with
    | none => some st
    | some u => if fracLt (maxFrac (fracs m xs u true)) (maxFrac (fracs m xs st true)) then some st else some u) none

/-- The donor with the most cores above its minimum; ties to the lower number (R337). -/
def pickDonor (m : Mill) (xs : Sp Nat) (cores stages : List Nat) (b : Nat) : Option Nat :=
  let above := fun st => m.count.getD st 0 - m.minc.getD st 0
  (stages.filter fun st => st != b && donor m xs cores st).foldl (fun d st =>
    match d with
    | none => some st
    | some u => if above u < above st then some st else some u) none

/-- The core that a donor gives: with the fewest resident blocks, ties to the higher name (R337). -/
def pickCore (s : State) (cores : List Nat) : Option Nat :=
  (sortBy (fun c => (s.onCore c).length * 65536 + (65535 - s.coreName c)) cores).head?

/-- The cores of a decider's set C: its cores of the mill that are not departing (R337). -/
def deciderCores (m : Mill) (dom : Nat) : List Nat :=
  (Sp.keys m.held).filter fun c => (dom == 64 || domOf c == dom) && (Sp.find? m.departing c).isNone

/-- The cores of a donor that a wafer step considers: those of the domain where it holds most (R337). -/
def busiest (m : Mill) (cores : List Nat) (d : Nat) : List Nat :=
  let mine := cores.filter fun c => Sp.find? m.held c == some d
  let doms := (mine.map domOf).eraseDups
  match (sortBy (fun x => (4096 - (mine.filter (domOf · == x)).length) * 64 + x) doms).head? with
  | none => []
  | some x => mine.filter (domOf · == x)

/-- The move that a step decides on its samples, if any (R337). -/
def decide' (s : State) (m : Mill) (dom : Nat) : Option (Nat × Nat × Nat) :=
  let xs := Sp.get [] m.samples dom
  let cores := deciderCores m dom
  let stages := (List.range m.count.length).filter fun st =>
    dom == 64 || m.held.any fun e => domOf e.1 == dom && e.2 == st
  match pickBneck m xs stages with
  | none => none
  | some b =>
    match pickDonor m xs cores stages b with
    | none => none
    | some d =>
      let cs := if dom = 64 then busiest m cores d else cores.filter fun c => Sp.find? m.held c == some d
      (pickCore s cs).map fun c => (c, d, b)

/-- Whether a hold covers a core of the mill in a domain (R412). -/
def millHeld (s : State) (gid : Nat) (m : Mill) (dom : Nat) : Bool :=
  dom != 64 && m.inDomain dom && held s gid dom

/-- The end of an interval of a decider: its move, by its samples or by the record of a replay (R336-R338, R416). -/
def millwright (s : State) (gid : Nat) (m : Mill) (dom src interval : Nat) : State :=
  let g := s.grid gid
  let vd := s.virtualDomain g.vi src
  let wafer := dom == 64
  let moving := m.mover.any fun e => e.2 == dom
  let pick := match bookNext s gid fun r => recField r 0 1 == 2 && recField r 1 1 == vd && recField r 8 4 == interval &&
      (recField r 16 1 == 1) == wafer with
    | some (some r) => (coreNamed s g.vi (recField r 14 2)).map fun c => (c, recField r 12 1, recField r 13 1)
    | some none => none
    | none => if moving || millHeld s gid m dom then none else decide' s m dom
  let moves := match pick with
    | some (c, d, b) =>
      m.moves ++ [{ core := c, donor := d, bneck := b, src := src, interval := interval, wafer := wafer }]
    | none => m.moves
  s.setGrid gid { g with mill := some { m with
    moves := moves, samples := Sp.del m.samples dom, intervals := Sp.put m.intervals dom (Sp.get 0 m.intervals dom + 1) } }

/-- Whether every sample that a step asked for has arrived (R336). -/
def sampled (m : Mill) (dom : Nat) : Bool :=
  (List.range m.races.length).all fun q => (Sp.find? (Sp.get [] m.samples dom) q).isSome

/-- MILLWRIGHT_STEP (R336, R337): the step of a domain at the end of one of its intervals. -/
def execMillwrightStep (gid dom : Nat) (s : State) : Host.Outcome State Fault Refusal :=
  let g := s.grid gid
  match g.mill with
  | none => .next s
  | some m =>
    if dom ≥ 64 || !m.decider dom || g.complete || !sampled m dom then .next s
    else .next (millwright s gid m dom dom (Sp.get 0 m.intervals dom))

/-- WAFER_MILLWRIGHT_STEP (R336, R337): the wafer step that follows every sixteenth interval of the lead domain.
DEDUCED (log 107). -/
def execWaferMillwrightStep (gid : Nat) (s : State) : Host.Outcome State Fault Refusal :=
  let g := s.grid gid
  match g.mill with
  | none => .next s
  | some m =>
    let led := Sp.get 0 m.intervals m.lead
    if !m.started || g.complete || !sampled m 64 || decide (led / 16 ≤ Sp.get 0 m.intervals 64) then .next s
    else .next (millwright s gid m 64 m.lead (Sp.get 0 m.intervals 64 * 16 + 15))

/-- MOVE_APPLY (R338): the wafer dispatcher applies or drops the next move that has reached it; one whose core departs
already, or serves its donor no longer, is dropped too. DEDUCED (log 181). -/
def execMoveApply (gid : Nat) (s : State) : Host.Outcome State Fault Refusal :=
  let g := s.grid gid
  match g.mill with
  | none => .next s
  | some m =>
    match m.moves with
    | [] => .next s
    | v :: rest =>
      let m := { m with moves := rest }
      let n := fun st => m.count.getD st 0
      if n v.donor ≤ m.minc.getD v.donor 0 || decide (m.maxc.getD v.bneck 0 ≤ n v.bneck) ||
          Sp.find? m.held v.core != some v.donor || (Sp.find? m.departing v.core).isSome then
        .next (s.setGrid gid { g with mill := some m })
      else
        let count := (m.count.set v.donor (n v.donor - 1)).set v.bneck (n v.bneck + 1)
        let s := s.setGrid gid { g with mill := some { m with
          count := count, departing := Sp.put m.departing v.core v.bneck
          mover := Sp.put m.mover v.core (if v.wafer then 64 else v.src) } }
        let vd := s.virtualDomain g.vi v.src
        let s := match bookNext s gid fun r => recField r 0 1 == 2 && recField r 1 1 == vd && recField r 8 4 == v.interval &&
            (recField r 16 1 == 1) == v.wafer with
          | some (some r) => bookUse s gid r
          | _ => logDecision s gid 2 vd 0xFF
              (v.interval + v.donor * 2 ^ 32 + v.bneck * 2 ^ 40 + s.coreName v.core * 2 ^ 48 + (if v.wafer then 2 ^ 64 else 0))
        .next (settleCore s v.core)

end Sys2Proof.Machine
end

