-- ==== Sys2Proof/Machine/Plates.lean ====
section
/-!
DEFINITION. Plates: install descriptors and tickets, PINSTALL and PSTATUS, the engraver's steps, the plate
map's switches, and the flash blocks (R340-R353).
-/
namespace Sys2Proof.Machine

/-! ## Install descriptors (R350) -/

/-- The checks of an install descriptor in ascending offset (R350, R352, R361): a TICKET held BUSY among them. -/
def installChecks (m : Memory) (busy : Nat → Bool) : List (Bool × Nat) :=
  let len := m.read 0x10 8
  let flags := m.read 0x1C 4
  let event := m.read 0x20 2
  [ (m.read 0 8 % 65536 != 0, 0)
  , (m.read 8 8 % 256 != 0, 8)
  , (len % 65536 != 0 || len == 0 || decide (4294967296 < len), 0x10)
  , (m.read 0x18 4 == 0 || busy (m.read 0x18 4), 0x18)
  , (decide (4 ≤ flags), 0x1C)
  , ((event == 0) == bitOf flags 1, 0x20)
  , (m.read 0x22 30 != 0, 0x22) ]

/-- Whether a ticket is held BUSY (R351). -/
def ticketBusy (s : State) (vi ticket : Nat) : Bool :=
  (s.viface vi).tickets.any fun t => t.ticket == ticket && t.code == 2

/-- Whether all 1,024 entries of a ticket table are BUSY (R351). -/
def ticketsFull (s : State) (vi : Nat) : Bool :=
  decide (1024 ≤ ((s.viface vi).tickets.filter (·.code == 2)).length)

/-- The installs that cores of a domain have issued with PINSTALL and that have not ended (R352). -/
def installsOf (s : State) (dom : Nat) : Nat :=
  (s.vis.map fun e => (e.2.tickets.filter fun t => t.dom == some dom && t.accepted.isSome && t.code == 2).length).sum

/-- A new entry of a ticket table: it takes the place of a final entry of its ticket, or, in a full table,
of the oldest final one (R351). DEDUCED (log 114). -/
def addTicket (s : State) (vi : Nat) (x : Install) : State :=
  let v := s.viface vi
  let ts := v.tickets.filter fun t => !(t.ticket == x.ticket && t.code != 2)
  let ts := if 1024 ≤ ts.length then
      match ts.find? (·.code != 2) with
      | some t => ts.erase t
      | none => ts
    else ts
  s.setVI vi { v with tickets := ts ++ [x] }

/-- The installs of a ticket that have no final code: more than one where two were issued before either became BUSY. -/
def busyInstalls (s : State) (vi ticket : Nat) : List Install :=
  (s.viface vi).tickets.filter fun t => t.ticket == ticket && t.code == 2

/-- The install that a step of the engraver names: by its ticket, from 2³² on with its place among the ticket's BUSY
entries. DEDUCED (log 114). -/
def busyEntry (s : State) (vi name : Nat) : Option Install := (busyInstalls s vi (name % 2 ^ 32))[name / 2 ^ 32]?

/-- Replace an install in the table. -/
def setTicket (s : State) (vi : Nat) (old new : Install) : State :=
  let v := s.viface vi
  s.setVI vi { v with tickets := v.tickets.replace old new }

/-- The install of a descriptor that passes its checks. -/
def parseInstall (m : Memory) (asn : Nat) : Install :=
  { ticket := m.read 0x18 4, dest := m.read 0 8, src := m.read 8 8, len := m.read 0x10 8
    skip := bitOf (m.read 0x1C 4) 0, event := m.read 0x20 2, asn := asn }

/-! ## PINSTALL and PSTATUS (R352, R353) -/

/-- The way of the messages that read a descriptor's 64 bytes at a page, if its bytes must be asked for. -/
def descWay (s : State) (core pa : Nat) (t : TlbEnt) : Way :=
  let d := domOf core
  let line := lineOf pa
  if t.plate then (if plateHeld s d line then .crosses else wayTo s d (homeOf pa))
  else if t.nc then wayTo s d (homeOf pa)
  else if ((s.l1Line (sliceOf s core line) line).getD {}).has (pa % 256) 64 then .crosses
  else l2Way s d line (pa % 256) 64

/-- The descriptor's 64 bytes as PINSTALL reads them: the checks of R126, then one access. -/
def descRead (s : State) (core : Nat) (va : DWord) : Except Cond (Except State (Nat × Option Nat)) × State :=
  let cond := fun (cause : Cause) reason sys =>
    ({ cause := cause, reason := reason, addr := va.toNat, info := if cause = .integrity then 0 else 8, sys := sys } : Cond)
  if !canonical va then (.error (cond .translate 4 false), s)
  else if va.toNat % 64 != 0 then (.error (cond .misalign 0 false), s)
  else
    let vi := s.viOf s.iss.blk
    match translate s core vi (s.asnOf s.iss.blk) (va.toNat % 2 ^ 57) {} with
    | (.wait, s) => (.ok (.error s), s)
    | (.fault c r, s) => (.error (cond c r true), s)
    | (.ok t, s) =>
      match checkGlobal s vi (s.asnOf s.iss.blk) (va.toNat % 2 ^ 57) t true false with
      | some c => (.error (cond c.1 c.2 true), s)
      | none =>
        let pa := t.phys (va.toNat % 2 ^ 57)
        match descWay s core pa t with
        | .waits => (.ok (.error s), s)
        | .dropped at_ _ => (.error (cond .integrity 2 true), noteDrop (drawClasses s) at_)
        | .crosses =>
          match (if t.plate then plateLoad s (domOf core) pa 64 .normal
              else if t.nc then (do readHome (← cleanToHome s core (lineOf pa)) (domOf core) pa 64)
              else loadL1 s core pa 64 .normal : TryRead) with
          | .error s => (.ok (.error s), s)
          | .ok (s, v) => (.ok (.ok v), s)

/-- PINSTALL (R352): its checks, and a release; the ticket becomes BUSY when FENCE_COMPLETE ends that.
DEDUCED (log 117). -/
def execPinstall (ka : KReg) (s : State) : Host.Outcome State Fault Refusal :=
  let core := (s.block s.iss.blk).core
  let vi := s.viOf s.iss.blk
  let q := descRead s core (s.wft.kpair ka.toNat)
  let waits := match q.1 with
    | .ok (.error _) => true
    | _ => false
  issue { permitted := fun k => k.permits .memory, regs := [] }
    (fun s => issueBusy s [] [(ka.toNat, 2)] || lanesPending s || waits ||
      missStall s [(s.wft.kpair ka.toNat).toNat] || ticketsFull s vi ||
      decide (64 ≤ installsOf s (domOf core)))
    (fun s' =>
      let s1 := q.2.withIssue s'
      let va := (s.wft.kpair ka.toNat).toNat
      match q.1 with
      | .error c => raiseAll s1 c
      | .ok (.error s2) => s2
      | .ok (.ok (_, some r)) => raiseAll s1 { cause := .uncorrectable, reason := r, addr := va, info := 8, sys := true }
      | .ok (.ok (x, none)) =>
        let m := Memory.write [] 0 64 x
        match firstBreach (installChecks m (ticketBusy s vi)) with
        | some o => trapAll s1 { cause := .mxparam, addr := va, info := o }
        | none => holdLanes s1 (waitOp s1 (.install (m.read 0 8) (m.read 8 8) (m.read 0x10 8) (m.read 0x18 4)
            (m.read 0x1C 4) (m.read 0x20 2)))) s

/-- The ticket entry of a PINSTALL whose release is complete (R352). -/
def installTicket (s : State) (o : MemOp) (dest src len ticket flags event : Nat) : State :=
  addTicket s (s.viOf o.blk)
    { ticket := ticket, dest := dest, src := src, len := len, skip := bitOf flags 0, event := event
      asn := s.asnOf o.blk, dom := some (domOf o.core) }

/-- The code of a ticket, as PSTATUS reports it (R351, R353): BUSY while an install of it is, else that of the
latest. -/
def ticketCode (s : State) (vi ticket : Nat) : Nat :=
  if ticketBusy s vi ticket then 2
  else
    match (s.viface vi).tickets.reverse.find? (·.ticket == ticket) with
    | some t => t.code
    | none => 9

/-- PSTATUS (R353): the ticket's code; a final code acquires at DOM scope. -/
def execPstatus (kd ka : KReg) (s : State) : Host.Outcome State Fault Refusal :=
  issue { permitted := fun k => k.permits .memory, regs := [] }
    (fun s => issueBusy s [] [(kd.toNat, 1), (ka.toNat, 1)])
    (fun s =>
      let c := ticketCode s (s.viOf s.iss.blk) (s.wft.kreg ka.toNat).toNat
      let s := s.setWeft s.iss.blk s.iss.weft (s.wft.setK kd.toNat (BitVec.ofNat 32 c))
      if c = 2 ∨ c = 9 then advanceAll s else holdLanes s (waitOp s (.fence .acq .dom))) s

/-! ## Final codes (R347, R351) -/

/-- Whether a page of an install is final. -/
def PageState.final : PageState → Bool
  | .done => true
  | .skipped => true
  | .failed => true
  | _ => false

/-- Give an install its final code: its entry moves to the end, its budget is refunded, its event raised
and its node told (R350, R351, R353, R361). The budget stops at its greatest value. DEDUCED (log 164). -/
def finishInstall (s : State) (vi : Nat) (x : Install) (code : Nat) : State :=
  let v := s.viface vi
  let back := 65536 * (x.pages.filter fun p => p.pst == .skipped || p.pst == .failed).length
  let s := s.setVI vi { v with
    tickets := v.tickets.erase x ++ [{ x with code := code, pages := [] }]
    ibudget := min (v.ibudget + back) (2 ^ 64 - 1) }
  let s := raiseEvent s vi x.event
  match x.node with
  | some (q, n) => if code ≤ 1 then nodeOutcome s q n 0 0 else nodeOutcome s q n (0x20 + code) x.ticket
  | none => s

/-- Put an install back, and end it if its every page is final (R351). -/
def settleInstall (s : State) (vi : Nat) (old new : Install) : State :=
  let s := setTicket s vi old new
  if new.pages.all (·.pst.final) then finishInstall s vi new (new.fail.getD (if new.remapped then 1 else 0)) else s

/-- Whether a page of an install stops with it: one that is neither switching nor final (R347). -/
def InstPage.stops (p : InstPage) : Bool := !(p.pst == .switching || p.pst.final)

/-- Stop the pages of an install that are not yet switching, with a code; where none of them is left, the install keeps
its own (R347, R351). -/
def stopPages (x : Install) (code : Nat) : Install :=
  { x with
    fail := if x.pages.isEmpty || x.pages.any (·.stops) then some (x.fail.getD code) else x.fail
    pages := x.pages.map fun p => if p.stops then { p with pst := .failed, data := [] } else p }

/-- A page of an install that has been accepted, if it stands in a state. -/
def pageOf (s : State) (vi name page : Nat) (st : PageState) : Option (Install × InstPage) :=
  (busyEntry s vi name).bind fun x => (x.pages[page]?).bind fun p => if p.pst = st then some (x, p) else none

/-- An install with one page replaced. -/
def Install.withPage (x : Install) (i : Nat) (p : InstPage) : Install := { x with pages := x.pages.set i p }

/-! ## Acceptance (R350) -/

/-- The plate pages of an install from page `i` on, if each is an installable leaf in plate space (R350). -/
def destPages (vi : Nat) (x : Install) : Nat → Nat → State → List InstPage → DevRes (Option (List InstPage) × State)
  | 0, _, s, ps => .ok (some ps.reverse, s)
  | n + 1, i, s, ps =>
    let va := x.dest + 65536 * i
    match devWalk s vi x.asn va false with
    | .wait => .wait
    | .fault _ s => .ok (none, s)
    | .ok (t, s) =>
      let pa := t.phys (va % 2 ^ 57)
      if t.plate && t.w && regionOf s pa == .plate then
        destPages vi x n (i + 1) s ({ dest := pa / 65536 * 65536, src := x.src + 65536 * i } :: ps)
      else .ok (none, s)

/-- INSTALL_ACCEPT (R350): the engraver accepts the install that was issued first, or refuses it at once.
DEDUCED (log 113). -/
def execInstallAccept (vi ticket : Nat) (s : State) : Host.Outcome State Fault Refusal :=
  match (s.viface vi).tickets.find? fun t => t.code == 2 && t.accepted.isNone with
  | none => .next s
  | some x =>
    if x.ticket ≠ ticket then .next s
    else
      match destPages vi x (x.len / 65536) 0 s [] with
      | .wait => .next s
      | .fault _ s => .next s
      | .ok (none, s) => .next (finishInstall s vi x 6)
      | .ok (some ps, s) =>
        let v := s.viface vi
        if v.ibudget < x.len then .next (finishInstall s vi x 3)
        else
          let s := s.setVI vi { v with ibudget := v.ibudget - x.len }
          .next { (setTicket s vi x { x with accepted := some s.nextOp, pages := ps }) with nextOp := s.nextOp + 1 }

/-- TICKET_ABORT (R351): system software aborts a ticket. -/
def execTicketAbort (vi ticket : Nat) (s : State) : Host.Outcome State Fault Refusal :=
  .next ((busyInstalls s vi ticket).foldl (fun s x => settleInstall s vi x (stopPages x 8)) s)

/-! ## The engraver (R347, R349) -/

/-- Addresses that lie one in every 4 KiB page that a source page meets. -/
def sourceVas (va : Nat) : List Nat := ((List.range 16).map fun i => va + 4096 * i) ++ [va + 65535]

/-- Whether a source page is one that the engraver may not read: at some address it is untranslatable, not
readable, a plate or NC (R349). -/
def sourceBad (vi asn : Nat) : List Nat → State → DevRes (Bool × State)
  | [], s => .ok (false, s)
  | a :: as, s =>
    match devWalk s vi asn a false with
    | .wait => .wait
    | .fault _ s => .ok (true, s)
    | .ok (t, s) => if !t.r || t.plate || t.nc then .ok (true, s) else sourceBad vi asn as s

/-- A page of an install fails with a code, and the install's other pages stop (R347). -/
def failPage (s : State) (vi : Nat) (x : Install) (i : Nat) (p : InstPage) (code : Nat) : State :=
  settleInstall s vi x (stopPages { (x.withPage i { p with pst := .failed, data := [] }) with
    fail := some (x.fail.getD code) } code)

/-- ENGRAVE_READ (R347, R349): the next page of a home reads its source; a page equal to the current version's stored
bytes is skipped, a codeword that cannot be corrected among them or not. DESIGN CHOICE (log 183). -/
def execEngraveRead (vi ticket page : Nat) (s : State) : Host.Outcome State Fault Refusal :=
  match pageOf s vi ticket page .queued with
  | none => .next s
  | some (x, p) =>
    let earlier := (x.pages.take page).any fun y => y.pst == .queued && homeOf y.dest == homeOf p.dest
    if earlier then .next s
    else
      match (sourceBad vi x.asn (sourceVas p.src) s).bind (fun b =>
        if b.1 then .fault p.src b.2 else devRead b.2 vi x.asn p.src 65536) with
      | .wait => .next s
      | .fault _ s => .next (failPage s vi x page p 7)
      | .ok (m, s) =>
        if x.skip && m.read 0 65536 == plateRead s p.dest 65536 then
          .next (settleInstall s vi x (x.withPage page { p with pst := .skipped }))
        else .next (setTicket s vi x (x.withPage page { p with pst := .programming, data := m }))

/-! ## Flash blocks (R342, R343) -/

/-- Whether a block in service is open, or free (R342). -/
def isOpen (x : Domain) (b : Nat) : Bool := inService x b && decide (0 < (x.fblock b).used) && decide ((x.fblock b).used < 64)
def isFree (x : Domain) (b : Nat) : Bool := inService x b && decide ((x.fblock b).used = 0)

/-- The blocks that have been programmed and are open now. -/
def openBlocks (x : Domain) (tried : List Nat) : List Nat := (Sp.keys x.fblocks).filter fun b => isOpen x b && !tried.contains b

/-- Blocks in order of number, among which one is free and not tried wherever any is: one more than those
that have been used or tried. -/
def freeCandidates (x : Domain) (tried : List Nat) : List Nat :=
  (List.range (min (x.flashGib * 256 + (8192 - x.spare)) (x.fblocks.length + tried.length + 1))).map fun i =>
    if i < x.flashGib * 256 then i else 131072 + (i - x.flashGib * 256)

/-- Whether a block is free among all that are in service. -/
def anyFree (x : Domain) (tried : List Nat) : Bool :=
  (freeCandidates x tried).any fun b => isFree x b && !tried.contains b

/-- Retire a block: it is replaced from the reserve while that lasts (R343). -/
def retireBlock (x : Domain) (b : Nat) : Domain :=
  { x with fblocks := Sp.put x.fblocks b { x.fblock b with retired := true }
           retired := min (x.retired + 1) 65535, spare := x.spare - 1 }

/-- An install notes that a block of a domain retires while pages of it there are programmed or verified (R351).
DEDUCED (log 163). -/
def Install.noteRetired (x : Install) (d : Nat) : Install :=
  { x with remapped := x.remapped || x.pages.any fun p =>
      (p.pst == .programming || p.pst == .verifying) && homeOf p.dest == d }

/-- A block of a domain retires, once, and the orrery reports it (R343, R351). -/
def retireAt (s : State) (d b : Nat) : State :=
  if ((s.domain d).fblock b).retired then s
  else
    let s := s.setDomain d (retireBlock (s.domain d) b)
    refreshOrrery { s with vis := s.vis.map fun e => (e.1, { e.2 with tickets := e.2.tickets.map (·.noteRetired d) }) } d

/-- The slots of a block that a map entry names (R342). -/
def liveSlots (x : Domain) (b : Nat) : List (Nat × PlateEnt) := List.filter (fun e => e.2.slot / 64 == b) x.plateMap

/-- Whether a page holds a slot that no map entry names yet: it is being verified, or waits to switch. -/
def InstPage.placed (p : InstPage) : Bool := p.pst == .verifying || p.pst == .switching

/-- Whether a slot of a block is still needed beside the map: a page is being verified or switched there, or
a switch is not yet acknowledged (R348). -/
def pendingSlot (s : State) (d b : Nat) : Bool :=
  ((s.domain d).switching.any fun e => match e.2 with
    | some slot => slot / 64 == b
    | none => false) ||
  ((s.domain d).moves.any fun p => p.placed && p.slot / 64 == b) ||
  s.vis.any fun e => e.2.tickets.any fun t => t.pages.any fun p => p.placed && homeOf p.dest == d && p.slot / 64 == b

/-- Whether a plate page's slot is about to be replaced: the page stands in another slot that it is being moved to, or
one that an install switches it to (R342, R347). -/
def replaced (s : State) (d page slot : Nat) : Bool :=
  let here := fun (p : InstPage) => homeOf p.dest == d && platePage p.dest == page
  ((s.domain d).moves.any fun p => here p && (if p.keeps then p.placed && p.src == slot else p.pst == .switching)) ||
    s.vis.any fun e => e.2.tickets.any fun t => t.pages.any fun p => here p && p.pst == .switching

/-- Whether a block can still be made free where none has an unprogrammed slot: some block is full, and every slot of
it is stale or about to be (R342, R343). -/
def canFree (s : State) (d : Nat) : Bool :=
  let x := s.domain d
  (Sp.keys x.fblocks).any fun b =>
    inService x b && decide ((x.fblock b).used = 64) && (liveSlots x b).all fun e => replaced s d e.1 e.2.slot

/-- A page whose block has failed: it goes on with another block, or has failed on three (R347). -/
def InstPage.another (p : InstPage) (b : Nat) : InstPage :=
  let p := { p with tried := p.tried ++ [b], pst := .programming }
  if 3 ≤ p.tried.length then { p with pst := .failed, data := [] } else p

/-- A block has failed under an install's page: it retires; the page goes on with another block, or has
failed on three (R343, R347, R351). -/
def blockFailed (s : State) (vi name : Nat) (x : Install) (i : Nat) (p : InstPage) (b : Nat) : State :=
  let s := retireAt s (homeOf p.dest) b
  let x := (busyEntry s vi name).getD x
  let p := p.another b
  if p.pst = .failed then failPage s vi x i p 5 else setTicket s vi x (x.withPage i p)

/-- The next slot of an open or free block is programmed with a page's data: the domain with it, and the slot. -/
def programSlot (x : Domain) (fblk : Nat) (data : Memory) : Domain × Nat :=
  let f := x.fblock fblk
  let slot := fblk * 64 + f.used
  ({ x with
    fblocks := Sp.put x.fblocks fblk { f with used := f.used + 1 }, flash := Sp.put x.flash slot data
    flashBad := x.flashBad.filter (· / 16 != slot) }, slot)

/-- ENGRAVE_PROGRAM (R347): a page is programmed into the next slot of an open block, or of a free one where
none is open; `ok` is 0 where the programming fails. DESIGN CHOICE (log 116). -/
def execEngraveProgram (vi ticket page fblk ok : Nat) (s : State) : Host.Outcome State Fault Refusal :=
  match pageOf s vi ticket page .programming with
  | none => .next s
  | some (x, p) =>
    let d := homeOf p.dest
    let dom := s.domain d
    let opened := openBlocks dom p.tried
    if opened.isEmpty && !anyFree dom p.tried then
      (if canFree s d then .next s else .next (failPage s vi x page p 4))
    else if p.tried.contains fblk || !(opened.contains fblk || (opened.isEmpty && isFree dom fblk)) then .next s
    else if ok = 0 then .next (blockFailed s vi ticket x page p fblk)
    else
      let r := programSlot dom fblk p.data
      .next (setTicket (s.setDomain d r.1) vi x (x.withPage page { p with pst := .verifying, slot := r.2 }))

/-- ENGRAVE_VERIFY (R347): the slot reads back within the margin, or its block fails where `ok` is 0. -/
def execEngraveVerify (vi ticket page ok : Nat) (s : State) : Host.Outcome State Fault Refusal :=
  match pageOf s vi ticket page .verifying with
  | none => .next s
  | some (x, p) =>
    if ok = 0 then .next (blockFailed s vi ticket x page p (p.slot / 64))
    else .next (setTicket s vi x (x.withPage page { p with pst := .switching }))

/-- Whether an install accepted earlier has still to switch the same plate page, or a page of a dropped ticket has
(R347, R348). -/
def switchBlocked (s : State) (x : Install) (p : InstPage) : Bool :=
  ((s.domain (homeOf p.dest)).moves.any fun y => y.dest == p.dest && !y.keeps) ||
  s.vis.any fun e => e.2.tickets.any fun t =>
    t.code == 2 && (match t.accepted, x.accepted with | some a, some b => decide (a < b) | _, _ => false) &&
      t.pages.any fun y => y.dest == p.dest && !y.pst.final

/-- A plate page's lines in every L2 of a partition are invalid, and every frame of its weight banks that holds the
page becomes EMPTY, at once where it is VALID, else as its staging ends (R348). -/
def dropFrames (s : State) (dest : Nat) : State :=
  let part := s.partOf (homeOf dest)
  { s with
    domains := s.domains.map fun e =>
      (e.1, if part.testBit e.1 then { e.2 with plates := List.filter (fun l => l.1 / 256 != dest / 65536) e.2.plates } else e.2)
    cores := s.cores.map fun e =>
      if part.testBit (domOf e.1) then
        (e.1, { e.2 with
          bank := (List.filter (fun f => !(f.2.tag == dest && f.2.valid)) e.2.bank).map fun f =>
            (f.1, if f.2.tag = dest then { f.2 with stale := true } else f.2)
          bankUse := e.2.bankUse.filter fun n =>
            match Sp.find? e.2.bank n with
            | some f => !(f.tag == dest && f.valid)
            | none => true })
      else e }

/-- No copy of the old version of a page is left, and its old slot is stale (R348). -/
def switchDone (s : State) (dest : Nat) : State :=
  let d := homeOf dest
  dropFrames (s.setDomain d { s.domain d with switching := Sp.del (s.domain d).switching (platePage dest) }) dest

/-- How a page that is to switch stands: no switch of its plate page is under way; its own is, with the map entry
written; or another's is. -/
inductive SwitchStep where
  | idle
  | written
  | other
  deriving DecidableEq, Repr

/-- How a page that is to switch stands (R348). -/
def switchStep (s : State) (p : InstPage) : SwitchStep :=
  let x := s.domain (homeOf p.dest)
  let n := platePage p.dest
  if (Sp.find? x.switching n).isNone then .idle
  else if (Sp.find? x.plateMap n).map (·.slot) = some p.slot then .written
  else .other

/-- Step 1 of a switch: the map entry names the new slot, with the next version, or with its own where the page only
moves (R342, R348). -/
def writeMap (s : State) (p : InstPage) : State :=
  let d := homeOf p.dest
  let n := platePage p.dest
  let e := Sp.find? (s.domain d).plateMap n
  let v := (e.map (·.version)).getD 0
  s.setDomain d { s.domain d with
    plateMap := Sp.put (s.domain d).plateMap n { slot := p.slot, version := if p.keeps then v else (v + 1) % 2 ^ 32 }
    switching := Sp.put (s.domain d).switching n (e.map (·.slot)) }

/-- PLATE_SWITCH (R348): the map entry takes the new slot and the next version; taken again, every L2 and
every bank has acknowledged, and the page is DONE. DEDUCED (log 115). -/
def execPlateSwitch (vi ticket page : Nat) (s : State) : Host.Outcome State Fault Refusal :=
  match pageOf s vi ticket page .switching with
  | none => .next s
  | some (x, p) =>
    match switchStep s p with
    | .other => .next s
    | .written => .next (settleInstall (switchDone s p.dest) vi x (x.withPage page { p with pst := .done, data := [] }))
    | .idle => if switchBlocked s x p then .next s else .next (writeMap s p)

/-! ## Reclaiming and erasing (R342, R343) -/

/-- The live page of a block that moves next as the block is reclaimed: the lowest that reads without error and is
in no switch and does not move yet (R342, R347). -/
def nextMove (x : Domain) (dom fblk : Nat) : Option InstPage :=
  ((liveSlots x fblk).find? fun e =>
    (Sp.find? x.switching e.1).isNone && !(x.flashBad.any (· / 16 == e.2.slot)) &&
      !x.moves.any (platePage ·.dest == e.1)).map fun e =>
    { dest := dom * 2 ^ 46 + 2 ^ 44 + e.1 * 65536, src := e.2.slot, pst := .programming
      data := Sp.get [] x.flash e.2.slot, keeps := true }

/-- The `k`-th of the pages that a domain's engraver moves takes another form, or is over. -/
def setMove (s : State) (dom k : Nat) (p : Option InstPage) : State :=
  let x := s.domain dom
  s.setDomain dom { x with moves := match p with
    | some p => x.moves.set k p
    | none => x.moves.eraseIdx k }

/-- A block fails under a page that is being moved: it retires, and the page goes on with another block; after three,
it stays where it is (R342, R343, R347). -/
def moveFailed (s : State) (dom k : Nat) (p : InstPage) (b : Nat) : State :=
  let p := p.another b
  setMove (retireAt s dom b) dom k (if p.pst = .failed then none else some p)

/-- Program a page that is moved into the next slot of a block other than its own: an open one, or a free one where none
is open; where no free block can be had, it stays where it is (R342, R347). -/
def moveProgram (s : State) (dom k dest : Nat) (p : InstPage) : State :=
  let x := s.domain dom
  let barred := p.tried ++ [p.src / 64]
  let opened := openBlocks x barred
  if opened.isEmpty && !anyFree x barred then (if canFree s dom then s else setMove s dom k none)
  else if barred.contains dest || !(opened.contains dest || (opened.isEmpty && isFree x dest)) then s
  else if Config.flashFails s.fresh.1 then moveFailed s.fresh.2 dom k p dest
  else
    let r := programSlot x dest p.data
    setMove (s.fresh.2.setDomain dom r.1) dom k (some { p with pst := .verifying, slot := r.2 })

/-- The next state of a page that a domain's engraver moves: it is programmed into a slot of the block `dest`, then
verified, then switched (R342, R347, R348). -/
def moveStep (s : State) (dom k dest : Nat) (p : InstPage) : State :=
  match p.pst with
  | .programming => moveProgram s dom k dest p
  | .verifying =>
    if Config.flashFails s.fresh.1 then moveFailed s.fresh.2 dom k p (p.slot / 64)
    else setMove s.fresh.2 dom k (some { p with pst := .switching })
  | .switching =>
    match switchStep s p with
    | .other => s
    | .written => setMove (switchDone s p.dest) dom k none
    | .idle =>
      let named := (Sp.find? (s.domain dom).plateMap (platePage p.dest)).map (·.slot)
      if p.keeps && named != some p.src then setMove s dom k none else writeMap s p
  | _ => setMove s dom k none

/-- BLOCK_RECLAIM (R342): the engraver begins to move a live page of a block that also holds stale slots to another
block, with its version; or, where `fblk` is 2²⁴ + k, the `k`-th of the pages that it moves takes its next state.
DESIGN CHOICE (log 165). -/
def execBlockReclaim (dom fblk dest : Nat) (s : State) : Host.Outcome State Fault Refusal :=
  let x := s.domain dom
  if 2 ^ 24 ≤ fblk then
    match x.moves[fblk - 2 ^ 24]? with
    | some p => .next (moveStep s dom (fblk - 2 ^ 24) dest p)
    | none => .next s
  else if (x.fblock fblk).used ≤ (liveSlots x fblk).length || pendingSlot s dom fblk then .next s
  else
    match nextMove x dom fblk with
    | none => .next s
    | some p => .next (s.setDomain dom { x with moves := x.moves ++ [p] })

/-- BLOCK_ERASE (R342, R343): a block all of whose slots are stale is erased and free again, or retired:
at its rated wear, or where `ok` is 0 and the erase fails. -/
def execBlockErase (dom fblk ok : Nat) (s : State) : Host.Outcome State Fault Refusal :=
  let x := s.domain dom
  let f := x.fblock fblk
  if !inService x fblk || f.used < 64 || !(liveSlots x fblk).isEmpty || pendingSlot s dom fblk then .next s
  else
    let f' := { f with used := 0, wear := f.wear + 1 }
    let x' := { x with
      fblocks := Sp.put x.fblocks fblk f', flash := List.filter (fun e => e.1 / 64 != fblk) x.flash
      flashBad := x.flashBad.filter (· / 1024 != fblk) }
    let s := s.setDomain dom x'
    if ok = 0 || decide (5000 ≤ f'.wear) then .next (retireAt s dom fblk) else .next (refreshOrrery s dom)

/-- PLWEAR (R344). -/
def plwear (x : Domain) : Nat := maxWear x + x.spare * 2 ^ 16 + x.retired * 2 ^ 32

end Sys2Proof.Machine
end

