-- ==== Sys2Proof/Machine/Complete.lean ====
section
/-!
DEFINITION. The completion of fences, of the releases that other instructions perform, and of their last
steps (R252-R257, R308, R330, R352, R373).
-/
namespace Sys2Proof.Machine

/-- Whether every command queued on an array before an operation has completed (R308). -/
def arrayDrained (s : State) (core part id : Nat) : Bool :=
  !((s.array core part).queue.any fun c => decide (c.op < id))

/-- The translation of `n` bytes from a VA, page by page; a page that does not translate is skipped (R216, R257). -/
def cwbPages (s : State) (o : MemOp) : Nat → Nat → Nat → Try
  | 0, _, _ => .ok s
  | fuel + 1, va, n =>
    if n = 0 then .ok s
    else
      let skip := fun (s : State) (bits : Nat) =>
        let k := min n (2 ^ bits - va % 2 ^ bits)
        (s, (va + k) % 2 ^ 64, n - k)
      if !canonical (BitVec.ofNat 64 va) then let r := skip s 12; cwbPages r.1 o fuel r.2.1 r.2.2
      else
        match translate s o.core (s.viOf o.blk) (s.asnOf o.blk) (va % 2 ^ 57) {} with
        | (.wait, s) => .error s
        | (.fault _ _, s) => let r := skip s 12; cwbPages r.1 o fuel r.2.1 r.2.2
        | (.ok t, s) => let r := skip s t.bits; cwbPages r.1 o fuel r.2.1 r.2.2

/-- A CWB, as far as it can go (R257): once every earlier store of its lanes has reached the L1, it translates the
range and cleans; it may clean more lines than the range, and cleans all. DEDUCED (log 65). -/
def cwbTry (s : State) (id : Nat) (o : MemOp) (sc : Scope) (va len : Nat) : Try :=
  if earlierPending s id o AccFn.isStore then .error s
  else do releaseTry (← cwbPages s o (len / 4096 + 2) va len) o.core sc

/-- What a waiting operation does once it can complete; as far as it can go, where it cannot yet. -/
def completeOp (s : State) (id : Nat) (o : MemOp) : Try :=
  match o.kind with
  | .fence k sc => do .ok (freeLanes (← fenceTry s id o k sc) id o)
  | .sealOp base len => do
    let s ← opRelease s id o .waf
    let vi := s.viOf o.blk
    let s := s.setVI vi { s.viface vi with
      seals := (s.viface vi).seals ++ [{ asn := s.asnOf o.blk, base := base, len := len }] }
    .ok (s.setOp id { o with kind := .sealed })
  | .unsealed => do .ok (freeLanes (← opRelease s id o .waf) id o)
  | .cwb sc va len => do .ok (freeLanes (← cwbTry s id o sc va len) id o)
  | .evsig n => do
    let s ← opRelease s id o .waf
    .ok (freeLanes (raiseEvent s (s.viOf o.blk) n) id o)
  | .install dest src len ticket flags event => do
    let s ← opRelease s id o .waf
    if ticketsFull s (s.viOf o.blk) then .error s
    else .ok (freeLanes (installTicket s o dest src len ticket flags event) id o)
  | .rclose q => do
    let s ← opRelease s id o (((raceOf s o.blk q).map fun r => effScope r o.core).getD .dom)
    .ok (closeRace (s.dropOp id) o q)
  | .mxfence part => if arrayDrained s o.core part id then .ok (freeLanes s id o) else .error s
  | _ => .ok s

/-- FENCE_COMPLETE (R252-R257, R308, R330, R352, R373): a waiting operation completes, or goes as far as it can. -/
def execFenceComplete (op : Nat) (s : State) : Host.Outcome State Fault Refusal :=
  match s.op? op with
  | none => .next s
  | some o =>
    match completeOp s op o with
    | .ok s => .next s
    | .error s => .next s

/-- EVSIG (R373): a release at WAF scope, and then the event, in FENCE_COMPLETE. -/
def execEvsig (ka : KReg) (s : State) : Host.Outcome State Fault Refusal :=
  issue { permitted := fun k => k.permits .sync, regs := [] } (fun s => issueBusy s [] [(ka.toNat, 1)])
    (fun s => holdLanes s (waitOp s (.evsig ((s.wft.kreg ka.toNat).toNat % 2 ^ 16)))) s

end Sys2Proof.Machine
end

