-- ==== Sys2Proof/Machine/Faults.lean ====
section
/-!
DEFINITION. The answers of system software to fault-queue entries, and the parity errors of L1 tags
(R220, R384-R386, R391, R394, R456).
-/
namespace Sys2Proof.Machine

/-! ## Handles (R384, R456) -/

/-- The entry index of a weft in the fault queue of its core partition (R384). -/
def entryIndex (s : State) (b : Nat) (x : Weft) : Nat :=
  let p := match s.width b with
    | 8 => x.pos
    | 16 => 2 * x.pos
    | _ => 0
  4 * x.row + p

/-- The virtual interface that a fault-queue entry belongs to. -/
def faultVI (s : State) : FaultRef → Nat
  | .weft b _ => s.viOf b
  | .engine core slot => s.viOf (Sp.get {} (s.core core).copies slot).blk

/-- The handle of a posted entry (R456). -/
def handleOf (s : State) (f : FaultRef) : Nat :=
  let vi := faultVI s f
  let place := fun (core part index : Nat) =>
    2 ^ 39 + s.virtualDomain vi (domOf core) * 2 ^ 24 + s.coreName core * 2 ^ 8 + part * 2 ^ 6 + index
  match f with
  | .weft b w => let x := s.weft b w; place (s.block b).core x.part (entryIndex s b x)
  | .engine core slot => 2 ^ 32 + place core 0 slot

/-- The 48-byte entry that stands at a reference, as FQDATA reads it (R384, R455). -/
def faultData (s : State) : FaultRef → Option FqEntry
  | .weft b w => (s.weft b w).park
  | .engine core slot => (Sp.get {} (s.core core).copies slot).fault

/-- FQPOP (R456): the handle of the oldest entry of the virtual interface that no read has returned, or 0. -/
def execFqpop (vi : Nat) (s : State) : Host.Outcome State Fault Refusal :=
  let v := s.viface vi
  match List.find? (fun f => faultVI s f == vi && !s.popped.contains f) s.faults with
  | some f => .next { s.setVI vi { v with fqLast := handleOf s f } with popped := s.popped ++ [f] }
  | none => .next (s.setVI vi { v with fqLast := 0 })

/-- The entry that a handle names: it has been returned and not yet answered (R456). -/
def answered (s : State) (vi handle : Nat) : Option FaultRef :=
  List.find? (fun f => faultVI s f == vi && handleOf s f == handle) s.popped

/-- An entry is ended: its place in the queue is free (R385). -/
def State.unpost (s : State) (f : FaultRef) : State :=
  { s with faults := s.faults.filter (· != f), popped := s.popped.filter (· != f) }

/-! ## The end of an entry (R385, R386, R394) -/

/-- Stand a lane under DELIVER at the instruction that it is to reissue (R385). -/
def armDeliver (b w : Nat) (s : State) (l : Nat) : State := s.setThread b w l { s.thread b w l with deliver := true }

/-- What a park captured of a lane is re-injected under DELIVER (R385). -/
def armParked (b w : Nat) (s : State) (l : Nat) : State :=
  let t := s.thread b w l
  if t.parkq.isEmpty then s else s.setThread b w l { t with parkq := t.parkq.map fun p => { p with deliver := true } }

/-- Withdraw the waiting race request of a lane, which then stands at its instruction again (R321). -/
def leaveRace (b w : Nat) (s : State) (l : Nat) : State :=
  let t := s.thread b w l
  match t.tst, t.wait with
  | .wait, .race q kd recv =>
    let s := match raceOf s b q with
      | none => s
      | some r =>
        let x := raceReq b w kd
        setRace s (s.block b).gid q
          (if recv then { r with receivers := r.receivers.erase x } else { r with reservers := r.reservers.erase x })
    s.setThread b w l { t with tst := .run, wait := .none }
  | _, _ => s

/-- DELIVER of a parity error traps every lane that has a thread to trap; one that waits, once its wait is met
(R136, R386, R394). DEDUCED (log 39). -/
def deliverParity (b w : Nat) (s : State) (l : Nat) : State :=
  match (s.thread b w l).tst with
  | .run => enterTrap s b w l parityCond
  | .wait => s.setThread b w l { s.thread b w l with due := true }
  | .trap => deliverTrap s b w l parityCond 0 0
  | .empty => s
  | .done => s

/-- End the entry of a weft by RESUME or DELIVER (R385, R386): its lanes reissue the instruction, or re-inject what
was captured of them before their next ones. -/
def resumeWeft (s : State) (b w : Nat) (deliver : Bool) : State :=
  let x := s.weft b w
  match x.park with
  | none => s
  | some e =>
    let deliver := deliver && e.kind == 1
    let s := (s.unpost (.weft b w)).setWeft b w { x with wst := .active, park := none, parkOp := none, atIssue := false }
    let s :=
      if !deliver then s
      else
        let again := if x.atIssue then (maskLanes e.issue).filter fun l => !e.done.testBit l else []
        (List.range 32).foldl (armParked b w) (again.foldl (armDeliver b w) s)
    let s := if deliver && e.cause == Cause.integrity.code && e.reason == 1 then
        (List.range 32).foldl (deliverParity b w) s else s
    if (s.weft b w).park.isSome then s else finishCheck s b w

/-- End the entry of a copy: it goes on, or ends ABORTED at the address of its fault (R284, R385, R391). -/
def resumeCopy (s : State) (core slot : Nat) (goOn : Bool) : State :=
  match s.copy? core slot with
  | none => s
  | some c =>
    let s := s.unpost (.engine core slot)
    if goOn then s.setCopy core slot { c with fault := none }
    else
      let a := (c.fault.map (·.addr)).getD c.addr
      endCopy s core slot { c with fault := none, status := 1, addr := a, pend := [] } 0

/-- Answer a handle; a stale one is discarded and counted (R385, R456). -/
def answer (s : State) (vi handle : Nat) (resume : Bool) : State :=
  match answered s vi handle with
  | none => countErr s vi
  | some (.weft b w) => resumeWeft s b w (!resume)
  | some (.engine core slot) => resumeCopy s core slot resume

/-! ## Messages for a core, by its name (R427, R428) -/

/-- The core that an entry is of. -/
def faultCore (s : State) : FaultRef → Nat
  | .weft b _ => (s.block b).core
  | .engine core _ => core

/-- The usable cores of a domain that hold a name (R427). -/
def namedIn (s : State) (d name : Nat) : List Nat := (s.coresIn d).filter fun c => s.coreName c == name

/-- The domain to which a router's name table binds a name of a partition (R428). -/
def boundTo (s : State) (d part name : Nat) : Option Nat :=
  (List.find? (fun (e : Nat × NameEnt) => e.2.part == part && e.2.name == name) (s.domain d).names).map (·.2.dom)

def State.setMessage (s : State) (n : Nat) (m : NameMsg) : State := { s with messages := Sp.put s.messages n m }
def State.dropMessage (s : State) (n : Nat) : State := { s with messages := Sp.del s.messages n }

/-- A message that no copy has still to deliver is over: no domain accepted it, and its sender receives NAMEMISS
(R428). -/
def endMessage (s : State) (n : Nat) (m : NameMsg) : State :=
  if m.copies ≠ 0 then s.setMessage n m
  else if m.taken then s.dropMessage n
  else s.setMessage n { m with missed := true }

/-- A router floods a message: one copy goes to every domain of the partition (R428). -/
def floodMessage (s : State) (d n : Nat) (m : NameMsg) : State :=
  let r := (s.domsOf m.part).foldl (fun (r : Nat × State) t =>
    match inject r.2 d { part := m.part, dest := t, kind := 3, cargo := .message n true } with
    | some s => (r.1 + 1, s)
    | none => r) (0, s)
  endMessage r.2 n { m with copies := r.1, missed := false }

/-- A message leaves its sender: to the domain that the router binds its name to, or flooded (R428). -/
def sendMessage (s : State) (n : Nat) (m : NameMsg) : State :=
  let s := s.setMessage n { m with missed := false }
  match boundTo s m.src m.part m.name with
  | none => floodMessage s m.src n m
  | some t => (inject s m.src { part := m.part, dest := t, kind := 3, cargo := .message n false }).getD (s.dropMessage n)

/-- A copy of a message has reached a domain: one that holds the name accepts it; else it is flooded once more, or a
flooded copy is discarded (R428). -/
def takeMessage (s : State) (d n : Nat) (copy : Bool) : State :=
  match Sp.find? s.messages n with
  | none => s
  | some m =>
    let left := { m with copies := if copy then m.copies - 1 else 0 }
    if m.taken then endMessage s n left
    else if !(namedIn s d m.name).isEmpty then endMessage (answer s m.part m.handle m.resume) n { left with taken := true }
    else if copy then endMessage s n left
    else floodMessage s d n m

/-- A copy of a message is lost on its way (R422). -/
def loseMessage (s : State) (n : Nat) (copy : Bool) : State :=
  match Sp.find? s.messages n with
  | none => s
  | some m => if copy then endMessage s n { m with copies := m.copies - 1 } else s.dropMessage n

/-- The messages to a name that have met NAMEMISS are sent again, once a rename of that name has completed (R428). -/
def retryMessages (s : State) (part name : Nat) : State :=
  (s.messages.filter fun e => e.2.missed && e.2.part == part && e.2.name == name).foldl (fun s e => sendMessage s e.1 e.2) s

/-- A steward answers an entry: at once where the entry's core is in the domain from which it acts, else by a message
for the core (R385, R427). -/
def actOn (s : State) (vi handle : Nat) (resume : Bool) : State :=
  match answered s vi handle with
  | none => countErr s vi
  | some f =>
    let core := faultCore s f
    if domOf core = s.leadDom vi then answer s vi handle resume
    else sendMessage { s with nextMessage := s.nextMessage + 1 } s.nextMessage
      { part := vi, name := s.coreName core, src := s.leadDom vi, handle := handle, resume := resume }

/-- FQ_RESUME (R385): action 1 of FQACT. -/
def execFqResume (vi handle : Nat) (s : State) : Host.Outcome State Fault Refusal := .next (actOn s vi handle true)

/-- FQ_DELIVER (R385): action 2 of FQACT; for a copy it acts as ABORT. -/
def execFqDeliver (vi handle : Nat) (s : State) : Host.Outcome State Fault Refusal := .next (actOn s vi handle false)

/-- FQ_ABORT (R385): action 3 of FQACT; for a weft it acts as DELIVER. -/
def execFqAbort (vi handle : Nat) (s : State) : Host.Outcome State Fault Refusal := .next (actOn s vi handle false)

/-! ## L1 tag parity (R394) -/

/-- Park a weft on a tag parity error: its entry names no lane and no failing instruction (R384, R394). -/
def parkParity (s : State) (b w : Nat) : State :=
  let r := s.fresh
  let e := faultEntry r.2 b w 1 { cause := .integrity, reason := 1 } 0 0 (Config.freePc r.1)
  parkWeft r.2 b w e false

/-- L1_TAG_PARITY_ERROR (R394): the line is lost with its dirty bytes, and every ACTIVE weft of every block
resident on the core parks. PRESUMED (log 69). -/
def execL1TagParityError (core line : Nat) (s : State) : Host.Outcome State Fault Refusal :=
  if (s.l1Line core line).isNone then .next s
  else
    let s := s.dropL1 core line
    let wefts := ((s.onCore core).map fun e => (List.range (s.launch e.1).wefts).map fun w => (e.1, w)).flatten
    .next ((wefts.filter fun x => (s.weft x.1 x.2).wst == .active).foldl (fun s x => parkParity s x.1 x.2) s)

end Sys2Proof.Machine
end

