-- ==== Sys2Proof/Machine/Fabric.lean ====
section
/-!
DEFINITION. The mesh at work: packets, links that fail, route tables and their drains, core names, and
clocks (R395, R418-R429, R433, R434, R458, R460).
-/
namespace Sys2Proof.Machine

/-! ## Name tables (R428) -/

/-- Whether an entry binds a name of a partition. -/
def NameEnt.is (e : NameEnt) (part name : Nat) : Bool := e.part == part && e.name == name

/-- The index that a new binding takes: an empty one, else that of the greatest age, the lowest of those (R428). -/
def nameSlot (names : Sp NameEnt) : Nat :=
  match (List.range 256).find? fun i => (Sp.find? names i).isNone with
  | some i => i
  | none =>
    (names.foldl (fun (b : Nat × Nat) e => if b.2 < e.2.age + 1 then (e.1, e.2.age + 1) else b) (0, 0)).1

/-- A packet that carries a source core name refreshes or makes its binding (R428). DEDUCED (log 75). -/
def learnName (s : State) (d part name dom : Nat) : State :=
  let x := s.domain d
  let e : NameEnt := { part := part, name := name, dom := dom }
  let i := match List.find? (fun (y : Nat × NameEnt) => y.2.is part name) x.names with
    | some (i, _) => i
    | none => nameSlot x.names
  s.setDomain d { x with names := Sp.put x.names i e }

/-- NAME_AGE_TICK (R428): each age below 3 rises by one; an entry of age 3 is empty. -/
def execNameAgeTick (dom : Nat) (s : State) : Host.Outcome State Fault Refusal :=
  let x := s.domain dom
  let aged := x.names.map fun e => (e.1, { e.2 with age := e.2.age + 1 })
  .next (s.setDomain dom { x with names := List.filter (fun (e : Nat × NameEnt) => decide (e.2.age < 3)) aged })

/-! ## Links (R395, R418) -/

/-- A link goes down at both ends; the rounds on its trees fail, and the orrery says so (R395, R418, R450). -/
def takeDown (s : State) (d p : Nat) : State :=
  match neighbour d p with
  | none => s
  | some n =>
    let s := s.setDomain d { s.domain d with down := (s.domain d).down ||| 1 <<< (p - 1), retries := Sp.del (s.domain d).retries p }
    let s := s.setDomain n { s.domain n with down := (s.domain n).down ||| 1 <<< (opposite p - 1) }
    refreshLink (breakLink s d n) d p

/-- The port to a contribution's next router up the tree of its round: 0 at the root, none where it waits for a tree
(R449). -/
def treePort (s : State) (dom gid n r : Nat) : Option Nat :=
  match (((Sp.find? (s.grid gid).groups n).bind fun x => Sp.find? x.rounds r).bind (·.tree)).bind fun t => t.find? (·.1 == dom) with
  | none => none
  | some (_, up) =>
    if up = dom then some 0 else ((List.range 4).find? fun i => neighbour dom (i + 1) == some up).map (· + 1)

/-- The port by which a packet leaves the router that holds it (R422, R449). -/
def Packet.out (p : Packet) (s : State) : Option Nat :=
  match p.cargo with
  | .part gid n r _ => treePort s p.here gid n r
  | _ => some (routeEntry s p.here p.tbl (routeIndex p.cls p.port p.dest))

/-- A packet is lost: the access whose data or acknowledgement it carried takes INTEGRITY, reason 2, and the round whose
contribution it carried fails; a token is sent again (R395, R422, R426, R450). -/
def losePacket (s : State) (id : Nat) : State :=
  match Sp.find? s.packets id with
  | none => s
  | some p =>
    let s := { s with packets := Sp.del s.packets id }
    match p.cargo with
    | .access =>
      match p.carries with
      | some (op, lane) => loseTrip s op lane
      | none => s
    | .token => { s with drain := s.drain.map fun r => { r with moving := false } }
    | .part gid n r _ => setRound s gid n r Round.fail
    | .message n copy => loseMessage s n copy
    | .claim _ _ => s
    | .announce _ _ => s

/-- A router drops a packet and counts it (R422, R424). -/
def dropPacket (s : State) (d id : Nat) : State := losePacket (countDrop s d) id

/-- LINK_TAKE_DOWN (R418): system software takes a link down; link 4d + p − 1 is port p of domain d. -/
def execLinkTakeDown (link : Nat) (s : State) : Host.Outcome State Fault Refusal :=
  .next (takeDown s (link / 4) (link % 4 + 1))

/-- LINK_CRC_FAIL (R395, R434): a flit fails its CRC on a link; it is retried up to 16 times, and then the link is
down and the packet it belonged to lost, if that crosses the link. No flit is retried while the link is paused.
DEDUCED (log 84). -/
def execLinkCrcFail (link packet : Nat) (s : State) : Host.Outcome State Fault Refusal :=
  let d := link / 4
  let p := link % 4 + 1
  let x := s.domain d
  if linkDown s d p || linkPaused s d p then .next s
  else if Sp.get 0 x.retries p < 16 then
    .next (refreshLink (s.setDomain d { x with
      retries := Sp.put x.retries p (Sp.get 0 x.retries p + 1), degraded := x.degraded ||| 1 <<< (p - 1) }) d p)
  else
    let crosses := (Sp.find? s.packets packet).any fun x => x.here == d && x.out s == some p
    let s := takeDown s d p
    .next (if crosses then losePacket s packet else s)

/-! ## Core names (R427, R429, R455) -/

/-- The virtual interface whose partition holds a domain. -/
def partitionOf (s : State) (d : Nat) : Option Nat := (List.find? (fun (e : Nat × VIface) => e.2.partmap.testBit d) s.vis).map (·.1)

/-- The physical cores of the partition of a domain whose NAME is `n`, usable or not. DEDUCED (log 79). -/
def holders (s : State) (d n : Nat) : List Nat :=
  let doms := match partitionOf s d with
    | some v => s.domsOf v
    | none => [d]
  ((doms.map fun x => (List.range 40).map (x * 40 + ·)).flatten).filter fun c => s.coreName c == n

/-- Whether a core may be a spare: usable, with no block, not departing (R429). -/
def spareFit (s : State) (core : Nat) : Bool :=
  s.usable core && (s.onCore core).isEmpty &&
    s.grids.all fun e => match e.2.mill with
      | some m => (Sp.find? m.departing core).isNone
      | none => true

/-- A core's VALID is cleared: it is fused out (R427, R429). -/
def fuseOut (s : State) (core : Nat) : State :=
  let d := domOf core
  let x := s.domain d
  if x.coremap.testBit (core % 40) then s.setDomain d { x with coremap := x.coremap - 2 ^ (core % 40) } else s

/-- A core's VALID as it was before its rename began (R429). -/
def fuseIn (s : State) (core : Nat) : State :=
  let d := domOf core
  let x := s.domain d
  s.setDomain d { x with coremap := x.coremap ||| 1 <<< (core % 40) }

def State.setRename (s : State) (d : Nat) (r : RenameReg) : State := s.setDomain d { s.domain d with rename := r }

/-- The other domains of the partition that a domain is in. -/
def peersOf (s : State) (d : Nat) : List Nat :=
  match partitionOf s d with
  | some v => (s.domsOf v).filter (· != d)
  | none => []

/-- A packet goes to every other domain of the partition (R429). DEDUCED (log 80). -/
def floodPeers (s : State) (d : Nat) (p : Packet) : State :=
  (peersOf s d).foldl (fun s t => (inject s d { p with part := (partitionOf s d).getD 0, dest := t, kind := 3 }).getD s) s

/-- Every other domain has answered a claim: there is a conflict and nothing changes, or the spare takes the name,
which is announced (R429). -/
def endClaim (s : State) (d : Nat) : State :=
  let r := (s.domain d).rename
  match r.claim with
  | none => s
  | some (spare, dead) =>
    let r := { r with claim := none, waiting := [] }
    if r.conflict then
      let s := s.setRename d { r with status := 3, conflict := false }
      match dead with
      | some h => refreshOrrery (fuseIn s h) (domOf h)
      | none => s
    else
      let s := (s.setCore spare { s.core spare with name := some r.name }).setRename d { r with waiting := peersOf s d }
      let s := learnName s d ((partitionOf s d).getD 0) r.name d
      refreshOrrery (floodPeers s d { source := some (r.name, d), cargo := .announce d r.name }) d

/-- A domain meets the claim of a name by another: a usable core of it that holds the name answers, and so does its own
claim of the name, which fails too (R429). -/
def meetClaim (s : State) (d src n : Nat) : State :=
  let r := (s.domain src).rename
  if r.claim.isNone || r.name != n then s
  else
    let mine := (s.domain d).rename
    let crossing := mine.claim.isSome && mine.name == n
    let s := if crossing then s.setRename d { mine with conflict := true } else s
    let r := { r with conflict := r.conflict || crossing || !(namedIn s d n).isEmpty, waiting := r.waiting.filter (· != d) }
    let s := s.setRename src r
    if r.waiting.isEmpty then endClaim s src else s

/-- A domain acknowledges the announce of a name (R429). -/
def meetAnnounce (s : State) (d src n : Nat) : State :=
  let r := (s.domain src).rename
  if r.claim.isSome || r.name != n then s else s.setRename src { r with waiting := r.waiting.filter (· != d) }

/-- The steward takes up a request: the dead core's VALID is cleared, and the name is claimed for the spare (R429). -/
def startRename (s : State) (d value : Nat) : State :=
  let spare := value % 2 ^ 16
  let n := value / 2 ^ 16 % 2 ^ 16
  let r : RenameReg := { (s.domain d).rename with spare := spare, name := n, waiting := [], claim := none, conflict := false }
  match (s.coresIn d).find? fun c => s.coreName c == spare && spareFit s c with
  | none => s.setRename d { r with status := 4 }
  | some c =>
    let hs := holders s d n
    let dead := (hs.find? fun h => !s.usable h).orElse fun _ => hs.head?
    let others := hs.filter fun h => domOf h == d && s.usable h && some h != dead
    if !others.isEmpty || dead == some c then s.setRename d { r with status := 3 }
    else
      let s := s.setRename d { r with status := 1, waiting := peersOf s d, claim := some (c, dead.filter s.usable) }
      let s := match dead with
        | some h => refreshOrrery (fuseOut s h) (domOf h)
        | none => s
      if (peersOf s d).isEmpty then endClaim s d else floodPeers s d { cargo := .claim d n }

/-- RENAME (R429, R455): a request to the steward of a domain, which ignores it while another is pending. -/
def execRenameCore (dom value : Nat) (s : State) : Host.Outcome State Fault Refusal :=
  .next (if (s.domain dom).rename.status = 1 then s else startRename s dom value)

/-- RENAME_COMPLETE (R428, R429): every domain of the partition has acknowledged the announce; the messages that
wait for the name are sent again. -/
def execRenameComplete (dom : Nat) (s : State) : Host.Outcome State Fault Refusal :=
  let r := (s.domain dom).rename
  .next (if r.status = 1 ∧ r.claim.isNone ∧ r.waiting = [] then
    retryMessages (s.setRename dom { r with status := 2 }) ((partitionOf s dom).getD 0) r.name else s)

/-! ## Packets (R420-R422, R428, R458) -/

/-- A table of a router in a new state (R424). -/
def setTable (x : Domain) (tbl st : Nat) : Domain := if tbl = 0 then { x with sta := st } else { x with stb := st }

/-- A packet has reached its domain, and what it carries goes on (R421, R426, R428, R429). -/
def deliverPacket (s : State) (d id : Nat) (p : Packet) : State :=
  let s := { s with packets := Sp.del s.packets id }
  match p.cargo with
  | .access =>
    match p.carries with
    | some (op, lane) =>
      match (s.op? op).bind fun o => o.lane? lane with
      | some a => setAcc s op { a with trip := if p.kind = 1 then .back else .atHome }
      | none => s
    | none => s
  | .claim src n => meetClaim s d src n
  | .announce src n => meetAnnounce s d src n
  | .token => { s with drain := s.drain.map fun r => { r with here := d, moving := false } }
  | .part gid n r rank => setRound s gid n r fun rd => { rd with onWay := rd.onWay.erase rank }
  | .message n copy => takeMessage s d n copy

/-- A router sends a packet out of a port: it waits at a paused link, is dropped at one that is down, and marks the
router that accepts it DIRTY if its table is draining (R418, R422, R426, R434). -/
def sendOut (s : State) (dom packet : Nat) (p : Packet) (out : Nat) : State :=
  match neighbour dom out with
  | none => dropPacket s dom packet
  | some n =>
    if linkDown s dom out then dropPacket s dom packet
    else if linkPaused s dom out then s
    else
      let x := s.domain dom
      let s := s.setDomain dom { x with retries := Sp.del x.retries out }
      let y := s.domain n
      let s := s.setDomain n { y with dirty := y.dirty || tableState y p.tbl == 2 }
      { s with packets := Sp.put s.packets packet { p with here := n, port := opposite out } }

/-- A contribution goes up the tree of its round to the root; it waits for a tree, and is gone with its round
(R449, R450). -/
def climbTree (s : State) (dom packet : Nat) (p : Packet) (gid n r : Nat) : State :=
  match (Sp.find? (s.grid gid).groups n).bind fun x => Sp.find? x.rounds r with
  | none => { s with packets := Sp.del s.packets packet }
  | some rd =>
    if rd.lost then { s with packets := Sp.del s.packets packet }
    else
      match treePort s dom gid n r with
      | none => s
      | some 0 => deliverPacket s dom packet p
      | some out => sendOut s dom packet p out

/-- Whether a packet may be delivered in a domain: it is of its partition, or the token (R420, R426, R458). -/
def Packet.mayReach (p : Packet) (s : State) (d : Nat) : Bool := p.cargo == .token || (s.viface p.part).partmap.testBit d

/-- PACKET_FORWARD (R419, R420, R422, R428, R458): the router of a domain sends a packet out of the port that
its table names, or its tree, delivers it, or drops it. -/
def execPacketForward (dom packet : Nat) (s : State) : Host.Outcome State Fault Refusal :=
  match Sp.find? s.packets packet with
  | none => .next s
  | some p =>
    if p.here ≠ dom then .next s
    else
      let s := match p.source with
        | some (name, src) => learnName s dom p.part name src
        | none => s
      if tableState (s.domain dom) p.tbl = 0 then .next (dropPacket s dom packet)
      else
        match p.cargo with
        | .part gid n r _ => .next (climbTree s dom packet p gid n r)
        | _ =>
          match routeEntry s dom p.tbl (routeIndex p.cls p.port p.dest) with
          | 0 => .next (if p.mayReach s dom then deliverPacket s dom packet p else dropPacket s dom packet)
          | out => .next (sendOut s dom packet p out)

/-! ## Route tables (R423-R426) -/

/-- RT_ARM (R423, R424): the turn check of a FREE table; it is ARMED, or ARMERR and ERRIDX say why not.
DEDUCED (log 78). -/
def execRtArm (dom tbl : Nat) (s : State) : Host.Outcome State Fault Refusal :=
  let t := tbl % 2
  let x := s.domain dom
  if tableState x t ≠ 0 then .next s
  else
    let x := match turnFailure s dom t with
      | none => setTable x t 1
      | some i => { x with armErr := true, errIdx := i }
    .next (refreshOrrery (s.setDomain dom x) dom)

/-- RT_SELECT (R424): an ARMED table becomes that of new injections. -/
def execRtSelect (dom tbl : Nat) (s : State) : Host.Outcome State Fault Refusal :=
  let t := tbl % 2
  let x := s.domain dom
  .next (if tableState x t = 1 then refreshOrrery (s.setDomain dom { x with rsel := t }) dom else s)

/-- Every router's table in a new state. -/
def setTables (s : State) (tbl st : Nat) : State :=
  (List.range 64).foldl (fun s d => refreshOrrery (s.setDomain d (setTable (s.domain d) tbl st)) d) s

/-- RT_DRAIN (R424, R426): an ARMED table that is not in use here becomes DRAINING everywhere, and a token starts. -/
def execRtDrain (dom tbl : Nat) (s : State) : Host.Outcome State Fault Refusal :=
  let t := tbl % 2
  let x := s.domain dom
  if tableState x t ≠ 1 ∨ x.rsel = t ∨ s.drain.isSome then .next s
  else .next { setTables s t 2 with drain := some { tbl := t, start := dom, here := dom } }

/-- RT_CLEAR (R424). -/
def execRtClear (dom : Nat) (s : State) : Host.Outcome State Fault Refusal :=
  .next (refreshOrrery (s.setDomain dom { s.domain dom with drops := 0, armErr := false, drained := false }) dom)

/-- The domain at a place of the snake (R426). -/
def snake (i : Nat) : Nat := i / 8 * 8 + (if i / 8 % 2 = 0 then i % 8 else 7 - i % 8)

/-- The place of the token's next visit: the next whose router is up (R426). -/
def nextVisit (s : State) (i : Nat) : Option Nat :=
  (List.range 64).find? fun j => decide (i ≤ j) && ((s.domain (snake j)).st == 1 || (s.domain (snake j)).st == 2)

/-- OLDCNT is zero: no packet of the table is in the router of a domain, and the domain injects none (R426).
DEDUCED (log 77). -/
def oldEmpty (s : State) (d tbl : Nat) : Bool :=
  (s.domain d).rsel != tbl && s.packets.all fun e => !(e.2.here == d && e.2.tbl == tbl)

/-- The end of a pass: after a clean one that is not the first, the table is FREE everywhere (R426). -/
def endPass (s : State) (r : Drain) : State :=
  if r.clean && decide (2 ≤ r.pass) then
    let s := setTables s r.tbl 0
    refreshOrrery { s.setDomain r.start { s.domain r.start with drained := true } with drain := none } r.start
  else { s with drain := some { r with at_ := 0, pass := r.pass + 1, clean := true } }

/-- The token visits the domain where it stands: it reads OLDCNT and DIRTY, and clears DIRTY (R426). -/
def visit (s : State) (r : Drain) (dom i : Nat) : State :=
  let x := s.domain dom
  let r := { r with clean := r.clean && oldEmpty s dom r.tbl && !x.dirty, at_ := i + 1 }
  let s := { s.setDomain dom { x with dirty := false } with drain := some r }
  if (nextVisit s (i + 1)).isNone then endPass s r else s

/-- The token leaves for the domain of its next visit, as a control packet on the new table; it stays while neither
class has a route (R421, R426). -/
def sendToken (s : State) (r : Drain) (dest : Nat) : State :=
  (injectOn { s with drain := some { r with moving := true } } r.here (1 - r.tbl)
    { part := (partitionOf s r.here).getD 0, dest := dest, kind := 3, cargo := .token }).getD s

/-- DRAIN_TOKEN_VISIT (R426): the token visits the domain where it stands, if that is the next of its pass, or goes on
to the one that is. -/
def execDrainTokenVisit (dom : Nat) (s : State) : Host.Outcome State Fault Refusal :=
  match s.drain with
  | none => .next s
  | some r =>
    if r.moving || r.here ≠ dom then .next s
    else
      match nextVisit s r.at_ with
      | none => .next (endPass s r)
      | some i => .next (if snake i = dom then visit s r dom i else sendToken s r (snake i))

/-! ## Clocks and power (R433, R434, R460) -/

/-- The domains that are up. -/
def upDomains (s : State) : List Nat := (List.range 64).filter fun d => (s.domain d).st == 1 || (s.domain d).st == 2

/-- A domain's share of the power limit (R460). -/
def powerShare (s : State) : Nat := s.pwrlim / (upDomains s).length

/-- A change to a code begins: the domain's links pause (R434). -/
def startChange (s : State) (d code : Nat) : State :=
  s.setDomain d { s.domain d with vfBusy := true, vfNext := code }

/-- VFCTL_WRITE (R433, R434, R460): a request for a clock code starts a change, or is refused. DEDUCED (log 81). -/
def execVfctlWrite (dom value : Nat) (s : State) : Host.Outcome State Fault Refusal :=
  let code := value % 32
  if 16 < code ∨ Config.powerAbove dom code (powerShare s) then
    .next (s.setDomain dom { s.domain dom with vfRefused := true })
  else
    .next ((startChange s dom code).setDomain dom { (startChange s dom code).domain dom with fcode := code, vfRefused := false })

/-- LINK_PAUSE_END (R434): the pause of a domain's links ends, with its new clock and voltage. -/
def execLinkPauseEnd (dom : Nat) (s : State) : Host.Outcome State Fault Refusal :=
  let x := s.domain dom
  .next (if x.vfBusy then refreshOrrery (s.setDomain dom { x with vfBusy := false, fcur := x.vfNext }) dom else s)

/-- The domain whose clock is lowered: of those with the highest FCUR above 0, the highest number (R460).
DEDUCED (log 82). -/
def hottest (s : State) : Option Nat :=
  (upDomains s).foldl (fun b d =>
    match b with
    | none => if 0 < (s.domain d).fcur then some d else none
    | some e => if (s.domain e).fcur ≤ (s.domain d).fcur then some d else b) none

/-- POWER_LIMIT_TICK (R460): at the measured power in watts, a clock is lowered by one code, or clocks rise
by one towards FCODE where the estimate allows. -/
def execPowerLimitTick (watts : Nat) (s : State) : Host.Outcome State Fault Refusal :=
  if s.pwrlim < watts then
    match hottest s with
    | some d => .next (startChange s d ((s.domain d).fcur - 1))
    | none => .next s
  else
    .next ((upDomains s).foldl (fun s d =>
      let x := s.domain d
      if !x.vfBusy && decide (x.fcur < x.fcode) && !Config.powerAbove d (x.fcur + 1) (powerShare s) then startChange s d (x.fcur + 1)
      else s) s)

end Sys2Proof.Machine
end

