-- ==== Sys2Proof/Machine/Graph.lean ====
section
/-!
DEFINITION. Queues and command graphs: doorbells and entries, the check and start of a graph, its nodes,
its completion, and the graph daybook (R356-R373, R457, R462).
-/
namespace Sys2Proof.Machine

/-! ## Queues (R356-R359) -/

/-- Whether a function may reach a queue: there is such a queue, and it is bound to it, or the function is the physical
one (R356, R454). DEDUCED (log 148). -/
def ownsQueue (s : State) (vi q : Nat) : Bool := decide (q < 65536) && (vi == 64 || (s.queue q).vi == vi)

/-- A doorbell of a queue is taken: a disabled queue and a TAIL too far ahead are logged (R356, R457). -/
def ringQueue (s : State) (q tail : Nat) : State :=
  let x := s.queue q
  if !x.enable then s.setQueue q { x with err := x.err ||| 2 }
  else if 2 ^ x.sizeLog < (tail + 2 ^ 32 - x.head) % 2 ^ 32 then s.setQueue q { x with err := x.err ||| 1 }
  else s.setQueue q { x with tail := tail % 2 ^ 32 }

/-- QUEUE_DOORBELL (R356, R454, R457): a function writes TAIL at one of the 65,536 doorbells of its BAR2, numbered
65,536 × function + queue; a write to a queue that is not bound to the function is discarded and counted. In a cycle
that goes on it is taken at its end, after a clear of ENABLE (R457). -/
def execQueueDoorbell (door tail : Nat) (s : State) : Host.Outcome State Fault Refusal :=
  let vi := door / 65536
  let q := door % 65536
  if !ownsQueue s vi q then .next (countErr s vi)
  else if (s.queue q).enable && (s.cycle.joined || !s.cycle.bells.isEmpty) then
    .next { s with cycle := { s.cycle with bells := s.cycle.bells ++ [(q, tail)] } }
  else .next (ringQueue s q tail)

/-- The checks of a queue entry in ascending offset (R358). -/
def entryChecks (m : Memory) : List (Bool × Nat) :=
  [ (m.read 0 1 != 1, 0)
  , (decide (2 ≤ m.read 1 1), 1)
  , (m.read 2 2 != 0, 2)
  , (m.read 4 2 == 0, 4)
  , (m.read 6 2 != 0, 6)
  , (m.read 8 8 % 64 != 0, 8)
  , (m.read 0x10 8 % 2 != 0, 0x10)
  , (decide (1048576 < m.read 0x18 4), 0x18)
  , (m.read 0x1C 4 != 0, 0x1C)
  , (m.read 0x20 8 % 32 != 0, 0x20)
  , (m.read 0x2A 2 / 2048 % 16 != 0, 0x2A)
  , (m.read 0x2C 20 != 0, 0x2C) ]

/-- A graph whose first failure before any node starts is a status, a node and an address (R358, R365). -/
def Graph.refuse (g : Graph) (status node addr : Nat) : Graph :=
  { g with started := true, stopped := true, status := status, node := node, addr := addr }

/-- QUEUE_ENTRY (R357, R358): the command processor reads the entry at HEAD and checks it. -/
def execQueueEntry (q : Nat) (s : State) : Host.Outcome State Fault Refusal :=
  let x := s.queue q
  if !x.enable || x.graph.isSome || x.head = x.tail then .next s
  else
    match devRead s x.vi x.asn (x.base + 64 * (x.head % 2 ^ x.sizeLog)) 64 with
    | .wait => .next s
    | .fault _ s => .next (s.setQueue q { x with err := x.err ||| 8, head := (x.head + 1) % 2 ^ 32 })
    | .ok (m, s) =>
      let g : Graph := { entry := m }
      match firstBreach (entryChecks m) with
      | some o => .next (s.setQueue q { x with graph := some { g.refuse 2 0xFFFFFFFF o with breach := some o } })
      | none => .next (s.setQueue q { x with graph := some g })

/-! ## Nodes and their checks (R360, R361, R365) -/

/-- The nonzero bytes of a node from an offset on, each as a breach of a reserved byte (R361). -/
def reservedFrom (m : Memory) (o : Nat) : List (Bool × Nat) := (List.range (64 - o)).map fun i => (m.read (o + i) 1 != 0, o + i)

/-- Whether two body ranges are nested or apart (R361). -/
def rangesFit (a b : Nat × Nat) : Bool :=
  decide (a.2 < b.1) || decide (b.2 < a.1) || (decide (b.1 ≤ a.1) && decide (a.2 ≤ b.2)) || (decide (a.1 ≤ b.1) && decide (b.2 ≤ a.2))

/-- The checks of node `i` of a graph in ascending offset (R360, R361). DEDUCED (log 99). -/
def nodeChecks (m : Memory) (i nnode nsuccs : Nat) (bodies : List (Nat × Nat)) : List (Bool × Nat) :=
  let k := m.read 0 1
  let f := fun o n => m.read o n
  let past := fun a n => decide (nsuccs < a + n)
  [ (k == 0 || decide (8 < k), 0)
  , (decide (2 ≤ f 1 1), 1)
  , (past (f 4 4) (f 8 2), 8)
  , ((f 0xA 2 == 0) == (k == 6), 0xA)
  , (f 0xC 4 != 0, 0xC) ] ++
  match k with
  | 3 => (f 0x20 8 == 0 || decide (2 ^ 40 < f 0x20 8), 0x20) :: reservedFrom m 0x28
  | 5 => [(f 0x10 8 % 4 != 0, 0x10), (past (f 0x18 4) (f 0x1C 2), 0x1C)] ++ reservedFrom m 0x1E
  | 6 =>
    let lo := f 0x20 2
    let hi := f 0x22 2
    [ (f 0x10 8 % 4 != 0, 0x10), (past (f 0x18 4) (f 0x1C 2), 0x1C), (f 0x1E 2 == 0, 0x1E)
    , (decide (hi < lo) || (decide (lo ≤ i) && decide (i ≤ hi)) || !bodies.all (rangesFit (lo, hi)), 0x20)
    , (decide (nnode ≤ hi), 0x22) ] ++ reservedFrom m 0x24
  | 7 => [(f 0x10 2 == 0, 0x10), (f 0x12 2 / 2048 % 16 != 0, 0x12)] ++ reservedFrom m 0x14
  | 8 => [(f 0x10 2 == 0, 0x10), (decide (2 ≤ f 0x12 1), 0x12), (f 0x13 1 != 0, 0x13), (f 0x14 4 == 0, 0x14)] ++ reservedFrom m 0x18
  | _ => reservedFrom m 0x18

/-- A list of successors: `n` indices of the table from index `a` (R360). -/
def succList (table : Memory) (a n : Nat) : List Nat := (List.range n).map fun j => table.read (2 * (a + j)) 2

/-- A node as the graph's start reads it, with its lists. -/
def parseNode (m table : Memory) : Node :=
  let k := m.read 0 1
  { par := m, listA := succList table (m.read 4 4) (m.read 8 2)
    listB := if k = 5 ∨ k = 6 then succList table (m.read 0x18 4) (m.read 0x1C 2) else []
    cnt := m.read 2 2, back := m.read 0xA 2 }

/-- The first failure of a node: of its fields, then of its lists (R365). -/
def nodeBreach (m table : Memory) (i nnode nsuccs : Nat) (bodies : List (Nat × Nat)) : Option Nat :=
  match firstBreach (nodeChecks m i nnode nsuccs bodies) with
  | some o => some o
  | none =>
    let x := parseNode m table
    if x.listA.any (nnode ≤ ·) then some 4 else if x.listB.any (nnode ≤ ·) then some 0x18 else none

/-- The body ranges of the LOOPs of a graph, but for node `i`'s. -/
def bodyRanges (nodes : Memory) (nnode i : Nat) : List (Nat × Nat) :=
  ((List.range nnode).filter fun j => j != i && nodes.read (64 * j) 1 == 6).map fun j =>
    (nodes.read (64 * j + 0x20) 2, nodes.read (64 * j + 0x22) 2)

/-- Node `i` of the nodes read. -/
def nodeBytes (nodes : Memory) (i : Nat) : Memory := Memory.writeBytes [] 0 (nodes.readBytes (64 * i) 64)

/-- The nodes of the running graphs of a virtual interface: the counters in use (R359). -/
def countersUsed (s : State) (vi : Nat) : Nat :=
  (s.queues.map fun e =>
    match e.2.graph with
    | some g => if e.2.vi = vi then g.nodes.length else 0
    | none => 0).sum

/-- Whether a graph of a virtual interface that starts now records its branches, or replays them (R462). -/
def bookArmed (v : VIface) : Bool := v.gbook.isSome && v.gbookNext.isNone

/-- GRAPH_START (R359, R365, R462): the nodes are read and checked, and those with no predecessor are ready.
DEDUCED (log 98). -/
def execGraphStart (q : Nat) (s : State) : Host.Outcome State Fault Refusal :=
  let x := s.queue q
  match x.graph with
  | none => .next s
  | some g =>
    let nnode := g.entry.read 4 2
    let nsuccs := g.entry.read 0x18 4
    let base := g.entry.read 8 8
    if g.started || decide (262144 < countersUsed s x.vi + nnode) then .next s
    else
      match devRead s x.vi x.asn base (64 * nnode) with
      | .wait => .next s
      | .fault va s => .next (s.setQueue q { x with graph := some (g.refuse 3 ((va - base) / 64) va) })
      | .ok (nodes, s) =>
        match devRead s x.vi x.asn (g.entry.read 0x10 8) (2 * nsuccs) with
        | .wait => .next s
        | .fault va s => .next (s.setQueue q { x with graph := some (g.refuse 3 0xFFFFFFFF va) })
        | .ok (table, s) =>
          match (List.range nnode).findSome? fun i =>
              (nodeBreach (nodeBytes nodes i) table i nnode nsuccs (bodyRanges nodes nnode i)).map fun o => (i, o) with
          | some (i, o) => .next (s.setQueue q { x with graph := some (g.refuse 2 i o) })
          | none =>
            let ns := (List.range nnode).map fun i => (i, parseNode (nodeBytes nodes i) table)
            let first := (ns.filter fun n => n.2.cnt == 0).map (·.1)
            .next (s.setQueue q { x with graph := some { g with
              started := true, ready := first, book := bookArmed (s.viface x.vi)
              nodes := ns.map fun n => (n.1, if n.2.cnt = 0 then { n.2 with nst := .ready, reached := true } else n.2) } })

/-! ## Starting nodes (R361, R366, R367) -/

/-- Change the graph that a queue runs. -/
def State.modGraph (s : State) (q : Nat) (f : Graph → Graph) : State :=
  match (s.queue q).graph with
  | none => s
  | some g => s.setQueue q { s.queue q with graph := some (f g) }

/-- Whether a node of a kind is the next ready one of a graph that has not stopped, and may start (R366). -/
def startable (s : State) (q n kind : Nat) : Bool :=
  match (s.queue q).graph with
  | none => false
  | some g => g.started && !g.stopped && g.ready.head? == some n && (s.node q n).f 0 1 == kind

/-- A node is running. -/
def startNode (s : State) (q n : Nat) : State :=
  let s := s.modGraph q fun g => { g with ready := g.ready.erase n }
  s.setNode q n { s.node q n with nst := .running, res := none, pos := 0 }

/-- A node has its outcome: a status and an address (R370). -/
def endNode (s : State) (q n code addr : Nat) : State := s.setNode q n { s.node q n with res := some (code, addr) }

/-- The start of a node that launches a grid or a mill, or is refused (R196, R318, R361). -/
def launchNode (s : State) (q n : Nat) (r : DevRes (Except Refused Nat × State)) : State :=
  match r with
  | .wait => s
  | .fault va s => endNode (startNode s q n) q n 3 va
  | .ok (.error e, s) => endNode (startNode s q n) q n e.1 e.2
  | .ok (.ok _, s) => startNode s q n

/-- KERNEL_NODE (R196, R361). -/
def execKernelNode (q node : Nat) (s : State) : Host.Outcome State Fault Refusal :=
  let x := s.queue q
  if startable s q node 1 then .next (launchNode s q node (launchGrid s x.vi x.asn ((s.node q node).f 0x10 8) (q, node)))
  else .next s

/-- MILL_NODE (R318, R361). -/
def execMillNode (q node : Nat) (s : State) : Host.Outcome State Fault Refusal :=
  let x := s.queue q
  if startable s q node 2 then .next (launchNode s q node (launchMill s x.vi x.asn ((s.node q node).f 0x10 8) (q, node)))
  else .next s

/-- Whether a node of a kind runs, with no outcome yet. -/
def runningNode (s : State) (q n kind : Nat) : Bool :=
  (s.node q n).nst == .running && (s.node q n).res.isNone && (s.node q n).f 0 1 == kind

/-- Bytes of a COPY node are moved; the node has its outcome with the last of them (R361). -/
def copyMoved (s : State) (q n k : Nat) : State :=
  let y := { s.node q n with pos := (s.node q n).pos + k }
  s.setNode q n { y with res := if y.pos = y.f 0x20 8 then some (0, 0) else y.res }

/-- Move `k` bytes of a COPY node that lie in one 64-byte block at both ends (R362). -/
def copyBytes (s : State) (q n k : Nat) : DevRes State :=
  let x := s.queue q
  let y := s.node q n
  (devGet s x.vi x.asn (y.f 0x18 8 + y.pos) k).bind fun r =>
    (devPut r.2 x.vi x.asn (y.f 0x10 8 + y.pos) k r.1).bind fun s => .ok (copyMoved s q n k)

/-- The next bytes of a COPY node: those of a piece before the first byte that meets a fault are moved, and then the
node ends with that byte's VA (R362). DESIGN CHOICE (log 185). -/
def copyPiece (s : State) (q n : Nat) : State :=
  let y := s.node q n
  let src := y.f 0x18 8 + y.pos
  let dst := y.f 0x10 8 + y.pos
  match copyBytes s q n (min (y.f 0x20 8 - y.pos) (min (64 - src % 64) (64 - dst % 64))) with
  | .wait => s
  | .ok s => s
  | .fault va s' =>
    if src < va ∧ va < src + 64 then
      match copyBytes s q n (va - src) with
      | .wait => s
      | .ok s => s
      | .fault va s => endNode s q n 0x30 va
    else endNode s' q n 0x30 va

/-- COPY_NODE (R361, R362): a COPY node starts, or moves its next bytes. -/
def execCopyNode (q node : Nat) (s : State) : Host.Outcome State Fault Refusal :=
  if startable s q node 3 then .next (copyPiece (startNode s q node) q node)
  else if runningNode s q node 3 then .next (copyPiece s q node)
  else .next s

/-- The install of an INSTALL node: refused, waiting for a ticket entry, or passed on (R361). -/
def nodeInstall (s : State) (q n : Nat) : State :=
  let x := s.queue q
  let y := s.node q n
  let desc := y.f 0x10 8
  if y.pos != 0 then s
  else if desc % 64 != 0 then endNode s q n 0x32 desc
  else
    match devRead s x.vi x.asn desc 64 with
    | .wait => s
    | .fault va s => endNode s q n 0x32 va
    | .ok (m, s) =>
      match firstBreach (installChecks m (ticketBusy s x.vi)) with
      | some o => endNode s q n 0x33 o
      | none =>
        if ticketsFull s x.vi then s
        else addTicket (s.setNode q n { y with pos := 1 }) x.vi { parseInstall m x.asn with node := some (q, n) }

/-- INSTALL_NODE (R361): an INSTALL node starts, or tries again for a ticket entry. -/
def execInstallNode (q node : Nat) (s : State) : Host.Outcome State Fault Refusal :=
  if startable s q node 4 then .next (nodeInstall (startNode s q node) q node)
  else if runningNode s q node 4 then .next (nodeInstall s q node)
  else .next s

/-- EVENT_NODE (R361, R371, R372). -/
def execEventNode (q node : Nat) (s : State) : Host.Outcome State Fault Refusal :=
  if startable s q node 7 then
    let y := s.node q node
    let vi := (s.queue q).vi
    let s := raiseEvent (startNode s q node) vi (y.f 0x10 2)
    let s := if y.f 0x12 2 ≥ 2 ^ 15 then sendVector s vi (y.f 0x12 2 % 2048) else s
    .next (endNode s q node 0 0)
  else .next s

/-- WAIT_NODE (R361, R371): the node begins to wait, and is tested. -/
def execWaitNode (q node : Nat) (s : State) : Host.Outcome State Fault Refusal :=
  if startable s q node 8 then
    let s := startNode s q node
    let s := { s with waiters := s.waiters ++ [(q, node)] }
    .next (testEvent s (s.queue q).vi ((s.node q node).f 0x10 2))
  else .next s

/-! ## Predicates and the graph daybook (R363, R364, R462) -/

/-- The BRANCH record of an outcome: queue, node, iteration, value, outcome (R414). -/
def branchBody (q n iter value outcome : Nat) : Nat := q + n * 2 ^ 32 + iter % 65536 * 2 ^ 48 + value * 2 ^ 64 + outcome * 2 ^ 96

/-- A graph ends at a branch that diverges from its record (R417). DEDUCED (log 97). -/
def branchDiverges (s : State) (q n : Nat) : State :=
  let vi := (s.queue q).vi
  let s := match (s.viface vi).gbook with
    | some b => putDivergence (s.setVI vi { s.viface vi with
        gbook := some { b with diverged := some (0xFFFFFFFF, 0, 4) } }) vi 0 b 0xFFFFFFFF 0 4
    | none => s
  let s := s.modGraph q fun g => { g with stopped := true, status := 1, node := n, detail := 0x13, addr := 0xFFFFFFFF }
  s.setNode q n { s.node q n with nst := .done }

/-- Log the outcome of a COND or LOOP, or hold it against the record of a replay: whether it may stand (R414, R416,
R462). -/
def noteBranch (s : State) (q n value outcome : Nat) : Bool × State :=
  let vi := (s.queue q).vi
  let v := s.viface vi
  let armed := (((s.queue q).graph).getD {}).book
  match armed, v.gbook with
  | true, some b =>
    if b.replay then
      match b.recs.find? fun r => recField r 0 1 == 4 && recField r 8 4 == q && recField r 12 2 == n with
      | none => (false, s)
      | some r =>
        if recField r 20 1 = outcome then (true, s.setVI vi { v with gbook := some { b with recs := b.recs.erase r } })
        else (false, s)
    else
      let w := bookWrite s vi 0 b 4 0xFF 0xFF (branchBody q n (s.node q n).iter value outcome)
      (true, w.1.setVI vi { w.1.viface vi with gbook := some w.2 })
  | _, _ => (true, s)

/-- The predicate of a COND or LOOP: its value, or none where its address fails (R363). -/
def predicate (s : State) (q n : Nat) : DevRes (Option Nat × State) :=
  match devGet s (s.queue q).vi (s.queue q).asn ((s.node q n).f 0x10 8) 4 with
  | .wait => .wait
  | .fault _ s => .ok (none, s)
  | .ok (v, s) => .ok (some v, s)

/-- COND_NODE (R361, R363): the predicate chooses list A or list B. -/
def execCondNode (q node : Nat) (s : State) : Host.Outcome State Fault Refusal :=
  if !startable s q node 5 then .next s
  else
    match predicate s q node with
    | .wait => .next s
    | .fault _ s => .next s
    | .ok (p, s) =>
      let v := p.getD 0
      let r := noteBranch (startNode s q node) q node v (if v = 0 then 1 else 0)
      if !r.1 then .next (branchDiverges r.2 q node)
      else
        let s := r.2.setNode q node { r.2.node q node with takesA := v != 0 }
        .next (endNode s q node (if p.isNone then 0x31 else 0) (if p.isNone then (s.node q node).f 0x10 8 else 0))

/-- LOOP_NODE (R361, R363, R364): a ready LOOP reads its predicate: it is to re-arm its body, or it completes. -/
def execLoopNode (q node : Nat) (s : State) : Host.Outcome State Fault Refusal :=
  if !startable s q node 6 then .next s
  else
    match predicate s q node with
    | .wait => .next s
    | .fault _ s => .next s
    | .ok (p, s) =>
      let v := p.getD 0
      let y := s.node q node
      let again := v != 0 && decide (y.iter < y.f 0x1E 2)
      let r := noteBranch (startNode s q node) q node v (if again then 0 else 1)
      if !r.1 then .next (branchDiverges r.2 q node)
      else
        let s := r.2
        if again then .next (s.setNode q node { s.node q node with nst := .rearm })
        else
          let s := s.setNode q node { s.node q node with takesA := false }
          let s := if v != 0 then s.modGraph q fun g => { g with info := g.info ||| 1 } else s
          .next (endNode s q node (if p.isNone then 0x31 else 0) (if p.isNone then y.f 0x10 8 else 0))

/-! ## Counters and readiness (R364, R366) -/

/-- Decrement a node for a predecessor: the nodes of the graph, those that became ready, and a node whose
counter was zero already (R364, R366); a LOOP is not ready by its back edges before its entry. -/
def decrement (src : Nat) (r : Sp Node × List Nat × Option Nat) (t : Nat) : Sp Node × List Nat × Option Nat :=
  let x := Sp.get {} r.1 t
  let isBack := x.f 0 1 == 6 && decide (x.f 0x20 2 ≤ src) && decide (src ≤ x.f 0x22 2)
  let c := if isBack then x.back else x.cnt
  if c = 0 then (r.1, r.2.1, some (r.2.2.getD t))
  else
    let x := if isBack then { x with back := c - 1 } else { x with cnt := c - 1 }
    let ready := decide (c = 1) && (!isBack || x.cnt == 0)
    let x := if ready then { x with nst := .ready, reached := true } else x
    (Sp.put r.1 t x, if ready then r.2.1 ++ [t] else r.2.1, r.2.2)

/-- The ready nodes of a graph with more, those that became ready in one cycle in ascending index; `cycle` names the
ones that did so in its earlier turns (R366). -/
def addReady (ready cycle new : List Nat) : List Nat :=
  ready.filter (fun n => !cycle.contains n) ++ sortBy id (ready.filter cycle.contains ++ new)

/-- Decrement the nodes of a list for a node that completes or re-arms (R366); nodes of a graph that has stopped become
ready too, and do not start. -/
def decrementAll (s : State) (q src : Nat) (list : List Nat) : State :=
  match (s.queue q).graph with
  | none => s
  | some g =>
    let r := list.foldl (decrement src) (g.nodes, [], none)
    let cycle := (s.cycle.ready.filter (·.1 == q)).map (·.2)
    let g := { g with nodes := r.1, ready := addReady g.ready cycle r.2.1 }
    let g := match r.2.2 with
      | some t =>
        if g.status = 0 then { g with stopped := true, status := 2, node := t, detail := 0, addr := 0 }
        else { g with stopped := true }
      | none => g
    let s := s.setQueue q { s.queue q with graph := some g }
    if s.cycle.joined then { s with cycle := { s.cycle with ready := s.cycle.ready ++ r.2.1.map fun n => (q, n) } } else s

/-- LOOP_REARM (R364): with no node of its body ready or running, the LOOP resets them and starts its body again. -/
def execLoopRearm (q node : Nat) (s : State) : Host.Outcome State Fault Refusal :=
  let y := s.node q node
  match (s.queue q).graph with
  | none => .next s
  | some g =>
    let lo := y.f 0x20 2
    let body := (List.range (y.f 0x22 2 + 1)).filter (lo ≤ ·)
    let busy := body.any fun m =>
      let st := (s.node q m).nst
      st == .ready || st == .running || st == .rearm
    if y.nst != .rearm || busy || g.stopped then .next s
    else
      let s := body.foldl (fun s m =>
        let x := s.node q m
        s.setNode q m { x with cnt := x.f 2 2, back := x.f 0xA 2, iter := 0, nst := .idle }) s
      let s := s.setNode q node { y with nst := .idle, back := y.f 0xA 2, iter := y.iter + 1 }
      .next (decrementAll s q node y.listA)

/-- Whether the completion of a node is a release at WAF scope of its own: a COPY, an INSTALL or an EVENT (R367). -/
def Node.releases (y : Node) : Bool := y.f 0 1 == 3 || y.f 0 1 == 4 || y.f 0 1 == 7

/-- Whether a node that fails is the one that the completion record names beside the one recorded before: of those that
complete in one cycle, the lowest (R369). -/
def namesNode (s : State) (q node : Nat) (g : Graph) : Bool :=
  g.node == 0xFFFFFFFF || (s.cycle.failed.contains (q, g.node) && decide (node < g.node))

/-- A failed node is recorded, and stops its graph unless its CONTINUE is 1 (R366, R369). -/
def recordFailure (s : State) (q node code addr : Nat) (goOn : Bool) : State :=
  let s := s.modGraph q fun g =>
    if goOn then
      let g := { g with info := g.info ||| 4 }
      if g.status = 0 && namesNode s q node g then { g with node := node, detail := code, addr := addr } else g
    else if g.status = 0 || (g.status == 1 && namesNode s q node g) then
      { g with stopped := true, status := 1, node := node, detail := code, addr := addr }
    else { g with stopped := true }
  if s.cycle.joined then { s with cycle := { s.cycle with failed := s.cycle.failed ++ [(q, node)] } } else s

/-- NODE_COMPLETE (R366, R367): a node with its outcome completes, once its release is complete: it decrements its
successors, or stops the graph. -/
def execNodeComplete (q node : Nat) (s : State) : Host.Outcome State Fault Refusal :=
  let y := s.node q node
  match y.nst, y.res with
  | .running, some (code, addr) =>
    if y.releases && !deviceQuiet s then .next s
    else
    let s := s.setNode q node { y with nst := .done }
    let list := if y.f 0 1 = 5 then (if y.takesA then y.listA else y.listB)
      else if y.f 0 1 = 6 then y.listB else y.listA
    let goOn := bitOf (y.f 1 1) 0
    if code = 0 then .next (decrementAll s q node list)
    else if goOn then .next (decrementAll (recordFailure s q node code addr true) q node list)
    else .next (recordFailure s q node code addr false)
  | _, _ => .next s

/-! ## Completion (R368, R369) -/

/-- Whether a graph has come to its end: nothing runs, and nothing that is ready may start (R366, R368). -/
def Graph.over (g : Graph) : Bool :=
  g.started && (g.stopped || g.ready.isEmpty) &&
    g.nodes.all fun n => n.2.nst != .running && (g.stopped || (n.2.nst != .rearm && n.2.nst != .ready))

/-- INFO of a graph that completes: UNREACHED where a node was never ready, as every node of a graph refused at its
start, or a LOOP has started its body and
was not ready again (R364, R368). DEDUCED (log 100). -/
def Graph.finalInfo (g : Graph) : Nat :=
  if (g.nodes.isEmpty && g.entry.read 4 2 != 0) || g.nodes.any fun n => !n.2.reached || (n.2.nst == .idle && n.2.iter != 0)
  then g.info ||| 2 else g.info

/-- Whether a field of the entry may be used at completion (R358). -/
def Graph.uses (g : Graph) (o : Nat) : Bool :=
  match g.breach with
  | some b => decide (o < b)
  | none => true

/-- The scope of a graph's completion (R358, R368). -/
def Graph.scope (g : Graph) : Scope := if g.uses 1 && bitOf (g.entry.read 1 1) 0 then .sys else .waf

/-- The words of the completion record (R369). -/
def Graph.record (g : Graph) : List Nat :=
  [g.status + g.node * 2 ^ 32, g.detail + g.finalInfo * 2 ^ 32, g.addr, 0]

/-- The VA of the completion record, where one is written (R358, R368). -/
def Graph.recordAt (g : Graph) : Option Nat :=
  if g.uses 0x20 && g.entry.read 0x20 8 != 0 then some (g.entry.read 0x20 8) else none

/-- USED of an armed graph daybook covers the records of a graph that completes (R462). -/
def bookUsed (s : State) (vi : Nat) (g : Graph) : State :=
  match g.book, (s.viface vi).gbook with
  | true, some b => if b.replay then s else putBook s vi 0 b 0x18 8 b.used
  | _, _ => s

/-- The next word of the completion record of a queue's graph is written, as soon as it can be; a write that faults
is lost (R369). -/
def putRecord (s : State) (q va : Nat) (g : Graph) : State :=
  let x := s.queue q
  let next := fun (s : State) => s.modGraph q fun g => { g with written := g.written + 1 }
  match devPut s x.vi x.asn (va + 8 * g.written) 8 (g.record.getD g.written 0) with
  | .wait => s
  | .fault _ s => next s
  | .ok s => next s

/-- The last steps of a graph's completion: the event, the vector, and HEAD (R358, R368). -/
def announceGraph (s : State) (q : Nat) (g : Graph) : State :=
  let x := s.queue q
  let s := if g.uses 0x28 then raiseEvent s x.vi (g.entry.read 0x28 2) else s
  let vec := g.entry.read 0x2A 2
  let s := if g.uses 0x2A && decide (2 ^ 15 ≤ vec) then sendVector s x.vi (vec % 2048) else s
  s.setQueue q { s.queue q with head := (x.head + 1) % 2 ^ 32, graph := none }

/-- GRAPH_COMPLETE (R358, R368, R369, R462): the next step of a graph's completion, in order: USED of the graph
daybook, the release, each word of the completion record, and once they are performed the event, the vector and HEAD. -/
def execGraphComplete (q : Nat) (s : State) : Host.Outcome State Fault Refusal :=
  let x := s.queue q
  match x.graph with
  | none => .next s
  | some g =>
    if !g.over then .next s
    else if !g.covered then .next ((bookUsed s x.vi g).modGraph q fun g => { g with covered := true })
    else if !(s.viface x.vi).puts.isEmpty || !deviceQuietAt s g.scope then .next s
    else
      match g.recordAt with
      | some va => if g.written < 4 then .next (putRecord s q va g) else .next (announceGraph s q g)
      | none => .next (announceGraph s q g)

/-! ## Queue registers and aborts (R370, R371, R457) -/

/-- End everything that a queue runs: its grids and mills are ENDED, its tickets aborted, its graph ABORTED (R370); one
whose completion record is being written has completed (R369). -/
def abortQueue (s : State) (q : Nat) : State :=
  match (s.queue q).graph with
  | none => s
  | some _ =>
    let vi := (s.queue q).vi
    let mine := List.filter (fun (e : Nat × Grid) => !e.2.complete && e.2.node.1 == q && e.2.vi == vi) s.grids
    let s := mine.foldl (fun s e => endLaunch s e.1 { code := 0x14 }) s
    let ts := (s.viface vi).tickets.filter fun t =>
      t.code == 2 && match t.node with
        | some n => n.1 == q
        | none => false
    let s := ts.foldl (fun s t => settleInstall s vi t (stopPages t 8)) s
    let s := { s with waiters := s.waiters.filter (·.1 != q) }
    s.modGraph q fun g => if g.written != 0 then g else { g with
      started := true, stopped := true, status := 4, node := 0xFFFFFFFF, detail := 0, addr := 0, ready := []
      nodes := g.nodes.map fun n =>
        let k := n.2.f 0 1
        let ends := n.2.nst == .rearm || (n.2.nst == .running && (k == 3 || k == 8 || (k == 4 && n.2.pos == 0)))
        (n.1, if ends then { n.2 with nst := .done } else n.2) }

/-- QCFG_WRITE (R454, R457): a write of a queue's QBASE (0), QCFG (8) or QASN (12) by a function. -/
def execQcfgWrite (vi q reg value : Nat) (s : State) : Host.Outcome State Fault Refusal :=
  let x := s.queue q
  let open' := !x.enable && x.head == x.tail
  let refused := s.setQueue q { x with err := x.err ||| 4 }
  if !ownsQueue s vi q then .next (countErr s vi)
  else
    match reg with
    | 0 => .next (if open' && value % 64 == 0 then s.setQueue q { x with base := value % 2 ^ 64 } else refused)
    | 12 => .next (if open' then s.setQueue q { x with asn := value % 2 ^ 16 } else refused)
    | 8 =>
      let nvi := if vi = 64 then value / 2 ^ 16 % 128 else x.vi
      let size := value / 16 % 32
      let same := nvi == x.vi && size == x.sizeLog
      if !same && (!open' || decide (64 < nvi) || decide (size < 4) || decide (16 < size)) then .next refused
      else
        let s := s.setQueue q { x with vi := nvi, sizeLog := size, enable := bitOf value 0 }
        .next (if x.enable && !bitOf value 0 then abortQueue s q else s)
    | _ => .next s

/-- EVRAISE (R371, R455): the host raises an event. -/
def execEvraise (vi n : Nat) (s : State) : Host.Outcome State Fault Refusal := .next (raiseEvent s vi (n % 2 ^ 16))

/-! ## The graph daybook's register (R462) -/

/-- GDAYBOOK_WRITE (R462): the armed daybook is to end, and the VA written is to be armed. DEDUCED (log 102).
DEDUCED (log 105). -/
def execGdaybookWrite (vi value : Nat) (s : State) : Host.Outcome State Fault Refusal :=
  .next (s.setVI vi { s.viface vi with gbookVa := value % 2 ^ 64, gbookNext := some (value % 2 ^ 64) })

/-- Read and check the header of a graph daybook, whose LEVEL is not used (R462). -/
def readGraphBook (s : State) (vi va : Nat) : DevRes (Option Daybook × State) :=
  (devRead s vi 0 va 64).bind fun r =>
    (readBook r.2 vi 0 va (r.1.read 1 1)).bind fun q => .ok (q.1.map fun b => { b with level := 1 }, q.2)

/-- GDAYBOOK_ARM (R462): once every graph that started under the armed daybook has completed, it ends; and once its
header is written, the new VA is armed if its header passes. -/
def execGdaybookArm (vi : Nat) (s : State) : Host.Outcome State Fault Refusal :=
  match (s.viface vi).gbookNext with
  | none => .next s
  | some va =>
    let running := List.any s.queues fun e => e.2.vi == vi &&
      match e.2.graph with
      | some g => g.book
      | none => false
    if running then .next s
    else
      match (s.viface vi).gbook with
      | some b => let s := closeBook s vi 0 b; .next (s.setVI vi { s.viface vi with gbook := none })
      | none =>
        if !(s.viface vi).puts.isEmpty then .next s
        else
          let endWith := fun (s : State) (b : Option Daybook) => s.setVI vi { s.viface vi with gbook := b, gbookNext := none }
          let fails := fun s : State => countErr ((endWith s none).setVI vi { (endWith s none).viface vi with gbookVa := 0 }) vi
          if va = 0 then .next (endWith s none)
          else
            match readGraphBook s vi va with
            | .wait => .next s
            | .fault _ s => .next (fails s)
            | .ok (none, s) => .next (fails s)
            | .ok (some b, s) => .next (endWith (openBook s vi 0 b) (some b))

/-! ## The end of a cycle (R184, R371, R457) -/

/-- A cycle ends: what it holds of every barrier is tested, then the waiting nodes of the events raised in it, and the
doorbells left are taken. -/
def endCycle (s : State) : State :=
  let c := s.cycle
  let s := testBarriers { s with cycle := {} } c
  let s := c.raised.eraseDups.foldl (fun s e => testWaits e.1 e.2 s.waiters s) s
  c.bells.foldl (fun s e => ringQueue s e.1 e.2) s

end Sys2Proof.Machine
end

