-- ==== Sys2Proof/Machine/Preempt.lean ====
section
/-!
DEFINITION. Pre-emption: commands and decisions, and the draining, flushing and saving of blocks
(R390, R391, R397-R408, R412, R416, R450).
-/
namespace Sys2Proof.Machine

/-! ## The command (R397, R455) -/

/-- The fields of PRECMD as the function has written them; FLAGS[7:3] are ignored (R10, R397, R455).
DEDUCED (log 118). -/
def readCommand (s : State) (vi : Nat) : PreCmd :=
  let m := (s.viface vi).regs
  { vi := m.read 0x440 1, flags := m.read 0x441 1 % 8, budget := m.read 0x442 4, ident := m.read 0x446 8
    domains := m.read 0x44E 8, event := m.read 0x456 2, issuer := vi, hold := (m.read 0x441 1).testBit 0 }

/-- Whether a function may issue a command: its fields are within their limits, and a virtual function
commands only itself (R397, R454). DEDUCED (log 119). -/
def PreCmd.legal (c : PreCmd) (vi : Nat) : Bool :=
  decide (c.vi ≤ 64) && (vi == 64 || c.vi == vi) && decide (1 ≤ c.budget) && decide (c.budget ≤ 16777216)

/-- Whether a block stands in the scope of a command: on a core of one of its domains (R397). -/
def PreCmd.covers (c : PreCmd) (s : State) (k : Block) : Bool :=
  let g := s.grid k.gid
  (k.bst == .resident || k.bst == .draining) && g.vi == c.vi && (!c.flags.testBit 2 || g.ident == c.ident) &&
    c.domains.testBit (s.virtualDomain c.vi (domOf k.core))

/-! ## The decision (R398, R399) -/

/-- L, the Floor of the mean phase length, once a phase has ended (R398). -/
def Figures.meanLength (f : Figures) : Option Nat := if f.ended = 0 then none else some (f.issues / f.ended)

/-- C, the cycles of an issue, at least 1 (R398). -/
def Figures.meanCycles (f : Figures) : Nat := max 1 (f.cycles / f.issues)

/-- The estimate E of what a phase of `r` issues still takes, for mean length `l` (R398). -/
def Figures.estimate (f : Figures) (l r : Nat) : Nat := if r < l then (l - r) * f.meanCycles else 0

/-- Whether a block is in none of the states that forbid a FLUSH: no lane in TRAP, no weft PARKED or park
pending, no held race slot, no race instruction (R399). -/
def flushable (s : State) (b : Nat) : Bool :=
  !(s.block b).raced &&
    (List.range (s.launch b).wefts).all fun w =>
      let x := s.weft b w
      x.wst != .parked && x.slots.isEmpty && (List.range 32).all fun l => (s.thread b w l).tst != .trap

/-- Whether the launch of a block is replayed (R416). -/
def inReplay (s : State) (b : Nat) : Bool :=
  match (s.grid (s.block b).gid).book with
  | some d => d.replay
  | none => false

/-- The method that the steward decides for a block (R399, R416). -/
def methodFor (s : State) (c : PreCmd) (b : Nat) : Method :=
  let k := s.block b
  let f := Sp.get {} (s.grid k.gid).figures k.stage
  if k.bst == .draining then .drain
  else if c.flags.testBit 1 || inReplay s b then .save
  else
    match f.meanLength with
    | none => .save
    | some l =>
      if f.estimate l k.issues ≤ c.budget then .drain
      else if (s.launch b).idem && decide (2 * k.issues < l) && flushable s b then .flush
      else .save

/-- Withdraw and discard the held operations of a block (R377, R401). -/
def discardHeld (s : State) (b : Nat) : State :=
  { s with ops := s.ops.map fun e =>
      (e.1, if e.2.blk == b then { e.2 with lanes := e.2.lanes.map fun a => if a.st == .held then { a with st := .withdrawn } else a } else e.2) }

/-- A block stops issuing, to be flushed or saved (R401, R402). -/
def stopBlock (s : State) (b : Nat) (m : Method) : State :=
  let s := s.setBlock b { s.block b with method := some m, stopped := true }
  if m == .flush then discardHeld s b else s

/-- Apply a decision to a block under command `n`; what an earlier command decided beyond a DRAIN stands.
DEDUCED (log 121). DEDUCED (log 124). -/
def applyDecision (s : State) (n b : Nat) (m : Method) : State :=
  let s := s.setBlock b { s.block b with under := (s.block b).under ++ [n] }
  if (s.block b).stopped then s
  else if m == .drain then s.setBlock b { s.block b with method := some .drain, drainAt := (s.block b).issues }
  else stopBlock s b m

/-- PREEMPT_COMMAND (R397, R399, R455): a write to PRECMD; 1 issues the command, and the steward decides for
every block of its scope at once. -/
def execPreemptCommand (vi value : Nat) (s : State) : Host.Outcome State Fault Refusal :=
  let c := readCommand s vi
  if value ≠ 1 then .next s
  else if !c.legal vi then .next (countErr s vi)
  else
    let n := s.cmds.length
    let mine := List.filter (fun (e : Nat × Block) => c.covers s e.2) s.blocks
    let s' := { s with cmds := Sp.put s.cmds n c }
    .next (mine.foldl (fun s' e => applyDecision s' n e.1 (methodFor s c e.1)) s')

/-- DRAIN_BUDGET_EXPIRE (R400): a block that has not ended its phase within the budget is saved. -/
def execDrainBudgetExpire (blk : Nat) (s : State) : Host.Outcome State Fault Refusal :=
  let k := s.block blk
  if k.method == some .drain && k.bst == .resident then .next (stopBlock s blk .save) else .next s

/-- HOLD_LIFT (R397): system software lifts the hold of a command of the function. -/
def execHoldLift (vi cmd : Nat) (s : State) : Host.Outcome State Fault Refusal :=
  match Sp.find? s.cmds cmd with
  | none => .next s
  | some c => .next (if vi = 64 ∨ c.vi = vi then { s with cmds := Sp.put s.cmds cmd { c with hold := false } } else s)

/-- PREEMPT_DONE (R397): every block of the scope has left its core or has been reported NOROOM; the event is raised. -/
def execPreemptDone (cmd : Nat) (s : State) : Host.Outcome State Fault Refusal :=
  match Sp.find? s.cmds cmd with
  | none => .next s
  | some c =>
    if c.done || s.blocks.any (fun e => e.2.under.contains cmd) then .next s
    else .next (raiseEvent { s with cmds := Sp.put s.cmds cmd { c with done := true } } c.vi c.event)

/-! ## Flushing (R401) -/

/-- A block whose turn to be flushed or saved has come: by a command, or by the record of a replay (R399, R416).
DEDUCED (log 126). -/
def forced (s : State) (b : Nat) (m : Method) : State :=
  match duePreempt s b with
  | some (r, m') => if m' == m && (s.block b).bst == .resident then stopBlock (bookUse s (s.block b).gid r) b m else s
  | none => s

/-- FLUSH_RELEASE (R401, R445): once its operations have run to completion, a flushed block frees its core and is
QUEUED, to restart from its latest phase record. -/
def execFlushRelease (blk : Nat) (s : State) : Host.Outcome State Fault Refusal :=
  let s := forced s blk .flush
  let k := s.block blk
  if k.method != some .flush || k.bst != .resident then .next s
  else
    let s := discardHeld s blk
    if !workDone s blk then .next s
    else
      let s := leaveCmd (if k.record.isSome then releaseWefts s blk else clearWefts s blk) blk .flush
      let s := s.setBlock blk { s.block blk with
        bst := .queued, hand := none, left := some (domOf k.core), spm := [], spmBad := [], was := [], bars := [], issues := 0, raced := false, pushed := 0, atoms := [] }
      .next (settleCore s k.core)

/-! ## Saving (R402-R408) -/

/-- Withdraw the waiting race requests of a block; the rounds that it leaves undelivered fail (R402, R450). -/
def withdrawWaits (s : State) (b : Nat) : State :=
  (List.range (s.launch b).wefts).foldl (fun s w => (List.range 32).foldl (leaveRace b w) s) (loseRounds s b)

/-- The wefts of a saved block: their fault entries are withdrawn, and what the area does not hold is kept (R402). -/
def shelveWefts (s : State) (b : Nat) : State :=
  let mine := fun f : FaultRef => match f with
    | .weft b' _ => b' == b
    | .engine _ _ => false
  { s with
    threads := List.filter (fun e => e.1 / 4096 != b) s.threads
    wefts := s.wefts.map fun e => (e.1,
      if e.1 / 128 = b then { e.2 with wst := e.2.wst.leaves .saved, park := none, parkOp := none, pending := false }
      else e.2)
    ops := List.filter (fun e => e.2.blk != b) s.ops
    faults := s.faults.filter (!mine ·), popped := s.popped.filter (!mine ·), pendq := s.pendq.filter (·.1 != b) }

/-- A block that cannot be saved keeps running, and is reported NOROOM (R403). DEDUCED (log 123). -/
def noRoom (s : State) (b : Nat) : State :=
  let s := (s.block b).under.foldl (fun s n =>
    let c := Sp.get noCmd s.cmds n
    { s with cmds := Sp.put s.cmds n { c with noroom := c.noroom + 1 } }) s
  s.setBlock b { s.block b with method := none, under := [], stopped := false }

/-- A block that is SAVED leaves its core for a save area at `base`; one that a host command saves in a replay is set
aside, since no record tells of its restore (R402, R416). -/
def leaveSaved (s : State) (b base len : Nat) : State :=
  let k := s.block b
  let aside := !k.under.isEmpty && inReplay s b
  let s := leaveCmd (shelveWefts s b) b .save
  let elapsed := ((s.core k.core).cyc - BitVec.ofNat 64 k.since).toNat
  let s := s.setBlock b { s.block b with
    bst := .saved, aside := aside, hand := none, since := elapsed, spm := [], spmBad := [], was := [], bars := [], pushed := 0
    area := some { save := true, dom := domOf k.core, base := base, units := unitsOf len, len := len } }
  settleCore s k.core

/-- SAVE_WRITE (R402-R408): a saved block withdraws its waits; once its operations have completed, and no lane has
captured more than a context holds, its save area is written after the release of R161, and its core is
free. DEDUCED (log 35). -/
def execSaveWrite (blk : Nat) (s : State) : Host.Outcome State Fault Refusal :=
  let s := forced s blk .save
  let k := s.block blk
  if k.method != some .save || k.bst != .resident then .next s
  else
    let s := withdrawWaits s blk
    if !opsDone s blk || (List.range (s.launch blk).wefts).any (overCaptured s blk) then .next s
    else
      match releaseTry s k.core .dom with
      | .error s => .next s
      | .ok s =>
        let len := saveLen (s.launch blk) (s.block blk).pushed
        match freeUnits s (s.viOf blk) (domOf k.core) (unitsOf len) with
        | none => .next (noRoom s blk)
        | some base =>
          match putArea s base len (tagged s len (saveArea s blk)) (saveBad s blk) with
          | .error s => .next s
          | .ok s => .next (leaveSaved s blk base len)

end Sys2Proof.Machine
end

