-- ==== Sys2Proof/Machine/Host.lean ====
section
/-!
DEFINITION. The host and the peers: their registers and accesses, migrations, attestation, bring-up and
resets (R221, R232, R354, R355, R371, R446, R451-R461).
-/
namespace Sys2Proof.Machine

/-! ## Translation contexts and invalidations (R212, R221, R455) -/

/-- ASNROOT (R212, R455): a write at +0 is of the ASN, and one at +8 installs the root table of that ASN. -/
def execAsnroot (vi off value : Nat) (s : State) : Host.Outcome State Fault Refusal :=
  let v := s.viface vi
  match off with
  | 0 => .next (s.setVI vi { v with regs := v.regs.write 0x400 2 value })
  | 8 => .next (s.setVI vi { v with roots := Sp.set 0 v.roots (v.regs.read 0x400 2) (value % 2 ^ 64) })
  | _ => .next (countErr s vi)

/-- What a TLBINV register says: the ASN, whether every VA is meant, the first VA and the length (R455). -/
structure InvScope where
  vi : Nat
  asn : Nat
  all : Bool
  shared : Bool
  va : Nat
  len : Nat

def invScope (s : State) (vi : Nat) : InvScope :=
  let v := s.viface vi
  { vi := vi, asn := v.tlbinv % 2 ^ 16, all := v.tlbinv.testBit 16, shared := v.tlbinv.testBit 17
    va := v.regs.read 0x418 8 % 2 ^ 57, len := v.regs.read 0x420 8 }

/-- Whether an invalidation names a TLB entry (R221, R455). DEDUCED (log 133). -/
def InvScope.hits (q : InvScope) (t : TlbEnt) : Bool :=
  t.vi == q.vi && ((q.shared && t.g) || t.asn == q.asn) &&
    (q.all || (decide (t.va < q.va + q.len) && decide (q.va < t.va + 2 ^ t.bits)))

/-- Whether an invalidation names the non-leaf entry that a walk-cache entry holds (R221). -/
def InvScope.hitsWalk (q : InvScope) (e : WalkEnt) : Bool :=
  let size := 2 ^ (12 + 9 * e.level)
  e.vi == q.vi && (q.shared || e.asn == q.asn) &&
    (q.all || (decide (e.va * size < q.va + q.len) && decide (q.va < (e.va + 1) * size)))

/-- The TLBs and the walk caches of a partition without the entries that an invalidation names. -/
def dropTlbs (s : State) (q : InvScope) : State :=
  (s.domsOf q.vi).foldl (fun s d =>
    let s := s.setDomain d { s.domain d with
      tlb := (s.domain d).tlb.filter (!q.hits ·), walks := (s.domain d).walks.filter (!q.hitsWalk ·) }
    (s.coresIn d).foldl (fun s c => s.setCore c { s.core c with tlb := (s.core c).tlb.filter (!q.hits ·) }) s) s

/-- TLBINV (R221, R455): a write of the register at +0; GO starts an invalidation. -/
def execTlbinv (vi value : Nat) (s : State) : Host.Outcome State Fault Refusal :=
  let v := s.viface vi
  let s := s.setVI vi { v with tlbinv := value % 2 ^ 18 + (if value.testBit 31 then 2 ^ 31 else v.tlbinv / 2 ^ 30 * 2 ^ 30) }
  .next (if value.testBit 31 then dropTlbs s (invScope s vi) else s)

/-- Whether an invalidation names bytes at a VA that a block has had translated (R221). -/
def InvScope.names (q : InvScope) (s : State) (b va n : Nat) : Bool :=
  s.viOf b == q.vi && (q.shared || s.asnOf b == q.asn) &&
    (q.all || (decide (va % 2 ^ 57 < q.va + q.len) && decide (q.va < va % 2 ^ 57 + n)))

/-- Whether an access, a prefetch, a piece of a copy, or a staging, translated by an entry that an invalidation names
still awaits its place (R221). -/
def invPending (s : State) (q : InvScope) : Bool :=
  (List.any s.ops fun e =>
    (e.2.kind == .access || e.2.kind == .prefetch) && e.2.lanes.any fun a =>
      match a.st with
      | .ready _ _ _ => q.names s e.2.blk a.addr e.2.acc.size
      | _ => false) ||
  List.any s.cores fun e => e.2.copies.any fun c =>
    (c.2.pend.any fun p => p.pa.isSome && q.names s c.2.blk p.va p.n) ||
      match c.2.kind with
      | .stage _ _ => q.names s c.2.blk c.2.addr 65536
      | _ => false

/-- Clean the L1s of every core of a partition, as far as they can be. -/
def cleanPartition (s : State) (vi : Nat) : Bool × State :=
  ((s.domsOf vi).map s.coresIn).flatten.foldl (fun r c =>
    let q := cleanL1All r.2 c
    (r.1 && q.1, q.2)) (true, s)

/-- TLBINV_DONE (R221): no TLB holds an old entry, and every access translated by one is performed at its L2. -/
def execTlbinvDone (vi : Nat) (s : State) : Host.Outcome State Fault Refusal :=
  let v := s.viface vi
  if !v.tlbinv.testBit 31 then .next s
  else
    let q := invScope s vi
    let s := dropTlbs s q
    if invPending s q then .next s
    else
      let r := cleanPartition s vi
      .next (if r.1 then r.2.setVI vi { r.2.viface vi with tlbinv := v.tlbinv % 2 ^ 18 + 2 ^ 30 } else r.2)

/-- L2HASH_WRITE (R232, R455): a mask changes while the domain holds no resident block, and the whole L2 is
cleaned and invalidated; while it holds one, the write has no effect. DEDUCED (log 134). DESIGN CHOICE (log 176). -/
def execL2hashWrite (dom index value : Nat) (s : State) : Host.Outcome State Fault Refusal :=
  let resident := List.any s.blocks fun e =>
    (e.2.bst == .resident || e.2.bst == .draining) && domOf e.2.core == dom
  if resident || decide (4 ≤ index) then .next s
  else
    let r := tryAll (fun s l => cleanRemote s dom l) (Sp.keys (s.domain dom).remote) s
    if !r.1 then .next r.2
    else
      let x := r.2.domain dom
      .next (r.2.setDomain dom { x with
        remote := [], plates := [], invq := [], keep := [], l2hash := x.l2hash.set index (value % 2 ^ 44) })

/-! ## Migration (R354, R355, R455) -/

/-- Whether some page from a VA on lies in a frame, by the walks of the address space. -/
def reachesFrame (s : State) (vi asn va len old size : Nat) : Bool :=
  (List.range (len / 4096 + 1)).any fun i =>
    match walk s vi asn ((va + 4096 * i) % 2 ^ 57) with
    | .ok _ t => let pa := t.phys ((va + 4096 * i) % 2 ^ 57); decide (old ≤ pa) && decide (pa < old + size)
    | .fail _ _ => false

/-- Whether a page may not migrate: its size or frames are wrong, a frame lies outside the partition of a virtual
interface that asks, it lies in a sealed range or in a pinned race buffer, or it is a plate page (R11, R354, R355).
DEDUCED (log 135). -/
def migrateRefused (s : State) (vi old new sz : Nat) : Bool :=
  let size := 2 ^ szBits sz
  let raceBuffer := List.any s.grids fun e =>
    e.2.vi == vi && !e.2.complete &&
      match e.2.mill with
      | some m => m.started && m.races.any fun r => reachesFrame s vi e.2.asn r.base (r.slots * 2 ^ r.slotLog) old size
      | none => false
  decide (3 < sz) || old % size != 0 || new % size != 0 || regionOf s old != .dram || regionOf s new != .dram ||
    homeOf old == homeOf new || raceBuffer ||
    (vi != 64 && !((s.viface vi).partmap.testBit (homeOf old) && (s.viface vi).partmap.testBit (homeOf new))) ||
    (s.viface vi).seals.any fun e => reachesFrame s vi e.asn e.base e.len old size

/-- MIGRATE_START (R354, R355, R455): COMMAND 1; from now on writes to the old frame also reach the new one. -/
def execMigrateStart (vi : Nat) (s : State) : Host.Outcome State Fault Refusal :=
  let v := s.viface vi
  let old := v.regs.read 0x480 8
  let new := v.regs.read 0x488 8
  let sz := v.regs.read 0x490 4
  if v.mig.status = 1 ∨ v.mig.status = 2 then .next s
  else
    .next (s.setVI vi { v with mig :=
      { old := old, new := new, sz := sz, status := if migrateRefused s vi old new sz then 3 else 1 } })

/-- The lines of a frame. -/
def frameLines (pa size : Nat) (line : Nat) : Bool := decide (pa ≤ line * 256) && decide (line * 256 < pa + size)

/-- A memory with a frame copied to another. -/
def frameCopied (m : Memory) (old new size : Nat) : Memory :=
  let moved := List.filter (fun (e : Nat × Byte) => decide (old ≤ e.1) && decide (e.1 < old + size)) m
  let kept := List.filter (fun (e : Nat × Byte) => !(decide (new ≤ e.1) && decide (e.1 < new + size))) m
  moved.foldl (fun m e => Memory.setByte m (e.1 - old + new) e.2) kept

/-- What was stored to a frame's units since the launches, for those of another (R23). -/
def storedMoved (m : Sp (List (Nat × Nat))) (old new size : Nat) : Sp (List (Nat × Nat)) :=
  (List.filter (fun (e : Nat × List (Nat × Nat)) => decide (old ≤ 2 * e.1) && decide (2 * e.1 < old + size)) m).foldl
    (fun m e => Sp.put m (e.1 - old / 2 + new / 2) e.2) m

/-- Main DRAM with a frame copied to another; what the launches found, and what was stored since, moves along (R23). -/
def copyFrame (s : State) (old new size : Nat) : State :=
  let movedBad := List.filter (fun (e : Nat × Nat) => decide (old ≤ 8 * e.1) && decide (8 * e.1 < old + size)) s.bad
  let keptBad := List.filter (fun (e : Nat × Nat) => !(decide (new ≤ 8 * e.1) && decide (8 * e.1 < new + size))) s.bad
  { s with mem := frameCopied s.mem old new size
           grids := List.map (fun e => (e.1, { e.2 with code := frameCopied e.2.code old new size })) s.grids
           stored := storedMoved s.stored old new size
           bad := movedBad.foldl (fun m e => Sp.put m (e.1 - old / 8 + new / 8) e.2) keptBad }

/-- No copy of a line of a frame is left in any cache, and every domain that its home's directory names is sent its
invalidation (R355, R441). -/
def forgetFrame (s : State) (pa size : Nat) : State :=
  let out := fun (m : Sp CLine) => List.filter (fun (e : Nat × CLine) => !frameLines pa size e.1) m
  let lines := ((s.domain (homeOf pa)).dir.map (·.line)).filter (frameLines pa size)
  let s := lines.foldl (fun s l => dirDrop (dirSend s l 64) l) s
  { s with cores := s.cores.map fun e => (e.1, { e.2 with l1 := out e.2.l1 })
           domains := s.domains.map fun e => (e.1, { e.2 with remote := out e.2.remote }) }

/-- MIGRATE_COPIED (R354, R355): every line has been copied, once no engine owns a line of the page and the messages
between the frames' homes cross; what caches still hold of an earlier use of the new frame is gone.
DEDUCED (log 136). -/
def execMigrateCopied (vi : Nat) (s : State) : Host.Outcome State Fault Refusal :=
  let v := s.viface vi
  let size := 2 ^ szBits v.mig.sz
  let inFrame := frameLines v.mig.old size
  let ownedIn := List.any s.domains fun e => e.2.owned.any fun o =>
    decide (o.first * 256 < v.mig.old + size) && decide (v.mig.old < (o.first + o.count) * 256)
  let busy := (s.domain (homeOf v.mig.old)).busy.any fun i => inFrame i.line
  if v.mig.status ≠ 1 ∨ ownedIn ∨ busy ∨ wayTo s (homeOf v.mig.old) (homeOf v.mig.new) ≠ .crosses then .next s
  else
    let s := forgetFrame (copyFrame s v.mig.old v.mig.new size) v.mig.new size
    .next (s.setVI vi { s.viface vi with mig := { v.mig with status := 2 } })

/-- Clean the lines of a frame in every L1 and remote copy of a partition, and drop them. -/
def purgeFrame (s : State) (vi old size : Nat) : Bool × State :=
  let inFrame := frameLines old size
  (s.domsOf vi).foldl (fun r d =>
    let r := (s.coresIn d).foldl (fun (r : Bool × State) c =>
      let q := tryAll (fun s l => do .ok ((← cleanL1 s c l).dropL1 c l)) ((Sp.keys (r.2.core c).l1).filter inFrame) r.2
      (r.1 && q.1, q.2)) r
    let q := tryAll (fun s l => do .ok ((← cleanRemote s d l).dropRem d l)) ((Sp.keys (r.2.domain d).remote).filter inFrame) r.2
    (r.1 && q.1, q.2)) (true, s)

/-- MIGRATE_FINISH (R354, R455): COMMAND 2; after the invalidation, the old frame's lines leave the caches and
forwarding stops. -/
def execMigrateFinish (vi : Nat) (s : State) : Host.Outcome State Fault Refusal :=
  let v := s.viface vi
  if v.mig.status ≠ 2 ∨ v.tlbinv.testBit 31 then .next s
  else
    let r := purgeFrame s vi v.mig.old (2 ^ szBits v.mig.sz)
    .next (if r.1 then r.2.setVI vi { r.2.viface vi with mig := { v.mig with status := 4 } } else r.2)

/-! ## Accesses of the host and of peers (R446, R451, R453, R454) -/

/-- What an access from outside does at its address. -/
inductive OutFn where
  | load | store | add | swap | cas
  deriving DecidableEq, Repr

/-- The function of a number: a load, a store, or the 64-bit FetchAdd, Swap and CAS (R451, R453).
DESIGN CHOICE (log 72). -/
def OutFn.ofCode : Nat → OutFn
  | 0 => .load
  | 2 => .add
  | 3 => .swap
  | 4 => .cas
  | _ => .store

/-- The value that an access from outside leaves: CAS compares with the low 64 bits of its data and writes
the next 64 (R132). -/
def OutFn.new (f : OutFn) (n old x : Nat) : Nat :=
  match f with
  | .load => old
  | .store => x % 2 ^ (8 * n)
  | .add => (old + x) % 2 ^ (8 * n)
  | .swap => x % 2 ^ (8 * n)
  | .cas => if old = x % 2 ^ 64 then x / 2 ^ 64 % 2 ^ 64 else old

/-- An access from outside to bytes of one line of main DRAM, at SYS scope at its home; a host's read sets
the H bit of the line's entry, and its own write causes no back-invalidation (R446, R451, R453). An atomic that reads a
poisoned word writes nothing (R393). -/
def outAccess (s : State) (host : Bool) (f : OutFn) (pa n x : Nat) : State :=
  let line := lineOf pa
  if regionOf s pa ≠ .dram ∨ 256 < pa % 256 + n then s
  else
    match homeReach s (homeOf pa) line with
    | .error s => s
    | .ok s =>
      if f = .load then (if host then dirUpdate s line fun e => { e with host := true } else s)
      else if f != .store && (s.homeBad pa n).isSome then s
      else
        let y := f.new n (s.homeRead pa n) x
        noteStore
          (dirWrite (homeBytes s line (lineData pa n y) (byteMask (pa % 256) n) []) line (if host then 65 else 64) (f != .store))
          none pa n y

/-- HOST_MEM_ACCESS (R446, R451, R454): an access of a function through BAR4; beyond a domain's DRAM a write
is discarded. -/
def execHostMemAccess (vi fn off size data : Nat) (s : State) : Host.Outcome State Fault Refusal :=
  match s.physDomain vi (off / 2 ^ 36) with
  | none => .next (if fn = 0 then s else countErr s vi)
  | some d => .next (outAccess s true (if fn = 0 then .load else .store) (d * 2 ^ 46 + off % 2 ^ 36) size data)

/-- The bytes that a function reads through BAR4: all ones beyond the domain's DRAM, zero where the function has no
such domain, and none from a poisoned word (R393, R454). -/
def readBar4 (s : State) (vi off n : Nat) : Option Nat :=
  match s.physDomain vi (off / 2 ^ 36) with
  | none => some 0
  | some d =>
    let pa := d * 2 ^ 46 + off % 2 ^ 36
    if regionOf s pa ≠ .dram then some (2 ^ (8 * n) - 1)
    else if (s.homeBad pa n).isSome then none
    else some (s.homeRead pa n)

/-- Whether there is a peer port of a number: port 2d + i is peer port i of domain d, which has a host port (R453). -/
def isPeerPort (port : Nat) : Bool := hostPorts.contains (port / 2)

/-- PEER_ACCESS (R453): an access of a peer module at a window offset; port 2d + i is peer port i of domain d. -/
def execPeerAccess (port fn off size data : Nat) (s : State) : Host.Outcome State Fault Refusal :=
  let p := Sp.get {} s.peers port
  .next (if isPeerPort port && p.up && decide (off < p.len) then outAccess s false (OutFn.ofCode fn) (p.base + off) size data else s)

/-! ## Registers (R344, R403, R424, R430, R453-R456, R460) -/

/-- Whether an offset lies in one of the registers that hold what is written, and nothing else (R455). -/
def plainReg (off : Nat) : Bool :=
  [(0x418, 16), (0x440, 24), (0x480, 20), (0x4C8, 4), (0x540, 40)].any fun r =>
    decide (r.1 ≤ off) && decide (off < r.1 + r.2)

/-- The bits of a byte of those registers that are not reserved: FLAGS of PRECMD has three, and FQVEC a vector and
its enable (R10, R397, R455). -/
def plainMask (off : Nat) : Nat :=
  match off with
  | 0x441 => 7
  | 0x4C9 => 7
  | 0x4CA => 0
  | 0x4CB => 0x80
  | _ => 0xFF

/-- The registers after a write of bytes, each with its reserved bits zero (R10, R455). -/
def setRegs (v : VIface) (off n x : Nat) : VIface :=
  { v with regs := (List.range n).foldl (fun m i =>
      if plainReg (off + i) then m.write (off + i) 1 (x / 256 ^ i % 256 &&& plainMask (off + i)) else m) v.regs }

/-- A write of one byte of a FREE route table: two entries (R422, R424). -/
def writeTable (s : State) (d tbl i byte : Nat) : State :=
  let x := s.domain d
  if tableState x tbl ≠ 0 then s
  else
    let r := Sp.put (Sp.put x.routes (tbl * 640 + 2 * i) (byte % 16)) (tbl * 640 + 2 * i + 1) (byte / 16 % 16)
    s.setDomain d { x with routes := r }

/-- A write to a field of PEERWIN; the two ports' registers stand 32 bytes apart, in the windows of the domains that
have a host port (R453). -/
def writePeer (s : State) (d off value : Nat) : State :=
  let port := d * 2 + off / 32
  if !isPeerPort port then s else
  let p := Sp.get {} s.peers port
  let p := match off % 32 with
    | 0 => { p with base := value % 2 ^ 64 }
    | 8 => { p with len := value % 2 ^ 64 }
    | 16 => { p with vi := value % 2 ^ 8 }
    | _ => p
  { s with peers := Sp.put s.peers port p }

/-- A field of PEERWIN as it reads (R453). -/
def readPeer (s : State) (d off : Nat) : Nat :=
  let p := Sp.get {} s.peers (d * 2 + off / 32)
  match off % 32 with
  | 0 => p.base
  | 8 => p.len
  | 16 => p.vi
  | _ => 0

/-- A write to bytes of CTREE: its fields, and GO, which builds the tree (R455, R456). -/
def writeCtree (s : State) (vi d off size value : Nat) : State :=
  let m := (List.range size).foldl (fun (m : Memory) i => if off + i < 10 then m.write (off + i) 1 (value / 256 ^ i) else m)
    (Sp.get [] (s.domain d).ctree vi)
  let s := s.setCtree d vi m
  if off ≤ 10 ∧ 10 < off + size ∧ (value / 256 ^ (10 - off)).testBit 0 then buildTree s vi (m.read 0 8) (m.read 8 1) (m.read 9 1)
  else s

/-- A write to a register of a domain's window (R455): CTXBASE, CTXLEN and CTREE belong to the virtual interface, the
others to the physical function. -/
def writeWindow (s : State) (vi d off size value : Nat) : State :=
  let x := s.domain d
  let c := Sp.get (0, 0) x.ctx vi
  if off = 0 then s.setDomain d { x with ctx := Sp.put x.ctx vi (value % 2 ^ 64, c.2) }
  else if off = 8 then s.setDomain d { x with ctx := Sp.put x.ctx vi (c.1, value % 2 ^ 64) }
  else if 0x68 ≤ off ∧ off < 0x80 then writeCtree s vi d (off - 0x68) size value
  else if vi ≠ 64 then countErr s vi
  else if off = 0x40 then s.setDomain d { x with mxIdle := value % 2 ^ 16 }
  else if 0x80 ≤ off ∧ off < 0xC0 then writePeer s d (off - 0x80) value
  else if 0x100 ≤ off ∧ off < 0x380 then
    (List.range size).foldl (fun s i =>
      writeTable s d ((off - 0x100 + i) / 320) ((off - 0x100 + i) % 320) (value / 256 ^ i % 256)) s
  else countErr s vi

/-- The domain whose window a function names: a virtual function by virtual number, the physical function by
physical number (R454, R455). DEDUCED (log 137). -/
def windowDomain (s : State) (vi n : Nat) : Option Nat :=
  if vi = 64 then (if n < 64 then some n else none) else s.physDomain vi n

/-- REGISTER_WRITE (R454, R455): a function writes a register of BAR0 that has no step of its own; a write that
the function may not make is discarded and counted. DEDUCED (log 83). -/
def execRegisterWrite (vi off size value : Nat) (s : State) : Host.Outcome State Fault Refusal :=
  let v := s.viface vi
  if off = 0x400 ∨ off = 0x408 then execAsnroot vi (off - 0x400) value s
  else if plainReg off then .next (s.setVI vi (setRegs v off size value))
  else if off = 0x500 then
    .next (writeOrrery (s.setVI vi { v with regs := v.regs.write 0x500 8 value, orrGen := 0 }) vi)
  else if off = 0x510 then .next (s.setVI vi { v with ibudget := value % 2 ^ 64 })
  else if off = 0x580 ∧ vi = 64 then .next (if 4000 ≤ value ∧ value ≤ 25000 then { s with pwrlim := value } else s)
  else if 0x1000000 ≤ off then
    match windowDomain s vi ((off - 0x1000000) / 0x10000) with
    | some d => .next (writeWindow s vi d (off % 0x10000) size value)
    | none => .next (countErr s vi)
  else .next (countErr s vi)

/-- PARTMAP (R455): the physical function gives a virtual interface its domains, while it has no enabled queue;
no domain lies in two masks. -/
def execPartmap (vi mask : Nat) (s : State) : Host.Outcome State Fault Refusal :=
  let enabled := List.any s.queues fun e => e.2.enable && e.2.vi == vi
  let shared := List.any s.vis fun e => e.1 != vi && e.2.partmap &&& (mask % 2 ^ 64) != 0
  if enabled || shared || decide (64 < vi) then .next s
  else .next (writeOrrery (s.setVI vi { s.viface vi with partmap := mask % 2 ^ 64 }) vi)

/-! ## Reads of registers (R424, R433, R454-R457) -/

/-- A register of a domain's window as a function reads it. -/
def readWindow (s : State) (vi d off : Nat) : Nat :=
  let x := s.domain d
  let c := Sp.get (0, 0) x.ctx vi
  if off = 0 then c.1
  else if off = 8 then c.2
  else if off = 0x10 then plwear x
  else if off = 0x44 then 96
  else if 0x68 ≤ off ∧ off < 0x80 then Memory.read (Sp.get [] x.ctree vi) (off - 0x68) 8
  else if vi ≠ 64 then 0
  else if 0x20 ≤ off ∧ off < 0x40 then x.l2hash.getD ((off - 0x20) / 8) 0
  else if off = 0x40 then x.mxIdle
  else if off = 0x48 then
    x.fcode + x.fcur * 2 ^ 16 + (if x.vfBusy then 2 ^ 24 else 0) + (if x.vfRefused then 2 ^ 25 else 0)
  else if off = 0x50 then rtctl x
  else if off = 0x60 then x.rename.spare + x.rename.name * 2 ^ 16 + x.rename.status * 2 ^ 32
  else if 0x80 ≤ off ∧ off < 0xC0 then readPeer s d (off - 0x80)
  else if 0x100 ≤ off ∧ off < 0x380 then
    let t := (off - 0x100) / 320
    let i := (off - 0x100) % 320
    routeEntry s d t (2 * i) + routeEntry s d t (2 * i + 1) * 16
  else 0

/-- A register of BAR0 as a function reads it; FQPOP, whose read changes the queue, is a step of its own. -/
def readRegister (s : State) (vi off : Nat) : Nat :=
  let v := s.viface vi
  if off < 0x208 then (if vi = 64 then (s.viface (off / 8)).partmap else 0)
  else if plainReg off || off = 0x400 || off = 0x500 then v.regs.read off 8
  else if off = 0x408 then Sp.get 0 v.roots (v.regs.read 0x400 2)
  else if off = 0x410 then v.tlbinv
  else if off = 0x460 then
    let n := (List.filter (fun (e : Nat × PreCmd) => e.2.issuer == vi) s.cmds).getLast?
    match n with
    | some (_, c) => c.drained + c.flushed * 2 ^ 32 + c.saved * 2 ^ 64 + c.noroom * 2 ^ 96
    | none => 0
  else if off = 0x498 then v.mig.status
  else if off = 0x508 then v.gbookVa
  else if off = 0x510 then v.ibudget
  else if off = 0x568 then v.attest
  else if off = 0x580 then (if vi = 64 then s.pwrlim else 0)
  else if off = 0x588 then v.vferr
  else if 0x400000 ≤ off ∧ off < 0x440000 then Sp.get 0 v.events ((off - 0x400000) / 4)
  else if off = 0x800000 then
    match (answered s vi v.fqLast).bind (faultData s) with
    | some e => e.bytes.read 0 48
    | none => 0
  else if 0x100000 ≤ off ∧ off < 0x300000 then
    let q := s.queue ((off - 0x100000) / 32)
    if vi ≠ 64 ∧ q.vi ≠ vi then 0
    else
      match off % 32 with
      | 0 => q.base
      | 8 => (if q.enable then 1 else 0) + q.sizeLog * 16 + q.vi * 2 ^ 16
      | 12 => q.asn
      | 16 => q.head
      | 20 => q.err
      | _ => 0
  else if 0x1000000 ≤ off then
    match windowDomain s vi ((off - 0x1000000) / 0x10000) with
    | some d => readWindow s vi d (off % 0x10000)
    | none => 0
  else 0

/-! ## Attestation (R459) -/

/-- The SHAKE256-256 digest of the firmware images of the domains, in order (R459). -/
def firmwareDigest (s : State) : List Byte :=
  shake256 ((List.range 64).map fun d => Config.firmwareImage (s.domain d).firmware).flatten 32

/-- The quote before its signature (R459). -/
def quoteBody (s : State) (vi : Nat) : List Byte :=
  let v := s.viface vi
  (v.regs.readBytes 0x540 32) ++ firmwareDigest s ++
    ((List.range 65).map fun i => littleEndian 8 (s.viface i).partmap).flatten ++
    littleEndian 8 v.orrGen ++ orreryDigest s vi

/-- ATTEST (R459): GO writes the quote and its signature at BUF; DONE is set after they are written at SYS scope. -/
def execAttest (vi value : Nat) (s : State) : Host.Outcome State Fault Refusal :=
  if !value.testBit 0 then .next s
  else
    let body := quoteBody s vi
    let all := body ++ (List.range 29792).map (Config.signature body)
    let s := queueBytes s vi 0 ((s.viface vi).regs.read 0x560 8) all.length (Memory.writeBytes [] 0 all)
    let v := s.viface vi
    .next (s.setVI vi { v with attest := 1, puts := v.puts ++ [{ asn := 0, va := 0, n := 0, x := 0 }] })

/-! ## Bring-up and resets (R341, R371, R423, R459, R461) -/

/-- Every orrery image is written. -/
def refreshAll (s : State) : State := s.vis.foldl (fun s e => writeOrrery s e.1) s

/-- Whether a domain's firmware image passes: its signature verifies, and its version is not below the minimum
(R459). -/
def Domain.boots (x : Domain) (fwMin : Nat) : Bool := x.fwGood && decide (fwMin ≤ x.fwVersion)

/-- Spare rows stand in for a core's defective ones, two at most in an array (R311). -/
def Core.mapSpares (c : Core) : Core :=
  { c with arrays := c.defects.foldl (fun a e => Sp.put a e.1 { Sp.get {} a e.1 with spare := min 2 e.2 }) c.arrays }

/-- The cores of a domain that are usable: those of them none of whose arrays has more than two defective rows (R1,
R311). -/
def soundCores (s : State) (d : Nat) : Nat :=
  (List.range 40).foldl (fun m i =>
    if (s.domain d).coremap.testBit i && (s.core (d * 40 + i)).defects.all fun e => decide (e.2 ≤ 2) then m ||| 1 <<< i else m) 0

/-- POWER_ON (R311, R459, R461): each steward verifies its firmware, and each domain whose image passes maps its spare
rows and comes up. -/
def execPowerOn (s : State) : Host.Outcome State Fault Refusal :=
  .next (refreshAll ((List.range 64).foldl (fun s d =>
    let x := s.domain d
    if x.st = 0 ∧ x.boots s.fwMin then
      { s.setDomain d { x with st := 1, coremap := soundCores s d } with
        cores := s.cores.map fun e => (e.1, if domOf e.1 = d then e.2.mapSpares else e.2) }
    else s) s))

/-- A core after its reset: its spare rows are mapped from the test record (R311). -/
def Core.afterReset (c : Core) : Core := Core.mapSpares { defects := c.defects }

/-- A domain after its reset: what flash, the fuses, the configuration of its virtual interfaces and its
directory of the copies in other domains and at the host hold stays, and a switch that has begun goes on (R341, R347,
R348, R423). -/
def Domain.afterReset (x : Domain) (fwMin : Nat) : Domain :=
  { st := if x.boots fwMin then 1 else 0, firmware := x.firmware, fwVersion := x.fwVersion, fwGood := x.fwGood
    coremap := x.coremap, banks := x.banks, ctx := x.ctx
    spare := x.spare, retired := x.retired, fblocks := x.fblocks, dramGib := x.dramGib, flashGib := x.flashGib
    switching := x.switching, moves := x.moves.filter (·.pst == .switching), plateMap := x.plateMap
    flash := x.flash, flashBad := x.flashBad, portUp := x.portUp
    dir := x.dir, busy := x.busy, snoops := x.snoops }

/-- The installs with a page homed in a domain are aborted; a page in SWITCHING completes (R341, R347, R351).
DEDUCED (log 146). -/
def abortInstalls (s : State) (d : Nat) : State :=
  s.vis.foldl (fun s e =>
    ((s.viface e.1).tickets.filter fun t =>
      t.code == 2 && t.pages.any fun p => homeOf p.dest == d && !p.pst.final).foldl
      (fun s t => settleInstall s e.1 t (stopPages t 8)) s) s

/-- The packets in the router of a domain are lost. -/
def losePackets (s : State) (d : Nat) : State :=
  ((s.packets.filter fun e => e.2.here == d).map (·.1)).foldl losePacket s

/-- The blocks on a domain's cores, in ascending linear block id. -/
def blocksIn (s : State) (dom : Nat) : List Nat :=
  sortBy (fun b => (s.block b).lin) ((List.filter (fun (e : Nat × Block) =>
    (e.2.bst == .resident || e.2.bst == .draining) && domOf e.2.core == dom) s.blocks).map (·.1))

/-- DOMAIN_RESET (R200, R311, R341, R370, R418, R423, R450): the blocks on the domain's cores are lost, and its
cores, caches, directory, router and clock are as after reset; a launch that runs keeps its counts of what it has
placed. DEDUCED (log 138). DESIGN CHOICE (log 175). -/
def execDomainReset (dom : Nat) (s : State) : Host.Outcome State Fault Refusal :=
  let s := (blocksIn s dom).foldl (fun s b =>
    let s := loseBlock s b
    leaveCmd (s.setBlock b { s.block b with method := none }) b .drain) s
  let s := losePackets (abortInstalls (breakRouter s dom) dom) dom
  let s := s.setDomain dom { s.domain dom with coremap := soundCores s dom }
  let s := (List.range 40).foldl (fun s i => s.setCore (dom * 40 + i) (s.core (dom * 40 + i)).afterReset) s
  .next (refreshAround (s.setDomain dom ((s.domain dom).afterReset s.fwMin)) dom)

/-- The pages of a virtual interface's installs that are in SWITCHING, in the order of acceptance (R348). -/
def switchingPages (s : State) (vi : Nat) : List InstPage :=
  let ts := (s.viface vi).tickets.filterMap fun t => t.accepted.map fun a => (a, t)
  (sortBy id (ts.map (·.1))).flatMap fun a =>
    ((ts.filter (·.1 == a)).map fun t => t.2.pages.filter (·.pst == .switching)).flatten

/-- VIRTUAL_INTERFACE_RESET (R347, R351, R371, R397): its ticket table is empty, its events are zero and its launch
identities start again; a page in SWITCHING goes on for no ticket. DEDUCED (log 139). -/
def execVirtualInterfaceReset (vi : Nat) (s : State) : Host.Outcome State Fault Refusal :=
  let s := (switchingPages s vi).foldl (fun s p =>
    s.setDomain (homeOf p.dest) { s.domain (homeOf p.dest) with moves := (s.domain (homeOf p.dest)).moves ++ [p] }) s
  .next (s.setVI vi { s.viface vi with tickets := [], events := [], nextIdent := 1 })

/-- POWER_LOSS (R341, R408): every operation ends; what is left is what flash holds, the defects found at test
and the world outside; the context key is drawn anew. DEDUCED (log 140). -/
def execPowerLoss (s : State) : Host.Outcome State Fault Refusal :=
  .next { State.reset with
    domains := s.domains.map fun e => (e.1, { e.2.afterReset s.fwMin with
      st := 0, ctx := [], dir := [], busy := [], snoops := [], switching := [], moves := [] })
    cores := s.cores.map fun e => (e.1, e.2.afterReset)
    hostMem := s.hostMem, peers := s.peers.map fun e => (e.1, { e.2 with base := 0, len := 0, vi := 0 })
    fwMin := s.fwMin, key := s.key + 1, agenda := s.agenda, free := s.free }

end Sys2Proof.Machine
end

