-- ==== Sys2Proof/Machine/Uniform.lean ====
section
/-!
DEFINITION. The uniform instructions (R167-R170).
-/
namespace Sys2Proof.Machine

/-- k(kd) from k(ka) and k(kb) (R168). -/
def uniWord (f : Word → Word → Word) (d a b : KReg) (s : State) : Host.Outcome State Fault Refusal :=
  issueOnce [] [(d.toNat, 1), (a.toNat, 1), (b.toNat, 1)]
    (fun s => s.wft.setK d.toNat (f (s.wft.kreg a.toNat) (s.wft.kreg b.toNat))) s

/-- KADD (R168): Uniform add. -/
def execKadd (d a b : KReg) (s : State) : Host.Outcome State Fault Refusal :=
  uniWord (fun a b => a + b) d a b s

/-- KSUB (R168): Uniform subtract. -/
def execKsub (d a b : KReg) (s : State) : Host.Outcome State Fault Refusal :=
  uniWord (fun a b => a - b) d a b s

/-- KMUL (R168): Uniform multiply, low word. -/
def execKmul (d a b : KReg) (s : State) : Host.Outcome State Fault Refusal :=
  uniWord (fun a b => a * b) d a b s

/-- KAND (R168): Uniform AND. -/
def execKand (d a b : KReg) (s : State) : Host.Outcome State Fault Refusal :=
  uniWord (fun a b => a &&& b) d a b s

/-- KOR (R168): Uniform OR. -/
def execKor (d a b : KReg) (s : State) : Host.Outcome State Fault Refusal :=
  uniWord (fun a b => a ||| b) d a b s

/-- KXOR (R168): Uniform XOR. -/
def execKxor (d a b : KReg) (s : State) : Host.Outcome State Fault Refusal :=
  uniWord (fun a b => a ^^^ b) d a b s

/-- KSHL (R168): Uniform left shift. -/
def execKshl (d a b : KReg) (s : State) : Host.Outcome State Fault Refusal :=
  uniWord shlW d a b s

/-- KSHR (R168): Uniform logical right shift. -/
def execKshr (d a b : KReg) (s : State) : Host.Outcome State Fault Refusal :=
  uniWord shrlW d a b s

/-- KSRA (R168): Uniform arithmetic right shift. -/
def execKsra (d a b : KReg) (s : State) : Host.Outcome State Fault Refusal :=
  uniWord shraW d a b s

/-- KSEQ (R168): Uniform equality compare. -/
def execKseq (d a b : KReg) (s : State) : Host.Outcome State Fault Refusal :=
  uniWord (fun a b => mask32 (a == b)) d a b s

/-- KSLT (R168): Uniform signed less-than. -/
def execKslt (d a b : KReg) (s : State) : Host.Outcome State Fault Refusal :=
  uniWord (fun a b => mask32 (a.slt b)) d a b s

/-- KSLTN (R168): Uniform unsigned less-than. -/
def execKsltn (d a b : KReg) (s : State) : Host.Outcome State Fault Refusal :=
  uniWord (fun a b => mask32 (a.ult b)) d a b s

/-- KMIN (R168): Uniform signed minimum. -/
def execKmin (d a b : KReg) (s : State) : Host.Outcome State Fault Refusal :=
  uniWord minS d a b s

/-- KMAX (R168): Uniform signed maximum. -/
def execKmax (d a b : KReg) (s : State) : Host.Outcome State Fault Refusal :=
  uniWord maxS d a b s

/-- KMULHI (R168): Uniform signed high product. -/
def execKmulhi (d a b : KReg) (s : State) : Host.Outcome State Fault Refusal :=
  uniWord mulHi d a b s

/-- KADDI (R168): Uniform add of an 11-bit immediate. -/
def execKaddi (d a : KReg) (i : BitVec 11) (s : State) : Host.Outcome State Fault Refusal :=
  issueOnce [] [(d.toNat, 1), (a.toNat, 1)]
    (fun s => s.wft.setK d.toNat (s.wft.kreg a.toNat + BitVec.signExtend 32 i)) s

/-- KSEL (R168): Uniform select on old kd. -/
def execKsel (d a b : KReg) (s : State) : Host.Outcome State Fault Refusal :=
  issueOnce [] [(d.toNat, 1), (a.toNat, 1), (b.toNat, 1)]
    (fun s => s.wft.setK d.toNat
      (if s.wft.kreg d.toNat = 0 then s.wft.kreg b.toNat else s.wft.kreg a.toNat)) s

/-- KADD64 (R168): Uniform pair add. -/
def execKadd64 (d a b : KReg) (s : State) : Host.Outcome State Fault Refusal :=
  issueOnce [] [(d.toNat, 2), (a.toNat, 2), (b.toNat, 2)]
    (fun s => s.wft.setKPair d.toNat (s.wft.kpair a.toNat + s.wft.kpair b.toNat)) s

/-- KMOVV (R168): Copy v(va) of the lowest issue-set lane into a uniform register. -/
def execKmovv (d : KReg) (a : VReg) (s : State) : Host.Outcome State Fault Refusal :=
  issue { permitted := fun k => k.permits .integer, regs := [one a] }
    (fun s => issueBusy s [] [(d.toNat, 1)] ||
      laneBusy s s.iss.blk s.iss.weft (s.iss.lanes.headD 0) [one a])
    (fun s => advanceAll (s.setWeft s.iss.blk s.iss.weft
      (s.wft.setK d.toNat ((s.lane (s.iss.lanes.headD 0)).reg a.toNat)))) s

/-- KLI (R168): Load a sign-extended 17-bit immediate into kd. -/
def execKli (d : KReg) (i : BitVec 17) (s : State) : Host.Outcome State Fault Refusal :=
  issueOnce [] [(d.toNat, 1)]
    (fun s => s.wft.setK d.toNat (BitVec.signExtend 32 i)) s

/-- KLIH (R168): Write bits 31:15 of kd. -/
def execKlih (d : KReg) (i : BitVec 17) (s : State) : Host.Outcome State Fault Refusal :=
  issueOnce [] [(d.toNat, 1)]
    (fun s => s.wft.setK d.toNat (i ++ (s.wft.kreg d.toNat).extractLsb' 0 15)) s

/-- The byte offset of a KLDCB in the constant bank (R168, R169). -/
def kldcbOffset (s : State) (a : KReg) (i : BitVec 11) : Nat :=
  ((s.wft.kreg a.toNat).toNat + 4 * i.toNat) % 65536

/-- KLDCB (R169): Load a constant-bank word into a uniform register. -/
def execKldcb (d a : KReg) (i : BitVec 11) (s : State) : Host.Outcome State Fault Refusal :=
  issue { permitted := fun k => k.permits .integer, regs := [] }
    (fun s => issueBusy s [] [(d.toNat, 1), (a.toNat, 1)])
    (fun s =>
      let o := kldcbOffset s a i
      if o % 4 != 0 then trapAll s { cause := .misalign, addr := o, info := 4 }
      else advanceAll (s.setWeft s.iss.blk s.iss.weft
        (s.wft.setK d.toNat (BitVec.ofNat 32 ((s.launch s.iss.blk).bank.read o 4))))) s

end Sys2Proof.Machine
end

