-- ==== Sys2Proof/Machine/Dispatch.lean ====
section
/-!
DEFINITION. The meaning of each instruction and step, one arm per constructor of `Instr`.
-/
namespace Sys2Proof.Machine

def exec (i : Instr) (s : State) : Host.Outcome State Fault Refusal :=
  match i with
  | .shortMov d r => Sys2Proof.Machine.execShortMov d r s
  | .shortIadd d r => Sys2Proof.Machine.execShortIadd d r s
  | .shortIsub d r => Sys2Proof.Machine.execShortIsub d r s
  | .shortImul d r => Sys2Proof.Machine.execShortImul d r s
  | .shortAnd d r => Sys2Proof.Machine.execShortAnd d r s
  | .shortOr d r => Sys2Proof.Machine.execShortOr d r s
  | .shortXor d r => Sys2Proof.Machine.execShortXor d r s
  | .shortShl d r => Sys2Proof.Machine.execShortShl d r s
  | .shortShrl d r => Sys2Proof.Machine.execShortShrl d r s
  | .shortShra d r => Sys2Proof.Machine.execShortShra d r s
  | .shortFadd d r => Sys2Proof.Machine.execShortFadd d r s
  | .shortFsub d r => Sys2Proof.Machine.execShortFsub d r s
  | .shortFmul d r => Sys2Proof.Machine.execShortFmul d r s
  | .shortFmax d r => Sys2Proof.Machine.execShortFmax d r s
  | .shortFmin d r => Sys2Proof.Machine.execShortFmin d r s
  | .shortIaddi d imm => Sys2Proof.Machine.execShortIaddi d imm s
  | .iadd d a b => Sys2Proof.Machine.execIadd d a b s
  | .isub d a b => Sys2Proof.Machine.execIsub d a b s
  | .imul d a b => Sys2Proof.Machine.execImul d a b s
  | .imulhi d a b => Sys2Proof.Machine.execImulhi d a b s
  | .imulhin d a b => Sys2Proof.Machine.execImulhin d a b s
  | .imad d a b => Sys2Proof.Machine.execImad d a b s
  | .imin d a b => Sys2Proof.Machine.execImin d a b s
  | .imax d a b => Sys2Proof.Machine.execImax d a b s
  | .iminn d a b => Sys2Proof.Machine.execIminn d a b s
  | .imaxn d a b => Sys2Proof.Machine.execImaxn d a b s
  | .and d a b => Sys2Proof.Machine.execAnd d a b s
  | .or d a b => Sys2Proof.Machine.execOr d a b s
  | .xor d a b => Sys2Proof.Machine.execXor d a b s
  | .andn d a b => Sys2Proof.Machine.execAndn d a b s
  | .shl d a b => Sys2Proof.Machine.execShl d a b s
  | .shrl d a b => Sys2Proof.Machine.execShrl d a b s
  | .shra d a b => Sys2Proof.Machine.execShra d a b s
  | .rotl d a b => Sys2Proof.Machine.execRotl d a b s
  | .sel d a b => Sys2Proof.Machine.execSel d a b s
  | .iaddsat d a b => Sys2Proof.Machine.execIaddsat d a b s
  | .isubsat d a b => Sys2Proof.Machine.execIsubsat d a b s
  | .bfx d a b => Sys2Proof.Machine.execBfx d a b s
  | .bfi d a b => Sys2Proof.Machine.execBfi d a b s
  | .iadd64 d a b => Sys2Proof.Machine.execIadd64 d a b s
  | .isub64 d a b => Sys2Proof.Machine.execIsub64 d a b s
  | .imulw d a b => Sys2Proof.Machine.execImulw d a b s
  | .imulwn d a b => Sys2Proof.Machine.execImulwn d a b s
  | .shl64 d a b => Sys2Proof.Machine.execShl64 d a b s
  | .shrl64 d a b => Sys2Proof.Machine.execShrl64 d a b s
  | .shra64 d a b => Sys2Proof.Machine.execShra64 d a b s
  | .iseq d a b => Sys2Proof.Machine.execIseq d a b s
  | .isne d a b => Sys2Proof.Machine.execIsne d a b s
  | .islt d a b => Sys2Proof.Machine.execIslt d a b s
  | .isle d a b => Sys2Proof.Machine.execIsle d a b s
  | .isltn d a b => Sys2Proof.Machine.execIsltn d a b s
  | .islen d a b => Sys2Proof.Machine.execIslen d a b s
  | .fadd d a b => Sys2Proof.Machine.execFadd d a b s
  | .fsub d a b => Sys2Proof.Machine.execFsub d a b s
  | .fmul d a b => Sys2Proof.Machine.execFmul d a b s
  | .ffma d a b => Sys2Proof.Machine.execFfma d a b s
  | .fmin d a b => Sys2Proof.Machine.execFmin d a b s
  | .fmax d a b => Sys2Proof.Machine.execFmax d a b s
  | .fseq d a b => Sys2Proof.Machine.execFseq d a b s
  | .fsne d a b => Sys2Proof.Machine.execFsne d a b s
  | .fslt d a b => Sys2Proof.Machine.execFslt d a b s
  | .fsle d a b => Sys2Proof.Machine.execFsle d a b s
  | .fsuno d a b => Sys2Proof.Machine.execFsuno d a b s
  | .fcopysign d a b => Sys2Proof.Machine.execFcopysign d a b s
  | .dadd d a b => Sys2Proof.Machine.execDadd d a b s
  | .dsub d a b => Sys2Proof.Machine.execDsub d a b s
  | .dmul d a b => Sys2Proof.Machine.execDmul d a b s
  | .dfma d a b => Sys2Proof.Machine.execDfma d a b s
  | .dmin d a b => Sys2Proof.Machine.execDmin d a b s
  | .dmax d a b => Sys2Proof.Machine.execDmax d a b s
  | .dseq d a b => Sys2Proof.Machine.execDseq d a b s
  | .dslt d a b => Sys2Proof.Machine.execDslt d a b s
  | .dsle d a b => Sys2Proof.Machine.execDsle d a b s
  | .dsuno d a b => Sys2Proof.Machine.execDsuno d a b s
  | .hadd2 d a b => Sys2Proof.Machine.execHadd2 d a b s
  | .hmul2 d a b => Sys2Proof.Machine.execHmul2 d a b s
  | .hfma2 d a b => Sys2Proof.Machine.execHfma2 d a b s
  | .badd2 d a b => Sys2Proof.Machine.execBadd2 d a b s
  | .bmul2 d a b => Sys2Proof.Machine.execBmul2 d a b s
  | .bfma2 d a b => Sys2Proof.Machine.execBfma2 d a b s
  | .cvtF32I32 d a => Sys2Proof.Machine.execCvtF32I32 d a s
  | .cvtF32N32 d a => Sys2Proof.Machine.execCvtF32N32 d a s
  | .cvtI32F32 d a => Sys2Proof.Machine.execCvtI32F32 d a s
  | .cvtN32F32 d a => Sys2Proof.Machine.execCvtN32F32 d a s
  | .cvtF64F32 d a => Sys2Proof.Machine.execCvtF64F32 d a s
  | .cvtF32F64 d a => Sys2Proof.Machine.execCvtF32F64 d a s
  | .cvtF64I32 d a => Sys2Proof.Machine.execCvtF64I32 d a s
  | .cvtI32F64 d a => Sys2Proof.Machine.execCvtI32F64 d a s
  | .cvtF64I64 d a => Sys2Proof.Machine.execCvtF64I64 d a s
  | .cvtI64F64 d a => Sys2Proof.Machine.execCvtI64F64 d a s
  | .cvtF16x2F32 d a b => Sys2Proof.Machine.execCvtF16x2F32 d a b s
  | .cvtBf16x2F32 d a b => Sys2Proof.Machine.execCvtBf16x2F32 d a b s
  | .cvtF32F16 d a h => Sys2Proof.Machine.execCvtF32F16 d a h s
  | .cvtF32Bf16 d a h => Sys2Proof.Machine.execCvtF32Bf16 d a h s
  | .cvtF32E4m3 d a h => Sys2Proof.Machine.execCvtF32E4m3 d a h s
  | .cvtF32E5m2 d a h => Sys2Proof.Machine.execCvtF32E5m2 d a h s
  | .cvtE4m3x4F32 d a b => Sys2Proof.Machine.execCvtE4m3x4F32 d a b s
  | .cvtE5m2x4F32 d a b => Sys2Proof.Machine.execCvtE5m2x4F32 d a b s
  | .frint d a => Sys2Proof.Machine.execFrint d a s
  | .fclass d a => Sys2Proof.Machine.execFclass d a s
  | .fabs d a => Sys2Proof.Machine.execFabs d a s
  | .fneg d a => Sys2Proof.Machine.execFneg d a s
  | .popc d a => Sys2Proof.Machine.execPopc d a s
  | .clz d a => Sys2Proof.Machine.execClz d a s
  | .brev d a => Sys2Proof.Machine.execBrev d a s
  | .frcp d a => Sys2Proof.Machine.execFrcp d a s
  | .frsq d a => Sys2Proof.Machine.execFrsq d a s
  | .fsqrt d a => Sys2Proof.Machine.execFsqrt d a s
  | .fdiv d a b => Sys2Proof.Machine.execFdiv d a b s
  | .fex2 d a => Sys2Proof.Machine.execFex2 d a s
  | .flg2 d a => Sys2Proof.Machine.execFlg2 d a s
  | .ddiv d a b => Sys2Proof.Machine.execDdiv d a b s
  | .dsqrt d a => Sys2Proof.Machine.execDsqrt d a s
  | .idiv d a b => Sys2Proof.Machine.execIdiv d a b s
  | .irem d a b => Sys2Proof.Machine.execIrem d a b s
  | .idivn d a b => Sys2Proof.Machine.execIdivn d a b s
  | .iremn d a b => Sys2Proof.Machine.execIremn d a b s
  | .shfl d a b => Sys2Proof.Machine.execShfl d a b s
  | .shflup d a b => Sys2Proof.Machine.execShflup d a b s
  | .shfldn d a b => Sys2Proof.Machine.execShfldn d a b s
  | .shflx d a b => Sys2Proof.Machine.execShflx d a b s
  | .ballot d a => Sys2Proof.Machine.execBallot d a s
  | .vany d a => Sys2Proof.Machine.execVany d a s
  | .vall d a => Sys2Proof.Machine.execVall d a s
  | .redadd d a => Sys2Proof.Machine.execRedadd d a s
  | .redfadd d a => Sys2Proof.Machine.execRedfadd d a s
  | .redmax d a => Sys2Proof.Machine.execRedmax d a s
  | .redmin d a => Sys2Proof.Machine.execRedmin d a s
  | .scanadd d a => Sys2Proof.Machine.execScanadd d a s
  | .movx d imm => Sys2Proof.Machine.execMovx d imm s
  | .movxw imm a => Sys2Proof.Machine.execMovxw imm a s
  | .setx imm a => Sys2Proof.Machine.execSetx imm a s
  | .getx d imm => Sys2Proof.Machine.execGetx d imm s
  | .mov64 d a => Sys2Proof.Machine.execMov64 d a s
  | .iaddi d a imm => Sys2Proof.Machine.execIaddi d a imm s
  | .andi d a imm => Sys2Proof.Machine.execAndi d a imm s
  | .ori d a imm => Sys2Proof.Machine.execOri d a imm s
  | .xori d a imm => Sys2Proof.Machine.execXori d a imm s
  | .shli d a imm => Sys2Proof.Machine.execShli d a imm s
  | .shrli d a imm => Sys2Proof.Machine.execShrli d a imm s
  | .shrai d a imm => Sys2Proof.Machine.execShrai d a imm s
  | .iseqi d a imm => Sys2Proof.Machine.execIseqi d a imm s
  | .islti d a imm => Sys2Proof.Machine.execIslti d a imm s
  | .isltni d a imm => Sys2Proof.Machine.execIsltni d a imm s
  | .imuli d a imm => Sys2Proof.Machine.execImuli d a imm s
  | .iadd64i d a imm => Sys2Proof.Machine.execIadd64i d a imm s
  | .movk d n => Sys2Proof.Machine.execMovk d n s
  | .isnei d a imm => Sys2Proof.Machine.execIsnei d a imm s
  | .movi d imm => Sys2Proof.Machine.execMovi d imm s
  | .movhi d imm => Sys2Proof.Machine.execMovhi d imm s
  | .bra off => Sys2Proof.Machine.execBra off s
  | .bnz a off => Sys2Proof.Machine.execBnz a off s
  | .bz a off => Sys2Proof.Machine.execBz a off s
  | .call off => Sys2Proof.Machine.execCall off s
  | .callr a => Sys2Proof.Machine.execCallr a s
  | .ret => Sys2Proof.Machine.execRet s
  | .jmpr a => Sys2Proof.Machine.execJmpr a s
  | .kbnz a off => Sys2Proof.Machine.execKbnz a off s
  | .kbz a off => Sys2Proof.Machine.execKbz a off s
  | .kadd d a b => Sys2Proof.Machine.execKadd d a b s
  | .ksub d a b => Sys2Proof.Machine.execKsub d a b s
  | .kmul d a b => Sys2Proof.Machine.execKmul d a b s
  | .kand d a b => Sys2Proof.Machine.execKand d a b s
  | .kor d a b => Sys2Proof.Machine.execKor d a b s
  | .kxor d a b => Sys2Proof.Machine.execKxor d a b s
  | .kshl d a b => Sys2Proof.Machine.execKshl d a b s
  | .kshr d a b => Sys2Proof.Machine.execKshr d a b s
  | .ksra d a b => Sys2Proof.Machine.execKsra d a b s
  | .kaddi d a imm => Sys2Proof.Machine.execKaddi d a imm s
  | .kseq d a b => Sys2Proof.Machine.execKseq d a b s
  | .kslt d a b => Sys2Proof.Machine.execKslt d a b s
  | .ksltn d a b => Sys2Proof.Machine.execKsltn d a b s
  | .kmin d a b => Sys2Proof.Machine.execKmin d a b s
  | .kmax d a b => Sys2Proof.Machine.execKmax d a b s
  | .ksel d a b => Sys2Proof.Machine.execKsel d a b s
  | .kadd64 d a b => Sys2Proof.Machine.execKadd64 d a b s
  | .kmovv d a => Sys2Proof.Machine.execKmovv d a s
  | .kldcb d a imm => Sys2Proof.Machine.execKldcb d a imm s
  | .kli d imm => Sys2Proof.Machine.execKli d imm s
  | .klih d imm => Sys2Proof.Machine.execKlih d imm s
  | .kmulhi d a b => Sys2Proof.Machine.execKmulhi d a b s
  | .lds32 d base imm => Sys2Proof.Machine.execLds32 d base imm s
  | .lds64 d base imm => Sys2Proof.Machine.execLds64 d base imm s
  | .lds128 d base imm => Sys2Proof.Machine.execLds128 d base imm s
  | .sts32 d base imm => Sys2Proof.Machine.execSts32 d base imm s
  | .sts64 d base imm => Sys2Proof.Machine.execSts64 d base imm s
  | .sts128 d base imm => Sys2Proof.Machine.execSts128 d base imm s
  | .atsAdd32 d base imm => Sys2Proof.Machine.execAtsAdd32 d base imm s
  | .atsExch32 d base imm => Sys2Proof.Machine.execAtsExch32 d base imm s
  | .ldn32 d base t o imm => Sys2Proof.Machine.execLdn32 d base t o imm s
  | .ldn64 d base t o imm => Sys2Proof.Machine.execLdn64 d base t o imm s
  | .ldn128 d base t o imm => Sys2Proof.Machine.execLdn128 d base t o imm s
  | .stn32 d base t o imm => Sys2Proof.Machine.execStn32 d base t o imm s
  | .stn64 d base t o imm => Sys2Proof.Machine.execStn64 d base t o imm s
  | .stn128 d base t o imm => Sys2Proof.Machine.execStn128 d base t o imm s
  | .atnAdd32 d base t o imm => Sys2Proof.Machine.execAtnAdd32 d base t o imm s
  | .atnExch32 d base t o imm => Sys2Proof.Machine.execAtnExch32 d base t o imm s
  | .ldgZ8 d a o sc p => Sys2Proof.Machine.execLdgZ8 d a o sc p s
  | .ldgS8 d a o sc p => Sys2Proof.Machine.execLdgS8 d a o sc p s
  | .ldgZ16 d a o sc p => Sys2Proof.Machine.execLdgZ16 d a o sc p s
  | .ldgS16 d a o sc p => Sys2Proof.Machine.execLdgS16 d a o sc p s
  | .ldg32 d a o sc p => Sys2Proof.Machine.execLdg32 d a o sc p s
  | .ldg64 d a o sc p => Sys2Proof.Machine.execLdg64 d a o sc p s
  | .ldg128 d a o sc p => Sys2Proof.Machine.execLdg128 d a o sc p s
  | .stg8 d a o sc p => Sys2Proof.Machine.execStg8 d a o sc p s
  | .stg16 d a o sc p => Sys2Proof.Machine.execStg16 d a o sc p s
  | .stg32 d a o sc p => Sys2Proof.Machine.execStg32 d a o sc p s
  | .stg64 d a o sc p => Sys2Proof.Machine.execStg64 d a o sc p s
  | .stg128 d a o sc p => Sys2Proof.Machine.execStg128 d a o sc p s
  | .pfg a p => Sys2Proof.Machine.execPfg a p s
  | .atg32 d a f o sc => Sys2Proof.Machine.execAtg32 d a f o sc s
  | .atg64 d a f o sc => Sys2Proof.Machine.execAtg64 d a f o sc s
  | .atf32 d a f o sc => Sys2Proof.Machine.execAtf32 d a f o sc s
  | .ldp32 d base imm => Sys2Proof.Machine.execLdp32 d base imm s
  | .ldp64 d base imm => Sys2Proof.Machine.execLdp64 d base imm s
  | .ldp128 d base imm => Sys2Proof.Machine.execLdp128 d base imm s
  | .pfp base imm => Sys2Proof.Machine.execPfp base imm s
  | .ldcb32 d x imm => Sys2Proof.Machine.execLdcb32 d x imm s
  | .ldcb64 d x imm => Sys2Proof.Machine.execLdcb64 d x imm s
  | .ldcb128 d x imm => Sys2Proof.Machine.execLdcb128 d x imm s
  | .ldh32 d base o => Sys2Proof.Machine.execLdh32 d base o s
  | .ldh64 d base o => Sys2Proof.Machine.execLdh64 d base o s
  | .sth32 d base o => Sys2Proof.Machine.execSth32 d base o s
  | .sth64 d base o => Sys2Proof.Machine.execSth64 d base o s
  | .athAdd64 d base o => Sys2Proof.Machine.execAthAdd64 d base o s
  | .athCas64 d base o => Sys2Proof.Machine.execAthCas64 d base o s
  | .athExch64 d base o => Sys2Proof.Machine.execAthExch64 d base o s
  | .binit b count => Sys2Proof.Machine.execBinit b count s
  | .barr b => Sys2Proof.Machine.execBarr b s
  | .barrx b ka => Sys2Proof.Machine.execBarrx b ka s
  | .bexp b ka => Sys2Proof.Machine.execBexp b ka s
  | .bwait b p => Sys2Proof.Machine.execBwait b p s
  | .btest d b p => Sys2Proof.Machine.execBtest d b p s
  | .bdrop b => Sys2Proof.Machine.execBdrop b s
  | .cpgs vs a b z => Sys2Proof.Machine.execCpgs vs a b z s
  | .cpsg vs a b z => Sys2Proof.Machine.execCpsg vs a b z s
  | .cptl ka kb kc b => Sys2Proof.Machine.execCptl ka kb kc b s
  | .cpts ka kb kc b => Sys2Proof.Machine.execCpts ka kb kc b s
  | .cppw ka kb b => Sys2Proof.Machine.execCppw ka kb b s
  | .waitcnt ld st cp mx => Sys2Proof.Machine.execWaitcnt ld st cp mx s
  | .mxpush ka => Sys2Proof.Machine.execMxpush ka s
  | .mxfence => Sys2Proof.Machine.execMxfence s
  | .mxquery d => Sys2Proof.Machine.execMxquery d s
  | .qblk ka kb kc f => Sys2Proof.Machine.execQblk ka kb kc f s
  | .rresv kd q => Sys2Proof.Machine.execRresv kd q s
  | .rcommit q ka => Sys2Proof.Machine.execRcommit q ka s
  | .rrecv kd q => Sys2Proof.Machine.execRrecv kd q s
  | .rrelease q ka => Sys2Proof.Machine.execRrelease q ka s
  | .rtryresv kd q => Sys2Proof.Machine.execRtryresv kd q s
  | .rtryrecv kd q => Sys2Proof.Machine.execRtryrecv kd q s
  | .rclose q => Sys2Proof.Machine.execRclose q s
  | .rstat kd q => Sys2Proof.Machine.execRstat kd q s
  | .pinstall ka => Sys2Proof.Machine.execPinstall ka s
  | .pstatus kd ka => Sys2Proof.Machine.execPstatus kd ka s
  | .fence kind sc => Sys2Proof.Machine.execFence kind sc s
  | .sealLines ka kb => Sys2Proof.Machine.execSealLines ka kb s
  | .unsealLines ka kb => Sys2Proof.Machine.execUnsealLines ka kb s
  | .cwb ka kb sc => Sys2Proof.Machine.execCwb ka kb sc s
  | .yield => Sys2Proof.Machine.execYield s
  | .wsync ka => Sys2Proof.Machine.execWsync ka s
  | .exit => Sys2Proof.Machine.execExit s
  | .trap n => Sys2Proof.Machine.execTrap n s
  | .bkpt => Sys2Proof.Machine.execBkpt s
  | .rett => Sys2Proof.Machine.execRett s
  | .csrr d csr => Sys2Proof.Machine.execCsrr d csr s
  | .csrw csr a => Sys2Proof.Machine.execCsrw csr a s
  | .rdcyc d => Sys2Proof.Machine.execRdcyc d s
  | .wred d a op t g => Sys2Proof.Machine.execWred d a op t g s
  | .evsig ka => Sys2Proof.Machine.execEvsig ka s
  | .movsr d id => Sys2Proof.Machine.execMovsr d id s
  | .phaseEnd blk => Sys2Proof.Machine.execPhaseEnd blk s
  | .queueDoorbell door tail => Sys2Proof.Machine.execQueueDoorbell door tail s
  | .queueEntry q => Sys2Proof.Machine.execQueueEntry q s
  | .graphStart q => Sys2Proof.Machine.execGraphStart q s
  | .kernelNode q node => Sys2Proof.Machine.execKernelNode q node s
  | .millNode q node => Sys2Proof.Machine.execMillNode q node s
  | .millStart gid => Sys2Proof.Machine.execMillStart gid s
  | .millCoreJoin gid core => Sys2Proof.Machine.execMillCoreJoin gid core s
  | .copyNode q node => Sys2Proof.Machine.execCopyNode q node s
  | .installNode q node => Sys2Proof.Machine.execInstallNode q node s
  | .condNode q node => Sys2Proof.Machine.execCondNode q node s
  | .loopNode q node => Sys2Proof.Machine.execLoopNode q node s
  | .loopRearm q node => Sys2Proof.Machine.execLoopRearm q node s
  | .eventNode q node => Sys2Proof.Machine.execEventNode q node s
  | .waitNode q node => Sys2Proof.Machine.execWaitNode q node s
  | .nodeComplete q node => Sys2Proof.Machine.execNodeComplete q node s
  | .graphComplete q => Sys2Proof.Machine.execGraphComplete q s
  | .qcfgWrite vi q reg value => Sys2Proof.Machine.execQcfgWrite vi q reg value s
  | .evraise vi n => Sys2Proof.Machine.execEvraise vi n s
  | .handBlock gid stage => Sys2Proof.Machine.execHandBlock gid stage s
  | .placeBlock dom => Sys2Proof.Machine.execPlaceBlock dom s
  | .clusterConvert dom cl => Sys2Proof.Machine.execClusterConvert dom cl s
  | .clusterConvertDone dom cl => Sys2Proof.Machine.execClusterConvertDone dom cl s
  | .blockRetire blk => Sys2Proof.Machine.execBlockRetire blk s
  | .gridComplete gid => Sys2Proof.Machine.execGridComplete gid s
  | .pageWalk op lane => Sys2Proof.Machine.execPageWalk op lane s
  | .parkPendingAdmit dom => Sys2Proof.Machine.execParkPendingAdmit dom s
  | .memComplete op => Sys2Proof.Machine.execMemComplete op s
  | .fenceComplete op => Sys2Proof.Machine.execFenceComplete op s
  | .homeAccess op lane => Sys2Proof.Machine.execHomeAccess op lane s
  | .invalidationAccept dom line target => Sys2Proof.Machine.execInvalidationAccept dom line target s
  | .invalidationApply dom bank => Sys2Proof.Machine.execInvalidationApply dom bank s
  | .tlbinv vi value => Sys2Proof.Machine.execTlbinv vi value s
  | .tlbinvDone vi => Sys2Proof.Machine.execTlbinvDone vi s
  | .asnroot vi off value => Sys2Proof.Machine.execAsnroot vi off value s
  | .l2hashWrite dom index value => Sys2Proof.Machine.execL2hashWrite dom index value s
  | .migrateStart vi => Sys2Proof.Machine.execMigrateStart vi s
  | .migrateCopied vi => Sys2Proof.Machine.execMigrateCopied vi s
  | .migrateFinish vi => Sys2Proof.Machine.execMigrateFinish vi s
  | .copyLand core slot k => Sys2Proof.Machine.execCopyLand core slot k s
  | .copyComplete core slot => Sys2Proof.Machine.execCopyComplete core slot s
  | .loadw core part => Sys2Proof.Machine.execLoadw core part s
  | .stream core part => Sys2Proof.Machine.execStream core part s
  | .accum core part => Sys2Proof.Machine.execAccum core part s
  | .drain core part => Sys2Proof.Machine.execDrain core part s
  | .signal core part => Sys2Proof.Machine.execSignal core part s
  | .mxComplete core part => Sys2Proof.Machine.execMxComplete core part s
  | .weightStage core frame => Sys2Proof.Machine.execWeightStage core frame s
  | .weightStageDone core frame => Sys2Proof.Machine.execWeightStageDone core frame s
  | .mxPowerGate core part quarter => Sys2Proof.Machine.execMxPowerGate core part quarter s
  | .mxWake core part quarter => Sys2Proof.Machine.execMxWake core part quarter s
  | .installAccept vi ticket => Sys2Proof.Machine.execInstallAccept vi ticket s
  | .engraveRead vi ticket page => Sys2Proof.Machine.execEngraveRead vi ticket page s
  | .engraveProgram vi ticket page fblk ok => Sys2Proof.Machine.execEngraveProgram vi ticket page fblk ok s
  | .engraveVerify vi ticket page ok => Sys2Proof.Machine.execEngraveVerify vi ticket page ok s
  | .plateSwitch vi ticket page => Sys2Proof.Machine.execPlateSwitch vi ticket page s
  | .blockReclaim dom fblk dest => Sys2Proof.Machine.execBlockReclaim dom fblk dest s
  | .blockErase dom fblk ok => Sys2Proof.Machine.execBlockErase dom fblk ok s
  | .raceGrant gid race => Sys2Proof.Machine.execRaceGrant gid race s
  | .commitComplete op => Sys2Proof.Machine.execCommitComplete op s
  | .releaseComplete op => Sys2Proof.Machine.execReleaseComplete op s
  | .millComplete gid => Sys2Proof.Machine.execMillComplete gid s
  | .millwrightStep gid dom => Sys2Proof.Machine.execMillwrightStep gid dom s
  | .waferMillwrightStep gid => Sys2Proof.Machine.execWaferMillwrightStep gid s
  | .occSample gid race dom => Sys2Proof.Machine.execOccSample gid race dom s
  | .moveApply gid => Sys2Proof.Machine.execMoveApply gid s
  | .preemptCommand vi value => Sys2Proof.Machine.execPreemptCommand vi value s
  | .drainBudgetExpire blk => Sys2Proof.Machine.execDrainBudgetExpire blk s
  | .flushRelease blk => Sys2Proof.Machine.execFlushRelease blk s
  | .saveWrite blk => Sys2Proof.Machine.execSaveWrite blk s
  | .preemptDone cmd => Sys2Proof.Machine.execPreemptDone cmd s
  | .fqpop vi => Sys2Proof.Machine.execFqpop vi s
  | .fqResume vi handle => Sys2Proof.Machine.execFqResume vi handle s
  | .fqDeliver vi handle => Sys2Proof.Machine.execFqDeliver vi handle s
  | .fqAbort vi handle => Sys2Proof.Machine.execFqAbort vi handle s
  | .l1TagParityError core line => Sys2Proof.Machine.execL1TagParityError core line s
  | .linkCrcFail link packet => Sys2Proof.Machine.execLinkCrcFail link packet s
  | .packetForward dom packet => Sys2Proof.Machine.execPacketForward dom packet s
  | .rtArm dom tbl => Sys2Proof.Machine.execRtArm dom tbl s
  | .rtSelect dom tbl => Sys2Proof.Machine.execRtSelect dom tbl s
  | .rtDrain dom tbl => Sys2Proof.Machine.execRtDrain dom tbl s
  | .rtClear dom => Sys2Proof.Machine.execRtClear dom s
  | .drainTokenVisit dom => Sys2Proof.Machine.execDrainTokenVisit dom s
  | .nameAgeTick dom => Sys2Proof.Machine.execNameAgeTick dom s
  | .renameCore dom value => Sys2Proof.Machine.execRenameCore dom value s
  | .renameComplete dom => Sys2Proof.Machine.execRenameComplete dom s
  | .vfctlWrite dom value => Sys2Proof.Machine.execVfctlWrite dom value s
  | .linkPauseEnd dom => Sys2Proof.Machine.execLinkPauseEnd dom s
  | .powerLimitTick watts => Sys2Proof.Machine.execPowerLimitTick watts s
  | .ctreeBuild vi ident group root => Sys2Proof.Machine.execCtreeBuild vi ident group root s
  | .wredRoundResult gid group round member => Sys2Proof.Machine.execWredRoundResult gid group round member s
  | .peerAccess port fn off size data => Sys2Proof.Machine.execPeerAccess port fn off size data s
  | .hostMemAccess vi fn off size data => Sys2Proof.Machine.execHostMemAccess vi fn off size data s
  | .attest vi value => Sys2Proof.Machine.execAttest vi value s
  | .gdaybookWrite vi value => Sys2Proof.Machine.execGdaybookWrite vi value s
  | .gdaybookArm vi => Sys2Proof.Machine.execGdaybookArm vi s
  | .partmap vi mask => Sys2Proof.Machine.execPartmap vi mask s
  | .powerOn => Sys2Proof.Machine.execPowerOn s
  | .domainReset dom => Sys2Proof.Machine.execDomainReset dom s
  | .registerWrite vi off size value => Sys2Proof.Machine.execRegisterWrite vi off size value s
  | .holdLift vi cmd => Sys2Proof.Machine.execHoldLift vi cmd s
  | .gridEnd gid => Sys2Proof.Machine.execGridEnd gid s
  | .ticketAbort vi ticket => Sys2Proof.Machine.execTicketAbort vi ticket s
  | .keepMarkClear dom => Sys2Proof.Machine.execKeepMarkClear dom s
  | .virtualInterfaceReset vi => Sys2Proof.Machine.execVirtualInterfaceReset vi s
  | .powerLoss => Sys2Proof.Machine.execPowerLoss s
  | .hostCompletionTimeout op lane => Sys2Proof.Machine.execHostCompletionTimeout op lane s
  | .sealComplete op => Sys2Proof.Machine.execSealComplete op s
  | .linkTakeDown link => Sys2Proof.Machine.execLinkTakeDown link s

end Sys2Proof.Machine
end

