-- ==== Sys2Proof/Machine/Policy.lean ====
section
/-!
DEFINITION. The model's own order of the device's steps, where the agenda names none: the first step of the
lists below that changes the state. The steps of memory operations come last, so that threads that poll keep no
other step from its turn. The steps of the host, of system software and of time are never taken.
-/
namespace Sys2Proof.Machine

/-- The steps of outstanding operations, oldest first. -/
noncomputable def opSteps (s : State) : List Instr :=
  (s.ops.map fun e =>
    (e.2.lanes.map fun a => [Instr.pageWalk e.1 a.lane, .homeAccess e.1 a.lane, .homeAccess e.1 (a.lane + 32)]).flatten ++
      [.memComplete e.1, .fenceComplete e.1, .sealComplete e.1, .commitComplete e.1, .releaseComplete e.1] ++
      match e.2.kind with
      | .wred g r m => [.wredRoundResult (s.block e.2.blk).gid g r m]
      | _ => []).flatten

/-- The steps of the mesh and of the directories. -/
noncomputable def meshSteps (s : State) : List Instr :=
  (s.packets.map fun e => Instr.packetForward e.2.here e.1) ++
    (s.domains.map fun e =>
      ((e.2.busy ++ e.2.snoops).map fun i => Instr.invalidationAccept e.1 i.line i.target) ++
        (e.2.invq.map fun q => Instr.invalidationApply e.1 q.1) ++
        [.parkPendingAdmit e.1, .renameComplete e.1, .linkPauseEnd e.1, .drainTokenVisit e.1]).flatten

/-- The steps of copy units, weight banks and matrix arrays. -/
noncomputable def engineSteps (s : State) : List Instr :=
  (s.cores.map fun e =>
    (e.2.copies.map fun c => [Instr.copyLand e.1 c.1 0, .copyComplete e.1 c.1]).flatten ++
      (e.2.bank.map fun f => Instr.weightStageDone e.1 f.1) ++
      (e.2.arrays.map fun a =>
        (List.range 4).map (Instr.mxWake e.1 a.1 ·) ++
          [.loadw e.1 a.1, .stream e.1 a.1, .accum e.1 a.1, .drain e.1 a.1, .signal e.1 a.1, .mxComplete e.1 a.1]).flatten ++
      (List.range 4).map fun f => Instr.weightStage e.1 f).flatten

/-- The steps of blocks and launches. -/
noncomputable def launchSteps (s : State) : List Instr :=
  (s.blocks.map fun e => [Instr.phaseEnd e.1, .blockRetire e.1, .flushRelease e.1, .saveWrite e.1]).flatten ++
    (s.cmds.map fun e => Instr.preemptDone e.1) ++
    (s.grids.map fun e =>
      ((List.range e.2.stages.length).map fun st => Instr.handBlock e.1 st) ++
        ((match e.2.mill with
          | some m => ((List.range m.races.length).map fun q => Instr.raceGrant e.1 q) ++
              (nextJoin s e.1 m).toList.map fun x => .millCoreJoin e.1 x.1
          | none => []) ++ [Instr.millStart e.1, .moveApply e.1, .gridComplete e.1, .millComplete e.1])).flatten ++
    (s.domains.map fun e => Instr.placeBlock e.1) ++
    (s.domains.map fun e =>
      ((List.range 10).map fun cl => Instr.clusterConvert e.1 cl) ++ (e.2.conv.toList.map fun c => .clusterConvertDone e.1 c.1)).flatten

/-- The blocks that may take a page of an install, lowest number first. -/
def programBlocks (s : State) (t : Install) (page : Nat) : List Nat :=
  match t.pages[page]? with
  | none => []
  | some p =>
    let x := s.domain (homeOf p.dest)
    openBlocks x p.tried ++ freeCandidates x p.tried

/-- The next steps of the pages that a domain's engraver moves (R342, R347). -/
noncomputable def moveSteps (d : Nat) (x : Domain) : List Instr :=
  (x.moves.zipIdx.map fun e =>
    (0 :: (openBlocks x (e.1.tried ++ [e.1.src / 64]) ++ freeCandidates x (e.1.tried ++ [e.1.src / 64]))).map
      (.blockReclaim d (2 ^ 24 + e.2) ·)).flatten

/-- The names that the engraver's steps have for the installs of a ticket table: one for each BUSY entry. -/
noncomputable def busyNames (ts : List Install) : List (Nat × Install) :=
  ts.zipIdx.filterMap fun e =>
    if e.1.code = 2 then
      some (e.1.ticket + 2 ^ 32 * ((ts.take e.2).filter fun t => t.ticket == e.1.ticket && t.code == 2).length, e.1)
    else none

/-- The steps of queues, graphs and installs. -/
noncomputable def queueSteps (s : State) : List Instr :=
  (s.queues.map fun e =>
    [Instr.queueEntry e.1, .graphStart e.1] ++
      (match e.2.graph with
        | some g => (g.nodes.map fun n =>
            [Instr.kernelNode e.1 n.1, .millNode e.1 n.1, .copyNode e.1 n.1, .installNode e.1 n.1, .condNode e.1 n.1, .loopNode e.1 n.1,
             .loopRearm e.1 n.1, .eventNode e.1 n.1, .waitNode e.1 n.1, .nodeComplete e.1 n.1]).flatten
        | none => []) ++ [.graphComplete e.1]).flatten ++
    (s.domains.map fun e => moveSteps e.1 e.2).flatten ++
    (s.domains.map fun e => ((Sp.keys e.2.fblocks).filter fun b => (e.2.fblock b).used == 64).map (.blockErase e.1 · 1)).flatten ++
    (s.vis.map fun e =>
      ((busyNames e.2.tickets).map fun t =>
        [Instr.installAccept e.1 t.2.ticket] ++ ((List.range t.2.pages.length).map fun p =>
          [Instr.engraveRead e.1 t.1 p] ++ (programBlocks s t.2 p).map (.engraveProgram e.1 t.1 p · 1) ++
            [.engraveVerify e.1 t.1 p 1, .plateSwitch e.1 t.1 p]).flatten).flatten ++
        [Instr.tlbinvDone e.1, .migrateCopied e.1, .gdaybookArm e.1]).flatten

/-- The step of the device that comes next when the agenda is empty: the first that changes the state.
DESIGN CHOICE (log 2). -/
noncomputable def dueEvent (s : State) : Option Instr :=
  (launchSteps s ++ queueSteps s ++ engineSteps s ++ meshSteps s ++ opSteps s).find? fun i =>
    match exec i s with
    | .next t => t != s
    | _ => true

end Sys2Proof.Machine
end

