-- ==== Sys2Proof/Machine/Reads.lean ====
section
/-!
DEFINITION. The registers that each instruction reads, by the operand shapes of its fields, and whether one
of them holds a poisoned word (R14, R17, R47, R48, R389, R392, R393).
-/
namespace Sys2Proof.Machine

/-- The registers that an instruction reads: runs of v registers in each lane, and in the lowest lane of the
issue set alone; runs of k registers; an x register. -/
structure Sources where
  v : List Regs := []
  lead : List Regs := []
  k : List Regs := []
  x : Option (BitVec 2) := none

/-- What each instruction reads (R47, R48, R148); a step of the device reads no register. -/
def sourcesOf : Instr → Sources
  | .shortMov _ r => { v := [(r.toNat, 1)] }
  | .shortIadd d r | .shortIsub d r | .shortImul d r | .shortAnd d r | .shortOr d r | .shortXor d r
  | .shortShl d r | .shortShrl d r | .shortShra d r | .shortFadd d r | .shortFsub d r | .shortFmul d r
  | .shortFmax d r | .shortFmin d r => { v := [(d.toNat, 1), (r.toNat, 1)] }
  | .shortIaddi d _ | .movhi d _ => { v := [(d.toNat, 1)] }
  | .iadd _ a b | .isub _ a b | .imul _ a b | .imulhi _ a b | .imulhin _ a b | .imin _ a b | .imax _ a b
  | .iminn _ a b | .imaxn _ a b | .and _ a b | .or _ a b | .xor _ a b | .andn _ a b | .shl _ a b | .shrl _ a b
  | .shra _ a b | .rotl _ a b | .iaddsat _ a b | .isubsat _ a b | .bfx _ a b | .imulw _ a b | .imulwn _ a b
  | .iseq _ a b | .isne _ a b | .islt _ a b | .isle _ a b | .isltn _ a b | .islen _ a b | .fadd _ a b
  | .fsub _ a b | .fmul _ a b | .fmin _ a b | .fmax _ a b | .fseq _ a b | .fsne _ a b | .fslt _ a b | .fsle _ a b
  | .fsuno _ a b | .fcopysign _ a b | .hadd2 _ a b | .hmul2 _ a b | .badd2 _ a b | .bmul2 _ a b
  | .cvtF16x2F32 _ a b | .cvtBf16x2F32 _ a b | .fdiv _ a b | .idiv _ a b | .irem _ a b | .idivn _ a b
  | .iremn _ a b | .shfl _ a b | .shflup _ a b | .shfldn _ a b | .shflx _ a b =>
    { v := [(a.toNat, 1)] ++ srcRegs b, k := srcKs 1 b }
  | .imad d a b | .sel d a b | .bfi d a b | .ffma d a b | .hfma2 d a b | .bfma2 d a b =>
    { v := [(d.toNat, 1), (a.toNat, 1)] ++ srcRegs b, k := srcKs 1 b }
  | .iadd64 _ a b | .isub64 _ a b | .dadd _ a b | .dsub _ a b | .dmul _ a b | .dmin _ a b | .dmax _ a b
  | .dseq _ a b | .dslt _ a b | .dsle _ a b | .dsuno _ a b | .cvtE4m3x4F32 _ a b | .cvtE5m2x4F32 _ a b
  | .ddiv _ a b => { v := [(a.toNat, 2)] ++ srcRegs2 b, k := srcKs 2 b }
  | .shl64 _ a b | .shrl64 _ a b | .shra64 _ a b => { v := [(a.toNat, 2)] ++ srcRegs b, k := srcKs 1 b }
  | .dfma d a b => { v := [(d.toNat, 2), (a.toNat, 2)] ++ srcRegs2 b, k := srcKs 2 b }
  | .cvtF32I32 _ a | .cvtF32N32 _ a | .cvtI32F32 _ a | .cvtN32F32 _ a | .cvtF64F32 _ a | .cvtF64I32 _ a
  | .cvtF32F16 _ a _ | .cvtF32Bf16 _ a _ | .cvtF32E4m3 _ a _ | .cvtF32E5m2 _ a _ | .frint _ a | .fclass _ a
  | .fabs _ a | .fneg _ a | .popc _ a | .clz _ a | .brev _ a | .frcp _ a | .frsq _ a | .fsqrt _ a | .fex2 _ a
  | .flg2 _ a | .ballot _ a | .vany _ a | .vall _ a | .redadd _ a | .redfadd _ a | .redmax _ a | .redmin _ a
  | .scanadd _ a | .setx _ a | .iaddi _ a _ | .andi _ a _ | .ori _ a _ | .xori _ a _ | .shli _ a _ | .shrli _ a _
  | .shrai _ a _ | .iseqi _ a _ | .islti _ a _ | .isltni _ a _ | .imuli _ a _ | .isnei _ a _ | .bnz a _ | .bz a _
  | .csrw _ a => { v := [(a.toNat, 1)] }
  | .cvtF32F64 _ a | .cvtI32F64 _ a | .cvtF64I64 _ a | .cvtI64F64 _ a | .dsqrt _ a | .mov64 _ a | .iadd64i _ a _
  | .callr a | .jmpr a | .ldgZ8 _ a _ _ _ | .ldgS8 _ a _ _ _ | .ldgZ16 _ a _ _ _ | .ldgS16 _ a _ _ _
  | .ldg32 _ a _ _ _ | .ldg64 _ a _ _ _ | .ldg128 _ a _ _ _ | .pfg a _ => { v := [(a.toNat, 2)] }
  | .movx _ i => { x := some i }
  | .movxw i a => { v := [(a.toNat, 1)], x := some i }
  | .getx _ i => { x := some i }
  | .movk _ n => { k := [(n.toNat, 1)] }
  | .movi _ _ | .bra _ | .call _ | .ret | .kli _ _ | .binit _ _ | .barr _ | .bwait _ _ | .btest _ _ _ | .bdrop _
  | .waitcnt _ _ _ _ | .mxfence | .mxquery _ | .rresv _ _ | .rrecv _ _ | .rtryresv _ _ | .rtryrecv _ _ | .rclose _
  | .rstat _ _ | .fence _ _ | .yield | .exit | .trap _ | .bkpt | .rett | .csrr _ _ | .rdcyc _ | .movsr _ _
  | .phaseEnd _ | .queueDoorbell _ _ | .queueEntry _ | .graphStart _ | .kernelNode _ _ | .millNode _ _
  | .millStart _ | .millCoreJoin _ _ | .copyNode _ _ | .installNode _ _ | .condNode _ _ | .loopNode _ _
  | .loopRearm _ _ | .eventNode _ _ | .waitNode _ _ | .nodeComplete _ _ | .graphComplete _ | .qcfgWrite _ _ _ _
  | .evraise _ _ | .handBlock _ _ | .placeBlock _ | .clusterConvert _ _ | .clusterConvertDone _ _ | .blockRetire _
  | .gridComplete _ | .pageWalk _ _ | .parkPendingAdmit _ | .memComplete _ | .fenceComplete _ | .homeAccess _ _
  | .invalidationAccept _ _ _ | .invalidationApply _ _ | .tlbinv _ _ | .tlbinvDone _ | .asnroot _ _ _
  | .l2hashWrite _ _ _ | .migrateStart _ | .migrateCopied _ | .migrateFinish _ | .copyLand _ _ _
  | .copyComplete _ _ | .loadw _ _ | .stream _ _ | .accum _ _ | .drain _ _ | .signal _ _ | .mxComplete _ _
  | .weightStage _ _ | .weightStageDone _ _ | .mxPowerGate _ _ _ | .mxWake _ _ _ | .installAccept _ _
  | .engraveRead _ _ _ | .engraveProgram _ _ _ _ _ | .engraveVerify _ _ _ _ | .plateSwitch _ _ _
  | .blockReclaim _ _ _ | .blockErase _ _ _ | .raceGrant _ _ | .commitComplete _ | .releaseComplete _
  | .millComplete _ | .millwrightStep _ _ | .waferMillwrightStep _ | .occSample _ _ _ | .moveApply _
  | .preemptCommand _ _ | .drainBudgetExpire _ | .flushRelease _ | .saveWrite _ | .preemptDone _ | .fqpop _
  | .fqResume _ _ | .fqDeliver _ _ | .fqAbort _ _ | .l1TagParityError _ _ | .linkCrcFail _ _ | .packetForward _ _
  | .rtArm _ _ | .rtSelect _ _ | .rtDrain _ _ | .rtClear _ | .drainTokenVisit _ | .nameAgeTick _ | .renameCore _ _
  | .renameComplete _ | .vfctlWrite _ _ | .linkPauseEnd _ | .powerLimitTick _ | .ctreeBuild _ _ _ _
  | .wredRoundResult _ _ _ _ | .peerAccess _ _ _ _ _ | .hostMemAccess _ _ _ _ _ | .attest _ _ | .gdaybookWrite _ _
  | .gdaybookArm _ | .partmap _ _ | .powerOn | .domainReset _ | .registerWrite _ _ _ _ | .holdLift _ _
  | .gridEnd _ | .ticketAbort _ _ | .keepMarkClear _ | .virtualInterfaceReset _ | .powerLoss
  | .hostCompletionTimeout _ _ | .sealComplete _ | .linkTakeDown _ => {}
  | .kbnz a _ | .kbz a _ | .kaddi _ a _ | .kldcb _ a _ => { k := [(a.toNat, 1)] }
  | .kadd _ a b | .ksub _ a b | .kmul _ a b | .kand _ a b | .kor _ a b | .kxor _ a b | .kshl _ a b | .kshr _ a b
  | .ksra _ a b | .kseq _ a b | .kslt _ a b | .ksltn _ a b | .kmin _ a b | .kmax _ a b | .kmulhi _ a b =>
    { k := [(a.toNat, 1), (b.toNat, 1)] }
  | .ksel d a b => { k := [(d.toNat, 1), (a.toNat, 1), (b.toNat, 1)] }
  | .kadd64 _ a b => { k := [(a.toNat, 2), (b.toNat, 2)] }
  | .kmovv _ a => { lead := [(a.toNat, 1)] }
  | .klih d _ => { k := [(d.toNat, 1)] }
  | .lds32 _ base _ | .lds64 _ base _ | .lds128 _ base _ | .ldn32 _ base _ _ _ | .ldn64 _ base _ _ _
  | .ldn128 _ base _ _ _ => { v := [(base.toNat, 1)] }
  | .sts32 d base _ | .stn32 d base _ _ _ => { v := [(d.toNat, 1), (base.toNat, 1)] }
  | .sts64 d base _ | .atsAdd32 d base _ | .atsExch32 d base _ | .stn64 d base _ _ _ | .atnAdd32 d base _ _ _
  | .atnExch32 d base _ _ _ => { v := [(d.toNat, 2), (base.toNat, 1)] }
  | .sts128 d base _ | .stn128 d base _ _ _ => { v := [(d.toNat, 4), (base.toNat, 1)] }
  | .stg8 d a _ _ _ | .stg16 d a _ _ _ | .stg32 d a _ _ _ => { v := [(d.toNat, 1), (a.toNat, 2)] }
  | .stg64 d a _ _ _ | .atg32 d a _ _ _ | .atf32 d a _ _ _ => { v := [(d.toNat, 2), (a.toNat, 2)] }
  | .stg128 d a _ _ _ | .atg64 d a _ _ _ => { v := [(d.toNat, 4), (a.toNat, 2)] }
  | .ldp32 _ base _ | .ldp64 _ base _ | .ldp128 _ base _ | .pfp base _ | .ldh32 _ base _ | .ldh64 _ base _ =>
    { v := [(base.toNat, 2)] }
  | .ldcb32 _ x _ | .ldcb64 _ x _ | .ldcb128 _ x _ => { v := [(x.toNat, 1)] }
  | .sth32 d base _ => { v := [(d.toNat, 1), (base.toNat, 2)] }
  | .sth64 d base _ => { v := [(d.toNat, 2), (base.toNat, 2)] }
  | .athAdd64 d base _ | .athCas64 d base _ | .athExch64 d base _ => { v := [(d.toNat, 4), (base.toNat, 2)] }
  | .barrx _ ka | .bexp _ ka | .mxpush ka | .pstatus _ ka | .wsync ka | .evsig ka => { k := [(ka.toNat, 1)] }
  | .cpgs vs a _ _ | .cpsg vs a _ _ => { v := [(vs.toNat, 1), (a.toNat, 2)] }
  | .cptl ka kb _ _ | .cpts ka kb _ _ => { k := [(ka.toNat, 1), (kb.toNat, 1)] }
  | .cppw ka kb _ | .sealLines ka kb | .unsealLines ka kb | .cwb ka kb _ =>
    { k := [(ka.toNat, 2), (kb.toNat, 1)] }
  | .qblk ka kb kc _ => { k := [(ka.toNat, 1), (kb.toNat, 1), (kc.toNat, 1)] }
  | .rcommit _ ka | .rrelease _ ka | .pinstall ka => { k := [(ka.toNat, 2)] }
  | .wred _ a _ t _ => { v := [(a.toNat, if t == .f64 then 2 else 1)] }

/-- The first register of a run that holds a poisoned word; a run named by register 0 reads as zero (R13, R14, R393). -/
def badIn? (bad : List Nat) (r : Regs) : Option Nat :=
  if r.1 = 0 then none else (List.range r.2).findSome? fun i => if bad.contains (r.1 + i) then some (r.1 + i) else none

/-- The number of the first poisoned register that an instruction reads in a thread, as UNCORRECTABLE names it:
v, then x, then k (R389). -/
def Sources.poisoned (q : Sources) (w : Weft) (t : Thread) (lead : Bool) : Option Nat :=
  ((if lead then q.lead ++ q.v else q.v).findSome? (badIn? t.vBad)).orElse fun _ =>
    (q.x.bind fun i => if t.xBad.contains i.toNat then some (192 + i.toNat) else none).orElse fun _ =>
      (q.k.findSome? (badIn? w.kBad)).map (128 + ·)

/-- The first poisoned register of an indexed access: its x register; then, if the access passes its checks, the
data register that it reads (R89, R103, R389). -/
def indexedPoison (s : State) (i : BitVec 2) (reads : Nat → Regs) (l : Nat) : Option Nat :=
  let t := s.lane l
  if t.xBad.contains i.toNat then some (192 + i.toNat)
  else
    match indexedReg s (t.xreg i) with
    | .error _ => none
    | .ok r => badIn? t.vBad (reads r)

/-- The first poisoned register of a shuffle in a lane: the va of the lane that it chooses, once its own operand is
sound (R175, R389). -/
def shufflePoison (s : State) (j : Nat → Nat → Int) (a : VReg) (b : Src) (l : Nat) : Option Nat :=
  (Sources.poisoned { v := srcRegs b, k := srcKs 1 b } s.wft (s.lane l) false).orElse fun _ =>
    badIn? (s.lane (shuffleFrom j s b l)).vBad (one a)

/-- The first poisoned register of a vote, reduction or scan, which reads the va of every lane of the issue set
(R176, R389). -/
def reducePoison (s : State) (a : VReg) : Option Nat := s.iss.lanes.findSome? fun l => badIn? (s.lane l).vBad (one a)

/-- The first poisoned register that the instruction at issue reads in a lane (R389, R393). -/
def lanePoison (s : State) (ins : Instr) (l : Nat) : Option Nat :=
  match ins with
  | .movx _ i => indexedPoison s i (fun r => (r, 1)) l
  | .movxw i a => indexedPoison s i (fun _ => one a) l
  | .shfl _ a b => shufflePoison s (fun _ b => Int.ofNat b) a b l
  | .shflup _ a b => shufflePoison s (fun i b => Int.ofNat i - Int.ofNat b) a b l
  | .shfldn _ a b => shufflePoison s (fun i b => Int.ofNat i + Int.ofNat b) a b l
  | .shflx _ a b => shufflePoison s (fun i b => Int.ofNat (i ^^^ b)) a b l
  | .ballot _ a | .vany _ a | .vall _ a | .redadd _ a | .redfadd _ a | .redmax _ a | .redmin _ a | .scanadd _ a =>
    reducePoison s a
  | _ => (sourcesOf ins).poisoned s.wft (s.lane l) (s.iss.lanes.head? == some l)

/-- The lanes of an issue set in which an instruction reads a poisoned register, each with the number of the
first (R389, R393). -/
def regFaults (s : State) (i : Issue) (ins : Instr) : List (Nat × Nat) :=
  i.lanes.filterMap fun l => (lanePoison { s with iss := i } ins l).map (l, ·)

end Sys2Proof.Machine
end

