-- ==== Sys2Proof/Machine/Step.lean ====
section
/-!
DEFINITION. One step of the module: the turn that the agenda names, or the model's own order; the
issue of a weft; and the placing of a probe instruction where the next step fetches it.
-/
namespace Sys2Proof.Machine

/-- The cycle counter of a core as the core issues again: some cycles later, and never past its greatest value but
from there (R125). DESIGN CHOICE (log 18). -/
def tick (s : State) (core : Nat) : State :=
  let r := s.fresh
  let now := (s.core core).cyc.toNat + 1
  let later := now + Config.freeCycles r.1
  r.2.setCore core { s.core core with cyc := BitVec.ofNat 64 (if later < 2 ^ 64 then later else now) }

/-- The same, but where the cycle is one in which another of its partitions has issued. -/
def tickOnce (s : State) (core : Nat) : State :=
  if s.cycle.parts.any (· / 4 == core) then s else tick s core

/-- The state in which a fetched instruction executes: it stands at issue. -/
def prepare (s : State) (i : Issue) : State := { s with iss := i, stalled := false }

/-- Issue one stream of a weft (R22, R141-R143): its issue set is chosen, its word is fetched and
decoded, and the instruction executes; a word that is no instruction traps ILLEGAL (R65). -/
noncomputable def issueWeft (s : State) (b w : Nat) (handler : Bool) : Host.Outcome State Fault Refusal :=
  match issueSet s b w handler with
  | none => .next { s with stalled := true }
  | some i =>
    match fetchWord s (s.block b).core (s.grid (s.block b).gid) i.pc with
    | (.wait, s') => .next { s' with stalled := true }
    | (.cond c, s') => .next (fetchFault { s' with stalled := false } i c)
    | (.ok (word, len), s') =>
      let i := { i with word := word, len := len }
      match decodeWord word with
      | .ok ins => exec ins (prepare s' { i with bad := regFaults s' i ins })
      | .error _ => let s'' := prepare s' i; .next (trapAll (noteIssue s'') (illegalCond s''))

/-- Whether a stream of a weft is ready: its issue set would not stall (R140, R142). -/
noncomputable def streamReady (s : State) (b w : Nat) (handler : Bool) : Bool :=
  mayIssue s b w &&
    match issueWeft s b w handler with
    | .next s' => !s'.stalled
    | _ => true

/-- The stream of a weft that goes next, if one is ready (R140, R144). -/
noncomputable def weftReady (s : State) (b w : Nat) : Option Bool :=
  pickStream (streamReady s b w false) (streamReady s b w true) (s.weft b w).lastHandler

/-- The issue class of the next instruction of a stream (R139). -/
noncomputable def nextClass (s : State) (b w : Nat) (handler : Bool) : Option IClass :=
  match issueSet s b w handler with
  | none => none
  | some i =>
    match (fetchWord s (s.block b).core (s.grid (s.block b).gid) i.pc).1 with
    | .wait => none
    | .cond _ => none
    | .ok (word, _) =>
      match decodeWord word with
      | .ok ins => some (classOf ins)
      | .error _ => none

/-- The issuing wefts of a slot row: all of them where every weft of the row is ready and their next
instructions are of one class, else the oldest ready one (R139). -/
noncomputable def rowGroup (s : State) (core part row : Nat) : List (Nat × Nat × Bool) :=
  let all := rowWefts s core part row
  let ready := all.filterMap fun x => (weftReady s x.1 x.2).map fun h => (x.1, x.2, h)
  let sorted := ready.foldl (fun acc x => insertAge s x acc) []
  let classes := sorted.map fun x => nextClass s x.1 x.2.1 x.2.2
  if sorted.length = all.length ∧ classes.all (fun c => c.isSome && c == classes.headD none) then sorted
  else sorted.take 1

/-- The row and the wefts that a core partition issues, if it has a candidate (R205). -/
noncomputable def pickRow (s : State) (core part : Nat) : Option (Nat × List (Nat × Nat × Bool)) :=
  bestRow s (Sp.get 15 (s.core core).lastRow part)
    ((List.range 16).filterMap fun row =>
      match rowGroup s core part row with
      | [] => none
      | g => some (row, g))

/-- Issue wefts one after another (R139), each if it may still issue: a replay may stop a block between them (R416). -/
noncomputable def issueAll : List (Nat × Nat × Bool) → State → Host.Outcome State Fault Refusal
  | [], s => .next s
  | x :: xs, s =>
    if mayIssue s x.1 x.2.1 then
      match issueWeft s x.1 x.2.1 x.2.2 with
      | .next s' => issueAll xs s'
      | .fault r => .fault r
      | .refused r => .refused r
    else issueAll xs s

/-- A core partition issues; with no candidate nothing happens (R205). What several wefts do in the cycle is one
update of a barrier (R184). -/
noncomputable def issueTurn (s : State) (core part : Nat) : Host.Outcome State Fault Refusal :=
  match pickRow s core part with
  | none => .next s
  | some (row, g) =>
    let s := tickOnce (s.setCore core { s.core core with lastRow := Sp.put (s.core core).lastRow part row }) core
    issueAll g (if g.length ≤ 1 then s else { s with cycle := { s.cycle with joined := true } })

/-- The core partitions that hold wefts, each as core × 4 + partition. -/
def partitions (s : State) : List Nat :=
  (s.wefts.map fun e => (s.block (e.1 / 128)).core * 4 + e.2.part).eraseDups

/-- The next core partition with a candidate, in cyclic order after the last: the model's own order. -/
noncomputable def nextPartition (s : State) : Option Nat :=
  let ps := partitions s
  ((ps.filter fun p => decide (s.lastPart < p)) ++ ps.filter fun p => decide (p ≤ s.lastPart)).find?
    fun p => (pickRow s (p / 4) (p % 4)).isSome

/-- A turn of the agenda. A word instruction is no step of the device, and does nothing there. DESIGN CHOICE (log 3). -/
noncomputable def takeTurn (s : State) : Turn → Host.Outcome State Fault Refusal
  | .issue core part => issueTurn s core part
  | .event i => if i.len = 0 then exec i s else .next s
  | .sameCycle => .next s

/-- The core partition that a turn is of, as core × 4 + partition. -/
def Turn.part : Turn → Option Nat
  | .issue core part => some (core * 4 + part)
  | .event _ => none
  | .sameCycle => none

/-- A turn in its cycle (R184): one of a partition that has issued in the open cycle begins the next; after it the
cycle ends, unless the turn that follows falls into it. -/
noncomputable def cycleTurn (s : State) (t : Turn) : Host.Outcome State Fault Refusal :=
  let s := if t.part.any s.cycle.parts.contains then endCycle s else s
  match takeTurn s t with
  | .next s' =>
    if s.cycle.joined then
      .next { s' with cycle := { s'.cycle with joined := false, parts := t.part.toList ++ s.cycle.parts } }
    else .next (if s'.cycle = {} then s' else endCycle s')
  | .fault r => .fault r
  | .refused r => .refused r

/-- A stream that stalls at a copy for want of a slot takes its place among those that wait (R142, R273). -/
noncomputable def noteWait (core : Nat) (s : State) (x : Nat × Nat × Bool) : State :=
  if mayIssue s x.1 x.2.1 then
    match issueWeft s x.1 x.2.1 x.2.2 with
    | .next s' => if s'.stalled then setCopyq s core (s'.core core).copyq else s
    | _ => s
  else s

/-- The same of every stream on a core, oldest weft first. -/
noncomputable def noteWaits (s : State) (core : Nat) : State :=
  let wefts := (s.wefts.filter fun e => (s.block (e.1 / 128)).core == core).foldl
    (fun acc e => insertAge s (e.1 / 128, e.1 % 128, false) acc) []
  (wefts.flatMap fun x => [x, (x.1, x.2.1, true)]).foldl (noteWait core) s

/-- The same on every core that has no free slot or streams that wait for one (R273). DEDUCED (log 132). -/
noncomputable def noteCopyWaits (s : State) : State :=
  (s.cores.filter fun e => decide (32 ≤ e.2.copies.length) || !e.2.copyq.isEmpty).foldl (fun s e => noteWaits s e.1) s

/-- What happens by itself before a turn: captured operations are re-injected where they can be (R385, R388), traps that
waits held back are taken (R394), copies that find no slot join those that wait (R273), and the device makes the next
of its own writes (R413, R432). -/
noncomputable def prelude (s : State) : State := flushPuts (noteCopyWaits (takeDue (reinjectAll s)))

/-- One step: the turn the agenda names, which may be joined with the one after it; else a step of the device that is
due; else the next core partition that can issue; else nothing more. -/
noncomputable def step (s : State) : Host.Outcome State Fault Refusal :=
  let s := prelude s
  match s.agenda with
  | .sameCycle :: ts => .next { s with agenda := ts, cycle := { s.cycle with joined := true } }
  | t :: ts => cycleTurn { s with agenda := ts } t
  | [] =>
    match dueEvent s with
    | some i => cycleTurn s (.event i)
    | none =>
      match nextPartition s with
      | some p => cycleTurn { s with lastPart := p } (.issue (p / 4) (p % 4))
      | none => .next (endCycle s)

/-! ## A probe instruction (the host's interface) -/

/-- The launch record of the probe: one thread in one weft of width 8, in a GENERAL role that may
name every register. -/
def probeLaunch : Launch := { code := 0x10000, roles := [{ regs := 128, prio := 3 }] }

/-- The state with an instruction stored where the next step fetches it: a block of one thread on core 0, its code
page in the core's TLB, its bytes in main DRAM, and its issue next on the agenda. DESIGN CHOICE (log 85). -/
def State.withFetchWord (s : State) (nbits w : Nat) : State :=
  let g := s.nextGid
  let b := s.nextBlk
  let mem := s.mem.write 0x10000 4 (w % 2 ^ nbits)
  let s := { s with
    mem := mem, bad := Sp.del s.bad 0x2000
    domains := List.map (fun (e : Nat × Domain) => (e.1, { e.2 with remote := Sp.del e.2.remote 0x100 })) s.domains }
  let s := s.setGrid g { stages := [probeLaunch], code := releasedMem s, since := s.storedNo }
  let s := s.setBlock b { gid := g, bst := .resident }
  let s := s.setWeft b 0 { wst := .active }
  let s := s.setThread b 0 0 { tst := .run, pc := 0x10000 }
  let s := s.setCore 0
    { s.core 0 with tlb := { va := 0x10000, bits := 16, pa := 0x10000, r := true, w := true, x := true, d := true } :: (s.core 0).tlb }
  { s with nextGid := g + 1, nextBlk := b + 1, agenda := .issue 0 0 :: s.agenda }

end Sys2Proof.Machine
end

