-- ==== Sys2Proof/Safety.lean ====
section
/-!
DEFINITION. The terms in which claims are stated: when an instruction may issue, what an issue leaves, what
each lane comes to, and the invariant that every step keeps.
-/
namespace Sys2Proof.Machine

/-! ## When an instruction issues (R31, R88, R141, R142, R152, R389) -/

/-- The issue set is one that R141 can form: at least one lane, in ascending order, each below 32. -/
abbrev FormedSet (s : State) : Prop :=
  s.iss.lanes ≠ [] ∧ s.iss.lanes.Pairwise (· < ·) ∧ ∀ l ∈ s.iss.lanes, l < 32

/-- The role of the weft at issue permits the instruction, and its allotment holds the data registers named (R15,
R152). -/
abbrev Allowed (p : RoleKind → Bool) (rs : List Regs) (s : State) : Prop :=
  p (s.roleOf s.iss.blk s.iss.weft).kind = true ∧ ∀ r ∈ rs, r.1 + r.2 - 1 < (s.roleOf s.iss.blk s.iss.weft).regs

/-- An instruction of one class, naming the data registers `rs` and the uniform registers `ks`, issues: no
condition of its word, role or allotment arises, no dependence holds it back, and no register it reads is poisoned. -/
abbrev Issues (c : IClass) (rs ks : List Regs) (s : State) : Prop :=
  FormedSet s ∧ Allowed (fun k => k.permits c) rs s ∧ issueBusy s rs ks = false ∧ s.iss.bad = []

/-- The same of an instruction of the roles that `p` names (R152). -/
abbrev IssuesAs (p : RoleKind → Bool) (rs ks : List Regs) (s : State) : Prop :=
  FormedSet s ∧ Allowed p rs s ∧ issueBusy s rs ks = false ∧ s.iss.bad = []

/-! ## What an issue leaves -/

/-- `t` holds what `u` holds in every thread off the issue set of `s`, and in every field but the threads. -/
def SameBut (s u t : State) : Prop :=
  (∀ k, (∀ l ∈ s.iss.lanes, k ≠ tkey s.iss.blk s.iss.weft l) → Sp.find? t.threads k = Sp.find? u.threads k) ∧
    { t with threads := [] } = { u with threads := [] }

/-- The instruction at issue takes every lane `l` of its issue set from its thread `x`, as the recorded issue
leaves it, to `f l x`, and changes nothing else. -/
def LanesDo (s t : State) (f : Nat → Thread → Thread) : Prop :=
  (∀ l ∈ s.iss.lanes,
    t.thread s.iss.blk s.iss.weft l = f l ((noteIssue s).thread s.iss.blk s.iss.weft l)) ∧
    SameBut s (noteIssue s) t

/-- The thread past the instruction at issue (R22). -/
def Thread.past (s : State) (x : Thread) : Thread := { x with pc := nextPc s }

/-- Every lane of the issue set writes one word register and goes on (R22, R89). -/
def WritesWord (s t : State) (d : VReg) (f : Nat → Thread → Word) : Prop :=
  LanesDo s t fun l x => (x.setReg d.toNat (f l x)).past s

/-- Every lane of the issue set writes one pair and goes on (R14, R22). -/
def WritesPair (s t : State) (d : VReg) (f : Nat → Thread → DWord) : Prop :=
  LanesDo s t fun l x => (x.setPair d.toNat (f l x)).past s

/-- Every lane of the issue set writes one word register, sets the flags of the result, and goes on (R104). -/
def WritesFloat (s t : State) (d : VReg) (f : Nat → Thread → FRes) : Prop :=
  LanesDo s t fun l x => ((x.setReg d.toNat (BitVec.ofNat 32 (f l x).bits)).raise (f l x).flags).past s

/-- The same with a pair (R104). -/
def WritesFloat64 (s t : State) (d : VReg) (f : Nat → Thread → FRes) : Prop :=
  LanesDo s t fun l x => ((x.setPair d.toNat (BitVec.ofNat 64 (f l x).bits)).raise (f l x).flags).past s

/-- The weft at issue comes to `w`, every lane of the issue set goes on, and nothing else changes (R167). -/
def WeftDoes (s t : State) (w : Weft) : Prop :=
  (∀ l ∈ s.iss.lanes,
    t.thread s.iss.blk s.iss.weft l = ((noteIssue s).thread s.iss.blk s.iss.weft l).past s) ∧
    SameBut s ((noteIssue s).setWeft s.iss.blk s.iss.weft w) t

/-- Every lane of the issue set goes on with its registers unchanged, and no other thread changes (R22). -/
def LanesPast (s t : State) : Prop :=
  (∀ l ∈ s.iss.lanes,
    t.thread s.iss.blk s.iss.weft l = ((noteIssue s).thread s.iss.blk s.iss.weft l).past s) ∧
    ∀ k, (∀ l ∈ s.iss.lanes, k ≠ tkey s.iss.blk s.iss.weft l) →
      Sp.find? t.threads k = Sp.find? (noteIssue s).threads k

/-- A legal control-transfer target: canonical and even (R21). -/
abbrev LegalTarget (a : DWord) : Prop := canonical a = true ∧ a.getLsbD 0 = false

/-- Every lane of the issue set goes on, and the instruction leaves outstanding one operation of the access `a`,
counted in its weft's counter, in which lane `l` stands as `acc l` (R30, R130, R286). -/
def LeavesAccess (s t : State) (a : Access) (acc : Nat → LaneAcc) : Prop :=
  ∃ u, LanesDo s u (fun _ x => x.past s) ∧
    t = addCounted u a.fn.counter (issuedOp s a (s.iss.lanes.map acc) (laneMask s.iss.lanes))

/-- Every lane of the issue set goes on and waits for one operation of kind `k`, which the instruction leaves
outstanding (R253). -/
def LeavesWait (s t : State) (k : OpKind) : Prop :=
  ∃ u, LanesDo s u (fun _ x => { x with hold := some s.nextOp }.past s) ∧
    t = addOp u { issuedOp s {} [] (laneMask s.iss.lanes) with kind := k }

/-- Lane `l` has taken the trap of `c`: its frame holds it, it stands at the handler, and its registers are as they were
(R376, R379, R380). -/
def Trapped (s t : State) (l : Nat) (c : Cond) : Prop :=
  let x := s.lane l
  let y := t.thread s.iss.blk s.iss.weft l
  y.tst = .trap ∧ y.pc = (s.launch s.iss.blk).handler ∧
    y.tcause = BitVec.ofNat 32 (c.cause.code + c.reason * 2 ^ 8 + if c.sys then 2 ^ 16 else 0) ∧
    y.taddr = BitVec.ofNat 64 c.addr ∧ y.tinfo = BitVec.ofNat 32 c.info ∧ y.tpc = x.pc + BitVec.ofNat 64 c.skip ∧
    y.v = x.v ∧ y.x = x.x

/-- The weft at issue has parked at the instruction for the fault `c` of its lowest failing lane, with the masks of
the lanes that take no trap and of those that complete (R382, R384). -/
def ParkedAtIssue (s t : State) (c : Cond) (issue done : Nat) : Prop :=
  t.wft.wst = .parked ∧ t.wft.atIssue = true ∧
    t.wft.park.map (fun e => (e.kind, e.cause, e.reason, e.space, e.addr, e.pc, e.issue, e.done)) =
      some (1, c.cause.code, c.reason, c.info, c.addr, s.iss.pc.toNat, issue, done)

/-- The lanes of a memory instruction of the access `a` after their checks: one that meets `trap` has trapped, one
that meets `fault` stands at the instruction, where its weft has parked, and each other one goes on; one operation is
outstanding for these, with `acc` for each, if there are any. No memory is written (R29, R89, R382, R383). -/
def LanesChecked (s t : State) (a : Access) (acc : Nat → LaneAcc) (trap fault : Nat → Option Cond) : Prop :=
  let ok := s.iss.lanes.filter fun l => (trap l).isNone && (fault l).isNone
  let failed := s.iss.lanes.filter fun l => (trap l).isNone && (fault l).isSome
  (∀ l ∈ s.iss.lanes, ∀ c, trap l = some c → Trapped s t l c) ∧
  (∀ l ∈ ok, t.thread s.iss.blk s.iss.weft l = ((noteIssue s).thread s.iss.blk s.iss.weft l).past s) ∧
  (∀ l ∈ failed, t.thread s.iss.blk s.iss.weft l = (noteIssue s).thread s.iss.blk s.iss.weft l) ∧
  (∀ l c, failed.head? = some l → fault l = some c → ParkedAtIssue s t c (laneMask (ok ++ failed)) (laneMask ok)) ∧
  (ok = [] → t.ops.map (·.1) = s.ops.map (·.1)) ∧
  (ok ≠ [] → t.op? s.nextOp = some (issuedOp s a (ok.map acc) (laneMask (ok ++ failed))) ∧
    t.wft.counter a.fn.counter = s.wft.counter a.fn.counter ++ [{ op := s.nextOp }]) ∧
  t.mem = s.mem ∧ t.hostMem = s.hostMem ∧ t.bad = s.bad ∧ ∀ b, (t.block b).spm = (s.block b).spm

/-- A memory instruction of the access `a`, whose base field names the registers of `b`, issues: the counter it steps
has room, and no lane holds eight operations that await translation (R130, R377). -/
abbrev AccessIssues (a : Access) (b : Regs) (s : State) : Prop :=
  Issues .memory [a.group, b] [] s ∧ s.wft.room a.fn.counter 1 = true ∧ ∀ l ∈ s.iss.lanes, heldFull s l = false

/-! ## The invariant -/

/-- Main DRAM and host memory are in canonical form: addresses rise strictly, and no listed byte is the zero that
an unlisted address reads as. -/
def State.inv (s : State) : Bool := s.mem.wf && s.hostMem.wf

end Sys2Proof.Machine
end

