-- ==== Sys2Proof/Certificates/Slice0/Obligations.lean ====
section
/-!
DEFINITION. The statements about this machine, for the provers.
-/
open Sys2Proof Sys2Proof.Machine

/-! ## Registers, memory and rounding: what the shared operations do -/

/-- R13, R14, R47: what a data register, a pair and a quad read after one of them is written; v0 reads zero and a
write to it, or to a group named by it, is discarded; a register written is poisoned no more (R393). R148, R167:
the same of the uniform registers of a weft; a write to one changes no other field of the weft but the poison of
its word, which it clears (R393). -/
def Obligations.RegisterFiles : Prop :=
  (∀ (x : Thread) (r q : Nat),
     x.reg 0 = 0 ∧
     (∀ v : Word, (x.setReg r v).reg q = if q = r ∧ r ≠ 0 then v else x.reg q) ∧
     (∀ v : DWord, (x.setPair r v).reg q =
       if r ≠ 0 ∧ q = r then v.extractLsb' 0 32 else if r ≠ 0 ∧ q = r + 1 then v.extractLsb' 32 32 else x.reg q) ∧
     (∀ v : DWord, (x.setPair r v).pair r = if r = 0 then 0 else v) ∧
     (∀ v : QWord, (x.setQuad r v).quad r = if r = 0 then 0 else v) ∧
     (∀ v : QWord, q < r ∨ r + 3 < q ∨ r = 0 → (x.setQuad r v).reg q = x.reg q) ∧
     (∀ v : Word, r ≠ 0 → ((x.setReg r v).vBad.contains q = (x.vBad.contains q && q != r)))) ∧
  (∀ (x : Weft) (r q : Nat),
     x.kreg 0 = 0 ∧
     (∀ v : Word, (x.setK r v).kreg q = if q = r ∧ r ≠ 0 then v else x.kreg q) ∧
     (∀ v : DWord, (x.setKPair r v).kpair r = if r = 0 then 0 else v) ∧
     (∀ v : Word, { x.setK r v with k := x.k, kBad := x.kBad } = x) ∧
     (∀ v : Word, r ≠ 0 → ((x.setK r v).kBad.contains q = (x.kBad.contains q && q != r))))

/-- R7: bytes written to a memory are read back, lowest byte first, and every other byte reads as before. -/
def Obligations.MemoryReadAfterWrite : Prop :=
  ∀ (m : Memory) (a n x b : Nat),
    (m.write a n x).byte b =
      (if a ≤ b ∧ b < a + n then BitVec.ofNat 8 (x / 256 ^ (b - a)) else m.byte b) ∧
    (m.write a n x).read a n = x % 256 ^ n

/-- Two memories in canonical form that read the same everywhere are the same. -/
def Obligations.CanonicalMemoriesAreEqual : Prop :=
  ∀ m n : Memory, m.wf = true → n.wf = true → (∀ a, m.byte a = n.byte a) → m = n

/-- R72: the rounding of m × 2^e to a whole number k of units 2^q. To nearest, k is within half a unit, and even on
a tie; toward zero it is the nearest not greater in magnitude; downward and upward it is the nearest not greater
and not less as a signed value. The inexact mark says whether k differs from the exact value. -/
def Obligations.RoundingFollowsTheMode : Prop :=
  ∀ (rm : Nat) (neg : Bool) (m : Nat) (e q : Int),
    let r := roundAt rm neg m e false q
    let exact : ℚ := (m : ℚ) * 2 ^ e
    let unit : ℚ := 2 ^ q
    let sign : ℚ := if neg then -1 else 1
    (r.2 = false ↔ (r.1 : ℚ) * unit = exact) ∧
    (rm = 0 → |exact - r.1 * unit| ≤ unit / 2 ∧ (|exact - r.1 * unit| = unit / 2 → r.1 % 2 = 0)) ∧
    (rm = 1 → r.1 * unit ≤ exact ∧ exact < (r.1 + 1) * unit) ∧
    (rm = 2 → sign * (r.1 * unit) ≤ sign * exact ∧ sign * exact < sign * (r.1 * unit) + unit) ∧
    (rm = 3 → sign * exact ≤ sign * (r.1 * unit) ∧ sign * (r.1 * unit) - unit < sign * exact)

/-! ## Encodings -/

/-- A word of several formats, as the spec's field lines and examples give its bits, decodes to its instruction;
words that the tables reserve are refused by name. -/
def Obligations.WordsDecodeAsTheTablesSay : Prop :=
  decodeWord 0x038008C5 = .ok (.movk 4 7) ∧
  decodeWord 0x000016BD = .ok (.trap 5) ∧
  decodeWord 0x000002CD = .ok .bkpt ∧
  decodeWord 0x000002DD = .ok .rett ∧
  decodeWord (0x3 * 2 ^ 25 + 0x2 * 2 ^ 18 + 0x1 * 2 ^ 11 + 0x17 * 2 ^ 5 + 1) = .error (.shape .oddPair) ∧
  decodeWord (0x3 * 2 ^ 25 + 0x2 * 2 ^ 18 + 0x1 * 2 ^ 11 + 0x05 * 2 ^ 5 + 1) = .ok (.imad 1 2 (.v 3)) ∧
  decodeWord (0x3 * 2 ^ 25 + 0x2 * 2 ^ 18 + 0x1 * 2 ^ 11 + 0x16 * 2 ^ 5 + 3) = .error .mustBeZero

/-- Every well-formed instruction word decodes to the instruction it encodes, at every value of every operand, and
the bytes of its encoding decode to it whatever bytes follow. -/
def Obligations.EncodedInstructionDecodesToItself : Prop :=
  ∀ i : Instr, i.WellFormed → i.len ≠ 0 →
    decodeWord (encode i) = .ok i ∧ encode i < 2 ^ (8 * i.len) ∧
    ∀ rest, decode (encodeBytes i ++ rest) = .ok (i, rest)

/-- A word has one meaning: the instruction that a word of its length decodes to is well formed, and encodes to
that word. -/
def Obligations.DecodedInstructionEncodesToItsWord : Prop :=
  ∀ (w : Nat) (i : Instr), decodeWord w = .ok i → w < 2 ^ (if w % 2 = 0 then 16 else 32) →
    i.WellFormed ∧ encode i = w ∧ i.len = if w % 2 = 0 then 2 else 4

/-! ## The arithmetic of the lanes -/

/-- R91: the additive and multiplicative instructions of one word, their op6, and their results, over exact
products and sums. -/
def Obligations.AdditiveAndMultiplicativeResults : Prop :=
  ∀ (s : State) (d a : VReg) (b : Src),
    (∀ e ∈ ([
        (.iadd, 0x00, fun x y => BitVec.ofInt 32 (x.toInt + y.toInt)),
        (.isub, 0x01, fun x y => BitVec.ofInt 32 (x.toInt - y.toInt)),
        (.imul, 0x02, fun x y => BitVec.ofInt 32 (x.toInt * y.toInt)),
        (.imulhi, 0x03, fun x y => BitVec.ofInt 32 (x.toInt * y.toInt / 2 ^ 32)),
        (.imulhin, 0x04, fun x y => BitVec.ofNat 32 (x.toNat * y.toNat / 2 ^ 32)),
        (.iaddsat, 0x13, fun x y => BitVec.ofInt 32 (min (max (x.toInt + y.toInt) (-2 ^ 31)) (2 ^ 31 - 1))),
        (.isubsat, 0x14, fun x y => BitVec.ofInt 32 (min (max (x.toInt - y.toInt) (-2 ^ 31)) (2 ^ 31 - 1)))] :
        List ((VReg → VReg → Src → Instr) × Nat × (Word → Word → Word))),
      encode (e.1 d a b) / 2 ^ 5 % 64 = e.2.1 ∧
      (Issues .integer ([one d, one a] ++ srcRegs b) (srcKs 1 b) s →
        ∃ t, exec (e.1 d a b) s = .next t ∧
          WritesWord s t d fun _ x => e.2.2 (x.reg a.toNat) (srcWord s.wft x b))) ∧
    (encode (.imad d a b) / 2 ^ 5 % 64 = 0x05 ∧
      (Issues .integer ([one d, one a] ++ srcRegs b) (srcKs 1 b) s →
        ∃ t, exec (.imad d a b) s = .next t ∧
          WritesWord s t d fun _ x =>
            BitVec.ofNat 32 ((x.reg a.toNat).toNat * (srcWord s.wft x b).toNat + (x.reg d.toNat).toNat))) ∧
    (∀ e ∈ ([
        (.iadd64, 0x17, fun x y => BitVec.ofInt 64 (x.toInt + y.toInt)),
        (.isub64, 0x18, fun x y => BitVec.ofInt 64 (x.toInt - y.toInt))] :
        List ((VReg → VReg → Src → Instr) × Nat × (DWord → DWord → DWord))),
      encode (e.1 d a b) / 2 ^ 5 % 64 = e.2.1 ∧
      (Issues .integer ([two d, two a] ++ srcRegs2 b) (srcKs 2 b) s →
        ∃ t, exec (e.1 d a b) s = .next t ∧
          WritesPair s t d fun _ x => e.2.2 (x.pair a.toNat) (srcPair s.wft x b))) ∧
    (∀ e ∈ ([
        (.imulw, 0x19, fun x y => BitVec.ofInt 64 (x.toInt * y.toInt)),
        (.imulwn, 0x1A, fun x y => BitVec.ofNat 64 (x.toNat * y.toNat))] :
        List ((VReg → VReg → Src → Instr) × Nat × (Word → Word → DWord))),
      encode (e.1 d a b) / 2 ^ 5 % 64 = e.2.1 ∧
      (Issues .integer ([two d, one a] ++ srcRegs b) (srcKs 1 b) s →
        ∃ t, exec (e.1 d a b) s = .next t ∧
          WritesPair s t d fun _ x => e.2.2 (x.reg a.toNat) (srcWord s.wft x b)))

/-- R92: minimum, maximum, compares and selection, their op6 and their results as I32 and as N32. -/
def Obligations.CompareAndSelectResults : Prop :=
  ∀ (s : State) (d a : VReg) (b : Src),
    (∀ e ∈ ([
        (.imin, 0x06, fun x y => BitVec.ofInt 32 (min x.toInt y.toInt)),
        (.imax, 0x07, fun x y => BitVec.ofInt 32 (max x.toInt y.toInt)),
        (.iminn, 0x08, fun x y => BitVec.ofNat 32 (min x.toNat y.toNat)),
        (.imaxn, 0x09, fun x y => BitVec.ofNat 32 (max x.toNat y.toNat)),
        (.iseq, 0x1E, fun x y => if x = y then 0xFFFFFFFF else 0),
        (.isne, 0x1F, fun x y => if x = y then 0 else 0xFFFFFFFF),
        (.islt, 0x20, fun x y => if x.toInt < y.toInt then 0xFFFFFFFF else 0),
        (.isle, 0x21, fun x y => if x.toInt ≤ y.toInt then 0xFFFFFFFF else 0),
        (.isltn, 0x22, fun x y => if x.toNat < y.toNat then 0xFFFFFFFF else 0),
        (.islen, 0x23, fun x y => if x.toNat ≤ y.toNat then 0xFFFFFFFF else 0)] :
        List ((VReg → VReg → Src → Instr) × Nat × (Word → Word → Word))),
      encode (e.1 d a b) / 2 ^ 5 % 64 = e.2.1 ∧
      (Issues .integer ([one d, one a] ++ srcRegs b) (srcKs 1 b) s →
        ∃ t, exec (e.1 d a b) s = .next t ∧
          WritesWord s t d fun _ x => e.2.2 (x.reg a.toNat) (srcWord s.wft x b))) ∧
    encode (.sel d a b) / 2 ^ 5 % 64 = 0x12 ∧
    (Issues .integer ([one d, one a] ++ srcRegs b) (srcKs 1 b) s →
      ∃ t, exec (.sel d a b) s = .next t ∧
        WritesWord s t d fun _ x =>
          if x.reg d.toNat ≠ 0 then x.reg a.toNat else srcWord s.wft x b)

/-- R93: logic, shifts and rotation, their op6 and their results; a count of 32 or more moves every bit out. R94:
the 64-bit shifts of a pair by the word count in vb, or in one uniform register. -/
def Obligations.LogicAndShiftResults : Prop :=
  (∀ (s : State) (d a : VReg) (b : Src),
     ∀ e ∈ ([
         (.and, 0x0A, fun x y => x &&& y),
         (.or, 0x0B, fun x y => x ||| y),
         (.xor, 0x0C, fun x y => x ^^^ y),
         (.andn, 0x0D, fun x y => x &&& ~~~y),
         (.shl, 0x0E, fun x y => if y.toNat < 32 then BitVec.ofNat 32 (x.toNat * 2 ^ y.toNat) else 0),
         (.shrl, 0x0F, fun x y => if y.toNat < 32 then BitVec.ofNat 32 (x.toNat / 2 ^ y.toNat) else 0),
         (.shra, 0x10, fun x y => if y.toNat < 32 then BitVec.ofInt 32 (x.toInt / 2 ^ y.toNat)
           else if x.msb then 0xFFFFFFFF else 0),
         (.rotl, 0x11, fun x y => (x ++ x : DWord).extractLsb' (32 - y.toNat % 32) 32)] :
         List ((VReg → VReg → Src → Instr) × Nat × (Word → Word → Word))),
       encode (e.1 d a b) / 2 ^ 5 % 64 = e.2.1 ∧
       (Issues .integer ([one d, one a] ++ srcRegs b) (srcKs 1 b) s →
         ∃ t, exec (e.1 d a b) s = .next t ∧
           WritesWord s t d fun _ x => e.2.2 (x.reg a.toNat) (srcWord s.wft x b))) ∧
  (∀ (s : State) (d a : VReg) (b : Src),
     ∀ e ∈ ([
         (.shl64, 0x1B, fun x y => if y.toNat < 64 then BitVec.ofNat 64 (x.toNat * 2 ^ y.toNat) else 0),
         (.shrl64, 0x1C, fun x y => if y.toNat < 64 then BitVec.ofNat 64 (x.toNat / 2 ^ y.toNat) else 0),
         (.shra64, 0x1D, fun x y => if y.toNat < 64 then BitVec.ofInt 64 (x.toInt / 2 ^ y.toNat)
           else if x.msb then BitVec.allOnes 64 else 0)] :
         List ((VReg → VReg → Src → Instr) × Nat × (DWord → Word → DWord))),
       encode (e.1 d a b) / 2 ^ 5 % 64 = e.2.1 ∧
       (Issues .integer ([two d, two a] ++ srcRegs b) (srcKs 1 b) s →
         ∃ t, exec (e.1 d a b) s = .next t ∧
           WritesPair s t d fun _ x => e.2.2 (x.pair a.toNat) (srcWord s.wft x b)))

/-- R95, R96: BFX takes bits POS upwards of va, as many as LEN says but none above bit 31, and extends them; BFI
puts the low bits of va there and keeps the other bits of vd. R97: POPC, CLZ and BREV, with their encoding and
their results bit by bit; the trailing zeros of a word are the leading zeros of its BREV. -/
def Obligations.BitFieldAndBitCountResults : Prop :=
  (∀ (s : State) (d a : VReg) (b : Src),
     Issues .integer ([one d, one a] ++ srcRegs b) (srcKs 1 b) s →
       (∃ (t : State) (f : Word → Word → Word), exec (.bfx d a b) s = .next t ∧
           (WritesWord s t d fun _ x => f (x.reg a.toNat) (srcWord s.wft x b)) ∧
         ∀ (x y : Word) (i : Nat), i < 32 →
           let pos := y.toNat % 32
           let w := min (y.toNat / 2 ^ 8 % 64) (32 - pos)
           (f x y).getLsbD i =
             if i < w then x.getLsbD (pos + i) else y.getLsbD 16 && decide (0 < w) && x.getLsbD (pos + w - 1)) ∧
       (∃ (t : State) (f : Word → Word → Word → Word), exec (.bfi d a b) s = .next t ∧
         (WritesWord s t d fun _ x => f (x.reg a.toNat) (srcWord s.wft x b) (x.reg d.toNat)) ∧
         ∀ (x y z : Word) (i : Nat), i < 32 →
           let pos := y.toNat % 32
           let w := min (y.toNat / 2 ^ 8 % 64) (32 - pos)
           (f x y z).getLsbD i = if pos ≤ i ∧ i < pos + w then x.getLsbD (i - pos) else z.getLsbD i)) ∧
  (∀ (s : State) (d a : VReg),
     (∀ e ∈ ([(.popc, 0x16), (.clz, 0x17), (.brev, 0x18)] : List ((VReg → VReg → Instr) × Nat)),
       encode (e.1 d a) = 3 + e.2 * 2 ^ 5 + d.toNat * 2 ^ 11 + a.toNat * 2 ^ 18) ∧
     (Issues .integer [one d, one a] [] s →
       (∃ t, exec (.popc d a) s = .next t ∧
         WritesWord s t d fun _ x =>
           BitVec.ofNat 32 ((List.range 32).filter fun i => (x.reg a.toNat).getLsbD i).length) ∧
       (∃ (t : State) (f : Word → Word), exec (.clz d a) s = .next t ∧ (WritesWord s t d fun _ x => f (x.reg a.toNat)) ∧
         f 0 = 32 ∧ ∀ x : Word, ∀ n < 32, f x = BitVec.ofNat 32 n ↔ x.toNat.log2 = 31 - n ∧ x ≠ 0) ∧
       (∃ (t : State) (f : Word → Word), exec (.brev d a) s = .next t ∧ (WritesWord s t d fun _ x => f (x.reg a.toNat)) ∧
         ∀ x : Word, ∀ i < 32, (f x).getLsbD i = x.getLsbD (31 - i))))

/-- R98: division rounds toward zero, the remainder has the sign of the dividend, and a zero divisor gives all ones
and the dividend. -/
def Obligations.DivisionResults : Prop :=
  ∀ (s : State) (d a : VReg) (b : Src),
    ∀ e ∈ ([
        (.idiv, fun x y => if y = 0 then 0xFFFFFFFF else BitVec.ofInt 32 (x.toInt.tdiv y.toInt)),
        (.irem, fun x y => if y = 0 then x else BitVec.ofInt 32 (x.toInt - x.toInt.tdiv y.toInt * y.toInt)),
        (.idivn, fun x y => if y = 0 then 0xFFFFFFFF else BitVec.ofNat 32 (x.toNat / y.toNat)),
        (.iremn, fun x y => if y = 0 then x else BitVec.ofNat 32 (x.toNat - x.toNat / y.toNat * y.toNat))] :
        List ((VReg → VReg → Src → Instr) × (Word → Word → Word))),
      Issues .integer ([one d, one a] ++ srcRegs b) (srcKs 1 b) s →
        ∃ t, exec (e.1 d a b) s = .next t ∧
          WritesWord s t d fun _ x => e.2 (x.reg a.toNat) (srcWord s.wft x b)

/-- R52, R99, R100, R173: the immediate forms have the effect of the three-register instruction with the extended
immediate; MOVI and MOVHI load one; MOVK copies a uniform register. R101 to R103: the pair move; an index register
is written and read whole, its reserved bits zero; an access through one reaches register BASE + INDEX; a lane
traps XRANGE where INDEX is not below BOUND, else REGRANGE beyond the allotment, and the lanes that meet neither
complete. R45: a SHORT word, two bytes long, has the effect of the 32-bit instruction it abbreviates, with vd as
its first source; MOV copies vs, and IADDI adds its zero-extended field. -/
def Obligations.ImmediateAndShortResults : Prop :=
  (∀ (s : State) (d a : VReg),
     (∀ e ∈ ([
         (fun i => .iaddi d a i, fun x i => x + BitVec.signExtend 32 i),
         (fun i => .andi d a i, fun x i => x &&& BitVec.zeroExtend 32 i),
         (fun i => .ori d a i, fun x i => x ||| BitVec.signExtend 32 i),
         (fun i => .xori d a i, fun x i => x ^^^ BitVec.signExtend 32 i),
         (fun i => .iseqi d a i, fun x i => if x = BitVec.signExtend 32 i then 0xFFFFFFFF else 0),
         (fun i => .isnei d a i, fun x i => if x = BitVec.signExtend 32 i then 0 else 0xFFFFFFFF),
         (fun i => .islti d a i, fun x i => if x.toInt < i.toInt then 0xFFFFFFFF else 0),
         (fun i => .isltni d a i, fun x i => if x.toNat < (BitVec.signExtend 32 i).toNat then 0xFFFFFFFF else 0),
         (fun i => .imuli d a i, fun x i => x * BitVec.signExtend 32 i)] :
         List ((BitVec 9 → Instr) × (Word → BitVec 9 → Word))),
       ∀ i, Issues .integer [one d, one a] [] s →
         ∃ t, exec (e.1 i) s = .next t ∧ WritesWord s t d fun _ x => e.2 (x.reg a.toNat) i) ∧
     (∀ e ∈ ([
         (fun i => .shli d a i, fun x i => BitVec.ofNat 32 (x.toNat * 2 ^ i.toNat)),
         (fun i => .shrli d a i, fun x i => BitVec.ofNat 32 (x.toNat / 2 ^ i.toNat)),
         (fun i => .shrai d a i, fun x i => BitVec.ofInt 32 (x.toInt / 2 ^ i.toNat))] :
         List ((BitVec 5 → Instr) × (Word → BitVec 5 → Word))),
       ∀ i, Issues .integer [one d, one a] [] s →
         ∃ t, exec (e.1 i) s = .next t ∧ WritesWord s t d fun _ x => e.2 (x.reg a.toNat) i) ∧
     (∀ i, Issues .integer [two d, two a] [] s →
       ∃ t, exec (.iadd64i d a i) s = .next t ∧ WritesPair s t d fun _ x => x.pair a.toNat + BitVec.signExtend 64 i) ∧
     (∀ i, Issues .integer [one d] [] s →
       ∃ t, exec (.movi d i) s = .next t ∧ WritesWord s t d fun _ _ => BitVec.signExtend 32 i) ∧
     (∀ i, Issues .integer [one d] [] s →
       ∃ t, exec (.movhi d i) s = .next t ∧
         WritesWord s t d fun _ x => BitVec.ofNat 32 (i.toNat * 2 ^ 14 + (x.reg d.toNat).toNat % 2 ^ 14)) ∧
     (∀ n : KReg, Issues .integer [one d] [(n.toNat, 1)] s →
       ∃ t, exec (.movk d n) s = .next t ∧ WritesWord s t d fun _ _ => s.wft.kreg n.toNat)) ∧
  (∀ (s : State) (d a : VReg) (i : BitVec 2),
     (Issues .integer [two d, two a] [] s →
       ∃ t, exec (.mov64 d a) s = .next t ∧ WritesPair s t d fun _ x => x.pair a.toNat) ∧
     (Issues .integer [one a] [] s →
       ∃ t, exec (.setx i a) s = .next t ∧
         LanesDo s t fun _ x => (x.setX i (x.reg a.toNat)).past s) ∧
     (Issues .integer [one d] [] s →
       ∃ t, exec (.getx d i) s = .next t ∧ WritesWord s t d fun _ x => x.xreg i) ∧
     (∀ (x : Thread) (v : Word) (j : BitVec 2),
       (x.setX i v).xreg j = if j = i then v &&& 0x007F7F7F else x.xreg j) ∧
     (let reached := fun x : Thread => xBase (x.xreg i) + xIndex (x.xreg i)
       let regs := (s.roleOf s.iss.blk s.iss.weft).regs
       let cond : Nat → Option Cond := fun l =>
         let v := (s.lane l).xreg i
         if xBound v ≤ xIndex v then some { cause := .xrange, addr := s.iss.pc.toNat, info := v.toNat }
         else if regs ≤ reached (s.lane l) then some { cause := .regrange, addr := s.iss.pc.toNat, info := reached (s.lane l) }
         else none
       ∀ e ∈ ([
           (.movx d i, d, fun x => (x.setReg d.toNat (x.reg (reached x))).past s),
           (.movxw i a, a, fun x => (x.setReg (reached x) (x.reg a.toNat)).past s)] : List (Instr × VReg × (Thread → Thread))),
         Issues .integer [one e.2.1] [] s → indexedBusy s i = false →
         ((∀ l ∈ s.iss.lanes, cond l = none) → ∃ t, exec e.1 s = .next t ∧ LanesDo s t fun _ x => e.2.2 x) ∧
         ((∀ l ∈ s.iss.lanes, (s.lane l).tst = .run) →
           ∃ t, exec e.1 s = .next t ∧ ∀ l ∈ s.iss.lanes,
             (∀ c, cond l = some c → Trapped s t l c) ∧
             (cond l = none → t.thread s.iss.blk s.iss.weft l = e.2.2 ((noteIssue s).thread s.iss.blk s.iss.weft l))))) ∧
  (∀ (s : State) (d : BitVec 6) (r : BitVec 5),
     let vd : VReg := d.setWidth 7
     let vs : VReg := r.setWidth 7
     (.shortMov d r : Instr).len = 2 ∧ (.shortIaddi d r : Instr).len = 2 ∧
     (Issues .integer [one vd, one vs, one 0] [] s →
       ∃ t, exec (.shortMov d r) s = .next t ∧ WritesWord s t vd fun _ x => x.reg vs.toNat) ∧
     (Issues .integer [one vd, one vd] [] s →
       ∃ t, exec (.shortIaddi d r) s = .next t ∧ WritesWord s t vd fun _ x => x.reg vd.toNat + r.setWidth 32) ∧
     (∀ e ∈ ([
         (.shortIadd, fun x y => x + y), (.shortIsub, fun x y => x - y), (.shortImul, fun x y => x * y),
         (.shortAnd, fun x y => x &&& y), (.shortOr, fun x y => x ||| y), (.shortXor, fun x y => x ^^^ y),
         (.shortShl, fun x y => if y.toNat < 32 then BitVec.ofNat 32 (x.toNat * 2 ^ y.toNat) else 0),
         (.shortShrl, fun x y => if y.toNat < 32 then BitVec.ofNat 32 (x.toNat / 2 ^ y.toNat) else 0),
         (.shortShra, fun x y => if y.toNat < 32 then BitVec.ofInt 32 (x.toInt / 2 ^ y.toNat)
           else if x.msb then 0xFFFFFFFF else 0)] :
         List ((BitVec 6 → BitVec 5 → Instr) × (Word → Word → Word))),
       (e.1 d r).len = 2 ∧
       (Issues .integer [one vd, one vd, one vs] [] s →
         ∃ t, exec (e.1 d r) s = .next t ∧
           WritesWord s t vd fun _ x => e.2 (x.reg vd.toNat) (x.reg vs.toNat))) ∧
     (∀ e ∈ ([(.shortFadd, .fadd), (.shortFsub, .fsub), (.shortFmul, .fmul), (.shortFmax, .fmax), (.shortFmin, .fmin)] :
         List ((BitVec 6 → BitVec 5 → Instr) × (VReg → VReg → Src → Instr))),
       (e.1 d r).len = 2 ∧
       (Issues .fp32 [one vd, one vd, one vs] [] s →
         ∃ t, exec (e.1 d r) s = .next t ∧ exec (e.2 vd vd (.v vs)) s = .next t ∧
           ∀ l ∈ s.iss.lanes, (t.thread s.iss.blk s.iss.weft l).pc = nextPc s)))

/-! ## Floating point -/

/-- R73, R75, R106, R112: FP32 arithmetic rounds the exact result of its inputs, flushed where FTZ asks, once in
FCSR.RM, flushes the output, writes vd and sets the flags of R76. R73, R75, R106, R112: the same of FP64 arithmetic
over pairs. -/
def Obligations.FloatArithmeticResults : Prop :=
  (∀ (s : State) (d a : VReg) (b : Src),
     (∀ e ∈ ([
         (.fadd, fAdd fp32), (.fsub, fun rm x y => fAdd fp32 rm x y.negate), (.fmul, fMul fp32), (.fdiv, fDiv fp32)] :
         List ((VReg → VReg → Src → Instr) × (Nat → FVal → FVal → FRes))),
       Issues .fp32 ([one d, one a] ++ srcRegs b) (srcKs 1 b) s →
         ∃ t, exec (e.1 d a b) s = .next t ∧
           WritesFloat s t d fun _ x =>
             out32 x (e.2 (fcsrRM x.fcsr) (in32 x (x.reg a.toNat)) (in32 x (srcWord s.wft x b)))) ∧
     (Issues .fp32 ([one d, one a] ++ srcRegs b) (srcKs 1 b) s →
       ∃ t, exec (.ffma d a b) s = .next t ∧
         WritesFloat s t d fun _ x =>
           out32 x (fFma fp32 (fcsrRM x.fcsr) (in32 x (x.reg a.toNat)) (in32 x (srcWord s.wft x b))
             (in32 x (x.reg d.toNat)))) ∧
     (∀ e ∈ ([
         (.frcp, fun rm x => fDiv fp32 rm (.fin false 1 0) x), (.frsq, fRsqrt fp32), (.fsqrt, fSqrt fp32), (.fex2, fEx2),
         (.flg2, fLg2)] : List ((VReg → VReg → Instr) × (Nat → FVal → FRes))),
       Issues .fp32 [one d, one a] [] s →
         ∃ t, exec (e.1 d a) s = .next t ∧
           WritesFloat s t d fun _ x => out32 x (e.2 (fcsrRM x.fcsr) (in32 x (x.reg a.toNat))))) ∧
  (∀ (s : State) (d a : VReg) (b : Src),
     (∀ e ∈ ([
         (.dadd, fAdd fp64), (.dsub, fun rm x y => fAdd fp64 rm x y.negate), (.dmul, fMul fp64), (.ddiv, fDiv fp64)] :
         List ((VReg → VReg → Src → Instr) × (Nat → FVal → FVal → FRes))),
       Issues .fp64 ([two d, two a] ++ srcRegs2 b) (srcKs 2 b) s →
         ∃ t, exec (e.1 d a b) s = .next t ∧
           WritesFloat64 s t d fun _ x =>
             out64 x (e.2 (fcsrRM x.fcsr) (in64 x (x.pair a.toNat)) (in64 x (srcPair s.wft x b)))) ∧
     (Issues .fp64 ([two d, two a] ++ srcRegs2 b) (srcKs 2 b) s →
       ∃ t, exec (.dfma d a b) s = .next t ∧
         WritesFloat64 s t d fun _ x =>
           out64 x (fFma fp64 (fcsrRM x.fcsr) (in64 x (x.pair a.toNat)) (in64 x (srcPair s.wft x b))
             (in64 x (x.pair d.toNat)))) ∧
     (Issues .fp64 [two d, two a] [] s →
       ∃ t, exec (.dsqrt d a) s = .next t ∧
         WritesFloat64 s t d fun _ x => out64 x (fSqrt fp64 (fcsrRM x.fcsr) (in64 x (x.pair a.toNat)))))

/-- R73, R107, R108: minimum, maximum and compares take flushed inputs and round nothing. R109 to R111: the bit
operations on FP32 words, which set no flag and ignore FTZ; FRINT, which flushes its input. -/
def Obligations.FloatCompareAndBitResults : Prop :=
  (∀ (s : State) (d a : VReg) (b : Src),
     (∀ e ∈ ([(.fmin, false), (.fmax, true)] : List ((VReg → VReg → Src → Instr) × Bool)),
       Issues .fp32 ([one d, one a] ++ srcRegs b) (srcKs 1 b) s →
         ∃ t, exec (e.1 d a b) s = .next t ∧
           WritesFloat s t d fun _ x =>
             fMinMax fp32 e.2 (flushIn fp32 (fcsrFTZ x.fcsr) (x.reg a.toNat).toNat)
               (flushIn fp32 (fcsrFTZ x.fcsr) (srcWord s.wft x b).toNat)) ∧
     (∀ e ∈ ([(.dmin, false), (.dmax, true)] : List ((VReg → VReg → Src → Instr) × Bool)),
       Issues .fp64 ([two d, two a] ++ srcRegs2 b) (srcKs 2 b) s →
         ∃ t, exec (e.1 d a b) s = .next t ∧
           WritesFloat64 s t d fun _ x =>
             fMinMax fp64 e.2 (flushIn fp64 (fcsrFTZ x.fcsr) (x.pair a.toNat).toNat)
               (flushIn fp64 (fcsrFTZ x.fcsr) (srcPair s.wft x b).toNat)) ∧
     (∀ e ∈ ([(.fseq, .eq), (.fsne, .ne), (.fslt, .lt), (.fsle, .le), (.fsuno, .uno)] :
         List ((VReg → VReg → Src → Instr) × FRel)),
       Issues .fp32 ([one d, one a] ++ srcRegs b) (srcKs 1 b) s →
         ∃ t, exec (e.1 d a b) s = .next t ∧
           WritesFloat s t d fun _ x => fRel e.2 (in32 x (x.reg a.toNat)) (in32 x (srcWord s.wft x b))) ∧
     (∀ e ∈ ([(.dseq, .eq), (.dslt, .lt), (.dsle, .le), (.dsuno, .uno)] :
         List ((VReg → VReg → Src → Instr) × FRel)),
       Issues .fp64 ([one d, two a] ++ srcRegs2 b) (srcKs 2 b) s →
         ∃ t, exec (e.1 d a b) s = .next t ∧
           WritesFloat s t d fun _ x => fRel e.2 (in64 x (x.pair a.toNat)) (in64 x (srcPair s.wft x b))) ∧
     (∀ x y : FVal, x.isNaN || y.isNaN →
       (fRel .eq x y).bits = 0 ∧ (fRel .ne x y).bits = 0xFFFFFFFF ∧ fRel .lt x y = ⟨0, fNV⟩ ∧ fRel .le x y = ⟨0, fNV⟩ ∧
         (fRel .uno x y).bits = 0xFFFFFFFF)) ∧
  (∀ (s : State) (d a : VReg) (b : Src),
     (∀ e ∈ ([
         (.fabs, fun x => if (unpack fp32 x.toNat).isNaN then 0x7FC00000 else BitVec.ofNat 32 (x.toNat % 2 ^ 31)),
         (.fneg, fun x => if (unpack fp32 x.toNat).isNaN then 0x7FC00000 else BitVec.ofNat 32 (x.toNat + 2 ^ 31)),
         (.fclass, fun x => BitVec.ofNat 32 (fClass x.toNat))] : List ((VReg → VReg → Instr) × (Word → Word))),
       Issues .fp32 [one d, one a] [] s →
         ∃ t, exec (e.1 d a) s = .next t ∧ WritesWord s t d fun _ x => e.2 (x.reg a.toNat)) ∧
     (Issues .fp32 ([one d, one a] ++ srcRegs b) (srcKs 1 b) s →
       ∃ t, exec (.fcopysign d a b) s = .next t ∧
         WritesWord s t d fun _ x =>
           if (unpack fp32 (x.reg a.toNat).toNat).isNaN then 0x7FC00000
           else BitVec.ofNat 32 ((x.reg a.toNat).toNat % 2 ^ 31 + (srcWord s.wft x b).toNat / 2 ^ 31 * 2 ^ 31)) ∧
     (Issues .fp32 [one d, one a] [] s →
       ∃ t, exec (.frint d a) s = .next t ∧
         WritesFloat s t d fun _ x => fRint (fcsrRM x.fcsr) (in32 x (x.reg a.toNat))))

/-- R71, R113: the packed instructions act on the two 16-bit elements of their words apart, in RNE with subnormals
kept, and set the flags of both. -/
def Obligations.PackedArithmeticResults : Prop :=
  ∀ (s : State) (d a : VReg) (b : Src),
    ∀ e ∈ ([
        (.hadd2, fp16, fun x y _ => fAdd fp16 0 x y), (.hmul2, fp16, fun x y _ => fMul fp16 0 x y),
        (.hfma2, fp16, fun x y z => fFma fp16 0 x y z), (.badd2, bf16, fun x y _ => fAdd bf16 0 x y),
        (.bmul2, bf16, fun x y _ => fMul bf16 0 x y), (.bfma2, bf16, fun x y z => fFma bf16 0 x y z)] :
        List ((VReg → VReg → Src → Instr) × Fmt × (FVal → FVal → FVal → FRes))),
      Issues .fp64 ([one d, one a] ++ srcRegs b) (srcKs 1 b) s →
        ∃ t, exec (e.1 d a b) s = .next t ∧
          WritesFloat s t d fun _ x =>
            let r := fun i => e.2.2 (half e.2.1 (x.reg a.toNat) i) (half e.2.1 (srcWord s.wft x b) i)
              (half e.2.1 (x.reg d.toNat) i)
            ⟨(r 0).bits + (r 1).bits * 2 ^ 16, (r 0).flags ||| (r 1).flags⟩

/-- R78, R79, R118: the conversions among integers and FP32 and FP64. R79, R118: the conversions to and from the
16-bit and 8-bit formats, by half, byte, pair and four. -/
def Obligations.ConversionResults : Prop :=
  (∀ (s : State) (d a : VReg),
     (∀ e ∈ ([
         (.cvtF32I32, fun x v => intToF fp32 (fcsrRM x.fcsr) v.toInt),
         (.cvtF32N32, fun x v => intToF fp32 (fcsrRM x.fcsr) v.toNat),
         (.cvtI32F32, fun x v => intWord (fToInt (fcsrRM x.fcsr) (-2 ^ 31) (2 ^ 31 - 1) (in32 x v))),
         (.cvtN32F32, fun x v => intWord (fToInt (fcsrRM x.fcsr) 0 (2 ^ 32 - 1) (in32 x v)))] :
         List ((VReg → VReg → Instr) × (Thread → Word → FRes))),
       Issues .fp32 [one d, one a] [] s →
         ∃ t, exec (e.1 d a) s = .next t ∧ WritesFloat s t d fun _ x => e.2 x (x.reg a.toNat)) ∧
     (∀ e ∈ ([
         (.cvtF64F32, fun x v => fConv fp64 (fcsrRM x.fcsr) (in32 x v)),
         (.cvtF64I32, fun x v => intToF fp64 (fcsrRM x.fcsr) v.toInt)] :
         List ((VReg → VReg → Instr) × (Thread → Word → FRes))),
       Issues .fp64 [two d, one a] [] s →
         ∃ t, exec (e.1 d a) s = .next t ∧ WritesFloat64 s t d fun _ x => e.2 x (x.reg a.toNat)) ∧
     (∀ e ∈ ([
         (.cvtF32F64, fun x v => out32 x (fConv fp32 (fcsrRM x.fcsr) (in64 x v))),
         (.cvtI32F64, fun x v => intWord (fToInt (fcsrRM x.fcsr) (-2 ^ 31) (2 ^ 31 - 1) (in64 x v)))] :
         List ((VReg → VReg → Instr) × (Thread → DWord → FRes))),
       Issues .fp64 [one d, two a] [] s →
         ∃ t, exec (e.1 d a) s = .next t ∧ WritesFloat s t d fun _ x => e.2 x (x.pair a.toNat)) ∧
     (∀ e ∈ ([
         (.cvtF64I64, fun x v => intToF fp64 (fcsrRM x.fcsr) v.toInt),
         (.cvtI64F64, fun x v =>
           let r := fToInt (fcsrRM x.fcsr) (-2 ^ 63) (2 ^ 63 - 1) (in64 x v)
           ⟨(BitVec.ofInt 64 r.1).toNat, r.2⟩)] :
         List ((VReg → VReg → Instr) × (Thread → DWord → FRes))),
       Issues .fp64 [two d, two a] [] s →
         ∃ t, exec (e.1 d a) s = .next t ∧ WritesFloat64 s t d fun _ x => e.2 x (x.pair a.toNat))) ∧
  (∀ (s : State) (d a : VReg) (b : Src),
     (∀ e ∈ ([(.cvtF16x2F32, fp16), (.cvtBf16x2F32, bf16)] : List ((VReg → VReg → Src → Instr) × Fmt)),
       Issues .fp64 ([one d, one a] ++ srcRegs b) (srcKs 1 b) s →
         ∃ t, exec (e.1 d a b) s = .next t ∧
           WritesFloat s t d fun _ x =>
             let lo := fConv e.2 0 (unpack fp32 (x.reg a.toNat).toNat)
             let hi := fConv e.2 0 (unpack fp32 (srcWord s.wft x b).toNat)
             ⟨lo.bits + hi.bits * 2 ^ 16, lo.flags ||| hi.flags⟩) ∧
     (∀ e ∈ ([(.cvtF32F16, fp16), (.cvtF32Bf16, bf16)] : List ((VReg → VReg → BitVec 1 → Instr) × Fmt)), ∀ h,
       Issues .fp64 [one d, one a] [] s →
         ∃ t, exec (e.1 d a h) s = .next t ∧
           WritesFloat s t d fun _ x =>
             fConv fp32 0 (unpack e.2 ((x.reg a.toNat).toNat / 2 ^ (16 * h.toNat) % 2 ^ 16))) ∧
     (∀ e ∈ ([(.cvtF32E4m3, e4m3), (.cvtF32E5m2, e5m2)] : List ((VReg → VReg → BitVec 2 → Instr) × Fmt)), ∀ h,
       Issues .fp64 [one d, one a] [] s →
         ∃ t, exec (e.1 d a h) s = .next t ∧
           WritesFloat s t d fun _ x =>
             fConv fp32 0 (unpack e.2 ((x.reg a.toNat).toNat / 2 ^ (8 * h.toNat) % 2 ^ 8))) ∧
     (∀ e ∈ ([(.cvtE4m3x4F32, fun _ v => toE4M3 v), (.cvtE5m2x4F32, fun x v => toE5M2 (fcsrE5INF x.fcsr) v)] :
         List ((VReg → VReg → Src → Instr) × (Thread → FVal → FRes))),
       Issues .fp64 ([one d, two a] ++ srcRegs2 b) (srcKs 2 b) s →
         ∃ t, exec (e.1 d a b) s = .next t ∧
           WritesFloat s t d fun _ x => pack4 (e.2 x) (x.pair a.toNat) (srcPair s.wft x b)))

/-! ## Lanes together -/

/-- R174, R175: a shuffle gives each lane the va of the lane it names, where that is a lane of the issue set below
the weft width, and else its own; every source is read before any lane writes. R176, R177: votes, reductions and
the scan over the issue set; REDFADD gives every lane the sum of one fixed tree. -/
def Obligations.CrossLaneResults : Prop :=
  (∀ (s : State) (d a : VReg) (b : Src),
     ∀ e ∈ ([
         (.shfl, fun _ n => (n : Int)), (.shflup, fun i n => (i : Int) - n), (.shfldn, fun i n => (i : Int) + n),
         (.shflx, fun i n => ((i ^^^ n : Nat) : Int))] :
         List ((VReg → VReg → Src → Instr) × (Nat → Nat → Int))),
       Issues .integer ([one d, one a] ++ srcRegs b) (srcKs 1 b) s →
         ∃ t, exec (e.1 d a b) s = .next t ∧
           WritesWord s t d fun l x =>
             let j := e.2 l (srcWord s.wft x b).toNat
             if 0 ≤ j ∧ j < s.width s.iss.blk ∧ j.toNat ∈ s.iss.lanes then (s.lane j.toNat).reg a.toNat
             else x.reg a.toNat) ∧
  (∀ (s : State) (d a : VReg),
     let v := fun l => (s.lane l).reg a.toNat
     (Issues .integer [one d, one a] [] s →
       (∃ (t : State) (m : Word), exec (.ballot d a) s = .next t ∧ (WritesWord s t d fun _ _ => m) ∧
         ∀ l < 32, m.getLsbD l = decide (l ∈ s.iss.lanes ∧ v l ≠ 0)) ∧
       (∃ t, exec (.vany d a) s = .next t ∧
         WritesWord s t d fun _ _ => if ∃ l ∈ s.iss.lanes, v l ≠ 0 then 0xFFFFFFFF else 0) ∧
       (∃ t, exec (.vall d a) s = .next t ∧
         WritesWord s t d fun _ _ => if ∀ l ∈ s.iss.lanes, v l ≠ 0 then 0xFFFFFFFF else 0) ∧
       (∃ t, exec (.redadd d a) s = .next t ∧ WritesWord s t d fun _ _ => (s.iss.lanes.map v).sum) ∧
       (∃ (t : State) (m : Word), exec (.redmax d a) s = .next t ∧ (WritesWord s t d fun _ _ => m) ∧
         m ∈ s.iss.lanes.map v ∧ ∀ l ∈ s.iss.lanes, (v l).toInt ≤ m.toInt) ∧
       (∃ (t : State) (m : Word), exec (.redmin d a) s = .next t ∧ (WritesWord s t d fun _ _ => m) ∧
         m ∈ s.iss.lanes.map v ∧ ∀ l ∈ s.iss.lanes, m.toInt ≤ (v l).toInt) ∧
       (∃ t, exec (.scanadd d a) s = .next t ∧
         WritesWord s t d fun i _ => ((s.iss.lanes.filter (· ≤ i)).map v).sum)) ∧
     (Issues .fp32 [one d, one a] [] s →
       ∃ t, exec (.redfadd d a) s = .next t ∧ WritesFloat s t d fun _ _ => redfadd s a))

/-! ## Uniform registers -/

/-- R148, R167 to R169: a uniform instruction executes once for its issue set, writes k(kd), and moves every lane
on; KLDCB reads the constant bank, and traps MISALIGN in every lane where its offset is no multiple of 4. -/
def Obligations.UniformResults : Prop :=
  ∀ (s : State) (d a b : KReg),
    let w := (noteIssue s).wft
    (∀ e ∈ ([
        (.kadd, fun x y => x + y), (.ksub, fun x y => x - y), (.kmul, fun x y => x * y), (.kand, fun x y => x &&& y),
        (.kor, fun x y => x ||| y), (.kxor, fun x y => x ^^^ y),
        (.kshl, fun x y => if y.toNat < 32 then BitVec.ofNat 32 (x.toNat * 2 ^ y.toNat) else 0),
        (.kshr, fun x y => if y.toNat < 32 then BitVec.ofNat 32 (x.toNat / 2 ^ y.toNat) else 0),
        (.ksra, fun x y => if y.toNat < 32 then BitVec.ofInt 32 (x.toInt / 2 ^ y.toNat)
          else if x.msb then 0xFFFFFFFF else 0),
        (.kseq, fun x y => if x = y then 0xFFFFFFFF else 0),
        (.kslt, fun x y => if x.toInt < y.toInt then 0xFFFFFFFF else 0),
        (.ksltn, fun x y => if x.toNat < y.toNat then 0xFFFFFFFF else 0),
        (.kmin, fun x y => BitVec.ofInt 32 (min x.toInt y.toInt)),
        (.kmax, fun x y => BitVec.ofInt 32 (max x.toInt y.toInt)),
        (.kmulhi, fun x y => BitVec.ofInt 32 (x.toInt * y.toInt / 2 ^ 32))] :
        List ((KReg → KReg → KReg → Instr) × (Word → Word → Word))),
      Issues .integer [] [(d.toNat, 1), (a.toNat, 1), (b.toNat, 1)] s →
        ∃ t, exec (e.1 d a b) s = .next t ∧
          WeftDoes s t (w.setK d.toNat (e.2 (s.wft.kreg a.toNat) (s.wft.kreg b.toNat)))) ∧
    (Issues .integer [] [(d.toNat, 1), (a.toNat, 1), (b.toNat, 1)] s →
      ∃ t, exec (.ksel d a b) s = .next t ∧
        WeftDoes s t (w.setK d.toNat
          (if s.wft.kreg d.toNat ≠ 0 then s.wft.kreg a.toNat else s.wft.kreg b.toNat))) ∧
    (Issues .integer [] [(d.toNat, 2), (a.toNat, 2), (b.toNat, 2)] s →
      ∃ t, exec (.kadd64 d a b) s = .next t ∧
        WeftDoes s t (w.setKPair d.toNat (s.wft.kpair a.toNat + s.wft.kpair b.toNat))) ∧
    (∀ i, Issues .integer [] [(d.toNat, 1), (a.toNat, 1)] s →
      ∃ t, exec (.kaddi d a i) s = .next t ∧
        WeftDoes s t (w.setK d.toNat (s.wft.kreg a.toNat + BitVec.signExtend 32 i))) ∧
    (∀ i, Issues .integer [] [(d.toNat, 1)] s →
      (∃ t, exec (.kli d i) s = .next t ∧ WeftDoes s t (w.setK d.toNat (BitVec.signExtend 32 i))) ∧
      (∃ t, exec (.klih d i) s = .next t ∧
        WeftDoes s t (w.setK d.toNat (BitVec.ofNat 32 (i.toNat * 2 ^ 15 + (s.wft.kreg d.toNat).toNat % 2 ^ 15))))) ∧
    (∀ (v : VReg) (l : Nat), s.iss.lanes.head? = some l → Issues .integer [] [(d.toNat, 1)] s →
      Allowed (fun k => k.permits .integer) [one v] s → laneBusy s s.iss.blk s.iss.weft l [one v] = false →
      ∃ t, exec (.kmovv d v) s = .next t ∧ WeftDoes s t (w.setK d.toNat ((s.lane l).reg v.toNat))) ∧
    (∀ i, Issues .integer [] [(d.toNat, 1), (a.toNat, 1)] s →
      let o := ((s.wft.kreg a.toNat).toNat + 4 * i.toNat) % 65536
      (o % 4 = 0 → ∃ t, exec (.kldcb d a i) s = .next t ∧
        WeftDoes s t (w.setK d.toNat (BitVec.ofNat 32 ((s.launch s.iss.blk).bank.read o 4)))) ∧
      (o % 4 ≠ 0 → exec (.kldcb d a i) s =
        .next (trapAll (noteIssue s) { cause := .misalign, addr := o, info := 4 })))

/-! ## Control flow -/

/-- R21, R119 to R121, R171: each lane that a branch transfers goes to its own target, if it is legal; every other
lane of the issue set goes on; a relative target is the address of the word plus twice the sign-extended offset.
R21, R31, R121: a target that is not canonical raises TRANSLATE with reason 4, and an odd canonical one MISALIGN,
each with the target as the address; a BRA to such a target moves no lane and takes that trap in every lane. -/
def Obligations.BranchResults : Prop :=
  (∀ s : State,
     (∀ (i : Instr) (rs ks : List Regs) (taken : Nat → Thread → Bool) (target : Thread → DWord),
       (∃ off, i = .bra off ∧ rs = [] ∧ ks = [] ∧ taken = (fun _ _ => true) ∧
           target = fun _ => s.iss.pc + 2 * BitVec.signExtend 64 off) ∨
         (∃ a off, i = .bnz a off ∧ rs = [one a] ∧ ks = [] ∧ taken = (fun _ x => decide (x.reg a.toNat ≠ 0)) ∧
           target = fun _ => s.iss.pc + 2 * BitVec.signExtend 64 off) ∨
         (∃ a off, i = .bz a off ∧ rs = [one a] ∧ ks = [] ∧ taken = (fun _ x => decide (x.reg a.toNat = 0)) ∧
           target = fun _ => s.iss.pc + 2 * BitVec.signExtend 64 off) ∨
         (∃ a, i = .jmpr a ∧ rs = [two a] ∧ ks = [] ∧ taken = (fun _ _ => true) ∧ target = fun x => x.pair a.toNat) ∨
         (∃ a off, i = .kbnz a off ∧ rs = [] ∧ ks = [(a.toNat, 1)] ∧
           taken = (fun _ _ => decide (s.wft.kreg a.toNat ≠ 0)) ∧
           target = fun _ => s.iss.pc + 2 * BitVec.signExtend 64 off) ∨
         (∃ a off, i = .kbz a off ∧ rs = [] ∧ ks = [(a.toNat, 1)] ∧
           taken = (fun _ _ => decide (s.wft.kreg a.toNat = 0)) ∧
           target = fun _ => s.iss.pc + 2 * BitVec.signExtend 64 off) →
       Issues .sync rs ks s →
       (∀ l ∈ s.iss.lanes, taken l (s.lane l) = true → LegalTarget (target (s.lane l))) →
       ∃ t, exec i s = .next t ∧
         LanesDo s t fun l x => { x with pc := if taken l x then target x else nextPc s })) ∧
  (∀ (a : DWord) (s : State) (off : BitVec 24),
     (canonical a = true ↔ ∀ i, 57 ≤ i → i < 64 → a.getLsbD i = a.getLsbD 56) ∧
     (canonical a = false → targetCond a = some { cause := .translate, reason := 4, addr := a.toNat, info := 7 }) ∧
     (canonical a = true → a.getLsbD 0 = true →
       targetCond a = some { cause := .misalign, addr := a.toNat, info := 7 }) ∧
     (LegalTarget a → targetCond a = none) ∧
     (∀ c, Issues .sync [] [] s → targetCond (s.iss.pc + 2 * BitVec.signExtend 64 off) = some c →
       exec (.bra off) s = .next (trapAll (noteIssue s) c)))

/-- R24, R25, R119, R121: with room on chip a call pushes the address after its word and goes to its target; a
return with an entry on chip pops it and goes there. -/
def Obligations.CallsAndReturnsOnChip : Prop :=
  ∀ s : State,
    (∀ (i : Instr) (rs : List Regs) (target : Thread → DWord),
      (∃ off, i = .call off ∧ rs = [] ∧ target = fun _ => s.iss.pc + 2 * BitVec.signExtend 64 off) ∨
        (∃ a, i = .callr a ∧ rs = [two a] ∧ target = fun x => x.pair a.toNat) →
      Issues .sync rs [] s →
      (∀ l ∈ s.iss.lanes, (s.lane l).rs.length < 4 ∧ LegalTarget (target (s.lane l))) →
      ∃ t, exec i s = .next t ∧
        LanesDo s t fun _ x => { x with rs := x.rs ++ [s.iss.pc + 4], pc := target x }) ∧
    (Issues .sync [] [] s →
      (∀ l ∈ s.iss.lanes, ∃ a, (s.lane l).rs.getLast? = some a ∧ LegalTarget a) →
      ∃ t, exec .ret s = .next t ∧
        LanesDo s t fun _ x => { x with rs := x.rs.dropLast, pc := x.rs.getLastD 0 })

/-- R24 to R27: where some lanes of a call hold four entries, each of those moves its oldest to a 64-bit store at
SPTR - 8, one operation for all of them, and awaits it at the target; the others push and go on. Where some lanes
of a return hold none, each of those leaves a 64-bit load at SPTR, and every lane awaits that operation at the
word. That the lanes of a RET whose target is on chip await it too, and that a lane stands at the target while its
spill is under way, are the model's choices (log 152, log 38). -/
def Obligations.CallsAndReturnsThroughTheSpillArea : Prop :=
  ∀ s : State,
    (∀ (i : Instr) (rs : List Regs) (target : Thread → DWord),
      (∃ off, i = .call off ∧ rs = [] ∧ target = fun _ => s.iss.pc + 2 * BitVec.signExtend 64 off) ∨
        (∃ a, i = .callr a ∧ rs = [two a] ∧ target = fun x => x.pair a.toNat) →
      let sp := s.iss.lanes.filter fun l => decide (4 ≤ (s.lane l).rs.length)
      let on := s.iss.lanes.filter fun l => decide ((s.lane l).rs.length < 4)
      Issues .sync rs [] s → s.wft.room .st 1 = true → sp ≠ [] →
      missStall s (sp.map fun l => ((s.lane l).sptr - 8).toNat) = false →
      (∀ l ∈ s.iss.lanes, LegalTarget (target (s.lane l)) ∧
        (l ∈ sp → canonical ((s.lane l).sptr - 8) = true ∧ ((s.lane l).sptr - 8).toNat % 8 = 0)) →
      ∃ t u : State, exec i s = .next t ∧
        LanesDo s u (fun _ x =>
          if x.rs.length < 4 then { x with rs := x.rs ++ [s.iss.pc + 4], pc := target x }
          else { x with sptr := x.sptr - 8, rs := x.rs.drop 1 ++ [s.iss.pc + 4], pc := target x, hold := some s.nextOp }) ∧
        t = addCounted u .st (issuedOp s { space := .global, fn := .spill, size := 8 }
          (on.map (onChip · 0) ++ sp.map fun l =>
            { lane := l, addr := ((s.lane l).sptr - 8).toNat, data := ((s.lane l).rs.headD 0).toNat,
              deliver := s.iss.deliver.testBit l }) (laneMask (on ++ sp)))) ∧
    (let rf := s.iss.lanes.filter fun l => decide ((s.lane l).rs = [])
      let on := s.iss.lanes.filter fun l => decide ((s.lane l).rs ≠ [])
      Issues .sync [] [] s → s.wft.room .ld 1 = true → rf ≠ [] →
      missStall s (rf.map fun l => (s.lane l).sptr.toNat) = false →
      (∀ l ∈ rf, canonical (s.lane l).sptr = true ∧ (s.lane l).sptr.toNat % 8 = 0) →
      (∀ l ∈ on, LegalTarget ((s.lane l).rs.getLastD 0)) →
      ∃ t u : State, exec .ret s = .next t ∧ LanesDo s u (fun _ x => { x with hold := some s.nextOp }) ∧
        t = addCounted u .ld (issuedOp s { space := .global, fn := .refill, size := 8 }
          ((on.map fun l => onChip l ((s.lane l).rs.getLastD 0).toNat) ++ rf.map fun l =>
            { lane := l, addr := (s.lane l).sptr.toNat, deliver := s.iss.deliver.testBit l }) (laneMask (on ++ rf))))

/-- R18 to R20, R123, R379: CSRR writes a CSR's value into vd and CSRW writes its writable fields, in each lane its
own copy. FCSR keeps nine bits, FFLAGS is a view of its bits 7 to 3, and SPTR and TPC are written by halves. An
access to FCSR or FFLAGS waits for the flags of a WRED of its lanes. R18, R379: in user mode numbers 0x100 to 0x1FF
raise PRIVILEGE; in either mode a number that no table holds, and a write of a read-only CSR, raises ILLEGAL; and
either condition traps every lane at once. -/
def Obligations.ControlRegisterAccess : Prop :=
  (∀ (s : State) (d a : VReg) (n : BitVec 12),
     (Issues .sync [one d] [] s → csrCond s false n.toNat = none → flagsOwed s n.toNat = false →
       ∃ t, exec (.csrr d n) s = .next t ∧ WritesWord s t d fun _ x => csrRead x n.toNat) ∧
     (Issues .sync [one a] [] s → csrCond s true n.toNat = none → flagsOwed s n.toNat = false →
       ∃ t, exec (.csrw n a) s = .next t ∧
         LanesDo s t fun _ x => (csrWrite x n.toNat (x.reg a.toNat)).past s) ∧
     (Issues .sync [one d] [] s → Issues .sync [one a] [] s → ∀ m : BitVec 12, m.toNat < 2 →
       ∀ e ∈ s.ops, e.2.ofWeft s.iss.blk s.iss.weft = true → (∃ g r q, e.2.kind = .wred g r q) →
       (∃ l ∈ s.iss.lanes, e.2.issue.testBit l = true) →
       exec (.csrr d m) s = .next { s with stalled := true } ∧ exec (.csrw m a) s = .next { s with stalled := true }) ∧
     (∀ (x : Thread) (v : Word),
       csrRead (csrWrite x 0 v) 0 = v &&& 0x1FF ∧
       csrRead (csrWrite x 1 v) 0 = (x.fcsr &&& ~~~0xF8#32) ||| ((v &&& 0x1F) <<< 3) ∧
       csrRead x 1 = (x.fcsr >>> 3) &&& 0x1F ∧
       csrRead (csrWrite x 2 v) 2 = v ∧ csrRead (csrWrite x 2 v) 3 = csrRead x 3 ∧
       csrRead (csrWrite x 3 v) 3 = v ∧ csrRead (csrWrite x 3 v) 2 = csrRead x 2 ∧
       csrRead x 4 = BitVec.ofNat 32 x.rs.length ∧
       csrRead (csrWrite x 0x101 v) 0x101 = v ∧ csrRead (csrWrite x 0x102 v) 0x102 = v ∧
       (csrWrite x 0x106 v).trq = x.trq.take (v.toNat % 16) ∧
       (∀ i < 4, csrRead (csrWrite x (0x108 + i) v) (0x108 + i) = v))) ∧
  (∀ (s : State) (w : Bool) (n : Nat),
     (n < 4 → csrCond s w n = none) ∧
     (csrCond s false 4 = none ∧ csrCond s true 4 = some (illegalCond s)) ∧
     ((4 < n ∧ n < 0x100) ∨ 0x1FF < n → csrCond s w n = some (illegalCond s)) ∧
     (0x100 ≤ n → n ≤ 0x1FF → s.iss.handler = false →
       csrCond s w n = some { cause := .privilege, addr := s.iss.pc.toNat, info := n }) ∧
     (s.iss.handler = true →
       (n = 0x101 ∨ n = 0x102 ∨ n = 0x106 ∨ (0x108 ≤ n ∧ n ≤ 0x10B) → csrCond s w n = none) ∧
       (n = 0x100 ∨ n = 0x103 ∨ n = 0x104 ∨ n = 0x105 ∨ (0x140 ≤ n ∧ n ≤ 0x17F) →
         csrCond s false n = none ∧ csrCond s true n = some (illegalCond s)) ∧
       (n = 0x107 ∨ (0x10C ≤ n ∧ n ≤ 0x13F) ∨ (0x180 ≤ n ∧ n ≤ 0x1FF) → csrCond s w n = some (illegalCond s))) ∧
     (∀ (a : VReg) (k : BitVec 12) (c : Cond), s.iss.lanes ≠ [] →
       (csrCond s false k.toNat = some c → exec (.csrr a k) s = .next (trapAll (noteIssue s) c)) ∧
       (csrCond s true k.toNat = some c → exec (.csrw k a) s = .next (trapAll (noteIssue s) c))))

/-- R125, R135, R155, R156, R172: RDCYC writes the cycle counter of the block's core, the same in every lane, and
MOVSR the special register of each lane. -/
def Obligations.CycleCounterAndSpecialRegisters : Prop :=
  ∀ (s : State) (d : VReg),
    let b := s.block s.iss.blk
    let k := s.launch s.iss.blk
    (Issues .sync [two d] [] s →
      ∃ t, exec (.rdcyc d) s = .next t ∧ WritesPair s t d fun _ _ => (s.core b.core).cyc) ∧
    (∀ id : BitVec 7, Issues .sync [one d] [] s →
      ∃ (t : State) (f : Nat → Nat), exec (.movsr d id) s = .next t ∧ (WritesWord s t d fun l _ => BitVec.ofNat 32 (f l)) ∧
        ∀ l, ∀ e ∈ [(0, l), (1, (s.iss.weft * k.width + l) % k.ntid.1),
            (2, (s.iss.weft * k.width + l) / k.ntid.1 % k.ntid.2.1), (3, (s.iss.weft * k.width + l) / k.ntid.1 / k.ntid.2.1),
            (4, b.lin % k.nbid.1), (5, b.lin / k.nbid.1 % k.nbid.2.1), (6, b.lin / k.nbid.1 / k.nbid.2.1), (7, s.iss.weft),
            (8, k.width), (9, k.ntid.1), (10, k.ntid.2.1), (11, k.ntid.2.2), (12, s.coreName b.core),
            (13, s.virtualDomain (s.grid b.gid).vi (domOf b.core)),
            (14, if (s.grid b.gid).mill.isSome then b.stage else 0xFFFFFFFF), (15, b.phase), (16, s.wft.role),
            (17, k.nbid.1), (18, k.nbid.2.1), (19, k.nbid.2.2)],
          id.toNat = e.1 → f l = e.2)

/-! ## Traps -/

/-- R376 to R380: taking a trap. The lane enters TRAP at HANDLER; its frame records the cause, the PC it resumes
at, the address and the detail; it keeps its registers, FCSR, SPTR, return stack, scratch words and the fence it
waits for; its held operations, with those still to be re-injected after them, go into its reissue queue; every
other thread, and everything but the operations, stays as it is. A CALL or RET that has not ended is to run again
(R27): how the lane is put back to run it, and that a fence's hold outlives the trap, are the model's choices (log
38, log 40). -/
def Obligations.TrapEntryWritesTheFrame : Prop :=
  ∀ (s : State) (b w l : Nat) (c : Cond),
    let u := restartStack s b w l
    let x := u.thread b w l
    let t := enterTrap s b w l c
    let y := t.thread b w l
    (stackHold s b w l = none → u = s) ∧
    (∀ id o a, stackHold s b w l = some (id, o, a) →
      x = if o.acc.fn = .spill then
          { (s.thread b w l) with
            pc := o.pc, sptr := (s.thread b w l).sptr + 8, hold := none
            rs := BitVec.ofNat 64 a.data :: (s.thread b w l).rs.dropLast }
        else { (s.thread b w l) with hold := none }) ∧
    y.tst = .trap ∧ y.pc = (s.launch b).handler ∧ y.tpc = x.pc + BitVec.ofNat 64 c.skip ∧
    y.tcause = BitVec.ofNat 32 (c.cause.code + c.reason * 2 ^ 8 + if c.sys then 2 ^ 16 else 0) ∧
    y.taddr = BitVec.ofNat 64 c.addr ∧ y.tinfo = BitVec.ofNat 32 c.info ∧
    y.v = x.v ∧ y.x = x.x ∧ y.fcsr = x.fcsr ∧ y.sptr = x.sptr ∧ y.rs = x.rs ∧ y.hscr = x.hscr ∧ y.hold = x.hold ∧
    y.trq = ((captureHeld u b w l).1 ++ x.parkq).map ParkedOp.toReOp ∧ y.parkq = [] ∧
    (∀ k, k ≠ tkey b w l → Sp.find? t.threads k = Sp.find? s.threads k) ∧
    { t with threads := s.threads, ops := s.ops } = s ∧
    t.ops = u.ops.map fun e => (e.1, if e.2.blk = b ∧ e.2.weft = w then e.2.withdraw l else e.2)

/-- R386: a condition met in handler mode is not delivered to the handler again: the weft parks, the lane stays as
it is, and an entry of KIND 3 with the lane's PC is posted, or pends where every park place of the domain is taken
or a weft waits for one; in user mode the lane takes the trap. -/
def Obligations.TrapInHandlerModeParksTheWeft : Prop :=
  ∀ (s : State) (b w l : Nat) (c : Cond) (issue done : Nat),
    ((s.thread b w l).tst ≠ .trap → deliverTrap s b w l c issue done = enterTrap s b w l c) ∧
    ((s.thread b w l).tst = .trap → (s.weft b w).park = none →
      let t := deliverTrap s b w l c issue done
      t.threads = s.threads ∧ t.mem = s.mem ∧ (t.weft b w).wst = .parked ∧
      (∃ e, (t.weft b w).park = some e ∧ e.kind = 3 ∧ e.cause = c.cause.code ∧ e.reason = c.reason ∧
        e.addr = c.addr ∧ e.pc = (s.thread b w l).pc.toNat ∧ e.issue = issue ∧ e.done = done ∧ e.weft = w ∧
        e.block = (s.block b).lin) ∧
      (parkedIn s (domOf (s.block b).core) < 1024 → pendingIn s (domOf (s.block b).core) = false →
        t.faults = s.faults ++ [.weft b w] ∧ t.pendq = s.pendq) ∧
      (1024 ≤ parkedIn s (domOf (s.block b).core) ∨ pendingIn s (domOf (s.block b).core) = true →
        t.faults = s.faults ∧ t.pendq = s.pendq ++ [(b, w)]))

/-- R387, R388: TRAP n and BKPT take a SOFTWARE and a BREAKPOINT trap in every lane in user mode: the frame holds n
and the PC past the word, or the PC of the word. -/
def Obligations.TrapAndBreakpointEnterTheHandler : Prop :=
  ∀ s : State, Issues .sync [] [] s → (∀ l ∈ s.iss.lanes, (s.lane l).tst = .run) →
    (∀ n, ∃ t, exec (.trap n) s = .next t ∧ ∀ l ∈ s.iss.lanes,
      let y := t.thread s.iss.blk s.iss.weft l
      y.tst = .trap ∧ y.pc = (s.launch s.iss.blk).handler ∧ y.tcause = 0x0D ∧ y.tinfo = n.setWidth 32 ∧
        y.tpc = (s.lane l).pc + 4 ∧ y.taddr = s.iss.pc ∧ y.v = (s.lane l).v) ∧
    (∃ t, exec .bkpt s = .next t ∧ ∀ l ∈ s.iss.lanes,
      let y := t.thread s.iss.blk s.iss.weft l
      y.tst = .trap ∧ y.pc = (s.launch s.iss.blk).handler ∧ y.tcause = 0x0E ∧ y.tinfo = 0 ∧
        y.tpc = (s.lane l).pc ∧ y.taddr = s.iss.pc ∧ y.v = (s.lane l).v)

/-- R377, R387, R388: RETT in handler mode takes each lane back to user mode at its TPC, the entries of its reissue
queue to be re-injected in their order, each with its word, its address and its operand words; it changes nothing
else of the program's, and it waits where a lane would hold more than eight operations. In user mode every lane
traps PRIVILEGE. That the entries queue in the lane, to be re-injected after what is pending there, under issue
numbers of which RETT takes 256, and the stall above eight, are the model's choices (log 35, log 36). -/
def Obligations.ReturnFromTrap : Prop :=
  ∀ s : State,
    (Issues .sync [] [] s → s.iss.handler = true → (∀ l ∈ s.iss.lanes, LegalTarget (s.lane l).tpc) →
      (∀ l ∈ s.iss.lanes, heldCount s s.iss.blk s.iss.weft l + (s.lane l).trq.length ≤ 8) →
      ∃ (t u : State) (q : Nat → List ParkedOp), exec .rett s = .next t ∧
        (LanesDo s u fun l x => { x with tst := .run, pc := x.tpc, trq := [], parkq := q l }) ∧
        t = { u with nextOp := s.nextOp + 256 } ∧
        ∀ l ∈ s.iss.lanes, (q l).map ParkedOp.toReOp = (s.lane l).trq ∧
          ∀ p ∈ q l, s.nextOp ≤ p.op ∧ p.pc = (s.lane l).tpc ∧ p.handler = false) ∧
    (Issues .sync [] [] s → s.iss.handler = true →
      (∃ l ∈ s.iss.lanes, 8 < heldCount s s.iss.blk s.iss.weft l + (s.lane l).trq.length) →
      exec .rett s = .next { s with stalled := true }) ∧
    (s.iss.lanes ≠ [] → s.iss.handler = false →
      exec .rett s = .next (trapAll (noteIssue s)
        { cause := .privilege, addr := s.iss.pc.toNat, info := s.iss.word }))

/-! ## Waiting and the end of a thread -/

/-- R146, R188, R191: a lane that the mask of a WSYNC does not name goes on. A lane it names waits, or, if every
lane named has arrived with the same mask or is done or empty, goes on past the WSYNC in RUN; so then does every
other lane that waits with that mask, and each other thread stays as it is. In handler mode every lane traps
ILLEGAL. -/
def Obligations.WeftSynchronisation : Prop :=
  ∀ (s : State) (ka : KReg),
    (Issues .sync [] [(ka.toNat, 1)] s → s.iss.handler = false →
      let m := (s.wft.kreg ka.toNat).toNat % 2 ^ s.width s.iss.blk
      (∀ l ∈ s.iss.lanes, (s.lane l).tst = .run ∧ (s.lane l).pc = s.iss.pc) → s.iss.len = 4 →
      let arrived := fun l => l ∈ s.iss.lanes ∨ (s.lane l).tst = .done ∨ (s.lane l).tst = .empty ∨
        ((s.lane l).tst = .wait ∧ (s.lane l).wait = .wsync m)
      ∃ t, exec (.wsync ka) s = .next t ∧
        (∀ l ∈ s.iss.lanes,
          let y := t.thread s.iss.blk s.iss.weft l
          (m.testBit l = false → y.tst = .run ∧ y.pc = s.iss.pc + 4) ∧
          (m.testBit l = true → (∀ j < 32, m.testBit j = true → arrived j) →
            y.tst = .run ∧ y.wait = .none ∧ y.pc = s.iss.pc + 4) ∧
          (m.testBit l = true → (∃ j < 32, m.testBit j = true ∧ ¬ arrived j) →
            y.tst = .wait ∧ y.wait = .wsync m ∧ y.pc = s.iss.pc)) ∧
        ∀ l < 32, l ∉ s.iss.lanes →
          let x := (noteIssue s).thread s.iss.blk s.iss.weft l
          let y := t.thread s.iss.blk s.iss.weft l
          (x.tst = .wait → x.wait = .wsync m → (∀ j < 32, m.testBit j = true → arrived j) →
            y = { x with tst := .run, wait := .none, pc := x.pc + 4 }) ∧
          (x.tst = .wait → x.wait = .wsync m → (∃ j < 32, m.testBit j = true ∧ ¬ arrived j) → y = x) ∧
          ((∀ k, x.wait ≠ .wsync k) → y = x)) ∧
    (FormedSet s → Allowed (fun k => k.permits .sync) [] s → s.iss.handler = true →
      exec (.wsync ka) s = .next (trapAll (noteIssue s)
        { cause := .illegal, addr := s.iss.pc.toNat, info := s.iss.word }))

/-- R157, R158, R189: a YIELD of a weft that holds no race slot puts every lane of the issue set into WAIT at the
word; the block enters DRAINING exactly if then every lane of it is empty, done or waiting at a YIELD. A weft that
holds a slot traps RACE with reason HELD, and in handler mode every lane traps ILLEGAL (R191). R136, R140, R190,
R387: an EXIT of a weft that holds no race slot makes every lane of the issue set DONE, past the word, its reissue
queue empty; the weft is FINISHED where every lane of it is done or empty. Within the EXIT a WSYNC that is then met
lets the lanes that wait with its mask go on, and a YIELD that is then complete makes the block DRAINING; each
other thread stays as it is. That a DONE lane stands past the EXIT (R22) is the model's reading (log 27). -/
def Obligations.YieldAndExit : Prop :=
  (∀ s : State,
     (FormedSet s → Allowed (fun k => k.permits .sync) [] s → s.iss.handler = true →
       exec .yield s = .next (trapAll (noteIssue s)
         { cause := .illegal, addr := s.iss.pc.toNat, info := s.iss.word })) ∧
     (Issues .sync [] [] s → s.iss.handler = false → s.wft.slots = [] →
       ∃ t u : State, exec .yield s = .next t ∧ LanesDo s u (fun _ x => { x with tst := .wait, wait := .yield }) ∧
         t.threads = u.threads ∧
         ((s.block s.iss.blk).bst = .resident →
           ((t.block s.iss.blk).bst = .draining ↔
             (∀ w < (s.launch s.iss.blk).wefts, ∀ l < 32,
               (u.thread s.iss.blk w l).tst = .empty ∨ (u.thread s.iss.blk w l).tst = .done ∨
                 ((u.thread s.iss.blk w l).tst = .wait ∧ (u.thread s.iss.blk w l).wait = .yield)) ∧
             ∃ w < (s.launch s.iss.blk).wefts, ∃ l < 32,
               (u.thread s.iss.blk w l).tst = .wait ∧ (u.thread s.iss.blk w l).wait = .yield))) ∧
     (∀ h hs, Issues .sync [] [] s → s.iss.handler = false → s.wft.slots = h :: hs →
       exec .yield s = .next (trapAll (noteIssue s) { cause := .race, reason := 8, addr := h.addr }))) ∧
  (∀ s : State, Issues .sync [] [] s →
     (s.wft.slots = [] →
       ∃ t, exec .exit s = .next t ∧
         (∀ l ∈ s.iss.lanes, t.thread s.iss.blk s.iss.weft l =
           { (noteIssue s).thread s.iss.blk s.iss.weft l with tst := .done, trq := [], pc := nextPc s }) ∧
         ((∀ l < 32, l ∈ s.iss.lanes ∨ (s.lane l).tst = .done ∨ (s.lane l).tst = .empty) →
           (t.weft s.iss.blk s.iss.weft).wst = .finished) ∧
         (∀ l < 32, l ∉ s.iss.lanes →
           let x := (noteIssue s).thread s.iss.blk s.iss.weft l
           let y := t.thread s.iss.blk s.iss.weft l
           let arrived := fun m j => j ∈ s.iss.lanes ∨ (s.lane j).tst = .done ∨ (s.lane j).tst = .empty ∨
             ((s.lane j).tst = .wait ∧ (s.lane j).wait = .wsync m)
           (∀ m, x.tst = .wait → x.wait = .wsync m → (∀ j < 32, m.testBit j = true → arrived m j) →
             y = { x with tst := .run, wait := .none, pc := x.pc + 4 }) ∧
           (∀ m, x.tst = .wait → x.wait = .wsync m → (∃ j < 32, m.testBit j = true ∧ ¬ arrived m j) → y = x) ∧
           ((∀ k, x.wait ≠ .wsync k) → y = x)) ∧
         ((s.block s.iss.blk).bst = .resident →
           ((t.block s.iss.blk).bst = .draining ↔
             (∀ w < (s.launch s.iss.blk).wefts, ∀ l < 32,
               (t.thread s.iss.blk w l).tst = .empty ∨ (t.thread s.iss.blk w l).tst = .done ∨
                 ((t.thread s.iss.blk w l).tst = .wait ∧ (t.thread s.iss.blk w l).wait = .yield)) ∧
             ∃ w < (s.launch s.iss.blk).wefts, ∃ l < 32,
               (t.thread s.iss.blk w l).tst = .wait ∧ (t.thread s.iss.blk w l).wait = .yield))) ∧
     (∀ h hs, s.wft.slots = h :: hs →
       exec .exit s = .next (trapAll (noteIssue s) { cause := .race, reason := 8, addr := h.addr })))

/-! ## Barriers -/

/-- R185 to R187, R191: the barrier instructions where their checks pass. BINIT starts the barrier afresh; the
arriving ones make one update of it, with one arrival a lane and the bytes they expect; BWAIT goes on or waits, and
BTEST answers, by the parity; in handler mode a BWAIT traps ILLEGAL in every lane. An arrival waits for its lanes'
accesses (the model's reading, log 43). R187: the checks of a barrier instruction in their order: the block's
barrier count, then INIT, which BINIT does not need, then ERR, for those that wait or test. Each traps BARRIER in
every lane. -/
def Obligations.BarrierInstructionResults : Prop :=
  (∀ (s : State) (n : BitVec 4) (ka : KReg) (p : BitVec 1) (d : VReg) (count : BitVec 12),
     let b := s.iss.blk
     let k := s.iss.lanes.length
     let u := noteIssue s
     let bytes := (s.wft.kreg ka.toNat).toNat
     (Issues .sync [] [] s →
       (barCond s n.toNat true false = none →
         exec (.binit n count) s = .next (advanceAll (barTrap
           (u.setBlock b { u.block b with
             bars := Sp.put (u.block b).bars n.toNat { init := true, expa := count.toNat, pend := count.toNat } })
           b n.toNat (barrierCond n.toNat 0 0 0)))) ∧
       (barCond s n.toNat false false = none → lanesPending s = false →
         exec (.barr n) s = .next (advanceAll (barUpdate u b n.toNat { arrivals := k })) ∧
         exec (.bdrop n) s = .next (advanceAll (barUpdate u b n.toNat { drop := k, arrivals := k }))) ∧
       (barCond s n.toNat false true = none → s.iss.handler = false →
         ∃ t, exec (.bwait n p) s = .next t ∧
           LanesDo s t fun _ x =>
             if ((s.block b).bar n.toNat).par ≠ p.toNat then x.past s
             else { x with tst := .wait, wait := .barrier n.toNat p.toNat })) ∧
     (Issues .sync [] [(ka.toNat, 1)] s → barCond s n.toNat false false = none →
       (lanesPending s = false →
         exec (.barrx n ka) s = .next (advanceAll (barUpdate u b n.toNat { arrivals := k, expected := bytes }))) ∧
       exec (.bexp n ka) s = .next (advanceAll (barUpdate u b n.toNat { expected := bytes }))) ∧
     (FormedSet s → Allowed (fun k => k.permits .sync) [] s → s.iss.handler = true →
       exec (.bwait n p) s = .next (trapAll (noteIssue s)
         { cause := .illegal, addr := s.iss.pc.toNat, info := s.iss.word })) ∧
     (Issues .sync [one d] [] s → barCond s n.toNat false true = none →
       ∃ t, exec (.btest d n p) s = .next t ∧
         WritesWord s t d fun _ _ => if ((s.block b).bar n.toNat).par ≠ p.toNat then 0xFFFFFFFF else 0)) ∧
  (∀ (s : State) (n : BitVec 4),
     let x := (s.block s.iss.blk).bar n.toNat
     let c : Cond := { cause := .barrier, info := n.toNat * 4096 }
     (∀ i w, (s.launch s.iss.blk).nbar ≤ n.toNat → barCond s n.toNat i w = some c) ∧
     (n.toNat < (s.launch s.iss.blk).nbar →
       (∀ w, x.init = false → barCond s n.toNat false w = some c) ∧
       (∀ i, x.init = true → x.err = true → barCond s n.toNat i true = some c) ∧
       (∀ w, x.err = false ∨ w = false → barCond s n.toNat true w = none) ∧
       (∀ w, x.init = true → x.err = false ∨ w = false → barCond s n.toNat false w = none)) ∧
     (Issues .sync [] [] s → lanesPending s = false → barCond s n.toNat false false = some c →
       exec (.barr n) s = .next (trapAll (noteIssue s) c)))

/-- R184, R185: one merged update of a barrier, which is made of one that is initialised and has no error. Too many
arrivals, more bytes landed than expected, more than 2^24 - 1 expected or more members dropped than it has set ERR;
else, with no arrival left and every expected byte landed, the phase ends once: the parity changes and the counts
start again; else the counts stand. The updates of one cycle are merged into one before the test; that a turn not
joined to another is a cycle of its own is the model's choice (log 50). -/
def Obligations.BarrierUpdateRule : Prop :=
  ∀ (x : Barrier) (drop arrivals expected landed : Nat),
    let y := x.update drop arrivals expected landed false
    let pend := x.pend - arrivals
    let expb := x.expb + expected
    let rcvb := x.rcvb + landed
    let wrong := pend < 0 ∨ expb < rcvb ∨ 0xFFFFFF < expb ∨ x.expa - drop < 0
    (wrong → y.err = true ∧ y.par = x.par) ∧
    (¬ wrong → pend = 0 → rcvb = expb →
      y.par = 1 - x.par ∧ y.pend = x.expa - drop ∧ y.expa = x.expa - drop ∧ y.expb = 0 ∧ y.rcvb = 0 ∧ y.err = x.err ∧
        (y.init = true ↔ x.expa ≠ drop)) ∧
    (¬ wrong → ¬ (pend = 0 ∧ rcvb = expb) →
      y = { x with expa := x.expa - drop, pend := pend, expb := expb, rcvb := rcvb }) ∧
    (∀ (s : State) (b n : Nat) (u v : BarUpdate),
      (s.cycle = {} → barUpdate s b n u = barApply s b n u) ∧
      (s.cycle = { joined := true } → endCycle (barUpdate (barUpdate s b n u) b n v) =
        barApply { s with cycle := {} } b n
          { drop := u.drop + v.drop, arrivals := u.arrivals + v.arrivals, expected := u.expected + v.expected,
            landed := u.landed + v.landed, fail := if u.fail.isSome then u.fail else v.fail }) ∧
      ((s.block b).bar n).init = true → ((s.block b).bar n).err = false → v.fail = none →
        ((barApply s b n v).block b).bar n = ((s.block b).bar n).update v.drop v.arrivals v.expected v.landed false)

/-! ## Memory instructions at issue -/

/-- R127, R130, R132, R133, R378: a global load, store or atomic whose address is canonical and aligned in every
lane leaves one operation outstanding, of its function, size, order, scope, policy and group, with each lane's
address and its operand words as they stand at issue. That an access always leaves the issue outstanding, and that
the page decides about it only after that, are the model's choices (log 41, log 42). R179 to R182, R242, R243: a
scratchpad, cluster or constant-bank access, its offset a register plus the scaled immediate, aligned and, where
there is an allocation, inside it, leaves its operation outstanding at that offset. R247, R248, R250, R131: the
plate loads and the host accesses likewise; a prefetch leaves an uncounted operation for the lanes whose address is
canonical, and never traps on it. -/
def Obligations.AccessesIssue : Prop :=
  (∀ (s : State) (d a : VReg) (o : Order) (sc : Scope) (p : Policy),
     let va := fun l => (s.lane l).pair a.toNat
     let goes := fun (i : Instr) (x : Access) =>
       AccessIssues x (two a) s → missStall s (s.iss.lanes.map fun l => (va l).toNat) = false →
         (∀ l ∈ s.iss.lanes, canonical (va l) = true ∧ (va l).toNat % x.size = 0) →
         ∃ t, exec i s = .next t ∧ LeavesAccess s t x fun l => laneAcc s x l (va l).toNat
     (∀ e ∈ ([
         (.ldgZ8, .load, 1, false), (.ldgS8, .load, 1, true), (.ldgZ16, .load, 2, false), (.ldgS16, .load, 2, true),
         (.ldg32, .load, 4, false), (.ldg64, .load, 8, false), (.ldg128, .load, 16, false), (.stg8, .store, 1, false),
         (.stg16, .store, 2, false), (.stg32, .store, 4, false), (.stg64, .store, 8, false), (.stg128, .store, 16, false)] :
         List ((VReg → VReg → Order → Scope → Policy → Instr) × AccFn × Nat × Bool)),
       goes (e.1 d a o sc p)
         { space := .global, fn := e.2.1, size := e.2.2.1, signed := e.2.2.2, order := o, scope := sc, policy := p,
           dest := d.toNat }) ∧
     (∀ f, goes (.atg32 d a f o sc) { space := .global, fn := .atom f, size := 4, order := o, scope := sc, dest := d.toNat }) ∧
     (∀ f, goes (.atg64 d a f o sc) { space := .global, fn := .atom f, size := 8, order := o, scope := sc, dest := d.toNat }) ∧
     (∀ f, goes (.atf32 d a f o sc) { space := .global, fn := .fatom f, size := 4, order := o, scope := sc, dest := d.toNat })) ∧
  (∀ (s : State) (d base : VReg),
     let off := fun (n : Nat) l => ((s.lane l).reg base.toNat + BitVec.ofNat 32 n).toNat
     (∀ i : BitVec 8, ∀ e ∈ ([
         (.lds32, .load, 4), (.lds64, .load, 8), (.lds128, .load, 16), (.sts32, .store, 4), (.sts64, .store, 8),
         (.sts128, .store, 16), (.atsAdd32, .atom .add, 4), (.atsExch32, .atom .exch, 4)] :
         List ((VReg → VReg → BitVec 8 → Instr) × AccFn × Nat)),
       let x : Access := { space := .spm, fn := e.2.1, size := e.2.2, dest := d.toNat }
       let o := off (4 * i.toNat)
       AccessIssues x (one base) s →
         (∀ l ∈ s.iss.lanes, o l % x.size = 0 ∧ o l + x.size ≤ (s.launch s.iss.blk).spm) →
         ∃ t, exec (e.1 d base i) s = .next t ∧
           LeavesAccess s t x fun l => { laneAcc s x l (o l) with st := .ready (o l) false false, aux := s.iss.blk }) ∧
     (∀ (i : BitVec 4) (g : BitVec 2) (od : Order) (b : Nat), ∀ e ∈ ([
         (.ldn32, .load, 4), (.ldn64, .load, 8), (.ldn128, .load, 16), (.stn32, .store, 4), (.stn64, .store, 8),
         (.stn128, .store, 16), (.atnAdd32, .atom .add, 4), (.atnExch32, .atom .exch, 4)] :
         List ((VReg → VReg → BitVec 2 → Order → BitVec 4 → Instr) × AccFn × Nat)),
       let x : Access :=
         { space := .cluster, fn := e.2.1, size := e.2.2, order := od, scope := .dom, dest := d.toNat, target := g.toNat }
       let o := off (16 * i.toNat)
       AccessIssues x (one base) s → clusterTargetOf s s.iss.blk g.toNat = some b →
         (∀ l ∈ s.iss.lanes, o l % x.size = 0 ∧ o l + x.size ≤ (s.launch b).spm) →
         ∃ t, exec (e.1 d base g od i) s = .next t ∧
           LeavesAccess s t x fun l => { laneAcc s x l (o l) with st := .ready (o l) false false, aux := b }) ∧
     (∀ i : BitVec 8, ∀ e ∈ ([(.ldcb32, 4), (.ldcb64, 8), (.ldcb128, 16)] :
         List ((VReg → VReg → BitVec 8 → Instr) × Nat)),
       let x : Access := { space := .const, fn := .load, size := e.2, dest := d.toNat }
       let o := fun l => off (4 * i.toNat) l % 65536
       AccessIssues x (one base) s → (∀ l ∈ s.iss.lanes, o l % x.size = 0) →
         ∃ t, exec (e.1 d base i) s = .next t ∧
           LeavesAccess s t x fun l => { laneAcc s x l (o l) with st := .ready (o l) false false })) ∧
  (∀ (s : State) (d base : VReg) (i : BitVec 8) (o : Order) (p : Policy),
     let va := fun (n : Nat) l => (s.lane l).pair base.toNat + BitVec.ofNat 64 n
     (∀ e ∈ ([(.ldp32, 4), (.ldp64, 8), (.ldp128, 16)] : List ((VReg → VReg → BitVec 8 → Instr) × Nat)),
       let x : Access := { space := .plate, fn := .load, size := e.2, dest := d.toNat }
       AccessIssues x (two base) s → missStall s (s.iss.lanes.map fun l => (va (16 * i.toNat) l).toNat) = false →
         (∀ l ∈ s.iss.lanes, canonical (va (16 * i.toNat) l) = true ∧ (va (16 * i.toNat) l).toNat % x.size = 0) →
         ∃ t, exec (e.1 d base i) s = .next t ∧ LeavesAccess s t x fun l => laneAcc s x l (va (16 * i.toNat) l).toNat) ∧
     (∀ e ∈ ([
         (.ldh32, .load, 4), (.ldh64, .load, 8), (.sth32, .store, 4), (.sth64, .store, 8), (.athAdd64, .atom .add, 8),
         (.athCas64, .atom .cas, 8), (.athExch64, .atom .exch, 8)] : List ((VReg → VReg → Order → Instr) × AccFn × Nat)),
       let x : Access := { space := .host, fn := e.2.1, size := e.2.2, order := o, scope := .sys, dest := d.toNat }
       AccessIssues x (two base) s →
         missStall s (s.iss.lanes.map fun l => ((s.lane l).pair base.toNat).toNat) = false →
         (∀ l ∈ s.iss.lanes, canonical ((s.lane l).pair base.toNat) = true ∧
           ((s.lane l).pair base.toNat).toNat % x.size = 0) →
         ∃ t, exec (e.1 d base o) s = .next t ∧
           LeavesAccess s t x fun l => laneAcc s x l ((s.lane l).pair base.toNat).toNat) ∧
     (∀ e ∈ ([(.pfg base p, { space := .global, policy := p }, 0), (.pfp base i, { space := .plate }, 16 * i.toNat)] :
         List (Instr × Access × Nat)),
       Issues .memory [two base] [] s → missStall s (s.iss.lanes.map fun l => (va e.2.2 l).toNat) = false →
         let ls := s.iss.lanes.filter fun l => canonical (va e.2.2 l)
         ∃ t u : State, exec e.1 s = .next t ∧ LanesDo s u (fun _ x => x.past s) ∧
           t = if ls = [] then u else
             addOp u { issuedOp s e.2.1 (ls.map fun l => { lane := l, addr := (va e.2.2 l).toNat }) (laneMask ls) with
               kind := .prefetch }))

/-- R29, R89, R126, R179, R243, R383: the checks of an access that its address alone decides, lane by lane. A
virtual address that is not canonical traps TRANSLATE with reason 4, one that is not aligned to the access
MISALIGN; the lanes that fail none go on, and one operation is outstanding for those alone. A scratchpad or cluster
access beyond the allocation, or with none, is a system fault: the weft parks at the instruction with the masks of
R384, the lanes that pass complete it, and nothing is outstanding for the others. That the lanes that pass leave
their access outstanding, to meet the page's checks later, is the model's choice (log 41, log 42). R126, R217: the
checks of an access against its page, once that is found. In space 2 a page that does not permit the access refuses
it with PROTECT, then a store or atomic to a plate page with PLATEWRITE, to a sealed range with SEALED, and any
access to the host aperture with PROTECT; a plate load is for a readable plate page alone, and a host access for a
page of the host aperture that permits it. PROTECT parks the weft, with the lane and the address recorded;
PLATEWRITE and SEALED trap the lane alone, at the instruction. The lane's registers and main DRAM stay as they are. -/
def Obligations.AddressChecksOfAccesses : Prop :=
  (∀ (s : State) (d a : VReg) (i : BitVec 8) (j : BitVec 4) (g : BitVec 2) (o : Order) (sc : Scope) (p : Policy) (f : AtomFn)
     (h : AtfFn), (∀ l ∈ s.iss.lanes, (s.lane l).tst = .run) →
     let va := fun (n : Nat) l => (s.lane l).pair a.toNat + BitVec.ofNat 64 n
     let off := fun (n : Nat) l => ((s.lane l).reg a.toNat + BitVec.ofNat 32 n).toNat
     (∀ e ∈ ([
         (.ldgZ8 d a o sc p, 1, 2, 0), (.ldgS8 d a o sc p, 1, 2, 0), (.ldgZ16 d a o sc p, 2, 2, 0), (.ldgS16 d a o sc p, 2, 2, 0),
         (.ldg32 d a o sc p, 4, 2, 0), (.ldg64 d a o sc p, 8, 2, 0), (.ldg128 d a o sc p, 16, 2, 0), (.stg8 d a o sc p, 1, 2, 0),
         (.stg16 d a o sc p, 2, 2, 0), (.stg32 d a o sc p, 4, 2, 0), (.stg64 d a o sc p, 8, 2, 0), (.stg128 d a o sc p, 16, 2, 0),
         (.atg32 d a f o sc, 4, 2, 0), (.atg64 d a f o sc, 8, 2, 0), (.atf32 d a h o sc, 4, 2, 0),
         (.ldp32 d a i, 4, 3, 16 * i.toNat), (.ldp64 d a i, 8, 3, 16 * i.toNat), (.ldp128 d a i, 16, 3, 16 * i.toNat),
         (.ldh32 d a o, 4, 5, 0), (.ldh64 d a o, 8, 5, 0), (.sth32 d a o, 4, 5, 0), (.sth64 d a o, 8, 5, 0),
         (.athAdd64 d a o, 8, 5, 0), (.athCas64 d a o, 8, 5, 0), (.athExch64 d a o, 8, 5, 0)] :
         List (Instr × Nat × Nat × Nat)), ∀ x, accessOf e.1 = some x → x.size = e.2.1 ∧
       (AccessIssues x (two a) s → missStall s (s.iss.lanes.map fun l => (va e.2.2.2 l).toNat) = false →
         ∃ t, exec e.1 s = .next t ∧
           LanesChecked s t x (fun l => laneAcc s x l (va e.2.2.2 l).toNat)
             (fun l =>
               if canonical (va e.2.2.2 l) = false then
                 some { cause := .translate, reason := 4, addr := (va e.2.2.2 l).toNat, info := e.2.2.1 }
               else if (va e.2.2.2 l).toNat % e.2.1 ≠ 0 then
                 some { cause := .misalign, addr := (va e.2.2.2 l).toNat, info := e.2.2.1 }
               else none) (fun _ => none))) ∧
     (∀ e ∈ ([(.ldcb32 d a i, 4), (.ldcb64 d a i, 8), (.ldcb128 d a i, 16)] : List (Instr × Nat)), ∀ x, accessOf e.1 = some x →
       x.size = e.2 ∧
       (AccessIssues x (one a) s →
         let at_ := fun l => off (4 * i.toNat) l % 65536
         ∃ t, exec e.1 s = .next t ∧
           LanesChecked s t x (fun l => { laneAcc s x l (at_ l) with st := .ready (at_ l) false false })
             (fun l => if at_ l % e.2 ≠ 0 then some { cause := .misalign, addr := at_ l, info := 4 } else none)
             (fun _ => none))) ∧
     (∀ e ∈ ([
         (.lds32 d a i, 4, none), (.lds64 d a i, 8, none), (.lds128 d a i, 16, none), (.sts32 d a i, 4, none),
         (.sts64 d a i, 8, none), (.sts128 d a i, 16, none), (.atsAdd32 d a i, 4, none), (.atsExch32 d a i, 4, none),
         (.ldn32 d a g o j, 4, some g), (.ldn64 d a g o j, 8, some g), (.ldn128 d a g o j, 16, some g),
         (.stn32 d a g o j, 4, some g), (.stn64 d a g o j, 8, some g), (.stn128 d a g o j, 16, some g),
         (.atnAdd32 d a g o j, 4, some g), (.atnExch32 d a g o j, 4, some g)] : List (Instr × Nat × Option (BitVec 2))),
       ∀ x, accessOf e.1 = some x → x.size = e.2.1 ∧
       (AccessIssues x (one a) s → s.iss.deliver = 0 → s.wft.park = none →
         let at_ := off (if e.2.2.isSome then 16 * j.toNat else 4 * i.toNat)
         let space := if e.2.2.isSome then 1 else 0
         let target := (e.2.2.map fun g => clusterTargetOf s s.iss.blk g.toNat).getD (some s.iss.blk)
         let beyond := fun l => (target.map fun b => decide ((s.launch b).spm < at_ l + e.2.1)).getD true
         ∃ t, exec e.1 s = .next t ∧
           LanesChecked s t x
             (fun l => { laneAcc s x l (at_ l) with st := .ready (at_ l) false false, aux := target.getD 0 })
             (fun l => if at_ l % e.2.1 ≠ 0 then some { cause := .misalign, addr := at_ l, info := space } else none)
             (fun l => if at_ l % e.2.1 = 0 ∧ beyond l = true then
                 some { cause := .protect, addr := at_ l, info := space } else none)))) ∧
  (∀ (s u : State) (op l : Nat) (o : MemOp) (a : LaneAcc) (p : TlbEnt),
     s.op? op = some o → o.lane? l = some a → a.lane = l → a.st = .held → o.kind = .access → o.acc.fn.isStack = false →
     translate s o.core (s.viOf o.blk) (s.asnOf o.blk) (a.addr % 2 ^ 57) o.acc.pageUse = (.ok p, u) →
     u.wefts = s.wefts → u.threads = s.threads → u.blocks = s.blocks →
     let rd := o.acc.fn.reads = true
     let wr := o.acc.fn.writes = true
     let permits := (rd → p.r = true) ∧ (wr → p.w = true)
     let host := regionOf u p.pa = .host
     let isSealed := sealedAt u (u.viOf o.blk) (u.asnOf o.blk) (a.addr % 2 ^ 57) p.g = true
     let protect := (s.weft o.blk o.weft).park = none → a.deliver = false →
       ∃ t, exec (.pageWalk op l) s = .next t ∧ (t.weft o.blk o.weft).wst = .parked ∧
         ((t.weft o.blk o.weft).park.map fun e => (e.cause, e.reason, e.space, e.addr, e.issue, e.done)) =
           some (Cause.protect.code, 0, o.acc.space.code, a.addr, o.issue, o.doneMask) ∧
         (t.thread o.blk o.weft l).v = (s.thread o.blk o.weft l).v ∧ t.mem = u.mem
     let traps := fun (c : Cause) (reason : Nat) => (s.thread o.blk o.weft l).tst = .run → (s.thread o.blk o.weft l).hold = none →
       ∃ t, exec (.pageWalk op l) s = .next t ∧
         let y := t.thread o.blk o.weft l
         y.tst = .trap ∧ y.tpc = o.pc ∧ y.tcause = BitVec.ofNat 32 (c.code + reason * 2 ^ 8) ∧
           y.taddr = BitVec.ofNat 64 a.addr ∧ y.v = (s.thread o.blk o.weft l).v ∧ t.mem = u.mem
     (o.acc.space = .global →
       (¬ permits → protect) ∧
       (permits → wr → p.plate = true → traps .plateWrite 0) ∧
       (permits → wr → p.plate = false → isSealed → traps .sealed 1) ∧
       (permits → (wr → p.plate = false ∧ ¬ isSealed) → host → protect)) ∧
     (o.acc.space = .plate → ¬ (p.plate = true ∧ p.r = true) → protect) ∧
     (o.acc.space = .host → ¬ (host ∧ permits) → protect))

/-! ## Copies, the matrix engine and the reduction unit at issue -/

/-- R273 to R276, R281: CPGS and CPSG whose every lane passes its checks, and that no stream waits for a slot
before, take a free copy slot, step the copy counter, and leave their pieces to be moved; the lanes go on, and no
scratchpad changes at issue. That it is the lowest free slot is the model's choice (log 184), and so is how the
streams that wait for a slot are held (log 132). R277 to R283: CPTL and CPTS with a lawful descriptor take a free
copy slot (the lowest: log 184, log 132) and leave one piece for each element of the box; a CPTS owns the lines of
those whose pages it found, and discards those outside the tensor. R346: CPPW of a plate page that its page table
maps takes a free copy slot (the lowest: log 184, log 132) and leaves the page to be staged into the frame that kb
names. -/
def Obligations.CopiesStart : Prop :=
  (∀ (s : State) (vs a : VReg) (b : BitVec 4) (z : CpSize) (slot : Nat), ∀ e ∈ ([
       (.cpgs vs a b z, false, .load), (.cpsg vs a b z, true, .store)] : List (Instr × Bool × CopyKind)),
     let q := copyLanes e.2.1 vs a (CpSize.bytes z) s
     let core := (s.block s.iss.blk).core
     IssuesAs copyRole [one vs, two a] [] s → lanesPending s = false → copyBarCond s b = none → copyConds q.1 = [] →
     missStall s (s.iss.lanes.map fun l => ((s.lane l).pair a.toNat).toNat) = false →
     (∀ x ∈ q.1, x.2 ≠ none) → s.wft.room .cp 1 = true → slotFor s core = true →
       freeSlot s core = some slot → canOwn e.2.1 core slot (passing e.2.1 q.1) q.2 = true →
     ∃ t c, exec e.1 s = .next t ∧ LanesPast s t ∧ t.copy? core slot = some c ∧ c.kind = e.2.2 ∧ c.tile = false ∧
       c.blk = s.iss.blk ∧ c.weft = s.iss.weft ∧ c.pc = s.iss.pc ∧ c.bar = copyBar s b ∧ c.pend = passing e.2.1 q.1 ∧
       t.wft.cp = s.wft.cp ++ [{ op := c.op }] ∧ (∀ k, (t.block k).spm = (s.block k).spm)) ∧
  (∀ (s : State) (ka kb kc : KReg) (b : BitVec 4) (slot : Nat), ∀ e ∈ ([
       (.cptl ka kb kc b, false, .load), (.cpts ka kb kc b, true, .store)] : List (Instr × Bool × CopyKind)),
     let desc := (s.wft.kreg ka.toNat).toNat
     let spm := (s.wft.kreg kb.toNat).toNat
     let d := readTile (s.block s.iss.blk).spm desc
     let start := (List.range d.rank).map fun i => (s.wft.kreg (kc.toNat + i)).toInt
     let core := (s.block s.iss.blk).core
     let es := (List.range (d.bytes / d.e)).map (tileElem d e.2.1 start spm)
     let q := tileTranslate core s.iss.blk es s
     IssuesAs copyRole [] [(ka.toNat, 1), (kb.toNat, 1), (kc.toNat, min d.rank 5)] s → lanesPending s = false →
     tileCond s desc spm kc.toNat = none → copyBarCond s b = none → s.wft.room .cp 1 = true → slotFor s core = true →
     freeSlot s core = some slot →
     (e.2.1 = true → missStall s ((es.filter (·.live)).map (·.va)) = false ∧
       ∃ pend, q.1 = some pend ∧ canOwn true core slot pend q.2 = true) →
     ∃ t c, exec e.1 s = .next t ∧ LanesPast s t ∧ t.copy? core slot = some c ∧ c.kind = e.2.2 ∧ c.tile = true ∧
       c.blk = s.iss.blk ∧ c.weft = s.iss.weft ∧ c.bar = copyBar s b ∧ c.policy = policyOf d.policy ∧
       (e.2.1 = false → c.pend = es) ∧
       (e.2.1 = true → q.1 = some c.pend ∧
         (c.pend.map fun x => { x with pa := none, nc := false, refused := false }) = es) ∧ t.wft.cp = s.wft.cp ++ [{ op := c.op }] ∧
       (∀ k, (t.block k).spm = (s.block k).spm)) ∧
  (∀ (s : State) (ka kb : KReg) (b : BitVec 4) (slot page : Nat),
     let core := (s.block s.iss.blk).core
     IssuesAs copyRole [] [(ka.toNat, 2), (kb.toNat, 1)] s → missStall s [(s.wft.kpair ka.toNat).toNat] = false →
     (cppwPage s core (s.wft.kpair ka.toNat)).1 = some (.ok page) → copyBarCond s b = none → s.wft.room .cp 1 = true →
     slotFor s core = true → freeSlot s core = some slot →
     ∃ t c, exec (.cppw ka kb b) s = .next t ∧ LanesPast s t ∧ t.copy? core slot = some c ∧
       c.kind = .stage page ((s.wft.kreg kb.toNat).toNat % 4096) ∧ c.bar = copyBar s b ∧
       t.wft.cp = s.wft.cp ++ [{ op := c.op }] ∧ (∀ k, (t.block k).spm = (s.block k).spm))

/-- R294, R306 to R309: MXPUSH of a lawful parameter block queues its command on the weft's array, with the view
that a LOADW gives its slot; MXFENCE waits for the array; MXQUERY reports its state and clears the weft's failure
bit. -/
def Obligations.MatrixInstructionResults : Prop :=
  ∀ (s : State) (ka : KReg) (d : VReg),
    let core := (s.block s.iss.blk).core
    let part := s.wft.part
    let a := s.array core part
    let c := pushed s (s.wft.kreg ka.toNat).toNat
    let role := fun k : RoleKind => k == .general || k == .matrix
    (IssuesAs role [] [(ka.toNat, 1)] s → lanesPending s = false → s.wft.room .mx 1 = true → a.queue.length < 32 →
      mxCond s c a = none →
      ∃ t, exec (.mxpush ka) s = .next t ∧ LanesPast s t ∧
        t.array core part =
          { a with queue := a.queue ++ [c], views := if c.f 0 1 = 1 then Sp.put a.views c.slot c.view else a.views } ∧
        t.wft.mx = s.wft.mx ++ [{ op := s.nextOp }] ∧ t.wft.mxSeq = s.wft.mxSeq + 1 ∧ t.mem = s.mem ∧
        (∀ k, (t.block k).spm = (s.block k).spm)) ∧
    (IssuesAs role [] [] s → ∃ t, exec .mxfence s = .next t ∧ LeavesWait s t (.mxfence part)) ∧
    (IssuesAs role [one d] [] s →
      ∃ t, exec (.mxquery d) s = .next t ∧
        (∀ l ∈ s.iss.lanes, t.thread s.iss.blk s.iss.weft l =
          (((noteIssue s).thread s.iss.blk s.iss.weft l).setReg d.toNat
            (BitVec.ofNat 32 (mxQueryWord a s.wft.mxFailed))).past s) ∧
        SameBut s ((noteIssue s).setWeft s.iss.blk s.iss.weft { (noteIssue s).wft with mxFailed := false }) t)

/-- R313, R314: QBLK writes 128 bytes of FP8 and their scale into the scratchpad and ORs its flags into each
lane's; every other byte of the scratchpad, and all of memory, stays as it is. -/
def Obligations.BlockQuantisation : Prop :=
  ∀ (s : State) (ka kb kc : KReg) (f : BitVec 1),
    let oa := (s.wft.kreg ka.toNat).toNat
    let ob := (s.wft.kreg kb.toNat).toNat
    let oc := (s.wft.kreg kc.toNat).toNat
    let m := (s.block s.iss.blk).spm
    let r := qblk (f == 1) ((List.range 128).map fun i => m.read (oa + 4 * i) 4)
    IssuesAs (fun k => k == .general || k == .vector) [] [(ka.toNat, 1), (kb.toNat, 1), (kc.toNat, 1)] s →
    lanesPending s = false → qblkCond s oa ob oc = none → spmFailed (s.block s.iss.blk).spmBad oa 512 = none →
    ∃ t, exec (.qblk ka kb kc f) s = .next t ∧
      (∀ l ∈ s.iss.lanes, t.thread s.iss.blk s.iss.weft l =
        (((noteIssue s).thread s.iss.blk s.iss.weft l).raise r.2.2).past s) ∧
      (∀ x, (t.block s.iss.blk).spm.byte x =
        if oc ≤ x ∧ x < oc + 4 then BitVec.ofNat 8 (r.2.1 / 256 ^ (x - oc))
        else if ob ≤ x ∧ x < ob + 128 then BitVec.ofNat 8 (r.1.getD (x - ob) 0)
        else m.byte x) ∧
      (∀ k, k ≠ s.iss.blk → t.block k = s.block k) ∧ t.mem = s.mem ∧ t.wefts = (noteIssue s).wefts ∧
      (∀ k, (∀ l ∈ s.iss.lanes, k ≠ tkey s.iss.blk s.iss.weft l) →
        Sp.find? t.threads k = Sp.find? (noteIssue s).threads k)

/-- R270, R287: WAITCNT goes on once every counter of the weft is at or below its immediate and no failure is
observed; of those observed it delivers the one issued first, as BARRIER in every lane; above an immediate it
stalls. -/
def Obligations.CounterWaits : Prop :=
  ∀ (s : State) (ld st : BitVec 6) (cp : BitVec 5) (mx : BitVec 4),
    let met := s.wft.ld.length ≤ ld.toNat ∧ s.wft.st.length ≤ st.toNat ∧ s.wft.cp.length ≤ cp.toNat ∧
      s.wft.mx.length ≤ mx.toNat
    let seen := s.wft.failures.filter (observes s.wft cp.toNat mx.toNat)
    Issues .sync [] [] s →
      (met → seen = [] → ∃ t, exec (.waitcnt ld st cp mx) s = .next t ∧ LanesDo s t fun _ x => x.past s) ∧
      (∀ f ∈ seen, (∀ g ∈ seen.erase f, f.op < g.op) → met →
        exec (.waitcnt ld st cp mx) s = .next (trapAll
          ((noteIssue s).setWeft s.iss.blk s.iss.weft
            { (noteIssue s).wft with failures := s.wft.failures.erase f }) f.cond)) ∧
      (¬ met → exec (.waitcnt ld st cp mx) s = .next { s with stalled := true })

/-! ## Races, fences, plates and collectives at issue -/

/-- R324 to R332: a race instruction that passes its checks. RRESV and RRECV put the issue set into WAIT and queue
its request; the try forms grant at once, or answer 0 or the end of the stream, as a replay's records say where
there are any, and diverge where none remains; RCOMMIT and RRELEASE give up the slot that they name and leave its
release under way; RCLOSE leaves its own; RSTAT reports the race. R191, R327: where the race instructions trap. The
first reason of R327 that holds is taken by every lane, before anything is granted, given up or queued; in handler
mode RRESV and RRECV trap ILLEGAL. -/
def Obligations.RaceInstructionResults : Prop :=
  (∀ (s : State) (k : KReg) (q : BitVec 5) (r : Race),
     let b := s.iss.blk
     let w := s.iss.weft
     let addr := (s.wft.kpair k.toNat).toNat
     let resv := tryTurn s q.toNat [0, 3]
     let recv := tryTurn s q.toNat [1, 2, 3]
     let never := diverge (noteRace (noteIssue s)) (s.block b).gid (s.block b).lin (s.block b).phase 3
     raceOf s b q.toNat = some r →
     (Issues .sync [] [(k.toNat, 2)] s →
       (s.iss.handler = false → raceFault s q.toNat .prod none true = none →
         ∃ t, exec (.rresv k q) s = .next t ∧
           (∀ l ∈ s.iss.lanes, t.thread b w l =
             { (noteIssue s).thread b w l with tst := .wait, wait := .race q.toNat k.toNat false }) ∧
           raceOf t b q.toNat = some { r with reservers := r.reservers ++ [raceReq b w k.toNat] }) ∧
       (s.iss.handler = false → raceFault s q.toNat .cons none true = none →
         ∃ t, exec (.rrecv k q) s = .next t ∧
           (∀ l ∈ s.iss.lanes, t.thread b w l =
             { (noteIssue s).thread b w l with tst := .wait, wait := .race q.toNat k.toNat true }) ∧
           raceOf t b q.toNat = some { r with receivers := r.receivers ++ [raceReq b w k.toNat] }) ∧
       (raceFault s q.toNat .prod none true = none → tryWaits s q.toNat false [0, 3] = false → resv ≠ .never →
         ∃ t, exec (.rtryresv k q) s = .next t ∧ LanesPast s t ∧
           (resv = .now 0 ∨ (resv = .free ∧ r.reservers = [] ∧ r.canReserve = true) →
             t.wft.kpair k.toNat = (if k.toNat = 0 then 0 else BitVec.ofNat 64 (r.addr r.rp)) ∧
             t.wft.slots = s.wft.slots ++ [{ race := q.toNat, slot := r.rp, recv := false, addr := r.addr r.rp }]) ∧
           (resv = .now 3 ∨ (resv = .free ∧ (r.reservers ≠ [] ∨ r.canReserve = false)) →
             t.wft.kpair k.toNat = 0 ∧ t.wft.slots = s.wft.slots)) ∧
       (raceFault s q.toNat .prod none true = none → resv = .never → exec (.rtryresv k q) s = .next never) ∧
       (raceFault s q.toNat .cons none true = none → tryWaits s q.toNat true [1, 2, 3] = false → recv ≠ .never →
         ∃ t, exec (.rtryrecv k q) s = .next t ∧ LanesPast s t ∧
           (recv = .now 1 ∨ (recv = .free ∧ r.receivers = [] ∧ r.canReceive = true) →
             t.wft.kpair k.toNat = (if k.toNat = 0 then 0 else BitVec.ofNat 64 (r.addr r.cp)) ∧
             t.wft.slots = s.wft.slots ++ [{ race := q.toNat, slot := r.cp, recv := true, addr := r.addr r.cp }]) ∧
           (recv = .now 2 ∨ (recv = .free ∧ (r.receivers ≠ [] ∨ r.canReceive = false) ∧ (r.eos ∨ r.rst = .abandoned)) →
             t.wft.kpair k.toNat = (if k.toNat = 0 then 0 else 1) ∧ t.wft.slots = s.wft.slots) ∧
           (recv = .now 3 ∨ (recv = .free ∧ (r.receivers ≠ [] ∨ r.canReceive = false) ∧ ¬ (r.eos ∨ r.rst = .abandoned)) →
             t.wft.kpair k.toNat = 0 ∧ t.wft.slots = s.wft.slots)) ∧
       (raceFault s q.toNat .cons none true = none → recv = .never → exec (.rtryrecv k q) s = .next never) ∧
       (∀ e ∈ ([(.rcommit q k, false, .prod), (.rrelease q k, true, .cons)] : List (Instr × Bool × RaceSide)),
         raceFault s q.toNat e.2.2 (some (addr, e.2.1)) false = none →
         ∃ t h, exec e.1 s = .next t ∧ LanesPast s t ∧ h ∈ s.wft.slots ∧ h.race = q.toNat ∧ h.addr = addr ∧
           h.recv = e.2.1 ∧ t.wft.slots = s.wft.slots.erase h ∧
           t.op? s.nextOp = some { issuedOp s {} [] (laneMask s.iss.lanes) with
             kind := if e.2.1 then .relSlot q.toNat h.slot else .commit q.toNat h.slot })) ∧
     (Issues .sync [] [] s → raceFault s q.toNat .prod none false = none →
       ∃ t, exec (.rclose q) s = .next t ∧ LanesPast s t ∧
         t.op? s.nextOp = some { issuedOp s {} [] (laneMask s.iss.lanes) with kind := .rclose q.toNat }) ∧
     (Issues .sync [] [(k.toNat, 1)] s → raceFault s q.toNat .any none false = none →
       ∃ t, exec (.rstat k q) s = .next t ∧
         WeftDoes s t ((noteIssue s).wft.setK k.toNat (BitVec.ofNat 32 r.stat)))) ∧
  (∀ (s : State) (k : KReg) (q : BitVec 5),
     let b := s.iss.blk
     let blk := s.block b
     let addr := (s.wft.kpair k.toNat).toNat
     let fault := raceFault s q.toNat
     let holds := fun recv => ∃ h ∈ s.wft.slots, h.race = q.toNat ∧ h.addr = addr ∧ h.recv = recv
     let reason := fun n a => some ({ cause := .race, reason := n, addr := a } : Cond)
     let illegal : Cond := { cause := .illegal, addr := s.iss.pc.toNat, info := s.iss.word }
     (∀ side held grants, (s.grid blk.gid).mill = none → fault side held grants = reason 1 0) ∧
     (∀ m side held grants, (s.grid blk.gid).mill = some m → m.races.length ≤ q.toNat → fault side held grants = reason 2 0) ∧
     (∀ r, raceOf s b q.toNat = some r →
       (∀ held grants, blk.stage ≠ r.prod → fault .prod held grants = reason 3 0) ∧
       (∀ held grants, blk.stage ≠ r.cons → fault .cons held grants = reason 3 0) ∧
       (blk.stage = r.prod → ¬ holds false → fault .prod (some (addr, false)) false = reason 4 addr) ∧
       (blk.stage = r.cons → ¬ holds true → fault .cons (some (addr, true)) false = reason 4 addr) ∧
       (blk.stage = r.prod → r.rst = .closed → fault .prod none true = reason 5 0) ∧
       (blk.stage = r.prod → r.rst = .abandoned → fault .prod none true = reason 6 0) ∧
       (blk.stage = r.prod → r.rst = .opened → closing s q.toNat = false → 8 ≤ s.wft.slots.length →
         fault .prod none true = reason 7 0) ∧
       (blk.stage = r.cons → 8 ≤ s.wft.slots.length → fault .cons none true = reason 7 0) ∧
       fault .any none false = none) ∧
     (∀ e ∈ ([
         (.rresv k q, .prod, none, true, [(k.toNat, 2)]), (.rrecv k q, .cons, none, true, [(k.toNat, 2)]),
         (.rtryresv k q, .prod, none, true, [(k.toNat, 2)]), (.rtryrecv k q, .cons, none, true, [(k.toNat, 2)]),
         (.rcommit q k, .prod, some (addr, false), false, [(k.toNat, 2)]),
         (.rrelease q k, .cons, some (addr, true), false, [(k.toNat, 2)]), (.rclose q, .prod, none, false, [])] :
         List (Instr × RaceSide × Option (Nat × Bool) × Bool × List Regs)),
       Issues .sync [] e.2.2.2.2 s → (s.iss.handler = true → e.1 ≠ .rresv k q ∧ e.1 ≠ .rrecv k q) →
       ∀ c, fault e.2.1 e.2.2.1 e.2.2.2.1 = some c → exec e.1 s = .next (trapAll (noteRace (noteIssue s)) c)) ∧
     (Issues .sync [] [(k.toNat, 1)] s → ∀ c, fault .any none false = some c →
       exec (.rstat k q) s = .next (trapAll (noteIssue s) c)) ∧
     (∀ i ∈ ([.rresv k q, .rrecv k q] : List Instr), FormedSet s → Allowed (fun k => k.permits .sync) [] s →
       s.iss.handler = true → exec i s = .next (trapAll (noteIssue s) illegal)))

/-- R252 to R257, R352, R373: FENCE, SEAL, UNSEAL, CWB, PINSTALL and EVSIG put every lane past the instruction, to
wait for one operation of their kind; a CWB at BLK scope or of no bytes does nothing; UNSEAL takes its entry out of
the seal table at once; SEAL of a full table and UNSEAL of no entry trap SEALED. R351 to R353: PINSTALL of a lawful
descriptor puts the lanes past it, to wait for the install's operation, which carries the descriptor's fields;
PSTATUS writes the ticket's code, 9 where the table holds no entry of it, and acquires where the code is final.
R126, R254, R350, R352: where SEAL, UNSEAL and PINSTALL trap. The range of a SEAL or UNSEAL is aligned, not empty
and canonical at both ends; the address of a descriptor is canonical and a multiple of 64, and its fields are
checked in ascending offset, a TICKET that is BUSY among them. Every lane takes the trap. -/
def Obligations.FencesSealsAndInstalls : Prop :=
  (∀ (s : State) (ka kb : KReg) (k : FenceKind) (sc : Scope),
     let base := s.wft.kpair ka.toNat
     let len := (s.wft.kreg kb.toNat).toNat
     let vi := s.viOf s.iss.blk
     let e : SealEnt := { asn := s.asnOf s.iss.blk, base := base.toNat % 2 ^ 57, len := len }
     (Issues .memory [] [] s → ∃ t, exec (.fence k sc) s = .next t ∧ LeavesWait s t (.fence k sc)) ∧
     (Issues .sync [] [(ka.toNat, 1)] s →
       ∃ t, exec (.evsig ka) s = .next t ∧ LeavesWait s t (.evsig ((s.wft.kreg ka.toNat).toNat % 2 ^ 16))) ∧
     (Issues .memory [] [(ka.toNat, 2), (kb.toNat, 1)] s →
       (sc ≠ .blk → len ≠ 0 → ∃ t, exec (.cwb ka kb sc) s = .next t ∧ LeavesWait s t (.cwb sc base.toNat len)) ∧
       (sc = .blk ∨ len = 0 → ∃ t, exec (.cwb ka kb sc) s = .next t ∧ LanesDo s t fun _ x => x.past s) ∧
       (rangeCond base len = none →
         (sealsTaken s vi < 256 →
           ∃ t, exec (.sealLines ka kb) s = .next t ∧ LeavesWait s t (.sealOp e.base len)) ∧
         (256 ≤ sealsTaken s vi →
           exec (.sealLines ka kb) s = .next (trapAll (noteIssue s) (sealCond base 2))) ∧
         (e ∈ (s.viface vi).seals →
           ∃ t, exec (.unsealLines ka kb) s = .next t ∧
             LanesDo s { t with ops := s.ops, nextOp := s.nextOp, vis := s.vis }
               (fun _ x => { x with hold := some s.nextOp }.past s) ∧
             (t.viface vi).seals = (s.viface vi).seals.erase e ∧
             t.op? s.nextOp = some { issuedOp s {} [] (laneMask s.iss.lanes) with kind := .unsealOp e.base len }) ∧
         (e ∉ (s.viface vi).seals →
           exec (.unsealLines ka kb) s = .next (trapAll (noteIssue s) (sealCond base 3)))))) ∧
  (∀ (s : State) (kd ka : KReg) (x : Nat) (u : State),
     let vi := s.viOf s.iss.blk
     let core := (s.block s.iss.blk).core
     let m := Memory.write [] 0 64 x
     let code := ticketCode s vi (s.wft.kreg ka.toNat).toNat
     (Issues .memory [] [(ka.toNat, 2)] s → lanesPending s = false → ticketsFull s vi = false →
       installsOf s (domOf core) < 64 → missStall s [(s.wft.kpair ka.toNat).toNat] = false →
       descRead s core (s.wft.kpair ka.toNat) = (.ok (.ok (x, none)), u) →
       firstBreach (installChecks m (ticketBusy s vi)) = none →
       ∃ t id, exec (.pinstall ka) s = .next t ∧
         (∀ l ∈ s.iss.lanes, t.thread s.iss.blk s.iss.weft l =
           { (noteIssue s).thread s.iss.blk s.iss.weft l with hold := some id }.past s) ∧
         ((t.op? id).map MemOp.kind) = some (.install (m.read 0 8) (m.read 8 8) (m.read 0x10 8) (m.read 0x18 4)
           (m.read 0x1C 4) (m.read 0x20 2))) ∧
     (Issues .memory [] [(kd.toNat, 1), (ka.toNat, 1)] s →
       (code = 2 ∨ code = 9 → ∃ t, exec (.pstatus kd ka) s = .next t ∧
         WeftDoes s t ((noteIssue s).wft.setK kd.toNat (BitVec.ofNat 32 code))) ∧
       (code ≠ 2 → code ≠ 9 → ∃ t, exec (.pstatus kd ka) s = .next t ∧
         t.wft = (noteIssue s).wft.setK kd.toNat (BitVec.ofNat 32 code) ∧
         (∀ l ∈ s.iss.lanes, t.thread s.iss.blk s.iss.weft l =
           { (noteIssue s).thread s.iss.blk s.iss.weft l with hold := some s.nextOp }.past s) ∧
         ((t.op? s.nextOp).map MemOp.kind) = some (.fence .acq .dom)))) ∧
  (∀ (s : State) (ka kb : KReg),
     let base := s.wft.kpair ka.toNat
     let len := (s.wft.kreg kb.toNat).toNat
     (Issues .memory [] [(ka.toNat, 2), (kb.toNat, 1)] s → ∀ i ∈ ([.sealLines ka kb, .unsealLines ka kb] : List Instr),
       (base.toNat % 65536 ≠ 0 ∨ len = 0 ∨ len % 65536 ≠ 0 →
         exec i s = .next (trapAll (noteIssue s) { cause := .misalign, addr := base.toNat, info := 8 })) ∧
       (base.toNat % 65536 = 0 → len ≠ 0 → len % 65536 = 0 →
         canonical base = false ∨ canonical (base + BitVec.ofNat 64 len - 1) = false →
         exec i s = .next (trapAll (noteIssue s)
           { cause := .translate, reason := 4, addr := base.toNat, info := 8 }))) ∧
     (let vi := s.viOf s.iss.blk
       let core := (s.block s.iss.blk).core
       Issues .memory [] [(ka.toNat, 2)] s → lanesPending s = false → ticketsFull s vi = false →
       installsOf s (domOf core) < 64 → missStall s [base.toNat] = false →
       (∀ l ∈ s.iss.lanes, (s.lane l).tst = .run) →
       (canonical base = false → exec (.pinstall ka) s = .next (trapAll (noteIssue s)
         { cause := .translate, reason := 4, addr := base.toNat, info := 8 })) ∧
       (canonical base = true → base.toNat % 64 ≠ 0 → exec (.pinstall ka) s = .next (trapAll (noteIssue s)
         { cause := .misalign, addr := base.toNat, info := 8 })) ∧
       (∀ x u, descRead s core base = (.ok (.ok (x, none)), u) → u.grids = s.grids →
         let m := Memory.write [] 0 64 x
         (∀ o, firstBreach (installChecks m (ticketBusy s vi)) = some o → ∃ t, exec (.pinstall ka) s = .next t ∧
           ∀ l ∈ s.iss.lanes, Trapped s t l { cause := .mxparam, addr := base.toNat, info := o }) ∧
         (m.read 0 8 % 65536 ≠ 0 → firstBreach (installChecks m (ticketBusy s vi)) = some 0) ∧
         (m.read 0 8 % 65536 = 0 → m.read 8 8 % 256 = 0 → m.read 0x10 8 % 65536 = 0 → m.read 0x10 8 ≠ 0 →
           m.read 0x10 8 ≤ 4294967296 → ticketBusy s vi (m.read 0x18 4) = true →
           firstBreach (installChecks m (ticketBusy s vi)) = some 0x18))))

/-- R447 to R449: WRED of a member of a group puts the issue set's combined value into the member's next round,
leaves the write of vd outstanding, and lets the lanes go on. -/
def Obligations.CollectiveContribution : Prop :=
  ∀ (s : State) (d a : VReg) (op : RedOp) (ty : RedType) (g : BitVec 4) (x : Group),
    let n := if ty = .f64 then 2 else 1
    let gid := (s.block s.iss.blk).gid
    let rank := (s.block s.iss.blk).lin - x.first
    let v := contribution s op ty a.toNat
    let rs : List Regs := [(d.toNat, n), (a.toNat, n)]
    Issues .sync rs [] s → s.iss.handler = false → wredBusy s = false →
    memberCond s s.iss.blk s.iss.weft g.toNat x = none → Sp.find? (s.grid gid).groups g.toNat = some x → x.breach = none →
    ∃ t y rd, exec (.wred d a op ty g) s = .next t ∧ LanesPast s t ∧ (t.block s.iss.blk).raced = true ∧
      Sp.find? (t.grid gid).groups g.toNat = some y ∧ y.next = Sp.put x.next rank (Sp.get 0 x.next rank + 1) ∧
      Sp.find? y.rounds (Sp.get 0 x.next rank) = some rd ∧ Sp.find? rd.parts rank = some (v.bits, v.flags) ∧
      ((t.op? s.nextOp).map fun o => (o.kind, o.acc.dest, o.acc.size)) =
        some (.wred g.toNat (Sp.get 0 x.next rank) rank, d.toNat, 4 * n)

/-! ## The steps of the device -/

/-- R157 to R163, R199 to R204, R370, R403, R435, R436: the steps of blocks and launches. A draining block whose
work is done leaves a phase record and is QUEUED for its next phase, with no thread left on the core; a block whose
every lane is over retires; a block is handed, and placed at its launch state; a cluster changes its mode; a grid
whose shares are met completes; an ended launch holds no block that is neither RETIRED nor LOST, which is the
model's choice (log 94). -/
def Obligations.BlockSteps : Prop :=
  ∀ (s : State) (b gid d : Nat),
    let k := s.block b
    let g := s.grid k.gid
    (∀ u base v, k.bst = .draining → workDone s b = true → atYield s b = true → g.ended = false → g.book = none →
      releaseTry s k.core .dom = .ok u →
      let len := phaseLen (u.launch b) true
      freeUnits (u.setBlock b { k with record := none }) g.vi (domOf k.core) (unitsOf len) = some base →
      putArea u base len (tagged u len (phaseRecord u b true)) (phaseBad u b true) = .ok v →
      ∃ t, exec (.phaseEnd b) s = .next t ∧ (t.block b).bst = .queued ∧ (t.block b).phase = k.phase + 1 ∧
        ((t.block b).record.map fun a => (a.dom, a.base, a.len)) = some (domOf k.core, base, len) ∧
        (t.block b).hand = none ∧ (t.block b).spm = [] ∧ (t.block b).bars = [] ∧
        (∀ w < (s.launch b).wefts,
          (t.weft b w).wst = if (s.weft b w).wst = .finished then .finished else .released) ∧
        ∀ w < 128, ∀ l < 32, Sp.find? t.threads (tkey b w l) = none) ∧
    (∀ u, k.bst = .resident → (∀ w < (s.launch b).wefts, ∀ l < 32, (s.thread b w l).tst.over = true) →
      workDone s b = true → g.ended = false → g.book = none → releaseTry s k.core .dom = .ok u →
      ∃ t, exec (.blockRetire b) s = .next t ∧ (t.block b).bst = .retired ∧ (t.block b).record = none ∧
        (t.block b).spm = [] ∧
        Sp.get 0 (t.grid k.gid).counted k.countDom = Sp.get 0 g.counted k.countDom + 1) ∧
    (∀ st lin x h u, Sp.find? s.grids gid = some x → x.live = true → x.book = none → handHead s gid st = some (lin, none) →
      hintOf s gid st lin = .ok (h, u) → handTo u gid st h = some d →
      ∃ t, exec (.handBlock gid st) s = .next t ∧
        t.block s.nextBlk = { gid := gid, stage := st, lin := lin, hand := some d, countDom := d } ∧
        t.nextBlk = s.nextBlk + 1 ∧ (t.grid gid).nextLin = x.nextLin.set st (lin + 1)) ∧
    (∀ core spots, ((queueOrder s).filterMap (queueChoice s d)).head? = some (.place b core spots) →
      k.bst = .queued → k.record = none → k.area = none → k.left = none → (switchCore s core g.vi).1 = true →
      acquireReady s (domOf core) g.scope = true → (s.launch b).width ≤ 32 →
      ∃ t, exec (.placeBlock d) s = .next t ∧ (t.block b).bst = .resident ∧ (t.block b).core = core ∧
        (t.block b).hand = none ∧ (t.block b).spm = [] ∧
        ∀ w < (s.launch b).wefts, ∀ i < (s.launch b).width,
          t.thread b w i = if w * (s.launch b).width + i < (s.launch b).threads then
            { tst := .run, pc := (s.launch b).code } else {}) ∧
    (∀ cl, (s.domain d).conv = none →
      (mustUnfuse s d cl = true →
        ∃ t, exec (.clusterConvert d cl) s = .next t ∧ (t.domain d).conv = some (cl, false)) ∧
      (mustUnfuse s d cl = false → (∃ q ∈ queueOrder s, stuckHead s d q = true ∧ clusterFor s d q = some cl) →
        ∃ t, exec (.clusterConvert d cl) s = .next t ∧ (t.domain d).conv = some (cl, !(s.domain d).fused.contains cl))) ∧
    (∀ cl fuse, (s.domain d).conv = some (cl, fuse) → (∀ c, (s.core c).l1 = []) →
      ∃ t, exec (.clusterConvertDone d cl) s = .next t ∧ (t.domain d).conv = none ∧
        (t.domain d).fused.contains cl = fuse ∧ ∀ i < 4, (t.core (d * 40 + cl * 4 + i)).l1 = []) ∧
    (∀ x bk, Sp.find? s.grids gid = some x → x.mill = none → x.complete = false → sharesMet s gid = true →
      x.book = some bk →
      exec (.gridComplete gid) s = .next ((closeBook s x.vi x.asn bk).setGrid gid { x with book := none })) ∧
    (∀ x u, Sp.find? s.grids gid = some x → x.mill = none → x.complete = false → sharesMet s gid = true →
      x.book = none → (s.viface x.vi).puts = [] → releaseCores x.cores x.scope s = (true, u) →
      ∃ t, exec (.gridComplete gid) s = .next t ∧ (t.grid gid).complete = true ∧ (t.grid gid).book = none ∧
        ∀ c, (u.block c).gid = gid → (t.block c).record = none) ∧
    (∀ x, Sp.find? s.grids gid = some x → x.complete = false → x.ended = false →
      ∃ t, exec (.gridEnd gid) s = .next t ∧ (t.grid gid).ended = true ∧ (t.grid gid).status = some { code := 0x14 } ∧
        ∀ c y, Sp.find? t.blocks c = some y → y.gid = gid → y.bst = .retired ∨ y.bst = .lost)

/-- R356 to R359, R365 to R373, R457, R462: the steps of queues and their graphs. A doorbell of the queue's
function takes a TAIL within the queue's size; an entry at HEAD that passes its checks becomes the graph; a graph
that passes starts with the nodes that have no predecessor ready; a graph that is over, once its release is done
and its record written, leaves the queue, its HEAD one further. The numbering of the doorbells of the functions,
the discard of one of a queue that is not bound to the function, and the register writes of a function that does
not hold the queue are the model's choices (log 147, log 148). -/
def Obligations.QueueSteps : Prop :=
  ∀ (s : State) (q vi v : Nat),
    let x := s.queue q
    (ownsQueue s vi q = true → x.enable = true → s.cycle = {} →
      ((v + 2 ^ 32 - x.head) % 2 ^ 32 ≤ 2 ^ x.sizeLog →
        ∃ t, exec (.queueDoorbell (vi * 65536 + q) v) s = .next t ∧ t.queue q = { x with tail := v % 2 ^ 32 }) ∧
      (2 ^ x.sizeLog < (v + 2 ^ 32 - x.head) % 2 ^ 32 →
        ∃ t, exec (.queueDoorbell (vi * 65536 + q) v) s = .next t ∧ t.queue q = { x with err := x.err ||| 1 })) ∧
    (ownsQueue s vi q = true → x.enable = false →
      ∃ t, exec (.queueDoorbell (vi * 65536 + q) v) s = .next t ∧ t.queue q = { x with err := x.err ||| 2 }) ∧
    (q < 65536 → ownsQueue s vi q = false → ∃ t, exec (.queueDoorbell (vi * 65536 + q) v) s = .next t ∧ t.queues = s.queues) ∧
    (∀ m u, x.enable = true → x.graph = none → x.head ≠ x.tail →
      devRead s x.vi x.asn (x.base + 64 * (x.head % 2 ^ x.sizeLog)) 64 = .ok (m, u) → firstBreach (entryChecks m) = none →
      ∃ t, exec (.queueEntry q) s = .next t ∧ (t.queue q).graph = some { entry := m }) ∧
    (∀ g nodes table u w,
      let n := g.entry.read 4 2
      x.graph = some g → g.started = false → countersUsed s x.vi + n ≤ 262144 →
      devRead s x.vi x.asn (g.entry.read 8 8) (64 * n) = .ok (nodes, u) →
      devRead u x.vi x.asn (g.entry.read 0x10 8) (2 * g.entry.read 0x18 4) = .ok (table, w) →
      (∀ i < n, nodeBreach (nodeBytes nodes i) table i n (g.entry.read 0x18 4) (bodyRanges nodes n i) = none) →
      ∃ t h, exec (.graphStart q) s = .next t ∧ (t.queue q).graph = some h ∧ h.started = true ∧
        h.book = bookArmed (w.viface x.vi) ∧
        h.ready = (List.range n).filter fun i => (parseNode (nodeBytes nodes i) table).cnt == 0) ∧
    (∀ g, x.graph = some g → g.over = true →
      (g.covered = false →
        exec (.graphComplete q) s = .next ((bookUsed s x.vi g).modGraph q fun g => { g with covered := true })) ∧
      (g.covered = true → (s.viface x.vi).puts = [] → deviceQuietAt s g.scope = true →
        (∀ va, g.recordAt = some va → g.written < 4 → exec (.graphComplete q) s = .next (putRecord s q va g)) ∧
        (g.recordAt = none ∨ 4 ≤ g.written →
          ∃ t, exec (.graphComplete q) s = .next t ∧ (t.queue q).graph = none ∧
            (t.queue q).head = (x.head + 1) % 2 ^ 32))) ∧
    (ownsQueue s vi q = true → x.enable = false → x.head = x.tail →
      (v % 64 = 0 → ∃ t, exec (.qcfgWrite vi q 0 v) s = .next t ∧ t.queue q = { x with base := v % 2 ^ 64 }) ∧
      (∃ t, exec (.qcfgWrite vi q 12 v) s = .next t ∧ t.queue q = { x with asn := v % 2 ^ 16 }) ∧
      (4 ≤ v / 16 % 32 → v / 16 % 32 ≤ 16 → (if vi = 64 then v / 2 ^ 16 % 128 else x.vi) ≤ 64 →
        ∃ t, exec (.qcfgWrite vi q 8 v) s = .next t ∧
          t.queue q = { x with vi := if vi = 64 then v / 2 ^ 16 % 128 else x.vi, sizeLog := v / 16 % 32, enable := v.testBit 0 })) ∧
    (∃ t, exec (.evraise vi v) s = .next t ∧
      (s.waiters = [] → v % 2 ^ 16 ≠ 0 →
        Sp.get 0 (t.viface vi).events (v % 2 ^ 16) = min (Sp.get 0 (s.viface vi).events (v % 2 ^ 16) + 1) 0xFFFFFFFF)) ∧
    (∃ t, exec (.gdaybookWrite vi v) s = .next t ∧ (t.viface vi).gbookVa = v % 2 ^ 64 ∧
      (t.viface vi).gbookNext = some (v % 2 ^ 64)) ∧
    ((s.viface vi).gbookNext = some 0 →
      (∀ e ∈ s.queues, e.2.vi = vi → ∀ h, e.2.graph = some h → h.book = false) →
      (∀ b, (s.viface vi).gbook = some b →
        exec (.gdaybookArm vi) s =
          .next ((closeBook s vi 0 b).setVI vi { (closeBook s vi 0 b).viface vi with gbook := none })) ∧
      ((s.viface vi).gbook = none → (s.viface vi).puts = [] →
        ∃ t, exec (.gdaybookArm vi) s = .next t ∧ (t.viface vi).gbook = none ∧ (t.viface vi).gbookNext = none))

/-- R196, R318, R361 to R367, R370, R371: the steps of nodes. A ready node of its kind starts: a KERNEL or MILL
node with a launch of its queue's address space, or with why that is refused; a COPY node moves its bytes from the
first on, and ends with the last; an INSTALL node leaves a ticket entry for its descriptor, or ends with why not; a
COND and a LOOP take their way by their predicate; an EVENT raises its event; a WAIT waits until its event's
counter reaches its threshold; a LOOP re-arms; a node with its outcome completes. That the bytes of a COPY move in
pieces of at most 64, none across a 64-byte boundary of either end, is the model's choice (log 185). -/
def Obligations.NodeSteps : Prop :=
  ∀ (s : State) (q n : Nat),
    let x := s.queue q
    let y := s.node q n
    let runs := fun t : State => (t.node q n).nst = .running ∧ ∀ h, (t.queue q).graph = some h →
      ∀ g, x.graph = some g → h.ready = g.ready.erase n
    (∀ e ∈ ([(1, .kernelNode q n, launchGrid), (2, .millNode q n, launchMill)] :
        List (Nat × Instr × (State → Nat → Nat → Nat → Nat × Nat → DevRes (Except Refused Nat × State)))),
      startable s q n e.1 = true →
      (∀ gid u, e.2.2 s x.vi x.asn (y.f 0x10 8) (q, n) = .ok (.ok gid, u) → u.queues = s.queues →
        ∃ t, exec e.2.1 s = .next t ∧ runs t ∧ (t.node q n).res = none ∧
          (t.grid gid).node = (q, n) ∧ (t.grid gid).vi = x.vi ∧ (t.grid gid).asn = x.asn ∧
          ((t.grid gid).mill.isSome = true ↔ e.1 = 2) ∧ (t.grid gid).complete = false ∧ (t.grid gid).ended = false) ∧
      (∀ code addr u, e.2.2 s x.vi x.asn (y.f 0x10 8) (q, n) = .ok (.error (code, addr), u) → u.queues = s.queues →
        ∃ t, exec e.2.1 s = .next t ∧ runs t ∧ (t.node q n).res = some (code, addr)) ∧
      (y.f 0x10 8 % 64 ≠ 0 → ∃ t, exec e.2.1 s = .next t ∧ runs t ∧ (t.node q n).res = some (3, y.f 0x10 8)) ∧
      (∀ va u, e.2.2 s x.vi x.asn (y.f 0x10 8) (q, n) = .fault va u → u.queues = s.queues →
        ∃ t, exec e.2.1 s = .next t ∧ runs t ∧ (t.node q n).res = some (3, va))) ∧
    (∀ u v w, startable s q n 3 = true ∨ (startable s q n 3 = false ∧ runningNode s q n 3 = true) →
      let r := if startable s q n 3 = true then startNode s q n else s
      let pos := if startable s q n 3 = true then 0 else y.pos
      let k := min (y.f 0x20 8 - pos) (min (64 - (y.f 0x18 8 + pos) % 64) (64 - (y.f 0x10 8 + pos) % 64))
      pos < y.f 0x20 8 →
      devGet r x.vi x.asn (y.f 0x18 8 + pos) k = .ok (v, u) →
      devPut u x.vi x.asn (y.f 0x10 8 + pos) k v = .ok w → w.queues = r.queues →
      ∃ t, exec (.copyNode q n) s = .next t ∧ (t.node q n).nst = .running ∧ (t.node q n).pos = pos + k ∧
        (t.node q n).res = (if pos + k = y.f 0x20 8 then some (0, 0) else none) ∧ t.mem = w.mem) ∧
    (startable s q n 4 = true →
      let r := startNode s q n
      let desc := y.f 0x10 8
      (desc % 64 ≠ 0 → ∃ t, exec (.installNode q n) s = .next t ∧ runs t ∧ (t.node q n).res = some (0x32, desc)) ∧
      (desc % 64 = 0 →
        (∀ va u, devRead r x.vi x.asn desc 64 = .fault va u → u.queues = r.queues →
          ∃ t, exec (.installNode q n) s = .next t ∧ runs t ∧ (t.node q n).res = some (0x32, va)) ∧
        (∀ m u, devRead r x.vi x.asn desc 64 = .ok (m, u) → u.queues = r.queues →
          (∀ o, firstBreach (installChecks m (ticketBusy u x.vi)) = some o →
            ∃ t, exec (.installNode q n) s = .next t ∧ runs t ∧ (t.node q n).res = some (0x33, o)) ∧
          (firstBreach (installChecks m (ticketBusy u x.vi)) = none → ticketsFull u x.vi = false →
            ∃ t, exec (.installNode q n) s = .next t ∧ runs t ∧ (t.node q n).res = none ∧ (t.node q n).pos = 1 ∧
              (t.viface x.vi).tickets.getLast? = some { parseInstall m x.asn with node := some (q, n) }))))  ∧
    (∀ v u, startable s q n 5 = true → ((x.graph.map Graph.book) = some false) → predicate s q n = .ok (some v, u) →
      u.queues = s.queues →
      ∃ t, exec (.condNode q n) s = .next t ∧ (t.node q n).res = some (0, 0) ∧ (t.node q n).nst = .running ∧
        (t.node q n).takesA = decide (v ≠ 0)) ∧
    (∀ v u, startable s q n 6 = true → ((x.graph.map Graph.book) = some false) → predicate s q n = .ok (some v, u) →
      u.queues = s.queues →
      ∃ t, exec (.loopNode q n) s = .next t ∧
        (v ≠ 0 → y.iter < y.f 0x1E 2 → (t.node q n).nst = .rearm) ∧
        (v = 0 ∨ y.f 0x1E 2 ≤ y.iter → (t.node q n).res = some (0, 0) ∧ (t.node q n).takesA = false)) ∧
    (∀ g, x.graph = some g → g.stopped = false → y.nst = .rearm →
      (∀ m, y.f 0x20 2 ≤ m → m ≤ y.f 0x22 2 →
        (s.node q m).nst ≠ .ready ∧ (s.node q m).nst ≠ .running ∧ (s.node q m).nst ≠ .rearm) →
      ∃ t, exec (.loopRearm q n) s = .next t ∧ (t.node q n).iter = y.iter + 1) ∧
    (let ev := y.f 0x10 2
      let cnt := Sp.get 0 (s.viface x.vi).events ev
      (startable s q n 7 = true → ∃ t, exec (.eventNode q n) s = .next t ∧ runs t ∧ (t.node q n).res = some (0, 0) ∧
        (s.waiters = [] → ev ≠ 0 → Sp.get 0 (t.viface x.vi).events ev = min (cnt + 1) 0xFFFFFFFF) ∧
        ∀ v e, (v, e) ≠ (x.vi, ev) → s.waiters = [] →
          Sp.get 0 (t.viface v).events e = Sp.get 0 (s.viface v).events e) ∧
      (startable s q n 8 = true → s.cycle.joined = false →
        (s.waiters = [] → y.f 0x14 4 ≤ cnt →
          ∃ t, exec (.waitNode q n) s = .next t ∧ runs t ∧ (t.node q n).res = some (0, 0) ∧ t.waiters = [] ∧
            Sp.get 0 (t.viface x.vi).events ev = if (y.f 0x12 1).testBit 0 = true then cnt - y.f 0x14 4 else cnt) ∧
        ((q, n) ∉ s.waiters → cnt < y.f 0x14 4 →
          ∃ t, exec (.waitNode q n) s = .next t ∧ (t.node q n).nst = .running ∧ (t.node q n).res = none ∧
            t.waiters.getLast? = some (q, n)))) ∧
    (∀ code addr, y.nst = .running → y.res = some (code, addr) → (y.releases = true → deviceQuiet s = true) →
      (code = 0 →
        exec (.nodeComplete q n) s = .next (decrementAll (s.setNode q n { y with nst := .done }) q n
          (if y.f 0 1 = 5 then (if y.takesA then y.listA else y.listB) else if y.f 0 1 = 6 then y.listB else y.listA))) ∧
      (code ≠ 0 → (y.f 1 1).testBit 0 = false → ∀ g, x.graph = some g → g.status = 0 →
        ∃ t h, exec (.nodeComplete q n) s = .next t ∧ (t.queue q).graph = some h ∧ h.stopped = true ∧ h.status = 1 ∧
          h.node = n ∧ h.detail = code ∧ h.addr = addr))

/-- R25, R126 to R134, R180, R219, R220, R250, R252 to R257, R259, R262, R286: the steps of an outstanding
operation. A walk translates a held access, and where the page's checks pass it stands ready for its place, at its
physical address; at its place an access of the scratchpad reads what stands there, and a store leaves its bytes,
and no other byte changes; a global store at WAF scope leaves its bytes at the home, and no other byte of main DRAM
changes; a global atomic answers what stood at the home and leaves its new value there; a finished operation writes
its results and retires from its counter; a fence whose actions are done frees its lanes. That a byte a DRAIN has
not written yet is read as it stands is the model's choice (log 167), and so is that an access waits for its walk
before its page is checked (log 41). -/
def Obligations.MemoryOperationSteps : Prop :=
  ∀ (s : State) (op l : Nat) (o : MemOp) (a : LaneAcc), s.op? op = some o →
    (o.lane? l = some a → a.st = .held → ∀ p u,
      translate s o.core (s.viOf o.blk) (s.asnOf o.blk) (a.addr % 2 ^ 57) o.acc.pageUse = (.ok p, u) →
      checkAccess u o a p = none → o.kind = .access → o.acc.space ≠ .spm → o.acc.space ≠ .cluster →
      u.ops = s.ops → u.threads = s.threads →
      ∃ t c, exec (.pageWalk op l) s = .next t ∧ ((t.op? op).bind fun o => o.lane? l) = some c ∧
        c.st = .ready (p.phys (a.addr % 2 ^ 57)) p.nc p.plate ∧ c.left = (if p.plate = true then 1 else a.left) ∧
        c.addr = a.addr ∧ c.data = a.data ∧ t.mem = u.mem ∧
        (o.acc.fn = .spill → (t.thread o.blk o.weft l).hold = none) ∧ (o.acc.fn ≠ .spill → t.threads = s.threads)) ∧
    (o.lane? l = some a → a.st = .held → o.acc.space = .spm ∨ o.acc.space = .cluster →
      spmCond o.acc o.acc.space.code a.addr ((o.target s).map fun b => (s.launch b).spm) = none →
      exec (.pageWalk op l) s =
        .next (setAcc s op { a with st := .ready a.addr false false, aux := (o.target s).getD 0 })) ∧
    (o.lane? (l % 32) = some a → o.kind = .access → o.acc.space = .spm → o.acc.releases = false → o.acc.acquires = false →
      ∀ pa nc plate, a.st = .ready pa nc plate → a.left = 1 → l < 32 → a.trip = .none → mustWait s op o a = false →
      (∀ i < o.acc.size, Sp.find? (s.block a.aux).spmBad ((a.addr + i) / 4) = none) →
      let old := (s.block a.aux).spm.read a.addr o.acc.size
      ∃ t c, exec (.homeAccess op l) s = .next t ∧ ((t.op? op).bind fun o => o.lane? (l % 32)) = some c ∧ c.st = .served ∧
        c.val = a.val ||| old ∧
        (∀ x, (t.block a.aux).spm.byte x =
          if o.acc.fn.writes = true ∧ a.addr ≤ x ∧ x < a.addr + o.acc.size then
            BitVec.ofNat 8 (accNew o.acc old a.data / 256 ^ (x - a.addr)) else (s.block a.aux).spm.byte x) ∧
        (∀ c, c ≠ a.aux → t.block c = s.block c) ∧ t.mem = s.mem ∧ t.threads = s.threads) ∧
    (o.lane? (l % 32) = some a → o.kind = .access → o.acc.space = .global → o.acc.order = .rlx →
      (∀ e ∈ s.vis, e.2.mig.status ≠ 1 ∧ e.2.mig.status ≠ 2) →
      ∀ pa plate, a.st = .ready pa false plate → a.left = 1 → l < 32 → a.trip = .none → homeOf pa = domOf o.core →
      mustWait s op o a = false → pa % 256 + o.acc.size ≤ 256 →
      (o.acc.fn = .store → o.acc.scope = .waf → o.acc.policy = .normal → o.acc.size ≤ 8 →
        homeReach s (domOf o.core) (lineOf pa) = .ok s →
        ∃ t c, exec (.homeAccess op l) s = .next t ∧ ((t.op? op).bind fun o => o.lane? (l % 32)) = some c ∧ c.st = .served ∧
          t.threads = s.threads ∧
          ∀ x, t.mem.byte x = if pa ≤ x ∧ x < pa + o.acc.size then BitVec.ofNat 8 (a.data / 256 ^ (x - pa)) else s.mem.byte x) ∧
      (∀ u, o.isAtomic = true → (s.grid (s.block o.blk).gid).book = none → atomPrepare s o.core (lineOf pa) = .ok u →
        u.homeBad pa o.acc.size = none → u.vis = s.vis → u.ops = s.ops → u.threads = s.threads →
        ∃ t c, exec (.homeAccess op l) s = .next t ∧ ((t.op? op).bind fun o => o.lane? (l % 32)) = some c ∧ c.st = .served ∧
          c.val = a.val ||| u.mem.read pa o.acc.size ∧ t.threads = s.threads ∧
          ∀ x, t.mem.byte x = if pa ≤ x ∧ x < pa + o.acc.size then
            BitVec.ofNat 8 (accNew o.acc (u.mem.read pa o.acc.size) a.data / 256 ^ (x - pa)) else u.mem.byte x)) ∧
    (opFinished s o = true → o.kind = .access → o.onLink = true →
      exec (.memComplete op) s = .next (retireEntry s op o o.acc.fn.counter)) ∧
    (opFinished s o = true → o.kind = .access → o.onLink = false →
      ∃ t, exec (.memComplete op) s = .next t ∧ t.op? op = none ∧ t.mem = s.mem ∧
        (o.acc.fn = .load → ∀ c, o.lanes = [c] → c.st = .served →
          t.thread o.blk o.weft c.lane = accWrite (s.thread o.blk o.weft c.lane) o.acc c.val)) ∧
    (∀ u, o.kind = .unsealed → opRelease s op o .waf = .ok u →
      exec (.fenceComplete op) s = .next (freeLanes u op o)) ∧
    (∀ k sc u, o.kind = .fence k sc → fenceTry s op o k sc = .ok u →
      exec (.fenceComplete op) s = .next (freeLanes u op o)) ∧
    (o.kind = .sealed → exec (.sealComplete op) s = .next (freeLanes s op o)) ∧
    (∀ base len, o.kind = .unsealOp base len →
      ∃ t, exec (.sealComplete op) s = .next t ∧ t.op? op = some { o with kind := .unsealed }) ∧
    (o.lane? l = some a → ∀ pa nc plate, a.st = .ready pa nc plate → o.acc.space = .host →
      ∀ h, hostPlace s pa = .host h →
      exec (.hostCompletionTimeout op l) s = .next (hostError s op o a h))

/-- R212, R220, R221, R232, R233, R354, R355, R440, R441, R455: the steps of domains and of address spaces. A
park-pending weft takes a free place; invalidations are accepted and applied in order, and one that is applied
leaves the line's remote copy no valid sector but those that hold dirty bytes, which stay as they are; keep marks
are cleared; an ASN is named and its root installed; an invalidation of translations leaves no entry that it names
in any TLB or walk cache of the partition; a hash mask changes with an empty L2; a page migrates, and its bytes are
read at its new frame. That the clean bytes beside dirty ones are read at home again, or their sector dropped, is
the model's choice (log 186), and the clauses leave it open. -/
def Obligations.AddressSpaceSteps : Prop :=
  ∀ (s : State) (d vi v line target bank : Nat),
    (∀ b w, parkedIn s d < 1024 → s.pendq.find? (fun x => domOf (s.block x.1).core == d) = some (b, w) →
      ∃ t, exec (.parkPendingAdmit d) s = .next t ∧ (t.weft b w).pending = false ∧
        t.faults = s.faults ++ [.weft b w] ∧ t.pendq = s.pendq.erase (b, w)) ∧
    (∀ i, (s.domain d).snoops.find? (fun i => i.line == line && i.target == target) = some i →
      exec (.invalidationAccept d line target) s =
        .next (s.setDomain d { s.domain d with snoops := (s.domain d).snoops.erase i })) ∧
    (∀ i, (s.domain d).snoops.find? (fun i => i.line == line && i.target == target) = none →
      (s.domain d).busy.find? (fun i => i.line == line && i.target == target) = some i → wayTo s d target = .crosses →
      (Sp.get [] (s.domain target).invq (bankOf s target line)).length < 64 →
      ∃ t, exec (.invalidationAccept d line target) s = .next t ∧ (t.domain d).busy = (s.domain d).busy.erase i ∧
        Sp.get [] (t.domain target).invq (bankOf s target line) =
          Sp.get [] (s.domain target).invq (bankOf s target line) ++ [line]) ∧
    (∀ q, Sp.get [] (s.domain d).invq bank = line :: q →
      ∃ t, exec (.invalidationApply d bank) s = .next t ∧ Sp.get [] (t.domain d).invq bank = q ∧ t.mem = s.mem ∧
        (s.remLine d line = none → t.remLine d line = none) ∧
        (∀ c, s.remLine d line = some c → c.dirty = 0 → t.remLine d line = some { c with valid := 0 }) ∧
        ∀ c, s.remLine d line = some c → ∃ c', t.remLine d line = some c' ∧ c'.dirty = c.dirty ∧
          (∀ i, c.dirty.testBit i = true → c'.data.byte i = c.data.byte i) ∧
          ∀ i, c'.valid.testBit i = true → c.valid.testBit i = true ∧ c.dirty / 2 ^ (64 * i) % 2 ^ 64 ≠ 0) ∧
    (∃ t, exec (.keepMarkClear d) s = .next t ∧ t.domain d = { s.domain d with keep := [] }) ∧
    (∃ t, exec (.asnroot vi 0 v) s = .next t ∧ (t.viface vi).regs.read 0x400 2 = v % 2 ^ 16 ∧
      (t.viface vi).roots = (s.viface vi).roots) ∧
    (∃ t, exec (.asnroot vi 8 v) s = .next t ∧
      Sp.get 0 (t.viface vi).roots ((s.viface vi).regs.read 0x400 2) = v % 2 ^ 64 ∧
      ∀ a, a ≠ (s.viface vi).regs.read 0x400 2 →
        Sp.get 0 (t.viface vi).roots a = Sp.get 0 (s.viface vi).roots a) ∧
    (v.testBit 31 = true →
      ∃ t, exec (.tlbinv vi v) s = .next t ∧ (t.viface vi).tlbinv = v % 2 ^ 18 + 2 ^ 31 ∧
        ∀ c ∈ s.domsOf vi, (∀ e ∈ (t.domain c).tlb, (invScope t vi).hits e = false) ∧
          ∀ e ∈ (t.domain c).walks, (invScope t vi).hitsWalk e = false) ∧
    (v.testBit 31 = false →
      ∃ t, exec (.tlbinv vi v) s = .next t ∧
        (t.viface vi).tlbinv = v % 2 ^ 18 + (s.viface vi).tlbinv / 2 ^ 30 * 2 ^ 30) ∧
    ((s.viface vi).tlbinv.testBit 31 = true → s.ops = [] → (∀ e ∈ s.cores, e.2.copies = []) →
      (∀ c, (s.core c).l1 = []) →
      ∃ t, exec (.tlbinvDone vi) s = .next t ∧ (t.viface vi).tlbinv = (s.viface vi).tlbinv % 2 ^ 18 + 2 ^ 30) ∧
    (∀ i < 4, (∀ e ∈ s.blocks, e.2.bst = .resident ∨ e.2.bst = .draining → domOf e.2.core ≠ d) →
      (s.domain d).remote = [] →
      ∃ t, exec (.l2hashWrite d i v) s = .next t ∧ (t.domain d).l2hash = (s.domain d).l2hash.set i (v % 2 ^ 44) ∧
        (t.domain d).remote = [] ∧ (t.domain d).plates = [] ∧ (t.domain d).keep = [] ∧ (t.domain d).invq = []) ∧
    ((s.viface vi).mig.status ≠ 1 → (s.viface vi).mig.status ≠ 2 →
      let old := (s.viface vi).regs.read 0x480 8
      let new := (s.viface vi).regs.read 0x488 8
      let sz := (s.viface vi).regs.read 0x490 4
      ∃ t, exec (.migrateStart vi) s = .next t ∧
        (t.viface vi).mig = { old := old, new := new, sz := sz, status := if migrateRefused s vi old new sz then 3 else 1 }) ∧
    (∀ m, (s.viface vi).mig = m → m.status = 1 → (∀ e ∈ s.domains, e.2.owned = []) → (s.domain (homeOf m.old)).busy = [] →
      wayTo s (homeOf m.old) (homeOf m.new) = .crosses →
      ∃ t, exec (.migrateCopied vi) s = .next t ∧ (t.viface vi).mig.status = 2 ∧
        (∀ i < 2 ^ szBits m.sz, s.mem.wf = true → t.mem.byte (m.new + i) = s.mem.byte (m.old + i)) ∧
        ∀ a, a < m.new ∨ m.new + 2 ^ szBits m.sz ≤ a → t.mem.byte a = s.mem.byte a) ∧
    (∀ u, (s.viface vi).mig.status = 2 → (s.viface vi).tlbinv.testBit 31 = false →
      purgeFrame s vi (s.viface vi).mig.old (2 ^ szBits (s.viface vi).mig.sz) = (true, u) →
      ∃ t, exec (.migrateFinish vi) s = .next t ∧ (t.viface vi).mig = { (s.viface vi).mig with status := 4 })

/-- R271 to R284, R289 to R312, R345, R346: the steps of the copy units, the weight banks and the matrix arrays. A
copy into the scratchpad writes the bytes of a piece at its place there and one to global memory at its home, and
the piece is then moved; a copy ends once all have moved. A LOADW leaves its slot with the weight of K index k in
column n at element 32 k + n of its source; a STREAM adds to each accumulator word the products of its row of
activations with the column, in the arithmetic of its formats; an ACCUM widens a row into the accumulators; a DRAIN
converts them, clears them where CLEAR says so, and ends with its STATUS; each byte it writes lands or is still to
land, and MX_COMPLETE lands the last and writes STATUS into the parameter block as the command retires. A page is
staged and its frame becomes VALID; a quarter is gated and wakes. That a STREAM tests its slot before its source's
place (log 47), that a copy moves its pieces in parts and in an order that the operand chooses (log 45), and that
the bytes of a DRAIN land one by one (log 167) are the model's choices. -/
def Obligations.EngineSteps : Prop :=
  (∀ (w : WSlot) (af n scale acc : Nat) (act : Nat → Nat), w.view.sparse = false →
    (mxGroup af = 2 → streamElem w af act n scale acc =
      (((acc : Int) + ((List.range w.view.kw).map fun k =>
        int8 af (act k) * int8 w.view.fmt (w.data.read (mxSize w.view.fmt * (32 * k + n)) (mxSize w.view.fmt))).sum) % 2 ^ 32).toNat) ∧
    (mxGroup af < 2 → w.view.scaled = false → w.view.kpass = 1 → streamElem w af act n scale acc =
      mxAdd acc (passSum ((List.range (mxPass w.view.fmt)).map fun k =>
        fProd (unpack (mxFmt af) (act k))
          (unpack (mxFmt w.view.fmt) (w.data.read (mxSize w.view.fmt * (32 * k + n)) (mxSize w.view.fmt))))))) ∧
  (∀ (c : MxCmd) (a : MxArray) (rows m n i : Nat), c.f 4 1 ≠ 7 → 32 * accSize (c.f 4 1) ≤ c.f 0xC 4 → m < rows → n < 32 →
    i < accSize (c.f 4 1) →
    Sp.find? (c.drainOut a rows) (c.f 8 4 + m * c.f 0xC 4 + accSize (c.f 4 1) * n + i) =
      some (BitVec.ofNat 8 (drainElem ((c.f 1 1).testBit 1) (c.f 4 1) (a.word (c.f 0x14 2 + m) n) / 256 ^ i))) ∧
  ∀ (s : State) (core slot part quarter : Nat),
    let a := s.array core part
    let c := (a.queue.head?).getD { blk := 0, weft := 0, op := 0, seq := 0, off := 0, par := [] }
    let spm := (s.block c.blk).spm
    (∀ x e es pa, s.copy? core slot = some x → x.fault = none → x.bar = none → x.pend = e :: es → x.open_ = [e] →
      e.live = true → e.refused = false → e.nc = false → e.pa = some pa → 0 < e.n → pa % 256 + e.n ≤ 256 →
      x.policy = .normal → (∀ y ∈ x.pend, sameSector x e y = true → sourceLost s core x pa false y = false) →
      (∀ v ∈ s.vis, v.2.mig.status ≠ 1 ∧ v.2.mig.status ≠ 2) → regionOf s pa = .dram → homeOf pa = domOf core →
      homeGate s (lineOf pa) = .ok s →
      (x.kind = .load → es ≠ [] → l2Gate s (domOf core) (lineOf pa) = .ok s →
        s.l1Line (sliceOf s core (lineOf pa)) (lineOf pa) = none →
        ∃ t, exec (.copyLand core slot 0) s = .next t ∧ t.copy? core slot = some { x with pend := es } ∧ t.mem = s.mem ∧
          ∀ i, (t.block x.blk).spm.byte i =
            if e.spm ≤ i ∧ i < e.spm + e.n then s.mem.byte (pa + (i - e.spm)) else (s.block x.blk).spm.byte i) ∧
      (x.kind = .store →
        ∃ t, exec (.copyLand core slot 0) s = .next t ∧ t.copy? core slot = some { x with pend := es } ∧
          t.blocks = s.blocks ∧
          ∀ i, t.mem.byte i =
            if pa ≤ i ∧ i < pa + e.n then (s.block x.blk).spm.byte (e.spm + (i - pa)) else s.mem.byte i)) ∧
    (∀ x, s.copy? core slot = some x → x.kind = .store → x.fault = none → x.pend = [] → x.bar = none →
      ∃ t, exec (.copyComplete core slot) s = .next t ∧ t.copy? core slot = none ∧ t.mem = s.mem ∧
        (t.weft x.blk x.weft).cp = countDone (s.weft x.blk x.weft).cp x.op) ∧
    (mxHead s core part 1 = some c → c.view.sparse = false → (s.block c.blk).was = [] →
      (c.f 2 1 = 1 → spmPoisoned s c.blk (c.f 8 4) c.view.bytes = false →
        ∃ t w, exec (.loadw core part) s = .next t ∧ Sp.find? (t.array core part).slots c.slot = some w ∧ w.valid = true ∧
          w.view = c.view ∧ w.wscale = c.f 0x10 4 ∧ ((t.array core part).queue.head?.map MxCmd.res) = some (some 0) ∧
          ∀ n < 32, w.column n = (List.range c.view.kw).map fun k =>
            (k, spm.read (c.f 8 4 + mxSize c.view.fmt * (32 * k + n)) (mxSize c.view.fmt))) ∧
      (∀ pa u frame f, c.f 2 1 = 0 → bankAddr s core c = (some (some pa), u) → u.blocks = s.blocks → u.array core part = a →
        frameOf u core (pa / 65536 * 65536) = some (frame, f) → f.valid = true → f.poisoned (pa % 65536) c.view.bytes = false →
        ∃ t w, exec (.loadw core part) s = .next t ∧ Sp.find? (t.array core part).slots c.slot = some w ∧ w.valid = true ∧
          w.view = c.view ∧ w.wscale = c.f 0x10 4 ∧ ((t.array core part).queue.head?.map MxCmd.res) = some (some 0) ∧
          ∀ n < 32, w.column n = (List.range c.view.kw).map fun k =>
            (k, f.data.read (pa % 65536 + mxSize c.view.fmt * (32 * k + n)) (mxSize c.view.fmt)))) ∧
    (mxHead s core part 2 = some c → (Sp.get {} a.slots c.slot).valid = false →
      ∃ t, exec (.stream core part) s = .next t ∧ ((t.array core part).queue.head?.map MxCmd.res) = some (some 4) ∧
        (t.array core part).acc = a.acc) ∧
    (∀ w, mxHead s core part 2 = some c → Sp.get {} a.slots c.slot = w → w.valid = true → c.f 2 1 = 1 →
      c.f 8 4 + (c.f 6 2 - 1) * c.f 0xC 4 + w.view.kw * mxSize (c.f 4 1) ≤ (s.launch c.blk).spm →
      (s.block c.blk).was = [] → (s.block c.blk).spmBad = [] → a.accBad = [] → c.f 4 1 ≠ 6 →
      let act := fun m k => spm.read (c.f 8 4 + m * c.f 0xC 4 + mxSize (c.f 4 1) * k) (mxSize (c.f 4 1))
      ∃ t, exec (.stream core part) s = .next t ∧ t.blocks = s.blocks ∧
        ((t.array core part).queue.head?.map MxCmd.res) = some (some 0) ∧
        (∀ m < c.f 6 2, ∀ n < 32, (t.array core part).word (c.f 0x14 2 + m) n =
          streamElem w (c.f 4 1) (act m) n (spm.read (c.f 0x10 4 + 4 * m) 4)
            (if (c.f 1 1).testBit 1 = true then 0 else a.word (c.f 0x14 2 + m) n) % 2 ^ 32) ∧
        ∀ r n, n < 32 → r < c.f 0x14 2 ∨ c.f 0x14 2 + c.f 6 2 ≤ r → (t.array core part).word r n = a.word r n) ∧
    (mxHead s core part 3 = some c → (s.block c.blk).was = [] → (s.block c.blk).spmBad = [] → a.accBad = [] → c.f 4 1 ≠ 7 →
      ∃ t, exec (.accum core part) s = .next t ∧ t.blocks = s.blocks ∧
        ((t.array core part).queue.head?.map MxCmd.res) = some (some 0) ∧
        (∀ m < c.f 6 2, ∀ n < 32, (t.array core part).word (c.f 0x14 2 + m) n =
          accumElem ((c.f 1 1).testBit 0) (c.f 4 1) (a.word (c.f 0x14 2 + m) n)
            (spm.read (c.f 8 4 + m * c.f 0xC 4 + accSize (c.f 4 1) * n) (accSize (c.f 4 1))) % 2 ^ 32) ∧
        ∀ r n, n < 32 → r < c.f 0x14 2 ∨ c.f 0x14 2 + c.f 6 2 ≤ r → (t.array core part).word r n = a.word r n) ∧
    (mxHead s core part 4 = some c → a.accBad = [] → c.f 4 1 ≠ 7 →
      ∃ t h, exec (.drain core part) s = .next t ∧ (t.array core part).queue.head? = some h ∧ h.res = some 0 ∧ t.mem = s.mem ∧
        (∀ x b, Sp.find? (c.drainOut a (c.f 6 2)) x = some b →
          Sp.find? h.land x = some b ∨ (Sp.find? h.land x = none ∧ (t.block c.blk).spm.byte x = b)) ∧
        (∀ x, Sp.find? (c.drainOut a (c.f 6 2)) x = none →
          Sp.find? h.land x = none ∧ (t.block c.blk).spm.byte x = spm.byte x) ∧
        ∀ r n, n < 32 → (t.array core part).word r n =
          if (c.f 1 1).testBit 0 = true ∧ c.f 0x14 2 ≤ r ∧ r < c.f 0x14 2 + c.f 6 2 then 0 else a.word r n) ∧
    (mxHead s core part 5 = some c → mxUndelivered s c.blk part = [] →
      exec (.signal core part) s = .next (mxEnd (barUpdate s c.blk (c.f 2 1) { arrivals := 1 }) core part 0)) ∧
    (∀ q st, a.queue = c :: q → c.res = some st → Sp.rising 0 c.land = true →
      ∃ t, exec (.mxComplete core part) s = .next t ∧ (t.array core part).queue = q ∧
        (t.block c.blk).spm.read (c.off + 0x3C) 4 = st % 2 ^ 32 ∧
        (∀ x, x < c.off + 0x3C ∨ c.off + 0x40 ≤ x →
          (t.block c.blk).spm.byte x = (Sp.find? c.land x).getD (spm.byte x)) ∧
        (t.weft c.blk c.weft).mx = countDone (s.weft c.blk c.weft).mx c.op) ∧
    (∀ p, bankNeed s core = some p → missFrame s core = some slot → wayTo s (domOf core) (homeOf p) = .crosses →
      ∃ t, exec (.weightStage core slot) s = .next t ∧
        (Sp.find? (t.core core).bank slot).map (fun f => (f.tag, f.valid)) = some (p, false) ∧ t.mem = s.mem) ∧
    (∀ f, Sp.find? (s.core core).bank slot = some f → f.valid = false → f.stale = false → f.lost = false → f.bad = none →
      ∃ t, exec (.weightStageDone core slot) s = .next t ∧
        Sp.find? (t.core core).bank slot = some { f with valid := true }) ∧
    ((s.domain (domOf core)).mxIdle ≠ 0 → a.queue = [] → quarter < 4 →
      ∃ t, exec (.mxPowerGate core part quarter) s = .next t ∧
        ∀ i, (t.array core part).gated.testBit i = (a.gated.testBit i || decide (i = quarter))) ∧
    (∀ q, a.queue = c :: q → c.f 0 1 ≠ 5 → a.gated.testBit quarter = true →
      ∃ t, exec (.mxWake core part quarter) s = .next t ∧
        ∀ i, (t.array core part).gated.testBit i = (a.gated.testBit i && decide (i ≠ quarter)))

/-- R340 to R351: the steps of the engraver and of flash. An accepted install has one queued page for each page of
its length, at the cost of the budget; a page is read, programmed into the next slot of a block, verified, and
switched: the plate map then names its slot with the next version, and once every L2 and bank has acknowledged none
holds the old one; a stopped install ends ABORTED; the live pages of a block are moved one by one, each with its
version, and a page stays where it is if no block can be had; a block whose every slot is stale is erased. That a
reclaim begins with one page and that the operand 2²⁴ + k then names the page that moves on, of which any may fail,
is the model's choice (log 165); so are the switch in two steps, of which another of the same page waits for the
second (log 115), and the names of several installs of one ticket (log 114). -/
def Obligations.PlateSteps : Prop :=
  ∀ (s : State) (vi ticket page fblk d : Nat) (x : Install) (p : InstPage),
    (∀ ps u, (s.viface vi).tickets.find? (fun t => t.code == 2 && t.accepted.isNone) = some x → x.ticket = ticket →
      destPages vi x (x.len / 65536) 0 s [] = .ok (some ps, u) → x.len ≤ (s.viface vi).ibudget →
      ∃ t y, exec (.installAccept vi ticket) s = .next t ∧ (t.viface vi).ibudget = (s.viface vi).ibudget - x.len ∧
        y ∈ (t.viface vi).tickets ∧ y.ticket = ticket ∧ y.pages = ps ∧ y.accepted = some s.nextOp) ∧
    (busyInstalls s vi ticket = [x] → (∀ y ∈ x.pages, y.pst.final = false ∧ y.pst ≠ .switching) → x.fail = none →
      ∃ t y, exec (.ticketAbort vi ticket) s = .next t ∧ (t.viface vi).tickets.getLast? = some y ∧ y.ticket = x.ticket ∧
        y.code = 8) ∧
    (pageOf s vi ticket page .queued = some (x, p) →
      (∀ y ∈ x.pages.take page, y.pst = .queued → homeOf y.dest ≠ homeOf p.dest) →
      ∀ w m u, sourceBad vi x.asn (sourceVas p.src) s = .ok (false, w) → x.skip = false →
      devRead w vi x.asn p.src 65536 = .ok (m, u) →
      exec (.engraveRead vi ticket page) s =
        .next (setTicket u vi x (x.withPage page { p with pst := .programming, data := m }))) ∧
    (pageOf s vi ticket page .programming = some (x, p) → fblk ∉ p.tried →
      fblk ∈ openBlocks (s.domain (homeOf p.dest)) p.tried →
      let f := (s.domain (homeOf p.dest)).fblock fblk
      ∃ t, exec (.engraveProgram vi ticket page fblk 1) s = .next t ∧
        Sp.find? (t.domain (homeOf p.dest)).flash (fblk * 64 + f.used) = some p.data ∧
        ((t.domain (homeOf p.dest)).fblock fblk).used = f.used + 1 ∧
        (t.domain (homeOf p.dest)).plateMap = (s.domain (homeOf p.dest)).plateMap) ∧
    (pageOf s vi ticket page .verifying = some (x, p) →
      exec (.engraveVerify vi ticket page 1) s = .next (setTicket s vi x (x.withPage page { p with pst := .switching }))) ∧
    (pageOf s vi ticket page .switching = some (x, p) → switchBlocked s x p = false → switchStep s p = .idle →
      p.keeps = false →
      let m := (s.domain (homeOf p.dest)).plateMap
      let old := ((Sp.find? m (platePage p.dest)).map PlateEnt.version).getD 0
      ∃ t, exec (.plateSwitch vi ticket page) s = .next t ∧
        (t.domain (homeOf p.dest)).plateMap = Sp.put m (platePage p.dest) { slot := p.slot, version := (old + 1) % 2 ^ 32 }) ∧
    (pageOf s vi ticket page .switching = some (x, p) → switchStep s p = .other → exec (.plateSwitch vi ticket page) s = .next s) ∧
    (pageOf s vi ticket page .switching = some (x, p) → switchStep s p = .written →
      ∃ t, exec (.plateSwitch vi ticket page) s = .next t ∧
        Sp.find? (t.domain (homeOf p.dest)).switching (platePage p.dest) = none ∧
        (t.domain (homeOf p.dest)).plateMap = (s.domain (homeOf p.dest)).plateMap ∧
        (∀ c, (s.partOf (homeOf p.dest)).testBit c = true → ∀ l ∈ (t.domain c).plates, l.1 / 256 ≠ p.dest / 65536) ∧
        ∀ c n f, (s.partOf (homeOf p.dest)).testBit (domOf c) = true → Sp.find? (t.core c).bank n = some f →
          f.valid = true → f.tag ≠ p.dest) ∧
    (∀ dst, fblk < 2 ^ 24 → (liveSlots (s.domain d) fblk).length < ((s.domain d).fblock fblk).used →
      pendingSlot s d fblk = false → nextMove (s.domain d) d fblk = some p →
      exec (.blockReclaim d fblk dst) s =
        .next (s.setDomain d { s.domain d with moves := (s.domain d).moves ++ [p] })) ∧
    (∀ dst k, (s.domain d).moves[k]? = some p →
      let barred := p.tried ++ [p.src / 64]
      let used := ((s.domain d).fblock dst).used
      (p.pst = .programming → dst ∈ openBlocks (s.domain d) barred →
        ∃ t, exec (.blockReclaim d (2 ^ 24 + k) dst) s = .next t ∧ (t.domain d).plateMap = (s.domain d).plateMap ∧
          (((t.domain d).fblock dst).retired = true ∨
            (((t.domain d).fblock dst).used = used + 1 ∧ Sp.find? (t.domain d).flash (dst * 64 + used) = some p.data ∧
              (t.domain d).moves[k]? = some { p with pst := .verifying, slot := dst * 64 + used }))) ∧
      (p.pst = .programming → openBlocks (s.domain d) barred = [] → anyFree (s.domain d) barred = false →
        canFree s d = false →
        exec (.blockReclaim d (2 ^ 24 + k) dst) s =
          .next (s.setDomain d { s.domain d with moves := (s.domain d).moves.eraseIdx k })) ∧
      (∀ e, p.pst = .switching → p.keeps = true → homeOf p.dest = d → switchStep s p = .idle →
        Sp.find? (s.domain d).plateMap (platePage p.dest) = some e → e.slot = p.src →
        ∃ t, exec (.blockReclaim d (2 ^ 24 + k) dst) s = .next t ∧
          (t.domain d).plateMap = Sp.put (s.domain d).plateMap (platePage p.dest) { e with slot := p.slot })) ∧
    (inService (s.domain d) fblk = true → 64 ≤ ((s.domain d).fblock fblk).used → liveSlots (s.domain d) fblk = [] →
      pendingSlot s d fblk = false → ((s.domain d).fblock fblk).wear + 1 < 5000 →
      ∃ t, exec (.blockErase d fblk 1) s = .next t ∧ ((t.domain d).fblock fblk).used = 0 ∧
        ((t.domain d).fblock fblk).wear = ((s.domain d).fblock fblk).wear + 1 ∧
        ((t.domain d).fblock fblk).retired = ((s.domain d).fblock fblk).retired)

/-- R317 to R339, R447 to R450, R456: the steps of mills, of the homes of their races, and of collectives. A mill
takes free race regions and cores, and starts; the head of a queue is granted the slot at the pointer; a commit and
a release end a weft's part in a slot; samples, steps and moves divide the cores anew; a complete round writes the
member's status word, and then its value in the member's lanes, and a tree is built. That the cores present at the
start are dealt out there and then (log 106), that the wafer's step follows every sixteenth interval of the lead
domain (log 107), and that the tree's root is the domain whose window is written and a tree serves the rounds that
waited for a first one (log 130) are the model's choices. -/
def Obligations.MillSteps : Prop :=
  ∀ (s : State) (gid d q core : Nat) (g : Grid) (m : Mill), s.grid gid = g → g.mill = some m →
    (m.started = false → g.ended = false → s.grids = [(gid, g)] → regionsFree s gid m = true → g.book = none →
      m.minc.sum ≤ (millCores s gid).length →
      ∃ t y, exec (.millStart gid) s = .next t ∧ (t.grid gid).mill = some y ∧ y.started = true ∧
        y.count = divide m (min (millCores s gid).length m.cores - m.minc.sum) m.minc ∧
        ∀ r ∈ m.races, (t.domain r.home).raceRegion = some gid) ∧
    (∀ held count, m.started = false → g.ended = false → s.grids = [(gid, g)] → regionsFree s gid m = true →
      dealCores s gid m = some (held, count) →
      ∃ t y, exec (.millStart gid) s = .next t ∧ (t.grid gid).mill = some y ∧ y.started = true ∧ y.held = held ∧
        y.count = count) ∧
    (∀ st, g.book = none → m.started = true → g.complete = false → g.ended = false → m.count.sum < m.cores →
      (millCores s gid).head? = some core → nextStage m m.count = some st →
      ∃ t y, exec (.millCoreJoin gid core) s = .next t ∧ (t.grid gid).mill = some y ∧
        Sp.find? y.held core = some st ∧ y.count = m.count.set st (m.count.getD st 0 + 1)) ∧
    (∀ r b w kd ys, m.races[q]? = some r → g.book = none → r.rst = .opened → r.canReserve = true → r.canReceive = false →
      r.eos = false → r.receivers = [] → r.reservers = raceReq b w kd :: ys → w < 128 → (s.block b).gid = gid →
      (s.weft b w).slots.length < 8 → raceAcquires s r (s.block b).core = true →
      ∃ t y, exec (.raceGrant gid q) s = .next t ∧
        ((t.grid gid).mill.bind fun m => m.races[q]?) = some y ∧
        Sp.find? y.slot r.rp = some { sst := .reserved, blk := b, weft := w } ∧ y.rp = (r.rp + 1) % r.slots ∧
        y.reservers = ys ∧
        (t.weft b w).slots = (s.weft b w).slots ++ [{ race := q, slot := r.rp, recv := false, addr := r.addr r.rp }] ∧
        (t.weft b w).kpair kd = (if kd = 0 then 0 else BitVec.ofNat 64 (r.addr r.rp))) ∧
    (∀ id o i r u, s.op? id = some o → (s.block o.blk).gid = gid → m.races[q]? = some r → r.rst = .opened →
      opRelease s id o (effScope r o.core) = .ok u → u.grids = s.grids → u.blocks = s.blocks →
      (o.kind = .commit q i →
        ∃ t y, exec (.commitComplete id) s = .next t ∧ t.op? id = none ∧
          ((t.grid gid).mill.bind fun m => m.races[q]?) = some y ∧
          Sp.find? y.slot i = some { sst := .committed, blk := o.blk, weft := o.weft }) ∧
      (o.kind = .relSlot q i →
        ∃ t y, exec (.releaseComplete id) s = .next t ∧ t.op? id = none ∧
          ((t.grid gid).mill.bind fun m => m.races[q]?) = some y ∧ Sp.find? y.slot i = none)) ∧
    (∀ bk, g.complete = false → (∀ st < g.stages.length, stageOver s gid st = true) → sharesMet s gid = true →
      g.book = some bk →
      exec (.millComplete gid) s = .next ((closeBook s g.vi g.asn bk).setGrid gid { g with book := none })) ∧
    (∀ u, g.complete = false → (∀ st < g.stages.length, stageOver s gid st = true) → sharesMet s gid = true →
      g.book = none → (s.viface g.vi).puts = [] → releaseCores g.cores g.scope s = (true, u) →
      ∃ t, exec (.millComplete gid) s = .next t ∧ (t.grid gid).complete = true ∧
        ∀ r ∈ m.races, (t.domain r.home).raceRegion ≠ some gid) ∧
    (∀ r, m.races[q]? = some r → m.decider d = true → g.complete = false →
      ∃ t y, exec (.occSample gid q d) s = .next t ∧ (t.grid gid).mill = some y ∧
        Sp.find? (Sp.get [] y.samples d) q = some r.slot.length) ∧
    (d < 64 → m.decider d = true → g.complete = false → sampled m d = true →
      ∃ t y, exec (.millwrightStep gid d) s = .next t ∧ (t.grid gid).mill = some y ∧
        Sp.get 0 y.intervals d = Sp.get 0 m.intervals d + 1 ∧ Sp.find? y.samples d = none ∧ y.count = m.count) ∧
    (m.started = true → g.complete = false → sampled m 64 = true →
      Sp.get 0 m.intervals 64 < Sp.get 0 m.intervals m.lead / 16 →
      ∃ t y, exec (.waferMillwrightStep gid) s = .next t ∧ (t.grid gid).mill = some y ∧
        Sp.get 0 y.intervals 64 = Sp.get 0 m.intervals 64 + 1 ∧ y.count = m.count) ∧
    (∀ v vs, m.moves = v :: vs → g.book = none → v.donor ≠ v.bneck → v.donor < m.count.length → v.bneck < m.count.length →
      m.minc.getD v.donor 0 < m.count.getD v.donor 0 → m.count.getD v.bneck 0 < m.maxc.getD v.bneck 0 →
      Sp.find? m.held v.core = some v.donor → Sp.find? m.departing v.core = none →
      ∃ t y, exec (.moveApply gid) s = .next t ∧ (t.grid gid).mill = some y ∧ y.moves = vs ∧
        y.count.getD v.donor 0 = m.count.getD v.donor 0 - 1 ∧ y.count.getD v.bneck 0 = m.count.getD v.bneck 0 + 1) ∧
    (∀ x rd n r id o, Sp.find? g.groups n = some x → Sp.find? x.rounds r = some rd → rd.ready s x.count = true ∨ rd.lost = true →
      s.ops = [(id, o)] → (s.block o.blk).gid = gid → o.kind = .wred n r q →
      (∀ u, q ∉ rd.told → devPut s g.vi g.asn (x.statva + 4 * q) 4 (r % 2 ^ 24 * 256 + rd.status) = .ok u →
        exec (.wredRoundResult gid n r q) s = .next (putRound u gid n r x { rd with told := rd.told ++ [q] })) ∧
      (∀ a op ty, q ∈ rd.told → acquireReady s (domOf (s.block o.blk).core) .waf = true → rd.status = 0 → o.lanes = [a] →
        RedOp.ofCode rd.op = some op → RedType.ofCode rd.ty = some ty →
        ∃ t, exec (.wredRoundResult gid n r q) s = .next t ∧ t.op? id = none ∧
          t.thread o.blk o.weft a.lane =
            takeResult (s.thread o.blk o.weft a.lane) o.acc.dest (ty == .f64) (rd.value op ty x.count))) ∧
    (∀ n dom, Sp.find? s.grids gid = some g → s.grids = [(gid, g)] → g.complete = false → s.physDomain g.vi d = some dom →
      ∃ t, exec (.ctreeBuild g.vi g.ident n d) s = .next t ∧
        Sp.find? (t.domain dom).ctree g.vi =
          some (((Memory.write [] 0 8 g.ident).write 8 1 n).write 9 1 d) ∧
        Sp.find? (t.grid gid).trees (n % 16) = some (treeFrom s (s.domsOf g.vi) 64 [(dom, dom)] [(dom, dom)]))

/-- R220, R385, R386, R391, R394, R397 to R403, R456: pre-emption and the answers to faults. A command is taken and
every block of its scope decided; a block past its budget is saved; a flushed block is QUEUED again and a saved one
is SAVED, each with its core free; a command is done once no block waits under it; an entry is popped, and
answered, by a message where its core is in another domain than its steward: its weft is ACTIVE again, and a copy
goes on or ends ABORTED at the address of its fault; a stale handle is counted. A parity error loses its line. That
an illegal command is discarded and counted in VFERR (log 119), and that the answer goes as a message from the lead
domain and only where the core lies in another (log 75 and 156), are the model's choices. -/
def Obligations.PreemptionAndFaultSteps : Prop :=
  ∀ (s : State) (b vi n : Nat),
    let k := s.block b
    ((readCommand s vi).legal vi = true →
      ∃ t, exec (.preemptCommand vi 1) s = .next t ∧
        Sp.find? t.cmds s.cmds.length = some (readCommand s vi) ∧
        ∀ x ∈ s.blocks, (readCommand s vi).covers s x.2 = true → s.cmds.length ∈ (t.block x.1).under) ∧
    ((readCommand s vi).legal vi = false → exec (.preemptCommand vi 1) s = .next (countErr s vi)) ∧
    (k.method = some .drain → k.bst = .resident →
      ∃ t, exec (.drainBudgetExpire b) s = .next t ∧ (t.block b).method = some .save ∧ (t.block b).stopped = true) ∧
    (k.method = some .flush → k.bst = .resident → (s.grid k.gid).book = none → workDone (discardHeld s b) b = true →
      ∃ t, exec (.flushRelease b) s = .next t ∧ (t.block b).bst = .queued ∧ (t.block b).phase = k.phase ∧
        (t.block b).left = some (domOf k.core) ∧
          (t.block b).spm = [] ∧ (t.block b).issues = 0 ∧ (t.block b).method = none ∧ (t.block b).under = [] ∧
        ∀ w < 128, ∀ l < 32, Sp.find? t.threads (tkey b w l) = none) ∧
    (∀ u base v, k.method = some .save → k.bst = .resident → (s.grid k.gid).book = none →
      opsDone (withdrawWaits s b) b = true →
      (∀ w < (s.launch b).wefts, overCaptured (withdrawWaits s b) b w = false) →
      releaseTry (withdrawWaits s b) k.core .dom = .ok u →
      let len := saveLen (u.launch b) (u.block b).pushed
      freeUnits u (u.viOf b) (domOf k.core) (unitsOf len) = some base →
      putArea u base len (tagged u len (saveArea u b)) (saveBad u b) = .ok v →
      ∃ t, exec (.saveWrite b) s = .next t ∧ (t.block b).bst = .saved ∧
        ((t.block b).area.map fun a => (a.dom, a.base, a.len)) =
          some (domOf k.core, base, len) ∧
        ∀ w < 128, ∀ l < 32, Sp.find? t.threads (tkey b w l) = none) ∧
    (∀ c, Sp.find? s.cmds n = some c → c.done = false → (∀ e ∈ s.blocks, n ∉ e.2.under) →
      ∃ t, exec (.preemptDone n) s = .next t ∧ Sp.find? t.cmds n = some { c with done := true }) ∧
    (∀ c, Sp.find? s.cmds n = some c → vi = 64 ∨ c.vi = vi →
      ∃ t, exec (.holdLift vi n) s = .next t ∧ Sp.find? t.cmds n = some { c with hold := false }) ∧
    (∀ f, List.find? (fun f => faultVI s f == vi && !s.popped.contains f) s.faults = some f →
      ∃ t, exec (.fqpop vi) s = .next t ∧ t.popped = s.popped ++ [f] ∧ (t.viface vi).fqLast = handleOf s f ∧
        t.faults = s.faults) ∧
    (List.find? (fun f => faultVI s f == vi && !s.popped.contains f) s.faults = none →
      ∃ t, exec (.fqpop vi) s = .next t ∧ (t.viface vi).fqLast = 0 ∧ t.popped = s.popped) ∧
    (answered s vi n = none →
      exec (.fqResume vi n) s = .next (countErr s vi) ∧ exec (.fqDeliver vi n) s = .next (countErr s vi) ∧
        exec (.fqAbort vi n) s = .next (countErr s vi)) ∧
    (∀ w, answered s vi n = some (.weft b w) → domOf (s.block b).core ≠ s.leadDom vi →
      ∀ x ∈ ([(.fqResume vi n, true), (.fqDeliver vi n, false), (.fqAbort vi n, false)] : List (Instr × Bool)),
        exec x.1 s = .next (sendMessage { s with nextMessage := s.nextMessage + 1 } s.nextMessage
          { part := vi, name := s.coreName (s.block b).core, src := s.leadDom vi, handle := n, resume := x.2 })) ∧
    (∀ w e, answered s vi n = some (.weft b w) → domOf (s.block b).core = s.leadDom vi → (s.weft b w).park = some e →
      (∃ t, exec (.fqResume vi n) s = .next t ∧ (t.weft b w).park = none ∧ FaultRef.weft b w ∉ t.faults ∧
        ((t.weft b w).wst = .active ∨ (t.weft b w).wst = .finished) ∧ t.threads = s.threads) ∧
      (e.kind = 1 → (s.weft b w).atIssue = true → e.cause ≠ Cause.integrity.code →
        ∀ i ∈ [Instr.fqDeliver vi n, .fqAbort vi n], ∃ t, exec i s = .next t ∧ (t.weft b w).park = none ∧
          FaultRef.weft b w ∉ t.faults ∧
          ∀ l < 32, (t.thread b w l).deliver =
            ((s.thread b w l).deliver || (e.issue.testBit l && !e.done.testBit l)))) ∧
    (∀ core slot x, answered s vi n = some (.engine core slot) → domOf core = s.leadDom vi → s.copy? core slot = some x →
      let a := (x.fault.map FqEntry.addr).getD x.addr
      (∃ t, exec (.fqResume vi n) s = .next t ∧ t.copy? core slot = some { x with fault := none } ∧
        FaultRef.engine core slot ∉ t.faults) ∧
      ∀ i ∈ [Instr.fqDeliver vi n, .fqAbort vi n],
        (x.bar = none →
          ∃ t, exec i s = .next t ∧ t.copy? core slot = none ∧ FaultRef.engine core slot ∉ t.faults ∧
            (t.weft x.blk x.weft).cp = countDone (s.weft x.blk x.weft).cp x.op ∧
            (t.weft x.blk x.weft).failures =
              (s.weft x.blk x.weft).failures ++ [{ cls := .copy, seq := x.seq, op := x.op, code := 1, addr := a }]) ∧
        (∀ m, x.bar = some m →
          ∃ u, exec i s = .next (barUpdate u x.blk m { arrivals := 1, fail := some (1, 1, a) }) ∧
            u.copy? core slot = none ∧ u.blocks = s.blocks ∧ FaultRef.engine core slot ∉ u.faults)) ∧
    (∀ core line c, (s.core core).l1 = [(line, c)] →
      ∃ t, exec (.l1TagParityError core line) s = .next t ∧ (t.core core).l1 = [] ∧ t.mem = s.mem ∧
        ∀ e ∈ s.onCore core, ∀ w < (s.launch e.1).wefts, (s.weft e.1 w).wst = .active → (s.weft e.1 w).park = none →
          (t.weft e.1 w).wst = .parked ∧
            ((t.weft e.1 w).park.map fun p => (p.kind, p.cause, p.reason, p.issue, p.done)) =
              some (1, Cause.integrity.code, 1, 0, 0))

/-- R395, R418 to R429, R433, R434, R460: the steps of the mesh, of names and of clocks. A link is retried,
degraded and taken down; a packet goes to the neighbour of its port, waits at a link that is paused, is delivered
in its partition or dropped; a table is armed, selected and drained by a token that goes from domain to domain;
ages rise; a name is claimed for a spare, which takes it where no claim crosses; a clock changes with a pause of
the links. A packet that is dropped, or that was to leave by a link that is taken down, is in no router any more,
and the access or the token that it carried is lost; one that is delivered is in no router either, and the access
it carried stands at its home or is back. That a refused VFCTL write leaves FCODE as it was (log 81), how OLDCNT
counts (log 77), which cores hold a name (log 79) and that a claim is a packet to every other domain (log 80) are
the model's choices. -/
def Obligations.FabricSteps : Prop :=
  ∀ (s : State) (d n p v tbl id : Nat),
    let x := s.domain d
    (neighbour d p = some n → 1 ≤ p → p ≤ 4 →
      (linkDown s d p = true ∨ linkPaused s d p = true → exec (.linkCrcFail (4 * d + p - 1) id) s = .next s) ∧
      (linkDown s d p = false → linkPaused s d p = false → Sp.get 0 x.retries p < 16 →
        ∃ t, exec (.linkCrcFail (4 * d + p - 1) id) s = .next t ∧
          Sp.get 0 (t.domain d).retries p = Sp.get 0 x.retries p + 1 ∧ (t.domain d).degraded.testBit (p - 1) = true ∧
          (t.domain d).down = x.down ∧ t.packets = s.packets) ∧
      (linkDown s d p = false → linkPaused s d p = false → 16 ≤ Sp.get 0 x.retries p →
        ∃ t, exec (.linkCrcFail (4 * d + p - 1) id) s = .next t ∧ (t.domain d).down.testBit (p - 1) = true ∧
          (t.domain n).down.testBit (opposite p - 1) = true ∧
          (∀ y, Sp.find? s.packets id = some y → y.cargo = .token → y.here = d → y.out s = some p →
            Sp.find? t.packets id = none ∧ t.drain = s.drain.map fun r => { r with moving := false }) ∧
          (∀ y, Sp.find? s.packets id = some y → y.here ≠ d ∨ y.out s ≠ some p → t.packets = s.packets ∧ t.ops = s.ops)) ∧
      (∃ t, exec (.linkTakeDown (4 * d + p - 1)) s = .next t ∧ (t.domain d).down.testBit (p - 1) = true ∧
        (t.domain n).down.testBit (opposite p - 1) = true ∧ t.packets = s.packets)) ∧
    (∀ y, Sp.find? s.packets id = some y → y.here = d → y.source = none → tableState x y.tbl ≠ 0 →
      let round := fun (s : State) (gid g r : Nat) => (Sp.find? (s.grid gid).groups g).bind fun x => Sp.find? x.rounds r
      let alone := ∀ gid g r k, y.cargo ≠ .part gid g r k
      let mine := y.out s = some p ∧ p ≠ 0 ∧ neighbour d p = some n ∧
        ∀ gid g r k, y.cargo = .part gid g r k → (round s gid g r).map Round.lost = some false
      let arrives := alone ∧ y.out s = some 0 ∧ y.mayReach s d = true
      (mine → linkDown s d p = false →
        (linkPaused s d p = false →
          ∃ t, exec (.packetForward d id) s = .next t ∧ t.ops = s.ops ∧
            Sp.find? t.packets id = some { y with here := n, port := opposite p }) ∧
        (linkPaused s d p = true → exec (.packetForward d id) s = .next s)) ∧
      (∀ gid g r k rd, y.cargo = .part gid g r k → round s gid g r = some rd →
        (rd.lost = true → ∃ t, exec (.packetForward d id) s = .next t ∧ Sp.find? t.packets id = none ∧ t.grids = s.grids) ∧
        (rd.lost = false → treePort s d gid g r = some 0 →
          ∃ t, exec (.packetForward d id) s = .next t ∧ Sp.find? t.packets id = none ∧
            round t gid g r = some { rd with onWay := rd.onWay.erase k }) ∧
        (rd.lost = false → treePort s d gid g r = none → exec (.packetForward d id) s = .next s)) ∧
      (mine ∧ linkDown s d p = true ∨ alone ∧ y.out s = some 0 ∧ y.mayReach s d = false →
        (∀ op l o a, y.cargo = .access → y.carries = some (op, l) → s.op? op = some o → o.lane? l = some a →
          (s.weft o.blk o.weft).park.isSome = true →
          ∃ t, exec (.packetForward d id) s = .next t ∧ Sp.find? t.packets id = none ∧
            (t.domain d).drops = min 1023 (x.drops + 1) ∧
            (((t.op? op).bind fun o => o.lane? l).map LaneAcc.trip) = some .lost) ∧
        (y.cargo = .token →
          ∃ t, exec (.packetForward d id) s = .next t ∧ Sp.find? t.packets id = none ∧
            (t.domain d).drops = min 1023 (x.drops + 1) ∧ t.drain = s.drain.map fun r => { r with moving := false })) ∧
      (arrives →
        (∀ op l o a, y.cargo = .access → y.carries = some (op, l) → s.op? op = some o → o.lane? l = some a →
          ∃ t, exec (.packetForward d id) s = .next t ∧ Sp.find? t.packets id = none ∧
            ((t.op? op).bind fun o => o.lane? l) = some { a with trip := if y.kind = 1 then .back else .atHome }) ∧
        (y.cargo = .token →
          ∃ t, exec (.packetForward d id) s = .next t ∧ Sp.find? t.packets id = none ∧
            t.drain = s.drain.map fun r => { r with here := d, moving := false }) ∧
        (∀ src, y.cargo = .announce src v → (s.domain src).rename.claim = none → (s.domain src).rename.name = v →
          ∃ t, exec (.packetForward d id) s = .next t ∧ Sp.find? t.packets id = none ∧
            (t.domain src).rename.waiting = (s.domain src).rename.waiting.filter (· != d)) ∧
        (∀ src, y.cargo = .claim src v → src ≠ d →
          (s.domain src).rename.claim ≠ none → (s.domain src).rename.name = v → x.rename.claim ≠ none → x.rename.name = v →
          ∃ t, exec (.packetForward d id) s = .next t ∧ (t.domain d).rename.conflict = true ∧
            ((t.domain src).rename.conflict = true ∨ (t.domain src).rename.status = 3)))) ∧
    (tbl < 2 → tableState x tbl = 0 → turnFailure s d tbl = none →
      ∃ t, exec (.rtArm d tbl) s = .next t ∧ tableState (t.domain d) tbl = 1 ∧ (t.domain d).rsel = x.rsel) ∧
    (tbl < 2 → tableState x tbl = 1 → ∃ t, exec (.rtSelect d tbl) s = .next t ∧ (t.domain d).rsel = tbl) ∧
    (tbl < 2 → tableState x tbl = 1 → x.rsel ≠ tbl → s.drain = none →
      ∃ t, exec (.rtDrain d tbl) s = .next t ∧ (t.drain.map fun r => (r.tbl, r.start, r.here)) = some (tbl, d, d) ∧
        ∀ c < 64, tableState (t.domain c) tbl = 2) ∧
    (∃ t, exec (.rtClear d) s = .next t ∧ (t.domain d).drops = 0 ∧ (t.domain d).armErr = false ∧
      (t.domain d).drained = false) ∧
    (∀ r i, s.drain = some r → r.moving = false → r.here = d → nextVisit s r.at_ = some i → snake i ≠ d →
      exec (.drainTokenVisit d) s = .next (sendToken s r (snake i))) ∧
    (∀ r i, s.drain = some r → r.moving = false → r.here = d → nextVisit s r.at_ = some i → snake i = d →
      ∃ t, exec (.drainTokenVisit d) s = .next t ∧
        (nextVisit s (i + 1) ≠ none → (t.domain d).dirty = false ∧
          t.drain = some { r with clean := r.clean && oldEmpty s d r.tbl && !x.dirty, at_ := i + 1 })) ∧
    (∃ t, exec (.nameAgeTick d) s = .next t ∧
      ∀ e, e ∈ (t.domain d).names ↔ ∃ y ∈ x.names, y.2.age < 2 ∧ e = (y.1, { y.2 with age := y.2.age + 1 })) ∧
    (∀ c, x.rename.status ≠ 1 →
      (s.coresIn d).find? (fun c => s.coreName c == v % 2 ^ 16 && spareFit s c) = some c → holders s d (v / 2 ^ 16 % 2 ^ 16) = [] →
      (peersOf s d = [] →
        ∃ t, exec (.renameCore d v) s = .next t ∧ (t.core c).name = some (v / 2 ^ 16 % 2 ^ 16) ∧
          (t.domain d).rename.status = 1 ∧ (t.domain d).rename.claim = none) ∧
      (peersOf s d ≠ [] →
        ∃ t, exec (.renameCore d v) s = .next t ∧ t.cores = s.cores ∧ (t.domain d).rename.status = 1 ∧
          (t.domain d).rename.claim = some (c, none) ∧ (t.domain d).rename.waiting = peersOf s d)) ∧
    (x.rename.status = 1 → x.rename.claim = none → x.rename.waiting = [] →
      ∃ t, exec (.renameComplete d) s = .next t ∧ (t.domain d).rename = { x.rename with status := 2 }) ∧
    (v % 32 ≤ 16 →
      ∃ t, exec (.vfctlWrite d v) s = .next t ∧ t.domain d =
        if Config.powerAbove d (v % 32) (powerShare s) then { x with vfRefused := true }
        else { x with fcode := v % 32, vfBusy := true, vfNext := v % 32, vfRefused := false }) ∧
    (16 < v % 32 → ∃ t, exec (.vfctlWrite d v) s = .next t ∧ t.domain d = { x with vfRefused := true }) ∧
    (x.vfBusy = true → ∃ t, exec (.linkPauseEnd d) s = .next t ∧ (t.domain d).vfBusy = false ∧ (t.domain d).fcur = x.vfNext) ∧
    (s.pwrlim < v → hottest s = some d →
      ∃ t, exec (.powerLimitTick v) s = .next t ∧ (t.domain d).vfBusy = true ∧ (t.domain d).vfNext = x.fcur - 1)

/-- R341, R347, R351, R371, R423, R446, R451, R453 to R455, R459 to R461: the steps of the host, of peers and of
resets. An access from outside reads or writes bytes of main DRAM; a function writes its registers; a partition is
set; a quote of the nonce, the digest of the firmware images, every partition, and GEN and DIGEST of the caller's
orrery, with its signature, is left for the device to write at BUF, and DONE after it; domains whose firmware
passes come up, without the cores of which an array has more than two defective rows; a reset leaves a domain as
after reset, but for what flash holds and the switches that have begun, a reset of a virtual interface its tickets
and events empty; a loss of power leaves only what flash and the world outside hold. What the reset of a virtual
interface clears and that a page of it in SWITCHING goes on (log 139), what a domain reset keeps (log 138), what a
loss of power ends (log 140), and the first launch identity (log 103) are the model's choices. -/
def Obligations.HostSteps : Prop :=
  ∀ (s : State) (vi off n v port d : Nat),
    (s.physDomain vi (off / 2 ^ 36) = some d →
      let pa := d * 2 ^ 46 + off % 2 ^ 36
      regionOf s pa = .dram → pa % 256 + n ≤ 256 → homeReach s (homeOf pa) (lineOf pa) = .ok s →
      ((∀ e ∈ s.vis, e.2.mig.status ≠ 1 ∧ e.2.mig.status ≠ 2) →
        ∃ t, exec (.hostMemAccess vi 1 off n v) s = .next t ∧
          ∀ a, t.mem.byte a = if pa ≤ a ∧ a < pa + n then BitVec.ofNat 8 (v / 256 ^ (a - pa)) else s.mem.byte a) ∧
      (∃ t, exec (.hostMemAccess vi 0 off n v) s = .next t ∧ t.mem = s.mem)) ∧
    (∀ p, Sp.get {} s.peers port = p → isPeerPort port = true → p.up = true → off < p.len →
      regionOf s (p.base + off) = .dram → (p.base + off) % 256 + n ≤ 256 →
      homeReach s (homeOf (p.base + off)) (lineOf (p.base + off)) = .ok s → s.homeBad (p.base + off) n = none →
      (∀ e ∈ s.vis, e.2.mig.status ≠ 1 ∧ e.2.mig.status ≠ 2) →
      ∃ t, exec (.peerAccess port 2 off n v) s = .next t ∧
        t.mem.read (p.base + off) n = (s.mem.read (p.base + off) n + v) % 2 ^ (8 * n)) ∧
    (v.testBit 0 = true →
      let y := s.viface vi
      let buf := y.regs.read 0x560 8
      let quote := y.regs.readBytes 0x540 32 ++
        shake256 ((List.range 64).map fun d => Config.firmwareImage (s.domain d).firmware).flatten 32 ++
        ((List.range 65).map fun i => littleEndian 8 (s.viface i).partmap).flatten ++ littleEndian 8 y.orrGen ++ orreryDigest s vi
      let all := quote ++ (List.range 29792).map (Config.signature quote)
      (∀ p ∈ blockPieces buf all.length, putFaults s vi 0 p.1 = false) →
      ∃ t, exec (.attest vi v) s = .next t ∧ (t.viface vi).attest = 1 ∧ t.mem = s.mem ∧
        (t.viface vi).puts = y.puts ++ (blockPieces buf all.length).map (fun p =>
          { asn := 0, va := p.1, n := p.2, x := (Memory.writeBytes [] 0 all).read (p.1 - buf) p.2 }) ++
          [{ asn := 0, va := 0, n := 0, x := 0 }]) ∧
    (vi ≤ 64 → (∀ e ∈ s.queues, e.2.vi = vi → e.2.enable = false) →
      (∀ e ∈ s.vis, e.1 ≠ vi → e.2.partmap &&& (v % 2 ^ 64) = 0) →
      ∃ t, exec (.partmap vi v) s = .next t ∧ (t.viface vi).partmap = v % 2 ^ 64) ∧
    (plainReg off = true →
      ∃ t, exec (.registerWrite vi off n v) s = .next t ∧ t.mem = s.mem ∧
        ∀ a, (t.viface vi).regs.byte a =
          if off ≤ a ∧ a < off + n ∧ plainReg a = true then BitVec.ofNat 8 (v / 256 ^ (a - off) % 256 &&& plainMask a)
          else (s.viface vi).regs.byte a) ∧
    (∃ t, exec (.registerWrite vi 0x510 n v) s = .next t ∧ (t.viface vi).ibudget = v % 2 ^ 64) ∧
    (4000 ≤ v → v ≤ 25000 → ∃ t, exec (.registerWrite 64 0x580 n v) s = .next t ∧ t.pwrlim = v) ∧
    (∃ t, exec .powerOn s = .next t ∧
      ∀ c < 64, let up := (s.domain c).st = 0 ∧ (s.domain c).boots s.fwMin = true
        (up → (t.domain c).st = 1 ∧ (t.domain c).coremap = soundCores s c) ∧
          (¬ up → (t.domain c).st = (s.domain c).st ∧ (t.domain c).coremap = (s.domain c).coremap)) ∧
    (∃ t, exec (.domainReset d) s = .next t ∧ (t.domain d).remote = [] ∧
      (t.domain d).coremap = soundCores s d ∧ (t.domain d).plateMap = (s.domain d).plateMap ∧
      (t.domain d).switching = (s.domain d).switching ∧ (t.domain d).moves = (s.domain d).moves.filter (·.pst == .switching) ∧
      (∀ i < 40, (t.core (d * 40 + i)).l1 = [] ∧ (t.core (d * 40 + i)).tlb = [] ∧ (t.core (d * 40 + i)).copies = [])) ∧
    (∃ t, exec (.virtualInterfaceReset vi) s = .next t ∧
      t.viface vi = { s.viface vi with tickets := [], events := [], nextIdent := 1 } ∧
      ∀ p ∈ switchingPages s vi, p ∈ (t.domain (homeOf p.dest)).moves) ∧
    (∃ t, exec .powerLoss s = .next t ∧ t.mem = [] ∧ t.threads = [] ∧ t.wefts = [] ∧ t.blocks = [] ∧ t.grids = [] ∧
      t.ops = [] ∧ t.hostMem = s.hostMem ∧ t.fwMin = s.fwMin ∧ (t.domain d).plateMap = (s.domain d).plateMap ∧
      (t.domain d).flash = (s.domain d).flash ∧ (t.domain d).st = 0)

/-! ## The machine as a whole -/

/-- R22, R65, R139, R141: a step of a core partition runs the instruction that the bytes at the PC decode to. The
issue set is chosen, the word is fetched at its PC, low unit first, and `exec` of what it decodes to is the step,
in the cycle of the issue; a word that is no instruction traps ILLEGAL in every lane of the issue set. Before it
come the re-injections and writes that are due. A turn of the agenda is one such step, or one step of the device; a
turn joined with the next falls into one cycle with it (the model's own order, log 1). The core's cycle counter
rises once in a cycle in which it issues, by how much is left open (log 18). -/
def Obligations.StepRunsDecodedInstruction : Prop :=
  ∀ (s : State) (ts : List Turn) (c p row b w : Nat) (h : Bool) (xs : List (Nat × Nat × Bool)),
    let r := { prelude s with agenda := ts }
    let r' := tick (r.setCore c { r.core c with lastRow := Sp.put (r.core c).lastRow p row }) c
    let closed := fun t : State => if t.cycle = {} then t else endCycle t
    (∀ (x : Issue) (word len : Nat) (u : State), issueSet s b w h = some x →
      fetchWord s (s.block b).core (s.grid (s.block b).gid) x.pc = (.ok (word, len), u) →
      let y := { x with word := word, len := len }
      len = (if word % 2 = 0 then 2 else 4) ∧
      (∀ i, decodeWord word = .ok i → issueWeft s b w h = exec i (prepare u { y with bad := regFaults u y i })) ∧
      (∀ e, decodeWord word = .error e →
        issueWeft s b w h = .next (trapAll (noteIssue (prepare u y)) { cause := .illegal, addr := x.pc.toNat, info := word }))) ∧
    ((prelude s).agenda = .issue c p :: ts → r.cycle = {} → pickRow r c p = some (row, (b, w, h) :: xs) →
      (∀ t, xs = [] → mayIssue r' b w = true → issueWeft r' b w h = .next t → step s = .next (closed t)) ∧
      (∀ t, xs ≠ [] → issueAll ((b, w, h) :: xs) { r' with cycle := { r'.cycle with joined := true } } = .next t →
        step s = .next (closed t))) ∧
    (∀ t x, mayIssue s b w = true → issueWeft s b w h = .next t → issueAll ((b, w, h) :: x) s = issueAll x t) ∧
    ((prelude s).agenda = .issue c p :: ts → r.cycle = {} → pickRow r c p = none → step s = .next r) ∧
    (∀ i, (prelude s).agenda = .event i :: ts → r.cycle = {} →
      (∀ t, i.len = 0 → exec i r = .next t → step s = .next (closed t)) ∧ (i.len ≠ 0 → step s = .next r)) ∧
    ((prelude s).agenda = .sameCycle :: ts → step s = .next { r with cycle := { r.cycle with joined := true } }) ∧
    (∀ x t, (prelude s).agenda = x :: ts → x ≠ .sameCycle → r.cycle.joined = true → (∀ q ∈ x.part, q ∉ r.cycle.parts) →
      takeTurn r x = .next t →
      step s = .next { t with cycle := { t.cycle with joined := false, parts := x.part.toList ++ r.cycle.parts } })

/-- R141, R143: the issue set of a stream is every lane of the stream that stands at one PC: the lowest, unless the
starvation counter is 256 and some lane stands higher, and then the next higher. There is none exactly where the
stream has no lane, or one of its lanes waits at a RET for its target (the model's reading, log 152). -/
def Obligations.IssueSetIsTheLowestGroup : Prop :=
  ∀ (s : State) (b w : Nat) (h : Bool),
    let mine := fun l => l < 32 ∧ (s.thread b w l).tst = (if h then .trap else .run)
    let pc := fun l => (s.thread b w l).pc.toNat
    let sb := if h then (s.weft b w).sbHandler else (s.weft b w).sbUser
    (issueSet s b w h = none ↔ (∀ l, ¬ mine l) ∨ ∃ l, mine l ∧ awaitsRet s b w l = true) ∧
    ∀ x, issueSet s b w h = some x →
      x.blk = b ∧ x.weft = w ∧ x.handler = h ∧ x.lanes ≠ [] ∧ x.lanes.Pairwise (· < ·) ∧
      (∀ l, l ∈ x.lanes ↔ mine l ∧ (s.thread b w l).pc = x.pc) ∧
      (∀ l < 32, x.deliver.testBit l = (decide (l ∈ x.lanes) && (s.thread b w l).deliver)) ∧
      (sb ≠ 256 ∨ (∀ l j, mine l → mine j → pc l = pc j) →
        (∀ l, mine l → x.pc.toNat ≤ pc l) ∧ ((∀ l, mine l → pc l = x.pc.toNat) → x.sb = 0) ∧
          ((∃ l, mine l ∧ pc l ≠ x.pc.toNat) → x.sb = sb + 1)) ∧
      (sb = 256 → (∃ l j, mine l ∧ mine j ∧ pc l ≠ pc j) →
        x.sb = 0 ∧ (∃ j, mine j ∧ pc j < x.pc.toNat ∧ ∀ l, mine l → pc j ≤ pc l ∧ (pc j < pc l → x.pc.toNat ≤ pc l)))

/-- R143, R144, R385: what the record of an issue changes: the weft's starvation counter and the stream that issued
last, the block's count of issues, and the DELIVER marks of the lanes that issue under it; and nothing else. -/
def Obligations.IssueRecordedFrame : Prop :=
  ∀ s : State,
    let t := noteIssue s
    { t with threads := s.threads, wefts := s.wefts, blocks := s.blocks } = s ∧
    (∀ l < 32, t.thread s.iss.blk s.iss.weft l =
      { s.lane l with deliver := (s.lane l).deliver && !s.iss.deliver.testBit l }) ∧
    (∀ k, (∀ l < 32, k ≠ tkey s.iss.blk s.iss.weft l) → Sp.find? t.threads k = Sp.find? s.threads k) ∧
    t.wft = (if s.iss.handler then { s.wft with sbHandler := s.iss.sb, lastHandler := true }
      else { s.wft with sbUser := s.iss.sb, lastHandler := false }) ∧
    (∀ k, k ≠ wkey s.iss.blk s.iss.weft → Sp.find? t.wefts k = Sp.find? s.wefts k) ∧
    t.block s.iss.blk = { s.block s.iss.blk with issues := (s.block s.iss.blk).issues + 1 } ∧
    (∀ k, k ≠ s.iss.blk → Sp.find? t.blocks k = Sp.find? s.blocks k)

/-- R15, R31, R142, R152: an instruction outside the role's set traps ROLE, with the role's index, and one that
names a data register at or above the allotment REGRANGE, with the first such register of its fields; every lane of
the issue set takes the trap at once, whatever writes are outstanding. -/
def Obligations.RoleAndAllotmentTraps : Prop :=
  ∀ (s : State) (d a b : VReg) (x : Src) (k : KReg) (n : BitVec 4) (f : BitVec 1) (z : CpSize), s.iss.lanes ≠ [] →
    let r := s.roleOf s.iss.blk s.iss.weft
    let named := [d.toNat, a.toNat, b.toNat]
    (∀ i ∈ ([.fadd d a x, .fmul d a x, .ffma d a x, .frcp d a, .fslt d a x, .dadd d a x, .dfma d a x, .hadd2 d a x,
        .cvtI32F32 d a] : List Instr), r.kind = .copy ∨ r.kind = .matrix → exec i s = .next (trapAll (noteIssue s)
          { cause := .role, addr := s.iss.pc.toNat, info := s.wft.role })) ∧
    (∀ i ∈ ([.cpgs a b n z, .cpsg a b n z, .cptl k k k n, .cpts k k k n, .cppw k k n] : List Instr),
      r.kind = .vector ∨ r.kind = .matrix → exec i s = .next (trapAll (noteIssue s)
        { cause := .role, addr := s.iss.pc.toNat, info := s.wft.role })) ∧
    (∀ i ∈ ([.mxpush k, .mxfence, .mxquery d] : List Instr),
      r.kind = .vector ∨ r.kind = .copy → exec i s = .next (trapAll (noteIssue s)
        { cause := .role, addr := s.iss.pc.toNat, info := s.wft.role })) ∧
    (r.kind = .copy ∨ r.kind = .matrix → exec (.qblk k k k f) s = .next (trapAll (noteIssue s)
      { cause := .role, addr := s.iss.pc.toNat, info := s.wft.role })) ∧
    (∀ i ∈ ([.iadd d a (.v b), .isub d a (.v b), .and d a (.v b), .sel d a (.v b), .shfl d a (.v b)] : List Instr),
      ∀ v, named.find? (fun v => decide (r.regs ≤ v)) = some v →
        exec i s = .next (trapAll (noteIssue s) { cause := .regrange, addr := s.iss.pc.toNat, info := v }))

/-- Every instruction and every step of the device has a meaning in every state: `exec` answers a next state, and
never a fault or a refusal. -/
def Obligations.ExecAlwaysAnswers : Prop :=
  ∀ (i : Instr) (s : State), ∃ t, exec i s = .next t

/-- The model's invariant: main DRAM and host memory stay in canonical form, whatever step is taken. -/
def Obligations.StepKeepsInvariant : Prop :=
  ∀ s t : State, s.inv = true → step s = .next t → t.inv = true

/-- R16, R200, R205, R232, R312, R371, R423, R424, R455: the module after reset. It meets the invariant; it holds
no thread, weft, block or launch; the cycle counters, events and clears are zero, caches and TLBs empty, clusters
unfused, both route tables armed and A in use; and a thread's state is all zeros when it starts. -/
def Obligations.ResetState : Prop :=
  let r := State.reset
  r.inv = true ∧ r.threads = [] ∧ r.wefts = [] ∧ r.blocks = [] ∧ r.grids = [] ∧ r.ops = [] ∧ r.packets = [] ∧ r.faults = [] ∧
  r.mem = [] ∧ r.messages = [] ∧ r.cycle = {} ∧ r.pwrlim = 25000 ∧
  (∀ c, (r.core c).cyc = 0 ∧ (r.core c).l1 = [] ∧ (r.core c).tlb = [] ∧ (r.core c).copies = [] ∧ (r.core c).bank = [] ∧
    (∀ p, Sp.get 15 (r.core c).lastRow p = 15 ∧ (r.array c p).views = [])) ∧
  (∀ d line, (r.domain d).fused = [] ∧ (r.domain d).remote = [] ∧ (r.domain d).dir = [] ∧ (r.domain d).rsel = 0 ∧
    (r.domain d).sta = 1 ∧ (r.domain d).stb = 1 ∧ (r.domain d).drops = 0 ∧ (r.domain d).mxIdle = 0x1000 ∧
    bankOf r d line = (line % 16) ^^^ (line / 16 % 16) ^^^ (line / 256 % 16)) ∧
  (∀ v n, Sp.get 0 (r.viface v).events n = 0 ∧ (r.viface v).tickets = []) ∧
  (∀ n i, ({} : Thread).reg n = 0 ∧ ({} : Thread).xreg i = 0 ∧ ({} : Thread).fcsr = 0 ∧ ({} : Thread).sptr = 0 ∧
    ({} : Thread).rs = [])

/-! ## Checks of copies and of matrix commands -/

/-- R275, R278, R282, R306, R313, R346, R383, R384: where the copies, MXPUSH and QBLK fail a check of their issue.
A lane copy names an uninitialised barrier before its lanes' addresses are looked at; of those, each lane takes its
first failure: traps are the lane's own and the others go on, and a system fault parks the weft with no copy begun.
The checks of a tile copy, of MXPUSH and of QBLK are made once: a trap is every lane's, and a system fault parks
the weft with nothing done. The places of poisoned words among the checks of a tile or a command are left out here
(log 155). -/
def Obligations.CopyAndMatrixTraps : Prop :=
  ∀ (s : State) (vs a : VReg) (ka kb kc : KReg) (b : BitVec 4) (z : CpSize) (f : BitVec 1) (slot : Nat),
    (∀ l ∈ s.iss.lanes, (s.lane l).tst = .run) → s.iss.deliver = 0 → s.wft.park = none →
    let core := (s.block s.iss.blk).core
    let size := (s.launch s.iss.blk).spm
    let bar : Cond := { cause := .barrier, info := b.toNat * 4096 }
    let same := fun u t : State => t.wft.cp = s.wft.cp ∧ t.wft.mx = s.wft.mx ∧ (∀ i, t.copy? core i = u.copy? core i) ∧
      (∀ i, t.array core i = u.array core i) ∧ ∀ k, (t.block k).spm = (s.block k).spm
    let trapsAll := fun (u : State) (i : Instr) (c : Cond) => ∃ t, exec i s = .next t ∧
      (∀ l ∈ s.iss.lanes, Trapped s t l c) ∧ same u t
    let parks := fun (u : State) (i : Instr) (c : Cond) => ∃ t, exec i s = .next t ∧
      ParkedAtIssue s t c (laneMask s.iss.lanes) 0 ∧ same u t
    let stops := fun (i : Instr) (c : Cond) => if c.sys = true then parks s i c else trapsAll s i c
    (copyBarCond s b = if b.toNat < (s.launch s.iss.blk).nbar ∧ ((s.block s.iss.blk).bar b.toNat).init = false
      then some bar else none) ∧
    (∀ e ∈ ([(.cpgs vs a b z, false), (.cpsg vs a b z, true)] : List (Instr × Bool)),
      let n := CpSize.bytes z
      let o := fun l => ((s.lane l).reg vs.toNat).toNat
      let g := fun l => (s.lane l).pair a.toNat
      let q := copyLanes e.2 vs a n s
      (∀ l,
        (canonical (g l) = false → copyLane e.2 vs a n s l =
          (some (.error { cause := .translate, reason := 4, addr := (g l).toNat, info := 2 }), s)) ∧
        (canonical (g l) = true → o l % n ≠ 0 → copyLane e.2 vs a n s l =
          (some (.error { cause := .misalign, addr := o l, info := 0 }), s)) ∧
        (canonical (g l) = true → o l % n = 0 → (g l).toNat % n ≠ 0 → copyLane e.2 vs a n s l =
          (some (.error { cause := .misalign, addr := (g l).toNat, info := 2 }), s)) ∧
        (∀ p u, canonical (g l) = true → o l % n = 0 → (g l).toNat % n = 0 →
          translate s core (s.viOf s.iss.blk) (s.asnOf s.iss.blk) ((g l).toNat % 2 ^ 57)
            { reads := !e.2, writes := e.2 } = (.ok p, u) →
          (e.2 = true → p.w = true → p.plate = true → copyLane e.2 vs a n s l =
            (some (.error { cause := .plateWrite, addr := (g l).toNat }), u)) ∧
          ((if e.2 then p.w else p.r) = false → copyLane e.2 vs a n s l =
            (some (.error { cause := .protect, addr := (g l).toNat, info := 2, sys := true }), u)) ∧
          (checkGlobal u (s.viOf s.iss.blk) (s.asnOf s.iss.blk) ((g l).toNat % 2 ^ 57) p (!e.2) e.2 = none → size < o l + n →
            copyLane e.2 vs a n s l =
              (some (.error { cause := .protect, addr := o l, info := 0, sys := true }), u)))) ∧
      (IssuesAs copyRole [one vs, two a] [] s → lanesPending s = false → s.wft.room .cp 1 = true → slotFor s core = true →
        (copyBarCond s b = some bar → trapsAll s e.1 bar) ∧
        (copyBarCond s b = none → missStall s (s.iss.lanes.map fun l => (g l).toNat) = false → (∀ x ∈ q.1, x.2 ≠ none) →
          q.2.grids = s.grids →
          ((∃ x ∈ copyConds q.1, x.2.sys = true) → ∃ t, exec e.1 s = .next t ∧
            t.wft.cp = s.wft.cp ∧
            (∀ x ∈ copyConds q.1, x.2.sys = false → Trapped s t x.1 x.2) ∧
            ∀ x, (copyConds q.1).find? (fun x => x.2.sys) = some x → ParkedAtIssue s t x.2
              (laneMask (s.iss.lanes.filter fun l => !(copyConds q.1).any fun x => x.1 == l && !x.2.sys)) 0) ∧
          ((∀ x ∈ copyConds q.1, x.2.sys = false) → freeSlot s core = some slot → passing e.2 q.1 ≠ [] →
            canOwn e.2 core slot (passing e.2 q.1) q.2 = true →
            ∃ t c, exec e.1 s = .next t ∧ (∀ x ∈ copyConds q.1, Trapped s t x.1 x.2) ∧
              (∀ l ∈ s.iss.lanes, (∀ x ∈ copyConds q.1, x.1 ≠ l) →
                t.thread s.iss.blk s.iss.weft l = ((noteIssue s).thread s.iss.blk s.iss.weft l).past s) ∧
              t.copy? core slot = some c ∧ c.pend = passing e.2 q.1)))) ∧
    (let desc := (s.wft.kreg ka.toNat).toNat
      let spm := (s.wft.kreg kb.toNat).toNat
      let m := (s.block s.iss.blk).spm
      let d := readTile m desc
      let cond := tileCond s desc spm kc.toNat
      (desc % 64 ≠ 0 → cond = some { cause := .misalign, addr := desc, info := 8 }) ∧
      (desc % 64 = 0 → size < desc + 64 → cond = some { cause := .protect, addr := desc, info := 8, sys := true }) ∧
      (desc % 64 = 0 → desc + 64 ≤ size → spmFailed (s.block s.iss.blk).spmBad desc 64 = none →
        (∀ x, tileBreach m desc d = some x → cond = some { cause := .mxparam, addr := desc, info := x }) ∧
        (canonical (BitVec.ofNat 64 (m.read desc 8)) = false ∨ m.read desc 8 % 16 ≠ 0 → tileBreach m desc d = some 0) ∧
        (canonical (BitVec.ofNat 64 (m.read desc 8)) = true → m.read desc 8 % 16 = 0 →
          m.read (desc + 8) 1 = 0 ∨ 5 < m.read (desc + 8) 1 → tileBreach m desc d = some 8) ∧
        (tileBreach m desc d = none → badStart s kc.toNat d.rank = none →
          (spm % d.span ≠ 0 → cond = some { cause := .misalign, addr := spm, info := 0 }) ∧
          (spm % d.span = 0 → size < spm + d.bytes →
            cond = some { cause := .protect, addr := spm, info := 0, sys := true }) ∧
          (spm % d.span = 0 → spm + d.bytes ≤ size → cond = none))) ∧
      (∀ i ∈ ([.cptl ka kb kc b, .cpts ka kb kc b] : List Instr),
        IssuesAs copyRole [] [(ka.toNat, 1), (kb.toNat, 1), (kc.toNat, min d.rank 5)] s → lanesPending s = false →
        s.wft.room .cp 1 = true → slotFor s core = true →
        (∀ c, cond = some c → stops i c) ∧ (cond = none → copyBarCond s b = some bar → trapsAll s i bar))) ∧
    (let cppw : Instr := .cppw ka kb b
      let va := s.wft.kpair ka.toNat
      IssuesAs copyRole [] [(ka.toNat, 2), (kb.toNat, 1)] s → missStall s [va.toNat] = false → s.wft.room .cp 1 = true →
      slotFor s core = true →
      (canonical va = false →
        trapsAll s cppw { cause := .translate, reason := 4, addr := va.toNat, info := 8 }) ∧
      (canonical va = true → va.toNat % 65536 ≠ 0 →
        trapsAll s cppw { cause := .misalign, addr := va.toNat, info := 8 }) ∧
      (∀ p u, canonical va = true → va.toNat % 65536 = 0 →
        translate s core (s.viOf s.iss.blk) (s.asnOf s.iss.blk) (va.toNat % 2 ^ 57) {} = (.ok p, u) → u.grids = s.grids →
        (p.plate = false ∨ p.r = false →
          parks u cppw { cause := .protect, addr := va.toNat, info := 8, sys := true }) ∧
        (p.plate = true → p.r = true → copyBarCond s b = some bar → trapsAll u cppw bar))) ∧
    (let off := (s.wft.kreg ka.toNat).toNat
      let c := pushed s off
      let q := s.array core s.wft.part
      let cond := mxCond s c q
      (off % 64 ≠ 0 → cond = some { cause := .misalign, addr := off, info := 8 }) ∧
      (off % 64 = 0 → size < off + 64 → cond = some { cause := .protect, addr := off, info := 8, sys := true }) ∧
      (off % 64 = 0 → off + 64 ≤ size → spmFailed (s.block s.iss.blk).spmBad off 64 = none →
        (∀ x, mxBreach c q (s.launch s.iss.blk).nbar = some x → cond = some { cause := .mxparam, addr := off, info := x }) ∧
        (c.f 0 1 = 0 ∨ 5 < c.f 0 1 → mxBreach c q (s.launch s.iss.blk).nbar = some 0) ∧
        (c.f 0 1 = 2 → Sp.find? q.views c.slot = none → mxBreach c q (s.launch s.iss.blk).nbar = some 1) ∧
        (mxBreach c q (s.launch s.iss.blk).nbar = none →
          (∀ r, (mxRanges c q).find? (fun r => decide (size < r.1 + r.2)) = some r →
            cond = some { cause := .protect, addr := max r.1 size, info := 0, sys := true }) ∧
          ((∀ r ∈ mxRanges c q, r.1 + r.2 ≤ size) → c.f 0 1 = 5 → ((s.block s.iss.blk).bar (c.f 2 1)).init = false →
            cond = some { cause := .barrier, info := c.f 2 1 * 4096 }) ∧
          ((∀ r ∈ mxRanges c q, r.1 + r.2 ≤ size) → (c.f 0 1 = 5 → ((s.block s.iss.blk).bar (c.f 2 1)).init = true) →
            cond = none))) ∧
      (IssuesAs (fun k => k == .general || k == .matrix) [] [(ka.toNat, 1)] s → lanesPending s = false →
        s.wft.room .mx 1 = true → q.queue.length < 32 → ∀ e, cond = some e → stops (.mxpush ka) e)) ∧
    (let oa := (s.wft.kreg ka.toNat).toNat
      let ob := (s.wft.kreg kb.toNat).toNat
      let oc := (s.wft.kreg kc.toNat).toNat
      let mis := fun o => trapsAll s (.qblk ka kb kc f) { cause := .misalign, addr := o, info := 0 }
      let out := fun o => parks s (.qblk ka kb kc f) { cause := .protect, addr := o, info := 0, sys := true }
      IssuesAs (fun k => k == .general || k == .vector) [] [(ka.toNat, 1), (kb.toNat, 1), (kc.toNat, 1)] s →
      lanesPending s = false →
      (oa % 16 ≠ 0 → mis oa) ∧ (oa % 16 = 0 → ob % 16 ≠ 0 → mis ob) ∧
      (oa % 16 = 0 → ob % 16 = 0 → oc % 4 ≠ 0 → mis oc) ∧
      (oa % 16 = 0 → ob % 16 = 0 → oc % 4 = 0 →
        (size < oa + 512 → out oa) ∧ (oa + 512 ≤ size → size < ob + 128 → out ob) ∧
        (oa + 512 ≤ size → ob + 128 ≤ size → size < oc + 4 → out oc)))
end

