-- ==== Sys2Proof/Laws/Sparse.lean ====
section
/-!
SUPPORT. Tables with Nat keys: what a key reads after each update, and that every update keeps the canonical
form; and the same of memories.
-/
namespace Sys2Proof
namespace Sp

variable {α : Type}

/-! ## What a key reads -/

@[simp] theorem find_nil (k : Nat) : find? ([] : Sp α) k = none := rfl
@[simp] theorem get_nil (d : α) (k : Nat) : get d [] k = d := rfl

theorem find_cons (k' : Nat) (a : α) (m : Sp α) (k : Nat) :
    find? ((k', a) :: m) k = if k' = k then some a else find? m k := rfl

/-- Any table, sorted or not: `put` decides its own key and no other. -/
theorem find_put (m : Sp α) (k k' : Nat) (a : α) : find? (put m k a) k' = if k' = k then some a else find? m k' := by
  induction m with
  | nil => simp [put, find_cons, eq_comm]
  | cons e m ih =>
    obtain ⟨j, b⟩ := e
    simp only [put]
    split
    · simp [find_cons, eq_comm]
    · split
      · subst_vars; simp only [find_cons]; by_cases h : k' = j <;> simp [h, eq_comm]
      · simp only [find_cons, ih]
        split
        · subst_vars; rw [if_neg (by omega)]
        · rfl

theorem find_del (m : Sp α) (k k' : Nat) : find? (del m k) k' = if k' = k then none else find? m k' := by
  induction m with
  | nil => simp [del]
  | cons e m ih =>
    obtain ⟨j, b⟩ := e
    simp only [del]
    split
    · simp only [ih, find_cons]; split <;> simp_all [eq_comm]
    · simp only [find_cons, ih]; split <;> simp_all [eq_comm]

theorem get_put (d : α) (m : Sp α) (k k' : Nat) (a : α) : get d (put m k a) k' = if k' = k then a else get d m k' := by
  simp only [get, find_put]; split <;> rfl

theorem get_del (d : α) (m : Sp α) (k k' : Nat) : get d (del m k) k' = if k' = k then d else get d m k' := by
  simp only [get, find_del]; split <;> rfl

theorem get_set [DecidableEq α] (d : α) (m : Sp α) (k k' : Nat) (a : α) :
    get d (set d m k a) k' = if k' = k then a else get d m k' := by
  simp only [set]; split
  · simp_all [get_del]
  · exact get_put d m k k' a

@[simp] theorem find_put_same (m : Sp α) (k : Nat) (a : α) : find? (put m k a) k = some a := by simp [find_put]
@[simp] theorem find_del_same (m : Sp α) (k : Nat) : find? (del m k) k = none := by simp [find_del]
@[simp] theorem get_put_same (d : α) (m : Sp α) (k : Nat) (a : α) : get d (put m k a) k = a := by simp [get_put]
@[simp] theorem get_del_same (d : α) (m : Sp α) (k : Nat) : get d (del m k) k = d := by simp [get_del]

/-! ## The canonical form -/

theorem rising_mono {lo lo' : Nat} {m : Sp α} (h : lo ≤ lo') (hm : rising lo' m = true) : rising lo m = true := by
  cases m with
  | nil => rfl
  | cons e m => simp_all [rising]; omega

theorem rising_put {lo k : Nat} {m : Sp α} (a : α) (hk : lo ≤ k) (hm : rising lo m = true) : rising lo (put m k a) = true := by
  induction m generalizing lo with
  | nil => simp [put, rising, hk]
  | cons e m ih =>
    obtain ⟨j, b⟩ := e
    simp only [rising, Bool.and_eq_true, decide_eq_true_eq] at hm
    simp only [put]
    split
    · simp only [rising, Bool.and_eq_true, decide_eq_true_eq]; exact ⟨hk, by omega, hm.2⟩
    · split
      · subst_vars; simp only [rising, Bool.and_eq_true, decide_eq_true_eq]; exact hm
      · simp only [rising, Bool.and_eq_true, decide_eq_true_eq]; exact ⟨hm.1, ih (by omega) hm.2⟩

theorem rising_del {lo k : Nat} {m : Sp α} (hm : rising lo m = true) : rising lo (del m k) = true := by
  induction m generalizing lo with
  | nil => rfl
  | cons e m ih =>
    obtain ⟨j, b⟩ := e
    simp only [rising, Bool.and_eq_true, decide_eq_true_eq] at hm
    simp only [del]
    split
    · exact rising_mono (by omega) (ih hm.2)
    · simp only [rising, Bool.and_eq_true, decide_eq_true_eq]; exact ⟨hm.1, ih hm.2⟩

theorem rising_filter {lo : Nat} {m : Sp α} (p : Nat × α → Bool) (hm : rising lo m = true) :
    rising lo (List.filter p m) = true := by
  induction m generalizing lo with
  | nil => rfl
  | cons e m ih =>
    obtain ⟨j, b⟩ := e
    simp only [rising, Bool.and_eq_true, decide_eq_true_eq] at hm
    simp only [List.filter]
    split
    · simp only [rising, Bool.and_eq_true, decide_eq_true_eq]; exact ⟨hm.1, ih hm.2⟩
    · exact rising_mono (by omega) (ih hm.2)

theorem mem_put {m : Sp α} {k : Nat} {a : α} {e : Nat × α} (h : e ∈ put m k a) : e = (k, a) ∨ e ∈ m := by
  induction m with
  | nil => simp_all [put]
  | cons f m ih =>
    obtain ⟨j, b⟩ := f
    simp only [put] at h
    split at h
    · simp_all
    · split at h
      · simp_all; tauto
      · simp_all; tauto

theorem mem_del {m : Sp α} {k : Nat} {e : Nat × α} (h : e ∈ del m k) : e ∈ m := by
  induction m with
  | nil => simp_all [del]
  | cons f m ih =>
    obtain ⟨j, b⟩ := f
    simp only [del] at h
    split at h <;> simp_all; tauto

variable [DecidableEq α]

theorem wf_iff (d : α) (m : Sp α) : wf d m = true ↔ rising 0 m = true ∧ ∀ e ∈ m, e.2 ≠ d := by
  simp [wf, List.all_eq_true]

theorem wf_set {d : α} {m : Sp α} (k : Nat) (a : α) (h : wf d m = true) : wf d (set d m k a) = true := by
  rw [wf_iff] at h ⊢
  simp only [set]
  split
  · exact ⟨rising_del h.1, fun e he => h.2 e (mem_del he)⟩
  · exact ⟨rising_put a (Nat.zero_le k) h.1, fun e he => by
      rcases mem_put he with rfl | he
      · assumption
      · exact h.2 e he⟩

theorem wf_filter {d : α} {m : Sp α} (p : Nat × α → Bool) (h : wf d m = true) : wf d (List.filter p m) = true := by
  rw [wf_iff] at h ⊢
  exact ⟨rising_filter p h.1, fun e he => h.2 e (List.mem_of_mem_filter he)⟩

end Sp

namespace Memory

/-- One byte after one byte is written. -/
theorem byte_setByte (m : Memory) (a b : Nat) (x : Byte) : (m.setByte a x).byte b = if b = a then x else m.byte b :=
  Sp.get_set 0 m a b x

theorem wf_nil : Memory.wf [] = true := rfl

theorem wf_setByte {m : Memory} (a : Nat) (x : Byte) (h : m.wf = true) : (m.setByte a x).wf = true := Sp.wf_set a x h

theorem wf_write {m : Memory} (a n x : Nat) (h : m.wf = true) : (m.write a n x).wf = true := by
  induction n generalizing m a x with
  | zero => exact h
  | succ n ih => exact ih (a + 1) (x / 256) (wf_setByte a _ h)

theorem wf_writeBytes {m : Memory} (a : Nat) (bs : List Byte) (h : m.wf = true) : (m.writeBytes a bs).wf = true := by
  induction bs generalizing m a with
  | nil => exact h
  | cons b bs ih => exact ih (a + 1) (wf_setByte a b h)

theorem wf_filter {m : Memory} (p : Nat × Byte → Bool) (h : m.wf = true) : wf (List.filter p m) = true := Sp.wf_filter p h

/-- A memory built by single-byte writes from one in canonical form is in canonical form. -/
theorem wf_foldl_setByte {β : Type} (f : β → Nat) (g : β → Byte) (l : List β) {m : Memory} (h : m.wf = true) :
    (l.foldl (fun m e => m.setByte (f e) (g e)) m).wf = true := by
  induction l generalizing m with
  | nil => exact h
  | cons e l ih => exact ih (wf_setByte _ _ h)

end Memory
end Sys2Proof
end

