-- ==== Sys2Proof/Laws/State.lean ====
section
/-!
SUPPORT. What each update of the state leaves in each field: one lemma per field per update, so that no proof
unfolds a record update; and what each home reads after its own update.
-/
namespace Sys2Proof.Machine
open Sys2Proof

/-! ## One field of the state, after an update of another -/

@[simp] theorem State.setThread_wefts (s : State) (b w l : Nat) (x : Thread) : (s.setThread b w l x).wefts = s.wefts := rfl
@[simp] theorem State.setThread_blocks (s : State) (b w l : Nat) (x : Thread) : (s.setThread b w l x).blocks = s.blocks := rfl
@[simp] theorem State.setThread_grids (s : State) (b w l : Nat) (x : Thread) : (s.setThread b w l x).grids = s.grids := rfl
@[simp] theorem State.setThread_nextBlk (s : State) (b w l : Nat) (x : Thread) : (s.setThread b w l x).nextBlk = s.nextBlk := rfl
@[simp] theorem State.setThread_nextGid (s : State) (b w l : Nat) (x : Thread) : (s.setThread b w l x).nextGid = s.nextGid := rfl
@[simp] theorem State.setThread_cores (s : State) (b w l : Nat) (x : Thread) : (s.setThread b w l x).cores = s.cores := rfl
@[simp] theorem State.setThread_domains (s : State) (b w l : Nat) (x : Thread) : (s.setThread b w l x).domains = s.domains := rfl
@[simp] theorem State.setThread_vis (s : State) (b w l : Nat) (x : Thread) : (s.setThread b w l x).vis = s.vis := rfl
@[simp] theorem State.setThread_mem (s : State) (b w l : Nat) (x : Thread) : (s.setThread b w l x).mem = s.mem := rfl
@[simp] theorem State.setThread_bad (s : State) (b w l : Nat) (x : Thread) : (s.setThread b w l x).bad = s.bad := rfl
@[simp] theorem State.setThread_hostMem (s : State) (b w l : Nat) (x : Thread) : (s.setThread b w l x).hostMem = s.hostMem := rfl
@[simp] theorem State.setThread_peers (s : State) (b w l : Nat) (x : Thread) : (s.setThread b w l x).peers = s.peers := rfl
@[simp] theorem State.setThread_ops (s : State) (b w l : Nat) (x : Thread) : (s.setThread b w l x).ops = s.ops := rfl
@[simp] theorem State.setThread_nextOp (s : State) (b w l : Nat) (x : Thread) : (s.setThread b w l x).nextOp = s.nextOp := rfl
@[simp] theorem State.setThread_queues (s : State) (b w l : Nat) (x : Thread) : (s.setThread b w l x).queues = s.queues := rfl
@[simp] theorem State.setThread_waiters (s : State) (b w l : Nat) (x : Thread) : (s.setThread b w l x).waiters = s.waiters := rfl
@[simp] theorem State.setThread_cmds (s : State) (b w l : Nat) (x : Thread) : (s.setThread b w l x).cmds = s.cmds := rfl
@[simp] theorem State.setThread_packets (s : State) (b w l : Nat) (x : Thread) : (s.setThread b w l x).packets = s.packets := rfl
@[simp] theorem State.setThread_nextPacket (s : State) (b w l : Nat) (x : Thread) : (s.setThread b w l x).nextPacket = s.nextPacket := rfl
@[simp] theorem State.setThread_drain (s : State) (b w l : Nat) (x : Thread) : (s.setThread b w l x).drain = s.drain := rfl
@[simp] theorem State.setThread_stored (s : State) (b w l : Nat) (x : Thread) : (s.setThread b w l x).stored = s.stored := rfl
@[simp] theorem State.setThread_storedNo (s : State) (b w l : Nat) (x : Thread) : (s.setThread b w l x).storedNo = s.storedNo := rfl
@[simp] theorem State.setThread_messages (s : State) (b w l : Nat) (x : Thread) : (s.setThread b w l x).messages = s.messages := rfl
@[simp] theorem State.setThread_nextMessage (s : State) (b w l : Nat) (x : Thread) : (s.setThread b w l x).nextMessage = s.nextMessage := rfl
@[simp] theorem State.setThread_fwMin (s : State) (b w l : Nat) (x : Thread) : (s.setThread b w l x).fwMin = s.fwMin := rfl
@[simp] theorem State.setThread_cycle (s : State) (b w l : Nat) (x : Thread) : (s.setThread b w l x).cycle = s.cycle := rfl
@[simp] theorem State.setThread_pwrlim (s : State) (b w l : Nat) (x : Thread) : (s.setThread b w l x).pwrlim = s.pwrlim := rfl
@[simp] theorem State.setThread_key (s : State) (b w l : Nat) (x : Thread) : (s.setThread b w l x).key = s.key := rfl
@[simp] theorem State.setThread_popped (s : State) (b w l : Nat) (x : Thread) : (s.setThread b w l x).popped = s.popped := rfl
@[simp] theorem State.setThread_faults (s : State) (b w l : Nat) (x : Thread) : (s.setThread b w l x).faults = s.faults := rfl
@[simp] theorem State.setThread_pendq (s : State) (b w l : Nat) (x : Thread) : (s.setThread b w l x).pendq = s.pendq := rfl
@[simp] theorem State.setThread_iss (s : State) (b w l : Nat) (x : Thread) : (s.setThread b w l x).iss = s.iss := rfl
@[simp] theorem State.setThread_stalled (s : State) (b w l : Nat) (x : Thread) : (s.setThread b w l x).stalled = s.stalled := rfl
@[simp] theorem State.setThread_agenda (s : State) (b w l : Nat) (x : Thread) : (s.setThread b w l x).agenda = s.agenda := rfl
@[simp] theorem State.setThread_lastPart (s : State) (b w l : Nat) (x : Thread) : (s.setThread b w l x).lastPart = s.lastPart := rfl
@[simp] theorem State.setThread_free (s : State) (b w l : Nat) (x : Thread) : (s.setThread b w l x).free = s.free := rfl

@[simp] theorem State.setWeft_threads (s : State) (b w : Nat) (x : Weft) : (s.setWeft b w x).threads = s.threads := rfl
@[simp] theorem State.setWeft_blocks (s : State) (b w : Nat) (x : Weft) : (s.setWeft b w x).blocks = s.blocks := rfl
@[simp] theorem State.setWeft_grids (s : State) (b w : Nat) (x : Weft) : (s.setWeft b w x).grids = s.grids := rfl
@[simp] theorem State.setWeft_nextBlk (s : State) (b w : Nat) (x : Weft) : (s.setWeft b w x).nextBlk = s.nextBlk := rfl
@[simp] theorem State.setWeft_nextGid (s : State) (b w : Nat) (x : Weft) : (s.setWeft b w x).nextGid = s.nextGid := rfl
@[simp] theorem State.setWeft_cores (s : State) (b w : Nat) (x : Weft) : (s.setWeft b w x).cores = s.cores := rfl
@[simp] theorem State.setWeft_domains (s : State) (b w : Nat) (x : Weft) : (s.setWeft b w x).domains = s.domains := rfl
@[simp] theorem State.setWeft_vis (s : State) (b w : Nat) (x : Weft) : (s.setWeft b w x).vis = s.vis := rfl
@[simp] theorem State.setWeft_mem (s : State) (b w : Nat) (x : Weft) : (s.setWeft b w x).mem = s.mem := rfl
@[simp] theorem State.setWeft_bad (s : State) (b w : Nat) (x : Weft) : (s.setWeft b w x).bad = s.bad := rfl
@[simp] theorem State.setWeft_hostMem (s : State) (b w : Nat) (x : Weft) : (s.setWeft b w x).hostMem = s.hostMem := rfl
@[simp] theorem State.setWeft_peers (s : State) (b w : Nat) (x : Weft) : (s.setWeft b w x).peers = s.peers := rfl
@[simp] theorem State.setWeft_ops (s : State) (b w : Nat) (x : Weft) : (s.setWeft b w x).ops = s.ops := rfl
@[simp] theorem State.setWeft_nextOp (s : State) (b w : Nat) (x : Weft) : (s.setWeft b w x).nextOp = s.nextOp := rfl
@[simp] theorem State.setWeft_queues (s : State) (b w : Nat) (x : Weft) : (s.setWeft b w x).queues = s.queues := rfl
@[simp] theorem State.setWeft_waiters (s : State) (b w : Nat) (x : Weft) : (s.setWeft b w x).waiters = s.waiters := rfl
@[simp] theorem State.setWeft_cmds (s : State) (b w : Nat) (x : Weft) : (s.setWeft b w x).cmds = s.cmds := rfl
@[simp] theorem State.setWeft_packets (s : State) (b w : Nat) (x : Weft) : (s.setWeft b w x).packets = s.packets := rfl
@[simp] theorem State.setWeft_nextPacket (s : State) (b w : Nat) (x : Weft) : (s.setWeft b w x).nextPacket = s.nextPacket := rfl
@[simp] theorem State.setWeft_drain (s : State) (b w : Nat) (x : Weft) : (s.setWeft b w x).drain = s.drain := rfl
@[simp] theorem State.setWeft_stored (s : State) (b w : Nat) (x : Weft) : (s.setWeft b w x).stored = s.stored := rfl
@[simp] theorem State.setWeft_storedNo (s : State) (b w : Nat) (x : Weft) : (s.setWeft b w x).storedNo = s.storedNo := rfl
@[simp] theorem State.setWeft_messages (s : State) (b w : Nat) (x : Weft) : (s.setWeft b w x).messages = s.messages := rfl
@[simp] theorem State.setWeft_nextMessage (s : State) (b w : Nat) (x : Weft) : (s.setWeft b w x).nextMessage = s.nextMessage := rfl
@[simp] theorem State.setWeft_fwMin (s : State) (b w : Nat) (x : Weft) : (s.setWeft b w x).fwMin = s.fwMin := rfl
@[simp] theorem State.setWeft_cycle (s : State) (b w : Nat) (x : Weft) : (s.setWeft b w x).cycle = s.cycle := rfl
@[simp] theorem State.setWeft_pwrlim (s : State) (b w : Nat) (x : Weft) : (s.setWeft b w x).pwrlim = s.pwrlim := rfl
@[simp] theorem State.setWeft_key (s : State) (b w : Nat) (x : Weft) : (s.setWeft b w x).key = s.key := rfl
@[simp] theorem State.setWeft_popped (s : State) (b w : Nat) (x : Weft) : (s.setWeft b w x).popped = s.popped := rfl
@[simp] theorem State.setWeft_faults (s : State) (b w : Nat) (x : Weft) : (s.setWeft b w x).faults = s.faults := rfl
@[simp] theorem State.setWeft_pendq (s : State) (b w : Nat) (x : Weft) : (s.setWeft b w x).pendq = s.pendq := rfl
@[simp] theorem State.setWeft_iss (s : State) (b w : Nat) (x : Weft) : (s.setWeft b w x).iss = s.iss := rfl
@[simp] theorem State.setWeft_stalled (s : State) (b w : Nat) (x : Weft) : (s.setWeft b w x).stalled = s.stalled := rfl
@[simp] theorem State.setWeft_agenda (s : State) (b w : Nat) (x : Weft) : (s.setWeft b w x).agenda = s.agenda := rfl
@[simp] theorem State.setWeft_lastPart (s : State) (b w : Nat) (x : Weft) : (s.setWeft b w x).lastPart = s.lastPart := rfl
@[simp] theorem State.setWeft_free (s : State) (b w : Nat) (x : Weft) : (s.setWeft b w x).free = s.free := rfl

@[simp] theorem State.setBlock_threads (s : State) (b : Nat) (x : Block) : (s.setBlock b x).threads = s.threads := rfl
@[simp] theorem State.setBlock_wefts (s : State) (b : Nat) (x : Block) : (s.setBlock b x).wefts = s.wefts := rfl
@[simp] theorem State.setBlock_grids (s : State) (b : Nat) (x : Block) : (s.setBlock b x).grids = s.grids := rfl
@[simp] theorem State.setBlock_nextBlk (s : State) (b : Nat) (x : Block) : (s.setBlock b x).nextBlk = s.nextBlk := rfl
@[simp] theorem State.setBlock_nextGid (s : State) (b : Nat) (x : Block) : (s.setBlock b x).nextGid = s.nextGid := rfl
@[simp] theorem State.setBlock_cores (s : State) (b : Nat) (x : Block) : (s.setBlock b x).cores = s.cores := rfl
@[simp] theorem State.setBlock_domains (s : State) (b : Nat) (x : Block) : (s.setBlock b x).domains = s.domains := rfl
@[simp] theorem State.setBlock_vis (s : State) (b : Nat) (x : Block) : (s.setBlock b x).vis = s.vis := rfl
@[simp] theorem State.setBlock_mem (s : State) (b : Nat) (x : Block) : (s.setBlock b x).mem = s.mem := rfl
@[simp] theorem State.setBlock_bad (s : State) (b : Nat) (x : Block) : (s.setBlock b x).bad = s.bad := rfl
@[simp] theorem State.setBlock_hostMem (s : State) (b : Nat) (x : Block) : (s.setBlock b x).hostMem = s.hostMem := rfl
@[simp] theorem State.setBlock_peers (s : State) (b : Nat) (x : Block) : (s.setBlock b x).peers = s.peers := rfl
@[simp] theorem State.setBlock_ops (s : State) (b : Nat) (x : Block) : (s.setBlock b x).ops = s.ops := rfl
@[simp] theorem State.setBlock_nextOp (s : State) (b : Nat) (x : Block) : (s.setBlock b x).nextOp = s.nextOp := rfl
@[simp] theorem State.setBlock_queues (s : State) (b : Nat) (x : Block) : (s.setBlock b x).queues = s.queues := rfl
@[simp] theorem State.setBlock_waiters (s : State) (b : Nat) (x : Block) : (s.setBlock b x).waiters = s.waiters := rfl
@[simp] theorem State.setBlock_cmds (s : State) (b : Nat) (x : Block) : (s.setBlock b x).cmds = s.cmds := rfl
@[simp] theorem State.setBlock_packets (s : State) (b : Nat) (x : Block) : (s.setBlock b x).packets = s.packets := rfl
@[simp] theorem State.setBlock_nextPacket (s : State) (b : Nat) (x : Block) : (s.setBlock b x).nextPacket = s.nextPacket := rfl
@[simp] theorem State.setBlock_drain (s : State) (b : Nat) (x : Block) : (s.setBlock b x).drain = s.drain := rfl
@[simp] theorem State.setBlock_stored (s : State) (b : Nat) (x : Block) : (s.setBlock b x).stored = s.stored := rfl
@[simp] theorem State.setBlock_storedNo (s : State) (b : Nat) (x : Block) : (s.setBlock b x).storedNo = s.storedNo := rfl
@[simp] theorem State.setBlock_messages (s : State) (b : Nat) (x : Block) : (s.setBlock b x).messages = s.messages := rfl
@[simp] theorem State.setBlock_nextMessage (s : State) (b : Nat) (x : Block) : (s.setBlock b x).nextMessage = s.nextMessage := rfl
@[simp] theorem State.setBlock_fwMin (s : State) (b : Nat) (x : Block) : (s.setBlock b x).fwMin = s.fwMin := rfl
@[simp] theorem State.setBlock_cycle (s : State) (b : Nat) (x : Block) : (s.setBlock b x).cycle = s.cycle := rfl
@[simp] theorem State.setBlock_pwrlim (s : State) (b : Nat) (x : Block) : (s.setBlock b x).pwrlim = s.pwrlim := rfl
@[simp] theorem State.setBlock_key (s : State) (b : Nat) (x : Block) : (s.setBlock b x).key = s.key := rfl
@[simp] theorem State.setBlock_popped (s : State) (b : Nat) (x : Block) : (s.setBlock b x).popped = s.popped := rfl
@[simp] theorem State.setBlock_faults (s : State) (b : Nat) (x : Block) : (s.setBlock b x).faults = s.faults := rfl
@[simp] theorem State.setBlock_pendq (s : State) (b : Nat) (x : Block) : (s.setBlock b x).pendq = s.pendq := rfl
@[simp] theorem State.setBlock_iss (s : State) (b : Nat) (x : Block) : (s.setBlock b x).iss = s.iss := rfl
@[simp] theorem State.setBlock_stalled (s : State) (b : Nat) (x : Block) : (s.setBlock b x).stalled = s.stalled := rfl
@[simp] theorem State.setBlock_agenda (s : State) (b : Nat) (x : Block) : (s.setBlock b x).agenda = s.agenda := rfl
@[simp] theorem State.setBlock_lastPart (s : State) (b : Nat) (x : Block) : (s.setBlock b x).lastPart = s.lastPart := rfl
@[simp] theorem State.setBlock_free (s : State) (b : Nat) (x : Block) : (s.setBlock b x).free = s.free := rfl

@[simp] theorem State.setGrid_threads (s : State) (g : Nat) (x : Grid) : (s.setGrid g x).threads = s.threads := rfl
@[simp] theorem State.setGrid_wefts (s : State) (g : Nat) (x : Grid) : (s.setGrid g x).wefts = s.wefts := rfl
@[simp] theorem State.setGrid_blocks (s : State) (g : Nat) (x : Grid) : (s.setGrid g x).blocks = s.blocks := rfl
@[simp] theorem State.setGrid_nextBlk (s : State) (g : Nat) (x : Grid) : (s.setGrid g x).nextBlk = s.nextBlk := rfl
@[simp] theorem State.setGrid_nextGid (s : State) (g : Nat) (x : Grid) : (s.setGrid g x).nextGid = s.nextGid := rfl
@[simp] theorem State.setGrid_cores (s : State) (g : Nat) (x : Grid) : (s.setGrid g x).cores = s.cores := rfl
@[simp] theorem State.setGrid_domains (s : State) (g : Nat) (x : Grid) : (s.setGrid g x).domains = s.domains := rfl
@[simp] theorem State.setGrid_vis (s : State) (g : Nat) (x : Grid) : (s.setGrid g x).vis = s.vis := rfl
@[simp] theorem State.setGrid_mem (s : State) (g : Nat) (x : Grid) : (s.setGrid g x).mem = s.mem := rfl
@[simp] theorem State.setGrid_bad (s : State) (g : Nat) (x : Grid) : (s.setGrid g x).bad = s.bad := rfl
@[simp] theorem State.setGrid_hostMem (s : State) (g : Nat) (x : Grid) : (s.setGrid g x).hostMem = s.hostMem := rfl
@[simp] theorem State.setGrid_peers (s : State) (g : Nat) (x : Grid) : (s.setGrid g x).peers = s.peers := rfl
@[simp] theorem State.setGrid_ops (s : State) (g : Nat) (x : Grid) : (s.setGrid g x).ops = s.ops := rfl
@[simp] theorem State.setGrid_nextOp (s : State) (g : Nat) (x : Grid) : (s.setGrid g x).nextOp = s.nextOp := rfl
@[simp] theorem State.setGrid_queues (s : State) (g : Nat) (x : Grid) : (s.setGrid g x).queues = s.queues := rfl
@[simp] theorem State.setGrid_waiters (s : State) (g : Nat) (x : Grid) : (s.setGrid g x).waiters = s.waiters := rfl
@[simp] theorem State.setGrid_cmds (s : State) (g : Nat) (x : Grid) : (s.setGrid g x).cmds = s.cmds := rfl
@[simp] theorem State.setGrid_packets (s : State) (g : Nat) (x : Grid) : (s.setGrid g x).packets = s.packets := rfl
@[simp] theorem State.setGrid_nextPacket (s : State) (g : Nat) (x : Grid) : (s.setGrid g x).nextPacket = s.nextPacket := rfl
@[simp] theorem State.setGrid_drain (s : State) (g : Nat) (x : Grid) : (s.setGrid g x).drain = s.drain := rfl
@[simp] theorem State.setGrid_stored (s : State) (g : Nat) (x : Grid) : (s.setGrid g x).stored = s.stored := rfl
@[simp] theorem State.setGrid_storedNo (s : State) (g : Nat) (x : Grid) : (s.setGrid g x).storedNo = s.storedNo := rfl
@[simp] theorem State.setGrid_messages (s : State) (g : Nat) (x : Grid) : (s.setGrid g x).messages = s.messages := rfl
@[simp] theorem State.setGrid_nextMessage (s : State) (g : Nat) (x : Grid) : (s.setGrid g x).nextMessage = s.nextMessage := rfl
@[simp] theorem State.setGrid_fwMin (s : State) (g : Nat) (x : Grid) : (s.setGrid g x).fwMin = s.fwMin := rfl
@[simp] theorem State.setGrid_cycle (s : State) (g : Nat) (x : Grid) : (s.setGrid g x).cycle = s.cycle := rfl
@[simp] theorem State.setGrid_pwrlim (s : State) (g : Nat) (x : Grid) : (s.setGrid g x).pwrlim = s.pwrlim := rfl
@[simp] theorem State.setGrid_key (s : State) (g : Nat) (x : Grid) : (s.setGrid g x).key = s.key := rfl
@[simp] theorem State.setGrid_popped (s : State) (g : Nat) (x : Grid) : (s.setGrid g x).popped = s.popped := rfl
@[simp] theorem State.setGrid_faults (s : State) (g : Nat) (x : Grid) : (s.setGrid g x).faults = s.faults := rfl
@[simp] theorem State.setGrid_pendq (s : State) (g : Nat) (x : Grid) : (s.setGrid g x).pendq = s.pendq := rfl
@[simp] theorem State.setGrid_iss (s : State) (g : Nat) (x : Grid) : (s.setGrid g x).iss = s.iss := rfl
@[simp] theorem State.setGrid_stalled (s : State) (g : Nat) (x : Grid) : (s.setGrid g x).stalled = s.stalled := rfl
@[simp] theorem State.setGrid_agenda (s : State) (g : Nat) (x : Grid) : (s.setGrid g x).agenda = s.agenda := rfl
@[simp] theorem State.setGrid_lastPart (s : State) (g : Nat) (x : Grid) : (s.setGrid g x).lastPart = s.lastPart := rfl
@[simp] theorem State.setGrid_free (s : State) (g : Nat) (x : Grid) : (s.setGrid g x).free = s.free := rfl

@[simp] theorem State.setCore_threads (s : State) (c : Nat) (x : Core) : (s.setCore c x).threads = s.threads := rfl
@[simp] theorem State.setCore_wefts (s : State) (c : Nat) (x : Core) : (s.setCore c x).wefts = s.wefts := rfl
@[simp] theorem State.setCore_blocks (s : State) (c : Nat) (x : Core) : (s.setCore c x).blocks = s.blocks := rfl
@[simp] theorem State.setCore_grids (s : State) (c : Nat) (x : Core) : (s.setCore c x).grids = s.grids := rfl
@[simp] theorem State.setCore_nextBlk (s : State) (c : Nat) (x : Core) : (s.setCore c x).nextBlk = s.nextBlk := rfl
@[simp] theorem State.setCore_nextGid (s : State) (c : Nat) (x : Core) : (s.setCore c x).nextGid = s.nextGid := rfl
@[simp] theorem State.setCore_domains (s : State) (c : Nat) (x : Core) : (s.setCore c x).domains = s.domains := rfl
@[simp] theorem State.setCore_vis (s : State) (c : Nat) (x : Core) : (s.setCore c x).vis = s.vis := rfl
@[simp] theorem State.setCore_mem (s : State) (c : Nat) (x : Core) : (s.setCore c x).mem = s.mem := rfl
@[simp] theorem State.setCore_bad (s : State) (c : Nat) (x : Core) : (s.setCore c x).bad = s.bad := rfl
@[simp] theorem State.setCore_hostMem (s : State) (c : Nat) (x : Core) : (s.setCore c x).hostMem = s.hostMem := rfl
@[simp] theorem State.setCore_peers (s : State) (c : Nat) (x : Core) : (s.setCore c x).peers = s.peers := rfl
@[simp] theorem State.setCore_ops (s : State) (c : Nat) (x : Core) : (s.setCore c x).ops = s.ops := rfl
@[simp] theorem State.setCore_nextOp (s : State) (c : Nat) (x : Core) : (s.setCore c x).nextOp = s.nextOp := rfl
@[simp] theorem State.setCore_queues (s : State) (c : Nat) (x : Core) : (s.setCore c x).queues = s.queues := rfl
@[simp] theorem State.setCore_waiters (s : State) (c : Nat) (x : Core) : (s.setCore c x).waiters = s.waiters := rfl
@[simp] theorem State.setCore_cmds (s : State) (c : Nat) (x : Core) : (s.setCore c x).cmds = s.cmds := rfl
@[simp] theorem State.setCore_packets (s : State) (c : Nat) (x : Core) : (s.setCore c x).packets = s.packets := rfl
@[simp] theorem State.setCore_nextPacket (s : State) (c : Nat) (x : Core) : (s.setCore c x).nextPacket = s.nextPacket := rfl
@[simp] theorem State.setCore_drain (s : State) (c : Nat) (x : Core) : (s.setCore c x).drain = s.drain := rfl
@[simp] theorem State.setCore_stored (s : State) (c : Nat) (x : Core) : (s.setCore c x).stored = s.stored := rfl
@[simp] theorem State.setCore_storedNo (s : State) (c : Nat) (x : Core) : (s.setCore c x).storedNo = s.storedNo := rfl
@[simp] theorem State.setCore_messages (s : State) (c : Nat) (x : Core) : (s.setCore c x).messages = s.messages := rfl
@[simp] theorem State.setCore_nextMessage (s : State) (c : Nat) (x : Core) : (s.setCore c x).nextMessage = s.nextMessage := rfl
@[simp] theorem State.setCore_fwMin (s : State) (c : Nat) (x : Core) : (s.setCore c x).fwMin = s.fwMin := rfl
@[simp] theorem State.setCore_cycle (s : State) (c : Nat) (x : Core) : (s.setCore c x).cycle = s.cycle := rfl
@[simp] theorem State.setCore_pwrlim (s : State) (c : Nat) (x : Core) : (s.setCore c x).pwrlim = s.pwrlim := rfl
@[simp] theorem State.setCore_key (s : State) (c : Nat) (x : Core) : (s.setCore c x).key = s.key := rfl
@[simp] theorem State.setCore_popped (s : State) (c : Nat) (x : Core) : (s.setCore c x).popped = s.popped := rfl
@[simp] theorem State.setCore_faults (s : State) (c : Nat) (x : Core) : (s.setCore c x).faults = s.faults := rfl
@[simp] theorem State.setCore_pendq (s : State) (c : Nat) (x : Core) : (s.setCore c x).pendq = s.pendq := rfl
@[simp] theorem State.setCore_iss (s : State) (c : Nat) (x : Core) : (s.setCore c x).iss = s.iss := rfl
@[simp] theorem State.setCore_stalled (s : State) (c : Nat) (x : Core) : (s.setCore c x).stalled = s.stalled := rfl
@[simp] theorem State.setCore_agenda (s : State) (c : Nat) (x : Core) : (s.setCore c x).agenda = s.agenda := rfl
@[simp] theorem State.setCore_lastPart (s : State) (c : Nat) (x : Core) : (s.setCore c x).lastPart = s.lastPart := rfl
@[simp] theorem State.setCore_free (s : State) (c : Nat) (x : Core) : (s.setCore c x).free = s.free := rfl

@[simp] theorem State.setDomain_threads (s : State) (d : Nat) (x : Domain) : (s.setDomain d x).threads = s.threads := rfl
@[simp] theorem State.setDomain_wefts (s : State) (d : Nat) (x : Domain) : (s.setDomain d x).wefts = s.wefts := rfl
@[simp] theorem State.setDomain_blocks (s : State) (d : Nat) (x : Domain) : (s.setDomain d x).blocks = s.blocks := rfl
@[simp] theorem State.setDomain_grids (s : State) (d : Nat) (x : Domain) : (s.setDomain d x).grids = s.grids := rfl
@[simp] theorem State.setDomain_nextBlk (s : State) (d : Nat) (x : Domain) : (s.setDomain d x).nextBlk = s.nextBlk := rfl
@[simp] theorem State.setDomain_nextGid (s : State) (d : Nat) (x : Domain) : (s.setDomain d x).nextGid = s.nextGid := rfl
@[simp] theorem State.setDomain_cores (s : State) (d : Nat) (x : Domain) : (s.setDomain d x).cores = s.cores := rfl
@[simp] theorem State.setDomain_vis (s : State) (d : Nat) (x : Domain) : (s.setDomain d x).vis = s.vis := rfl
@[simp] theorem State.setDomain_mem (s : State) (d : Nat) (x : Domain) : (s.setDomain d x).mem = s.mem := rfl
@[simp] theorem State.setDomain_bad (s : State) (d : Nat) (x : Domain) : (s.setDomain d x).bad = s.bad := rfl
@[simp] theorem State.setDomain_hostMem (s : State) (d : Nat) (x : Domain) : (s.setDomain d x).hostMem = s.hostMem := rfl
@[simp] theorem State.setDomain_peers (s : State) (d : Nat) (x : Domain) : (s.setDomain d x).peers = s.peers := rfl
@[simp] theorem State.setDomain_ops (s : State) (d : Nat) (x : Domain) : (s.setDomain d x).ops = s.ops := rfl
@[simp] theorem State.setDomain_nextOp (s : State) (d : Nat) (x : Domain) : (s.setDomain d x).nextOp = s.nextOp := rfl
@[simp] theorem State.setDomain_queues (s : State) (d : Nat) (x : Domain) : (s.setDomain d x).queues = s.queues := rfl
@[simp] theorem State.setDomain_waiters (s : State) (d : Nat) (x : Domain) : (s.setDomain d x).waiters = s.waiters := rfl
@[simp] theorem State.setDomain_cmds (s : State) (d : Nat) (x : Domain) : (s.setDomain d x).cmds = s.cmds := rfl
@[simp] theorem State.setDomain_packets (s : State) (d : Nat) (x : Domain) : (s.setDomain d x).packets = s.packets := rfl
@[simp] theorem State.setDomain_nextPacket (s : State) (d : Nat) (x : Domain) : (s.setDomain d x).nextPacket = s.nextPacket := rfl
@[simp] theorem State.setDomain_drain (s : State) (d : Nat) (x : Domain) : (s.setDomain d x).drain = s.drain := rfl
@[simp] theorem State.setDomain_stored (s : State) (d : Nat) (x : Domain) : (s.setDomain d x).stored = s.stored := rfl
@[simp] theorem State.setDomain_storedNo (s : State) (d : Nat) (x : Domain) : (s.setDomain d x).storedNo = s.storedNo := rfl
@[simp] theorem State.setDomain_messages (s : State) (d : Nat) (x : Domain) : (s.setDomain d x).messages = s.messages := rfl
@[simp] theorem State.setDomain_nextMessage (s : State) (d : Nat) (x : Domain) : (s.setDomain d x).nextMessage = s.nextMessage := rfl
@[simp] theorem State.setDomain_fwMin (s : State) (d : Nat) (x : Domain) : (s.setDomain d x).fwMin = s.fwMin := rfl
@[simp] theorem State.setDomain_cycle (s : State) (d : Nat) (x : Domain) : (s.setDomain d x).cycle = s.cycle := rfl
@[simp] theorem State.setDomain_pwrlim (s : State) (d : Nat) (x : Domain) : (s.setDomain d x).pwrlim = s.pwrlim := rfl
@[simp] theorem State.setDomain_key (s : State) (d : Nat) (x : Domain) : (s.setDomain d x).key = s.key := rfl
@[simp] theorem State.setDomain_popped (s : State) (d : Nat) (x : Domain) : (s.setDomain d x).popped = s.popped := rfl
@[simp] theorem State.setDomain_faults (s : State) (d : Nat) (x : Domain) : (s.setDomain d x).faults = s.faults := rfl
@[simp] theorem State.setDomain_pendq (s : State) (d : Nat) (x : Domain) : (s.setDomain d x).pendq = s.pendq := rfl
@[simp] theorem State.setDomain_iss (s : State) (d : Nat) (x : Domain) : (s.setDomain d x).iss = s.iss := rfl
@[simp] theorem State.setDomain_stalled (s : State) (d : Nat) (x : Domain) : (s.setDomain d x).stalled = s.stalled := rfl
@[simp] theorem State.setDomain_agenda (s : State) (d : Nat) (x : Domain) : (s.setDomain d x).agenda = s.agenda := rfl
@[simp] theorem State.setDomain_lastPart (s : State) (d : Nat) (x : Domain) : (s.setDomain d x).lastPart = s.lastPart := rfl
@[simp] theorem State.setDomain_free (s : State) (d : Nat) (x : Domain) : (s.setDomain d x).free = s.free := rfl

@[simp] theorem State.setVI_threads (s : State) (v : Nat) (x : VIface) : (s.setVI v x).threads = s.threads := rfl
@[simp] theorem State.setVI_wefts (s : State) (v : Nat) (x : VIface) : (s.setVI v x).wefts = s.wefts := rfl
@[simp] theorem State.setVI_blocks (s : State) (v : Nat) (x : VIface) : (s.setVI v x).blocks = s.blocks := rfl
@[simp] theorem State.setVI_grids (s : State) (v : Nat) (x : VIface) : (s.setVI v x).grids = s.grids := rfl
@[simp] theorem State.setVI_nextBlk (s : State) (v : Nat) (x : VIface) : (s.setVI v x).nextBlk = s.nextBlk := rfl
@[simp] theorem State.setVI_nextGid (s : State) (v : Nat) (x : VIface) : (s.setVI v x).nextGid = s.nextGid := rfl
@[simp] theorem State.setVI_cores (s : State) (v : Nat) (x : VIface) : (s.setVI v x).cores = s.cores := rfl
@[simp] theorem State.setVI_domains (s : State) (v : Nat) (x : VIface) : (s.setVI v x).domains = s.domains := rfl
@[simp] theorem State.setVI_mem (s : State) (v : Nat) (x : VIface) : (s.setVI v x).mem = s.mem := rfl
@[simp] theorem State.setVI_bad (s : State) (v : Nat) (x : VIface) : (s.setVI v x).bad = s.bad := rfl
@[simp] theorem State.setVI_hostMem (s : State) (v : Nat) (x : VIface) : (s.setVI v x).hostMem = s.hostMem := rfl
@[simp] theorem State.setVI_peers (s : State) (v : Nat) (x : VIface) : (s.setVI v x).peers = s.peers := rfl
@[simp] theorem State.setVI_ops (s : State) (v : Nat) (x : VIface) : (s.setVI v x).ops = s.ops := rfl
@[simp] theorem State.setVI_nextOp (s : State) (v : Nat) (x : VIface) : (s.setVI v x).nextOp = s.nextOp := rfl
@[simp] theorem State.setVI_queues (s : State) (v : Nat) (x : VIface) : (s.setVI v x).queues = s.queues := rfl
@[simp] theorem State.setVI_waiters (s : State) (v : Nat) (x : VIface) : (s.setVI v x).waiters = s.waiters := rfl
@[simp] theorem State.setVI_cmds (s : State) (v : Nat) (x : VIface) : (s.setVI v x).cmds = s.cmds := rfl
@[simp] theorem State.setVI_packets (s : State) (v : Nat) (x : VIface) : (s.setVI v x).packets = s.packets := rfl
@[simp] theorem State.setVI_nextPacket (s : State) (v : Nat) (x : VIface) : (s.setVI v x).nextPacket = s.nextPacket := rfl
@[simp] theorem State.setVI_drain (s : State) (v : Nat) (x : VIface) : (s.setVI v x).drain = s.drain := rfl
@[simp] theorem State.setVI_stored (s : State) (v : Nat) (x : VIface) : (s.setVI v x).stored = s.stored := rfl
@[simp] theorem State.setVI_storedNo (s : State) (v : Nat) (x : VIface) : (s.setVI v x).storedNo = s.storedNo := rfl
@[simp] theorem State.setVI_messages (s : State) (v : Nat) (x : VIface) : (s.setVI v x).messages = s.messages := rfl
@[simp] theorem State.setVI_nextMessage (s : State) (v : Nat) (x : VIface) : (s.setVI v x).nextMessage = s.nextMessage := rfl
@[simp] theorem State.setVI_fwMin (s : State) (v : Nat) (x : VIface) : (s.setVI v x).fwMin = s.fwMin := rfl
@[simp] theorem State.setVI_cycle (s : State) (v : Nat) (x : VIface) : (s.setVI v x).cycle = s.cycle := rfl
@[simp] theorem State.setVI_pwrlim (s : State) (v : Nat) (x : VIface) : (s.setVI v x).pwrlim = s.pwrlim := rfl
@[simp] theorem State.setVI_key (s : State) (v : Nat) (x : VIface) : (s.setVI v x).key = s.key := rfl
@[simp] theorem State.setVI_popped (s : State) (v : Nat) (x : VIface) : (s.setVI v x).popped = s.popped := rfl
@[simp] theorem State.setVI_faults (s : State) (v : Nat) (x : VIface) : (s.setVI v x).faults = s.faults := rfl
@[simp] theorem State.setVI_pendq (s : State) (v : Nat) (x : VIface) : (s.setVI v x).pendq = s.pendq := rfl
@[simp] theorem State.setVI_iss (s : State) (v : Nat) (x : VIface) : (s.setVI v x).iss = s.iss := rfl
@[simp] theorem State.setVI_stalled (s : State) (v : Nat) (x : VIface) : (s.setVI v x).stalled = s.stalled := rfl
@[simp] theorem State.setVI_agenda (s : State) (v : Nat) (x : VIface) : (s.setVI v x).agenda = s.agenda := rfl
@[simp] theorem State.setVI_lastPart (s : State) (v : Nat) (x : VIface) : (s.setVI v x).lastPart = s.lastPart := rfl
@[simp] theorem State.setVI_free (s : State) (v : Nat) (x : VIface) : (s.setVI v x).free = s.free := rfl

@[simp] theorem State.setQueue_threads (s : State) (q : Nat) (x : Queue) : (s.setQueue q x).threads = s.threads := rfl
@[simp] theorem State.setQueue_wefts (s : State) (q : Nat) (x : Queue) : (s.setQueue q x).wefts = s.wefts := rfl
@[simp] theorem State.setQueue_blocks (s : State) (q : Nat) (x : Queue) : (s.setQueue q x).blocks = s.blocks := rfl
@[simp] theorem State.setQueue_grids (s : State) (q : Nat) (x : Queue) : (s.setQueue q x).grids = s.grids := rfl
@[simp] theorem State.setQueue_nextBlk (s : State) (q : Nat) (x : Queue) : (s.setQueue q x).nextBlk = s.nextBlk := rfl
@[simp] theorem State.setQueue_nextGid (s : State) (q : Nat) (x : Queue) : (s.setQueue q x).nextGid = s.nextGid := rfl
@[simp] theorem State.setQueue_cores (s : State) (q : Nat) (x : Queue) : (s.setQueue q x).cores = s.cores := rfl
@[simp] theorem State.setQueue_domains (s : State) (q : Nat) (x : Queue) : (s.setQueue q x).domains = s.domains := rfl
@[simp] theorem State.setQueue_vis (s : State) (q : Nat) (x : Queue) : (s.setQueue q x).vis = s.vis := rfl
@[simp] theorem State.setQueue_mem (s : State) (q : Nat) (x : Queue) : (s.setQueue q x).mem = s.mem := rfl
@[simp] theorem State.setQueue_bad (s : State) (q : Nat) (x : Queue) : (s.setQueue q x).bad = s.bad := rfl
@[simp] theorem State.setQueue_hostMem (s : State) (q : Nat) (x : Queue) : (s.setQueue q x).hostMem = s.hostMem := rfl
@[simp] theorem State.setQueue_peers (s : State) (q : Nat) (x : Queue) : (s.setQueue q x).peers = s.peers := rfl
@[simp] theorem State.setQueue_ops (s : State) (q : Nat) (x : Queue) : (s.setQueue q x).ops = s.ops := rfl
@[simp] theorem State.setQueue_nextOp (s : State) (q : Nat) (x : Queue) : (s.setQueue q x).nextOp = s.nextOp := rfl
@[simp] theorem State.setQueue_waiters (s : State) (q : Nat) (x : Queue) : (s.setQueue q x).waiters = s.waiters := rfl
@[simp] theorem State.setQueue_cmds (s : State) (q : Nat) (x : Queue) : (s.setQueue q x).cmds = s.cmds := rfl
@[simp] theorem State.setQueue_packets (s : State) (q : Nat) (x : Queue) : (s.setQueue q x).packets = s.packets := rfl
@[simp] theorem State.setQueue_nextPacket (s : State) (q : Nat) (x : Queue) : (s.setQueue q x).nextPacket = s.nextPacket := rfl
@[simp] theorem State.setQueue_drain (s : State) (q : Nat) (x : Queue) : (s.setQueue q x).drain = s.drain := rfl
@[simp] theorem State.setQueue_stored (s : State) (q : Nat) (x : Queue) : (s.setQueue q x).stored = s.stored := rfl
@[simp] theorem State.setQueue_storedNo (s : State) (q : Nat) (x : Queue) : (s.setQueue q x).storedNo = s.storedNo := rfl
@[simp] theorem State.setQueue_messages (s : State) (q : Nat) (x : Queue) : (s.setQueue q x).messages = s.messages := rfl
@[simp] theorem State.setQueue_nextMessage (s : State) (q : Nat) (x : Queue) : (s.setQueue q x).nextMessage = s.nextMessage := rfl
@[simp] theorem State.setQueue_fwMin (s : State) (q : Nat) (x : Queue) : (s.setQueue q x).fwMin = s.fwMin := rfl
@[simp] theorem State.setQueue_cycle (s : State) (q : Nat) (x : Queue) : (s.setQueue q x).cycle = s.cycle := rfl
@[simp] theorem State.setQueue_pwrlim (s : State) (q : Nat) (x : Queue) : (s.setQueue q x).pwrlim = s.pwrlim := rfl
@[simp] theorem State.setQueue_key (s : State) (q : Nat) (x : Queue) : (s.setQueue q x).key = s.key := rfl
@[simp] theorem State.setQueue_popped (s : State) (q : Nat) (x : Queue) : (s.setQueue q x).popped = s.popped := rfl
@[simp] theorem State.setQueue_faults (s : State) (q : Nat) (x : Queue) : (s.setQueue q x).faults = s.faults := rfl
@[simp] theorem State.setQueue_pendq (s : State) (q : Nat) (x : Queue) : (s.setQueue q x).pendq = s.pendq := rfl
@[simp] theorem State.setQueue_iss (s : State) (q : Nat) (x : Queue) : (s.setQueue q x).iss = s.iss := rfl
@[simp] theorem State.setQueue_stalled (s : State) (q : Nat) (x : Queue) : (s.setQueue q x).stalled = s.stalled := rfl
@[simp] theorem State.setQueue_agenda (s : State) (q : Nat) (x : Queue) : (s.setQueue q x).agenda = s.agenda := rfl
@[simp] theorem State.setQueue_lastPart (s : State) (q : Nat) (x : Queue) : (s.setQueue q x).lastPart = s.lastPart := rfl
@[simp] theorem State.setQueue_free (s : State) (q : Nat) (x : Queue) : (s.setQueue q x).free = s.free := rfl

@[simp] theorem State.setOp_threads (s : State) (id : Nat) (x : MemOp) : (s.setOp id x).threads = s.threads := rfl
@[simp] theorem State.setOp_wefts (s : State) (id : Nat) (x : MemOp) : (s.setOp id x).wefts = s.wefts := rfl
@[simp] theorem State.setOp_blocks (s : State) (id : Nat) (x : MemOp) : (s.setOp id x).blocks = s.blocks := rfl
@[simp] theorem State.setOp_grids (s : State) (id : Nat) (x : MemOp) : (s.setOp id x).grids = s.grids := rfl
@[simp] theorem State.setOp_nextBlk (s : State) (id : Nat) (x : MemOp) : (s.setOp id x).nextBlk = s.nextBlk := rfl
@[simp] theorem State.setOp_nextGid (s : State) (id : Nat) (x : MemOp) : (s.setOp id x).nextGid = s.nextGid := rfl
@[simp] theorem State.setOp_cores (s : State) (id : Nat) (x : MemOp) : (s.setOp id x).cores = s.cores := rfl
@[simp] theorem State.setOp_domains (s : State) (id : Nat) (x : MemOp) : (s.setOp id x).domains = s.domains := rfl
@[simp] theorem State.setOp_vis (s : State) (id : Nat) (x : MemOp) : (s.setOp id x).vis = s.vis := rfl
@[simp] theorem State.setOp_mem (s : State) (id : Nat) (x : MemOp) : (s.setOp id x).mem = s.mem := rfl
@[simp] theorem State.setOp_bad (s : State) (id : Nat) (x : MemOp) : (s.setOp id x).bad = s.bad := rfl
@[simp] theorem State.setOp_hostMem (s : State) (id : Nat) (x : MemOp) : (s.setOp id x).hostMem = s.hostMem := rfl
@[simp] theorem State.setOp_peers (s : State) (id : Nat) (x : MemOp) : (s.setOp id x).peers = s.peers := rfl
@[simp] theorem State.setOp_nextOp (s : State) (id : Nat) (x : MemOp) : (s.setOp id x).nextOp = s.nextOp := rfl
@[simp] theorem State.setOp_queues (s : State) (id : Nat) (x : MemOp) : (s.setOp id x).queues = s.queues := rfl
@[simp] theorem State.setOp_waiters (s : State) (id : Nat) (x : MemOp) : (s.setOp id x).waiters = s.waiters := rfl
@[simp] theorem State.setOp_cmds (s : State) (id : Nat) (x : MemOp) : (s.setOp id x).cmds = s.cmds := rfl
@[simp] theorem State.setOp_packets (s : State) (id : Nat) (x : MemOp) : (s.setOp id x).packets = s.packets := rfl
@[simp] theorem State.setOp_nextPacket (s : State) (id : Nat) (x : MemOp) : (s.setOp id x).nextPacket = s.nextPacket := rfl
@[simp] theorem State.setOp_drain (s : State) (id : Nat) (x : MemOp) : (s.setOp id x).drain = s.drain := rfl
@[simp] theorem State.setOp_stored (s : State) (id : Nat) (x : MemOp) : (s.setOp id x).stored = s.stored := rfl
@[simp] theorem State.setOp_storedNo (s : State) (id : Nat) (x : MemOp) : (s.setOp id x).storedNo = s.storedNo := rfl
@[simp] theorem State.setOp_messages (s : State) (id : Nat) (x : MemOp) : (s.setOp id x).messages = s.messages := rfl
@[simp] theorem State.setOp_nextMessage (s : State) (id : Nat) (x : MemOp) : (s.setOp id x).nextMessage = s.nextMessage := rfl
@[simp] theorem State.setOp_fwMin (s : State) (id : Nat) (x : MemOp) : (s.setOp id x).fwMin = s.fwMin := rfl
@[simp] theorem State.setOp_cycle (s : State) (id : Nat) (x : MemOp) : (s.setOp id x).cycle = s.cycle := rfl
@[simp] theorem State.setOp_pwrlim (s : State) (id : Nat) (x : MemOp) : (s.setOp id x).pwrlim = s.pwrlim := rfl
@[simp] theorem State.setOp_key (s : State) (id : Nat) (x : MemOp) : (s.setOp id x).key = s.key := rfl
@[simp] theorem State.setOp_popped (s : State) (id : Nat) (x : MemOp) : (s.setOp id x).popped = s.popped := rfl
@[simp] theorem State.setOp_faults (s : State) (id : Nat) (x : MemOp) : (s.setOp id x).faults = s.faults := rfl
@[simp] theorem State.setOp_pendq (s : State) (id : Nat) (x : MemOp) : (s.setOp id x).pendq = s.pendq := rfl
@[simp] theorem State.setOp_iss (s : State) (id : Nat) (x : MemOp) : (s.setOp id x).iss = s.iss := rfl
@[simp] theorem State.setOp_stalled (s : State) (id : Nat) (x : MemOp) : (s.setOp id x).stalled = s.stalled := rfl
@[simp] theorem State.setOp_agenda (s : State) (id : Nat) (x : MemOp) : (s.setOp id x).agenda = s.agenda := rfl
@[simp] theorem State.setOp_lastPart (s : State) (id : Nat) (x : MemOp) : (s.setOp id x).lastPart = s.lastPart := rfl
@[simp] theorem State.setOp_free (s : State) (id : Nat) (x : MemOp) : (s.setOp id x).free = s.free := rfl

@[simp] theorem State.dropOp_threads (s : State) (id : Nat) : (s.dropOp id).threads = s.threads := rfl
@[simp] theorem State.dropOp_wefts (s : State) (id : Nat) : (s.dropOp id).wefts = s.wefts := rfl
@[simp] theorem State.dropOp_blocks (s : State) (id : Nat) : (s.dropOp id).blocks = s.blocks := rfl
@[simp] theorem State.dropOp_grids (s : State) (id : Nat) : (s.dropOp id).grids = s.grids := rfl
@[simp] theorem State.dropOp_nextBlk (s : State) (id : Nat) : (s.dropOp id).nextBlk = s.nextBlk := rfl
@[simp] theorem State.dropOp_nextGid (s : State) (id : Nat) : (s.dropOp id).nextGid = s.nextGid := rfl
@[simp] theorem State.dropOp_cores (s : State) (id : Nat) : (s.dropOp id).cores = s.cores := rfl
@[simp] theorem State.dropOp_domains (s : State) (id : Nat) : (s.dropOp id).domains = s.domains := rfl
@[simp] theorem State.dropOp_vis (s : State) (id : Nat) : (s.dropOp id).vis = s.vis := rfl
@[simp] theorem State.dropOp_mem (s : State) (id : Nat) : (s.dropOp id).mem = s.mem := rfl
@[simp] theorem State.dropOp_bad (s : State) (id : Nat) : (s.dropOp id).bad = s.bad := rfl
@[simp] theorem State.dropOp_hostMem (s : State) (id : Nat) : (s.dropOp id).hostMem = s.hostMem := rfl
@[simp] theorem State.dropOp_peers (s : State) (id : Nat) : (s.dropOp id).peers = s.peers := rfl
@[simp] theorem State.dropOp_nextOp (s : State) (id : Nat) : (s.dropOp id).nextOp = s.nextOp := rfl
@[simp] theorem State.dropOp_queues (s : State) (id : Nat) : (s.dropOp id).queues = s.queues := rfl
@[simp] theorem State.dropOp_waiters (s : State) (id : Nat) : (s.dropOp id).waiters = s.waiters := rfl
@[simp] theorem State.dropOp_cmds (s : State) (id : Nat) : (s.dropOp id).cmds = s.cmds := rfl
@[simp] theorem State.dropOp_packets (s : State) (id : Nat) : (s.dropOp id).packets = s.packets := rfl
@[simp] theorem State.dropOp_nextPacket (s : State) (id : Nat) : (s.dropOp id).nextPacket = s.nextPacket := rfl
@[simp] theorem State.dropOp_drain (s : State) (id : Nat) : (s.dropOp id).drain = s.drain := rfl
@[simp] theorem State.dropOp_stored (s : State) (id : Nat) : (s.dropOp id).stored = s.stored := rfl
@[simp] theorem State.dropOp_storedNo (s : State) (id : Nat) : (s.dropOp id).storedNo = s.storedNo := rfl
@[simp] theorem State.dropOp_messages (s : State) (id : Nat) : (s.dropOp id).messages = s.messages := rfl
@[simp] theorem State.dropOp_nextMessage (s : State) (id : Nat) : (s.dropOp id).nextMessage = s.nextMessage := rfl
@[simp] theorem State.dropOp_fwMin (s : State) (id : Nat) : (s.dropOp id).fwMin = s.fwMin := rfl
@[simp] theorem State.dropOp_cycle (s : State) (id : Nat) : (s.dropOp id).cycle = s.cycle := rfl
@[simp] theorem State.dropOp_pwrlim (s : State) (id : Nat) : (s.dropOp id).pwrlim = s.pwrlim := rfl
@[simp] theorem State.dropOp_key (s : State) (id : Nat) : (s.dropOp id).key = s.key := rfl
@[simp] theorem State.dropOp_popped (s : State) (id : Nat) : (s.dropOp id).popped = s.popped := rfl
@[simp] theorem State.dropOp_faults (s : State) (id : Nat) : (s.dropOp id).faults = s.faults := rfl
@[simp] theorem State.dropOp_pendq (s : State) (id : Nat) : (s.dropOp id).pendq = s.pendq := rfl
@[simp] theorem State.dropOp_iss (s : State) (id : Nat) : (s.dropOp id).iss = s.iss := rfl
@[simp] theorem State.dropOp_stalled (s : State) (id : Nat) : (s.dropOp id).stalled = s.stalled := rfl
@[simp] theorem State.dropOp_agenda (s : State) (id : Nat) : (s.dropOp id).agenda = s.agenda := rfl
@[simp] theorem State.dropOp_lastPart (s : State) (id : Nat) : (s.dropOp id).lastPart = s.lastPart := rfl
@[simp] theorem State.dropOp_free (s : State) (id : Nat) : (s.dropOp id).free = s.free := rfl

@[simp] theorem State.fresh_threads (s : State) : s.fresh.2.threads = s.threads := rfl
@[simp] theorem State.fresh_wefts (s : State) : s.fresh.2.wefts = s.wefts := rfl
@[simp] theorem State.fresh_blocks (s : State) : s.fresh.2.blocks = s.blocks := rfl
@[simp] theorem State.fresh_grids (s : State) : s.fresh.2.grids = s.grids := rfl
@[simp] theorem State.fresh_nextBlk (s : State) : s.fresh.2.nextBlk = s.nextBlk := rfl
@[simp] theorem State.fresh_nextGid (s : State) : s.fresh.2.nextGid = s.nextGid := rfl
@[simp] theorem State.fresh_cores (s : State) : s.fresh.2.cores = s.cores := rfl
@[simp] theorem State.fresh_domains (s : State) : s.fresh.2.domains = s.domains := rfl
@[simp] theorem State.fresh_vis (s : State) : s.fresh.2.vis = s.vis := rfl
@[simp] theorem State.fresh_mem (s : State) : s.fresh.2.mem = s.mem := rfl
@[simp] theorem State.fresh_bad (s : State) : s.fresh.2.bad = s.bad := rfl
@[simp] theorem State.fresh_hostMem (s : State) : s.fresh.2.hostMem = s.hostMem := rfl
@[simp] theorem State.fresh_peers (s : State) : s.fresh.2.peers = s.peers := rfl
@[simp] theorem State.fresh_ops (s : State) : s.fresh.2.ops = s.ops := rfl
@[simp] theorem State.fresh_nextOp (s : State) : s.fresh.2.nextOp = s.nextOp := rfl
@[simp] theorem State.fresh_queues (s : State) : s.fresh.2.queues = s.queues := rfl
@[simp] theorem State.fresh_waiters (s : State) : s.fresh.2.waiters = s.waiters := rfl
@[simp] theorem State.fresh_cmds (s : State) : s.fresh.2.cmds = s.cmds := rfl
@[simp] theorem State.fresh_packets (s : State) : s.fresh.2.packets = s.packets := rfl
@[simp] theorem State.fresh_nextPacket (s : State) : s.fresh.2.nextPacket = s.nextPacket := rfl
@[simp] theorem State.fresh_drain (s : State) : s.fresh.2.drain = s.drain := rfl
@[simp] theorem State.fresh_stored (s : State) : s.fresh.2.stored = s.stored := rfl
@[simp] theorem State.fresh_storedNo (s : State) : s.fresh.2.storedNo = s.storedNo := rfl
@[simp] theorem State.fresh_messages (s : State) : s.fresh.2.messages = s.messages := rfl
@[simp] theorem State.fresh_nextMessage (s : State) : s.fresh.2.nextMessage = s.nextMessage := rfl
@[simp] theorem State.fresh_fwMin (s : State) : s.fresh.2.fwMin = s.fwMin := rfl
@[simp] theorem State.fresh_cycle (s : State) : s.fresh.2.cycle = s.cycle := rfl
@[simp] theorem State.fresh_pwrlim (s : State) : s.fresh.2.pwrlim = s.pwrlim := rfl
@[simp] theorem State.fresh_key (s : State) : s.fresh.2.key = s.key := rfl
@[simp] theorem State.fresh_popped (s : State) : s.fresh.2.popped = s.popped := rfl
@[simp] theorem State.fresh_faults (s : State) : s.fresh.2.faults = s.faults := rfl
@[simp] theorem State.fresh_pendq (s : State) : s.fresh.2.pendq = s.pendq := rfl
@[simp] theorem State.fresh_iss (s : State) : s.fresh.2.iss = s.iss := rfl
@[simp] theorem State.fresh_stalled (s : State) : s.fresh.2.stalled = s.stalled := rfl
@[simp] theorem State.fresh_agenda (s : State) : s.fresh.2.agenda = s.agenda := rfl
@[simp] theorem State.fresh_lastPart (s : State) : s.fresh.2.lastPart = s.lastPart := rfl

@[simp] theorem addOp_threads (s : State) (o : MemOp) : (addOp s o).threads = s.threads := rfl
@[simp] theorem addOp_wefts (s : State) (o : MemOp) : (addOp s o).wefts = s.wefts := rfl
@[simp] theorem addOp_blocks (s : State) (o : MemOp) : (addOp s o).blocks = s.blocks := rfl
@[simp] theorem addOp_grids (s : State) (o : MemOp) : (addOp s o).grids = s.grids := rfl
@[simp] theorem addOp_nextBlk (s : State) (o : MemOp) : (addOp s o).nextBlk = s.nextBlk := rfl
@[simp] theorem addOp_nextGid (s : State) (o : MemOp) : (addOp s o).nextGid = s.nextGid := rfl
@[simp] theorem addOp_cores (s : State) (o : MemOp) : (addOp s o).cores = s.cores := rfl
@[simp] theorem addOp_domains (s : State) (o : MemOp) : (addOp s o).domains = s.domains := rfl
@[simp] theorem addOp_vis (s : State) (o : MemOp) : (addOp s o).vis = s.vis := rfl
@[simp] theorem addOp_mem (s : State) (o : MemOp) : (addOp s o).mem = s.mem := rfl
@[simp] theorem addOp_bad (s : State) (o : MemOp) : (addOp s o).bad = s.bad := rfl
@[simp] theorem addOp_hostMem (s : State) (o : MemOp) : (addOp s o).hostMem = s.hostMem := rfl
@[simp] theorem addOp_peers (s : State) (o : MemOp) : (addOp s o).peers = s.peers := rfl
@[simp] theorem addOp_queues (s : State) (o : MemOp) : (addOp s o).queues = s.queues := rfl
@[simp] theorem addOp_waiters (s : State) (o : MemOp) : (addOp s o).waiters = s.waiters := rfl
@[simp] theorem addOp_cmds (s : State) (o : MemOp) : (addOp s o).cmds = s.cmds := rfl
@[simp] theorem addOp_packets (s : State) (o : MemOp) : (addOp s o).packets = s.packets := rfl
@[simp] theorem addOp_nextPacket (s : State) (o : MemOp) : (addOp s o).nextPacket = s.nextPacket := rfl
@[simp] theorem addOp_drain (s : State) (o : MemOp) : (addOp s o).drain = s.drain := rfl
@[simp] theorem addOp_stored (s : State) (o : MemOp) : (addOp s o).stored = s.stored := rfl
@[simp] theorem addOp_storedNo (s : State) (o : MemOp) : (addOp s o).storedNo = s.storedNo := rfl
@[simp] theorem addOp_messages (s : State) (o : MemOp) : (addOp s o).messages = s.messages := rfl
@[simp] theorem addOp_nextMessage (s : State) (o : MemOp) : (addOp s o).nextMessage = s.nextMessage := rfl
@[simp] theorem addOp_fwMin (s : State) (o : MemOp) : (addOp s o).fwMin = s.fwMin := rfl
@[simp] theorem addOp_cycle (s : State) (o : MemOp) : (addOp s o).cycle = s.cycle := rfl
@[simp] theorem addOp_pwrlim (s : State) (o : MemOp) : (addOp s o).pwrlim = s.pwrlim := rfl
@[simp] theorem addOp_key (s : State) (o : MemOp) : (addOp s o).key = s.key := rfl
@[simp] theorem addOp_popped (s : State) (o : MemOp) : (addOp s o).popped = s.popped := rfl
@[simp] theorem addOp_faults (s : State) (o : MemOp) : (addOp s o).faults = s.faults := rfl
@[simp] theorem addOp_pendq (s : State) (o : MemOp) : (addOp s o).pendq = s.pendq := rfl
@[simp] theorem addOp_iss (s : State) (o : MemOp) : (addOp s o).iss = s.iss := rfl
@[simp] theorem addOp_stalled (s : State) (o : MemOp) : (addOp s o).stalled = s.stalled := rfl
@[simp] theorem addOp_agenda (s : State) (o : MemOp) : (addOp s o).agenda = s.agenda := rfl
@[simp] theorem addOp_lastPart (s : State) (o : MemOp) : (addOp s o).lastPart = s.lastPart := rfl
@[simp] theorem addOp_free (s : State) (o : MemOp) : (addOp s o).free = s.free := rfl

@[simp] theorem State.withIssue_threads (u s : State) : (u.withIssue s).threads = s.threads := rfl
@[simp] theorem State.withIssue_wefts (u s : State) : (u.withIssue s).wefts = s.wefts := rfl
@[simp] theorem State.withIssue_blocks (u s : State) : (u.withIssue s).blocks = s.blocks := rfl
@[simp] theorem State.withIssue_grids (u s : State) : (u.withIssue s).grids = u.grids := rfl
@[simp] theorem State.withIssue_nextBlk (u s : State) : (u.withIssue s).nextBlk = u.nextBlk := rfl
@[simp] theorem State.withIssue_nextGid (u s : State) : (u.withIssue s).nextGid = u.nextGid := rfl
@[simp] theorem State.withIssue_cores (u s : State) : (u.withIssue s).cores = u.cores := rfl
@[simp] theorem State.withIssue_domains (u s : State) : (u.withIssue s).domains = u.domains := rfl
@[simp] theorem State.withIssue_vis (u s : State) : (u.withIssue s).vis = u.vis := rfl
@[simp] theorem State.withIssue_mem (u s : State) : (u.withIssue s).mem = u.mem := rfl
@[simp] theorem State.withIssue_bad (u s : State) : (u.withIssue s).bad = u.bad := rfl
@[simp] theorem State.withIssue_hostMem (u s : State) : (u.withIssue s).hostMem = u.hostMem := rfl
@[simp] theorem State.withIssue_peers (u s : State) : (u.withIssue s).peers = u.peers := rfl
@[simp] theorem State.withIssue_ops (u s : State) : (u.withIssue s).ops = u.ops := rfl
@[simp] theorem State.withIssue_nextOp (u s : State) : (u.withIssue s).nextOp = u.nextOp := rfl
@[simp] theorem State.withIssue_queues (u s : State) : (u.withIssue s).queues = u.queues := rfl
@[simp] theorem State.withIssue_waiters (u s : State) : (u.withIssue s).waiters = u.waiters := rfl
@[simp] theorem State.withIssue_cmds (u s : State) : (u.withIssue s).cmds = u.cmds := rfl
@[simp] theorem State.withIssue_packets (u s : State) : (u.withIssue s).packets = u.packets := rfl
@[simp] theorem State.withIssue_nextPacket (u s : State) : (u.withIssue s).nextPacket = u.nextPacket := rfl
@[simp] theorem State.withIssue_drain (u s : State) : (u.withIssue s).drain = u.drain := rfl
@[simp] theorem State.withIssue_stored (u s : State) : (u.withIssue s).stored = u.stored := rfl
@[simp] theorem State.withIssue_storedNo (u s : State) : (u.withIssue s).storedNo = u.storedNo := rfl
@[simp] theorem State.withIssue_messages (u s : State) : (u.withIssue s).messages = u.messages := rfl
@[simp] theorem State.withIssue_nextMessage (u s : State) : (u.withIssue s).nextMessage = u.nextMessage := rfl
@[simp] theorem State.withIssue_fwMin (u s : State) : (u.withIssue s).fwMin = u.fwMin := rfl
@[simp] theorem State.withIssue_cycle (u s : State) : (u.withIssue s).cycle = u.cycle := rfl
@[simp] theorem State.withIssue_pwrlim (u s : State) : (u.withIssue s).pwrlim = u.pwrlim := rfl
@[simp] theorem State.withIssue_key (u s : State) : (u.withIssue s).key = u.key := rfl
@[simp] theorem State.withIssue_popped (u s : State) : (u.withIssue s).popped = u.popped := rfl
@[simp] theorem State.withIssue_faults (u s : State) : (u.withIssue s).faults = u.faults := rfl
@[simp] theorem State.withIssue_pendq (u s : State) : (u.withIssue s).pendq = u.pendq := rfl
@[simp] theorem State.withIssue_iss (u s : State) : (u.withIssue s).iss = s.iss := rfl
@[simp] theorem State.withIssue_stalled (u s : State) : (u.withIssue s).stalled = u.stalled := rfl
@[simp] theorem State.withIssue_agenda (u s : State) : (u.withIssue s).agenda = u.agenda := rfl
@[simp] theorem State.withIssue_lastPart (u s : State) : (u.withIssue s).lastPart = u.lastPart := rfl
@[simp] theorem State.withIssue_free (u s : State) : (u.withIssue s).free = u.free := rfl

/-! ## Homes whose table an update leaves alone -/

@[simp] theorem State.setThread_weft_home (s : State) (b w l : Nat) (x : Thread) (b' w' : Nat) : (s.setThread b w l x).weft b' w' = s.weft b' w' := rfl
@[simp] theorem State.setThread_block_home (s : State) (b w l : Nat) (x : Thread) (b' : Nat) : (s.setThread b w l x).block b' = s.block b' := rfl
@[simp] theorem State.setThread_grid_home (s : State) (b w l : Nat) (x : Thread) (g' : Nat) : (s.setThread b w l x).grid g' = s.grid g' := rfl
@[simp] theorem State.setThread_core_home (s : State) (b w l : Nat) (x : Thread) (c' : Nat) : (s.setThread b w l x).core c' = s.core c' := rfl
@[simp] theorem State.setThread_domain_home (s : State) (b w l : Nat) (x : Thread) (d' : Nat) : (s.setThread b w l x).domain d' = s.domain d' := rfl
@[simp] theorem State.setThread_viface_home (s : State) (b w l : Nat) (x : Thread) (v' : Nat) : (s.setThread b w l x).viface v' = s.viface v' := rfl
@[simp] theorem State.setThread_queue_home (s : State) (b w l : Nat) (x : Thread) (q' : Nat) : (s.setThread b w l x).queue q' = s.queue q' := rfl
@[simp] theorem State.setThread_op_home (s : State) (b w l : Nat) (x : Thread) (id' : Nat) : (s.setThread b w l x).op? id' = s.op? id' := rfl

@[simp] theorem State.setWeft_thread_home (s : State) (b w : Nat) (x : Weft) (b' w' l' : Nat) : (s.setWeft b w x).thread b' w' l' = s.thread b' w' l' := rfl
@[simp] theorem State.setWeft_block_home (s : State) (b w : Nat) (x : Weft) (b' : Nat) : (s.setWeft b w x).block b' = s.block b' := rfl
@[simp] theorem State.setWeft_grid_home (s : State) (b w : Nat) (x : Weft) (g' : Nat) : (s.setWeft b w x).grid g' = s.grid g' := rfl
@[simp] theorem State.setWeft_core_home (s : State) (b w : Nat) (x : Weft) (c' : Nat) : (s.setWeft b w x).core c' = s.core c' := rfl
@[simp] theorem State.setWeft_domain_home (s : State) (b w : Nat) (x : Weft) (d' : Nat) : (s.setWeft b w x).domain d' = s.domain d' := rfl
@[simp] theorem State.setWeft_viface_home (s : State) (b w : Nat) (x : Weft) (v' : Nat) : (s.setWeft b w x).viface v' = s.viface v' := rfl
@[simp] theorem State.setWeft_queue_home (s : State) (b w : Nat) (x : Weft) (q' : Nat) : (s.setWeft b w x).queue q' = s.queue q' := rfl
@[simp] theorem State.setWeft_op_home (s : State) (b w : Nat) (x : Weft) (id' : Nat) : (s.setWeft b w x).op? id' = s.op? id' := rfl

@[simp] theorem State.setBlock_thread_home (s : State) (b : Nat) (x : Block) (b' w' l' : Nat) : (s.setBlock b x).thread b' w' l' = s.thread b' w' l' := rfl
@[simp] theorem State.setBlock_weft_home (s : State) (b : Nat) (x : Block) (b' w' : Nat) : (s.setBlock b x).weft b' w' = s.weft b' w' := rfl
@[simp] theorem State.setBlock_grid_home (s : State) (b : Nat) (x : Block) (g' : Nat) : (s.setBlock b x).grid g' = s.grid g' := rfl
@[simp] theorem State.setBlock_core_home (s : State) (b : Nat) (x : Block) (c' : Nat) : (s.setBlock b x).core c' = s.core c' := rfl
@[simp] theorem State.setBlock_domain_home (s : State) (b : Nat) (x : Block) (d' : Nat) : (s.setBlock b x).domain d' = s.domain d' := rfl
@[simp] theorem State.setBlock_viface_home (s : State) (b : Nat) (x : Block) (v' : Nat) : (s.setBlock b x).viface v' = s.viface v' := rfl
@[simp] theorem State.setBlock_queue_home (s : State) (b : Nat) (x : Block) (q' : Nat) : (s.setBlock b x).queue q' = s.queue q' := rfl
@[simp] theorem State.setBlock_op_home (s : State) (b : Nat) (x : Block) (id' : Nat) : (s.setBlock b x).op? id' = s.op? id' := rfl

@[simp] theorem State.setGrid_thread_home (s : State) (g : Nat) (x : Grid) (b' w' l' : Nat) : (s.setGrid g x).thread b' w' l' = s.thread b' w' l' := rfl
@[simp] theorem State.setGrid_weft_home (s : State) (g : Nat) (x : Grid) (b' w' : Nat) : (s.setGrid g x).weft b' w' = s.weft b' w' := rfl
@[simp] theorem State.setGrid_block_home (s : State) (g : Nat) (x : Grid) (b' : Nat) : (s.setGrid g x).block b' = s.block b' := rfl
@[simp] theorem State.setGrid_core_home (s : State) (g : Nat) (x : Grid) (c' : Nat) : (s.setGrid g x).core c' = s.core c' := rfl
@[simp] theorem State.setGrid_domain_home (s : State) (g : Nat) (x : Grid) (d' : Nat) : (s.setGrid g x).domain d' = s.domain d' := rfl
@[simp] theorem State.setGrid_viface_home (s : State) (g : Nat) (x : Grid) (v' : Nat) : (s.setGrid g x).viface v' = s.viface v' := rfl
@[simp] theorem State.setGrid_queue_home (s : State) (g : Nat) (x : Grid) (q' : Nat) : (s.setGrid g x).queue q' = s.queue q' := rfl
@[simp] theorem State.setGrid_op_home (s : State) (g : Nat) (x : Grid) (id' : Nat) : (s.setGrid g x).op? id' = s.op? id' := rfl

@[simp] theorem State.setCore_thread_home (s : State) (c : Nat) (x : Core) (b' w' l' : Nat) : (s.setCore c x).thread b' w' l' = s.thread b' w' l' := rfl
@[simp] theorem State.setCore_weft_home (s : State) (c : Nat) (x : Core) (b' w' : Nat) : (s.setCore c x).weft b' w' = s.weft b' w' := rfl
@[simp] theorem State.setCore_block_home (s : State) (c : Nat) (x : Core) (b' : Nat) : (s.setCore c x).block b' = s.block b' := rfl
@[simp] theorem State.setCore_grid_home (s : State) (c : Nat) (x : Core) (g' : Nat) : (s.setCore c x).grid g' = s.grid g' := rfl
@[simp] theorem State.setCore_domain_home (s : State) (c : Nat) (x : Core) (d' : Nat) : (s.setCore c x).domain d' = s.domain d' := rfl
@[simp] theorem State.setCore_viface_home (s : State) (c : Nat) (x : Core) (v' : Nat) : (s.setCore c x).viface v' = s.viface v' := rfl
@[simp] theorem State.setCore_queue_home (s : State) (c : Nat) (x : Core) (q' : Nat) : (s.setCore c x).queue q' = s.queue q' := rfl
@[simp] theorem State.setCore_op_home (s : State) (c : Nat) (x : Core) (id' : Nat) : (s.setCore c x).op? id' = s.op? id' := rfl

@[simp] theorem State.setDomain_thread_home (s : State) (d : Nat) (x : Domain) (b' w' l' : Nat) : (s.setDomain d x).thread b' w' l' = s.thread b' w' l' := rfl
@[simp] theorem State.setDomain_weft_home (s : State) (d : Nat) (x : Domain) (b' w' : Nat) : (s.setDomain d x).weft b' w' = s.weft b' w' := rfl
@[simp] theorem State.setDomain_block_home (s : State) (d : Nat) (x : Domain) (b' : Nat) : (s.setDomain d x).block b' = s.block b' := rfl
@[simp] theorem State.setDomain_grid_home (s : State) (d : Nat) (x : Domain) (g' : Nat) : (s.setDomain d x).grid g' = s.grid g' := rfl
@[simp] theorem State.setDomain_core_home (s : State) (d : Nat) (x : Domain) (c' : Nat) : (s.setDomain d x).core c' = s.core c' := rfl
@[simp] theorem State.setDomain_viface_home (s : State) (d : Nat) (x : Domain) (v' : Nat) : (s.setDomain d x).viface v' = s.viface v' := rfl
@[simp] theorem State.setDomain_queue_home (s : State) (d : Nat) (x : Domain) (q' : Nat) : (s.setDomain d x).queue q' = s.queue q' := rfl
@[simp] theorem State.setDomain_op_home (s : State) (d : Nat) (x : Domain) (id' : Nat) : (s.setDomain d x).op? id' = s.op? id' := rfl

@[simp] theorem State.setVI_thread_home (s : State) (v : Nat) (x : VIface) (b' w' l' : Nat) : (s.setVI v x).thread b' w' l' = s.thread b' w' l' := rfl
@[simp] theorem State.setVI_weft_home (s : State) (v : Nat) (x : VIface) (b' w' : Nat) : (s.setVI v x).weft b' w' = s.weft b' w' := rfl
@[simp] theorem State.setVI_block_home (s : State) (v : Nat) (x : VIface) (b' : Nat) : (s.setVI v x).block b' = s.block b' := rfl
@[simp] theorem State.setVI_grid_home (s : State) (v : Nat) (x : VIface) (g' : Nat) : (s.setVI v x).grid g' = s.grid g' := rfl
@[simp] theorem State.setVI_core_home (s : State) (v : Nat) (x : VIface) (c' : Nat) : (s.setVI v x).core c' = s.core c' := rfl
@[simp] theorem State.setVI_domain_home (s : State) (v : Nat) (x : VIface) (d' : Nat) : (s.setVI v x).domain d' = s.domain d' := rfl
@[simp] theorem State.setVI_queue_home (s : State) (v : Nat) (x : VIface) (q' : Nat) : (s.setVI v x).queue q' = s.queue q' := rfl
@[simp] theorem State.setVI_op_home (s : State) (v : Nat) (x : VIface) (id' : Nat) : (s.setVI v x).op? id' = s.op? id' := rfl

@[simp] theorem State.setQueue_thread_home (s : State) (q : Nat) (x : Queue) (b' w' l' : Nat) : (s.setQueue q x).thread b' w' l' = s.thread b' w' l' := rfl
@[simp] theorem State.setQueue_weft_home (s : State) (q : Nat) (x : Queue) (b' w' : Nat) : (s.setQueue q x).weft b' w' = s.weft b' w' := rfl
@[simp] theorem State.setQueue_block_home (s : State) (q : Nat) (x : Queue) (b' : Nat) : (s.setQueue q x).block b' = s.block b' := rfl
@[simp] theorem State.setQueue_grid_home (s : State) (q : Nat) (x : Queue) (g' : Nat) : (s.setQueue q x).grid g' = s.grid g' := rfl
@[simp] theorem State.setQueue_core_home (s : State) (q : Nat) (x : Queue) (c' : Nat) : (s.setQueue q x).core c' = s.core c' := rfl
@[simp] theorem State.setQueue_domain_home (s : State) (q : Nat) (x : Queue) (d' : Nat) : (s.setQueue q x).domain d' = s.domain d' := rfl
@[simp] theorem State.setQueue_viface_home (s : State) (q : Nat) (x : Queue) (v' : Nat) : (s.setQueue q x).viface v' = s.viface v' := rfl
@[simp] theorem State.setQueue_op_home (s : State) (q : Nat) (x : Queue) (id' : Nat) : (s.setQueue q x).op? id' = s.op? id' := rfl

@[simp] theorem State.setOp_thread_home (s : State) (id : Nat) (x : MemOp) (b' w' l' : Nat) : (s.setOp id x).thread b' w' l' = s.thread b' w' l' := rfl
@[simp] theorem State.setOp_weft_home (s : State) (id : Nat) (x : MemOp) (b' w' : Nat) : (s.setOp id x).weft b' w' = s.weft b' w' := rfl
@[simp] theorem State.setOp_block_home (s : State) (id : Nat) (x : MemOp) (b' : Nat) : (s.setOp id x).block b' = s.block b' := rfl
@[simp] theorem State.setOp_grid_home (s : State) (id : Nat) (x : MemOp) (g' : Nat) : (s.setOp id x).grid g' = s.grid g' := rfl
@[simp] theorem State.setOp_core_home (s : State) (id : Nat) (x : MemOp) (c' : Nat) : (s.setOp id x).core c' = s.core c' := rfl
@[simp] theorem State.setOp_domain_home (s : State) (id : Nat) (x : MemOp) (d' : Nat) : (s.setOp id x).domain d' = s.domain d' := rfl
@[simp] theorem State.setOp_viface_home (s : State) (id : Nat) (x : MemOp) (v' : Nat) : (s.setOp id x).viface v' = s.viface v' := rfl
@[simp] theorem State.setOp_queue_home (s : State) (id : Nat) (x : MemOp) (q' : Nat) : (s.setOp id x).queue q' = s.queue q' := rfl

/-! ## Homes after their own update -/

theorem State.thread_setThread (s : State) (b w l b' w' l' : Nat) (x : Thread) :
    (s.setThread b w l x).thread b' w' l' = if tkey b' w' l' = tkey b w l then x else s.thread b' w' l' := by
  simp only [State.thread, State.setThread, Sp.get_put]
@[simp] theorem State.thread_setThread_same (s : State) (b w l : Nat) (x : Thread) : (s.setThread b w l x).thread b w l = x := by
  simp [State.thread_setThread]
theorem State.weft_setWeft (s : State) (b w b' w' : Nat) (x : Weft) :
    (s.setWeft b w x).weft b' w' = if wkey b' w' = wkey b w then x else s.weft b' w' := by
  simp only [State.weft, State.setWeft, Sp.get_put]
@[simp] theorem State.weft_setWeft_same (s : State) (b w : Nat) (x : Weft) : (s.setWeft b w x).weft b w = x := by
  simp [State.weft_setWeft]
theorem State.block_setBlock (s : State) (b b' : Nat) (x : Block) : (s.setBlock b x).block b' = if b' = b then x else s.block b' := by
  simp only [State.block, State.setBlock, Sp.get_put]
@[simp] theorem State.block_setBlock_same (s : State) (b : Nat) (x : Block) : (s.setBlock b x).block b = x := by
  simp [State.block_setBlock]
theorem State.grid_setGrid (s : State) (g g' : Nat) (x : Grid) : (s.setGrid g x).grid g' = if g' = g then x else s.grid g' := by
  simp only [State.grid, State.setGrid, Sp.get_put]
@[simp] theorem State.grid_setGrid_same (s : State) (g : Nat) (x : Grid) : (s.setGrid g x).grid g = x := by
  simp [State.grid_setGrid]
theorem State.core_setCore (s : State) (c c' : Nat) (x : Core) : (s.setCore c x).core c' = if c' = c then x else s.core c' := by
  simp only [State.core, State.setCore, Sp.get_put]
@[simp] theorem State.core_setCore_same (s : State) (c : Nat) (x : Core) : (s.setCore c x).core c = x := by
  simp [State.core_setCore]
theorem State.domain_setDomain (s : State) (d d' : Nat) (x : Domain) : (s.setDomain d x).domain d' = if d' = d then x else s.domain d' := by
  simp only [State.domain, State.setDomain, Sp.get_put]
@[simp] theorem State.domain_setDomain_same (s : State) (d : Nat) (x : Domain) : (s.setDomain d x).domain d = x := by
  simp [State.domain_setDomain]
theorem State.viface_setVI (s : State) (v v' : Nat) (x : VIface) : (s.setVI v x).viface v' = if v' = v then x else s.viface v' := by
  simp only [State.viface, State.setVI, Sp.get_put]
@[simp] theorem State.viface_setVI_same (s : State) (v : Nat) (x : VIface) : (s.setVI v x).viface v = x := by
  simp [State.viface_setVI]
theorem State.queue_setQueue (s : State) (q q' : Nat) (x : Queue) : (s.setQueue q x).queue q' = if q' = q then x else s.queue q' := by
  simp only [State.queue, State.setQueue, Sp.get_put]
@[simp] theorem State.queue_setQueue_same (s : State) (q : Nat) (x : Queue) : (s.setQueue q x).queue q = x := by
  simp [State.queue_setQueue]
theorem State.op_setOp (s : State) (id id' : Nat) (x : MemOp) : (s.setOp id x).op? id' = if id' = id then some x else s.op? id' := by
  simp only [State.op?, State.setOp, Sp.find_put]
theorem State.op_dropOp (s : State) (id id' : Nat) : (s.dropOp id).op? id' = if id' = id then none else s.op? id' := by
  simp only [State.op?, State.dropOp, Sp.find_del]
theorem State.op_addOp (s : State) (o : MemOp) (id : Nat) : (addOp s o).op? id = if id = s.nextOp then some o else s.op? id := by
  simp only [State.op?, addOp, Sp.find_put]

/-- Keys of threads of one weft: the lane decides. -/
theorem tkey_lane (b w l l' : Nat) : tkey b w l = tkey b w l' ↔ l = l' := by
  simp only [tkey]; omega

/-- Keys of threads, for the wefts and lanes that exist. -/
theorem tkey_inj {b w l b' w' l' : Nat} (hw : w < 128) (hl : l < 32) (hw' : w' < 128) (hl' : l' < 32) :
    tkey b w l = tkey b' w' l' ↔ b = b' ∧ w = w' ∧ l = l' := by
  simp only [tkey]; omega

/-- Keys of wefts, for the wefts that exist. -/
theorem wkey_inj {b w b' w' : Nat} (hw : w < 128) (hw' : w' < 128) : wkey b w = wkey b' w' ↔ b = b' ∧ w = w' := by
  simp only [wkey]; omega

/-! ## Fields of threads and wefts -/

@[simp] theorem Thread.setReg_tst (t : Thread) (r : Nat) (v : Word) : (t.setReg r v).tst = t.tst := by unfold Thread.setReg; split <;> rfl
@[simp] theorem Thread.setReg_pc (t : Thread) (r : Nat) (v : Word) : (t.setReg r v).pc = t.pc := by unfold Thread.setReg; split <;> rfl
@[simp] theorem Thread.setReg_x (t : Thread) (r : Nat) (v : Word) : (t.setReg r v).x = t.x := by unfold Thread.setReg; split <;> rfl
@[simp] theorem Thread.setReg_fcsr (t : Thread) (r : Nat) (v : Word) : (t.setReg r v).fcsr = t.fcsr := by unfold Thread.setReg; split <;> rfl
@[simp] theorem Thread.setReg_sptr (t : Thread) (r : Nat) (v : Word) : (t.setReg r v).sptr = t.sptr := by unfold Thread.setReg; split <;> rfl
@[simp] theorem Thread.setReg_rs (t : Thread) (r : Nat) (v : Word) : (t.setReg r v).rs = t.rs := by unfold Thread.setReg; split <;> rfl
@[simp] theorem Thread.setReg_wait (t : Thread) (r : Nat) (v : Word) : (t.setReg r v).wait = t.wait := by unfold Thread.setReg; split <;> rfl
@[simp] theorem Thread.setReg_tcause (t : Thread) (r : Nat) (v : Word) : (t.setReg r v).tcause = t.tcause := by unfold Thread.setReg; split <;> rfl
@[simp] theorem Thread.setReg_tpc (t : Thread) (r : Nat) (v : Word) : (t.setReg r v).tpc = t.tpc := by unfold Thread.setReg; split <;> rfl
@[simp] theorem Thread.setReg_taddr (t : Thread) (r : Nat) (v : Word) : (t.setReg r v).taddr = t.taddr := by unfold Thread.setReg; split <;> rfl
@[simp] theorem Thread.setReg_tinfo (t : Thread) (r : Nat) (v : Word) : (t.setReg r v).tinfo = t.tinfo := by unfold Thread.setReg; split <;> rfl
@[simp] theorem Thread.setReg_hscr (t : Thread) (r : Nat) (v : Word) : (t.setReg r v).hscr = t.hscr := by unfold Thread.setReg; split <;> rfl
@[simp] theorem Thread.setReg_trq (t : Thread) (r : Nat) (v : Word) : (t.setReg r v).trq = t.trq := by unfold Thread.setReg; split <;> rfl
@[simp] theorem Thread.setReg_hold (t : Thread) (r : Nat) (v : Word) : (t.setReg r v).hold = t.hold := by unfold Thread.setReg; split <;> rfl
@[simp] theorem Thread.setReg_parkq (t : Thread) (r : Nat) (v : Word) : (t.setReg r v).parkq = t.parkq := by unfold Thread.setReg; split <;> rfl
@[simp] theorem Thread.setReg_deliver (t : Thread) (r : Nat) (v : Word) : (t.setReg r v).deliver = t.deliver := by unfold Thread.setReg; split <;> rfl
@[simp] theorem Thread.setReg_xBad (t : Thread) (r : Nat) (v : Word) : (t.setReg r v).xBad = t.xBad := by unfold Thread.setReg; split <;> rfl

@[simp] theorem Thread.setPair_tst (t : Thread) (r : Nat) (v : DWord) : (t.setPair r v).tst = t.tst := by unfold Thread.setPair; split <;> simp
@[simp] theorem Thread.setPair_pc (t : Thread) (r : Nat) (v : DWord) : (t.setPair r v).pc = t.pc := by unfold Thread.setPair; split <;> simp
@[simp] theorem Thread.setPair_x (t : Thread) (r : Nat) (v : DWord) : (t.setPair r v).x = t.x := by unfold Thread.setPair; split <;> simp
@[simp] theorem Thread.setPair_fcsr (t : Thread) (r : Nat) (v : DWord) : (t.setPair r v).fcsr = t.fcsr := by unfold Thread.setPair; split <;> simp
@[simp] theorem Thread.setPair_sptr (t : Thread) (r : Nat) (v : DWord) : (t.setPair r v).sptr = t.sptr := by unfold Thread.setPair; split <;> simp
@[simp] theorem Thread.setPair_rs (t : Thread) (r : Nat) (v : DWord) : (t.setPair r v).rs = t.rs := by unfold Thread.setPair; split <;> simp
@[simp] theorem Thread.setPair_wait (t : Thread) (r : Nat) (v : DWord) : (t.setPair r v).wait = t.wait := by unfold Thread.setPair; split <;> simp
@[simp] theorem Thread.setPair_tcause (t : Thread) (r : Nat) (v : DWord) : (t.setPair r v).tcause = t.tcause := by unfold Thread.setPair; split <;> simp
@[simp] theorem Thread.setPair_tpc (t : Thread) (r : Nat) (v : DWord) : (t.setPair r v).tpc = t.tpc := by unfold Thread.setPair; split <;> simp
@[simp] theorem Thread.setPair_taddr (t : Thread) (r : Nat) (v : DWord) : (t.setPair r v).taddr = t.taddr := by unfold Thread.setPair; split <;> simp
@[simp] theorem Thread.setPair_tinfo (t : Thread) (r : Nat) (v : DWord) : (t.setPair r v).tinfo = t.tinfo := by unfold Thread.setPair; split <;> simp
@[simp] theorem Thread.setPair_hscr (t : Thread) (r : Nat) (v : DWord) : (t.setPair r v).hscr = t.hscr := by unfold Thread.setPair; split <;> simp
@[simp] theorem Thread.setPair_trq (t : Thread) (r : Nat) (v : DWord) : (t.setPair r v).trq = t.trq := by unfold Thread.setPair; split <;> simp
@[simp] theorem Thread.setPair_hold (t : Thread) (r : Nat) (v : DWord) : (t.setPair r v).hold = t.hold := by unfold Thread.setPair; split <;> simp
@[simp] theorem Thread.setPair_parkq (t : Thread) (r : Nat) (v : DWord) : (t.setPair r v).parkq = t.parkq := by unfold Thread.setPair; split <;> simp
@[simp] theorem Thread.setPair_deliver (t : Thread) (r : Nat) (v : DWord) : (t.setPair r v).deliver = t.deliver := by unfold Thread.setPair; split <;> simp
@[simp] theorem Thread.setPair_xBad (t : Thread) (r : Nat) (v : DWord) : (t.setPair r v).xBad = t.xBad := by unfold Thread.setPair; split <;> simp

@[simp] theorem Thread.setQuad_tst (t : Thread) (r : Nat) (v : QWord) : (t.setQuad r v).tst = t.tst := by unfold Thread.setQuad; split <;> simp
@[simp] theorem Thread.setQuad_pc (t : Thread) (r : Nat) (v : QWord) : (t.setQuad r v).pc = t.pc := by unfold Thread.setQuad; split <;> simp
@[simp] theorem Thread.setQuad_x (t : Thread) (r : Nat) (v : QWord) : (t.setQuad r v).x = t.x := by unfold Thread.setQuad; split <;> simp
@[simp] theorem Thread.setQuad_fcsr (t : Thread) (r : Nat) (v : QWord) : (t.setQuad r v).fcsr = t.fcsr := by unfold Thread.setQuad; split <;> simp
@[simp] theorem Thread.setQuad_sptr (t : Thread) (r : Nat) (v : QWord) : (t.setQuad r v).sptr = t.sptr := by unfold Thread.setQuad; split <;> simp
@[simp] theorem Thread.setQuad_rs (t : Thread) (r : Nat) (v : QWord) : (t.setQuad r v).rs = t.rs := by unfold Thread.setQuad; split <;> simp
@[simp] theorem Thread.setQuad_wait (t : Thread) (r : Nat) (v : QWord) : (t.setQuad r v).wait = t.wait := by unfold Thread.setQuad; split <;> simp
@[simp] theorem Thread.setQuad_tcause (t : Thread) (r : Nat) (v : QWord) : (t.setQuad r v).tcause = t.tcause := by unfold Thread.setQuad; split <;> simp
@[simp] theorem Thread.setQuad_tpc (t : Thread) (r : Nat) (v : QWord) : (t.setQuad r v).tpc = t.tpc := by unfold Thread.setQuad; split <;> simp
@[simp] theorem Thread.setQuad_taddr (t : Thread) (r : Nat) (v : QWord) : (t.setQuad r v).taddr = t.taddr := by unfold Thread.setQuad; split <;> simp
@[simp] theorem Thread.setQuad_tinfo (t : Thread) (r : Nat) (v : QWord) : (t.setQuad r v).tinfo = t.tinfo := by unfold Thread.setQuad; split <;> simp
@[simp] theorem Thread.setQuad_hscr (t : Thread) (r : Nat) (v : QWord) : (t.setQuad r v).hscr = t.hscr := by unfold Thread.setQuad; split <;> simp
@[simp] theorem Thread.setQuad_trq (t : Thread) (r : Nat) (v : QWord) : (t.setQuad r v).trq = t.trq := by unfold Thread.setQuad; split <;> simp
@[simp] theorem Thread.setQuad_hold (t : Thread) (r : Nat) (v : QWord) : (t.setQuad r v).hold = t.hold := by unfold Thread.setQuad; split <;> simp
@[simp] theorem Thread.setQuad_parkq (t : Thread) (r : Nat) (v : QWord) : (t.setQuad r v).parkq = t.parkq := by unfold Thread.setQuad; split <;> simp
@[simp] theorem Thread.setQuad_deliver (t : Thread) (r : Nat) (v : QWord) : (t.setQuad r v).deliver = t.deliver := by unfold Thread.setQuad; split <;> simp
@[simp] theorem Thread.setQuad_xBad (t : Thread) (r : Nat) (v : QWord) : (t.setQuad r v).xBad = t.xBad := by unfold Thread.setQuad; split <;> simp

@[simp] theorem Thread.raise_tst (t : Thread) (f : Nat) : (t.raise f).tst = t.tst := rfl
@[simp] theorem Thread.raise_pc (t : Thread) (f : Nat) : (t.raise f).pc = t.pc := rfl
@[simp] theorem Thread.raise_v (t : Thread) (f : Nat) : (t.raise f).v = t.v := rfl
@[simp] theorem Thread.raise_x (t : Thread) (f : Nat) : (t.raise f).x = t.x := rfl
@[simp] theorem Thread.raise_sptr (t : Thread) (f : Nat) : (t.raise f).sptr = t.sptr := rfl
@[simp] theorem Thread.raise_rs (t : Thread) (f : Nat) : (t.raise f).rs = t.rs := rfl
@[simp] theorem Thread.raise_wait (t : Thread) (f : Nat) : (t.raise f).wait = t.wait := rfl
@[simp] theorem Thread.raise_tcause (t : Thread) (f : Nat) : (t.raise f).tcause = t.tcause := rfl
@[simp] theorem Thread.raise_tpc (t : Thread) (f : Nat) : (t.raise f).tpc = t.tpc := rfl
@[simp] theorem Thread.raise_taddr (t : Thread) (f : Nat) : (t.raise f).taddr = t.taddr := rfl
@[simp] theorem Thread.raise_tinfo (t : Thread) (f : Nat) : (t.raise f).tinfo = t.tinfo := rfl
@[simp] theorem Thread.raise_hscr (t : Thread) (f : Nat) : (t.raise f).hscr = t.hscr := rfl
@[simp] theorem Thread.raise_trq (t : Thread) (f : Nat) : (t.raise f).trq = t.trq := rfl
@[simp] theorem Thread.raise_hold (t : Thread) (f : Nat) : (t.raise f).hold = t.hold := rfl
@[simp] theorem Thread.raise_parkq (t : Thread) (f : Nat) : (t.raise f).parkq = t.parkq := rfl
@[simp] theorem Thread.raise_deliver (t : Thread) (f : Nat) : (t.raise f).deliver = t.deliver := rfl
@[simp] theorem Thread.raise_vBad (t : Thread) (f : Nat) : (t.raise f).vBad = t.vBad := rfl
@[simp] theorem Thread.raise_xBad (t : Thread) (f : Nat) : (t.raise f).xBad = t.xBad := rfl

@[simp] theorem Thread.setX_tst (t : Thread) (i : BitVec 2) (v : Word) : (t.setX i v).tst = t.tst := rfl
@[simp] theorem Thread.setX_pc (t : Thread) (i : BitVec 2) (v : Word) : (t.setX i v).pc = t.pc := rfl
@[simp] theorem Thread.setX_v (t : Thread) (i : BitVec 2) (v : Word) : (t.setX i v).v = t.v := rfl
@[simp] theorem Thread.setX_fcsr (t : Thread) (i : BitVec 2) (v : Word) : (t.setX i v).fcsr = t.fcsr := rfl
@[simp] theorem Thread.setX_sptr (t : Thread) (i : BitVec 2) (v : Word) : (t.setX i v).sptr = t.sptr := rfl
@[simp] theorem Thread.setX_rs (t : Thread) (i : BitVec 2) (v : Word) : (t.setX i v).rs = t.rs := rfl
@[simp] theorem Thread.setX_wait (t : Thread) (i : BitVec 2) (v : Word) : (t.setX i v).wait = t.wait := rfl
@[simp] theorem Thread.setX_tcause (t : Thread) (i : BitVec 2) (v : Word) : (t.setX i v).tcause = t.tcause := rfl
@[simp] theorem Thread.setX_tpc (t : Thread) (i : BitVec 2) (v : Word) : (t.setX i v).tpc = t.tpc := rfl
@[simp] theorem Thread.setX_taddr (t : Thread) (i : BitVec 2) (v : Word) : (t.setX i v).taddr = t.taddr := rfl
@[simp] theorem Thread.setX_tinfo (t : Thread) (i : BitVec 2) (v : Word) : (t.setX i v).tinfo = t.tinfo := rfl
@[simp] theorem Thread.setX_hscr (t : Thread) (i : BitVec 2) (v : Word) : (t.setX i v).hscr = t.hscr := rfl
@[simp] theorem Thread.setX_trq (t : Thread) (i : BitVec 2) (v : Word) : (t.setX i v).trq = t.trq := rfl
@[simp] theorem Thread.setX_hold (t : Thread) (i : BitVec 2) (v : Word) : (t.setX i v).hold = t.hold := rfl
@[simp] theorem Thread.setX_parkq (t : Thread) (i : BitVec 2) (v : Word) : (t.setX i v).parkq = t.parkq := rfl
@[simp] theorem Thread.setX_deliver (t : Thread) (i : BitVec 2) (v : Word) : (t.setX i v).deliver = t.deliver := rfl
@[simp] theorem Thread.setX_vBad (t : Thread) (i : BitVec 2) (v : Word) : (t.setX i v).vBad = t.vBad := rfl

@[simp] theorem Weft.setK_wst (w : Weft) (r : Nat) (v : Word) : (w.setK r v).wst = w.wst := by unfold Weft.setK; split <;> rfl
@[simp] theorem Weft.setK_role (w : Weft) (r : Nat) (v : Word) : (w.setK r v).role = w.role := by unfold Weft.setK; split <;> rfl
@[simp] theorem Weft.setK_sbUser (w : Weft) (r : Nat) (v : Word) : (w.setK r v).sbUser = w.sbUser := by unfold Weft.setK; split <;> rfl
@[simp] theorem Weft.setK_sbHandler (w : Weft) (r : Nat) (v : Word) : (w.setK r v).sbHandler = w.sbHandler := by unfold Weft.setK; split <;> rfl
@[simp] theorem Weft.setK_lastHandler (w : Weft) (r : Nat) (v : Word) : (w.setK r v).lastHandler = w.lastHandler := by unfold Weft.setK; split <;> rfl
@[simp] theorem Weft.setK_part (w : Weft) (r : Nat) (v : Word) : (w.setK r v).part = w.part := by unfold Weft.setK; split <;> rfl
@[simp] theorem Weft.setK_row (w : Weft) (r : Nat) (v : Word) : (w.setK r v).row = w.row := by unfold Weft.setK; split <;> rfl
@[simp] theorem Weft.setK_pos (w : Weft) (r : Nat) (v : Word) : (w.setK r v).pos = w.pos := by unfold Weft.setK; split <;> rfl
@[simp] theorem Weft.setK_ld (w : Weft) (r : Nat) (v : Word) : (w.setK r v).ld = w.ld := by unfold Weft.setK; split <;> rfl
@[simp] theorem Weft.setK_st (w : Weft) (r : Nat) (v : Word) : (w.setK r v).st = w.st := by unfold Weft.setK; split <;> rfl
@[simp] theorem Weft.setK_cp (w : Weft) (r : Nat) (v : Word) : (w.setK r v).cp = w.cp := by unfold Weft.setK; split <;> rfl
@[simp] theorem Weft.setK_mx (w : Weft) (r : Nat) (v : Word) : (w.setK r v).mx = w.mx := by unfold Weft.setK; split <;> rfl
@[simp] theorem Weft.setK_cpSeq (w : Weft) (r : Nat) (v : Word) : (w.setK r v).cpSeq = w.cpSeq := by unfold Weft.setK; split <;> rfl
@[simp] theorem Weft.setK_mxSeq (w : Weft) (r : Nat) (v : Word) : (w.setK r v).mxSeq = w.mxSeq := by unfold Weft.setK; split <;> rfl
@[simp] theorem Weft.setK_failures (w : Weft) (r : Nat) (v : Word) : (w.setK r v).failures = w.failures := by unfold Weft.setK; split <;> rfl
@[simp] theorem Weft.setK_mxFailed (w : Weft) (r : Nat) (v : Word) : (w.setK r v).mxFailed = w.mxFailed := by unfold Weft.setK; split <;> rfl
@[simp] theorem Weft.setK_slots (w : Weft) (r : Nat) (v : Word) : (w.setK r v).slots = w.slots := by unfold Weft.setK; split <;> rfl
@[simp] theorem Weft.setK_park (w : Weft) (r : Nat) (v : Word) : (w.setK r v).park = w.park := by unfold Weft.setK; split <;> rfl
@[simp] theorem Weft.setK_pending (w : Weft) (r : Nat) (v : Word) : (w.setK r v).pending = w.pending := by unfold Weft.setK; split <;> rfl
@[simp] theorem Weft.setK_parkOp (w : Weft) (r : Nat) (v : Word) : (w.setK r v).parkOp = w.parkOp := by unfold Weft.setK; split <;> rfl
@[simp] theorem Weft.setK_atIssue (w : Weft) (r : Nat) (v : Word) : (w.setK r v).atIssue = w.atIssue := by unfold Weft.setK; split <;> rfl

@[simp] theorem Weft.setKPair_wst (w : Weft) (r : Nat) (v : DWord) : (w.setKPair r v).wst = w.wst := by
  unfold Weft.setKPair; split <;> simp
@[simp] theorem Weft.setKPair_role (w : Weft) (r : Nat) (v : DWord) : (w.setKPair r v).role = w.role := by
  unfold Weft.setKPair; split <;> simp
@[simp] theorem Weft.setKPair_sbUser (w : Weft) (r : Nat) (v : DWord) : (w.setKPair r v).sbUser = w.sbUser := by
  unfold Weft.setKPair; split <;> simp
@[simp] theorem Weft.setKPair_sbHandler (w : Weft) (r : Nat) (v : DWord) : (w.setKPair r v).sbHandler = w.sbHandler := by
  unfold Weft.setKPair; split <;> simp
@[simp] theorem Weft.setKPair_lastHandler (w : Weft) (r : Nat) (v : DWord) : (w.setKPair r v).lastHandler = w.lastHandler := by
  unfold Weft.setKPair; split <;> simp
@[simp] theorem Weft.setKPair_part (w : Weft) (r : Nat) (v : DWord) : (w.setKPair r v).part = w.part := by
  unfold Weft.setKPair; split <;> simp
@[simp] theorem Weft.setKPair_row (w : Weft) (r : Nat) (v : DWord) : (w.setKPair r v).row = w.row := by
  unfold Weft.setKPair; split <;> simp
@[simp] theorem Weft.setKPair_pos (w : Weft) (r : Nat) (v : DWord) : (w.setKPair r v).pos = w.pos := by
  unfold Weft.setKPair; split <;> simp
@[simp] theorem Weft.setKPair_ld (w : Weft) (r : Nat) (v : DWord) : (w.setKPair r v).ld = w.ld := by
  unfold Weft.setKPair; split <;> simp
@[simp] theorem Weft.setKPair_st (w : Weft) (r : Nat) (v : DWord) : (w.setKPair r v).st = w.st := by
  unfold Weft.setKPair; split <;> simp
@[simp] theorem Weft.setKPair_cp (w : Weft) (r : Nat) (v : DWord) : (w.setKPair r v).cp = w.cp := by
  unfold Weft.setKPair; split <;> simp
@[simp] theorem Weft.setKPair_mx (w : Weft) (r : Nat) (v : DWord) : (w.setKPair r v).mx = w.mx := by
  unfold Weft.setKPair; split <;> simp
@[simp] theorem Weft.setKPair_cpSeq (w : Weft) (r : Nat) (v : DWord) : (w.setKPair r v).cpSeq = w.cpSeq := by
  unfold Weft.setKPair; split <;> simp
@[simp] theorem Weft.setKPair_mxSeq (w : Weft) (r : Nat) (v : DWord) : (w.setKPair r v).mxSeq = w.mxSeq := by
  unfold Weft.setKPair; split <;> simp
@[simp] theorem Weft.setKPair_failures (w : Weft) (r : Nat) (v : DWord) : (w.setKPair r v).failures = w.failures := by
  unfold Weft.setKPair; split <;> simp
@[simp] theorem Weft.setKPair_mxFailed (w : Weft) (r : Nat) (v : DWord) : (w.setKPair r v).mxFailed = w.mxFailed := by
  unfold Weft.setKPair; split <;> simp
@[simp] theorem Weft.setKPair_slots (w : Weft) (r : Nat) (v : DWord) : (w.setKPair r v).slots = w.slots := by
  unfold Weft.setKPair; split <;> simp
@[simp] theorem Weft.setKPair_park (w : Weft) (r : Nat) (v : DWord) : (w.setKPair r v).park = w.park := by
  unfold Weft.setKPair; split <;> simp
@[simp] theorem Weft.setKPair_pending (w : Weft) (r : Nat) (v : DWord) : (w.setKPair r v).pending = w.pending := by
  unfold Weft.setKPair; split <;> simp
@[simp] theorem Weft.setKPair_parkOp (w : Weft) (r : Nat) (v : DWord) : (w.setKPair r v).parkOp = w.parkOp := by
  unfold Weft.setKPair; split <;> simp
@[simp] theorem Weft.setKPair_atIssue (w : Weft) (r : Nat) (v : DWord) : (w.setKPair r v).atIssue = w.atIssue := by
  unfold Weft.setKPair; split <;> simp

@[simp] theorem Weft.setCounter_wst (w : Weft) (c : Counter) (q : List CntEntry) : (w.setCounter c q).wst = w.wst := by
  cases c <;> rfl
@[simp] theorem Weft.setCounter_role (w : Weft) (c : Counter) (q : List CntEntry) : (w.setCounter c q).role = w.role := by
  cases c <;> rfl
@[simp] theorem Weft.setCounter_k (w : Weft) (c : Counter) (q : List CntEntry) : (w.setCounter c q).k = w.k := by
  cases c <;> rfl
@[simp] theorem Weft.setCounter_sbUser (w : Weft) (c : Counter) (q : List CntEntry) : (w.setCounter c q).sbUser = w.sbUser := by
  cases c <;> rfl
@[simp] theorem Weft.setCounter_sbHandler (w : Weft) (c : Counter) (q : List CntEntry) : (w.setCounter c q).sbHandler = w.sbHandler := by
  cases c <;> rfl
@[simp] theorem Weft.setCounter_lastHandler (w : Weft) (c : Counter) (q : List CntEntry) : (w.setCounter c q).lastHandler = w.lastHandler := by
  cases c <;> rfl
@[simp] theorem Weft.setCounter_part (w : Weft) (c : Counter) (q : List CntEntry) : (w.setCounter c q).part = w.part := by
  cases c <;> rfl
@[simp] theorem Weft.setCounter_row (w : Weft) (c : Counter) (q : List CntEntry) : (w.setCounter c q).row = w.row := by
  cases c <;> rfl
@[simp] theorem Weft.setCounter_pos (w : Weft) (c : Counter) (q : List CntEntry) : (w.setCounter c q).pos = w.pos := by
  cases c <;> rfl
@[simp] theorem Weft.setCounter_cpSeq (w : Weft) (c : Counter) (q : List CntEntry) : (w.setCounter c q).cpSeq = w.cpSeq := by
  cases c <;> rfl
@[simp] theorem Weft.setCounter_mxSeq (w : Weft) (c : Counter) (q : List CntEntry) : (w.setCounter c q).mxSeq = w.mxSeq := by
  cases c <;> rfl
@[simp] theorem Weft.setCounter_failures (w : Weft) (c : Counter) (q : List CntEntry) : (w.setCounter c q).failures = w.failures := by
  cases c <;> rfl
@[simp] theorem Weft.setCounter_mxFailed (w : Weft) (c : Counter) (q : List CntEntry) : (w.setCounter c q).mxFailed = w.mxFailed := by
  cases c <;> rfl
@[simp] theorem Weft.setCounter_slots (w : Weft) (c : Counter) (q : List CntEntry) : (w.setCounter c q).slots = w.slots := by
  cases c <;> rfl
@[simp] theorem Weft.setCounter_park (w : Weft) (c : Counter) (q : List CntEntry) : (w.setCounter c q).park = w.park := by
  cases c <;> rfl
@[simp] theorem Weft.setCounter_pending (w : Weft) (c : Counter) (q : List CntEntry) : (w.setCounter c q).pending = w.pending := by
  cases c <;> rfl
@[simp] theorem Weft.setCounter_parkOp (w : Weft) (c : Counter) (q : List CntEntry) : (w.setCounter c q).parkOp = w.parkOp := by
  cases c <;> rfl
@[simp] theorem Weft.setCounter_kBad (w : Weft) (c : Counter) (q : List CntEntry) : (w.setCounter c q).kBad = w.kBad := by
  cases c <;> rfl
@[simp] theorem Weft.setCounter_atIssue (w : Weft) (c : Counter) (q : List CntEntry) : (w.setCounter c q).atIssue = w.atIssue := by
  cases c <;> rfl
@[simp] theorem Weft.counter_setCounter (w : Weft) (c c' : Counter) (q : List CntEntry) :
    (w.setCounter c q).counter c' = if c' = c then q else w.counter c' := by
  cases c <;> cases c' <;> rfl

end Sys2Proof.Machine
end

