-- ==== Sys2Proof/Laws/Issue.lean ====
section
/-!
SUPPORT. What the issue of an instruction does, once for all of them: the record of an issue, the lanes of the
issue set one after another, and the instruction that acts on lanes, or once for its weft.
-/
namespace Sys2Proof.Machine
open Sys2Proof

/-! ## States that agree but for their threads -/

/-- `v` holds what `u` holds in every field but the threads. -/
def ThreadsOnly (u v : State) : Prop := { v with threads := [] } = { u with threads := [] }

theorem ThreadsOnly.refl (u : State) : ThreadsOnly u u := Eq.refl _
theorem ThreadsOnly.trans {u v w : State} (h : ThreadsOnly u v) (h' : ThreadsOnly v w) : ThreadsOnly u w := Eq.trans h' h
theorem ThreadsOnly.setThread (u : State) (b w l : Nat) (x : Thread) : ThreadsOnly u (u.setThread b w l x) := Eq.refl _

/-- Any other field is the same in both. -/
theorem ThreadsOnly.field {u v : State} (h : ThreadsOnly u v) {α : Sort*} (f : State → α)
    (hf : ∀ s : State, f { s with threads := [] } = f s) : f v = f u := by
  rw [← hf v, ← hf u, h]

/-- A relation that holds of each step holds of a fold. -/
theorem foldl_rel {α β : Type*} {R : α → α → Prop} (refl : ∀ a, R a a) (trans : ∀ {a b c}, R a b → R b c → R a c)
    (step : α → β → α) (h : ∀ a x, R a (step a x)) (ls : List β) (a : α) : R a (ls.foldl step a) := by
  induction ls generalizing a with
  | nil => exact refl a
  | cons x ls ih => exact trans (h a x) (ih _)

/-! ## The lanes of a weft, one after another -/

/-- The lanes of a list, each set from what it holds then. -/
def setLanes (b w : Nat) (f : State → Nat → Thread) (ls : List Nat) (s : State) : State :=
  ls.foldl (fun u l => u.setThread b w l (f u l)) s

theorem setLanes_threadsOnly (b w : Nat) (f : State → Nat → Thread) (ls : List Nat) (s : State) :
    ThreadsOnly s (setLanes b w f ls s) :=
  foldl_rel ThreadsOnly.refl ThreadsOnly.trans _ (fun u l => ThreadsOnly.setThread u b w l (f u l)) ls s

/-- The threads off the list stay. -/
theorem setLanes_other (b w : Nat) (f : State → Nat → Thread) (ls : List Nat) (s : State) (k : Nat)
    (hk : ∀ l ∈ ls, k ≠ tkey b w l) : Sp.find? (setLanes b w f ls s).threads k = Sp.find? s.threads k := by
  induction ls generalizing s with
  | nil => rfl
  | cons l ls ih =>
    have h := ih (s.setThread b w l (f s l)) fun l' h' => hk l' (by simp [h'])
    simp only [setLanes, List.foldl_cons] at h ⊢
    rw [h]
    simp only [State.setThread, Sp.find_put]
    rw [if_neg (hk l (by simp))]

/-- A lane of the list that comes once holds what `f` gives it, where `f` looks at nothing that earlier lanes change. -/
theorem setLanes_lane (b w : Nat) (f : State → Nat → Thread) (ls : List Nat) (s : State) (hd : ls.Nodup)
    (g : Nat → Thread) (hf : ∀ l ∈ ls, ∀ u, ThreadsOnly s u → u.thread b w l = s.thread b w l → f u l = g l) :
    ∀ l ∈ ls, (setLanes b w f ls s).thread b w l = g l := by
  induction ls generalizing s with
  | nil => simp
  | cons l ls ih =>
    rw [List.nodup_cons] at hd
    have hs : setLanes b w f (l :: ls) s = setLanes b w f ls (s.setThread b w l (f s l)) := rfl
    rw [hs]
    intro j hj
    rcases List.mem_cons.mp hj with rfl | hj
    · have h := setLanes_other b w f ls (s.setThread b w j (f s j)) (tkey b w j)
        fun l' h' he => hd.1 ((tkey_lane b w j l').mp he ▸ h')
      have h' : (setLanes b w f ls (s.setThread b w j (f s j))).thread b w j = (s.setThread b w j (f s j)).thread b w j := by
        simp only [State.thread, Sp.get, h]
      rw [h', State.thread_setThread_same]
      exact hf j (by simp) s (ThreadsOnly.refl s) rfl
    · refine ih (s.setThread b w l (f s l)) hd.2 (fun i hi u hu ht => ?_) j hj
      have hil : i ≠ l := fun h => hd.1 (h ▸ hi)
      refine hf i (by simp [hi]) u (ThreadsOnly.trans (ThreadsOnly.setThread s b w l (f s l)) hu) ?_
      rw [ht, State.thread_setThread, if_neg fun h => hil ((tkey_lane b w i l).mp h)]

/-! ## The record of an issue -/

theorem clearDeliver_eq (s : State) :
    clearDeliver s = setLanes s.iss.blk s.iss.weft (fun u l => { u.thread s.iss.blk s.iss.weft l with deliver := false })
      (maskLanes s.iss.deliver) s := by
  have key : ∀ (ls : List Nat) (u : State), u.iss = s.iss →
      ls.foldl (fun s l => s.setThread s.iss.blk s.iss.weft l { s.thread s.iss.blk s.iss.weft l with deliver := false }) u =
        setLanes s.iss.blk s.iss.weft (fun u l => { u.thread s.iss.blk s.iss.weft l with deliver := false }) ls u := by
    intro ls
    induction ls with
    | nil => intro u _; simp only [setLanes, List.foldl_nil]
    | cons l ls ih => intro u hu; simp only [List.foldl_cons, setLanes, hu]; exact ih _ (by simp [hu])
  exact key _ s rfl

theorem clearDeliver_threadsOnly (s : State) : ThreadsOnly s (clearDeliver s) := by
  rw [clearDeliver_eq]; exact setLanes_threadsOnly _ _ _ _ _

@[simp] theorem clearDeliver_wefts (s : State) : (clearDeliver s).wefts = s.wefts :=
  (clearDeliver_threadsOnly s).field State.wefts fun _ => rfl
@[simp] theorem clearDeliver_blocks (s : State) : (clearDeliver s).blocks = s.blocks :=
  (clearDeliver_threadsOnly s).field State.blocks fun _ => rfl
@[simp] theorem clearDeliver_grids (s : State) : (clearDeliver s).grids = s.grids :=
  (clearDeliver_threadsOnly s).field State.grids fun _ => rfl
@[simp] theorem clearDeliver_nextBlk (s : State) : (clearDeliver s).nextBlk = s.nextBlk :=
  (clearDeliver_threadsOnly s).field State.nextBlk fun _ => rfl
@[simp] theorem clearDeliver_nextGid (s : State) : (clearDeliver s).nextGid = s.nextGid :=
  (clearDeliver_threadsOnly s).field State.nextGid fun _ => rfl
@[simp] theorem clearDeliver_cores (s : State) : (clearDeliver s).cores = s.cores :=
  (clearDeliver_threadsOnly s).field State.cores fun _ => rfl
@[simp] theorem clearDeliver_domains (s : State) : (clearDeliver s).domains = s.domains :=
  (clearDeliver_threadsOnly s).field State.domains fun _ => rfl
@[simp] theorem clearDeliver_vis (s : State) : (clearDeliver s).vis = s.vis :=
  (clearDeliver_threadsOnly s).field State.vis fun _ => rfl
@[simp] theorem clearDeliver_mem (s : State) : (clearDeliver s).mem = s.mem :=
  (clearDeliver_threadsOnly s).field State.mem fun _ => rfl
@[simp] theorem clearDeliver_bad (s : State) : (clearDeliver s).bad = s.bad :=
  (clearDeliver_threadsOnly s).field State.bad fun _ => rfl
@[simp] theorem clearDeliver_hostMem (s : State) : (clearDeliver s).hostMem = s.hostMem :=
  (clearDeliver_threadsOnly s).field State.hostMem fun _ => rfl
@[simp] theorem clearDeliver_peers (s : State) : (clearDeliver s).peers = s.peers :=
  (clearDeliver_threadsOnly s).field State.peers fun _ => rfl
@[simp] theorem clearDeliver_ops (s : State) : (clearDeliver s).ops = s.ops :=
  (clearDeliver_threadsOnly s).field State.ops fun _ => rfl
@[simp] theorem clearDeliver_nextOp (s : State) : (clearDeliver s).nextOp = s.nextOp :=
  (clearDeliver_threadsOnly s).field State.nextOp fun _ => rfl
@[simp] theorem clearDeliver_queues (s : State) : (clearDeliver s).queues = s.queues :=
  (clearDeliver_threadsOnly s).field State.queues fun _ => rfl
@[simp] theorem clearDeliver_waiters (s : State) : (clearDeliver s).waiters = s.waiters :=
  (clearDeliver_threadsOnly s).field State.waiters fun _ => rfl
@[simp] theorem clearDeliver_cmds (s : State) : (clearDeliver s).cmds = s.cmds :=
  (clearDeliver_threadsOnly s).field State.cmds fun _ => rfl
@[simp] theorem clearDeliver_packets (s : State) : (clearDeliver s).packets = s.packets :=
  (clearDeliver_threadsOnly s).field State.packets fun _ => rfl
@[simp] theorem clearDeliver_nextPacket (s : State) : (clearDeliver s).nextPacket = s.nextPacket :=
  (clearDeliver_threadsOnly s).field State.nextPacket fun _ => rfl
@[simp] theorem clearDeliver_drain (s : State) : (clearDeliver s).drain = s.drain :=
  (clearDeliver_threadsOnly s).field State.drain fun _ => rfl
@[simp] theorem clearDeliver_stored (s : State) : (clearDeliver s).stored = s.stored :=
  (clearDeliver_threadsOnly s).field State.stored fun _ => rfl
@[simp] theorem clearDeliver_storedNo (s : State) : (clearDeliver s).storedNo = s.storedNo :=
  (clearDeliver_threadsOnly s).field State.storedNo fun _ => rfl
@[simp] theorem clearDeliver_messages (s : State) : (clearDeliver s).messages = s.messages :=
  (clearDeliver_threadsOnly s).field State.messages fun _ => rfl
@[simp] theorem clearDeliver_nextMessage (s : State) : (clearDeliver s).nextMessage = s.nextMessage :=
  (clearDeliver_threadsOnly s).field State.nextMessage fun _ => rfl
@[simp] theorem clearDeliver_fwMin (s : State) : (clearDeliver s).fwMin = s.fwMin :=
  (clearDeliver_threadsOnly s).field State.fwMin fun _ => rfl
@[simp] theorem clearDeliver_cycle (s : State) : (clearDeliver s).cycle = s.cycle :=
  (clearDeliver_threadsOnly s).field State.cycle fun _ => rfl
@[simp] theorem clearDeliver_pwrlim (s : State) : (clearDeliver s).pwrlim = s.pwrlim :=
  (clearDeliver_threadsOnly s).field State.pwrlim fun _ => rfl
@[simp] theorem clearDeliver_key (s : State) : (clearDeliver s).key = s.key :=
  (clearDeliver_threadsOnly s).field State.key fun _ => rfl
@[simp] theorem clearDeliver_popped (s : State) : (clearDeliver s).popped = s.popped :=
  (clearDeliver_threadsOnly s).field State.popped fun _ => rfl
@[simp] theorem clearDeliver_faults (s : State) : (clearDeliver s).faults = s.faults :=
  (clearDeliver_threadsOnly s).field State.faults fun _ => rfl
@[simp] theorem clearDeliver_pendq (s : State) : (clearDeliver s).pendq = s.pendq :=
  (clearDeliver_threadsOnly s).field State.pendq fun _ => rfl
@[simp] theorem clearDeliver_iss (s : State) : (clearDeliver s).iss = s.iss :=
  (clearDeliver_threadsOnly s).field State.iss fun _ => rfl
@[simp] theorem clearDeliver_stalled (s : State) : (clearDeliver s).stalled = s.stalled :=
  (clearDeliver_threadsOnly s).field State.stalled fun _ => rfl
@[simp] theorem clearDeliver_agenda (s : State) : (clearDeliver s).agenda = s.agenda :=
  (clearDeliver_threadsOnly s).field State.agenda fun _ => rfl
@[simp] theorem clearDeliver_lastPart (s : State) : (clearDeliver s).lastPart = s.lastPart :=
  (clearDeliver_threadsOnly s).field State.lastPart fun _ => rfl
@[simp] theorem clearDeliver_free (s : State) : (clearDeliver s).free = s.free :=
  (clearDeliver_threadsOnly s).field State.free fun _ => rfl
@[simp] theorem noteIssue_grids (s : State) : (noteIssue s).grids = s.grids := by
  simp [noteIssue]
@[simp] theorem noteIssue_nextBlk (s : State) : (noteIssue s).nextBlk = s.nextBlk := by
  simp [noteIssue]
@[simp] theorem noteIssue_nextGid (s : State) : (noteIssue s).nextGid = s.nextGid := by
  simp [noteIssue]
@[simp] theorem noteIssue_cores (s : State) : (noteIssue s).cores = s.cores := by
  simp [noteIssue]
@[simp] theorem noteIssue_domains (s : State) : (noteIssue s).domains = s.domains := by
  simp [noteIssue]
@[simp] theorem noteIssue_vis (s : State) : (noteIssue s).vis = s.vis := by
  simp [noteIssue]
@[simp] theorem noteIssue_mem (s : State) : (noteIssue s).mem = s.mem := by
  simp [noteIssue]
@[simp] theorem noteIssue_bad (s : State) : (noteIssue s).bad = s.bad := by
  simp [noteIssue]
@[simp] theorem noteIssue_hostMem (s : State) : (noteIssue s).hostMem = s.hostMem := by
  simp [noteIssue]
@[simp] theorem noteIssue_peers (s : State) : (noteIssue s).peers = s.peers := by
  simp [noteIssue]
@[simp] theorem noteIssue_ops (s : State) : (noteIssue s).ops = s.ops := by
  simp [noteIssue]
@[simp] theorem noteIssue_nextOp (s : State) : (noteIssue s).nextOp = s.nextOp := by
  simp [noteIssue]
@[simp] theorem noteIssue_queues (s : State) : (noteIssue s).queues = s.queues := by
  simp [noteIssue]
@[simp] theorem noteIssue_waiters (s : State) : (noteIssue s).waiters = s.waiters := by
  simp [noteIssue]
@[simp] theorem noteIssue_cmds (s : State) : (noteIssue s).cmds = s.cmds := by
  simp [noteIssue]
@[simp] theorem noteIssue_packets (s : State) : (noteIssue s).packets = s.packets := by
  simp [noteIssue]
@[simp] theorem noteIssue_nextPacket (s : State) : (noteIssue s).nextPacket = s.nextPacket := by
  simp [noteIssue]
@[simp] theorem noteIssue_drain (s : State) : (noteIssue s).drain = s.drain := by
  simp [noteIssue]
@[simp] theorem noteIssue_stored (s : State) : (noteIssue s).stored = s.stored := by
  simp [noteIssue]
@[simp] theorem noteIssue_storedNo (s : State) : (noteIssue s).storedNo = s.storedNo := by
  simp [noteIssue]
@[simp] theorem noteIssue_messages (s : State) : (noteIssue s).messages = s.messages := by
  simp [noteIssue]
@[simp] theorem noteIssue_nextMessage (s : State) : (noteIssue s).nextMessage = s.nextMessage := by
  simp [noteIssue]
@[simp] theorem noteIssue_fwMin (s : State) : (noteIssue s).fwMin = s.fwMin := by
  simp [noteIssue]
@[simp] theorem noteIssue_cycle (s : State) : (noteIssue s).cycle = s.cycle := by
  simp [noteIssue]
@[simp] theorem noteIssue_pwrlim (s : State) : (noteIssue s).pwrlim = s.pwrlim := by
  simp [noteIssue]
@[simp] theorem noteIssue_key (s : State) : (noteIssue s).key = s.key := by
  simp [noteIssue]
@[simp] theorem noteIssue_popped (s : State) : (noteIssue s).popped = s.popped := by
  simp [noteIssue]
@[simp] theorem noteIssue_faults (s : State) : (noteIssue s).faults = s.faults := by
  simp [noteIssue]
@[simp] theorem noteIssue_pendq (s : State) : (noteIssue s).pendq = s.pendq := by
  simp [noteIssue]
@[simp] theorem noteIssue_iss (s : State) : (noteIssue s).iss = s.iss := by
  simp [noteIssue]
@[simp] theorem noteIssue_stalled (s : State) : (noteIssue s).stalled = s.stalled := by
  simp [noteIssue]
@[simp] theorem noteIssue_agenda (s : State) : (noteIssue s).agenda = s.agenda := by
  simp [noteIssue]
@[simp] theorem noteIssue_lastPart (s : State) : (noteIssue s).lastPart = s.lastPart := by
  simp [noteIssue]
@[simp] theorem noteIssue_free (s : State) : (noteIssue s).free = s.free := by
  simp [noteIssue]

@[simp] theorem noteIssue_launch (s : State) (b : Nat) : (noteIssue s).launch b = s.launch b := by
  have h : ((noteIssue s).block b).gid = (s.block b).gid ∧ ((noteIssue s).block b).stage = (s.block b).stage := by
    simp only [noteIssue, State.setWeft_block_home, State.block_setBlock, clearDeliver_iss]
    have hb : ∀ b, (clearDeliver s).block b = s.block b := fun b => by simp only [State.block, clearDeliver_blocks]
    split
    · next h => subst h; rw [hb]; exact ⟨rfl, rfl⟩
    · rw [hb]; exact ⟨rfl, rfl⟩
  simp only [State.launch, State.grid, noteIssue_grids, h.1, h.2]

/-! ## Issue (R142) -/

/-- Whatever its parts, the issue of an instruction answers a next state. -/
theorem issue_next (p : Pre) (busy : State → Bool) (body : State → State) (s : State) :
    ∃ t, issue p busy body s = .next t := by
  unfold issue
  split
  · exact ⟨_, rfl⟩
  · split
    · exact ⟨_, rfl⟩
    · split
      · exact ⟨_, rfl⟩
      · split <;> exact ⟨_, rfl⟩

/-- With no lane in its issue set an instruction does nothing. -/
theorem issue_empty {s : State} (h : s.iss.lanes = []) (p : Pre) (busy : State → Bool) (body : State → State) :
    issue p busy body s = .next s := by
  simp [issue, h]

/-- A condition of the word, the role or the allotment traps every lane, whatever is outstanding. -/
theorem issue_trap {s : State} {p : Pre} {c : Cond} (hl : s.iss.lanes ≠ []) (hc : preCond s p = some c)
    (busy : State → Bool) (body : State → State) : issue p busy body s = .next (trapAll (noteIssue s) c) := by
  simp [issue, hl, hc]

/-- A dependence stalls the stream, without change. -/
theorem issue_stall {s : State} {p : Pre} {busy : State → Bool} (hl : s.iss.lanes ≠ []) (hc : preCond s p = none)
    (hb : busy s = true) (body : State → State) : issue p busy body s = .next { s with stalled := true } := by
  simp [issue, hl, hc, hb]

/-- Otherwise the instruction takes its effect, from the state with the issue recorded. -/
theorem issue_body {s : State} {p : Pre} {busy : State → Bool} (hl : s.iss.lanes ≠ []) (hc : preCond s p = none)
    (hb : busy s = false) (hr : s.iss.bad = []) (body : State → State) :
    issue p busy body s = .next (body (noteIssue s)) := by
  simp [issue, hl, hc, hb, hr]

/-- What an instruction does of which some lane reads a poisoned register, by its kind (R383, R389). -/
def poisonRun (p : Pre) (body : State → State) (s : State) : State :=
  match p.poison with
  | .checks => body (noteIssue s)
  | .lanes => splitFault body (noteIssue s)
  | .whole => systemFault (noteIssue s) s.iss.blk s.iss.weft s.badConds s.iss.deliver (laneMask s.iss.lanes) 0 s.iss.pc true

/-- A poisoned register that some lane reads: the instruction does what its kind says (R383, R389). -/
theorem issue_poison {s : State} {p : Pre} {busy : State → Bool} (hl : s.iss.lanes ≠ []) (hc : preCond s p = none)
    (hb : busy s = false) (hr : s.iss.bad ≠ []) (body : State → State) :
    issue p busy body s = .next (poisonRun p body s) := by
  cases h : s.iss.bad with
  | nil => exact absurd h hr
  | cons f fs => cases hp : p.poison <;> simp [issue, hl, hc, hb, h, hp, poisonRun]

/-- Every answer of an issue is one of the five. -/
theorem issue_cases {s t : State} {p : Pre} {busy : State → Bool} {body : State → State}
    (h : issue p busy body s = .next t) :
    (s.iss.lanes = [] ∧ t = s) ∨ (∃ c, preCond s p = some c ∧ t = trapAll (noteIssue s) c) ∨
      (preCond s p = none ∧ busy s = true ∧ t = { s with stalled := true }) ∨
      (preCond s p = none ∧ busy s = false ∧ s.iss.bad ≠ [] ∧ t = poisonRun p body s) ∨
      (preCond s p = none ∧ busy s = false ∧ s.iss.bad = [] ∧ t = body (noteIssue s)) := by
  have same : ∀ {x}, issue p busy body s = .next x → t = x := fun hx => by rw [h] at hx; cases hx; rfl
  by_cases hl : s.iss.lanes = []
  · exact .inl ⟨hl, same (issue_empty hl _ _ _)⟩
  cases hc : preCond s p with
  | some c => exact .inr (.inl ⟨c, rfl, same (issue_trap hl hc _ _)⟩)
  | none =>
    cases hb : busy s with
    | true => exact .inr (.inr (.inl ⟨rfl, rfl, same (issue_stall hl hc hb _)⟩))
    | false =>
      by_cases hr : s.iss.bad = []
      · exact .inr (.inr (.inr (.inr ⟨rfl, rfl, hr, same (issue_body hl hc hb hr _)⟩)))
      · exact .inr (.inr (.inr (.inl ⟨rfl, rfl, hr, same (issue_poison hl hc hb hr _)⟩)))

/-- The role and the allotment permit the instruction, and nothing of its word or mode traps. -/
theorem preCond_none {s : State} {p : RoleKind → Bool} {rs : List Regs} {x : OnPoison} (h : Allowed p rs s) :
    preCond s { permitted := p, regs := rs, poison := x } = none := by
  have hr : rs.find? (fun f => decide ((s.roleOf s.iss.blk s.iss.weft).regs ≤ f.1 + f.2 - 1)) = none := by
    rw [List.find?_eq_none]
    intro r hr
    have := h.2 r hr
    simp; omega
  simp [preCond, h.1, hr]

/-- The same of an instruction whose mode check passes. -/
theorem preCond_none_of_early {s : State} {p : RoleKind → Bool} {rs : List Regs} {e : Option Cond} {x : OnPoison}
    (he : e = none) (h : Allowed p rs s) : preCond s { permitted := p, regs := rs, early := e, poison := x } = none := by
  subst he; exact preCond_none h

/-! ## Instructions that act on lanes -/

/-- The thread that a lane's part leaves, where it completes. -/
def LaneRes.thread (s : State) : LaneRes → Thread
  | .next t => { t with pc := nextPc s }
  | .goto t => t
  | .trap _ => {}

theorem foldl_laneStep_eq (s : State) (f : Nat → LaneRes) (ls : List Nat) (hf : ∀ l ∈ ls, (f l).completes = true) :
    ∀ u : State, u.iss = s.iss →
      ls.foldl (laneStep f) u = setLanes s.iss.blk s.iss.weft (fun _ l => (f l).thread s) ls u := by
  induction ls with
  | nil => intro u _; simp only [setLanes, List.foldl_nil]
  | cons l ls ih =>
    intro u hu
    have hc := hf l (by simp)
    have hstep : laneStep f u l = u.setThread s.iss.blk s.iss.weft l ((f l).thread s) := by
      unfold laneStep
      cases h : f l with
      | next t => simp [LaneRes.thread, hu, nextPc]
      | goto t => simp [LaneRes.thread, hu]
      | trap c => rw [h] at hc; cases hc
    simp only [List.foldl_cons, hstep, setLanes]
    exact ih (fun l' h' => hf l' (by simp [h'])) _ (by simp [hu])

/-- What the lanes of an issue set come to, where every lane's part completes. -/
theorem foldl_laneStep {s u : State} {f : Nat → LaneRes} {ls : List Nat} (hu : u.iss = s.iss) (hd : ls.Nodup)
    (hf : ∀ l ∈ ls, (f l).completes = true) :
    (∀ l ∈ ls, (ls.foldl (laneStep f) u).thread s.iss.blk s.iss.weft l = (f l).thread s) ∧
      (∀ k, (∀ l ∈ ls, k ≠ tkey s.iss.blk s.iss.weft l) → Sp.find? (ls.foldl (laneStep f) u).threads k = Sp.find? u.threads k) ∧
      ThreadsOnly u (ls.foldl (laneStep f) u) := by
  rw [foldl_laneStep_eq s f ls hf u hu]
  exact ⟨setLanes_lane _ _ _ _ _ hd _ fun l hl _ _ _ => rfl, setLanes_other _ _ _ _ _, setLanes_threadsOnly _ _ _ _ _⟩

theorem FormedSet.nodup {s : State} (h : FormedSet s) : s.iss.lanes.Nodup :=
  h.2.1.imp fun h => Nat.ne_of_lt h

/-- The one lemma of instructions that act on each lane by itself: with every lane's part complete, the instruction
leaves each lane as its part says, and nothing else changed. -/
theorem issueLanes_spec {c : IClass} {rs ks : List Regs} {f : State → Nat → LaneRes} {s : State}
    (h : Issues c rs ks s) (hf : ∀ l ∈ s.iss.lanes, (f (noteIssue s) l).completes = true) :
    ∃ t, issueLanes c rs ks f s = .next t ∧ LanesDo s t fun l _ => (f (noteIssue s) l).thread s := by
  refine ⟨_, issue_body h.1.1 (preCond_none h.2.1) h.2.2.1 h.2.2.2 _, ?_⟩
  have hk := foldl_laneStep (s := s) (u := noteIssue s) (f := f (noteIssue s)) (noteIssue_iss s) h.1.nodup hf
  simp only [noteIssue_iss]
  exact ⟨hk.1, hk.2.1, hk.2.2⟩

theorem advanceAll_eq (s u : State) (hu : u.iss = s.iss) :
    advanceAll u = setLanes s.iss.blk s.iss.weft (fun v l => (v.thread s.iss.blk s.iss.weft l).past s) s.iss.lanes u := by
  have hn : nextPc u = nextPc s := by simp [nextPc, hu]
  simp only [advanceAll, setLanes, hu, hn, Thread.past]

/-- Every lane of the issue set goes on with its registers unchanged (R22). -/
theorem advanceAll_spec {s u : State} (hu : u.iss = s.iss) (hd : s.iss.lanes.Nodup) :
    (∀ l ∈ s.iss.lanes, (advanceAll u).thread s.iss.blk s.iss.weft l = (u.thread s.iss.blk s.iss.weft l).past s) ∧
      (∀ k, (∀ l ∈ s.iss.lanes, k ≠ tkey s.iss.blk s.iss.weft l) → Sp.find? (advanceAll u).threads k = Sp.find? u.threads k) ∧
      ThreadsOnly u (advanceAll u) := by
  rw [advanceAll_eq s u hu]
  refine ⟨?_, setLanes_other _ _ _ _ _, setLanes_threadsOnly _ _ _ _ _⟩
  exact setLanes_lane _ _ _ _ _ hd (fun l => (u.thread s.iss.blk s.iss.weft l).past s) fun l _ v _ hv => by rw [hv]

/-- The one lemma of instructions that execute once for their issue set. -/
theorem issueOnce_spec {rs ks : List Regs} {f : State → Weft} {s : State} (h : Issues .integer rs ks s) :
    ∃ t, issueOnce rs ks f s = .next t ∧ WeftDoes s t (f (noteIssue s)) := by
  refine ⟨_, issue_body h.1.1 (preCond_none h.2.1) h.2.2.1 h.2.2.2 _, ?_⟩
  have hk := advanceAll_spec (s := s) (u := (noteIssue s).setWeft s.iss.blk s.iss.weft (f (noteIssue s))) (by simp) h.1.nodup
  simp only [noteIssue_iss]
  exact ⟨fun l hl => by rw [hk.1 l hl]; simp, hk.2.1, hk.2.2⟩

/-- Lanes that go on are the lanes that a `LanesDo` of `past` names. -/
theorem lanesDo_advanceAll {s : State} (hd : s.iss.lanes.Nodup) : LanesDo s (advanceAll (noteIssue s)) fun _ x => x.past s := by
  have hk := advanceAll_spec (s := s) (u := noteIssue s) (noteIssue_iss s) hd
  exact ⟨hk.1, hk.2.1, hk.2.2⟩

end Sys2Proof.Machine
end

