-- ==== Sys2Proof/Laws/PerInstr.lean ====
section
/-!
SUPPORT. What holds of each instruction as syntax, one lemma per constructor: bit 0 of the word says its length
(R22, R45): 0 in a word of 16 bits, 1 in a word of 32; a step of the device has no word.
-/
namespace Sys2Proof

theorem Src.code_even (b : Src) : b.code % 2 = 0 := by
  cases b <;> simp [Src.code] <;> omega

theorem wordAluA_odd (op : Nat) (d a : VReg) (b : Src) : wordAluA op d a b % 2 = 1 := by
  have := b.code_even
  unfold wordAluA; omega

theorem wordAluB_odd (op : Nat) (d a : VReg) (b : Src) : wordAluB op d a b % 2 = 1 := by
  have := b.code_even
  unfold wordAluB; omega

theorem wordAluBSel_odd (op : Nat) (d a : VReg) (sel : Nat) : wordAluBSel op d a sel % 2 = 1 := by
  unfold wordAluBSel; omega

theorem wordCluster_odd (op : Nat) (d base : VReg) (t : BitVec 2) (o : Order) (imm : BitVec 4) : wordCluster op d base t o imm % 2 = 1 := by
  unfold wordCluster; omega

theorem wordCtl_odd (op rest : Nat) : wordCtl op rest % 2 = 1 := by
  unfold wordCtl; omega

theorem wordGlobal_odd (op : Nat) (d a : VReg) (o : Order) (s : Scope) (top : Nat) : wordGlobal op d a o s top % 2 = 1 := by
  unfold wordGlobal; omega

theorem wordHost_odd (op : Nat) (d base : VReg) (o : Order) : wordHost op d base o % 2 = 1 := by
  unfold wordHost; omega

theorem wordImm_odd (op : Nat) (d a : VReg) (imm : Nat) : wordImm op d a imm % 2 = 1 := by
  unfold wordImm; omega

theorem wordLit_odd (op : Nat) (d : VReg) (imm : Nat) : wordLit op d imm % 2 = 1 := by
  unfold wordLit; omega

theorem wordMem8_odd (space op : Nat) (d base : VReg) (imm : Nat) : wordMem8 space op d base imm % 2 = 1 := by
  unfold wordMem8; omega

theorem wordShort_even (op : Nat) (d : BitVec 6) (s : Nat) : wordShort op d s % 2 = 0 := by
  unfold wordShort; omega

theorem wordSys_odd (op rest : Nat) : wordSys op rest % 2 = 1 := by
  unfold wordSys; omega

theorem wordUni_odd (op : Nat) (d a b : KReg) (imm5 : Nat) : wordUni op d a b imm5 % 2 = 1 := by
  unfold wordUni; omega

theorem wordUniImm_odd (op : Nat) (d a : KReg) (i : BitVec 11) : wordUniImm op d a i % 2 = 1 := by
  unfold wordUniImm; omega

theorem wordUniTop_odd (op : Nat) (d : KReg) (top : Nat) : wordUniTop op d top % 2 = 1 := by
  unfold wordUniTop; omega

/-- Bit 0 of the word is 1 exactly where the word has 32 bits (R22, R45). -/
def Laws.Length.Statement (i : Instr) : Prop := encode i % 2 = i.len / 4

theorem Laws.Length.shortMov (d : BitVec 6) (r : BitVec 5) : Statement (.shortMov d r) := (wordShort_even 0 d r.toNat).trans (by decide : 0 = 2 / 4)
theorem Laws.Length.shortIadd (d : BitVec 6) (r : BitVec 5) : Statement (.shortIadd d r) := (wordShort_even 1 d r.toNat).trans (by decide : 0 = 2 / 4)
theorem Laws.Length.shortIsub (d : BitVec 6) (r : BitVec 5) : Statement (.shortIsub d r) := (wordShort_even 2 d r.toNat).trans (by decide : 0 = 2 / 4)
theorem Laws.Length.shortImul (d : BitVec 6) (r : BitVec 5) : Statement (.shortImul d r) := (wordShort_even 3 d r.toNat).trans (by decide : 0 = 2 / 4)
theorem Laws.Length.shortAnd (d : BitVec 6) (r : BitVec 5) : Statement (.shortAnd d r) := (wordShort_even 4 d r.toNat).trans (by decide : 0 = 2 / 4)
theorem Laws.Length.shortOr (d : BitVec 6) (r : BitVec 5) : Statement (.shortOr d r) := (wordShort_even 5 d r.toNat).trans (by decide : 0 = 2 / 4)
theorem Laws.Length.shortXor (d : BitVec 6) (r : BitVec 5) : Statement (.shortXor d r) := (wordShort_even 6 d r.toNat).trans (by decide : 0 = 2 / 4)
theorem Laws.Length.shortShl (d : BitVec 6) (r : BitVec 5) : Statement (.shortShl d r) := (wordShort_even 7 d r.toNat).trans (by decide : 0 = 2 / 4)
theorem Laws.Length.shortShrl (d : BitVec 6) (r : BitVec 5) : Statement (.shortShrl d r) := (wordShort_even 8 d r.toNat).trans (by decide : 0 = 2 / 4)
theorem Laws.Length.shortShra (d : BitVec 6) (r : BitVec 5) : Statement (.shortShra d r) := (wordShort_even 9 d r.toNat).trans (by decide : 0 = 2 / 4)
theorem Laws.Length.shortFadd (d : BitVec 6) (r : BitVec 5) : Statement (.shortFadd d r) := (wordShort_even 10 d r.toNat).trans (by decide : 0 = 2 / 4)
theorem Laws.Length.shortFsub (d : BitVec 6) (r : BitVec 5) : Statement (.shortFsub d r) := (wordShort_even 11 d r.toNat).trans (by decide : 0 = 2 / 4)
theorem Laws.Length.shortFmul (d : BitVec 6) (r : BitVec 5) : Statement (.shortFmul d r) := (wordShort_even 12 d r.toNat).trans (by decide : 0 = 2 / 4)
theorem Laws.Length.shortFmax (d : BitVec 6) (r : BitVec 5) : Statement (.shortFmax d r) := (wordShort_even 13 d r.toNat).trans (by decide : 0 = 2 / 4)
theorem Laws.Length.shortFmin (d : BitVec 6) (r : BitVec 5) : Statement (.shortFmin d r) := (wordShort_even 14 d r.toNat).trans (by decide : 0 = 2 / 4)
theorem Laws.Length.shortIaddi (d : BitVec 6) (i : BitVec 5) : Statement (.shortIaddi d i) := (wordShort_even 15 d i.toNat).trans (by decide : 0 = 2 / 4)
theorem Laws.Length.iadd (d a : VReg) (b : Src) : Statement (.iadd d a b) := (wordAluA_odd 0x00 d a b).trans (by decide : 1 = 4 / 4)
theorem Laws.Length.isub (d a : VReg) (b : Src) : Statement (.isub d a b) := (wordAluA_odd 0x01 d a b).trans (by decide : 1 = 4 / 4)
theorem Laws.Length.imul (d a : VReg) (b : Src) : Statement (.imul d a b) := (wordAluA_odd 0x02 d a b).trans (by decide : 1 = 4 / 4)
theorem Laws.Length.imulhi (d a : VReg) (b : Src) : Statement (.imulhi d a b) := (wordAluA_odd 0x03 d a b).trans (by decide : 1 = 4 / 4)
theorem Laws.Length.imulhin (d a : VReg) (b : Src) : Statement (.imulhin d a b) := (wordAluA_odd 0x04 d a b).trans (by decide : 1 = 4 / 4)
theorem Laws.Length.imad (d a : VReg) (b : Src) : Statement (.imad d a b) := (wordAluA_odd 0x05 d a b).trans (by decide : 1 = 4 / 4)
theorem Laws.Length.imin (d a : VReg) (b : Src) : Statement (.imin d a b) := (wordAluA_odd 0x06 d a b).trans (by decide : 1 = 4 / 4)
theorem Laws.Length.imax (d a : VReg) (b : Src) : Statement (.imax d a b) := (wordAluA_odd 0x07 d a b).trans (by decide : 1 = 4 / 4)
theorem Laws.Length.iminn (d a : VReg) (b : Src) : Statement (.iminn d a b) := (wordAluA_odd 0x08 d a b).trans (by decide : 1 = 4 / 4)
theorem Laws.Length.imaxn (d a : VReg) (b : Src) : Statement (.imaxn d a b) := (wordAluA_odd 0x09 d a b).trans (by decide : 1 = 4 / 4)
theorem Laws.Length.and (d a : VReg) (b : Src) : Statement (.and d a b) := (wordAluA_odd 0x0A d a b).trans (by decide : 1 = 4 / 4)
theorem Laws.Length.or (d a : VReg) (b : Src) : Statement (.or d a b) := (wordAluA_odd 0x0B d a b).trans (by decide : 1 = 4 / 4)
theorem Laws.Length.xor (d a : VReg) (b : Src) : Statement (.xor d a b) := (wordAluA_odd 0x0C d a b).trans (by decide : 1 = 4 / 4)
theorem Laws.Length.andn (d a : VReg) (b : Src) : Statement (.andn d a b) := (wordAluA_odd 0x0D d a b).trans (by decide : 1 = 4 / 4)
theorem Laws.Length.shl (d a : VReg) (b : Src) : Statement (.shl d a b) := (wordAluA_odd 0x0E d a b).trans (by decide : 1 = 4 / 4)
theorem Laws.Length.shrl (d a : VReg) (b : Src) : Statement (.shrl d a b) := (wordAluA_odd 0x0F d a b).trans (by decide : 1 = 4 / 4)
theorem Laws.Length.shra (d a : VReg) (b : Src) : Statement (.shra d a b) := (wordAluA_odd 0x10 d a b).trans (by decide : 1 = 4 / 4)
theorem Laws.Length.rotl (d a : VReg) (b : Src) : Statement (.rotl d a b) := (wordAluA_odd 0x11 d a b).trans (by decide : 1 = 4 / 4)
theorem Laws.Length.sel (d a : VReg) (b : Src) : Statement (.sel d a b) := (wordAluA_odd 0x12 d a b).trans (by decide : 1 = 4 / 4)
theorem Laws.Length.iaddsat (d a : VReg) (b : Src) : Statement (.iaddsat d a b) := (wordAluA_odd 0x13 d a b).trans (by decide : 1 = 4 / 4)
theorem Laws.Length.isubsat (d a : VReg) (b : Src) : Statement (.isubsat d a b) := (wordAluA_odd 0x14 d a b).trans (by decide : 1 = 4 / 4)
theorem Laws.Length.bfx (d a : VReg) (b : Src) : Statement (.bfx d a b) := (wordAluA_odd 0x15 d a b).trans (by decide : 1 = 4 / 4)
theorem Laws.Length.bfi (d a : VReg) (b : Src) : Statement (.bfi d a b) := (wordAluA_odd 0x16 d a b).trans (by decide : 1 = 4 / 4)
theorem Laws.Length.iadd64 (d a : VReg) (b : Src) : Statement (.iadd64 d a b) := (wordAluA_odd 0x17 d a b).trans (by decide : 1 = 4 / 4)
theorem Laws.Length.isub64 (d a : VReg) (b : Src) : Statement (.isub64 d a b) := (wordAluA_odd 0x18 d a b).trans (by decide : 1 = 4 / 4)
theorem Laws.Length.imulw (d a : VReg) (b : Src) : Statement (.imulw d a b) := (wordAluA_odd 0x19 d a b).trans (by decide : 1 = 4 / 4)
theorem Laws.Length.imulwn (d a : VReg) (b : Src) : Statement (.imulwn d a b) := (wordAluA_odd 0x1A d a b).trans (by decide : 1 = 4 / 4)
theorem Laws.Length.shl64 (d a : VReg) (b : Src) : Statement (.shl64 d a b) := (wordAluA_odd 0x1B d a b).trans (by decide : 1 = 4 / 4)
theorem Laws.Length.shrl64 (d a : VReg) (b : Src) : Statement (.shrl64 d a b) := (wordAluA_odd 0x1C d a b).trans (by decide : 1 = 4 / 4)
theorem Laws.Length.shra64 (d a : VReg) (b : Src) : Statement (.shra64 d a b) := (wordAluA_odd 0x1D d a b).trans (by decide : 1 = 4 / 4)
theorem Laws.Length.iseq (d a : VReg) (b : Src) : Statement (.iseq d a b) := (wordAluA_odd 0x1E d a b).trans (by decide : 1 = 4 / 4)
theorem Laws.Length.isne (d a : VReg) (b : Src) : Statement (.isne d a b) := (wordAluA_odd 0x1F d a b).trans (by decide : 1 = 4 / 4)
theorem Laws.Length.islt (d a : VReg) (b : Src) : Statement (.islt d a b) := (wordAluA_odd 0x20 d a b).trans (by decide : 1 = 4 / 4)
theorem Laws.Length.isle (d a : VReg) (b : Src) : Statement (.isle d a b) := (wordAluA_odd 0x21 d a b).trans (by decide : 1 = 4 / 4)
theorem Laws.Length.isltn (d a : VReg) (b : Src) : Statement (.isltn d a b) := (wordAluA_odd 0x22 d a b).trans (by decide : 1 = 4 / 4)
theorem Laws.Length.islen (d a : VReg) (b : Src) : Statement (.islen d a b) := (wordAluA_odd 0x23 d a b).trans (by decide : 1 = 4 / 4)
theorem Laws.Length.fadd (d a : VReg) (b : Src) : Statement (.fadd d a b) := (wordAluA_odd 0x24 d a b).trans (by decide : 1 = 4 / 4)
theorem Laws.Length.fsub (d a : VReg) (b : Src) : Statement (.fsub d a b) := (wordAluA_odd 0x25 d a b).trans (by decide : 1 = 4 / 4)
theorem Laws.Length.fmul (d a : VReg) (b : Src) : Statement (.fmul d a b) := (wordAluA_odd 0x26 d a b).trans (by decide : 1 = 4 / 4)
theorem Laws.Length.ffma (d a : VReg) (b : Src) : Statement (.ffma d a b) := (wordAluA_odd 0x27 d a b).trans (by decide : 1 = 4 / 4)
theorem Laws.Length.fmin (d a : VReg) (b : Src) : Statement (.fmin d a b) := (wordAluA_odd 0x28 d a b).trans (by decide : 1 = 4 / 4)
theorem Laws.Length.fmax (d a : VReg) (b : Src) : Statement (.fmax d a b) := (wordAluA_odd 0x29 d a b).trans (by decide : 1 = 4 / 4)
theorem Laws.Length.fseq (d a : VReg) (b : Src) : Statement (.fseq d a b) := (wordAluA_odd 0x2A d a b).trans (by decide : 1 = 4 / 4)
theorem Laws.Length.fsne (d a : VReg) (b : Src) : Statement (.fsne d a b) := (wordAluA_odd 0x2B d a b).trans (by decide : 1 = 4 / 4)
theorem Laws.Length.fslt (d a : VReg) (b : Src) : Statement (.fslt d a b) := (wordAluA_odd 0x2C d a b).trans (by decide : 1 = 4 / 4)
theorem Laws.Length.fsle (d a : VReg) (b : Src) : Statement (.fsle d a b) := (wordAluA_odd 0x2D d a b).trans (by decide : 1 = 4 / 4)
theorem Laws.Length.fsuno (d a : VReg) (b : Src) : Statement (.fsuno d a b) := (wordAluA_odd 0x2E d a b).trans (by decide : 1 = 4 / 4)
theorem Laws.Length.fcopysign (d a : VReg) (b : Src) : Statement (.fcopysign d a b) := (wordAluA_odd 0x2F d a b).trans (by decide : 1 = 4 / 4)
theorem Laws.Length.dadd (d a : VReg) (b : Src) : Statement (.dadd d a b) := (wordAluA_odd 0x30 d a b).trans (by decide : 1 = 4 / 4)
theorem Laws.Length.dsub (d a : VReg) (b : Src) : Statement (.dsub d a b) := (wordAluA_odd 0x31 d a b).trans (by decide : 1 = 4 / 4)
theorem Laws.Length.dmul (d a : VReg) (b : Src) : Statement (.dmul d a b) := (wordAluA_odd 0x32 d a b).trans (by decide : 1 = 4 / 4)
theorem Laws.Length.dfma (d a : VReg) (b : Src) : Statement (.dfma d a b) := (wordAluA_odd 0x33 d a b).trans (by decide : 1 = 4 / 4)
theorem Laws.Length.dmin (d a : VReg) (b : Src) : Statement (.dmin d a b) := (wordAluA_odd 0x34 d a b).trans (by decide : 1 = 4 / 4)
theorem Laws.Length.dmax (d a : VReg) (b : Src) : Statement (.dmax d a b) := (wordAluA_odd 0x35 d a b).trans (by decide : 1 = 4 / 4)
theorem Laws.Length.dseq (d a : VReg) (b : Src) : Statement (.dseq d a b) := (wordAluA_odd 0x36 d a b).trans (by decide : 1 = 4 / 4)
theorem Laws.Length.dslt (d a : VReg) (b : Src) : Statement (.dslt d a b) := (wordAluA_odd 0x37 d a b).trans (by decide : 1 = 4 / 4)
theorem Laws.Length.dsle (d a : VReg) (b : Src) : Statement (.dsle d a b) := (wordAluA_odd 0x38 d a b).trans (by decide : 1 = 4 / 4)
theorem Laws.Length.dsuno (d a : VReg) (b : Src) : Statement (.dsuno d a b) := (wordAluA_odd 0x39 d a b).trans (by decide : 1 = 4 / 4)
theorem Laws.Length.hadd2 (d a : VReg) (b : Src) : Statement (.hadd2 d a b) := (wordAluA_odd 0x3A d a b).trans (by decide : 1 = 4 / 4)
theorem Laws.Length.hmul2 (d a : VReg) (b : Src) : Statement (.hmul2 d a b) := (wordAluA_odd 0x3B d a b).trans (by decide : 1 = 4 / 4)
theorem Laws.Length.hfma2 (d a : VReg) (b : Src) : Statement (.hfma2 d a b) := (wordAluA_odd 0x3C d a b).trans (by decide : 1 = 4 / 4)
theorem Laws.Length.badd2 (d a : VReg) (b : Src) : Statement (.badd2 d a b) := (wordAluA_odd 0x3D d a b).trans (by decide : 1 = 4 / 4)
theorem Laws.Length.bmul2 (d a : VReg) (b : Src) : Statement (.bmul2 d a b) := (wordAluA_odd 0x3E d a b).trans (by decide : 1 = 4 / 4)
theorem Laws.Length.bfma2 (d a : VReg) (b : Src) : Statement (.bfma2 d a b) := (wordAluA_odd 0x3F d a b).trans (by decide : 1 = 4 / 4)
theorem Laws.Length.cvtF32I32 (d a : VReg) : Statement (.cvtF32I32 d a) := (wordAluBSel_odd 0x00 d a 0).trans (by decide : 1 = 4 / 4)
theorem Laws.Length.cvtF32N32 (d a : VReg) : Statement (.cvtF32N32 d a) := (wordAluBSel_odd 0x01 d a 0).trans (by decide : 1 = 4 / 4)
theorem Laws.Length.cvtI32F32 (d a : VReg) : Statement (.cvtI32F32 d a) := (wordAluBSel_odd 0x02 d a 0).trans (by decide : 1 = 4 / 4)
theorem Laws.Length.cvtN32F32 (d a : VReg) : Statement (.cvtN32F32 d a) := (wordAluBSel_odd 0x03 d a 0).trans (by decide : 1 = 4 / 4)
theorem Laws.Length.cvtF64F32 (d a : VReg) : Statement (.cvtF64F32 d a) := (wordAluBSel_odd 0x04 d a 0).trans (by decide : 1 = 4 / 4)
theorem Laws.Length.cvtF32F64 (d a : VReg) : Statement (.cvtF32F64 d a) := (wordAluBSel_odd 0x05 d a 0).trans (by decide : 1 = 4 / 4)
theorem Laws.Length.cvtF64I32 (d a : VReg) : Statement (.cvtF64I32 d a) := (wordAluBSel_odd 0x06 d a 0).trans (by decide : 1 = 4 / 4)
theorem Laws.Length.cvtI32F64 (d a : VReg) : Statement (.cvtI32F64 d a) := (wordAluBSel_odd 0x07 d a 0).trans (by decide : 1 = 4 / 4)
theorem Laws.Length.cvtF64I64 (d a : VReg) : Statement (.cvtF64I64 d a) := (wordAluBSel_odd 0x08 d a 0).trans (by decide : 1 = 4 / 4)
theorem Laws.Length.cvtI64F64 (d a : VReg) : Statement (.cvtI64F64 d a) := (wordAluBSel_odd 0x09 d a 0).trans (by decide : 1 = 4 / 4)
theorem Laws.Length.cvtF16x2F32 (d a : VReg) (b : Src) : Statement (.cvtF16x2F32 d a b) := (wordAluB_odd 0x0A d a b).trans (by decide : 1 = 4 / 4)
theorem Laws.Length.cvtBf16x2F32 (d a : VReg) (b : Src) : Statement (.cvtBf16x2F32 d a b) := (wordAluB_odd 0x0B d a b).trans (by decide : 1 = 4 / 4)
theorem Laws.Length.cvtF32F16 (d a : VReg) (h : BitVec 1) : Statement (.cvtF32F16 d a h) := (wordAluBSel_odd 0x0C d a h.toNat).trans (by decide : 1 = 4 / 4)
theorem Laws.Length.cvtF32Bf16 (d a : VReg) (h : BitVec 1) : Statement (.cvtF32Bf16 d a h) := (wordAluBSel_odd 0x0D d a h.toNat).trans (by decide : 1 = 4 / 4)
theorem Laws.Length.cvtF32E4m3 (d a : VReg) (h : BitVec 2) : Statement (.cvtF32E4m3 d a h) := (wordAluBSel_odd 0x0E d a h.toNat).trans (by decide : 1 = 4 / 4)
theorem Laws.Length.cvtF32E5m2 (d a : VReg) (h : BitVec 2) : Statement (.cvtF32E5m2 d a h) := (wordAluBSel_odd 0x0F d a h.toNat).trans (by decide : 1 = 4 / 4)
theorem Laws.Length.cvtE4m3x4F32 (d a : VReg) (b : Src) : Statement (.cvtE4m3x4F32 d a b) := (wordAluB_odd 0x10 d a b).trans (by decide : 1 = 4 / 4)
theorem Laws.Length.cvtE5m2x4F32 (d a : VReg) (b : Src) : Statement (.cvtE5m2x4F32 d a b) := (wordAluB_odd 0x11 d a b).trans (by decide : 1 = 4 / 4)
theorem Laws.Length.frint (d a : VReg) : Statement (.frint d a) := (wordAluBSel_odd 0x12 d a 0).trans (by decide : 1 = 4 / 4)
theorem Laws.Length.fclass (d a : VReg) : Statement (.fclass d a) := (wordAluBSel_odd 0x13 d a 0).trans (by decide : 1 = 4 / 4)
theorem Laws.Length.fabs (d a : VReg) : Statement (.fabs d a) := (wordAluBSel_odd 0x14 d a 0).trans (by decide : 1 = 4 / 4)
theorem Laws.Length.fneg (d a : VReg) : Statement (.fneg d a) := (wordAluBSel_odd 0x15 d a 0).trans (by decide : 1 = 4 / 4)
theorem Laws.Length.popc (d a : VReg) : Statement (.popc d a) := (wordAluBSel_odd 0x16 d a 0).trans (by decide : 1 = 4 / 4)
theorem Laws.Length.clz (d a : VReg) : Statement (.clz d a) := (wordAluBSel_odd 0x17 d a 0).trans (by decide : 1 = 4 / 4)
theorem Laws.Length.brev (d a : VReg) : Statement (.brev d a) := (wordAluBSel_odd 0x18 d a 0).trans (by decide : 1 = 4 / 4)
theorem Laws.Length.frcp (d a : VReg) : Statement (.frcp d a) := (wordAluBSel_odd 0x19 d a 0).trans (by decide : 1 = 4 / 4)
theorem Laws.Length.frsq (d a : VReg) : Statement (.frsq d a) := (wordAluBSel_odd 0x1A d a 0).trans (by decide : 1 = 4 / 4)
theorem Laws.Length.fsqrt (d a : VReg) : Statement (.fsqrt d a) := (wordAluBSel_odd 0x1B d a 0).trans (by decide : 1 = 4 / 4)
theorem Laws.Length.fdiv (d a : VReg) (b : Src) : Statement (.fdiv d a b) := (wordAluB_odd 0x1C d a b).trans (by decide : 1 = 4 / 4)
theorem Laws.Length.fex2 (d a : VReg) : Statement (.fex2 d a) := (wordAluBSel_odd 0x1D d a 0).trans (by decide : 1 = 4 / 4)
theorem Laws.Length.flg2 (d a : VReg) : Statement (.flg2 d a) := (wordAluBSel_odd 0x1E d a 0).trans (by decide : 1 = 4 / 4)
theorem Laws.Length.ddiv (d a : VReg) (b : Src) : Statement (.ddiv d a b) := (wordAluB_odd 0x22 d a b).trans (by decide : 1 = 4 / 4)
theorem Laws.Length.dsqrt (d a : VReg) : Statement (.dsqrt d a) := (wordAluBSel_odd 0x23 d a 0).trans (by decide : 1 = 4 / 4)
theorem Laws.Length.idiv (d a : VReg) (b : Src) : Statement (.idiv d a b) := (wordAluB_odd 0x24 d a b).trans (by decide : 1 = 4 / 4)
theorem Laws.Length.irem (d a : VReg) (b : Src) : Statement (.irem d a b) := (wordAluB_odd 0x25 d a b).trans (by decide : 1 = 4 / 4)
theorem Laws.Length.idivn (d a : VReg) (b : Src) : Statement (.idivn d a b) := (wordAluB_odd 0x26 d a b).trans (by decide : 1 = 4 / 4)
theorem Laws.Length.iremn (d a : VReg) (b : Src) : Statement (.iremn d a b) := (wordAluB_odd 0x27 d a b).trans (by decide : 1 = 4 / 4)
theorem Laws.Length.shfl (d a : VReg) (b : Src) : Statement (.shfl d a b) := (wordAluB_odd 0x28 d a b).trans (by decide : 1 = 4 / 4)
theorem Laws.Length.shflup (d a : VReg) (b : Src) : Statement (.shflup d a b) := (wordAluB_odd 0x29 d a b).trans (by decide : 1 = 4 / 4)
theorem Laws.Length.shfldn (d a : VReg) (b : Src) : Statement (.shfldn d a b) := (wordAluB_odd 0x2A d a b).trans (by decide : 1 = 4 / 4)
theorem Laws.Length.shflx (d a : VReg) (b : Src) : Statement (.shflx d a b) := (wordAluB_odd 0x2B d a b).trans (by decide : 1 = 4 / 4)
theorem Laws.Length.ballot (d a : VReg) : Statement (.ballot d a) := (wordAluBSel_odd 0x2C d a 0).trans (by decide : 1 = 4 / 4)
theorem Laws.Length.vany (d a : VReg) : Statement (.vany d a) := (wordAluBSel_odd 0x2D d a 0).trans (by decide : 1 = 4 / 4)
theorem Laws.Length.vall (d a : VReg) : Statement (.vall d a) := (wordAluBSel_odd 0x2E d a 0).trans (by decide : 1 = 4 / 4)
theorem Laws.Length.redadd (d a : VReg) : Statement (.redadd d a) := (wordAluBSel_odd 0x2F d a 0).trans (by decide : 1 = 4 / 4)
theorem Laws.Length.redfadd (d a : VReg) : Statement (.redfadd d a) := (wordAluBSel_odd 0x30 d a 0).trans (by decide : 1 = 4 / 4)
theorem Laws.Length.redmax (d a : VReg) : Statement (.redmax d a) := (wordAluBSel_odd 0x31 d a 0).trans (by decide : 1 = 4 / 4)
theorem Laws.Length.redmin (d a : VReg) : Statement (.redmin d a) := (wordAluBSel_odd 0x32 d a 0).trans (by decide : 1 = 4 / 4)
theorem Laws.Length.scanadd (d a : VReg) : Statement (.scanadd d a) := (wordAluBSel_odd 0x33 d a 0).trans (by decide : 1 = 4 / 4)
theorem Laws.Length.movx (d : VReg) (i : BitVec 2) : Statement (.movx d i) := (wordAluBSel_odd 0x34 d 0 i.toNat).trans (by decide : 1 = 4 / 4)
theorem Laws.Length.movxw (i : BitVec 2) (a : VReg) : Statement (.movxw i a) := (wordAluBSel_odd 0x35 0 a i.toNat).trans (by decide : 1 = 4 / 4)
theorem Laws.Length.setx (i : BitVec 2) (a : VReg) : Statement (.setx i a) := (wordAluBSel_odd 0x36 0 a i.toNat).trans (by decide : 1 = 4 / 4)
theorem Laws.Length.getx (d : VReg) (i : BitVec 2) : Statement (.getx d i) := (wordAluBSel_odd 0x37 d 0 i.toNat).trans (by decide : 1 = 4 / 4)
theorem Laws.Length.mov64 (d a : VReg) : Statement (.mov64 d a) := (wordAluBSel_odd 0x38 d a 0).trans (by decide : 1 = 4 / 4)
theorem Laws.Length.iaddi (d a : VReg) (i : BitVec 9) : Statement (.iaddi d a i) := (wordImm_odd 0x00 d a i.toNat).trans (by decide : 1 = 4 / 4)
theorem Laws.Length.andi (d a : VReg) (i : BitVec 9) : Statement (.andi d a i) := (wordImm_odd 0x01 d a i.toNat).trans (by decide : 1 = 4 / 4)
theorem Laws.Length.ori (d a : VReg) (i : BitVec 9) : Statement (.ori d a i) := (wordImm_odd 0x02 d a i.toNat).trans (by decide : 1 = 4 / 4)
theorem Laws.Length.xori (d a : VReg) (i : BitVec 9) : Statement (.xori d a i) := (wordImm_odd 0x03 d a i.toNat).trans (by decide : 1 = 4 / 4)
theorem Laws.Length.shli (d a : VReg) (i : BitVec 5) : Statement (.shli d a i) := (wordImm_odd 0x04 d a i.toNat).trans (by decide : 1 = 4 / 4)
theorem Laws.Length.shrli (d a : VReg) (i : BitVec 5) : Statement (.shrli d a i) := (wordImm_odd 0x05 d a i.toNat).trans (by decide : 1 = 4 / 4)
theorem Laws.Length.shrai (d a : VReg) (i : BitVec 5) : Statement (.shrai d a i) := (wordImm_odd 0x06 d a i.toNat).trans (by decide : 1 = 4 / 4)
theorem Laws.Length.iseqi (d a : VReg) (i : BitVec 9) : Statement (.iseqi d a i) := (wordImm_odd 0x07 d a i.toNat).trans (by decide : 1 = 4 / 4)
theorem Laws.Length.islti (d a : VReg) (i : BitVec 9) : Statement (.islti d a i) := (wordImm_odd 0x08 d a i.toNat).trans (by decide : 1 = 4 / 4)
theorem Laws.Length.isltni (d a : VReg) (i : BitVec 9) : Statement (.isltni d a i) := (wordImm_odd 0x09 d a i.toNat).trans (by decide : 1 = 4 / 4)
theorem Laws.Length.imuli (d a : VReg) (i : BitVec 9) : Statement (.imuli d a i) := (wordImm_odd 0x0A d a i.toNat).trans (by decide : 1 = 4 / 4)
theorem Laws.Length.iadd64i (d a : VReg) (i : BitVec 9) : Statement (.iadd64i d a i) := (wordImm_odd 0x0B d a i.toNat).trans (by decide : 1 = 4 / 4)
theorem Laws.Length.movk (d : VReg) (n : KReg) : Statement (.movk d n) := (wordImm_odd 0x0C d 0 n.toNat).trans (by decide : 1 = 4 / 4)
theorem Laws.Length.isnei (d a : VReg) (i : BitVec 9) : Statement (.isnei d a i) := (wordImm_odd 0x0D d a i.toNat).trans (by decide : 1 = 4 / 4)
theorem Laws.Length.movi (d : VReg) (i : BitVec 18) : Statement (.movi d i) := (wordLit_odd 0 d i.toNat).trans (by decide : 1 = 4 / 4)
theorem Laws.Length.movhi (d : VReg) (i : BitVec 18) : Statement (.movhi d i) := (wordLit_odd 1 d i.toNat).trans (by decide : 1 = 4 / 4)
theorem Laws.Length.bra (off : BitVec 24) : Statement (.bra off) := (wordCtl_odd 0 off.toNat).trans (by decide : 1 = 4 / 4)
theorem Laws.Length.bnz (a : VReg) (off : BitVec 17) : Statement (.bnz a off) := (wordCtl_odd 1 (a.toNat + off.toNat * 2 ^ 7)).trans (by decide : 1 = 4 / 4)
theorem Laws.Length.bz (a : VReg) (off : BitVec 17) : Statement (.bz a off) := (wordCtl_odd 2 (a.toNat + off.toNat * 2 ^ 7)).trans (by decide : 1 = 4 / 4)
theorem Laws.Length.call (off : BitVec 24) : Statement (.call off) := (wordCtl_odd 3 off.toNat).trans (by decide : 1 = 4 / 4)
theorem Laws.Length.callr (a : VReg) : Statement (.callr a) := (wordCtl_odd 4 a.toNat).trans (by decide : 1 = 4 / 4)
theorem Laws.Length.ret : Statement .ret := (wordCtl_odd 5 0).trans (by decide : 1 = 4 / 4)
theorem Laws.Length.jmpr (a : VReg) : Statement (.jmpr a) := (wordCtl_odd 6 a.toNat).trans (by decide : 1 = 4 / 4)
theorem Laws.Length.kbnz (a : KReg) (off : BitVec 18) : Statement (.kbnz a off) := (wordCtl_odd 7 (a.toNat + off.toNat * 2 ^ 6)).trans (by decide : 1 = 4 / 4)
theorem Laws.Length.kbz (a : KReg) (off : BitVec 18) : Statement (.kbz a off) := (wordCtl_odd 8 (a.toNat + off.toNat * 2 ^ 6)).trans (by decide : 1 = 4 / 4)
theorem Laws.Length.kadd (d a b : KReg) : Statement (.kadd d a b) := (wordUni_odd 0x00 d a b 0).trans (by decide : 1 = 4 / 4)
theorem Laws.Length.ksub (d a b : KReg) : Statement (.ksub d a b) := (wordUni_odd 0x01 d a b 0).trans (by decide : 1 = 4 / 4)
theorem Laws.Length.kmul (d a b : KReg) : Statement (.kmul d a b) := (wordUni_odd 0x02 d a b 0).trans (by decide : 1 = 4 / 4)
theorem Laws.Length.kand (d a b : KReg) : Statement (.kand d a b) := (wordUni_odd 0x03 d a b 0).trans (by decide : 1 = 4 / 4)
theorem Laws.Length.kor (d a b : KReg) : Statement (.kor d a b) := (wordUni_odd 0x04 d a b 0).trans (by decide : 1 = 4 / 4)
theorem Laws.Length.kxor (d a b : KReg) : Statement (.kxor d a b) := (wordUni_odd 0x05 d a b 0).trans (by decide : 1 = 4 / 4)
theorem Laws.Length.kshl (d a b : KReg) : Statement (.kshl d a b) := (wordUni_odd 0x06 d a b 0).trans (by decide : 1 = 4 / 4)
theorem Laws.Length.kshr (d a b : KReg) : Statement (.kshr d a b) := (wordUni_odd 0x07 d a b 0).trans (by decide : 1 = 4 / 4)
theorem Laws.Length.ksra (d a b : KReg) : Statement (.ksra d a b) := (wordUni_odd 0x08 d a b 0).trans (by decide : 1 = 4 / 4)
theorem Laws.Length.kaddi (d a : KReg) (i : BitVec 11) : Statement (.kaddi d a i) := (wordUniImm_odd 0x09 d a i).trans (by decide : 1 = 4 / 4)
theorem Laws.Length.kseq (d a b : KReg) : Statement (.kseq d a b) := (wordUni_odd 0x0A d a b 0).trans (by decide : 1 = 4 / 4)
theorem Laws.Length.kslt (d a b : KReg) : Statement (.kslt d a b) := (wordUni_odd 0x0B d a b 0).trans (by decide : 1 = 4 / 4)
theorem Laws.Length.ksltn (d a b : KReg) : Statement (.ksltn d a b) := (wordUni_odd 0x0C d a b 0).trans (by decide : 1 = 4 / 4)
theorem Laws.Length.kmin (d a b : KReg) : Statement (.kmin d a b) := (wordUni_odd 0x0D d a b 0).trans (by decide : 1 = 4 / 4)
theorem Laws.Length.kmax (d a b : KReg) : Statement (.kmax d a b) := (wordUni_odd 0x0E d a b 0).trans (by decide : 1 = 4 / 4)
theorem Laws.Length.ksel (d a b : KReg) : Statement (.ksel d a b) := (wordUni_odd 0x0F d a b 0).trans (by decide : 1 = 4 / 4)
theorem Laws.Length.kadd64 (d a b : KReg) : Statement (.kadd64 d a b) := (wordUni_odd 0x10 d a b 0).trans (by decide : 1 = 4 / 4)
theorem Laws.Length.kmovv (d : KReg) (a : VReg) : Statement (.kmovv d a) := (wordUniTop_odd 0x11 d a.toNat).trans (by decide : 1 = 4 / 4)
theorem Laws.Length.kldcb (d a : KReg) (i : BitVec 11) : Statement (.kldcb d a i) := (wordUniImm_odd 0x12 d a i).trans (by decide : 1 = 4 / 4)
theorem Laws.Length.kli (d : KReg) (i : BitVec 17) : Statement (.kli d i) := (wordUniTop_odd 0x13 d i.toNat).trans (by decide : 1 = 4 / 4)
theorem Laws.Length.klih (d : KReg) (i : BitVec 17) : Statement (.klih d i) := (wordUniTop_odd 0x14 d i.toNat).trans (by decide : 1 = 4 / 4)
theorem Laws.Length.kmulhi (d a b : KReg) : Statement (.kmulhi d a b) := (wordUni_odd 0x15 d a b 0).trans (by decide : 1 = 4 / 4)
theorem Laws.Length.lds32 (d base : VReg) (i : BitVec 8) : Statement (.lds32 d base i) := (wordMem8_odd 0 0 d base i.toNat).trans (by decide : 1 = 4 / 4)
theorem Laws.Length.lds64 (d base : VReg) (i : BitVec 8) : Statement (.lds64 d base i) := (wordMem8_odd 0 1 d base i.toNat).trans (by decide : 1 = 4 / 4)
theorem Laws.Length.lds128 (d base : VReg) (i : BitVec 8) : Statement (.lds128 d base i) := (wordMem8_odd 0 2 d base i.toNat).trans (by decide : 1 = 4 / 4)
theorem Laws.Length.sts32 (d base : VReg) (i : BitVec 8) : Statement (.sts32 d base i) := (wordMem8_odd 0 3 d base i.toNat).trans (by decide : 1 = 4 / 4)
theorem Laws.Length.sts64 (d base : VReg) (i : BitVec 8) : Statement (.sts64 d base i) := (wordMem8_odd 0 4 d base i.toNat).trans (by decide : 1 = 4 / 4)
theorem Laws.Length.sts128 (d base : VReg) (i : BitVec 8) : Statement (.sts128 d base i) := (wordMem8_odd 0 5 d base i.toNat).trans (by decide : 1 = 4 / 4)
theorem Laws.Length.atsAdd32 (d base : VReg) (i : BitVec 8) : Statement (.atsAdd32 d base i) := (wordMem8_odd 0 6 d base i.toNat).trans (by decide : 1 = 4 / 4)
theorem Laws.Length.atsExch32 (d base : VReg) (i : BitVec 8) : Statement (.atsExch32 d base i) := (wordMem8_odd 0 7 d base i.toNat).trans (by decide : 1 = 4 / 4)
theorem Laws.Length.ldn32 (d base : VReg) (t : BitVec 2) (o : Order) (i : BitVec 4) : Statement (.ldn32 d base t o i) := (wordCluster_odd 0 d base t o i).trans (by decide : 1 = 4 / 4)
theorem Laws.Length.ldn64 (d base : VReg) (t : BitVec 2) (o : Order) (i : BitVec 4) : Statement (.ldn64 d base t o i) := (wordCluster_odd 1 d base t o i).trans (by decide : 1 = 4 / 4)
theorem Laws.Length.ldn128 (d base : VReg) (t : BitVec 2) (o : Order) (i : BitVec 4) : Statement (.ldn128 d base t o i) := (wordCluster_odd 2 d base t o i).trans (by decide : 1 = 4 / 4)
theorem Laws.Length.stn32 (d base : VReg) (t : BitVec 2) (o : Order) (i : BitVec 4) : Statement (.stn32 d base t o i) := (wordCluster_odd 3 d base t o i).trans (by decide : 1 = 4 / 4)
theorem Laws.Length.stn64 (d base : VReg) (t : BitVec 2) (o : Order) (i : BitVec 4) : Statement (.stn64 d base t o i) := (wordCluster_odd 4 d base t o i).trans (by decide : 1 = 4 / 4)
theorem Laws.Length.stn128 (d base : VReg) (t : BitVec 2) (o : Order) (i : BitVec 4) : Statement (.stn128 d base t o i) := (wordCluster_odd 5 d base t o i).trans (by decide : 1 = 4 / 4)
theorem Laws.Length.atnAdd32 (d base : VReg) (t : BitVec 2) (o : Order) (i : BitVec 4) : Statement (.atnAdd32 d base t o i) := (wordCluster_odd 6 d base t o i).trans (by decide : 1 = 4 / 4)
theorem Laws.Length.atnExch32 (d base : VReg) (t : BitVec 2) (o : Order) (i : BitVec 4) : Statement (.atnExch32 d base t o i) := (wordCluster_odd 7 d base t o i).trans (by decide : 1 = 4 / 4)
theorem Laws.Length.ldgZ8 (d a : VReg) (o : Order) (sc : Scope) (p : Policy) : Statement (.ldgZ8 d a o sc p) := (wordGlobal_odd 0 d a o sc p.code).trans (by decide : 1 = 4 / 4)
theorem Laws.Length.ldgS8 (d a : VReg) (o : Order) (sc : Scope) (p : Policy) : Statement (.ldgS8 d a o sc p) := (wordGlobal_odd 1 d a o sc p.code).trans (by decide : 1 = 4 / 4)
theorem Laws.Length.ldgZ16 (d a : VReg) (o : Order) (sc : Scope) (p : Policy) : Statement (.ldgZ16 d a o sc p) := (wordGlobal_odd 2 d a o sc p.code).trans (by decide : 1 = 4 / 4)
theorem Laws.Length.ldgS16 (d a : VReg) (o : Order) (sc : Scope) (p : Policy) : Statement (.ldgS16 d a o sc p) := (wordGlobal_odd 3 d a o sc p.code).trans (by decide : 1 = 4 / 4)
theorem Laws.Length.ldg32 (d a : VReg) (o : Order) (sc : Scope) (p : Policy) : Statement (.ldg32 d a o sc p) := (wordGlobal_odd 4 d a o sc p.code).trans (by decide : 1 = 4 / 4)
theorem Laws.Length.ldg64 (d a : VReg) (o : Order) (sc : Scope) (p : Policy) : Statement (.ldg64 d a o sc p) := (wordGlobal_odd 5 d a o sc p.code).trans (by decide : 1 = 4 / 4)
theorem Laws.Length.ldg128 (d a : VReg) (o : Order) (sc : Scope) (p : Policy) : Statement (.ldg128 d a o sc p) := (wordGlobal_odd 6 d a o sc p.code).trans (by decide : 1 = 4 / 4)
theorem Laws.Length.stg8 (d a : VReg) (o : Order) (sc : Scope) (p : Policy) : Statement (.stg8 d a o sc p) := (wordGlobal_odd 7 d a o sc p.code).trans (by decide : 1 = 4 / 4)
theorem Laws.Length.stg16 (d a : VReg) (o : Order) (sc : Scope) (p : Policy) : Statement (.stg16 d a o sc p) := (wordGlobal_odd 8 d a o sc p.code).trans (by decide : 1 = 4 / 4)
theorem Laws.Length.stg32 (d a : VReg) (o : Order) (sc : Scope) (p : Policy) : Statement (.stg32 d a o sc p) := (wordGlobal_odd 9 d a o sc p.code).trans (by decide : 1 = 4 / 4)
theorem Laws.Length.stg64 (d a : VReg) (o : Order) (sc : Scope) (p : Policy) : Statement (.stg64 d a o sc p) := (wordGlobal_odd 10 d a o sc p.code).trans (by decide : 1 = 4 / 4)
theorem Laws.Length.stg128 (d a : VReg) (o : Order) (sc : Scope) (p : Policy) : Statement (.stg128 d a o sc p) := (wordGlobal_odd 11 d a o sc p.code).trans (by decide : 1 = 4 / 4)
theorem Laws.Length.pfg (a : VReg) (p : Policy) : Statement (.pfg a p) := (wordGlobal_odd 12 0 a .rlx .blk p.code).trans (by decide : 1 = 4 / 4)
theorem Laws.Length.atg32 (d a : VReg) (f : AtomFn) (o : Order) (sc : Scope) : Statement (.atg32 d a f o sc) := (wordGlobal_odd 13 d a o sc f.code).trans (by decide : 1 = 4 / 4)
theorem Laws.Length.atg64 (d a : VReg) (f : AtomFn) (o : Order) (sc : Scope) : Statement (.atg64 d a f o sc) := (wordGlobal_odd 14 d a o sc f.code).trans (by decide : 1 = 4 / 4)
theorem Laws.Length.atf32 (d a : VReg) (f : AtfFn) (o : Order) (sc : Scope) : Statement (.atf32 d a f o sc) := (wordGlobal_odd 15 d a o sc f.code).trans (by decide : 1 = 4 / 4)
theorem Laws.Length.ldp32 (d base : VReg) (i : BitVec 8) : Statement (.ldp32 d base i) := (wordMem8_odd 3 0 d base i.toNat).trans (by decide : 1 = 4 / 4)
theorem Laws.Length.ldp64 (d base : VReg) (i : BitVec 8) : Statement (.ldp64 d base i) := (wordMem8_odd 3 1 d base i.toNat).trans (by decide : 1 = 4 / 4)
theorem Laws.Length.ldp128 (d base : VReg) (i : BitVec 8) : Statement (.ldp128 d base i) := (wordMem8_odd 3 2 d base i.toNat).trans (by decide : 1 = 4 / 4)
theorem Laws.Length.pfp (base : VReg) (i : BitVec 8) : Statement (.pfp base i) := (wordMem8_odd 3 3 0 base i.toNat).trans (by decide : 1 = 4 / 4)
theorem Laws.Length.ldcb32 (d x : VReg) (i : BitVec 8) : Statement (.ldcb32 d x i) := (wordMem8_odd 4 0 d x i.toNat).trans (by decide : 1 = 4 / 4)
theorem Laws.Length.ldcb64 (d x : VReg) (i : BitVec 8) : Statement (.ldcb64 d x i) := (wordMem8_odd 4 1 d x i.toNat).trans (by decide : 1 = 4 / 4)
theorem Laws.Length.ldcb128 (d x : VReg) (i : BitVec 8) : Statement (.ldcb128 d x i) := (wordMem8_odd 4 2 d x i.toNat).trans (by decide : 1 = 4 / 4)
theorem Laws.Length.ldh32 (d base : VReg) (o : Order) : Statement (.ldh32 d base o) := (wordHost_odd 0 d base o).trans (by decide : 1 = 4 / 4)
theorem Laws.Length.ldh64 (d base : VReg) (o : Order) : Statement (.ldh64 d base o) := (wordHost_odd 1 d base o).trans (by decide : 1 = 4 / 4)
theorem Laws.Length.sth32 (d base : VReg) (o : Order) : Statement (.sth32 d base o) := (wordHost_odd 2 d base o).trans (by decide : 1 = 4 / 4)
theorem Laws.Length.sth64 (d base : VReg) (o : Order) : Statement (.sth64 d base o) := (wordHost_odd 3 d base o).trans (by decide : 1 = 4 / 4)
theorem Laws.Length.athAdd64 (d base : VReg) (o : Order) : Statement (.athAdd64 d base o) := (wordHost_odd 4 d base o).trans (by decide : 1 = 4 / 4)
theorem Laws.Length.athCas64 (d base : VReg) (o : Order) : Statement (.athCas64 d base o) := (wordHost_odd 5 d base o).trans (by decide : 1 = 4 / 4)
theorem Laws.Length.athExch64 (d base : VReg) (o : Order) : Statement (.athExch64 d base o) := (wordHost_odd 6 d base o).trans (by decide : 1 = 4 / 4)
theorem Laws.Length.binit (b : BitVec 4) (count : BitVec 12) : Statement (.binit b count) := (wordSys_odd 0x00 (b.toNat * 2 ^ 14 + count.toNat)).trans (by decide : 1 = 4 / 4)
theorem Laws.Length.barr (b : BitVec 4) : Statement (.barr b) := (wordSys_odd 0x01 (b.toNat * 2 ^ 14)).trans (by decide : 1 = 4 / 4)
theorem Laws.Length.barrx (b : BitVec 4) (ka : KReg) : Statement (.barrx b ka) := (wordSys_odd 0x02 (b.toNat * 2 ^ 14 + ka.toNat)).trans (by decide : 1 = 4 / 4)
theorem Laws.Length.bexp (b : BitVec 4) (ka : KReg) : Statement (.bexp b ka) := (wordSys_odd 0x03 (b.toNat * 2 ^ 14 + ka.toNat)).trans (by decide : 1 = 4 / 4)
theorem Laws.Length.bwait (b : BitVec 4) (p : BitVec 1) : Statement (.bwait b p) := (wordSys_odd 0x04 (b.toNat * 2 ^ 14 + p.toNat * 2 ^ 18)).trans (by decide : 1 = 4 / 4)
theorem Laws.Length.btest (d : VReg) (b : BitVec 4) (p : BitVec 1) : Statement (.btest d b p) := (wordSys_odd 0x05 (d.toNat + b.toNat * 2 ^ 14 + p.toNat * 2 ^ 18)).trans (by decide : 1 = 4 / 4)
theorem Laws.Length.bdrop (b : BitVec 4) : Statement (.bdrop b) := (wordSys_odd 0x06 (b.toNat * 2 ^ 14)).trans (by decide : 1 = 4 / 4)
theorem Laws.Length.cpgs (vs a : VReg) (b : BitVec 4) (z : CpSize) : Statement (.cpgs vs a b z) := (wordSys_odd 0x08 (vs.toNat + a.toNat * 2 ^ 7 + b.toNat * 2 ^ 14 + z.code * 2 ^ 18)).trans (by decide : 1 = 4 / 4)
theorem Laws.Length.cpsg (vs a : VReg) (b : BitVec 4) (z : CpSize) : Statement (.cpsg vs a b z) := (wordSys_odd 0x09 (vs.toNat + a.toNat * 2 ^ 7 + b.toNat * 2 ^ 14 + z.code * 2 ^ 18)).trans (by decide : 1 = 4 / 4)
theorem Laws.Length.cptl (ka kb kc : KReg) (b : BitVec 4) : Statement (.cptl ka kb kc b) := (wordSys_odd 0x0A (ka.toNat + kb.toNat * 2 ^ 6 + kc.toNat * 2 ^ 12 + b.toNat * 2 ^ 18)).trans (by decide : 1 = 4 / 4)
theorem Laws.Length.cpts (ka kb kc : KReg) (b : BitVec 4) : Statement (.cpts ka kb kc b) := (wordSys_odd 0x0B (ka.toNat + kb.toNat * 2 ^ 6 + kc.toNat * 2 ^ 12 + b.toNat * 2 ^ 18)).trans (by decide : 1 = 4 / 4)
theorem Laws.Length.cppw (ka kb : KReg) (b : BitVec 4) : Statement (.cppw ka kb b) := (wordSys_odd 0x0C (ka.toNat + kb.toNat * 2 ^ 6 + b.toNat * 2 ^ 18)).trans (by decide : 1 = 4 / 4)
theorem Laws.Length.waitcnt (ld st : BitVec 6) (cp : BitVec 5) (mx : BitVec 4) : Statement (.waitcnt ld st cp mx) := (wordSys_odd 0x0D (ld.toNat + st.toNat * 2 ^ 6 + cp.toNat * 2 ^ 12 + mx.toNat * 2 ^ 17)).trans (by decide : 1 = 4 / 4)
theorem Laws.Length.mxpush (ka : KReg) : Statement (.mxpush ka) := (wordSys_odd 0x10 ka.toNat).trans (by decide : 1 = 4 / 4)
theorem Laws.Length.mxfence : Statement .mxfence := (wordSys_odd 0x11 0).trans (by decide : 1 = 4 / 4)
theorem Laws.Length.mxquery (d : VReg) : Statement (.mxquery d) := (wordSys_odd 0x12 d.toNat).trans (by decide : 1 = 4 / 4)
theorem Laws.Length.qblk (ka kb kc : KReg) (f : BitVec 1) : Statement (.qblk ka kb kc f) := (wordSys_odd 0x13 (ka.toNat + kb.toNat * 2 ^ 6 + kc.toNat * 2 ^ 12 + f.toNat * 2 ^ 18)).trans (by decide : 1 = 4 / 4)
theorem Laws.Length.rresv (kd : KReg) (q : BitVec 5) : Statement (.rresv kd q) := (wordSys_odd 0x18 (kd.toNat * 2 ^ 6 + q.toNat)).trans (by decide : 1 = 4 / 4)
theorem Laws.Length.rcommit (q : BitVec 5) (ka : KReg) : Statement (.rcommit q ka) := (wordSys_odd 0x19 (q.toNat + ka.toNat * 2 ^ 6)).trans (by decide : 1 = 4 / 4)
theorem Laws.Length.rrecv (kd : KReg) (q : BitVec 5) : Statement (.rrecv kd q) := (wordSys_odd 0x1A (kd.toNat * 2 ^ 6 + q.toNat)).trans (by decide : 1 = 4 / 4)
theorem Laws.Length.rrelease (q : BitVec 5) (ka : KReg) : Statement (.rrelease q ka) := (wordSys_odd 0x1B (q.toNat + ka.toNat * 2 ^ 6)).trans (by decide : 1 = 4 / 4)
theorem Laws.Length.rtryresv (kd : KReg) (q : BitVec 5) : Statement (.rtryresv kd q) := (wordSys_odd 0x1C (kd.toNat * 2 ^ 6 + q.toNat)).trans (by decide : 1 = 4 / 4)
theorem Laws.Length.rtryrecv (kd : KReg) (q : BitVec 5) : Statement (.rtryrecv kd q) := (wordSys_odd 0x1D (kd.toNat * 2 ^ 6 + q.toNat)).trans (by decide : 1 = 4 / 4)
theorem Laws.Length.rclose (q : BitVec 5) : Statement (.rclose q) := (wordSys_odd 0x1E q.toNat).trans (by decide : 1 = 4 / 4)
theorem Laws.Length.rstat (kd : KReg) (q : BitVec 5) : Statement (.rstat kd q) := (wordSys_odd 0x1F (kd.toNat * 2 ^ 6 + q.toNat)).trans (by decide : 1 = 4 / 4)
theorem Laws.Length.pinstall (ka : KReg) : Statement (.pinstall ka) := (wordSys_odd 0x20 ka.toNat).trans (by decide : 1 = 4 / 4)
theorem Laws.Length.pstatus (kd ka : KReg) : Statement (.pstatus kd ka) := (wordSys_odd 0x21 (kd.toNat + ka.toNat * 2 ^ 6)).trans (by decide : 1 = 4 / 4)
theorem Laws.Length.fence (kind : FenceKind) (sc : Scope) : Statement (.fence kind sc) := (wordSys_odd 0x24 (kind.code + sc.code * 2 ^ 2)).trans (by decide : 1 = 4 / 4)
theorem Laws.Length.sealLines (ka kb : KReg) : Statement (.sealLines ka kb) := (wordSys_odd 0x25 (ka.toNat + kb.toNat * 2 ^ 6)).trans (by decide : 1 = 4 / 4)
theorem Laws.Length.unsealLines (ka kb : KReg) : Statement (.unsealLines ka kb) := (wordSys_odd 0x26 (ka.toNat + kb.toNat * 2 ^ 6)).trans (by decide : 1 = 4 / 4)
theorem Laws.Length.cwb (ka kb : KReg) (sc : Scope) : Statement (.cwb ka kb sc) := (wordSys_odd 0x27 (ka.toNat + kb.toNat * 2 ^ 6 + sc.code * 2 ^ 12)).trans (by decide : 1 = 4 / 4)
theorem Laws.Length.yield : Statement .yield := (wordSys_odd 0x28 0).trans (by decide : 1 = 4 / 4)
theorem Laws.Length.wsync (ka : KReg) : Statement (.wsync ka) := (wordSys_odd 0x29 ka.toNat).trans (by decide : 1 = 4 / 4)
theorem Laws.Length.exit : Statement .exit := (wordSys_odd 0x2A 0).trans (by decide : 1 = 4 / 4)
theorem Laws.Length.trap (n : BitVec 16) : Statement (.trap n) := (wordSys_odd 0x2B n.toNat).trans (by decide : 1 = 4 / 4)
theorem Laws.Length.bkpt : Statement .bkpt := (wordSys_odd 0x2C 0).trans (by decide : 1 = 4 / 4)
theorem Laws.Length.rett : Statement .rett := (wordSys_odd 0x2D 0).trans (by decide : 1 = 4 / 4)
theorem Laws.Length.csrr (d : VReg) (csr : BitVec 12) : Statement (.csrr d csr) := (wordSys_odd 0x2E (d.toNat + csr.toNat * 2 ^ 7)).trans (by decide : 1 = 4 / 4)
theorem Laws.Length.csrw (csr : BitVec 12) (a : VReg) : Statement (.csrw csr a) := (wordSys_odd 0x2F (csr.toNat * 2 ^ 7 + a.toNat)).trans (by decide : 1 = 4 / 4)
theorem Laws.Length.rdcyc (d : VReg) : Statement (.rdcyc d) := (wordSys_odd 0x30 d.toNat).trans (by decide : 1 = 4 / 4)
theorem Laws.Length.wred (d a : VReg) (op : RedOp) (t : RedType) (g : BitVec 4) : Statement (.wred d a op t g) := (wordSys_odd 0x31 (d.toNat + a.toNat * 2 ^ 7 + op.code * 2 ^ 14 + t.code * 2 ^ 16 + g.toNat * 2 ^ 18)).trans (by decide : 1 = 4 / 4)
theorem Laws.Length.evsig (ka : KReg) : Statement (.evsig ka) := (wordSys_odd 0x32 ka.toNat).trans (by decide : 1 = 4 / 4)
theorem Laws.Length.movsr (d : VReg) (id : BitVec 7) : Statement (.movsr d id) := (wordSys_odd 0x33 (d.toNat + id.toNat * 2 ^ 7)).trans (by decide : 1 = 4 / 4)
theorem Laws.Length.phaseEnd (blk : Nat) : Statement (.phaseEnd blk) := (by decide : 0 % 2 = 0 / 4)
theorem Laws.Length.queueDoorbell (door tail : Nat) : Statement (.queueDoorbell door tail) := (by decide : 0 % 2 = 0 / 4)
theorem Laws.Length.queueEntry (q : Nat) : Statement (.queueEntry q) := (by decide : 0 % 2 = 0 / 4)
theorem Laws.Length.graphStart (q : Nat) : Statement (.graphStart q) := (by decide : 0 % 2 = 0 / 4)
theorem Laws.Length.kernelNode (q node : Nat) : Statement (.kernelNode q node) := (by decide : 0 % 2 = 0 / 4)
theorem Laws.Length.millNode (q node : Nat) : Statement (.millNode q node) := (by decide : 0 % 2 = 0 / 4)
theorem Laws.Length.millStart (gid : Nat) : Statement (.millStart gid) := (by decide : 0 % 2 = 0 / 4)
theorem Laws.Length.millCoreJoin (gid core : Nat) : Statement (.millCoreJoin gid core) := (by decide : 0 % 2 = 0 / 4)
theorem Laws.Length.copyNode (q node : Nat) : Statement (.copyNode q node) := (by decide : 0 % 2 = 0 / 4)
theorem Laws.Length.installNode (q node : Nat) : Statement (.installNode q node) := (by decide : 0 % 2 = 0 / 4)
theorem Laws.Length.condNode (q node : Nat) : Statement (.condNode q node) := (by decide : 0 % 2 = 0 / 4)
theorem Laws.Length.loopNode (q node : Nat) : Statement (.loopNode q node) := (by decide : 0 % 2 = 0 / 4)
theorem Laws.Length.loopRearm (q node : Nat) : Statement (.loopRearm q node) := (by decide : 0 % 2 = 0 / 4)
theorem Laws.Length.eventNode (q node : Nat) : Statement (.eventNode q node) := (by decide : 0 % 2 = 0 / 4)
theorem Laws.Length.waitNode (q node : Nat) : Statement (.waitNode q node) := (by decide : 0 % 2 = 0 / 4)
theorem Laws.Length.nodeComplete (q node : Nat) : Statement (.nodeComplete q node) := (by decide : 0 % 2 = 0 / 4)
theorem Laws.Length.graphComplete (q : Nat) : Statement (.graphComplete q) := (by decide : 0 % 2 = 0 / 4)
theorem Laws.Length.qcfgWrite (vi q reg value : Nat) : Statement (.qcfgWrite vi q reg value) := (by decide : 0 % 2 = 0 / 4)
theorem Laws.Length.evraise (vi n : Nat) : Statement (.evraise vi n) := (by decide : 0 % 2 = 0 / 4)
theorem Laws.Length.handBlock (gid stage : Nat) : Statement (.handBlock gid stage) := (by decide : 0 % 2 = 0 / 4)
theorem Laws.Length.placeBlock (dom : Nat) : Statement (.placeBlock dom) := (by decide : 0 % 2 = 0 / 4)
theorem Laws.Length.clusterConvert (dom cl : Nat) : Statement (.clusterConvert dom cl) := (by decide : 0 % 2 = 0 / 4)
theorem Laws.Length.clusterConvertDone (dom cl : Nat) : Statement (.clusterConvertDone dom cl) := (by decide : 0 % 2 = 0 / 4)
theorem Laws.Length.blockRetire (blk : Nat) : Statement (.blockRetire blk) := (by decide : 0 % 2 = 0 / 4)
theorem Laws.Length.gridComplete (gid : Nat) : Statement (.gridComplete gid) := (by decide : 0 % 2 = 0 / 4)
theorem Laws.Length.pageWalk (op lane : Nat) : Statement (.pageWalk op lane) := (by decide : 0 % 2 = 0 / 4)
theorem Laws.Length.parkPendingAdmit (dom : Nat) : Statement (.parkPendingAdmit dom) := (by decide : 0 % 2 = 0 / 4)
theorem Laws.Length.memComplete (op : Nat) : Statement (.memComplete op) := (by decide : 0 % 2 = 0 / 4)
theorem Laws.Length.fenceComplete (op : Nat) : Statement (.fenceComplete op) := (by decide : 0 % 2 = 0 / 4)
theorem Laws.Length.homeAccess (op lane : Nat) : Statement (.homeAccess op lane) := (by decide : 0 % 2 = 0 / 4)
theorem Laws.Length.invalidationAccept (dom line target : Nat) : Statement (.invalidationAccept dom line target) := (by decide : 0 % 2 = 0 / 4)
theorem Laws.Length.invalidationApply (dom bank : Nat) : Statement (.invalidationApply dom bank) := (by decide : 0 % 2 = 0 / 4)
theorem Laws.Length.tlbinv (vi value : Nat) : Statement (.tlbinv vi value) := (by decide : 0 % 2 = 0 / 4)
theorem Laws.Length.tlbinvDone (vi : Nat) : Statement (.tlbinvDone vi) := (by decide : 0 % 2 = 0 / 4)
theorem Laws.Length.asnroot (vi off value : Nat) : Statement (.asnroot vi off value) := (by decide : 0 % 2 = 0 / 4)
theorem Laws.Length.l2hashWrite (dom index value : Nat) : Statement (.l2hashWrite dom index value) := (by decide : 0 % 2 = 0 / 4)
theorem Laws.Length.migrateStart (vi : Nat) : Statement (.migrateStart vi) := (by decide : 0 % 2 = 0 / 4)
theorem Laws.Length.migrateCopied (vi : Nat) : Statement (.migrateCopied vi) := (by decide : 0 % 2 = 0 / 4)
theorem Laws.Length.migrateFinish (vi : Nat) : Statement (.migrateFinish vi) := (by decide : 0 % 2 = 0 / 4)
theorem Laws.Length.copyLand (core slot k : Nat) : Statement (.copyLand core slot k) := (by decide : 0 % 2 = 0 / 4)
theorem Laws.Length.copyComplete (core slot : Nat) : Statement (.copyComplete core slot) := (by decide : 0 % 2 = 0 / 4)
theorem Laws.Length.loadw (core part : Nat) : Statement (.loadw core part) := (by decide : 0 % 2 = 0 / 4)
theorem Laws.Length.stream (core part : Nat) : Statement (.stream core part) := (by decide : 0 % 2 = 0 / 4)
theorem Laws.Length.accum (core part : Nat) : Statement (.accum core part) := (by decide : 0 % 2 = 0 / 4)
theorem Laws.Length.drain (core part : Nat) : Statement (.drain core part) := (by decide : 0 % 2 = 0 / 4)
theorem Laws.Length.signal (core part : Nat) : Statement (.signal core part) := (by decide : 0 % 2 = 0 / 4)
theorem Laws.Length.mxComplete (core part : Nat) : Statement (.mxComplete core part) := (by decide : 0 % 2 = 0 / 4)
theorem Laws.Length.weightStage (core frame : Nat) : Statement (.weightStage core frame) := (by decide : 0 % 2 = 0 / 4)
theorem Laws.Length.weightStageDone (core frame : Nat) : Statement (.weightStageDone core frame) := (by decide : 0 % 2 = 0 / 4)
theorem Laws.Length.mxPowerGate (core part quarter : Nat) : Statement (.mxPowerGate core part quarter) := (by decide : 0 % 2 = 0 / 4)
theorem Laws.Length.mxWake (core part quarter : Nat) : Statement (.mxWake core part quarter) := (by decide : 0 % 2 = 0 / 4)
theorem Laws.Length.installAccept (vi ticket : Nat) : Statement (.installAccept vi ticket) := (by decide : 0 % 2 = 0 / 4)
theorem Laws.Length.engraveRead (vi ticket page : Nat) : Statement (.engraveRead vi ticket page) := (by decide : 0 % 2 = 0 / 4)
theorem Laws.Length.engraveProgram (vi ticket page fblk ok : Nat) : Statement (.engraveProgram vi ticket page fblk ok) := (by decide : 0 % 2 = 0 / 4)
theorem Laws.Length.engraveVerify (vi ticket page ok : Nat) : Statement (.engraveVerify vi ticket page ok) := (by decide : 0 % 2 = 0 / 4)
theorem Laws.Length.plateSwitch (vi ticket page : Nat) : Statement (.plateSwitch vi ticket page) := (by decide : 0 % 2 = 0 / 4)
theorem Laws.Length.blockReclaim (dom fblk dest : Nat) : Statement (.blockReclaim dom fblk dest) := (by decide : 0 % 2 = 0 / 4)
theorem Laws.Length.blockErase (dom fblk ok : Nat) : Statement (.blockErase dom fblk ok) := (by decide : 0 % 2 = 0 / 4)
theorem Laws.Length.raceGrant (gid race : Nat) : Statement (.raceGrant gid race) := (by decide : 0 % 2 = 0 / 4)
theorem Laws.Length.commitComplete (op : Nat) : Statement (.commitComplete op) := (by decide : 0 % 2 = 0 / 4)
theorem Laws.Length.releaseComplete (op : Nat) : Statement (.releaseComplete op) := (by decide : 0 % 2 = 0 / 4)
theorem Laws.Length.millComplete (gid : Nat) : Statement (.millComplete gid) := (by decide : 0 % 2 = 0 / 4)
theorem Laws.Length.millwrightStep (gid dom : Nat) : Statement (.millwrightStep gid dom) := (by decide : 0 % 2 = 0 / 4)
theorem Laws.Length.waferMillwrightStep (gid : Nat) : Statement (.waferMillwrightStep gid) := (by decide : 0 % 2 = 0 / 4)
theorem Laws.Length.occSample (gid race dom : Nat) : Statement (.occSample gid race dom) := (by decide : 0 % 2 = 0 / 4)
theorem Laws.Length.moveApply (gid : Nat) : Statement (.moveApply gid) := (by decide : 0 % 2 = 0 / 4)
theorem Laws.Length.preemptCommand (vi value : Nat) : Statement (.preemptCommand vi value) := (by decide : 0 % 2 = 0 / 4)
theorem Laws.Length.drainBudgetExpire (blk : Nat) : Statement (.drainBudgetExpire blk) := (by decide : 0 % 2 = 0 / 4)
theorem Laws.Length.flushRelease (blk : Nat) : Statement (.flushRelease blk) := (by decide : 0 % 2 = 0 / 4)
theorem Laws.Length.saveWrite (blk : Nat) : Statement (.saveWrite blk) := (by decide : 0 % 2 = 0 / 4)
theorem Laws.Length.preemptDone (cmd : Nat) : Statement (.preemptDone cmd) := (by decide : 0 % 2 = 0 / 4)
theorem Laws.Length.fqpop (vi : Nat) : Statement (.fqpop vi) := (by decide : 0 % 2 = 0 / 4)
theorem Laws.Length.fqResume (vi handle : Nat) : Statement (.fqResume vi handle) := (by decide : 0 % 2 = 0 / 4)
theorem Laws.Length.fqDeliver (vi handle : Nat) : Statement (.fqDeliver vi handle) := (by decide : 0 % 2 = 0 / 4)
theorem Laws.Length.fqAbort (vi handle : Nat) : Statement (.fqAbort vi handle) := (by decide : 0 % 2 = 0 / 4)
theorem Laws.Length.l1TagParityError (core line : Nat) : Statement (.l1TagParityError core line) := (by decide : 0 % 2 = 0 / 4)
theorem Laws.Length.linkCrcFail (link packet : Nat) : Statement (.linkCrcFail link packet) := (by decide : 0 % 2 = 0 / 4)
theorem Laws.Length.packetForward (dom packet : Nat) : Statement (.packetForward dom packet) := (by decide : 0 % 2 = 0 / 4)
theorem Laws.Length.rtArm (dom tbl : Nat) : Statement (.rtArm dom tbl) := (by decide : 0 % 2 = 0 / 4)
theorem Laws.Length.rtSelect (dom tbl : Nat) : Statement (.rtSelect dom tbl) := (by decide : 0 % 2 = 0 / 4)
theorem Laws.Length.rtDrain (dom tbl : Nat) : Statement (.rtDrain dom tbl) := (by decide : 0 % 2 = 0 / 4)
theorem Laws.Length.rtClear (dom : Nat) : Statement (.rtClear dom) := (by decide : 0 % 2 = 0 / 4)
theorem Laws.Length.drainTokenVisit (dom : Nat) : Statement (.drainTokenVisit dom) := (by decide : 0 % 2 = 0 / 4)
theorem Laws.Length.nameAgeTick (dom : Nat) : Statement (.nameAgeTick dom) := (by decide : 0 % 2 = 0 / 4)
theorem Laws.Length.renameCore (dom value : Nat) : Statement (.renameCore dom value) := (by decide : 0 % 2 = 0 / 4)
theorem Laws.Length.renameComplete (dom : Nat) : Statement (.renameComplete dom) := (by decide : 0 % 2 = 0 / 4)
theorem Laws.Length.vfctlWrite (dom value : Nat) : Statement (.vfctlWrite dom value) := (by decide : 0 % 2 = 0 / 4)
theorem Laws.Length.linkPauseEnd (dom : Nat) : Statement (.linkPauseEnd dom) := (by decide : 0 % 2 = 0 / 4)
theorem Laws.Length.powerLimitTick (watts : Nat) : Statement (.powerLimitTick watts) := (by decide : 0 % 2 = 0 / 4)
theorem Laws.Length.ctreeBuild (vi ident group root : Nat) : Statement (.ctreeBuild vi ident group root) := (by decide : 0 % 2 = 0 / 4)
theorem Laws.Length.wredRoundResult (gid group round member : Nat) : Statement (.wredRoundResult gid group round member) := (by decide : 0 % 2 = 0 / 4)
theorem Laws.Length.peerAccess (port fn off size data : Nat) : Statement (.peerAccess port fn off size data) := (by decide : 0 % 2 = 0 / 4)
theorem Laws.Length.hostMemAccess (vi fn off size data : Nat) : Statement (.hostMemAccess vi fn off size data) := (by decide : 0 % 2 = 0 / 4)
theorem Laws.Length.attest (vi value : Nat) : Statement (.attest vi value) := (by decide : 0 % 2 = 0 / 4)
theorem Laws.Length.gdaybookWrite (vi value : Nat) : Statement (.gdaybookWrite vi value) := (by decide : 0 % 2 = 0 / 4)
theorem Laws.Length.gdaybookArm (vi : Nat) : Statement (.gdaybookArm vi) := (by decide : 0 % 2 = 0 / 4)
theorem Laws.Length.partmap (vi mask : Nat) : Statement (.partmap vi mask) := (by decide : 0 % 2 = 0 / 4)
theorem Laws.Length.powerOn : Statement .powerOn := (by decide : 0 % 2 = 0 / 4)
theorem Laws.Length.domainReset (dom : Nat) : Statement (.domainReset dom) := (by decide : 0 % 2 = 0 / 4)
theorem Laws.Length.registerWrite (vi off size value : Nat) : Statement (.registerWrite vi off size value) := (by decide : 0 % 2 = 0 / 4)
theorem Laws.Length.holdLift (vi cmd : Nat) : Statement (.holdLift vi cmd) := (by decide : 0 % 2 = 0 / 4)
theorem Laws.Length.gridEnd (gid : Nat) : Statement (.gridEnd gid) := (by decide : 0 % 2 = 0 / 4)
theorem Laws.Length.ticketAbort (vi ticket : Nat) : Statement (.ticketAbort vi ticket) := (by decide : 0 % 2 = 0 / 4)
theorem Laws.Length.keepMarkClear (dom : Nat) : Statement (.keepMarkClear dom) := (by decide : 0 % 2 = 0 / 4)
theorem Laws.Length.virtualInterfaceReset (vi : Nat) : Statement (.virtualInterfaceReset vi) := (by decide : 0 % 2 = 0 / 4)
theorem Laws.Length.powerLoss : Statement .powerLoss := (by decide : 0 % 2 = 0 / 4)
theorem Laws.Length.hostCompletionTimeout (op lane : Nat) : Statement (.hostCompletionTimeout op lane) := (by decide : 0 % 2 = 0 / 4)
theorem Laws.Length.sealComplete (op : Nat) : Statement (.sealComplete op) := (by decide : 0 % 2 = 0 / 4)
theorem Laws.Length.linkTakeDown (link : Nat) : Statement (.linkTakeDown link) := (by decide : 0 % 2 = 0 / 4)

end Sys2Proof
end

