-- ==== Sys2Proof/Laws/Traps.lean ====
section
/-!
SUPPORT. What taking a trap, parking a weft and the conditions of an issue leave alone; and the memory operations
that keep main DRAM and host memory in canonical form.
-/
namespace Sys2Proof.Machine
open Sys2Proof

/-! ## What traps and parks change -/

/-- `v` holds what `u` holds in every field but those that a trap or a park may change: threads, wefts, operations, the
fault queues and the vectors sent. -/
def TrapsOnly (u v : State) : Prop :=
  { v with threads := [], wefts := [], ops := [], faults := [], pendq := [], vis := [] } =
    { u with threads := [], wefts := [], ops := [], faults := [], pendq := [], vis := [] }

theorem TrapsOnly.refl (u : State) : TrapsOnly u u := Eq.refl _
theorem TrapsOnly.trans {u v w : State} (h : TrapsOnly u v) (h' : TrapsOnly v w) : TrapsOnly u w := Eq.trans h' h

/-- Any other field is the same in both. -/
theorem TrapsOnly.field {u v : State} (h : TrapsOnly u v) {α : Sort*} (f : State → α)
    (hf : ∀ s : State, f { s with threads := [], wefts := [], ops := [], faults := [], pendq := [], vis := [] } = f s) :
    f v = f u := by
  rw [← hf v, ← hf u, h]

theorem postFault_trapsOnly (s : State) (vi : Nat) (f : FaultRef) : TrapsOnly s (postFault s vi f) := by
  unfold postFault; dsimp only; split <;> exact Eq.refl _

theorem parkWeft_trapsOnly (s : State) (b w : Nat) (e : FqEntry) (i : Bool) : TrapsOnly s (parkWeft s b w e i) := by
  unfold parkWeft
  dsimp only
  split
  · exact TrapsOnly.refl s
  · split
    · exact Eq.refl _
    · exact TrapsOnly.trans (Eq.refl _) (postFault_trapsOnly _ _ _)

/-- A weft that is parked already keeps its entry. -/
theorem parkWeft_parked {s : State} {b w : Nat} (h : (s.weft b w).park.isSome = true) (e : FqEntry) (i : Bool) :
    parkWeft s b w e i = s := by
  simp [parkWeft, h]

theorem restartStack_trapsOnly (s : State) (b w l : Nat) : TrapsOnly s (restartStack s b w l) := by
  unfold restartStack
  dsimp only
  split <;> [exact TrapsOnly.refl s; exact Eq.refl _]

theorem captureHeld_trapsOnly (s : State) (b w l : Nat) : TrapsOnly s (captureHeld s b w l).2 := Eq.refl _

theorem setThread_trapsOnly (s : State) (b w l : Nat) (t : Thread) : TrapsOnly s (s.setThread b w l t) := Eq.refl _

theorem enterTrap_trapsOnly (s : State) (b w l : Nat) (c : Cond) : TrapsOnly s (enterTrap s b w l c) := by
  unfold enterTrap
  exact ((restartStack_trapsOnly s b w l).trans (captureHeld_trapsOnly _ b w l)).trans (setThread_trapsOnly _ b w l _)

theorem deliverTrap_trapsOnly (s : State) (b w l : Nat) (c : Cond) (i d : Nat) : TrapsOnly s (deliverTrap s b w l c i d) := by
  unfold deliverTrap
  split
  · exact parkWeft_trapsOnly _ _ _ _ _
  · exact enterTrap_trapsOnly _ _ _ _ _

theorem trapAll_trapsOnly (s : State) (c : Cond) : TrapsOnly s (trapAll s c) :=
  foldl_rel TrapsOnly.refl TrapsOnly.trans _ (fun _ _ => deliverTrap_trapsOnly _ _ _ _ _ _ _) _ _

theorem systemFault_trapsOnly (s : State) (b w : Nat) (fs : List (Nat × Cond)) (d i n : Nat) (pc : DWord) (a : Bool) :
    TrapsOnly s (systemFault s b w fs d i n pc a) := by
  have h : ∀ ls : List (Nat × Cond),
      TrapsOnly s (ls.foldl (fun s e => enterTrap s b w e.1 { e.2 with sys := true }) s) := by
    intro ls
    apply foldl_rel TrapsOnly.refl TrapsOnly.trans
    intro u e
    apply enterTrap_trapsOnly
  unfold systemFault
  dsimp only
  split
  · exact h _
  · exact TrapsOnly.trans (h _) (parkWeft_trapsOnly _ _ _ _ _)

theorem raiseAll_trapsOnly (s : State) (c : Cond) : TrapsOnly s (raiseAll s c) := by
  unfold raiseAll
  split
  · exact systemFault_trapsOnly _ _ _ _ _ _ _ _ _
  · exact trapAll_trapsOnly _ _

theorem captureWeft_trapsOnly (s : State) (b w : Nat) : TrapsOnly s (captureWeft s b w) := by
  refine foldl_rel TrapsOnly.refl TrapsOnly.trans _ (fun u l => ?_) _ s
  have h : TrapsOnly u (if stackHeld u b w l then restartStack u b w l else u) := by
    split <;> [exact restartStack_trapsOnly u b w l; exact TrapsOnly.refl u]
  dsimp only
  generalize (if stackHeld u b w l then restartStack u b w l else u) = v at h ⊢
  have hc := h.trans (captureHeld_trapsOnly v b w l)
  split <;> [exact hc; exact hc.trans (setThread_trapsOnly _ b w l _)]

/-! ## The fields that they leave alone -/

@[simp] theorem enterTrap_blocks (s : State) (b w l : Nat) (c : Cond) : (enterTrap s b w l c).blocks = s.blocks :=
  (enterTrap_trapsOnly s b w l c).field State.blocks fun _ => rfl
@[simp] theorem enterTrap_grids (s : State) (b w l : Nat) (c : Cond) : (enterTrap s b w l c).grids = s.grids :=
  (enterTrap_trapsOnly s b w l c).field State.grids fun _ => rfl
@[simp] theorem enterTrap_cores (s : State) (b w l : Nat) (c : Cond) : (enterTrap s b w l c).cores = s.cores :=
  (enterTrap_trapsOnly s b w l c).field State.cores fun _ => rfl
@[simp] theorem enterTrap_domains (s : State) (b w l : Nat) (c : Cond) : (enterTrap s b w l c).domains = s.domains :=
  (enterTrap_trapsOnly s b w l c).field State.domains fun _ => rfl
@[simp] theorem enterTrap_mem (s : State) (b w l : Nat) (c : Cond) : (enterTrap s b w l c).mem = s.mem :=
  (enterTrap_trapsOnly s b w l c).field State.mem fun _ => rfl
@[simp] theorem enterTrap_bad (s : State) (b w l : Nat) (c : Cond) : (enterTrap s b w l c).bad = s.bad :=
  (enterTrap_trapsOnly s b w l c).field State.bad fun _ => rfl
@[simp] theorem enterTrap_hostMem (s : State) (b w l : Nat) (c : Cond) : (enterTrap s b w l c).hostMem = s.hostMem :=
  (enterTrap_trapsOnly s b w l c).field State.hostMem fun _ => rfl
@[simp] theorem enterTrap_peers (s : State) (b w l : Nat) (c : Cond) : (enterTrap s b w l c).peers = s.peers :=
  (enterTrap_trapsOnly s b w l c).field State.peers fun _ => rfl
@[simp] theorem enterTrap_nextOp (s : State) (b w l : Nat) (c : Cond) : (enterTrap s b w l c).nextOp = s.nextOp :=
  (enterTrap_trapsOnly s b w l c).field State.nextOp fun _ => rfl
@[simp] theorem enterTrap_queues (s : State) (b w l : Nat) (c : Cond) : (enterTrap s b w l c).queues = s.queues :=
  (enterTrap_trapsOnly s b w l c).field State.queues fun _ => rfl
@[simp] theorem enterTrap_cmds (s : State) (b w l : Nat) (c : Cond) : (enterTrap s b w l c).cmds = s.cmds :=
  (enterTrap_trapsOnly s b w l c).field State.cmds fun _ => rfl
@[simp] theorem enterTrap_packets (s : State) (b w l : Nat) (c : Cond) : (enterTrap s b w l c).packets = s.packets :=
  (enterTrap_trapsOnly s b w l c).field State.packets fun _ => rfl
@[simp] theorem enterTrap_iss (s : State) (b w l : Nat) (c : Cond) : (enterTrap s b w l c).iss = s.iss :=
  (enterTrap_trapsOnly s b w l c).field State.iss fun _ => rfl
@[simp] theorem enterTrap_agenda (s : State) (b w l : Nat) (c : Cond) : (enterTrap s b w l c).agenda = s.agenda :=
  (enterTrap_trapsOnly s b w l c).field State.agenda fun _ => rfl
@[simp] theorem enterTrap_popped (s : State) (b w l : Nat) (c : Cond) : (enterTrap s b w l c).popped = s.popped :=
  (enterTrap_trapsOnly s b w l c).field State.popped fun _ => rfl
@[simp] theorem enterTrap_free (s : State) (b w l : Nat) (c : Cond) : (enterTrap s b w l c).free = s.free :=
  (enterTrap_trapsOnly s b w l c).field State.free fun _ => rfl

@[simp] theorem parkWeft_blocks (s : State) (b w : Nat) (e : FqEntry) (i : Bool) : (parkWeft s b w e i).blocks = s.blocks :=
  (parkWeft_trapsOnly s b w e i).field State.blocks fun _ => rfl
@[simp] theorem parkWeft_grids (s : State) (b w : Nat) (e : FqEntry) (i : Bool) : (parkWeft s b w e i).grids = s.grids :=
  (parkWeft_trapsOnly s b w e i).field State.grids fun _ => rfl
@[simp] theorem parkWeft_cores (s : State) (b w : Nat) (e : FqEntry) (i : Bool) : (parkWeft s b w e i).cores = s.cores :=
  (parkWeft_trapsOnly s b w e i).field State.cores fun _ => rfl
@[simp] theorem parkWeft_domains (s : State) (b w : Nat) (e : FqEntry) (i : Bool) : (parkWeft s b w e i).domains = s.domains :=
  (parkWeft_trapsOnly s b w e i).field State.domains fun _ => rfl
@[simp] theorem parkWeft_mem (s : State) (b w : Nat) (e : FqEntry) (i : Bool) : (parkWeft s b w e i).mem = s.mem :=
  (parkWeft_trapsOnly s b w e i).field State.mem fun _ => rfl
@[simp] theorem parkWeft_bad (s : State) (b w : Nat) (e : FqEntry) (i : Bool) : (parkWeft s b w e i).bad = s.bad :=
  (parkWeft_trapsOnly s b w e i).field State.bad fun _ => rfl
@[simp] theorem parkWeft_hostMem (s : State) (b w : Nat) (e : FqEntry) (i : Bool) : (parkWeft s b w e i).hostMem = s.hostMem :=
  (parkWeft_trapsOnly s b w e i).field State.hostMem fun _ => rfl
@[simp] theorem parkWeft_peers (s : State) (b w : Nat) (e : FqEntry) (i : Bool) : (parkWeft s b w e i).peers = s.peers :=
  (parkWeft_trapsOnly s b w e i).field State.peers fun _ => rfl
@[simp] theorem parkWeft_nextOp (s : State) (b w : Nat) (e : FqEntry) (i : Bool) : (parkWeft s b w e i).nextOp = s.nextOp :=
  (parkWeft_trapsOnly s b w e i).field State.nextOp fun _ => rfl
@[simp] theorem parkWeft_queues (s : State) (b w : Nat) (e : FqEntry) (i : Bool) : (parkWeft s b w e i).queues = s.queues :=
  (parkWeft_trapsOnly s b w e i).field State.queues fun _ => rfl
@[simp] theorem parkWeft_cmds (s : State) (b w : Nat) (e : FqEntry) (i : Bool) : (parkWeft s b w e i).cmds = s.cmds :=
  (parkWeft_trapsOnly s b w e i).field State.cmds fun _ => rfl
@[simp] theorem parkWeft_packets (s : State) (b w : Nat) (e : FqEntry) (i : Bool) : (parkWeft s b w e i).packets = s.packets :=
  (parkWeft_trapsOnly s b w e i).field State.packets fun _ => rfl
@[simp] theorem parkWeft_iss (s : State) (b w : Nat) (e : FqEntry) (i : Bool) : (parkWeft s b w e i).iss = s.iss :=
  (parkWeft_trapsOnly s b w e i).field State.iss fun _ => rfl
@[simp] theorem parkWeft_agenda (s : State) (b w : Nat) (e : FqEntry) (i : Bool) : (parkWeft s b w e i).agenda = s.agenda :=
  (parkWeft_trapsOnly s b w e i).field State.agenda fun _ => rfl
@[simp] theorem parkWeft_popped (s : State) (b w : Nat) (e : FqEntry) (i : Bool) : (parkWeft s b w e i).popped = s.popped :=
  (parkWeft_trapsOnly s b w e i).field State.popped fun _ => rfl
@[simp] theorem parkWeft_free (s : State) (b w : Nat) (e : FqEntry) (i : Bool) : (parkWeft s b w e i).free = s.free :=
  (parkWeft_trapsOnly s b w e i).field State.free fun _ => rfl

@[simp] theorem deliverTrap_blocks (s : State) (b w l : Nat) (c : Cond) (i d : Nat) : (deliverTrap s b w l c i d).blocks = s.blocks :=
  (deliverTrap_trapsOnly s b w l c i d).field State.blocks fun _ => rfl
@[simp] theorem deliverTrap_grids (s : State) (b w l : Nat) (c : Cond) (i d : Nat) : (deliverTrap s b w l c i d).grids = s.grids :=
  (deliverTrap_trapsOnly s b w l c i d).field State.grids fun _ => rfl
@[simp] theorem deliverTrap_cores (s : State) (b w l : Nat) (c : Cond) (i d : Nat) : (deliverTrap s b w l c i d).cores = s.cores :=
  (deliverTrap_trapsOnly s b w l c i d).field State.cores fun _ => rfl
@[simp] theorem deliverTrap_domains (s : State) (b w l : Nat) (c : Cond) (i d : Nat) : (deliverTrap s b w l c i d).domains = s.domains :=
  (deliverTrap_trapsOnly s b w l c i d).field State.domains fun _ => rfl
@[simp] theorem deliverTrap_mem (s : State) (b w l : Nat) (c : Cond) (i d : Nat) : (deliverTrap s b w l c i d).mem = s.mem :=
  (deliverTrap_trapsOnly s b w l c i d).field State.mem fun _ => rfl
@[simp] theorem deliverTrap_bad (s : State) (b w l : Nat) (c : Cond) (i d : Nat) : (deliverTrap s b w l c i d).bad = s.bad :=
  (deliverTrap_trapsOnly s b w l c i d).field State.bad fun _ => rfl
@[simp] theorem deliverTrap_hostMem (s : State) (b w l : Nat) (c : Cond) (i d : Nat) : (deliverTrap s b w l c i d).hostMem = s.hostMem :=
  (deliverTrap_trapsOnly s b w l c i d).field State.hostMem fun _ => rfl
@[simp] theorem deliverTrap_peers (s : State) (b w l : Nat) (c : Cond) (i d : Nat) : (deliverTrap s b w l c i d).peers = s.peers :=
  (deliverTrap_trapsOnly s b w l c i d).field State.peers fun _ => rfl
@[simp] theorem deliverTrap_nextOp (s : State) (b w l : Nat) (c : Cond) (i d : Nat) : (deliverTrap s b w l c i d).nextOp = s.nextOp :=
  (deliverTrap_trapsOnly s b w l c i d).field State.nextOp fun _ => rfl
@[simp] theorem deliverTrap_queues (s : State) (b w l : Nat) (c : Cond) (i d : Nat) : (deliverTrap s b w l c i d).queues = s.queues :=
  (deliverTrap_trapsOnly s b w l c i d).field State.queues fun _ => rfl
@[simp] theorem deliverTrap_cmds (s : State) (b w l : Nat) (c : Cond) (i d : Nat) : (deliverTrap s b w l c i d).cmds = s.cmds :=
  (deliverTrap_trapsOnly s b w l c i d).field State.cmds fun _ => rfl
@[simp] theorem deliverTrap_packets (s : State) (b w l : Nat) (c : Cond) (i d : Nat) : (deliverTrap s b w l c i d).packets = s.packets :=
  (deliverTrap_trapsOnly s b w l c i d).field State.packets fun _ => rfl
@[simp] theorem deliverTrap_iss (s : State) (b w l : Nat) (c : Cond) (i d : Nat) : (deliverTrap s b w l c i d).iss = s.iss :=
  (deliverTrap_trapsOnly s b w l c i d).field State.iss fun _ => rfl
@[simp] theorem deliverTrap_agenda (s : State) (b w l : Nat) (c : Cond) (i d : Nat) : (deliverTrap s b w l c i d).agenda = s.agenda :=
  (deliverTrap_trapsOnly s b w l c i d).field State.agenda fun _ => rfl
@[simp] theorem deliverTrap_popped (s : State) (b w l : Nat) (c : Cond) (i d : Nat) : (deliverTrap s b w l c i d).popped = s.popped :=
  (deliverTrap_trapsOnly s b w l c i d).field State.popped fun _ => rfl
@[simp] theorem deliverTrap_free (s : State) (b w l : Nat) (c : Cond) (i d : Nat) : (deliverTrap s b w l c i d).free = s.free :=
  (deliverTrap_trapsOnly s b w l c i d).field State.free fun _ => rfl

@[simp] theorem trapAll_blocks (s : State) (c : Cond) : (trapAll s c).blocks = s.blocks :=
  (trapAll_trapsOnly s c).field State.blocks fun _ => rfl
@[simp] theorem trapAll_grids (s : State) (c : Cond) : (trapAll s c).grids = s.grids :=
  (trapAll_trapsOnly s c).field State.grids fun _ => rfl
@[simp] theorem trapAll_cores (s : State) (c : Cond) : (trapAll s c).cores = s.cores :=
  (trapAll_trapsOnly s c).field State.cores fun _ => rfl
@[simp] theorem trapAll_domains (s : State) (c : Cond) : (trapAll s c).domains = s.domains :=
  (trapAll_trapsOnly s c).field State.domains fun _ => rfl
@[simp] theorem trapAll_mem (s : State) (c : Cond) : (trapAll s c).mem = s.mem :=
  (trapAll_trapsOnly s c).field State.mem fun _ => rfl
@[simp] theorem trapAll_bad (s : State) (c : Cond) : (trapAll s c).bad = s.bad :=
  (trapAll_trapsOnly s c).field State.bad fun _ => rfl
@[simp] theorem trapAll_hostMem (s : State) (c : Cond) : (trapAll s c).hostMem = s.hostMem :=
  (trapAll_trapsOnly s c).field State.hostMem fun _ => rfl
@[simp] theorem trapAll_peers (s : State) (c : Cond) : (trapAll s c).peers = s.peers :=
  (trapAll_trapsOnly s c).field State.peers fun _ => rfl
@[simp] theorem trapAll_nextOp (s : State) (c : Cond) : (trapAll s c).nextOp = s.nextOp :=
  (trapAll_trapsOnly s c).field State.nextOp fun _ => rfl
@[simp] theorem trapAll_queues (s : State) (c : Cond) : (trapAll s c).queues = s.queues :=
  (trapAll_trapsOnly s c).field State.queues fun _ => rfl
@[simp] theorem trapAll_cmds (s : State) (c : Cond) : (trapAll s c).cmds = s.cmds :=
  (trapAll_trapsOnly s c).field State.cmds fun _ => rfl
@[simp] theorem trapAll_packets (s : State) (c : Cond) : (trapAll s c).packets = s.packets :=
  (trapAll_trapsOnly s c).field State.packets fun _ => rfl
@[simp] theorem trapAll_iss (s : State) (c : Cond) : (trapAll s c).iss = s.iss :=
  (trapAll_trapsOnly s c).field State.iss fun _ => rfl
@[simp] theorem trapAll_agenda (s : State) (c : Cond) : (trapAll s c).agenda = s.agenda :=
  (trapAll_trapsOnly s c).field State.agenda fun _ => rfl
@[simp] theorem trapAll_popped (s : State) (c : Cond) : (trapAll s c).popped = s.popped :=
  (trapAll_trapsOnly s c).field State.popped fun _ => rfl
@[simp] theorem trapAll_free (s : State) (c : Cond) : (trapAll s c).free = s.free :=
  (trapAll_trapsOnly s c).field State.free fun _ => rfl

@[simp] theorem systemFault_blocks (s : State) (b w : Nat) (fs : List (Nat × Cond)) (d i n : Nat) (pc : DWord) (a : Bool) : (systemFault s b w fs d i n pc a).blocks = s.blocks :=
  (systemFault_trapsOnly s b w fs d i n pc a).field State.blocks fun _ => rfl
@[simp] theorem systemFault_grids (s : State) (b w : Nat) (fs : List (Nat × Cond)) (d i n : Nat) (pc : DWord) (a : Bool) : (systemFault s b w fs d i n pc a).grids = s.grids :=
  (systemFault_trapsOnly s b w fs d i n pc a).field State.grids fun _ => rfl
@[simp] theorem systemFault_cores (s : State) (b w : Nat) (fs : List (Nat × Cond)) (d i n : Nat) (pc : DWord) (a : Bool) : (systemFault s b w fs d i n pc a).cores = s.cores :=
  (systemFault_trapsOnly s b w fs d i n pc a).field State.cores fun _ => rfl
@[simp] theorem systemFault_domains (s : State) (b w : Nat) (fs : List (Nat × Cond)) (d i n : Nat) (pc : DWord) (a : Bool) : (systemFault s b w fs d i n pc a).domains = s.domains :=
  (systemFault_trapsOnly s b w fs d i n pc a).field State.domains fun _ => rfl
@[simp] theorem systemFault_mem (s : State) (b w : Nat) (fs : List (Nat × Cond)) (d i n : Nat) (pc : DWord) (a : Bool) : (systemFault s b w fs d i n pc a).mem = s.mem :=
  (systemFault_trapsOnly s b w fs d i n pc a).field State.mem fun _ => rfl
@[simp] theorem systemFault_bad (s : State) (b w : Nat) (fs : List (Nat × Cond)) (d i n : Nat) (pc : DWord) (a : Bool) : (systemFault s b w fs d i n pc a).bad = s.bad :=
  (systemFault_trapsOnly s b w fs d i n pc a).field State.bad fun _ => rfl
@[simp] theorem systemFault_hostMem (s : State) (b w : Nat) (fs : List (Nat × Cond)) (d i n : Nat) (pc : DWord) (a : Bool) : (systemFault s b w fs d i n pc a).hostMem = s.hostMem :=
  (systemFault_trapsOnly s b w fs d i n pc a).field State.hostMem fun _ => rfl
@[simp] theorem systemFault_peers (s : State) (b w : Nat) (fs : List (Nat × Cond)) (d i n : Nat) (pc : DWord) (a : Bool) : (systemFault s b w fs d i n pc a).peers = s.peers :=
  (systemFault_trapsOnly s b w fs d i n pc a).field State.peers fun _ => rfl
@[simp] theorem systemFault_nextOp (s : State) (b w : Nat) (fs : List (Nat × Cond)) (d i n : Nat) (pc : DWord) (a : Bool) : (systemFault s b w fs d i n pc a).nextOp = s.nextOp :=
  (systemFault_trapsOnly s b w fs d i n pc a).field State.nextOp fun _ => rfl
@[simp] theorem systemFault_queues (s : State) (b w : Nat) (fs : List (Nat × Cond)) (d i n : Nat) (pc : DWord) (a : Bool) : (systemFault s b w fs d i n pc a).queues = s.queues :=
  (systemFault_trapsOnly s b w fs d i n pc a).field State.queues fun _ => rfl
@[simp] theorem systemFault_cmds (s : State) (b w : Nat) (fs : List (Nat × Cond)) (d i n : Nat) (pc : DWord) (a : Bool) : (systemFault s b w fs d i n pc a).cmds = s.cmds :=
  (systemFault_trapsOnly s b w fs d i n pc a).field State.cmds fun _ => rfl
@[simp] theorem systemFault_packets (s : State) (b w : Nat) (fs : List (Nat × Cond)) (d i n : Nat) (pc : DWord) (a : Bool) : (systemFault s b w fs d i n pc a).packets = s.packets :=
  (systemFault_trapsOnly s b w fs d i n pc a).field State.packets fun _ => rfl
@[simp] theorem systemFault_iss (s : State) (b w : Nat) (fs : List (Nat × Cond)) (d i n : Nat) (pc : DWord) (a : Bool) : (systemFault s b w fs d i n pc a).iss = s.iss :=
  (systemFault_trapsOnly s b w fs d i n pc a).field State.iss fun _ => rfl
@[simp] theorem systemFault_agenda (s : State) (b w : Nat) (fs : List (Nat × Cond)) (d i n : Nat) (pc : DWord) (a : Bool) : (systemFault s b w fs d i n pc a).agenda = s.agenda :=
  (systemFault_trapsOnly s b w fs d i n pc a).field State.agenda fun _ => rfl
@[simp] theorem systemFault_popped (s : State) (b w : Nat) (fs : List (Nat × Cond)) (d i n : Nat) (pc : DWord) (a : Bool) : (systemFault s b w fs d i n pc a).popped = s.popped :=
  (systemFault_trapsOnly s b w fs d i n pc a).field State.popped fun _ => rfl
@[simp] theorem systemFault_free (s : State) (b w : Nat) (fs : List (Nat × Cond)) (d i n : Nat) (pc : DWord) (a : Bool) : (systemFault s b w fs d i n pc a).free = s.free :=
  (systemFault_trapsOnly s b w fs d i n pc a).field State.free fun _ => rfl

@[simp] theorem raiseAll_blocks (s : State) (c : Cond) : (raiseAll s c).blocks = s.blocks :=
  (raiseAll_trapsOnly s c).field State.blocks fun _ => rfl
@[simp] theorem raiseAll_grids (s : State) (c : Cond) : (raiseAll s c).grids = s.grids :=
  (raiseAll_trapsOnly s c).field State.grids fun _ => rfl
@[simp] theorem raiseAll_cores (s : State) (c : Cond) : (raiseAll s c).cores = s.cores :=
  (raiseAll_trapsOnly s c).field State.cores fun _ => rfl
@[simp] theorem raiseAll_domains (s : State) (c : Cond) : (raiseAll s c).domains = s.domains :=
  (raiseAll_trapsOnly s c).field State.domains fun _ => rfl
@[simp] theorem raiseAll_mem (s : State) (c : Cond) : (raiseAll s c).mem = s.mem :=
  (raiseAll_trapsOnly s c).field State.mem fun _ => rfl
@[simp] theorem raiseAll_bad (s : State) (c : Cond) : (raiseAll s c).bad = s.bad :=
  (raiseAll_trapsOnly s c).field State.bad fun _ => rfl
@[simp] theorem raiseAll_hostMem (s : State) (c : Cond) : (raiseAll s c).hostMem = s.hostMem :=
  (raiseAll_trapsOnly s c).field State.hostMem fun _ => rfl
@[simp] theorem raiseAll_peers (s : State) (c : Cond) : (raiseAll s c).peers = s.peers :=
  (raiseAll_trapsOnly s c).field State.peers fun _ => rfl
@[simp] theorem raiseAll_nextOp (s : State) (c : Cond) : (raiseAll s c).nextOp = s.nextOp :=
  (raiseAll_trapsOnly s c).field State.nextOp fun _ => rfl
@[simp] theorem raiseAll_queues (s : State) (c : Cond) : (raiseAll s c).queues = s.queues :=
  (raiseAll_trapsOnly s c).field State.queues fun _ => rfl
@[simp] theorem raiseAll_cmds (s : State) (c : Cond) : (raiseAll s c).cmds = s.cmds :=
  (raiseAll_trapsOnly s c).field State.cmds fun _ => rfl
@[simp] theorem raiseAll_packets (s : State) (c : Cond) : (raiseAll s c).packets = s.packets :=
  (raiseAll_trapsOnly s c).field State.packets fun _ => rfl
@[simp] theorem raiseAll_iss (s : State) (c : Cond) : (raiseAll s c).iss = s.iss :=
  (raiseAll_trapsOnly s c).field State.iss fun _ => rfl
@[simp] theorem raiseAll_agenda (s : State) (c : Cond) : (raiseAll s c).agenda = s.agenda :=
  (raiseAll_trapsOnly s c).field State.agenda fun _ => rfl
@[simp] theorem raiseAll_popped (s : State) (c : Cond) : (raiseAll s c).popped = s.popped :=
  (raiseAll_trapsOnly s c).field State.popped fun _ => rfl
@[simp] theorem raiseAll_free (s : State) (c : Cond) : (raiseAll s c).free = s.free :=
  (raiseAll_trapsOnly s c).field State.free fun _ => rfl

@[simp] theorem captureWeft_blocks (s : State) (b w : Nat) : (captureWeft s b w).blocks = s.blocks :=
  (captureWeft_trapsOnly s b w).field State.blocks fun _ => rfl
@[simp] theorem captureWeft_grids (s : State) (b w : Nat) : (captureWeft s b w).grids = s.grids :=
  (captureWeft_trapsOnly s b w).field State.grids fun _ => rfl
@[simp] theorem captureWeft_cores (s : State) (b w : Nat) : (captureWeft s b w).cores = s.cores :=
  (captureWeft_trapsOnly s b w).field State.cores fun _ => rfl
@[simp] theorem captureWeft_domains (s : State) (b w : Nat) : (captureWeft s b w).domains = s.domains :=
  (captureWeft_trapsOnly s b w).field State.domains fun _ => rfl
@[simp] theorem captureWeft_mem (s : State) (b w : Nat) : (captureWeft s b w).mem = s.mem :=
  (captureWeft_trapsOnly s b w).field State.mem fun _ => rfl
@[simp] theorem captureWeft_bad (s : State) (b w : Nat) : (captureWeft s b w).bad = s.bad :=
  (captureWeft_trapsOnly s b w).field State.bad fun _ => rfl
@[simp] theorem captureWeft_hostMem (s : State) (b w : Nat) : (captureWeft s b w).hostMem = s.hostMem :=
  (captureWeft_trapsOnly s b w).field State.hostMem fun _ => rfl
@[simp] theorem captureWeft_peers (s : State) (b w : Nat) : (captureWeft s b w).peers = s.peers :=
  (captureWeft_trapsOnly s b w).field State.peers fun _ => rfl
@[simp] theorem captureWeft_nextOp (s : State) (b w : Nat) : (captureWeft s b w).nextOp = s.nextOp :=
  (captureWeft_trapsOnly s b w).field State.nextOp fun _ => rfl
@[simp] theorem captureWeft_queues (s : State) (b w : Nat) : (captureWeft s b w).queues = s.queues :=
  (captureWeft_trapsOnly s b w).field State.queues fun _ => rfl
@[simp] theorem captureWeft_cmds (s : State) (b w : Nat) : (captureWeft s b w).cmds = s.cmds :=
  (captureWeft_trapsOnly s b w).field State.cmds fun _ => rfl
@[simp] theorem captureWeft_packets (s : State) (b w : Nat) : (captureWeft s b w).packets = s.packets :=
  (captureWeft_trapsOnly s b w).field State.packets fun _ => rfl
@[simp] theorem captureWeft_iss (s : State) (b w : Nat) : (captureWeft s b w).iss = s.iss :=
  (captureWeft_trapsOnly s b w).field State.iss fun _ => rfl
@[simp] theorem captureWeft_agenda (s : State) (b w : Nat) : (captureWeft s b w).agenda = s.agenda :=
  (captureWeft_trapsOnly s b w).field State.agenda fun _ => rfl
@[simp] theorem captureWeft_popped (s : State) (b w : Nat) : (captureWeft s b w).popped = s.popped :=
  (captureWeft_trapsOnly s b w).field State.popped fun _ => rfl
@[simp] theorem captureWeft_free (s : State) (b w : Nat) : (captureWeft s b w).free = s.free :=
  (captureWeft_trapsOnly s b w).field State.free fun _ => rfl

@[simp] theorem postFault_blocks (s : State) (vi : Nat) (f : FaultRef) : (postFault s vi f).blocks = s.blocks :=
  (postFault_trapsOnly s vi f).field State.blocks fun _ => rfl
@[simp] theorem postFault_grids (s : State) (vi : Nat) (f : FaultRef) : (postFault s vi f).grids = s.grids :=
  (postFault_trapsOnly s vi f).field State.grids fun _ => rfl
@[simp] theorem postFault_cores (s : State) (vi : Nat) (f : FaultRef) : (postFault s vi f).cores = s.cores :=
  (postFault_trapsOnly s vi f).field State.cores fun _ => rfl
@[simp] theorem postFault_domains (s : State) (vi : Nat) (f : FaultRef) : (postFault s vi f).domains = s.domains :=
  (postFault_trapsOnly s vi f).field State.domains fun _ => rfl
@[simp] theorem postFault_mem (s : State) (vi : Nat) (f : FaultRef) : (postFault s vi f).mem = s.mem :=
  (postFault_trapsOnly s vi f).field State.mem fun _ => rfl
@[simp] theorem postFault_bad (s : State) (vi : Nat) (f : FaultRef) : (postFault s vi f).bad = s.bad :=
  (postFault_trapsOnly s vi f).field State.bad fun _ => rfl
@[simp] theorem postFault_hostMem (s : State) (vi : Nat) (f : FaultRef) : (postFault s vi f).hostMem = s.hostMem :=
  (postFault_trapsOnly s vi f).field State.hostMem fun _ => rfl
@[simp] theorem postFault_peers (s : State) (vi : Nat) (f : FaultRef) : (postFault s vi f).peers = s.peers :=
  (postFault_trapsOnly s vi f).field State.peers fun _ => rfl
@[simp] theorem postFault_nextOp (s : State) (vi : Nat) (f : FaultRef) : (postFault s vi f).nextOp = s.nextOp :=
  (postFault_trapsOnly s vi f).field State.nextOp fun _ => rfl
@[simp] theorem postFault_queues (s : State) (vi : Nat) (f : FaultRef) : (postFault s vi f).queues = s.queues :=
  (postFault_trapsOnly s vi f).field State.queues fun _ => rfl
@[simp] theorem postFault_cmds (s : State) (vi : Nat) (f : FaultRef) : (postFault s vi f).cmds = s.cmds :=
  (postFault_trapsOnly s vi f).field State.cmds fun _ => rfl
@[simp] theorem postFault_packets (s : State) (vi : Nat) (f : FaultRef) : (postFault s vi f).packets = s.packets :=
  (postFault_trapsOnly s vi f).field State.packets fun _ => rfl
@[simp] theorem postFault_iss (s : State) (vi : Nat) (f : FaultRef) : (postFault s vi f).iss = s.iss :=
  (postFault_trapsOnly s vi f).field State.iss fun _ => rfl
@[simp] theorem postFault_agenda (s : State) (vi : Nat) (f : FaultRef) : (postFault s vi f).agenda = s.agenda :=
  (postFault_trapsOnly s vi f).field State.agenda fun _ => rfl
@[simp] theorem postFault_popped (s : State) (vi : Nat) (f : FaultRef) : (postFault s vi f).popped = s.popped :=
  (postFault_trapsOnly s vi f).field State.popped fun _ => rfl
@[simp] theorem postFault_free (s : State) (vi : Nat) (f : FaultRef) : (postFault s vi f).free = s.free :=
  (postFault_trapsOnly s vi f).field State.free fun _ => rfl

/-! ## The canonical form of memory -/

/-- The invariant, field by field. -/
theorem State.inv_iff (s : State) : s.inv = true ↔ s.mem.wf = true ∧ s.hostMem.wf = true := by
  simp [State.inv]

/-- A step that leaves both memories alone keeps the invariant. -/
theorem State.inv_of_mem {s t : State} (hm : t.mem = s.mem) (hh : t.hostMem = s.hostMem) (h : s.inv = true) : t.inv = true := by
  simpa [State.inv, hm, hh] using h

theorem copyMask_wf {m : Memory} (base : Nat) (src : Memory) (mask : Nat) (h : m.wf = true) : (copyMask m base src mask).wf = true := by
  unfold copyMask
  generalize List.range 256 = ls
  induction ls generalizing m with
  | nil => exact h
  | cons i ls ih =>
    simp only [List.foldl_cons]
    split
    · exact ih (Memory.wf_setByte _ _ h)
    · exact ih h

/-- The write of bytes at their home keeps main DRAM in canonical form. -/
theorem homeBytes_inv {s : State} (line : Nat) (data : Memory) (mask : Nat) (bad : Sp Nat) (h : s.inv = true) :
    (homeBytes s line data mask bad).inv = true := by
  rw [State.inv_iff] at h ⊢
  have one := copyMask_wf (placeOf s (line * 256)) data mask h.1
  unfold homeBytes
  dsimp only
  generalize placeOf s (line * 256) = pa at one ⊢
  cases movedTo s (line * 256) true with
  | none => simp only; exact ⟨one, h.2⟩
  | some x =>
    simp only
    split <;> simp only
    · exact ⟨one, h.2⟩
    · exact ⟨copyMask_wf _ _ _ one, h.2⟩

/-- What a write does to the directory leaves the memories alone (R441). -/
theorem dirWrite_mem (s : State) (line src : Nat) (a : Bool) :
    (dirWrite s line src a).mem = s.mem ∧ (dirWrite s line src a).hostMem = s.hostMem := by
  have drop : ∀ (u : State) (l : Nat), (dirDrop u l).mem = u.mem ∧ (dirDrop u l).hostMem = u.hostMem :=
    fun u l => by simp [dirDrop]
  have inval : ∀ (u : State) (l : Nat) (ts : List Nat) (x : Nat),
      (sendInval u l ts x).mem = u.mem ∧ (sendInval u l ts x).hostMem = u.hostMem := by
    intro u l ts x; simp [sendInval]
  have snoop : ∀ (u : State) (e : DirEnt) (x : Nat),
      (snoopHost u e x).mem = u.mem ∧ (snoopHost u e x).hostMem = u.hostMem := by
    intro u e x; unfold snoopHost; dsimp only; split <;> simp
  have send : ∀ (u : State) (l x : Nat), (dirSend u l x).mem = u.mem ∧ (dirSend u l x).hostMem = u.hostMem := by
    intro u l x; unfold dirSend; split
    · exact ⟨rfl, rfl⟩
    · simp only [snoop, inval, and_self]
  have room : ∀ (u : State) (l : Nat), (dirRoom u l).mem = u.mem ∧ (dirRoom u l).hostMem = u.hostMem := by
    intro u l; unfold dirRoom; dsimp only; split
    · exact ⟨rfl, rfl⟩
    · split <;> [exact ⟨rfl, rfl⟩; simp only [drop, snoop, inval, and_self]]
  have update : ∀ (u : State) (l : Nat) (f : DirEnt → DirEnt),
      (dirUpdate u l f).mem = u.mem ∧ (dirUpdate u l f).hostMem = u.hostMem := by
    intro u l f
    simp only [dirUpdate, State.setDomain_mem, State.setDomain_hostMem]
    cases (u.dirEnt l).isSome <;> simp [room]
  have keep : ∀ u : State, (dirKeep u line src a).mem = u.mem ∧ (dirKeep u line src a).hostMem = u.hostMem := by
    intro u
    have either : ∀ (p : Bool) (x y : State), (x.mem = u.mem ∧ x.hostMem = u.hostMem) →
        (y.mem = u.mem ∧ y.hostMem = u.hostMem) →
        (if p then x else y).mem = u.mem ∧ (if p then x else y).hostMem = u.hostMem := by
      intro p x y hx hy; cases p <;> [exact hy; exact hx]
    exact either _ _ _ (update u line _) (drop u line)
  unfold dirWrite
  dsimp only
  split <;> simp only [drop, send, keep, and_self]

/-- The write of an area of the context region keeps main DRAM in canonical form. -/
theorem putArea_inv {s t : State} {base len : Nat} {m : Memory} {bad : List (Nat × Nat)}
    (ht : putArea s base len m bad = .ok t) (h : s.inv = true) : t.inv = true := by
  unfold putArea at ht
  split at ht
  · cases ht
  · cases ht
    generalize areaLines base len = ls
    have hd : (ls.foldl (fun s l => if (s.dirEnt l).isSome then dirWrite s l 64 false else s) s).inv = true :=
      foldl_rel (R := fun (u v : State) => u.inv = true → v.inv = true) (fun _ => id)
        (fun {_ _ _} f g h => g (f h)) _
        (fun u l hu => by
          split <;> [exact State.inv_of_mem (dirWrite_mem u l 64 false).1 (dirWrite_mem u l 64 false).2 hu; exact hu])
        ls s h
    rw [State.inv_iff] at hd ⊢
    exact ⟨Memory.wf_writeBytes _ _ hd.1, hd.2⟩

/-- An access beyond the host port keeps host memory in canonical form. -/
theorem hostAccess_inv {s : State} (o : MemOp) (a : LaneAcc) (p : HostPlace) (h : s.inv = true) :
    (hostAccess s o a p).1.inv = true := by
  rw [State.inv_iff] at h ⊢
  cases p with
  | host x => simp only [hostAccess]; split <;> [exact ⟨h.1, Memory.wf_write _ _ _ h.2⟩; exact h]
  | peer q x => simp only [hostAccess]; split <;> exact h
  | error x => exact h

/-- The copy of a migrating page keeps main DRAM in canonical form. -/
theorem copyFrame_inv {s : State} (old new size : Nat) (h : s.inv = true) : (copyFrame s old new size).inv = true := by
  rw [State.inv_iff] at h ⊢
  exact ⟨Memory.wf_foldl_setByte _ _ _ (Memory.wf_filter _ h.1), h.2⟩

end Sys2Proof.Machine
end

