-- ==== Sys2Proof/Tests/Slice0.lean ====
section
/-!
SUPPORT. The model's own tests: an ill-formed term for each check of WellFormed; the decoding of words that
the spec writes out; single steps whose results the spec works out; and for each statement with hypotheses a state
and operands that meet them.
-/
namespace Sys2Proof.Tests
open Sys2Proof Sys2Proof.Machine
-- One theorem after another: the waiting ones would hold the memory of their stacks.
set_option Elab.async false

/-! ## States for the tests -/

/-- One GENERAL role that may name every register, eight threads in a weft of width 8, two barriers and 1 KiB of
scratchpad; code at 0x10000 and a handler at 0x20000. -/
def kernel : Launch :=
  { code := 0x10000, handler := 0x20000, ntid := (8, 1, 1), nbar := 2, spm := 1024, roles := [{ regs := 128 }] }

/-- A thread at the first word, whose registers read as `v` lists them. -/
def lane (v : Sp Word) : Thread := { tst := .run, pc := 0x10000, v := v }

/-- A block of `k` on core 0 whose lanes 0 and 1 stand at issue, each with the registers `v`; the weft has the
uniform registers `ks`. -/
def atIssue (k : Launch) (v ks : Sp Word) : State :=
  { grids := [(0, { stages := [k], vi := 64 })]
    blocks := [(0, { bst := .resident })]
    wefts := [(0, { wst := .active, k := ks })]
    threads := [(0, lane v), (1, lane v)]
    domains := [(0, { st := 1 })]
    nextGid := 1
    nextBlk := 1
    iss := { lanes := [0, 1], pc := 0x10000 } }

def base : State := atIssue kernel [] []

/-- The state with the threads at issue in handler mode. -/
def inHandler (s : State) : State :=
  { s with
    threads := s.threads.map fun e => (e.1, { e.2 with tst := .trap, tpc := 0x10004 })
    iss := { s.iss with handler := true } }

/-- The next state of an outcome. -/
def after : Host.Outcome State Fault Refusal → State
  | .next s => s
  | .fault _ => {}
  | .refused _ => {}

/-- The state after the word is decoded and executed by the issue set. -/
noncomputable def run (w : Nat) (s : State) : State :=
  match decodeWord w with
  | .ok i => after (exec i { s with iss := { s.iss with len := i.len, word := w } })
  | .error _ => {}

/-- Whether a look-up answers. -/
def answers {ε α : Type} : Except ε α → Bool
  | .ok _ => true
  | .error _ => false

theorem exists_of_answers {ε α : Type} {x : Except ε α} (h : answers x = true) : ∃ a, x = .ok a := by
  cases x with
  | ok a => exact ⟨a, rfl⟩
  | error e => exact nomatch h

theorem exists_of_answers_pair {ε α β : Type} {x : Except ε α × β} (h : answers x.1 = true) :
    ∃ a b, x = (.ok a, b) := by
  obtain ⟨r, b⟩ := x
  obtain ⟨a, rfl⟩ := exists_of_answers h
  exact ⟨a, b, rfl⟩

/-! ## Well-formedness: an ill-formed term for each check (R14, R47, R63) -/

theorem test_odd_pair_is_refused :
    (Instr.iadd64 3 4 (.v 6)).breach = some .oddPair ∧ (Instr.kadd64 4 6 9).breach = some .oddPair ∧
      (Instr.iadd64 126 0 (.v 6)).breach = none := by decide
theorem test_misplaced_quad_is_refused :
    (Instr.lds128 2 4 0).breach = some .quadAlign ∧ (Instr.lds128 124 4 0).breach = none := by decide
theorem test_zero_count_is_refused : (Instr.binit 1 0).breach = some .zeroCount ∧ (Instr.binit 1 1).breach = none := by
  decide
theorem test_coordinate_base_is_refused :
    (Instr.cptl 8 4 60 2).breach = some .coordBase ∧ (Instr.cptl 8 4 59 2).breach = none := by decide
theorem test_special_id_is_refused :
    (Instr.movsr 1 20).breach = some .specialId ∧ (Instr.movsr 1 19).breach = none := by decide

/-! ## Decoding: the words that the spec writes out -/

/-- Chapter 2, worked example: SHORT words. -/
theorem test_decode_short :
    decodeWord 0x2882 = .ok (.shortIadd 4 5) ∧ decodeWord 0x389E = .ok (.shortIaddi 4 7) := by decide
/-- Chapter 5, worked example; R448's chapter. -/
theorem test_decode_alu_a :
    decodeWord 0x0A1052A1 = .ok (.bfx 10 4 (.v 5)) ∧ decodeWord 0x183883A1 = .ok (.shra64 16 14 (.v 12)) ∧
      decodeWord 0x080818A1 = .ok (.imad 3 2 (.v 4)) ∧ decodeWord 0x182C6CC1 = .ok (.fmul 13 11 (.v 12)) := by decide
/-- Chapters 5, 6 and 9, worked examples. -/
theorem test_decode_alu_b :
    decodeWord 0x00185AC3 = .ok (.popc 11 6) ∧ decodeWord 0x16109483 = .ok (.idiv 18 4 (.v 11)) ∧
      decodeWord 0x0E041D53 = .ok (.shfldn 3 1 (.k 7)) ∧ decodeWord 0x0200A683 = .ok (.movx 20 1) ∧
      decodeWord 0x022406C3 = .ok (.setx 1 9) := by decide
/-- Chapter 2, worked example; R173. -/
theorem test_decode_immediates :
    decodeWord 0x32040805 = .ok (.iaddi 4 4 100) ∧ decodeWord 0x100204B5 = .ok (.iadd64i 2 2 32) ∧
      decodeWord 0x3FC0031F = .ok (.movhi 6 0xFF00) ∧ decodeWord 0x0000030F = .ok (.movi 6 0) := by decide
/-- Chapters 2 and 7, worked examples: backward offsets. -/
theorem test_decode_control :
    decodeWord 0xFFFFF009 = .ok (.bra (BitVec.ofInt 24 (-16))) ∧ decodeWord 0xFFF90419 = .ok (.bnz 4 (BitVec.ofInt 17 (-14))) ∧
      decodeWord 0xFFFFFC39 = .ok (.call (BitVec.ofInt 24 (-4))) ∧ decodeWord 0x00000649 = .ok (.callr 6) := by decide
/-- Chapters 9, 16 and 17. -/
theorem test_decode_uniform :
    decodeWord 0x00A2060B = .ok (.kadd 3 4 5) ∧ decodeWord 0xFFE4149B = .ok (.kaddi 10 8 (BitVec.ofInt 11 (-1))) ∧
      decodeWord 0x00040F3B = .ok (.kli 7 8) := by decide
/-- Chapters 7, 9, 13. -/
theorem test_decode_memory :
    decodeWord 0x00084227 = .ok (.ldg32 8 2 .rlx .blk .normal) ∧
      decodeWord 0x0A087CA7 = .ok (.stg32 15 2 .sync .dom .normal) ∧
      decodeWord 0x080866A7 = .ok (.atg32 12 2 .add .rlx .dom) ∧ decodeWord 0x02041847 = .ok (.ldcb32 6 2 2) ∧
      decodeWord 0x15042597 = .ok (.stn32 9 2 1 .sync 1) ∧ decodeWord 0x02283137 = .ok (.ldp128 12 20 2) ∧
      decodeWord 0x021820D7 = .ok (.ldh64 4 6 .sync) ∧ decodeWord 0x042801B7 = .ok (.pfp 20 4) := by decide
/-- Chapters 13, 15, 16, 17, 18, 21, 24. -/
theorem test_decode_system :
    decodeWord 0x2328308D = .ok (.cpgs 12 20 3 .b16) ∧ decodeWord 0x228810AD = .ok (.cptl 4 8 10 2) ∧
      decodeWord 0x100610CD = .ok (.cppw 4 6 1) ∧ decodeWord 0x1248113D = .ok (.qblk 4 8 9 1) ∧
      decodeWord 0x0008018D = .ok (.rresv 8 0) ∧ decodeWord 0x000A261D = .ok (.pstatus 9 10) ∧
      decodeWord 0x0046127D = .ok (.cwb 4 6 .dom) ∧ decodeWord 0x24081B1D = .ok (.wred 6 4 .sum .f32 2) ∧
      decodeWord 0x000442FD = .ok (.csrw 2 16) ∧ decodeWord 0x00023AED = .ok (.csrr 14 1) ∧
      decodeWord 0x000016BD = .ok (.trap 5) := by decide

/-! ## One step each: the results that the spec works out -/

/-- The registers of lane 0. -/
def reg0 (s : State) (n : Nat) : Word := (s.thread 0 0 0).reg n

/-- Chapter 5, first worked example. -/
def fields : Sp Word := [(4, 0xDEADBEEF), (5, 0x00010804), (6, 0x12345678), (7, 0x00000810), (10, 0xFFFFFFEE),
  (11, 0x10), (12, 27), (14, 0x57C89332), (15, 2)]
theorem test_bfx : reg0 (run 0x0A1052A1 (atIssue kernel fields [])) 10 = 0xFFFFFFEE := by decide
theorem test_bfi : reg0 (run 0x0E2832C1 (atIssue kernel fields [])) 6 = 0x12EE5678 := by decide
theorem test_clz : reg0 (run 0x002C62E3 (atIssue kernel fields [])) 12 = 0x1B := by decide
theorem test_imulw :
    (reg0 (run 0x08287321 (atIssue kernel fields [])) 15, reg0 (run 0x08287321 (atIssue kernel fields [])) 14) =
      (2, 0x57C89332) := by decide
theorem test_shra64 : reg0 (run 0x183883A1 (atIssue kernel fields [])) 16 = 0x4A := by decide
theorem test_idiv : reg0 (run 0x16109483 (atIssue kernel fields [])) 18 = 0xFDEADBEF := by decide
theorem test_irem : reg0 (after (exec (.irem 19 4 (.v 11)) (atIssue kernel fields []))) 19 = 0xFFFFFFFF := by decide

/-- Chapter 6, the single rounding of FFMA. -/
def halfway : Sp Word := [(10, 0xBF801000), (11, 0x3F800800), (12, 0x3F800800), (14, 0xBF801000)]
theorem test_fmul :
    let s := run 0x182C6CC1 (atIssue kernel halfway [])
    (reg0 s 13, (s.thread 0 0 0).fcsr) = (0x3F801000, 8) := by decide
theorem test_ffma :
    let s := run 0x182C54E1 (atIssue kernel halfway [])
    (reg0 s 10, (s.thread 0 0 0).fcsr) = (0x33800000, 0) := by decide
/-- R113's example. -/
theorem test_hadd2 :
    reg0 (after (exec (.hadd2 3 1 (.v 2)) (atIssue kernel [(1, 0x3C007BFF), (2, 0x3C003C00)] []))) 3 = 0x40007BFF := by
  decide
/-- The worked examples of R115 and R117. -/
theorem test_fex2 : reg0 (run 0x00182BA3 (atIssue kernel [(6, 0x3F000000)] [])) 5 = 0x3FB504F3 := by decide
theorem test_flg2 : reg0 (run 0x00183BC3 (atIssue kernel [(6, 0x40400000)] [])) 7 = 0x3FCAE00D := by decide

/-- Chapter 9, worked example: lane 5 stands elsewhere. -/
def votes : State :=
  { atIssue kernel [] [(7, 1)] with
    threads := (([3, 0, 5, 0xFFFFFFFF, 7, 9, 0, 2] : List Word).zip (List.range 8)).map fun e =>
      (e.2, lane [(1, e.1)])
    iss := { lanes := [0, 1, 2, 3, 4, 6, 7], pc := 0x10000 } }
theorem test_shfldn :
    ((run 0x0E041D53 votes).thread 0 0 2).reg 3 = 0xFFFFFFFF ∧ ((run 0x0E041D53 votes).thread 0 0 3).reg 3 = 7 := by
  decide
theorem test_scanadd :
    ((run 0x00042663 votes).thread 0 0 2).reg 4 = 8 ∧ ((run 0x00042663 votes).thread 0 0 3).reg 4 = 7 := by decide
theorem test_redadd : reg0 (run 0x00042DE3 votes) 5 = 16 := by decide
theorem test_ballot : reg0 (run 0x00041583 votes) 2 = 0x9D := by decide

/-- Chapter 7, worked example: BNZ v1 with its target 106 bytes ahead. -/
theorem test_bnz :
    ((run 0x001A8119 (atIssue kernel [(1, 1)] [])).thread 0 0 0).pc = 0x1006A ∧
      ((run 0x001A8119 (atIssue kernel [] [])).thread 0 0 0).pc = 0x10004 := by decide
/-- R22, R45: a SHORT word is two bytes long. -/
theorem test_short_iaddi :
    let s := run 0x389E (atIssue kernel [(4, 0xFFFFFFFA)] [])
    (reg0 s 4, (s.thread 0 0 0).pc) = (1, 0x10002) := by decide
/-- R100's example: 1.5 is loaded by MOVHI. -/
theorem test_movhi : reg0 (run 0x3FC0031F (atIssue kernel [(6, 0)] [])) 6 = 0x3FC00000 := by decide
/-- Chapter 5, second worked example: bits that an index register does not hold are dropped. -/
theorem test_setx : ((run 0x022406C3 (atIssue kernel [(9, 0xFF8B88A0)] [])).thread 0 0 0).xreg 1 = 0x000B0820 := by decide
/-- R148: a write of k0 is discarded. -/
theorem test_kadd :
    ((run 0x00A2060B (atIssue kernel [] [(4, 0xFFFFFFFF), (5, 2)])).weft 0 0).kreg 3 = 1 ∧
      ((after (exec (.kadd 0 4 5) (atIssue kernel [] [(4, 1)]))).weft 0 0).kreg 0 = 0 := by decide
/-- Chapter 21, worked example: LDG.32 of an address that is 2 above a multiple of 4. -/
theorem test_misaligned_load :
    let y := (run 0x00084227 (atIssue kernel [(2, 0x00506002), (3, 0x40)] [])).thread 0 0 0
    (y.tst, y.tcause, y.tpc, y.taddr, y.pc) = (.trap, 5, 0x10000, 0x4000506002, 0x20000) := by decide
/-- R388: TRAP 5. -/
theorem test_trap :
    let y := (run 0x000016BD base).thread 0 0 0
    (y.tcause, y.tpc, y.tinfo) = (0x0D, 0x10004, 5) := by decide
/-- Chapter 9, worked example of a barrier, in one merged update. -/
theorem test_barrier :
    let x : Barrier := { init := true, expa := 2, pend := 1, expb := 4096, rcvb := 2048 }
    let y := x.update 0 1 0 2048 false
    (y.par, y.pend, y.expb, y.rcvb, y.err) = (1, 2, 0, 0, false) := by decide

/-! ## Witnesses: states and operands that meet the hypotheses of the statements -/

/-- CanonicalMemoriesAreEqual. -/
theorem test_canonical_memory_exists : Memory.wf [(0, 7), (0xFFFFFFFF, 1)] = true ∧ Memory.wf [] = true := by decide
/-- RegisterFiles: a register off a written quad, and a quad named by v0. -/
theorem test_registers_off_a_quad : (7 : Nat) < 8 ∨ 8 + 3 < 7 ∨ (8 : Nat) = 0 := by decide
/-- EncodedInstructionDecodesToItself, at the highest registers. -/
theorem test_wellformed_instruction :
    (Instr.iadd64 126 126 (.k 62)).WellFormed ∧ (Instr.iadd64 126 126 (.k 62)).len ≠ 0 := by
  constructor
  · exact (by decide : (Instr.iadd64 126 126 (.k 62)).breach = none)
  · decide
/-- DecodedInstructionEncodesToItsWord, for a word of either length. -/
theorem test_decoded_words :
    decodeWord 0x71B4 = .ok (.shortFadd 13 14) ∧ 0x71B4 < 2 ^ 16 ∧ decodeWord 0x00A2060B = .ok (.kadd 3 4 5) ∧
      0x00A2060B < 2 ^ 32 := by decide

/-- The word forms of the integer instructions, with a data and a uniform register, and with v0 as destination. -/
theorem test_integer_words_issue :
    Issues .integer ([one 3, one 127] ++ srcRegs (.v 2)) (srcKs 1 (.v 2)) base ∧
      Issues .integer ([one 0, one 1] ++ srcRegs (.k 63)) (srcKs 1 (.k 63)) base := by decide
/-- The pair forms, and the mixed forms of the widening products and the 64-bit shifts. -/
theorem test_integer_pairs_issue :
    Issues .integer ([two 126, two 2] ++ srcRegs2 (.v 4)) (srcKs 2 (.v 4)) base ∧
      Issues .integer ([two 0, two 2] ++ srcRegs2 (.k 62)) (srcKs 2 (.k 62)) base ∧
      Issues .integer ([two 4, one 2] ++ srcRegs (.v 3)) (srcKs 1 (.v 3)) base ∧
      Issues .integer ([two 4, two 2] ++ srcRegs (.k 5)) (srcKs 1 (.k 5)) base := by decide
/-- The immediate forms, and the moves of ImmediateAndShortResults. -/
theorem test_immediates_issue :
    Issues .integer [one 3, one 1] [] base ∧ Issues .integer [two 2, two 4] [] base ∧ Issues .integer [one 127] [] base ∧
      Issues .integer [one 3] [((5 : KReg).toNat, 1)] base ∧ Issues .integer [one 63, one 31, one 0] [] base ∧
      Issues .fp32 [one 63, one 63, one 31] [] base := by decide
/-- An index register at the last index of its window, one with INDEX = BOUND, and one that reaches the first register
beyond the allotment. -/
def windows : State :=
  let x : Thread := { lane [] with x := [(1, 0x00070820), (2, 0x00080820), (3, 0x0001027F)] }
  { base with threads := [(0, x), (1, x)] }
theorem test_indexed_moves_issue :
    (∀ r ∈ [20, 0], Issues .integer [one r] [] windows) ∧ (∀ i, indexedBusy windows i = false) ∧
      ∀ l ∈ windows.iss.lanes, (windows.lane l).tst = .run := by decide
theorem test_indexed_access_is_legal :
    ∀ l ∈ windows.iss.lanes, xIndex ((windows.lane l).xreg 1) < xBound ((windows.lane l).xreg 1) ∧
      xBase ((windows.lane l).xreg 1) + xIndex ((windows.lane l).xreg 1) <
        (windows.roleOf windows.iss.blk windows.iss.weft).regs := by decide
theorem test_indexed_access_beyond_its_window :
    ∀ l ∈ windows.iss.lanes, xBound ((windows.lane l).xreg 2) ≤ xIndex ((windows.lane l).xreg 2) := by decide
theorem test_indexed_access_beyond_the_allotment :
    ∀ l ∈ windows.iss.lanes, xIndex ((windows.lane l).xreg 3) < xBound ((windows.lane l).xreg 3) ∧
      (windows.roleOf windows.iss.blk windows.iss.weft).regs ≤ xBase ((windows.lane l).xreg 3) + xIndex ((windows.lane l).xreg 3) := by
  decide
/-- What MOVX leaves in each of those lanes: the trap's code, and the index register or the register number. -/
theorem test_movx_traps :
    let y := fun i => (after (exec (.movx 20 i) windows)).thread 0 0 0
    (y 1).tst = .run ∧ ((y 2).tcause, (y 2).tinfo) = (BitVec.ofNat 32 Cause.xrange.code, 0x00080820) ∧
      ((y 3).tcause, (y 3).tinfo) = (BitVec.ofNat 32 Cause.regrange.code, 128) := by decide
/-- DivisionResults with a zero divisor and the most negative quotient: see test_integer_words_issue for the issue. -/
theorem test_division_corners :
    reg0 (after (exec (.idiv 3 1 (.v 2)) (atIssue kernel [(1, 0x80000000), (2, 0xFFFFFFFF)] []))) 3 = 0x80000000 ∧
      reg0 (after (exec (.irem 3 1 (.v 2)) (atIssue kernel [(1, 7)] []))) 3 = 7 := by decide
/-- The FP32, FP64 and packed forms, and the conversions. -/
theorem test_fp32_instructions_issue :
    Issues .fp32 ([one 3, one 1] ++ srcRegs (.v 2)) (srcKs 1 (.v 2)) base ∧
      Issues .fp32 ([one 3, one 1] ++ srcRegs (.k 2)) (srcKs 1 (.k 2)) base ∧ Issues .fp32 [one 3, one 1] [] base := by
  decide
theorem test_fp64_instructions_issue :
    Issues .fp64 ([one 3, one 1] ++ srcRegs (.k 2)) (srcKs 1 (.k 2)) base ∧
      Issues .fp64 ([two 6, two 2] ++ srcRegs2 (.v 4)) (srcKs 2 (.v 4)) base ∧
      Issues .fp64 ([one 7, two 2] ++ srcRegs2 (.v 4)) (srcKs 2 (.v 4)) base ∧ Issues .fp64 [two 6, two 2] [] base ∧
      Issues .fp64 [two 6, one 1] [] base ∧ Issues .fp64 [one 3, two 2] [] base ∧ Issues .fp64 [one 3, one 1] [] base := by
  decide
/-- FloatCompareAndBitResults: a NaN operand. -/
theorem test_nan_operand : (unpack fp32 0x7FC00000).isNaN || (unpack fp32 0).isNaN := by decide
/-- RoundingFollowsTheMode, on a tie: 5/2 units, in the four modes. -/
theorem test_rounding_of_a_tie :
    (roundAt 0 true 5 (-1) false 0, roundAt 1 true 5 (-1) false 0, roundAt 2 true 5 (-1) false 0,
      roundAt 3 true 5 (-1) false 0) = ((2, true), (2, true), (3, true), (2, true)) := by decide
/-- CrossLaneResults: a lane outside the issue set. -/
theorem test_cross_lane_issue :
    Issues .integer ([one 3, one 1] ++ srcRegs (.k 7)) (srcKs 1 (.k 7)) votes ∧ Issues .integer [one 3, one 1] [] votes ∧
      Issues .fp32 [one 3, one 1] [] votes := by decide
/-- UniformResults, with k0 and k63; an offset of KLDCB that is a multiple of 4 at the end of the bank, and one that
is none. -/
def banked : State := atIssue kernel [] [(4, 0xFFFC), (6, 2)]
theorem test_uniform_issue :
    Issues .integer [] [((0 : KReg).toNat, 1), ((63 : KReg).toNat, 1), ((5 : KReg).toNat, 1)] banked ∧
      Issues .integer [] [((62 : KReg).toNat, 2), ((4 : KReg).toNat, 2), ((0 : KReg).toNat, 2)] banked ∧
      Issues .integer [] [((3 : KReg).toNat, 1)] banked ∧ banked.iss.lanes.head? = some 0 ∧
      Allowed (fun k => k.permits .integer) [one 127] banked ∧
      laneBusy banked banked.iss.blk banked.iss.weft 0 [one 127] = false := by decide
theorem test_constant_bank_offsets :
    Issues .integer [] [((3 : KReg).toNat, 1), ((4 : KReg).toNat, 1)] banked ∧
      ((banked.wft.kreg 4).toNat + 4 * (0 : BitVec 11).toNat) % 65536 % 4 = 0 ∧
      ((banked.wft.kreg 6).toNat + 4 * (0 : BitVec 11).toNat) % 65536 % 4 ≠ 0 := by decide

/-- BranchResults: targets that are legal, not canonical, and odd. -/
theorem test_branch_targets :
    Issues .sync [] [] base ∧ Issues .sync [one 127] [] base ∧ Issues .sync [two 126] [] base ∧
      Issues .sync [] [((63 : KReg).toNat, 1)] base ∧ LegalTarget (base.iss.pc + 2 * BitVec.signExtend 64 (0x800000 : BitVec 24)) ∧
      LegalTarget ((lane [(2, 0x20000), (3, 0)]).pair 2) ∧ canonical 0x0100000000000000 = false ∧
      (canonical 0xFF00000000000001 = true ∧ (0xFF00000000000001 : DWord).getLsbD 0 = true) := by decide
/-- BranchResults: a BRA whose target is not canonical. -/
def atTop : State := { base with iss := { lanes := [0, 1], pc := 0x00FFFFFFFFFFFFFC } }
theorem test_branch_out_of_the_address_space :
    Issues .sync [] [] atTop ∧
      (targetCond (atTop.iss.pc + 2 * BitVec.signExtend 64 (2 : BitVec 24))).isSome = true := by decide

/-- Lanes whose return stack holds `rs` on chip, with SPTR at a multiple of 8. -/
def returning (rs : List DWord) : State :=
  let x : Thread := { lane [] with rs := rs, sptr := 0x20000000100 }
  { base with threads := [(0, x), (1, x)] }
/-- CallsAndReturnsOnChip: three entries, and one. -/
theorem test_calls_on_chip :
    Issues .sync [] [] (returning [4, 8, 12]) ∧ Issues .sync [two 2] [] (returning [4, 8, 12]) ∧
      (∀ l ∈ (returning [4, 8, 12]).iss.lanes, ((returning [4, 8, 12]).lane l).rs.length < 4) ∧
      ((returning [0x10004]).lane 1).rs.getLast? = some 0x10004 ∧ LegalTarget 0x10004 := by decide
/-- CallsAndReturnsThroughTheSpillArea: four entries, and none; and sets of which lane 1 needs no access. -/
def mixed (rs rs' : List DWord) : State :=
  { base with
    threads := [(0, { lane [] with rs := rs, sptr := 0x20000000100 }), (1, { lane [] with rs := rs', sptr := 0x20000000200 })] }
theorem test_calls_of_mixed_depth :
    ((let s := mixed [4, 8, 12, 16] [4, 8, 12]
      Issues .sync [] [] s ∧ (s.iss.lanes.filter fun l => decide (4 ≤ (s.lane l).rs.length)) = [0] ∧
       ((s.lane 0).sptr - 8).toNat % 8 = 0 ∧ canonical ((s.lane 0).sptr - 8) = true ∧
       missStall s [((s.lane 0).sptr - 8).toNat] = false) ∧
     (let s := mixed [] [0x10004]
      Issues .sync [] [] s ∧ (s.iss.lanes.filter fun l => decide ((s.lane l).rs = [])) = [0] ∧
       missStall s [(s.lane 0).sptr.toNat] = false ∧ LegalTarget ((s.lane 1).rs.getLastD 0))) := by decide
theorem test_calls_through_the_spill_area :
    (let s := returning [4, 8, 12, 16]
     Issues .sync [] [] s ∧ s.wft.room .st 1 = true ∧ missStall s (s.iss.lanes.map fun l => ((s.lane l).sptr - 8).toNat) = false ∧
      ∀ l ∈ s.iss.lanes, 4 ≤ (s.lane l).rs.length ∧ LegalTarget (s.iss.pc + 2 * BitVec.signExtend 64 (2 : BitVec 24)) ∧
        canonical ((s.lane l).sptr - 8) = true ∧ ((s.lane l).sptr - 8).toNat % 8 = 0) ∧
    (let s := returning []
     Issues .sync [] [] s ∧ s.wft.room .ld 1 = true ∧ missStall s (s.iss.lanes.map fun l => (s.lane l).sptr.toNat) = false ∧
      ∀ l ∈ s.iss.lanes, (s.lane l).rs = [] ∧ canonical (s.lane l).sptr = true ∧ (s.lane l).sptr.toNat % 8 = 0) := by
  decide
/-- ControlRegisterAccess: the numbers at the ends of each range, in both modes. -/
theorem test_csr_numbers :
    Issues .sync [one 3] [] base ∧ csrCond base false 4 = none ∧ csrCond base true 3 = none ∧
      (csrCond base true 4).isSome = true ∧ (csrCond base false 5).isSome = true ∧ (csrCond base false 0x200).isSome = true ∧
      (csrCond base false 0x100).isSome = true ∧ (csrCond base false 0x1FF).isSome = true ∧
      csrCond (inHandler base) true 0x10B = none ∧ csrCond (inHandler base) false 0x17F = none ∧
      (csrCond (inHandler base) true 0x140).isSome = true ∧ (csrCond (inHandler base) false 0x10C).isSome = true := by decide
/-- ControlRegisterAccess: no flags owed; and a WRED of lane 1 whose flags are not in. -/
def owing : State := { base with ops := [(3, { kind := .wred 2 0 0, issue := 2 })], nextOp := 4 }
theorem test_flags_owed :
    flagsOwed base 0 = false ∧ Issues .sync [one 3] [] owing ∧
      (∃ e ∈ owing.ops, e.2.ofWeft owing.iss.blk owing.iss.weft = true ∧ (∃ g r q, e.2.kind = .wred g r q) ∧
        ∃ l ∈ owing.iss.lanes, e.2.issue.testBit l = true) :=
  ⟨by decide, by decide, _, List.mem_singleton.mpr rfl, rfl, ⟨_, _, _, rfl⟩, 1, by decide, by decide⟩
/-- CycleCounterAndSpecialRegisters. -/
theorem test_special_registers_issue :
    Issues .sync [two 2] [] base ∧ Issues .sync [one 3] [] base ∧
      ((run 0x0002073D base).thread 0 0 1).reg 1 = 1 := by decide

/-- TrapInHandlerModeParksTheWeft: lanes in either mode; the last free park place, and no free place. -/
def fullPlaces (n : Nat) : State := { inHandler base with faults := List.replicate n (.weft 0 1) }
theorem test_trap_modes :
    (base.thread 0 0 0).tst ≠ .trap ∧ ((inHandler base).thread 0 0 0).tst = .trap ∧ ((inHandler base).weft 0 0).park = none ∧
      parkedIn base (domOf (base.block 0).core) < 1024 ∧ pendingIn base (domOf (base.block 0).core) = false ∧
      pendingIn { base with pendq := [(0, 1)] } (domOf (base.block 0).core) = true := by decide
/-- TrapEntryWritesTheFrame: a lane that a spill, and one that a refill, holds; and one that none does. -/
def stacking (f : AccFn) : State :=
  { base with
    threads := [(0, { lane [] with hold := some 3 })]
    ops := [(3, { acc := { fn := f, size := 8 }, lanes := [{ lane := 0, addr := 0x200000000F8, data := 4 }] })]
    nextOp := 4 }
theorem test_lanes_on_the_stack :
    (stackHold (stacking .spill) 0 0 0).isSome = true ∧ (stackHold (stacking .refill) 0 0 0).isSome = true ∧
      stackHold base 0 0 0 = none := by decide
theorem test_park_places_taken :
    ((fullPlaces 1024).thread 0 0 0).tst = .trap ∧ ((fullPlaces 1024).weft 0 0).park = none := by decide
theorem test_park_places_counted (n : Nat) : n ≤ parkedIn (fullPlaces n) (domOf ((fullPlaces n).block 0).core) := by
  rw [parkedIn, List.filter_eq_self.mpr, fullPlaces]
  · exact (List.length_replicate).ge
  · intro f h
    rw [List.eq_of_mem_replicate (h : f ∈ List.replicate n (FaultRef.weft 0 1))]
    exact beq_self_eq_true _
/-- TrapAndBreakpointEnterTheHandler. -/
theorem test_trap_words_issue : Issues .sync [] [] base ∧ ∀ l ∈ base.iss.lanes, (base.lane l).tst = .run := by decide
/-- ReturnFromTrap: in the handler with eight entries to re-inject, with nine operations, and in user mode. -/
def reissuing (n : Nat) : State :=
  { inHandler base with
    threads := [(0, { lane [] with tst := .trap, tpc := 0x10004, trq := List.replicate n { word := 0x00084227, addr := 0x30000, data := 0 } })]
    iss := { base.iss with lanes := [0], handler := true } }
theorem test_return_issues :
    (∀ s ∈ [inHandler base, reissuing 8], Issues .sync [] [] s ∧ s.iss.handler = true ∧
      (∀ l ∈ s.iss.lanes, LegalTarget (s.lane l).tpc) ∧
      ∀ l ∈ s.iss.lanes, heldCount s s.iss.blk s.iss.weft l + (s.lane l).trq.length ≤ 8) ∧
    Issues .sync [] [] (reissuing 9) ∧
    (∃ l ∈ (reissuing 9).iss.lanes, 8 < heldCount (reissuing 9) 0 0 l + ((reissuing 9).lane l).trq.length) ∧
    (base.iss.lanes ≠ [] ∧ base.iss.handler = false) := by decide
/-- WeftSynchronisation: a mask that names no lane, one whose lanes have all arrived, and one that names lane 2,
which has not. -/
def meeting (m : Word) : State :=
  { atIssue kernel [] [(5, m)] with threads := [(0, lane []), (1, lane []), (2, { lane [] with pc := 0x20 })] }
theorem test_weft_synchronisation :
    Issues .sync [] [((5 : KReg).toNat, 1)] (meeting 7) ∧ (meeting 7).iss.handler = false ∧ (meeting 7).iss.len = 4 ∧
      (∀ l ∈ (meeting 7).iss.lanes, ((meeting 7).lane l).tst = .run ∧ ((meeting 7).lane l).pc = (meeting 7).iss.pc) ∧
      ((meeting 7).lane 2).tst = .run ∧ 2 ∉ (meeting 7).iss.lanes ∧
      Issues .sync [] [((5 : KReg).toNat, 1)] (meeting 0) ∧ Issues .sync [] [((5 : KReg).toNat, 1)] (meeting 3) := by decide
/-- Lane 2 waits with mask 7, which the lanes of the issue set complete, or with mask 15, which lane 3 does not; and an
issue set in handler mode. -/
def awaiting (m : Nat) : State :=
  { atIssue kernel [] [(5, BitVec.ofNat 32 m)] with
    threads := [(0, lane []), (1, lane []), (2, { lane [] with tst := .wait, wait := .wsync m, pc := 0x20 }), (3, lane [])] }
theorem test_other_lanes_wait :
    (∀ m ∈ [7, 15], Issues .sync [] [((5 : KReg).toNat, 1)] (awaiting m) ∧ 2 ∉ (awaiting m).iss.lanes ∧
      ((noteIssue (awaiting m)).thread 0 0 2).tst = .wait ∧ ((noteIssue (awaiting m)).thread 0 0 2).wait = .wsync m) ∧
      (∀ j < 32, (7 : Nat).testBit j = true → j ∈ (awaiting 7).iss.lanes ∨ ((awaiting 7).lane j).wait = .wsync 7) ∧
      ((15 : Nat).testBit 3 = true ∧ ((awaiting 15).lane 3).tst = .run) ∧
      ∀ i ∈ [Instr.wsync 5, .exit], ((after (exec i (awaiting 7))).thread 0 0 2).tst = .run := by decide
theorem test_waits_in_handler_mode :
    FormedSet (inHandler base) ∧ Allowed (fun k => k.permits .sync) [] (inHandler base) ∧ (inHandler base).iss.handler = true := by
  decide
/-- YieldAndExit: a weft that holds no race slot, in a RESIDENT block, and one that holds one. -/
def holding : State := { base with wefts := [(0, { wst := .active, slots := [{ race := 0, slot := 1, recv := false, addr := 64 }] })] }
theorem test_yield_and_exit :
    Issues .sync [] [] base ∧ base.iss.handler = false ∧ base.wft.slots = [] ∧ (base.block base.iss.blk).bst = .resident ∧
      (∀ l < 32, l ∈ base.iss.lanes ∨ (base.lane l).tst = .done ∨ (base.lane l).tst = .empty) ∧
      Issues .sync [] [] holding ∧ holding.wft.slots ≠ [] := by decide

/-- BarrierInstructionResults: the last barrier of the block, uninitialised, initialised and in error; and a number
beyond it. -/
def withBarrier (x : Barrier) : State := { base with blocks := [(0, { bst := .resident, bars := [(1, x)] })] }
theorem test_barrier_instructions :
    Issues .sync [] [] base ∧ barCond base 1 true false = none ∧
      (let s := withBarrier { init := true, expa := 2, pend := 2 }
       Issues .sync [] [((4 : KReg).toNat, 1)] s ∧ Issues .sync [one 3] [] s ∧ barCond s 1 false false = none ∧
         barCond s 1 false true = none ∧ lanesPending s = false ∧ s.iss.handler = false) ∧
      (base.launch base.iss.blk).nbar ≤ 2 ∧ 1 < (base.launch base.iss.blk).nbar ∧
      ((base.block base.iss.blk).bar 1).init = false ∧
      (((withBarrier { init := true, err := true }).block 0).bar 1).err = true ∧
      lanesPending base = false ∧ barCond base 1 false false = some { cause := .barrier, info := 1 * 4096 } := by decide
/-- BarrierUpdateRule: one of each outcome, where they meet: the last arrival with the last byte, one byte more, and
one byte less. -/
theorem test_barrier_updates :
    let x : Barrier := { init := true, expa := 2, pend := 1, expb := 16, rcvb := 8 }
    (x.pend - 1 = 0 ∧ x.rcvb + 8 = x.expb) ∧ x.expb < x.rcvb + 9 ∧ ¬ (x.pend - 1 = 0 ∧ x.rcvb + 7 = x.expb) := by decide
/-- R184: two arrivals of one cycle at a barrier that expects one set ERR; and a cycle that joins no turn. -/
theorem test_barrier_updates_of_a_cycle :
    let s := { withBarrier { init := true, expa := 1, pend := 1 } with cycle := { joined := true } }
    let y := ((endCycle (barUpdate (barUpdate s 0 1 { arrivals := 1 }) 0 1 { arrivals := 1 })).block 0).bar 1
    (y.err, y.par) = (true, 0) ∧ (withBarrier {}).cycle = {} := by decide

/-- A state whose core translates the first 2 MiB of the address space to itself, and the plate window at 2^30 to the
first plate page of domain 0. -/
def mapped (s : State) : State :=
  { s with
    cores := [(0, { tlb := [{ vi := 64, bits := 21, r := true, w := true, x := true, d := true },
      { vi := 64, va := 0x40000000, bits := 16, pa := 0x100000000000, r := true, plate := true }] })] }

/-- AccessesIssue: global addresses at both ends of the upper half, aligned to 16. -/
def reaching : State := atIssue kernel [(2, 0xFFFFFFF0), (3, 0xFFFFFFFF), (4, 0x3F0), (6, 0x3FC)] [(4, 0x40)]
theorem test_global_accesses_issue :
    AccessIssues { space := .global, fn := .load, size := 16, dest := 124 } (two 2) reaching ∧
      AccessIssues { space := .global, fn := .atom .cas, size := 8, dest := 8 } (two 2) reaching ∧
      AccessIssues { space := .host, fn := .store, size := 8, order := .sync, scope := .sys, dest := 8 } (two 2) reaching ∧
      AccessIssues { space := .plate, fn := .load, size := 16, dest := 12 } (two 2) reaching ∧
      ∀ l ∈ reaching.iss.lanes, canonical ((reaching.lane l).pair 2) = true ∧ ((reaching.lane l).pair 2).toNat % 16 = 0 := by
  decide
/-- The last 16 and the last 4 bytes of the allocation; its own cluster target; the constant bank. -/
theorem test_scratchpad_accesses_issue :
    AccessIssues { space := .spm, fn := .store, size := 16, dest := 8 } (one 4) reaching ∧
      (∀ l ∈ reaching.iss.lanes, ((reaching.lane l).reg 4 + BitVec.ofNat 32 0).toNat % 16 = 0 ∧
        ((reaching.lane l).reg 4 + BitVec.ofNat 32 0).toNat + 16 ≤ (reaching.launch reaching.iss.blk).spm) ∧
      AccessIssues { space := .cluster, fn := .atom .add, size := 4, order := .rlx, scope := .dom, dest := 8, target := 0 }
        (one 6) reaching ∧
      clusterTargetOf reaching reaching.iss.blk 0 = some 0 ∧
      (∀ l ∈ reaching.iss.lanes, ((reaching.lane l).reg 6).toNat % 4 = 0 ∧
        ((reaching.lane l).reg 6).toNat + 4 ≤ (reaching.launch 0).spm) ∧
      AccessIssues { space := .const, fn := .load, size := 16, dest := 8 } (one 4) reaching ∧
      Issues .memory [two 2] [] reaching ∧
      missStall reaching (reaching.iss.lanes.map fun l => ((reaching.lane l).pair 2).toNat) = false := by decide
/-- AddressChecksOfAccesses: lane 0 passes its checks, lane 1 fails each in turn. -/
def failing (v : Sp Word) : State :=
  { reaching with threads := [(0, lane [(2, 0x1000), (4, 0x3F0)]), (1, lane v)] }
theorem test_address_checks :
    let s := failing [(2, 0xFFFFFFFE), (3, 0x00FFFFFF), (4, 1022)]
    AccessIssues { space := .global, fn := .load, size := 4, dest := 8 } (two 2) s ∧
      AccessIssues { space := .spm, fn := .store, size := 4, dest := 8 } (one 4) s ∧
      missStall s [0x1000, 0x00FFFFFFFFFFFFFE] = false ∧ s.iss.deliver = 0 ∧ s.wft.park = none ∧
      (∀ l ∈ s.iss.lanes, (s.lane l).tst = .run) ∧
      (canonical ((s.lane 1).pair 2) = true ∧ ((s.lane 1).pair 2).toNat % 4 ≠ 0 ∧ ((s.lane 1).reg 4).toNat % 4 ≠ 0) ∧
      canonical (((failing [(3, 0x01000000)]).lane 1).pair 2) = false ∧
      (1024 % 4 = 0 ∧ (s.launch s.iss.blk).spm < 1024 + 4) ∧ (1020 % 4 = 0 ∧ 1020 + 4 ≤ (s.launch s.iss.blk).spm) := by decide
/-- A scratchpad store beyond the allocation in lane 1: the weft parks with the lanes of R384, and lane 0 goes on. -/
theorem test_store_beyond_the_allocation :
    let t := after (exec (.sts32 8 4 0) (failing [(4, 1024)]))
    ((t.weft 0 0).wst, (t.weft 0 0).park.map fun e => (e.kind, e.cause, e.issue, e.done)) =
        (.parked, some (1, Cause.protect.code, 3, 1)) ∧
      ((t.thread 0 0 0).pc, (t.thread 0 0 1).pc) = (0x10004, 0x10000) ∧ (t.ops.map fun e => e.2.lanes.map LaneAcc.lane) = [[0]] := by
  decide

/-- AddressChecksOfAccesses: a held access of lane 1 to 0x30000, whose page stands in the core's TLB as given. -/
def checking (acc : Access) (p : TlbEnt) (seals : List SealEnt) : State :=
  { base with
    ops := [(3, { acc := acc, pc := 0x10000, lanes := [{ lane := 1, addr := 0x30000 }] })]
    vis := [(64, { seals := seals })]
    cores := [(0, { tlb := [{ p with vi := 64, bits := 16, va := 0x30000, d := true }] })] }
theorem test_page_checks :
    let rw : TlbEnt := { r := true, w := true }
    let atHost : TlbEnt := { r := true, w := true, pa := 2 ^ 48 + 0x300000000000 }
    let found := fun (acc : Access) (p : TlbEnt) seals => let s := checking acc p seals
      let q := translate s 0 64 0 0x30000 acc.pageUse
      (q.1 == .ok { p with vi := 64, bits := 16, va := 0x30000, d := true } && q.2.wefts == s.wefts && q.2.threads == s.threads &&
        q.2.blocks == s.blocks)
    (∀ acc ∈ ([{}, { space := .plate }, { space := .host }] : List Access), found acc {} [] = true) ∧
      found { fn := .store } { rw with plate := true } [] = true ∧
      found { fn := .store } rw [{ asn := 0, base := 0x30000, len := 0x10000 }] = true ∧
      sealedAt (checking { fn := .store } rw [{ asn := 0, base := 0x30000, len := 0x10000 }]) 64 0 0x3FFFF false = true ∧
      found {} atHost [] = true ∧ regionOf (checking {} atHost []) atHost.pa = .host ∧
      regionOf (checking {} rw []) rw.pa = .dram ∧
      ((checking {} rw []).weft 0 0).park = none ∧ ((checking {} rw []).thread 0 0 1).tst = .run ∧
      ((checking {} rw []).thread 0 0 1).hold = none := by decide

/-- CopiesStart: CPGS and CPSG of lanes whose global and scratchpad addresses pass their checks. -/
def copying : State := mapped (atIssue kernel [(2, 0x1000), (12, 0x3F0)] [])
theorem test_lane_copies_start :
    IssuesAs copyRole [one 12, two 2] [] copying ∧ lanesPending copying = false ∧ copyBarCond copying 15 = none ∧
      missStall copying (copying.iss.lanes.map fun l => ((copying.lane l).pair 2).toNat) = false ∧
      copyConds (copyLanes false 12 2 16 copying).1 = [] ∧ copyConds (copyLanes true 12 2 16 copying).1 = [] ∧
      (∀ x ∈ (copyLanes true 12 2 16 copying).1, x.2 ≠ none) ∧ copying.wft.room .cp 1 = true ∧
      freeSlot copying 0 = some 0 ∧ slotFor copying 0 = true ∧
      canOwn true 0 0 (passing true (copyLanes true 12 2 16 copying).1) (copyLanes true 12 2 16 copying).2 = true := by
  decide +kernel
/-- A tensor of two words, read and written as a box of four at scratchpad offset 0x100: its descriptor at offset 0. -/
def tiling : State :=
  let s := mapped (atIssue kernel [] [(4, 0), (8, 0x100), (10, 0)])
  { s with blocks := [(0, { bst := .resident, spm := [(1, 0x10), (8, 1), (9, 2), (16, 2), (0x34, 3)] })] }
theorem test_tile_copies_start :
    let s := tiling
    let d := readTile (s.block s.iss.blk).spm 0
    let es := (List.range (d.bytes / d.e)).map (tileElem d true [0] 0x100)
    let q := tileTranslate 0 0 es s
    IssuesAs copyRole [] [((4 : KReg).toNat, 1), ((8 : KReg).toNat, 1), ((10 : KReg).toNat, min d.rank 5)] s ∧
      lanesPending s = false ∧ tileCond s 0 0x100 10 = none ∧ copyBarCond s 15 = none ∧ s.wft.room .cp 1 = true ∧
      slotFor s 0 = true ∧ freeSlot s 0 = some 0 ∧ es.map Elem.live = [true, true, false, false] ∧
      missStall s ((es.filter (·.live)).map (·.va)) = false ∧ (q.1.map fun pend => canOwn true 0 0 pend q.2) = some true := by
  decide +kernel
theorem test_stage_starts :
    let s := mapped (atIssue kernel [] [(4, 0x40000000), (6, 4095)])
    missStall s [(s.wft.kpair 4).toNat] = false ∧
    IssuesAs copyRole [] [((4 : KReg).toNat, 2), ((6 : KReg).toNat, 1)] s ∧
      (cppwPage s 0 (s.wft.kpair 4)).1 = some (.ok 0x100000000000) ∧ freeSlot s 0 = some 0 ∧ slotFor s 0 = true := by
  refine ⟨by decide, by decide, rfl, by decide, by decide⟩

/-- MatrixInstructionResults: a LOADW into slot 0 of one pass, from scratchpad offset 0x100. -/
def pushing : State :=
  let k := { kernel with spm := 8192 }
  let s := atIssue k [] [(4, 0)]
  { s with blocks := [(0, { bst := .resident, spm := [(0, 1), (2, 1), (5, 1), (9, 1)] })] }
theorem test_matrix_instructions :
    let role := fun k : RoleKind => k == .general || k == .matrix
    IssuesAs role [] [((4 : KReg).toNat, 1)] pushing ∧ pushing.wft.room .mx 1 = true ∧
      (pushing.array 0 0).queue.length < 32 ∧ mxCond pushing (pushed pushing 0) (pushing.array 0 0) = none ∧
      IssuesAs role [one 127] [] pushing := by decide +kernel
/-- BlockQuantisation: the last place in the allocation for each operand. -/
def quantising : State := atIssue kernel [] [(4, 512), (8, 0), (9, 1020)]
theorem test_block_quantisation :
    IssuesAs (fun k => k == .general || k == .vector) [] [((4 : KReg).toNat, 1), ((8 : KReg).toNat, 1), ((9 : KReg).toNat, 1)]
        quantising ∧
      lanesPending quantising = false ∧ qblkCond quantising 512 0 1020 = none ∧
      spmFailed (quantising.block quantising.iss.blk).spmBad 512 512 = none := by decide
/-- CopyAndMatrixTraps: lanes whose addresses fail in turn, in a block whose barrier 1 is not initialised; lane 0 passes.
-/
def copyFailing (p : TlbEnt) (v : Sp Word) : State :=
  { atIssue kernel [] [] with
    cores := [(0, { tlb := [{ p with vi := 64, bits := 21, d := true }] })]
    threads := [(0, lane [(2, 0x1000), (12, 0x3F0)]), (1, lane v)] }
/-- What lane 1 fails in a CPGS, or a CPSG, of 16 bytes. -/
def copyFails (store : Bool) (p : TlbEnt) (v : Sp Word) : Option (Cause × Nat × Bool) :=
  ((copyConds (copyLanes store 12 2 16 (copyFailing p v)).1).find? fun x => x.1 == 1).map fun x => (x.2.cause, x.2.info, x.2.sys)
def openPage : TlbEnt := { r := true, w := true }
theorem test_lane_copies_trap :
    (∀ s ∈ [copyFailing openPage [(3, 0x01000000)], copyFailing openPage [(12, 8)], copyFailing openPage [(12, 1024)]],
      IssuesAs copyRole [one 12, two 2] [] s ∧ lanesPending s = false ∧ s.wft.room .cp 1 = true ∧ slotFor s 0 = true ∧
        (∀ l ∈ s.iss.lanes, (s.lane l).tst = .run) ∧ s.iss.deliver = 0 ∧ s.wft.park = none ∧
        missStall s (s.iss.lanes.map fun l => ((s.lane l).pair 2).toNat) = false ∧
        (∀ x ∈ (copyLanes false 12 2 16 s).1, x.2 ≠ none) ∧ copyBarCond s 1 ≠ none) ∧
      copyFails false openPage [(3, 0x01000000)] = some (.translate, 2, false) ∧
      copyFails false openPage [(12, 8)] = some (.misalign, 0, false) ∧
      copyFails false openPage [(2, 8)] = some (.misalign, 2, false) ∧
      copyFails true { openPage with plate := true } [(2, 0x1000)] = some (.plateWrite, 0, false) ∧
      copyFails false { w := true } [(2, 0x1000)] = some (.protect, 2, true) ∧
      copyFails false openPage [(12, 1024)] = some (.protect, 0, true) := by decide
/-- A tile's descriptor that ends beyond the allocation, one whose rank is 0, and one that is lawful, its tile at a place
that is not aligned, beyond the allocation and at barrier 1. -/
def tileFailing (desc spm : Word) (m : Memory) : State :=
  { mapped (atIssue kernel [] [(4, desc), (8, spm), (10, 0)]) with blocks := [(0, { bst := .resident, spm := m })] }
def tileFails (desc spm : Word) (m : Memory) : Option (Cause × Nat × Bool) :=
  (tileCond (tileFailing desc spm m) desc.toNat spm.toNat 10).map fun c => (c.cause, c.info, c.sys)
def lawfulTile : Memory := [(1, 0x10), (8, 1), (9, 2), (16, 2), (0x34, 3)]
theorem test_tile_copies_trap :
    (∀ s ∈ [tileFailing 1 0 lawfulTile, tileFailing 1024 0 lawfulTile, tileFailing 0 0x102 lawfulTile, tileFailing 0 1024 lawfulTile],
      IssuesAs copyRole [] [((4 : KReg).toNat, 1), ((8 : KReg).toNat, 1), ((10 : KReg).toNat, 1)] s ∧
        lanesPending s = false ∧ s.wft.room .cp 1 = true ∧ slotFor s 0 = true) ∧
      tileFails 1 0 [] = some (.misalign, 8, false) ∧ tileFails 1024 0 [] = some (.protect, 8, true) ∧
      tileFails 0 0 [(1, 0x10)] = some (.mxparam, 8, false) ∧ tileFails 0 0 [(0, 8), (8, 1)] = some (.mxparam, 0, false) ∧
      tileFails 0 0x102 lawfulTile = some (.misalign, 0, false) ∧ tileFails 0 1024 lawfulTile = some (.protect, 0, true) ∧
      tileFails 0 0x100 lawfulTile = none ∧ copyBarCond (tileFailing 0 0x100 lawfulTile) 1 ≠ none := by decide +kernel
/-- CPPW of an address that is not canonical, not aligned, of a page that is no plate page, and of a plate page. -/
def stageFailing (lo hi : Word) : State := mapped (atIssue kernel [] [(4, lo), (5, hi), (6, 4095)])
def stagePage (va : Nat) : Option (Bool × Bool) :=
  match translate (stageFailing 0 0) 0 64 0 va {} with
  | (.ok p, u) => if u.grids = (stageFailing 0 0).grids then some (p.plate, p.r) else none
  | _ => none
theorem test_stage_traps :
    (∀ s ∈ [stageFailing 0 0x01000000, stageFailing 0x8000 0, stageFailing 0x10000 0, stageFailing 0x40000000 0],
      IssuesAs copyRole [] [((4 : KReg).toNat, 2), ((6 : KReg).toNat, 1)] s ∧ missStall s [(s.wft.kpair 4).toNat] = false) ∧
      canonical ((stageFailing 0 0x01000000).wft.kpair 4) = false ∧ ((stageFailing 0x8000 0).wft.kpair 4).toNat % 65536 ≠ 0 ∧
      stagePage 0x10000 = some (false, true) ∧ stagePage 0x40000000 = some (true, true) ∧
      copyBarCond (stageFailing 0x40000000 0) 1 ≠ none := by decide
/-- MXPUSH: a command with each breach, a lawful one whose SPM range ends beyond the allocation, and one whose barrier is
not initialised. -/
def pushFailing (off : Word) (m : Memory) : State :=
  { atIssue kernel [] [(4, off)] with blocks := [(0, { bst := .resident, spm := m })] }
def pushFails (off : Word) (m : Memory) : Option (Cause × Nat × Nat) :=
  let s := pushFailing off m
  (mxCond s (pushed s off.toNat) (s.array 0 0)).map fun c => (c.cause, c.addr, c.info)
theorem test_matrix_commands_trap :
    (∀ s ∈ [pushFailing 1 [], pushFailing 1024 [], pushFailing 0 []],
      IssuesAs (fun k => k == .general || k == .matrix) [] [((4 : KReg).toNat, 1)] s ∧ lanesPending s = false ∧
        s.wft.room .mx 1 = true ∧ (s.array 0 0).queue.length < 32) ∧
      pushFails 1 [] = some (.misalign, 1, 8) ∧ pushFails 1024 [] = some (.protect, 1024, 8) ∧
      pushFails 0 [] = some (.mxparam, 0, 0) ∧ pushFails 0 [(0, 6)] = some (.mxparam, 0, 0) ∧
      pushFails 0 [(0, 2), (2, 1), (6, 1)] = some (.mxparam, 0, 1) ∧
      pushFails 0 [(0, 1), (2, 1), (5, 1), (9, 1)] = some (.protect, 1024, 0) ∧
      pushFails 0 [(0, 5), (2, 1)] = some (.barrier, 0, 4096) := by decide +kernel
/-- QBLK: each operand out of place, and the last place beyond which it does not lie in the allocation. -/
def quantiseFailing (a b c : Word) : State := atIssue kernel [] [(4, a), (8, b), (9, c)]
theorem test_block_quantisation_traps :
    ∀ s ∈ [quantiseFailing 8 0 0, quantiseFailing 0 8 0, quantiseFailing 0 0 2, quantiseFailing 528 0 0,
        quantiseFailing 512 912 0, quantiseFailing 512 896 1024],
      IssuesAs (fun k => k == .general || k == .vector) [] [((4 : KReg).toNat, 1), ((8 : KReg).toNat, 1), ((9 : KReg).toNat, 1)] s ∧
        lanesPending s = false ∧ s.wft.park = none ∧
        (qblkCond s (s.wft.kreg 4).toNat (s.wft.kreg 8).toNat (s.wft.kreg 9).toNat).isSome = true := by decide
/-- CounterWaits: counters at the immediates with nothing to deliver and with a failure, and one above. -/
def counted (f : List Failure) : State :=
  { base with wefts := [(0, { wst := .active, ld := [{ op := 1 }], failures := f })] }
theorem test_counter_waits :
    Issues .sync [] [] (counted []) ∧ (counted []).wft.ld.length ≤ (1 : BitVec 6).toNat ∧
      ¬ (counted []).wft.ld.length ≤ (0 : BitVec 6).toNat ∧
      (let f : Failure := { cls := .copy, seq := 0, op := 0, code := 1, addr := 0 }
       (counted [f]).wft.failures.filter (observes { (counted [f]).wft with cpSeq := 1 } 0 0) = [f]) := by decide

/-- A mill of one stage with one race that the block both produces and consumes: the weft holds slot 0 reserved. -/
def racing (q : Race) : State :=
  let s := atIssue kernel [] [(8, 0x400000), (10, 0x400040)]
  { s with
    grids := [(0, { stages := [kernel], vi := 64, mill := some { races := [q], started := true, count := [1], minc := [1], maxc := [2] } })]
    wefts := [(0, { s.weft 0 0 with
      slots := [⟨0, 0, false, 0x400000⟩, ⟨0, 1, true, 0x400040⟩] })] }
def race : Race := { slots := 4, base := 0x400000, rp := 2, cp := 2 }
theorem test_race_instructions :
    raceOf (racing race) 0 0 = some race ∧ Issues .sync [] [((8 : KReg).toNat, 2)] (racing race) ∧
      Issues .sync [] [] (racing race) ∧ Issues .sync [] [((9 : KReg).toNat, 1)] (racing race) ∧
      raceFault (racing race) 0 .prod none true = none ∧ raceFault (racing race) 0 .cons none true = none ∧
      raceFault (racing race) 0 .any none false = none ∧ (∀ e ∈ [(false, [0, 3]), (true, [1, 2, 3])],
        tryWaits (racing race) 0 e.1 e.2 = false ∧ tryTurn (racing race) 0 e.2 = .free) ∧
      raceFault (racing race) 0 .prod (some (0x400000, false)) false = none ∧
      raceFault (racing race) 0 .cons (some (0x400040, true)) false = none ∧
      raceFault (racing race) 0 .prod none false = none := by decide
/-- RaceInstructionResults, where they trap: no mill, a race beyond the table, a block of another stage, a slot that is not
held, a race CLOSED or ABANDONED, and eight slots held; and in handler mode. -/
theorem test_race_traps :
    let full := fun q => { racing q with wefts := [(0, { wst := .active, slots := List.replicate 8 ⟨0, 0, false, 64⟩, k := [(8, 64)] })] }
    let why := fun s q side held grants => (raceFault s q side held grants).map Cond.reason
    Issues .sync [] [((8 : KReg).toNat, 2)] base ∧ Issues .sync [] [((9 : KReg).toNat, 1)] base ∧ Issues .sync [] [] base ∧
      why base 0 .any none false = some 1 ∧ why (racing race) 1 .any none false = some 2 ∧
      why (racing { race with prod := 1 }) 0 .prod none true = some 3 ∧ why (racing { race with cons := 1 }) 0 .cons none true = some 3 ∧
      why (racing race) 0 .prod (some (0x400040, false)) false = some 4 ∧
      why (racing race) 0 .cons (some (0x400000, true)) false = some 4 ∧
      why (racing { race with rst := .closed }) 0 .prod none true = some 5 ∧
      why (racing { race with rst := .abandoned }) 0 .prod none true = some 6 ∧
      Issues .sync [] [((8 : KReg).toNat, 2)] (full race) ∧ closing (full race) 0 = false ∧
      why (full race) 0 .prod none true = some 7 ∧ why (full race) 0 .cons none true = some 7 ∧
      FormedSet (inHandler (racing race)) ∧ Allowed (fun k => k.permits .sync) [] (inHandler (racing race)) := by decide
/-- A try form with a slot to grant, and with none. -/
theorem test_race_tries :
    race.canReserve = true ∧ race.canReceive = false ∧
      ({ race with slot := [(2, ⟨.committed, 0, 1⟩)] } : Race).canReceive = true ∧
      ({ race with slot := [(2, ⟨.committed, 0, 1⟩)] } : Race).canReserve = false := by decide
/-- A try form under a replay: the records that come next say each answer, or none remains for the weft. -/
def retrying (q : Race) (recs : List Nat) : State :=
  { racing q with grids := (racing q).grids.map fun e => (e.1, { e.2 with book := some { replay := true, recs := recs } }) }
def grantOf (kind : Nat) : Nat := 3 + kind * 256 ^ 9
theorem test_replayed_tries :
    tryTurn (retrying race [grantOf 0]) 0 [0, 3] = .now 0 ∧ tryWaits (retrying race [grantOf 0]) 0 false [0, 3] = false ∧
      tryTurn (retrying race [grantOf 3]) 0 [0, 3] = .now 3 ∧ tryWaits (retrying race [grantOf 3]) 0 false [0, 3] = false ∧
      (let q : Race := { race with slot := [(2, ⟨.committed, 0, 1⟩)] }
       tryTurn (retrying q [grantOf 1]) 0 [1, 2, 3] = .now 1 ∧ tryWaits (retrying q [grantOf 1]) 0 true [1, 2, 3] = false) ∧
      (let q : Race := { race with rst := .abandoned }
       tryTurn (retrying q [grantOf 2]) 0 [1, 2, 3] = .now 2 ∧ tryWaits (retrying q [grantOf 2]) 0 true [1, 2, 3] = false) ∧
      tryTurn (retrying race []) 0 [0, 3] = .never ∧ tryTurn (retrying race []) 0 [1, 2, 3] = .never := by decide

/-- FencesSealsAndInstalls: an empty seal table, the sealed range, and a full table. -/
def sealing (es : List SealEnt) : State :=
  { atIssue kernel [] [(4, 0x10000), (6, 0x10000)] with vis := [(64, { seals := es })] }
theorem test_seals :
    Issues .memory [] [] (sealing []) ∧ Issues .memory [] [((4 : KReg).toNat, 2), ((6 : KReg).toNat, 1)] (sealing []) ∧
      rangeCond ((sealing []).wft.kpair 4) 0x10000 = none ∧ sealsTaken (sealing []) 64 < 256 ∧
      ({ asn := 0, base := 0x10000, len := 0x10000 } : SealEnt) ∈
        ((sealing [{ asn := 0, base := 0x10000, len := 0x10000 }]).viface 64).seals ∧
      ({ asn := 0, base := 0x10000, len := 0x10000 } : SealEnt) ∉ ((sealing []).viface 64).seals := by decide
theorem test_full_seal_table (n : Nat) : n ≤ sealsTaken (sealing (List.replicate n ⟨0, 0, 256⟩)) 64 :=
  le_trans (List.length_replicate (a := (⟨0, 0, 256⟩ : SealEnt))).ge (Nat.le_add_right _ _)
/-- SEAL and UNSEAL of a range that is not aligned, of an empty one, and of one whose last byte is not canonical. -/
def sealFailing (lo hi len : Word) : State :=
  { sealing [] with wefts := [(0, { wst := .active, k := [(4, lo), (5, hi), (6, len)] })] }
theorem test_seals_trap :
    ∀ s ∈ [sealFailing 0x8000 0 0x10000, sealFailing 0x10000 0 0, sealFailing 0x10000 0 0x8000,
        sealFailing 0xFFFF0000 0x00FFFFFF 0x20000],
      Issues .memory [] [((4 : KReg).toNat, 2), ((6 : KReg).toNat, 1)] s ∧
        (rangeCond (s.wft.kpair 4) (s.wft.kreg 6).toNat).isSome = true := by decide
/-- An install descriptor in the core's L1, and tickets whose code is BUSY, absent and final. -/
def installing : State :=
  let s := mapped (atIssue kernel [] [(4, 0x1000), (10, 7), (11, 8), (12, 9)])
  { s with
    cores := s.cores.map fun e => (e.1, { e.2 with l1 := [(0x1000, { valid := 15, data := [(18, 1), (24, 5)] })] })
    vis := [(64, { tickets := [{ ticket := 7, code := 2 }, { ticket := 8, code := 0 }] })] }
theorem test_installs :
    Issues .memory [] [((4 : KReg).toNat, 2)] installing ∧ lanesPending installing = false ∧
      installsOf installing 0 < 64 ∧ missStall installing [(installing.wft.kpair 4).toNat] = false ∧
      firstBreach (installChecks [(18, 1), (24, 5)] (ticketBusy installing 64)) = none ∧
      ticketCode installing 64 7 = 2 ∧ ticketCode installing 64 8 = 0 ∧ ticketCode installing 64 9 = 9 := by decide
theorem test_install_descriptor_reads :
    ∃ x u, descRead installing 0 (installing.wft.kpair 4) = (.ok (.ok (x, none)), u) := ⟨_, _, rfl⟩

/-- PINSTALL of an address that is not canonical, not aligned, and of descriptors that are refused at 0 and at 0x18. -/
def misinstalling (lo hi : Word) (data : Memory) : State :=
  { installing with
    wefts := [(0, { wst := .active, k := [(4, lo), (5, hi)] })]
    cores := installing.cores.map fun e => (e.1, { e.2 with l1 := [(0x10, { valid := 15, data := data })] }) }
theorem test_installs_trap :
    (∀ s ∈ [misinstalling 0x1000 0x01000000 [], misinstalling 0x1020 0 [], misinstalling 0x1000 0 []],
      Issues .memory [] [((4 : KReg).toNat, 2)] s ∧ lanesPending s = false ∧ ticketsFull s 64 = false ∧ installsOf s 0 < 64 ∧
        missStall s [(s.wft.kpair 4).toNat] = false ∧ ∀ l ∈ s.iss.lanes, (s.lane l).tst = .run) ∧
      canonical ((misinstalling 0x1000 0x01000000 []).wft.kpair 4) = false ∧
      ((misinstalling 0x1020 0 []).wft.kpair 4).toNat % 64 ≠ 0 ∧
      (firstBreach (installChecks [(0, 1)] (ticketBusy (misinstalling 0x1000 0 []) 64)) = some 0 ∧
        (Memory.read [(0, 1)] 0 8) % 65536 ≠ 0) ∧
      (let m : Memory := [(18, 1), (24, 7)]
       firstBreach (installChecks m (ticketBusy (misinstalling 0x1000 0 []) 64)) = some 0x18 ∧ m.read 0 8 % 65536 = 0 ∧
         m.read 8 8 % 256 = 0 ∧ m.read 0x10 8 = 65536 ∧ ticketBusy (misinstalling 0x1000 0 []) 64 (m.read 0x18 4) = true) := by
  decide
theorem test_refused_descriptors_read :
    ∃ x u, descRead (misinstalling 0x1000 0 [(0, 1)]) 0 ((misinstalling 0x1000 0 [(0, 1)]).wft.kpair 4) = (.ok (.ok (x, none)), u) ∧
      u.grids = (misinstalling 0x1000 0 [(0, 1)]).grids := ⟨_, _, rfl, rfl⟩

/-- CollectiveContribution: a member of a group of one rank. -/
def reducing : State :=
  let s := atIssue kernel [(4, 7)] []
  { s with grids := [(0, { stages := [kernel], vi := 64, groups := [(2, { first := 0, count := 1, weft := 0 })] })] }
theorem test_contribution :
    Issues .sync [((6 : VReg).toNat, 1), ((4 : VReg).toNat, 1)] [] reducing ∧
      Issues .sync [((6 : VReg).toNat, 2), ((4 : VReg).toNat, 2)] [] reducing ∧ reducing.iss.handler = false ∧
      wredBusy reducing = false ∧ memberCond reducing reducing.iss.blk reducing.iss.weft 2 { first := 0, count := 1, weft := 0 } = none ∧
      Sp.find? (reducing.grid 0).groups 2 = some { first := 0, count := 1, weft := 0 } := by decide

/-! ## Witnesses for the steps of the device -/

/-- Domain 0 is up and is the partition of virtual interface 64. The root table at 0x1000 maps the first GiB of
ASN 0 to itself, its A and D set. The context region of domain 0 has sixteen units. -/
def device : State :=
  { vis := [(64, { partmap := 1, roots := [(0, 0x1000)] })]
    domains := [(0, { st := 1, ctx := [(64, (0x800000, 0x100000))] })]
    mem := [(0x1000, 1), (0x1001, 0x20), (0x2000, 1), (0x2001, 0x30), (0x3000, 0x87), (0x3001, 0x09)] }

/-- A launch under way on the device, whose shares are met, with block 0 on core 0 in the state given. -/
def launched (k : Block) (x : Thread) : State :=
  { device with
    grids := [(0, { stages := [kernel], vi := 64, nextLin := [1], closed := true, shares := [0] })]
    blocks := [(0, k)]
    wefts := [(0, { wst := .active })]
    threads := (List.range 8).map fun l => (l, x)
    nextGid := 1
    nextBlk := 1 }
theorem exists_of_area_free {s : State} {base len : Nat} {m : Memory} {bad : List (Nat × Nat)} (h : areaBusy s base len = false) :
    ∃ v, putArea s base len m bad = .ok v := by
  rw [putArea, h]
  exact ⟨_, rfl⟩
/-- BlockSteps, PHASE_END: a draining block with nothing outstanding. -/
def draining : State := launched { bst := .draining } { tst := .wait, wait := .yield }
theorem test_phase_may_end :
    let len := phaseLen (draining.launch 0) true
    (draining.block 0).bst = .draining ∧ workDone draining 0 = true ∧ atYield draining 0 = true ∧
      (draining.grid 0).ended = false ∧ (draining.grid 0).book = none ∧ releaseTry draining 0 .dom = .ok draining ∧
      freeUnits (draining.setBlock 0 { draining.block 0 with record := none }) 64 0 (unitsOf len) = some 0x800000 ∧
      ∃ v, putArea draining 0x800000 len (tagged draining len (phaseRecord draining 0 true)) (phaseBad draining 0 true) = .ok v :=
  ⟨rfl, by decide, by decide +kernel, rfl, rfl, rfl, by decide, exists_of_area_free (by decide)⟩
/-- BLOCK_RETIRE: every thread is DONE. -/
def finished : State := launched { bst := .resident } { tst := .done }
theorem test_block_may_retire :
    (finished.block 0).bst = .resident ∧ (∀ w < (finished.launch 0).wefts, ∀ l < 32, (finished.thread 0 w l).tst.over = true) ∧
      workDone finished 0 = true ∧ (finished.grid 0).ended = false ∧ (finished.grid 0).book = none ∧
      releaseTry finished 0 .dom = .ok finished :=
  ⟨rfl, by decide +kernel, by decide, rfl, rfl, rfl⟩
/-- HAND_BLOCK and PLACE_BLOCK: the first block of a grid of two, and the same block handed. -/
def handing : State :=
  { device with
    grids := [(0, { stages := [{ kernel with nbid := (2, 1, 1) }], vi := 64, nextLin := [1] })]
    blocks := [(0, { hand := some 0 })]
    nextGid := 1
    nextBlk := 1 }
theorem test_block_may_be_handed :
    (handing.grid 0).live = true ∧ (handing.grid 0).book = none ∧ handHead handing 0 0 = some (1, none) ∧
      hintOf handing 0 0 1 = .ok (none, handing) ∧ handTo handing 0 0 none = some 0 :=
  ⟨by decide, rfl, by decide +kernel, rfl, by decide +kernel⟩
theorem test_block_may_be_placed :
    (∃ core spots, ((queueOrder handing).filterMap (queueChoice handing 0)).head? = some (.place 0 core spots)) ∧
      (handing.block 0).bst = .queued ∧ (handing.block 0).record = none ∧ (handing.block 0).area = none ∧
      (handing.block 0).left = none ∧ (switchCore handing 0 64).1 = true ∧ (handing.launch 0).width ≤ 32 ∧
      acquireReady handing 0 (handing.grid 0).scope = true :=
  ⟨⟨_, _, rfl⟩, rfl, rfl, rfl, rfl, rfl, by decide, by decide +kernel⟩
/-- CLUSTER_CONVERT: a fused cluster that has lost a core, and a head that asks for a fused cluster. -/
def broken : State := { device with domains := [(0, { st := 1, coremap := 2 ^ 36 - 2, fused := [0] })] }
def fusing : State :=
  { handing with grids := [(0, { stages := [{ kernel with flags := 2 }], vi := 64, nextLin := [1] })] }
theorem test_cluster_may_convert :
    mustUnfuse broken 0 0 = true ∧ (broken.domain 0).conv = none ∧ mustUnfuse fusing 0 0 = false ∧
      ∃ q ∈ queueOrder fusing, stuckHead fusing 0 q = true ∧ clusterFor fusing 0 q = some 0 :=
  ⟨by decide, rfl, by decide, (0, 0), by decide +kernel, by decide +kernel, by decide +kernel⟩
theorem test_cluster_conversion_may_end :
    (({ device with domains := [(0, { st := 1, conv := some (0, true) })] } : State).domain 0).conv = some (0, true) ∧
      ∀ c, (({ device with domains := [(0, { st := 1, conv := some (0, true) })] } : State).core c).l1 = [] :=
  ⟨rfl, fun _ => rfl⟩
/-- GRID_COMPLETE with a daybook and without, and GRID_END. -/
def booked : State :=
  { finished with grids := finished.grids.map fun e => (e.1, { e.2 with book := some { va := 0x50000 } }) }
theorem test_grid_may_end :
    (∃ x, Sp.find? finished.grids 0 = some x ∧ x.mill = none ∧ x.complete = false ∧ x.ended = false ∧ x.book = none) ∧
      sharesMet finished 0 = true ∧ (finished.viface 64).puts = [] ∧
      releaseCores (finished.grid 0).cores (finished.grid 0).scope finished = (true, finished) ∧
      (∃ x, Sp.find? booked.grids 0 = some x ∧ x.mill = none ∧ x.complete = false ∧ x.book.isSome = true) ∧
      sharesMet booked 0 = true :=
  ⟨⟨_, rfl, rfl, rfl, rfl, rfl⟩, by decide, rfl, rfl, ⟨_, rfl, rfl, rfl, rfl⟩, by decide⟩

/-- QueueSteps: a queue at VA 0x10000 whose entry at HEAD asks for a graph of one node at 0x20000, a COND. -/
def queued : State :=
  { device with
    queues := [(5, { base := 0x10000, enable := true, tail := 1 })]
    mem := device.mem ++ [(0x10000, 1), (0x10004, 1), (0x1000A, 2), (0x20000, 5), (0x20012, 3)] }
theorem test_doorbells :
    ownsQueue queued 64 5 = true ∧ ownsQueue queued 3 5 = false ∧ ownsQueue queued 64 65536 = false ∧
      (queued.queue 5).enable = true ∧ (16 + 2 ^ 32 - (queued.queue 5).head) % 2 ^ 32 ≤ 2 ^ (queued.queue 5).sizeLog ∧
      2 ^ (queued.queue 5).sizeLog < (2 ^ 16 + 1 + 2 ^ 32 - (queued.queue 5).head) % 2 ^ 32 ∧ (device.queue 5).enable = false ∧
      queued.cycle = {} := by decide
theorem test_entry_may_be_read :
    (queued.queue 5).graph = none ∧ (queued.queue 5).head ≠ (queued.queue 5).tail ∧
      ∃ m u, devRead queued 64 0 0x10000 64 = .ok (m, u) ∧ firstBreach (entryChecks m) = none :=
  ⟨rfl, by decide, _, _, rfl, by decide +kernel⟩
def pendingGraph : State :=
  queued.setQueue 5 { queued.queue 5 with graph := some { entry := [(0, 1), (4, 1), (10, 2)] } }
theorem test_graph_may_start :
    ∃ g nodes table u w, (pendingGraph.queue 5).graph = some g ∧ g.started = false ∧
      countersUsed pendingGraph 64 + g.entry.read 4 2 ≤ 262144 ∧ devRead pendingGraph 64 0 0x20000 64 = .ok (nodes, u) ∧
      devRead u 64 0 0 0 = .ok (table, w) ∧ nodeBreach (nodeBytes nodes 0) table 0 1 0 (bodyRanges nodes 1 0) = none :=
  ⟨_, _, _, _, _, rfl, rfl, by decide, rfl, rfl, by decide +kernel⟩
/-- A graph with one node of 64 bytes `par` in the state `x`; whether it is ready. -/
def graphOf (par : Memory) (x : NodeState) (ready : List Nat) : State :=
  queued.setQueue 5 { queued.queue 5 with
    graph := some { entry := [(0, 1), (4, 1), (10, 2)], started := true, ready := ready, nodes := [(0, { par := par, nst := x, reached := true })] } }
theorem test_graph_may_complete :
    (∃ g, ((graphOf [(0, 5)] .done []).queue 5).graph = some g ∧ g.over = true ∧ g.covered = false) ∧
    (let s := (graphOf [(0, 5)] .done []).modGraph 5 fun g => { g with covered := true }
     ∃ g, (s.queue 5).graph = some g ∧ g.over = true ∧ g.covered = true ∧ g.recordAt = none ∧ (s.viface 64).puts = [] ∧
       deviceQuietAt s g.scope = true) ∧
    (let s := (graphOf [(0, 5)] .done []).modGraph 5 fun g => { g with covered := true, entry := [(0, 1), (4, 1), (10, 2), (0x21, 1)] }
     ∃ g, (s.queue 5).graph = some g ∧ g.over = true ∧ g.covered = true ∧ g.recordAt = some 0x100 ∧ g.written < 4 ∧
       deviceQuietAt s g.scope = true) :=
  ⟨⟨_, rfl, by decide, rfl⟩, ⟨_, rfl, by decide, rfl, by decide, rfl, by decide⟩, ⟨_, rfl, by decide, rfl, by decide, by decide, by decide⟩⟩
/-- QCFG_WRITE of each register, at the limits of SIZELOG and VI, by the owner and by the physical function. -/
theorem test_queue_may_be_configured :
    let s : State := { queues := [(5, { vi := 3 })] }
    ownsQueue s 64 5 = true ∧ ownsQueue s 3 5 = true ∧ (s.queue 5).enable = false ∧
      (s.queue 5).head = (s.queue 5).tail ∧ (0x10000 : Nat) % 64 = 0 ∧
      (4 ≤ 0x400041 / 16 % 32 ∧ 0x400041 / 16 % 32 ≤ 16 ∧ 0x400041 / 2 ^ 16 % 128 ≤ 64) ∧
      (4 ≤ 0x101 / 16 % 32 ∧ 0x101 / 16 % 32 ≤ 16 ∧ (s.queue 5).vi ≤ 64) := by decide
theorem test_events_and_the_graph_daybook :
    (device.waiters = [] ∧ (5 : Nat) % 2 ^ 16 ≠ 0) ∧
      (({ device with vis := [(64, { gbookNext := some 0 })] } : State).viface 64).gbookNext = some 0 ∧
      ∀ e ∈ ({ device with vis := [(64, { gbookNext := some 0 })] } : State).queues, e.2.vi = 64 →
        ∀ h, e.2.graph = some h → h.book = false := ⟨by decide, rfl, fun _ h => nomatch h⟩
theorem test_graph_daybook_may_close :
    (({ device with vis := [(64, { gbookNext := some 0, gbook := some {} })] } : State).viface 64).gbook = some {} ∧
      (({ device with vis := [(64, { gbookNext := some 0 })] } : State).viface 64).gbook = none ∧
      (({ device with vis := [(64, { gbookNext := some 0 })] } : State).viface 64).puts = [] := by decide

/-- NodeSteps: a ready node of each kind. -/
theorem test_nodes_may_start :
    ∀ k < 9, 1 ≤ k → startable (graphOf [(0, BitVec.ofNat 8 k)] .ready [0]) 5 0 k = true := by decide +kernel
/-- A KERNEL node whose record at 0x40000 is lawful, refused, misplaced or unreachable; and a MILL node likewise, its
header at 0x50000 and its one stage at 0x60000. -/
def record (at_ kind : Nat) : Memory :=
  [(at_, BitVec.ofNat 8 kind), (at_ + 2, 1), (at_ + 0x10, 1), (at_ + 0x14, 1), (at_ + 0x16, 1), (at_ + 0x18, 1), (at_ + 0x1A, 1),
    (at_ + 0x1C, 1), (at_ + 0x1E, 8), (at_ + 0x1F, 1), (at_ + 0x62, 8), (at_ + 0x63, 1)]
def launching (kind : Byte) (va : List (Nat × Byte)) : State :=
  let s := graphOf ((0, kind) :: va) .ready [0]
  { s with
    domains := [(0, { s.domain 0 with walks := [⟨64, 0, 4, 0, 0x2000⟩, ⟨64, 0, 3, 0, 0x3000⟩] })]
    mem := device.mem ++ [(0x10000, 1)] ++ record 0x40000 1 ++
      [(0x50000, 3), (0x50002, 1), (0x50008, 1), (0x5000B, 10), (0x5000C, 1), (0x50012, 6)] ++
      record 0x60000 2 ++ [(0x600C0, 1), (0x600C2, 1), (0x600C4, 1)] }
/-- An INSTALL node whose descriptor at 0x40000 is lawful, one at 0x10000 that is refused, and ones misplaced and out of
reach; EVENT and WAIT nodes of event 5. -/
def installingAt (va : List (Nat × Byte)) : State :=
  let s := graphOf ((0, 4) :: va) .ready [0]
  { s with mem := device.mem ++ [(0x10000, 1), (0x40012, 1), (0x40018, 7)] }
theorem test_install_nodes_may_start :
    startable (installingAt [(0x12, 4)]) 5 0 4 = true ∧
      (∃ m u, devRead (startNode (installingAt [(0x12, 4)]) 5 0) 64 0 0x40000 64 = .ok (m, u) ∧
        u.queues = (startNode (installingAt [(0x12, 4)]) 5 0).queues ∧
        firstBreach (installChecks m (ticketBusy u 64)) = none ∧ ticketsFull u 64 = false) ∧
      (∃ m u, devRead (startNode (installingAt [(0x12, 1)]) 5 0) 64 0 0x10000 64 = .ok (m, u) ∧
        u.queues = (startNode (installingAt [(0x12, 1)]) 5 0).queues ∧ firstBreach (installChecks m (ticketBusy u 64)) = some 0) ∧
      (∃ va u, devRead (startNode (installingAt [(0x17, 1)]) 5 0) 64 0 (2 ^ 56) 64 = .fault va u ∧
        u.queues = (startNode (installingAt [(0x17, 1)]) 5 0).queues) ∧ ((installingAt [(0x10, 1)]).node 5 0).f 0x10 8 % 64 ≠ 0 :=
  ⟨by decide +kernel, ⟨_, _, rfl, rfl, by decide +kernel, by decide +kernel⟩, ⟨_, _, rfl, rfl, by decide +kernel⟩, ⟨_, _, rfl, rfl⟩,
    by decide⟩
theorem test_event_nodes_may_start :
    let s := fun kind => graphOf [(0, kind), (0x10, 5), (0x14, 1)] .ready [0]
    startable (s 7) 5 0 7 = true ∧ startable (s 8) 5 0 8 = true ∧ (s 8).cycle.joined = false ∧ (s 7).waiters = [] ∧
      ((s 7).node 5 0).f 0x10 2 = 5 ∧ (5, 0) ∉ (s 8).waiters ∧
      Sp.get 0 ((s 8).viface 64).events 5 < ((s 8).node 5 0).f 0x14 4 ∧
      ((graphOf [(0, 8), (0x10, 5)] .ready [0]).node 5 0).f 0x14 4 ≤ Sp.get 0 ((graphOf [(0, 8), (0x10, 5)] .ready [0]).viface 64).events 5 := by
  decide +kernel
/-- A running COPY of 100 bytes from 0x30000 to 0x40010, and one that starts: its first piece. -/
def copyNode (x : NodeState) (ready : List Nat) : State :=
  graphOf [(0, 3), (0x10, 0x10), (0x12, 4), (0x1A, 3), (0x20, 100)] x ready
theorem test_copy_may_move :
    (let s := copyNode .running []
     runningNode s 5 0 3 = true ∧ (s.node 5 0).pos < (s.node 5 0).f 0x20 8 ∧ startable s 5 0 3 = false ∧
      ∃ u v w, devGet s 64 0 0x30000 48 = .ok (v, u) ∧ devPut u 64 0 0x40010 48 v = .ok w ∧ w.queues = s.queues) ∧
    (let s := copyNode .ready [0]
     startable s 5 0 3 = true ∧ 0 < (s.node 5 0).f 0x20 8 ∧
      ∃ u v w, devGet (startNode s 5 0) 64 0 0x30000 48 = .ok (v, u) ∧ devPut u 64 0 0x40010 48 v = .ok w ∧
        w.queues = (startNode s 5 0).queues) :=
  ⟨⟨by decide, by decide, by decide, _, _, _, rfl, rfl, rfl⟩, by decide, by decide, _, _, _, rfl, rfl, rfl⟩
/-- The predicates of a COND and of a LOOP, the LOOP at its limit and below it. -/
theorem test_predicates_read :
    (let s := graphOf [(0, 5), (0x12, 3)] .ready [0]
     ((s.queue 5).graph.map Graph.book) = some false ∧ ∃ v u, predicate s 5 0 = .ok (some v, u) ∧ u.queues = s.queues) ∧
    (let s := graphOf [(0, 6), (0x12, 3), (0x1E, 1)] .ready [0]
     (∃ v u, predicate s 5 0 = .ok (some v, u) ∧ u.queues = s.queues) ∧ (s.node 5 0).iter < (s.node 5 0).f 0x1E 2) ∧
    (let s := graphOf [(0, 6), (0x12, 3)] .ready [0]
     (s.node 5 0).f 0x1E 2 ≤ (s.node 5 0).iter) :=
  ⟨⟨rfl, _, _, rfl, rfl⟩, ⟨⟨_, _, rfl, rfl⟩, by decide⟩, by decide⟩
/-- A LOOP that may re-arm: its body, node 1, is idle. -/
theorem test_loop_may_rearm :
    let s := graphOf [(0, 6), (0x20, 1), (0x22, 1)] .rearm []
    (s.node 5 0).nst = .rearm ∧ ∀ m, (s.node 5 0).f 0x20 2 ≤ m → m ≤ (s.node 5 0).f 0x22 2 →
      (s.node 5 m).nst ≠ .ready ∧ (s.node 5 m).nst ≠ .running ∧ (s.node 5 m).nst ≠ .rearm := by
  intro s
  refine ⟨rfl, fun m h1 h2 => ?_⟩
  obtain rfl : m = 1 := le_antisymm h2 h1
  decide
/-- A node with each outcome. -/
theorem test_nodes_may_complete :
    (let s := (graphOf [(0, 5)] .running []).setNode 5 0 { par := [(0, 5)], nst := .running, res := some (0, 0) }
     (s.node 5 0).nst = .running ∧ (s.node 5 0).res = some (0, 0) ∧ deviceQuiet s = true) ∧
    (let s := (graphOf [(0, 3)] .running []).setNode 5 0 { par := [(0, 3)], nst := .running, res := some (0x30, 64) }
     (s.node 5 0).res = some (0x30, 64) ∧ ((s.node 5 0).f 1 1).testBit 0 = false ∧
       ∃ g, (s.queue 5).graph = some g ∧ g.status = 0) := ⟨⟨rfl, rfl, by decide⟩, rfl, rfl, _, rfl, rfl⟩

/-- MemoryOperationSteps: an operation `o` of the block on core 0. -/
def operating (o : MemOp) : State :=
  { launched { bst := .resident } { tst := .run, pc := 0x10004 } with ops := [(3, o)], nextOp := 4 }
/-- A held load, whose page permits it. -/
def heldLoad : MemOp := { lanes := [{ lane := 31, addr := 0x30000 }] }
theorem test_walk_translates :
    heldLoad.lane? 31 = some { lane := 31, addr := 0x30000 } ∧
      ∃ p u, translate (operating heldLoad) 0 64 0 0x30000 heldLoad.acc.pageUse = (.ok p, u) ∧
        checkAccess u heldLoad { lane := 31, addr := 0x30000 } p = none ∧ u.ops = (operating heldLoad).ops ∧
        u.threads = (operating heldLoad).threads ∧ heldLoad.acc.space ≠ .spm ∧ heldLoad.acc.space ≠ .cluster :=
  ⟨rfl, _, _, rfl, by decide, rfl, rfl, by decide, by decide⟩
/-- A scratchpad access that was captured and stands to be checked again. -/
theorem test_scratchpad_access_is_checked_again :
    let o : MemOp := { acc := { space := .spm }, lanes := [{ lane := 31, addr := 1020 }] }
    o.lane? 31 = some { lane := 31, addr := 1020 } ∧
      spmCond o.acc o.acc.space.code 1020 ((o.target (operating o)).map fun b => ((operating o).launch b).spm) = none := by decide
/-- A scratchpad store at its place, in the last word of the allocation. -/
def readyStore : MemOp :=
  { acc := { space := .spm, fn := .store }, lanes := [{ lane := 31, addr := 1020, data := 9, st := .ready 1020 false false }] }
theorem test_store_at_its_place :
    let s := operating readyStore
    let a : LaneAcc := { lane := 31, addr := 1020, data := 9, st := .ready 1020 false false }
    s.op? 3 = some readyStore ∧ readyStore.lane? (31 % 32) = some a ∧ readyStore.acc.releases = false ∧ readyStore.acc.acquires = false ∧
      a.left = 1 ∧ a.trip = .none ∧ mustWait s 3 readyStore a = false ∧
      ∀ i < readyStore.acc.size, Sp.find? (s.block a.aux).spmBad ((a.addr + i) / 4) = none := by decide
/-- A store and an atomic at their home, in the last word of a line. -/
def readyGlobal (fn : AccFn) : MemOp :=
  { acc := { space := .global, fn := fn, scope := .waf }, lanes := [{ lane := 31, addr := 0x300FC, data := 9, st := .ready 0x300FC false false }] }
theorem test_global_accesses_at_their_home :
    (∀ fn ∈ [AccFn.store, .atom .add], let s := operating (readyGlobal fn)
      let a : LaneAcc := { lane := 31, addr := 0x300FC, data := 9, st := .ready 0x300FC false false }
      s.op? 3 = some (readyGlobal fn) ∧ (readyGlobal fn).lane? (31 % 32) = some a ∧ a.left = 1 ∧ a.trip = .none ∧
        (∀ e ∈ s.vis, e.2.mig.status ≠ 1 ∧ e.2.mig.status ≠ 2) ∧ mustWait s 3 (readyGlobal fn) a = false ∧
        homeOf 0x300FC = domOf (readyGlobal fn).core ∧ 0x300FC % 256 + (readyGlobal fn).acc.size ≤ 256 ∧
        (s.grid (s.block 0).gid).book = none) ∧
      homeReach (operating (readyGlobal .store)) 0 (lineOf 0x300FC) = .ok (operating (readyGlobal .store)) ∧
      (readyGlobal (.atom .add)).isAtomic = true ∧
      ∃ u, atomPrepare (operating (readyGlobal (.atom .add))) 0 (lineOf 0x300FC) = .ok u ∧ u.homeBad 0x300FC 4 = none ∧
        u.vis = (operating (readyGlobal (.atom .add))).vis ∧ u.ops = (operating (readyGlobal (.atom .add))).ops ∧
        u.threads = (operating (readyGlobal (.atom .add))).threads :=
  ⟨by decide +kernel, rfl, rfl, _, rfl, by decide, rfl, rfl, rfl⟩
/-- A finished load, and operations of the other kinds. -/
theorem test_operations_may_complete :
    (let o : MemOp := { lanes := [{ lane := 31, addr := 0, st := .served }] }
     opFinished (operating {}) o = true ∧ o.onLink = false) ∧
      (let o : MemOp := { acc := { space := .host, fn := .store }, lanes := [{ lane := 31, addr := 0, st := .ready 0 false false, link := true }] }
       opFinished (operating {}) o = true ∧ o.onLink = true) ∧
      (∃ u, opRelease (operating { kind := .unsealed }) 3 { kind := .unsealed } .waf = .ok u) ∧
      (∃ u, fenceTry (operating { kind := .fence .sc .sys }) 3 { kind := .fence .sc .sys } .sc .sys = .ok u) ∧
      (operating { kind := .sealed }).op? 3 = some { kind := .sealed } ∧
      ((operating { kind := .unsealOp 0 65536 }).op? 3).map MemOp.kind = some (.unsealOp 0 65536) :=
  ⟨by decide, by decide, ⟨_, rfl⟩, ⟨_, rfl⟩, rfl, rfl⟩
/-- Chapter 25's example: the host address of a physical address in domain 4. -/
theorem test_host_place :
    hostPlace device (4 * 2 ^ 46 + 0x300000012340) = .host 0x12340 := by decide

/-- AddressSpaceSteps: a park-pending weft with a free place; an invalidation at its home and in a queue. -/
def pendingPark : State :=
  { launched { bst := .resident } {} with
    wefts := [(0, { wst := .parked, park := some {}, pending := true })]
    pendq := [(0, 0)] }
theorem test_park_may_be_admitted :
    parkedIn pendingPark 0 < 1024 ∧
      pendingPark.pendq.find? (fun x => domOf (pendingPark.block x.1).core == 0) = some (0, 0) := by decide
def invalidating : State :=
  { device with
    vis := [(64, { partmap := 3 })]
    domains := [(0, { st := 1, busy := [⟨5, 1, 0⟩] }), (1, { st := 1, invq := [(3, [5])] })] }
/-- A message and its answer cross where each does in either class. -/
theorem wayTo_of_classes {s : State} {d e : Nat} (hp : (s.partOf d).testBit e = true)
    (h : ∀ c < 2, sendWay s d e c = .crosses ∧ sendWay s e d c = .crosses) : wayTo s d e = .crosses := by
  rw [wayTo, (h _ (Nat.mod_lt _ (by decide))).1, (h _ (Nat.mod_lt _ (by decide))).2, hp]
  simp
/-- An entry's line with no copy, a clean copy and one that holds a dirty byte. -/
def holdingLine (cs : Sp CLine) : State :=
  { invalidating with domains := [(0, { st := 1 }), (1, { st := 1, invq := [(3, [5])], remote := cs })] }
theorem test_lines_may_be_invalidated :
    (holdingLine []).remLine 1 5 = none ∧
      ((holdingLine [(5, { valid := 15 })]).remLine 1 5).map CLine.dirty = some 0 ∧
      ((holdingLine [(5, { valid := 15, dirty := 1 })]).remLine 1 5).map CLine.dirty = some 1 ∧
      Sp.get [] ((holdingLine []).domain 1).invq 3 = [5] := by decide
theorem test_invalidations :
    (invalidating.domain 0).busy.find? (fun i => i.line == 5 && i.target == 1) = some ⟨5, 1, 0⟩ ∧
      wayTo invalidating 0 1 = .crosses ∧ (Sp.get [] (invalidating.domain 1).invq (bankOf invalidating 1 5)).length < 64 ∧
      (({ device with domains := [(0, { st := 1, snoops := [⟨5, 64, 0⟩] })] } : State).domain 0).snoops.find?
        (fun i => i.line == 5 && i.target == 64) = some ⟨5, 64, 0⟩ ∧
      Sp.get [] (invalidating.domain 1).invq 3 = 5 :: [] ∧ (invalidating.domain 1).remote = [] :=
  ⟨by decide, wayTo_of_classes (by decide) (by decide +kernel), by decide, by decide, rfl, rfl⟩
/-- TLBINV with GO and without; TLBINV_DONE with GO set, nothing outstanding and empty L1s. -/
theorem test_tlb_invalidation :
    (0x80000005 : Nat).testBit 31 = true ∧ (5 : Nat).testBit 31 = false ∧
      (({ vis := [(64, { tlbinv := 2 ^ 31 })] } : State).viface 64).tlbinv.testBit 31 = true ∧
      (∀ e ∈ ({ vis := [(64, { tlbinv := 2 ^ 31 })] } : State).cores, e.2.copies = []) ∧
      (∀ c, (({ vis := [(64, { tlbinv := 2 ^ 31 })] } : State).core c).l1 = []) :=
  ⟨by decide, by decide, by decide, fun _ h => (nomatch h), fun _ => rfl⟩
theorem test_hash_may_change :
    (∀ e ∈ device.blocks, e.2.bst = .resident ∨ e.2.bst = .draining → domOf e.2.core ≠ 0) ∧ (device.domain 0).remote = [] :=
  ⟨fun _ h => (nomatch h), rfl⟩
/-- MIGRATE in its three states. -/
def migrating (st : Nat) : State :=
  { device with vis := [(64, { partmap := 3, mig := { old := 0x10000, new := 2 ^ 46, sz := 1, status := st } })] }
theorem test_migrations :
    ((device.viface 64).mig.status ≠ 1 ∧ (device.viface 64).mig.status ≠ 2) ∧
      (((migrating 1).viface 64).mig.status = 1 ∧ (∀ e ∈ (migrating 1).domains, e.2.owned = []) ∧
        ((migrating 1).domain (homeOf 0x10000)).busy = []) ∧ (migrating 1).mem.wf = true ∧
      (((migrating 2).viface 64).mig.status = 2 ∧ ((migrating 2).viface 64).tlbinv.testBit 31 = false) := by decide
theorem test_migration_may_cross : wayTo (migrating 1) (homeOf 0x10000) (homeOf (2 ^ 46)) = .crosses :=
  wayTo_of_classes (by decide) (by decide +kernel)
theorem test_migration_may_finish : ∃ u, purgeFrame (migrating 2) 64 0x10000 (2 ^ szBits 1) = (true, u) := ⟨_, rfl⟩

/-- EngineSteps: a copy either way with a piece to move and one whose page is still to find, and one with none. -/
def copyingOf (k : CopyKind) (es : List Elem) : Copy := { kind := k, op := 3, pend := es }
def inFlight (c : Copy) : State :=
  { launched { bst := .resident } {} with cores := [(0, { copies := [(2, c)] })] }
def twoPieces : List Elem :=
  [{ spm := 0, va := 0x30000, n := 4, pa := some 0x30000 }, { spm := 4, va := 0x30100, n := 4 }]
theorem test_copies_move :
    (∀ k ∈ [CopyKind.load, .store], let s := inFlight (copyingOf k twoPieces)
      (s.copy? 0 2 = some (copyingOf k twoPieces) ∧ (copyingOf k twoPieces).open_ = twoPieces.take 1) ∧
        (∀ y ∈ twoPieces, sourceLost s 0 (copyingOf k twoPieces) 0x30000 false y = false) ∧
        (∀ v ∈ s.vis, v.2.mig.status ≠ 1 ∧ v.2.mig.status ≠ 2) ∧ regionOf s 0x30000 = .dram ∧
        homeOf 0x30000 = domOf 0 ∧ s.l1Line (sliceOf s 0 (lineOf 0x30000)) (lineOf 0x30000) = none) ∧
      (∀ k, homeGate (inFlight (copyingOf k twoPieces)) (lineOf 0x30000) = .ok (inFlight (copyingOf k twoPieces)) ∧
        l2Gate (inFlight (copyingOf k twoPieces)) 0 (lineOf 0x30000) = .ok (inFlight (copyingOf k twoPieces))) ∧
      ∃ x, (inFlight (copyingOf .store [])).copy? 0 2 = some x ∧ x.kind = .store ∧ x.fault = none ∧ x.pend = [] ∧ x.bar = none :=
  ⟨by decide +kernel, fun _ => ⟨rfl, rfl⟩, _, rfl, rfl, rfl, rfl, rfl⟩
/-- An array whose queue holds one command of parameter block `par`, with slot 0 as given. -/
def commanding (par : Memory) (slots : Sp WSlot) (res : Option Nat) (gated : Nat) : State :=
  { launched { bst := .resident } {} with
    cores := [(0, { arrays := [(0, { slots := slots, gated := gated, queue := [{ blk := 0, weft := 0, op := 3, seq := 0, off := 0x80, par := par, res := res }] })] })] }
theorem test_commands_may_run :
    (let s := commanding [(0, 1), (2, 1), (5, 1)] [] none 0
     ∃ c, mxHead s 0 0 1 = some c ∧ c.f 2 1 = 1 ∧ c.view.sparse = false ∧ spmPoisoned s c.blk (c.f 8 4) c.view.bytes = false ∧
       (s.block c.blk).was = []) ∧
    (let s := commanding [(0, 2), (2, 1), (6, 1)] [] none 0
     ∃ c, mxHead s 0 0 2 = some c ∧ (Sp.get {} (s.array 0 0).slots c.slot).valid = false) ∧
    (let s := commanding [(0, 2), (2, 1), (6, 1)] [(0, { valid := true })] none 0
     ∃ c, mxHead s 0 0 2 = some c ∧ (Sp.get {} (s.array 0 0).slots c.slot).valid = true ∧ c.f 2 1 = 1 ∧ c.f 4 1 ≠ 6 ∧
       c.f 8 4 + (c.f 6 2 - 1) * c.f 0xC 4 + (Sp.get {} (s.array 0 0).slots c.slot).view.kw * mxSize (c.f 4 1) ≤ (s.launch c.blk).spm ∧
       (s.block c.blk).was = [] ∧ (s.block c.blk).spmBad = [] ∧ (s.array 0 0).accBad = []) ∧
    (∀ k ∈ ([3, 4] : List Byte), let s := commanding [(0, k), (6, 1)] [] none 0
     (mxHead s 0 0 k.toNat).isSome = true ∧ (mxHead s 0 0 k.toNat).map (·.f 4 1) = some 0 ∧ (s.block 0).was = [] ∧
       (s.block 0).spmBad = [] ∧ (s.array 0 0).accBad = []) ∧
    (let s := commanding [(0, 5)] [] none 1
     ∃ c, mxHead s 0 0 5 = some c ∧ mxUndelivered s c.blk 0 = []) ∧
    (∃ c q, ((commanding [(0, 2)] [] (some 4) 0).array 0 0).queue = c :: q ∧ c.res = some 4 ∧ Sp.rising 0 c.land = true) :=
  ⟨⟨_, rfl, rfl, rfl, rfl, rfl⟩, ⟨_, rfl, rfl⟩, ⟨_, rfl, rfl, rfl, by decide, by decide, rfl, rfl, rfl⟩, by decide +kernel,
    ⟨_, rfl, rfl⟩, ⟨_, _, rfl, rfl, rfl⟩⟩
/-- The arithmetic of a STREAM, for an integer and a float format; and a DRAIN whose rows are a stride apart. -/
theorem test_stream_formats :
    ({} : WSlot).view.sparse = false ∧ ({} : WSlot).view.scaled = false ∧ ({} : WSlot).view.kpass = 1 ∧
      (∃ af, mxGroup af = 2) ∧ (∃ af, mxGroup af < 2) ∧
      (let c : MxCmd := { blk := 0, weft := 0, op := 3, seq := 0, off := 0x80, par := [(0, 4), (0xC, 128)] }
       c.f 4 1 ≠ 7 ∧ 32 * accSize (c.f 4 1) ≤ c.f 0xC 4) := by
  refine ⟨rfl, rfl, rfl, ⟨5, by decide⟩, ⟨0, by decide⟩, by decide⟩
/-- A LOADW from the weight bank, whose page stands in a VALID frame. -/
def fromBank : State :=
  { launched { bst := .resident } {} with
    cores := [(0, { tlb := [{ vi := 64, va := 0x40000000, bits := 16, pa := 0x100000000000, r := true, plate := true }]
                    bank := [(1, { tag := 0x100000000000, valid := true })]
                    arrays := [(0, { queue := [{ blk := 0, weft := 0, op := 3, seq := 0, off := 0x80, par := [(0, 1), (5, 1), (0xB, 0x40)] }] })] })] }
theorem test_weights_may_come_from_the_bank :
    ∃ c u, mxHead fromBank 0 0 1 = some c ∧ c.view.sparse = false ∧ (fromBank.block c.blk).was = [] ∧ c.f 2 1 = 0 ∧
      bankAddr fromBank 0 c = (some (some 0x100000000000), u) ∧ u.blocks = fromBank.blocks ∧
      u.array 0 0 = fromBank.array 0 0 ∧ ∃ f, frameOf u 0 0x100000000000 = some (1, f) ∧ f.valid = true ∧
        f.poisoned 0 c.view.bytes = false :=
  ⟨_, _, rfl, rfl, rfl, rfl, rfl, rfl, rfl, _, rfl, rfl, by decide +kernel⟩
/-- A command that waits for a plate page, and the frame that stages it; the four quarters of an idle array. -/
def staging : State :=
  { device with
    cores := [(0, { bank := [(1, { tag := 0x100000010000 })], arrays := [(0, { queue :=
      [{ blk := 0, weft := 0, op := 3, seq := 0, off := 0x80, par := [(0, 1)], need := some 0x100000000000 }] })] })] }
theorem test_weights_may_stage :
    bankNeed staging 0 = some 0x100000000000 ∧ missFrame staging 0 = some 0 ∧
      wayTo staging (domOf 0) (homeOf 0x100000000000) = .crosses ∧
      ∃ f, Sp.find? (staging.core 0).bank 1 = some f ∧ f.valid = false ∧ f.stale = false ∧ f.lost = false ∧ f.bad = none :=
  ⟨by decide, by decide +kernel, rfl, _, rfl, rfl, rfl, rfl, rfl⟩
theorem test_power_gates :
    ((device.domain (domOf 0)).mxIdle ≠ 0 ∧ (device.array 0 0).queue = [] ∧ 3 < 4) ∧
      (let s := commanding [(0, 2)] [] none 8
       (∃ c q, (s.array 0 0).queue = c :: q ∧ c.f 0 1 ≠ 5) ∧ (s.array 0 0).gated.testBit 3 = true) :=
  ⟨by decide, ⟨_, _, rfl, by decide⟩, by decide⟩

/-- PlateSteps: the first plate page at VA 0 of ASN 1; an install of one page from VA 0x50000 of ASN 0, whose page
stands in the state given. -/
def engravedPage (p : PageState) (slot : Nat) : InstPage := { dest := 0x100000000000, src := 0x50000, pst := p, slot := slot }
def install (acc : Option Nat) (ps : List InstPage) : Install :=
  { ticket := 7, src := 0x50000, len := 65536, accepted := acc, pages := ps, asn := if acc.isSome then 0 else 1 }
def engraving (x : Install) (used : Nat) : State :=
  { device with
    vis := [(64, { device.viface 64 with roots := [(0, 0x1000), (1, 0x4000)], ibudget := 65536, tickets := [x] })]
    domains := [(0, { st := 1, fblocks := [(5, { used := used })], plateMap := [(3, ⟨330, 1⟩)]
                      walks := [⟨64, 0, 4, 0, 0x2000⟩, ⟨64, 0, 3, 0, 0x3000⟩] })]
    mem := device.mem ++ [(0x4000, 1), (0x4001, 0x50), (0x5000, 1), (0x5001, 0x60), (0x6000, 1), (0x6001, 0x70),
      (0x7000, 1), (0x7001, 0x80), (0x8000, 0xA7), (0x8001, 0x02), (0x8005, 0x10)] }
theorem test_install_may_be_accepted :
    let x := install none []
    ((engraving x 0).viface 64).tickets.find? (fun t => t.code == 2 && t.accepted.isNone) = some x ∧ x.ticket = 7 ∧
      (∃ u, destPages 64 x 1 0 (engraving x 0) [] = .ok (some [engravedPage .queued 0], u)) ∧
      x.len ≤ ((engraving x 0).viface 64).ibudget := ⟨by decide, rfl, ⟨_, rfl⟩, by decide⟩
theorem test_ticket_may_be_aborted :
    let x := install (some 1) [engravedPage .queued 0]
    busyInstalls (engraving x 0) 64 7 = [x] ∧ x.code = 2 ∧ (∀ y ∈ x.pages, y.pst.final = false ∧ y.pst ≠ .switching) ∧
      x.fail = none := by decide
theorem test_page_may_be_read :
    let x := install (some 1) [engravedPage .queued 0]
    pageOf (engraving x 0) 64 7 0 .queued = some (x, engravedPage .queued 0) ∧
      (∀ y ∈ x.pages.take 0, y.pst = .queued → homeOf y.dest ≠ 0) ∧ x.skip = false := by decide +kernel
theorem test_page_may_be_programmed :
    let x := install (some 1) [engravedPage .programming 0]
    pageOf (engraving x 7) 64 7 0 .programming = some (x, engravedPage .programming 0) ∧
      5 ∉ (engravedPage .programming 0).tried ∧ 5 ∈ openBlocks ((engraving x 7).domain 0) [] := by decide
theorem test_page_may_be_verified_and_switched :
    (let x := install (some 1) [engravedPage .verifying 320]
     pageOf (engraving x 1) 64 7 0 .verifying = some (x, engravedPage .verifying 320)) ∧
    (let x := install (some 1) [engravedPage .switching 320]
     pageOf (engraving x 1) 64 7 0 .switching = some (x, engravedPage .switching 320) ∧
       switchBlocked (engraving x 1) x (engravedPage .switching 320) = false ∧
       switchStep (engraving x 1) (engravedPage .switching 320) = .idle ∧ (engravedPage .switching 320).keeps = false) := by decide
/-- A switch whose map entry names the slot given, and two frames of a bank, one of them of the page. -/
def switching (slot : Nat) : State :=
  let s := engraving (install (some 1) [engravedPage .switching 320]) 1
  { s with
    domains := [(0, { s.domain 0 with switching := [(platePage 0x100000000000, some 330)], plateMap := [(0, ⟨slot, 1⟩)] })]
    cores := [(0, { bank := [(0, { valid := true, tag := 0x100000000000 }), (1, { valid := true, tag := 0x100000010000 })] })] }
theorem test_switch_may_end :
    let x := install (some 1) [engravedPage .switching 320]
    pageOf (switching 320) 64 7 0 .switching = some (x, engravedPage .switching 320) ∧
      switchStep (switching 320) (engravedPage .switching 320) = .written ∧
      switchStep (switching 321) (engravedPage .switching 320) = .other ∧
      ((switching 320).partOf (homeOf 0x100000000000)).testBit (domOf 0) = true := by decide
theorem test_switch_drops_the_old_frame :
    ∃ t, exec (.plateSwitch 64 7 0) (switching 320) = .next t ∧ Sp.find? (t.core 0).bank 0 = none ∧
      (Sp.find? (t.core 0).bank 1).map Frame.valid = some true := ⟨_, rfl, by decide, by decide⟩
/-- The 64 KiB that ENGRAVE_READ reads. -/
theorem devReadAll_answers (s : State) (vi asn base : Nat) :
    ∀ (ps : List (Nat × Nat)) (m : Memory), (∀ p ∈ ps, ∃ v, devGet s vi asn p.1 p.2 = .ok (v, s)) →
      ∃ r, devReadAll vi asn base ps s m = .ok r
  | [], m, _ => ⟨_, rfl⟩
  | p :: ps, m, h => by
    obtain ⟨v, hv⟩ := h p (.head _)
    rw [devReadAll, hv]
    exact devReadAll_answers s vi asn base ps _ fun q hq => h q (.tail _ hq)

/-- The leaf that the walk of a low VA reads. -/
theorem lowLeaf :
    let s := engraving (install (some 1) [engravedPage .queued 0]) 0
    s.homeBad 0x3000 8 = none ∧ s.homeRead 0x3000 8 = 0x987 ∧
      ∀ x, readPte s 0 x 2 0x987 = .leaf { asn := 0, va := x / 2 ^ 30 * 2 ^ 30, bits := 30, pa := 0, r := true, w := true, d := true } :=
  ⟨by decide +kernel, by decide +kernel, fun x => by
    rw [readPte]
    simp only
    rw [if_neg (by decide), if_neg (by decide), if_neg (by decide), if_neg (by decide +kernel), if_neg (by decide +kernel)]
    rfl⟩
theorem leadDom_engraving : (engraving (install (some 1) [engravedPage .queued 0]) 0).leadDom 64 = 0 := by decide +kernel

theorem walk_low (va : Nat) (h : va < 2 ^ 30) :
    let s := engraving (install (some 1) [engravedPage .queued 0]) 0
    domainWalk s 0 64 0 (va % 2 ^ 57) = (some (.ok 0x3000 { asn := 0, va := 0, bits := 30, pa := 0, r := true, w := true, d := true }), s) := by
  intro s
  have h4 : va % 2 ^ 57 / 2 ^ (12 + 9 * 4) = 0 := by omega
  have h3 : va % 2 ^ 57 / 2 ^ (12 + 9 * 3) = 0 := by omega
  have h2 : va % 2 ^ 57 / 2 ^ (12 + 9 * 2) = 0 := by omega
  have h1 : va % 2 ^ 57 / 2 ^ 30 * 2 ^ 30 = 0 := by omega
  have f4 : (s.domain 0).walks.find? (·.is 64 0 4 (va % 2 ^ 57)) = some ⟨64, 0, 4, 0, 0x2000⟩ := by
    simp only [WalkEnt.is, h4]
    rfl
  have f3 : (s.domain 0).walks.find? (·.is 64 0 3 (va % 2 ^ 57)) = some ⟨64, 0, 3, 0, 0x3000⟩ := by
    simp only [WalkEnt.is, h3]
    rfl
  have f2 : (s.domain 0).walks.find? (·.is 64 0 2 (va % 2 ^ 57)) = none := by
    simp only [WalkEnt.is, h2]
    rfl
  have e2 : readEntry s 0 (va % 2 ^ 57) 2 0x3000 =
      (0x3000, .ok (.leaf { asn := 0, va := 0, bits := 30, pa := 0, r := true, w := true, d := true })) := by
    have hb : s.homeBad 0x3000 8 = none := lowLeaf.1
    have hr : s.homeRead 0x3000 8 = 0x987 := lowLeaf.2.1
    rw [readEntry, h2]
    show (_, match s.homeBad 0x3000 8 with | some r => _ | none => Except.ok (readPte s 0 _ 2 (s.homeRead 0x3000 8))) = _
    rw [hb, hr]
    show (_, Except.ok (readPte s 0 _ 2 0x987)) = _
    rw [lowLeaf.2.2, h1]
  have hw : walkVia s 0 64 0 (va % 2 ^ 57) 5 0x1000 =
      { res := some (.ok 0x3000 { asn := 0, va := 0, bits := 30, pa := 0, r := true, w := true, d := true }) } := by
    simp only [walkVia, f4, f3, f2, e2]
    rfl
  rw [domainWalk, if_neg (by decide), show rootOf s 64 0 = 0x1000 from rfl, hw]
  rfl

theorem canonical_low (va : Nat) (h : va < 2 ^ 30) : canonical (BitVec.ofNat 64 va) = true := by
  rw [canonical, beq_iff_eq]
  apply BitVec.eq_of_toNat_eq
  have hm : ((BitVec.ofNat 64 va).extractLsb' 0 57).msb = false := by
    rw [BitVec.msb_eq_decide]
    simp only [BitVec.extractLsb'_toNat, BitVec.toNat_ofNat, Nat.shiftRight_zero, decide_eq_false_iff_not, not_le]
    omega
  rw [BitVec.signExtend_eq_setWidth_of_msb_false hm]
  simp only [BitVec.toNat_setWidth, BitVec.extractLsb'_toNat, BitVec.toNat_ofNat, Nat.shiftRight_zero]
  omega

theorem devWalk_low (va : Nat) (h : va < 2 ^ 30) :
    let s := engraving (install (some 1) [engravedPage .queued 0]) 0
    devWalk s 64 0 va false = .ok (⟨0, 0, 0, 30, 0, true, true, false, false, false, false, true⟩, s) := by
  intro s
  have ho : orPte s 0 0x3000 0x80 = .ok s := by rw [orPte, if_pos (by decide)]
  rw [devWalk, canonical_low va h, if_neg (by decide), leadDom_engraving, walk_low va h]
  show (match orPte s 0 0x3000 0x80 with | .error _ => _ | .ok s => _) = _
  rw [ho]

theorem devGet_low (va n : Nat) (h : va < 2 ^ 30) :
    let s := engraving (install (some 1) [engravedPage .queued 0]) 0
    ∃ v, devGet s 64 0 va n = .ok (v, s) := by
  intro s
  have hld : s.leadDom 64 = 0 := leadDom_engraving
  have hw0 : wayTo s (s.leadDom 64) (homeOf va) = .crosses := by
    rw [hld, show homeOf va = 0 by unfold homeOf; omega]
    rfl
  have hp : (⟨0, 0, 0, 30, 0, true, true, false, false, false, false, true⟩ : TlbEnt).phys (va % 2 ^ 57) = va := by
    show 0 + va % 2 ^ 57 % 2 ^ 30 = va
    omega
  have hr : regionOf s va = .dram := by
    unfold regionOf homeOf offsetOf
    rw [show va / 2 ^ 46 = 0 by omega, show va % 2 ^ 46 = va by omega]
    show (if 2 ^ 52 ≤ va then Region.hole else if va < 48 * 2 ^ 30 ∧ va < 0xC00000000 then .dram else _) = _
    rw [if_neg (by omega), if_pos (by omega)]
  have hg : readHome s (homeOf va) va n = .ok (s, s.mem.read va n, none) := by
    have h0 : homeOf va = 0 := by unfold homeOf; omega
    have hl : lineHome (lineOf va) = 0 := by unfold lineHome lineOf homeOf; omega
    rw [readHome, h0]
    have hq : l2Gate s 0 (lineOf va) = .ok s := by
      rw [l2Gate]
      rfl
    have hh : homeGate s (lineOf va) = .ok s := by
      rw [homeGate, homeBusy, hl]
      rfl
    have ha : dropAlias s 0 (lineOf va) = .ok s := rfl
    have hr : homeReach s 0 (lineOf va) = .ok s := by
      simp only [homeReach, bothGates, hl, hq, hh, bind, Except.bind]
    simp only [hq, ha, hr, bind, Except.bind]
    show Except.ok (s, s.mem.read va n, badIn [] va n) = _
    have hf : ∀ i, Sp.find? ([] : Sp Nat) i = none := fun _ => rfl
    simp only [badIn, hf, List.filterMap_none, List.head?_nil]
  refine ⟨s.mem.read va n, ?_⟩
  rw [devGet, devWalk_low va h]
  show (if (!true || decide (regionOf s (TlbEnt.phys _ _) = .host)) = true then _ else devAt s 64 va _ _) = _
  rw [hp, hr, if_neg (by decide), devAt, hw0]
  show (match readHome s (homeOf va) va n with | .error _ => _ | .ok (s, v, none) => _ | .ok (s, _, some _) => _) = _
  rw [hg]

theorem sourceBad_low :
    let s := engraving (install (some 1) [engravedPage .queued 0]) 0
    ∀ as : List Nat, (∀ a ∈ as, a < 2 ^ 30) → sourceBad 64 0 as s = .ok (false, s)
  | [], _ => rfl
  | a :: as, h => by
    rw [sourceBad, devWalk_low a (h a (.head _))]
    exact sourceBad_low as fun b hb => h b (.tail _ hb)

theorem test_source_reads :
    let s := engraving (install (some 1) [engravedPage .queued 0]) 0
    sourceBad 64 0 (sourceVas 0x50000) s = .ok (false, s) ∧ ∃ m u, devRead s 64 0 0x50000 65536 = .ok (m, u) := by
  intro s
  refine ⟨sourceBad_low _ fun a ha => ?_, ?_⟩
  · rw [sourceVas, List.mem_append, List.mem_map] at ha
    rcases ha with ⟨i, hi, rfl⟩ | ha
    · rw [List.mem_range] at hi
      omega
    · rw [List.mem_singleton.mp ha]
      decide
  obtain ⟨r, h⟩ := devReadAll_answers s 64 0 0x50000 (blockPieces 0x50000 65536) [] fun p hp => by
    refine devGet_low p.1 p.2 ?_
    rw [blockPieces, List.mem_filterMap] at hp
    obtain ⟨i, hi, h⟩ := hp
    rw [List.mem_range] at hi
    dsimp only at h
    split at h
    · cases h
      show max _ _ < _
      omega
    · exact nomatch h
  exact ⟨r.1, r.2, h⟩
/-- A block with one live slot of 64 and an open block to move it to; and a block with none. The page as it moves. -/
def wearing (ms : List InstPage) : State :=
  { device with domains := [(0, { st := 1, fblocks := [(5, { used := 64 }), (6, { used := 1 }), (7, { used := 64, wear := 4998 })], plateMap := [(3, ⟨330, 1⟩)], moves := ms })] }
def moving (p : PageState) : InstPage := { dest := 0x100000030000, src := 330, pst := p, slot := 385, keeps := true }
theorem test_blocks_may_be_reclaimed :
    (let x := (wearing []).domain 0
     (liveSlots x 5).length < (x.fblock 5).used ∧ pendingSlot (wearing []) 0 5 = false ∧
       (nextMove x 0 5).isSome = true ∧ inService x 7 = true ∧ 64 ≤ (x.fblock 7).used ∧ liveSlots x 7 = [] ∧
       pendingSlot (wearing []) 0 7 = false ∧ (x.fblock 7).wear + 1 < 5000) ∧
    (let x := (wearing [moving .programming]).domain 0
     x.moves[0]? = some (moving .programming) ∧ 6 ∈ openBlocks x ((moving .programming).tried ++ [(moving .programming).src / 64])) ∧
    (let s := wearing [moving .switching]
     homeOf (moving .switching).dest = 0 ∧ switchStep s (moving .switching) = .idle ∧
       Sp.find? (s.domain 0).plateMap (platePage (moving .switching).dest) = some ⟨(moving .switching).src, 1⟩) := by decide
/-- A page that has no block to move to: the flash of its domain has one block, which it leaves. -/
theorem test_move_may_find_no_block :
    let s := { device with domains := [(0, { st := 1, flashGib := 0, spare := 8192, fblocks := [(5, { used := 64 })], plateMap := [(3, ⟨330, 1⟩)], moves := [moving .programming] })] }
    (s.domain 0).moves[0]? = some (moving .programming) ∧ openBlocks (s.domain 0) [5] = [] ∧ anyFree (s.domain 0) [5] = false ∧
      canFree s 0 = false := by decide +kernel

/-- MillSteps: a mill of two stages and one race on the device. -/
def milling (m : Mill) : State :=
  { device with
    grids := [(0, { stages := [kernel, kernel], vi := 64, nextLin := [1, 1], closed := true, shares := [0], mill := some m })] }
def mill : Mill := { races := [race], cores := 3, minc := [1, 1], maxc := [2, 2], weight := [1, 1] }
def started : Mill := { mill with started := true, held := [(0, 0), (1, 1)], count := [1, 1] }
theorem test_mill_may_start :
    (milling mill).grids = [(0, (milling mill).grid 0)] ∧ ((milling mill).grid 0).ended = false ∧
      ((milling mill).grid 0).book = none ∧ regionsFree (milling mill) 0 mill = true ∧ (dealCores (milling mill) 0 mill).isSome = true ∧
      mill.minc.sum ≤ (millCores (milling mill) 0).length := by decide +kernel
theorem test_core_may_join :
    ((milling started).grid 0).book = none ∧ started.count.sum < started.cores ∧ (millCores (milling started) 0).head? = some 2 ∧ nextStage started started.count = some 0 := by
  decide +kernel
theorem test_slot_may_be_granted :
    let r := { race with reservers := [raceReq 0 0 8] }
    let s := milling { started with races := [r] }
    r.rst = .opened ∧ r.canReserve = true ∧ r.canReceive = false ∧ r.eos = false ∧ r.receivers = [] ∧ (s.grid 0).book = none ∧
      (s.block 0).gid = 0 ∧ (s.weft 0 127).slots.length < 8 ∧ 127 < 128 ∧ raceAcquires s r (s.block 0).core = true := by
  decide +kernel
theorem test_slots_may_be_given_up :
    (let s := { milling started with ops := [(3, { kind := .commit 0 1 })] }
     ∃ u, opRelease s 3 { kind := .commit 0 1 } (effScope race 0) = .ok u ∧ u.grids = s.grids ∧ u.blocks = s.blocks) ∧
    (let s := { milling started with ops := [(3, { kind := .relSlot 0 1 })] }
     ∃ u, opRelease s 3 { kind := .relSlot 0 1 } (effScope race 0) = .ok u ∧ u.grids = s.grids ∧ u.blocks = s.blocks) :=
  ⟨⟨_, rfl, rfl, rfl⟩, _, rfl, rfl, rfl⟩
theorem test_mill_may_complete :
    (∀ st < ((milling started).grid 0).stages.length, stageOver (milling started) 0 st = true) ∧ sharesMet (milling started) 0 = true ∧
      ((milling started).grid 0).book = none ∧ ((milling started).viface 64).puts = [] ∧
      ∃ u, releaseCores ((milling started).grid 0).cores ((milling started).grid 0).scope (milling started) = (true, u) :=
  ⟨by decide, by decide, rfl, rfl, _, rfl⟩
/-- The same with a daybook. -/
theorem test_mill_may_close_its_book :
    let s := { milling started with grids := (milling started).grids.map fun e => (e.1, { e.2 with book := some {} }) }
    (s.grid 0).book = some {} ∧ (s.grid 0).complete = false ∧ sharesMet s 0 = true ∧
      ∀ st < (s.grid 0).stages.length, stageOver s 0 st = true := by decide
/-- The deciders of the mill at their samples, and the wafer step before a sixteenth interval. -/
theorem test_deciders :
    started.decider 0 = true ∧ started.decider 64 = true ∧
      (let m := { started with samples := [(0, [(0, 2)]), (64, [(0, 2)])], intervals := [(0, 16)] }
       sampled m 0 = true ∧ sampled m 64 = true ∧ Sp.get 0 m.intervals 64 < Sp.get 0 m.intervals m.lead / 16) := by decide
theorem test_move_may_apply :
    let m := { started with minc := [0, 1], moves := [⟨0, 0, 1, 0, 0, false⟩] }
    (0 : Nat) ≠ 1 ∧ 0 < m.count.length ∧ 1 < m.count.length ∧ m.minc.getD 0 0 < m.count.getD 0 0 ∧
      m.count.getD 1 0 < m.maxc.getD 1 0 ∧ Sp.find? m.held 0 = some 0 ∧ Sp.find? m.departing 0 = none := by decide
/-- A round of one rank that is complete, and one that is lost; a tree of the partition. -/
theorem test_rounds :
    ({ parts := [(0, (7, 0))], tree := some [(0, 0)] } : Round).ready (milling started) 1 = true ∧ ({ lost := true } : Round).lost = true ∧
      (milling started).physDomain 64 0 = some 0 ∧ (milling started).grids = [(0, (milling started).grid 0)] := by decide
/-- The member of rank 0 of such a round, which is told of it next, or has been; its status word at 0x30000. -/
def rounding (told : List Nat) : State :=
  { milling started with
    grids := (milling started).grids.map fun e => (e.1, { e.2 with groups := [(2, { statva := 0x30000, rounds := [(0,
      { parts := [(0, (7, 0))], tree := some [(0, 0)], told := told })] })] })
    ops := [(3, { kind := .wred 2 0 0, lanes := [{ lane := 5, addr := 0 }] })] }
theorem test_round_results :
    (∀ told ∈ [[], [0]], let s := rounding told
      (s.block 0).gid = 0 ∧ s.ops.length = 1 ∧ ((Sp.find? (s.grid 0).groups 2).bind fun x => Sp.find? x.rounds 0).map
        (fun rd => (rd.ready s 1, rd.told, rd.status)) = some (true, told, 0)) ∧
      acquireReady (rounding [0]) 0 .waf = true ∧ (RedOp.ofCode 0).isSome = true ∧ (RedType.ofCode 0).isSome = true ∧
      ∃ u, devPut (rounding []) 64 0 0x30000 4 0 = .ok u :=
  ⟨by decide +kernel, by decide +kernel, by decide, by decide, _, rfl⟩

/-- PreemptionAndFaultSteps: the registers of a lawful command, and of one that is not. -/
def commandOf (vi : Byte) : State :=
  { device with vis := [(64, { partmap := 1, regs := [(0x440, vi), (0x442, 1), (0x44E, 1)] })] }
theorem test_commands :
    (readCommand (commandOf 64) 64).legal 64 = true ∧ (readCommand (commandOf 65) 64).legal 64 = false := by decide
/-- A resident block under command 0, with each method. -/
def under (m : Method) : State :=
  { launched { bst := .resident, method := some m, under := [0] } { tst := .run, pc := 0x10000 } with
    cmds := [(0, { vi := 64, flags := 0, budget := 1, ident := 0, domains := 1, event := 0, hold := true })] }
theorem test_preemption :
    (((under .drain).block 0).method = some .drain ∧ ((under .drain).block 0).bst = .resident) ∧
      (((under .flush).block 0).method = some .flush ∧ ((under .flush).grid 0).book = none ∧
        workDone (discardHeld (under .flush) 0) 0 = true) ∧ ((under .save).block 0).method = some .save := by decide +kernel
theorem test_save_has_room :
    opsDone (withdrawWaits (under .save) 0) 0 = true ∧
      (releaseTry (withdrawWaits (under .save) 0) 0 .dom).toOption.map (fun u =>
        freeUnits u (u.viOf 0) 0 (unitsOf (saveLen (u.launch 0) (u.block 0).pushed))) = some (some 0x800000) ∧
      (∀ w < ((under .save).launch 0).wefts, overCaptured (withdrawWaits (under .save) 0) 0 w = false) ∧
      ((under .save).block 0).bst = .resident ∧ ((under .save).grid 0).book = none := by
  decide +kernel
theorem releaseTry_of_empty {s : State} {core : Nat} (hl : l1Cores s core = [core])
    (h : (s.core core).l1 = []) (hb : homeUnacknowledged s (domOf core) = false) :
    releaseTry s core .dom = .ok s := by
  have hc : cleanL1All s core = (true, s) := by
    rw [cleanL1All, hl, List.foldl_cons, h]
    rfl
  rw [releaseTry, if_neg (by decide), hc]
  show (if (true && !homeUnacknowledged s (domOf core)) = true then Except.ok s else Except.error s) = _
  rw [hb]
  rfl
theorem test_save_may_be_written :
    let u := withdrawWaits (under .save) 0
    let len := saveLen (u.launch 0) (u.block 0).pushed
    releaseTry u 0 .dom = .ok u ∧ ∃ v, putArea u 0x800000 len (tagged u len (saveArea u 0)) (saveBad u 0) = .ok v := by
  intro u len
  exact ⟨releaseTry_of_empty (by decide +kernel) (by decide +kernel) (by decide +kernel), exists_of_area_free (by decide +kernel)⟩
theorem test_command_may_end :
    let s := { under .flush with blocks := [(0, { bst := .retired })] }
    (∃ c, Sp.find? s.cmds 0 = some c ∧ c.done = false ∧ c.vi = 64) ∧ ∀ e ∈ s.blocks, 0 ∉ e.2.under :=
  ⟨⟨_, rfl, rfl, rfl⟩, by decide⟩
/-- A weft parked with an entry that is posted, and one whose entry has been popped. -/
def parked (popped : List FaultRef) : State :=
  { launched { bst := .resident } { tst := .run } with
    wefts := [(0, { wst := .parked, park := some { cause := 8, issue := 0xFF, done := 0x0F }, atIssue := true })]
    faults := [.weft 0 0]
    popped := popped }
theorem test_fault_entries :
    List.find? (fun f => faultVI (parked []) f == 64 && !(parked []).popped.contains f) (parked []).faults = some (.weft 0 0) ∧
      List.find? (fun f => faultVI (parked [.weft 0 0]) f == 64 && !(parked [.weft 0 0]).popped.contains f)
        (parked [.weft 0 0]).faults = none ∧
      answered (parked []) 64 1 = none ∧
      answered (parked [.weft 0 0]) 64 (handleOf (parked [.weft 0 0]) (.weft 0 0)) = some (.weft 0 0) ∧
      domOf ((parked [.weft 0 0]).block 0).core = (parked [.weft 0 0]).leadDom 64 ∧
      (((parked [.weft 0 0]).weft 0 0).park.map fun e => e.kind) = some 1 ∧
      ((parked [.weft 0 0]).weft 0 0).atIssue = true ∧ (8 : Nat) ≠ Cause.integrity.code := by decide
/-- The same weft on core 40, in domain 1 of a partition whose steward is domain 0. -/
def parkedAfar : State :=
  { parked [.weft 0 0] with
    vis := [(64, { partmap := 3, roots := [(0, 0x1000)] })]
    domains := [(0, { st := 1 }), (1, { st := 1 })]
    blocks := [(0, { bst := .resident, core := 40 })] }
theorem test_fault_of_another_domain :
    answered parkedAfar 64 (handleOf parkedAfar (.weft 0 0)) = some (.weft 0 0) ∧
      domOf (parkedAfar.block 0).core ≠ parkedAfar.leadDom 64 := by decide +kernel
/-- A copy that is paused at its fault, whose entry has been popped, with no barrier and with one. -/
def pausedCopy (bar : Option Nat) : State :=
  { parked [] with
    cores := [(0, { copies := [(2, { op := 3, bar := bar, fault := some { kind := 2, slot := 2, addr := 0x30000 } })] })]
    faults := [.engine 0 2]
    popped := [.engine 0 2] }
theorem test_engine_faults :
    ∀ bar ∈ [none, some 1], let s := pausedCopy bar
      answered s 64 (handleOf s (.engine 0 2)) = some (.engine 0 2) ∧ domOf 0 = s.leadDom 64 ∧
        (s.copy? 0 2).map (·.bar) = some bar := by decide +kernel
theorem test_parity_error :
    let s := { launched { bst := .resident } { tst := .run } with cores := [(0, { l1 := [(5, { valid := 1 })] })] }
    (s.core 0).l1 = [(5, { valid := 1 })] ∧ 0 < (s.launch 0).wefts ∧ (s.weft 0 0).wst = .active ∧ (s.weft 0 0).park = none := by
  decide

/-- FabricSteps: domains 0 and 1, which are neighbours by port 2, a packet for each, one for a domain of no partition, a
part of a round and a claim; and table B free and armed. -/
def meshed (tbl : Nat) (stb : Nat) : State :=
  { vis := [(64, { partmap := 3 })]
    domains := [(0, { st := 1, stb := stb, rename := { name := 7, status := 1, claim := some (3, none) } }),
      (1, { st := 1, rename := { name := 7, status := 1, claim := some (44, none) } })]
    packets := [(4, { part := 64, dest := 1, tbl := tbl }), (5, { part := 64, dest := 0, tbl := tbl }),
      (6, { part := 3, dest := 0, tbl := tbl }), (7, { part := 64, dest := 0, tbl := tbl, cargo := .part 0 2 0 0 }),
      (8, { part := 64, dest := 0, tbl := tbl, cargo := .claim 1 7 })] }
/-- The same with the link between them down, or paused. -/
def linkless (down : Nat) (busy : Bool) : State :=
  { meshed 0 1 with domains := [(0, { st := 1, stb := 1, down := down, vfBusy := busy }), (1, { st := 1 })] }
theorem test_links :
    neighbour 0 2 = some 1 ∧ neighbour 56 4 = none ∧ neighbour 63 1 = some 55 ∧
      (linkDown (meshed 0 1) 0 2, linkPaused (meshed 0 1) 0 2) = (false, false) ∧ Sp.get 0 ((meshed 0 1).domain 0).retries 2 < 16 ∧
      linkDown (linkless 2 false) 0 2 = true ∧ (linkDown (linkless 0 true) 0 2, linkPaused (linkless 0 true) 0 2) = (false, true) := by
  decide
/-- A link's seventeenth failure in a row, with a token that crosses it; another packet is on another way. -/
def tired : State :=
  { meshed 0 1 with
    domains := [(0, { st := 1, retries := [(2, 16)] }), (1, { st := 1 })]
    packets := [(4, { part := 64, dest := 1, cargo := .token }), (5, { part := 64, dest := 0 })]
    drain := some { tbl := 1, start := 0, here := 0, moving := true } }
theorem test_link_goes_down :
    16 ≤ Sp.get 0 (tired.domain 0).retries 2 ∧ (linkDown tired 0 2, linkPaused tired 0 2) = (false, false) ∧
      ((Sp.find? tired.packets 4).map fun y => (y.cargo == .token, y.here, y.out tired)) = some (true, 0, some 2) ∧
      ((Sp.find? tired.packets 5).map fun y => y.out tired) = some (some 0) := by decide +kernel
/-- Packets of an access of the parked weft and of a token, for this router and for the next; an announcement; the state of
a part's round. -/
def carrying (dest part : Nat) (cargo : Cargo) (rd : Round) (down : Nat) : State :=
  { parked [] with
    vis := [(64, { partmap := 3 })]
    domains := [(0, { st := 1, down := down }), (1, { st := 1, rename := { name := 7, waiting := [0] } })]
    grids := [(0, { stages := [kernel], vi := 64, groups := [(2, { rounds := [(0, rd)] })] })]
    ops := [(3, { lanes := [{ lane := 5, addr := 0x30000 }] })]
    packets := [(4, { part := part, dest := dest, cargo := cargo, carries := some (3, 5) })]
    drain := some { tbl := 1, start := 0, here := 1, moving := true } }
/-- Where the packet leaves the router of domain 0, whether it may be delivered there, and whether the link it takes is down. -/
def leaves (dest part : Nat) (cargo : Cargo) (rd : Round) (down : Nat) : Option (Option Nat × Bool × Bool) :=
  let s := carrying dest part cargo rd down
  (Sp.find? s.packets 4).map fun y => (y.out s, y.mayReach s 0, linkDown s 0 2)
theorem test_packets_are_delivered_or_dropped :
    (∀ c ∈ [Cargo.access, .token, .announce 1 7], leaves 0 64 c {} 0 = some (some 0, true, false)) ∧
      leaves 0 3 .access {} 0 = some (some 0, false, false) ∧
      (∀ c ∈ [Cargo.access, .token], leaves 1 64 c {} 2 = some (some 2, true, true)) ∧
      (carrying 0 64 .access {} 0).op? 3 = some { lanes := [{ lane := 5, addr := 0x30000 }] } ∧
      ((carrying 0 64 .access {} 0).weft 0 0).park.isSome = true ∧
      (((carrying 0 64 .access {} 0).domain 1).rename.claim = none ∧ ((carrying 0 64 .access {} 0).domain 1).rename.name = 7) := by
  decide +kernel
theorem test_parts_climb :
    (leaves 0 64 (.part 0 2 0 0) { tree := some [(0, 0)], onWay := [0] } 0).map (·.1) = some (some 0) ∧
      (leaves 0 64 (.part 0 2 0 0) { tree := some [(0, 1)] } 0).map (·.1) = some (some 2) ∧
      (leaves 0 64 (.part 0 2 0 0) {} 0).map (·.1) = some none ∧ ({ lost := true } : Round).lost = true := by decide +kernel
theorem test_packets :
    let s := meshed 0 1
    (∀ n ∈ [4, 5, 6, 7, 8], ((Sp.find? s.packets n).map fun y => (y.here, y.source, tableState (s.domain 0) y.tbl)) = some (0, none, 1)) ∧
      ((Sp.find? s.packets 4).map fun y => routeEntry s 0 y.tbl (routeIndex y.cls y.port y.dest)) = some 2 ∧
      (∀ n ∈ [5, 6, 8], ((Sp.find? s.packets n).map fun y => routeEntry s 0 y.tbl (routeIndex y.cls y.port y.dest)) = some 0) ∧
      (∀ n ∈ [5, 8], ((Sp.find? s.packets n).map fun y => y.mayReach s 0) = some true) ∧
      ((Sp.find? s.packets 6).map fun y => y.mayReach s 0) = some false ∧
      ((Sp.find? s.packets 7).map Packet.cargo) = some (.part 0 2 0 0) ∧ ((Sp.find? s.packets 8).map Packet.cargo) = some (.claim 1 7) ∧
      ∀ d < 2, (s.domain d).rename.claim ≠ none ∧ (s.domain d).rename.name = 7 := by decide +kernel
theorem test_tables :
    tableState ((meshed 0 0).domain 0) 1 = 0 ∧ tableState ((meshed 0 1).domain 0) 1 = 1 ∧ ((meshed 0 1).domain 0).rsel ≠ 1 ∧
      (meshed 0 1).drain = none := by decide
theorem test_table_passes_the_turn_check : turnFailure (meshed 0 0) 0 1 = none := by decide +kernel
/-- A drain whose token visits domain 0, with a visit to come; and one that is to go on to domain 1. -/
theorem test_drain :
    let s := meshed 0 1
    ∀ i < 2, nextVisit s i = some i ∧ snake i = i ∧ ({ tbl := 1, start := 0, here := 0, at_ := i } : Drain).moving = false := by
  decide
/-- Core 5 of domain 0 may take the name 0x00F0, which no core holds, alone in its partition and with a peer. -/
theorem test_rename :
    (∀ s ∈ [device, { linkless 0 false with packets := [] }],
      (s.domain 0).rename.status ≠ 1 ∧ (s.coresIn 0).find? (fun c => s.coreName c == 5 && spareFit s c) = some 5 ∧
        holders s 0 0xF0 = []) ∧
      peersOf device 0 = [] ∧ peersOf (linkless 0 false) 0 = [1] ∧
      (let s : State := { domains := [(0, { rename := { status := 1 } })] }
       (s.domain 0).rename.status = 1 ∧ (s.domain 0).rename.claim = none ∧ (s.domain 0).rename.waiting = []) := by decide +kernel
theorem test_clocks :
    16 % 32 ≤ 16 ∧ 16 < 17 % 32 ∧ device.pwrlim < 25001 ∧ hottest device = some 0 ∧
      (({ domains := [(0, { vfBusy := true })] } : State).domain 0).vfBusy = true := by decide

/-- HostSteps: the last eight bytes of a line of main DRAM, reached from the host and from a peer. -/
def exporting : State := { device with peers := [(8, { base := 0x40000, len := 256 })] }
theorem test_outside_accesses :
    exporting.physDomain 64 (0x400F8 / 2 ^ 36) = some 0 ∧ regionOf exporting 0x400F8 = .dram ∧ 0x400F8 % 256 + 8 ≤ 256 ∧
      (∀ e ∈ exporting.vis, e.2.mig.status ≠ 1 ∧ e.2.mig.status ≠ 2) ∧
      (Sp.get {} exporting.peers 8).up = true ∧ isPeerPort 8 = true ∧ 248 < (Sp.get {} exporting.peers 8).len := by decide
theorem test_home_is_free :
    homeReach exporting (homeOf 0x400F8) (lineOf 0x400F8) = .ok exporting ∧ exporting.homeBad 0x400F8 8 = none := ⟨rfl, by decide⟩
/-- ATTEST: BUF is 0x50000, in the first GiB, which the root table maps. -/
def attesting : State := { device with vis := [(64, { partmap := 1, roots := [(0, 0x1000)], regs := [(0x562, 5)] })] }
theorem putFaults_low (va : Nat) (h : va < 2 ^ 30) : putFaults attesting 64 0 va = false := by
  have h4 : va % 2 ^ 57 / 2 ^ (12 + 9 * 4) % 512 = 0 := by omega
  have h3 : va % 2 ^ 57 / 2 ^ (12 + 9 * 3) % 512 = 0 := by omega
  have h2 : va % 2 ^ 57 / 2 ^ (12 + 9 * 2) % 512 = 0 := by omega
  have e : ∀ x, readPte attesting 0 x 4 0x2001 = .table 0x2000 ∧ readPte attesting 0 x 3 0x3001 = .table 0x3000 ∧
      readPte attesting 0 x 2 0x987 = .leaf { asn := 0, va := x / 2 ^ 30 * 2 ^ 30, bits := 30, pa := 0, r := true, w := true, d := true } := by
    intro x
    refine ⟨?_, ?_, ?_⟩ <;> rw [readPte] <;> simp only
    · rw [if_neg (by decide), if_neg (by decide), if_pos (by decide), if_neg (by decide), if_neg (by decide)]
      rfl
    · rw [if_neg (by decide), if_neg (by decide), if_pos (by decide), if_neg (by decide), if_neg (by decide)]
      rfl
    · rw [if_neg (by decide), if_neg (by decide), if_neg (by decide), if_neg (by decide +kernel), if_neg (by decide +kernel)]
      rfl
  have r : attesting.homeBad 0x1000 8 = none ∧ attesting.homeRead 0x1000 8 = 0x2001 ∧ attesting.homeBad 0x2000 8 = none ∧
      attesting.homeRead 0x2000 8 = 0x3001 ∧ attesting.homeBad 0x3000 8 = none ∧ attesting.homeRead 0x3000 8 = 0x987 := by
    decide +kernel
  have hw : walk attesting 64 0 (va % 2 ^ 57) =
      .ok 0x3000 { asn := 0, va := va % 2 ^ 57 / 2 ^ 30 * 2 ^ 30, bits := 30, pa := 0, r := true, w := true, d := true } := by
    rw [walk, if_neg (by decide), show rootOf attesting 64 0 = 0x1000 from rfl]
    simp only [walkFrom, readEntry, h4, h3, h2, Nat.mul_zero, Nat.add_zero, r.1, r.2.1, r.2.2.1, r.2.2.2.1, r.2.2.2.2.1, r.2.2.2.2.2,
      (e _).1, (e _).2.1, (e _).2.2]
  have hr : regionOf attesting va = .dram := by
    unfold regionOf homeOf offsetOf
    rw [show va / 2 ^ 46 = 0 by omega, show va % 2 ^ 46 = va by omega]
    show (if 2 ^ 52 ≤ va then Region.hole else if va < 48 * 2 ^ 30 ∧ va < 0xC00000000 then .dram else _) = _
    rw [if_neg (by omega), if_pos (by omega)]
  have hp : (0 : Nat) + va % 2 ^ 57 % 2 ^ 30 = va := by omega
  rw [putFaults, canonical_low va h, hw]
  simp only [TlbEnt.phys, hp, hr]
  rfl
theorem test_quote_may_be_left :
    let quote := quoteBody attesting 64
    ∀ p ∈ blockPieces ((attesting.viface 64).regs.read 0x560 8) (quote ++ (List.range 29792).map (Config.signature quote)).length,
      putFaults attesting 64 0 p.1 = false := by
  intro quote p hp
  have hl : quote.length ≤ 32 + 32 + 520 + 8 + 32 := by
    have hs : ∀ m, (shake256 m 32).length ≤ 32 := fun m => List.length_take_le _ _
    have h8 : ∀ x, (littleEndian 8 x).length = 8 := fun x => by rw [littleEndian, List.length_map, List.length_range]
    have hf : (((List.range 65).map fun i => littleEndian 8 (attesting.viface i).partmap).flatten).length = 520 := by
      rw [List.length_flatten, List.map_map]
      simp only [Function.comp_def, h8]
      rfl
    have hn : (((attesting.viface 64).regs).readBytes 0x540 32).length = 32 := rfl
    show (_ ++ _ ++ _ ++ _ ++ _ : List Byte).length ≤ _
    simp only [List.length_append, hn, hf, h8]
    exact Nat.add_le_add (Nat.add_le_add (Nat.add_le_add (Nat.add_le_add (le_refl 32) (hs _)) (le_refl 520)) (le_refl 8)) (hs _)
  refine putFaults_low p.1 ?_
  rw [blockPieces, List.mem_filterMap] at hp
  obtain ⟨i, hi, h⟩ := hp
  rw [List.mem_range, List.length_append, List.length_map, List.length_range] at hi
  have hb : (attesting.viface 64).regs.read 0x560 8 = 0x50000 := by decide +kernel
  dsimp only at h
  rw [hb] at h
  split at h
  · cases h
    show max _ _ < _
    omega
  · exact nomatch h
theorem test_registers :
    (1 : Nat).testBit 0 = true ∧ (3 ≤ 64 ∧ (∀ e ∈ device.queues, e.2.vi = 3 → e.2.enable = false) ∧
      (∀ e ∈ device.vis, e.1 ≠ 3 → e.2.partmap &&& (2 % 2 ^ 64) = 0)) ∧ plainReg 0x440 = true ∧ 4000 ≤ 25000 := by decide
/-- A domain that comes up as power comes on, and one whose firmware is older than the fused minimum; a core with three
defective rows in an array. -/
theorem test_bring_up :
    let s : State := { fwMin := 2, domains := [(0, { fwGood := true, fwVersion := 2 }), (1, { fwGood := true, fwVersion := 1 })]
                       cores := [(1, { defects := [(0, 3)] })] }
    ((s.domain 0).st = 0 ∧ (s.domain 0).boots s.fwMin = true) ∧ (s.domain 1).boots s.fwMin = false ∧
      (soundCores s 0).testBit 1 = false ∧ (soundCores s 0).testBit 2 = (s.domain 0).coremap.testBit 2 := by decide

/-- StepRunsDecodedInstruction: the probe's issue set, its fetch and its row; a word that is none. -/
def probeOf (w : Nat) : State := { State.reset.withFetchWord 32 w with agenda := [] }
def probe : State := probeOf 0x00A2060B
theorem test_probe_is_fetched :
    (∃ x u, issueSet probe 0 0 false = some x ∧ fetchWord probe 0 (probe.grid 0) x.pc = (.ok (0x00A2060B, 4), u)) ∧
      (∃ x u, issueSet (probeOf 0x06080AE1) 0 0 false = some x ∧
        fetchWord (probeOf 0x06080AE1) 0 ((probeOf 0x06080AE1).grid 0) x.pc = (.ok (0x06080AE1, 4), u)) ∧
      decodeWord 0x06080AE1 = .error (.shape .oddPair) := ⟨⟨_, _, rfl, rfl⟩, ⟨_, _, rfl, rfl⟩, by decide⟩
theorem test_step_runs_the_probe :
    ∃ t, step (State.reset.withFetchWord 32 0x0604093B) = .next t ∧ (t.weft 0 0).kreg 4 = 0xC08 := ⟨_, rfl, by decide +kernel⟩
/-- The turns of an agenda: a partition with one weft to issue, one with two, and one with none; a step of the device; and a
turn that falls into the cycle of the one before it. -/
def pairOfWefts : State :=
  { probe with wefts := probe.wefts ++ [(1, { wst := .active })], threads := probe.threads ++ [(32, { tst := .run, pc := 0x10000 })] }
theorem test_turns :
    (∃ row, pickRow (prelude probe) 0 0 = some (row, [(0, 0, false)])) ∧ mayIssue probe 0 0 = true ∧
      (∃ row, pickRow (prelude pairOfWefts) 0 0 = some (row, [(0, 0, false), (0, 1, false)])) ∧
      pickRow (prelude probe) 0 1 = none ∧ probe.cycle = {} ∧
      (Instr.keepMarkClear 0).len = 0 ∧ (Instr.bkpt).len ≠ 0 ∧
      (∃ t, takeTurn { probe with cycle := { joined := true } } (.issue 0 0) = .next t) :=
  ⟨⟨_, rfl⟩, by decide +kernel, ⟨_, rfl⟩, rfl, rfl, rfl, by decide, _, rfl⟩
/-- IssueSetIsTheLowestGroup: two groups below the starvation bound and at it, and one group. -/
def splitWeft (sb : Nat) : State :=
  { base with wefts := [(0, { wst := .active, sbUser := sb })], threads := [(0, lane []), (1, { lane [] with pc := 0x10008 })] }
theorem test_issue_sets :
    ((issueSet (splitWeft 255) 0 0 false).map fun x => (x.lanes, x.sb)) = some ([0], 256) ∧
      ((issueSet (splitWeft 256) 0 0 false).map fun x => (x.lanes, x.sb)) = some ([1], 0) ∧
      ((issueSet base 0 0 false).map fun x => (x.lanes, x.sb)) = some ([0, 1], 0) ∧ issueSet base 0 0 true = none ∧
      awaitsRet (stacking .refill) 0 0 0 = true ∧ issueSet (stacking .refill) 0 0 false = none := by decide
/-- RoleAndAllotmentTraps: each kind that the instructions are not of, and an allotment that a field reaches. -/
theorem test_roles :
    (∀ k ∈ [RoleKind.copy, .vector, .matrix],
      ((atIssue { kernel with roles := [{ kind := k, regs := 128 }] } [] []).roleOf 0 0).kind = k) ∧
      ([(8 : VReg).toNat, (7 : VReg).toNat, (9 : VReg).toNat].find? fun v =>
        decide (((atIssue { kernel with roles := [{ regs := 8 }] } [] []).roleOf 0 0).regs ≤ v)) = some 8 ∧
      base.iss.lanes ≠ [] := by decide
/-- StepKeepsInvariant: the state of the probe, and what a step makes of it. -/
theorem test_invariant_holds : probe.inv = true ∧ ∃ t, step probe = .next t := ⟨by decide, _, rfl⟩
/-- How a launch is answered: 0 taken, 1 refused, 2 at a fault; the queues as given. -/
def launchSays (qs : Sp Queue) : DevRes (Except Refused Nat × State) → Option Nat
  | .ok (.ok _, u) => if u.queues = qs then some 0 else none
  | .ok (.error _, u) => if u.queues = qs then some 1 else none
  | .fault _ u => if u.queues = qs then some 2 else none
  | .wait => none
theorem launch_of_says {qs : Sp Queue} {x : DevRes (Except Refused Nat × State)} :
    (launchSays qs x = some 0 → ∃ gid u, x = .ok (.ok gid, u) ∧ u.queues = qs) ∧
      (launchSays qs x = some 1 → ∃ r u, x = .ok (.error r, u) ∧ u.queues = qs) ∧
      (launchSays qs x = some 2 → ∃ va u, x = .fault va u ∧ u.queues = qs) := by
  unfold launchSays
  refine ⟨fun h => ?_, fun h => ?_, fun h => ?_⟩ <;> split at h <;> simp_all
/-- Whether bytes read are those given, in the same state. -/
def readsTo (m : Memory) (s : State) : DevRes (Memory × State) → Bool
  | .ok (n, u) => m == n && decide (u = s)
  | _ => false
theorem read_of_readsTo {m : Memory} {s : State} {x : DevRes (Memory × State)} (h : readsTo m s x = true) : x = .ok (m, s) := by
  unfold readsTo at h
  split at h <;> simp_all
theorem launching_reads :
    devRead (launching 1 [(0x12, 4)]) 64 0 0x40000 256 = .ok (record 0 1, launching 1 [(0x12, 4)]) ∧
      devRead (launching 2 [(0x12, 5)]) 64 0 0x50000 256 =
        .ok ([(0, 3), (2, 1), (8, 1), (0xB, 10), (0xC, 1), (0x12, 6)], launching 2 [(0x12, 5)]) :=
  ⟨read_of_readsTo (by decide +kernel), read_of_readsTo (by decide +kernel)⟩
theorem test_launch_nodes_may_start :
    startable (launching 1 [(0x12, 4)]) 5 0 1 = true ∧ startable (launching 2 [(0x12, 5)]) 5 0 2 = true ∧
      (∃ gid u, launchGrid (launching 1 [(0x12, 4)]) 64 0 0x40000 (5, 0) = .ok (.ok gid, u) ∧
        u.queues = (launching 1 [(0x12, 4)]).queues) ∧
      (∃ gid u, launchMill (launching 2 [(0x12, 5)]) 64 0 0x50000 (5, 0) = .ok (.ok gid, u) ∧
        u.queues = (launching 2 [(0x12, 5)]).queues) ∧
      (∃ r u, launchGrid (launching 1 [(0x12, 5)]) 64 0 0x50000 (5, 0) = .ok (.error r, u) ∧
        u.queues = (launching 1 [(0x12, 5)]).queues) ∧
      (∃ r u, launchMill (launching 2 [(0x12, 4)]) 64 0 0x40000 (5, 0) = .ok (.error r, u) ∧
        u.queues = (launching 2 [(0x12, 4)]).queues) ∧
      ((launching 1 [(0x10, 1)]).node 5 0).f 0x10 8 % 64 ≠ 0 ∧
      (∃ va u, launchGrid (launching 1 [(0x17, 1)]) 64 0 (2 ^ 56) (5, 0) = .fault va u ∧ u.queues = (launching 1 [(0x17, 1)]).queues) ∧
      ∃ va u, launchMill (launching 2 [(0x17, 1)]) 64 0 (2 ^ 56) (5, 0) = .fault va u ∧ u.queues = (launching 2 [(0x17, 1)]).queues :=
  ⟨by decide +kernel, by decide +kernel,
    launch_of_says.1 (by rw [launchGrid, if_neg (by decide), launching_reads.1]; decide +kernel),
    launch_of_says.1 (by rw [launchMill, if_neg (by decide), launching_reads.2]; decide +kernel),
    launch_of_says.2.1 (by decide +kernel), launch_of_says.2.1 (by decide +kernel), by decide,
    launch_of_says.2.2 (by decide +kernel), launch_of_says.2.2 (by decide +kernel)⟩

end Sys2Proof.Tests
end

section
/-!
Memory.read and Memory.write, byte by byte (R7).
-/
namespace Sys2Proof
namespace Memory

@[simp] theorem write_zero (m : Memory) (a x : Nat) : m.write a 0 x = m := rfl

theorem write_succ (m : Memory) (a n x : Nat) :
    m.write a (n + 1) x = (m.setByte a (BitVec.ofNat 8 x)).write (a + 1) n (x / 256) := rfl

@[simp] theorem read_zero (m : Memory) (a : Nat) : m.read a 0 = 0 := rfl

theorem read_succ (m : Memory) (a n : Nat) :
    m.read a (n + 1) = (m.byte a).toNat + 256 * m.read (a + 1) n := rfl

theorem byte_write_of_not_mem {m : Memory} {a n x b : Nat} (h : ¬ (a ≤ b ∧ b < a + n)) :
    (m.write a n x).byte b = m.byte b := by
  induction n generalizing m a x with
  | zero => rfl
  | succ n ih =>
    rw [write_succ, ih (by omega), byte_setByte, if_neg (by omega)]

theorem byte_write_self (m : Memory) (a n x : Nat) : (m.write a (n + 1) x).byte a = BitVec.ofNat 8 x := by
  rw [write_succ, byte_write_of_not_mem (by omega), byte_setByte, if_pos rfl]

/-- Byte `i` of the bytes written is the digit `i` of the value to the base 256. -/
theorem byte_write_add {m : Memory} {a n x i : Nat} (h : i < n) :
    (m.write a n x).byte (a + i) = BitVec.ofNat 8 (x / 256 ^ i) := by
  induction n generalizing m a x i with
  | zero => omega
  | succ n ih =>
    cases i with
    | zero => simpa using byte_write_self m a n x
    | succ i =>
      rw [write_succ, ← Nat.add_assoc, Nat.add_right_comm, ih (by omega), Nat.div_div_eq_div_mul, ← pow_succ']

theorem byte_write (m : Memory) (a n x b : Nat) :
    (m.write a n x).byte b =
      if a ≤ b ∧ b < a + n then BitVec.ofNat 8 (x / 256 ^ (b - a)) else m.byte b := by
  split
  case isTrue h =>
    obtain ⟨i, rfl⟩ := Nat.exists_eq_add_of_le h.1
    rw [byte_write_add (by omega), Nat.add_sub_cancel_left]
  case isFalse h => exact byte_write_of_not_mem h

/-- The lowest digit of what is read is the first byte; the bytes after it hold `x / 256`. -/
theorem read_write (m : Memory) (a n x : Nat) : (m.write a n x).read a n = x % 256 ^ n := by
  induction n generalizing m a x with
  | zero => simp [Nat.mod_one]
  | succ n ih =>
    have first : ((m.write a (n + 1) x).byte a).toNat = x % 256 := by
      rw [byte_write_self, BitVec.toNat_ofNat]
    rw [read_succ, first, write_succ, ih, pow_succ', Nat.mod_mul]

end Memory

/-- Settles O2: both clauses go by induction on the number of bytes written. -/
theorem memoryReadAfterWrite : Obligations.MemoryReadAfterWrite := fun m a n x b =>
  ⟨m.byte_write a n x b, m.read_write a n x⟩

end Sys2Proof
end

section
/-!
What a register reads after a write, in the data registers of a thread and the uniform registers of a weft.
-/
namespace Sys2Proof.Machine
open Sys2Proof

/-! ## Data registers (R13, R14, R47) -/

@[simp] theorem Thread.reg_zero (x : Thread) : x.reg 0 = 0 := rfl

theorem Thread.reg_setReg (x : Thread) (r q : Nat) (v : Word) :
    (x.setReg r v).reg q = if q = r ∧ r ≠ 0 then v else x.reg q := by
  by_cases hr : r = 0
  · simp [Thread.setReg, hr]
  · by_cases hq : q = r
    · subst hq; simp [Thread.setReg, Thread.reg, Sp.get_set, hr]
    · simp [Thread.setReg, Thread.reg, Sp.get_set, hr, hq]

theorem Thread.reg_setPair (x : Thread) (r q : Nat) (v : DWord) :
    (x.setPair r v).reg q =
      if r ≠ 0 ∧ q = r then v.extractLsb' 0 32 else if r ≠ 0 ∧ q = r + 1 then v.extractLsb' 32 32 else x.reg q := by
  by_cases hr : r = 0
  · simp [Thread.setPair, hr]
  · by_cases hq : q = r
    · subst hq; simp [Thread.setPair, Thread.reg_setReg, hr]
    · simp [Thread.setPair, Thread.reg_setReg, hr, hq]

/-- Two halves put together again. -/
theorem extract_append_halves {n : Nat} (v : BitVec (n + n)) : v.extractLsb' n n ++ v.extractLsb' 0 n = v := by
  rw [BitVec.extractLsb'_append_extractLsb'_eq_extractLsb' (by omega)]
  exact BitVec.extractLsb'_eq_self

theorem Thread.pair_setPair (x : Thread) (r : Nat) (v : DWord) : (x.setPair r v).pair r = if r = 0 then 0 else v := by
  by_cases hr : r = 0
  · simp [Thread.pair, hr]
  · have hv : v.extractLsb' 32 32 ++ v.extractLsb' 0 32 = v := extract_append_halves (n := 32) v
    simp [Thread.pair, Thread.reg_setPair, hr, hv]

theorem Thread.reg_setQuad_other (x : Thread) (r q : Nat) (v : QWord) (h : q < r ∨ r + 3 < q ∨ r = 0) :
    (x.setQuad r v).reg q = x.reg q := by
  by_cases hr : r = 0
  · simp [Thread.setQuad, hr]
  · have hq : q ≠ r ∧ q ≠ r + 1 ∧ q ≠ r + 2 ∧ q ≠ r + 3 := by omega
    simp [Thread.setQuad, Thread.reg_setReg, hr, hq]

theorem Thread.quad_setQuad (x : Thread) (r : Nat) (v : QWord) : (x.setQuad r v).quad r = if r = 0 then 0 else v := by
  by_cases hr : r = 0
  · simp [Thread.quad, hr]
  · have hv : (v.extractLsb' 96 32 ++ v.extractLsb' 64 32) ++ (v.extractLsb' 32 32 ++ v.extractLsb' 0 32) = v := by
      rw [BitVec.extractLsb'_append_extractLsb'_eq_extractLsb' (by omega),
        BitVec.extractLsb'_append_extractLsb'_eq_extractLsb' (by omega)]
      exact extract_append_halves (n := 64) v
    simp [Thread.quad, Thread.setQuad, Thread.reg_setReg, hr, hv]

theorem contains_filter_ne (l : List Nat) (r q : Nat) : (l.filter (· != r)).contains q = (l.contains q && q != r) := by
  rw [Bool.eq_iff_iff]; simp

/-- A register written is poisoned no more, and no other register's poison changes (R393). -/
theorem Thread.vBad_setReg (x : Thread) {r : Nat} (q : Nat) (v : Word) (hr : r ≠ 0) :
    (x.setReg r v).vBad.contains q = (x.vBad.contains q && q != r) := by
  simp only [Thread.setReg, if_neg hr, contains_filter_ne]

/-! ## Uniform registers (R148, R167) -/

@[simp] theorem Weft.kreg_zero (x : Weft) : x.kreg 0 = 0 := rfl

theorem Weft.kreg_setK (x : Weft) (r q : Nat) (v : Word) : (x.setK r v).kreg q = if q = r ∧ r ≠ 0 then v else x.kreg q := by
  by_cases hr : r = 0
  · simp [Weft.setK, hr]
  · by_cases hq : q = r
    · subst hq; simp [Weft.setK, Weft.kreg, Sp.get_set, hr]
    · simp [Weft.setK, Weft.kreg, Sp.get_set, hr, hq]

theorem Weft.kpair_setKPair (x : Weft) (r : Nat) (v : DWord) : (x.setKPair r v).kpair r = if r = 0 then 0 else v := by
  by_cases hr : r = 0
  · simp [Weft.kpair, hr]
  · have hv : v.extractLsb' 32 32 ++ v.extractLsb' 0 32 = v := extract_append_halves (n := 32) v
    simp [Weft.kpair, Weft.setKPair, Weft.kreg_setK, hr, hv]

/-- A write of a uniform register changes no field but the registers and their poison. -/
theorem Weft.setK_rest (x : Weft) (r : Nat) (v : Word) : { x.setK r v with k := x.k, kBad := x.kBad } = x := by
  unfold Weft.setK; split <;> rfl

theorem Weft.kBad_setK (x : Weft) {r : Nat} (q : Nat) (v : Word) (hr : r ≠ 0) :
    (x.setK r v).kBad.contains q = (x.kBad.contains q && q != r) := by
  simp only [Weft.setK, if_neg hr, contains_filter_ne]

/-- Settles O1: what a register reads after each write is one lemma for each write and reading. -/
theorem registerFiles : Obligations.RegisterFiles :=
  ⟨fun x r q => ⟨x.reg_zero, x.reg_setReg r q, x.reg_setPair r q, x.pair_setPair r, x.quad_setQuad r,
      fun v => x.reg_setQuad_other r q v, fun v => x.vBad_setReg q v⟩,
    fun x r q => ⟨x.kreg_zero, x.kreg_setK r q, x.kpair_setKPair r, x.setK_rest r, fun v => x.kBad_setK q v⟩⟩

end Sys2Proof.Machine
end

section
/-!
The module after reset, with the L2 bank that its reset masks give each line (R232).
-/
namespace Sys2Proof.Machine
open Sys2Proof

/-! ## The bank of a line (R232) -/

/-- The parity of the bits that a mask selects is a count over those bits alone. -/
theorem parity_and (x m : Nat) :
    parity (x &&& m) = ((List.range 44).filter m.testBit).foldl (fun p i => if x.testBit i then 1 - p else p) 0 := by
  rw [List.foldl_filter, parity]
  congr 1
  funext p i
  cases h : m.testBit i <;> simp [Nat.testBit_and, h]

theorem foldl_parity_three (x i j k : Nat) :
    [i, j, k].foldl (fun p i => if x.testBit i then 1 - p else p) 0 =
      (x.testBit i ^^ x.testBit j ^^ x.testBit k).toNat := by
  cases hi : x.testBit i <;> cases hj : x.testBit j <;> cases hk : x.testBit k <;> simp [hi, hj, hk]

/-- A reset mask takes every fourth bit of the low twelve. -/
theorem parity_and_resetMask (x : Nat) {i m : Nat} (h : (i, m) ∈ [(0, 0x111), (1, 0x222), (2, 0x444), (3, 0x888)]) :
    parity (x &&& m) = (x.testBit i ^^ x.testBit (i + 4) ^^ x.testBit (i + 8)).toNat := by
  have selected : ∀ e ∈ [(0, 0x111), (1, 0x222), (2, 0x444), (3, 0x888)],
      (List.range 44).filter e.2.testBit = [e.1, e.1 + 4, e.1 + 8] := by decide
  rw [parity_and, selected _ h, foldl_parity_three]

/-- A number below 16 from its four bits. -/
theorem sum_bits_of_lt {x : Nat} (h : x < 16) :
    (x.testBit 0).toNat + (x.testBit 1).toNat * 2 + (x.testBit 2).toNat * 4 + (x.testBit 3).toNat * 8 = x := by
  revert x; decide

theorem testBit_nibble (x k i : Nat) (h : i < 4) : (x / 16 ^ k % 16).testBit i = x.testBit (i + 4 * k) := by
  rw [show (16 : Nat) = 2 ^ 4 from rfl, Nat.testBit_mod_two_pow, ← Nat.pow_mul, Nat.testBit_div_two_pow]
  simp [h]

theorem bankOf_resetMasks (s : State) (d line : Nat) (h : (s.domain d).l2hash = [0x111, 0x222, 0x444, 0x888]) :
    bankOf s d line = (line % 16) ^^^ (line / 16 % 16) ^^^ (line / 256 % 16) := by
  have small : (line % 16) ^^^ (line / 16 % 16) ^^^ (line / 256 % 16) < 2 ^ 4 :=
    Nat.xor_lt_two_pow (Nat.xor_lt_two_pow (by omega) (by omega)) (by omega)
  have bit : ∀ i < 4, ((line % 16) ^^^ (line / 16 % 16) ^^^ (line / 256 % 16)).testBit i =
      (line.testBit i ^^ line.testBit (i + 4) ^^ line.testBit (i + 8)) := by
    intro i hi
    have h0 := testBit_nibble line 0 i hi
    have h1 := testBit_nibble line 1 i hi
    have h2 := testBit_nibble line 2 i hi
    norm_num at h0 h1 h2
    rw [Nat.testBit_xor, Nat.testBit_xor, h0, h1, h2]
  rw [← sum_bits_of_lt small, bit 0 (by omega), bit 1 (by omega), bit 2 (by omega), bit 3 (by omega)]
  simp only [bankOf, h, List.range, List.range.loop, List.foldl, List.getD_cons_zero, List.getD_cons_succ]
  rw [parity_and_resetMask line (i := 0) (by decide), parity_and_resetMask line (i := 1) (by decide),
    parity_and_resetMask line (i := 2) (by decide), parity_and_resetMask line (i := 3) (by decide)]
  omega

/-! ## Reset -/

@[simp] theorem State.core_reset (c : Nat) : State.reset.core c = {} := rfl
@[simp] theorem State.domain_reset (d : Nat) : State.reset.domain d = {} := rfl
@[simp] theorem State.viface_reset (v : Nat) : State.reset.viface v = {} := rfl

/-- Settles O59: every table of the reset state is empty, so each home reads its default; the banks follow from the
reset masks. -/
theorem resetState : Obligations.ResetState := by
  refine ⟨by decide, rfl, rfl, rfl, rfl, rfl, rfl, rfl, rfl, rfl, rfl, rfl, ?cores, ?domains, ?vifaces, ?threads⟩
  case cores => exact fun c => ⟨rfl, rfl, rfl, rfl, rfl, fun p => ⟨rfl, rfl⟩⟩
  case domains =>
    exact fun d line => ⟨rfl, rfl, rfl, rfl, rfl, rfl, rfl, rfl, bankOf_resetMasks _ d line rfl⟩
  case vifaces => exact fun v n => ⟨rfl, rfl⟩
  case threads =>
    intro n i
    refine ⟨?_, rfl, rfl, rfl, rfl⟩
    unfold Thread.reg
    split <;> rfl

end Sys2Proof.Machine
end

section
/-!
The step of the module: the issue of a weft runs what is fetched and decoded, and a turn of the agenda is one such
step, or one step of the device (R22, R65, R139, R141).
-/
namespace Sys2Proof.Machine
open Sys2Proof

/-! ## The word that is fetched (R22, R44) -/

/-- Bit 0 of a word that is fetched says its length. -/
theorem fetchWord_len {s u : State} {core : Nat} {g : Grid} {pc : DWord} {word len : Nat}
    (h : fetchWord s core g pc = (.ok (word, len), u)) : len = if word % 2 = 0 then 2 else 4 := by
  unfold fetchWord at h
  split at h
  · cases h
  · cases h
  · next low s' _ =>
    split at h
    · next even => cases h; rw [if_pos even]
    · next odd =>
      split at h
      · cases h
      · cases h
      · cases h; rw [if_neg (by omega)]

theorem issueWeft_of_decode {s u : State} {b w : Nat} {h : Bool} {x : Issue} {word len : Nat} {i : Instr}
    (hx : issueSet s b w h = some x)
    (hf : fetchWord s (s.block b).core (s.grid (s.block b).gid) x.pc = (.ok (word, len), u))
    (hd : decodeWord word = .ok i) :
    issueWeft s b w h =
      exec i (prepare u { x with word := word, len := len, bad := regFaults u { x with word := word, len := len } i }) := by
  simp only [issueWeft, hx, hf, hd]

theorem issueWeft_of_no_instruction {s u : State} {b w : Nat} {h : Bool} {x : Issue} {word len : Nat} {e : Reject}
    (hx : issueSet s b w h = some x)
    (hf : fetchWord s (s.block b).core (s.grid (s.block b).gid) x.pc = (.ok (word, len), u))
    (hd : decodeWord word = .error e) :
    issueWeft s b w h = .next (trapAll (noteIssue (prepare u { x with word := word, len := len }))
      { cause := .illegal, addr := x.pc.toNat, info := word }) := by
  simp only [issueWeft, hx, hf, hd, illegalCond, prepare]

/-! ## Turns (R184, R205) -/

theorem issueAll_cons {s t : State} {b w : Nat} {h : Bool} (xs : List (Nat × Nat × Bool)) (hm : mayIssue s b w = true)
    (hi : issueWeft s b w h = .next t) : issueAll ((b, w, h) :: xs) s = issueAll xs t := by
  simp only [issueAll, hm, hi, if_true]

theorem step_of_turn {s : State} {x : Turn} {ts : List Turn} (ha : (prelude s).agenda = x :: ts) (hx : x ≠ .sameCycle) :
    step s = cycleTurn { prelude s with agenda := ts } x := by
  unfold step
  cases x with
  | sameCycle => exact absurd rfl hx
  | issue c p => simp only [ha]
  | event i => simp only [ha]

/-- A turn in a cycle of its own closes that cycle, if it has opened one. -/
theorem cycleTurn_alone {r t : State} {x : Turn} (hc : r.cycle = {}) (ht : takeTurn r x = .next t) :
    cycleTurn r x = .next (if t.cycle = {} then t else endCycle t) := by
  have hp : x.part.any r.cycle.parts.contains = false := by rw [hc]; cases x.part <;> rfl
  have hj : r.cycle.joined = false := by rw [hc]
  simp only [cycleTurn, hp, hj, ht, Bool.false_eq_true, if_false]

/-- A joined turn falls into the cycle of the turn before it. -/
theorem cycleTurn_joined {r t : State} {x : Turn} (hj : r.cycle.joined = true) (hp : ∀ q ∈ x.part, q ∉ r.cycle.parts)
    (ht : takeTurn r x = .next t) :
    cycleTurn r x = .next { t with cycle := { t.cycle with joined := false, parts := x.part.toList ++ r.cycle.parts } } := by
  have hp : x.part.any r.cycle.parts.contains = false := by
    cases h : x.part with
    | none => rfl
    | some q => simpa using hp q h
  simp only [cycleTurn, hp, hj, ht, Bool.false_eq_true, if_false, if_true]

/-- The state in which the wefts of a chosen row issue: the row is recorded, and the core's cycle counter rises. -/
noncomputable def rowIssues (r : State) (c p row : Nat) : State :=
  tick (r.setCore c { r.core c with lastRow := Sp.put (r.core c).lastRow p row }) c

theorem issueTurn_of_row {r : State} {c p row : Nat} {g : List (Nat × Nat × Bool)} (hc : r.cycle = {})
    (hr : pickRow r c p = some (row, g)) :
    issueTurn r c p = issueAll g (if g.length ≤ 1 then rowIssues r c p row
      else { rowIssues r c p row with cycle := { (rowIssues r c p row).cycle with joined := true } }) := by
  have once : tickOnce (r.setCore c { r.core c with lastRow := Sp.put (r.core c).lastRow p row }) c = rowIssues r c p row := by
    unfold tickOnce
    rw [State.setCore_cycle, hc]
    rfl
  unfold issueTurn
  rw [hr]
  dsimp only
  rw [once]

theorem issueTurn_one {r t : State} {c p row b w : Nat} {h : Bool} (hc : r.cycle = {})
    (hr : pickRow r c p = some (row, [(b, w, h)])) (hm : mayIssue (rowIssues r c p row) b w = true)
    (hi : issueWeft (rowIssues r c p row) b w h = .next t) : issueTurn r c p = .next t := by
  rw [issueTurn_of_row hc hr, if_pos (by simp), issueAll_cons [] hm hi, issueAll]

theorem issueTurn_more {r t : State} {c p row : Nat} {x y : Nat × Nat × Bool} {xs : List (Nat × Nat × Bool)}
    (hc : r.cycle = {}) (hr : pickRow r c p = some (row, x :: y :: xs))
    (hi : issueAll (x :: y :: xs) { rowIssues r c p row with cycle := { (rowIssues r c p row).cycle with joined := true } } =
      .next t) : issueTurn r c p = .next t := by
  rw [issueTurn_of_row hc hr, if_neg (by simp)]
  exact hi

theorem issueTurn_none {r : State} {c p : Nat} (hr : pickRow r c p = none) : issueTurn r c p = .next r := by
  simp only [issueTurn, hr]

/-- Settles O53: the fetched word by `fetchWord_len` and `issueWeft_of_decode`; a turn by what it comes to and the cycle
that it closes or joins. -/
theorem stepRunsDecodedInstruction : Obligations.StepRunsDecodedInstruction := by
  intro s ts c p row b w h xs r r' closed
  refine ⟨?fetched, ?issues, ?others, ?noRow, ?event, ?join, ?joined⟩
  case fetched =>
    intro x word len u hx hf y
    exact ⟨fetchWord_len hf, fun i hd => issueWeft_of_decode (x := x) hx hf hd,
      fun e hd => issueWeft_of_no_instruction (x := x) hx hf hd⟩
  case issues =>
    intro ha hc hr
    have turn {t : State} (ht : issueTurn r c p = .next t) : step s = .next (closed t) := by
      rw [step_of_turn ha (by simp)]
      exact cycleTurn_alone hc ht
    refine ⟨fun t hn hm hi => turn ?_, fun t hn hi => turn ?_⟩
    · subst hn; exact issueTurn_one hc hr hm hi
    · obtain ⟨y, ys, rfl⟩ := List.exists_cons_of_ne_nil hn
      exact issueTurn_more hc hr hi
  case others => exact fun t x hm hi => issueAll_cons x hm hi
  case noRow =>
    intro ha hc hr
    have ht : takeTurn r (.issue c p) = .next r := issueTurn_none hr
    rw [step_of_turn ha (by simp), cycleTurn_alone hc ht, if_pos hc]
  case event =>
    intro i ha hc
    refine ⟨fun t hl ht => ?_, fun hl => ?_⟩
    · have ht : takeTurn r (.event i) = .next t := by simp only [takeTurn, hl, if_true, ht]
      rw [step_of_turn ha (by simp)]
      exact cycleTurn_alone hc ht
    · have ht : takeTurn r (.event i) = .next r := by simp only [takeTurn, hl, if_false]
      rw [step_of_turn ha (by simp), cycleTurn_alone hc ht, if_pos hc]
  case join => intro ha; simp only [step, ha, r]
  case joined =>
    intro x t ha hx hj hp ht
    rw [step_of_turn ha hx]
    exact cycleTurn_joined hj hp ht

end Sys2Proof.Machine
end

section
/-!
ROLE and REGRANGE: what the role and the allotment of the weft at issue refuse (R15, R31, R142, R152).
-/
namespace Sys2Proof.Machine
open Sys2Proof

/-- ROLE of the word at issue (R152). -/
def roleTrap (s : State) : Cond := { cause := .role, addr := s.iss.pc.toNat, info := s.wft.role }

/-- REGRANGE of the word at issue, for register `v` (R15). -/
def rangeTrap (s : State) (v : Nat) : Cond := { cause := .regrange, addr := s.iss.pc.toNat, info := v }

/-- The kind of the role of the weft at issue. -/
def State.kindAtIssue (s : State) : RoleKind := (s.roleOf s.iss.blk s.iss.weft).kind

/-! ## The condition of the role and the allotment -/

theorem preCond_role {s : State} {p : Pre} (he : p.early = none) (hp : p.permitted s.kindAtIssue = false) :
    preCond s p = some (roleTrap s) := by
  unfold State.kindAtIssue at hp
  simp only [preCond, he, hp, roleTrap, State.wft, Option.isSome_none, Bool.not_false, Bool.false_eq_true, if_false, if_true]

/-- The first field whose highest register lies beyond the allotment decides. -/
theorem preCond_range {s : State} {p : Pre} {v : Nat} (he : p.early = none) (hp : p.permitted s.kindAtIssue = true)
    (hv : (p.regs.map fun f => f.1 + f.2 - 1).find? (fun v => decide ((s.roleOf s.iss.blk s.iss.weft).regs ≤ v)) = some v) :
    preCond s p = some (rangeTrap s v) := by
  unfold State.kindAtIssue at hp
  rw [List.find?_map, Option.map_eq_some_iff] at hv
  obtain ⟨f, hf, rfl⟩ := hv
  simp only [Function.comp_def] at hf
  simp only [preCond, he, hp, hf, rangeTrap, Option.isSome_none, Bool.not_true, Bool.false_eq_true, if_false]

section
variable {s : State} (hl : s.iss.lanes ≠ [])
include hl

theorem issue_role {p : Pre} (he : p.early = none) (hp : p.permitted s.kindAtIssue = false) (busy : State → Bool)
    (body : State → State) : issue p busy body s = .next (trapAll (noteIssue s) (roleTrap s)) :=
  issue_trap hl (preCond_role he hp) busy body

theorem issueLanes_role {c : IClass} (hc : s.kindAtIssue.permits c = false) (rs ks : List Regs) (f : State → Nat → LaneRes) :
    issueLanes c rs ks f s = .next (trapAll (noteIssue s) (roleTrap s)) :=
  issue_role hl rfl hc _ _

theorem issueLanes_range {c : IClass} (hc : s.kindAtIssue.permits c = true) {rs : List Regs} {v : Nat}
    (hv : (rs.map fun f => f.1 + f.2 - 1).find? (fun v => decide ((s.roleOf s.iss.blk s.iss.weft).regs ≤ v)) = some v)
    (ks : List Regs) (f : State → Nat → LaneRes) :
    issueLanes c rs ks f s = .next (trapAll (noteIssue s) (rangeTrap s v)) :=
  issue_trap hl (preCond_range rfl hc hv) _ _

theorem issueCopy_role (hc : copyRole s.kindAtIssue = false) (rs : List Regs) (core : Nat) (busy wants : Bool)
    (body : State → State) : issueCopy rs core busy wants body s = .next (trapAll (noteIssue s) (roleTrap s)) := by
  have hp : preCond s { permitted := copyRole, regs := rs } = some (roleTrap s) := preCond_role rfl hc
  unfold issueCopy
  simp only [hp, Option.isNone_some, Bool.and_false, Bool.false_and, Bool.false_eq_true, if_false]
  exact issue_trap hl hp _ _

end

/-! ## The instructions of each kind of role (R152) -/

theorem exec_float (s : State) (d a : VReg) (x : Src) :
    ∀ i ∈ ([.fadd d a x, .fmul d a x, .ffma d a x, .frcp d a, .fslt d a x, .dadd d a x, .dfma d a x, .hadd2 d a x,
        .cvtI32F32 d a] : List Instr), ∃ c rs ks f, (c = .fp32 ∨ c = .fp64) ∧ exec i s = issueLanes c rs ks f s := by
  simp only [List.forall_mem_cons, List.not_mem_nil, false_implies, implies_true, and_true]
  exact ⟨⟨_, _, _, _, .inl rfl, show execFadd d a x s = _ by unfold execFadd fp32Bin; exact rfl⟩,
    ⟨_, _, _, _, .inl rfl, show execFmul d a x s = _ by unfold execFmul fp32Bin; exact rfl⟩,
    ⟨_, _, _, _, .inl rfl, show execFfma d a x s = _ by unfold execFfma; exact rfl⟩,
    ⟨_, _, _, _, .inl rfl, show execFrcp d a s = _ by unfold execFrcp fp32Un; exact rfl⟩,
    ⟨_, _, _, _, .inl rfl, show execFslt d a x s = _ by unfold execFslt fp32Rel; exact rfl⟩,
    ⟨_, _, _, _, .inr rfl, show execDadd d a x s = _ by unfold execDadd fp64Bin; exact rfl⟩,
    ⟨_, _, _, _, .inr rfl, show execDfma d a x s = _ by unfold execDfma; exact rfl⟩,
    ⟨_, _, _, _, .inr rfl, show execHadd2 d a x s = _ by unfold execHadd2 packed; exact rfl⟩,
    ⟨_, _, _, _, .inl rfl, show execCvtI32F32 d a s = _ by unfold execCvtI32F32; exact rfl⟩⟩

theorem copyLanesIssue_is_issueCopy (store : Bool) (a b : VReg) (n : BitVec 4) (z : Nat) (s : State) :
    ∃ rs core busy wants body, copyLanesIssue store a b n z s = issueCopy rs core busy wants body s := by
  unfold copyLanesIssue
  exact ⟨_, _, _, _, _, rfl⟩

theorem tileIssue_is_issueCopy (store : Bool) (ka kb kc : KReg) (n : BitVec 4) (s : State) :
    ∃ rs core busy wants body, tileIssue store ka kb kc n s = issueCopy rs core busy wants body s := by
  unfold tileIssue
  exact ⟨_, _, _, _, _, rfl⟩

theorem exec_copy (s : State) (a b : VReg) (k : KReg) (n : BitVec 4) (z : CpSize) :
    ∀ i ∈ ([.cpgs a b n z, .cpsg a b n z, .cptl k k k n, .cpts k k k n, .cppw k k n] : List Instr),
      ∃ rs core busy wants body, exec i s = issueCopy rs core busy wants body s := by
  simp only [List.forall_mem_cons, List.not_mem_nil, false_implies, implies_true, and_true]
  refine ⟨?_, ?_, ?_, ?_, ?_⟩
  · exact copyLanesIssue_is_issueCopy false a b n (CpSize.bytes z) s
  · exact copyLanesIssue_is_issueCopy true a b n (CpSize.bytes z) s
  · exact tileIssue_is_issueCopy false k k k n s
  · exact tileIssue_is_issueCopy true k k k n s
  · change ∃ rs core busy wants body, execCppw k k n s = issueCopy rs core busy wants body s
    unfold execCppw
    exact ⟨_, _, _, _, _, rfl⟩

/-- The roles of the matrix engine's instructions (R152). -/
def matrixRole (k : RoleKind) : Bool := k == .general || k == .matrix

theorem exec_matrix (s : State) (k : KReg) (d : VReg) :
    ∀ i ∈ ([.mxpush k, .mxfence, .mxquery d] : List Instr),
      ∃ rs busy body, exec i s = issue { permitted := matrixRole, regs := rs } busy body s := by
  simp only [List.forall_mem_cons, List.not_mem_nil, false_implies, implies_true, and_true]
  exact ⟨⟨_, _, _, show execMxpush k s = _ by unfold execMxpush; exact rfl⟩,
    ⟨_, _, _, show execMxfence s = _ by unfold execMxfence; exact rfl⟩,
    ⟨_, _, _, show execMxquery d s = _ by unfold execMxquery; exact rfl⟩⟩

theorem exec_quantise (s : State) (k : KReg) (f : BitVec 1) :
    ∃ busy body, exec (.qblk k k k f) s =
      issue { permitted := fun k => k == .general || k == .vector, regs := [] } busy body s :=
  ⟨_, _, show execQblk k k k f s = _ by unfold execQblk; exact rfl⟩

theorem exec_wordOperands (s : State) (d a b : VReg) :
    ∀ i ∈ ([.iadd d a (.v b), .isub d a (.v b), .and d a (.v b), .sel d a (.v b), .shfl d a (.v b)] : List Instr),
      ∃ ks f, exec i s = issueLanes .integer [one d, one a, one b] ks f s := by
  simp only [List.forall_mem_cons, List.not_mem_nil, false_implies, implies_true, and_true]
  exact ⟨⟨_, _, show execIadd d a (.v b) s = _ by unfold execIadd aluWord; exact rfl⟩,
    ⟨_, _, show execIsub d a (.v b) s = _ by unfold execIsub aluWord; exact rfl⟩,
    ⟨_, _, show execAnd d a (.v b) s = _ by unfold execAnd aluWord; exact rfl⟩,
    ⟨_, _, show execSel d a (.v b) s = _ by unfold execSel aluAccum; exact rfl⟩,
    ⟨_, _, show execShfl d a (.v b) s = _ by unfold execShfl shuffle; exact rfl⟩⟩

/-- Settles O56: each instruction of the lists is an issue of its class, which the role or the allotment refuses before
any dependence is looked at. -/
theorem roleAndAllotmentTraps : Obligations.RoleAndAllotmentTraps := by
  intro s d a b x k n f z hl r named
  refine ⟨?float, ?copy, ?matrix, ?quantise, ?range⟩
  case float =>
    intro i hi (hk : s.kindAtIssue = .copy ∨ s.kindAtIssue = .matrix)
    obtain ⟨c, rs, ks, g, hc, he⟩ := exec_float s d a x i hi
    have refused : s.kindAtIssue.permits c = false := by
      rcases hk with hk | hk <;> rcases hc with rfl | rfl <;> rw [hk] <;> rfl
    rw [he]
    exact issueLanes_role hl refused rs ks g
  case copy =>
    intro i hi (hk : s.kindAtIssue = .vector ∨ s.kindAtIssue = .matrix)
    obtain ⟨rs, core, busy, wants, body, he⟩ := exec_copy s a b k n z i hi
    rw [he]
    exact issueCopy_role hl (by rcases hk with hk | hk <;> rw [hk] <;> rfl) rs core busy wants body
  case matrix =>
    intro i hi (hk : s.kindAtIssue = .vector ∨ s.kindAtIssue = .copy)
    obtain ⟨rs, busy, body, he⟩ := exec_matrix s k d i hi
    have refused : matrixRole s.kindAtIssue = false := by rcases hk with hk | hk <;> rw [hk] <;> rfl
    rw [he]
    exact issue_role hl rfl refused busy body
  case quantise =>
    intro (hk : s.kindAtIssue = .copy ∨ s.kindAtIssue = .matrix)
    obtain ⟨busy, body, he⟩ := exec_quantise s k f
    rw [he]
    exact issue_role hl rfl (by rcases hk with hk | hk <;> rw [hk] <;> rfl) busy body
  case range =>
    intro i hi v hv
    obtain ⟨ks, g, he⟩ := exec_wordOperands s d a b i hi
    have permitted : s.kindAtIssue.permits .integer = true := by cases s.kindAtIssue <;> rfl
    rw [he]
    exact issueLanes_range hl permitted (rs := [one d, one a, one b]) hv ks g

end Sys2Proof.Machine
end

section
/-!
What the record of an issue leaves of the threads, wefts and blocks: it changes only the DELIVER marks, the weft's
record of streams and the block's count of issues (R143, R144, R385); and instructions that act on each lane.
-/
namespace Sys2Proof.Machine
open Sys2Proof

/-! ## The record of an issue, home by home -/

theorem clearDeliver_thread (s : State) (b w l : Nat) :
    ∃ d, (clearDeliver s).thread b w l = { s.thread b w l with deliver := d } := by
  rw [clearDeliver_eq]
  generalize maskLanes s.iss.deliver = ls
  generalize s.iss.blk = b'
  generalize s.iss.weft = w'
  induction ls generalizing s with
  | nil => exact ⟨_, rfl⟩
  | cons k ls ih =>
    obtain ⟨d, h⟩ := ih (s.setThread b' w' k { s.thread b' w' k with deliver := false })
    have hs : setLanes b' w' (fun u l => { u.thread b' w' l with deliver := false }) (k :: ls) s =
        setLanes b' w' (fun u l => { u.thread b' w' l with deliver := false }) ls
          (s.setThread b' w' k { s.thread b' w' k with deliver := false }) := rfl
    rw [hs, h, State.thread_setThread]
    split
    · next hk =>
      have same : s.thread b w l = s.thread b' w' k := by simp only [State.thread, hk]
      exact ⟨d, by rw [same]⟩
    · exact ⟨d, rfl⟩

/-- A thread keeps all but its DELIVER mark. -/
theorem noteIssue_thread (s : State) (b w l : Nat) :
    ∃ d, (noteIssue s).thread b w l = { s.thread b w l with deliver := d } := by
  obtain ⟨d, h⟩ := clearDeliver_thread s b w l
  refine ⟨d, ?_⟩
  rw [← h]
  rfl

/-- A weft keeps all but its starvation counters and the stream that issued last. -/
theorem noteIssue_weft (s : State) (b w : Nat) :
    ∃ i j k, (noteIssue s).weft b w = { s.weft b w with sbUser := i, sbHandler := j, lastHandler := k } := by
  have hw : ∀ b w, (clearDeliver s).weft b w = s.weft b w := fun b w => by simp only [State.weft, clearDeliver_wefts]
  simp only [noteIssue, State.weft_setWeft, State.setBlock_weft_home, hw, State.setBlock_iss, clearDeliver_iss]
  split
  · next hk =>
    have same : s.weft b w = s.weft s.iss.blk s.iss.weft := by simp only [State.weft, hk]
    rw [same]
    split <;> exact ⟨_, _, _, rfl⟩
  · exact ⟨_, _, _, rfl⟩

/-- A block keeps all but its count of issues. -/
theorem noteIssue_block (s : State) (b : Nat) : ∃ n, (noteIssue s).block b = { s.block b with issues := n } := by
  have hb : ∀ b, (clearDeliver s).block b = s.block b := fun b => by simp only [State.block, clearDeliver_blocks]
  simp only [noteIssue, State.setWeft_block_home, State.block_setBlock, hb, clearDeliver_iss]
  split
  · next h => subst h; exact ⟨_, rfl⟩
  · exact ⟨_, rfl⟩

section
variable (s : State) (b w l : Nat)

@[simp] theorem noteIssue_thread_tst : ((noteIssue s).thread b w l).tst = (s.thread b w l).tst := by
  obtain ⟨d, h⟩ := noteIssue_thread s b w l; rw [h]
@[simp] theorem noteIssue_thread_pc : ((noteIssue s).thread b w l).pc = (s.thread b w l).pc := by
  obtain ⟨d, h⟩ := noteIssue_thread s b w l; rw [h]
@[simp] theorem noteIssue_thread_v : ((noteIssue s).thread b w l).v = (s.thread b w l).v := by
  obtain ⟨d, h⟩ := noteIssue_thread s b w l; rw [h]
@[simp] theorem noteIssue_thread_x : ((noteIssue s).thread b w l).x = (s.thread b w l).x := by
  obtain ⟨d, h⟩ := noteIssue_thread s b w l; rw [h]
@[simp] theorem noteIssue_thread_rs : ((noteIssue s).thread b w l).rs = (s.thread b w l).rs := by
  obtain ⟨d, h⟩ := noteIssue_thread s b w l; rw [h]
@[simp] theorem noteIssue_thread_sptr : ((noteIssue s).thread b w l).sptr = (s.thread b w l).sptr := by
  obtain ⟨d, h⟩ := noteIssue_thread s b w l; rw [h]
@[simp] theorem noteIssue_thread_hold : ((noteIssue s).thread b w l).hold = (s.thread b w l).hold := by
  obtain ⟨d, h⟩ := noteIssue_thread s b w l; rw [h]
@[simp] theorem noteIssue_thread_reg (r : Nat) : ((noteIssue s).thread b w l).reg r = (s.thread b w l).reg r := by
  simp only [Thread.reg, noteIssue_thread_v]
@[simp] theorem noteIssue_thread_pair (r : Nat) : ((noteIssue s).thread b w l).pair r = (s.thread b w l).pair r := by
  simp only [Thread.pair, noteIssue_thread_reg]
@[simp] theorem noteIssue_thread_quad (r : Nat) : ((noteIssue s).thread b w l).quad r = (s.thread b w l).quad r := by
  simp only [Thread.quad, noteIssue_thread_reg]

@[simp] theorem noteIssue_weft_park : ((noteIssue s).weft b w).park = (s.weft b w).park := by
  obtain ⟨i, j, k, h⟩ := noteIssue_weft s b w; rw [h]
@[simp] theorem noteIssue_weft_counter (c : Counter) : ((noteIssue s).weft b w).counter c = (s.weft b w).counter c := by
  obtain ⟨i, j, k, h⟩ := noteIssue_weft s b w; rw [h]; cases c <;> rfl
@[simp] theorem noteIssue_weft_kreg (r : Nat) : ((noteIssue s).weft b w).kreg r = (s.weft b w).kreg r := by
  obtain ⟨i, j, k, h⟩ := noteIssue_weft s b w; rw [h]; rfl

@[simp] theorem noteIssue_block_core : ((noteIssue s).block b).core = (s.block b).core := by
  obtain ⟨n, h⟩ := noteIssue_block s b; rw [h]
@[simp] theorem noteIssue_block_spm : ((noteIssue s).block b).spm = (s.block b).spm := by
  obtain ⟨n, h⟩ := noteIssue_block s b; rw [h]
@[simp] theorem noteIssue_block_gid : ((noteIssue s).block b).gid = (s.block b).gid := by
  obtain ⟨n, h⟩ := noteIssue_block s b; rw [h]
@[simp] theorem noteIssue_block_stage : ((noteIssue s).block b).stage = (s.block b).stage := by
  obtain ⟨n, h⟩ := noteIssue_block s b; rw [h]

end

theorem noteIssue_lane (s : State) (l : Nat) : (noteIssue s).lane l = (noteIssue s).thread s.iss.blk s.iss.weft l := by
  simp only [State.lane, noteIssue_iss]

/-- The lane at issue, as the record of the issue leaves it, is the lane but for its DELIVER mark. -/
theorem noteIssue_thread_lane (s : State) (l : Nat) :
    ∃ d, (noteIssue s).thread s.iss.blk s.iss.weft l = { s.lane l with deliver := d } :=
  noteIssue_thread s s.iss.blk s.iss.weft l

@[simp] theorem noteIssue_wft_kreg (s : State) (r : Nat) : (noteIssue s).wft.kreg r = s.wft.kreg r := by
  simp only [State.wft, noteIssue_iss, noteIssue_weft_kreg]

@[simp] theorem noteIssue_nextPc (s : State) : nextPc (noteIssue s) = nextPc s := by simp only [nextPc, noteIssue_iss]

/-- The record of an issue changes nothing that an operation at issue holds. -/
@[simp] theorem issuedOp_noteIssue (s : State) (a : Access) (lanes : List LaneAcc) (m : Nat) :
    issuedOp (noteIssue s) a lanes m = issuedOp s a lanes m := by
  simp only [issuedOp, noteIssue_iss, noteIssue_block_core]

/-! ## Lanes that nothing holds back -/

/-- No lane of an issue set that may issue is held by an operation (R126, R142, R253). -/
theorem hold_eq_none_of_not_busy {s : State} {rs ks : List Regs} (h : issueBusy s rs ks = false) {l : Nat}
    (hl : l ∈ s.iss.lanes) : (s.lane l).hold = none := by
  simp only [issueBusy, Bool.or_eq_false_iff, List.any_eq_false] at h
  have hb := h.1 l hl
  simp only [laneBusy, laneStopped, Bool.or_eq_true, not_or, Option.not_isSome_iff_eq_none] at hb
  exact hb.1.1.1

/-! ## Instructions that act on each lane -/

theorem LanesDo.congr {s t : State} {f g : Nat → Thread → Thread} (h : LanesDo s t f)
    (hfg : ∀ l ∈ s.iss.lanes, f l ((noteIssue s).thread s.iss.blk s.iss.weft l) =
      g l ((noteIssue s).thread s.iss.blk s.iss.weft l)) : LanesDo s t g :=
  ⟨fun l hl => (h.1 l hl).trans (hfg l hl), h.2⟩

/-- What the lanes of the issue set come to, each by its own part, where every part completes. -/
theorem lanesDo_foldl {s : State} {f : Nat → LaneRes} (hs : FormedSet s) (hf : ∀ l ∈ s.iss.lanes, (f l).completes = true) :
    LanesDo s (s.iss.lanes.foldl (laneStep f) (noteIssue s)) fun l _ => (f l).thread s := by
  obtain ⟨lanes, others, rest⟩ := foldl_laneStep (s := s) (u := noteIssue s) (noteIssue_iss s) hs.nodup hf
  exact ⟨lanes, others, rest⟩

/-- An instruction whose every lane's part is the same trap is a trap of every lane. -/
theorem foldl_laneStep_trap (c : Cond) (u : State) : u.iss.lanes.foldl (laneStep fun _ => .trap c) u = trapAll u c := by
  have one : laneStep (fun _ => .trap c) =
      fun s l => deliverTrap s s.iss.blk s.iss.weft l c (laneMask s.iss.lanes) 0 := by
    funext s l
    simp [laneStep, LaneRes.completes, laneMask]
  rw [one, trapAll]

/-! ## Targets (R21, R121) -/

theorem targetCond_of_legal {a : DWord} (h : LegalTarget a) : targetCond a = none := by
  simp only [targetCond, h.1, h.2, Bool.not_true, Bool.false_eq_true, if_false]

theorem transfer_of_legal (x : Thread) {a : DWord} (h : LegalTarget a) : transfer x a = .goto { x with pc := a } := by
  simp only [transfer, targetCond_of_legal h]

end Sys2Proof.Machine
end

section
/-!
Branches: each lane that is transferred goes to its own legal target, and an illegal one traps (R119 to R121, R171).
-/
namespace Sys2Proof.Machine
open Sys2Proof

/-! ## Canonical addresses (R21, R28) -/

/-- An address is the sign extension of its low 57 bits exactly where its upper bits repeat bit 56. -/
theorem canonical_iff (a : DWord) : canonical a = true ↔ ∀ i, 57 ≤ i → i < 64 → a.getLsbD i = a.getLsbD 56 := by
  have bit : ∀ i < 64, (BitVec.signExtend 64 (a.extractLsb' 0 57)).getLsbD i =
      if i < 57 then a.getLsbD i else a.getLsbD 56 := by
    intro i hi
    have msb : (a.extractLsb' 0 57).msb = a.getLsbD 56 := by simp [BitVec.msb_eq_getLsbD_last]
    rw [BitVec.getLsbD_signExtend, msb]
    split <;> simp [*]
  rw [canonical, beq_iff_eq]
  constructor
  · intro h i hi hi'
    rw [← h, bit i hi', bit 56 (by omega), if_neg (by omega), if_pos (by omega)]
  · intro h
    apply BitVec.eq_of_getLsbD_eq
    intro i hi
    rw [bit i hi]
    split
    · rfl
    · exact (h i (by omega) hi).symm

theorem targetCond_of_not_canonical {a : DWord} (h : canonical a = false) :
    targetCond a = some { cause := .translate, reason := 4, addr := a.toNat, info := 7 } := by
  simp only [targetCond, h, Bool.not_false, if_true]

theorem targetCond_of_odd {a : DWord} (h : canonical a = true) (ho : a.getLsbD 0 = true) :
    targetCond a = some { cause := .misalign, addr := a.toNat, info := 7 } := by
  simp only [targetCond, h, ho, Bool.not_true, Bool.false_eq_true, if_false, if_true]

/-! ## One branch (R119) -/

/-- A branch in one lane: where it is taken the lane goes to its target, else on. -/
def branchLane (taken : Nat → Thread → Bool) (target : Thread → DWord) (l : Nat) (x : Thread) : LaneRes :=
  if taken l x then transfer x (target x) else .next x

/-- The one lemma of branches, for a test and a target that look at no DELIVER mark. -/
theorem branch_spec {rs ks : List Regs} {f : State → Nat → LaneRes} {s : State} {taken : Nat → Thread → Bool}
    {target : Thread → DWord} (hi : Issues .sync rs ks s)
    (hf : ∀ l, f (noteIssue s) l = branchLane taken target l ((noteIssue s).thread s.iss.blk s.iss.weft l))
    (mark : ∀ l (x : Thread) d, taken l { x with deliver := d } = taken l x ∧ target { x with deliver := d } = target x)
    (legal : ∀ l ∈ s.iss.lanes, taken l (s.lane l) = true → LegalTarget (target (s.lane l))) :
    ∃ t, issueLanes .sync rs ks f s = .next t ∧
      LanesDo s t fun l x => { x with pc := if taken l x then target x else nextPc s } := by
  have lane : ∀ l ∈ s.iss.lanes, (f (noteIssue s) l).completes = true ∧ (f (noteIssue s) l).thread s =
      { (noteIssue s).thread s.iss.blk s.iss.weft l with
        pc := if taken l ((noteIssue s).thread s.iss.blk s.iss.weft l) then target ((noteIssue s).thread s.iss.blk s.iss.weft l)
          else nextPc s } := by
    intro l hl
    obtain ⟨d, hd⟩ := noteIssue_thread_lane s l
    rw [hf l, hd, branchLane, (mark l (s.lane l) d).1, (mark l (s.lane l) d).2]
    cases ht : taken l (s.lane l) with
    | false => exact ⟨rfl, rfl⟩
    | true => rw [if_pos rfl, transfer_of_legal _ (legal l hl ht)]; exact ⟨rfl, rfl⟩
  obtain ⟨t, he, hd⟩ := issueLanes_spec hi fun l hl => (lane l hl).1
  exact ⟨t, he, hd.congr fun l hl => (lane l hl).2⟩

/-- A BRA to a target that is not legal is the target's trap in every lane. -/
theorem execBra_trap {s : State} {off : BitVec 24} {c : Cond} (hi : Issues .sync [] [] s)
    (hc : targetCond (s.iss.pc + 2 * BitVec.signExtend 64 off) = some c) :
    execBra off s = .next (trapAll (noteIssue s) c) := by
  obtain ⟨⟨hl, -⟩, allowed, free, clean⟩ := hi
  have lane : (fun l => transfer ((noteIssue s).lane l) (relTarget (noteIssue s).iss.pc off)) = fun _ => LaneRes.trap c := by
    funext l
    simp only [transfer, relTarget, noteIssue_iss, hc]
  rw [execBra, issueLanes, issue_body hl (preCond_none allowed) free clean, lane, foldl_laneStep_trap]

/-- Settles O20: every branch is a `branchLane` of its own test and target. -/
theorem branchResults : Obligations.BranchResults := by
  refine ⟨fun s i rs ks taken target form hi legal => ?_, fun a s off => ⟨canonical_iff a, targetCond_of_not_canonical,
    targetCond_of_odd, targetCond_of_legal, fun c hi hc => execBra_trap hi hc⟩⟩
  rcases form with ⟨off, rfl, rfl, rfl, ht, hg⟩ | ⟨a, off, rfl, rfl, rfl, ht, hg⟩ | ⟨a, off, rfl, rfl, rfl, ht, hg⟩ |
    ⟨a, rfl, rfl, rfl, ht, hg⟩ | ⟨a, off, rfl, rfl, rfl, ht, hg⟩ | ⟨a, off, rfl, rfl, rfl, ht, hg⟩
  case inl =>
    change ∃ t, execBra off s = _ ∧ _
    unfold execBra
    exact branch_spec hi (fun l => by simp [ht, hg, branchLane, relTarget, noteIssue_lane])
      (fun l x d => by rw [ht, hg]; exact ⟨rfl, rfl⟩) legal
  case inr.inl =>
    change ∃ t, execBnz a off s = _ ∧ _
    unfold execBnz
    exact branch_spec hi (fun l => by simp [ht, hg, branchLane, relTarget, noteIssue_lane])
      (fun l x d => by rw [ht, hg]; exact ⟨rfl, rfl⟩) legal
  case inr.inr.inl =>
    change ∃ t, execBz a off s = _ ∧ _
    unfold execBz
    exact branch_spec hi (fun l => by simp [ht, hg, branchLane, relTarget, noteIssue_lane])
      (fun l x d => by rw [ht, hg]; exact ⟨rfl, rfl⟩) legal
  case inr.inr.inr.inl =>
    change ∃ t, execJmpr a s = _ ∧ _
    unfold execJmpr
    exact branch_spec hi (fun l => by simp [ht, hg, branchLane, noteIssue_lane])
      (fun l x d => by rw [ht, hg]; exact ⟨rfl, rfl⟩) legal
  case inr.inr.inr.inr.inl =>
    change ∃ t, execKbnz a off s = _ ∧ _
    unfold execKbnz
    exact branch_spec hi (fun l => by simp [ht, hg, branchLane, relTarget, noteIssue_lane])
      (fun l x d => by rw [ht, hg]; exact ⟨rfl, rfl⟩) legal
  case inr.inr.inr.inr.inr =>
    change ∃ t, execKbz a off s = _ ∧ _
    unfold execKbz
    exact branch_spec hi (fun l => by simp [ht, hg, branchLane, relTarget, noteIssue_lane])
      (fun l x d => by rw [ht, hg]; exact ⟨rfl, rfl⟩) legal

end Sys2Proof.Machine
end

section
/-!
Calls and returns: on chip, and through the spill area (R24 to R27).
-/
namespace Sys2Proof.Machine
open Sys2Proof

@[simp] theorem noteIssue_lane_rs (s : State) (l : Nat) : ((noteIssue s).lane l).rs = (s.lane l).rs := by
  rw [noteIssue_lane, noteIssue_thread_rs, State.lane]

@[simp] theorem noteIssue_lane_sptr (s : State) (l : Nat) : ((noteIssue s).lane l).sptr = (s.lane l).sptr := by
  rw [noteIssue_lane, noteIssue_thread_sptr, State.lane]

/-! ## Addresses of the spill area (R26) -/

/-- A spill or refill address that no check of R126 refuses before it is translated. -/
def StackFits (a : DWord) : Prop := canonical a = true ∧ a.toNat % 8 = 0

theorem stackCond_of_fits {a : DWord} (h : StackFits a) : stackCond a = none := by
  obtain ⟨hc, ha⟩ := h
  simp [stackCond, hc, ha]

/-- A lookup of no address waits for no miss. -/
theorem missStall_nil (s : State) : missStall s [] = false := by simp [missStall]

/-! ## Calls (R24) -/

/-- What a call does in one lane: it pushes on chip, or moves its oldest entry to the spill area and awaits that. -/
def callThread (s : State) (tgt : Thread → DWord) (x : Thread) : Thread :=
  if x.rs.length < 4 then pushCall x (s.iss.pc + 4) (tgt x)
  else { spillCall x (s.iss.pc + 4) (tgt x) with hold := some s.nextOp }

/-- The lanes of the issue set whose call spills. -/
def spillLanes (s : State) : List Nat := s.iss.lanes.filter fun l => decide (4 ≤ (s.lane l).rs.length)

/-- The lanes of the issue set whose call stays on chip. -/
def pushLanes (s : State) : List Nat := s.iss.lanes.filter fun l => decide ((s.lane l).rs.length < 4)

/-- The operation of the lanes of a call that spill (R26). -/
def spillOp (s : State) : MemOp :=
  issuedOp s { space := .global, fn := .spill, size := 8 }
    ((pushLanes s).map (onChip · 0) ++ (spillLanes s).map fun l =>
      { lane := l, addr := ((s.lane l).sptr - 8).toNat, data := ((s.lane l).rs.headD 0).toNat,
        deliver := s.iss.deliver.testBit l }) (laneMask (pushLanes s ++ spillLanes s))

/-- A call in one lane passes its checks: the target's, and those of the address it spills to. -/
def CallFits (x : Thread) (target : DWord) : Prop :=
  LegalTarget target ∧ (4 ≤ x.rs.length → StackFits (x.sptr - 8))

theorem callLane_of_fits {s : State} {l : Nat} {tgt : Thread → DWord} (h : CallFits (s.lane l) (tgt (s.lane l))) :
    callLane s l (tgt (s.lane l)) = .goto (callThread s tgt (s.lane l)) := by
  obtain ⟨legal, fits⟩ := h
  simp only [callLane, callThread, targetCond_of_legal legal]
  split
  · rfl
  · next full => simp only [stackCond_of_fits (fits (Nat.le_of_not_lt full))]

theorem spills_of_fits {s : State} {l : Nat} {target : Nat → DWord} (h : CallFits (s.lane l) (target l)) :
    spills s target l = decide (4 ≤ (s.lane l).rs.length) := by
  obtain ⟨legal, fits⟩ := h
  by_cases full : 4 ≤ (s.lane l).rs.length
  · simp only [spills, full, targetCond_of_legal legal, stackCond_of_fits (fits full), Option.isNone_none, Bool.and_true]
  · simp [spills, full]

/-- The lanes that spill, as the body of a call names them. -/
theorem filter_spills {s : State} {target : Nat → DWord} (h : ∀ l ∈ s.iss.lanes, CallFits (s.lane l) (target l)) :
    s.iss.lanes.filter (spills s target) = spillLanes s :=
  List.filter_congr fun l hl => spills_of_fits (h l hl)

/-- The lanes that have completed when a call's operation starts are those that push. -/
theorem filter_completed {s : State} {f : Nat → LaneRes} (h : ∀ l ∈ s.iss.lanes, (f l).completes = true) :
    (s.iss.lanes.filter fun l => !(spillLanes s).contains l && (f l).completes) = pushLanes s := by
  refine List.filter_congr fun l hl => ?_
  by_cases full : 4 ≤ (s.lane l).rs.length
  · simp [spillLanes, hl, full]
  · simp [spillLanes, full, h l hl]; omega

theorem CallFits.noteIssue {s : State} {l : Nat} {a : DWord} (h : CallFits (s.lane l) a) :
    CallFits ((noteIssue s).lane l) a := by
  rwa [CallFits, noteIssue_lane_rs, noteIssue_lane_sptr]

theorem spillLanes_noteIssue (s : State) : spillLanes (noteIssue s) = spillLanes s := by
  rw [spillLanes, noteIssue_iss]
  exact List.filter_congr fun l _ => by rw [noteIssue_lane_rs]

theorem pushLanes_noteIssue (s : State) : pushLanes (noteIssue s) = pushLanes s := by
  rw [pushLanes, noteIssue_iss]
  exact List.filter_congr fun l _ => by rw [noteIssue_lane_rs]

theorem spillOp_noteIssue (s : State) : spillOp (noteIssue s) = spillOp s := by
  simp only [spillOp, issuedOp_noteIssue, spillLanes_noteIssue, pushLanes_noteIssue, noteIssue_iss, noteIssue_lane_rs,
    noteIssue_lane_sptr]

/-- The one lemma of calls: every lane that passes its checks calls, and one operation stores for those that spill. -/
theorem execCallTo_spec {s : State} {rs : List Regs} {target : State → Nat → DWord} {tgt : Thread → DWord}
    (hi : Issues .sync rs [] s) (here : ∀ l, target s l = tgt (s.lane l))
    (there : ∀ l, target (noteIssue s) l = tgt ((noteIssue s).lane l))
    (mark : ∀ x d, tgt { x with deliver := d } = tgt x)
    (fits : ∀ l ∈ s.iss.lanes, CallFits (s.lane l) (tgt (s.lane l)))
    (room : spillLanes s = [] ∨ s.wft.room .st 1 = true)
    (hit : missStall s ((spillLanes s).map fun l => ((s.lane l).sptr - 8).toNat) = false) :
    ∃ u, LanesDo s u (fun _ => callThread s tgt) ∧ execCallTo rs target s =
      .next (if (spillLanes s).isEmpty then u else addCounted u .st (spillOp s)) := by
  obtain ⟨formed, allowed, free, clean⟩ := hi
  have fitsHere : ∀ l ∈ s.iss.lanes, CallFits (s.lane l) (target s l) := fun l hl => by rw [here]; exact fits l hl
  have fitsThere : ∀ l ∈ (noteIssue s).iss.lanes, CallFits ((noteIssue s).lane l) (target (noteIssue s) l) := by
    intro l hl
    rw [noteIssue_iss] at hl
    obtain ⟨d, hd⟩ := noteIssue_thread_lane s l
    rw [there, noteIssue_lane, hd, mark]
    exact fits l hl
  have busy : (issueBusy s rs [] || (s.iss.lanes.any (spills s (target s)) && !s.wft.room .st 1) ||
      missStall s ((s.iss.lanes.filter (spills s (target s))).map fun l => ((s.lane l).sptr - 8).toNat)) = false := by
    rw [filter_spills fitsHere, hit, free]
    rcases room with none | room
    · have : s.iss.lanes.any (spills s (target s)) = false := by
        rw [← Bool.not_eq_true, List.any_eq_true]
        rintro ⟨l, hl, hs⟩
        have : l ∈ s.iss.lanes.filter (spills s (target s)) := List.mem_filter.mpr ⟨hl, hs⟩
        rw [filter_spills fitsHere, none] at this
        cases this
      simp [this]
    · simp [room]
  have lane : ∀ l ∈ s.iss.lanes, callLane (noteIssue s) l (target (noteIssue s) l) =
      .goto (callThread s tgt ((noteIssue s).lane l)) := by
    intro l hl
    have := callLane_of_fits (tgt := tgt) (there l ▸ fitsThere l (by rwa [noteIssue_iss]))
    rw [there, this, callThread, callThread, noteIssue_iss, noteIssue_nextOp]
  have completes : ∀ l ∈ s.iss.lanes, (callLane (noteIssue s) l (target (noteIssue s) l)).completes = true :=
    fun l hl => by rw [lane l hl]; rfl
  refine ⟨_, (lanesDo_foldl formed completes).congr fun l hl => by rw [lane l hl, noteIssue_lane]; rfl, ?_⟩
  unfold execCallTo
  rw [issue_body formed.1 (preCond_none allowed) busy clean]
  dsimp only
  rw [filter_spills fitsThere, filter_completed (fun l hl => completes l (by rwa [noteIssue_iss] at hl)),
    ← spillOp_noteIssue, spillLanes_noteIssue]
  simp only [spillOp, stackAccess, spillLanes_noteIssue, noteIssue_iss]

/-- A CALL and a CALLR are calls to their own targets, which look at no DELIVER mark. -/
theorem exec_call {s : State} {i : Instr} {rs : List Regs} {tgt : Thread → DWord}
    (form : (∃ off, i = .call off ∧ rs = [] ∧ tgt = fun _ => s.iss.pc + 2 * BitVec.signExtend 64 off) ∨
      (∃ a, i = .callr a ∧ rs = [two a] ∧ tgt = fun x => x.pair a.toNat)) :
    ∃ target : State → Nat → DWord, exec i s = execCallTo rs target s ∧ (∀ l, target s l = tgt (s.lane l)) ∧
      (∀ l, target (noteIssue s) l = tgt ((noteIssue s).lane l)) ∧ ∀ x d, tgt { x with deliver := d } = tgt x := by
  rcases form with ⟨off, rfl, rfl, rfl⟩ | ⟨a, rfl, rfl, rfl⟩
  · refine ⟨fun s _ => relTarget s.iss.pc off, rfl, fun l => rfl, fun l => ?_, fun x d => rfl⟩
    simp only [relTarget, noteIssue_iss]
  · exact ⟨fun s l => (s.lane l).pair a.toNat, rfl, fun l => rfl, fun l => rfl, fun x d => rfl⟩

/-! ## Returns (R25) -/

/-- The lanes of the issue set whose return refills. -/
def refillLanes (s : State) : List Nat := s.iss.lanes.filter fun l => decide ((s.lane l).rs = [])

/-- The lanes of the issue set whose return finds its target on chip. -/
def popLanes (s : State) : List Nat := s.iss.lanes.filter fun l => decide ((s.lane l).rs ≠ [])

/-- What a return does in one lane: it pops its entry, or awaits the refill of its issue set. -/
def retThread (s : State) (x : Thread) : Thread :=
  if refillLanes s = [] then { x with rs := x.rs.dropLast, hold := none, pc := x.rs.getLastD 0 }
  else { x with hold := some s.nextOp }

/-- The operation of the lanes of a return that refill (R26). -/
def refillOp (s : State) : MemOp :=
  issuedOp s { space := .global, fn := .refill, size := 8 }
    (((popLanes s).map fun l => onChip l ((s.lane l).rs.getLastD 0).toNat) ++ (refillLanes s).map fun l =>
      { lane := l, addr := (s.lane l).sptr.toNat, deliver := s.iss.deliver.testBit l })
    (laneMask (popLanes s ++ refillLanes s))

/-- A return in one lane passes its checks: those of the address it refills from, or its target's. -/
def RetFits (x : Thread) : Prop :=
  (x.rs = [] → StackFits x.sptr) ∧ (x.rs ≠ [] → LegalTarget (x.rs.getLastD 0))

theorem refills_of_fits {s : State} {l : Nat} (h : RetFits (s.lane l)) : refills s l = decide ((s.lane l).rs = []) := by
  by_cases empty : (s.lane l).rs = []
  · simp [refills, empty, stackCond_of_fits (h.1 empty)]
  · simp [refills, empty]

theorem filter_refills {s : State} (h : ∀ l ∈ s.iss.lanes, RetFits (s.lane l)) :
    s.iss.lanes.filter (refills s) = refillLanes s :=
  List.filter_congr fun l hl => refills_of_fits (h l hl)

theorem any_refills {s : State} (h : ∀ l ∈ s.iss.lanes, RetFits (s.lane l)) :
    s.iss.lanes.any (refills s) = !(refillLanes s).isEmpty := by
  rw [← filter_refills h, Bool.eq_iff_iff]
  simp

theorem retLane_of_fits {s : State} (h : ∀ l ∈ s.iss.lanes, RetFits (s.lane l)) {l : Nat} (hl : l ∈ s.iss.lanes) :
    retLane s l = .goto (retThread s (s.lane l)) := by
  have waits := any_refills h
  by_cases empty : (s.lane l).rs = []
  · have some : refillLanes s ≠ [] := by
      intro none
      have : l ∈ refillLanes s := List.mem_filter.mpr ⟨hl, by simp [empty]⟩
      rw [none] at this
      cases this
    simp only [retLane, empty, List.isEmpty_nil, if_true, stackCond_of_fits ((h l hl).1 empty), retThread, if_neg some]
  · have legal := (h l hl).2 empty
    have notEmpty : (s.lane l).rs.isEmpty = false := by simp [empty]
    simp only [retLane, notEmpty, Bool.false_eq_true, if_false, targetCond_of_legal legal, waits, retThread]
    by_cases none : refillLanes s = []
    · simp only [none, List.isEmpty_nil, Bool.not_true, Bool.false_eq_true, if_false, if_true, popRet]
      rw [transfer_of_legal _ legal]
    · simp [none]

theorem filter_returned {s : State} {f : Nat → LaneRes} (h : ∀ l ∈ s.iss.lanes, (f l).completes = true) :
    (s.iss.lanes.filter fun l => !(refillLanes s).contains l && (f l).completes) = popLanes s := by
  refine List.filter_congr fun l hl => ?_
  by_cases empty : (s.lane l).rs = []
  · simp [refillLanes, hl, empty]
  · simp [refillLanes, empty, h l hl]

theorem refillLanes_noteIssue (s : State) : refillLanes (noteIssue s) = refillLanes s := by
  rw [refillLanes, noteIssue_iss]
  exact List.filter_congr fun l _ => by rw [noteIssue_lane_rs]

theorem popLanes_noteIssue (s : State) : popLanes (noteIssue s) = popLanes s := by
  rw [popLanes, noteIssue_iss]
  exact List.filter_congr fun l _ => by rw [noteIssue_lane_rs]

theorem refillOp_noteIssue (s : State) : refillOp (noteIssue s) = refillOp s := by
  simp only [refillOp, issuedOp_noteIssue, refillLanes_noteIssue, popLanes_noteIssue, noteIssue_iss, noteIssue_lane_rs,
    noteIssue_lane_sptr]

/-- The one lemma of returns. -/
theorem execRet_spec {s : State} (hi : Issues .sync [] [] s) (fits : ∀ l ∈ s.iss.lanes, RetFits (s.lane l))
    (room : refillLanes s = [] ∨ s.wft.room .ld 1 = true)
    (hit : missStall s ((refillLanes s).map fun l => (s.lane l).sptr.toNat) = false) :
    ∃ u, LanesDo s u (fun _ => retThread s) ∧ exec .ret s =
      .next (if (refillLanes s).isEmpty then u else addCounted u .ld (refillOp s)) := by
  obtain ⟨formed, allowed, free, clean⟩ := hi
  have fitsThere : ∀ l ∈ (noteIssue s).iss.lanes, RetFits ((noteIssue s).lane l) := by
    intro l hl
    rw [noteIssue_iss] at hl
    rw [RetFits, noteIssue_lane_rs, noteIssue_lane_sptr]
    exact fits l hl
  have busy : (issueBusy s [] [] || (s.iss.lanes.any (refills s) && !s.wft.room .ld 1) ||
      missStall s ((s.iss.lanes.filter (refills s)).map fun l => (s.lane l).sptr.toNat)) = false := by
    rw [filter_refills fits, any_refills fits, hit, free]
    rcases room with none | room
    · simp [none]
    · simp [room]
  have lane : ∀ l ∈ s.iss.lanes, retLane (noteIssue s) l = .goto (retThread s ((noteIssue s).lane l)) := by
    intro l hl
    rw [retLane_of_fits fitsThere (by rwa [noteIssue_iss]), retThread, retThread, refillLanes_noteIssue, noteIssue_nextOp]
  have completes : ∀ l ∈ s.iss.lanes, (retLane (noteIssue s) l).completes = true :=
    fun l hl => by rw [lane l hl]; rfl
  refine ⟨_, (lanesDo_foldl formed completes).congr fun l hl => by rw [lane l hl, noteIssue_lane]; rfl, ?_⟩
  change execRet s = _
  unfold execRet
  rw [issue_body formed.1 (preCond_none allowed) busy clean]
  dsimp only
  rw [filter_refills fitsThere, filter_returned (fun l hl => completes l (by rwa [noteIssue_iss] at hl)),
    ← refillOp_noteIssue, refillLanes_noteIssue]
  simp only [refillOp, stackAccess, refillLanes_noteIssue, noteIssue_iss]

/-! ## The obligations -/

/-- Settles O21: no lane spills or refills. -/
theorem callsAndReturnsOnChip : Obligations.CallsAndReturnsOnChip := by
  intro s
  refine ⟨fun i rs tgt form hi ready => ?_, fun hi ready => ?_⟩
  · obtain ⟨target, he, here, there, mark⟩ := exec_call form
    have none : spillLanes s = [] := List.filter_eq_nil_iff.mpr fun l hl => by have := (ready l hl).1; simp; omega
    obtain ⟨u, lanes, hu⟩ := execCallTo_spec hi here there mark
      (fun l hl => ⟨(ready l hl).2, fun h => absurd (ready l hl).1 (by omega)⟩) (.inl none)
      (by rw [none]; exact missStall_nil s)
    rw [he, hu, none]
    refine ⟨u, rfl, lanes.congr fun l hl => ?_⟩
    have room : ((noteIssue s).thread s.iss.blk s.iss.weft l).rs.length < 4 := by
      rw [noteIssue_thread_rs]; exact (ready l hl).1
    rw [callThread, if_pos room, pushCall]
  · have none : refillLanes s = [] := List.filter_eq_nil_iff.mpr fun l hl => by
      obtain ⟨a, ha, -⟩ := ready l hl
      simp only [decide_eq_true_eq]
      rintro h
      rw [h] at ha
      cases ha
    have fits : ∀ l ∈ s.iss.lanes, RetFits (s.lane l) := fun l hl => by
      obtain ⟨a, ha, legal⟩ := ready l hl
      refine ⟨fun h => ?_, fun _ => ?_⟩
      · rw [h] at ha; cases ha
      · rwa [List.getLastD_eq_getLast?, ha]
    obtain ⟨u, lanes, hu⟩ := execRet_spec hi fits (.inl none) (by rw [none]; exact missStall_nil s)
    rw [hu, none]
    refine ⟨u, rfl, lanes.congr fun l hl => ?_⟩
    have free : ((noteIssue s).thread s.iss.blk s.iss.weft l).hold = Option.none := by
      rw [noteIssue_thread_hold]; exact hold_eq_none_of_not_busy hi.2.2.1 hl
    rw [retThread, if_pos none, ← free]

/-- Settles O22: some lane spills or refills. -/
theorem callsAndReturnsThroughTheSpillArea : Obligations.CallsAndReturnsThroughTheSpillArea := by
  intro s
  refine ⟨fun i rs tgt form => ?_, ?_⟩
  · intro sp on hi room some hit ready
    obtain ⟨target, he, here, there, mark⟩ := exec_call form
    obtain ⟨u, lanes, hu⟩ := execCallTo_spec hi here there mark
      (fun l hl => ⟨(ready l hl).1, fun h => (ready l hl).2 (List.mem_filter.mpr ⟨hl, by simpa using h⟩)⟩) (.inr room) hit
    have notEmpty : (spillLanes s).isEmpty = false := List.isEmpty_eq_false_iff.mpr some
    rw [notEmpty] at hu
    exact ⟨_, u, he.trans hu, lanes, rfl⟩
  · intro rf on hi room some hit address target
    obtain ⟨u, lanes, hu⟩ := execRet_spec hi (fun l hl =>
      ⟨fun h => address l (List.mem_filter.mpr ⟨hl, by simpa using h⟩),
      fun h => target l (List.mem_filter.mpr ⟨hl, by simpa using h⟩)⟩) (.inr room) hit
    have some : refillLanes s ≠ [] := some
    have notEmpty : (refillLanes s).isEmpty = false := List.isEmpty_eq_false_iff.mpr some
    rw [notEmpty] at hu
    refine ⟨_, u, hu, lanes.congr fun l hl => ?_, rfl⟩
    rw [retThread, if_neg some]

end Sys2Proof.Machine
end

section
/-!
The control and status registers: values, views, privilege and existence (R18 to R20, R123, R379).
-/
namespace Sys2Proof.Machine
open Sys2Proof

/-! ## Values and views (R20, R123) -/

theorem extract_append_low {n : Nat} (hi lo : BitVec n) : (hi ++ lo).extractLsb' 0 n = lo := by
  ext i h
  simp [BitVec.getLsbD_append, h]

theorem extract_append_high {n : Nat} (hi lo : BitVec n) : (hi ++ lo).extractLsb' n n = hi := by
  ext i h
  simp [BitVec.getElem_append, BitVec.getLsbD_eq_getElem, h]

/-- Bits 7 to 3 of a word, as a field and by a shift. -/
theorem extract_eq_shift (x : Word) : BitVec.zeroExtend 32 (x.extractLsb' 3 5) = (x >>> 3) &&& 0x1F := by
  have field : BitVec.ofNat 32 (x.toNat / 8 % 32) = (x >>> 3) &&& 0x1F := by
    apply BitVec.eq_of_toNat_eq
    have mask : (x.toNat / 8) &&& 31 = x.toNat / 8 % 32 := Nat.and_two_pow_sub_one_eq_mod _ 5
    simp [Nat.shiftRight_eq_div_pow, mask]
    omega
  rw [← field]
  apply BitVec.eq_of_toNat_eq
  simp [BitVec.extractLsb'_toNat, Nat.shiftRight_eq_div_pow]

theorem csrRead_csrWrite_hscr (x : Thread) (v : Word) {i : Nat} (hi : i < 4) :
    csrRead (csrWrite x (0x108 + i) v) (0x108 + i) = v := by
  have write : csrWrite x (0x108 + i) v = { x with hscr := Sp.set 0 x.hscr i v } := by
    rcases i with _ | _ | _ | _ | i
    case succ.succ.succ.succ => omega
    all_goals rfl
  have read : csrRead { x with hscr := Sp.set 0 x.hscr i v } (0x108 + i) = Sp.get 0 (Sp.set 0 x.hscr i v) i := by
    rcases i with _ | _ | _ | _ | i
    case succ.succ.succ.succ => omega
    all_goals rfl
  rw [write, read, Sp.get_set, if_pos rfl]

/-! ## Access (R18, R123, R379) -/

theorem csrCond_user {s : State} {w : Bool} {n : Nat} (h : n < 4) : csrCond s w n = none := by
  rw [csrCond, if_pos h]

theorem csrCond_reserved {s : State} {w : Bool} {n : Nat} (h : (4 < n ∧ n < 0x100) ∨ 0x1FF < n) :
    csrCond s w n = some (illegalCond s) := by
  have reserved : (decide (n < 0x100) || decide (0x1FF < n)) = true := by simp; omega
  rw [csrCond, if_neg (by omega), if_neg (by omega), if_pos reserved]

/-- The privileged numbers in either mode (R379). -/
theorem csrCond_privileged {s : State} {w : Bool} {n : Nat} (lo : 0x100 ≤ n) (hi : n ≤ 0x1FF) :
    csrCond s w n =
      if !s.iss.handler then some { cause := .privilege, addr := s.iss.pc.toNat, info := n }
      else if n = 0x101 || n = 0x102 || n = 0x106 || (0x108 ≤ n && n ≤ 0x10B) then none
      else if n = 0x100 || n = 0x103 || n = 0x104 || n = 0x105 || (0x140 ≤ n && n ≤ 0x17F) then
        (if w then some (illegalCond s) else none)
      else some (illegalCond s) := by
  have held : ¬ (decide (n < 0x100) || decide (0x1FF < n)) = true := by simp; omega
  rw [csrCond, if_neg (by omega), if_neg (by omega), if_neg held]

/-- The read-only CSRs of a trap handler (R379). -/
theorem csrCond_readOnly {s : State} {w : Bool} {n : Nat} (handler : s.iss.handler = true)
    (h : n = 0x100 ∨ n = 0x103 ∨ n = 0x104 ∨ n = 0x105 ∨ (0x140 ≤ n ∧ n ≤ 0x17F)) :
    csrCond s w n = if w then some (illegalCond s) else none := by
  rw [csrCond_privileged (by omega) (by omega), handler, if_neg (by simp), if_neg (by simp; omega),
    if_pos (by simp; omega)]

/-- A WRED of a lane of the issue set owes its flags (R20, R449). -/
theorem flagsOwed_of_wred {s : State} {m : Nat} {e : Nat × MemOp} (hm : m < 2) (he : e ∈ s.ops)
    (hw : e.2.ofWeft s.iss.blk s.iss.weft = true) (hk : ∃ g r q, e.2.kind = .wred g r q)
    (hl : ∃ l ∈ s.iss.lanes, e.2.issue.testBit l = true) : flagsOwed s m = true := by
  obtain ⟨g, r, q, hk⟩ := hk
  simp only [flagsOwed, hm, decide_true, Bool.true_and, List.any_eq_true]
  refine ⟨e.2, List.mem_map.mpr ⟨e, List.mem_filter.mpr ⟨he, hw⟩, rfl⟩, ?_⟩
  simp only [hk, List.any_eq_true]
  exact hl

/-- The condition of a CSR number traps every lane, whatever writes are outstanding. -/
theorem preCond_of_early {s : State} {p : Pre} {c : Cond} (h : p.early = some c) : preCond s p = some c := by
  simp only [preCond, h, Option.isSome_some, if_true]

theorem exec_csrr {s : State} {d : VReg} {n : BitVec 12} (hi : Issues .sync [one d] [] s)
    (hc : csrCond s false n.toNat = none) (hf : flagsOwed s n.toNat = false) :
    ∃ t, exec (.csrr d n) s = .next t ∧ WritesWord s t d fun _ x => csrRead x n.toNat := by
  obtain ⟨formed, allowed, free, clean⟩ := hi
  change ∃ t, execCsrr d n s = _ ∧ _
  rw [execCsrr, issue_body formed.1 (preCond_none_of_early hc allowed) (by rw [free, hf]; rfl) clean, noteIssue_iss]
  refine ⟨_, rfl, LanesDo.congr (lanesDo_foldl formed fun _ _ => ?_) fun l _ => ?_⟩
  · rfl
  · rw [noteIssue_lane]; rfl

theorem exec_csrw {s : State} {a : VReg} {n : BitVec 12} (hi : Issues .sync [one a] [] s)
    (hc : csrCond s true n.toNat = none) (hf : flagsOwed s n.toNat = false) :
    ∃ t, exec (.csrw n a) s = .next t ∧ LanesDo s t fun _ x => (csrWrite x n.toNat (x.reg a.toNat)).past s := by
  obtain ⟨formed, allowed, free, clean⟩ := hi
  change ∃ t, execCsrw n a s = _ ∧ _
  rw [execCsrw, issue_body formed.1 (preCond_none_of_early hc allowed) (by rw [free, hf]; rfl) clean, noteIssue_iss]
  refine ⟨_, rfl, LanesDo.congr (lanesDo_foldl formed fun _ _ => ?_) fun l _ => ?_⟩
  · rfl
  · rw [noteIssue_lane]; rfl

theorem exec_csrr_stall {s : State} {d : VReg} {n : BitVec 12} (hi : Issues .sync [one d] [] s)
    (hc : csrCond s false n.toNat = none) (hf : flagsOwed s n.toNat = true) :
    exec (.csrr d n) s = .next { s with stalled := true } := by
  change execCsrr d n s = _
  rw [execCsrr, issue_stall hi.1.1 (preCond_none_of_early hc hi.2.1) (by rw [hf, Bool.or_true])]

theorem exec_csrw_stall {s : State} {a : VReg} {n : BitVec 12} (hi : Issues .sync [one a] [] s)
    (hc : csrCond s true n.toNat = none) (hf : flagsOwed s n.toNat = true) :
    exec (.csrw n a) s = .next { s with stalled := true } := by
  change execCsrw n a s = _
  rw [execCsrw, issue_stall hi.1.1 (preCond_none_of_early hc hi.2.1) (by rw [hf, Bool.or_true])]

theorem exec_csrr_trap {s : State} {d : VReg} {n : BitVec 12} {c : Cond} (hl : s.iss.lanes ≠ [])
    (hc : csrCond s false n.toNat = some c) : exec (.csrr d n) s = .next (trapAll (noteIssue s) c) := by
  change execCsrr d n s = _
  rw [execCsrr, issue_trap hl (preCond_of_early hc)]

theorem exec_csrw_trap {s : State} {a : VReg} {n : BitVec 12} {c : Cond} (hl : s.iss.lanes ≠ [])
    (hc : csrCond s true n.toNat = some c) : exec (.csrw n a) s = .next (trapAll (noteIssue s) c) := by
  change execCsrw n a s = _
  rw [execCsrw, issue_trap hl (preCond_of_early hc)]

/-- Settles O23. -/
theorem controlRegisterAccess : Obligations.ControlRegisterAccess := by
  refine ⟨fun s d a n => ⟨exec_csrr, exec_csrw, fun hd ha m hm e he hw hk hl => ?_, fun x v => ?_⟩, fun s w n => ?_⟩
  · have owed := flagsOwed_of_wred hm he hw hk hl
    exact ⟨exec_csrr_stall hd (csrCond_user (by omega)) owed, exec_csrw_stall ha (csrCond_user (by omega)) owed⟩
  · exact ⟨rfl, rfl, extract_eq_shift _, extract_append_low .., extract_append_high .., extract_append_high ..,
      extract_append_low .., rfl, extract_append_low .., extract_append_high .., rfl, fun i hi => csrRead_csrWrite_hscr x v hi⟩
  · refine ⟨csrCond_user, ⟨rfl, rfl⟩, csrCond_reserved, fun lo hi user => ?_,
    fun handler => ⟨fun h => ?_, fun h => ?_, fun h => ?_⟩,
      fun a k c hl => ⟨exec_csrr_trap hl, exec_csrw_trap hl⟩⟩
    · rw [csrCond_privileged lo hi, user]; rfl
    · rw [csrCond_privileged (by omega) (by omega), handler, if_neg (by simp), if_pos (by simp; omega)]
    · exact ⟨csrCond_readOnly handler h, csrCond_readOnly handler h⟩
    · rw [csrCond_privileged (by omega) (by omega), handler, if_neg (by simp), if_neg (by simp; omega),
        if_neg (by simp; omega)]

end Sys2Proof.Machine
end

section
/-!
The checks of a memory instruction at issue, lane by lane: what a trap writes where no stack operation holds the lane,
what a park writes, and what the lanes of the issue set come to (R89, R376, R382, R383).
-/
namespace Sys2Proof.Machine
open Sys2Proof

/-! ## A trap in a lane that nothing holds (R376) -/

/-- The thread that a trap leaves, with the captured operations `q`, entered before the operation `n`. -/
def trapFrame (x : Thread) (handler : DWord) (c : Cond) (q : List ReOp) (n : Nat) : Thread :=
  { x with
    tst := .trap, pc := handler, tcause := c.tcause, tpc := x.pc + BitVec.ofNat 64 c.skip, taddr := BitVec.ofNat 64 c.addr,
    tinfo := BitVec.ofNat 32 c.info, trq := q, parkq := [], wait := .none, entered := n, deliver := false }

theorem stackHold_eq_none {s : State} {b w l : Nat} (h : (s.thread b w l).hold = none) : stackHold s b w l = none := by
  simp only [stackHold, h, Option.bind_none]

theorem restartStack_of_free {s : State} {b w l : Nat} (h : (s.thread b w l).hold = none) : restartStack s b w l = s := by
  simp only [restartStack, stackHold_eq_none h]

/-- The operations of the state, those of a lane withdrawn: every operation keeps its number. -/
theorem captureHeld_keys (s : State) (b w l : Nat) : (captureHeld s b w l).2.ops.map (·.1) = s.ops.map (·.1) := by
  simp only [captureHeld, List.map_map]
  rfl

/-- A trap writes the frame of its lane and withdraws its held operations. -/
theorem enterTrap_of_free {s : State} {b w l : Nat} (h : (s.thread b w l).hold = none) (c : Cond) :
    ∃ q, enterTrap s b w l c = (captureHeld s b w l).2.setThread b w l
      (trapFrame (s.thread b w l) (s.launch b).handler c q s.nextOp) := by
  refine ⟨((captureHeld s b w l).1 ++ (s.thread b w l).parkq).map ParkedOp.toReOp, ?_⟩
  unfold enterTrap
  rw [restartStack_of_free h]
  rfl

/-! ## A park (R382, R384) -/

@[simp] theorem postFault_threads (s : State) (vi : Nat) (f : FaultRef) : (postFault s vi f).threads = s.threads := by
  unfold postFault; dsimp only; split <;> rfl
@[simp] theorem postFault_wefts (s : State) (vi : Nat) (f : FaultRef) : (postFault s vi f).wefts = s.wefts := by
  unfold postFault; dsimp only; split <;> rfl
@[simp] theorem postFault_ops (s : State) (vi : Nat) (f : FaultRef) : (postFault s vi f).ops = s.ops := by
  unfold postFault; dsimp only; split <;> rfl

@[simp] theorem parkWeft_threads (s : State) (b w : Nat) (e : FqEntry) (i : Bool) : (parkWeft s b w e i).threads = s.threads := by
  unfold parkWeft
  dsimp only
  split
  · rfl
  · split
    · rfl
    · rw [postFault_threads, State.setWeft_threads]

@[simp] theorem parkWeft_ops (s : State) (b w : Nat) (e : FqEntry) (i : Bool) : (parkWeft s b w e i).ops = s.ops := by
  unfold parkWeft
  dsimp only
  split
  · rfl
  · split
    · rfl
    · rw [postFault_ops, State.setWeft_ops]

@[simp] theorem parkWeft_thread (s : State) (b w : Nat) (e : FqEntry) (i : Bool) (b' w' l : Nat) :
    (parkWeft s b w e i).thread b' w' l = s.thread b' w' l := by
  simp only [State.thread, parkWeft_threads]

@[simp] theorem parkWeft_op (s : State) (b w : Nat) (e : FqEntry) (i : Bool) (id : Nat) :
    (parkWeft s b w e i).op? id = s.op? id := by
  simp only [State.op?, parkWeft_ops]

/-- A weft that is not parked takes the entry, in its park place or awaiting one. -/
theorem parkWeft_weft {s : State} {b w : Nat} (h : (s.weft b w).park = none) (e : FqEntry) (i : Bool) :
    ∃ p, (parkWeft s b w e i).weft b w =
      { s.weft b w with wst := .parked, park := some e, pending := p, atIssue := i } := by
  refine ⟨decide (1024 ≤ parkedIn s (domOf (s.block b).core)) || pendingIn s (domOf (s.block b).core), ?_⟩
  unfold parkWeft
  dsimp only
  rw [if_neg (by rw [h]; decide)]
  split
  · exact State.weft_setWeft_same _ _ _ _
  · rw [State.weft, postFault_wefts]
    exact State.weft_setWeft_same _ _ _ _

theorem parkWeft_counter (s : State) (b w : Nat) (e : FqEntry) (i : Bool) (c : Counter) :
    ((parkWeft s b w e i).weft b w).counter c = (s.weft b w).counter c := by
  cases hp : (s.weft b w).park with
  | some _ => rw [parkWeft_parked (by rw [hp]; rfl)]
  | none => obtain ⟨p, h⟩ := parkWeft_weft hp e i; rw [h]; cases c <;> rfl

/-- System faults of lanes of which none stands under DELIVER park the weft, with an entry for the first. -/
theorem systemFault_undelivered (s : State) (b w : Nat) (l : Nat) (c : Cond) (fs : List (Nat × Cond)) (issue done : Nat)
    (pc : DWord) (i : Bool) :
    systemFault s b w ((l, c) :: fs) 0 issue done pc i =
      parkWeft s b w (faultEntry s b w (if (s.thread b w l).tst == .trap then 3 else 1) c issue done pc) i := by
  simp [systemFault]

/-! ## An operation that an instruction leaves outstanding (R130) -/

theorem addCounted_threads (s : State) (c : Counter) (o : MemOp) : (addCounted s c o).threads = s.threads := rfl

@[simp] theorem addCounted_thread (s : State) (c : Counter) (o : MemOp) (b w l : Nat) :
    (addCounted s c o).thread b w l = s.thread b w l := rfl

@[simp] theorem addCounted_op (s : State) (c : Counter) (o : MemOp) (id : Nat) :
    (addCounted s c o).op? id = if id = s.nextOp then some o else s.op? id := by
  unfold addCounted
  rw [State.op_addOp]
  rfl

theorem addCounted_weft (s : State) (c : Counter) (o : MemOp) :
    (addCounted s c o).weft o.blk o.weft =
      (s.weft o.blk o.weft).setCounter c ((s.weft o.blk o.weft).counter c ++ [{ op := s.nextOp }]) := by
  unfold addCounted
  exact State.weft_setWeft_same _ _ _ _

/-! ## The lanes of a memory instruction, one after another (R29, R89) -/

/-- What a lane comes to by its checks: the trap it meets, or else its system fault. -/
def verdict (trap fault : Nat → Option Cond) (l : Nat) : Option Cond :=
  match trap l with
  | some c => some c
  | none => (fault l).map fun c => { c with sys := true }

/-- One lane's part of a memory instruction at issue in `s`, with the masks of the instruction. -/
def checkStep (s : State) (chk : Nat → Option Cond) (issue done : Nat) (u : State) (l : Nat) : State :=
  match chk l with
  | some c => if c.sys then u else deliverTrap u s.iss.blk s.iss.weft l c issue done
  | none => u.setThread s.iss.blk s.iss.weft l { s.lane l with pc := nextPc s }

/-- `v` holds what `u` holds but for threads of the lanes `ls` of a weft, and for what is withdrawn of operations. -/
structure LanesOnly (b w : Nat) (ls : List Nat) (u v : State) : Prop where
  others : ∀ l, l ∉ ls → v.thread b w l = u.thread b w l
  keys : v.ops.map (·.1) = u.ops.map (·.1)
  rest : { v with threads := [], ops := [] } = { u with threads := [], ops := [] }

theorem LanesOnly.refl (b w : Nat) (ls : List Nat) (u : State) : LanesOnly b w ls u u :=
  ⟨fun _ _ => rfl, rfl, rfl⟩

theorem LanesOnly.trans {b w : Nat} {l : Nat} {ls : List Nat} {s u v : State} (h : LanesOnly b w [l] s u)
    (h' : LanesOnly b w ls u v) : LanesOnly b w (l :: ls) s v where
  others k hk := by
    obtain ⟨hl, hls⟩ := not_or.mp fun m => hk (List.mem_cons.mpr m)
    rw [h'.others k hls, h.others k (by simpa using hl)]
  keys := h'.keys.trans h.keys
  rest := h'.rest.trans h.rest

/-- Any other field is the same in both. -/
theorem LanesOnly.field {b w : Nat} {ls : List Nat} {u v : State} (h : LanesOnly b w ls u v) {α : Sort*} (f : State → α)
    (hf : ∀ s : State, f { s with threads := [], ops := [] } = f s) : f v = f u := by
  rw [← hf v, ← hf u, h.rest]

theorem LanesOnly.launch {b w : Nat} {ls : List Nat} {u v : State} (h : LanesOnly b w ls u v) : v.launch = u.launch :=
  h.field State.launch fun _ => rfl

/-- What a lane's thread comes to. -/
def AfterCheck (s : State) (chk : Nat → Option Cond) (l : Nat) (y : Thread) : Prop :=
  match chk l with
  | some c => if c.sys then y = s.lane l else ∃ q n, y = trapFrame (s.lane l) (s.launch s.iss.blk).handler c q n
  | none => y = (s.lane l).past s

/-- A lane in RUN that nothing holds takes its part, and no other lane changes. -/
theorem checkStep_spec {s u : State} {l : Nat} (chk : Nat → Option Cond) (issue done : Nat)
    (same : u.thread s.iss.blk s.iss.weft l = s.lane l) (launch : u.launch = s.launch) (run : (s.lane l).tst = .run)
    (free : (s.lane l).hold = none) :
    LanesOnly s.iss.blk s.iss.weft [l] u (checkStep s chk issue done u l) ∧
      AfterCheck s chk l ((checkStep s chk issue done u l).thread s.iss.blk s.iss.weft l) := by
  have set : ∀ (v : State) (x : Thread), (∀ k, v.thread s.iss.blk s.iss.weft k = u.thread s.iss.blk s.iss.weft k) →
      v.ops.map (·.1) = u.ops.map (·.1) → { v with threads := [], ops := [] } = { u with threads := [], ops := [] } →
      LanesOnly s.iss.blk s.iss.weft [l] u (v.setThread s.iss.blk s.iss.weft l x) := by
    intro v x hv keys rest
    refine ⟨fun k hk => ?_, keys, rest⟩
    rw [State.thread_setThread, if_neg (fun h => hk (by simpa using (tkey_lane _ _ _ _).mp h)), hv]
  unfold checkStep AfterCheck
  cases chk l with
  | none => exact ⟨set u _ (fun _ => rfl) rfl rfl, State.thread_setThread_same _ _ _ _ _⟩
  | some c =>
    cases hs : c.sys with
    | true =>
      simp only [hs, if_true]
      exact ⟨.refl _ _ _ u, same⟩
    | false =>
      have notTrap : (u.thread s.iss.blk s.iss.weft l).tst ≠ .trap := by rw [same, run]; decide
      obtain ⟨q, hq⟩ := enterTrap_of_free (by rw [same]; exact free : (u.thread s.iss.blk s.iss.weft l).hold = none) c
      simp only [hs, Bool.false_eq_true, if_false, deliverTrap, if_neg notTrap, hq]
      refine ⟨set _ _ (fun _ => rfl) (captureHeld_keys u _ _ l) rfl, q, u.nextOp, ?_⟩
      rw [State.thread_setThread_same, same, launch]

/-- Every lane takes its part, whatever the others come to. -/
theorem foldl_checkStep {s : State} (chk : Nat → Option Cond) (issue done : Nat) (ls : List Nat) (nodup : ls.Nodup) :
    ∀ u : State, (∀ l ∈ ls, u.thread s.iss.blk s.iss.weft l = s.lane l ∧ (s.lane l).tst = .run ∧ (s.lane l).hold = none) →
      u.launch = s.launch →
      LanesOnly s.iss.blk s.iss.weft ls u (ls.foldl (checkStep s chk issue done) u) ∧
        ∀ l ∈ ls, AfterCheck s chk l ((ls.foldl (checkStep s chk issue done) u).thread s.iss.blk s.iss.weft l) := by
  induction ls with
  | nil => exact fun u _ _ => ⟨⟨fun _ _ => rfl, rfl, rfl⟩, fun _ h => by cases h⟩
  | cons l ls ih =>
    intro u ready launch
    obtain ⟨fresh, nodup⟩ := List.nodup_cons.mp nodup
    obtain ⟨same, run, free⟩ := ready l (by simp)
    obtain ⟨step, after⟩ := checkStep_spec chk issue done same launch run free
    obtain ⟨steps, afters⟩ := ih nodup (checkStep s chk issue done u l)
      (fun k hk => by
        rw [step.others k (by rintro h; exact fresh (by simpa using (List.mem_singleton.mp h) ▸ hk))]
        exact ready k (by simp [hk]))
      (step.launch.trans launch)
    refine ⟨step.trans steps, fun k hk => ?_⟩
    rw [List.foldl_cons]
    rcases List.mem_cons.mp hk with rfl | hk
    · rw [steps.others k fresh]; exact after
    · exact afters k hk

/-! ## The system faults of a memory instruction (R382, R383) -/

/-- The lanes that meet a system fault, each with its condition. -/
def faultsOf (trap fault : Nat → Option Cond) (ls : List Nat) : List (Nat × Cond) :=
  ls.filterMap fun l => if (trap l).isNone then (fault l).map (Prod.mk l) else none

theorem faultsOf_lanes (trap fault : Nat → Option Cond) (ls : List Nat) :
    (faultsOf trap fault ls).map (·.1) = ls.filter fun l => (trap l).isNone && (fault l).isSome := by
  induction ls with
  | nil => rfl
  | cons l ls ih =>
    simp only [faultsOf] at ih ⊢
    rw [List.filterMap_cons, List.filter_cons, ← ih]
    cases trap l <;> cases fault l <;> rfl

theorem fault_of_mem_faultsOf {trap fault : Nat → Option Cond} {ls : List Nat} {e : Nat × Cond}
    (h : e ∈ faultsOf trap fault ls) : trap e.1 = none ∧ fault e.1 = some e.2 ∧ e.1 ∈ ls := by
  obtain ⟨l, hl, he⟩ := List.mem_filterMap.mp h
  split at he
  · next untrapped =>
    obtain ⟨c, hc, rfl⟩ := Option.map_eq_some_iff.mp he
    exact ⟨Option.isNone_iff_eq_none.mp untrapped, hc, hl⟩
  · cases he

/-- The lanes that pass every check. -/
theorem verdict_isNone (trap fault : Nat → Option Cond) (l : Nat) :
    (verdict trap fault l).isNone = ((trap l).isNone && (fault l).isNone) := by
  unfold verdict
  cases trap l with
  | some c => rfl
  | none => cases fault l <;> rfl

/-- The lanes whose check is a system fault, each with its condition. -/
def sysOf (chk : Nat → Option Cond) (ls : List Nat) : List (Nat × Cond) :=
  ls.filterMap fun l =>
    match chk l with
    | some c => if c.sys then some (l, { c with sys := false }) else none
    | none => none

theorem sysOf_verdict {trap fault : Nat → Option Cond} {ls : List Nat}
    (ht : ∀ l ∈ ls, ∀ c, trap l = some c → c.sys = false) (hf : ∀ l ∈ ls, ∀ c, fault l = some c → c.sys = false) :
    sysOf (verdict trap fault) ls = faultsOf trap fault ls := by
  refine List.filterMap_congr fun l hl => ?_
  unfold verdict
  cases trapped : trap l with
  | some c => simp [ht l hl c trapped]
  | none =>
    cases failed : fault l with
    | none => rfl
    | some c =>
      have : { c with sys := false } = c := by rw [← hf l hl c failed]
      simp [this]

end Sys2Proof.Machine
end

section
/-!
The memory instructions at issue: the lanes that pass their checks leave one operation outstanding, and the others trap
or park the weft (R29, R89, R126, R179, R243, R383).
-/
namespace Sys2Proof.Machine
open Sys2Proof

/-! ## The body of a memory instruction (R29, R89) -/

/-- What a memory instruction leaves of `v`, the state with each lane's own part done: the operation of the lanes `ok`
that pass, and the system faults. -/
def leaveChecked (m : State) (a : Access) (acc : Nat → LaneAcc) (ok : List Nat) (fails : List (Nat × Cond)) (v : State) :
    State :=
  let mask := laneMask (ok ++ fails.map (·.1))
  let v' := if ok.isEmpty then v else addCounted v a.fn.counter (issuedOp m a (ok.map acc) mask)
  if fails.isEmpty then v'
  else systemFault v' m.iss.blk m.iss.weft fails m.iss.deliver mask (laneMask ok) m.iss.pc true

/-- The body of a memory instruction, by the check of each lane. -/
def memBody (a : Access) (chk : Nat → Option Cond) (acc : Nat → LaneAcc) (m : State) : State :=
  let ok := m.iss.lanes.filter fun l => (chk l).isNone
  leaveChecked m a acc ok (sysOf chk m.iss.lanes)
    (m.iss.lanes.foldl (checkStep m chk (laneMask m.iss.lanes) (laneMask ok)) m)

theorem memIssue_eq (a : Access) (rs : List Regs) (stall : State → Bool) (check : State → Nat → Option Cond)
    (acc : State → Nat → LaneAcc) (s : State) :
    memIssue a rs stall check acc s =
      issue { permitted := fun k => k.permits .memory, regs := rs, poison := .checks }
        (fun s => issueBusy s rs [] || !s.wft.room a.fn.counter 1 || s.iss.lanes.any (heldFull s) || stall s)
        (fun m => memBody a (fun l => (m.badCond l).orElse fun _ => check m l) (acc m) m) s := rfl

/-- The body looks at the checks of the lanes of the issue set alone. -/
theorem memBody_congr {a : Access} {chk chk' : Nat → Option Cond} {m : State} (acc : Nat → LaneAcc)
    (h : ∀ l ∈ m.iss.lanes, chk l = chk' l) : memBody a chk acc m = memBody a chk' acc m := by
  have ok : (m.iss.lanes.filter fun l => (chk l).isNone) = m.iss.lanes.filter fun l => (chk' l).isNone :=
    List.filter_congr fun l hl => by rw [h l hl]
  have fails : sysOf chk m.iss.lanes = sysOf chk' m.iss.lanes :=
    List.filterMap_congr fun l hl => by rw [h l hl]
  have steps : ∀ i d, m.iss.lanes.foldl (checkStep m chk i d) m = m.iss.lanes.foldl (checkStep m chk' i d) m :=
    fun i d => List.foldl_ext _ _ _ fun v l hl => by rw [checkStep, checkStep, h l hl]
  rw [memBody, memBody, ok, fails, steps]

/-- The lanes of the issue set that pass their checks. -/
def okLanes (trap fault : Nat → Option Cond) (s : State) : List Nat :=
  s.iss.lanes.filter fun l => (trap l).isNone && (fault l).isNone

/-- No lane of an issue that reads no poisoned register meets the check for it (R389). -/
theorem badCond_noteIssue {s : State} (clean : s.iss.bad = []) (l : Nat) : (noteIssue s).badCond l = none := by
  rw [State.badCond, noteIssue_iss, clean]
  rfl

/-! ## What becomes of the lanes -/

/-- A lane whose check is a trap has taken it. -/
theorem trapped_of_afterCheck {s t : State} {trap fault : Nat → Option Cond} {l : Nat} {c : Cond} (h : trap l = some c)
    (hs : c.sys = false)
    (after : AfterCheck (noteIssue s) (verdict trap fault) l (t.thread s.iss.blk s.iss.weft l)) : Trapped s t l c := by
  simp only [AfterCheck, verdict, h, hs, Bool.false_eq_true, if_false] at after
  obtain ⟨q, n, hy⟩ := after
  obtain ⟨d, hd⟩ := noteIssue_thread_lane s l
  rw [noteIssue_lane, hd, noteIssue_iss, noteIssue_launch] at hy
  simp only [Trapped, hy]
  exact ⟨rfl, rfl, by simp [trapFrame, Cond.tcause, hs], rfl, rfl, rfl, rfl, rfl⟩

/-- A lane that passes its checks goes on. -/
theorem past_of_afterCheck {s t : State} {trap fault : Nat → Option Cond} {l : Nat} (h : trap l = none) (hf : fault l = none)
    (after : AfterCheck (noteIssue s) (verdict trap fault) l (t.thread s.iss.blk s.iss.weft l)) :
    t.thread s.iss.blk s.iss.weft l = ((noteIssue s).thread s.iss.blk s.iss.weft l).past s := by
  simp only [AfterCheck, verdict, h, hf, Option.map_none] at after
  rw [after, noteIssue_lane, Thread.past, Thread.past, noteIssue_nextPc]

/-- A lane that meets a system fault stands at the instruction. -/
theorem stays_of_afterCheck {s t : State} {trap fault : Nat → Option Cond} {l : Nat} {c : Cond} (h : trap l = none)
    (hf : fault l = some c)
    (after : AfterCheck (noteIssue s) (verdict trap fault) l (t.thread s.iss.blk s.iss.weft l)) :
    t.thread s.iss.blk s.iss.weft l = (noteIssue s).thread s.iss.blk s.iss.weft l := by
  simp only [AfterCheck, verdict, h, hf, Option.map_some, if_true] at after
  rw [after, noteIssue_lane]

/-- The first system fault parks the weft at the instruction. -/
theorem parkedAtIssue_parkWeft {s u : State} {c : Cond} {issue done : Nat} (iss : u.iss = s.iss) (hc : c.cause ≠ .integrity)
    (hi : c.info < 16) (free : (u.weft s.iss.blk s.iss.weft).park = none) :
    ParkedAtIssue s (parkWeft u s.iss.blk s.iss.weft (faultEntry u s.iss.blk s.iss.weft 1 c issue done s.iss.pc) true) c issue
      done := by
  obtain ⟨p, hp⟩ := parkWeft_weft free (faultEntry u s.iss.blk s.iss.weft 1 c issue done s.iss.pc) true
  have wft : ∀ e, (parkWeft u s.iss.blk s.iss.weft e true).wft = (parkWeft u s.iss.blk s.iss.weft e true).weft s.iss.blk s.iss.weft :=
    fun e => by rw [State.wft, parkWeft_iss, iss]
  rw [ParkedAtIssue, wft, hp]
  exact ⟨rfl, rfl, by simp only [faultEntry, if_neg hc, Option.map_some, Nat.mod_eq_of_lt hi]⟩

/-- The state with the operation of the lanes that pass, if there are any. -/
def withOp (m : State) (a : Access) (acc : Nat → LaneAcc) (ok : List Nat) (mask : Nat) (v : State) : State :=
  if ok.isEmpty then v else addCounted v a.fn.counter (issuedOp m a (ok.map acc) mask)

/-- With no lane under DELIVER, the system faults park the weft, with an entry for the first of them. -/
theorem leaveChecked_parks {m : State} {fails : List (Nat × Cond)} (h : fails ≠ [] → m.iss.deliver = 0) (a : Access)
    (acc : Nat → LaneAcc) (ok : List Nat) (v : State) :
    let u := withOp m a acc ok (laneMask (ok ++ fails.map (·.1))) v
    (fails = [] ∧ leaveChecked m a acc ok fails v = u) ∨
      ∃ l c fs, fails = (l, c) :: fs ∧ leaveChecked m a acc ok fails v =
        parkWeft u m.iss.blk m.iss.weft (faultEntry u m.iss.blk m.iss.weft
          (if (u.thread m.iss.blk m.iss.weft l).tst == .trap then 3 else 1) c (laneMask (ok ++ fails.map (·.1)))
          (laneMask ok) m.iss.pc) true := by
  cases fails with
  | nil => exact .inl ⟨rfl, rfl⟩
  | cons e fs =>
    refine .inr ⟨e.1, e.2, fs, rfl, ?_⟩
    rw [leaveChecked, h (by simp)]
    exact systemFault_undelivered ..

section
variable (m : State) (a : Access) (acc : Nat → LaneAcc) (ok : List Nat) (mask : Nat) (v : State)

theorem withOp_thread (b w l : Nat) : (withOp m a acc ok mask v).thread b w l = v.thread b w l := by
  unfold withOp; split <;> rfl

/-- Everything but the wefts and the operations stays. -/
theorem withOp_field {α : Type} (f : State → α) (hf : ∀ s : State, f { s with wefts := [], ops := [], nextOp := 0 } = f s) :
    f (withOp m a acc ok mask v) = f v := by
  unfold withOp
  split
  · rfl
  · rw [← hf, ← hf v]
    rfl

theorem withOp_ops (h : ok = []) : (withOp m a acc ok mask v).ops = v.ops := by
  unfold withOp; rw [if_pos (by simp [h])]

theorem withOp_op (h : ok ≠ []) (hn : v.nextOp = m.nextOp) :
    (withOp m a acc ok mask v).op? m.nextOp = some (issuedOp m a (ok.map acc) mask) := by
  unfold withOp; rw [if_neg (by simp [h]), addCounted_op, if_pos hn.symm]

theorem withOp_counter (h : ok ≠ []) :
    ((withOp m a acc ok mask v).weft m.iss.blk m.iss.weft).counter a.fn.counter =
      (v.weft m.iss.blk m.iss.weft).counter a.fn.counter ++ [{ op := v.nextOp }] := by
  unfold withOp
  rw [if_neg (by simp [h])]
  have := addCounted_weft v a.fn.counter (issuedOp m a (ok.map acc) mask)
  rw [show (issuedOp m a (ok.map acc) mask).blk = m.iss.blk from rfl,
    show (issuedOp m a (ok.map acc) mask).weft = m.iss.weft from rfl] at this
  rw [this, Weft.counter_setCounter, if_pos rfl]

theorem withOp_park : ((withOp m a acc ok mask v).weft m.iss.blk m.iss.weft).park = (v.weft m.iss.blk m.iss.weft).park := by
  unfold withOp
  split
  · rfl
  · have := addCounted_weft v a.fn.counter (issuedOp m a (ok.map acc) mask)
    rw [show (issuedOp m a (ok.map acc) mask).blk = m.iss.blk from rfl,
      show (issuedOp m a (ok.map acc) mask).weft = m.iss.weft from rfl] at this
    rw [this, Weft.setCounter_park]

end

/-- What the operation and the system faults of a memory instruction leave of `v`, the state with each lane's own part
done. -/
structure Leaves (m v t : State) (a : Access) (acc : Nat → LaneAcc) (ok : List Nat) (fails : List (Nat × Cond)) : Prop where
  thread : ∀ b w l, t.thread b w l = v.thread b w l
  nothing : ok = [] → t.ops = v.ops
  op : ok ≠ [] → t.op? m.nextOp = some (issuedOp m a (ok.map acc) (laneMask (ok ++ fails.map (·.1))))
  counter : ok ≠ [] → (t.weft m.iss.blk m.iss.weft).counter a.fn.counter =
    (v.weft m.iss.blk m.iss.weft).counter a.fn.counter ++ [{ op := m.nextOp }]
  field : ∀ {α : Type} (f : State → α),
    (∀ s : State, f { s with threads := [], wefts := [], ops := [], nextOp := 0, faults := [], pendq := [], vis := [] } = f s) →
    f t = f v
  parks : ∀ l c, fails.head? = some (l, c) →
    ∃ u kind, (u.weft m.iss.blk m.iss.weft).park = (v.weft m.iss.blk m.iss.weft).park ∧ u.iss = v.iss ∧
      (kind = if (v.thread m.iss.blk m.iss.weft l).tst == .trap then 3 else 1) ∧
      t = parkWeft u m.iss.blk m.iss.weft (faultEntry u m.iss.blk m.iss.weft kind c (laneMask (ok ++ fails.map (·.1)))
        (laneMask ok) m.iss.pc) true

theorem leaves_leaveChecked {m v : State} {fails : List (Nat × Cond)} (h : fails ≠ [] → m.iss.deliver = 0)
    (hn : v.nextOp = m.nextOp) (a : Access) (acc : Nat → LaneAcc) (ok : List Nat) :
    Leaves m v (leaveChecked m a acc ok fails v) a acc ok fails := by
  rcases leaveChecked_parks h a acc ok v with ⟨none, ht⟩ | ⟨l, c, fs, first, ht⟩
  · rw [ht]
    exact {
      thread := withOp_thread m a acc ok _ v
      nothing := withOp_ops m a acc ok _ v
      op := fun some => withOp_op m a acc ok _ v some hn
      counter := fun some => by rw [← hn]; exact withOp_counter m a acc ok _ v some
      field := fun f hf => withOp_field m a acc ok _ v f fun s => by rw [← hf, ← hf s]
      parks := fun l c first => by rw [none] at first; cases first }
  · rw [ht]
    exact {
      thread := fun b w l => by rw [parkWeft_thread, withOp_thread]
      nothing := fun none => by rw [parkWeft_ops, withOp_ops _ _ _ _ _ _ none]
      op := fun some => by rw [parkWeft_op, withOp_op _ _ _ _ _ _ some hn]
      counter := fun some => by rw [parkWeft_counter, withOp_counter _ _ _ _ _ _ some, hn]
      field := fun f hf => by
        rw [(parkWeft_trapsOnly _ _ _ _ _).field f fun s => by rw [← hf, ← hf s]]
        exact withOp_field m a acc ok _ v f fun s => by rw [← hf, ← hf s]
      parks := fun l' c' first' => by
        rw [first] at first'
        cases first'
        refine ⟨_, _, withOp_park m a acc ok _ v, withOp_field m a acc ok _ v State.iss fun _ => rfl, ?_, rfl⟩
        rw [withOp_thread] }

/-- The lanes of a memory instruction whose traps and faults are those of `trap` and `fault`: a fault parks the weft,
which is not parked yet and of which no lane stands under DELIVER. -/
theorem lanesChecked_memBody {s : State} {rs ks : List Regs} (a : Access) (acc : Nat → LaneAcc) {trap fault : Nat → Option Cond}
    (formed : FormedSet s) (free : issueBusy s rs ks = false) (run : ∀ l ∈ s.iss.lanes, (s.lane l).tst = .run)
    (ht : ∀ l ∈ s.iss.lanes, ∀ c, trap l = some c → c.sys = false)
    (hf : ∀ l ∈ s.iss.lanes, ∀ c, fault l = some c →
      c.sys = false ∧ c.cause ≠ .integrity ∧ c.info < 16 ∧ s.iss.deliver = 0 ∧ s.wft.park = none) :
    LanesChecked s (memBody a (verdict trap fault) acc (noteIssue s)) a acc trap fault := by
  have fails : sysOf (verdict trap fault) s.iss.lanes = faultsOf trap fault s.iss.lanes :=
    sysOf_verdict ht fun l hl c h => (hf l hl c h).1
  have ok : (s.iss.lanes.filter fun l => (verdict trap fault l).isNone) = okLanes trap fault s :=
    List.filter_congr fun l _ => verdict_isNone trap fault l
  have lanes := faultsOf_lanes trap fault s.iss.lanes
  obtain ⟨only, after⟩ := foldl_checkStep (s := noteIssue s) (verdict trap fault) (laneMask s.iss.lanes)
    (laneMask (okLanes trap fault s)) s.iss.lanes formed.nodup (noteIssue s) (fun l hl => by
      refine ⟨by rw [State.lane], ?_, ?_⟩
      · rw [noteIssue_lane, noteIssue_thread_tst]; exact run l hl
      · rw [noteIssue_lane, noteIssue_thread_hold]; exact hold_eq_none_of_not_busy free hl) rfl
  rw [memBody, noteIssue_iss, fails, ok]
  generalize s.iss.lanes.foldl (checkStep (noteIssue s) (verdict trap fault) (laneMask s.iss.lanes)
    (laneMask (okLanes trap fault s))) (noteIssue s) = v at only after ⊢
  have left := leaves_leaveChecked (m := noteIssue s) (v := v) (fails := faultsOf trap fault s.iss.lanes) (fun some => by
      obtain ⟨e, he⟩ := List.exists_mem_of_ne_nil _ some
      obtain ⟨-, fails, mem⟩ := fault_of_mem_faultsOf he
      rw [noteIssue_iss]
      exact (hf e.1 mem e.2 fails).2.2.2.1) (only.field State.nextOp fun _ => rfl) a acc (okLanes trap fault s)
  generalize leaveChecked (noteIssue s) a acc (okLanes trap fault s) (faultsOf trap fault s.iss.lanes) v = t at left ⊢
  obtain ⟨thread, nothing, op, counter, field, parks⟩ := left
  rw [noteIssue_iss] at only after counter parks
  rw [lanes] at op parks
  have weft : v.weft s.iss.blk s.iss.weft = (noteIssue s).weft s.iss.blk s.iss.weft := by
    rw [only.field State.weft fun _ => rfl]
  have iss : v.iss = s.iss := (only.field State.iss fun _ => rfl).trans (noteIssue_iss s)
  have issue : t.iss = s.iss := (field State.iss fun _ => rfl).trans iss
  refine ⟨fun l hl c h => ?_, fun l hl => ?_, fun l hl => ?_, fun l c first h => ?_, fun none => ?_, fun some => ⟨?_, ?_⟩,
    ?_, ?_, ?_, fun b => ?_⟩
  · exact trapped_of_afterCheck h (ht l hl c h) (by rw [thread]; exact after l hl)
  · obtain ⟨hl, passes⟩ := List.mem_filter.mp hl
    simp only [Bool.and_eq_true, Option.isNone_iff_eq_none] at passes
    exact past_of_afterCheck passes.1 passes.2 (by rw [thread]; exact after l hl)
  · obtain ⟨hl, stands⟩ := List.mem_filter.mp hl
    simp only [Bool.and_eq_true, Option.isNone_iff_eq_none, Option.isSome_iff_exists] at stands
    obtain ⟨untrapped, c, hc⟩ := stands
    exact stays_of_afterCheck untrapped hc (by rw [thread]; exact after l hl)
  · rw [← lanes, List.head?_map] at first
    obtain ⟨e, head, rfl⟩ := Option.map_eq_some_iff.mp first
    obtain ⟨untrapped, hc, hl⟩ := fault_of_mem_faultsOf (List.mem_of_mem_head? head)
    cases h.symm.trans hc
    obtain ⟨-, notIntegrity, space, -, unparked⟩ := hf e.1 hl e.2 hc
    obtain ⟨u, kind, park, uiss, hk, rfl⟩ := parks e.1 e.2 head
    have stays := stays_of_afterCheck untrapped hc (after e.1 hl)
    have runs : ¬ (LaneState.run == LaneState.trap) = true := by decide
    rw [stays, noteIssue_thread_tst, show (s.thread s.iss.blk s.iss.weft e.1).tst = .run from run e.1 hl, if_neg runs] at hk
    subst hk
    exact parkedAtIssue_parkWeft (uiss.trans iss) notIntegrity space
      (by rw [park, weft, noteIssue_weft_park]; exact unparked)
  · rw [nothing none, only.keys, noteIssue_ops]
  · rw [noteIssue_nextOp, issuedOp_noteIssue] at op
    exact op some
  · rw [State.wft, issue, counter some, weft, noteIssue_weft_counter, noteIssue_nextOp]
    rfl
  · exact (field State.mem fun _ => rfl).trans ((only.field State.mem fun _ => rfl).trans (noteIssue_mem s))
  · exact (field State.hostMem fun _ => rfl).trans ((only.field State.hostMem fun _ => rfl).trans (noteIssue_hostMem s))
  · exact (field State.bad fun _ => rfl).trans ((only.field State.bad fun _ => rfl).trans (noteIssue_bad s))
  · rw [field State.block fun _ => rfl, only.field State.block fun _ => rfl, noteIssue_block_spm]

/-- The one lemma of memory instructions, by the trap and the fault of each lane. -/
theorem memIssue_spec {a : Access} {rs : List Regs} {stall : State → Bool} {check : State → Nat → Option Cond}
    {acc : State → Nat → LaneAcc} {s : State} {trap fault : Nat → Option Cond}
    (hi : Issues .memory rs [] s) (room : s.wft.room a.fn.counter 1 = true) (held : ∀ l ∈ s.iss.lanes, heldFull s l = false)
    (run : ∀ l ∈ s.iss.lanes, (s.lane l).tst = .run) (hs : stall s = false)
    (hc : ∀ l, check (noteIssue s) l = verdict trap fault l) (ha : ∀ l, acc (noteIssue s) l = acc s l)
    (ht : ∀ l ∈ s.iss.lanes, ∀ c, trap l = some c → c.sys = false)
    (hf : ∀ l ∈ s.iss.lanes, ∀ c, fault l = some c →
      c.sys = false ∧ c.cause ≠ .integrity ∧ c.info < 16 ∧ s.iss.deliver = 0 ∧ s.wft.park = none) :
    ∃ t, memIssue a rs stall check acc s = .next t ∧ LanesChecked s t a (acc s) trap fault := by
  obtain ⟨formed, allowed, free, clean⟩ := hi
  have busy : (issueBusy s rs [] || !s.wft.room a.fn.counter 1 || s.iss.lanes.any (heldFull s) || stall s) = false := by
    have : s.iss.lanes.any (heldFull s) = false := by simpa using held
    simp [free, room, this, hs]
  refine ⟨_, ?_, lanesChecked_memBody a (acc s) formed free run ht hf⟩
  rw [memIssue_eq, issue_body formed.1 (preCond_none allowed) busy clean, ← funext ha]
  exact congrArg _ (memBody_congr _ fun l _ => by rw [badCond_noteIssue clean]; exact hc l)

end Sys2Proof.Machine
end

section
/-!
The checks of each space by the address alone: virtual addresses, the constant bank, the scratchpads (R28, R126, R179,
R182, R231, R243).
-/
namespace Sys2Proof.Machine
open Sys2Proof

/-! ## What the record of an issue leaves of an access -/

@[simp] theorem noteIssue_lane_pair (s : State) (l r : Nat) : ((noteIssue s).lane l).pair r = (s.lane l).pair r := by
  rw [noteIssue_lane, noteIssue_thread_pair, State.lane]

@[simp] theorem noteIssue_lane_reg (s : State) (l r : Nat) : ((noteIssue s).lane l).reg r = (s.lane l).reg r := by
  rw [noteIssue_lane, noteIssue_thread_reg, State.lane]

@[simp] theorem accData_noteIssue (s : State) (a : Access) (l : Nat) :
    accData ((noteIssue s).lane l) a = accData (s.lane l) a := by
  obtain ⟨d, hd⟩ := noteIssue_thread_lane s l
  rw [noteIssue_lane, hd]
  rfl

@[simp] theorem laneAcc_noteIssue (s : State) (a : Access) (l addr : Nat) :
    laneAcc (noteIssue s) a l addr = laneAcc s a l addr := by
  simp only [laneAcc, accData_noteIssue, noteIssue_iss]

@[simp] theorem offsetAddr_noteIssue (s : State) (l : Nat) (base : VReg) (imm : Nat) :
    offsetAddr ((noteIssue s).lane l) base imm = offsetAddr (s.lane l) base imm := by
  simp only [offsetAddr, noteIssue_lane_reg]

/-! ## Virtual addresses (R28, R126) -/

/-- The trap of a virtual address by itself, if any. -/
def vaTrap (n space : Nat) (va : DWord) : Option Cond :=
  if canonical va = false then some { cause := .translate, reason := 4, addr := va.toNat, info := space }
  else if va.toNat % n ≠ 0 then some { cause := .misalign, addr := va.toNat, info := space }
  else none

theorem vaTrap_sys {n space : Nat} {va : DWord} {c : Cond} (h : vaTrap n space va = some c) : c.sys = false := by
  unfold vaTrap at h
  split at h
  · cases h; rfl
  · split at h <;> cases h
    rfl

theorem vaCond_eq (a : Access) (space : Nat) (va : DWord) : vaCond a space va = vaTrap a.size space va := by
  unfold vaCond vaTrap
  cases canonical va <;> simp

/-- A trap alone. -/
theorem verdict_trap (trap : Nat → Option Cond) (l : Nat) : verdict trap (fun _ => none) l = trap l := by
  unfold verdict
  cases trap l <;> rfl

theorem vaIssue_spec {x : Access} {space imm : Nat} {a : VReg} {s : State} (hi : AccessIssues x (two a) s)
    (run : ∀ l ∈ s.iss.lanes, (s.lane l).tst = .run)
    (hit : missStall s (s.iss.lanes.map fun l => ((s.lane l).pair a.toNat + BitVec.ofNat 64 imm).toNat) = false) :
    ∃ t, vaIssue x space a imm s = .next t ∧
      LanesChecked s t x (fun l => laneAcc s x l ((s.lane l).pair a.toNat + BitVec.ofNat 64 imm).toNat)
        (fun l => vaTrap x.size space ((s.lane l).pair a.toNat + BitVec.ofNat 64 imm)) fun _ => none :=
  memIssue_spec hi.1 hi.2.1 hi.2.2 run hit (fun l => by rw [verdict_trap, vaCond_eq, noteIssue_lane_pair])
    (fun l => by rw [laneAcc_noteIssue, noteIssue_lane_pair]) (fun _ _ _ h => vaTrap_sys h) (fun _ _ _ h => by cases h)

/-! ## The constant bank (R182) -/

/-- The trap of an offset that is not aligned. -/
def alignTrap (n space o : Nat) : Option Cond :=
  if o % n ≠ 0 then some { cause := .misalign, addr := o, info := space } else none

theorem alignTrap_sys {n space o : Nat} {c : Cond} (h : alignTrap n space o = some c) : c.sys = false := by
  unfold alignTrap at h
  split at h <;> cases h
  rfl

theorem constIssue_spec {x : Access} {imm : Nat} {a : VReg} {s : State} (hi : AccessIssues x (one a) s)
    (run : ∀ l ∈ s.iss.lanes, (s.lane l).tst = .run) :
    ∃ t, constIssue x a imm s = .next t ∧
      LanesChecked s t x
        (fun l => { laneAcc s x l (offsetAddr (s.lane l) a imm % 65536) with
          st := .ready (offsetAddr (s.lane l) a imm % 65536) false false })
        (fun l => alignTrap x.size 4 (offsetAddr (s.lane l) a imm % 65536)) fun _ => none :=
  memIssue_spec hi.1 hi.2.1 hi.2.2 run rfl
    (fun l => by rw [verdict_trap, alignTrap, offsetAddr_noteIssue]; simp)
    (fun l => by dsimp only; rw [laneAcc_noteIssue, offsetAddr_noteIssue]) (fun _ _ _ h => alignTrap_sys h)
    (fun _ _ _ h => by cases h)

/-! ## The scratchpads (R179, R231, R243) -/

/-- Whether an access lies beyond the allocation of its target, or has none. -/
def beyondOf (s : State) (target : Option Nat) (n o : Nat) : Bool :=
  (target.map fun b => decide ((s.launch b).spm < o + n)).getD true

/-- The system fault of an aligned access beyond its allocation. -/
def spmFault (s : State) (target : Option Nat) (n space o : Nat) : Option Cond :=
  if o % n = 0 ∧ beyondOf s target n o = true then some { cause := .protect, addr := o, info := space } else none

theorem spmCond_eq (s : State) (a : Access) (space : Nat) (target : Option Nat) (o : Nat → Nat) (l : Nat) :
    spmCond a space (o l) (target.map fun b => (s.launch b).spm) =
      verdict (fun l => alignTrap a.size space (o l)) (fun l => spmFault s target a.size space (o l)) l := by
  unfold spmCond verdict alignTrap spmFault beyondOf
  by_cases aligned : o l % a.size = 0
  · cases target with
    | none => simp [aligned]
    | some b => by_cases inside : (s.launch b).spm < o l + a.size <;> simp [aligned, inside]
  · simp [aligned]

/-- A put of an entry that a filter drops, in the place of one that it drops, does not change what it keeps. -/
theorem filter_put {α : Type} {p : Nat × α → Bool} {k : Nat} {a : α} (m : Sp α) (new : p (k, a) = false)
    (old : ∀ b, Sp.find? m k = some b → p (k, b) = false) : (Sp.put m k a).filter p = m.filter p := by
  induction m with
  | nil => simp [Sp.put, new]
  | cons e m ih =>
    obtain ⟨k', b⟩ := e
    unfold Sp.put
    split
    · rw [List.filter_cons, new]; rfl
    · split
      · next h =>
        subst h
        rw [List.filter_cons, List.filter_cons, new, old b (by simp [Sp.find?])]
        simp
      · next h =>
        rw [List.filter_cons, List.filter_cons, ih fun b' hb => old b' (by simp [Sp.find?, Ne.symm h, hb])]

/-- The oldest block on another core than that of the block at issue is the same once the issue is recorded. -/
theorem exportBlock_noteIssue {s : State} {core : Nat} (h : core ≠ (s.block s.iss.blk).core) (gid stage : Nat) :
    exportBlock (noteIssue s) core gid stage = exportBlock s core gid stage := by
  have blocks : (noteIssue s).blocks =
      Sp.put s.blocks s.iss.blk { s.block s.iss.blk with issues := (s.block s.iss.blk).issues + 1 } := by
    simp only [noteIssue, State.setWeft_blocks, State.setBlock, clearDeliver_blocks, clearDeliver_iss, State.block]
  have other : ((s.block s.iss.blk).core == core) = false := by simpa using Ne.symm h
  unfold exportBlock
  rw [blocks, filter_put]
  · simp [other]
  · intro b hb
    have : s.block s.iss.blk = b := by rw [State.block, Sp.get, hb]; rfl
    rw [this] at other
    simp [other]

/-- A cluster target names its core by an exclusive or: only 0 names the core itself. -/
theorem clusterBase_add_xor_ne {core t : Nat} (ht : t ≠ 0) : clusterBase core + (core % 4 ^^^ t) ≠ core := by
  intro h
  have same : core % 4 ^^^ t = core % 4 := by unfold clusterBase at h; omega
  apply ht
  calc t = core % 4 ^^^ (core % 4 ^^^ t) := by rw [← Nat.xor_assoc, Nat.xor_self, Nat.zero_xor]
    _ = 0 := by rw [same, Nat.xor_self]

theorem clusterTarget_noteIssue (s : State) (t : Nat) : clusterTarget (noteIssue s) t = clusterTarget s t := by
  simp only [clusterTarget, clusterTargetOf, noteIssue_iss, noteIssue_block_core, noteIssue_block_gid, noteIssue_block_stage]
  split
  · rfl
  · next ht => exact exportBlock_noteIssue (clusterBase_add_xor_ne ht) _ _

/-- The parts that scratchpad and cluster accesses share: a lane beyond the allocation parks the weft. -/
theorem spmFault_spec {s : State} {target : Option Nat} {n space o : Nat} {c : Cond} (space_lt : space < 16)
    (h : spmFault s target n space o = some c) : c.sys = false ∧ c.cause ≠ .integrity ∧ c.info < 16 := by
  unfold spmFault at h
  split at h <;> cases h
  exact ⟨rfl, nofun, space_lt⟩

theorem clusterIssue_spec {x : Access} {imm : Nat} {a : VReg} {s : State} (hi : AccessIssues x (one a) s)
    (run : ∀ l ∈ s.iss.lanes, (s.lane l).tst = .run) (undelivered : s.iss.deliver = 0) (unparked : s.wft.park = none) :
    ∃ t, clusterIssue x a imm s = .next t ∧
      LanesChecked s t x
        (fun l => { laneAcc s x l (offsetAddr (s.lane l) a imm) with
          st := .ready (offsetAddr (s.lane l) a imm) false false, aux := (clusterTarget s x.target).getD 0 })
        (fun l => alignTrap x.size 1 (offsetAddr (s.lane l) a imm))
        (fun l => spmFault s (clusterTarget s x.target) x.size 1 (offsetAddr (s.lane l) a imm)) :=
  memIssue_spec hi.1 hi.2.1 hi.2.2 run rfl
    (fun l => by
      rw [offsetAddr_noteIssue, clusterTarget_noteIssue, ← spmCond_eq s x 1 (clusterTarget s x.target)
        (fun l => offsetAddr (s.lane l) a imm) l]
      simp only [noteIssue_launch])
    (fun l => by dsimp only; rw [laneAcc_noteIssue, offsetAddr_noteIssue, clusterTarget_noteIssue])
    (fun _ _ _ h => alignTrap_sys h)
    (fun _ _ _ h => by
      obtain ⟨hs, hc, hn⟩ := spmFault_spec (by decide) h
      exact ⟨hs, hc, hn, undelivered, unparked⟩)

theorem spmIssue_spec {x : Access} {imm : Nat} {a : VReg} {s : State} (hi : AccessIssues x (one a) s)
    (run : ∀ l ∈ s.iss.lanes, (s.lane l).tst = .run) (undelivered : s.iss.deliver = 0) (unparked : s.wft.park = none) :
    ∃ t, spmIssue x a imm s = .next t ∧
      LanesChecked s t x
        (fun l => { laneAcc s x l (offsetAddr (s.lane l) a imm) with
          st := .ready (offsetAddr (s.lane l) a imm) false false, aux := s.iss.blk })
        (fun l => alignTrap x.size 0 (offsetAddr (s.lane l) a imm))
        (fun l => spmFault s (some s.iss.blk) x.size 0 (offsetAddr (s.lane l) a imm)) :=
  memIssue_spec hi.1 hi.2.1 hi.2.2 run rfl
    (fun l => by
      rw [offsetAddr_noteIssue, ← spmCond_eq s x 0 (some s.iss.blk) (fun l => offsetAddr (s.lane l) a imm) l]
      simp only [noteIssue_launch, noteIssue_iss, Option.map_some])
    (fun l => by dsimp only; rw [laneAcc_noteIssue, offsetAddr_noteIssue, noteIssue_iss])
    (fun _ _ _ h => alignTrap_sys h)
    (fun _ _ _ h => by
      obtain ⟨hs, hc, hn⟩ := spmFault_spec (by decide) h
      exact ⟨hs, hc, hn, undelivered, unparked⟩)

end Sys2Proof.Machine
end

section
/-!
The accesses whose address alone decides a check, each in the way its space issues it (R126, R179, R182, R243).
-/
namespace Sys2Proof.Machine
open Sys2Proof

/-- The accesses at a virtual address, each with its size, its space and its immediate. -/
def vaTable (d a : VReg) (i : BitVec 8) (o : Order) (sc : Scope) (p : Policy) (f : AtomFn) (h : AtfFn) :
    List (Instr × Nat × Nat × Nat) :=
  [(.ldgZ8 d a o sc p, 1, 2, 0), (.ldgS8 d a o sc p, 1, 2, 0), (.ldgZ16 d a o sc p, 2, 2, 0), (.ldgS16 d a o sc p, 2, 2, 0),
    (.ldg32 d a o sc p, 4, 2, 0), (.ldg64 d a o sc p, 8, 2, 0), (.ldg128 d a o sc p, 16, 2, 0), (.stg8 d a o sc p, 1, 2, 0),
    (.stg16 d a o sc p, 2, 2, 0), (.stg32 d a o sc p, 4, 2, 0), (.stg64 d a o sc p, 8, 2, 0), (.stg128 d a o sc p, 16, 2, 0),
    (.atg32 d a f o sc, 4, 2, 0), (.atg64 d a f o sc, 8, 2, 0), (.atf32 d a h o sc, 4, 2, 0),
    (.ldp32 d a i, 4, 3, 16 * i.toNat), (.ldp64 d a i, 8, 3, 16 * i.toNat), (.ldp128 d a i, 16, 3, 16 * i.toNat),
    (.ldh32 d a o, 4, 5, 0), (.ldh64 d a o, 8, 5, 0), (.sth32 d a o, 4, 5, 0), (.sth64 d a o, 8, 5, 0),
    (.athAdd64 d a o, 8, 5, 0), (.athCas64 d a o, 8, 5, 0), (.athExch64 d a o, 8, 5, 0)]

theorem exec_vaTable (s : State) (d a : VReg) (i : BitVec 8) (o : Order) (sc : Scope) (p : Policy) (f : AtomFn) (h : AtfFn) :
    ∀ e ∈ vaTable d a i o sc p f h, ∀ x, accessOf e.1 = some x →
      x.size = e.2.1 ∧ exec e.1 s = vaIssue x e.2.2.1 a e.2.2.2 s := by
  simp only [vaTable, List.forall_mem_cons, List.not_mem_nil, false_implies, implies_true, and_true]
  refine ⟨?_, ?_, ?_, ?_, ?_, ?_, ?_, ?_, ?_, ?_, ?_, ?_, ?_, ?_, ?_, ?_, ?_, ?_, ?_, ?_, ?_, ?_, ?_, ?_, ?_⟩ <;>
    exact fun x hx => by cases hx; exact ⟨rfl, rfl⟩

/-- The accesses of the constant bank, each with its size. -/
def constTable (d a : VReg) (i : BitVec 8) : List (Instr × Nat) := [(.ldcb32 d a i, 4), (.ldcb64 d a i, 8), (.ldcb128 d a i, 16)]

theorem exec_constTable (s : State) (d a : VReg) (i : BitVec 8) : ∀ e ∈ constTable d a i, ∀ x, accessOf e.1 = some x →
    x.size = e.2 ∧ exec e.1 s = constIssue x a (4 * i.toNat) s := by
  simp only [constTable, List.forall_mem_cons, List.not_mem_nil, false_implies, implies_true, and_true]
  refine ⟨?_, ?_, ?_⟩ <;> exact fun x hx => by cases hx; exact ⟨rfl, rfl⟩

/-- The accesses of the scratchpads, each with its size and, for a cluster access, its target. -/
def spmTable (d a : VReg) (i : BitVec 8) (j : BitVec 4) (g : BitVec 2) (o : Order) : List (Instr × Nat × Option (BitVec 2)) :=
  [(.lds32 d a i, 4, none), (.lds64 d a i, 8, none), (.lds128 d a i, 16, none), (.sts32 d a i, 4, none),
    (.sts64 d a i, 8, none), (.sts128 d a i, 16, none), (.atsAdd32 d a i, 4, none), (.atsExch32 d a i, 4, none),
    (.ldn32 d a g o j, 4, some g), (.ldn64 d a g o j, 8, some g), (.ldn128 d a g o j, 16, some g),
    (.stn32 d a g o j, 4, some g), (.stn64 d a g o j, 8, some g), (.stn128 d a g o j, 16, some g),
    (.atnAdd32 d a g o j, 4, some g), (.atnExch32 d a g o j, 4, some g)]

/-- How an access of a scratchpad issues: in its own block's, or in its target's. -/
def spmWay (x : Access) (a : VReg) (i : BitVec 8) (j : BitVec 4) (s : State) :
    Option (BitVec 2) → Host.Outcome State Fault Refusal
  | none => spmIssue x a (4 * i.toNat) s
  | some _ => clusterIssue x a (16 * j.toNat) s

theorem exec_spmTable (s : State) (d a : VReg) (i : BitVec 8) (j : BitVec 4) (g : BitVec 2) (o : Order) :
    ∀ e ∈ spmTable d a i j g o, ∀ x, accessOf e.1 = some x →
      x.size = e.2.1 ∧ (∀ t ∈ e.2.2, x.target = t.toNat) ∧ exec e.1 s = spmWay x a i j s e.2.2 := by
  simp only [spmTable, List.forall_mem_cons, List.not_mem_nil, false_implies, implies_true, and_true]
  refine ⟨?_, ?_, ?_, ?_, ?_, ?_, ?_, ?_, ?_, ?_, ?_, ?_, ?_, ?_, ?_, ?_⟩ <;>
    exact fun x hx => by cases hx; exact ⟨rfl, fun t ht => by cases ht <;> rfl, rfl⟩

/-! ## The checks of each table -/

theorem vaTable_checked {s : State} {d a : VReg} {i : BitVec 8} {o : Order} {sc : Scope} {p : Policy} {f : AtomFn} {h : AtfFn}
    (run : ∀ l ∈ s.iss.lanes, (s.lane l).tst = .run) {e : Instr × Nat × Nat × Nat} (he : e ∈ vaTable d a i o sc p f h)
    {x : Access} (hx : accessOf e.1 = some x) (hi : AccessIssues x (two a) s)
    (hit : missStall s (s.iss.lanes.map fun l => ((s.lane l).pair a.toNat + BitVec.ofNat 64 e.2.2.2).toNat) = false) :
    ∃ t, exec e.1 s = .next t ∧
      LanesChecked s t x (fun l => laneAcc s x l ((s.lane l).pair a.toNat + BitVec.ofNat 64 e.2.2.2).toNat)
        (fun l => vaTrap e.2.1 e.2.2.1 ((s.lane l).pair a.toNat + BitVec.ofNat 64 e.2.2.2)) fun _ => none := by
  obtain ⟨size, way⟩ := exec_vaTable s d a i o sc p f h e he x hx
  rw [way, ← size]
  exact vaIssue_spec hi run hit

theorem constTable_checked {s : State} {d a : VReg} {i : BitVec 8} (run : ∀ l ∈ s.iss.lanes, (s.lane l).tst = .run)
    {e : Instr × Nat} (he : e ∈ constTable d a i) {x : Access} (hx : accessOf e.1 = some x) (hi : AccessIssues x (one a) s) :
    ∃ t, exec e.1 s = .next t ∧
      LanesChecked s t x
        (fun l => { laneAcc s x l (offsetAddr (s.lane l) a (4 * i.toNat) % 65536) with
          st := .ready (offsetAddr (s.lane l) a (4 * i.toNat) % 65536) false false })
        (fun l => alignTrap e.2 4 (offsetAddr (s.lane l) a (4 * i.toNat) % 65536)) fun _ => none := by
  obtain ⟨size, way⟩ := exec_constTable s d a i e he x hx
  rw [way, ← size]
  exact constIssue_spec hi run

theorem spmTable_checked {s : State} {d a : VReg} {i : BitVec 8} {j : BitVec 4} {g : BitVec 2} {o : Order}
    (run : ∀ l ∈ s.iss.lanes, (s.lane l).tst = .run) {e : Instr × Nat × Option (BitVec 2)} (he : e ∈ spmTable d a i j g o)
    {x : Access} (hx : accessOf e.1 = some x) (hi : AccessIssues x (one a) s) (undelivered : s.iss.deliver = 0)
    (unparked : s.wft.park = none) :
    let at_ := fun l => offsetAddr (s.lane l) a (if e.2.2.isSome then 16 * j.toNat else 4 * i.toNat)
    let space := if e.2.2.isSome then 1 else 0
    let target := (e.2.2.map fun g => clusterTargetOf s s.iss.blk g.toNat).getD (some s.iss.blk)
    ∃ t, exec e.1 s = .next t ∧
      LanesChecked s t x
        (fun l => { laneAcc s x l (at_ l) with st := .ready (at_ l) false false, aux := target.getD 0 })
        (fun l => alignTrap e.2.1 space (at_ l)) (fun l => spmFault s target e.2.1 space (at_ l)) := by
  obtain ⟨size, target, way⟩ := exec_spmTable s d a i j g o e he x hx
  rw [way, ← size]
  cases he' : e.2.2 with
  | none => exact spmIssue_spec hi run undelivered unparked
  | some t =>
    have := clusterIssue_spec (imm := 16 * j.toNat) hi run undelivered unparked
    rw [target t he'] at this
    exact this

end Sys2Proof.Machine
end

section
/-!
The checks of an access against its page, once that is found: PROTECT parks the weft, PLATEWRITE and SEALED trap the lane
(R126, R217, R382, R383).
-/
namespace Sys2Proof.Machine
open Sys2Proof

/-! ## What a park captures (R377, R382) -/

/-- `v` holds the wefts of `u`, and the data registers of each of its threads. -/
def RegsKept (u v : State) : Prop := v.wefts = u.wefts ∧ ∀ b w l, (v.thread b w l).v = (u.thread b w l).v

theorem RegsKept.refl (u : State) : RegsKept u u := ⟨rfl, fun _ _ _ => rfl⟩

theorem RegsKept.trans {u v w : State} (h : RegsKept u v) (h' : RegsKept v w) : RegsKept u w :=
  ⟨h'.1.trans h.1, fun b w l => (h'.2 b w l).trans (h.2 b w l)⟩

/-- A thread replaced by one of the same data registers, and any change of the operations. -/
theorem regsKept_setThread {u v : State} (hw : v.wefts = u.wefts) (ht : v.threads = u.threads) (b w l : Nat) {x : Thread}
    (hx : x.v = (u.thread b w l).v) : RegsKept u (v.setThread b w l x) := by
  refine ⟨hw, fun b' w' l' => ?_⟩
  have same : ∀ b w l, v.thread b w l = u.thread b w l := fun b w l => by rw [State.thread, ht]; rfl
  rw [State.thread_setThread]
  split
  · next h => rw [hx]; simp only [State.thread, h]
  · rw [same]

theorem restartStack_regsKept (s : State) (b w l : Nat) : RegsKept s (restartStack s b w l) := by
  unfold restartStack
  split
  · exact .refl s
  · refine regsKept_setThread (by rfl) (by rfl) b w l ?_
    split <;> rfl

theorem captureWeft_regsKept (s : State) (b w : Nat) : RegsKept s (captureWeft s b w) := by
  refine foldl_rel RegsKept.refl RegsKept.trans _ (fun u l => ?_) _ s
  have restart : RegsKept u (if stackHeld u b w l then restartStack u b w l else u) := by
    split <;> [exact restartStack_regsKept u b w l; exact .refl u]
  dsimp only
  generalize (if stackHeld u b w l then restartStack u b w l else u) = v at restart ⊢
  split
  · exact restart.trans ⟨rfl, fun _ _ _ => rfl⟩
  · exact restart.trans (regsKept_setThread rfl rfl b w l rfl)

/-! ## A system fault of an outstanding access (R382) -/

/-- An access replaced changes nothing but the operations. -/
theorem setAcc_eq (s : State) (id : Nat) (a : LaneAcc) : ∃ ops, setAcc s id a = { s with ops := ops } := by
  unfold setAcc
  split <;> exact ⟨_, rfl⟩

/-- What the fault of a captured access leaves, in a weft that is not parked and whose lane is not under DELIVER. -/
theorem accSystemFault_spec {s : State} {id : Nat} {o : MemOp} {a : LaneAcc} {c : Cond} (stack : o.acc.fn.isStack = false)
    (deliver : a.deliver = false) (unparked : (s.weft o.blk o.weft).park = none) (hc : c.cause ≠ .integrity)
    (hi : c.info < 16) :
    let t := accSystemFault s id o a c
    (t.weft o.blk o.weft).wst = .parked ∧
      ((t.weft o.blk o.weft).park.map fun e => (e.cause, e.reason, e.space, e.addr, e.issue, e.done)) =
        some (c.cause.code, c.reason, c.info, c.addr, o.issue, o.doneMask) ∧
      (∀ l, (t.thread o.blk o.weft l).v = (s.thread o.blk o.weft l).v) ∧ t.mem = s.mem := by
  obtain ⟨ops, hops⟩ := setAcc_eq s id { a with st := .held, trip := .none, link := false }
  have fail : failAcc s id o a = { s with ops := ops } := by
    unfold failAcc
    rw [stack]
    exact hops
  unfold accSystemFault
  simp only [deliver, Bool.false_and, Bool.false_eq_true, if_false, fail, systemFault_undelivered]
  generalize (if (s.thread o.blk o.weft a.lane).tst == .trap then (s.thread o.blk o.weft a.lane).pc else o.pc) = pc
  generalize he : faultEntry _ _ _ _ _ _ _ pc = e
  have entry : (e.cause, e.reason, e.space, e.addr, e.issue, e.done) =
      (c.cause.code, c.reason, c.info, c.addr, o.issue, o.doneMask) := by
    rw [← he]
    simp only [faultEntry, if_neg hc, Nat.mod_eq_of_lt hi]
  obtain ⟨p, hp⟩ := parkWeft_weft (s := { s with ops := ops }) unparked e o.acc.fn.isStack
  have mem := parkWeft_mem { s with ops := ops } o.blk o.weft e o.acc.fn.isStack
  have thread := parkWeft_thread { s with ops := ops } o.blk o.weft e o.acc.fn.isStack o.blk o.weft
  generalize parkWeft { s with ops := ops } o.blk o.weft e o.acc.fn.isStack = u at hp mem thread ⊢
  rw [if_pos (by rw [hp]; rfl)]
  obtain ⟨wefts, regs⟩ := captureWeft_regsKept (noteParkOp u o.blk o.weft id) o.blk o.weft
  have weft : (captureWeft (noteParkOp u o.blk o.weft id) o.blk o.weft).weft o.blk o.weft =
      { u.weft o.blk o.weft with parkOp := some id } := by
    rw [State.weft, wefts]
    exact State.weft_setWeft_same _ _ _ _
  rw [weft, hp]
  refine ⟨rfl, congrArg some entry, fun l => ?_, ?_⟩
  · rw [regs]
    exact congrArg Thread.v (thread l)
  · rw [captureWeft_mem]
    exact mem

/-! ## A precise trap of an outstanding access (R383) -/

theorem accPreciseTrap_spec {s : State} {id : Nat} {o : MemOp} {a : LaneAcc} {c : Cond} (stack : o.acc.fn.isStack = false)
    (run : (s.thread o.blk o.weft a.lane).tst = .run) (free : (s.thread o.blk o.weft a.lane).hold = none) :
    let t := accPreciseTrap s id o a c
    let y := t.thread o.blk o.weft a.lane
    y.tst = .trap ∧ y.tpc = o.pc + BitVec.ofNat 64 c.skip ∧ y.tcause = c.tcause ∧ y.taddr = BitVec.ofNat 64 c.addr ∧
      y.v = (s.thread o.blk o.weft a.lane).v ∧ t.mem = s.mem := by
  have notSpill : o.acc.fn ≠ .spill := fun h => by rw [h] at stack; cases stack
  unfold accPreciseTrap
  simp only [if_neg notSpill, State.setOp_thread_home]
  generalize hu : State.setThread _ _ _ _ _ = u
  have thread : u.thread o.blk o.weft a.lane = { s.thread o.blk o.weft a.lane with pc := o.pc } := by
    rw [← hu]; exact State.thread_setThread_same _ _ _ _ _
  have mem : u.mem = s.mem := by rw [← hu]; rfl
  have untrapped : ¬ (u.thread o.blk o.weft a.lane).tst = .trap := by rw [thread]; exact fun h => by rw [run] at h; cases h
  obtain ⟨q, hq⟩ := enterTrap_of_free (s := u) (b := o.blk) (w := o.weft) (l := a.lane) (by rw [thread]; exact free) c
  rw [deliverTrap, if_neg untrapped]
  refine ⟨?_, ?_, ?_, ?_, ?_, ?_⟩
  case refine_6 => rw [enterTrap_mem, mem]
  all_goals
    rw [hq, State.thread_setThread_same, thread]
    rfl

/-! ## The checks against the page (R126, R217) -/

theorem MSpace.code_lt (x : MSpace) : x.code < 16 := by cases x <;> decide

/-- A walk of a held access outside the scratchpads translates it. -/
theorem exec_pageWalk {s : State} {op l : Nat} {o : MemOp} {a : LaneAcc} (ho : s.op? op = some o) (ha : o.lane? l = some a)
    (held : a.st = .held) (spm : o.acc.space ≠ .spm) (cluster : o.acc.space ≠ .cluster) :
    exec (.pageWalk op l) s = .next (accTranslate s op o a) := by
  change execPageWalk op l s = _
  unfold execPageWalk
  simp only [ho, ha, held]
  have onScratch : (o.acc.space == .spm || o.acc.space == .cluster) = false := by simp [spm, cluster]
  rw [if_neg (by decide), if_neg (by rw [onScratch]; decide)]

section
variable {s u : State} {id : Nat} {o : MemOp} {a : LaneAcc} {p : TlbEnt}

/-- PROTECT, of a weft that is not parked (R126, R382). -/
theorem accTranslate_protect {r : Nat} (kind : o.kind = .access) (unparked : (s.weft o.blk o.weft).park = none)
    (ok : translate s o.core (s.viOf o.blk) (s.asnOf o.blk) (a.addr % 2 ^ 57) o.acc.pageUse = (.ok p, u))
    (check : checkAccess u o a p = some (.protect, r)) :
    accTranslate s id o a = accSystemFault u id o a { cause := .protect, addr := a.addr, info := o.acc.space.code } := by
  unfold accTranslate
  simp only [ok, check, kind, unparked, reduceCtorEq, if_false, Option.isSome_none, Bool.false_eq_true, if_true]

/-- PLATEWRITE and SEALED (R126, R383). -/
theorem accTranslate_trap {c : Cause} {r : Nat} (kind : o.kind = .access) (hc : c ≠ .protect)
    (ok : translate s o.core (s.viOf o.blk) (s.asnOf o.blk) (a.addr % 2 ^ 57) o.acc.pageUse = (.ok p, u))
    (check : checkAccess u o a p = some (c, r)) :
    accTranslate s id o a = accPreciseTrap u id o a { cause := c, reason := r, addr := a.addr } := by
  unfold accTranslate
  simp only [ok, check, kind, hc, reduceCtorEq, if_false]

/-- Whether the page permits what the access does (R126). -/
def PagePermits (p : TlbEnt) (f : AccFn) : Prop := (f.reads = true → p.r = true) ∧ (f.writes = true → p.w = true)

theorem checkGlobal_permission {vi asn va : Nat} {f : AccFn} (h : ¬ PagePermits p f) :
    checkGlobal u vi asn va p f.reads f.writes = some (.protect, 0) := by
  have denied : (f.reads && !p.r || f.writes && !p.w) = true := by
    by_contra allowed
    simp only [Bool.not_eq_true, Bool.or_eq_false_iff, Bool.and_eq_false_imp, Bool.not_eq_false'] at allowed
    exact h allowed
  rw [checkGlobal, if_pos denied]

/-- The checks of a global access that its page permits. -/
theorem checkGlobal_permitted {vi asn va : Nat} {f : AccFn} (h : PagePermits p f) :
    checkGlobal u vi asn va p f.reads f.writes =
      if f.writes && p.plate then some (.plateWrite, 0)
      else if f.writes && sealedAt u vi asn va p.g then some (.sealed, 1)
      else if regionOf u p.pa = .host then some (.protect, 0)
      else none := by
  have allowed : (f.reads && !p.r || f.writes && !p.w) = false := by
    simp only [Bool.or_eq_false_iff, Bool.and_eq_false_imp, Bool.not_eq_false']
    exact h
  rw [checkGlobal, allowed]
  rfl

theorem checkPlate_refused (h : ¬ (p.plate = true ∧ p.r = true)) : checkPlate p = some (.protect, 0) := by
  rw [checkPlate, if_neg (by simpa using h)]

theorem checkHost_refused {f : AccFn} (h : ¬ (regionOf u p.pa = .host ∧ PagePermits p f)) :
    checkHost u p f.reads f.writes = some (.protect, 0) := by
  rw [checkHost, if_neg]
  rintro ⟨host, rd, wr⟩
  refine h ⟨host, fun hr => ?_, fun hw => ?_⟩
  · simpa [hr] using rd
  · simpa [hw] using wr

end

/-- Settles O34: the checks of the address at issue, table by table, then the checks of the page. -/
theorem addressChecksOfAccesses : Obligations.AddressChecksOfAccesses := by
  refine ⟨fun s d a i j g o sc p f h run => ⟨fun e he x hx => ?_, fun e he x hx => ?_, fun e he x hx => ?_⟩, ?_⟩
  · exact ⟨(exec_vaTable s d a i o sc p f h e he x hx).1, fun hi hit => vaTable_checked run he hx hi hit⟩
  · exact ⟨(exec_constTable s d a i e he x hx).1, fun hi => constTable_checked run he hx hi⟩
  · exact ⟨(exec_spmTable s d a i j g o e he x hx).1, fun hi undelivered unparked =>
      spmTable_checked run he hx hi undelivered unparked⟩
  · intro s u op l o a p ho ha hl held kind stack ok wefts threads blocks rd wr permits host isSealed protect traps
    subst hl
    have weft : u.weft o.blk o.weft = s.weft o.blk o.weft := by rw [State.weft, wefts]; rfl
    have thread : u.thread o.blk o.weft a.lane = s.thread o.blk o.weft a.lane := by rw [State.thread, threads]; rfl
    have parks : ∀ x, o.acc.space = x → x ≠ .spm → x ≠ .cluster → checkAccess u o a p = some (.protect, 0) → protect := by
      intro x space spm cluster check unparked deliver
      refine ⟨_, exec_pageWalk ho ha held (space ▸ spm) (space ▸ cluster), ?_⟩
      rw [accTranslate_protect kind unparked ok check]
      obtain ⟨wst, park, regs, mem⟩ := accSystemFault_spec (s := u) (id := op)
        (c := { cause := .protect, addr := a.addr, info := o.acc.space.code }) stack deliver (by rw [weft]; exact unparked)
        nofun (MSpace.code_lt _)
      exact ⟨wst, park, (regs a.lane).trans (by rw [thread]), mem⟩
    have trap : ∀ c r, c ≠ Cause.protect → o.acc.space = .global → checkAccess u o a p = some (c, r) → traps c r := by
      intro c r hc space check run free
      refine ⟨_, exec_pageWalk ho ha held (space ▸ nofun) (space ▸ nofun), ?_⟩
      rw [accTranslate_trap kind hc ok check]
      obtain ⟨tst, tpc, tcause, taddr, regs, mem⟩ := accPreciseTrap_spec (s := u) (id := op)
        (c := { cause := c, reason := r, addr := a.addr }) stack (by rw [thread]; exact run) (by rw [thread]; exact free)
      exact ⟨tst, by rw [tpc]; exact BitVec.add_zero _, tcause, taddr, by rw [regs, thread], mem⟩
    refine ⟨fun space => ⟨fun no => ?_, fun yes hw plate => ?_, fun yes hw plate sealed => ?_, fun yes free hosted => ?_⟩,
      fun space no => ?_, fun space no => ?_⟩
    · refine parks .global space nofun nofun ?_
      rw [checkAccess, space]
      exact checkGlobal_permission no
    · refine trap .plateWrite 0 nofun space ?_
      rw [checkAccess, space]
      refine (checkGlobal_permitted yes).trans ?_
      rw [if_pos (by rw [show o.acc.fn.writes = true from hw, plate]; rfl)]
    · refine trap .sealed 1 nofun space ?_
      rw [checkAccess, space]
      refine (checkGlobal_permitted yes).trans ?_
      rw [if_neg (by rw [plate, Bool.and_false]; nofun),
        if_pos (by rw [show o.acc.fn.writes = true from hw, show sealedAt _ _ _ _ _ = true from sealed]; rfl)]
    · refine parks .global space nofun nofun ?_
      rw [checkAccess, space]
      refine (checkGlobal_permitted yes).trans ?_
      rw [if_neg, if_neg, if_pos hosted]
      · exact fun h => (free (Bool.and_eq_true_iff.mp h).1).2 (Bool.and_eq_true_iff.mp h).2
      · intro h
        obtain ⟨hw, plate⟩ := Bool.and_eq_true_iff.mp h
        rw [(free hw).1] at plate
        cases plate
    · exact parks .plate space nofun nofun (by rw [checkAccess, space]; exact checkPlate_refused no)
    · exact parks .host space nofun nofun (by rw [checkAccess, space]; exact checkHost_refused no)

end Sys2Proof.Machine
end

section
/-!
The steps of an outstanding operation: what each leaves of the operation, and the place of an access (R126, R130, R259).
-/
namespace Sys2Proof.Machine
open Sys2Proof

/-! ## The access of a lane (R130) -/

theorem MemOp.lane_of_lane? {o : MemOp} {l : Nat} {a : LaneAcc} (h : o.lane? l = some a) : a.lane = l := by
  simpa using List.find?_some h

/-- The access that replaces that of a lane is found there. -/
theorem MemOp.lane?_setLane {o : MemOp} {l : Nat} {a a' : LaneAcc} (h : o.lane? l = some a) (ha : a'.lane = l) :
    (o.setLane a').lane? l = some a' := by
  unfold MemOp.lane? MemOp.setLane at *
  subst ha
  dsimp only
  generalize o.lanes = ls at h
  induction ls with
  | nil => cases h
  | cons x ls ih =>
    by_cases hx : x.lane = a'.lane
    · simp [hx]
    · have hb : (x.lane == a'.lane) = false := by simpa using hx
      rw [List.find?_cons, hb] at h
      simp only [List.map_cons, hb, Bool.false_eq_true, if_false, List.find?_cons]
      exact ih h

theorem setAcc_of_op {s : State} {id : Nat} {o : MemOp} (h : s.op? id = some o) (a : LaneAcc) :
    setAcc s id a = s.setOp id (o.setLane a) := by
  simp only [setAcc, h]

/-- What is found of a lane whose access has been replaced. -/
theorem op_lane_setOp {s : State} {id l : Nat} {o : MemOp} {a a' : LaneAcc} (h : o.lane? l = some a) (ha : a'.lane = l) :
    (((s.setOp id (o.setLane a')).op? id).bind fun o => o.lane? l) = some a' := by
  rw [State.op_setOp, if_pos rfl]
  exact MemOp.lane?_setLane h ha

/-! ## Translation (R126, R219) -/

section
variable {s u : State} {op l : Nat} {o : MemOp} {a : LaneAcc} {p : TlbEnt}

theorem accTranslate_ready (kind : o.kind = .access)
    (ok : translate s o.core (s.viOf o.blk) (s.asnOf o.blk) (a.addr % 2 ^ 57) o.acc.pageUse = (.ok p, u))
    (check : checkAccess u o a p = none) : accTranslate s op o a = accReady u op o a p := by
  unfold accTranslate
  simp only [ok, check, kind, reduceCtorEq, decide_false, Bool.false_and, Bool.false_eq_true, if_false]

/-- The access of a lane whose page passes its checks. -/
def readyAcc (a : LaneAcc) (p : TlbEnt) : LaneAcc :=
  { a with st := .ready (p.phys (a.addr % 2 ^ 57)) p.nc p.plate, left := if p.plate then 1 else a.left }

/-- The lane of a spill goes on; no thread changes for another access (R24, R126). -/
theorem accReady_spec (hu : u.op? op = some o) :
    let t := accReady u op o a p
    t.op? op = some (o.setLane (readyAcc a p)) ∧ t.mem = u.mem ∧
      (o.acc.fn = .spill → (t.thread o.blk o.weft a.lane).hold = none) ∧ (o.acc.fn ≠ .spill → t.threads = u.threads) := by
  have op : (u.setOp op (o.setLane (readyAcc a p))).op? op = some (o.setLane (readyAcc a p)) := by
    rw [State.op_setOp, if_pos rfl]
  unfold accReady
  rw [setAcc_of_op hu]
  dsimp only
  split
  · next spill => exact ⟨op, rfl, fun _ => by rw [State.thread_setThread_same], fun h => absurd spill h⟩
  · next other => exact ⟨op, rfl, fun h => absurd h other, fun _ => rfl⟩

/-- A scratchpad access that was captured is checked anew (R179, R243, R385). -/
theorem exec_pageWalk_resolve (ho : s.op? op = some o) (ha : o.lane? l = some a) (held : a.st = .held)
    (space : o.acc.space = .spm ∨ o.acc.space = .cluster)
    (check : spmCond o.acc o.acc.space.code a.addr ((o.target s).map fun b => (s.launch b).spm) = none) :
    exec (.pageWalk op l) s =
      .next (setAcc s op { a with st := .ready a.addr false false, aux := (o.target s).getD 0 }) := by
  have onScratch : (o.acc.space == .spm || o.acc.space == .cluster) = true := by rcases space with h | h <;> rw [h] <;> rfl
  change execPageWalk op l s = _
  unfold execPageWalk
  simp only [ho, ha, held]
  rw [if_neg (by decide), if_pos onScratch, accResolve, check]

end

/-! ## Serving an access at its place (R259) -/

/-- The access of a lane that has its place, with the value that it read. -/
def servedAcc (a : LaneAcc) (v : Nat) : LaneAcc := { a with left := 0, val := a.val ||| v, st := .served }

section
variable {s u : State} {id : Nat} {o : MemOp} {a : LaneAcc} {v : Nat}

theorem accServed_whole (hu : u.op? id = some o) (left : a.left = 1) (acquires : o.acc.acquires = false) :
    accServed u id o a 0 v = u.setOp id (o.setLane (servedAcc a v)) := by
  have none : (if (0 : Nat) = 0 then a.left / 2 * 2 else a.left % 2) = 0 := by rw [left]; rfl
  have low : v * 2 ^ (64 * 0) = v := by rw [Nat.mul_zero, Nat.pow_zero, Nat.mul_one]
  unfold accServed
  rw [none, low, acquires]
  dsimp only
  rw [Bool.and_false, if_neg Bool.false_ne_true, setAcc_of_op hu]
  rfl

/-- A relaxed access takes its place where that answers without a poisoned word. -/
theorem accServe_of_place {half : Nat} (host : o.acc.space ≠ .host) (releases : o.acc.releases = false)
    (acquires : o.acc.acquires = false) (sc : o.acc.wideSc = false) (place : accPlace s o a half = .ok (u, v, none)) :
    accServe s id o a half = accServed u id o a half v := by
  unfold accServe
  rw [releases, sc, Bool.or_false, if_neg Bool.false_ne_true]
  cases space : o.acc.space
  case host => exact absurd space host
  all_goals simp only [acquires, Bool.false_and, Bool.false_eq_true, if_false, place]

/-- No response goes back of an access that was served where it issued. -/
theorem respond_home {t : State} {lane home : Nat} {a' : LaneAcc} (ho : t.op? id = some o) (ha : o.lane? lane = some a')
    (trip : a'.trip = .none) : respond t id lane home = t := by
  have away : (a'.st == .served && a'.trip == .atHome) = false := by rw [trip]; simp
  simp only [respond, ho, ha, away, Bool.false_eq_true, if_false]

/-- An access that needs no message comes to its place. -/
theorem exec_homeAccess {op l pa : Nat} {nc plate : Bool} (ho : s.op? op = some o) (ha : o.lane? (l % 32) = some a)
    (kind : o.kind = .access) (st : a.st = .ready pa nc plate) (left : a.left = 1) (hl : l < 32) (trip : a.trip = .none)
    (first : mustWait s op o a = false) (near : needsMesh s o a = false) (host : o.acc.space ≠ .host) :
    exec (.homeAccess op l) s = .next (respond (servePlace s op o a 0 pa) op (l % 32) (homeOf pa)) := by
  have half : l / 32 = 0 := Nat.div_eq_of_lt hl
  have ready : (!a.left.testBit 0 || mustWait s op o a) = false := by rw [left, first]; rfl
  have link : toLink o a = false := by
    rw [toLink, beq_eq_false_iff_ne.mpr host]
    rfl
  have lane := MemOp.lane_of_lane? ha
  change execHomeAccess op l s = _
  unfold execHomeAccess
  simp only [ho, ha, st, kind, half, ready, trip, near, reduceCtorEq, Bool.false_and, Bool.false_eq_true, if_false, atPlace, link,
    lane]

end

end Sys2Proof.Machine
end

section
/-!
A scratchpad access at its place: it reads what stands there, and a store leaves its bytes (R179 to R181, R310).
-/
namespace Sys2Proof.Machine
open Sys2Proof

/-! ## Bytes kept for the matrix engine (R310) -/

theorem noteSpm_eq (s : State) (blk off n : Nat) (array : Option Nat) :
    noteSpm s blk off n array = s ∨ ∃ was, noteSpm s blk off n array = s.setBlock blk { s.block blk with was := was } := by
  unfold noteSpm
  split
  · exact .inr ⟨_, rfl⟩
  · split
    · exact .inl rfl
    · exact .inr ⟨_, rfl⟩

/-- They change nothing else of the block, and no other block. -/
theorem noteSpm_spec (s : State) (blk off n : Nat) (array : Option Nat) :
    let t := noteSpm s blk off n array
    (t.block blk).spm = (s.block blk).spm ∧ (∀ c, c ≠ blk → t.block c = s.block c) ∧ t.mem = s.mem ∧
      t.threads = s.threads ∧ t.ops = s.ops := by
  dsimp only
  rcases noteSpm_eq s blk off n array with h | ⟨was, h⟩
  · rw [h]; exact ⟨rfl, fun _ _ => rfl, rfl, rfl, rfl⟩
  · rw [h]
    exact ⟨by rw [State.block_setBlock_same], fun c hc => by rw [State.block_setBlock, if_neg hc], rfl, rfl, rfl⟩

/-! ## The access (R179, R180, R181) -/

/-- An access of which no word is poisoned answers what stood at its place; one that writes leaves its bytes there. -/
theorem spmAccess_spec {s : State} {o : MemOp} {a : LaneAcc}
    (sound : ∀ i < o.acc.size, Sp.find? (s.block a.aux).spmBad ((a.addr + i) / 4) = none) :
    let old := (s.block a.aux).spm.read a.addr o.acc.size
    ∃ t, spmAccess s o a = .ok (t, old, none) ∧
      (∀ x, (t.block a.aux).spm.byte x =
        if o.acc.fn.writes = true ∧ a.addr ≤ x ∧ x < a.addr + o.acc.size then
          BitVec.ofNat 8 (accNew o.acc old a.data / 256 ^ (x - a.addr)) else (s.block a.aux).spm.byte x) ∧
      (∀ c, c ≠ a.aux → t.block c = s.block c) ∧ t.mem = s.mem ∧ t.threads = s.threads ∧ t.ops = s.ops := by
  have clean : ((List.range o.acc.size).filterMap fun i => Sp.find? (s.block a.aux).spmBad ((a.addr + i) / 4)) = [] :=
    List.filterMap_eq_nil_iff.mpr fun i hi => sound i (List.mem_range.mp hi)
  unfold spmAccess
  simp only [clean, List.head?_nil, ite_self, Option.isSome_none, Bool.false_eq_true, if_false]
  cases writes : o.acc.fn.writes with
  | false => exact ⟨s, rfl, fun x => by simp, fun _ _ => rfl, rfl, rfl, rfl⟩
  | true =>
    obtain ⟨spm, others, mem, threads, ops⟩ := noteSpm_spec s a.aux a.addr o.acc.size none
    refine ⟨_, rfl, fun x => ?_, fun c hc => ?_, mem, threads, ops⟩
    · rw [State.block_setBlock_same]
      dsimp only
      rw [spm, Memory.byte_write]
      simp only [true_and]
    · rw [State.block_setBlock, if_neg hc, others c hc]

/-- A relaxed scratchpad access at its place (R180, R260). -/
theorem exec_homeAccess_spm {s : State} {op l pa : Nat} {o : MemOp} {a : LaneAcc} {nc plate : Bool} (ho : s.op? op = some o)
    (ha : o.lane? (l % 32) = some a) (kind : o.kind = .access) (space : o.acc.space = .spm)
    (releases : o.acc.releases = false) (acquires : o.acc.acquires = false) (st : a.st = .ready pa nc plate)
    (left : a.left = 1) (hl : l < 32) (trip : a.trip = .none) (first : mustWait s op o a = false)
    (sound : ∀ i < o.acc.size, Sp.find? (s.block a.aux).spmBad ((a.addr + i) / 4) = none) :
    let old := (s.block a.aux).spm.read a.addr o.acc.size
    ∃ t c, exec (.homeAccess op l) s = .next t ∧ ((t.op? op).bind fun o => o.lane? (l % 32)) = some c ∧ c.st = .served ∧
      c.val = a.val ||| old ∧
      (∀ x, (t.block a.aux).spm.byte x =
        if o.acc.fn.writes = true ∧ a.addr ≤ x ∧ x < a.addr + o.acc.size then
          BitVec.ofNat 8 (accNew o.acc old a.data / 256 ^ (x - a.addr)) else (s.block a.aux).spm.byte x) ∧
      (∀ c, c ≠ a.aux → t.block c = s.block c) ∧ t.mem = s.mem ∧ t.threads = s.threads := by
  have lane := MemOp.lane_of_lane? ha
  have near : needsMesh s o a = false := by simp [needsMesh, st, space]
  have sc : o.acc.wideSc = false := by simp [Access.wideSc, space]
  have notAtomic : o.isAtomic = false := by simp [MemOp.isAtomic, space]
  have host : o.acc.space ≠ .host := by rw [space]; nofun
  obtain ⟨u, access, bytes, others, mem, threads, ops⟩ := spmAccess_spec sound
  have place : accPlace s o a 0 = .ok (u, (s.block a.aux).spm.read a.addr o.acc.size, none) := by
    simp only [accPlace, st, space, access]
  have hu : u.op? op = some o := by rw [State.op?, ops]; exact ho
  have served : servePlace s op o a 0 pa =
      u.setOp op (o.setLane (servedAcc a ((s.block a.aux).spm.read a.addr o.acc.size))) := by
    rw [servePlace, notAtomic, if_neg Bool.false_ne_true, accServe_of_place host releases acquires sc place,
      accServed_whole hu left acquires]
  have found : ((u.setOp op (o.setLane (servedAcc a ((s.block a.aux).spm.read a.addr o.acc.size)))).op? op) =
      some (o.setLane (servedAcc a ((s.block a.aux).spm.read a.addr o.acc.size))) := by rw [State.op_setOp, if_pos rfl]
  refine ⟨_, servedAcc a ((s.block a.aux).spm.read a.addr o.acc.size),
    exec_homeAccess ho ha kind st left hl trip first near host, ?_⟩
  rw [served, respond_home found (MemOp.lane?_setLane ha lane) trip]
  exact ⟨op_lane_setOp ha lane, rfl, rfl, bytes, others, mem, threads⟩

end Sys2Proof.Machine
end

section
/-!
Global accesses at their home: the bytes that a store and an atomic leave there, and no others (R132, R225, R259, R441).
-/
namespace Sys2Proof.Machine
open Sys2Proof

/-! ## Bytes that a mask names (R225) -/

theorem byteMask_testBit (off n i : Nat) : (byteMask off n).testBit i = decide (off ≤ i ∧ i < off + n) := by
  rw [byteMask, Nat.testBit_mul_two_pow, Nat.testBit_two_pow_sub_one, ← Bool.decide_and]
  exact decide_eq_decide.mpr (by omega)

/-- The bytes of a line, after those that a mask names have been copied there. -/
theorem byte_copyMask (m : Memory) (base : Nat) (src : Memory) (mask x : Nat) :
    (copyMask m base src mask).byte x =
      if base ≤ x ∧ x < base + 256 ∧ mask.testBit (x - base) = true then src.byte (x - base) else m.byte x := by
  unfold copyMask
  generalize 256 = n
  induction n with
  | zero =>
    rw [if_neg (by rintro ⟨h, h', -⟩; omega)]
    rfl
  | succ n ih =>
    rw [List.range_succ, List.foldl_append, List.foldl_cons, List.foldl_nil]
    split
    · next bit =>
      rw [Memory.byte_setByte]
      by_cases hx : x = base + n
      · subst hx
        simp [bit]
      · rw [if_neg hx, ih]
        exact if_congr (by constructor <;> rintro ⟨h, h', hb⟩ <;> exact ⟨h, by omega, hb⟩) rfl rfl
    · next bit =>
      rw [ih]
      refine if_congr ?_ rfl rfl
      constructor
      · rintro ⟨h, h', hb⟩; exact ⟨h, by omega, hb⟩
      · rintro ⟨h, h', hb⟩
        refine ⟨h, ?_, hb⟩
        by_contra far
        exact bit (by rwa [show x - base = n by omega] at hb)

/-! ## Pages that do not migrate (R354) -/

/-- No virtual interface has a migration under way. -/
def NoMigration (s : State) : Prop := ∀ e ∈ s.vis, e.2.mig.status ≠ 1 ∧ e.2.mig.status ≠ 2

theorem movedTo_eq_none {s : State} (h : NoMigration s) (pa : Nat) (fromOld : Bool) : movedTo s pa fromOld = none := by
  refine List.findSome?_eq_none_iff.mpr fun e he => ?_
  obtain ⟨h₁, h₂⟩ := h e he
  simp [h₁, h₂]

theorem placeOf_eq {s : State} (h : NoMigration s) (pa : Nat) : placeOf s pa = pa := by
  simp only [placeOf, movedTo_eq_none h]

theorem aliasLine_eq_none {s : State} (h : NoMigration s) (line : Nat) : aliasLine s line = none := by
  simp only [aliasLine, movedTo_eq_none h]

/-- The bytes of an access within a line merge at its home, and no other byte of main DRAM changes. -/
theorem homeBytes_lineData {s : State} (h : NoMigration s) {pa n : Nat} (within : pa % 256 + n ≤ 256) (x : Nat) (bad : Sp Nat)
    (y : Nat) :
    (homeBytes s (lineOf pa) (lineData pa n x) (byteMask (pa % 256) n) bad).mem.byte y =
      if pa ≤ y ∧ y < pa + n then BitVec.ofNat 8 (x / 256 ^ (y - pa)) else s.mem.byte y := by
  have mem : (homeBytes s (lineOf pa) (lineData pa n x) (byteMask (pa % 256) n) bad).mem =
      copyMask s.mem (lineOf pa * 256) (lineData pa n x) (byteMask (pa % 256) n) := by
    simp only [homeBytes, movedTo_eq_none h, placeOf_eq h]
  have line : lineOf pa * 256 + pa % 256 = pa := by unfold lineOf; omega
  rw [mem, byte_copyMask, byteMask_testBit]
  by_cases hy : pa ≤ y ∧ y < pa + n
  · have named : lineOf pa * 256 ≤ y ∧ y < lineOf pa * 256 + 256 ∧
        decide (pa % 256 ≤ y - lineOf pa * 256 ∧ y - lineOf pa * 256 < pa % 256 + n) = true :=
      ⟨by omega, by omega, decide_eq_true (by omega)⟩
    rw [if_pos hy, if_pos named, lineData, Memory.byte_write, if_pos (by omega),
      show y - lineOf pa * 256 - pa % 256 = y - pa by omega]
  · rw [if_neg hy, if_neg]
    rintro ⟨h₁, h₂, h₃⟩
    have := of_decide_eq_true h₃
    omega

/-! ## What the directory changes (R441) -/

/-- `v` holds what `u` holds in every field but the domains. -/
def DomainsOnly (u v : State) : Prop := { v with domains := [] } = { u with domains := [] }

theorem DomainsOnly.refl (u : State) : DomainsOnly u u := Eq.refl _
theorem DomainsOnly.trans {u v w : State} (h : DomainsOnly u v) (h' : DomainsOnly v w) : DomainsOnly u w := Eq.trans h' h

/-- Any other field is the same in both. -/
theorem DomainsOnly.field {u v : State} (h : DomainsOnly u v) {α : Sort*} (f : State → α)
    (hf : ∀ s : State, f { s with domains := [] } = f s) : f v = f u := by
  rw [← hf v, ← hf u, h]

theorem setDomain_domainsOnly (s : State) (d : Nat) (x : Domain) : DomainsOnly s (s.setDomain d x) := Eq.refl _

theorem snoopHost_domainsOnly (s : State) (e : DirEnt) (src : Nat) : DomainsOnly s (snoopHost s e src) := by
  unfold snoopHost
  dsimp only
  split <;> [exact .refl s; exact setDomain_domainsOnly s _ _]

theorem sendInval_domainsOnly (s : State) (line : Nat) (targets : List Nat) (src : Nat) :
    DomainsOnly s (sendInval s line targets src) := setDomain_domainsOnly s _ _

theorem dirDrop_domainsOnly (s : State) (line : Nat) : DomainsOnly s (dirDrop s line) := setDomain_domainsOnly s _ _

theorem dirSend_domainsOnly (s : State) (line src : Nat) : DomainsOnly s (dirSend s line src) := by
  unfold dirSend
  split
  · exact .refl s
  · exact (sendInval_domainsOnly s _ _ _).trans (snoopHost_domainsOnly _ _ _)

theorem dirRoom_domainsOnly (s : State) (line : Nat) : DomainsOnly s (dirRoom s line) := by
  unfold dirRoom
  dsimp only
  split
  · exact .refl s
  · split
    · exact .refl s
    · exact ((sendInval_domainsOnly s _ _ _).trans (snoopHost_domainsOnly _ _ _)).trans (dirDrop_domainsOnly _ _)

theorem dirUpdate_domainsOnly (s : State) (line : Nat) (f : DirEnt → DirEnt) : DomainsOnly s (dirUpdate s line f) := by
  unfold dirUpdate
  dsimp only
  refine DomainsOnly.trans ?_ (setDomain_domainsOnly _ _ _)
  split
  · exact .refl s
  · exact (dirRoom_domainsOnly s line).trans (setDomain_domainsOnly _ _ _)

theorem dirKeep_domainsOnly (s : State) (line src : Nat) (atomic : Bool) : DomainsOnly s (dirKeep s line src atomic) := by
  unfold dirKeep
  dsimp only
  split
  · split
    · exact dirUpdate_domainsOnly s line _
    · exact dirDrop_domainsOnly s line
  · exact dirDrop_domainsOnly s line

theorem dirWrite_domainsOnly (s : State) (line src : Nat) (atomic : Bool) : DomainsOnly s (dirWrite s line src atomic) := by
  have one := (dirSend_domainsOnly s line src).trans (dirKeep_domainsOnly _ line src atomic)
  unfold dirWrite
  dsimp only
  split
  · exact (one.trans (dirSend_domainsOnly _ _ _)).trans (dirDrop_domainsOnly _ _)
  · exact one

end Sys2Proof.Machine
end

section
/-!
The two global accesses that go to their home: a store at WAF scope and an atomic (R132, R259, R414).
-/
namespace Sys2Proof.Machine
open Sys2Proof

/-! ## The way to the home (R240, R441) -/

theorem l2Gate_eq {s t : State} {d line : Nat} (h : l2Gate s d line = .ok t) : t = s := by
  unfold l2Gate at h
  split at h <;> cases h
  rfl

theorem bothGates_eq {s t : State} {d line : Nat} (h : bothGates s d line = .ok t) : t = s := by
  unfold bothGates at h
  cases first : l2Gate s d line with
  | error e => rw [first] at h; cases h
  | ok u =>
    cases l2Gate_eq first
    rw [first] at h
    exact l2Gate_eq h

/-- A line that an access may reach is neither owned nor busy. -/
theorem gates_of_homeReach {s : State} {d line : Nat} (h : homeReach s d line = .ok s) :
    bothGates s d line = .ok s ∧ homeGate s line = .ok s := by
  unfold homeReach at h
  cases first : bothGates s d line with
  | error e => rw [first] at h; cases h
  | ok u =>
    cases bothGates_eq first
    rw [first] at h
    exact ⟨rfl, h⟩

/-! ## What an access at the home leaves alone -/

/-- `t` holds the threads and the operations of `s`, and main DRAM but for the bytes of a value of `n` bytes at `pa`. -/
structure StoredAt (s : State) (pa n x : Nat) (t : State) : Prop where
  threads : t.threads = s.threads
  ops : t.ops = s.ops
  byte : ∀ y, t.mem.byte y = if pa ≤ y ∧ y < pa + n then BitVec.ofNat 8 (x / 256 ^ (y - pa)) else s.mem.byte y

theorem homeBytes_ops (s : State) (line : Nat) (data : Memory) (mask : Nat) (bad : Sp Nat) :
    (homeBytes s line data mask bad).threads = s.threads ∧ (homeBytes s line data mask bad).ops = s.ops := by
  unfold homeBytes
  dsimp only
  split
  · split <;> exact ⟨rfl, rfl⟩
  · exact ⟨rfl, rfl⟩

/-- The bytes of an access merge at home, and the directory follows. -/
theorem storedAt_dirWrite {s : State} (h : NoMigration s) {pa n : Nat} (within : pa % 256 + n ≤ 256) (x : Nat) (bad : Sp Nat)
    (src : Nat) (atomic : Bool) :
    StoredAt s pa n x
      (dirWrite (homeBytes s (lineOf pa) (lineData pa n x) (byteMask (pa % 256) n) bad) (lineOf pa) src atomic) := by
  have dir := dirWrite_domainsOnly (homeBytes s (lineOf pa) (lineData pa n x) (byteMask (pa % 256) n) bad) (lineOf pa) src atomic
  obtain ⟨threads, ops⟩ := homeBytes_ops s (lineOf pa) (lineData pa n x) (byteMask (pa % 256) n) bad
  exact {
    threads := (dir.field State.threads fun _ => rfl).trans threads
    ops := (dir.field State.ops fun _ => rfl).trans ops
    byte := fun y => by rw [dir.field State.mem fun _ => rfl]; exact homeBytes_lineData h within x bad y }

theorem updateL1_kept (s : State) (core pa n x : Nat) :
    (updateL1 s core pa n x).threads = s.threads ∧ (updateL1 s core pa n x).ops = s.ops ∧
      (updateL1 s core pa n x).mem = s.mem := by
  unfold updateL1
  dsimp only
  split <;> exact ⟨rfl, rfl, rfl⟩

/-! ## A store at WAF scope (R259) -/

/-- The write of a line that may be reached, in the model's order: a remote copy, then the home. -/
theorem placeHome_spec {s : State} (h : NoMigration s) {d pa n : Nat} (gate : homeGate s (lineOf pa) = .ok s)
    (within : pa % 256 + n ≤ 256) (x : Nat) : ∃ t, placeHome s d pa n x = .ok t ∧ StoredAt s pa n x t := by
  have frames : dropAlias s d (lineOf pa) = .ok s := by simp only [dropAlias, aliasLine_eq_none h]
  have write : ∀ u : State, NoMigration u → u.threads = s.threads → u.ops = s.ops → u.mem = s.mem →
      StoredAt s pa n x (mergeHome u d (lineOf pa) (lineData pa n x) (byteMask (pa % 256) n) []) := by
    intro u hu threads ops mem
    have stored := storedAt_dirWrite hu within x [] d false
    exact { threads := stored.threads.trans threads, ops := stored.ops.trans ops
            byte := fun y => by rw [← mem]; exact stored.byte y }
  unfold placeHome
  simp only [frames, gate, bind, Except.bind]
  cases s.remLine d (lineOf pa) with
  | none => exact ⟨_, rfl, write s h rfl rfl rfl⟩
  | some c => exact ⟨_, rfl, write _ h rfl rfl rfl⟩

theorem globalStore_spec {s : State} {o : MemOp} (h : NoMigration s) {pa n : Nat} (scope : o.acc.scope = .waf)
    (policy : o.acc.policy = .normal) (reach : homeReach s (domOf o.core) (lineOf pa) = .ok s)
    (within : pa % 256 + n ≤ 256) (x : Nat) : ∃ t, globalStore s o pa n x false = .ok t ∧ StoredAt s pa n x t := by
  obtain ⟨gates, gate⟩ := gates_of_homeReach reach
  obtain ⟨t, place, stored⟩ := placeHome_spec (d := domOf o.core) h gate within x
  have frames : dropAliasL1 s o.core (lineOf pa) = .ok s := by simp only [dropAliasL1, aliasLine_eq_none h]
  obtain ⟨threads, ops, mem⟩ := updateL1_kept t o.core pa n x
  refine ⟨noteStore (updateL1 t o.core pa n x) (some o.core) pa n x, ?_, ?_⟩
  · unfold globalStore
    simp [frames, scope, policy, keepAs, writeHome, gates, place, bind, Except.bind]
  · exact { threads := threads.trans stored.threads, ops := ops.trans stored.ops
            byte := fun y => by
              rw [show (noteStore (updateL1 t o.core pa n x) (some o.core) pa n x).mem = t.mem from mem]
              exact stored.byte y }

end Sys2Proof.Machine
end

section
/-!
The steps of outstanding operations: their places at the home, their completion, and their ends (R126 to R134, R250 to R257).
-/
namespace Sys2Proof.Machine
open Sys2Proof

section
variable {s u : State} {op l pa : Nat} {o : MemOp} {a : LaneAcc} {plate : Bool}

theorem acquires_of_relaxed (order : o.acc.order = .rlx) : o.acc.acquires = false := by simp [Access.acquires, order]
theorem releases_of_relaxed (order : o.acc.order = .rlx) : o.acc.releases = false := by simp [Access.releases, order]
theorem wideSc_of_relaxed (order : o.acc.order = .rlx) : o.acc.wideSc = false := by simp [Access.wideSc, order]

/-- An access whose home is its own domain sends no message (R437). -/
theorem needsMesh_near {nc : Bool} (st : a.st = .ready pa nc plate) (near : homeOf pa = domOf o.core) :
    needsMesh s o a = false := by
  simp [needsMesh, st, near]

/-! ## A store at WAF scope (R259) -/

/-- The digits of a value below a power of 256 are those of the value. -/
theorem digit_of_mod {x n i : Nat} (h : i < n) : BitVec.ofNat 8 (x % 2 ^ (8 * n) / 256 ^ i) = BitVec.ofNat 8 (x / 256 ^ i) := by
  apply BitVec.eq_of_toNat_eq
  rw [BitVec.toNat_ofNat, BitVec.toNat_ofNat]
  have split : 2 ^ (8 * n) = 256 ^ i * (256 * 256 ^ (n - i - 1)) := by
    rw [← pow_succ', ← pow_add, show i + (n - i - 1 + 1) = n by omega, Nat.pow_mul]
  rw [split, Nat.mod_mul_right_div_self, Nat.mod_mul_right_mod]

theorem accPlace_store (h : NoMigration s) (space : o.acc.space = .global) (st : a.st = .ready pa false plate)
    (within : pa % 256 + o.acc.size ≤ 256) (fn : o.acc.fn = .store) (scope : o.acc.scope = .waf)
    (policy : o.acc.policy = .normal) (small : o.acc.size ≤ 8)
    (reach : homeReach s (domOf o.core) (lineOf pa) = .ok s) :
    ∃ t, accPlace s o a 0 = .ok (t, 0, none) ∧ StoredAt s pa o.acc.size a.data t := by
  obtain ⟨t, store, stored⟩ := globalStore_spec h scope policy reach within (a.data % 2 ^ (8 * o.acc.size))
  have whole : ¬ (o.acc.halves = 3 ∧ (!plate) = true) := by
    have : ¬ o.acc.size = 16 := by omega
    simp [Access.halves, this]
  refine ⟨t, ?_, stored.threads, stored.ops, fun y => ?_⟩
  · have low : a.data / 2 ^ (64 * 0) = a.data := by rw [Nat.mul_zero, Nat.pow_zero, Nat.div_one]
    unfold accPlace
    simp only [st, space, fn, if_neg whole, Nat.mul_zero, Nat.add_zero, Nat.pow_zero, Nat.div_one, store, bind, Except.bind]
  · rw [stored.byte]
    split
    · next hy => exact digit_of_mod (by omega)
    · rfl

/-- An access that is no atomic, with a place that answers a value. -/
theorem exec_homeAccess_place {v : Nat} (ho : s.op? op = some o) (ha : o.lane? (l % 32) = some a) (kind : o.kind = .access)
    (space : o.acc.space = .global) (order : o.acc.order = .rlx) (st : a.st = .ready pa false plate) (left : a.left = 1)
    (hl : l < 32) (trip : a.trip = .none) (near : homeOf pa = domOf o.core) (first : mustWait s op o a = false)
    (plain : o.isAtomic = false) (place : accPlace s o a 0 = .ok (u, v, none)) (ops : u.ops = s.ops) :
    exec (.homeAccess op l) s = .next (u.setOp op (o.setLane (servedAcc a v))) := by
  have host : o.acc.space ≠ .host := by rw [space]; nofun
  have hu : u.op? op = some o := by rw [State.op?, ops]; exact ho
  have lane : a.lane = l % 32 := MemOp.lane_of_lane? ha
  have served : servePlace s op o a 0 pa = u.setOp op (o.setLane (servedAcc a v)) := by
    rw [servePlace, plain, if_neg Bool.false_ne_true, accServe_of_place host (releases_of_relaxed order)
      (acquires_of_relaxed order) (wideSc_of_relaxed order) place, accServed_whole hu left (acquires_of_relaxed order)]
  rw [exec_homeAccess ho ha kind st left hl trip first (needsMesh_near st near) host, served,
    respond_home (o := o.setLane (servedAcc a v)) (by rw [State.op_setOp, if_pos rfl])
      (MemOp.lane?_setLane ha lane) trip]

/-! ## An atomic (R132, R414) -/

theorem accPlace_atomic (h : NoMigration u) (space : o.acc.space = .global) (st : a.st = .ready pa false plate)
    (within : pa % 256 + o.acc.size ≤ 256) (atomic : o.isAtomic = true)
    (prepare : atomPrepare s o.core (lineOf pa) = .ok u) (sound : u.homeBad pa o.acc.size = none) :
    ∃ t, accPlace s o a 0 = .ok (t, u.mem.read pa o.acc.size, none) ∧
      StoredAt u pa o.acc.size (accNew o.acc (u.mem.read pa o.acc.size) a.data) t := by
  have old : u.homeRead pa o.acc.size = u.mem.read pa o.acc.size := by rw [State.homeRead, placeOf_eq h]
  have stored := storedAt_dirWrite h within (accNew o.acc (u.mem.read pa o.acc.size) a.data) [] (domOf o.core) true
  have serve : globalAtomic s o a pa = .ok (noteStore (dirWrite (homeBytes u (lineOf pa)
      (lineData pa o.acc.size (accNew o.acc (u.mem.read pa o.acc.size) a.data)) (byteMask (pa % 256) o.acc.size) [])
      (lineOf pa) (domOf o.core) true) (some o.core) pa o.acc.size (accNew o.acc (u.mem.read pa o.acc.size) a.data),
      u.mem.read pa o.acc.size, none) := by
    unfold globalAtomic
    simp only [prepare, sound, old, bind, Except.bind]
  suffices place : accPlace s o a 0 = globalAtomic s o a pa from
    ⟨_, place.trans serve, ⟨stored.threads, stored.ops, stored.byte⟩⟩
  unfold accPlace
  cases fn : o.acc.fn with
  | atom f => simp only [st, space]
  | fatom f => simp only [st, space]
  | load => simp [MemOp.isAtomic, fn] at atomic
  | store => simp [MemOp.isAtomic, fn] at atomic
  | spill => simp [MemOp.isAtomic, fn] at atomic
  | refill => simp [MemOp.isAtomic, fn] at atomic

theorem bookWrite_kept (s : State) (vi asn : Nat) (b : Daybook) (kind src stage body : Nat) :
    let t := (bookWrite s vi asn b kind src stage body).1
    t.threads = s.threads ∧ t.ops = s.ops ∧ t.mem = s.mem := by
  unfold bookWrite
  dsimp only
  split
  · exact ⟨rfl, rfl, rfl⟩
  · unfold devQueue
    split
    · next h =>
      split at h <;> cases h
      exact ⟨rfl, rfl, rfl⟩
    · exact ⟨rfl, rfl, rfl⟩

theorem logDecision_kept (s : State) (gid kind src stage body : Nat) :
    let t := logDecision s gid kind src stage body
    t.threads = s.threads ∧ t.ops = s.ops ∧ t.mem = s.mem := by
  unfold logDecision
  dsimp only
  cases (s.grid gid).book with
  | none => exact ⟨rfl, rfl, rfl⟩
  | some b =>
    by_cases still : (b.replay || decide (b.level < if kind = 7 then 2 else 1)) = true
    · simp only [if_pos still, and_self]
    · simp only [if_neg still]
      exact bookWrite_kept s _ _ _ _ _ _ _

/-- What a daybook notes of an atomic changes no thread, no operation and no byte of main DRAM. -/
theorem noteAtomic_kept (s : State) (o : MemOp) (lane pa : Nat) :
    let t := noteAtomic s o lane pa none
    t.threads = s.threads ∧ t.ops = s.ops ∧ t.mem = s.mem := by
  unfold noteAtomic
  dsimp only
  exact logDecision_kept _ _ _ _ _ _

/-- An atomic that no daybook orders, with a place that answers a value. -/
theorem exec_homeAccess_atomic {v : Nat} (ho : s.op? op = some o) (ha : o.lane? (l % 32) = some a) (kind : o.kind = .access)
    (space : o.acc.space = .global) (order : o.acc.order = .rlx) (st : a.st = .ready pa false plate) (left : a.left = 1)
    (hl : l < 32) (trip : a.trip = .none) (near : homeOf pa = domOf o.core) (first : mustWait s op o a = false)
    (atomic : o.isAtomic = true) (book : (s.grid (s.block o.blk).gid).book = none)
    (place : accPlace s o a 0 = .ok (u, v, none)) (ops : u.ops = s.ops) :
    exec (.homeAccess op l) s = .next (noteAtomic (u.setOp op (o.setLane (servedAcc a v))) o a.lane pa none) := by
  have host : o.acc.space ≠ .host := by rw [space]; nofun
  have hu : u.op? op = some o := by rw [State.op?, ops]; exact ho
  have lane := MemOp.lane_of_lane? ha
  have free : atomicTurn s (s.block o.blk).gid (s.block o.blk).stage (lineOf pa) (s.block o.blk).lin (s.block o.blk).phase o.weft
      a.lane = .free := by simp only [atomicTurn, book]
  have done : accDone (u.setOp op (o.setLane (servedAcc a v))) op a.lane = true := by
    rw [accDone, op_lane_setOp (a := a) (by rw [lane]; exact ha) (by rfl)]
    rfl
  have served : servePlace s op o a 0 pa = noteAtomic (u.setOp op (o.setLane (servedAcc a v))) o a.lane pa none := by
    unfold servePlace
    rw [atomic, if_pos rfl, accServe_of_place host (releases_of_relaxed order) (acquires_of_relaxed order)
      (wideSc_of_relaxed order) place, accServed_whole hu left (acquires_of_relaxed order)]
    simp only [free, done, if_true]
  obtain ⟨-, ops', -⟩ := noteAtomic_kept (u.setOp op (o.setLane (servedAcc a v))) o a.lane pa
  rw [exec_homeAccess ho ha kind st left hl trip first (needsMesh_near st near) host, served,
    respond_home (o := o.setLane (servedAcc a v)) (by rw [State.op?, ops']; exact Sp.find_put_same _ _ _)
      (MemOp.lane?_setLane ha lane) trip]

end

end Sys2Proof.Machine
end

section
/-!
How outstanding operations end (R25, R88, R250 to R257), and the steps of an outstanding operation together.
-/
namespace Sys2Proof.Machine
open Sys2Proof

section
variable {s u : State} {op l : Nat} {o : MemOp} {a : LaneAcc}

/-! ## Completion (R25, R130, R286) -/

theorem endRet_mem (s : State) (o : MemOp) (a : LaneAcc) (t : Thread) (r : LaneRes) : (endRet s o a t r).mem = s.mem := by
  cases r with
  | next _ => rfl
  | goto _ => rfl
  | trap c => exact deliverTrap_mem _ _ _ _ _ _ _

theorem accComplete_mem (s : State) (o : MemOp) (a : LaneAcc) : (accComplete s o a).mem = s.mem := by
  unfold accComplete
  split
  · rfl
  · dsimp only
    split
    · exact endRet_mem _ _ _ _ _
    · rfl

theorem foldl_accComplete_mem (o : MemOp) (ls : List LaneAcc) (s : State) :
    (ls.foldl (fun s a => accComplete s o a) s).mem = s.mem := by
  induction ls generalizing s with
  | nil => rfl
  | cons a ls ih => exact (ih _).trans (accComplete_mem s o a)

theorem accComplete_load (fn : o.acc.fn = .load) (served : a.st = .served) :
    accComplete s o a = s.setThread o.blk o.weft a.lane (accWrite (s.thread o.blk o.weft a.lane) o.acc a.val) := by
  unfold accComplete
  rw [served, if_neg (by decide)]
  simp only [fn]

theorem exec_memComplete (ho : s.op? op = some o) (done : opFinished s o = true) (kind : o.kind = .access) :
    exec (.memComplete op) s =
      .next (if o.onLink then retireEntry s op o o.acc.fn.counter
        else retireOp (o.lanes.foldl (fun s a => accComplete s o a) s) op o o.acc.fn.counter) := by
  change execMemComplete op s = _
  unfold execMemComplete
  simp only [ho, done, kind, if_true]

/-- A finished operation writes its results and retires (R88, R286). -/
theorem exec_memComplete_retire (ho : s.op? op = some o) (done : opFinished s o = true) (kind : o.kind = .access)
    (link : o.onLink = false) :
    ∃ t, exec (.memComplete op) s = .next t ∧ t.op? op = none ∧ t.mem = s.mem ∧
      (o.acc.fn = .load → ∀ c, o.lanes = [c] → c.st = .served →
        t.thread o.blk o.weft c.lane = accWrite (s.thread o.blk o.weft c.lane) o.acc c.val) := by
  refine ⟨_, exec_memComplete ho done kind, ?_⟩
  rw [link, if_neg Bool.false_ne_true]
  refine ⟨by rw [retireOp, State.op_dropOp, if_pos rfl], foldl_accComplete_mem o o.lanes s, fun fn c one served => ?_⟩
  rw [one, List.foldl_cons, List.foldl_nil, accComplete_load fn served]
  exact State.thread_setThread_same _ _ _ _ _

/-! ## Fences, seals and the host port (R250, R252 to R255) -/

theorem exec_fenceComplete {t : State} (ho : s.op? op = some o) (done : completeOp s op o = .ok t) :
    exec (.fenceComplete op) s = .next t := by
  change execFenceComplete op s = _
  simp only [execFenceComplete, ho, done]

theorem completeOp_unsealed (kind : o.kind = .unsealed) (release : opRelease s op o .waf = .ok u) :
    completeOp s op o = .ok (freeLanes u op o) := by
  simp only [completeOp, kind, release, bind, Except.bind]

theorem completeOp_fence {k : FenceKind} {sc : Scope} (kind : o.kind = .fence k sc) (fence : fenceTry s op o k sc = .ok u) :
    completeOp s op o = .ok (freeLanes u op o) := by
  simp only [completeOp, kind, fence, bind, Except.bind]

theorem exec_sealComplete_sealed (ho : s.op? op = some o) (kind : o.kind = .sealed) :
    exec (.sealComplete op) s = .next (freeLanes s op o) := by
  change execSealComplete op s = _
  simp only [execSealComplete, ho, kind]

theorem exec_sealComplete_unseal {base len : Nat} (ho : s.op? op = some o) (kind : o.kind = .unsealOp base len) :
    ∃ t, exec (.sealComplete op) s = .next t ∧ t.op? op = some { o with kind := .unsealed } := by
  have step : ∃ u : State, execSealComplete op s = .next (u.setOp op { o with kind := .unsealed }) := by
    simp only [execSealComplete, ho, kind]
    exact ⟨_, rfl⟩
  obtain ⟨u, step⟩ := step
  exact ⟨_, step, by rw [State.op_setOp, if_pos rfl]⟩

theorem exec_hostCompletionTimeout {pa h : Nat} {nc plate : Bool} (ho : s.op? op = some o) (ha : o.lane? l = some a)
    (st : a.st = .ready pa nc plate) (space : o.acc.space = .host) (host : hostPlace s pa = .host h) :
    exec (.hostCompletionTimeout op l) s = .next (hostError s op o a h) := by
  change execHostCompletionTimeout op l s = _
  unfold execHostCompletionTimeout
  simp only [ho, ha, st, space, host]

/-! ## A walk (R126, R219) -/

/-- A walk whose page passes its checks leaves the access ready for its place. -/
theorem exec_pageWalk_ready {p : TlbEnt} (ho : s.op? op = some o) (ha : o.lane? l = some a) (held : a.st = .held)
    (ok : translate s o.core (s.viOf o.blk) (s.asnOf o.blk) (a.addr % 2 ^ 57) o.acc.pageUse = (.ok p, u))
    (check : checkAccess u o a p = none) (kind : o.kind = .access) (spm : o.acc.space ≠ .spm)
    (cluster : o.acc.space ≠ .cluster) (ops : u.ops = s.ops) (threads : u.threads = s.threads) :
    ∃ t c, exec (.pageWalk op l) s = .next t ∧ ((t.op? op).bind fun o => o.lane? l) = some c ∧
      c.st = .ready (p.phys (a.addr % 2 ^ 57)) p.nc p.plate ∧ c.left = (if p.plate = true then 1 else a.left) ∧
      c.addr = a.addr ∧ c.data = a.data ∧ t.mem = u.mem ∧
      (o.acc.fn = .spill → (t.thread o.blk o.weft l).hold = none) ∧ (o.acc.fn ≠ .spill → t.threads = s.threads) := by
  have hu : u.op? op = some o := by rw [State.op?, ops]; exact ho
  have lane := MemOp.lane_of_lane? ha
  obtain ⟨found, mem, spill, other⟩ := accReady_spec (a := a) (p := p) hu
  refine ⟨accReady u op o a p, readyAcc a p, ?_, ?_, rfl, rfl, rfl, rfl, mem, lane ▸ spill, fun h => (other h).trans threads⟩
  · rw [exec_pageWalk ho ha held spm cluster, accTranslate_ready kind ok check]
  · rw [found]
    exact MemOp.lane?_setLane ha lane

/-! ## Global accesses at their home (R132, R259) -/

section
variable {pa : Nat} {plate : Bool}

/-- A store at WAF scope leaves its bytes at the home. -/
theorem exec_homeAccess_store (ho : s.op? op = some o) (ha : o.lane? (l % 32) = some a) (kind : o.kind = .access)
    (space : o.acc.space = .global) (order : o.acc.order = .rlx) (still : NoMigration s) (st : a.st = .ready pa false plate)
    (left : a.left = 1) (hl : l < 32) (trip : a.trip = .none) (near : homeOf pa = domOf o.core)
    (first : mustWait s op o a = false) (within : pa % 256 + o.acc.size ≤ 256) (fn : o.acc.fn = .store)
    (scope : o.acc.scope = .waf) (policy : o.acc.policy = .normal) (small : o.acc.size ≤ 8)
    (reach : homeReach s (domOf o.core) (lineOf pa) = .ok s) :
    ∃ t c, exec (.homeAccess op l) s = .next t ∧ ((t.op? op).bind fun o => o.lane? (l % 32)) = some c ∧ c.st = .served ∧
      t.threads = s.threads ∧
      ∀ x, t.mem.byte x = if pa ≤ x ∧ x < pa + o.acc.size then BitVec.ofNat 8 (a.data / 256 ^ (x - pa)) else s.mem.byte x := by
  obtain ⟨u, place, stored⟩ := accPlace_store still space st within fn scope policy small reach
  have plain : o.isAtomic = false := by simp [MemOp.isAtomic, fn]
  have lane := MemOp.lane_of_lane? ha
  exact ⟨_, servedAcc a 0, exec_homeAccess_place ho ha kind space order st left hl trip near first plain place stored.ops,
    op_lane_setOp ha lane, rfl, stored.threads, stored.byte⟩

/-- An atomic answers what stood at the home and leaves its new value there. -/
theorem exec_homeAccess_atomic_spec (ho : s.op? op = some o) (ha : o.lane? (l % 32) = some a) (kind : o.kind = .access)
    (space : o.acc.space = .global) (order : o.acc.order = .rlx) (still : NoMigration u) (st : a.st = .ready pa false plate)
    (left : a.left = 1) (hl : l < 32) (trip : a.trip = .none) (near : homeOf pa = domOf o.core)
    (first : mustWait s op o a = false) (within : pa % 256 + o.acc.size ≤ 256) (atomic : o.isAtomic = true)
    (book : (s.grid (s.block o.blk).gid).book = none) (prepare : atomPrepare s o.core (lineOf pa) = .ok u)
    (sound : u.homeBad pa o.acc.size = none) (ops : u.ops = s.ops) (threads : u.threads = s.threads) :
    ∃ t c, exec (.homeAccess op l) s = .next t ∧ ((t.op? op).bind fun o => o.lane? (l % 32)) = some c ∧ c.st = .served ∧
      c.val = a.val ||| u.mem.read pa o.acc.size ∧ t.threads = s.threads ∧
      ∀ x, t.mem.byte x = if pa ≤ x ∧ x < pa + o.acc.size then
        BitVec.ofNat 8 (accNew o.acc (u.mem.read pa o.acc.size) a.data / 256 ^ (x - pa)) else u.mem.byte x := by
  have lane := MemOp.lane_of_lane? ha
  obtain ⟨v, place, stored⟩ := accPlace_atomic still space st within atomic prepare sound
  have step := exec_homeAccess_atomic ho ha kind space order st left hl trip near first atomic book place (stored.ops.trans ops)
  obtain ⟨threads', ops', mem⟩ := noteAtomic_kept (v.setOp op (o.setLane (servedAcc a (u.mem.read pa o.acc.size)))) o a.lane pa
  refine ⟨_, servedAcc a (u.mem.read pa o.acc.size), step, ?_, rfl, rfl, ?_, fun x => ?_⟩
  · rw [State.op?, ops']
    exact op_lane_setOp (s := v) ha lane
  · exact threads'.trans (stored.threads.trans threads)
  · rw [mem]
    exact stored.byte x

end

end

/-- Settles O45: each clause is the lemma of its step; at the home the line of an access is merged byte by byte. -/
theorem memoryOperationSteps : Obligations.MemoryOperationSteps := by
  unfold Obligations.MemoryOperationSteps
  intro s op l o a ho
  refine ⟨fun ha held p u ok check kind spm cluster ops threads =>
      exec_pageWalk_ready ho ha held ok check kind spm cluster ops threads,
    fun ha held space check => exec_pageWalk_resolve ho ha held space check,
    fun ha kind space releases acquires pa nc plate st left hl trip first sound =>
      exec_homeAccess_spm ho ha kind space releases acquires st left hl trip first sound,
    fun ha kind space order still pa plate st left hl trip near first within => ⟨?_, ?_⟩,
    fun done kind link => by rw [exec_memComplete ho done kind, if_pos link],
    fun done kind link => exec_memComplete_retire ho done kind link,
    fun u kind release => exec_fenceComplete ho (completeOp_unsealed kind release),
    fun k sc u kind fence => exec_fenceComplete ho (completeOp_fence kind fence),
    exec_sealComplete_sealed ho, fun base len kind => exec_sealComplete_unseal ho kind,
    fun ha pa nc plate st space h host => exec_hostCompletionTimeout ho ha st space host⟩
  · intro fn scope policy small reach
    exact exec_homeAccess_store ho ha kind space order still st left hl trip near first within fn scope policy small reach
  · intro u atomic book prepare sound vis ops threads
    have still' : NoMigration u := by rw [NoMigration, vis]; exact still
    exact exec_homeAccess_atomic_spec ho ha kind space order still' st left hl trip near first within atomic book prepare
      sound ops threads

end Sys2Proof.Machine
end

section
/-!
Instructions of which each lane takes its own thread to the next instruction, and the shapes of the integer
instructions (R50, R87, R90, R99).
-/
namespace Sys2Proof.Machine
open Sys2Proof

/-! ## What the record of an issue leaves of an operand -/

@[simp] theorem noteIssue_srcWord (s : State) (x : Thread) (b : Src) : srcWord (noteIssue s).wft x b = srcWord s.wft x b := by
  cases b with
  | v r => rfl
  | k r => exact noteIssue_wft_kreg s r.toNat

@[simp] theorem noteIssue_lane_xreg (s : State) (l : Nat) (i : BitVec 2) :
    ((noteIssue s).lane l).xreg i = (s.lane l).xreg i := by
  rw [noteIssue_lane, Thread.xreg, noteIssue_thread_x]
  rfl

/-- The role of a weft stands as it was before the record of the issue. -/
@[simp] theorem noteIssue_roleOf (s : State) (b w : Nat) : (noteIssue s).roleOf b w = s.roleOf b w := by
  obtain ⟨i, j, k, h⟩ := noteIssue_weft s b w
  simp only [State.roleOf, noteIssue_launch, h]

/-! ## Every lane goes on (R22, R87) -/

section
variable {s : State} {c : IClass}

/-- An instruction whose every lane goes on with the thread that `f` gives it comes to what `g` says of its lanes. -/
theorem issueLanes_past {rs ks : List Regs} {f : State → Nat → Thread} {g : Nat → Thread → Thread} (hi : Issues c rs ks s)
    (h : ∀ l, (f (noteIssue s) l).past s = g l ((noteIssue s).lane l)) :
    ∃ t, issueLanes c rs ks (fun s l => .next (f s l)) s = .next t ∧ LanesDo s t g := by
  obtain ⟨t, ht, lanes⟩ := issueLanes_spec (f := fun s l => .next (f s l)) hi fun _ _ => rfl
  refine ⟨t, ht, lanes.congr fun l _ => ?_⟩
  rw [← noteIssue_lane, ← h l]
  rfl

/-- The three-register form of one word writes the values `w` of its operation. -/
theorem aluWord_writesWord {f : Word → Word → Word} {d a : VReg} {b : Src} {w : Nat → Thread → Word}
    (hi : Issues c ([one d, one a] ++ srcRegs b) (srcKs 1 b) s)
    (h : ∀ l x, f (x.reg a.toNat) (srcWord s.wft x b) = w l x) :
    ∃ t, aluWord f c d a b s = .next t ∧ WritesWord s t d w :=
  issueLanes_past hi fun l => by rw [noteIssue_srcWord, h l]

/-- The form of one word and an immediate writes the values `w` of its operation. -/
theorem aluImm_writesWord {f : Word → Word → Word} {imm : Word} {d a : VReg} {w : Nat → Thread → Word}
    (hi : Issues .integer [one d, one a] [] s) (h : ∀ l x, f (x.reg a.toNat) imm = w l x) :
    ∃ t, aluImm f d a imm s = .next t ∧ WritesWord s t d w :=
  issueLanes_past hi fun l => by rw [h l]

/-- Two instructions of the same outcome. -/
theorem next_and_next {o o' : Host.Outcome State Fault Refusal} {p : State → Prop} (h : ∃ t, o = .next t ∧ p t)
    (same : o' = o) : ∃ t, o = .next t ∧ o' = .next t ∧ p t := by
  obtain ⟨t, ht, hp⟩ := h
  exact ⟨t, ht, same.trans ht, hp⟩

/-- Lanes that all go on stand at the next instruction. -/
theorem issueLanes_pc {rs ks : List Regs} {f : State → Nat → LaneRes} {x : State → Nat → Thread} (hi : Issues c rs ks s)
    (h : ∀ u l, f u l = .next (x u l)) :
    ∃ t, issueLanes c rs ks f s = .next t ∧ ∀ l ∈ s.iss.lanes, (t.thread s.iss.blk s.iss.weft l).pc = nextPc s := by
  obtain rfl : f = fun u l => .next (x u l) := funext₂ h
  obtain ⟨t, ht, lanes, -⟩ := issueLanes_spec (f := fun u l => .next (x u l)) hi fun _ _ => rfl
  exact ⟨t, ht, fun l hl => by rw [lanes l hl]; rfl⟩

section
variable {d a : VReg} {b : Src}

theorem fp32Bin_pc {f : Nat → FVal → FVal → FRes} (hi : Issues .fp32 ([one d, one a] ++ srcRegs b) (srcKs 1 b) s) :
    ∃ t, fp32Bin f d a b s = .next t ∧ ∀ l ∈ s.iss.lanes, (t.thread s.iss.blk s.iss.weft l).pc = nextPc s :=
  issueLanes_pc hi fun _ _ => rfl

theorem fp32MinMax_pc {mx : Bool} (hi : Issues .fp32 ([one d, one a] ++ srcRegs b) (srcKs 1 b) s) :
    ∃ t, fp32MinMax mx d a b s = .next t ∧ ∀ l ∈ s.iss.lanes, (t.thread s.iss.blk s.iss.weft l).pc = nextPc s :=
  issueLanes_pc hi fun _ _ => rfl

end

end

end Sys2Proof.Machine
end

section
/-!
What the operations of the integer lanes compute, as arithmetic (R92, R93, R99, R100).
-/
namespace Sys2Proof.Machine
open Sys2Proof

/-! ## Compares (R92) -/

theorem mask32_eq_ite {c : Bool} {p : Prop} [Decidable p] (h : c = true ↔ p) : mask32 c = if p then 0xFFFFFFFF else 0 := by
  simp only [mask32, h]

theorem mask32_eq_ite_not {c : Bool} {p : Prop} [Decidable p] (h : c = true ↔ ¬ p) :
    mask32 c = if p then 0 else 0xFFFFFFFF := by
  rw [mask32_eq_ite h, ite_not]

/-- A signed compare with a sign-extended immediate compares with the immediate's own value (R99). -/
theorem slt_signExtend_iff (x : Word) (i : BitVec 9) : x.slt (BitVec.signExtend 32 i) = true ↔ x.toInt < i.toInt := by
  rw [BitVec.slt_iff_toInt_lt, BitVec.toInt_signExtend_of_le (by decide)]

/-! ## Shifts (R93) -/

theorem shlW_eq (x y : Word) : shlW x y = if y.toNat < 32 then BitVec.ofNat 32 (x.toNat * 2 ^ y.toNat) else 0 := by
  unfold shlW
  split
  · apply BitVec.eq_of_toNat_eq
    rw [BitVec.toNat_shiftLeft, BitVec.toNat_ofNat, Nat.shiftLeft_eq]
  · rfl

theorem shrlW_eq (x y : Word) : shrlW x y = if y.toNat < 32 then BitVec.ofNat 32 (x.toNat / 2 ^ y.toNat) else 0 := by
  unfold shrlW
  split
  · rw [← Nat.shiftRight_eq_div_pow, ← BitVec.toNat_ushiftRight, BitVec.ofNat_toNat, BitVec.setWidth_eq]
  · rfl

theorem shraW_eq (x y : Word) :
    shraW x y = if y.toNat < 32 then BitVec.ofInt 32 (x.toInt / 2 ^ y.toNat) else if x.msb then 0xFFFFFFFF else 0 := by
  unfold shraW
  split
  · rw [BitVec.sshiftRight, Int.shiftRight_eq_div_pow]
    rfl
  · rfl

/-- An immediate count is below 32 (R99). -/
theorem toNat_zeroExtend_count (i : BitVec 5) : (BitVec.zeroExtend 32 i).toNat = i.toNat ∧ i.toNat < 32 :=
  ⟨BitVec.toNat_setWidth_of_le (by decide), i.isLt⟩

theorem shlW_count (x : Word) (i : BitVec 5) : shlW x (BitVec.zeroExtend 32 i) = BitVec.ofNat 32 (x.toNat * 2 ^ i.toNat) := by
  obtain ⟨count, small⟩ := toNat_zeroExtend_count i
  rw [shlW_eq, count, if_pos small]

theorem shrlW_count (x : Word) (i : BitVec 5) : shrlW x (BitVec.zeroExtend 32 i) = BitVec.ofNat 32 (x.toNat / 2 ^ i.toNat) := by
  obtain ⟨count, small⟩ := toNat_zeroExtend_count i
  rw [shrlW_eq, count, if_pos small]

theorem shraW_count (x : Word) (i : BitVec 5) : shraW x (BitVec.zeroExtend 32 i) = BitVec.ofInt 32 (x.toInt / 2 ^ i.toNat) := by
  obtain ⟨count, small⟩ := toNat_zeroExtend_count i
  rw [shraW_eq, count, if_pos small]

/-! ## Words in two parts (R100) -/

/-- MOVHI puts its immediate above the low 14 bits of the word. -/
theorem append_extract_eq_ofNat (i : BitVec 18) (x : Word) :
    i ++ x.extractLsb' 0 14 = BitVec.ofNat 32 (i.toNat * 2 ^ 14 + x.toNat % 2 ^ 14) := by
  have low : x.toNat % 2 ^ 14 < 2 ^ 14 := Nat.mod_lt _ (by decide)
  have fits : i.toNat * 2 ^ 14 + x.toNat % 2 ^ 14 < 2 ^ 32 := by have := i.isLt; omega
  apply BitVec.eq_of_toNat_eq
  rw [BitVec.toNat_append, BitVec.extractLsb'_toNat, Nat.shiftRight_zero, ← Nat.shiftLeft_add_eq_or_of_lt low,
    Nat.shiftLeft_eq, BitVec.toNat_ofNat, Nat.mod_eq_of_lt fits]

/-! ## Index registers (R17, R102) -/

theorem Thread.xreg_setX (x : Thread) (i j : BitVec 2) (v : Word) :
    (x.setX i v).xreg j = if j = i then v &&& 0x007F7F7F else x.xreg j := by
  simp only [Thread.setX, Thread.xreg, Sp.get_set, BitVec.toNat_inj]

end Sys2Proof.Machine
end

section
/-!
Accesses through an index register: a lane beyond its window or the allotment traps, and the others go on (R103).
-/
namespace Sys2Proof.Machine
open Sys2Proof

/-! ## Lanes of which some trap (R89, R376) -/

/-- What lane `l` comes to by its part `r`: its own thread, or the trap. -/
def AfterLane (s : State) (r : LaneRes) (l : Nat) (y : Thread) : Prop :=
  match r with
  | .trap c => AfterCheck s (fun _ => some c) l y
  | r => y = r.thread s

/-- One lane's part changes no other lane. -/
theorem laneStep_spec {s u : State} {f : Nat → LaneRes} {l : Nat} (iss : u.iss = s.iss) (launch : u.launch = s.launch)
    (same : u.thread s.iss.blk s.iss.weft l = s.lane l) (run : (s.lane l).tst = .run) (free : (s.lane l).hold = none)
    (sound : ∀ c, f l = .trap c → c.sys = false) :
    LanesOnly s.iss.blk s.iss.weft [l] u (laneStep f u l) ∧
      AfterLane s (f l) l ((laneStep f u l).thread s.iss.blk s.iss.weft l) := by
  have set : ∀ x, LanesOnly s.iss.blk s.iss.weft [l] u (u.setThread s.iss.blk s.iss.weft l x) := fun x =>
    ⟨fun k hk => by rw [State.thread_setThread, if_neg fun h => hk (by simpa using (tkey_lane _ _ _ _).mp h)], rfl, rfl⟩
  unfold laneStep AfterLane
  cases part : f l with
  | next x =>
    simp only [iss, nextPc]
    exact ⟨set _, State.thread_setThread_same _ _ _ _ _⟩
  | goto x =>
    simp only [iss]
    exact ⟨set _, State.thread_setThread_same _ _ _ _ _⟩
  | trap c =>
    have trap := checkStep_spec (fun _ => some c) (laneMask u.iss.lanes)
      (laneMask (u.iss.lanes.filter fun k => (f k).completes)) same launch run free
    simp only [checkStep, sound c part, Bool.false_eq_true, if_false] at trap
    simpa only [iss] using trap

/-- Every lane takes its part, whatever the others come to. -/
theorem foldl_laneStep_afterLane {s : State} {f : Nat → LaneRes} (ls : List Nat) (nodup : ls.Nodup)
    (ready : ∀ l ∈ ls, (s.lane l).tst = .run ∧ (s.lane l).hold = none) (sound : ∀ l c, f l = .trap c → c.sys = false) :
    ∀ u : State, u.iss = s.iss → u.launch = s.launch → (∀ l ∈ ls, u.thread s.iss.blk s.iss.weft l = s.lane l) →
      LanesOnly s.iss.blk s.iss.weft ls u (ls.foldl (laneStep f) u) ∧
        ∀ l ∈ ls, AfterLane s (f l) l ((ls.foldl (laneStep f) u).thread s.iss.blk s.iss.weft l) := by
  induction ls with
  | nil => exact fun u _ _ _ => ⟨.refl _ _ _ u, fun _ h => nomatch h⟩
  | cons l ls ih =>
    intro u iss launch same
    obtain ⟨fresh, nodup⟩ := List.nodup_cons.mp nodup
    obtain ⟨run, free⟩ := ready l (by simp)
    obtain ⟨step, after⟩ := laneStep_spec (f := f) iss launch (same l (by simp)) run free (sound l)
    have others : ∀ k ∈ ls, (laneStep f u l).thread s.iss.blk s.iss.weft k = s.lane k := fun k hk => by
      rw [step.others k (by rintro h; exact fresh (List.mem_singleton.mp h ▸ hk)), same k (by simp [hk])]
    obtain ⟨steps, afters⟩ := ih nodup (fun k hk => ready k (by simp [hk])) (laneStep f u l)
      ((step.field State.iss fun _ => rfl).trans iss) (step.launch.trans launch) others
    refine ⟨step.trans steps, fun k hk => ?_⟩
    rw [List.foldl_cons]
    rcases List.mem_cons.mp hk with rfl | hk
    · rw [steps.others k fresh]; exact after
    · exact afters k hk

/-- The lanes of an issue set that nothing holds, by the part of each. -/
theorem foldl_laneStep_mixed {s : State} {rs ks : List Regs} {f : Nat → LaneRes} (formed : FormedSet s)
    (busy : issueBusy s rs ks = false) (run : ∀ l ∈ s.iss.lanes, (s.lane l).tst = .run)
    (sound : ∀ l c, f l = .trap c → c.sys = false) :
    ∀ l ∈ s.iss.lanes, AfterLane (noteIssue s) (f l) l
      ((s.iss.lanes.foldl (laneStep f) (noteIssue s)).thread s.iss.blk s.iss.weft l) := by
  have ready : ∀ l ∈ s.iss.lanes, ((noteIssue s).lane l).tst = .run ∧ ((noteIssue s).lane l).hold = none := fun l hl => by
    rw [noteIssue_lane, noteIssue_thread_tst, noteIssue_thread_hold]
    exact ⟨run l hl, hold_eq_none_of_not_busy busy hl⟩
  have lanes := (foldl_laneStep_afterLane s.iss.lanes formed.nodup ready sound (noteIssue s) rfl rfl fun _ _ => rfl).2
  rwa [noteIssue_iss] at lanes

/-! ## MOVX and MOVXW (R103) -/

/-- The register that the index register `i` of a thread reaches. -/
def reachedReg (i : BitVec 2) (x : Thread) : Nat := xBase (x.xreg i) + xIndex (x.xreg i)

/-- The trap of an access through an index register that holds `v`, at `pc` under an allotment of `regs` registers. -/
def windowCond (pc regs : Nat) (v : Word) : Option Cond :=
  if xBound v ≤ xIndex v then some { cause := .xrange, addr := pc, info := v.toNat }
  else if regs ≤ xBase v + xIndex v then some { cause := .regrange, addr := pc, info := xBase v + xIndex v }
  else none

/-- The trap of lane `l` in an access through its index register `i`. -/
def indexedCond (s : State) (i : BitVec 2) (l : Nat) : Option Cond :=
  windowCond s.iss.pc.toNat (s.roleOf s.iss.blk s.iss.weft).regs ((s.lane l).xreg i)

/-- A lane's part of an access through its index register, where `g` acts on the register that it reaches. -/
def indexedLane (s : State) (i : BitVec 2) (g : Nat → Thread → Thread) (l : Nat) : LaneRes :=
  match indexedReg s ((s.lane l).xreg i) with
  | .error c => .trap c
  | .ok r => .next (g r (s.lane l))

/-- The issue of such an access, which names the registers `r`. -/
def issueIndexed (r : Regs) (i : BitVec 2) (g : Nat → Thread → Thread) (s : State) : Host.Outcome State Fault Refusal :=
  issue { permitted := fun k => k.permits .integer, regs := [r], poison := .lanes }
    (fun s => issueBusy s [r] [] || indexedBusy s i)
    (fun s => s.iss.lanes.foldl (laneStep (indexedLane s i g)) s) s

theorem exec_movx (d : VReg) (i : BitVec 2) (s : State) :
    exec (.movx d i) s = issueIndexed (one d) i (fun r x => x.setReg d.toNat (x.reg r)) s := rfl

theorem exec_movxw (i : BitVec 2) (a : VReg) (s : State) :
    exec (.movxw i a) s = issueIndexed (one a) i (fun r x => x.setReg r (x.reg a.toNat)) s := rfl

theorem indexedReg_eq (s : State) (v : Word) :
    indexedReg s v =
      (windowCond s.iss.pc.toNat (s.roleOf s.iss.blk s.iss.weft).regs v).elim (.ok (xBase v + xIndex v)) .error := by
  unfold indexedReg windowCond
  dsimp only
  split
  · rfl
  · split <;> rfl

/-- The trap comes before the access. -/
theorem indexedLane_eq (s : State) (i : BitVec 2) (g : Nat → Thread → Thread) (l : Nat) :
    indexedLane s i g l = (indexedCond s i l).elim (.next (g (reachedReg i (s.lane l)) (s.lane l))) .trap := by
  rw [indexedLane, indexedReg_eq, indexedCond]
  cases windowCond s.iss.pc.toNat (s.roleOf s.iss.blk s.iss.weft).regs ((s.lane l).xreg i) <;> rfl

theorem indexedCond_noteIssue (s : State) (i : BitVec 2) (l : Nat) :
    indexedCond (noteIssue s) i l = indexedCond s i l := by
  simp only [indexedCond, noteIssue_iss, noteIssue_lane_xreg, noteIssue_roleOf]

section
variable {s : State} {e : Instr} {r : Regs} {i : BitVec 2} {g : Nat → Thread → Thread}

theorem indexedCond_sys {l : Nat} {c : Cond} (h : indexedCond s i l = some c) : c.sys = false := by
  unfold indexedCond windowCond at h
  split at h
  · rw [← Option.some.inj h]
  · split at h
    · rw [← Option.some.inj h]
    · exact nomatch h

theorem issueIndexed_eq (hi : Issues .integer [r] [] s) (hb : indexedBusy s i = false) :
    issueIndexed r i g s =
      .next (s.iss.lanes.foldl (laneStep (indexedLane (noteIssue s) i g)) (noteIssue s)) := by
  obtain ⟨formed, allowed, free, clean⟩ := hi
  rw [issueIndexed, issue_body formed.1 (preCond_none allowed) (by rw [free, hb]; rfl) clean, noteIssue_iss]

/-- Where no lane meets a trap, every lane accesses the register that it reaches, and goes on. -/
theorem issueIndexed_lanesDo (he : exec e s = issueIndexed r i g s) (hi : Issues .integer [r] [] s)
    (hb : indexedBusy s i = false) (legal : ∀ l ∈ s.iss.lanes, indexedCond s i l = none) :
    ∃ t, exec e s = .next t ∧ LanesDo s t fun _ x => (g (reachedReg i x) x).past s := by
  have lane : ∀ l ∈ s.iss.lanes, indexedLane (noteIssue s) i g l =
      .next (g (reachedReg i ((noteIssue s).lane l)) ((noteIssue s).lane l)) := fun l hl => by
    rw [indexedLane_eq, indexedCond_noteIssue, legal l hl]; rfl
  refine ⟨_, he.trans (issueIndexed_eq hi hb), (lanesDo_foldl hi.1 fun l hl => ?_).congr fun l hl => ?_⟩
  · rw [lane l hl]; rfl
  · rw [lane l hl, noteIssue_lane]; rfl

/-- Each lane traps, or accesses the register that it reaches and goes on. -/
theorem issueIndexed_mixed (he : exec e s = issueIndexed r i g s) (hi : Issues .integer [r] [] s)
    (hb : indexedBusy s i = false) (run : ∀ l ∈ s.iss.lanes, (s.lane l).tst = .run) :
    ∃ t, exec e s = .next t ∧ ∀ l ∈ s.iss.lanes,
      (∀ c, indexedCond s i l = some c → Trapped s t l c) ∧
      (indexedCond s i l = none → t.thread s.iss.blk s.iss.weft l =
        (g (reachedReg i ((noteIssue s).thread s.iss.blk s.iss.weft l))
          ((noteIssue s).thread s.iss.blk s.iss.weft l)).past s) := by
  have trapSys : ∀ l c, indexedLane (noteIssue s) i g l = .trap c → c.sys = false := fun l c h => by
    rw [indexedLane_eq] at h
    cases hc : indexedCond (noteIssue s) i l with
    | none => rw [hc] at h; cases h
    | some c' => rw [hc] at h; cases h; exact indexedCond_sys hc
  have runs := he.trans (issueIndexed_eq hi hb)
  obtain ⟨formed, -, free, -⟩ := hi
  have after := foldl_laneStep_mixed formed free run trapSys
  refine ⟨_, runs, fun l hl => ⟨fun c hc => ?_, fun hc => ?_⟩⟩
  · have taken := after l hl
    rw [indexedLane_eq, indexedCond_noteIssue, hc] at taken
    exact trapped_of_afterCheck (trap := fun _ => some c) (fault := fun _ => none) rfl (indexedCond_sys hc) taken
  · have goes := after l hl
    rw [indexedLane_eq, indexedCond_noteIssue, hc] at goes
    rw [← noteIssue_lane]
    simpa only [AfterLane, Option.elim_none, LaneRes.thread, Thread.past, noteIssue_nextPc] using goes

end

end Sys2Proof.Machine
end

section
/-!
The immediate forms, the moves and the index registers, and the SHORT words (R45, R52, R99 to R103, R173).
-/
namespace Sys2Proof.Machine
open Sys2Proof

/-- Settles O13: each instruction by the lemma of its shape and the value of its operation; the indexed moves by the
part of each lane. A `show` names the definition that gives the instruction its meaning. -/
theorem immediateAndShortResults : Obligations.ImmediateAndShortResults := by
  unfold Obligations.ImmediateAndShortResults
  refine ⟨fun s d a => ⟨?words, ?counts, ?pairs, ?movi, ?movhi, ?movk⟩,
    fun s d a i => ⟨?mov64, ?setx, ?getx, fun x v j => x.xreg_setX i j v, ?indexed⟩,
    fun s d r => ⟨rfl, rfl, ?shortMov, ?shortIaddi, ?shortWords, ?shortFloats⟩⟩
  case words =>
    simp only [List.forall_mem_cons, List.not_mem_nil, false_implies, implies_true, and_true]
    exact ⟨fun i hi => show ∃ t, execIaddi d a i s = _ ∧ _ from aluImm_writesWord hi fun _ _ => rfl,
      fun i hi => show ∃ t, execAndi d a i s = _ ∧ _ from aluImm_writesWord hi fun _ _ => rfl,
      fun i hi => show ∃ t, execOri d a i s = _ ∧ _ from aluImm_writesWord hi fun _ _ => rfl,
      fun i hi => show ∃ t, execXori d a i s = _ ∧ _ from aluImm_writesWord hi fun _ _ => rfl,
      fun i hi => show ∃ t, execIseqi d a i s = _ ∧ _ from aluImm_writesWord hi fun _ _ => mask32_eq_ite beq_iff_eq,
      fun i hi => show ∃ t, execIsnei d a i s = _ ∧ _ from aluImm_writesWord hi fun _ _ => mask32_eq_ite_not bne_iff_ne,
      fun i hi => show ∃ t, execIslti d a i s = _ ∧ _ from aluImm_writesWord hi fun _ _ =>
        mask32_eq_ite (slt_signExtend_iff _ _),
      fun i hi => show ∃ t, execIsltni d a i s = _ ∧ _ from aluImm_writesWord hi fun _ _ =>
        mask32_eq_ite BitVec.ult_iff_lt,
      fun i hi => show ∃ t, execImuli d a i s = _ ∧ _ from aluImm_writesWord hi fun _ _ => rfl⟩
  case counts =>
    simp only [List.forall_mem_cons, List.not_mem_nil, false_implies, implies_true, and_true]
    exact ⟨fun i hi => show ∃ t, execShli d a i s = _ ∧ _ from aluImm_writesWord hi fun _ _ => shlW_count _ _,
      fun i hi => show ∃ t, execShrli d a i s = _ ∧ _ from aluImm_writesWord hi fun _ _ => shrlW_count _ _,
      fun i hi => show ∃ t, execShrai d a i s = _ ∧ _ from aluImm_writesWord hi fun _ _ => shraW_count _ _⟩
  case pairs => exact fun i hi => show ∃ t, execIadd64i d a i s = _ ∧ _ from issueLanes_past hi fun _ => rfl
  case movi => exact fun i hi => show ∃ t, execMovi d i s = _ ∧ _ from issueLanes_past hi fun _ => rfl
  case movhi =>
    exact fun i hi => show ∃ t, execMovhi d i s = _ ∧ _ from issueLanes_past hi fun _ => by rw [append_extract_eq_ofNat]
  case movk =>
    exact fun n hi => show ∃ t, execMovk d n s = _ ∧ _ from issueLanes_past hi fun _ => by rw [noteIssue_wft_kreg]
  case mov64 => exact fun hi => show ∃ t, execMov64 d a s = _ ∧ _ from issueLanes_past hi fun _ => rfl
  case setx => exact fun hi => show ∃ t, execSetx i a s = _ ∧ _ from issueLanes_past hi fun _ => rfl
  case getx => exact fun hi => show ∃ t, execGetx d i s = _ ∧ _ from issueLanes_past hi fun _ => rfl
  case indexed =>
    refine List.forall_mem_cons.mpr ⟨fun hi hb => ?_, List.forall_mem_singleton.mpr fun hi hb => ?_⟩
    · exact ⟨issueIndexed_lanesDo (exec_movx d i s) hi hb, issueIndexed_mixed (exec_movx d i s) hi hb⟩
    · exact ⟨issueIndexed_lanesDo (exec_movxw i a s) hi hb, issueIndexed_mixed (exec_movxw i a s) hi hb⟩
  case shortMov =>
    exact fun hi => show ∃ t, execShortMov d r s = _ ∧ _ from aluWord_writesWord hi fun _ _ => BitVec.or_zero
  case shortIaddi => exact fun hi => show ∃ t, execShortIaddi d r s = _ ∧ _ from aluImm_writesWord hi fun _ _ => rfl
  case shortWords =>
    simp only [List.forall_mem_cons, List.not_mem_nil, false_implies, implies_true, and_true]
    exact ⟨⟨rfl, fun hi => show ∃ t, execShortIadd d r s = _ ∧ _ from aluWord_writesWord hi fun _ _ => rfl⟩,
      ⟨rfl, fun hi => show ∃ t, execShortIsub d r s = _ ∧ _ from aluWord_writesWord hi fun _ _ => rfl⟩,
      ⟨rfl, fun hi => show ∃ t, execShortImul d r s = _ ∧ _ from aluWord_writesWord hi fun _ _ => rfl⟩,
      ⟨rfl, fun hi => show ∃ t, execShortAnd d r s = _ ∧ _ from aluWord_writesWord hi fun _ _ => rfl⟩,
      ⟨rfl, fun hi => show ∃ t, execShortOr d r s = _ ∧ _ from aluWord_writesWord hi fun _ _ => rfl⟩,
      ⟨rfl, fun hi => show ∃ t, execShortXor d r s = _ ∧ _ from aluWord_writesWord hi fun _ _ => rfl⟩,
      ⟨rfl, fun hi => show ∃ t, execShortShl d r s = _ ∧ _ from aluWord_writesWord hi fun _ _ => shlW_eq _ _⟩,
      ⟨rfl, fun hi => show ∃ t, execShortShrl d r s = _ ∧ _ from aluWord_writesWord hi fun _ _ => shrlW_eq _ _⟩,
      ⟨rfl, fun hi => show ∃ t, execShortShra d r s = _ ∧ _ from aluWord_writesWord hi fun _ _ => shraW_eq _ _⟩⟩
  case shortFloats =>
    simp only [List.forall_mem_cons, List.not_mem_nil, false_implies, implies_true, and_true]
    exact ⟨⟨rfl, fun hi => next_and_next (show ∃ t, execShortFadd d r s = _ ∧ _ from fp32Bin_pc hi) rfl⟩,
      ⟨rfl, fun hi => next_and_next (show ∃ t, execShortFsub d r s = _ ∧ _ from fp32Bin_pc hi) rfl⟩,
      ⟨rfl, fun hi => next_and_next (show ∃ t, execShortFmul d r s = _ ∧ _ from fp32Bin_pc hi) rfl⟩,
      ⟨rfl, fun hi => next_and_next (show ∃ t, execShortFmax d r s = _ ∧ _ from fp32MinMax_pc hi) rfl⟩,
      ⟨rfl, fun hi => next_and_next (show ∃ t, execShortFmin d r s = _ ∧ _ from fp32MinMax_pc hi) rfl⟩⟩

end Sys2Proof.Machine
end

section
/-!
Rounding to a whole number of units (R72): where the exact value stands beyond the whole part that `splitAt` gives, and
how far from it each mode rounds.
-/
namespace Sys2Proof.Machine
open Sys2Proof

/-! ## The exact value between two whole numbers -/

/-- The part of a unit, beyond its whole number of units, at which a value of this tail stands. -/
def Tail.StandsAt : Tail → ℚ → Prop
  | .exact, x => x = 0
  | .below, x => 0 < x ∧ x < 1 / 2
  | .half, x => x = 1 / 2
  | .above, x => 1 / 2 < x ∧ x < 1

/-- The tail that `splitAt` takes of a remainder `r`, where a unit is `2 * h` parts. -/
theorem standsAt_remainder {r h : Nat} (small : r < 2 * h) :
    (if r = 0 then Tail.exact else if r < h then .below else if r = h then .half else .above).StandsAt
      ((r : ℚ) / (2 * h)) := by
  have pos : (0 : ℚ) < h := by exact_mod_cast (by omega : 0 < h)
  split
  · next zero => simp [Tail.StandsAt, zero]
  split
  · next nonzero below =>
    refine ⟨by have := Nat.pos_of_ne_zero nonzero; positivity, ?_⟩
    rw [div_lt_iff₀ (by positivity)]
    linarith [(by exact_mod_cast below : (r : ℚ) < h)]
  split
  · next half => rw [half]; exact (by field_simp : (h : ℚ) / (2 * h) = 1 / 2)
  · next zero below half =>
    have above : (h : ℚ) < r := by exact_mod_cast (by omega : h < r)
    have whole : (r : ℚ) < 2 * h := by exact_mod_cast small
    exact ⟨by rw [lt_div_iff₀ (by positivity)]; linarith, by rw [div_lt_one (by positivity)]; exact whole⟩

/-- `splitAt` gives the whole part of the exact value, and the tail of what it leaves. -/
theorem splitAt_exact (m : Nat) (e q : Int) :
    ∃ x : ℚ, (m : ℚ) * 2 ^ e = ((splitAt m e false q).1 + x) * 2 ^ q ∧ (splitAt m e false q).2.StandsAt x := by
  by_cases coarse : q ≤ e
  · refine ⟨0, ?_, by simp [splitAt, coarse, Tail.StandsAt]⟩
    have scale : (2 : ℚ) ^ e = 2 ^ (e - q).toNat * 2 ^ q := by
      rw [← zpow_natCast, ← zpow_add₀ two_ne_zero]
      congr 1
      omega
    simp only [splitAt, if_pos coarse, scale]
    push_cast
    ring
  · obtain ⟨n, hn⟩ : ∃ n : Nat, q = e + (n + 1 : Nat) := ⟨(q - e - 1).toNat, by omega⟩
    have parts : (q - e).toNat = n + 1 := by omega
    have scale : (2 : ℚ) ^ q = 2 ^ (n + 1) * 2 ^ e := by
      rw [hn, zpow_add₀ two_ne_zero, zpow_natCast, mul_comm]
    have unit : 2 ^ (n + 1) = 2 * 2 ^ n := pow_succ' 2 n
    refine ⟨((m % 2 ^ (n + 1) : Nat) : ℚ) / 2 ^ (n + 1), ?_, ?_⟩
    · have whole : (m : ℚ) = (m / 2 ^ (n + 1) : Nat) * 2 ^ (n + 1) + (m % 2 ^ (n + 1) : Nat) := by
        exact_mod_cast (Nat.div_add_mod' m (2 ^ (n + 1))).symm
      simp only [splitAt, if_neg coarse, parts, scale]
      rw [add_mul, ← mul_assoc, ← mul_assoc, div_mul_cancel₀ _ (by positivity), ← add_mul, ← whole]
    · have tail := standsAt_remainder (r := m % 2 ^ (n + 1)) (h := 2 ^ n) (unit ▸ Nat.mod_lt _ (by positivity))
      simpa only [splitAt, if_neg coarse, parts, Nat.add_sub_cancel, Bool.false_eq_true, if_false, pow_succ', Nat.cast_pow,
        Nat.cast_ofNat] using tail

/-! ## How far each mode rounds -/

/-- The whole number that a choice to round up gives. -/
def roundedWhole (up : Bool) (k : Nat) : Nat := if up then k + 1 else k

/-- The exact value less the rounded one, in units, where the exact value stands at `x` beyond the whole part. -/
def roundingError (up : Bool) (x : ℚ) : ℚ := if up then x - 1 else x

theorem roundedWhole_add_error (up : Bool) (k : Nat) (x : ℚ) : (roundedWhole up k : ℚ) + roundingError up x = k + x := by
  cases up <;> simp [roundedWhole, roundingError]

section
variable {t : Tail} {x : ℚ}

theorem Tail.StandsAt.bounds (h : t.StandsAt x) : 0 ≤ x ∧ x < 1 := by
  cases t <;> simp only [Tail.StandsAt] at h <;> constructor <;> linarith

theorem Tail.StandsAt.eq_exact_iff (h : t.StandsAt x) : t = .exact ↔ x = 0 := by
  cases t with
  | exact => exact iff_of_true rfl h
  | below => exact iff_of_false nofun h.1.ne'
  | half => exact iff_of_false nofun (by rw [show x = 1 / 2 from h]; norm_num)
  | above => exact iff_of_false nofun (by linarith [h.1])

/-- An exact value is not rounded up, and any other is off the rounded one either way. -/
theorem error_eq_zero_iff (h : t.StandsAt x) (rm : Nat) (neg : Bool) (k : Nat) :
    roundingError (roundsUp rm neg k t) x = 0 ↔ t = .exact := by
  by_cases whole : t = .exact
  · subst whole
    exact iff_of_true h rfl
  · refine iff_of_false ?_ whole
    have off : x ≠ 0 := fun zero => whole (h.eq_exact_iff.mpr zero)
    have below := h.bounds.2
    cases roundsUp rm neg k t with
    | false => exact off
    | true => exact (sub_neg.mpr below).ne

/-- To nearest, the error is at most half a unit, and a tie goes to the even number. -/
theorem error_nearest (h : t.StandsAt x) (neg : Bool) (k : Nat) :
    |roundingError (roundsUp 0 neg k t) x| ≤ 1 / 2 ∧
      (|roundingError (roundsUp 0 neg k t) x| = 1 / 2 → roundedWhole (roundsUp 0 neg k t) k % 2 = 0) := by
  cases t with
  | exact => simp [roundsUp, roundingError, show x = 0 from h]
  | below =>
    obtain ⟨pos, small⟩ := h
    have size : |roundingError false x| < 1 / 2 := by rwa [roundingError, if_neg nofun, abs_of_pos pos]
    exact ⟨size.le, fun tie => absurd tie size.ne⟩
  | above =>
    obtain ⟨big, whole⟩ := h
    have size : |roundingError true x| < 1 / 2 := by
      rw [roundingError, if_pos rfl, abs_of_neg (by linarith)]
      linarith
    exact ⟨size.le, fun tie => absurd tie size.ne⟩
  | half =>
    have size : ∀ up, |roundingError up x| = 1 / 2 := fun up => by
      cases up <;> norm_num [roundingError, show x = 1 / 2 from h]
    refine ⟨(size _).le, fun _ => ?_⟩
    rcases Nat.mod_two_eq_zero_or_one k with even | odd
    · simp [roundsUp, roundedWhole, even]
    · simp [roundsUp, roundedWhole, odd]
      omega

/-- The modes other than RNE round up by the sign alone (R72): where they round away from zero, every inexact value. -/
theorem roundsUp_directed (neg : Bool) (k : Nat) (t : Tail) :
    roundsUp 1 neg k t = (t != .exact && false) ∧ roundsUp 2 neg k t = (t != .exact && neg) ∧
      roundsUp 3 neg k t = (t != .exact && !neg) := by
  cases t <;> cases neg <;> exact ⟨rfl, rfl, rfl⟩

/-- Toward zero the error is not below zero, and away from zero not above. -/
theorem error_directed (h : t.StandsAt x) :
    (0 ≤ roundingError (t != .exact && false) x ∧ roundingError (t != .exact && false) x < 1) ∧
      (-1 < roundingError (t != .exact && true) x ∧ roundingError (t != .exact && true) x ≤ 0) := by
  obtain ⟨low, high⟩ := h.bounds
  rw [Bool.and_false, Bool.and_true]
  refine ⟨⟨low, high⟩, ?_⟩
  by_cases whole : t = .exact
  · rw [h.eq_exact_iff.mp whole, whole]
    norm_num [roundingError]
  · have off : 0 < x := low.lt_of_ne fun zero => whole (h.eq_exact_iff.mpr zero.symm)
    rw [bne_iff_ne.mpr whole, roundingError, if_pos rfl]
    constructor <;> linarith

end

/-- The rounded whole number, the mark, and the error that the exact value leaves, in units. -/
theorem roundAt_spec (rm : Nat) (neg : Bool) (m : Nat) (e q : Int) :
    ∃ t x k, t.StandsAt x ∧ roundAt rm neg m e false q = (roundedWhole (roundsUp rm neg k t) k, t != .exact) ∧
      (m : ℚ) * 2 ^ e =
        (roundedWhole (roundsUp rm neg k t) k + roundingError (roundsUp rm neg k t) x) * 2 ^ q := by
  obtain ⟨x, value, stands⟩ := splitAt_exact m e q
  exact ⟨_, x, _, stands, rfl, by rw [roundedWhole_add_error, value]⟩

/-- Settles O4: the error of the mode, in units, by the tail; the statement is this times the unit. -/
theorem roundingFollowsTheMode : Obligations.RoundingFollowsTheMode := by
  unfold Obligations.RoundingFollowsTheMode
  intro rm neg m e q r exact unit sign
  obtain ⟨t, x, k, stands, rounded, value⟩ := roundAt_spec rm neg m e q
  have pos : 0 < unit := zpow_pos two_pos q
  obtain ⟨whole, mark⟩ : r.1 = roundedWhole (roundsUp rm neg k t) k ∧ r.2 = (t != .exact) := Prod.ext_iff.mp rounded
  set δ := roundingError (roundsUp rm neg k t) x with hδ
  have off : exact - r.1 * unit = δ * unit := by rw [whole]; linear_combination value
  obtain ⟨zero, down, up⟩ := roundsUp_directed neg k t
  have toward : roundsUp rm neg k t = (t != .exact && false) → 0 ≤ δ * unit ∧ δ * unit < unit := fun h => by
    obtain ⟨low, high⟩ := h ▸ (error_directed stands).1
    exact ⟨mul_nonneg low pos.le, mul_lt_of_lt_one_left pos high⟩
  have away : roundsUp rm neg k t = (t != .exact && true) → -unit < δ * unit ∧ δ * unit ≤ 0 := fun h => by
    obtain ⟨low, high⟩ := h ▸ (error_directed stands).2
    exact ⟨by linarith [mul_lt_mul_of_pos_right low pos], mul_nonpos_of_nonpos_of_nonneg high pos.le⟩
  refine ⟨?mark, ?nearest, ?zero, ?down, ?up⟩
  case mark =>
    rw [mark, bne_eq_false_iff_eq, ← error_eq_zero_iff stands rm neg k, ← hδ, eq_comm (b := exact),
      ← sub_eq_zero (a := exact), off, mul_eq_zero, or_iff_left pos.ne']
  case nearest =>
    rintro rfl
    obtain ⟨near, even⟩ := error_nearest stands neg k
    rw [off, abs_mul, abs_of_pos pos, whole, div_eq_inv_mul, ← one_div]
    exact ⟨by gcongr, fun tie => even (mul_right_cancel₀ pos.ne' tie)⟩
  case zero =>
    rintro rfl
    obtain ⟨low, high⟩ := toward zero
    constructor <;> linarith
  case down =>
    rintro rfl
    cases neg with
    | false =>
      obtain ⟨low, high⟩ := toward down
      simp only [sign, Bool.false_eq_true, if_false]
      constructor <;> linarith
    | true =>
      obtain ⟨low, high⟩ := away down
      simp only [sign, if_true]
      constructor <;> linarith
  case up =>
    rintro rfl
    cases neg with
    | false =>
      obtain ⟨low, high⟩ := away up
      simp only [sign, Bool.false_eq_true, if_false]
      constructor <;> linarith
    | true =>
      obtain ⟨low, high⟩ := toward up
      simp only [sign, if_true]
      constructor <;> linarith

end Sys2Proof.Machine
end

section
/-!
The shapes of the floating-point and conversion instructions: each lane writes one result and sets its flags (R104).
-/
namespace Sys2Proof.Machine
open Sys2Proof

theorem noteIssue_wft_kpair (s : State) (r : Nat) : (noteIssue s).wft.kpair r = s.wft.kpair r := by
  simp only [Weft.kpair, noteIssue_wft_kreg]

@[simp] theorem noteIssue_srcPair (s : State) (x : Thread) (b : Src) : srcPair (noteIssue s).wft x b = srcPair s.wft x b := by
  cases b with
  | v r => rfl
  | k r => exact noteIssue_wft_kpair s r.toNat

section
variable {s : State} {e : Instr} {c : IClass} {rs ks : List Regs} {d a : VReg} {b : Src}

/-- An instruction whose every lane delivers a word result. -/
theorem fpWord_writesFloat {f : State → Nat → FRes} {w : Nat → Thread → FRes}
    (he : exec e s = issueLanes c rs ks (fun u l => fpWord (u.lane l) d.toNat (f u l)) s)
    (h : ∀ l, f (noteIssue s) l = w l ((noteIssue s).lane l)) (hi : Issues c rs ks s) :
    ∃ t, exec e s = .next t ∧ WritesFloat s t d w := by
  rw [he]
  exact issueLanes_past hi fun l => by rw [h l]

/-- An instruction whose every lane delivers a pair result. -/
theorem fpPair_writesFloat64 {f : State → Nat → FRes} {w : Nat → Thread → FRes}
    (he : exec e s = issueLanes c rs ks (fun u l => fpPair (u.lane l) d.toNat (f u l)) s)
    (h : ∀ l, f (noteIssue s) l = w l ((noteIssue s).lane l)) (hi : Issues c rs ks s) :
    ∃ t, exec e s = .next t ∧ WritesFloat64 s t d w := by
  rw [he]
  exact issueLanes_past hi fun l => by rw [h l]

/-- An instruction whose every lane delivers a word and sets no flag. -/
theorem issueLanes_writesWord {f : State → Nat → Word} {w : Nat → Thread → Word}
    (he : exec e s = issueLanes c rs ks (fun u l => .next ((u.lane l).setReg d.toNat (f u l))) s)
    (h : ∀ l, f (noteIssue s) l = w l ((noteIssue s).lane l)) (hi : Issues c rs ks s) :
    ∃ t, exec e s = .next t ∧ WritesWord s t d w := by
  rw [he]
  exact issueLanes_past hi fun l => by rw [h l]

theorem fp32Bin_writesFloat {f : Nat → FVal → FVal → FRes} (he : exec e s = fp32Bin f d a b s) :
    Issues .fp32 ([one d, one a] ++ srcRegs b) (srcKs 1 b) s →
      ∃ t, exec e s = .next t ∧
        WritesFloat s t d fun _ x =>
          out32 x (f (fcsrRM x.fcsr) (in32 x (x.reg a.toNat)) (in32 x (srcWord s.wft x b))) :=
  fpWord_writesFloat he fun _ => by rw [noteIssue_srcWord]

theorem fp64Bin_writesFloat64 {f : Nat → FVal → FVal → FRes} (he : exec e s = fp64Bin f d a b s) :
    Issues .fp64 ([two d, two a] ++ srcRegs2 b) (srcKs 2 b) s →
      ∃ t, exec e s = .next t ∧
        WritesFloat64 s t d fun _ x =>
          out64 x (f (fcsrRM x.fcsr) (in64 x (x.pair a.toNat)) (in64 x (srcPair s.wft x b))) :=
  fpPair_writesFloat64 he fun _ => by rw [noteIssue_srcPair]

theorem fp32Un_writesFloat {f : Nat → FVal → FRes} (he : exec e s = fp32Un f d a s) :
    Issues .fp32 [one d, one a] [] s →
      ∃ t, exec e s = .next t ∧
        WritesFloat s t d fun _ x => out32 x (f (fcsrRM x.fcsr) (in32 x (x.reg a.toNat))) :=
  fpWord_writesFloat he fun _ => rfl

theorem fp32MinMax_writesFloat {mx : Bool} (he : exec e s = fp32MinMax mx d a b s) :
    Issues .fp32 ([one d, one a] ++ srcRegs b) (srcKs 1 b) s →
      ∃ t, exec e s = .next t ∧
        WritesFloat s t d fun _ x =>
          fMinMax fp32 mx (flushIn fp32 (fcsrFTZ x.fcsr) (x.reg a.toNat).toNat)
            (flushIn fp32 (fcsrFTZ x.fcsr) (srcWord s.wft x b).toNat) :=
  fpWord_writesFloat he fun _ => by rw [noteIssue_srcWord]

theorem fp64MinMax_writesFloat64 {mx : Bool} (he : exec e s = fp64MinMax mx d a b s) :
    Issues .fp64 ([two d, two a] ++ srcRegs2 b) (srcKs 2 b) s →
      ∃ t, exec e s = .next t ∧
        WritesFloat64 s t d fun _ x =>
          fMinMax fp64 mx (flushIn fp64 (fcsrFTZ x.fcsr) (x.pair a.toNat).toNat)
            (flushIn fp64 (fcsrFTZ x.fcsr) (srcPair s.wft x b).toNat) :=
  fpPair_writesFloat64 he fun _ => by rw [noteIssue_srcPair]

theorem fp32Rel_writesFloat {r : FRel} (he : exec e s = fp32Rel r d a b s) :
    Issues .fp32 ([one d, one a] ++ srcRegs b) (srcKs 1 b) s →
      ∃ t, exec e s = .next t ∧
        WritesFloat s t d fun _ x => fRel r (in32 x (x.reg a.toNat)) (in32 x (srcWord s.wft x b)) :=
  fpWord_writesFloat he fun _ => by rw [noteIssue_srcWord]

theorem fp64Rel_writesFloat {r : FRel} (he : exec e s = fp64Rel r d a b s) :
    Issues .fp64 ([one d, two a] ++ srcRegs2 b) (srcKs 2 b) s →
      ∃ t, exec e s = .next t ∧
        WritesFloat s t d fun _ x => fRel r (in64 x (x.pair a.toNat)) (in64 x (srcPair s.wft x b)) :=
  fpWord_writesFloat he fun _ => by rw [noteIssue_srcPair]

theorem packed_writesFloat {f : Fmt} {op : FVal → FVal → FVal → FRes} (he : exec e s = packed f op d a b s) :
    Issues .fp64 ([one d, one a] ++ srcRegs b) (srcKs 1 b) s →
      ∃ t, exec e s = .next t ∧
        WritesFloat s t d fun _ x =>
          let r := fun i => op (half f (x.reg a.toNat) i) (half f (srcWord s.wft x b) i) (half f (x.reg d.toNat) i)
          ⟨(r 0).bits + (r 1).bits * 2 ^ 16, (r 0).flags ||| (r 1).flags⟩ :=
  fpWord_writesFloat he fun _ => by simp only [noteIssue_srcWord]; rfl

end

end Sys2Proof.Machine
end

section
/-!
The sign of an FP32 word, apart from its magnitude (R109), and the compares of a NaN (R108).
-/
namespace Sys2Proof.Machine
open Sys2Proof

/-! ## The sign bit -/

theorem exists_sign_append_magnitude (x : Word) : ∃ (n : BitVec 1) (m : BitVec 31), x = n ++ m :=
  ⟨x.extractLsb' 31 1, x.extractLsb' 0 31, (BitVec.extractLsb'_append_extractLsb' (len := 31) (x := x)).symm⟩

theorem toNat_sign_append (n : BitVec 1) (m : BitVec 31) : (n ++ m).toNat = n.toNat * 2 ^ 31 + m.toNat := by
  rw [BitVec.toNat_append, ← Nat.shiftLeft_add_eq_or_of_lt m.isLt, Nat.shiftLeft_eq]

theorem sign_append_eq_ofNat (n : BitVec 1) (m : BitVec 31) : n ++ m = BitVec.ofNat 32 (n.toNat * 2 ^ 31 + m.toNat) := by
  rw [← toNat_sign_append, BitVec.ofNat_toNat, BitVec.setWidth_eq]

theorem sign_append_mod (n : BitVec 1) (m : BitVec 31) : (n ++ m).toNat % 2 ^ 31 = m.toNat := by
  rw [toNat_sign_append, Nat.mul_add_mod_self_right, Nat.mod_eq_of_lt m.isLt]

theorem sign_append_div (n : BitVec 1) (m : BitVec 31) : (n ++ m).toNat / 2 ^ 31 = n.toNat := by
  rw [toNat_sign_append]
  have := m.isLt
  omega

theorem sign_append_and_magnitude (n : BitVec 1) (m : BitVec 31) : (n ++ m) &&& 0x7FFFFFFF = 0#1 ++ m := by
  rw [show (0x7FFFFFFF : Word) = 0#1 ++ BitVec.allOnes 31 from rfl, BitVec.and_append, BitVec.and_zero, BitVec.and_allOnes]

theorem sign_append_and_sign (n : BitVec 1) (m : BitVec 31) : (n ++ m) &&& 0x80000000 = n ++ 0#31 := by
  rw [show (0x80000000 : Word) = BitVec.allOnes 1 ++ 0#31 from rfl, BitVec.and_append, BitVec.and_zero, BitVec.and_allOnes]

/-- FABS clears the sign bit. -/
theorem and_magnitude_eq_ofNat (x : Word) : x &&& 0x7FFFFFFF = BitVec.ofNat 32 (x.toNat % 2 ^ 31) := by
  obtain ⟨n, m, rfl⟩ := exists_sign_append_magnitude x
  rw [sign_append_and_magnitude, sign_append_eq_ofNat, sign_append_mod, BitVec.toNat_ofNat, Nat.zero_mod, Nat.zero_mul,
    Nat.zero_add]

/-- FNEG turns the sign bit. -/
theorem xor_sign_eq_ofNat (x : Word) : x ^^^ 0x80000000 = BitVec.ofNat 32 (x.toNat + 2 ^ 31) := by
  obtain ⟨n, m, rfl⟩ := exists_sign_append_magnitude x
  rw [show (0x80000000 : Word) = 1#1 ++ 0#31 from rfl, BitVec.xor_append, BitVec.xor_zero, sign_append_eq_ofNat,
    toNat_sign_append]
  apply BitVec.eq_of_toNat_eq
  have flip : (n ^^^ 1#1).toNat = 1 - n.toNat := by revert n; decide
  have := n.isLt
  rw [BitVec.toNat_ofNat, BitVec.toNat_ofNat, flip]
  omega

/-- FCOPYSIGN puts the sign bit of one word above the magnitude of another. -/
theorem magnitude_or_sign_eq_ofNat (x y : Word) :
    (x &&& 0x7FFFFFFF) ||| (y &&& 0x80000000) = BitVec.ofNat 32 (x.toNat % 2 ^ 31 + y.toNat / 2 ^ 31 * 2 ^ 31) := by
  obtain ⟨n, m, rfl⟩ := exists_sign_append_magnitude x
  obtain ⟨n', m', rfl⟩ := exists_sign_append_magnitude y
  rw [sign_append_and_magnitude, sign_append_and_sign, BitVec.or_append, BitVec.zero_or, BitVec.or_zero,
    sign_append_eq_ofNat, sign_append_mod, sign_append_div, Nat.add_comm]

/-! ## A NaN among the operands of a compare -/

theorem fRel_of_nan {x y : FVal} (h : x.isNaN || y.isNaN) :
    (fRel .eq x y).bits = 0 ∧ (fRel .ne x y).bits = 0xFFFFFFFF ∧ fRel .lt x y = ⟨0, fNV⟩ ∧ fRel .le x y = ⟨0, fNV⟩ ∧
      (fRel .uno x y).bits = 0xFFFFFFFF := by
  simp only [fRel, h]
  exact ⟨rfl, rfl, rfl, rfl, rfl⟩

end Sys2Proof.Machine
end

section
/-!
The arithmetic, compares, bit operations and conversions of the floating-point formats (R71, R73, R75 to R79, R106 to R113,
R118). A `show` names the definition that gives an instruction its meaning.
-/
namespace Sys2Proof.Machine
open Sys2Proof

/-- Settles O14: each instruction of one shape by the lemma of the shape; the fused and the FP64 root forms by what each of
their lanes delivers. -/
theorem floatArithmeticResults : Obligations.FloatArithmeticResults := by
  unfold Obligations.FloatArithmeticResults
  refine ⟨fun s d a b => ⟨?bin32, ?fma32, ?un32⟩, fun s d a b => ⟨?bin64, ?fma64, ?sqrt64⟩⟩
  case bin32 =>
    refine fun e he => fp32Bin_writesFloat (f := e.2) ?_
    fin_cases he <;> rfl
  case fma32 =>
    exact fpWord_writesFloat (show exec (.ffma d a b) s = execFfma d a b s from rfl) fun _ => by
      rw [noteIssue_srcWord]
  case un32 =>
    refine fun e he => fp32Un_writesFloat (f := e.2) ?_
    fin_cases he <;> rfl
  case bin64 =>
    refine fun e he => fp64Bin_writesFloat64 (f := e.2) ?_
    fin_cases he <;> rfl
  case fma64 =>
    exact fpPair_writesFloat64 (show exec (.dfma d a b) s = execDfma d a b s from rfl) fun _ => by
      rw [noteIssue_srcPair]
  case sqrt64 => exact fpPair_writesFloat64 (show exec (.dsqrt d a) s = execDsqrt d a s from rfl) fun _ => rfl

/-- Settles O15: each instruction by the lemma of its shape; the bit operations by the sign and the magnitude of a word. -/
theorem floatCompareAndBitResults : Obligations.FloatCompareAndBitResults := by
  unfold Obligations.FloatCompareAndBitResults
  refine ⟨fun s d a b => ⟨?minMax32, ?minMax64, ?rel32, ?rel64, fun x y => fRel_of_nan⟩,
    fun s d a b => ⟨?bits, ?copysign, ?rint⟩⟩
  case minMax32 =>
    refine fun e he => fp32MinMax_writesFloat (mx := e.2) ?_
    fin_cases he <;> rfl
  case minMax64 =>
    refine fun e he => fp64MinMax_writesFloat64 (mx := e.2) ?_
    fin_cases he <;> rfl
  case rel32 =>
    refine fun e he => fp32Rel_writesFloat (r := e.2) ?_
    fin_cases he <;> rfl
  case rel64 =>
    refine fun e he => fp64Rel_writesFloat (r := e.2) ?_
    fin_cases he <;> rfl
  case bits =>
    simp only [List.forall_mem_cons, List.not_mem_nil, false_implies, implies_true, and_true]
    exact ⟨issueLanes_writesWord (show exec (.fabs d a) s = execFabs d a s from rfl) fun _ => by
        rw [and_magnitude_eq_ofNat],
      issueLanes_writesWord (show exec (.fneg d a) s = execFneg d a s from rfl) fun _ => by rw [xor_sign_eq_ofNat],
      issueLanes_writesWord (show exec (.fclass d a) s = execFclass d a s from rfl) fun _ => rfl⟩
  case copysign =>
    exact issueLanes_writesWord (show exec (.fcopysign d a b) s = execFcopysign d a b s from rfl) fun _ => by
      rw [noteIssue_srcWord, magnitude_or_sign_eq_ofNat]
  case rint => exact fpWord_writesFloat (show exec (.frint d a) s = execFrint d a s from rfl) fun _ => rfl

/-- Settles O16: all six are one shape. -/
theorem packedArithmeticResults : Obligations.PackedArithmeticResults := by
  unfold Obligations.PackedArithmeticResults
  refine fun s d a b e he => packed_writesFloat (f := e.2.1) (op := e.2.2) ?_
  fin_cases he <;> rfl

/-- Settles O17: each conversion by what a lane delivers, as a word or as a pair. -/
theorem conversionResults : Obligations.ConversionResults := by
  unfold Obligations.ConversionResults
  refine ⟨fun s d a => ⟨?wordOfWord, ?pairOfWord, ?wordOfPair, ?pairOfPair⟩,
    fun s d a b => ⟨?halves, ?half, ?byte, ?four⟩⟩
  case wordOfWord =>
    refine fun e he => fpWord_writesFloat (f := fun u l => e.2 (u.lane l) ((u.lane l).reg a.toNat)) ?_ fun _ => rfl
    fin_cases he <;> rfl
  case pairOfWord =>
    refine fun e he => fpPair_writesFloat64 (f := fun u l => e.2 (u.lane l) ((u.lane l).reg a.toNat)) ?_ fun _ => rfl
    fin_cases he <;> rfl
  case wordOfPair =>
    refine fun e he => fpWord_writesFloat (f := fun u l => e.2 (u.lane l) ((u.lane l).pair a.toNat)) ?_ fun _ => rfl
    fin_cases he <;> rfl
  case pairOfPair =>
    refine fun e he => fpPair_writesFloat64 (f := fun u l => e.2 (u.lane l) ((u.lane l).pair a.toNat)) ?_ fun _ => rfl
    fin_cases he <;> rfl
  case halves =>
    refine fun e he => fpWord_writesFloat (f := fun u l => pack2 (fConv e.2 0 (unpack fp32 ((u.lane l).reg a.toNat).toNat))
      (fConv e.2 0 (unpack fp32 (srcWord u.wft (u.lane l) b).toNat))) ?_ fun _ => by rw [noteIssue_srcWord]; rfl
    fin_cases he <;> rfl
  case half =>
    refine fun e he h => fpWord_writesFloat
      (f := fun u l => fConv fp32 0 (Machine.half e.2 ((u.lane l).reg a.toNat) h.toNat)) ?_ fun _ => rfl
    fin_cases he <;> rfl
  case byte =>
    refine fun e he h => fpWord_writesFloat
      (f := fun u l => fConv fp32 0 (unpack e.2 (((u.lane l).reg a.toNat).toNat / 2 ^ (8 * h.toNat) % 2 ^ 8))) ?_ fun _ => rfl
    fin_cases he <;> rfl
  case four =>
    refine fun e he => fpWord_writesFloat
      (f := fun u l => pack4 (e.2 (u.lane l)) ((u.lane l).pair a.toNat) (srcPair u.wft (u.lane l) b)) ?_ fun _ => by
        rw [noteIssue_srcPair]
    fin_cases he <;> rfl

end Sys2Proof.Machine
end

section
/-!
The values of the integer operations on words and pairs, over exact sums, products and quotients (R91 to R94, R98).
-/
namespace Sys2Proof.Machine
open Sys2Proof

/-! ## Sums and products (R91) -/

theorem add_eq_ofInt {w : Nat} (x y : BitVec w) : x + y = BitVec.ofInt w (x.toInt + y.toInt) := by
  rw [BitVec.ofInt_add, BitVec.ofInt_toInt, BitVec.ofInt_toInt]

theorem sub_eq_ofInt {w : Nat} (x y : BitVec w) : x - y = BitVec.ofInt w (x.toInt - y.toInt) := by
  have whole : BitVec.ofInt w (x.toInt - y.toInt) + BitVec.ofInt w y.toInt = x := by
    rw [← BitVec.ofInt_add, Int.sub_add_cancel, BitVec.ofInt_toInt]
  rwa [BitVec.ofInt_toInt, ← eq_sub_iff_add_eq, eq_comm] at whole

theorem mul_eq_ofInt {w : Nat} (x y : BitVec w) : x * y = BitVec.ofInt w (x.toInt * y.toInt) := by
  rw [BitVec.ofInt_mul, BitVec.ofInt_toInt, BitVec.ofInt_toInt]

theorem mul_add_eq_ofNat {w : Nat} (x y z : BitVec w) : x * y + z = BitVec.ofNat w (x.toNat * y.toNat + z.toNat) := by
  rw [BitVec.ofNat_add, BitVec.ofNat_mul]
  simp only [BitVec.ofNat_toNat, BitVec.setWidth_eq]

theorem mulWide_eq (x y : Word) : mulWide x y = BitVec.ofInt 64 (x.toInt * y.toInt) :=
  (BitVec.ofInt_mul _ _).symm

theorem mulWideN_eq (x y : Word) : mulWideN x y = BitVec.ofNat 64 (x.toNat * y.toNat) := by
  rw [mulWideN, BitVec.ofNat_mul, BitVec.ofNat_toNat, BitVec.ofNat_toNat]

/-- The high word of a pair, given as a whole number. -/
theorem extract_high_ofInt (z : Int) : (BitVec.ofInt 64 z).extractLsb' 32 32 = BitVec.ofInt 32 (z / 2 ^ 32) := by
  apply BitVec.eq_of_toNat_eq
  rw [BitVec.extractLsb'_toNat, BitVec.toNat_ofInt, BitVec.toNat_ofInt, Nat.shiftRight_eq_div_pow]
  omega

theorem extract_high_ofNat (n : Nat) : (BitVec.ofNat 64 n).extractLsb' 32 32 = BitVec.ofNat 32 (n / 2 ^ 32) := by
  rw [← BitVec.ofInt_natCast, extract_high_ofInt, ← BitVec.ofInt_natCast]; rfl

theorem mulHi_eq (x y : Word) : mulHi x y = BitVec.ofInt 32 (x.toInt * y.toInt / 2 ^ 32) := by
  rw [← extract_high_ofInt, ← mulWide_eq]; rfl

theorem mulHiN_eq (x y : Word) : mulHiN x y = BitVec.ofNat 32 (x.toNat * y.toNat / 2 ^ 32) := by
  rw [← extract_high_ofNat, ← mulWideN_eq]; rfl

theorem sat32_eq (z : Int) : sat32 z = BitVec.ofInt 32 (min (max z (-2 ^ 31)) (2 ^ 31 - 1)) := rfl

/-! ## The lesser and the greater (R92) -/

theorem minS_eq (x y : Word) : minS x y = BitVec.ofInt 32 (min x.toInt y.toInt) := by
  simp only [minS, BitVec.slt_iff_toInt_lt, min_def_lt, apply_ite (BitVec.ofInt 32), BitVec.ofInt_toInt]

theorem maxS_eq (x y : Word) : maxS x y = BitVec.ofInt 32 (max x.toInt y.toInt) := by
  simp only [maxS, BitVec.slt_iff_toInt_lt, max_def_lt, apply_ite (BitVec.ofInt 32), BitVec.ofInt_toInt]

theorem minU_eq (x y : Word) : minU x y = BitVec.ofNat 32 (min x.toNat y.toNat) := by
  simp only [minU, BitVec.ult_iff_toNat_lt, min_def_lt, apply_ite (BitVec.ofNat 32), BitVec.ofNat_toNat, BitVec.setWidth_eq]

theorem maxU_eq (x y : Word) : maxU x y = BitVec.ofNat 32 (max x.toNat y.toNat) := by
  simp only [maxU, BitVec.ult_iff_toNat_lt, max_def_lt, apply_ite (BitVec.ofNat 32), BitVec.ofNat_toNat, BitVec.setWidth_eq]

/-! ## Rotation and the shifts of a pair (R93, R94) -/

theorem rotlW_eq (x y : Word) : rotlW x y = (x ++ x : DWord).extractLsb' (32 - y.toNat % 32) 32 := by
  unfold rotlW
  have small : y.toNat % 32 < 32 := Nat.mod_lt _ (by decide)
  apply BitVec.eq_of_getLsbD_eq
  intro i hi
  rw [BitVec.getLsbD_rotateLeft, BitVec.getLsbD_extractLsb', BitVec.getLsbD_append, Nat.mod_mod]
  by_cases wraps : i < y.toNat % 32
  · rw [if_pos (by omega)]
    simp [wraps, hi]
  · rw [if_neg (by omega)]
    have : 32 - y.toNat % 32 + i - 32 = i - y.toNat % 32 := by omega
    simp [wraps, hi, this]

theorem shl64_eq (x : DWord) (y : Word) :
    shl64 x y = if y.toNat < 64 then BitVec.ofNat 64 (x.toNat * 2 ^ y.toNat) else 0 := by
  have moved : x <<< y.toNat = BitVec.ofNat 64 (x.toNat * 2 ^ y.toNat) := by
    apply BitVec.eq_of_toNat_eq
    rw [BitVec.toNat_shiftLeft, BitVec.toNat_ofNat, Nat.shiftLeft_eq]
  rw [shl64, moved]

theorem shrl64_eq (x : DWord) (y : Word) :
    shrl64 x y = if y.toNat < 64 then BitVec.ofNat 64 (x.toNat / 2 ^ y.toNat) else 0 := by
  have moved : x >>> y.toNat = BitVec.ofNat 64 (x.toNat / 2 ^ y.toNat) := by
    rw [← Nat.shiftRight_eq_div_pow, ← BitVec.toNat_ushiftRight, BitVec.ofNat_toNat, BitVec.setWidth_eq]
  rw [shrl64, moved]

theorem shra64_eq (x : DWord) (y : Word) :
    shra64 x y = if y.toNat < 64 then BitVec.ofInt 64 (x.toInt / 2 ^ y.toNat)
      else if x.msb then BitVec.allOnes 64 else 0 := by
  have moved : x.sshiftRight y.toNat = BitVec.ofInt 64 (x.toInt / 2 ^ y.toNat) := by
    rw [BitVec.sshiftRight, Int.shiftRight_eq_div_pow]; rfl
  rw [shra64, moved]

/-! ## Division (R98) -/

theorem iremW_eq (x y : Word) :
    iremW x y = if y = 0 then x else BitVec.ofInt 32 (x.toInt - x.toInt.tdiv y.toInt * y.toInt) := by
  rw [iremW, Int.tmod_def, Int.mul_comm]

theorem iremnW_eq (x y : Word) :
    iremnW x y = if y = 0 then x else BitVec.ofNat 32 (x.toNat - x.toNat / y.toNat * y.toNat) := by
  rw [iremnW, Nat.mod_eq_sub_div_mul]

end Sys2Proof.Machine
end

section
/-!
Bit fields and bit counts, bit by bit (R95 to R97).
-/
namespace Sys2Proof.Machine
open Sys2Proof

/-! ## Bit fields (R95, R96) -/

theorem bfPos_add_bfLen_le (y : Word) : bfPos y + bfLen y ≤ 32 := by
  have pos : bfPos y < 32 := Nat.mod_lt _ (by decide)
  unfold bfLen
  omega

/-- A number below `2 ^ n`, taken as a negative one of `n` bits, has ones from bit `n` upwards. -/
theorem getLsbD_ofInt_sub_two_pow {f n i : Nat} (small : f < 2 ^ n) (le : n ≤ 32) (hi : i < 32) :
    (BitVec.ofInt 32 (f - 2 ^ n)).getLsbD i = if i < n then f.testBit i else true := by
  have top : 2 ^ n * (2 ^ (32 - n) - 1) + 2 ^ n = 2 ^ 32 := by
    rw [← Nat.mul_succ, Nat.succ_eq_add_one, Nat.sub_add_cancel Nat.one_le_two_pow, ← Nat.pow_add, Nat.add_sub_cancel' le]
  have wraps : (f - 2 ^ n : Int) + 2 ^ 32 = (2 ^ n * (2 ^ (32 - n) - 1) + f : Nat) := by
    zify at top
    rw [Nat.cast_add, Nat.cast_mul, Nat.cast_pow, Nat.cast_ofNat]
    linarith
  have ones : BitVec.ofInt 32 (f - 2 ^ n) = BitVec.ofNat 32 (2 ^ n * (2 ^ (32 - n) - 1) + f) := by
    rw [← BitVec.ofInt_natCast, ← wraps, BitVec.ofInt_add, show BitVec.ofInt 32 (2 ^ 32) = 0 from rfl, add_zero]
  rw [ones, BitVec.getLsbD_ofNat, Nat.testBit_two_pow_mul_add _ small, Nat.testBit_two_pow_sub_one, decide_eq_true hi,
    Bool.true_and]
  split
  · rfl
  · exact decide_eq_true (by omega)

/-- The field of the word `x` that the control word `y` names. -/
def bfField (x y : Word) : Nat := x.toNat / 2 ^ bfPos y % 2 ^ bfLen y

theorem testBit_bfField (x y : Word) (i : Nat) :
    (bfField x y).testBit i = (decide (i < bfLen y) && x.getLsbD (bfPos y + i)) := by
  rw [bfField, Nat.testBit_mod_two_pow, Nat.testBit_div_two_pow, Nat.add_comm, BitVec.testBit_toNat]

/-- The bit that BFX puts above the field: its sign, where S asks for it (R96). -/
def bfSign (x y : Word) : Bool := y.getLsbD 16 && decide (0 < bfLen y) && x.getLsbD (bfPos y + bfLen y - 1)

theorem bfx_eq (x y : Word) :
    bfx x y = if bfSign x y then BitVec.ofInt 32 (bfField x y - 2 ^ bfLen y) else BitVec.ofNat 32 (bfField x y) := by
  have sign : (y.getLsbD 16 && decide (0 < bfLen y) && (bfField x y).testBit (bfLen y - 1)) = bfSign x y := by
    rw [bfSign, testBit_bfField]
    by_cases pos : 0 < bfLen y
    · rw [decide_eq_true (by omega : bfLen y - 1 < bfLen y), Bool.true_and, Nat.add_sub_assoc pos]
    · simp only [pos, decide_false, Bool.and_false, Bool.false_and]
  rw [← sign]
  rfl

/-- BFX takes the field, and above it its sign or zeros. -/
theorem getLsbD_bfx (x y : Word) {i : Nat} (hi : i < 32) :
    (bfx x y).getLsbD i = if i < bfLen y then x.getLsbD (bfPos y + i) else bfSign x y := by
  rw [bfx_eq]
  cases bfSign x y with
  | true =>
    have small : bfField x y < 2 ^ bfLen y := Nat.mod_lt _ (Nat.two_pow_pos _)
    have le := bfPos_add_bfLen_le y
    rw [if_pos rfl, getLsbD_ofInt_sub_two_pow small (by omega) hi, testBit_bfField]
    split
    · next inside => rw [decide_eq_true inside, Bool.true_and]
    · rfl
  | false =>
    rw [if_neg nofun, BitVec.getLsbD_ofNat, decide_eq_true hi, Bool.true_and, testBit_bfField]
    split
    · next inside => rw [decide_eq_true inside, Bool.true_and]
    · next outside => rw [decide_eq_false outside, Bool.false_and]

/-- BFI takes the bits of the field from the one word and keeps the other bits of the other. -/
theorem getLsbD_bfi (x y z : Word) {i : Nat} (hi : i < 32) :
    (bfi x y z).getLsbD i =
      if bfPos y ≤ i ∧ i < bfPos y + bfLen y then x.getLsbD (i - bfPos y) else z.getLsbD i := by
  have mask : (BitVec.ofNat 32 ((2 ^ bfLen y - 1) * 2 ^ bfPos y)).getLsbD i =
      decide (bfPos y ≤ i ∧ i < bfPos y + bfLen y) := by
    rw [BitVec.getLsbD_ofNat, Nat.testBit_mul_two_pow, Nat.testBit_two_pow_sub_one, decide_eq_true hi, Bool.true_and,
      ← Bool.decide_and]
    exact decide_eq_decide.mpr (by omega)
  unfold bfi
  rw [BitVec.getLsbD_or, BitVec.getLsbD_and, BitVec.getLsbD_and, BitVec.getLsbD_not, BitVec.getLsbD_shiftLeft, mask]
  by_cases inside : bfPos y ≤ i ∧ i < bfPos y + bfLen y
  · simp [inside, hi, Nat.not_lt.mpr inside.1]
  · simp [inside, hi]

/-! ## Bit counts (R97) -/

theorem popCount_eq (a n : Nat) : popCount a n = ((List.range n).filter a.testBit).length := by
  induction n with
  | zero => rfl
  | succ n ih =>
    rw [popCount, ih, List.range_succ, List.filter_append, List.length_append, Nat.add_comm]
    cases h : a.testBit n <;> simp [h]

theorem clzCount_zero (n : Nat) : clzCount 0 n = n := by
  induction n with
  | zero => rfl
  | succ n ih => rw [clzCount, Nat.zero_testBit, if_neg nofun, ih, Nat.add_comm]

/-- The zeros above the highest one, that one, and the bits below it are all the bits. -/
theorem clzCount_add_log2 {a : Nat} (ha : a ≠ 0) (n : Nat) (h : a < 2 ^ n) : clzCount a n + a.log2 + 1 = n := by
  induction n with
  | zero => omega
  | succ n ih =>
    rw [clzCount]
    split
    · next one =>
      have top : a.log2 = n := (Nat.log2_eq_iff ha).mpr ⟨Nat.ge_two_pow_of_testBit one, h⟩
      omega
    · next zero =>
      have below : a < 2 ^ n := by
        by_contra above
        exact zero (Nat.testBit_of_two_pow_le_and_two_pow_add_one_gt (Nat.le_of_not_lt above) h)
      have := ih below
      omega

/-- The result of CLZ (R97). -/
def clzWord (x : Word) : Word := BitVec.ofNat 32 (clzCount x.toNat 32)

theorem clzWord_zero : clzWord 0 = 32 := congrArg (BitVec.ofNat 32) (clzCount_zero 32)

/-- CLZ gives a count below 32 exactly where the highest one stands that far below bit 31. -/
theorem clzWord_eq_iff (x : Word) {n : Nat} (hn : n < 32) :
    clzWord x = BitVec.ofNat 32 n ↔ x.toNat.log2 = 31 - n ∧ x ≠ 0 := by
  have count : ∀ c ≤ 32, BitVec.ofNat 32 c = BitVec.ofNat 32 n ↔ c = n := fun c hc => by
    rw [← BitVec.toNat_inj, BitVec.toNat_ofNat, BitVec.toNat_ofNat]
    omega
  by_cases zero : x = 0
  · subst zero
    rw [clzWord_zero, show (32 : Word) = BitVec.ofNat 32 32 from rfl, count 32 le_rfl]
    exact iff_of_false hn.ne' fun h => h.2 rfl
  · have split := clzCount_add_log2 (fun h => zero (BitVec.eq_of_toNat_eq h)) 32 x.isLt
    rw [clzWord, count _ (by omega)]
    exact ⟨fun h => ⟨by omega, zero⟩, fun h => by omega⟩

theorem revBits_lt (a n : Nat) : revBits a n < 2 ^ n := by
  induction n with
  | zero => exact Nat.one_pos
  | succ n ih =>
    rw [revBits, Nat.pow_succ]
    split <;> omega

theorem testBit_revBits (a : Nat) {n i : Nat} (h : i < n) : (revBits a n).testBit i = a.testBit (31 - i) := by
  induction n with
  | zero => exact nomatch h
  | succ n ih =>
    have top : revBits a (n + 1) = 2 ^ n * (a.testBit (31 - n)).toNat + revBits a n := by
      cases bit : a.testBit (31 - n) <;> simp [revBits, bit]
    rw [top, Nat.testBit_two_pow_mul_add _ (revBits_lt a n)]
    split
    · next below => exact ih below
    · next last =>
      obtain rfl : i = n := by omega
      cases a.testBit (31 - i) <;> simp

/-- The result of BREV (R97). -/
def brevWord (x : Word) : Word := BitVec.ofNat 32 (revBits x.toNat 32)

theorem getLsbD_brevWord (x : Word) {i : Nat} (hi : i < 32) : (brevWord x).getLsbD i = x.getLsbD (31 - i) := by
  rw [brevWord, BitVec.getLsbD_ofNat, testBit_revBits _ hi, decide_eq_true hi, Bool.true_and, BitVec.testBit_toNat]

end Sys2Proof.Machine
end

section
/-!
The shapes of the integer instructions that have a word of their own: what each lane writes, by the value of the
operation (R50, R87, R90, R97).
-/
namespace Sys2Proof.Machine
open Sys2Proof

/-! ## The operation number of a word, and the words without vb (R46, R51) -/

theorem op6_of_wordAluA {i : Instr} {op : Nat} {d a : VReg} {b : Src} (word : encode i = wordAluA op d a b)
    (small : op < 64 := by decide) : encode i / 2 ^ 5 % 64 = op := by
  have code : ∃ r, b.code = r * 2 ^ 25 ∨ b.code = r * 2 ^ 25 + 16 := by
    cases b with
    | v r => exact ⟨r.toNat, .inl rfl⟩
    | k r => exact ⟨r.toNat, .inr rfl⟩
  rw [word, wordAluA]
  omega

/-- The word of an instruction that reads one register: vb and K are 0 (R51). -/
theorem wordAluBSel_zero (op : Nat) (d a : VReg) :
    wordAluBSel op d a 0 = 3 + op * 2 ^ 5 + d.toNat * 2 ^ 11 + a.toNat * 2 ^ 18 := by
  rw [wordAluBSel, Nat.zero_mul, Nat.add_zero]

/-! ## The shapes (R50, R90, R97) -/

section
variable {s : State} {i : Instr} {d a : VReg} {b : Src}

/-- An instruction whose every lane delivers a pair and sets no flag. -/
theorem issueLanes_writesPair {c : IClass} {rs ks : List Regs} {f : State → Nat → DWord} {w : Nat → Thread → DWord}
    (he : exec i s = issueLanes c rs ks (fun u l => .next ((u.lane l).setPair d.toNat (f u l))) s)
    (h : ∀ l, f (noteIssue s) l = w l ((noteIssue s).lane l)) (hi : Issues c rs ks s) :
    ∃ t, exec i s = .next t ∧ WritesPair s t d w := by
  rw [he]
  exact issueLanes_past hi fun l => by rw [h l]

theorem aluWord_writes {w : Word → Word → Word} (he : exec i s = aluWord w .integer d a b s) :
    Issues .integer ([one d, one a] ++ srcRegs b) (srcKs 1 b) s →
      ∃ t, exec i s = .next t ∧ WritesWord s t d fun _ x => w (x.reg a.toNat) (srcWord s.wft x b) :=
  issueLanes_writesWord he fun _ => by rw [noteIssue_srcWord]

theorem aluAccum_writes {w : Word → Word → Word → Word} (he : exec i s = aluAccum w .integer d a b s) :
    Issues .integer ([one d, one a] ++ srcRegs b) (srcKs 1 b) s →
      ∃ t, exec i s = .next t ∧
        WritesWord s t d fun _ x => w (x.reg a.toNat) (srcWord s.wft x b) (x.reg d.toNat) :=
  issueLanes_writesWord he fun _ => by rw [noteIssue_srcWord]

theorem aluUnary_writes {w : Word → Word} (he : exec i s = aluUnary w d a s) :
    Issues .integer [one d, one a] [] s →
      ∃ t, exec i s = .next t ∧ WritesWord s t d fun _ x => w (x.reg a.toNat) :=
  issueLanes_writesWord he fun _ => rfl

theorem aluPair_writes {w : DWord → DWord → DWord} (he : exec i s = aluPair w .integer d a b s) :
    Issues .integer ([two d, two a] ++ srcRegs2 b) (srcKs 2 b) s →
      ∃ t, exec i s = .next t ∧ WritesPair s t d fun _ x => w (x.pair a.toNat) (srcPair s.wft x b) :=
  issueLanes_writesPair he fun _ => by rw [noteIssue_srcPair]

theorem aluWide_writes {w : Word → Word → DWord} (he : exec i s = aluWide w d a b s) :
    Issues .integer ([two d, one a] ++ srcRegs b) (srcKs 1 b) s →
      ∃ t, exec i s = .next t ∧ WritesPair s t d fun _ x => w (x.reg a.toNat) (srcWord s.wft x b) :=
  issueLanes_writesPair he fun _ => by rw [noteIssue_srcWord]

theorem aluShift64_writes {w : DWord → Word → DWord} (he : exec i s = aluShift64 w d a b s) :
    Issues .integer ([two d, two a] ++ srcRegs b) (srcKs 1 b) s →
      ∃ t, exec i s = .next t ∧ WritesPair s t d fun _ x => w (x.pair a.toNat) (srcWord s.wft x b) :=
  issueLanes_writesPair he fun _ => by rw [noteIssue_srcWord]

end

/-! ## A shape, by the values of its operation -/

section
variable {s : State} {d a : VReg} {b : Src}

theorem aluWord_congr {f w : Word → Word → Word} (value : ∀ x y, f x y = w x y) :
    aluWord f .integer d a b s = aluWord w .integer d a b s := by rw [funext₂ value]

theorem aluAccum_congr {f w : Word → Word → Word → Word} (value : ∀ x y z, f x y z = w x y z) :
    aluAccum f .integer d a b s = aluAccum w .integer d a b s := by rw [funext₃ value]

theorem aluUnary_congr {f w : Word → Word} (value : ∀ x, f x = w x) : aluUnary f d a s = aluUnary w d a s := by
  rw [funext value]

theorem aluPair_congr {f w : DWord → DWord → DWord} (value : ∀ x y, f x y = w x y) :
    aluPair f .integer d a b s = aluPair w .integer d a b s := by rw [funext₂ value]

theorem aluWide_congr {f w : Word → Word → DWord} (value : ∀ x y, f x y = w x y) :
    aluWide f d a b s = aluWide w d a b s := by rw [funext₂ value]

theorem aluShift64_congr {f w : DWord → Word → DWord} (value : ∀ x y, f x y = w x y) :
    aluShift64 f d a b s = aluShift64 w d a b s := by rw [funext₂ value]

end

end Sys2Proof.Machine
end

section
/-!
The integer arithmetic of the lanes (R91 to R98). The meaning of each instruction is one of the shapes by `rfl`.
-/
namespace Sys2Proof.Machine
open Sys2Proof

/-- Settles O8: the operation number by the word, and each shape by the exact sum or product. -/
theorem additiveAndMultiplicativeResults : Obligations.AdditiveAndMultiplicativeResults := by
  unfold Obligations.AdditiveAndMultiplicativeResults
  refine fun s d a b => ⟨fun e he => ⟨?op6, aluWord_writes (w := e.2.2) ?words⟩,
    ⟨op6_of_wordAluA rfl, aluAccum_writes (w := fun x y z => BitVec.ofNat 32 (x.toNat * y.toNat + z.toNat)) ?imad⟩,
    fun e he => ⟨?op6Pair, aluPair_writes (w := e.2.2) ?pairs⟩, fun e he => ⟨?op6Wide, aluWide_writes (w := e.2.2) ?wide⟩⟩
  case op6 | op6Pair | op6Wide => fin_cases he <;> exact op6_of_wordAluA rfl
  case words =>
    fin_cases he
    · exact aluWord_congr add_eq_ofInt
    · exact aluWord_congr sub_eq_ofInt
    · exact aluWord_congr mul_eq_ofInt
    · exact aluWord_congr mulHi_eq
    · exact aluWord_congr mulHiN_eq
    · exact aluWord_congr (f := fun x y => sat32 (x.toInt + y.toInt)) fun _ _ => sat32_eq _
    · exact aluWord_congr (f := fun x y => sat32 (x.toInt - y.toInt)) fun _ _ => sat32_eq _
  case imad => exact aluAccum_congr (f := fun x y z => x * y + z) mul_add_eq_ofNat
  case pairs =>
    fin_cases he
    · exact aluPair_congr add_eq_ofInt
    · exact aluPair_congr sub_eq_ofInt
  case wide =>
    fin_cases he
    · exact aluWide_congr mulWide_eq
    · exact aluWide_congr mulWideN_eq

/-- Settles O9: a minimum or maximum is one of its operands, and a compare the mask of its relation. -/
theorem compareAndSelectResults : Obligations.CompareAndSelectResults := by
  unfold Obligations.CompareAndSelectResults
  refine fun s d a b => ⟨fun e he => ⟨?op6, aluWord_writes (w := e.2.2) ?words⟩, op6_of_wordAluA rfl,
    aluAccum_writes (w := fun x y z => if z ≠ 0 then x else y) ?sel⟩
  case op6 => fin_cases he <;> exact op6_of_wordAluA rfl
  case words =>
    fin_cases he
    · exact aluWord_congr minS_eq
    · exact aluWord_congr maxS_eq
    · exact aluWord_congr minU_eq
    · exact aluWord_congr maxU_eq
    · exact aluWord_congr (f := fun x y => mask32 (x == y)) fun _ _ => mask32_eq_ite beq_iff_eq
    · exact aluWord_congr (f := fun x y => mask32 (x != y)) fun _ _ => mask32_eq_ite_not bne_iff_ne
    · exact aluWord_congr (f := fun x y => mask32 (x.slt y)) fun _ _ => mask32_eq_ite BitVec.slt_iff_toInt_lt
    · exact aluWord_congr (f := fun x y => mask32 (x.sle y)) fun _ _ => mask32_eq_ite BitVec.sle_iff_toInt_le
    · exact aluWord_congr (f := fun x y => mask32 (x.ult y)) fun _ _ => mask32_eq_ite BitVec.ult_iff_toNat_lt
    · exact aluWord_congr (f := fun x y => mask32 (x.ule y)) fun _ _ => mask32_eq_ite BitVec.ule_iff_le
  case sel => exact aluAccum_congr (f := fun x y z => if z = 0 then y else x) fun _ _ _ => (ite_not ..).symm

/-- Settles O10: a shift by its count, of a word or a pair; the logical operations are the model's own. -/
theorem logicAndShiftResults : Obligations.LogicAndShiftResults := by
  unfold Obligations.LogicAndShiftResults
  refine ⟨fun s d a b e he => ⟨?op6, aluWord_writes (w := e.2.2) ?words⟩,
    fun s d a b e he => ⟨?op6Pair, aluShift64_writes (w := e.2.2) ?pairs⟩⟩
  case op6 | op6Pair => fin_cases he <;> exact op6_of_wordAluA rfl
  case words =>
    fin_cases he
    · rfl
    · rfl
    · rfl
    · rfl
    · exact aluWord_congr shlW_eq
    · exact aluWord_congr shrlW_eq
    · exact aluWord_congr shraW_eq
    · exact aluWord_congr rotlW_eq
  case pairs =>
    fin_cases he
    · exact aluShift64_congr shl64_eq
    · exact aluShift64_congr shrl64_eq
    · exact aluShift64_congr shra64_eq

/-- Settles O11: the bit-field instructions bit by bit, and each count by the recursion of its definition. -/
theorem bitFieldAndBitCountResults : Obligations.BitFieldAndBitCountResults := by
  unfold Obligations.BitFieldAndBitCountResults
  refine ⟨fun s d a b hi => ⟨?bfx, ?bfi⟩, fun s d a => ⟨fun e he => ?words, fun hi => ⟨?popc, ?clz, ?brev⟩⟩⟩
  case bfx =>
    obtain ⟨t, next, writes⟩ := aluWord_writes (w := bfx) (show exec (.bfx d a b) s = execBfx d a b s from rfl) hi
    exact ⟨t, bfx, next, writes, fun x y _ => getLsbD_bfx x y⟩
  case bfi =>
    obtain ⟨t, next, writes⟩ := aluAccum_writes (w := bfi) (show exec (.bfi d a b) s = execBfi d a b s from rfl) hi
    exact ⟨t, bfi, next, writes, fun x y z _ => getLsbD_bfi x y z⟩
  case words => fin_cases he <;> exact wordAluBSel_zero _ d a
  case popc =>
    exact aluUnary_writes (w := fun x => BitVec.ofNat 32 ((List.range 32).filter fun i => x.getLsbD i).length)
      (aluUnary_congr (f := fun x => BitVec.ofNat 32 (popCount x.toNat 32)) fun x =>
        congrArg (BitVec.ofNat 32) (popCount_eq x.toNat 32)) hi
  case clz =>
    obtain ⟨t, next, writes⟩ := aluUnary_writes (w := clzWord) (show exec (.clz d a) s = execClz d a s from rfl) hi
    exact ⟨t, clzWord, next, writes, clzWord_zero, fun x _ => clzWord_eq_iff x⟩
  case brev =>
    obtain ⟨t, next, writes⟩ := aluUnary_writes (w := brevWord) (show exec (.brev d a) s = execBrev d a s from rfl) hi
    exact ⟨t, brevWord, next, writes, fun x _ => getLsbD_brevWord x⟩

/-- Settles O12: the quotients are the model's own, and a remainder is the dividend less quotient times divisor. -/
theorem divisionResults : Obligations.DivisionResults := by
  unfold Obligations.DivisionResults
  refine fun s d a b e he => aluWord_writes (w := e.2) ?words
  fin_cases he
  · rfl
  · exact aluWord_congr iremW_eq
  · rfl
  · exact aluWord_congr iremnW_eq

end Sys2Proof.Machine
end

section
/-!
RDCYC and MOVSR: what a special register reads is the same before and after the record of the issue (R125, R135, R155,
R156, R172).
-/
namespace Sys2Proof.Machine
open Sys2Proof

/-! ## What the record of an issue leaves of the core and the special registers (R125, R156) -/

@[simp] theorem noteIssue_core (s : State) (c : Nat) : (noteIssue s).core c = s.core c := by
  simp only [State.core, noteIssue_cores]

@[simp] theorem noteIssue_coreName (s : State) (c : Nat) : (noteIssue s).coreName c = s.coreName c := by
  simp only [State.coreName, noteIssue_core]

@[simp] theorem noteIssue_virtualDomain (s : State) (vi dom : Nat) :
    (noteIssue s).virtualDomain vi dom = s.virtualDomain vi dom := by
  simp only [State.virtualDomain, State.viface, noteIssue_vis]

@[simp] theorem noteIssue_grid (s : State) (g : Nat) : (noteIssue s).grid g = s.grid g := by
  simp only [State.grid, noteIssue_grids]

@[simp] theorem noteIssue_block_lin (s : State) (b : Nat) : ((noteIssue s).block b).lin = (s.block b).lin := by
  obtain ⟨n, h⟩ := noteIssue_block s b; rw [h]

@[simp] theorem noteIssue_block_phase (s : State) (b : Nat) : ((noteIssue s).block b).phase = (s.block b).phase := by
  obtain ⟨n, h⟩ := noteIssue_block s b; rw [h]

@[simp] theorem noteIssue_weft_role (s : State) (b w : Nat) : ((noteIssue s).weft b w).role = (s.weft b w).role := by
  obtain ⟨i, j, k, h⟩ := noteIssue_weft s b w; rw [h]

@[simp] theorem specialReg_noteIssue (s : State) (l id : Nat) : specialReg (noteIssue s) l id = specialReg s l id := by
  simp only [specialReg, noteIssue_iss, noteIssue_launch, noteIssue_block_lin, noteIssue_block_core, noteIssue_block_gid,
    noteIssue_block_stage, noteIssue_block_phase, noteIssue_grid, noteIssue_coreName, noteIssue_virtualDomain,
    noteIssue_weft_role]

/-! ## The obligation -/

/-- Settles O24: the lanes write what the core and the special registers hold before the issue, number by number. -/
theorem cycleCounterAndSpecialRegisters : Obligations.CycleCounterAndSpecialRegisters := by
  unfold Obligations.CycleCounterAndSpecialRegisters
  intro s d b k
  refine ⟨issueLanes_writesPair (show exec (.rdcyc d) s = execRdcyc d s from rfl) fun _ => ?cycle, fun id hi => ?special⟩
  case cycle => simp only [noteIssue_iss, noteIssue_block_core, noteIssue_core, b]
  case special =>
    obtain ⟨t, next, writes⟩ := issueLanes_writesWord (w := fun l _ => BitVec.ofNat 32 (specialReg s l id.toNat))
      (show exec (.movsr d id) s = execMovsr d id s from rfl) (fun l => by rw [specialReg_noteIssue]) hi
    refine ⟨t, fun l => specialReg s l id.toNat, next, writes, fun l e he number => ?_⟩
    rw [number]
    fin_cases he <;> rfl

end Sys2Proof.Machine
end

section
/-!
Prefetches: a lane that has eight held operations holds one back, as it does any memory instruction (R131, R142, R377).
-/
namespace Sys2Proof.Machine
open Sys2Proof

/-- An instruction that acts on lanes alone does not touch the mark of a stall. -/
theorem LanesDo.stalled {s t : State} {f : Nat → Thread → Thread} (h : LanesDo s t f) : t.stalled = s.stalled :=
  (congrArg State.stalled h.2.2).trans (noteIssue_stalled s)

/-- A prefetch waits, without change, for a lane that has eight held operations (R142, R377). -/
theorem prefetchIssue_stalls {s : State} {a : Access} {base : VReg} {imm l : Nat} (formed : FormedSet s)
    (allowed : Allowed (fun k => k.permits .memory) [two base] s) (hl : l ∈ s.iss.lanes) (full : heldFull s l = true) :
    prefetchIssue a base imm s = .next { s with stalled := true } := by
  have some : s.iss.lanes.any (heldFull s) = true := List.any_eq_true.mpr ⟨l, hl, full⟩
  exact issue_stall formed.1 (preCond_none allowed) (by rw [some, Bool.or_true, Bool.true_or]) _

theorem exec_pfg (a : VReg) (p : Policy) (s : State) :
    exec (.pfg a p) s = prefetchIssue { space := .global, policy := p } a 0 s := rfl

/-- A load of a word to v`d` in lane 0, that awaits its translation. -/
def heldLoad (d : Nat) : MemOp :=
  { acc := { fn := .load, size := 4, dest := d }, lanes := [{ lane := 0, addr := 0x30000 }], issue := 1 }

/-- Lane 0 of a GENERAL weft at issue, with eight held loads, to v8 to v15. -/
def eightHeldLoads : State where
  grids := [(0, { stages := [{ ntid := (1, 1, 1), roles := [{ regs := 128 }] }] })]
  blocks := [(0, { bst := .resident })]
  wefts := [(0, { wst := .active, ld := (List.range 8).map fun n => { op := n } })]
  threads := [(0, { tst := .run })]
  ops := (List.range 8).map fun n => (n, heldLoad (8 + n))
  nextOp := 8
  iss := { lanes := [0] }

/-- Refutes O33: its clause about prefetches does not ask that no lane have eight held operations, with which a
prefetch waits at issue (R377); here PFG by lane 0, whose address in v2 is 0, after eight held loads. -/
theorem not_accessesIssue : ¬ Obligations.AccessesIssue := by
  unfold Obligations.AccessesIssue
  intro h
  obtain ⟨-, -, accesses⟩ := h
  obtain ⟨-, -, prefetches⟩ := accesses eightHeldLoads 0 2 0 .rlx .normal
  obtain ⟨t, u, issued, lanes, left⟩ := prefetches _ List.mem_cons_self (by decide) (by decide)
  have waits : exec (.pfg 2 .normal) eightHeldLoads = .next { eightHeldLoads with stalled := true } :=
    (exec_pfg ..).trans (prefetchIssue_stalls (l := 0) (by decide) (by decide) List.mem_cons_self (by decide))
  have stalled : t.stalled = true := by
    cases issued.symm.trans waits
    rfl
  have goesOn : t.stalled = u.stalled := by
    rw [left]
    split <;> rfl
  rw [goesOn, lanes.stalled] at stalled
  exact absurd stalled (by decide)

end Sys2Proof.Machine
end

section
/-!
The issue set of a stream and the record of its issue (R141, R143, R144, R385).
-/
namespace Sys2Proof.Machine
open Sys2Proof

/-! ## The record of an issue (R143, R144, R385) -/

theorem mem_maskLanes {m l : Nat} : l ∈ maskLanes m ↔ l < 32 ∧ m.testBit l = true := by
  simp only [maskLanes, List.mem_filter, List.mem_range]

theorem nodup_maskLanes (m : Nat) : (maskLanes m).Nodup := List.nodup_range.filter _

/-- A table's entry decides what the home reads. -/
theorem State.thread_congr {s t : State} {b w l : Nat}
    (h : Sp.find? t.threads (tkey b w l) = Sp.find? s.threads (tkey b w l)) : t.thread b w l = s.thread b w l := by
  simp only [State.thread, Sp.get, h]

theorem clearDeliver_other (s : State) {k : Nat} (hk : ∀ l ∈ maskLanes s.iss.deliver, k ≠ tkey s.iss.blk s.iss.weft l) :
    Sp.find? (clearDeliver s).threads k = Sp.find? s.threads k := by
  rw [clearDeliver_eq]
  exact setLanes_other _ _ _ _ _ _ hk

/-- A lane that issues under DELIVER stands under it no longer (R385). -/
theorem clearDeliver_lane (s : State) {l : Nat} (hl : l < 32) :
    (clearDeliver s).thread s.iss.blk s.iss.weft l =
      { s.lane l with deliver := (s.lane l).deliver && !s.iss.deliver.testBit l } := by
  cases hd : s.iss.deliver.testBit l with
  | true =>
    rw [clearDeliver_eq, setLanes_lane _ _ _ _ _ (nodup_maskLanes _) (fun l => { s.lane l with deliver := false })
      (fun l _ u _ hu => by rw [hu]; rfl) l (mem_maskLanes.mpr ⟨hl, hd⟩)]
    simp
  | false =>
    have off : ∀ j ∈ maskLanes s.iss.deliver, tkey s.iss.blk s.iss.weft l ≠ tkey s.iss.blk s.iss.weft j := by
      intro j hj same
      rw [(tkey_lane _ _ _ _).mp same, (mem_maskLanes.mp hj).2] at hd
      exact absurd hd (by decide)
    rw [State.thread_congr (clearDeliver_other s off)]
    simp [State.lane]

/-- Settles O55: the DELIVER marks by `clearDeliver_lane`; the weft and the block are written at their own keys. -/
theorem issueRecordedFrame : Obligations.IssueRecordedFrame := by
  unfold Obligations.IssueRecordedFrame
  intro s t
  have weft : ∀ b w, (clearDeliver s).weft b w = s.weft b w := fun b w => by simp only [State.weft, clearDeliver_wefts]
  have block : ∀ b, (clearDeliver s).block b = s.block b := fun b => by simp only [State.block, clearDeliver_blocks]
  refine ⟨?rest, fun l hl => clearDeliver_lane s hl, ?threads, ?weft, ?wefts, ?block, ?blocks⟩
  case rest =>
    simp [t, noteIssue, State.setWeft, State.setBlock]
  case threads => exact fun k hk => clearDeliver_other s fun l hl => hk l (mem_maskLanes.mp hl).1
  case weft => simp [t, noteIssue, State.wft, weft]
  case wefts =>
    intro k hk
    simp [t, noteIssue, State.setWeft, Sp.find_put, hk]
  case block => simp [t, noteIssue, block]
  case blocks =>
    intro k hk
    simp [t, noteIssue, State.setBlock, Sp.find_put, hk]

/-! ## The issue set (R141, R143) -/

/-- Lane 0 of a weft in RUN, which waits for its FENCE and issues nothing until that ends (R253). -/
def fencedLane : State where
  wefts := [(0, { wst := .active })]
  threads := [(0, { tst := .run, hold := some 0 })]
  ops := [(0, { kind := .fence .acqrel .dom, issue := 1 })]
  nextOp := 1

/-- Refutes O54: a lane that waits for a FENCE issues nothing (R253), so its group is no issue set, though no lane of the
stream awaits a RET. -/
theorem not_issueSetIsTheLowestGroup : ¬ Obligations.IssueSetIsTheLowestGroup := by
  unfold Obligations.IssueSetIsTheLowestGroup
  intro h
  obtain ⟨none_iff, -⟩ := h fencedLane 0 0 false
  have none : issueSet fencedLane 0 0 false = none := by decide
  have running : (fencedLane.thread 0 0 0).tst = .run := rfl
  have noRet : ∀ l < 32, awaitsRet fencedLane 0 0 l = false := by decide
  rcases none_iff.mp none with noLane | ⟨l, ⟨hl, -⟩, awaits⟩
  · exact noLane 0 ⟨by decide, running⟩
  · rw [noRet l hl] at awaits
    exact absurd awaits (by decide)

end Sys2Proof.Machine
end

section
/-!
The uniform instructions: one result for the issue set, written to the weft (R148, R167 to R169).
-/
namespace Sys2Proof.Machine
open Sys2Proof

/-! ## One result for the issue set (R167) -/

section
variable {s : State} {ks : List Regs} {d a b : KReg}

/-- The weft is written, and then every lane of the issue set goes on. -/
theorem weftDoes_advanceAll (formed : FormedSet s) (w : Weft) :
    WeftDoes s (advanceAll ((noteIssue s).setWeft s.iss.blk s.iss.weft w)) w := by
  obtain ⟨lanes, others, rest⟩ :=
    advanceAll_spec (s := s) (u := (noteIssue s).setWeft s.iss.blk s.iss.weft w) (by simp) formed.nodup
  exact ⟨fun l hl => by rw [lanes l hl, State.setWeft_thread_home], others, rest⟩

/-- An instruction that executes once leaves the weft as `f` says of the state with the issue recorded. -/
theorem issueOnce_weftDoes {i : Instr} {rs : List Regs} {f : State → Weft} {w : Weft}
    (he : exec i s = issueOnce rs ks f s) (hi : Issues .integer rs ks s) (h : f (noteIssue s) = w) :
    ∃ t, exec i s = .next t ∧ WeftDoes s t w :=
  he ▸ h ▸ issueOnce_spec hi

/-- The form of two uniform operands writes the value `w` of its operation (R168). -/
theorem uniWord_weftDoes {i : Instr} {w : Word → Word → Word} (he : exec i s = uniWord w d a b s)
    (hi : Issues .integer [] [(d.toNat, 1), (a.toNat, 1), (b.toNat, 1)] s) :
    ∃ t, exec i s = .next t ∧
      WeftDoes s t ((noteIssue s).wft.setK d.toNat (w (s.wft.kreg a.toNat) (s.wft.kreg b.toNat))) := by
  exact issueOnce_weftDoes he hi (by rw [noteIssue_wft_kreg, noteIssue_wft_kreg])

theorem uniWord_congr {f w : Word → Word → Word} (value : ∀ x y, f x y = w x y) :
    uniWord f d a b s = uniWord w d a b s := by rw [funext₂ value]

/-- KMOVV reads the lowest lane of the issue set (R168). -/
theorem execKmovv_weftDoes {v : VReg} {l : Nat} (lowest : s.iss.lanes.head? = some l)
    (hi : Issues .integer [] [(d.toNat, 1)] s) (allowed : Allowed (fun k => k.permits .integer) [one v] s)
    (ready : laneBusy s s.iss.blk s.iss.weft l [one v] = false) :
    ∃ t, execKmovv d v s = .next t ∧ WeftDoes s t ((noteIssue s).wft.setK d.toNat ((s.lane l).reg v.toNat)) := by
  obtain ⟨formed, -, free, clean⟩ := hi
  have head : s.iss.lanes.headD 0 = l := by rw [List.headD_eq_head?_getD, lowest, Option.getD_some]
  refine ⟨_, issue_body formed.1 (preCond_none allowed) (by rw [head, free, ready, Bool.or_self]) clean _, ?_⟩
  simp only [noteIssue_iss, head, noteIssue_lane_reg]
  exact weftDoes_advanceAll formed _

/-! ## The constant bank (R169) -/

theorem kldcbOffset_noteIssue (i : BitVec 11) : kldcbOffset (noteIssue s) a i = kldcbOffset s a i := by
  simp only [kldcbOffset, noteIssue_wft_kreg]

theorem execKldcb_weftDoes {i : BitVec 11} (hi : Issues .integer [] [(d.toNat, 1), (a.toNat, 1)] s)
    (aligned : kldcbOffset s a i % 4 = 0) :
    ∃ t, execKldcb d a i s = .next t ∧ WeftDoes s t ((noteIssue s).wft.setK d.toNat
      (BitVec.ofNat 32 ((s.launch s.iss.blk).bank.read (kldcbOffset s a i) 4))) := by
  obtain ⟨formed, allowed, free, clean⟩ := hi
  refine ⟨_, issue_body formed.1 (preCond_none allowed) free clean _, ?_⟩
  simp only [kldcbOffset_noteIssue, aligned, noteIssue_iss, noteIssue_launch, bne_self_eq_false, Bool.false_eq_true, if_false]
  exact weftDoes_advanceAll formed _

theorem execKldcb_trap {i : BitVec 11} (hi : Issues .integer [] [(d.toNat, 1), (a.toNat, 1)] s)
    (unaligned : kldcbOffset s a i % 4 ≠ 0) :
    execKldcb d a i s = .next (trapAll (noteIssue s) { cause := .misalign, addr := kldcbOffset s a i, info := 4 }) := by
  obtain ⟨formed, allowed, free, clean⟩ := hi
  refine (issue_body formed.1 (preCond_none allowed) free clean _).trans ?_
  simp only [kldcbOffset_noteIssue, bne_iff_ne.mpr unaligned, if_true]

end

/-- A field above the low `m` bits of a word, as KLIH puts its immediate (R168). -/
theorem append_extract_low_eq_ofNat {n m k : Nat} (i : BitVec n) (x : BitVec k) :
    i ++ x.extractLsb' 0 m = BitVec.ofNat (n + m) (i.toNat * 2 ^ m + x.toNat % 2 ^ m) := by
  have value : (i ++ x.extractLsb' 0 m).toNat = i.toNat * 2 ^ m + x.toNat % 2 ^ m := by
    rw [BitVec.toNat_append, BitVec.extractLsb'_toNat, Nat.shiftRight_zero,
      ← Nat.shiftLeft_add_eq_or_of_lt (Nat.mod_lt _ (Nat.two_pow_pos m)), Nat.shiftLeft_eq]
  rw [← value, BitVec.ofNat_toNat, BitVec.setWidth_eq]

/-- Settles O19: each two-operand form by the value of its operation, and each other form as an issue that executes
once. -/
theorem uniformResults : Obligations.UniformResults := by
  unfold Obligations.UniformResults
  intro s d a b w
  refine ⟨fun e he => uniWord_weftDoes (w := e.2) ?words, fun hi => ?sel, fun hi => ?add64, fun i hi => ?addi,
    fun i hi => ⟨?li, ?lih⟩, fun v l => execKmovv_weftDoes, fun i hi => ⟨execKldcb_weftDoes hi, execKldcb_trap hi⟩⟩
  case words =>
    fin_cases he
    · rfl
    · rfl
    · rfl
    · rfl
    · rfl
    · rfl
    · exact uniWord_congr shlW_eq
    · exact uniWord_congr shrlW_eq
    · exact uniWord_congr shraW_eq
    · exact uniWord_congr (f := fun x y => mask32 (x == y)) fun _ _ => mask32_eq_ite beq_iff_eq
    · exact uniWord_congr (f := fun x y => mask32 (x.slt y)) fun _ _ => mask32_eq_ite BitVec.slt_iff_toInt_lt
    · exact uniWord_congr (f := fun x y => mask32 (x.ult y)) fun _ _ => mask32_eq_ite BitVec.ult_iff_toNat_lt
    · exact uniWord_congr minS_eq
    · exact uniWord_congr maxS_eq
    · exact uniWord_congr mulHi_eq
  case sel =>
    exact issueOnce_weftDoes (show exec (.ksel d a b) s = execKsel d a b s from rfl) hi
      (by simp only [noteIssue_wft_kreg, ne_eq, ite_not, w])
  case add64 =>
    exact issueOnce_weftDoes (show exec (.kadd64 d a b) s = execKadd64 d a b s from rfl) hi
      (by simp only [noteIssue_wft_kpair, w])
  case addi =>
    exact issueOnce_weftDoes (show exec (.kaddi d a i) s = execKaddi d a i s from rfl) hi
      (by simp only [noteIssue_wft_kreg, w])
  case li => exact issueOnce_weftDoes (show exec (.kli d i) s = execKli d i s from rfl) hi rfl
  case lih =>
    exact issueOnce_weftDoes (show exec (.klih d i) s = execKlih d i s from rfl) hi
      (by simp only [noteIssue_wft_kreg, append_extract_low_eq_ofNat, w])

end Sys2Proof.Machine
end

section
/-!
Meeting, yielding and exit: when the lanes of a weft have met, when those of a block have yielded, and what the checks
of WSYNC, YIELD and EXIT change (R140, R146, R157, R188 to R190).
-/
namespace Sys2Proof.Machine
open Sys2Proof

/-! ## What the record of an issue, and a change of threads alone, leave -/

@[simp] theorem noteIssue_thread_wait (s : State) (b w l : Nat) : ((noteIssue s).thread b w l).wait = (s.thread b w l).wait := by
  obtain ⟨d, h⟩ := noteIssue_thread s b w l; rw [h]

@[simp] theorem noteIssue_wft_slots (s : State) : (noteIssue s).wft.slots = s.wft.slots := by
  obtain ⟨i, j, k, h⟩ := noteIssue_weft s s.iss.blk s.iss.weft
  simp only [State.wft, noteIssue_iss, h]

@[simp] theorem noteIssue_block_bst (s : State) (b : Nat) : ((noteIssue s).block b).bst = (s.block b).bst := by
  obtain ⟨n, h⟩ := noteIssue_block s b; rw [h]

@[simp] theorem noteIssue_width (s : State) (b : Nat) : (noteIssue s).width b = s.width b := by
  simp only [State.width, noteIssue_launch]

@[simp] theorem heldCond_noteIssue (s : State) : heldCond (noteIssue s) = heldCond s := by
  simp only [heldCond, noteIssue_wft_slots]

theorem ThreadsOnly.launch {u v : State} (h : ThreadsOnly u v) : v.launch = u.launch := h.field State.launch fun _ => rfl
theorem ThreadsOnly.block {u v : State} (h : ThreadsOnly u v) : v.block = u.block := h.field State.block fun _ => rfl

section
variable {s t : State} {f : Nat → Thread → Thread} (h : LanesDo s t f)
include h

/-- An instruction that acts on lanes leaves every lane off its issue set as it was. -/
theorem LanesDo.thread_of_not_mem {l : Nat} (hl : l ∉ s.iss.lanes) :
    t.thread s.iss.blk s.iss.weft l = (noteIssue s).thread s.iss.blk s.iss.weft l :=
  have off : ∀ j ∈ s.iss.lanes, tkey s.iss.blk s.iss.weft l ≠ tkey s.iss.blk s.iss.weft j :=
    fun _ hj same => hl ((tkey_lane _ _ _ _).mp same ▸ hj)
  State.thread_congr (h.2.1 _ off)

theorem LanesDo.launch (b : Nat) : t.launch b = s.launch b :=
  (congrFun (ThreadsOnly.launch h.2.2) b).trans (noteIssue_launch s b)

theorem LanesDo.bst (b : Nat) : (t.block b).bst = (s.block b).bst :=
  (congrArg Block.bst (congrFun (ThreadsOnly.block h.2.2) b)).trans (noteIssue_block_bst s b)

end

/-! ## A meeting of lanes (R146) -/

theorem LaneState.over_iff (x : LaneState) : x.over = true ↔ x = .empty ∨ x = .done := by cases x <;> decide

/-- A lane that a WSYNC of mask `m` does not wait for any longer. -/
def Arrived (m : Nat) (x : Thread) : Prop := x.tst = .done ∨ x.tst = .empty ∨ (x.tst = .wait ∧ x.wait = .wsync m)

theorem wsyncMet_iff (s : State) (b w m : Nat) :
    wsyncMet s b w m = true ↔ ∀ j < 32, m.testBit j = true → Arrived m (s.thread b w j) := by
  simp only [wsyncMet, List.all_eq_true, mem_maskLanes, and_imp, Bool.or_eq_true, Bool.and_eq_true, beq_iff_eq,
    LaneState.over_iff, Arrived, or_assoc, or_left_comm]

/-- The thread past its WSYNC. -/
def pastWsync (x : Thread) : Thread := { x with tst := .run, wait := .none, pc := x.pc + 4 }

/-- Whether a lane waits at a WSYNC whose mask is met. -/
def releases (s : State) (b w l : Nat) : Bool :=
  match (s.thread b w l).tst, (s.thread b w l).wait with
  | .wait, .wsync m => wsyncMet s b w m
  | _, _ => false

theorem releases_of_wsync {s : State} {b w l m : Nat} (ht : (s.thread b w l).tst = .wait) (hw : (s.thread b w l).wait = .wsync m) :
    releases s b w l = wsyncMet s b w m := by
  simp only [releases, ht, hw]

theorem releases_of_tst {s : State} {b w l : Nat} (h : (s.thread b w l).tst ≠ .wait) : releases s b w l = false := by
  unfold releases
  split
  · next ht _ => exact absurd ht h
  · rfl

theorem releases_of_wait {s : State} {b w l : Nat} (h : ∀ m, (s.thread b w l).wait ≠ .wsync m) : releases s b w l = false := by
  unfold releases
  split
  · next hw => exact absurd hw (h _)
  · rfl

theorem wsyncRelease_eq (s : State) (b w : Nat) :
    wsyncRelease s b w =
      setLanes b w (fun _ l => pastWsync (s.thread b w l)) ((List.range 32).filter (releases s b w)) s := by
  unfold wsyncRelease setLanes
  rw [List.foldl_filter]
  congr 1
  funext u l
  dsimp only
  split
  · next ht hw => rw [releases_of_wsync ht hw]; rfl
  · next other =>
    have stays : releases s b w l = false := by
      unfold releases
      split
      · next ht hw => exact absurd hw (other _ ht)
      · rfl
    rw [stays]; rfl

theorem wsyncRelease_threadsOnly (s : State) (b w : Nat) : ThreadsOnly s (wsyncRelease s b w) := by
  rw [wsyncRelease_eq]; exact setLanes_threadsOnly _ _ _ _ _

theorem wsyncRelease_thread (s : State) (b w : Nat) {l : Nat} (hl : l < 32) :
    (wsyncRelease s b w).thread b w l = if releases s b w l then pastWsync (s.thread b w l) else s.thread b w l := by
  rw [wsyncRelease_eq]
  split
  · next hr =>
    exact setLanes_lane _ _ _ _ _ (List.nodup_range.filter _) (fun l => pastWsync (s.thread b w l)) (fun _ _ _ _ _ => rfl) l
      (List.mem_filter.mpr ⟨List.mem_range.mpr hl, hr⟩)
  · next hr =>
    exact State.thread_congr (setLanes_other _ _ _ _ _ _ fun j hj same =>
      hr ((tkey_lane _ _ _ _).mp same ▸ (List.mem_filter.mp hj).2))

/-- The mask of a WSYNC is met after lanes of the issue set have arrived exactly if every lane that it names is one of
them or had arrived. -/
theorem wsyncMet_of_lanesDo {s u : State} {f : Nat → Thread → Thread} {m : Nat} (h : LanesDo s u f)
    (arrive : ∀ l ∈ s.iss.lanes, m.testBit l = true → Arrived m (u.thread s.iss.blk s.iss.weft l)) :
    wsyncMet u s.iss.blk s.iss.weft m = true ↔
      ∀ j < 32, m.testBit j = true → j ∈ s.iss.lanes ∨ Arrived m (s.lane j) := by
  rw [wsyncMet_iff]
  refine forall₃_congr fun j _ named => ?_
  by_cases hj : j ∈ s.iss.lanes
  · exact iff_of_true (arrive j hj named) (.inl hj)
  · rw [h.thread_of_not_mem hj]
    simp only [Arrived, noteIssue_thread_tst, noteIssue_thread_wait, hj, false_or, State.lane]

/-- What becomes of a lane that waits at a WSYNC of mask `m` as the lanes that have met go on (R146). -/
theorem wsyncRelease_waiting {s u : State} {f : Nat → Thread → Thread} (h : LanesDo s u f) {m : Nat}
    (arrive : ∀ l ∈ s.iss.lanes, m.testBit l = true → Arrived m (u.thread s.iss.blk s.iss.weft l)) {l : Nat} (hl : l < 32)
    {x : Thread} (hx : u.thread s.iss.blk s.iss.weft l = x) (ht : x.tst = .wait) (hw : x.wait = .wsync m) :
    let y := (wsyncRelease u s.iss.blk s.iss.weft).thread s.iss.blk s.iss.weft l
    let arrived := fun j => j ∈ s.iss.lanes ∨ Arrived m (s.lane j)
    ((∀ j < 32, m.testBit j = true → arrived j) → y = pastWsync x) ∧
      ((∃ j < 32, m.testBit j = true ∧ ¬ arrived j) → y = x) := by
  intro y arrived
  have value : y = if wsyncMet u s.iss.blk s.iss.weft m then pastWsync x else x := by
    subst hx
    simp only [y, wsyncRelease_thread _ _ _ hl, releases_of_wsync ht hw]
  refine ⟨fun all => ?_, fun ⟨j, hj, named, missing⟩ => ?_⟩
  · rw [value, if_pos ((wsyncMet_of_lanesDo h arrive).mpr all)]
  · rw [value, if_neg fun met => missing ((wsyncMet_of_lanesDo h arrive).mp met j hj named)]

theorem wsyncRelease_running {s : State} {b w l : Nat} {x : Thread} (hl : l < 32) (hx : s.thread b w l = x) (ht : x.tst ≠ .wait) :
    (wsyncRelease s b w).thread b w l = x := by
  subst hx
  rw [wsyncRelease_thread _ _ _ hl, releases_of_tst ht, if_neg (by decide)]

theorem wsyncRelease_elsewhere {s : State} {b w l : Nat} {x : Thread} (hl : l < 32) (hx : s.thread b w l = x)
    (hw : ∀ k, x.wait ≠ .wsync k) : (wsyncRelease s b w).thread b w l = x := by
  subst hx
  rw [wsyncRelease_thread _ _ _ hl, releases_of_wait hw, if_neg (by decide)]

/-! ## A YIELD of a block, and the end of a weft (R140, R157) -/

/-- A lane that waits at a YIELD. -/
def Yields (x : Thread) : Prop := x.tst = .wait ∧ x.wait = .yield

theorem yieldMet_iff (s : State) (b : Nat) :
    yieldMet s b = true ↔
      (∀ w < (s.launch b).wefts, ∀ l < 32,
        (s.thread b w l).tst = .empty ∨ (s.thread b w l).tst = .done ∨ Yields (s.thread b w l)) ∧
      ∃ w < (s.launch b).wefts, ∃ l < 32, Yields (s.thread b w l) := by
  simp only [yieldMet, Bool.and_eq_true, List.all_eq_true, List.any_eq_true, List.mem_range, Bool.or_eq_true, beq_iff_eq,
    LaneState.over_iff, Yields, or_assoc]

@[simp] theorem noteFigures_block (s : State) (b b' : Nat) : (noteFigures s b).block b' = s.block b' := rfl

@[simp] theorem yieldCheck_threads (s : State) (b : Nat) : (yieldCheck s b).threads = s.threads := by
  unfold yieldCheck; split <;> rfl

@[simp] theorem yieldCheck_wefts (s : State) (b : Nat) : (yieldCheck s b).wefts = s.wefts := by
  unfold yieldCheck; split <;> rfl

/-- A resident block enters DRAINING exactly if its YIELD is complete. -/
theorem yieldCheck_bst {s : State} {b : Nat} (h : (s.block b).bst = .resident) :
    ((yieldCheck s b).block b).bst = .draining ↔ yieldMet s b = true := by
  simp only [yieldCheck, h, beq_self_eq_true, Bool.true_and]
  split
  · next met => simp [met]
  · next met => simp [h, met]

@[simp] theorem finishCheck_threads (s : State) (b w : Nat) : (finishCheck s b w).threads = s.threads := by
  unfold finishCheck; split <;> rfl

@[simp] theorem finishCheck_blocks (s : State) (b w : Nat) : (finishCheck s b w).blocks = s.blocks := by
  unfold finishCheck; split <;> rfl

@[simp] theorem finishCheck_grids (s : State) (b w : Nat) : (finishCheck s b w).grids = s.grids := by
  unfold finishCheck; split <;> rfl

theorem finishCheck_finished {s : State} {b w : Nat} (h : ∀ l < 32, (s.thread b w l).tst = .empty ∨ (s.thread b w l).tst = .done) :
    ((finishCheck s b w).weft b w).wst = .finished := by
  have ended : ((List.range 32).all fun l => (s.thread b w l).tst.over) = true := by
    simp only [List.all_eq_true, List.mem_range, LaneState.over_iff]
    exact h
  simp only [finishCheck, ended, if_true, State.weft_setWeft_same]

end Sys2Proof.Machine
end

section
/-!
WSYNC, YIELD and EXIT (R146, R157, R188 to R191, R387).
-/
namespace Sys2Proof.Machine
open Sys2Proof

/-! ## In handler mode (R191) -/

/-- An instruction that a trap handler may not use traps every lane, whatever writes are outstanding. -/
theorem issue_handler {s : State} {p : Pre} (formed : FormedSet s) (handler : s.iss.handler = true)
    (hp : p.early = handlerIllegal s) (busy : State → Bool) (body : State → State) :
    issue p busy body s = .next (trapAll (noteIssue s) (illegalCond s)) :=
  issue_trap formed.1 (preCond_of_early (hp.trans (by rw [handlerIllegal, handler, if_pos rfl]))) busy body

theorem execWsync_handler {s : State} (formed : FormedSet s) (handler : s.iss.handler = true) (ka : KReg) :
    execWsync ka s = .next (trapAll (noteIssue s) (illegalCond s)) := issue_handler formed handler (by rfl) _ _

theorem execYield_handler {s : State} (formed : FormedSet s) (handler : s.iss.handler = true) :
    execYield s = .next (trapAll (noteIssue s) (illegalCond s)) := issue_handler formed handler (by rfl) _ _

theorem handlerIllegal_user {s : State} (h : s.iss.handler = false) : handlerIllegal s = none := by
  simp only [handlerIllegal, h, Bool.false_eq_true, if_false]

/-! ## WSYNC (R146, R188) -/

/-- What a WSYNC of mask `m` does to a lane: it waits if it is named, and else goes on. -/
def wsyncLane (s : State) (m l : Nat) : LaneRes :=
  if m.testBit l then .goto { s.lane l with tst := .wait, wait := .wsync m } else .next (s.lane l)

/-- The thread that this leaves. -/
def wsyncThread (s : State) (m l : Nat) (x : Thread) : Thread :=
  if m.testBit l then { x with tst := .wait, wait := .wsync m } else x.past s

theorem wsyncLane_completes (s : State) (m l : Nat) : (wsyncLane s m l).completes = true := by
  unfold wsyncLane; split <;> rfl

theorem wsyncLane_thread (s : State) (m l : Nat) :
    (wsyncLane (noteIssue s) m l).thread s = wsyncThread s m l ((noteIssue s).thread s.iss.blk s.iss.weft l) := by
  unfold wsyncLane wsyncThread
  rw [noteIssue_lane]
  split <;> rfl

theorem execWsync_spec {s : State} {ka : KReg} (hi : Issues .sync [] [(ka.toNat, 1)] s) (user : s.iss.handler = false) :
    ∃ u, execWsync ka s = .next (wsyncRelease u s.iss.blk s.iss.weft) ∧
      LanesDo s u (wsyncThread s ((s.wft.kreg ka.toNat).toNat % 2 ^ s.width s.iss.blk)) := by
  obtain ⟨formed, allowed, free, clean⟩ := hi
  have lanes := lanesDo_foldl formed fun l _ =>
    wsyncLane_completes (noteIssue s) ((s.wft.kreg ka.toNat).toNat % 2 ^ s.width s.iss.blk) l
  refine ⟨_, (issue_body formed.1 (preCond_none_of_early (handlerIllegal_user user) allowed) free clean _).trans ?_,
    lanes.congr fun l _ => wsyncLane_thread s _ l⟩
  simp only [noteIssue_iss, noteIssue_wft_kreg, noteIssue_width, wsyncLane]

/-- Settles O29: the named lanes of the issue set arrive, and what then becomes of a waiting lane is
`wsyncRelease_waiting`. -/
theorem weftSynchronisation : Obligations.WeftSynchronisation := by
  unfold Obligations.WeftSynchronisation
  intro s ka
  refine ⟨fun hi user => ?meet, fun formed _ handler => execWsync_handler formed handler ka⟩
  case meet =>
    intro m stand len arrived
    have past : nextPc s = s.iss.pc + 4 := by rw [nextPc, len]; rfl
    obtain ⟨u, issued, lanes⟩ := execWsync_spec hi user
    have below : ∀ l ∈ s.iss.lanes, l < 32 := hi.1.2.2
    have waiting : ∀ l ∈ s.iss.lanes, m.testBit l = true → u.thread s.iss.blk s.iss.weft l =
        { (noteIssue s).thread s.iss.blk s.iss.weft l with tst := .wait, wait := .wsync m } := by
      intro l hl named
      rw [lanes.1 l hl, wsyncThread, if_pos named]
    have arrive : ∀ l ∈ s.iss.lanes, m.testBit l = true → Arrived m (u.thread s.iss.blk s.iss.weft l) := by
      intro l hl named
      rw [waiting l hl named]
      exact .inr (.inr ⟨rfl, rfl⟩)
    refine ⟨_, issued, fun l hl => ⟨fun off => ?goesOn, fun named => ?released, fun named => ?waits⟩, fun l hl off => ?others⟩
    case goesOn =>
      have running : u.thread s.iss.blk s.iss.weft l = ((noteIssue s).thread s.iss.blk s.iss.weft l).past s := by
        rw [lanes.1 l hl, wsyncThread, if_neg (by rw [off]; decide)]
      have tst : (((noteIssue s).thread s.iss.blk s.iss.weft l).past s).tst = .run :=
        (noteIssue_thread_tst ..).trans (stand l hl).1
      rw [wsyncRelease_running (below l hl) running (by rw [tst]; decide)]
      exact ⟨tst, past⟩
    case released =>
      intro all
      rw [(wsyncRelease_waiting lanes arrive (below l hl) (waiting l hl named) rfl rfl).1 all]
      refine ⟨rfl, rfl, congrArg (· + 4) ?_⟩
      exact (noteIssue_thread_pc ..).trans (stand l hl).2
    case waits =>
      intro missing
      rw [(wsyncRelease_waiting lanes arrive (below l hl) (waiting l hl named) rfl rfl).2 missing]
      exact ⟨rfl, rfl, (noteIssue_thread_pc ..).trans (stand l hl).2⟩
    case others =>
      have same := lanes.thread_of_not_mem off
      exact ⟨fun ht hw => (wsyncRelease_waiting lanes arrive hl same ht hw).1,
        fun ht hw => (wsyncRelease_waiting lanes arrive hl same ht hw).2, wsyncRelease_elsewhere hl same⟩

/-! ## A weft that holds a race slot (R158, R190) -/

theorem heldCond_none {s : State} (h : s.wft.slots = []) : heldCond s = none := by simp only [heldCond, h]

theorem heldCond_some {s : State} {h : HeldSlot} {hs : List HeldSlot} (e : s.wft.slots = h :: hs) :
    heldCond s = some { cause := .race, reason := 8, addr := h.addr } := by simp only [heldCond, e]

/-! ## YIELD (R157, R189) -/

theorem execYield_spec {s : State} (hi : Issues .sync [] [] s) (user : s.iss.handler = false) (none : s.wft.slots = []) :
    ∃ u, execYield s = .next (yieldCheck u s.iss.blk) ∧ LanesDo s u fun _ x => { x with tst := .wait, wait := .yield } := by
  obtain ⟨formed, allowed, free, clean⟩ := hi
  refine ⟨_, (issue_body formed.1 (preCond_none_of_early (handlerIllegal_user user) allowed) free clean _).trans ?_,
    (lanesDo_foldl (f := fun l => .goto { (noteIssue s).lane l with tst := .wait, wait := .yield }) formed
      fun _ _ => rfl).congr fun l _ => ?_⟩
  · simp only [heldCond_noteIssue, heldCond_none none, noteIssue_iss]
  · simp only [noteIssue_lane, LaneRes.thread]

theorem execYield_held {s : State} {c : Cond} (hi : Issues .sync [] [] s) (user : s.iss.handler = false)
    (held : heldCond s = some c) : execYield s = .next (trapAll (noteIssue s) c) := by
  obtain ⟨formed, allowed, free, clean⟩ := hi
  refine (issue_body formed.1 (preCond_none_of_early (handlerIllegal_user user) allowed) free clean _).trans ?_
  simp only [heldCond_noteIssue, held]

/-! ## EXIT (R190, R387) -/

theorem execExit_spec {s : State} (hi : Issues .sync [] [] s) (none : s.wft.slots = []) :
    ∃ u, execExit s = .next (yieldCheck (finishCheck (wsyncRelease u s.iss.blk s.iss.weft) s.iss.blk s.iss.weft) s.iss.blk) ∧
      LanesDo s u fun _ x => { x with tst := .done, trq := [], pc := nextPc s } := by
  obtain ⟨formed, allowed, free, clean⟩ := hi
  refine ⟨_, (issue_body formed.1 (preCond_none allowed) free clean _).trans ?_,
    (lanesDo_foldl (f := fun l => .next { (noteIssue s).lane l with tst := .done, trq := [] }) formed
      fun _ _ => rfl).congr fun l _ => ?_⟩
  · simp only [heldCond_noteIssue, heldCond_none none, noteIssue_iss]
  · simp only [noteIssue_lane, LaneRes.thread]

/-- A lane that an EXIT finishes, or that is over already, is over after it. -/
theorem over_of_exit {s u : State} (lanes : LanesDo s u fun _ x => { x with tst := .done, trq := [], pc := nextPc s })
    {l : Nat} (hl : l < 32)
    (isOver : l ∈ s.iss.lanes ∨ (s.lane l).tst = .done ∨ (s.lane l).tst = .empty) :
    ((wsyncRelease u s.iss.blk s.iss.weft).thread s.iss.blk s.iss.weft l).tst = .empty ∨
      ((wsyncRelease u s.iss.blk s.iss.weft).thread s.iss.blk s.iss.weft l).tst = .done := by
  have ended : (u.thread s.iss.blk s.iss.weft l).tst = .empty ∨ (u.thread s.iss.blk s.iss.weft l).tst = .done := by
    by_cases on : l ∈ s.iss.lanes
    · exact .inr (by rw [lanes.1 l on])
    · rw [lanes.thread_of_not_mem on, noteIssue_thread_tst]
      exact (isOver.resolve_left on).symm
  have runs : (u.thread s.iss.blk s.iss.weft l).tst ≠ .wait := by
    rcases ended with h | h <;> rw [h] <;> decide
  rwa [wsyncRelease_running hl rfl runs]

theorem execExit_held {s : State} {c : Cond} (hi : Issues .sync [] [] s) (held : heldCond s = some c) :
    execExit s = .next (trapAll (noteIssue s) c) := by
  obtain ⟨formed, allowed, free, clean⟩ := hi
  refine (issue_body formed.1 (preCond_none allowed) free clean _).trans ?_
  simp only [heldCond_noteIssue, held]

/-- Settles O30: a YIELD is complete by `yieldMet_iff`; the lanes of an EXIT are DONE, and so have arrived at every
WSYNC. -/
theorem yieldAndExit : Obligations.YieldAndExit := by
  unfold Obligations.YieldAndExit
  refine ⟨fun s => ⟨fun formed _ handler => ?handler, fun hi user none => ?yields, fun h hs hi user held => ?yieldHeld⟩,
    fun s hi => ⟨fun none => ?exits, fun h hs held => ?exitHeld⟩⟩
  case handler => exact execYield_handler formed handler
  case yieldHeld => exact execYield_held hi user (heldCond_some held)
  case exitHeld => exact execExit_held hi (heldCond_some held)
  case yields =>
    obtain ⟨u, issued, lanes⟩ := execYield_spec hi user none
    refine ⟨_, u, issued, lanes, yieldCheck_threads u _, fun resident => ?_⟩
    rw [yieldCheck_bst ((lanes.bst _).trans resident), yieldMet_iff, lanes.launch]
    rfl
  case exits =>
    obtain ⟨u, issued, lanes⟩ := execExit_spec hi none
    have below : ∀ l ∈ s.iss.lanes, l < 32 := hi.1.2.2
    let v := wsyncRelease u s.iss.blk s.iss.weft
    have only : ThreadsOnly u v := wsyncRelease_threadsOnly u _ _
    have thread : ∀ b w l, (yieldCheck (finishCheck v s.iss.blk s.iss.weft) s.iss.blk).thread b w l = v.thread b w l :=
      fun b w l => by simp only [State.thread, yieldCheck_threads, finishCheck_threads]
    have done : ∀ l ∈ s.iss.lanes, v.thread s.iss.blk s.iss.weft l =
        { (noteIssue s).thread s.iss.blk s.iss.weft l with tst := .done, trq := [], pc := nextPc s } :=
      fun l hl => wsyncRelease_running (below l hl) (lanes.1 l hl) (fun waits => nomatch waits)
    have arrive : ∀ m, ∀ l ∈ s.iss.lanes, m.testBit l = true → Arrived m (u.thread s.iss.blk s.iss.weft l) :=
      fun m l hl _ => .inl (by rw [lanes.1 l hl])
    refine ⟨_, issued, fun l hl => (thread ..).trans (done l hl), fun ended => ?finished, fun l hl off => ?others,
      fun resident => ?drains⟩
    case finished =>
      simp only [State.weft, yieldCheck_wefts]
      exact finishCheck_finished fun l hl => over_of_exit lanes hl (ended l hl)
    case others =>
      have same := lanes.thread_of_not_mem off
      have waiting := fun m => wsyncRelease_waiting lanes (arrive m) hl same
      exact ⟨fun m ht hw all => (thread ..).trans ((waiting m ht hw).1 all),
        fun m ht hw missing => (thread ..).trans ((waiting m ht hw).2 missing),
        fun free => (thread ..).trans (wsyncRelease_elsewhere hl same free)⟩
    case drains =>
      have launch : (finishCheck v s.iss.blk s.iss.weft).launch s.iss.blk = s.launch s.iss.blk := by
        simp only [State.launch, State.block, State.grid, finishCheck_blocks, finishCheck_grids]
        exact (congrFun (ThreadsOnly.launch only) _).trans (lanes.launch _)
      have bst : ((finishCheck v s.iss.blk s.iss.weft).block s.iss.blk).bst = .resident := by
        simp only [State.block, finishCheck_blocks]
        exact (congrArg Block.bst (congrFun (ThreadsOnly.block only) _)).trans ((lanes.bst _).trans resident)
      rw [yieldCheck_bst bst, yieldMet_iff, launch]
      simp only [State.thread, yieldCheck_threads]
      rfl

end Sys2Proof.Machine
end

section
/-!
What the actions of the caches and the accesses of the device leave alone: the blocks, the launches, and the wefts that
are FINISHED. Stores that a message loses may park a weft, but none that is FINISHED (R140, R395, R422).
-/
namespace Sys2Proof.Machine
open Sys2Proof

/-- `v` holds the blocks and the launches of `u`, and the same wefts are FINISHED in both. -/
structure LaunchesKept (u v : State) : Prop where
  blocks : v.blocks = u.blocks
  grids : v.grids = u.grids
  nextBlk : v.nextBlk = u.nextBlk
  finished : ∀ b w, (v.weft b w).wst = .finished ↔ (u.weft b w).wst = .finished

namespace LaunchesKept

theorem refl (u : State) : LaunchesKept u u := ⟨rfl, rfl, rfl, fun _ _ => Iff.rfl⟩

theorem trans {u v w : State} (h : LaunchesKept u v) (h' : LaunchesKept v w) : LaunchesKept u w :=
  ⟨h'.blocks.trans h.blocks, h'.grids.trans h.grids, h'.nextBlk.trans h.nextBlk,
    fun b w => (h'.finished b w).trans (h.finished b w)⟩

theorem of_wefts {u v : State} (blocks : v.blocks = u.blocks) (grids : v.grids = u.grids) (nextBlk : v.nextBlk = u.nextBlk)
    (wefts : v.wefts = u.wefts) : LaunchesKept u v :=
  ⟨blocks, grids, nextBlk, fun b w => by rw [State.weft, State.weft, wefts]⟩

theorem of_domainsOnly {u v : State} (h : DomainsOnly u v) : LaunchesKept u v :=
  .of_wefts (h.field State.blocks fun _ => rfl) (h.field State.grids fun _ => rfl) (h.field State.nextBlk fun _ => rfl)
    (h.field State.wefts fun _ => rfl)

theorem ite {u v w : State} {p : Prop} [Decidable p] (h : LaunchesKept u v) (h' : LaunchesKept u w) :
    LaunchesKept u (if p then v else w) := by split <;> assumption

variable {u v : State} (h : LaunchesKept u v)
include h

theorem block (b : Nat) : v.block b = u.block b := by rw [State.block, h.blocks, State.block]
theorem grid (g : Nat) : v.grid g = u.grid g := by rw [State.grid, h.grids, State.grid]
theorem launch (b : Nat) : v.launch b = u.launch b := by simp only [State.launch, h.block, h.grid]

end LaunchesKept

theorem setDomain_kept (s : State) (d : Nat) (x : Domain) : LaunchesKept s (s.setDomain d x) := .of_wefts rfl rfl rfl rfl
theorem setCore_kept (s : State) (c : Nat) (x : Core) : LaunchesKept s (s.setCore c x) := .of_wefts rfl rfl rfl rfl
theorem fresh_kept (s : State) : LaunchesKept s s.fresh.2 := .of_wefts rfl rfl rfl rfl
theorem drawClasses_kept (s : State) : LaunchesKept s (drawClasses s) := .of_wefts rfl rfl rfl rfl
theorem setRem_kept (s : State) (d line : Nat) (c : CLine) : LaunchesKept s (s.setRem d line c) := setDomain_kept s d _
theorem dropRem_kept (s : State) (d line : Nat) : LaunchesKept s (s.dropRem d line) := setDomain_kept s d _
theorem setL1_kept (s : State) (sc line : Nat) (c : CLine) : LaunchesKept s (s.setL1 sc line c) := setCore_kept s sc _

theorem noteDrop_kept (s : State) (router : Option Nat) : LaunchesKept s (noteDrop s router) := by
  cases router with
  | none => exact .refl s
  | some d => exact setDomain_kept s d _

theorem foldl_kept {β : Type*} (f : State → β → State) (h : ∀ s x, LaunchesKept s (f s x)) (ls : List β) (s : State) :
    LaunchesKept s (ls.foldl f s) := foldl_rel LaunchesKept.refl LaunchesKept.trans f h ls s

/-! ## A store that is lost (R395, R422) -/

/-- A weft that is not parked yet, and parks, changes no other weft. -/
theorem parkWeft_wefts {s : State} {b w : Nat} (h : (s.weft b w).park.isSome = false) (e : FqEntry) (i : Bool) :
    ∃ x : Weft, x.wst = .parked ∧ (parkWeft s b w e i).wefts = (s.setWeft b w x).wefts := by
  unfold parkWeft
  simp only [h, Bool.false_eq_true, if_false]
  split
  · exact ⟨_, rfl, rfl⟩
  · exact ⟨_, rfl, postFault_wefts _ _ _⟩

theorem parkWeft_kept {s : State} {b w : Nat} (h : (s.weft b w).wst ≠ .finished) (e : FqEntry) (i : Bool) :
    LaunchesKept s (parkWeft s b w e i) := by
  cases park : (s.weft b w).park.isSome with
  | true => rw [parkWeft_parked park]; exact .refl s
  | false =>
    obtain ⟨x, parked, wefts⟩ := parkWeft_wefts park e i
    refine ⟨parkWeft_blocks s b w e i, parkWeft_grids s b w e i,
      (parkWeft_trapsOnly s b w e i).field State.nextBlk fun _ => rfl, fun b' w' => ?_⟩
    have weft : (parkWeft s b w e i).weft b' w' = if wkey b' w' = wkey b w then x else s.weft b' w' := by
      rw [State.weft, wefts, ← State.weft_setWeft]; rfl
    rw [weft]
    split
    · next same =>
      have here : s.weft b' w' = s.weft b w := by rw [State.weft, same, State.weft]
      rw [here, parked]
      exact iff_of_false (by decide) h
    · exact Iff.rfl

theorem loseStores_kept (s : State) (writers : List Nat) : LaunchesKept s (loseStores s writers) := by
  refine foldl_kept _ (fun s k => ?_) writers s
  dsimp only
  split
  · next active =>
    refine (fresh_kept s).trans (parkWeft_kept ?_ _ _)
    rw [show (s.fresh.2.weft (k / 128) (k % 128)).wst = .active from beq_iff_eq.mp active]
    decide
  · exact .refl s

/-! ## Actions that go ahead or wait -/

/-- Whether it goes ahead or waits, an action leaves the launches as they were. -/
def TryKeeps (s : State) (r : Try) : Prop := LaunchesKept s (tried r)

namespace TryKeeps

theorem of_ok {s t : State} {r : Try} (h : TryKeeps s r) (e : r = .ok t) : LaunchesKept s t := by subst e; exact h
theorem of_error {s t : State} {r : Try} (h : TryKeeps s r) (e : r = .error t) : LaunchesKept s t := by subst e; exact h

theorem ok {s t : State} (h : LaunchesKept s t) : TryKeeps s (.ok t) := h
theorem error {s t : State} (h : LaunchesKept s t) : TryKeeps s (.error t) := h

theorem bind {s : State} {r : Try} {f : State → Try} (h : TryKeeps s r) (hf : ∀ t, TryKeeps t (f t)) : TryKeeps s (r >>= f) := by
  cases r with
  | error e => exact h
  | ok t => exact h.trans (hf t)

theorem after {s t : State} {r : Try} (h : LaunchesKept s t) (hr : TryKeeps t r) : TryKeeps s r := h.trans hr

theorem ite {s : State} {p : Prop} [Decidable p] {r r' : Try} (h : TryKeeps s r) (h' : TryKeeps s r') :
    TryKeeps s (if p then r else r') := by split <;> assumption

end TryKeeps

theorem stays (s : State) : TryKeeps s (.ok s) := .refl s
theorem waits (s : State) : TryKeeps s (.error s) := .refl s

theorem l2Gate_keeps (s : State) (d line : Nat) : TryKeeps s (l2Gate s d line) := .ite (setDomain_kept s d _) (stays s)
theorem homeGate_keeps (s : State) (line : Nat) : TryKeeps s (homeGate s line) := .ite (waits s) (stays s)

theorem bothGates_keep (s : State) (d line : Nat) : TryKeeps s (bothGates s d line) :=
  (l2Gate_keeps s d line).bind fun t => l2Gate_keeps t _ line

theorem homeReach_keeps (s : State) (d line : Nat) : TryKeeps s (homeReach s d line) :=
  (bothGates_keep s d line).bind fun t => homeGate_keeps t line

/-! ## Merges at home (R225, R437) -/

theorem homeBytes_kept (s : State) (line : Nat) (data : Memory) (mask : Nat) (bad : Sp Nat) :
    LaunchesKept s (homeBytes s line data mask bad) := by
  unfold homeBytes
  dsimp only
  split
  · split <;> exact .of_wefts rfl rfl rfl rfl
  · exact .of_wefts rfl rfl rfl rfl

theorem dirWrite_kept (s : State) (line src : Nat) (atomic : Bool) : LaunchesKept s (dirWrite s line src atomic) :=
  .of_domainsOnly (dirWrite_domainsOnly s line src atomic)

theorem mergeHome_kept (s : State) (src line : Nat) (data : Memory) (mask : Nat) (bad : Sp Nat) :
    LaunchesKept s (mergeHome s src line data mask bad) :=
  (homeBytes_kept s line data mask bad).trans (dirWrite_kept _ line src false)

/-! ## The L2 (R233, R437) -/

/-- What a domain's clean of a remote copy does at the home of its line. -/
theorem mergeRemote_keeps (s : State) (d line : Nat) (c x : CLine) :
    TryKeeps s (l2Gate s (lineHome line) line >>= fun t => homeGate t line >>= fun u =>
      .ok ((mergeHome u d line c.data c.dirty c.bad).setRem d line x)) :=
  (l2Gate_keeps s _ line).bind fun t => (homeGate_keeps t line).bind fun u =>
    .ok ((mergeHome_kept u d line _ _ _).trans (setRem_kept _ d line x))

theorem lostMessage_kept (s : State) (router : Option Nat) (writers : List Nat) :
    LaunchesKept s (loseStores (noteDrop (drawClasses s) router) writers) :=
  ((drawClasses_kept s).trans (noteDrop_kept _ router)).trans (loseStores_kept _ writers)

theorem cleanRemote_keeps (s : State) (d line : Nat) : TryKeeps s (cleanRemote s d line) := by
  unfold cleanRemote
  split
  · exact stays s
  · next c _ =>
    refine .ite (stays s) ?_
    dsimp only
    split
    · exact waits s
    · exact .after (drawClasses_kept s) (mergeRemote_keeps _ d line c _)
    · exact .ite ((mergeRemote_keeps s d line c _).bind fun t => .ok (lostMessage_kept t _ _))
        (.ok ((setRem_kept s d line _).trans (lostMessage_kept _ _ _)))

theorem evictRemote_keeps (s : State) (d line : Nat) : TryKeeps s (evictRemote s d line) :=
  (cleanRemote_keeps s d line).bind fun t => .ok (dropRem_kept t d line)

theorem l2Drop_keeps (s : State) (d line : Nat) : TryKeeps s (l2Drop s d line) :=
  .ite (.ok (setDomain_kept s d _)) (evictRemote_keeps s d line)

theorem markKeep_keeps (s : State) (d line : Nat) : TryKeeps s (markKeep s d line) :=
  .ite (.ok (setDomain_kept s d _)) ((l2Drop_keeps s d _).bind fun t => .ok (setDomain_kept t d _))

theorem keepAs_keeps (s : State) (d line : Nat) (p : Policy) : TryKeeps s (keepAs s d line p) :=
  .ite (markKeep_keeps s d line) (stays s)

theorem l2Room_keeps (s : State) (d line : Nat) : TryKeeps s (l2Room s d line) :=
  .after (fresh_kept s) (.ite (stays _) (l2Drop_keeps _ d _))

theorem allocRemote_keeps (s : State) (d line : Nat) (p : Policy) : TryKeeps s (allocRemote s d line p) :=
  .ite (stays s) ((l2Room_keeps s d line).bind fun t => .ok (setRem_kept t d line _))

theorem dropAlias_keeps (s : State) (d line : Nat) : TryKeeps s (dropAlias s d line) := by
  unfold dropAlias
  split
  · exact evictRemote_keeps s d _
  · exact stays s

theorem fillRemote_keeps (s : State) (d line sec : Nat) : TryKeeps s (fillRemote s d line sec) :=
  (l2Gate_keeps s _ line).bind fun t => (homeGate_keeps t line).bind fun u =>
    .ok ((setRem_kept u d line _).trans (.of_domainsOnly (dirUpdate_domainsOnly _ line _)))

theorem dirtyRemote_keeps (s : State) (d line : Nat) (data : Memory) (mask : Nat) (bad : Sp Nat) (p : Policy) (who : List Nat) :
    TryKeeps s (dirtyRemote s d line data mask bad p who) :=
  (allocRemote_keeps s d line p).bind fun t => .ok (setRem_kept t d line _)

theorem l2Ready_keeps (s : State) (d line off n : Nat) (p : Policy) : TryKeeps s (l2Ready s d line off n p) := by
  refine (l2Gate_keeps s d line).bind fun t => (dropAlias_keeps t d line).bind fun u => ?_
  refine .ite ((homeGate_keeps u line).bind fun v => keepAs_keeps v d line p) (.ite (homeReach_keeps u d line) ?_)
  exact (allocRemote_keeps u d line p).bind fun v => (keepAs_keeps v d line p).bind fun w =>
    .ite (stays w) (fillRemote_keeps w d line _)

theorem l2Put_keeps (s : State) (d line : Nat) (data : Memory) (mask : Nat) (bad : Sp Nat) (p : Policy) (who : List Nat) :
    TryKeeps s (l2Put s d line data mask bad p who) := by
  refine (dropAlias_keeps s d line).bind fun t => .ite ?home (.ite ?far ?copy)
  case home =>
    exact (homeGate_keeps t line).bind fun u => (keepAs_keeps u d line p).bind fun v => .ok (mergeHome_kept v d line _ _ _)
  case far =>
    exact (l2Gate_keeps t _ line).bind fun u => (homeGate_keeps u line).bind fun v => .ok (mergeHome_kept v d line _ _ _)
  case copy => exact (keepAs_keeps t d line p).bind fun u => dirtyRemote_keeps u d line data mask bad p who

theorem l2Send_keeps (s : State) (d line : Nat) (data : Memory) (mask : Nat) (bad : Sp Nat) (p : Policy) (who : List Nat) :
    TryKeeps s (l2Send s d line data mask bad p who) := by
  unfold l2Send
  split
  · exact l2Put_keeps s d line data mask bad p who
  · exact waits s
  · exact .ite ((l2Put_keeps s d line data mask bad p who).bind fun t => .ok (lostMessage_kept t _ _))
      (.ok (lostMessage_kept s _ _))

/-! ## The L1, releases and acquires (R224, R226, R442) -/

theorem noteStore_kept (s : State) (core : Option Nat) (pa n x : Nat) : LaunchesKept s (noteStore s core pa n x) :=
  .of_wefts rfl rfl rfl rfl

theorem noteHalves_kept (s : State) (core line : Nat) (c : CLine) : LaunchesKept s (noteHalves s core line c) := by
  refine foldl_kept _ (fun u i => ?_) _ s
  exact .ite (noteStore_kept u _ _ _ _) (.refl u)

theorem cleanL1_keeps (s : State) (sc line : Nat) : TryKeeps s (cleanL1 s sc line) := by
  unfold cleanL1
  split
  · exact stays s
  · next c _ =>
    exact .ite (stays s) ((l2Gate_keeps s _ line).bind fun t => (l2Send_keeps t _ line _ _ _ _ _).bind fun u =>
      .ok ((setL1_kept u sc line _).trans (noteHalves_kept _ sc line c)))

/-- The same of a fold that also notes whether every action went ahead. -/
theorem foldl_noted_kept {β : Type*} (f : Bool × State → β → Bool × State) (h : ∀ r x, LaunchesKept r.2 (f r x).2)
    (ls : List β) (s : State) : LaunchesKept s (ls.foldl f (true, s)).2 :=
  foldl_rel (R := fun r q : Bool × State => LaunchesKept r.2 q.2) (fun r => .refl r.2) (fun h h' => h.trans h') f h ls (true, s)

theorem tryAll_kept {f : State → Nat → Try} (h : ∀ s l, TryKeeps s (f s l)) (lines : List Nat) (s : State) :
    LaunchesKept s (tryAll f lines s).2 := by
  refine foldl_noted_kept _ (fun r l => ?_) lines s
  split
  · next t e => exact (h r.2 l).of_ok e
  · next t e => exact (h r.2 l).of_error e

theorem cleanL1All_kept (s : State) (core : Nat) : LaunchesKept s (cleanL1All s core).2 := by
  refine foldl_noted_kept _ (fun r sc => ?_) (l1Cores s core) s
  exact tryAll_kept (fun u l => cleanL1_keeps u sc l) _ r.2

theorem releaseTry_keeps (s : State) (core : Nat) (sc : Scope) : TryKeeps s (releaseTry s core sc) := by
  have clean := cleanL1All_kept s core
  have all := clean.trans (tryAll_kept (fun u l => cleanRemote_keeps u (domOf core) l)
    (Sp.keys ((cleanL1All s core).2.domain (domOf core)).remote) _)
  exact .ite (stays s) (.ite (.ite clean clean) (.ite all all))

theorem fillL1_keeps (s : State) (core line sec : Nat) (p : Policy) : TryKeeps s (fillL1 s core line sec p) :=
  (l2Ready_keeps s _ line _ _ p).bind fun t => .ok (setL1_kept t _ line _)

theorem refreshRemote_kept (s : State) (d line : Nat) : LaunchesKept s (refreshRemote s d line) := by
  refine foldl_kept _ (fun u sec => ?_) _ s
  have fill : TryKeeps u (if wayTo u d (lineHome line) = .crosses then fillRemote u d line sec else .error u) :=
    .ite (fillRemote_keeps u d line sec) (waits u)
  split
  · next t e => exact fill.of_ok e
  · exact setRem_kept u d line _

theorem applyInval_kept (s : State) (d line : Nat) : LaunchesKept s (applyInval s d line) := by
  unfold applyInval
  split
  · exact .refl s
  · exact (setRem_kept s d line _).trans (refreshRemote_kept _ d line)

theorem applyAll_kept (s : State) (d : Nat) : LaunchesKept s (applyAll s d) :=
  (foldl_kept _ (fun u (q : Nat × List Nat) => foldl_kept _ (fun v l => applyInval_kept v d l) q.2 u) _ s).trans (setDomain_kept _ d _)

theorem refreshL1_kept (s : State) (core sc line : Nat) : LaunchesKept s (refreshL1 s core sc line) := by
  refine foldl_kept _ (fun u sec => ?_) _ s
  dsimp only
  generalize (u.l1Line sc line).getD {} = c
  have fill : TryKeeps u (if l2Way u (domOf core) line (64 * sec) 64 = .crosses then fillL1 u core line sec c.policy else .error u) :=
    .ite (fillL1_keeps u core line sec _) (waits u)
  split
  · next t e => exact fill.of_ok e
  · exact setL1_kept u sc line _

theorem invalidateL1_kept (s : State) (core : Nat) : LaunchesKept s (invalidateL1 s core) :=
  foldl_kept _ (fun u sc => (setCore_kept u sc _).trans (foldl_kept _ (fun v line => refreshL1_kept v core sc line) _ _))
    (l1Cores s core) s

theorem acquire_kept (s : State) (core : Nat) (sc : Scope) : LaunchesKept s (acquire s core sc) := by
  have wide := (applyAll_kept s (domOf core)).trans (invalidateL1_kept _ core)
  cases sc with
  | blk => exact .refl s
  | dom => exact invalidateL1_kept s core
  | waf => exact wide
  | sys => exact wide

theorem switchCore_kept (s : State) (core vi : Nat) : LaunchesKept s (switchCore s core vi).2 := by
  have clean := cleanL1All_kept s core
  unfold switchCore
  dsimp only
  split
  · exact .refl s
  · split
    · exact .refl s
    · split
      · exact clean
      · exact (clean.trans (foldl_kept _ (fun u c => setCore_kept u c _) _ _)).trans (setCore_kept _ core _)

/-! ## Areas of the context region (R403) -/

theorem putArea_keeps (s : State) (base len : Nat) (m : Memory) (bad : List (Nat × Nat)) :
    TryKeeps s (putArea s base len m bad) :=
  .ite (waits s) (.ok ((foldl_kept _ (fun u l => .ite (dirWrite_kept u l 64 false) (.refl u)) (areaLines base len) s).trans
    (.of_wefts rfl rfl rfl rfl)))

/-! ## Reads of the device (R349, R362) -/

theorem Walked.leaves_kept (w : Walked) (s : State) (d : Nat) : LaunchesKept s (w.leaves s d) := by
  have dropped : ∀ u, LaunchesKept s u → LaunchesKept s (if w.drop.isSome then noteDrop (drawClasses u) w.drop else u) :=
    fun u h => .ite ((h.trans (drawClasses_kept u)).trans (noteDrop_kept _ _)) h
  have cached : ∀ u, LaunchesKept s u → LaunchesKept s
      (if w.read.isEmpty then u else u.setDomain d { u.domain d with walks := (w.read ++ (u.domain d).walks).take 1024 }) :=
    fun u h => .ite h (h.trans (setDomain_kept u d _))
  unfold Walked.leaves
  cases w.held with
  | none => exact cached _ (dropped _ (.refl s))
  | some x => exact cached _ (dropped _ (l2Gate_keeps s _ _))

theorem domainWalk_kept (s : State) (d vi asn va : Nat) : LaunchesKept s (domainWalk s d vi asn va).2 := by
  unfold domainWalk
  split
  · exact .refl s
  · exact Walked.leaves_kept _ s d

theorem orPte_keeps (s : State) (d entry bits : Nat) : TryKeeps s (orPte s d entry bits) :=
  .ite (stays s) ((homeReach_keeps s d _).bind fun t => .ok ((homeBytes_kept t _ _ _ _).trans (dirWrite_kept _ _ _ _)))

/-- Whether it is done or meets a fault, an access of the device leaves the launches as they were; `f` is the state in
what it answers. -/
def DevKeeps {α : Type} (s : State) (f : α → State) (r : DevRes α) : Prop :=
  match r with
  | .ok a => LaunchesKept s (f a)
  | .wait => True
  | .fault _ t => LaunchesKept s t

namespace DevKeeps
variable {α β : Type} {s : State} {f : α → State} {g : β → State}

theorem of_ok {r : DevRes α} {a : α} (h : DevKeeps s f r) (e : r = .ok a) : LaunchesKept s (f a) := by subst e; exact h
theorem of_fault {r : DevRes α} {va : Nat} {t : State} (h : DevKeeps s f r) (e : r = .fault va t) : LaunchesKept s t := by
  subst e; exact h

theorem ok {a : α} (h : LaunchesKept s (f a)) : DevKeeps s f (.ok a) := h
theorem fault {va : Nat} {t : State} (h : LaunchesKept s t) : DevKeeps s f (.fault va t) := h
theorem wait : DevKeeps s f .wait := trivial

theorem after {t : State} {r : DevRes α} (h : LaunchesKept s t) (hr : DevKeeps t f r) : DevKeeps s f r := by
  cases r with
  | ok a => exact h.trans hr
  | wait => trivial
  | fault va u => exact h.trans hr

theorem bind {r : DevRes α} {k : α → DevRes β} (h : DevKeeps s f r) (hk : ∀ a, DevKeeps (f a) g (k a)) :
    DevKeeps s g (r.bind k) := by
  cases r with
  | ok a => exact .after h (hk a)
  | wait => trivial
  | fault va t => exact h

theorem ite {p : Prop} [Decidable p] {r r' : DevRes α} (h : DevKeeps s f r) (h' : DevKeeps s f r') :
    DevKeeps s f (if p then r else r') := by split <;> assumption

end DevKeeps

theorem devWalk_keeps (s : State) (vi asn va : Nat) (write : Bool) : DevKeeps s Prod.snd (devWalk s vi asn va write) := by
  have walked := domainWalk_kept s (s.leadDom vi) vi asn (va % 2 ^ 57)
  unfold devWalk
  refine .ite (.fault (.refl s)) ?_
  split
  · exact .wait
  · next h => rw [h] at walked; exact .fault walked
  · next entry t u h =>
    rw [h] at walked
    dsimp only
    generalize (if mayDirty u vi asn (va % 2 ^ 57) t { reads := !write, writes := write } then 0x180 else 0x80) = bits
    have marked := orPte_keeps u (u.leadDom vi) entry bits
    split
    · exact .wait
    · next v e => exact .ok (walked.trans (marked.of_ok e))

theorem devAt_keeps {α : Type} {g : α → State} (s : State) (vi va pa : Nat) {f : State → DevRes α} (h : ∀ t, DevKeeps t g (f t)) :
    DevKeeps s g (devAt s vi va pa f) := by
  unfold devAt
  split
  · exact h s
  · exact .wait
  · exact .fault ((drawClasses_kept s).trans (noteDrop_kept _ _))

theorem plateGet_kept (s : State) (pa n : Nat) : LaunchesKept s (plateGet s pa n).1 := by
  have slot : LaunchesKept s (plateSlot s pa).2 := by
    unfold plateSlot
    dsimp only
    split
    · exact .refl s
    · exact fresh_kept s
  unfold plateGet
  dsimp only
  split <;> exact slot

/-- A read that goes ahead or waits leaves the launches as they were. -/
def ReadKeeps (s : State) (r : TryRead) : Prop := ∀ q, r = .ok q → LaunchesKept s q.1

theorem ReadKeeps.bind {s : State} {r : Try} {f : State → TryRead} (h : TryKeeps s r) (hf : ∀ t, ReadKeeps t (f t)) :
    ReadKeeps s (r >>= f) := by
  cases r with
  | error e => exact fun q hq => nomatch hq
  | ok t => exact fun q hq => h.trans (hf t q hq)

theorem readHome_keeps (s : State) (d pa n : Nat) : ReadKeeps s (readHome s d pa n) := by
  refine .bind (l2Gate_keeps s d _) fun t => .bind (dropAlias_keeps t d _) fun u => .bind (homeReach_keeps u d _) fun v q h => ?_
  cases h
  exact .refl v

theorem devGet_keeps (s : State) (vi asn va n : Nat) : DevKeeps s Prod.snd (devGet s vi asn va n) := by
  refine (devWalk_keeps s vi asn va false).bind fun q => .ite (.fault (.refl _)) (devAt_keeps _ _ _ _ fun t => ?_)
  refine .ite (.ite (.fault (plateGet_kept t _ n)) (.ok (plateGet_kept t _ n))) ?_
  have read := readHome_keeps t (homeOf (q.1.phys (va % 2 ^ 57))) (q.1.phys (va % 2 ^ 57)) n
  split
  · exact .wait
  · next h => exact .ok (read _ h)
  · next h => exact .fault (read _ h)

end Sys2Proof.Machine
end

section
/-!
What the host's side of the state is: the virtual interfaces, the queues with their graphs, and the events of the
cycle. Raising an event, sending a vector, giving a node its outcome and writing an image change nothing else (R370 to
R372, R413, R432).
-/
namespace Sys2Proof.Machine
open Sys2Proof

/-- `v` holds what `u` holds in every field but the virtual interfaces, the queues, the waiting nodes and the cycle. -/
def HostOnly (u v : State) : Prop :=
  { v with vis := [], queues := [], waiters := [], cycle := {} } =
    { u with vis := [], queues := [], waiters := [], cycle := {} }

theorem HostOnly.refl (u : State) : HostOnly u u := Eq.refl _
theorem HostOnly.trans {u v w : State} (h : HostOnly u v) (h' : HostOnly v w) : HostOnly u w := Eq.trans h' h

/-- Any other field is the same in both. -/
theorem HostOnly.field {u v : State} (h : HostOnly u v) {α : Sort*} (f : State → α)
    (hf : ∀ s : State, f { s with vis := [], queues := [], waiters := [], cycle := {} } = f s) : f v = f u := by
  rw [← hf v, ← hf u, h]

theorem HostOnly.blocks {u v : State} (h : HostOnly u v) : v.blocks = u.blocks := h.field State.blocks fun _ => rfl
theorem HostOnly.grids {u v : State} (h : HostOnly u v) : v.grids = u.grids := h.field State.grids fun _ => rfl
theorem HostOnly.grid {u v : State} (h : HostOnly u v) (g : Nat) : v.grid g = u.grid g :=
  h.field (fun s => s.grid g) fun _ => rfl

theorem foldl_hostOnly {β : Type*} (f : State → β → State) (h : ∀ s x, HostOnly s (f s x)) (ls : List β) (s : State) :
    HostOnly s (ls.foldl f s) := foldl_rel HostOnly.refl HostOnly.trans f h ls s

theorem setVI_hostOnly (s : State) (vi : Nat) (x : VIface) : HostOnly s (s.setVI vi x) := Eq.refl _

theorem setNode_hostOnly (s : State) (q n : Nat) (x : Node) : HostOnly s (s.setNode q n x) := by
  unfold State.setNode
  split <;> exact Eq.refl _

/-! ## Events, vectors and outcomes (R370 to R372) -/

theorem testWaits_hostOnly (vi n : Nat) (ws : List (Nat × Nat)) (s : State) : HostOnly s (testWaits vi n ws s) := by
  induction ws generalizing s with
  | nil => exact .refl s
  | cons w ws ih =>
    have served : ∀ t : State, HostOnly s t → HostOnly s (testWaits vi n ws
        { t.setNode w.1 w.2 { s.node w.1 w.2 with res := some (0, 0) } with waiters := t.waiters.filter (· != w) }) :=
      fun t h => (h.trans (HostOnly.trans (setNode_hostOnly t _ _ _) (Eq.refl _))).trans (ih _)
    simp only [testWaits]
    split
    · split
      · exact served _ (setVI_hostOnly s vi _)
      · exact served s (.refl s)
    · exact ih s

theorem testEvent_hostOnly (s : State) (vi n : Nat) : HostOnly s (testEvent s vi n) := by
  unfold testEvent
  split
  · exact Eq.refl _
  · exact testWaits_hostOnly vi n _ s

theorem raiseEvents_hostOnly (s : State) (vi : Nat) (ns : List Nat) : HostOnly s (raiseEvents s vi ns) :=
  (foldl_hostOnly _ (fun t _ => setVI_hostOnly t vi _) _ s).trans
    (foldl_hostOnly _ (fun t n => testEvent_hostOnly t vi n) _ _)

theorem nodeOutcome_hostOnly (s : State) (q n code addr : Nat) : HostOnly s (nodeOutcome s q n code addr) := by
  unfold nodeOutcome
  dsimp only
  split
  · exact setNode_hostOnly s q n _
  · exact .refl s

/-! ## What the device is to write (R413, R432) -/

theorem devQueue_hostOnly {s t : State} {vi asn va n x : Nat} (h : devQueue s vi asn va n x = some t) : HostOnly s t := by
  unfold devQueue at h
  split at h <;> cases h
  exact setVI_hostOnly s vi _

theorem devQueue_getD_hostOnly (s : State) (vi asn va n x : Nat) : HostOnly s ((devQueue s vi asn va n x).getD s) := by
  cases h : devQueue s vi asn va n x with
  | none => exact .refl s
  | some t => exact devQueue_hostOnly h

theorem queueBytes_hostOnly (s : State) (vi asn va n : Nat) (m : Memory) : HostOnly s (queueBytes s vi asn va n m) :=
  foldl_hostOnly _ (fun t _ => devQueue_getD_hostOnly t vi asn _ _ _) _ s

theorem changeOrrery_hostOnly (s : State) (vi off n : Nat) (m : Memory) : HostOnly s (changeOrrery s vi off n m) := by
  unfold changeOrrery
  dsimp only
  split
  · exact .refl s
  · exact ((((setVI_hostOnly s vi _).trans (queueBytes_hostOnly _ _ _ _ _ _)).trans (queueBytes_hostOnly _ _ _ _ _ _)).trans
      (queueBytes_hostOnly _ _ _ _ _ _)).trans (queueBytes_hostOnly _ _ _ _ _ _)

theorem bookWrite_hostOnly (s : State) (vi asn : Nat) (b : Daybook) (kind src stage body : Nat) :
    HostOnly s (bookWrite s vi asn b kind src stage body).1 := by
  unfold bookWrite
  dsimp only
  split
  · exact .refl s
  · split
    · next h => exact devQueue_hostOnly h
    · exact .refl s

end Sys2Proof.Machine
end

section
/-!
What the records kept of a launch change: its mill's cores and races, its completed shares, its figures and its status;
the blocks, the threads and everything else about its launches stay (R204, R284, R331, R338, R370, R398).
-/
namespace Sys2Proof.Machine
open Sys2Proof

/-- A launch without what is noted of its progress. -/
def Grid.unnoted (g : Grid) : Grid := { g with mill := none, shares := [], figures := [], status := none }

/-- `v` differs from `u` only in what is noted of its launches, and on the host's side; a status once noted stands. -/
structure LaunchesNoted (u v : State) : Prop where
  blocks : v.blocks = u.blocks
  nextBlk : v.nextBlk = u.nextBlk
  threads : v.threads = u.threads
  wefts : v.wefts = u.wefts
  noted : ∀ g, (v.grid g).unnoted = (u.grid g).unnoted
  status : ∀ g x, (u.grid g).status = some x → (v.grid g).status = some x

namespace LaunchesNoted

theorem refl (u : State) : LaunchesNoted u u := ⟨rfl, rfl, rfl, rfl, fun _ => rfl, fun _ _ h => h⟩

theorem trans {u v w : State} (h : LaunchesNoted u v) (h' : LaunchesNoted v w) : LaunchesNoted u w :=
  ⟨h'.blocks.trans h.blocks, h'.nextBlk.trans h.nextBlk, h'.threads.trans h.threads, h'.wefts.trans h.wefts,
    fun g => (h'.noted g).trans (h.noted g), fun g x hx => h'.status g x (h.status g x hx)⟩

theorem of_hostOnly {u v : State} (h : HostOnly u v) : LaunchesNoted u v where
  blocks := h.blocks
  nextBlk := h.field State.nextBlk fun _ => rfl
  threads := h.field State.threads fun _ => rfl
  wefts := h.field State.wefts fun _ => rfl
  noted g := by rw [h.grid]
  status g x hx := by rw [h.grid, hx]

theorem of_setGrid {s : State} {gid : Nat} {x : Grid} (noted : x.unnoted = (s.grid gid).unnoted)
    (status : ∀ y, (s.grid gid).status = some y → x.status = some y) : LaunchesNoted s (s.setGrid gid x) := by
  refine ⟨rfl, rfl, rfl, rfl, fun g => ?_, fun g y hy => ?_⟩
  · rw [State.grid_setGrid]
    split
    · next same => rw [same, noted]
    · rfl
  · rw [State.grid_setGrid]
    split
    · next same => exact status y (same ▸ hy)
    · exact hy

variable {u v : State} (h : LaunchesNoted u v)
include h

theorem block (b : Nat) : v.block b = u.block b := by rw [State.block, h.blocks, State.block]
theorem weft (b w : Nat) : v.weft b w = u.weft b w := by rw [State.weft, h.wefts, State.weft]
/-- What the notes do not hold is the same of a launch in both. -/
theorem field (g : Nat) {α : Sort*} (f : Grid → α) (hf : ∀ x : Grid, f x.unnoted = f x) : f (v.grid g) = f (u.grid g) := by
  rw [← hf, h.noted, hf]

theorem stages (g : Nat) : (v.grid g).stages = (u.grid g).stages := h.field g Grid.stages fun _ => rfl
theorem book (g : Nat) : (v.grid g).book = (u.grid g).book := h.field g Grid.book fun _ => rfl
theorem ended (g : Nat) : (v.grid g).ended = (u.grid g).ended := h.field g Grid.ended fun _ => rfl
theorem counted (g : Nat) : (v.grid g).counted = (u.grid g).counted := h.field g Grid.counted fun _ => rfl
theorem nextLin (g : Nat) : (v.grid g).nextLin = (u.grid g).nextLin := h.field g Grid.nextLin fun _ => rfl
theorem launch (b : Nat) : v.launch b = u.launch b := by simp only [State.launch, h.block, h.stages]

end LaunchesNoted

/-! ## What is noted -/

theorem recordStatus_noted (s : State) (b code : Nat) : LaunchesNoted s (recordStatus s b code) := by
  unfold recordStatus
  dsimp only
  split
  · exact .refl s
  · next none => exact .of_setGrid rfl fun y hy => absurd (by rw [hy]; rfl) none

theorem noteFailures_noted (s : State) (b : Nat) : LaunchesNoted s (noteFailures s b) := by
  have noted : ∀ (t : State) (p : Bool) (code : Nat), LaunchesNoted t (if p then recordStatus t b code else t) := by
    intro t p code
    split
    · exact recordStatus_noted t b code
    · exact .refl t
  exact (noted s _ 0x11).trans (noted _ _ 0x12)

theorem noteFigures_noted (s : State) (b : Nat) : LaunchesNoted s (noteFigures s b) := .of_setGrid rfl fun _ h => h

theorem settleCore_noted (s : State) (core : Nat) : LaunchesNoted s (settleCore s core) := by
  unfold settleCore
  split
  · exact .refl s
  · split
    · exact .refl s
    · split
      · exact .refl s
      · split
        · exact .of_setGrid rfl fun _ h => h
        · exact .refl s

theorem settleRaces_noted (s : State) (gid : Nat) : LaunchesNoted s (settleRaces s gid) := by
  unfold settleRaces
  split
  · exact .refl s
  · exact .of_setGrid rfl fun _ h => h

theorem checkShares_noted (s : State) (gid : Nat) : LaunchesNoted s (checkShares s gid) := by
  unfold checkShares
  dsimp only
  split
  · exact .refl s
  · refine .trans (.of_setGrid ?_ ?_) (.of_hostOnly (raiseEvents_hostOnly _ _ _))
    · rfl
    · exact fun _ h => h

end Sys2Proof.Machine
end

section
/-!
A block leaves its core: at the end of a phase it is QUEUED for the next, and once its every lane is over it retires
(R157, R158, R163, R204).
-/
namespace Sys2Proof

theorem Sp.mem_of_find {α : Type} {m : Sp α} {k : Nat} {a : α} (h : Sp.find? m k = some a) : (k, a) ∈ m := by
  induction m with
  | nil => cases h
  | cons e m ih =>
    rw [Sp.find_cons] at h
    split at h
    · next same =>
      cases h
      rw [← same]
      exact List.mem_cons_self
    · exact List.mem_cons_of_mem _ (ih h)

theorem Sp.find_eq_none {α : Type} {m : Sp α} {k : Nat} (h : ∀ e ∈ m, e.1 ≠ k) : Sp.find? m k = none := by
  cases found : Sp.find? m k with
  | none => rfl
  | some a => exact absurd rfl (h _ (Sp.mem_of_find found))

namespace Machine

/-! ## A launch that keeps no daybook (R413) -/

section
variable {s : State} {b gid : Nat}

theorem logDecision_of_no_book (h : (s.grid gid).book = none) (kind src stage body : Nat) :
    logDecision s gid kind src stage body = s := by simp only [logDecision, h]

theorem bookNext_of_no_book (h : (s.grid gid).book = none) (p : Nat → Bool) : bookNext s gid p = none := by
  simp only [bookNext, h]

theorem noteDigest_of_no_book (h : (s.grid (s.block b).gid).book = none) (len : Nat) (m : Memory) : noteDigest s b len m = s := by
  simp only [noteDigest, bookNext_of_no_book h, logDecision_of_no_book h]

theorem logPreempt_of_no_book (h : (s.grid (s.block b).gid).book = none) (m : Method) : logPreempt s b m = s := by
  cases m <;> simp only [logPreempt, logDecision_of_no_book h, ite_self]

/-! ## A block that leaves its core (R140, R158, R397) -/

theorem logPreempt_drain_of_no_method (h : (s.block b).method = none) : logPreempt s b .drain = s := by
  simp [logPreempt, h]

/-- What a block that leaves its core changes: the commands that counted it, and its own entry. -/
theorem leaveCmd_eq {m : Method} (h : logPreempt s b m = s) : ∃ cmds, leaveCmd s b m =
    { s with cmds := cmds }.setBlock b { s.block b with method := none, under := [], stopped := false } := by
  have counted : ∀ (f : State → Nat → Sp PreCmd) (ns : List Nat),
      ∃ cmds, ns.foldl (fun t n => { t with cmds := f t n }) s = { s with cmds := cmds } := by
    intro f ns
    refine foldl_rel (R := fun t u : State => ∃ cmds, u = { t with cmds := cmds }) (fun t => ⟨t.cmds, rfl⟩) ?_ _
      (fun t n => ⟨f t n, rfl⟩) ns s
    rintro t u w ⟨c, rfl⟩ ⟨d, rfl⟩
    exact ⟨d, rfl⟩
  obtain ⟨cmds, eq⟩ := counted _ (s.block b).under
  refine ⟨cmds, ?_⟩
  simp only [leaveCmd, h]
  rw [eq]
  rfl

section
variable {m : Method} (h : logPreempt s b m = s)
include h

theorem leaveCmd_threads : (leaveCmd s b m).threads = s.threads := by
  obtain ⟨cmds, eq⟩ := leaveCmd_eq h
  rw [eq, State.setBlock_threads]

theorem leaveCmd_wefts : (leaveCmd s b m).wefts = s.wefts := by
  obtain ⟨cmds, eq⟩ := leaveCmd_eq h
  rw [eq, State.setBlock_wefts]

theorem leaveCmd_grids : (leaveCmd s b m).grids = s.grids := by
  obtain ⟨cmds, eq⟩ := leaveCmd_eq h
  rw [eq, State.setBlock_grids]

theorem leaveCmd_blocks :
    (leaveCmd s b m).blocks = Sp.put s.blocks b { s.block b with method := none, under := [], stopped := false } := by
  obtain ⟨cmds, eq⟩ := leaveCmd_eq h
  rw [eq]
  rfl

end

theorem clearWefts_thread (s : State) (b : Nat) {w l : Nat} (hw : w < 128) (hl : l < 32) :
    Sp.find? (clearWefts s b).threads (tkey b w l) = none := by
  refine Sp.find_eq_none fun e he same => ?_
  have other := (List.mem_filter.mp he).2
  simp only [bne_iff_ne, ne_eq, same, tkey] at other
  omega

theorem foldl_setWeft (f : Nat → Weft) (n : Nat) (s : State) (b w : Nat) :
    ((List.range n).foldl (fun t i => t.setWeft b i (f i)) s).weft b w = if w < n then f w else s.weft b w := by
  induction n with
  | zero => rfl
  | succ n ih =>
    rw [List.range_succ, List.foldl_append, List.foldl_cons, List.foldl_nil, State.weft_setWeft, ih]
    have key : wkey b w = wkey b n ↔ w = n := by simp only [wkey]; omega
    simp only [key]
    split
    · next same => rw [if_pos (by omega), same]
    · exact if_congr (by omega) rfl rfl

/-- Beyond what is cleared, only the block's wefts are written. -/
theorem releaseWefts_eq (s : State) (b : Nat) : ∃ ws, releaseWefts s b = { clearWefts s b with wefts := ws } := by
  refine foldl_rel (R := fun t u : State => ∃ ws, u = { t with wefts := ws }) (fun t => ⟨t.wefts, rfl⟩) ?_ _
    (fun t i => ⟨_, rfl⟩) (List.range (s.launch b).wefts) (clearWefts s b)
  rintro t u w ⟨c, rfl⟩ ⟨d, rfl⟩
  exact ⟨d, rfl⟩

theorem releaseWefts_threads (s : State) (b : Nat) : (releaseWefts s b).threads = (clearWefts s b).threads := by
  obtain ⟨ws, eq⟩ := releaseWefts_eq s b
  rw [eq]

theorem releaseWefts_block (s : State) (b c : Nat) : (releaseWefts s b).block c = s.block c := by
  obtain ⟨ws, eq⟩ := releaseWefts_eq s b
  rw [eq]
  rfl

theorem releaseWefts_grid (s : State) (b g : Nat) : (releaseWefts s b).grid g = s.grid g := by
  obtain ⟨ws, eq⟩ := releaseWefts_eq s b
  rw [eq]
  rfl

theorem releaseWefts_weft (s : State) (b : Nat) {w : Nat} (hw : w < (s.launch b).wefts) :
    (releaseWefts s b).weft b w = { wst := (s.weft b w).wst.leaves .released } := by
  rw [releaseWefts, foldl_setWeft, if_pos hw]

end

/-! ## The end of a phase (R157, R158, R403) -/

/-- A block that waits for its next phase, with the record of this one. -/
def Block.requeued (k : Block) (phase : Nat) (a : Area) : Block := { k with
  bst := .queued, phase := phase, hand := none, area := none, record := some a
  spm := [], spmBad := [], was := [], bars := [], pushed := 0, raced := false, issues := 0, atoms := [] }

/-- The step of a block whose phase record is written, where no daybook is kept. -/
theorem exec_phaseEnd {s u v w : State} {b base len : Nat} {m : Memory} (draining : (s.block b).bst = .draining)
    (done : workDone s b = true) (yields : atYield s b = true) (released : releaseTry s (s.block b).core .dom = .ok u)
    (hlen : phaseLen (u.launch b) true = len) (hm : tagged u len (phaseRecord u b true) = m)
    (free : freeUnits (u.setBlock b { s.block b with record := none }) (s.grid (s.block b).gid).vi (domOf (s.block b).core)
      (unitsOf len) = some base)
    (put : putArea u base len m (phaseBad u b true) = .ok v) (hw : noteFailures v b = w)
    (book : (w.grid (w.block b).gid).book = none) (running : (w.grid (s.block b).gid).ended = false) :
    exec (.phaseEnd b) s = .next (settleCore ((leaveCmd (releaseWefts w b) b .drain).setBlock b
      (((leaveCmd (releaseWefts w b) b .drain).block b).requeued ((s.block b).phase + 1)
        { dom := domOf (s.block b).core, base := base, units := unitsOf len, len := len })) (s.block b).core) := by
  have goes : ((s.block b).bst != .draining || !workDone s b || !atYield s b) = false := by simp [draining, done, yields]
  subst hlen hm hw
  rw [show exec (.phaseEnd b) s = execPhaseEnd b s from rfl]
  simp only [execPhaseEnd, goes, released, free, put, noteDigest_of_no_book book, running, Bool.false_eq_true, if_false]
  rfl

/-- A draining block whose work is done and whose record is written is QUEUED for its next phase. -/
theorem phaseEnd_queues {s u v : State} {b base : Nat} (draining : (s.block b).bst = .draining)
    (done : workDone s b = true) (yields : atYield s b = true) (running : (s.grid (s.block b).gid).ended = false)
    (book : (s.grid (s.block b).gid).book = none) (released : releaseTry s (s.block b).core .dom = .ok u)
    (free : freeUnits (u.setBlock b { s.block b with record := none }) (s.grid (s.block b).gid).vi (domOf (s.block b).core)
      (unitsOf (phaseLen (u.launch b) true)) = some base)
    (put : putArea u base (phaseLen (u.launch b) true) (tagged u (phaseLen (u.launch b) true) (phaseRecord u b true))
      (phaseBad u b true) = .ok v) :
    ∃ t, exec (.phaseEnd b) s = .next t ∧ (t.block b).bst = .queued ∧ (t.block b).phase = (s.block b).phase + 1 ∧
      ((t.block b).record.map fun a => (a.dom, a.base, a.len)) =
        some (domOf (s.block b).core, base, phaseLen (u.launch b) true) ∧
      (t.block b).hand = none ∧ (t.block b).spm = [] ∧ (t.block b).bars = [] ∧
      (∀ w < (s.launch b).wefts,
        (t.weft b w).wst = if (s.weft b w).wst = .finished then .finished else .released) ∧
      ∀ w < 128, ∀ l < 32, Sp.find? t.threads (tkey b w l) = none := by
  have kept : LaunchesKept s v := ((releaseTry_keeps s _ _).of_ok released).trans ((putArea_keeps u _ _ _ _).of_ok put)
  have noted : LaunchesNoted v (noteFailures v b) := noteFailures_noted v b
  have noBook : ((noteFailures v b).grid ((noteFailures v b).block b).gid).book = none := by
    rw [noted.book, noted.block, kept.grid, kept.block, book]
  have quiet : logPreempt (releaseWefts (noteFailures v b) b) b .drain = releaseWefts (noteFailures v b) b :=
    logPreempt_of_no_book (by rw [releaseWefts_block, releaseWefts_grid, noBook]) _
  refine ⟨_, exec_phaseEnd draining done yields released rfl rfl free put rfl noBook
    (by rw [noted.ended, kept.grid, running]), ?_⟩
  have settled := fun t => settleCore_noted t (s.block b).core
  rw [(settled _).block, State.block_setBlock_same]
  refine ⟨rfl, rfl, rfl, rfl, rfl, rfl, fun w hw => ?wefts, fun w hw l hl => ?threads⟩
  case wefts =>
    rw [(settled _).weft, State.weft, State.setBlock_wefts, leaveCmd_wefts quiet, ← State.weft,
      releaseWefts_weft _ _ (by rwa [noted.launch, kept.launch])]
    simp only [WeftState.leaves, noted.weft, kept.finished]
  case threads =>
    rw [(settled _).threads, State.setBlock_threads, leaveCmd_threads quiet, releaseWefts_threads]
    exact clearWefts_thread _ b hw hl

end Machine
end Sys2Proof
end

section
/-!
A block whose every lane is over retires, and is counted (R163, R204).
-/
namespace Sys2Proof.Machine
open Sys2Proof

/-! ## The count of a block (R204) -/

theorem countBlock_block (s : State) (b c : Nat) : (countBlock s b).block c = s.block c := (checkShares_noted _ _).block c

theorem countBlock_counted (s : State) (b : Nat) :
    Sp.get 0 ((countBlock s b).grid (s.block b).gid).counted (s.block b).countDom =
      Sp.get 0 (s.grid (s.block b).gid).counted (s.block b).countDom + 1 := by
  rw [countBlock, (checkShares_noted _ _).counted, State.grid_setGrid_same, Sp.get_put_same]

/-! ## Retirement (R163) -/

/-- A block that is over, with nothing left of it but its place in the launch. -/
def Block.retired (k : Block) : Block :=
  { k with bst := .retired, record := none, area := none, spm := [], spmBad := [], was := [], bars := [] }

/-- The block is over, and its core may serve another stage. -/
def leavesRetired (w : State) (b core : Nat) : State :=
  settleCore ((leaveCmd (clearWefts w b) b .drain).setBlock b ((leaveCmd (clearWefts w b) b .drain).block b).retired) core

/-- What retirement makes of a state in which the block's failures and figures are noted. -/
def retiresBlock (w : State) (b core gid : Nat) : State := settleRaces (countBlock (leavesRetired w b core) b) gid

/-- The step of a block that is over, where no daybook is kept. -/
theorem exec_blockRetire {s u w : State} {b : Nat} (resident : (s.block b).bst = .resident)
    (isOver : ∀ i < (s.launch b).wefts, ∀ l < 32, (s.thread b i l).tst.over = true)
    (done : workDone s b = true) (released : releaseTry s (s.block b).core .dom = .ok u)
    (hw : noteFigures (noteFailures u b) b = w)
    (book : (w.grid (w.block b).gid).book = none) (running : (w.grid (s.block b).gid).ended = false) :
    exec (.blockRetire b) s = .next (retiresBlock w b (s.block b).core (s.block b).gid) := by
  have goes : ((s.block b).bst != .resident || !((List.range (s.launch b).wefts).all fun i =>
      (List.range 32).all fun l => (s.thread b i l).tst.over) || !workDone s b) = false := by
    simp [resident, done]
    exact isOver
  subst hw
  rw [show exec (.blockRetire b) s = execBlockRetire b s from rfl]
  simp only [execBlockRetire, goes, released, noteDigest_of_no_book book, running, Bool.false_eq_true, if_false]
  rfl

section
variable {w : State} {b : Nat} (book : (w.grid (w.block b).gid).book = none)
include book

theorem leaveCmd_clearWefts_block : (leaveCmd (clearWefts w b) b .drain).block b =
    { w.block b with method := none, under := [], stopped := false } := by
  rw [State.block, leaveCmd_blocks (logPreempt_of_no_book (s := clearWefts w b) book .drain), Sp.get_put_same]
  rfl

theorem leaveCmd_clearWefts_grid (g : Nat) : (leaveCmd (clearWefts w b) b .drain).grid g = w.grid g := by
  rw [State.grid, leaveCmd_grids (logPreempt_of_no_book (s := clearWefts w b) book .drain)]
  rfl

theorem leavesRetired_block (core : Nat) : (leavesRetired w b core).block b =
    Block.retired { w.block b with method := none, under := [], stopped := false } := by
  rw [leavesRetired, (settleCore_noted _ _).block, State.block_setBlock_same, leaveCmd_clearWefts_block book]

theorem leavesRetired_counted (core g : Nat) : ((leavesRetired w b core).grid g).counted = (w.grid g).counted := by
  rw [leavesRetired, (settleCore_noted _ _).counted, State.grid, State.setBlock_grids, ← State.grid,
    leaveCmd_clearWefts_grid book]

theorem retiresBlock_block (core gid : Nat) : (retiresBlock w b core gid).block b =
    Block.retired { w.block b with method := none, under := [], stopped := false } := by
  rw [retiresBlock, (settleRaces_noted _ _).block, countBlock_block, leavesRetired_block book]

theorem retiresBlock_counted (core : Nat) :
    Sp.get 0 ((retiresBlock w b core (w.block b).gid).grid (w.block b).gid).counted (w.block b).countDom =
      Sp.get 0 (w.grid (w.block b).gid).counted (w.block b).countDom + 1 := by
  have counted := countBlock_counted (leavesRetired w b core) b
  rw [leavesRetired_counted book, leavesRetired_block book] at counted
  rw [retiresBlock, (settleRaces_noted _ _).counted]
  exact counted

end

/-- A block whose every lane is over and whose work is done is RETIRED, and counted once. -/
theorem blockRetire_retires {s u : State} {b : Nat} (resident : (s.block b).bst = .resident)
    (isOver : ∀ i < (s.launch b).wefts, ∀ l < 32, (s.thread b i l).tst.over = true)
    (done : workDone s b = true) (running : (s.grid (s.block b).gid).ended = false)
    (book : (s.grid (s.block b).gid).book = none) (released : releaseTry s (s.block b).core .dom = .ok u) :
    ∃ t, exec (.blockRetire b) s = .next t ∧ (t.block b).bst = .retired ∧ (t.block b).record = none ∧ (t.block b).spm = [] ∧
      Sp.get 0 (t.grid (s.block b).gid).counted (s.block b).countDom =
        Sp.get 0 (s.grid (s.block b).gid).counted (s.block b).countDom + 1 := by
  have kept : LaunchesKept s u := (releaseTry_keeps s _ _).of_ok released
  have noted : LaunchesNoted u (noteFigures (noteFailures u b) b) :=
    (noteFailures_noted u b).trans (noteFigures_noted _ b)
  generalize hw : noteFigures (noteFailures u b) b = w at noted
  have entry : w.block b = s.block b := by rw [noted.block, kept.block]
  have noBook : (w.grid (w.block b).gid).book = none := by rw [entry, noted.book, kept.grid, book]
  refine ⟨_, exec_blockRetire resident isOver done released hw noBook (by rw [noted.ended, kept.grid, running]), ?_⟩
  have counted := retiresBlock_counted noBook (s.block b).core
  rw [retiresBlock_block noBook]
  rw [entry, noted.counted, kept.grid] at counted
  exact ⟨rfl, rfl, rfl, counted⟩

end Sys2Proof.Machine
end

section
/-!
The dispatchers: a block is handed to a domain, and a cluster changes its mode (R199, R200, R435, R436).
-/
namespace Sys2Proof.Machine
open Sys2Proof

/-! ## Handing (R435, R436) -/

theorem State.grid_of_find {s : State} {gid : Nat} {x : Grid} (h : Sp.find? s.grids gid = some x) : s.grid gid = x := by
  rw [State.grid, Sp.get, h, Option.getD_some]

theorem hintOf_kept {s u : State} {gid st lin : Nat} {h : Option Nat} (e : hintOf s gid st lin = .ok (h, u)) :
    LaunchesKept s u := by
  have read := devGet_keeps s (s.grid gid).vi (s.grid gid).asn ((stageLaunch s gid st).hints.toNat + lin) 1
  unfold hintOf at e
  dsimp only at e
  split at e
  · cases e
    exact .refl s
  · split at e
    · next r => cases e; exact read.of_ok r
    · cases e
    · next r => cases e; exact read.of_fault r
  · cases e
    exact .refl s

/-- A block that is handed for its first phase is created, and counts among those of its stage. -/
theorem handBlock_first (s : State) (gid st lin d : Nat) :
    let t := handBlock s gid st lin d none
    t.block s.nextBlk = { gid := gid, stage := st, lin := lin, hand := some d, countDom := d } ∧
      t.nextBlk = s.nextBlk + 1 ∧ (t.grid gid).nextLin = (s.grid gid).nextLin.set st (lin + 1) := by
  have noted := fun t => checkShares_noted t gid
  refine ⟨?_, ?_, ?_⟩
  · rw [handBlock, (noted _).block]
    exact State.block_setBlock_same s _ _
  · rw [handBlock, (noted _).nextBlk]
    rfl
  · rw [handBlock, (noted _).nextLin]
    exact congrArg Grid.nextLin (State.grid_setGrid_same _ gid _)

/-- A block that no daybook places is handed to the domain that its hint and the load allow. -/
theorem handBlock_hands {s u : State} {gid st lin d : Nat} {x : Grid} {h : Option Nat} (found : Sp.find? s.grids gid = some x)
    (live : x.live = true) (book : x.book = none) (head : handHead s gid st = some (lin, none))
    (hint : hintOf s gid st lin = .ok (h, u)) (goes : handTo u gid st h = some d) :
    ∃ t, exec (.handBlock gid st) s = .next t ∧
      t.block s.nextBlk = { gid := gid, stage := st, lin := lin, hand := some d, countDom := d } ∧
      t.nextBlk = s.nextBlk + 1 ∧ (t.grid gid).nextLin = x.nextLin.set st (lin + 1) := by
  have kept := hintOf_kept hint
  have grid := State.grid_of_find found
  have noRecord : ∀ phase, placeRecord s gid st lin phase = none := fun phase => by
    rw [placeRecord, bookNext_of_no_book (by rw [grid, book]), ite_self]
  have run : exec (.handBlock gid st) s = .next (handBlock u gid st lin d none) := by
    rw [show exec (.handBlock gid st) s = execHandBlock gid st s from rfl]
    simp only [execHandBlock, found, live, head, noRecord, Option.map_none, Option.getD_none, Option.bind_none, hint, goes,
      Bool.not_true, Bool.false_eq_true, if_false]
  obtain ⟨block, next, nextLin⟩ := handBlock_first u gid st lin d
  rw [kept.nextBlk] at block next
  rw [kept.grid, grid] at nextLin
  exact ⟨_, run, block, next, nextLin⟩

/-! ## Conversion of a cluster (R200) -/

theorem clusterConvert_unfuses {s : State} {d cl : Nat} (free : (s.domain d).conv = none) (must : mustUnfuse s d cl = true) :
    ∃ t, exec (.clusterConvert d cl) s = .next t ∧ (t.domain d).conv = some (cl, false) := by
  refine ⟨s.setDomain d { s.domain d with conv := some (cl, false) }, ?_, by rw [State.domain_setDomain_same]⟩
  rw [show exec (.clusterConvert d cl) s = execClusterConvert d cl s from rfl]
  simp only [execClusterConvert, free, must, Option.isSome_none, Bool.false_eq_true, if_false, if_true]

theorem clusterConvert_converts {s : State} {d cl : Nat} (free : (s.domain d).conv = none) (may : mustUnfuse s d cl = false)
    (stuck : ∃ q ∈ queueOrder s, stuckHead s d q = true ∧ clusterFor s d q = some cl) :
    ∃ t, exec (.clusterConvert d cl) s = .next t ∧ (t.domain d).conv = some (cl, !(s.domain d).fused.contains cl) := by
  have asked : ((queueOrder s).any fun q => stuckHead s d q && clusterFor s d q == some cl) = true := by
    obtain ⟨q, mem, head, this⟩ := stuck
    exact List.any_eq_true.mpr ⟨q, mem, by rw [head, this, Bool.true_and, beq_self_eq_true]⟩
  refine ⟨s.setDomain d { s.domain d with conv := some (cl, !(s.domain d).fused.contains cl) }, ?_,
    by rw [State.domain_setDomain_same]⟩
  rw [show exec (.clusterConvert d cl) s = execClusterConvert d cl s from rfl]
  simp only [execClusterConvert, free, may, asked, Option.isSome_none, Bool.false_eq_true, if_false, if_true]

/-! ## The end of a conversion -/

theorem cleanL1All_of_empty {s : State} (empty : ∀ c, (s.core c).l1 = []) (core : Nat) : cleanL1All s core = (true, s) := by
  unfold cleanL1All
  induction l1Cores s core with
  | nil => rfl
  | cons c cs ih =>
    rw [List.foldl_cons, empty]
    exact ih

/-- The four L1s cleaned in turn, and whether all went ahead, as CLUSTER_CONVERT_DONE does it. -/
theorem foldl_cleanL1All_of_empty {s : State} (empty : ∀ c, (s.core c).l1 = []) (cores : List Nat) :
    cores.foldl (fun (r : Bool × State) c => ((r.1 && (cleanL1All r.2 c).1), (cleanL1All r.2 c).2)) (true, s) = (true, s) := by
  induction cores with
  | nil => rfl
  | cons c cs ih => rw [List.foldl_cons, cleanL1All_of_empty empty, Bool.and_self, ih]

/-- The state with the L1s of cores invalid. -/
def emptyL1s (cores : List Nat) (s : State) : State := cores.foldl (fun s c => s.setCore c { s.core c with l1 := [] }) s

theorem emptyL1s_l1 {s : State} (empty : ∀ c, (s.core c).l1 = []) (cores : List Nat) (c : Nat) :
    ((emptyL1s cores s).core c).l1 = [] := by
  refine foldl_rel (R := fun u v : State => (∀ c, (u.core c).l1 = []) → ∀ c, (v.core c).l1 = []) (fun _ h => h)
    (fun h h' hu => h' (h hu)) _ (fun u i hu c => ?_) cores s empty c
  rw [State.core_setCore]
  split
  · rfl
  · exact hu c

theorem refreshOrrery_core (s : State) (d c : Nat) : (refreshOrrery s d).core c = s.core c := by
  rw [refreshOrrery, (foldl_hostOnly _ (fun t _ => changeOrrery_hostOnly t _ _ _ _) _ _).field (fun u => u.core c) fun _ => rfl]
  rfl

/-- Of a domain, only the count of its corrected errors changes as its entry is written. -/
theorem refreshOrrery_domain (s : State) (d : Nat) :
    ∃ n, (refreshOrrery s d).domain d = { s.domain d with corrected := n } := by
  rw [refreshOrrery, (foldl_hostOnly _ (fun t _ => changeOrrery_hostOnly t _ _ _ _) _ _).field (fun u => u.domain d) fun _ => rfl]
  exact ⟨_, State.domain_setDomain_same _ d _⟩

/-- A domain whose conversion of a cluster has ended. -/
def Domain.converted (x : Domain) (cl : Nat) (fuse : Bool) : Domain :=
  { x with conv := none, fused := if fuse then x.fused ++ [cl] else x.fused.filter (· != cl) }

theorem Domain.converted_fused (x : Domain) (cl : Nat) (fuse : Bool) : (x.converted cl fuse).fused.contains cl = fuse := by
  cases fuse <;> simp [Domain.converted]

/-- A conversion ends with the four L1s of the cluster empty, and the cluster in its new mode. -/
theorem clusterConvertDone_converts {s : State} {d cl : Nat} {fuse : Bool} (conv : (s.domain d).conv = some (cl, fuse))
    (empty : ∀ c, (s.core c).l1 = []) :
    ∃ t, exec (.clusterConvertDone d cl) s = .next t ∧ (t.domain d).conv = none ∧ (t.domain d).fused.contains cl = fuse ∧
      ∀ i < 4, (t.core (d * 40 + cl * 4 + i)).l1 = [] := by
  have run : exec (.clusterConvertDone d cl) s = .next (refreshOrrery
      ((emptyL1s ((List.range 4).map fun i => d * 40 + cl * 4 + i) s).setDomain d
        (((emptyL1s ((List.range 4).map fun i => d * 40 + cl * 4 + i) s).domain d).converted cl fuse)) d) := by
    rw [show exec (.clusterConvertDone d cl) s = execClusterConvertDone d cl s from rfl]
    simp only [execClusterConvertDone, conv, foldl_cleanL1All_of_empty empty, ne_eq, not_true_eq_false, if_false,
      Bool.not_true, Bool.false_eq_true]
    rfl
  obtain ⟨n, domain⟩ := refreshOrrery_domain ((emptyL1s ((List.range 4).map fun i => d * 40 + cl * 4 + i) s).setDomain d
        (((emptyL1s ((List.range 4).map fun i => d * 40 + cl * 4 + i) s).domain d).converted cl fuse)) d
  rw [State.domain_setDomain_same] at domain
  refine ⟨_, run, ?_, ?_, fun i _ => ?_⟩
  · rw [domain]
    rfl
  · rw [domain]
    exact Domain.converted_fused _ cl fuse
  · rw [refreshOrrery_core]
    exact emptyL1s_l1 empty _ _

end Sys2Proof.Machine
end

section
/-!
The end of a launch: its daybook ends, it completes with its event and its node's outcome, or system software ends it
and no block of it stays (R204, R370, R413).
-/
namespace Sys2Proof

theorem Sp.find_map {α β : Type} (f : α → β) (m : Sp α) (k : Nat) :
    Sp.find? (m.map fun e => (e.1, f e.2)) k = (Sp.find? m k).map f := by
  induction m with
  | nil => rfl
  | cons e m ih =>
    obtain ⟨j, a⟩ := e
    rw [List.map_cons, Sp.find_cons, Sp.find_cons, ih]
    split <;> rfl

namespace Machine

/-! ## Completion (R204, R413) -/

section
variable {s : State} {gid : Nat} {x : Grid} (found : Sp.find? s.grids gid = some x) (grid : x.mill = none)
  (going : x.complete = false) (met : sharesMet s gid = true)
include found grid going met

theorem exec_gridComplete_of_book {t : State} (h : endBook s gid = .error t) : exec (.gridComplete gid) s = .next t := by
  rw [show exec (.gridComplete gid) s = execGridComplete gid s from rfl]
  simp only [execGridComplete, found, grid, going, met, h, Option.isSome_none, Bool.not_true, Bool.or_self,
    Bool.false_eq_true, if_false]

theorem exec_gridComplete_of_released {t : State} (h : endBook s gid = .ok s)
    (released : releaseCores x.cores x.scope s = (true, t)) : exec (.gridComplete gid) s = .next (announceLaunch t gid) := by
  rw [show exec (.gridComplete gid) s = execGridComplete gid s from rfl]
  simp only [execGridComplete, found, grid, going, met, h, released, Option.isSome_none, Bool.not_true, Bool.or_self,
    Bool.false_eq_true, if_false, if_true]

theorem gridComplete_endsBook {b : Daybook} (book : x.book = some b) :
    exec (.gridComplete gid) s = .next ((closeBook s x.vi x.asn b).setGrid gid { x with book := none }) := by
  refine exec_gridComplete_of_book found grid going met ?_
  simp only [endBook, State.grid_of_find found, book]

end

/-- A block without its areas, if it is of a launch that has completed. -/
def Block.withoutAreas (gid : Nat) (k : Block) : Block := if k.gid = gid then { k with record := none, area := none } else k

/-- What a completion tells the host is on the host's side alone. -/
theorem announceLaunch_hostOnly (s : State) (gid : Nat) : HostOnly
    { s.setGrid gid { s.grid gid with complete := true, book := none } with
      blocks := s.blocks.map fun e => (e.1, e.2.withoutAreas gid) } (announceLaunch s gid) := by
  have vector : ∀ (p : Bool) (t : State) (vi vec : Nat), HostOnly t (if p then sendVector t vi vec else t) := by
    intro p t vi vec
    split
    · exact setVI_hostOnly t vi _
    · exact .refl t
  exact ((raiseEvents_hostOnly _ _ _).trans (vector _ _ _ _)).trans (nodeOutcome_hostOnly _ _ _ _ _)

theorem announceLaunch_grid (s : State) (gid : Nat) :
    (announceLaunch s gid).grid gid = { s.grid gid with complete := true, book := none } := by
  rw [(announceLaunch_hostOnly s gid).grid]
  exact State.grid_setGrid_same s gid _

theorem announceLaunch_block (s : State) (gid c : Nat) : (announceLaunch s gid).block c = (s.block c).withoutAreas gid := by
  rw [State.block, (announceLaunch_hostOnly s gid).blocks, Sp.get, Sp.find_map, State.block, Sp.get]
  cases Sp.find? s.blocks c with
  | some k => rfl
  | none =>
    have empty : Block.withoutAreas gid {} = {} := by unfold Block.withoutAreas; split <;> rfl
    exact empty.symm

/-- A grid whose daybook is written and whose cores are released completes. -/
theorem gridComplete_completes {s u : State} {gid : Nat} {x : Grid} (found : Sp.find? s.grids gid = some x)
    (grid : x.mill = none) (going : x.complete = false) (met : sharesMet s gid = true) (book : x.book = none)
    (written : (s.viface x.vi).puts = []) (released : releaseCores x.cores x.scope s = (true, u)) :
    ∃ t, exec (.gridComplete gid) s = .next t ∧ (t.grid gid).complete = true ∧ (t.grid gid).book = none ∧
      ∀ c, (u.block c).gid = gid → (t.block c).record = none := by
  have ended : endBook s gid = .ok s := by
    simp only [endBook, State.grid_of_find found, book, written, List.isEmpty_nil, if_true]
  refine ⟨_, exec_gridComplete_of_released found grid going met ended released, by rw [announceLaunch_grid],
    by rw [announceLaunch_grid], fun c own => ?_⟩
  rw [announceLaunch_block, Block.withoutAreas, if_pos own]

/-! ## A launch that is ended (R370, R385) -/

theorem dropWork_blocks (s : State) (b : Nat) : (dropWork s b).blocks = s.blocks := by
  have recalls : ∀ (t : State) (d : Nat), (endRecalls t d).blocks = t.blocks := by
    intro t d
    unfold endRecalls
    split <;> rfl
  exact recalls _ _

/-- A block of an ended launch is RETIRED, with no effect of what it had under way. -/
def endBlock (s : State) (b : Nat) : State :=
  let u := dropWork s b
  let v := leaveCmd (u.setBlock b { u.block b with method := none }) b .drain
  settleCore (v.setBlock b { v.block b with bst := .retired, record := none, area := none }) (v.block b).core

theorem endBlock_find (s : State) (b c : Nat) :
    ∃ k : Block, k.bst = .retired ∧ Sp.find? (endBlock s b).blocks c = if c = b then some k else Sp.find? s.blocks c := by
  have quiet : logPreempt ((dropWork s b).setBlock b { (dropWork s b).block b with method := none }) b .drain =
      (dropWork s b).setBlock b { (dropWork s b).block b with method := none } :=
    logPreempt_drain_of_no_method (by rw [State.block_setBlock_same])
  rw [endBlock, (settleCore_noted _ _).blocks]
  generalize hv : leaveCmd _ b .drain = v
  refine ⟨{ v.block b with bst := .retired, record := none, area := none }, rfl, ?_⟩
  have others : c ≠ b → Sp.find? v.blocks c = Sp.find? s.blocks c := by
    intro other
    rw [← hv, leaveCmd_blocks quiet, Sp.find_put, if_neg other, State.setBlock, Sp.find_put, if_neg other, dropWork_blocks]
  rw [State.setBlock, Sp.find_put]
  split
  · rfl
  · next other => exact others other

/-- Blocks that are ended in turn end RETIRED, and the others stay. -/
theorem foldl_endBlock_find (s : State) (bs : List Nat) (c : Nat) {y : Block}
    (h : Sp.find? (bs.foldl endBlock s).blocks c = some y) : y.bst = .retired ∨ (c ∉ bs ∧ Sp.find? s.blocks c = some y) := by
  induction bs generalizing s with
  | nil => exact .inr ⟨List.not_mem_nil, h⟩
  | cons b bs ih =>
    rcases ih _ h with retired | ⟨other, entry⟩
    · exact .inl retired
    · obtain ⟨k, retired, find⟩ := endBlock_find s b c
      rw [find] at entry
      split at entry
      · cases entry
        exact .inl retired
      · next ne => exact .inr ⟨by simp [ne, other], entry⟩

/-- The blocks of a launch that are neither RETIRED nor LOST. -/
def liveBlocks (s : State) (gid : Nat) : List Nat :=
  (List.filter (fun (e : Nat × Block) => e.2.gid == gid && e.2.bst != .retired && e.2.bst != .lost) s.blocks).map (·.1)

/-- A launch that has ended: its shares close, and no block of it is still to be handed. -/
def Grid.ends (g : Grid) (status : LaunchStatus) : Grid := { g with
  ended := true, status := some status, closed := true, counted := g.handed, nextLin := g.stages.map Launch.blocks }

/-- The end of a launch that is not over: its blocks end, and then the launch. -/
theorem endLaunch_eq {s : State} {gid : Nat} (going : (s.grid gid).complete = false) (running : (s.grid gid).ended = false)
    (status : LaunchStatus) : endLaunch s gid status = checkShares (settleRaces (((liveBlocks s gid).foldl endBlock s).setGrid gid
      ((((liveBlocks s gid).foldl endBlock s).grid gid).ends status)) gid) gid := by
  rw [endLaunch, if_neg (by simp [going, running]), liveBlocks, List.foldl_map]
  rfl

/-- A launch that system software ends holds no block that is neither RETIRED nor LOST. -/
theorem gridEnd_ends {s : State} {gid : Nat} {x : Grid} (found : Sp.find? s.grids gid = some x) (going : x.complete = false)
    (running : x.ended = false) :
    ∃ t, exec (.gridEnd gid) s = .next t ∧ (t.grid gid).ended = true ∧ (t.grid gid).status = some { code := 0x14 } ∧
      ∀ c y, Sp.find? t.blocks c = some y → y.gid = gid → y.bst = .retired ∨ y.bst = .lost := by
  have grid := State.grid_of_find found
  refine ⟨endLaunch s gid { code := 0x14 }, ?_, ?_⟩
  · rw [show exec (.gridEnd gid) s = execGridEnd gid s from rfl, execGridEnd, found]
  · rw [endLaunch_eq (by rw [grid, going]) (by rw [grid, running])]
    have noted := fun u : State => (settleRaces_noted u gid).trans (checkShares_noted _ gid)
    refine ⟨?_, (noted _).status gid _ ?_, fun c y entry own => ?_⟩
    · rw [(noted _).ended, State.grid_setGrid_same]
      rfl
    · rw [State.grid_setGrid_same]
      rfl
    · rw [(noted _).blocks, State.setGrid_blocks] at entry
      rcases foldl_endBlock_find s (liveBlocks s gid) c entry with retired | ⟨other, entry⟩
      · exact .inl retired
      · by_contra live
        rw [not_or] at live
        refine other (List.mem_map.mpr ⟨(c, y), List.mem_filter.mpr ⟨Sp.mem_of_find entry, ?_⟩, rfl⟩)
        simp [own, live]

end Machine
end Sys2Proof
end

section
/-!
A waiting block that starts its first phase is placed on a core at its launch state (R16, R136, R148, R202).
-/
namespace Sys2Proof.Machine
open Sys2Proof

/-! ## The threads at the launch state (R16, R148) -/

/-- The thread of a block at a place of a weft, as its first phase starts. -/
def Launch.firstThread (l : Launch) (w i : Nat) : Thread :=
  if w * l.width + i < l.threads then { tst := .run, pc := l.code } else {}

/-- The first `n` wefts of a block, with each thread as `f` says. -/
def setWefts (b width : Nat) (f : Nat → Nat → Thread) (n : Nat) (s : State) : State :=
  (List.range n).foldl (fun t w => setLanes b w (fun _ => f w) (List.range width) t) s

theorem setWefts_thread {width : Nat} (narrow : width ≤ 32) (b : Nat) (f : Nat → Nat → Thread) (n : Nat) (s : State)
    {w i : Nat} (hw : w < n) (hi : i < width) : (setWefts b width f n s).thread b w i = f w i := by
  induction n with
  | zero => exact absurd hw (Nat.not_lt_zero w)
  | succ n ih =>
    rw [setWefts, List.range_succ, List.foldl_append, List.foldl_cons, List.foldl_nil]
    by_cases last : w = n
    · subst last
      exact setLanes_lane _ _ _ _ _ List.nodup_range (f w) (fun _ _ _ _ _ => rfl) i (List.mem_range.mpr hi)
    · rw [State.thread_congr (setLanes_other _ _ _ _ _ _ fun l hl same => ?_)]
      · exact ih (by omega)
      · have := List.mem_range.mp hl
        simp only [tkey] at same
        omega

theorem setWefts_threadsOnly (b width : Nat) (f : Nat → Nat → Thread) (n : Nat) (s : State) :
    ThreadsOnly s (setWefts b width f n s) :=
  foldl_rel ThreadsOnly.refl ThreadsOnly.trans _ (fun t w => setLanes_threadsOnly b w _ _ t) _ s

theorem startThreads_eq (s : State) (b : Nat) :
    startThreads s b = setWefts b (s.launch b).width (s.launch b).firstThread (s.launch b).wefts s := rfl

theorem startThreads_threadsOnly (s : State) (b : Nat) : ThreadsOnly s (startThreads s b) := setWefts_threadsOnly _ _ _ _ s

/-! ## What follows the placement -/

/-- `v` holds the blocks and the threads of `u`. -/
def Settled (u v : State) : Prop := v.blocks = u.blocks ∧ v.threads = u.threads

theorem Settled.refl (u : State) : Settled u u := ⟨rfl, rfl⟩
theorem Settled.trans {u v w : State} (h : Settled u v) (h' : Settled v w) : Settled u w :=
  ⟨h'.1.trans h.1, h'.2.trans h.2⟩

theorem Settled.of_hostOnly {u v : State} (h : HostOnly u v) : Settled u v :=
  ⟨h.blocks, h.field State.threads fun _ => rfl⟩

theorem Settled.ite {u v w : State} {p : Prop} [Decidable p] (h : Settled u v) (h' : Settled u w) :
    Settled u (if p then v else w) := by split <;> assumption

theorem setGrid_settled (s : State) (gid : Nat) (x : Grid) : Settled s (s.setGrid gid x) := ⟨rfl, rfl⟩

theorem bookUse_settled (s : State) (gid r : Nat) : Settled s (bookUse s gid r) := by
  unfold bookUse
  split
  · exact .refl s
  · exact setGrid_settled s gid _

theorem logDecision_settled (s : State) (gid kind src stage body : Nat) : Settled s (logDecision s gid kind src stage body) := by
  unfold logDecision
  dsimp only
  cases (s.grid gid).book with
  | none => exact .refl s
  | some b =>
    exact .ite (.refl s) (.trans (.of_hostOnly (bookWrite_hostOnly _ _ _ _ _ _ _ _)) (setGrid_settled _ gid _))

theorem wakeWefts_settled (s : State) (b : Nat) : Settled s (wakeWefts s b) := by
  refine foldl_rel Settled.refl Settled.trans _ (fun t w => ?_) _ s
  dsimp only
  split
  · exact ⟨finishCheck_blocks t b w, finishCheck_threads t b w⟩
  · refine ⟨?_, ?_⟩
    · rw [parkWeft_blocks, State.setWeft_blocks]
    · rw [parkWeft_threads, State.setWeft_threads]

theorem seatWefts_eq (s : State) (b : Nat) (spots : List Spot) (keep : Bool) :
    ∃ ws, seatWefts s b spots keep = { s with wefts := ws } := by
  refine foldl_rel (R := fun t u : State => ∃ ws, u = { t with wefts := ws }) (fun t => ⟨t.wefts, rfl⟩) ?_ _
    (fun t i => ⟨_, rfl⟩) spots.zipIdx s
  rintro t u w ⟨c, rfl⟩ ⟨d, rfl⟩
  exact ⟨d, rfl⟩

/-- A block `k` on a core, its wefts at their places and its threads at the launch state. -/
def firstPlaced (v : State) (b : Nat) (k : Block) (spots : List Spot) : State :=
  startThreads (seatWefts (v.setBlock b k) b spots false) b

section
variable (v : State) (b : Nat) (k : Block) (spots : List Spot)

theorem seatWefts_setBlock_block (c : Nat) : (seatWefts (v.setBlock b k) b spots false).block c = (v.setBlock b k).block c := by
  obtain ⟨ws, eq⟩ := seatWefts_eq (v.setBlock b k) b spots false
  rw [eq]
  rfl

theorem seatWefts_setBlock_launch :
    (seatWefts (v.setBlock b k) b spots false).launch b = ((v.grid k.gid).stages[k.stage]?).getD {} := by
  obtain ⟨ws, eq⟩ := seatWefts_eq (v.setBlock b k) b spots false
  rw [State.launch, seatWefts_setBlock_block, State.block_setBlock_same, eq]
  rfl

theorem firstPlaced_block : (firstPlaced v b k spots).block b = k := by
  have same := (startThreads_threadsOnly (seatWefts (v.setBlock b k) b spots false) b).field (fun t => t.block b) fun _ => rfl
  exact same.trans ((seatWefts_setBlock_block v b k spots b).trans (State.block_setBlock_same v b k))

theorem firstPlaced_thread {l : Launch} (hl : ((v.grid k.gid).stages[k.stage]?).getD {} = l) (narrow : l.width ≤ 32)
    {w i : Nat} (hw : w < l.wefts) (hi : i < l.width) : (firstPlaced v b k spots).thread b w i = l.firstThread w i := by
  rw [firstPlaced, startThreads_eq, seatWefts_setBlock_launch, hl]
  exact setWefts_thread narrow b l.firstThread l.wefts _ hw hi

end

/-! ## Placement (R202) -/

/-- A block that has left nothing behind is placed, its core and its domain made ready, at the launch state. -/
theorem placeOn_first {s : State} {b core : Nat} {spots : List Spot} (queued : (s.block b).bst = .queued)
    (record : (s.block b).record = none) (area : (s.block b).area = none) (left : (s.block b).left = none)
    (switched : (switchCore s core (s.grid (s.block b).gid).vi).1 = true)
    (ready : acquireReady s (domOf core) (s.grid (s.block b).gid).scope = true) :
    ∃ v k, LaunchesKept s v ∧ k.gid = (s.block b).gid ∧ k.stage = (s.block b).stage ∧ k.bst = .resident ∧ k.core = core ∧
      k.hand = none ∧ k.spm = [] ∧ Settled (firstPlaced v b k spots) (placeOn s b core spots) := by
  have areas : (s.block b).areas = [] := by rw [Block.areas, record, area]; rfl
  have start : startOf s b (domOf core) = .first := by simp only [startOf, queued, area, restartOf, record]
  have behind : (s.block b).behind = none := by simp only [Block.behind, queued, area, left, record, Option.map_none]
  have kept := switchCore_kept s core (s.grid (s.block b).gid).vi
  have may : ∀ p : Prop, ∀ _ : Decidable p, ((if p then some (s.grid (s.block b).gid).scope else none).any
      fun x => !acquireReady s (domOf core) x) = false := by
    intro p _
    split <;> simp [ready]
  generalize placed : placeOn s b core spots = t
  unfold placeOn at placed
  extract_lets k g d s' key sc sw lv s1 s2 dom s3 base fresh bookPlace at placed
  rw [areas, List.any_nil, if_neg Bool.false_ne_true] at placed
  have here : lv = (true, sw.2) := by simp only [lv, k, behind]
  have asks : (sc.any fun x => !acquireReady s d x) = false := by
    simp only [sc, k, behind]
    exact may _ _
  clear_value lv sc
  subst here
  have acquired : LaunchesKept s1 s2 := by
    simp only [s2]
    split
    · exact acquire_kept s1 core _
    · exact .refl s1
  have moved : LaunchesKept s s3 := (kept.trans acquired).trans (setDomain_kept s2 d _)
  clear_value s3
  refine ⟨s3, fresh, moved, rfl, rfl, rfl, rfl, rfl, rfl, ?_⟩
  rw [start] at placed
  dsimp -zeta only at placed
  rw [asks, if_neg Bool.false_ne_true, if_neg (by rw [switched]; decide)] at placed
  extract_lets restored s4 old s5 s6 at placed
  subst placed
  have written : Settled s4 s5 := setGrid_settled s4 _ _
  clear_value s5 bookPlace
  have noted : Settled s5 s6 := by
    simp only [s6]
    split
    · exact bookUse_settled _ _ _
    · exact logDecision_settled _ _ _ _ _ _
  exact (written.trans noted).trans (wakeWefts_settled s6 b)

/-- The first block that a domain may place goes to its core at the launch state. -/
theorem placeBlock_places {s : State} {d b core : Nat} {spots : List Spot}
    (choice : ((queueOrder s).filterMap (queueChoice s d)).head? = some (.place b core spots))
    (queued : (s.block b).bst = .queued) (record : (s.block b).record = none) (area : (s.block b).area = none)
    (left : (s.block b).left = none) (switched : (switchCore s core (s.grid (s.block b).gid).vi).1 = true)
    (ready : acquireReady s (domOf core) (s.grid (s.block b).gid).scope = true) (narrow : (s.launch b).width ≤ 32) :
    ∃ t, exec (.placeBlock d) s = .next t ∧ (t.block b).bst = .resident ∧ (t.block b).core = core ∧
      (t.block b).hand = none ∧ (t.block b).spm = [] ∧
      ∀ w < (s.launch b).wefts, ∀ i < (s.launch b).width, t.thread b w i = (s.launch b).firstThread w i := by
  obtain ⟨v, k, kept, gid, stage, bst, at_, hand, spm, blocks, threads⟩ :=
    placeOn_first (spots := spots) queued record area left switched ready
  have block : (placeOn s b core spots).block b = k := by
    rw [State.block, blocks, ← State.block, firstPlaced_block]
  have launch : ((v.grid k.gid).stages[k.stage]?).getD {} = s.launch b := by rw [kept.grid, gid, stage, State.launch]
  refine ⟨placeOn s b core spots, ?_, by rw [block, bst], by rw [block, at_], by rw [block, hand], by rw [block, spm],
    fun w hw i hi => ?_⟩
  · rw [show exec (.placeBlock d) s = execPlaceBlock d s from rfl, execPlaceBlock, choice]
  · rw [State.thread, threads, ← State.thread, firstPlaced_thread v b k spots launch narrow hw hi]

/-! ## The steps of blocks and launches -/

/-- Settles O42: each step by the lemma of its own above. -/
theorem blockSteps : Obligations.BlockSteps := by
  unfold Obligations.BlockSteps
  intro s b gid d k g
  refine ⟨?phaseEnd, ?retire, ?hand, ?place, ?convert, ?converted, ?endsBook, ?completes, ?ended⟩
  case phaseEnd =>
    intro u base v draining done yields running book released len free put
    exact phaseEnd_queues draining done yields running book released free put
  case retire =>
    intro u resident isOver done running book released
    exact blockRetire_retires resident isOver done running book released
  case hand =>
    intro st lin x h u found live book head hint goes
    exact handBlock_hands found live book head hint goes
  case place =>
    intro core spots choice queued record area left switched ready narrow
    exact placeBlock_places choice queued record area left switched ready narrow
  case convert => exact fun cl free => ⟨clusterConvert_unfuses free, clusterConvert_converts free⟩
  case converted => exact fun cl fuse conv empty => clusterConvertDone_converts conv empty
  case endsBook => exact fun x bk found grid going met book => gridComplete_endsBook found grid going met book
  case completes =>
    intro x u found grid going met book written released
    exact gridComplete_completes found grid going met book written released
  case ended => exact fun x found going running => gridEnd_ends found going running

end Sys2Proof.Machine
end

section
/-!
Lanes together: shuffles, votes, reductions and the scan (R174 to R177).
-/
namespace Sys2Proof.Machine
open Sys2Proof

/-! ## What the record of an issue leaves of the lanes' values -/

@[simp] theorem laneVal_noteIssue (s : State) (a : VReg) : laneVal (noteIssue s) a = laneVal s a :=
  funext fun l => noteIssue_lane_reg s l a.toNat

@[simp] theorem redfadd_noteIssue (s : State) (a : VReg) : redfadd (noteIssue s) a = redfadd s a := by
  simp only [redfadd, laneVal_noteIssue, noteIssue_iss, noteIssue_width]

/-- The lane that a shuffle reads, where no lane of the issue set reads a poisoned register. -/
theorem shuffleFrom_noteIssue {s : State} (clean : s.iss.bad = []) (j : Nat → Nat → Int) (b : Src) (l : Nat) :
    shuffleFrom j (noteIssue s) b l =
      let k := j l (srcWord s.wft ((noteIssue s).lane l) b).toNat
      if 0 ≤ k ∧ k < s.width s.iss.blk ∧ k.toNat ∈ s.iss.lanes then k.toNat else l := by
  simp only [shuffleFrom, State.isBad, noteIssue_iss, noteIssue_width, noteIssue_srcWord, clean, List.any_nil,
    Bool.false_eq_true, or_false]

/-! ## The shapes (R175, R176) -/

section
variable {s : State} {d a : VReg}

/-- A shuffle gives each lane the va of the lane that it chooses. -/
theorem shuffle_writesWord {j : Nat → Nat → Int} {b : Src} (hi : Issues .integer ([one d, one a] ++ srcRegs b) (srcKs 1 b) s) :
    ∃ t, shuffle j d a b s = .next t ∧
      WritesWord s t d fun l x =>
        let k := j l (srcWord s.wft x b).toNat
        if 0 ≤ k ∧ k < s.width s.iss.blk ∧ k.toNat ∈ s.iss.lanes then (s.lane k.toNat).reg a.toNat else x.reg a.toNat := by
  have ⟨_, _, _, clean⟩ := hi
  refine issueLanes_past hi fun l => ?_
  dsimp only
  rw [shuffleFrom_noteIssue clean, laneVal_noteIssue, apply_ite (laneVal s a), noteIssue_lane_reg]
  rfl

/-- A vote, reduction or scan gives each lane its value of the issue set. -/
theorem reduce_writesWord {f : (Nat → Word) → List Nat → Nat → Word} {w : Nat → Word} (hi : Issues .integer [one d, one a] [] s)
    (value : ∀ l ∈ s.iss.lanes, f (laneVal s a) s.iss.lanes l = w l) :
    ∃ t, reduce f d a s = .next t ∧ WritesWord s t d fun l _ => w l := by
  obtain ⟨t, ht, lanes⟩ := issueLanes_past (f := fun u l => (u.lane l).setReg d.toNat (f (laneVal u a) u.iss.lanes l))
    (g := fun l x => (x.setReg d.toNat (f (laneVal s a) s.iss.lanes l)).past s) hi
    fun l => by rw [laneVal_noteIssue, noteIssue_iss]
  exact ⟨t, ht, lanes.congr fun l hl => by rw [value l hl]⟩

end

/-! ## Votes (R176) -/

theorem testBit_laneMask (ls : List Nat) (i : Nat) : (laneMask ls).testBit i = decide (i ∈ ls) := by
  have fold : ∀ m, (ls.foldl (fun m l => m ||| 1 <<< l) m).testBit i = (m.testBit i || decide (i ∈ ls)) := by
    induction ls with
    | nil => simp
    | cons l ls ih =>
      intro m
      rw [List.foldl_cons, ih, Nat.testBit_or, Nat.one_shiftLeft, Nat.testBit_two_pow, Bool.or_assoc]
      simp only [List.mem_cons, Bool.decide_or, eq_comm]
  rw [laneMask, fold, Nat.zero_testBit, Bool.false_or]

/-- The mask of BALLOT names the lanes of the issue set with a nonzero value. -/
theorem getLsbD_ballot (x : Nat → Word) (ls : List Nat) {l : Nat} (hl : l < 32) :
    (BitVec.ofNat 32 (laneMask (ls.filter fun l => x l != 0))).getLsbD l = decide (l ∈ ls ∧ x l ≠ 0) := by
  simp only [BitVec.getLsbD_ofNat, hl, testBit_laneMask, List.mem_filter, bne_iff_ne, decide_true, Bool.true_and]

/-! ## Sums (R176) -/

theorem foldl_add_eq_sum (x : Nat → Word) (ls : List Nat) : ls.foldl (fun acc l => acc + x l) 0 = (ls.map x).sum := by
  rw [List.sum_eq_foldl, List.foldl_map]

/-! ## The greatest and the least (R176) -/

section
variable {f : Word → Word → Word} {key : Word → Int} (greater : ∀ x y, key (f x y) = max (key x) (key y))
  (inj : Function.Injective key)
include greater inj

/-- An operation that keeps the operand of the greater key keeps, over a list, one of the list with the greatest. -/
theorem foldl_greatest (x : Nat → Word) (ls : List Nat) (y : Word) :
    ls.foldl (fun acc k => f acc (x k)) y ∈ y :: ls.map x ∧
      ∀ z ∈ y :: ls.map x, key z ≤ key (ls.foldl (fun acc k => f acc (x k)) y) := by
  induction ls generalizing y with
  | nil => simp
  | cons l ls ih =>
    obtain ⟨mem, bound⟩ := ih (f y (x l))
    have kept : f y (x l) = y ∨ f y (x l) = x l := by
      rcases max_choice (key y) (key (x l)) with h | h
      · exact .inl (inj ((greater _ _).trans h))
      · exact .inr (inj ((greater _ _).trans h))
    have step := (greater y (x l)).symm.le.trans (bound _ (by simp))
    refine ⟨?_, ?_⟩
    · simp only [List.foldl_cons, List.map_cons, List.mem_cons] at mem ⊢
      rcases mem with mem | mem
      · rcases kept with h | h
        · exact .inl (mem.trans h)
        · exact .inr (.inl (mem.trans h))
      · exact .inr (.inr mem)
    · simp only [List.map_cons, List.forall_mem_cons, List.foldl_cons] at bound ⊢
      exact ⟨(le_max_left _ _).trans step, (le_max_right _ _).trans step, bound.2⟩

/-- Over the lanes of an issue set, with any of them the first, it comes to one value. -/
theorem exists_foldl_greatest (x : Nat → Word) {ls : List Nat} (nonempty : ls ≠ []) :
    ∃ m ∈ ls.map x, (∀ l ∈ ls, key (x l) ≤ key m) ∧ ∀ l ∈ ls, ls.foldl (fun acc k => f acc (x k)) (x l) = m := by
  have fromLane : ∀ l ∈ ls, ls.foldl (fun acc k => f acc (x k)) (x l) ∈ ls.map x ∧
      ∀ k ∈ ls, key (x k) ≤ key (ls.foldl (fun acc k => f acc (x k)) (x l)) := by
    intro l hl
    have own : x l ∈ ls.map x := List.mem_map_of_mem hl
    obtain ⟨mem, bound⟩ := foldl_greatest greater inj x ls (x l)
    refine ⟨(List.mem_cons.mp mem).elim (fun same => by rwa [same]) id, fun k hk => ?_⟩
    exact bound _ (List.mem_cons_of_mem _ (List.mem_map_of_mem hk))
  obtain ⟨first, isLane⟩ := List.exists_mem_of_ne_nil ls nonempty
  obtain ⟨mem, bound⟩ := fromLane first isLane
  refine ⟨_, mem, bound, fun l hl => inj (le_antisymm ?_ ?_)⟩
  · obtain ⟨k, hk, same⟩ := List.mem_map.mp (fromLane l hl).1
    exact same ▸ bound k hk
  · obtain ⟨k, hk, same⟩ := List.mem_map.mp mem
    exact same ▸ (fromLane l hl).2 k hk

end

theorem toInt_maxS (x y : Word) : (maxS x y).toInt = max x.toInt y.toInt := by
  simp only [maxS, BitVec.slt_iff_toInt_lt, max_def_lt, apply_ite BitVec.toInt]

theorem toInt_minS (x y : Word) : (minS x y).toInt = min x.toInt y.toInt := by
  simp only [minS, BitVec.slt_iff_toInt_lt, min_def_lt, apply_ite BitVec.toInt]

theorem toInt_injective : Function.Injective (BitVec.toInt : Word → Int) := fun _ _ => BitVec.eq_of_toInt_eq

theorem exists_foldl_maxS (x : Nat → Word) {ls : List Nat} (nonempty : ls ≠ []) :
    ∃ m ∈ ls.map x, (∀ l ∈ ls, (x l).toInt ≤ m.toInt) ∧ ∀ l ∈ ls, ls.foldl (fun acc k => maxS acc (x k)) (x l) = m :=
  exists_foldl_greatest toInt_maxS toInt_injective x nonempty

/-- The least is the greatest by the negated value. -/
theorem exists_foldl_minS (x : Nat → Word) {ls : List Nat} (nonempty : ls ≠ []) :
    ∃ m ∈ ls.map x, (∀ l ∈ ls, m.toInt ≤ (x l).toInt) ∧ ∀ l ∈ ls, ls.foldl (fun acc k => minS acc (x k)) (x l) = m := by
  have greater : ∀ y z : Word, -(minS y z).toInt = max (-y.toInt) (-z.toInt) := fun y z => by
    rw [toInt_minS, max_neg_neg]
  obtain ⟨m, mem, bound, same⟩ :=
    exists_foldl_greatest (key := fun y => -y.toInt) greater (neg_injective.comp toInt_injective) x nonempty
  exact ⟨m, mem, fun l hl => neg_le_neg_iff.mp (bound l hl), same⟩

/-- Settles O18: each shuffle by `shuffle_writesWord`, each vote, reduction and scan by `reduce_writesWord` and the value
of its fold. -/
theorem crossLaneResults : Obligations.CrossLaneResults := by
  unfold Obligations.CrossLaneResults
  refine ⟨fun s d a b => ?shuffles, fun s d a => ?together⟩
  case shuffles =>
    simp only [List.forall_mem_cons, List.not_mem_nil, false_implies, implies_true, and_true]
    exact ⟨fun hi => show ∃ t, execShfl d a b s = _ ∧ _ from shuffle_writesWord hi,
      fun hi => show ∃ t, execShflup d a b s = _ ∧ _ from shuffle_writesWord hi,
      fun hi => show ∃ t, execShfldn d a b s = _ ∧ _ from shuffle_writesWord hi,
      fun hi => show ∃ t, execShflx d a b s = _ ∧ _ from shuffle_writesWord hi⟩
  case together =>
    intro v
    refine ⟨fun hi => ⟨?ballot, ?vany, ?vall, ?redadd, ?redmax, ?redmin, ?scanadd⟩, fun hi => ?redfadd⟩
    case ballot =>
      obtain ⟨t, ht, lanes⟩ := reduce_writesWord
        (f := fun x ls _ => BitVec.ofNat 32 (laneMask (ls.filter fun l => x l != 0))) hi fun _ _ => rfl
      exact ⟨t, _, ht, lanes, fun l hl => getLsbD_ballot v s.iss.lanes hl⟩
    case vany =>
      show ∃ t, execVany d a s = _ ∧ _
      exact reduce_writesWord hi fun _ _ => mask32_eq_ite (by simp [v, laneVal])
    case vall =>
      show ∃ t, execVall d a s = _ ∧ _
      exact reduce_writesWord hi fun _ _ => mask32_eq_ite (by simp [v, laneVal])
    case redadd =>
      show ∃ t, execRedadd d a s = _ ∧ _
      exact reduce_writesWord hi fun _ _ => foldl_add_eq_sum v s.iss.lanes
    case redmax =>
      obtain ⟨m, mem, bound, same⟩ := exists_foldl_maxS v hi.1.1
      obtain ⟨t, ht, lanes⟩ := (reduce_writesWord hi same : ∃ t, execRedmax d a s = .next t ∧ WritesWord s t d fun _ _ => m)
      exact ⟨t, m, ht, lanes, mem, bound⟩
    case redmin =>
      obtain ⟨m, mem, bound, same⟩ := exists_foldl_minS v hi.1.1
      obtain ⟨t, ht, lanes⟩ := (reduce_writesWord hi same : ∃ t, execRedmin d a s = .next t ∧ WritesWord s t d fun _ _ => m)
      exact ⟨t, m, ht, lanes, mem, bound⟩
    case scanadd =>
      show ∃ t, execScanadd d a s = _ ∧ _
      exact reduce_writesWord hi fun i _ => foldl_add_eq_sum v (s.iss.lanes.filter (· ≤ i))
    case redfadd => exact fpWord_writesFloat (f := fun u _ => redfadd u a) rfl (fun _ => redfadd_noteIssue s a) hi

end Sys2Proof.Machine
end

section
/-!
Barrier instructions: their checks, and what each does where these pass (R185 to R187, R191).
-/
namespace Sys2Proof.Machine
open Sys2Proof

/-! ## The checks of a barrier instruction (R187) -/

@[simp] theorem noteIssue_block_bar (s : State) (b n : Nat) : ((noteIssue s).block b).bar n = (s.block b).bar n := by
  obtain ⟨i, h⟩ := noteIssue_block s b
  rw [h]
  rfl

@[simp] theorem barCond_noteIssue (s : State) (n : Nat) (init waits : Bool) :
    barCond (noteIssue s) n init waits = barCond s n init waits := by
  simp only [barCond, noteIssue_iss, noteIssue_block_bar, noteIssue_launch]

/-- Whether a check of a barrier instruction refuses barrier `n`. -/
def BarRefused (s : State) (n : Nat) (init waits : Bool) : Prop :=
  (s.launch s.iss.blk).nbar ≤ n ∨ (init = false ∧ ((s.block s.iss.blk).bar n).init = false) ∨
    (waits = true ∧ ((s.block s.iss.blk).bar n).err = true)

theorem barCond_of_refused {s : State} {n : Nat} {init waits : Bool} (h : BarRefused s n init waits) :
    barCond s n init waits = some { cause := .barrier, info := n * 4096 } := by
  have cond : barrierCond n 0 0 0 = { cause := .barrier, info := n * 4096 } := by simp [barrierCond]
  unfold barCond
  rcases h with beyond | ⟨rfl, off⟩ | ⟨rfl, err⟩
  · simp [cond, beyond]
  · simp [cond, off]
  · simp [cond, err]

theorem barCond_of_accepted {s : State} {n : Nat} {init waits : Bool} (h : ¬ BarRefused s n init waits) :
    barCond s n init waits = none := by
  simp only [BarRefused, not_or] at h
  obtain ⟨within, started, sound⟩ := h
  unfold barCond
  dsimp only
  rw [if_neg within, if_neg (by simpa using started), if_neg (by simpa using sound)]

/-! ## The issue of a barrier instruction (R185, R191) -/

section
variable {s : State} {n : Nat} {rs ks : List Regs} {early : State → Option Cond} {init waits arrives : Bool}
  {body : State → State} (hi : Issues .sync rs ks s) (mode : early s = none) (settled : (arrives && lanesPending s) = false)
include hi mode settled

/-- Where its checks pass, a barrier instruction acts once for its issue set. -/
theorem barIssue_acts (pass : barCond s n init waits = none) :
    barIssue n ks early init waits arrives body rs s = .next (body (noteIssue s)) := by
  obtain ⟨formed, allowed, free, clean⟩ := hi
  refine (issue_body formed.1 (preCond_none_of_early mode allowed) (by rw [free, settled]; rfl) clean _).trans ?_
  rw [barCond_noteIssue, pass]

/-- Where one fails, every lane traps. -/
theorem barIssue_traps {c : Cond} (fail : barCond s n init waits = some c) :
    barIssue n ks early init waits arrives body rs s = .next (trapAll (noteIssue s) c) := by
  obtain ⟨formed, allowed, free, clean⟩ := hi
  refine (issue_body formed.1 (preCond_none_of_early mode allowed) (by rw [free, settled]; rfl) clean _).trans ?_
  rw [barCond_noteIssue, fail]

end

/-! ## Waiting on a barrier, and asking about it (R186, R191) -/

theorem execBwait_lanesDo {s : State} {n : BitVec 4} {p : BitVec 1} (hi : Issues .sync [] [] s)
    (pass : barCond s n.toNat false true = none) (user : s.iss.handler = false) :
    ∃ t, execBwait n p s = .next t ∧ LanesDo s t fun _ x =>
      if ((s.block s.iss.blk).bar n.toNat).par ≠ p.toNat then x.past s
      else { x with tst := .wait, wait := .barrier n.toNat p.toNat } := by
  refine ⟨_, barIssue_acts hi (handlerIllegal_user user) rfl pass, ?_⟩
  simp only [noteIssue_iss, noteIssue_block_bar, bne_iff_ne]
  split
  · exact lanesDo_advanceAll hi.1.nodup
  · exact (lanesDo_foldl hi.1 fun _ _ => rfl).congr fun l _ => by rw [noteIssue_lane]; rfl

theorem execBtest_writesWord {s : State} {d : VReg} {n : BitVec 4} {p : BitVec 1} (hi : Issues .sync [one d] [] s)
    (pass : barCond s n.toNat false true = none) :
    ∃ t, execBtest d n p s = .next t ∧
      WritesWord s t d fun _ _ => if ((s.block s.iss.blk).bar n.toNat).par ≠ p.toNat then 0xFFFFFFFF else 0 := by
  refine ⟨_, barIssue_acts hi rfl rfl pass, ?_⟩
  simp only [noteIssue_iss, noteIssue_block_bar, bne_iff_ne]
  exact (lanesDo_foldl hi.1 fun _ _ => rfl).congr fun l _ => by rw [noteIssue_lane]; rfl

/-- Settles O31: where its checks pass a barrier instruction is `barIssue_acts`, and where one fails `barIssue_traps`;
the checks are those of `BarRefused`. -/
theorem barrierInstructionResults : Obligations.BarrierInstructionResults := by
  unfold Obligations.BarrierInstructionResults
  refine ⟨fun s n ka p d count => ?acts, fun s n => ?checks⟩
  case acts =>
    intro b k u bytes
    refine ⟨fun hi => ⟨fun pass => ?binit, fun pass idle => ⟨?barr, ?bdrop⟩, execBwait_lanesDo hi⟩,
      fun hi pass => ⟨fun idle => ?barrx, ?bexp⟩, fun formed _ handler => ?bwaitHandler, execBtest_writesWord⟩
    case binit =>
      refine (barIssue_acts hi rfl rfl pass : execBinit n count s = _).trans ?_
      simp only [noteIssue_iss, b, u]
    case barr =>
      refine (barIssue_acts hi rfl idle pass : execBarr n s = _).trans ?_
      simp only [noteIssue_iss, b, u, k]
    case bdrop =>
      refine (barIssue_acts hi rfl idle pass : execBdrop n s = _).trans ?_
      simp only [noteIssue_iss, b, u, k]
    case barrx =>
      refine (barIssue_acts hi rfl idle pass : execBarrx n ka s = _).trans ?_
      simp only [noteIssue_iss, noteIssue_wft_kreg, b, u, k, bytes]
    case bexp =>
      refine (barIssue_acts hi rfl rfl pass : execBexp n ka s = _).trans ?_
      simp only [noteIssue_iss, noteIssue_wft_kreg, b, u, bytes]
    case bwaitHandler =>
      rw [show exec (.bwait n p) s = execBwait n p s from rfl, execBwait, barIssue]
      exact issue_handler formed handler (by rfl) _ _
  case checks =>
    intro x c
    refine ⟨fun i w beyond => barCond_of_refused (.inl beyond), fun within => ⟨?uninitialised, ?inError, ?start, ?sound⟩,
      fun hi idle fail => ?traps⟩
    case traps =>
      rw [show exec (.barr n) s = execBarr n s from rfl, execBarr]
      exact barIssue_traps (arrives := true) hi rfl idle fail
    case uninitialised => exact fun w off => barCond_of_refused (.inr (.inl ⟨rfl, off⟩))
    case inError => exact fun i _ err => barCond_of_refused (.inr (.inr ⟨rfl, err⟩))
    case start =>
      refine fun w ok => barCond_of_accepted ?_
      rintro (beyond | ⟨starts, -⟩ | ⟨rfl, err⟩)
      · omega
      · exact nomatch starts
      · exact absurd (ok.resolve_right (by decide)) (ne_of_eq_of_ne err (by decide))
    case sound =>
      refine fun w on ok => barCond_of_accepted ?_
      rintro (beyond | ⟨-, off⟩ | ⟨rfl, err⟩)
      · omega
      · exact absurd on (ne_of_eq_of_ne off (by decide))
      · exact absurd (ok.resolve_right (by decide)) (ne_of_eq_of_ne err (by decide))

end Sys2Proof.Machine
end

section
/-!
One update of a barrier, and the merging of the updates of a cycle (R184, R185).
-/
namespace Sys2Proof.Machine
open Sys2Proof

/-! ## One update of a barrier (R184, R185) -/

/-- What sets ERR in an update of a barrier in which no engine failed. -/
def Barrier.Overrun (x : Barrier) (drop arrivals expected landed : Nat) : Prop :=
  x.pend - arrivals < 0 ∨ x.expb + expected < x.rcvb + landed ∨ 0xFFFFFF < x.expb + expected ∨ x.expa - drop < 0

section
variable {x : Barrier} {drop arrivals expected landed : Nat}

theorem Barrier.update_of_overrun (h : x.Overrun drop arrivals expected landed) :
    x.update drop arrivals expected landed false =
      { x with
        expa := x.expa - drop, pend := x.pend - arrivals, expb := x.expb + expected, rcvb := x.rcvb + landed, err := true } := by
  unfold Barrier.update
  rw [if_pos]
  simpa only [Barrier.Overrun, Bool.false_or, Bool.or_eq_true, decide_eq_true_eq, or_assoc] using h

theorem Barrier.update_of_sound (h : ¬ x.Overrun drop arrivals expected landed) :
    x.update drop arrivals expected landed false =
      if x.pend - arrivals = 0 ∧ x.rcvb + landed = x.expb + expected then
        { x with
          init := decide (x.expa - drop ≠ 0), expa := x.expa - drop, pend := x.expa - drop, expb := 0, rcvb := 0, par := 1 - x.par }
      else { x with expa := x.expa - drop, pend := x.pend - arrivals, expb := x.expb + expected, rcvb := x.rcvb + landed } := by
  unfold Barrier.update
  rw [if_neg]
  simpa only [Barrier.Overrun, Bool.false_or, Bool.or_eq_true, decide_eq_true_eq, or_assoc] using h

end

/-! ## The barrier of a block, after an update of it -/

theorem foldl_blocks {β : Type*} {f : State → β → State} (h : ∀ s x, (f s x).blocks = s.blocks) (ls : List β) (s : State) :
    (ls.foldl f s).blocks = s.blocks :=
  foldl_rel (R := fun u v : State => v.blocks = u.blocks) (fun _ => rfl) (fun h h' => h'.trans h) f h ls s

theorem barTrap_blocks (s : State) (b n : Nat) (c : Cond) : (barTrap s b n c).blocks = s.blocks := by
  unfold barTrap
  exact foldl_blocks (fun _ _ => enterTrap_blocks _ _ _ _ _) _ s

theorem barWake_blocks (s : State) (b n : Nat) : (barWake s b n).blocks = s.blocks := by
  unfold barWake
  exact foldl_blocks (fun u x => by dsimp only; rw [State.setThread_blocks]) _ s

/-- Whoever an update traps or wakes, the blocks are those in which the barrier holds what it leaves. -/
theorem barApply_blocks {s : State} {b n : Nat} (init : ((s.block b).bar n).init = true)
    (sound : ((s.block b).bar n).err = false) (u : BarUpdate) :
    (barApply s b n u).blocks = (s.setBlock b { s.block b with
      bars := Sp.put (s.block b).bars n
        (((s.block b).bar n).update u.drop u.arrivals u.expected u.landed u.fail.isSome) }).blocks := by
  unfold barApply
  extract_lets
  rw [if_neg (by rw [init, sound]; decide)]
  split
  · exact barTrap_blocks _ _ _ _
  · split
    · exact barWake_blocks _ _ _
    · rfl

theorem barApply_bar {s : State} {b n : Nat} (init : ((s.block b).bar n).init = true)
    (sound : ((s.block b).bar n).err = false) (u : BarUpdate) :
    ((barApply s b n u).block b).bar n =
      ((s.block b).bar n).update u.drop u.arrivals u.expected u.landed u.fail.isSome := by
  rw [State.block, barApply_blocks init sound, ← State.block, State.block_setBlock_same]
  exact Sp.get_put_same _ _ _ _

/-! ## The updates of a cycle (R184) -/

theorem barUpdate_of_new_cycle {s : State} (h : s.cycle = {}) (b n : Nat) (u : BarUpdate) :
    barUpdate s b n u = barApply s b n u := by
  simp [barUpdate, Cycle.take, h]

theorem BarUpdate.add_eq (u v : BarUpdate) :
    u.add v = { drop := u.drop + v.drop, arrivals := u.arrivals + v.arrivals, expected := u.expected + v.expected,
                landed := u.landed + v.landed, fail := if u.fail.isSome then u.fail else v.fail } := by
  cases h : u.fail <;> simp [BarUpdate.add, h]

/-- Two updates of a barrier in a cycle that goes on are tested as one at its end. -/
theorem endCycle_barUpdate_barUpdate {s : State} (h : s.cycle = { joined := true }) (b n : Nat) (u v : BarUpdate) :
    endCycle (barUpdate (barUpdate s b n u) b n v) = barApply { s with cycle := {} } b n (u.add v) := by
  have first : barUpdate s b n u = { s with cycle := { joined := true, merges := [(b, n, u)] } } := by
    simp [barUpdate, Cycle.take, h]
  have second : barUpdate (barUpdate s b n u) b n v = { s with cycle := { joined := true, merges := [(b, n, u.add v)] } } := by
    rw [first]
    simp [barUpdate, Cycle.take]
  rw [second]
  simp [endCycle, testBarriers]

/-- Settles O32: the outcomes of one update are those of `Barrier.update_of_overrun` and `Barrier.update_of_sound`.
The statement's brackets make its clauses on the updates of a cycle premises of the last clause; they hold as well, by
`barUpdate_of_new_cycle` and `endCycle_barUpdate_barUpdate`. -/
theorem barrierUpdateRule : Obligations.BarrierUpdateRule := by
  unfold Obligations.BarrierUpdateRule
  intro x drop arrivals expected landed y pend expb rcvb wrong
  refine ⟨fun exceeds => ?overrun, fun sound noneLeft met => ?ends, fun sound more => ?stands, fun s b n u v => ?bar⟩
  case overrun =>
    have value : y = _ := Barrier.update_of_overrun exceeds
    rw [value]
    exact ⟨rfl, rfl⟩
  case ends =>
    have value : y = _ := (Barrier.update_of_sound sound).trans (if_pos ⟨noneLeft, met⟩)
    rw [value]
    exact ⟨rfl, rfl, rfl, rfl, rfl, rfl, by simp only [decide_eq_true_eq, ne_eq, sub_eq_zero]⟩
  case stands => exact (Barrier.update_of_sound sound).trans (if_neg more)
  case bar =>
    rintro ⟨-, -, init⟩ sound noFailure
    rw [barApply_bar init sound, noFailure]
    rfl

end Sys2Proof.Machine
end

section
/-!
Graphs and their nodes: what an update of a node or of its graph leaves, and what the start of a node, its outcome and
an event do (R361, R366, R370, R371).
-/
namespace Sys2Proof.Machine
open Sys2Proof

/-! ## A queue's graph and its nodes -/

theorem State.queue_of_queues {u v : State} (h : v.queues = u.queues) (q : Nat) : v.queue q = u.queue q := by
  rw [State.queue, State.queue, h]

theorem State.node_of_queues {u v : State} (h : v.queues = u.queues) (q n : Nat) : v.node q n = u.node q n := by
  rw [State.node, State.node, State.queue_of_queues h]

/-- A node that is not idle is one of a graph. -/
theorem State.graph_of_running {s : State} {q n : Nat} (h : (s.node q n).nst = .running) : (s.queue q).graph.isSome = true := by
  cases none : (s.queue q).graph with
  | some g => rfl
  | none => rw [State.node, none] at h; exact nomatch h

theorem State.modGraph_hostOnly (s : State) (q : Nat) (f : Graph → Graph) : HostOnly s (s.modGraph q f) := by
  unfold State.modGraph
  split <;> exact Eq.refl _

section
variable (s : State) (q n : Nat) (f : Graph → Graph) (x : Node)

@[simp] theorem State.modGraph_vis : (s.modGraph q f).vis = s.vis := by unfold State.modGraph; split <;> rfl
@[simp] theorem State.modGraph_waiters : (s.modGraph q f).waiters = s.waiters := by unfold State.modGraph; split <;> rfl
@[simp] theorem State.modGraph_cycle : (s.modGraph q f).cycle = s.cycle := by unfold State.modGraph; split <;> rfl

@[simp] theorem State.queue_modGraph_same :
    (s.modGraph q f).queue q = { s.queue q with graph := (s.queue q).graph.map f } := by
  unfold State.modGraph
  split
  next none => rw [none, Option.map_none, ← none]
  next g some => rw [State.queue_setQueue_same, some, Option.map_some]

theorem State.queue_modGraph_of_ne {p : Nat} (h : p ≠ q) : (s.modGraph q f).queue p = s.queue p := by
  unfold State.modGraph
  split
  · rfl
  · exact (State.queue_setQueue s q p _).trans (if_neg h)

theorem State.node_modGraph (h : ∀ g, (f g).nodes = g.nodes) (p m : Nat) : (s.modGraph q f).node p m = s.node p m := by
  by_cases same : p = q
  · subst same
    rw [State.node, State.queue_modGraph_same, State.node]
    cases (s.queue p).graph with
    | none => rfl
    | some g => exact congrArg (Sp.get {} · m) (h g)
  · rw [State.node, State.queue_modGraph_of_ne s q f same, State.node]

/-- The graph in which a node is replaced: `State.setNode` is `State.modGraph` by it, definitionally. -/
def Graph.setNode (g : Graph) (n : Nat) (x : Node) : Graph := { g with nodes := Sp.put g.nodes n x }

@[simp] theorem State.setNode_vis : (s.setNode q n x).vis = s.vis := State.modGraph_vis s q _
@[simp] theorem State.setNode_waiters : (s.setNode q n x).waiters = s.waiters := State.modGraph_waiters s q _
@[simp] theorem State.setNode_cycle : (s.setNode q n x).cycle = s.cycle := State.modGraph_cycle s q _

@[simp] theorem State.queue_setNode_same :
    (s.setNode q n x).queue q = { s.queue q with graph := (s.queue q).graph.map (·.setNode n x) } :=
  State.queue_modGraph_same s q _

theorem State.queue_setNode_of_ne {p : Nat} (h : p ≠ q) : (s.setNode q n x).queue p = s.queue p :=
  State.queue_modGraph_of_ne s q _ h

theorem State.node_setNode_same (h : (s.queue q).graph.isSome = true) : (s.setNode q n x).node q n = x := by
  obtain ⟨g, some⟩ := Option.isSome_iff_exists.mp h
  rw [State.node, State.queue_setNode_same, some]
  exact Sp.get_put_same _ _ _ _

theorem State.node_setNode_of_ne {p m : Nat} (h : (p, m) ≠ (q, n)) : (s.setNode q n x).node p m = s.node p m := by
  by_cases same : p = q
  · subst same
    have other : m ≠ n := fun e => h (by rw [e])
    rw [State.node, State.queue_setNode_same, State.node]
    cases (s.queue p).graph with
    | none => rfl
    | some g => exact (Sp.get_put _ _ _ _ _).trans (if_neg other)
  · rw [State.node, State.queue_setNode_of_ne s q n x same, State.node]

/-- Whatever else a node holds after an update that keeps one part of it, that part of every node is as before. -/
theorem State.node_setNode_part {α : Type*} {f : Node → α} (h : f x = f (s.node q n)) (p m : Nat) :
    f ((s.setNode q n x).node p m) = f (s.node p m) := by
  by_cases same : (p, m) = (q, n)
  · obtain ⟨rfl, rfl⟩ := Prod.mk.inj same
    cases graph : (s.queue p).graph with
    | none => rw [State.setNode, graph]
    | some g => rw [State.node_setNode_same s p m x (by rw [graph]; rfl), h]
  · rw [State.node_setNode_of_ne s q n x same]

end

/-! ## How nodes stand -/

/-- In `v` every node stands as it does in `u`, and the same nodes are ready in the same order. -/
structure StandingKept (u v : State) : Prop where
  nst : ∀ q n, (v.node q n).nst = (u.node q n).nst
  ready : ∀ q, (v.queue q).graph.map Graph.ready = (u.queue q).graph.map Graph.ready

namespace StandingKept

theorem refl (u : State) : StandingKept u u := ⟨fun _ _ => rfl, fun _ => rfl⟩
theorem trans {u v w : State} (h : StandingKept u v) (h' : StandingKept v w) : StandingKept u w :=
  ⟨fun q n => (h'.nst q n).trans (h.nst q n), fun q => (h'.ready q).trans (h.ready q)⟩

theorem of_queues {u v : State} (h : v.queues = u.queues) : StandingKept u v :=
  ⟨fun q n => by rw [State.node_of_queues h], fun q => by rw [State.queue_of_queues h]⟩

theorem setNode {s : State} {q n : Nat} {x : Node} (h : x.nst = (s.node q n).nst) : StandingKept s (s.setNode q n x) where
  nst := State.node_setNode_part s q n x h
  ready p := by
    by_cases same : p = q
    · rw [same, State.queue_setNode_same, Option.map_map]; rfl
    · rw [State.queue_setNode_of_ne s q n x same]

end StandingKept

theorem endNode_standing (s : State) (q n code addr : Nat) : StandingKept s (endNode s q n code addr) := .setNode rfl

theorem endNode_node {s : State} {q n : Nat} (h : (s.queue q).graph.isSome = true) (code addr : Nat) :
    (endNode s q n code addr).node q n = { s.node q n with res := some (code, addr) } := State.node_setNode_same _ _ _ _ h

@[simp] theorem endNode_vis (s : State) (q n code addr : Nat) : (endNode s q n code addr).vis = s.vis := State.setNode_vis _ _ _ _

/-! ## The start of a node (R366) -/

/-- In `t` node `n` of queue `q` runs, no longer among the nodes that were ready in `s`. -/
def Starts (s t : State) (q n : Nat) : Prop :=
  (t.node q n).nst = .running ∧ ∀ h, (t.queue q).graph = some h → ∀ g, (s.queue q).graph = some g → h.ready = g.ready.erase n

theorem Starts.graph {s t : State} {q n : Nat} (h : Starts s t q n) : (t.queue q).graph.isSome = true :=
  State.graph_of_running h.1

theorem Starts.keep {s t u : State} {q n : Nat} (h : Starts s t q n) (kept : StandingKept t u) : Starts s u q n := by
  refine ⟨(kept.nst q n).trans h.1, fun gu hu g hg => ?_⟩
  obtain ⟨gt, ht⟩ := Option.isSome_iff_exists.mp h.graph
  have same := kept.ready q
  rw [hu, ht] at same
  exact (Option.some.inj same).trans (h.2 gt ht g hg)

theorem Starts.endNode {s t : State} {q n : Nat} (h : Starts s t q n) (code addr : Nat) :
    Starts s (endNode t q n code addr) q n ∧ ((endNode t q n code addr).node q n).res = some (code, addr) :=
  ⟨h.keep (endNode_standing t q n code addr), by rw [endNode_node h.graph]⟩

theorem startable_graph {s : State} {q n kind : Nat} (h : startable s q n kind = true) : (s.queue q).graph.isSome = true := by
  unfold startable at h
  split at h
  · exact nomatch h
  next g some => rw [some]; rfl

/-- A node as its start leaves it. -/
def Node.begun (y : Node) : Node := { y with nst := .running, res := none, pos := 0 }

/-- A graph without a node among its ready ones. -/
def Graph.unready (g : Graph) (n : Nat) : Graph := { g with ready := g.ready.erase n }

section
variable (s : State) (q n : Nat)

theorem startNode_eq : startNode s q n = (s.modGraph q (·.unready n)).setNode q n (s.node q n).begun :=
  congrArg (fun y : Node => (s.modGraph q (·.unready n)).setNode q n y.begun)
    (State.node_modGraph s q (·.unready n) (fun _ => rfl) q n)

theorem startNode_hostOnly : HostOnly s (startNode s q n) := by
  rw [startNode_eq]
  exact (State.modGraph_hostOnly s q _).trans (setNode_hostOnly _ q n _)

@[simp] theorem startNode_vis : (startNode s q n).vis = s.vis := by rw [startNode_eq, State.setNode_vis, State.modGraph_vis]
@[simp] theorem startNode_waiters : (startNode s q n).waiters = s.waiters := by
  rw [startNode_eq, State.setNode_waiters, State.modGraph_waiters]
@[simp] theorem startNode_cycle : (startNode s q n).cycle = s.cycle := by
  rw [startNode_eq, State.setNode_cycle, State.modGraph_cycle]

theorem startNode_queue : (startNode s q n).queue q = { s.queue q with
    graph := (s.queue q).graph.map fun g => (g.unready n).setNode n (s.node q n).begun } := by
  rw [startNode_eq, State.queue_setNode_same, State.queue_modGraph_same, Option.map_map]; rfl

@[simp] theorem startNode_queue_vi : ((startNode s q n).queue q).vi = (s.queue q).vi := by rw [startNode_queue]
@[simp] theorem startNode_queue_asn : ((startNode s q n).queue q).asn = (s.queue q).asn := by rw [startNode_queue]

variable {s q n}

theorem startNode_node (h : (s.queue q).graph.isSome = true) : (startNode s q n).node q n = (s.node q n).begun := by
  rw [startNode_eq]
  exact State.node_setNode_same _ _ _ _ (by rw [State.queue_modGraph_same, Option.isSome_map, h])

theorem startNode_starts (h : (s.queue q).graph.isSome = true) : Starts s (startNode s q n) q n := by
  refine ⟨by rw [startNode_node h]; rfl, fun gt ht g hg => ?_⟩
  rw [startNode_queue, hg] at ht
  rw [← Option.some.inj ht]; rfl

end

/-! ## Events (R371, R372) -/

/-- The counter of an event of a virtual interface. -/
def State.eventCount (s : State) (vi ev : Nat) : Nat := Sp.get 0 (s.viface vi).events ev

theorem State.eventCount_of_vis {u v : State} (h : v.vis = u.vis) (vi ev : Nat) : v.eventCount vi ev = u.eventCount vi ev := by
  rw [State.eventCount, State.viface, h]; rfl

theorem eventCount_countRaise (s : State) (vi ev v e : Nat) :
    (countRaise s vi ev).eventCount v e =
      if v = vi ∧ e = ev then min (s.eventCount vi ev + 1) 0xFFFFFFFF else s.eventCount v e := by
  unfold State.eventCount countRaise
  rw [State.viface_setVI]
  by_cases same : v = vi
  · subst same
    simp only [if_true, Sp.get_put, true_and]
  · simp only [same, if_false, false_and]

theorem raiseEvent_zero (s : State) (vi : Nat) : raiseEvent s vi 0 = s := rfl

theorem raiseEvent_of_ne_zero (s : State) (vi : Nat) {ev : Nat} (h : ev ≠ 0) :
    raiseEvent s vi ev = testEvent (countRaise s vi ev) vi ev := by
  have kept : [ev].filter (· != 0) = [ev] := List.filter_cons_of_pos (bne_iff_ne.mpr h)
  rw [raiseEvent, raiseEvents, kept]; rfl

/-- A waiting node passes the test of an event: it is one of that event, and the counter is at its threshold (R371). -/
abbrev Passes (s : State) (vi ev : Nat) (w : Nat × Nat) : Prop :=
  (s.queue w.1).vi = vi ∧ (s.node w.1 w.2).f 0x10 2 = ev ∧ (s.node w.1 w.2).f 0x14 4 ≤ s.eventCount vi ev ∧
    (s.node w.1 w.2).nst = .running

/-- A node that passes takes its threshold from the counter, if its CONSUME is 1. -/
def takeCount (s : State) (vi ev : Nat) (x : Node) : State :=
  if (x.f 0x12 1).testBit 0 then
    s.setVI vi { s.viface vi with events := Sp.set 0 (s.viface vi).events ev (s.eventCount vi ev - x.f 0x14 4) }
  else s

/-- A node that passes has its outcome, and waits no longer. -/
def passWait (s : State) (vi ev : Nat) (w : Nat × Nat) : State :=
  let t := takeCount s vi ev (s.node w.1 w.2)
  { t.setNode w.1 w.2 { s.node w.1 w.2 with res := some (0, 0) } with waiters := t.waiters.filter (· != w) }

/-- The test of one waiting node. -/
def testWait (vi ev : Nat) (s : State) (w : Nat × Nat) : State := if Passes s vi ev w then passWait s vi ev w else s

theorem testWaits_eq_foldl (vi ev : Nat) (ws : List (Nat × Nat)) (s : State) :
    testWaits vi ev ws s = ws.foldl (testWait vi ev) s := by
  induction ws generalizing s with
  | nil => rfl
  | cons w ws ih =>
    rw [List.foldl_cons, ← ih, testWait]
    split
    next passes => exact if_pos passes
    next fails => exact if_neg fails

theorem testEvent_eq_foldl {s : State} (h : s.cycle.joined = false) (vi ev : Nat) :
    testEvent s vi ev = s.waiters.foldl (testWait vi ev) s := by
  rw [testEvent, h, ← testWaits_eq_foldl]; rfl

section
variable (s : State) (vi ev : Nat)

@[simp] theorem takeCount_queues (x : Node) : (takeCount s vi ev x).queues = s.queues := by unfold takeCount; split <;> rfl
@[simp] theorem takeCount_waiters (x : Node) : (takeCount s vi ev x).waiters = s.waiters := by unfold takeCount; split <;> rfl

theorem eventCount_takeCount (x : Node) : (takeCount s vi ev x).eventCount vi ev =
    if (x.f 0x12 1).testBit 0 then s.eventCount vi ev - x.f 0x14 4 else s.eventCount vi ev := by
  unfold takeCount
  split
  · rw [State.eventCount, State.viface_setVI_same]
    exact (Sp.get_set _ _ _ _ _).trans (if_pos rfl)
  · rfl

theorem passWait_queues (w : Nat × Nat) :
    (passWait s vi ev w).queues = ((takeCount s vi ev (s.node w.1 w.2)).setNode w.1 w.2
      { s.node w.1 w.2 with res := some (0, 0) }).queues := rfl

@[simp] theorem passWait_waiters (w : Nat × Nat) : (passWait s vi ev w).waiters = s.waiters.filter (· != w) := by
  rw [passWait, takeCount_waiters]

theorem eventCount_passWait (w : Nat × Nat) :
    (passWait s vi ev w).eventCount vi ev = (takeCount s vi ev (s.node w.1 w.2)).eventCount vi ev :=
  State.eventCount_of_vis (State.setNode_vis _ _ _ _) vi ev

theorem passWait_standing (w : Nat × Nat) : StandingKept s (passWait s vi ev w) := by
  have taken : StandingKept s (takeCount s vi ev (s.node w.1 w.2)) := .of_queues (takeCount_queues _ _ _ _)
  have answered := taken.trans (.setNode (x := { s.node w.1 w.2 with res := some (0, 0) }) (taken.nst w.1 w.2).symm)
  exact answered.trans (.of_queues (passWait_queues s vi ev w))

theorem testWait_standing (w : Nat × Nat) : StandingKept s (testWait vi ev s w) := by
  unfold testWait
  split
  · exact passWait_standing s vi ev w
  · exact .refl s

theorem testWaits_standing (ws : List (Nat × Nat)) : StandingKept s (testWaits vi ev ws s) := by
  rw [testWaits_eq_foldl]
  exact foldl_rel StandingKept.refl StandingKept.trans _ (fun t w => testWait_standing t vi ev w) ws s

theorem testEvent_standing : StandingKept s (testEvent s vi ev) := by
  unfold testEvent
  split
  · exact .of_queues rfl
  · exact testWaits_standing s vi ev _

theorem raiseEvent_standing : StandingKept s (raiseEvent s vi ev) := by
  by_cases zero : ev = 0
  · rw [zero, raiseEvent_zero]; exact .refl s
  · rw [raiseEvent_of_ne_zero s vi zero]
    have counted : StandingKept s (countRaise s vi ev) := .of_queues rfl
    exact counted.trans (testEvent_standing _ vi ev)

variable {s}

theorem testEvent_vis (h : s.waiters = []) : (testEvent s vi ev).vis = s.vis := by
  unfold testEvent
  split
  · rfl
  · rw [h]; rfl

theorem eventCount_raiseEvent (h : s.waiters = []) (v e : Nat) :
    (raiseEvent s vi ev).eventCount v e =
      if ev ≠ 0 ∧ v = vi ∧ e = ev then min (s.eventCount vi ev + 1) 0xFFFFFFFF else s.eventCount v e := by
  by_cases zero : ev = 0
  · rw [zero, raiseEvent_zero, if_neg (by simp)]
  · rw [raiseEvent_of_ne_zero s vi zero, State.eventCount_of_vis (testEvent_vis (s := countRaise s vi ev) vi ev h), eventCount_countRaise]
    simp only [ne_eq, zero, not_false_eq_true, true_and]

theorem eventCount_sendVector (vec v e : Nat) : (sendVector s vi vec).eventCount v e = s.eventCount v e := by
  unfold State.eventCount sendVector
  rw [State.viface_setVI]
  split
  next same => rw [same]
  · rfl

end

/-! ## A node that waits on (R371) -/

/-- Node `p` waits last in the row, as `y`, and the event it waits for has been counted below `y`'s threshold. -/
structure WaitsLast (vi ev : Nat) (p : Nat × Nat) (y : Node) (s : State) : Prop where
  node : s.node p.1 p.2 = y
  last : s.waiters.getLast? = some p
  short : s.eventCount vi ev < y.f 0x14 4

theorem WaitsLast.passWait {vi ev : Nat} {p w : Nat × Nat} {y : Node} {s : State} (h : WaitsLast vi ev p y s) (other : p ≠ w) :
    WaitsLast vi ev p y (passWait s vi ev w) where
  node := by
    rw [State.node_of_queues (passWait_queues s vi ev w), State.node_setNode_of_ne _ _ _ _ other,
      State.node_of_queues (takeCount_queues s vi ev _), h.node]
  last := by
    obtain ⟨before, row⟩ := List.getLast?_eq_some_iff.mp h.last
    rw [passWait_waiters, row, List.filter_append, List.filter_cons_of_pos (by rwa [bne_iff_ne])]
    exact List.getLast?_concat
  short := by
    have falls := eventCount_takeCount s vi ev (s.node w.1 w.2)
    have short := h.short
    rw [eventCount_passWait]
    split at falls <;> omega

/-- The tests of other nodes leave a node waiting whose threshold is not reached. -/
theorem WaitsLast.foldl {vi ev : Nat} {p : Nat × Nat} {y : Node} {s : State} (h : WaitsLast vi ev p y s)
    {ws : List (Nat × Nat)} (absent : p ∉ ws) : WaitsLast vi ev p y (ws.foldl (testWait vi ev) s) :=
  List.foldlRecOn ws _ h fun t waits w among => by
    unfold testWait
    split
    · exact waits.passWait fun same => absent (same ▸ among)
    · exact waits

/-- Its own test does so too. -/
theorem WaitsLast.testWait {vi ev : Nat} {p : Nat × Nat} {y : Node} {s : State} (h : WaitsLast vi ev p y s) :
    testWait vi ev s p = s :=
  if_neg fun passes => absurd passes.2.2.1 (by rw [h.node]; exact Nat.not_le.mpr h.short)

end Sys2Proof.Machine
end

section
/-!
The steps of graph nodes: launches, copies, installs, branches, events, waits, and what completes a node (R196, R318,
R361 to R367, R370, R371).
-/
namespace Sys2Proof.Machine
open Sys2Proof

/-! ## KERNEL and MILL nodes (R196, R318) -/

/-- If a launch is accepted, its record is one of which `p` holds. -/
def LaunchGives (p : Grid → Prop) (r : DevRes (Except Refused Nat × State)) : Prop :=
  ∀ gid u, r = .ok (.ok gid, u) → p (u.grid gid)

namespace LaunchGives
variable {p : Grid → Prop} {α : Type}

theorem refused (e : Refused) (s : State) : LaunchGives p (.ok (.error e, s)) := fun _ _ h => nomatch h

theorem bind (r : DevRes α) {k : α → DevRes (Except Refused Nat × State)} (h : ∀ a, LaunchGives p (k a)) :
    LaunchGives p (r.bind k) := by
  cases r with
  | ok a => exact h a
  | wait => exact fun _ _ h => nomatch h
  | fault va s => exact fun _ _ h => nomatch h

theorem ite {c : Prop} [Decidable c] {r r' : DevRes (Except Refused Nat × State)} (h : LaunchGives p r) (h' : LaunchGives p r') :
    LaunchGives p (if c then r else r') := by split <;> assumption

/-- An accepted launch holds what it was asked for, under an identity and with a daybook of its own. -/
theorem accepted {s : State} {g : Grid} {b : Option Daybook} (h : ∀ i m n, p { g with ident := i, book := b, code := m, since := n }) :
    LaunchGives p (.ok (.ok (acceptLaunch s g b).1, (acceptLaunch s g b).2)) := by
  rintro gid u ⟨⟩
  exact (State.grid_setGrid_same _ _ _).symm ▸ h _ _ _

end LaunchGives

/-- A launch of a node, in an address space of a virtual interface; a mill or not; not yet over. -/
def Grid.LaunchedFor (vi asn : Nat) (node : Nat × Nat) (mill : Prop) (g : Grid) : Prop :=
  g.node = node ∧ g.vi = vi ∧ g.asn = asn ∧ (g.mill.isSome = true ↔ mill) ∧ g.complete = false ∧ g.ended = false

theorem launchGrid_gives (s : State) (vi asn va : Nat) (node : Nat × Nat) :
    LaunchGives (Grid.LaunchedFor vi asn node False) (launchGrid s vi asn va node) := by
  unfold launchGrid
  refine .ite (.refused _ _) (.bind _ fun r => ?_)
  dsimp only
  split
  · exact .refused _ _
  refine .bind _ fun b => .ite (.refused _ _) ?_
  split
  · exact .refused _ _
  exact .ite (.refused _ _) (.bind _ fun k => .accepted fun _ _ _ => ⟨rfl, rfl, rfl, by simp, rfl, rfl⟩)

theorem launchMill_gives (s : State) (vi asn va : Nat) (node : Nat × Nat) :
    LaunchGives (Grid.LaunchedFor vi asn node True) (launchMill s vi asn va node) := by
  unfold launchMill
  refine .ite (.refused _ _) (.bind _ fun r => ?_)
  dsimp only
  split
  · exact .refused _ _
  refine .bind _ fun b => .ite (.refused _ _) ?_
  split
  · exact .refused _ _
  refine .bind _ fun st => ?_
  split
  · exact .refused _ _
  refine .ite (.refused _ _) (.bind _ fun rs => ?_)
  split
  · exact .refused _ _
  split
  · exact .refused _ _
  exact .bind _ fun k => .accepted fun _ _ _ => ⟨rfl, rfl, rfl, by simp, rfl, rfl⟩

/-- A kind of node whose step `i` launches by `launch`. -/
structure NodeLaunches (q n kind : Nat) (i : Instr)
    (launch : State → Nat → Nat → Nat → Nat × Nat → DevRes (Except Refused Nat × State)) : Prop where
  step : ∀ s, startable s q n kind = true →
    exec i s = .next (launchNode s q n (launch s (s.queue q).vi (s.queue q).asn ((s.node q n).f 0x10 8) (q, n)))
  gives : ∀ s vi asn va, LaunchGives (Grid.LaunchedFor vi asn (q, n) (kind = 2)) (launch s vi asn va (q, n))
  misplaced : ∀ s vi asn va, va % 64 ≠ 0 → launch s vi asn va (q, n) = .ok (.error (3, va), s)

theorem exec_kernelNode {s : State} {q n : Nat} (start : startable s q n 1 = true) : exec (.kernelNode q n) s =
    .next (launchNode s q n (launchGrid s (s.queue q).vi (s.queue q).asn ((s.node q n).f 0x10 8) (q, n))) := if_pos start

theorem exec_millNode {s : State} {q n : Nat} (start : startable s q n 2 = true) : exec (.millNode q n) s =
    .next (launchNode s q n (launchMill s (s.queue q).vi (s.queue q).asn ((s.node q n).f 0x10 8) (q, n))) := if_pos start

theorem launchGrid_misplaced (s : State) (vi asn : Nat) {va : Nat} (node : Nat × Nat) (off : va % 64 ≠ 0) :
    launchGrid s vi asn va node = .ok (.error (3, va), s) := by
  rw [launchGrid, if_pos (bne_iff_ne.mpr off)]

theorem launchMill_misplaced (s : State) (vi asn : Nat) {va : Nat} (node : Nat × Nat) (off : va % 64 ≠ 0) :
    launchMill s vi asn va node = .ok (.error (3, va), s) := by
  rw [launchMill, if_pos (bne_iff_ne.mpr off)]

theorem kernelNode_launches (q n : Nat) : NodeLaunches q n 1 (.kernelNode q n) launchGrid where
  step s start := exec_kernelNode start
  gives s vi asn va := by simpa using launchGrid_gives s vi asn va (q, n)
  misplaced s vi asn _ off := launchGrid_misplaced s vi asn (q, n) off

theorem millNode_launches (q n : Nat) : NodeLaunches q n 2 (.millNode q n) launchMill where
  step s start := exec_millNode start
  gives s vi asn va := by simpa using launchMill_gives s vi asn va (q, n)
  misplaced s vi asn _ off := launchMill_misplaced s vi asn (q, n) off

/-- A node starts as well in a state whose queues are those of `s`. -/
theorem startNode_starts_of_queues {s u : State} {q n : Nat} (h : (s.queue q).graph.isSome = true) (kept : u.queues = s.queues) :
    Starts s (startNode u q n) q n := by
  have same := State.queue_of_queues kept q
  have started : Starts u (startNode u q n) q n := startNode_starts (by rw [same, h])
  rwa [Starts, same] at started

section
variable {s u : State} {q n k : Nat} {i : Instr}
  {launch : State → Nat → Nat → Nat → Nat × Nat → DevRes (Except Refused Nat × State)}
  (kind : NodeLaunches q n k i launch) (start : startable s q n k = true) (kept : u.queues = s.queues)
include kind start kept

theorem NodeLaunches.accepted {gid : Nat}
    (ok : launch s (s.queue q).vi (s.queue q).asn ((s.node q n).f 0x10 8) (q, n) = .ok (.ok gid, u)) :
    ∃ t, exec i s = .next t ∧ Starts s t q n ∧ (t.node q n).res = none ∧
      (t.grid gid).LaunchedFor (s.queue q).vi (s.queue q).asn (q, n) (k = 2) := by
  have graph := startable_graph start
  refine ⟨startNode u q n, by rw [kind.step s start, ok]; rfl, startNode_starts_of_queues graph kept, ?_, ?_⟩
  · rw [startNode_node (by rw [State.queue_of_queues kept, graph])]; rfl
  · rw [(startNode_hostOnly u q n).grid]
    exact kind.gives _ _ _ _ gid u ok

theorem NodeLaunches.refused {code addr : Nat}
    (no : launch s (s.queue q).vi (s.queue q).asn ((s.node q n).f 0x10 8) (q, n) = .ok (.error (code, addr), u)) :
    ∃ t, exec i s = .next t ∧ Starts s t q n ∧ (t.node q n).res = some (code, addr) :=
  ⟨endNode (startNode u q n) q n code addr, by rw [kind.step s start, no]; rfl,
    (startNode_starts_of_queues (startable_graph start) kept).endNode code addr⟩

theorem NodeLaunches.faulted {va : Nat}
    (no : launch s (s.queue q).vi (s.queue q).asn ((s.node q n).f 0x10 8) (q, n) = .fault va u) :
    ∃ t, exec i s = .next t ∧ Starts s t q n ∧ (t.node q n).res = some (3, va) :=
  ⟨endNode (startNode u q n) q n 3 va, by rw [kind.step s start, no]; rfl,
    (startNode_starts_of_queues (startable_graph start) kept).endNode 3 va⟩

end

/-! ## COPY nodes (R361, R362) -/

/-- The bytes of the next piece of a COPY node. -/
def Node.piece (y : Node) : Nat :=
  min (y.f 0x20 8 - y.pos) (min (64 - (y.f 0x18 8 + y.pos) % 64) (64 - (y.f 0x10 8 + y.pos) % 64))

/-- A piece whose bytes are read and written is moved. -/
theorem copyPiece_moved {s u w : State} {q n v : Nat} {y : Node} (node : s.node q n = y)
    (get : devGet s (s.queue q).vi (s.queue q).asn (y.f 0x18 8 + y.pos) y.piece = .ok (v, u))
    (put : devPut u (s.queue q).vi (s.queue q).asn (y.f 0x10 8 + y.pos) y.piece v = .ok w) :
    copyPiece s q n = copyMoved w q n y.piece := by
  have moved : copyBytes s q n y.piece = .ok (copyMoved w q n y.piece) := by
    simp only [copyBytes, node, get, DevRes.bind, put]
  unfold copyPiece
  dsimp only
  rw [node, ← Node.piece, moved]

/-- Once bytes are moved a node runs on, or has its outcome with the last of them. -/
theorem copyMoved_leaves {w : State} {q n : Nat} {y : Node} (node : w.node q n = y) (running : y.nst = .running)
    (going : y.res = none) (k : Nat) :
    ((copyMoved w q n k).node q n).nst = .running ∧ ((copyMoved w q n k).node q n).pos = y.pos + k ∧
      ((copyMoved w q n k).node q n).res = (if y.pos + k = y.f 0x20 8 then some (0, 0) else none) ∧
      (copyMoved w q n k).mem = w.mem := by
  have graph := State.graph_of_running (node.symm ▸ running)
  refine ⟨?_, ?_, ?_, (setNode_hostOnly w q n _).field State.mem fun _ => rfl⟩ <;>
    rw [copyMoved, State.node_setNode_same _ _ _ _ graph, node]
  · exact running
  · rw [going]; rfl

theorem exec_copyNode_of_startable {s : State} {q n : Nat} (start : startable s q n 3 = true) :
    exec (.copyNode q n) s = .next (copyPiece (startNode s q n) q n) := if_pos start

theorem exec_copyNode_of_running {s : State} {q n : Nat} (idle : startable s q n 3 = false) (running : runningNode s q n 3 = true) :
    exec (.copyNode q n) s = .next (copyPiece s q n) := by
  show execCopyNode q n s = _
  rw [execCopyNode, idle, if_neg (by decide), if_pos running]

theorem runningNode_iff {s : State} {q n kind : Nat} : runningNode s q n kind = true ↔
    (s.node q n).nst = .running ∧ (s.node q n).res = none ∧ (s.node q n).f 0 1 = kind := by
  simp [runningNode, and_assoc]

/-! ## INSTALL nodes (R361) -/

theorem exec_installNode {s : State} {q n : Nat} (start : startable s q n 4 = true) :
    exec (.installNode q n) s = .next (nodeInstall (startNode s q n) q n) := if_pos start

section
variable {s u : State} {q n va : Nat} {m : Memory} {y : Node} (node : s.node q n = y) (first : y.pos = 0)
include node first

theorem nodeInstall_misplaced (off : y.f 0x10 8 % 64 ≠ 0) : nodeInstall s q n = endNode s q n 0x32 (y.f 0x10 8) := by
  unfold nodeInstall
  dsimp only
  rw [node, first, if_neg (by decide), if_pos (bne_iff_ne.mpr off)]

variable (aligned : y.f 0x10 8 % 64 = 0)
include aligned

theorem nodeInstall_unread (read : devRead s (s.queue q).vi (s.queue q).asn (y.f 0x10 8) 64 = .fault va u) :
    nodeInstall s q n = endNode u q n 0x32 va := by
  unfold nodeInstall
  dsimp only
  rw [node, first, if_neg (by decide), aligned, if_neg (by decide), read]

variable (read : devRead s (s.queue q).vi (s.queue q).asn (y.f 0x10 8) 64 = .ok (m, u))
include read

theorem nodeInstall_refused {o : Nat} (breach : firstBreach (installChecks m (ticketBusy u (s.queue q).vi)) = some o) :
    nodeInstall s q n = endNode u q n 0x33 o := by
  unfold nodeInstall
  dsimp only
  rw [node, first, if_neg (by decide), aligned, if_neg (by decide), read]
  dsimp only
  rw [breach]

theorem nodeInstall_passed (sound : firstBreach (installChecks m (ticketBusy u (s.queue q).vi)) = none)
    (room : ticketsFull u (s.queue q).vi = false) :
    nodeInstall s q n = addTicket (u.setNode q n { y with pos := 1 }) (s.queue q).vi
      { parseInstall m (s.queue q).asn with node := some (q, n) } := by
  unfold nodeInstall
  dsimp only
  rw [node, first, if_neg (by decide), aligned, if_neg (by decide), read]
  dsimp only
  rw [sound]
  dsimp only
  rw [room, if_neg (by decide)]

end

theorem addTicket_last (s : State) (vi : Nat) (x : Install) : ((addTicket s vi x).viface vi).tickets.getLast? = some x := by
  unfold addTicket
  rw [State.viface_setVI_same]
  exact List.getLast?_concat

/-! ## COND and LOOP nodes (R361, R363, R364) -/

theorem startNode_book (s : State) (q n : Nat) :
    ((startNode s q n).queue q).graph.map Graph.book = (s.queue q).graph.map Graph.book := by
  rw [startNode_queue, Option.map_map]; rfl

/-- A branch of a graph that no daybook was armed for stands, and is not noted. -/
theorem noteBranch_unarmed {s : State} {q : Nat} (h : (s.queue q).graph.map Graph.book = some false) (n value outcome : Nat) :
    noteBranch s q n value outcome = (true, s) := by
  obtain ⟨g, graph, unarmed⟩ := Option.map_eq_some_iff.mp h
  unfold noteBranch
  dsimp only
  rw [graph, Option.getD_some, unarmed]

/-- A LOOP that completes takes its list B; that its predicate still held is noted. -/
def loopEnding (t : State) (q n v : Nat) : State :=
  let u := t.setNode q n { t.node q n with takesA := false }
  if v != 0 then u.modGraph q fun g => { g with info := g.info ||| 1 } else u

/-- What a LOOP does once its predicate is read: it is to re-arm, or it completes. -/
def loopTurn (t : State) (q n v : Nat) (again : Bool) : State :=
  if again then t.setNode q n { t.node q n with nst := .rearm } else endNode (loopEnding t q n v) q n 0 0

section
variable {s u : State} {q n v : Nat} (kept : u.queues = s.queues) (read : predicate s q n = .ok (some v, u))
  (unarmed : (s.queue q).graph.map Graph.book = some false)
include kept read unarmed

theorem exec_condNode (start : startable s q n 5 = true) : exec (.condNode q n) s =
    .next (endNode ((startNode u q n).setNode q n { (startNode u q n).node q n with takesA := v != 0 }) q n 0 0) := by
  have unnoted : ((startNode u q n).queue q).graph.map Graph.book = some false := by
    rw [startNode_book, State.queue_of_queues kept, unarmed]
  show execCondNode q n s = _
  rw [execCondNode, start, read]
  dsimp only
  rw [noteBranch_unarmed unnoted]
  rfl

theorem exec_loopNode (start : startable s q n 6 = true) : exec (.loopNode q n) s =
    .next (loopTurn (startNode u q n) q n v (v != 0 && decide ((s.node q n).iter < (s.node q n).f 0x1E 2))) := by
  have unnoted : ((startNode u q n).queue q).graph.map Graph.book = some false := by
    rw [startNode_book, State.queue_of_queues kept, unarmed]
  show execLoopNode q n s = _
  rw [execLoopNode, start, read]
  dsimp only
  rw [noteBranch_unarmed unnoted, State.node_of_queues kept]
  simp only [Bool.not_true, Bool.false_eq_true, if_false, Option.getD_some, Option.isNone_some, loopTurn]
  split <;> rfl

end

section
variable {t : State} {q n : Nat} (graph : (t.queue q).graph.isSome = true) (v : Nat)
include graph

theorem loopTurn_again : ((loopTurn t q n v true).node q n).nst = .rearm := by
  rw [loopTurn, if_pos rfl, State.node_setNode_same _ _ _ _ graph]

theorem loopTurn_over :
    ((loopTurn t q n v false).node q n).res = some (0, 0) ∧ ((loopTurn t q n v false).node q n).takesA = false := by
  have ending : (loopEnding t q n v).node q n = { t.node q n with takesA := false } := by
    have ended := State.node_setNode_same t q n { t.node q n with takesA := false } graph
    unfold loopEnding
    dsimp only
    split
    · rw [State.node_modGraph _ q (fun g => { g with info := g.info ||| 1 }) fun _ => rfl, ended]
    · exact ended
  have still : ((loopEnding t q n v).queue q).graph.isSome = true := by
    unfold loopEnding
    dsimp only
    split <;> simp [graph]
  rw [loopTurn, if_neg (by decide), endNode_node still, ending]
  exact ⟨rfl, rfl⟩

end

/-! ## The re-arming of a LOOP (R364) -/

/-- A node's counters start again, before its LOOP's body does. -/
def resetNode (q : Nat) (s : State) (m : Nat) : State :=
  s.setNode q m { s.node q m with cnt := (s.node q m).f 2 2, back := (s.node q m).f 0xA 2, iter := 0, nst := .idle }

/-- The body of a LOOP. -/
def Node.body (y : Node) : List Nat := (List.range (y.f 0x22 2 + 1)).filter (y.f 0x20 2 ≤ ·)

theorem Node.mem_body {y : Node} {m : Nat} : m ∈ y.body ↔ y.f 0x20 2 ≤ m ∧ m ≤ y.f 0x22 2 := by
  simp [Node.body, and_comm]

theorem exec_loopRearm {s : State} {q n : Nat} {g : Graph} (graph : (s.queue q).graph = some g) (going : g.stopped = false)
    (rearm : (s.node q n).nst = .rearm)
    (idle : ∀ m ∈ (s.node q n).body, (s.node q m).nst ≠ .ready ∧ (s.node q m).nst ≠ .running ∧ (s.node q m).nst ≠ .rearm) :
    exec (.loopRearm q n) s = .next (decrementAll
      (((s.node q n).body.foldl (resetNode q) s).setNode q n
        { s.node q n with nst := .idle, back := (s.node q n).f 0xA 2, iter := (s.node q n).iter + 1 }) q n (s.node q n).listA) := by
  have free : ((s.node q n).body.any fun m => (s.node q m).nst == .ready || (s.node q m).nst == .running ||
      (s.node q m).nst == .rearm) = false := by
    rw [List.any_eq_false]
    intro m among
    obtain ⟨notReady, notRunning, notRearm⟩ := idle m among
    simp [notReady, notRunning, notRearm]
  show execLoopRearm q n s = _
  rw [execLoopRearm, graph]
  dsimp only
  rw [← Node.body, free, rearm, going]
  rfl

theorem graph_foldl_resetNode (q : Nat) (ms : List Nat) (s : State) :
    ((ms.foldl (resetNode q) s).queue q).graph.isSome = (s.queue q).graph.isSome :=
  foldl_rel (R := fun u v : State => (v.queue q).graph.isSome = (u.queue q).graph.isSome) (fun _ => rfl)
    (fun h h' => h'.trans h) _ (fun t m => by rw [resetNode, State.queue_setNode_same, Option.isSome_map]) ms s

/-- A decrement changes at most the node decremented, and not how often that has started its body. -/
theorem decrement_nodes (src : Nat) (r : Sp Node × List Nat × Option Nat) (t : Nat) :
    (decrement src r t).1 = r.1 ∨ ∃ y, (decrement src r t).1 = Sp.put r.1 t y ∧ y.iter = (Sp.get {} r.1 t).iter := by
  unfold decrement
  extract_lets x isBack c y ready z
  split
  · exact .inl rfl
  · have counted : y.iter = x.iter := by unfold y; split <;> rfl
    have readied : z.iter = y.iter := by unfold z; split <;> rfl
    exact .inr ⟨z, rfl, readied.trans counted⟩

theorem decrement_iter (src : Nat) (r : Sp Node × List Nat × Option Nat) (t m : Nat) :
    (Sp.get {} (decrement src r t).1 m).iter = (Sp.get {} r.1 m).iter := by
  obtain same | ⟨y, put, iter⟩ := decrement_nodes src r t
  · rw [same]
  · rw [put, Sp.get_put]
    split
    next at_t => rw [at_t, iter]
    · rfl

theorem decrementAll_nodes {s : State} {q : Nat} {g : Graph} (graph : (s.queue q).graph = some g) (src : Nat) (ms : List Nat) :
    ((decrementAll s q src ms).queue q).graph.map Graph.nodes = some (ms.foldl (decrement src) (g.nodes, [], none)).1 := by
  have queue : ∀ (u : State) (c : Cycle), (if u.cycle.joined then { u with cycle := c } else u).queue q = u.queue q := by
    intro u c
    split <;> rfl
  unfold decrementAll
  rw [graph]
  dsimp only
  rw [queue, State.queue_setQueue_same, Option.map_some]
  generalize ms.foldl (decrement src) (g.nodes, [], none) = r
  split
  · split <;> rfl
  · rfl

theorem decrementAll_iter (s : State) (q src : Nat) (ms : List Nat) (m : Nat) :
    ((decrementAll s q src ms).node q m).iter = (s.node q m).iter := by
  cases graph : (s.queue q).graph with
  | none => rw [decrementAll, graph]
  | some g =>
    have counted : (Sp.get {} (ms.foldl (decrement src) (g.nodes, [], none)).1 m).iter = (Sp.get {} g.nodes m).iter :=
      foldl_rel (R := fun a b : Sp Node × List Nat × Option Nat => (Sp.get {} b.1 m).iter = (Sp.get {} a.1 m).iter)
        (fun _ => rfl) (fun h h' => h'.trans h) _ (fun r t => decrement_iter src r t m) ms (g.nodes, [], none)
    obtain ⟨_, after, nodes⟩ := Option.map_eq_some_iff.mp (decrementAll_nodes graph src ms)
    rw [State.node, State.node, after, graph, Option.getD_some, Option.getD_some, nodes, counted]

/-! ## EVENT and WAIT nodes (R361, R371, R372) -/

/-- The event of an EVENT node is raised, and its vector sent if it has one. -/
def eventRaised (s : State) (vi : Nat) (y : Node) : State :=
  let t := raiseEvent s vi (y.f 0x10 2)
  if y.f 0x12 2 ≥ 2 ^ 15 then sendVector t vi (y.f 0x12 2 % 2048) else t

theorem exec_eventNode {s : State} {q n : Nat} (start : startable s q n 7 = true) : exec (.eventNode q n) s =
    .next (endNode (eventRaised (startNode s q n) (s.queue q).vi (s.node q n)) q n 0 0) := if_pos start

theorem eventRaised_standing (s : State) (vi : Nat) (y : Node) : StandingKept s (eventRaised s vi y) := by
  have raised := raiseEvent_standing s vi (y.f 0x10 2)
  unfold eventRaised
  dsimp only
  split
  · exact raised.trans (.of_queues rfl)
  · exact raised

theorem eventCount_eventRaised (s : State) (vi : Nat) (y : Node) (v e : Nat) :
    (eventRaised s vi y).eventCount v e = (raiseEvent s vi (y.f 0x10 2)).eventCount v e := by
  unfold eventRaised
  dsimp only
  split
  · exact eventCount_sendVector _ _ _ _
  · rfl

/-- A WAIT node has started, and waits last. -/
def waitBegun (s : State) (q n : Nat) : State :=
  { startNode s q n with waiters := (startNode s q n).waiters ++ [(q, n)] }

theorem exec_waitNode {s : State} {q n : Nat} (start : startable s q n 8 = true) : exec (.waitNode q n) s =
    .next (testEvent (waitBegun s q n) (s.queue q).vi ((s.node q n).f 0x10 2)) := by
  have begins : (startNode s q n).node q n = (s.node q n).begun := startNode_node (startable_graph start)
  show execWaitNode q n s = _
  rw [execWaitNode, if_pos start]
  show Host.Outcome.next (testEvent (waitBegun s q n) ((startNode s q n).queue q).vi (((startNode s q n).node q n).f 0x10 2)) = _
  rw [startNode_queue_vi, begins]
  rfl

section
variable {s : State} {q n : Nat} (start : startable s q n 8 = true)

theorem waitBegun_standing : StandingKept (startNode s q n) (waitBegun s q n) := .of_queues rfl

theorem waitBegun_queue_vi : ((waitBegun s q n).queue q).vi = (s.queue q).vi := startNode_queue_vi s q n

theorem eventCount_waitBegun (v e : Nat) : (waitBegun s q n).eventCount v e = s.eventCount v e :=
  State.eventCount_of_vis (startNode_vis s q n) v e

include start in
theorem waitBegun_node : (waitBegun s q n).node q n = (s.node q n).begun := startNode_node (startable_graph start)

include start in
theorem waitBegun_starts : Starts s (waitBegun s q n) q n :=
  (startNode_starts (startable_graph start)).keep waitBegun_standing

variable (going : s.cycle.joined = false)
include start going

/-- The nodes that waited before are tested first. -/
theorem exec_waitNode_tests : exec (.waitNode q n) s = .next (
    let u := s.waiters.foldl (testWait (s.queue q).vi ((s.node q n).f 0x10 2)) (waitBegun s q n)
    testWait (s.queue q).vi ((s.node q n).f 0x10 2) u (q, n)) := by
  rw [exec_waitNode start, testEvent_eq_foldl (by rw [waitBegun, startNode_cycle, going])]
  have row : (waitBegun s q n).waiters = s.waiters ++ [(q, n)] := by rw [waitBegun, startNode_waiters]
  rw [row, List.foldl_append]
  rfl

end

/-! ## The completion of a node (R366, R369) -/

/-- The list of nodes that the completion of a node decrements. -/
def Node.successors (y : Node) : List Nat :=
  if y.f 0 1 = 5 then (if y.takesA then y.listA else y.listB) else if y.f 0 1 = 6 then y.listB else y.listA

/-- A node whose own release is done is not held back. -/
theorem not_held {s : State} {y : Node} (released : y.releases = true → deviceQuiet s = true) :
    ¬ (y.releases && !deviceQuiet s) = true := by
  rw [Bool.and_eq_true, Bool.not_eq_true']
  rintro ⟨releases, busy⟩
  exact absurd (released releases) (by rw [busy]; decide)

section
variable {s : State} {q n code addr : Nat} (running : (s.node q n).nst = .running) (ended : (s.node q n).res = some (code, addr))
  (released : (s.node q n).releases = true → deviceQuiet s = true)
include running ended released

theorem exec_nodeComplete_of_success (success : code = 0) : exec (.nodeComplete q n) s =
    .next (decrementAll (s.setNode q n { s.node q n with nst := .done }) q n (s.node q n).successors) := by
  show execNodeComplete q n s = _
  rw [execNodeComplete, running, ended]
  dsimp only
  rw [if_neg (not_held released), if_pos success, ← ended]
  rfl

theorem exec_nodeComplete_of_failure (failure : code ≠ 0) (stops : ((s.node q n).f 1 1).testBit 0 = false) :
    exec (.nodeComplete q n) s =
      .next (recordFailure (s.setNode q n { s.node q n with nst := .done }) q n code addr false) := by
  show execNodeComplete q n s = _
  rw [execNodeComplete, running, ended]
  dsimp only
  rw [if_neg (not_held released), if_neg failure, bitOf, stops, if_neg (by decide), ← ended]

end

/-- The first failure of a graph stops it, and is the one that its record names. -/
theorem recordFailure_graph {s : State} {q : Nat} {g : Graph} (graph : (s.queue q).graph = some g) (first : g.status = 0)
    (n code addr : Nat) : ((recordFailure s q n code addr false).queue q).graph =
      some { g with stopped := true, status := 1, node := n, detail := code, addr := addr } := by
  unfold recordFailure
  extract_lets t
  have recorded : (t.queue q).graph = some { g with stopped := true, status := 1, node := n, detail := code, addr := addr } := by
    unfold t
    rw [State.queue_modGraph_same, graph]
    simp [first]
  split <;> exact recorded

/-! ## The clauses of NodeSteps -/

section
variable {s u : State} {q n v : Nat}

theorem copyNode_moves {r w : State} {y : Node} (step : exec (.copyNode q n) s = .next (copyPiece r q n))
    (node : r.node q n = y) (running : y.nst = .running) (going : y.res = none)
    (get : devGet r (r.queue q).vi (r.queue q).asn (y.f 0x18 8 + y.pos) y.piece = .ok (v, u))
    (put : devPut u (r.queue q).vi (r.queue q).asn (y.f 0x10 8 + y.pos) y.piece v = .ok w) (kept : w.queues = r.queues) :
    ∃ t, exec (.copyNode q n) s = .next t ∧ (t.node q n).nst = .running ∧ (t.node q n).pos = y.pos + y.piece ∧
      (t.node q n).res = (if y.pos + y.piece = y.f 0x20 8 then some (0, 0) else none) ∧ t.mem = w.mem :=
  ⟨copyMoved w q n y.piece, by rw [step, copyPiece_moved node get put],
    copyMoved_leaves ((State.node_of_queues kept q n).trans node) running going _⟩

/-- An INSTALL node that starts ends with why not. -/
theorem installNode_ends {code addr : Nat} (start : startable s q n 4 = true) (kept : u.queues = (startNode s q n).queues)
    (ends : nodeInstall (startNode s q n) q n = endNode u q n code addr) :
    ∃ t, exec (.installNode q n) s = .next t ∧ Starts s t q n ∧ (t.node q n).res = some (code, addr) :=
  ⟨_, (exec_installNode start).trans (congrArg _ ends),
    ((startNode_starts (startable_graph start)).keep (.of_queues kept)).endNode code addr⟩

/-- An INSTALL node that starts leaves a ticket entry. -/
theorem installNode_passes {m : Memory} (start : startable s q n 4 = true) (kept : u.queues = (startNode s q n).queues)
    (passes : nodeInstall (startNode s q n) q n = addTicket (u.setNode q n { (s.node q n).begun with pos := 1 }) (s.queue q).vi
      { parseInstall m (s.queue q).asn with node := some (q, n) }) :
    ∃ t, exec (.installNode q n) s = .next t ∧ Starts s t q n ∧ (t.node q n).res = none ∧ (t.node q n).pos = 1 ∧
      (t.viface (s.queue q).vi).tickets.getLast? = some { parseInstall m (s.queue q).asn with node := some (q, n) } := by
  have graph := startable_graph start
  have node : u.node q n = (s.node q n).begun := (State.node_of_queues kept q n).trans (startNode_node graph)
  have begun : Starts s u q n := (startNode_starts graph).keep (.of_queues kept)
  have passed := State.node_setNode_same u q n { (s.node q n).begun with pos := 1 } begun.graph
  refine ⟨_, (exec_installNode start).trans (congrArg _ passes), ?_, ?_, ?_, addTicket_last _ _ _⟩
  · exact (begun.keep (.setNode (by rw [node]))).keep (.of_queues rfl)
  · exact congrArg Node.res passed
  · exact congrArg Node.pos passed

theorem condNode_takes (start : startable s q n 5 = true) (unarmed : (s.queue q).graph.map Graph.book = some false)
    (read : predicate s q n = .ok (some v, u)) (kept : u.queues = s.queues) :
    ∃ t, exec (.condNode q n) s = .next t ∧ (t.node q n).res = some (0, 0) ∧ (t.node q n).nst = .running ∧
      (t.node q n).takesA = decide (v ≠ 0) := by
  have begun : Starts s (startNode u q n) q n := startNode_starts_of_queues (startable_graph start) kept
  have taken := State.node_setNode_same (startNode u q n) q n { (startNode u q n).node q n with takesA := v != 0 } begun.graph
  refine ⟨_, exec_condNode kept read unarmed start, ?_⟩
  rw [endNode_node (by rw [State.queue_setNode_same, Option.isSome_map, begun.graph]), taken]
  exact ⟨rfl, begun.1, by simp [bne, BEq.beq]⟩

theorem loopNode_turns (start : startable s q n 6 = true) (unarmed : (s.queue q).graph.map Graph.book = some false)
    (read : predicate s q n = .ok (some v, u)) (kept : u.queues = s.queues) :
    ∃ t, exec (.loopNode q n) s = .next t ∧
      (v ≠ 0 → (s.node q n).iter < (s.node q n).f 0x1E 2 → (t.node q n).nst = .rearm) ∧
      (v = 0 ∨ (s.node q n).f 0x1E 2 ≤ (s.node q n).iter → (t.node q n).res = some (0, 0) ∧ (t.node q n).takesA = false) := by
  have begun : Starts s (startNode u q n) q n := startNode_starts_of_queues (startable_graph start) kept
  refine ⟨_, exec_loopNode kept read unarmed start, fun holds within => ?_, fun ends => ?_⟩
  · rw [bne_iff_ne.mpr holds, decide_eq_true within]
    exact loopTurn_again begun.graph v
  · have done : (v != 0 && decide ((s.node q n).iter < (s.node q n).f 0x1E 2)) = false := by
      rw [Bool.and_eq_false_iff, bne_eq_false_iff_eq, decide_eq_false_iff_not, not_lt]
      exact ends
    rw [done]
    exact loopTurn_over begun.graph v

theorem loopRearm_rearms {g : Graph} (graph : (s.queue q).graph = some g) (going : g.stopped = false)
    (rearm : (s.node q n).nst = .rearm)
    (idle : ∀ m ∈ (s.node q n).body, (s.node q m).nst ≠ .ready ∧ (s.node q m).nst ≠ .running ∧ (s.node q m).nst ≠ .rearm) :
    ∃ t, exec (.loopRearm q n) s = .next t ∧ (t.node q n).iter = (s.node q n).iter + 1 :=
  ⟨_, exec_loopRearm graph going rearm idle, by
    rw [decrementAll_iter, State.node_setNode_same _ _ _ _ (by rw [graph_foldl_resetNode, graph]; rfl)]⟩

theorem eventNode_raises (start : startable s q n 7 = true) :
    ∃ t, exec (.eventNode q n) s = .next t ∧ Starts s t q n ∧ (t.node q n).res = some (0, 0) ∧
      (s.waiters = [] → ∀ v e, t.eventCount v e =
        if (s.node q n).f 0x10 2 ≠ 0 ∧ v = (s.queue q).vi ∧ e = (s.node q n).f 0x10 2 then
          min (s.eventCount (s.queue q).vi ((s.node q n).f 0x10 2) + 1) 0xFFFFFFFF else s.eventCount v e) := by
  have begun : Starts s (startNode s q n) q n := startNode_starts (startable_graph start)
  have raised := begun.keep (eventRaised_standing _ (s.queue q).vi (s.node q n))
  refine ⟨_, exec_eventNode start, (raised.endNode 0 0).1, (raised.endNode 0 0).2, fun alone v e => ?_⟩
  have before : ∀ v e, (startNode s q n).eventCount v e = s.eventCount v e := State.eventCount_of_vis (startNode_vis s q n)
  rw [State.eventCount_of_vis (endNode_vis _ _ _ _ _), eventCount_eventRaised,
    eventCount_raiseEvent _ _ (by rw [startNode_waiters, alone]), before, before]

theorem waitNode_passes (start : startable s q n 8 = true) (going : s.cycle.joined = false) (alone : s.waiters = [])
    (reached : (s.node q n).f 0x14 4 ≤ s.eventCount (s.queue q).vi ((s.node q n).f 0x10 2)) :
    ∃ t, exec (.waitNode q n) s = .next t ∧ Starts s t q n ∧ (t.node q n).res = some (0, 0) ∧ t.waiters = [] ∧
      t.eventCount (s.queue q).vi ((s.node q n).f 0x10 2) =
        if ((s.node q n).f 0x12 1).testBit 0 = true then
          s.eventCount (s.queue q).vi ((s.node q n).f 0x10 2) - (s.node q n).f 0x14 4
        else s.eventCount (s.queue q).vi ((s.node q n).f 0x10 2) := by
  have begun := waitBegun_starts start
  have node := waitBegun_node start
  have passes : Passes (waitBegun s q n) (s.queue q).vi ((s.node q n).f 0x10 2) (q, n) :=
    ⟨waitBegun_queue_vi, by rw [node]; rfl, by rw [node, eventCount_waitBegun]; exact reached, begun.1⟩
  have step := exec_waitNode_tests start going
  rw [alone, List.foldl_nil] at step
  refine ⟨_, step.trans (congrArg _ (if_pos passes)), begun.keep (passWait_standing _ _ _ _), ?_, ?_, ?_⟩
  · rw [State.node_of_queues (passWait_queues _ _ _ _), State.node_setNode_same]
    rw [State.queue_of_queues (takeCount_queues _ _ _ _), begun.graph]
  · rw [passWait_waiters, waitBegun, startNode_waiters, alone]
    simp
  · rw [eventCount_passWait, eventCount_takeCount, eventCount_waitBegun, node]
    rfl

theorem waitNode_waits (start : startable s q n 8 = true) (going : s.cycle.joined = false) (absent : (q, n) ∉ s.waiters)
    (short : s.eventCount (s.queue q).vi ((s.node q n).f 0x10 2) < (s.node q n).f 0x14 4) :
    ∃ t, exec (.waitNode q n) s = .next t ∧ (t.node q n).nst = .running ∧ (t.node q n).res = none ∧
      t.waiters.getLast? = some (q, n) := by
  have begun : WaitsLast (s.queue q).vi ((s.node q n).f 0x10 2) (q, n) (s.node q n).begun (waitBegun s q n) :=
    ⟨waitBegun_node start, List.getLast?_concat, by rw [eventCount_waitBegun]; exact short⟩
  have waits := begun.foldl absent
  refine ⟨_, (exec_waitNode_tests start going).trans (congrArg _ waits.testWait), ?_, ?_, waits.last⟩
  · exact congrArg Node.nst waits.node
  · exact congrArg Node.res waits.node

end

/-- Settles O44, a clause for each kind of node: a node that starts is `Starts`, what happens to it then changes no
node's standing (`Starts.keep`), and a WAIT that is not served is still `WaitsLast` after the tests of the others. -/
theorem nodeSteps : Obligations.NodeSteps := by
  unfold Obligations.NodeSteps
  intro s q n x y runs
  refine ⟨?launch, ?copy, ?install, ?cond, ?loop, ?rearm, ?waits, ?complete⟩
  case launch =>
    intro e among start
    have kind : NodeLaunches q n e.1 e.2.1 e.2.2 := by
      obtain rfl | rfl := List.mem_pair.mp among
      · exact kernelNode_launches q n
      · exact millNode_launches q n
    exact ⟨fun gid u ok kept => kind.accepted start kept ok, fun code addr u no kept => kind.refused start kept no,
      fun off => kind.refused start rfl (kind.misplaced s _ _ _ off), fun va u no kept => kind.faulted start kept no⟩
  case copy =>
    intro u v w either
    obtain start | ⟨idle, running⟩ := either
    · simp only [start, if_true]
      intro _ get put kept
      rw [← startNode_queue_vi s q n, ← startNode_queue_asn s q n] at get put
      have node : (startNode s q n).node q n = y.begun := startNode_node (startable_graph start)
      exact copyNode_moves (y := y.begun) (exec_copyNode_of_startable start) node rfl rfl get put kept
    · simp only [idle, Bool.false_eq_true, if_false]
      intro _ get put kept
      obtain ⟨nst, res, -⟩ := runningNode_iff.mp running
      exact copyNode_moves (exec_copyNode_of_running idle running) rfl nst res get put kept
  case install =>
    intro start r desc
    have node : r.node q n = y.begun := startNode_node (startable_graph start)
    refine ⟨fun off => ?misplaced, fun aligned => ⟨fun va u read kept => ?unread, fun m u read kept => ?read⟩⟩
    case misplaced => exact installNode_ends start rfl (nodeInstall_misplaced (y := y.begun) node rfl off)
    case unread =>
      rw [← startNode_queue_vi s q n, ← startNode_queue_asn s q n] at read
      exact installNode_ends start kept (nodeInstall_unread (y := y.begun) node rfl aligned read)
    case read =>
      rw [← startNode_queue_vi s q n, ← startNode_queue_asn s q n] at read
      refine ⟨fun o breach => ?_, fun sound room => ?_⟩
      · rw [← startNode_queue_vi s q n] at breach
        exact installNode_ends start kept (nodeInstall_refused (y := y.begun) node rfl aligned read breach)
      · rw [← startNode_queue_vi s q n] at sound room
        have passed := nodeInstall_passed (y := y.begun) node rfl aligned read sound room
        rw [startNode_queue_vi, startNode_queue_asn] at passed
        exact installNode_passes start kept passed
  case cond => exact fun v u start unarmed read kept => condNode_takes start unarmed read kept
  case loop => exact fun v u start unarmed read kept => loopNode_turns start unarmed read kept
  case rearm =>
    intro g graph going rearm idle
    exact loopRearm_rearms graph going rearm fun m among => idle m (Node.mem_body.mp among).1 (Node.mem_body.mp among).2
  case waits =>
    intro ev cnt
    refine ⟨fun start => ?_, fun start going => ⟨fun alone reached => ?_, fun absent short => ?_⟩⟩
    · obtain ⟨t, step, begun, res, counts⟩ := eventNode_raises start
      refine ⟨t, step, begun, res, fun alone some => ?_, fun v e other alone => ?_⟩
      · exact (counts alone _ _).trans (if_pos ⟨some, rfl, rfl⟩)
      · exact (counts alone v e).trans (if_neg fun same => other (Prod.ext same.2.1 same.2.2))
    · exact waitNode_passes start going alone reached
    · exact waitNode_waits start going absent short
  case complete =>
    intro code addr running ended released
    refine ⟨fun success => exec_nodeComplete_of_success running ended released success, fun failure stops g graph first => ?_⟩
    have graph' : ((s.setNode q n { y with nst := .done }).queue q).graph = some (g.setNode n { y with nst := .done }) := by
      rw [State.queue_setNode_same, graph]; rfl
    exact ⟨_, _, exec_nodeComplete_of_failure running ended released failure stops,
      recordFailure_graph graph' first n code addr, rfl, rfl, rfl, rfl, rfl⟩

end Sys2Proof.Machine
end

section
/-!
What the directory and the TLBs of a domain change when they change, and what a fold over a list brings about
(R221, R440, R441).
-/
namespace Sys2Proof

/-- What one element of a list brings about, where the others keep it, holds after a fold over the list. -/
theorem foldl_reaches {α β : Type*} {I P : α → Prop} {f : α → β → α} {x : β} (inv : ∀ a y, I a → I (f a y))
    (makes : ∀ a, I a → P (f a x)) (keeps : ∀ a y, P a → P (f a y)) {ls : List β} (mem : x ∈ ls) {a : α} (h : I a) :
    P (ls.foldl f a) := by
  have after : ∀ (ls : List β) (a : α), P a → P (ls.foldl f a) := by
    intro ls
    induction ls with
    | nil => exact fun _ h => h
    | cons y ls ih => exact fun a h => ih _ (keeps a y h)
  induction ls generalizing a with
  | nil => exact absurd mem List.not_mem_nil
  | cons y ls ih =>
    rcases List.mem_cons.mp mem with rfl | mem
    · exact after ls _ (makes a h)
    · exact ih mem (inv a y h)

/-- A table of the entries whose keys are of a kind. -/
theorem Sp.find_filter {α : Type} (p : Nat → Bool) (m : Sp α) (k : Nat) :
    Sp.find? (List.filter (fun (e : Nat × α) => p e.1) m) k = if p k = true then Sp.find? m k else none := by
  induction m with
  | nil => simp
  | cons e m ih =>
    obtain ⟨j, a⟩ := e
    cases named : p j with
    | true =>
      rw [List.filter_cons_of_pos (by exact named), Sp.find_cons, Sp.find_cons, ih]
      split
      · next same => rw [← same, if_pos named]
      · rfl
    | false =>
      rw [List.filter_cons_of_neg (by simp [named]), ih, Sp.find_cons]
      refine ite_congr rfl (fun hk => (if_neg fun same => ?_).symm) fun _ => rfl
      rw [same, hk] at named
      cases named

namespace Machine

theorem homeGate_eq {s t : State} {line : Nat} (h : homeGate s line = .ok t) : t = s := by
  have gate : ∀ p : Prop, [Decidable p] → (if p then .error s else .ok s : Try) = .ok t → t = s := by
    intro p _ h
    split at h <;> cases h
    rfl
  exact gate _ h

/-! ## The directory (R439 to R441) -/

/-- A domain without its directory and the invalidations that its home has sent. -/
def Domain.undirected (x : Domain) : Domain := { x with dir := [], busy := [], snoops := [] }

/-- `v` differs from `u` in the directories, and the invalidations sent, of domains alone. -/
structure DirectoryOnly (u v : State) : Prop where
  others : DomainsOnly u v
  domain : ∀ d, (v.domain d).undirected = (u.domain d).undirected

namespace DirectoryOnly

theorem refl (u : State) : DirectoryOnly u u := ⟨.refl u, fun _ => rfl⟩
theorem trans {u v w : State} (h : DirectoryOnly u v) (h' : DirectoryOnly v w) : DirectoryOnly u w :=
  ⟨h.others.trans h'.others, fun d => (h'.domain d).trans (h.domain d)⟩

theorem ite {u v w : State} {p : Prop} [Decidable p] (h : DirectoryOnly u v) (h' : DirectoryOnly u w) :
    DirectoryOnly u (if p then v else w) := by split <;> assumption

theorem setDomain {s : State} {d : Nat} {x : Domain} (h : x.undirected = (s.domain d).undirected) :
    DirectoryOnly s (s.setDomain d x) := by
  refine ⟨setDomain_domainsOnly s d x, fun e => ?_⟩
  rw [State.domain_setDomain]
  split
  · next same => rw [same, h]
  · rfl

/-- What a domain holds beside its directory is the same in both. -/
theorem field {u v : State} (h : DirectoryOnly u v) (d : Nat) {α : Sort*} (f : Domain → α)
    (hf : ∀ x : Domain, f x.undirected = f x) : f (v.domain d) = f (u.domain d) := by
  rw [← hf, h.domain, hf]

theorem remLine {u v : State} (h : DirectoryOnly u v) (d line : Nat) : v.remLine d line = u.remLine d line :=
  h.field d (fun x => Sp.find? x.remote line) fun _ => rfl

theorem invq {u v : State} (h : DirectoryOnly u v) (d : Nat) : (v.domain d).invq = (u.domain d).invq :=
  h.field d Domain.invq fun _ => rfl

end DirectoryOnly

theorem sendInval_directoryOnly (s : State) (line : Nat) (targets : List Nat) (src : Nat) :
    DirectoryOnly s (sendInval s line targets src) := .setDomain rfl

theorem snoopHost_directoryOnly (s : State) (e : DirEnt) (src : Nat) : DirectoryOnly s (snoopHost s e src) :=
  .ite (.refl s) (.setDomain rfl)

theorem dirDrop_directoryOnly (s : State) (line : Nat) : DirectoryOnly s (dirDrop s line) := .setDomain rfl

theorem dirRoom_directoryOnly (s : State) (line : Nat) : DirectoryOnly s (dirRoom s line) := by
  unfold dirRoom
  dsimp only
  split
  · exact .refl s
  · exact .ite (.refl s) (((sendInval_directoryOnly s _ _ _).trans (snoopHost_directoryOnly _ _ _)).trans
      (dirDrop_directoryOnly _ _))

theorem dirUpdate_directoryOnly (s : State) (line : Nat) (f : DirEnt → DirEnt) : DirectoryOnly s (dirUpdate s line f) := by
  unfold dirUpdate
  dsimp only
  refine DirectoryOnly.trans ?_ (.setDomain rfl)
  split
  · exact .refl s
  · exact (dirRoom_directoryOnly s line).trans (.setDomain rfl)

/-! ## TLBs and walk caches (R221) -/

/-- `v` holds what `u` holds in every field but the domains and the cores. -/
def PlacesOnly (u v : State) : Prop := { v with domains := [], cores := [] } = { u with domains := [], cores := [] }

theorem PlacesOnly.refl (u : State) : PlacesOnly u u := Eq.refl _
theorem PlacesOnly.trans {u v w : State} (h : PlacesOnly u v) (h' : PlacesOnly v w) : PlacesOnly u w := Eq.trans h' h

/-- Any other field is the same in both. -/
theorem PlacesOnly.field {u v : State} (h : PlacesOnly u v) {α : Sort*} (f : State → α)
    (hf : ∀ s : State, f { s with domains := [], cores := [] } = f s) : f v = f u := by
  rw [← hf v, ← hf u, h]

/-- The TLB of a core without the entries that an invalidation names. -/
def dropCoreTlb (q : InvScope) (s : State) (c : Nat) : State :=
  s.setCore c { s.core c with tlb := (s.core c).tlb.filter (!q.hits ·) }

/-- A domain's own TLB and walk cache without them. -/
def dropOwnTlb (q : InvScope) (s : State) (d : Nat) : State :=
  s.setDomain d { s.domain d with
    tlb := (s.domain d).tlb.filter (!q.hits ·), walks := (s.domain d).walks.filter (!q.hitsWalk ·) }

/-- The TLBs and the walk cache of a domain and its cores without them. -/
def dropDomainTlbs (q : InvScope) (s : State) (d : Nat) : State :=
  ((dropOwnTlb q s d).coresIn d).foldl (dropCoreTlb q) (dropOwnTlb q s d)

theorem dropTlbs_eq (s : State) (q : InvScope) : dropTlbs s q = (s.domsOf q.vi).foldl (dropDomainTlbs q) s := rfl

section
variable (q : InvScope)

theorem dropTlbs_placesOnly (s : State) : PlacesOnly s (dropTlbs s q) := by
  refine foldl_rel PlacesOnly.refl PlacesOnly.trans (dropDomainTlbs q) (fun u d => ?_) _ s
  exact PlacesOnly.trans (v := dropOwnTlb q u d) (Eq.refl _)
    (foldl_rel PlacesOnly.refl PlacesOnly.trans (dropCoreTlb q) (fun _ _ => Eq.refl _) _ _)

theorem dropDomainTlbs_domain (s : State) (d c : Nat) :
    (dropDomainTlbs q s d).domain c = (dropOwnTlb q s d).domain c := by
  have kept := foldl_rel (R := fun u v : State => v.domains = u.domains) (fun _ => rfl) (fun h h' => h'.trans h)
    (dropCoreTlb q) (fun _ _ => rfl) ((dropOwnTlb q s d).coresIn d) (dropOwnTlb q s d)
  simp only [State.domain, dropDomainTlbs, kept]

/-- No entry of a domain's TLB and walk cache is one that an invalidation names. -/
def TlbClear (d : Nat) (s : State) : Prop :=
  (∀ e ∈ (s.domain d).tlb, q.hits e = false) ∧ ∀ e ∈ (s.domain d).walks, q.hitsWalk e = false

theorem dropDomainTlbs_clears (s : State) (d : Nat) : TlbClear q d (dropDomainTlbs q s d) := by
  rw [TlbClear, dropDomainTlbs_domain, dropOwnTlb, State.domain_setDomain_same]
  refine ⟨fun e he => ?_, fun e he => ?_⟩
  · simpa using (List.mem_filter.mp he).2
  · simpa using (List.mem_filter.mp he).2

theorem dropDomainTlbs_keepsClear {s : State} {c : Nat} (d : Nat) (h : TlbClear q c s) : TlbClear q c (dropDomainTlbs q s d) := by
  by_cases same : c = d
  · exact same ▸ dropDomainTlbs_clears q s d
  · rw [TlbClear, dropDomainTlbs_domain, dropOwnTlb, State.domain_setDomain, if_neg same]
    exact h

/-- An invalidation leaves no entry that it names in any domain of its partition. -/
theorem dropTlbs_clear {s : State} {d : Nat} (hd : d ∈ s.domsOf q.vi) : TlbClear q d (dropTlbs s q) :=
  foldl_reaches (I := fun _ => True) (fun _ _ h => h) (fun u _ => dropDomainTlbs_clears q u d)
    (fun _ c h => dropDomainTlbs_keepsClear q c h) hd trivial

/-- No core has a copy or a line in its L1. -/
def CoresIdle (s : State) : Prop := (∀ e ∈ s.cores, e.2.copies = []) ∧ ∀ c, (s.core c).l1 = []

theorem CoresIdle.copies {s : State} (h : CoresIdle s) (c : Nat) : (s.core c).copies = [] := by
  rw [State.core, Sp.get]
  cases found : Sp.find? s.cores c with
  | none => rfl
  | some x => exact h.1 _ (Sp.mem_of_find found)

theorem dropCoreTlb_idle {s : State} (c : Nat) (h : CoresIdle s) : CoresIdle (dropCoreTlb q s c) := by
  refine ⟨fun e he => ?_, fun c' => ?_⟩
  · rcases Sp.mem_put he with rfl | he
    · exact h.copies c
    · exact h.1 e he
  · rw [dropCoreTlb, State.core_setCore]
    split
    · exact h.2 c
    · exact h.2 c'

theorem dropTlbs_idle {s : State} (h : CoresIdle s) : CoresIdle (dropTlbs s q) := by
  have idle := fun {β : Type} (f : State → β → State) (hf : ∀ u x, CoresIdle u → CoresIdle (f u x)) (ls : List β) (u : State) =>
    foldl_rel (R := fun u v : State => CoresIdle u → CoresIdle v) (fun _ h => h) (fun h h' => h' ∘ h) f hf ls u
  exact idle _ (fun u d (hu : CoresIdle (dropOwnTlb q u d)) => idle _ (fun _ c => dropCoreTlb_idle q c) _ _ hu) _ _ h

end

theorem cleanPartition_of_empty {s : State} (h : ∀ c, (s.core c).l1 = []) (vi : Nat) : cleanPartition s vi = (true, s) :=
  List.foldl_fixed' (fun c => by simp only [cleanL1All_of_empty h, Bool.and_self]) _

theorem invPending_of_idle {s : State} (ops : s.ops = []) (h : CoresIdle s) (q : InvScope) : invPending s q = false := by
  rw [invPending, ops, List.any_nil, Bool.false_or, List.any_eq_false]
  intro e he
  rw [h.1 e he, List.any_nil]
  exact Bool.false_ne_true

end Machine
end Sys2Proof
end

section
/-!
An invalidation that is applied to a remote copy: what it leaves valid, and that dirty bytes stay (R440).
-/
namespace Sys2Proof.Machine
open Sys2Proof

/-! ## Bits of the sector masks -/

/-- A bit that is set is cleared by the difference, and no other bit becomes set. -/
theorem testBit_of_sub_two_pow {v k i : Nat} (bit : v.testBit k = true) (h : (v - 2 ^ k).testBit i = true) :
    v.testBit i = true := by
  induction k generalizing v i with
  | zero =>
    rw [Nat.testBit_zero, decide_eq_true_eq] at bit
    cases i with
    | zero => rw [Nat.testBit_zero, decide_eq_true_eq]; exact bit
    | succ i =>
      rw [Nat.testBit_add_one] at h ⊢
      rwa [show (v - 2 ^ 0) / 2 = v / 2 by omega] at h
  | succ k ih =>
    have even : 2 ^ (k + 1) = 2 * 2 ^ k := Nat.pow_succ'
    rw [Nat.testBit_add_one] at bit
    have low : 2 ^ k ≤ v / 2 := Nat.ge_two_pow_of_testBit bit
    cases i with
    | zero =>
      rw [Nat.testBit_zero, decide_eq_true_eq] at h ⊢
      omega
    | succ i =>
      rw [Nat.testBit_add_one] at h ⊢
      exact ih bit (by rwa [show (v - 2 ^ (k + 1)) / 2 = v / 2 - 2 ^ k by omega] at h)

/-- What a mask's complement names, the mask does not. -/
theorem testBit_of_complement {n x i : Nat} (h : (2 ^ n - 1 - x).testBit i = true) : x.testBit i = false := by
  by_cases fits : x < 2 ^ n
  · rw [Nat.sub_sub, Nat.add_comm 1 x, Nat.testBit_two_pow_sub_succ fits, Bool.and_eq_true, Bool.not_eq_true'] at h
    exact h.2
  · rw [show 2 ^ n - 1 - x = 0 by omega, Nat.zero_testBit] at h
    exact absurd h Bool.false_ne_true

/-- A bit of the dirty sectors names a sector with a dirty byte. -/
theorem CLine.dirty_of_dirtySectors {c : CLine} {i : Nat} (h : c.dirtySectors.testBit i = true) :
    c.dirty / 2 ^ (64 * i) % 2 ^ 64 ≠ 0 := by
  have named : ∀ (ls : List Nat) (m : Nat),
      (ls.foldl (fun m i => if c.dirty / 2 ^ (64 * i) % 2 ^ 64 = 0 then m else m ||| 1 <<< i) m).testBit i = true →
        m.testBit i = true ∨ c.dirty / 2 ^ (64 * i) % 2 ^ 64 ≠ 0 := by
    intro ls
    induction ls with
    | nil => exact fun _ h => .inl h
    | cons j ls ih =>
      intro m h
      rcases ih _ h with bit | dirty
      · dsimp only at bit
        split at bit
        · exact .inl bit
        · next dirty =>
          rw [Nat.testBit_or, Nat.one_shiftLeft, Nat.testBit_two_pow, Bool.or_eq_true, decide_eq_true_eq] at bit
          rcases bit with bit | rfl
          · exact .inl bit
          · exact .inr dirty
      · exact .inr dirty
  exact (named _ 0 h).resolve_left (by rw [Nat.zero_testBit]; exact Bool.false_ne_true)

theorem CLine.invalidate_of_clean {c : CLine} (clean : c.dirty = 0) : c.invalidate = { c with valid := 0 } := by
  simp [CLine.invalidate, CLine.dirtySectors, clean]

theorem CLine.mixed_valid {c : CLine} {sec : Nat} (h : sec ∈ c.mixed) : c.valid.testBit sec = true :=
  (Bool.and_eq_true_iff.mp (List.mem_filter.mp h).2).1

/-! ## Copies that shrink -/

/-- `y` holds the dirty bytes of `x`, and no sector of it is valid that is not valid in `x`. -/
structure CLine.ShrinksTo (x y : CLine) : Prop where
  dirty : y.dirty = x.dirty
  bytes : ∀ i, x.dirty.testBit i = true → y.data.byte i = x.data.byte i
  valid : ∀ i, y.valid.testBit i = true → x.valid.testBit i = true

theorem CLine.ShrinksTo.refl (x : CLine) : x.ShrinksTo x := ⟨rfl, fun _ _ => rfl, fun _ h => h⟩

theorem CLine.ShrinksTo.dropSector {x y : CLine} (h : x.ShrinksTo y) (sec : Nat) : x.ShrinksTo (y.dropSector sec) := by
  refine ⟨h.dirty, h.bytes, fun i hi => h.valid i ?_⟩
  simp only [CLine.dropSector] at hi
  split at hi
  · next bit => exact testBit_of_sub_two_pow bit hi
  · exact hi

/-- A fill of a sector writes clean bytes alone. -/
theorem fillRemote_line {s t : State} {d line sec : Nat} {c : CLine} (h : fillRemote s d line sec = .ok t)
    (line? : s.remLine d line = some c) :
    ∃ c' : CLine, DirectoryOnly (s.setRem d line c') t ∧ c'.dirty = c.dirty ∧ c'.valid = c.valid ||| 1 <<< sec ∧
      ∀ i, c.dirty.testBit i = true → c'.data.byte i = c.data.byte i := by
  unfold fillRemote at h
  cases free : l2Gate s (lineHome line) line with
  | error e => rw [free] at h; cases h
  | ok u =>
    cases l2Gate_eq free
    cases quiet : homeGate s line with
    | error e => rw [free] at h; simp only [bind, Except.bind, quiet] at h; cases h
    | ok u =>
      cases homeGate_eq quiet
      rw [free] at h
      simp only [bind, Except.bind, quiet, line?, Option.getD_some] at h
      cases h
      refine ⟨_, dirUpdate_directoryOnly _ line _, rfl, rfl, fun i dirty => ?_⟩
      rw [byte_copyMask, if_neg]
      rintro ⟨-, near, named⟩
      rw [Nat.sub_zero, Nat.testBit_and, Bool.and_eq_true] at named
      rw [testBit_of_complement named.2] at dirty
      cases dirty

theorem State.remLine_setRem_same (s : State) (d line : Nat) (c : CLine) : (s.setRem d line c).remLine d line = some c := by
  rw [State.remLine, State.setRem, State.domain_setDomain_same, Sp.find_put_same]

theorem State.invq_setRem (s : State) (d line : Nat) (c : CLine) (e : Nat) :
    ((s.setRem d line c).domain e).invq = (s.domain e).invq := by
  rw [State.setRem, State.domain_setDomain]
  split
  · next same => rw [same]
  · rfl

/-- In `u` the remote copy of a line is one that `x` shrinks to; main DRAM and the domain's queues are as in `s`. -/
structure Shrunk (s : State) (d line : Nat) (x : CLine) (u : State) : Prop where
  copy : ∃ y, u.remLine d line = some y ∧ x.ShrinksTo y
  mem : u.mem = s.mem
  invq : (u.domain d).invq = (s.domain d).invq

theorem Shrunk.setRem {s u : State} {d line : Nat} {x y : CLine} (h : Shrunk s d line x u) (hy : x.ShrinksTo y) :
    Shrunk s d line x (u.setRem d line y) :=
  ⟨⟨y, State.remLine_setRem_same u d line y, hy⟩, h.mem, (State.invq_setRem u d line y d).trans h.invq⟩

theorem Shrunk.directory {s u v : State} {d line : Nat} {x : CLine} (h : Shrunk s d line x u) (hv : DirectoryOnly u v) :
    Shrunk s d line x v :=
  ⟨hv.remLine d line ▸ h.copy, (hv.others.field State.mem fun _ => rfl).trans h.mem, (hv.invq d).trans h.invq⟩

/-- A sector that an invalidation leaves valid is read at home again, or dropped. -/
def refreshSector (d line : Nat) (s : State) (sec : Nat) : State :=
  match if wayTo s d (lineHome line) = .crosses then fillRemote s d line sec else .error s with
  | .ok t => t
  | .error _ => s.setRem d line (((s.remLine d line).getD {}).dropSector sec)

theorem refreshRemote_eq (s : State) (d line : Nat) :
    refreshRemote s d line = (((s.remLine d line).map CLine.mixed).getD []).foldl (refreshSector d line) s := rfl

theorem Shrunk.refreshSector {s u : State} {d line sec : Nat} {x : CLine} (h : Shrunk s d line x u)
    (was : x.valid.testBit sec = true) : Shrunk s d line x (refreshSector d line u sec) := by
  obtain ⟨y, copy, shrinks⟩ := h.copy
  unfold Machine.refreshSector
  split
  · next t filled =>
    split at filled
    · obtain ⟨z, directory, dirty, valid, bytes⟩ := fillRemote_line filled copy
      refine (h.setRem ⟨dirty.trans shrinks.dirty, fun i hi => ?_, fun i hi => ?_⟩).directory directory
      · rw [bytes i (by rwa [shrinks.dirty]), shrinks.bytes i hi]
      · rw [valid, Nat.testBit_or, Nat.one_shiftLeft, Nat.testBit_two_pow, Bool.or_eq_true, decide_eq_true_eq] at hi
        rcases hi with hi | rfl
        · exact shrinks.valid i hi
        · exact was
    · cases filled
  · rw [copy, Option.getD_some]
    exact h.setRem (shrinks.dropSector sec)

theorem Shrunk.refreshSectors {s u : State} {d line : Nat} {x : CLine} {ls : List Nat} (h : Shrunk s d line x u)
    (was : ∀ sec ∈ ls, x.valid.testBit sec = true) : Shrunk s d line x (ls.foldl (Machine.refreshSector d line) u) := by
  induction ls generalizing u with
  | nil => exact h
  | cons sec ls ih =>
    exact ih (h.refreshSector (was sec List.mem_cons_self)) fun i hi => was i (List.mem_cons_of_mem _ hi)

/-- What an invalidation of a held line leaves. -/
theorem applyInval_shrunk {s : State} {d line : Nat} {c : CLine} (copy : s.remLine d line = some c) :
    Shrunk s d line c.invalidate (applyInval s d line) := by
  have start : Shrunk s d line c.invalidate (s.setRem d line c.invalidate) :=
    ⟨⟨_, State.remLine_setRem_same s d line _, .refl _⟩, rfl, State.invq_setRem s d line _ d⟩
  simp only [applyInval, copy, refreshRemote_eq, State.remLine_setRem_same, Option.map_some, Option.getD_some]
  exact start.refreshSectors fun sec => CLine.mixed_valid

/-- A clean copy has no valid sector left. -/
theorem applyInval_of_clean {s : State} {d line : Nat} {c : CLine} (copy : s.remLine d line = some c) (clean : c.dirty = 0) :
    applyInval s d line = s.setRem d line { c with valid := 0 } := by
  have none : CLine.mixed { c with valid := 0 } = [] := by simp [CLine.mixed]
  simp only [applyInval, copy, CLine.invalidate_of_clean clean, refreshRemote_eq, State.remLine_setRem_same, Option.map_some,
    Option.getD_some, none, List.foldl_nil]

theorem CLine.invalidate_valid {c : CLine} {i : Nat} (h : c.invalidate.valid.testBit i = true) :
    c.valid.testBit i = true ∧ c.dirty / 2 ^ (64 * i) % 2 ^ 64 ≠ 0 := by
  rw [CLine.invalidate, Nat.testBit_and, Bool.and_eq_true] at h
  exact ⟨h.1, CLine.dirty_of_dirtySectors h.2⟩

end Sys2Proof.Machine
end

section
/-!
The steps of domains and of address spaces: park places, invalidations, ASNs and their roots, TLB invalidations, hash
masks and migrations (R212, R220, R221, R232, R233, R354, R355, R440, R441, R455).
-/
namespace Sys2Proof

/-! ## A frame that is copied (R354) -/

/-- Rising keys repeat none. -/
theorem Sp.find_of_rising {α : Type} {m : Sp α} {lo k : Nat} (h : Sp.rising lo m = true) (hk : k < lo) : Sp.find? m k = none := by
  induction m generalizing lo with
  | nil => rfl
  | cons e m ih =>
    simp only [Sp.rising, Bool.and_eq_true, decide_eq_true_eq] at h
    rw [Sp.find_cons, if_neg (by omega)]
    exact ih h.2 (by omega)

namespace Memory

/-- Bytes that are written at a distance from where a table has them. -/
theorem byte_foldl_moved {l : Sp Byte} {lo old new k : Nat} (rises : Sp.rising lo l = true)
    (low : ∀ e ∈ l, old ≤ e.1) (hk : old ≤ k) (m : Memory) :
    (l.foldl (fun m e => Memory.setByte m (e.1 - old + new) e.2) m).byte (k - old + new) =
      (Sp.find? l k).getD (m.byte (k - old + new)) := by
  induction l generalizing lo m with
  | nil => rfl
  | cons e l ih =>
    obtain ⟨j, b⟩ := e
    simp only [Sp.rising, Bool.and_eq_true, decide_eq_true_eq] at rises
    have first : old ≤ j := low (j, b) List.mem_cons_self
    rw [List.foldl_cons, ih rises.2 fun e he => low e (List.mem_cons_of_mem _ he), byte_setByte, Sp.find_cons]
    by_cases same : j = k
    · rw [if_pos same, ← same, Sp.find_of_rising rises.2 (Nat.lt_succ_self j), if_pos rfl]
      rfl
    · rw [if_neg same, if_neg (by omega)]

/-- Bytes that are written elsewhere change no byte. -/
theorem byte_foldl_setByte {β : Type} {f : β → Nat} {g : β → Byte} {l : List β} {a : Nat} (h : ∀ e ∈ l, f e ≠ a) (m : Memory) :
    (l.foldl (fun m e => m.setByte (f e) (g e)) m).byte a = m.byte a := by
  induction l generalizing m with
  | nil => rfl
  | cons e l ih =>
    rw [List.foldl_cons, ih fun x hx => h x (List.mem_cons_of_mem _ hx), byte_setByte,
      if_neg fun same => h e List.mem_cons_self same.symm]

end Memory

namespace Machine

/-- Whether an address lies in a frame. -/
def inFrame (base size a : Nat) : Bool := decide (base ≤ a) && decide (a < base + size)

theorem inFrame_iff {base size a : Nat} : inFrame base size a = true ↔ base ≤ a ∧ a < base + size := by
  rw [inFrame, Bool.and_eq_true, decide_eq_true_eq, decide_eq_true_eq]

theorem frameCopied_eq (m : Memory) (old new size : Nat) : frameCopied m old new size =
    (List.filter (fun (e : Nat × Byte) => inFrame old size e.1) m).foldl (fun m e => Memory.setByte m (e.1 - old + new) e.2)
      (List.filter (fun (e : Nat × Byte) => !inFrame new size e.1) m) := rfl

/-- The new frame holds the bytes of the old one. -/
theorem byte_frameCopied {m : Memory} (wf : m.wf = true) (old new : Nat) {size i : Nat} (hi : i < size) :
    (frameCopied m old new size).byte (new + i) = m.byte (old + i) := by
  have source : inFrame old size (old + i) = true := inFrame_iff.mpr ⟨by omega, by omega⟩
  have target : inFrame new size (new + i) = true := inFrame_iff.mpr ⟨by omega, by omega⟩
  have rises : Sp.rising 0 (List.filter (fun (e : Nat × Byte) => inFrame old size e.1) m) = true :=
    Sp.rising_filter _ ((Sp.wf_iff 0 m).mp wf).1
  have low : ∀ e ∈ List.filter (fun (e : Nat × Byte) => inFrame old size e.1) m, old ≤ e.1 := fun e he =>
    (inFrame_iff.mp (List.mem_filter.mp he).2).1
  rw [frameCopied_eq, show new + i = old + i - old + new by omega, Memory.byte_foldl_moved rises low (by omega),
    show old + i - old + new = new + i by omega, Sp.find_filter, if_pos source, Memory.byte, Sp.get,
    Sp.find_filter (fun a => !inFrame new size a), target]
  rfl

/-- No byte beyond the new frame changes. -/
theorem byte_frameCopied_of_not_mem (m : Memory) (old new : Nat) {size a : Nat} (ha : a < new ∨ new + size ≤ a) :
    (frameCopied m old new size).byte a = m.byte a := by
  have beyond : (!inFrame new size a) = true := by
    rw [Bool.not_eq_true', Bool.eq_false_iff, ne_eq, inFrame_iff]
    omega
  rw [frameCopied_eq, Memory.byte_foldl_setByte, Memory.byte, Sp.get, Sp.find_filter (fun a => !inFrame new size a), if_pos beyond]
  · rfl
  · intro e he
    have := inFrame_iff.mp (List.mem_filter.mp he).2
    omega

/-! ## Park places (R220) -/

@[simp] theorem postFault_faults (s : State) (vi : Nat) (f : FaultRef) : (postFault s vi f).faults = s.faults ++ [f] := by
  unfold postFault; dsimp only; split <;> rfl
@[simp] theorem postFault_pendq (s : State) (vi : Nat) (f : FaultRef) : (postFault s vi f).pendq = s.pendq := by
  unfold postFault; dsimp only; split <;> rfl

/-- The entry that a park-pending weft posts, with the lanes that have completed the failing instruction by then. -/
def pendingEntry (s : State) (x : Weft) : Option FqEntry :=
  match x.parkOp.bind fun id => (s.op? id).map fun o => parkDone x id o with
  | some e => e
  | none => x.park

/-- A weft that is park pending posts its entry where its domain has a free place. -/
theorem exec_parkPendingAdmit {s : State} {d b w : Nat} (room : parkedIn s d < 1024)
    (first : s.pendq.find? (fun x => domOf (s.block x.1).core == d) = some (b, w)) :
    exec (.parkPendingAdmit d) s = .next (postFault (State.setWeft { s with pendq := s.pendq.erase (b, w) } b w
      { s.weft b w with pending := false, park := pendingEntry s (s.weft b w) }) (s.viOf b) (.weft b w)) := by
  rw [show exec (.parkPendingAdmit d) s = execParkPendingAdmit d s from rfl, execParkPendingAdmit,
    if_neg (Nat.not_le.mpr room), first]
  rfl

theorem parkPendingAdmit_posts {s : State} {d b w : Nat} (room : parkedIn s d < 1024)
    (first : s.pendq.find? (fun x => domOf (s.block x.1).core == d) = some (b, w)) :
    ∃ t, exec (.parkPendingAdmit d) s = .next t ∧ (t.weft b w).pending = false ∧
      t.faults = s.faults ++ [.weft b w] ∧ t.pendq = s.pendq.erase (b, w) := by
  refine ⟨_, exec_parkPendingAdmit room first, ?_, postFault_faults _ _ _, postFault_pendq _ _ _⟩
  rw [State.weft, postFault_wefts, ← State.weft, State.weft_setWeft_same]

/-! ## Invalidations (R440, R441, R446) -/

/-- The host completes a back-invalidation. -/
theorem invalidationAccept_of_host {s : State} {d line target : Nat} {i : Inval}
    (snoop : (s.domain d).snoops.find? (fun i => i.line == line && i.target == target) = some i) :
    exec (.invalidationAccept d line target) s =
      .next (s.setDomain d { s.domain d with snoops := (s.domain d).snoops.erase i }) := by
  rw [show exec (.invalidationAccept d line target) s = execInvalidationAccept d line target s from rfl]
  simp only [execInvalidationAccept, snoop]

/-- A home whose invalidation of a line is accepted, and the bank of the target that is to apply it. -/
def acceptedInval (s : State) (d line target : Nat) (i : Inval) : State :=
  let u := s.setDomain d { s.domain d with busy := (s.domain d).busy.erase i }
  u.setDomain target { u.domain target with
    invq := Sp.put (u.domain target).invq (bankOf s target line)
      (Sp.get [] (s.domain target).invq (bankOf s target line) ++ [line]) }

section
variable {s : State} {d line target : Nat} {i : Inval}

/-- A bank with room takes an invalidation at the end of its queue. -/
theorem exec_invalidationAccept (unsnooped : (s.domain d).snoops.find? (fun i => i.line == line && i.target == target) = none)
    (busy : (s.domain d).busy.find? (fun i => i.line == line && i.target == target) = some i)
    (crosses : wayTo s d target = .crosses)
    (room : (Sp.get [] (s.domain target).invq (bankOf s target line)).length < 64) :
    exec (.invalidationAccept d line target) s = .next (acceptedInval s d line target i) := by
  rw [show exec (.invalidationAccept d line target) s = execInvalidationAccept d line target s from rfl]
  simp only [execInvalidationAccept, unsnooped, busy, crosses, ne_eq, not_true_eq_false, if_false, if_neg (Nat.not_le.mpr room)]
  rfl

theorem acceptedInval_busy : ((acceptedInval s d line target i).domain d).busy = (s.domain d).busy.erase i := by
  rw [acceptedInval, State.domain_setDomain]
  split
  · next same => subst same; rw [State.domain_setDomain_same]
  · rw [State.domain_setDomain_same]

theorem acceptedInval_queue : Sp.get [] ((acceptedInval s d line target i).domain target).invq (bankOf s target line) =
    Sp.get [] (s.domain target).invq (bankOf s target line) ++ [line] := by
  rw [acceptedInval, State.domain_setDomain_same, Sp.get_put_same]

end

/-- What a bank is to do with the oldest invalidation of its queue. -/
def dequeued (s : State) (d bank : Nat) (q : List Nat) : State :=
  s.setDomain d { s.domain d with invq := Sp.set [] (s.domain d).invq bank q }

theorem exec_invalidationApply {s : State} {d bank line : Nat} {q : List Nat}
    (queue : Sp.get [] (s.domain d).invq bank = line :: q) :
    exec (.invalidationApply d bank) s = .next (applyInval (dequeued s d bank q) d line) := by
  rw [show exec (.invalidationApply d bank) s = execInvalidationApply d bank s from rfl]
  simp only [execInvalidationApply, queue]
  rfl

section
variable (s : State) (d bank line : Nat) (q : List Nat)

theorem dequeued_remLine : (dequeued s d bank q).remLine d line = s.remLine d line := by
  rw [State.remLine, dequeued, State.domain_setDomain_same, State.remLine]

theorem dequeued_invq : Sp.get [] ((dequeued s d bank q).domain d).invq bank = q := by
  rw [dequeued, State.domain_setDomain_same]
  exact (Sp.get_set _ _ _ _ _).trans (if_pos rfl)

/-- An invalidation keeps main DRAM and the queues. -/
theorem applyInval_kept_queues (u : State) : (applyInval u d line).mem = u.mem ∧
    ((applyInval u d line).domain d).invq = (u.domain d).invq := by
  cases copy : u.remLine d line with
  | none => simp only [applyInval, copy, and_self]
  | some c => exact ⟨(applyInval_shrunk copy).mem, (applyInval_shrunk copy).invq⟩

end

/-- The oldest invalidation of a bank's queue is applied. -/
theorem invalidationApply_applies {s : State} {d bank line : Nat} {q : List Nat}
    (queue : Sp.get [] (s.domain d).invq bank = line :: q) :
    ∃ t, exec (.invalidationApply d bank) s = .next t ∧ Sp.get [] (t.domain d).invq bank = q ∧ t.mem = s.mem ∧
      (s.remLine d line = none → t.remLine d line = none) ∧
      (∀ c, s.remLine d line = some c → c.dirty = 0 → t.remLine d line = some { c with valid := 0 }) ∧
      ∀ c, s.remLine d line = some c → ∃ c', t.remLine d line = some c' ∧ c'.dirty = c.dirty ∧
        (∀ i, c.dirty.testBit i = true → c'.data.byte i = c.data.byte i) ∧
        ∀ i, c'.valid.testBit i = true → c.valid.testBit i = true ∧ c.dirty / 2 ^ (64 * i) % 2 ^ 64 ≠ 0 := by
  obtain ⟨mem, invq⟩ := applyInval_kept_queues d line (dequeued s d bank q)
  rw [← dequeued_remLine s d bank line q]
  refine ⟨_, exec_invalidationApply queue, by rw [invq, dequeued_invq], mem, fun none => ?_, fun c copy clean => ?_,
    fun c copy => ?_⟩
  · rw [applyInval, none]
    exact none
  · rw [applyInval_of_clean copy clean, State.remLine_setRem_same]
  · obtain ⟨y, held, shrinks⟩ := (applyInval_shrunk copy).copy
    exact ⟨y, held, shrinks.dirty, shrinks.bytes, fun i hi => CLine.invalidate_valid (shrinks.valid i hi)⟩

/-! ## Invalidations of translations (R221, R455) -/

/-- The TLBINV register after a write. -/
def withTlbinv (s : State) (vi x : Nat) : State := s.setVI vi { s.viface vi with tlbinv := x }

theorem withTlbinv_viface (s : State) (vi x : Nat) : ((withTlbinv s vi x).viface vi).tlbinv = x := by
  rw [withTlbinv, State.viface_setVI_same]

theorem withTlbinv_domsOf (s : State) (vi x : Nat) : (withTlbinv s vi x).domsOf vi = s.domsOf vi := by
  rw [State.domsOf, withTlbinv, State.viface_setVI_same, State.domsOf]

theorem dropTlbs_viface (s : State) (q : InvScope) (vi : Nat) : (dropTlbs s q).viface vi = s.viface vi :=
  (dropTlbs_placesOnly q s).field (fun u => u.viface vi) fun _ => rfl

theorem exec_tlbinv (s : State) (vi v : Nat) : exec (.tlbinv vi v) s =
    .next (if v.testBit 31 = true then
      dropTlbs (withTlbinv s vi (v % 2 ^ 18 + 2 ^ 31)) (invScope (withTlbinv s vi (v % 2 ^ 18 + 2 ^ 31)) vi)
    else withTlbinv s vi (v % 2 ^ 18 + (s.viface vi).tlbinv / 2 ^ 30 * 2 ^ 30)) := by
  rw [show exec (.tlbinv vi v) s = execTlbinv vi v s from rfl]
  unfold execTlbinv
  split <;> rfl

/-- A write with GO leaves no entry that it names. -/
theorem tlbinv_invalidates {s : State} {vi v : Nat} (go : v.testBit 31 = true) :
    ∃ t, exec (.tlbinv vi v) s = .next t ∧ (t.viface vi).tlbinv = v % 2 ^ 18 + 2 ^ 31 ∧
      ∀ c ∈ s.domsOf vi, (∀ e ∈ (t.domain c).tlb, (invScope t vi).hits e = false) ∧
        ∀ e ∈ (t.domain c).walks, (invScope t vi).hitsWalk e = false := by
  refine ⟨_, (exec_tlbinv s vi v).trans (by rw [if_pos go]), ?_, fun c hc => ?_⟩
  · rw [dropTlbs_viface, withTlbinv_viface]
  · generalize hu : withTlbinv s vi (v % 2 ^ 18 + 2 ^ 31) = u
    have scope : invScope (dropTlbs u (invScope u vi)) vi = invScope u vi := by simp only [invScope, dropTlbs_viface]
    have named : c ∈ u.domsOf (invScope u vi).vi := by
      rw [← hu]
      exact (withTlbinv_domsOf s vi _).symm ▸ hc
    rw [scope]
    exact dropTlbs_clear _ named

/-- An invalidation is done where nothing is outstanding and no L1 holds a line. -/
theorem tlbinvDone_ends {s : State} {vi : Nat} (going : (s.viface vi).tlbinv.testBit 31 = true) (ops : s.ops = [])
    (idle : CoresIdle s) :
    ∃ t, exec (.tlbinvDone vi) s = .next t ∧ (t.viface vi).tlbinv = (s.viface vi).tlbinv % 2 ^ 18 + 2 ^ 30 := by
  have idle' := dropTlbs_idle (invScope s vi) idle
  have ops' : (dropTlbs s (invScope s vi)).ops = [] :=
    ((dropTlbs_placesOnly _ s).field State.ops fun _ => rfl).trans ops
  refine ⟨withTlbinv (dropTlbs s (invScope s vi)) vi _, ?_, withTlbinv_viface _ _ _⟩
  rw [show exec (.tlbinvDone vi) s = execTlbinvDone vi s from rfl]
  simp only [execTlbinvDone, going, invPending_of_idle ops' idle', cleanPartition_of_empty idle'.2, Bool.not_true,
    Bool.false_eq_true, if_false, if_true]
  rfl

/-! ## Hash masks (R232) -/

/-- A mask of a domain with no resident block and no remote copy changes, and its L2 is empty then. -/
theorem l2hashWrite_writes {s : State} {d i : Nat} (v : Nat) (hi : i < 4)
    (nonresident : ∀ e ∈ s.blocks, e.2.bst = .resident ∨ e.2.bst = .draining → domOf e.2.core ≠ d)
    (empty : (s.domain d).remote = []) :
    exec (.l2hashWrite d i v) s = .next (s.setDomain d { s.domain d with
      remote := [], plates := [], invq := [], keep := [], l2hash := (s.domain d).l2hash.set i (v % 2 ^ 44) }) := by
  have free : (List.any s.blocks fun e => (e.2.bst == .resident || e.2.bst == .draining) && domOf e.2.core == d) = false := by
    rw [List.any_eq_false]
    intro e he
    simpa using nonresident e he
  rw [show exec (.l2hashWrite d i v) s = execL2hashWrite d i v s from rfl]
  simp only [execL2hashWrite, free, empty, Sp.keys, List.map_nil, tryAll, List.foldl_nil, decide_eq_false (Nat.not_le.mpr hi),
    Bool.or_self, Bool.not_true, Bool.false_eq_true, if_false]

/-! ## Migration (R354, R355) -/

theorem forgetFrame_placesOnly (s : State) (pa size : Nat) : PlacesOnly s (forgetFrame s pa size) := by
  have dropped : ∀ ls : List Nat, DomainsOnly s (ls.foldl (fun s l => dirDrop (dirSend s l 64) l) s) := fun ls =>
    foldl_rel DomainsOnly.refl DomainsOnly.trans _ (fun u l => (dirSend_domainsOnly u l 64).trans (dirDrop_domainsOnly _ l)) ls s
  exact (dropped _).field (fun u => { u with domains := [], cores := [] }) fun _ => rfl

/-- A page that has been copied: main DRAM has its bytes at the new frame, and the caches none of them. -/
def pageCopied (s : State) (m : Migration) : State :=
  forgetFrame (copyFrame s m.old m.new (2 ^ szBits m.sz)) m.new (2 ^ szBits m.sz)

theorem pageCopied_mem (s : State) (m : Migration) : (pageCopied s m).mem = frameCopied s.mem m.old m.new (2 ^ szBits m.sz) :=
  (forgetFrame_placesOnly _ _ _).field State.mem fun _ => rfl

/-- A page that nothing holds back is copied. -/
theorem exec_migrateCopied {s : State} {vi : Nat} {m : Migration} (mig : (s.viface vi).mig = m) (going : m.status = 1)
    (free : ∀ e ∈ s.domains, e.2.owned = []) (quiet : (s.domain (homeOf m.old)).busy = [])
    (crosses : wayTo s (homeOf m.old) (homeOf m.new) = .crosses) :
    exec (.migrateCopied vi) s = .next ((pageCopied s m).setVI vi
      { (pageCopied s m).viface vi with mig := { m with status := 2 } }) := by
  have unowned : (List.any s.domains fun e => e.2.owned.any fun o =>
      decide (o.first * 256 < m.old + 2 ^ szBits m.sz) && decide (m.old < (o.first + o.count) * 256)) = false := by
    rw [List.any_eq_false]
    intro e he
    rw [free e he, List.any_nil]
    exact Bool.false_ne_true
  rw [show exec (.migrateCopied vi) s = execMigrateCopied vi s from rfl]
  simp only [execMigrateCopied, mig, going, unowned, quiet, List.any_nil, crosses, ne_eq, not_true_eq_false,
    Bool.false_eq_true, or_self, if_false]
  rfl

/-- The registers of a virtual interface ask for a migration. -/
def askedMigration (s : State) (vi : Nat) : Migration :=
  let r := (s.viface vi).regs
  { old := r.read 0x480 8, new := r.read 0x488 8, sz := r.read 0x490 4
    status := if migrateRefused s vi (r.read 0x480 8) (r.read 0x488 8) (r.read 0x490 4) then 3 else 1 }

theorem exec_migrateStart {s : State} {vi : Nat} (notCopying : (s.viface vi).mig.status ≠ 1)
    (notCopied : (s.viface vi).mig.status ≠ 2) :
    exec (.migrateStart vi) s = .next (s.setVI vi { s.viface vi with mig := askedMigration s vi }) := by
  rw [show exec (.migrateStart vi) s = execMigrateStart vi s from rfl, execMigrateStart]
  exact if_neg (not_or.mpr ⟨notCopying, notCopied⟩)

theorem exec_migrateFinish {s u : State} {vi : Nat} (copied : (s.viface vi).mig.status = 2)
    (done : (s.viface vi).tlbinv.testBit 31 = false)
    (purged : purgeFrame s vi (s.viface vi).mig.old (2 ^ szBits (s.viface vi).mig.sz) = (true, u)) :
    exec (.migrateFinish vi) s =
      .next (u.setVI vi { u.viface vi with mig := { (s.viface vi).mig with status := 4 } }) := by
  rw [show exec (.migrateFinish vi) s = execMigrateFinish vi s from rfl]
  simp only [execMigrateFinish, copied, done, purged, ne_eq, not_true_eq_false, Bool.false_eq_true, or_self, if_false, if_true]

/-- Settles O46, step by step: what each changes, and what an invalidation that is applied leaves of a remote copy. -/
theorem addressSpaceSteps : Obligations.AddressSpaceSteps := by
  unfold Obligations.AddressSpaceSteps
  intro s d vi v line target bank
  refine ⟨fun b w => parkPendingAdmit_posts, fun i => invalidationAccept_of_host, fun i unsnooped busy crosses room => ?accept,
    fun q => invalidationApply_applies, ?keep, ?asn, ?root, tlbinv_invalidates, ?tlbinv, fun going ops copies empty =>
    tlbinvDone_ends going ops ⟨copies, empty⟩, fun i hi free empty => ?hash, fun notCopying notCopied => ?start,
    fun m mig going free quiet crosses => ?copied, fun u copied done purged => ?finish⟩
  case accept => exact ⟨_, exec_invalidationAccept unsnooped busy crosses room, acceptedInval_busy, acceptedInval_queue⟩
  case keep => exact ⟨_, rfl, State.domain_setDomain_same _ _ _⟩
  case asn =>
    refine ⟨_, rfl, ?_, ?_⟩
    · rw [State.viface_setVI_same, Memory.read_write, show 256 ^ 2 = 2 ^ 16 from rfl]
    · rw [State.viface_setVI_same]
  case root =>
    refine ⟨_, rfl, ?_, fun a other => ?_⟩
    · rw [State.viface_setVI_same, Sp.get_set, if_pos rfl]
    · rw [State.viface_setVI_same, Sp.get_set, if_neg other]
  case tlbinv =>
    intro still
    exact ⟨_, (exec_tlbinv s vi v).trans (by rw [still, if_neg Bool.false_ne_true]), withTlbinv_viface _ _ _⟩
  case hash =>
    refine ⟨_, l2hashWrite_writes v hi free empty, ?_⟩
    rw [State.domain_setDomain_same]
    exact ⟨rfl, rfl, rfl, rfl, rfl⟩
  case start =>
    intro old new sz
    exact ⟨_, exec_migrateStart notCopying notCopied, congrArg VIface.mig (State.viface_setVI_same s vi _)⟩
  case copied =>
    refine ⟨_, exec_migrateCopied mig going free quiet crosses, ?_, fun i hi wf => ?_, fun a ha => ?_⟩
    · rw [State.viface_setVI_same]
    · rw [State.setVI_mem, pageCopied_mem, byte_frameCopied wf _ _ hi]
    · rw [State.setVI_mem, pageCopied_mem, byte_frameCopied_of_not_mem _ _ _ ha]
  case finish => exact ⟨_, exec_migrateFinish copied done purged, congrArg VIface.mig (State.viface_setVI_same u vi _)⟩

end Machine
end Sys2Proof
end

section
/-!
Pre-emption: commands and their decisions, and how a flushed or a saved block leaves its core (R397 to R403).
-/
namespace Sys2Proof

/-- A table whose entries are each changed as their keys say. -/
theorem Sp.find_mapIdx {α β : Type} (f : Nat → α → β) (m : Sp α) (k : Nat) :
    Sp.find? (m.map fun e => (e.1, f e.1 e.2)) k = (Sp.find? m k).map (f k) := by
  induction m with
  | nil => rfl
  | cons e m ih =>
    obtain ⟨j, a⟩ := e
    rw [List.map_cons, Sp.find_cons, Sp.find_cons, ih]
    split
    · next same => rw [same]; rfl
    · rfl

namespace Machine

/-! ## Commands (R397, R399) -/

theorem stopBlock_cmds (s : State) (b : Nat) (m : Method) : (stopBlock s b m).cmds = s.cmds := by
  unfold stopBlock; dsimp only; split <;> rfl

theorem stopBlock_block (s : State) (b c : Nat) (m : Method) :
    (stopBlock s b m).block c = if c = b then { s.block b with method := some m, stopped := true } else s.block c := by
  have stopped : (stopBlock s b m).blocks = Sp.put s.blocks b { s.block b with method := some m, stopped := true } := by
    unfold stopBlock; dsimp only; split <;> rfl
  rw [State.block, stopped, Sp.get_put]
  rfl

theorem applyDecision_cmds (s : State) (n b : Nat) (m : Method) : (applyDecision s n b m).cmds = s.cmds := by
  unfold applyDecision
  dsimp only
  split
  · rfl
  · split
    · rfl
    · exact stopBlock_cmds _ b m

theorem setBlock_under {s : State} {b : Nat} {k : Block} (h : k.under = (s.block b).under) (c : Nat) :
    ((s.setBlock b k).block c).under = (s.block c).under := by
  rw [State.block_setBlock]
  split
  · next same => rw [same, h]
  · rfl

theorem stopBlock_under (s : State) (b c : Nat) (m : Method) : ((stopBlock s b m).block c).under = (s.block c).under := by
  rw [stopBlock_block]
  split
  · next same => rw [same]
  · rfl

/-- A block that waits under a further command. -/
def underCommand (s : State) (n b : Nat) : State := s.setBlock b { s.block b with under := (s.block b).under ++ [n] }

/-- A decision leaves the block under its command, and the commands of every other block as they were. -/
theorem applyDecision_under (s : State) (n b c : Nat) (m : Method) :
    ((applyDecision s n b m).block c).under = if c = b then (s.block b).under ++ [n] else (s.block c).under := by
  have added : ((applyDecision s n b m).block c).under = ((underCommand s n b).block c).under := by
    unfold applyDecision
    dsimp only
    split
    · rfl
    · split
      · exact setBlock_under (by rfl) c
      · exact stopBlock_under _ b c m
  rw [added, underCommand, State.block_setBlock]
  split <;> rfl

/-- The decisions of a command, each for a block of its scope. -/
def decided (s : State) (c : PreCmd) : State :=
  (List.filter (fun (e : Nat × Block) => c.covers s e.2) s.blocks).foldl
    (fun t e => applyDecision t s.cmds.length e.1 (methodFor s c e.1)) { s with cmds := Sp.put s.cmds s.cmds.length c }

theorem exec_preemptCommand_of_legal {s : State} {vi : Nat} (legal : (readCommand s vi).legal vi = true) :
    exec (.preemptCommand vi 1) s = .next (decided s (readCommand s vi)) := by
  rw [show exec (.preemptCommand vi 1) s = execPreemptCommand vi 1 s from rfl]
  simp only [execPreemptCommand, legal, ne_eq, not_true_eq_false, Bool.not_true, Bool.false_eq_true, if_false]
  rfl

theorem exec_preemptCommand_of_illegal {s : State} {vi : Nat} (illegal : (readCommand s vi).legal vi = false) :
    exec (.preemptCommand vi 1) s = .next (countErr s vi) := by
  rw [show exec (.preemptCommand vi 1) s = execPreemptCommand vi 1 s from rfl]
  simp only [execPreemptCommand, illegal, ne_eq, not_true_eq_false, Bool.not_false, if_false, if_true]

theorem decided_cmds (s : State) (c : PreCmd) : Sp.find? (decided s c).cmds s.cmds.length = some c := by
  have kept := foldl_rel (R := fun u v : State => v.cmds = u.cmds) (fun _ => rfl) (fun h h' => h'.trans h)
    (fun t (e : Nat × Block) => applyDecision t s.cmds.length e.1 (methodFor s c e.1)) (fun t e => applyDecision_cmds t _ _ _)
    (List.filter (fun e => c.covers s e.2) s.blocks) { s with cmds := Sp.put s.cmds s.cmds.length c }
  rw [decided, kept, Sp.find_put_same]

theorem decided_under {s : State} {c : PreCmd} {x : Nat × Block} (hx : x ∈ s.blocks) (covered : c.covers s x.2 = true) :
    s.cmds.length ∈ ((decided s c).block x.1).under := by
  refine foldl_reaches (I := fun _ => True) (P := fun u : State => s.cmds.length ∈ (u.block x.1).under) (x := x)
    (fun _ _ h => h) (fun u _ => ?_) (fun u y h => ?_) (List.mem_filter.mpr ⟨hx, covered⟩) trivial
  · rw [applyDecision_under, if_pos rfl]
    exact List.mem_concat_self
  · rw [applyDecision_under]
    split
    · next same => exact List.mem_append_left _ (same ▸ h)
    · exact h

/-- A command is done once no block waits under it. -/
theorem preemptDone_ends {s : State} {n : Nat} {c : PreCmd} (found : Sp.find? s.cmds n = some c) (going : c.done = false)
    (free : ∀ e ∈ s.blocks, n ∉ e.2.under) :
    ∃ t, exec (.preemptDone n) s = .next t ∧ Sp.find? t.cmds n = some { c with done := true } := by
  have none : (s.blocks.any fun e => e.2.under.contains n) = false := by
    rw [List.any_eq_false]
    intro e he
    simpa using free e he
  have step : exec (.preemptDone n) s =
      .next (raiseEvent { s with cmds := Sp.put s.cmds n { c with done := true } } c.vi c.event) := by
    rw [show exec (.preemptDone n) s = execPreemptDone n s from rfl]
    simp only [execPreemptDone, found, going, none, Bool.or_self, Bool.false_eq_true, if_false]
  refine ⟨_, step, ?_⟩
  rw [raiseEvent, (raiseEvents_hostOnly _ _ _).field State.cmds fun _ => rfl, Sp.find_put_same]

theorem holdLift_lifts {s : State} {vi n : Nat} {c : PreCmd} (found : Sp.find? s.cmds n = some c) (own : vi = 64 ∨ c.vi = vi) :
    ∃ t, exec (.holdLift vi n) s = .next t ∧ Sp.find? t.cmds n = some { c with hold := false } := by
  have step : exec (.holdLift vi n) s = .next { s with cmds := Sp.put s.cmds n { c with hold := false } } := by
    rw [show exec (.holdLift vi n) s = execHoldLift vi n s from rfl]
    simp only [execHoldLift, found, if_pos own]
  exact ⟨_, step, Sp.find_put_same _ _ _⟩

theorem drainBudgetExpire_saves {s : State} {b : Nat} (drains : (s.block b).method = some .drain)
    (resident : (s.block b).bst = .resident) :
    ∃ t, exec (.drainBudgetExpire b) s = .next t ∧ (t.block b).method = some .save ∧ (t.block b).stopped = true := by
  have step : exec (.drainBudgetExpire b) s = .next (stopBlock s b .save) := by
    rw [show exec (.drainBudgetExpire b) s = execDrainBudgetExpire b s from rfl, execDrainBudgetExpire]
    simp [drains, resident]
  refine ⟨_, step, ?_⟩
  rw [stopBlock_block, if_pos rfl]
  exact ⟨rfl, rfl⟩

/-! ## A block that leaves its core (R401, R402) -/

section
variable {s : State} {b : Nat}

theorem forced_of_no_book (book : (s.grid (s.block b).gid).book = none) (m : Method) : forced s b m = s := by
  simp only [forced, duePreempt, bookNext_of_no_book book]

theorem leaveCmd_block {m : Method} (quiet : logPreempt s b m = s) :
    (leaveCmd s b m).block b = { s.block b with method := none, under := [], stopped := false } := by
  rw [State.block, leaveCmd_blocks quiet, Sp.get_put_same]

end

/-! ## Flushing (R401) -/

/-- A block whose operations are discarded, its wefts released where a phase record stands, else gone. -/
def flushedWefts (s : State) (b : Nat) : State :=
  if (s.block b).record.isSome then releaseWefts (discardHeld s b) b else clearWefts (discardHeld s b) b

/-- A block that is to start again from its latest record, with nothing left on its core. -/
def Block.flushed (k : Block) (d : Nat) : Block := { k with
  bst := .queued, hand := none, left := some d, spm := [], spmBad := [], was := [], bars := [], issues := 0, raced := false
  pushed := 0, atoms := [] }

section
variable (s : State) (b : Nat)

theorem flushedWefts_block (c : Nat) : (flushedWefts s b).block c = s.block c := by
  unfold flushedWefts
  split
  · exact releaseWefts_block _ b c
  · rfl

theorem flushedWefts_grid (g : Nat) : (flushedWefts s b).grid g = s.grid g := by
  unfold flushedWefts
  split
  · exact releaseWefts_grid _ b g
  · rfl

theorem flushedWefts_threads : (flushedWefts s b).threads = (clearWefts s b).threads := by
  unfold flushedWefts
  split
  · exact releaseWefts_threads _ b
  · rfl

end

theorem exec_flushRelease {s : State} {b : Nat} (flush : (s.block b).method = some .flush)
    (resident : (s.block b).bst = .resident) (book : (s.grid (s.block b).gid).book = none)
    (done : workDone (discardHeld s b) b = true) :
    exec (.flushRelease b) s = .next (settleCore ((leaveCmd (flushedWefts s b) b .flush).setBlock b
      (((leaveCmd (flushedWefts s b) b .flush).block b).flushed (domOf (s.block b).core))) (s.block b).core) := by
  have goes : ((s.block b).method != some .flush || (s.block b).bst != .resident) = false := by simp [flush, resident]
  rw [show exec (.flushRelease b) s = execFlushRelease b s from rfl]
  simp only [execFlushRelease, forced_of_no_book book, goes, done, Bool.not_true, Bool.false_eq_true, if_false]
  rfl

/-- A flushed block whose work is done is QUEUED again, and its core is free. -/
theorem flushRelease_queues {s : State} {b : Nat} (flush : (s.block b).method = some .flush)
    (resident : (s.block b).bst = .resident) (book : (s.grid (s.block b).gid).book = none)
    (done : workDone (discardHeld s b) b = true) :
    ∃ t, exec (.flushRelease b) s = .next t ∧ (t.block b).bst = .queued ∧ (t.block b).phase = (s.block b).phase ∧
      (t.block b).left = some (domOf (s.block b).core) ∧
        (t.block b).spm = [] ∧ (t.block b).issues = 0 ∧ (t.block b).method = none ∧ (t.block b).under = [] ∧
      ∀ w < 128, ∀ l < 32, Sp.find? t.threads (tkey b w l) = none := by
  have quiet : logPreempt (flushedWefts s b) b .flush = flushedWefts s b :=
    logPreempt_of_no_book (by rw [flushedWefts_block, flushedWefts_grid, book]) _
  have settled := fun t => settleCore_noted t (s.block b).core
  refine ⟨_, exec_flushRelease flush resident book done, ?_⟩
  rw [(settled _).block, State.block_setBlock_same, leaveCmd_block quiet, flushedWefts_block]
  refine ⟨rfl, rfl, rfl, rfl, rfl, rfl, rfl, fun w hw l hl => ?_⟩
  rw [(settled _).threads, State.setBlock_threads, leaveCmd_threads quiet, flushedWefts_threads]
  exact clearWefts_thread s b hw hl

/-! ## Saving (R402 to R408) -/

/-- `v` holds the blocks of `u`, and of each launch its stages and its daybook. -/
structure PlansKept (u v : State) : Prop where
  blocks : v.blocks = u.blocks
  stages : ∀ g, (v.grid g).stages = (u.grid g).stages
  book : ∀ g, (v.grid g).book = (u.grid g).book

namespace PlansKept

theorem refl (u : State) : PlansKept u u := ⟨rfl, fun _ => rfl, fun _ => rfl⟩
theorem trans {u v w : State} (h : PlansKept u v) (h' : PlansKept v w) : PlansKept u w :=
  ⟨h'.blocks.trans h.blocks, fun g => (h'.stages g).trans (h.stages g), fun g => (h'.book g).trans (h.book g)⟩

theorem of_launches {u v : State} (h : LaunchesKept u v) : PlansKept u v :=
  ⟨h.blocks, fun g => by rw [h.grid], fun g => by rw [h.grid]⟩

theorem setGrid {s : State} {gid : Nat} {x : Grid} (stages : x.stages = (s.grid gid).stages)
    (book : x.book = (s.grid gid).book) : PlansKept s (s.setGrid gid x) := by
  refine ⟨rfl, fun g => ?_, fun g => ?_⟩ <;> rw [State.grid_setGrid] <;> split
  · next same => rw [same, stages]
  · rfl
  · next same => rw [same, book]
  · rfl

variable {u v : State} (h : PlansKept u v)
include h

theorem block (b : Nat) : v.block b = u.block b := by rw [State.block, h.blocks, State.block]
theorem launch (b : Nat) : v.launch b = u.launch b := by simp only [State.launch, h.block, h.stages]

end PlansKept

/-- A launch with its rounds changed. -/
def Grid.withRounds (f : Nat → Nat → Nat → Round → Round) (gid : Nat) (x : Grid) : Grid :=
  { x with groups := x.groups.map fun y => (y.1, { y.2 with rounds := y.2.rounds.map fun r => (r.1, f gid y.1 r.1 r.2) }) }

theorem mapRounds_grid (s : State) (f : Nat → Nat → Nat → Round → Round) (g : Nat) :
    (mapRounds s f).grid g = (s.grid g).withRounds f g := by
  have grids : (mapRounds s f).grids = s.grids.map fun e => (e.1, Grid.withRounds f e.1 e.2) := rfl
  rw [State.grid, grids, Sp.get, Sp.find_mapIdx, State.grid, Sp.get]
  cases Sp.find? s.grids g <;> rfl

theorem mapRounds_plans (s : State) (f : Nat → Nat → Nat → Round → Round) : PlansKept s (mapRounds s f) :=
  ⟨rfl, fun g => by rw [mapRounds_grid]; rfl, fun g => by rw [mapRounds_grid]; rfl⟩

theorem setRace_plans (s : State) (gid q : Nat) (r : Race) : PlansKept s (setRace s gid q r) := by
  unfold setRace
  split
  · exact .refl s
  · exact .setGrid rfl rfl

theorem leaveRace_plans (b w : Nat) (s : State) (l : Nat) : PlansKept s (leaveRace b w s l) := by
  have thread : ∀ (u : State) (x : Thread), PlansKept u (u.setThread b w l x) := fun u x => ⟨rfl, fun _ => rfl, fun _ => rfl⟩
  unfold leaveRace
  dsimp only
  split
  · refine PlansKept.trans ?_ (thread _ _)
    split
    · exact .refl s
    · exact setRace_plans s _ _ _
  · exact .refl s

theorem foldl_plans {β : Type*} (f : State → β → State) (h : ∀ s x, PlansKept s (f s x)) (ls : List β) (s : State) :
    PlansKept s (ls.foldl f s) := foldl_rel PlansKept.refl PlansKept.trans f h ls s

theorem loseRounds_plans (s : State) (b : Nat) : PlansKept s (loseRounds s b) := by
  unfold loseRounds
  exact mapRounds_plans s _

theorem withdrawWaits_plans (s : State) (b : Nat) : PlansKept s (withdrawWaits s b) :=
  (loseRounds_plans s b).trans (foldl_plans _ (fun u w => foldl_plans _ (leaveRace_plans b w) (List.range 32) u) _ _)

theorem exec_saveWrite {s u v : State} {b base len : Nat} (save : (s.block b).method = some .save)
    (resident : (s.block b).bst = .resident) (book : (s.grid (s.block b).gid).book = none)
    (done : opsDone (withdrawWaits s b) b = true)
    (fits : ∀ w < (s.launch b).wefts, overCaptured (withdrawWaits s b) b w = false)
    (released : releaseTry (withdrawWaits s b) (s.block b).core .dom = .ok u)
    (hlen : saveLen (u.launch b) (u.block b).pushed = len)
    (free : freeUnits u (u.viOf b) (domOf (s.block b).core) (unitsOf len) = some base)
    (put : putArea u base len (tagged u len (saveArea u b)) (saveBad u b) = .ok v) :
    exec (.saveWrite b) s = .next (leaveSaved v b base len) := by
  have goes : ((s.block b).method != some .save || (s.block b).bst != .resident) = false := by simp [save, resident]
  have none : ((List.range ((withdrawWaits s b).launch b).wefts).any (overCaptured (withdrawWaits s b) b)) = false := by
    rw [(withdrawWaits_plans s b).launch, List.any_eq_false]
    intro w hw
    rw [fits w (List.mem_range.mp hw)]
    exact Bool.false_ne_true
  subst hlen
  rw [show exec (.saveWrite b) s = execSaveWrite b s from rfl]
  simp only [execSaveWrite, forced_of_no_book book, goes, done, none, released, free, put, Bool.not_true, Bool.or_self,
    Bool.false_eq_true, if_false]

theorem leaveSaved_block (v : State) (b base len : Nat) : ((leaveSaved v b base len).block b).bst = .saved ∧
    (((leaveSaved v b base len).block b).area.map fun a => (a.dom, a.base, a.len)) = some (domOf (v.block b).core, base, len) := by
  unfold leaveSaved
  dsimp only
  rw [(settleCore_noted _ _).block, State.block_setBlock_same]
  exact ⟨rfl, rfl⟩

theorem leaveSaved_thread {v : State} {b : Nat} (book : (v.grid (v.block b).gid).book = none) (base len : Nat) {w l : Nat}
    (hw : w < 128) (hl : l < 32) : Sp.find? (leaveSaved v b base len).threads (tkey b w l) = none := by
  have quiet : logPreempt (shelveWefts v b) b .save = shelveWefts v b :=
    logPreempt_of_no_book (s := shelveWefts v b) book .save
  unfold leaveSaved
  dsimp only
  rw [(settleCore_noted _ _).threads, State.setBlock_threads, leaveCmd_threads quiet]
  exact clearWefts_thread v b hw hl

/-- A block that can be saved is SAVED, its area in its domain's context region, and its core is free. -/
theorem saveWrite_saves {s u v : State} {b base len : Nat} (save : (s.block b).method = some .save)
    (resident : (s.block b).bst = .resident) (book : (s.grid (s.block b).gid).book = none)
    (done : opsDone (withdrawWaits s b) b = true)
    (fits : ∀ w < (s.launch b).wefts, overCaptured (withdrawWaits s b) b w = false)
    (released : releaseTry (withdrawWaits s b) (s.block b).core .dom = .ok u)
    (hlen : saveLen (u.launch b) (u.block b).pushed = len)
    (free : freeUnits u (u.viOf b) (domOf (s.block b).core) (unitsOf len) = some base)
    (put : putArea u base len (tagged u len (saveArea u b)) (saveBad u b) = .ok v) :
    ∃ t, exec (.saveWrite b) s = .next t ∧ (t.block b).bst = .saved ∧
      ((t.block b).area.map fun a => (a.dom, a.base, a.len)) = some (domOf (s.block b).core, base, len) ∧
      ∀ w < 128, ∀ l < 32, Sp.find? t.threads (tkey b w l) = none := by
  have kept : PlansKept s v := (withdrawWaits_plans s b).trans (.of_launches
    (((releaseTry_keeps _ _ _).of_ok released).trans ((putArea_keeps u _ _ _ _).of_ok put)))
  have noBook : (v.grid (v.block b).gid).book = none := by rw [kept.block, kept.book, book]
  obtain ⟨saved, area⟩ := leaveSaved_block v b base len
  rw [kept.block] at area
  exact ⟨_, exec_saveWrite save resident book done fits released hlen free put, saved, area,
    fun w hw l hl => leaveSaved_thread noBook base len hw hl⟩

end Machine
end Sys2Proof
end

section
/-!
The answers of system software to fault-queue entries, the end of a copy that is not to go on, and a parity error of an
L1 tag (R220, R284, R384 to R386, R394, R456).
-/
namespace Sys2Proof.Machine
open Sys2Proof

/-! ## Entries and handles (R384, R456) -/

section
variable {s : State} {vi n : Nat}

theorem actOn_stale (stale : answered s vi n = none) (resume : Bool) : actOn s vi n resume = countErr s vi := by
  simp only [actOn, stale]

theorem actOn_near {f : FaultRef} (found : answered s vi n = some f) (near : domOf (faultCore s f) = s.leadDom vi)
    (resume : Bool) : actOn s vi n resume = answer s vi n resume := by
  simp only [actOn, found, near, if_true]

theorem actOn_far {f : FaultRef} (found : answered s vi n = some f) (far : domOf (faultCore s f) ≠ s.leadDom vi)
    (resume : Bool) : actOn s vi n resume = sendMessage { s with nextMessage := s.nextMessage + 1 } s.nextMessage
      { part := vi, name := s.coreName (faultCore s f), src := s.leadDom vi, handle := n, resume := resume } := by
  simp only [actOn, found, far, if_false]

/-- A weft's entry, answered where its core is. -/
theorem actOn_weft {b w : Nat} (found : answered s vi n = some (.weft b w)) (near : domOf (s.block b).core = s.leadDom vi)
    (resume : Bool) : actOn s vi n resume = resumeWeft s b w (!resume) := by
  rw [actOn_near found near]
  simp only [answer, found]

/-- The same of a copy's. -/
theorem actOn_copy {core slot : Nat} (found : answered s vi n = some (.engine core slot)) (near : domOf core = s.leadDom vi)
    (resume : Bool) : actOn s vi n resume = resumeCopy s core slot resume := by
  rw [actOn_near found near]
  simp only [answer, found]

theorem exec_fqResume : exec (.fqResume vi n) s = .next (actOn s vi n true) := rfl

/-- DELIVER and ABORT are one answer. -/
theorem exec_of_deliver_or_abort {i : Instr} (hi : i ∈ [Instr.fqDeliver vi n, .fqAbort vi n]) :
    exec i s = .next (actOn s vi n false) := by
  obtain rfl | rfl := List.mem_pair.mp hi <;> rfl

theorem exec_fqpop_of_entry {f : FaultRef}
    (oldest : List.find? (fun f => faultVI s f == vi && !s.popped.contains f) s.faults = some f) :
    exec (.fqpop vi) s =
      .next { s.setVI vi { s.viface vi with fqLast := handleOf s f } with popped := s.popped ++ [f] } := by
  rw [show exec (.fqpop vi) s = execFqpop vi s from rfl]
  simp only [execFqpop, oldest]

theorem exec_fqpop_of_empty (none : List.find? (fun f => faultVI s f == vi && !s.popped.contains f) s.faults = none) :
    exec (.fqpop vi) s = .next (s.setVI vi { s.viface vi with fqLast := 0 }) := by
  rw [show exec (.fqpop vi) s = execFqpop vi s from rfl]
  simp only [execFqpop, none]

end

theorem State.unpost_faults (s : State) (f : FaultRef) : f ∉ (s.unpost f).faults := by
  intro h
  simpa using (List.mem_filter.mp h).2

/-! ## The end of a weft's entry (R385, R386) -/

/-- A weft that is no longer parked, its entry ended. -/
def unparked (s : State) (b w : Nat) : State :=
  (s.unpost (.weft b w)).setWeft b w { s.weft b w with wst := .active, park := none, parkOp := none, atIssue := false }

section
variable {s u : State} {b w : Nat}

theorem unparked_park (only : ThreadsOnly (unparked s b w) u) : (u.weft b w).park = none ∧ (u.weft b w).wst = .active := by
  rw [only.field (fun t => t.weft b w) fun _ => rfl, unparked, State.weft_setWeft_same]
  exact ⟨rfl, rfl⟩

/-- What an answered weft is: ACTIVE, or FINISHED where none of its lanes has an instruction left. -/
theorem finishCheck_unparked (only : ThreadsOnly (unparked s b w) u) :
    ((finishCheck u b w).weft b w).park = none ∧ FaultRef.weft b w ∉ (finishCheck u b w).faults ∧
      (((finishCheck u b w).weft b w).wst = .active ∨ ((finishCheck u b w).weft b w).wst = .finished) := by
  obtain ⟨park, active⟩ := unparked_park only
  have faults : FaultRef.weft b w ∉ u.faults :=
    (only.field State.faults fun _ => rfl).symm ▸ State.unpost_faults s (.weft b w)
  unfold finishCheck
  split
  · rw [State.weft_setWeft_same]
    exact ⟨park, faults, .inr rfl⟩
  · exact ⟨park, faults, .inl active⟩

theorem resumeWeft_resume {e : FqEntry} (parked : (s.weft b w).park = some e) :
    resumeWeft s b w false = finishCheck (unparked s b w) b w := by
  have park := (unparked_park (ThreadsOnly.refl (unparked s b w))).1
  unfold unparked at park ⊢
  simp only [resumeWeft, parked, Bool.false_and, Bool.not_false, if_true, Bool.false_eq_true, if_false, park, Option.isSome_none]

/-- The lanes that are to reissue the instruction that faulted, under DELIVER. -/
def lanesToReissue (e : FqEntry) : List Nat := (maskLanes e.issue).filter fun l => !e.done.testBit l

/-- The lanes under DELIVER, and what was captured of each. -/
def armed (s : State) (b w : Nat) (e : FqEntry) : State :=
  (List.range 32).foldl (armParked b w) ((lanesToReissue e).foldl (armDeliver b w) (unparked s b w))

theorem armParked_threadsOnly (t : State) (l : Nat) : ThreadsOnly t (armParked b w t l) := by
  unfold armParked
  dsimp only
  split
  · exact .refl t
  · exact .setThread t b w l _

theorem armed_threadsOnly (e : FqEntry) : ThreadsOnly (unparked s b w) (armed s b w e) :=
  (foldl_rel ThreadsOnly.refl ThreadsOnly.trans _ (fun t l => .setThread t b w l _) (lanesToReissue e) _).trans
    (foldl_rel ThreadsOnly.refl ThreadsOnly.trans _ armParked_threadsOnly (List.range 32) _)

theorem resumeWeft_deliver {e : FqEntry} (parked : (s.weft b w).park = some e) (kind : e.kind = 1)
    (atIssue : (s.weft b w).atIssue = true) (cause : e.cause ≠ Cause.integrity.code) :
    resumeWeft s b w true = finishCheck (armed s b w e) b w := by
  have park := (unparked_park (armed_threadsOnly (s := s) (b := b) (w := w) e)).1
  have other : (e.cause == Cause.integrity.code) = false := beq_eq_false_iff_ne.mpr cause
  unfold armed unparked lanesToReissue at park ⊢
  simp only [resumeWeft, parked, kind, atIssue, other, beq_self_eq_true, Bool.and_true, Bool.false_and, Bool.and_false,
    Bool.not_true, if_true, Bool.false_eq_true, if_false, park, Option.isSome_none]

theorem armDeliver_deliver (t : State) (ls : List Nat) (l : Nat) :
    ((ls.foldl (armDeliver b w) t).thread b w l).deliver = ((t.thread b w l).deliver || decide (l ∈ ls)) := by
  induction ls generalizing t with
  | nil => simp
  | cons k ls ih =>
    rw [List.foldl_cons, ih, armDeliver, State.thread_setThread]
    by_cases same : l = k
    · simp [same]
    · rw [if_neg (mt (tkey_lane b w l k).mp same)]
      simp [same]

theorem armParked_deliver (t : State) (ls : List Nat) (l : Nat) :
    ((ls.foldl (armParked b w) t).thread b w l).deliver = (t.thread b w l).deliver := by
  refine foldl_rel (R := fun u v : State => (v.thread b w l).deliver = (u.thread b w l).deliver) (fun _ => rfl)
    (fun h h' => h'.trans h) _ (fun u k => ?_) ls t
  unfold armParked
  dsimp only
  split
  · rfl
  · rw [State.thread_setThread]
    split
    · next same => rw [(tkey_lane b w l k).mp same]
    · rfl

theorem armed_deliver (e : FqEntry) {l : Nat} (hl : l < 32) : ((armed s b w e).thread b w l).deliver =
    ((s.thread b w l).deliver || (e.issue.testBit l && !e.done.testBit l)) := by
  have named : l ∈ lanesToReissue e ↔ (e.issue.testBit l && !e.done.testBit l) = true := by
    rw [lanesToReissue, List.mem_filter, mem_maskLanes, Bool.and_eq_true, and_iff_right hl]
  rw [armed, armParked_deliver, armDeliver_deliver]
  simp only [named, Bool.decide_eq_true]
  rfl

end

/-! ## The end of a copy's entry (R281 to R284, R385) -/

/-- A copy that has ended: its slot is free, its counter entry retired, its failure left to a WAITCNT. -/
def copyEnded (s : State) (core slot : Nat) (c : Copy) : State :=
  let x := s.weft c.blk c.weft
  let u := s.setWeft c.blk c.weft { x with
    cp := countDone x.cp c.op
    failures := if (c.bar.isNone || blockOver s c.blk) && c.status != 0 then
      x.failures ++ [{ cls := .copy, seq := c.seq, op := c.op, code := c.status, addr := c.addr }] else x.failures }
  let v := u.setCore core { u.core core with copies := Sp.del (u.core core).copies slot }
  endRecalls (v.setDomain (domOf core) { v.domain (domOf core) with
    owned := (v.domain (domOf core)).owned.filter fun o => !(o.core == core && o.slot == slot) }) (domOf core)

section
variable (s : State) (core slot : Nat) (c : Copy)

theorem endCopy_eq_of_no_barrier (h : c.bar = none) (landed : Nat) : endCopy s core slot c landed = copyEnded s core slot c := by
  unfold endCopy copyEnded
  simp only [h]

theorem endCopy_eq_of_barrier {m : Nat} (h : c.bar = some m) (landed : Nat) : endCopy s core slot c landed =
    barUpdate (copyEnded s core slot c) c.blk m
      { arrivals := 1, landed := landed, fail := if c.status = 0 then none else some (1, c.status, c.addr) } := by
  unfold endCopy copyEnded
  simp only [h]

theorem endRecalls_domainsOnly (d : Nat) : DomainsOnly s (endRecalls s d) := by
  unfold endRecalls
  split
  · exact .refl s
  · exact setDomain_domainsOnly s d _

/-- Beside the domains, a copy's end changes its weft and its core. -/
theorem copyEnded_field {α : Sort*} (f : State → α) (hf : ∀ u : State, f { u with domains := [], cores := [], wefts := [] } = f u) :
    f (copyEnded s core slot c) = f s := by
  have domains : ∀ u v : State, DomainsOnly u v → f v = f u := fun u v h => by
    rw [← hf v, ← hf u]
    exact h.field (fun t => f { t with domains := [], cores := [], wefts := [] }) fun _ => rfl
  unfold copyEnded
  dsimp only
  rw [domains _ _ (endRecalls_domainsOnly _ _), domains _ _ (setDomain_domainsOnly _ _ _), ← hf, ← hf s]
  rfl

theorem copyEnded_copy : (copyEnded s core slot c).copy? core slot = none := by
  unfold copyEnded
  dsimp only
  rw [(endRecalls_domainsOnly _ _).field (fun t => t.copy? core slot) fun _ => rfl,
    (setDomain_domainsOnly _ _ _).field (fun t => t.copy? core slot) fun _ => rfl, State.copy?, State.core_setCore_same,
    Sp.find_del_same]

theorem copyEnded_weft : (copyEnded s core slot c).weft c.blk c.weft = { s.weft c.blk c.weft with
    cp := countDone (s.weft c.blk c.weft).cp c.op
    failures := if (c.bar.isNone || blockOver s c.blk) && c.status != 0 then (s.weft c.blk c.weft).failures ++
      [{ cls := .copy, seq := c.seq, op := c.op, code := c.status, addr := c.addr }] else (s.weft c.blk c.weft).failures } := by
  unfold copyEnded
  dsimp only
  rw [(endRecalls_domainsOnly _ _).field (fun t => t.weft c.blk c.weft) fun _ => rfl,
    (setDomain_domainsOnly _ _ _).field (fun t => t.weft c.blk c.weft) fun _ => rfl]
  exact State.weft_setWeft_same s c.blk c.weft _

end

/-- A copy that is not to go on after its fault. -/
def Copy.aborted (x : Copy) : Copy :=
  { x with fault := none, status := 1, addr := (x.fault.map FqEntry.addr).getD x.addr, pend := [] }

section
variable {s : State} {core slot : Nat} {x : Copy} (found : s.copy? core slot = some x)
include found

theorem resumeCopy_resume : resumeCopy s core slot true =
    (s.unpost (.engine core slot)).setCopy core slot { x with fault := none } := by
  simp only [resumeCopy, found, if_true]

theorem resumeCopy_abort : resumeCopy s core slot false = endCopy (s.unpost (.engine core slot)) core slot x.aborted 0 := by
  simp only [resumeCopy, found, Bool.false_eq_true, if_false]
  rfl

end

theorem State.copy_setCopy_same (s : State) (core slot : Nat) (c : Copy) : (s.setCopy core slot c).copy? core slot = some c := by
  rw [State.copy?, State.setCopy, State.core_setCore_same, Sp.find_put_same]

theorem copyEnded_faults (s : State) (core slot : Nat) (c : Copy) :
    FaultRef.engine core slot ∉ (copyEnded (s.unpost (.engine core slot)) core slot c).faults := by
  rw [copyEnded_field _ core slot c State.faults fun _ => rfl]
  exact State.unpost_faults s _

/-! ## A parity error of an L1 tag (R394) -/

/-- A weft that has parked on a parity error, with an entry that names no lane. -/
def ParityParked (x : Weft) : Prop := x.wst = .parked ∧
  (x.park.map fun p => (p.kind, p.cause, p.reason, p.issue, p.done)) = some (1, Cause.integrity.code, 1, 0, 0)

section
variable {s : State} {b w : Nat}

theorem parkParity_parks (fresh : (s.weft b w).park = none) : ParityParked ((parkParity s b w).weft b w) := by
  obtain ⟨p, weft⟩ := parkWeft_weft (s := s.fresh.2) (b := b) (w := w) fresh
    (faultEntry s.fresh.2 b w 1 { cause := .integrity, reason := 1 } 0 0 (Config.freePc s.fresh.1)) false
  rw [parkParity, weft]
  exact ⟨rfl, rfl⟩

theorem State.weft_of_key {b' w' : Nat} (h : wkey b w = wkey b' w') : s.weft b w = s.weft b' w' := by
  rw [State.weft, h, State.weft]

theorem parkParity_other {b' w' : Nat} (h : wkey b w ≠ wkey b' w') : (parkParity s b' w').weft b w = s.weft b w := by
  unfold parkParity
  cases park : (s.weft b' w').park.isSome with
  | true =>
    rw [parkWeft_parked (s := s.fresh.2) park]
    rfl
  | false =>
    obtain ⟨x, -, wefts⟩ := parkWeft_wefts (s := s.fresh.2) park (faultEntry s.fresh.2 b' w' 1
      { cause := .integrity, reason := 1 } 0 0 (Config.freePc s.fresh.1)) false
    rw [State.weft, wefts, ← State.weft, State.weft_setWeft, if_neg h]
    rfl

theorem parkParity_keepsParked {b' w' : Nat} (h : ParityParked (s.weft b w)) : ParityParked ((parkParity s b' w').weft b w) := by
  by_cases same : wkey b w = wkey b' w'
  · have parked : (s.weft b' w').park.isSome = true := by
      rw [← State.weft_of_key same]
      cases park : (s.weft b w).park with
      | none => rw [ParityParked, park] at h; cases h.2
      | some e => rfl
    rw [parkParity, parkWeft_parked (s := s.fresh.2) parked]
    exact h
  · rw [parkParity_other same]
    exact h

/-- A weft that is to park, or has. -/
def ParityDue (x : Weft) : Prop := x.park = none ∨ ParityParked x

theorem parkParity_settles (h : ParityDue (s.weft b w)) : ParityParked ((parkParity s b w).weft b w) :=
  h.elim parkParity_parks parkParity_keepsParked

theorem parkParity_keepsDue {b' w' : Nat} (h : ParityDue (s.weft b w)) : ParityDue ((parkParity s b' w').weft b w) := by
  by_cases same : wkey b w = wkey b' w'
  · have due : ParityDue (s.weft b' w') := State.weft_of_key same ▸ h
    rw [State.weft_of_key same]
    exact .inr (parkParity_settles due)
  · rw [parkParity_other same]
    exact h

end

theorem parkParity_trapsOnly (s : State) (b w : Nat) : TrapsOnly s.fresh.2 (parkParity s b w) := parkWeft_trapsOnly _ b w _ _

/-- The ACTIVE wefts of the blocks of a core, each block's in their order. -/
def activeWefts (s : State) (core : Nat) : List (Nat × Nat) :=
  (((s.onCore core).map fun e => (List.range (s.launch e.1).wefts).map fun w => (e.1, w)).flatten).filter
    fun x => (s.weft x.1 x.2).wst == .active

theorem mem_activeWefts {s : State} {core w : Nat} {e : Nat × Block} (he : e ∈ s.onCore core) (hw : w < (s.launch e.1).wefts)
    (active : (s.weft e.1 w).wst = .active) : (e.1, w) ∈ activeWefts s core :=
  List.mem_filter.mpr ⟨List.mem_flatten.mpr ⟨_, List.mem_map.mpr ⟨e, he, rfl⟩,
    List.mem_map.mpr ⟨w, List.mem_range.mpr hw, rfl⟩⟩, beq_iff_eq.mpr active⟩

theorem exec_l1TagParityError {s : State} {core line : Nat} (held : (s.l1Line core line).isSome = true) :
    exec (.l1TagParityError core line) s = .next ((activeWefts s core).foldl
      (fun u x => parkParity u x.1 x.2) (s.dropL1 core line)) := by
  rw [show exec (.l1TagParityError core line) s = execL1TagParityError core line s from rfl, execL1TagParityError,
    if_neg (by rw [Option.isNone_eq_false_iff.mpr held]; exact Bool.false_ne_true)]
  rfl

/-- The line is lost, and every ACTIVE weft of the core parks. -/
theorem l1TagParityError_parks {s : State} {core line : Nat} {c : CLine} (l1 : (s.core core).l1 = [(line, c)]) :
    ∃ t, exec (.l1TagParityError core line) s = .next t ∧ (t.core core).l1 = [] ∧ t.mem = s.mem ∧
      ∀ e ∈ s.onCore core, ∀ w < (s.launch e.1).wefts, (s.weft e.1 w).wst = .active → (s.weft e.1 w).park = none →
        ParityParked (t.weft e.1 w) := by
  have held : s.l1Line core line = some c := by rw [State.l1Line, l1, Sp.find_cons, if_pos rfl]
  have others := foldl_rel (R := fun u v : State => v.cores = u.cores ∧ v.mem = u.mem) (fun _ => ⟨rfl, rfl⟩)
    (fun h h' => ⟨h'.1.trans h.1, h'.2.trans h.2⟩) (fun u (x : Nat × Nat) => parkParity u x.1 x.2)
    (fun u x => ⟨(parkParity_trapsOnly u x.1 x.2).field State.cores fun _ => rfl,
      (parkParity_trapsOnly u x.1 x.2).field State.mem fun _ => rfl⟩) (activeWefts s core) (s.dropL1 core line)
  refine ⟨_, exec_l1TagParityError (by rw [held]; rfl), ?_, others.2, fun e he w hw active fresh => ?_⟩
  · rw [State.core, others.1, ← State.core, State.dropL1, State.core_setCore_same, l1]
    simp [Sp.del]
  · have due : ParityDue ((s.dropL1 core line).weft e.1 w) := .inl fresh
    refine foldl_reaches (I := fun u : State => ParityDue (u.weft e.1 w)) (P := fun u : State => ParityParked (u.weft e.1 w))
      (fun u y h => ?_) (fun u h => ?_) (fun u y h => ?_) (mem_activeWefts he hw active) due
    · exact parkParity_keepsDue h
    · exact parkParity_settles h
    · exact parkParity_keepsParked h

/-- Settles O50: the decisions of commands, the blocks that leave their cores, and the answers to entries, case by case. -/
theorem preemptionAndFaultSteps : Obligations.PreemptionAndFaultSteps := by
  unfold Obligations.PreemptionAndFaultSteps
  intro s b vi n k
  refine ⟨fun legal => ?legal, exec_preemptCommand_of_illegal, drainBudgetExpire_saves, flushRelease_queues,
    fun u base v save resident book done fits released => ?save, fun c => preemptDone_ends, fun c => holdLift_lifts,
    fun f oldest => ?pop, fun none => ?empty, fun stale => ?stale, fun w found far x hx => ?far,
    fun w e found near parked => ?weft, fun core slot x found near copy => ?copy, fun core line c => l1TagParityError_parks⟩
  case legal => exact ⟨_, exec_preemptCommand_of_legal legal, decided_cmds s _, fun x hx covered => decided_under hx covered⟩
  case save =>
    intro len free put
    exact saveWrite_saves save resident book done fits released rfl free put
  case pop =>
    refine ⟨_, exec_fqpop_of_entry oldest, rfl, ?_, rfl⟩
    exact congrArg VIface.fqLast (State.viface_setVI_same s vi _)
  case empty => exact ⟨_, exec_fqpop_of_empty none, congrArg VIface.fqLast (State.viface_setVI_same s vi _), rfl⟩
  case stale =>
    have counted : ∀ i ∈ [Instr.fqDeliver vi n, .fqAbort vi n], exec i s = .next (countErr s vi) := fun i hi =>
      (exec_of_deliver_or_abort hi).trans (congrArg _ (actOn_stale stale false))
    exact ⟨exec_fqResume.trans (congrArg _ (actOn_stale stale true)), counted _ (by simp), counted _ (by simp)⟩
  case far =>
    simp only [List.mem_cons, List.not_mem_nil, or_false] at hx
    obtain rfl | rfl | rfl := hx
    · exact exec_fqResume.trans (congrArg _ (actOn_far found far true))
    · exact (exec_of_deliver_or_abort (by simp)).trans (congrArg _ (actOn_far found far false))
    · exact (exec_of_deliver_or_abort (by simp)).trans (congrArg _ (actOn_far found far false))
  case weft =>
    refine ⟨⟨_, exec_fqResume.trans (congrArg _ (actOn_weft found near true)), ?_⟩, fun kind atIssue cause i hi => ?_⟩
    · rw [Bool.not_true, resumeWeft_resume parked]
      obtain ⟨park, faults, standing⟩ := finishCheck_unparked (ThreadsOnly.refl (unparked s b w))
      exact ⟨park, faults, standing, finishCheck_threads _ b w⟩
    · refine ⟨_, (exec_of_deliver_or_abort hi).trans (congrArg _ (actOn_weft found near false)), ?_⟩
      rw [Bool.not_false, resumeWeft_deliver parked kind atIssue cause]
      obtain ⟨park, faults, -⟩ := finishCheck_unparked (armed_threadsOnly (s := s) (b := b) (w := w) e)
      refine ⟨park, faults, fun l hl => ?_⟩
      rw [State.thread, finishCheck_threads, ← State.thread, armed_deliver e hl]
  case copy =>
    refine ⟨⟨_, exec_fqResume.trans (congrArg _ ((actOn_copy found near true).trans (resumeCopy_resume copy))), State.copy_setCopy_same _ _ _ _,
      State.unpost_faults s _⟩, fun i hi => ?_⟩
    have step := (exec_of_deliver_or_abort hi).trans (congrArg _ ((actOn_copy found near false).trans (resumeCopy_abort copy)))
    refine ⟨fun free => ?_, fun m named => ?_⟩
    · rw [endCopy_eq_of_no_barrier _ core slot x.aborted free] at step
      have weft := copyEnded_weft (s.unpost (.engine core slot)) core slot x.aborted
      refine ⟨_, step, copyEnded_copy _ _ _ _, copyEnded_faults s core slot _, congrArg Weft.cp weft, ?_⟩
      refine (congrArg Weft.failures weft).trans (if_pos ?_)
      rw [show x.aborted.bar = none from free]
      rfl
    · rw [endCopy_eq_of_barrier _ core slot x.aborted named] at step
      exact ⟨_, step, copyEnded_copy _ _ _ _, copyEnded_field _ _ _ _ State.blocks fun _ => rfl, copyEnded_faults s core slot _⟩

end Sys2Proof.Machine
end

section
/-!
Instructions whose lanes wait for one operation (R253), and a trap of every lane after other look-ups of the issue (R126).
-/
namespace Sys2Proof.Machine
open Sys2Proof

/-! ## What the record of an issue leaves of address spaces and seal tables -/

@[simp] theorem noteIssue_viOf (s : State) (b : Nat) : (noteIssue s).viOf b = s.viOf b := by
  simp only [State.viOf, noteIssue_block_gid, noteIssue_grid]

@[simp] theorem noteIssue_asnOf (s : State) (b : Nat) : (noteIssue s).asnOf b = s.asnOf b := by
  simp only [State.asnOf, noteIssue_block_gid, noteIssue_grid]

@[simp] theorem noteIssue_viface (s : State) (v : Nat) : (noteIssue s).viface v = s.viface v := by
  simp only [State.viface, noteIssue_vis]

@[simp] theorem sealsTaken_noteIssue (s : State) (vi : Nat) : sealsTaken (noteIssue s) vi = sealsTaken s vi := by
  simp only [sealsTaken, noteIssue_viface, noteIssue_ops, noteIssue_viOf]

@[simp] theorem ticketCode_noteIssue (s : State) (vi ticket : Nat) : ticketCode (noteIssue s) vi ticket = ticketCode s vi ticket := by
  rw [ticketCode, ticketCode, ticketBusy, ticketBusy, noteIssue_viface]

@[simp] theorem waitOp_noteIssue (s : State) (k : OpKind) : waitOp (noteIssue s) k = waitOp s k := by
  simp only [waitOp, noteIssue_iss, issuedOp_noteIssue]

/-- The record of an issue lies in the threads, the wefts and the blocks. -/
theorem withIssue_noteIssue (s : State) : s.withIssue (noteIssue s) = noteIssue s := by
  have deliver : clearDeliver s = { s with threads := (clearDeliver s).threads } :=
    (clearDeliver_threadsOnly s).field (fun t => { t with threads := (clearDeliver s).threads }) fun _ => rfl
  rw [noteIssue, deliver]
  rfl

/-! ## Lanes that wait (R253) -/

/-- Every lane of the issue set of `s` goes on from its thread in `u`, to wait for operation `id`. -/
def LanesHeld (s u v : State) (id : Nat) : Prop :=
  (∀ l ∈ s.iss.lanes, v.thread s.iss.blk s.iss.weft l = { u.thread s.iss.blk s.iss.weft l with hold := some id }.past s) ∧
    (∀ k, (∀ l ∈ s.iss.lanes, k ≠ tkey s.iss.blk s.iss.weft l) → Sp.find? v.threads k = Sp.find? u.threads k) ∧
    ThreadsOnly u v

theorem holdLanes_held {s u : State} (formed : FormedSet s) (iss : u.iss = s.iss) (o : MemOp) :
    ∃ v, holdLanes u o = addOp v o ∧ LanesHeld s u v u.nextOp := by
  refine ⟨_, rfl, ?_⟩
  rw [iss]
  obtain ⟨lanes, others, rest⟩ := foldl_laneStep (f := fun l => .next { u.lane l with hold := some u.nextOp }) iss formed.nodup
    fun _ _ => rfl
  refine ⟨fun l hl => (lanes l hl).trans ?_, others, rest⟩
  rw [State.lane, iss]
  rfl

/-- Waiting for an operation is all that an instruction does that holds its lanes. -/
theorem leavesWait_holdLanes {s : State} (formed : FormedSet s) (k : OpKind) :
    LeavesWait s (holdLanes (noteIssue s) (waitOp s k)) k := by
  obtain ⟨v, eq, lanes, others, rest⟩ := holdLanes_held formed (noteIssue_iss s) (waitOp s k)
  rw [noteIssue_nextOp] at lanes
  exact ⟨v, ⟨lanes, others, rest⟩, eq⟩

/-! ## The issue of an instruction that names uniform registers alone -/

theorem issue_ready {c : IClass} {ks : List Regs} {s : State} {busy : State → Bool} (hi : Issues c [] ks s) (ready : busy s = false)
    (body : State → State) :
    issue { permitted := fun k => k.permits c, regs := [] } busy body s = .next (body (noteIssue s)) :=
  issue_body hi.1.1 (preCond_none hi.2.1) ready hi.2.2.2 body

/-! ## A trap of every lane (R126, R376) -/

/-- A trap of every lane is each lane's own check, in a state that looked things up before it. -/
theorem foldl_deliverTrap_eq_checkStep (s : State) (c : Cond) (user : c.sys = false) (ls : List Nat) :
    ∀ u : State, u.iss = s.iss →
      ls.foldl (fun v l => deliverTrap v v.iss.blk v.iss.weft l c (laneMask v.iss.lanes) 0) u =
        ls.foldl (checkStep s (fun _ => some c) (laneMask s.iss.lanes) 0) u := by
  induction ls with
  | nil => exact fun _ _ => rfl
  | cons l ls ih =>
    intro u iss
    have step : checkStep s (fun _ => some c) (laneMask s.iss.lanes) 0 u l =
        deliverTrap u u.iss.blk u.iss.weft l c (laneMask u.iss.lanes) 0 := by
      simp only [checkStep, user, Bool.false_eq_true, if_false, iss]
    rw [List.foldl_cons, List.foldl_cons, step]
    exact ih _ ((deliverTrap_iss ..).trans iss)

/-- Lanes in RUN that nothing holds take the trap, whatever was looked up since the issue was recorded. -/
theorem trapAll_trapped {s u : State} {c : Cond} (formed : FormedSet s) (user : c.sys = false) (grids : u.grids = s.grids)
    (run : ∀ l ∈ s.iss.lanes, (s.lane l).tst = .run) (free : ∀ l ∈ s.iss.lanes, (s.lane l).hold = none) :
    ∀ l ∈ s.iss.lanes, Trapped s (trapAll (u.withIssue (noteIssue s)) c) l c := by
  have iss : (u.withIssue (noteIssue s)).iss = s.iss := by rw [State.withIssue_iss, noteIssue_iss]
  have lane : ∀ l, (u.withIssue (noteIssue s)).lane l = (noteIssue s).lane l := fun _ => rfl
  have launch : (u.withIssue (noteIssue s)).launch = (noteIssue s).launch := by
    funext b
    rw [State.launch, State.launch, State.grid, State.grid, State.withIssue_grids, grids, noteIssue_grids]
    rfl
  have ready : ∀ l ∈ s.iss.lanes,
      (u.withIssue (noteIssue s)).thread (u.withIssue (noteIssue s)).iss.blk (u.withIssue (noteIssue s)).iss.weft l =
        (u.withIssue (noteIssue s)).lane l ∧ ((u.withIssue (noteIssue s)).lane l).tst = .run ∧
          ((u.withIssue (noteIssue s)).lane l).hold = none := by
    intro l hl
    refine ⟨rfl, ?_, ?_⟩
    · rw [lane, noteIssue_lane, noteIssue_thread_tst]; exact run l hl
    · rw [lane, noteIssue_lane, noteIssue_thread_hold]; exact free l hl
  intro l hl
  obtain ⟨-, after⟩ := foldl_checkStep (s := u.withIssue (noteIssue s)) (fun _ => some c)
    (laneMask (u.withIssue (noteIssue s)).iss.lanes) 0 s.iss.lanes formed.nodup _ ready rfl
  have trapped := after l hl
  rw [← foldl_deliverTrap_eq_checkStep _ c user s.iss.lanes _ rfl] at trapped
  refine trapped_of_afterCheck (trap := fun _ => some c) (fault := fun _ => none) rfl user ?_
  simp only [AfterCheck, verdict, lane, launch, iss, noteIssue_iss, trapAll] at trapped ⊢
  exact trapped

end Sys2Proof.Machine
end

section
/-!
SEAL, UNSEAL and CWB (R252 to R257), and PINSTALL and PSTATUS (R350 to R353).
-/
namespace Sys2Proof.Machine
open Sys2Proof

/-! ## The range of a SEAL or an UNSEAL (R254) -/

section
variable {base : DWord} {len : Nat}

theorem rangeCond_of_misaligned (bad : base.toNat % 65536 ≠ 0 ∨ len = 0 ∨ len % 65536 ≠ 0) :
    rangeCond base len = some { cause := .misalign, addr := base.toNat, info := 8 } := by
  unfold rangeCond
  exact if_pos (by simpa [or_assoc] using bad)

theorem rangeCond_of_not_canonical (aligned : base.toNat % 65536 = 0) (nonempty : len ≠ 0) (whole : len % 65536 = 0)
    (far : canonical base = false ∨ canonical (base + BitVec.ofNat 64 len - 1) = false) :
    rangeCond base len = some { cause := .translate, reason := 4, addr := base.toNat, info := 8 } := by
  unfold rangeCond
  exact (if_neg (by simp [aligned, nonempty, whole])).trans (if_pos (by simpa using far))

end

/-! ## SEAL, UNSEAL and CWB (R254 to R257) -/

/-- The entry that a SEAL of the registers adds, and an UNSEAL of them takes out. -/
def sealNamed (s : State) (ka kb : KReg) : SealEnt :=
  { asn := s.asnOf s.iss.blk, base := (s.wft.kpair ka.toNat).toNat % 2 ^ 57, len := (s.wft.kreg kb.toNat).toNat }

/-- The state with the issue recorded and an entry taken out of a seal table. -/
def unsealed (s : State) (vi : Nat) (e : SealEnt) : State :=
  (noteIssue s).setVI vi { s.viface vi with seals := (s.viface vi).seals.erase e }

section
variable {s : State} {ka kb : KReg} (hi : Issues .memory [] [(ka.toNat, 2), (kb.toNat, 1)] s)
include hi

theorem execCwb_waits {sc : Scope} (wide : sc ≠ .blk) (nonempty : (s.wft.kreg kb.toNat).toNat ≠ 0) :
    ∃ t, execCwb ka kb sc s = .next t ∧
      LeavesWait s t (.cwb sc (s.wft.kpair ka.toNat).toNat (s.wft.kreg kb.toNat).toNat) := by
  refine ⟨_, issue_ready hi hi.2.2.1 _, ?_⟩
  simp only [noteIssue_wft_kreg, noteIssue_wft_kpair, waitOp_noteIssue, wide, nonempty, or_self, if_false]
  exact leavesWait_holdLanes hi.1 _

theorem execCwb_nothing {sc : Scope} (nothing : sc = .blk ∨ (s.wft.kreg kb.toNat).toNat = 0) :
    ∃ t, execCwb ka kb sc s = .next t ∧ LanesDo s t fun _ x => x.past s := by
  refine ⟨_, issue_ready hi hi.2.2.1 _, ?_⟩
  simp only [noteIssue_wft_kreg, nothing, if_true]
  exact lanesDo_advanceAll hi.1.nodup

/-- A range that is refused is refused alike by both. -/
theorem exec_of_refused_range {c : Cond} (refused : rangeCond (s.wft.kpair ka.toNat) (s.wft.kreg kb.toNat).toNat = some c) :
    ∀ i ∈ ([.sealLines ka kb, .unsealLines ka kb] : List Instr), exec i s = .next (trapAll (noteIssue s) c) := by
  intro i h
  obtain rfl | rfl := List.mem_pair.mp h
  · refine (issue_ready hi hi.2.2.1 _ : execSealLines ka kb s = _).trans ?_
    simp only [noteIssue_wft_kreg, noteIssue_wft_kpair, refused]
  · refine (issue_ready hi hi.2.2.1 _ : execUnsealLines ka kb s = _).trans ?_
    simp only [noteIssue_wft_kreg, noteIssue_wft_kpair, refused]

variable (pass : rangeCond (s.wft.kpair ka.toNat) (s.wft.kreg kb.toNat).toNat = none)
include pass

theorem execSealLines_waits (room : sealsTaken s (s.viOf s.iss.blk) < 256) :
    ∃ t, execSealLines ka kb s = .next t ∧
      LeavesWait s t (.sealOp ((s.wft.kpair ka.toNat).toNat % 2 ^ 57) (s.wft.kreg kb.toNat).toNat) := by
  refine ⟨_, issue_ready hi hi.2.2.1 _, ?_⟩
  simp only [noteIssue_wft_kreg, noteIssue_wft_kpair, noteIssue_iss, noteIssue_viOf, sealsTaken_noteIssue, waitOp_noteIssue, pass,
    if_neg (Nat.not_le.mpr room)]
  exact leavesWait_holdLanes hi.1 _

theorem execSealLines_full (full : 256 ≤ sealsTaken s (s.viOf s.iss.blk)) :
    execSealLines ka kb s = .next (trapAll (noteIssue s) (sealCond (s.wft.kpair ka.toNat) 2)) := by
  refine (issue_ready hi hi.2.2.1 _).trans ?_
  simp only [noteIssue_wft_kreg, noteIssue_wft_kpair, noteIssue_iss, noteIssue_viOf, sealsTaken_noteIssue, pass, full, if_true]

/-- The lanes of an UNSEAL wait, and but for the operation and the entry nothing else changes. -/
theorem execUnsealLines_takes (held : sealNamed s ka kb ∈ (s.viface (s.viOf s.iss.blk)).seals) :
    ∃ t, execUnsealLines ka kb s = .next t ∧
      LanesDo s { t with ops := s.ops, nextOp := s.nextOp, vis := s.vis } (fun _ x => { x with hold := some s.nextOp }.past s) ∧
      (t.viface (s.viOf s.iss.blk)).seals = (s.viface (s.viOf s.iss.blk)).seals.erase (sealNamed s ka kb) ∧
      t.op? s.nextOp = some (waitOp s (.unsealOp (sealNamed s ka kb).base (s.wft.kreg kb.toNat).toNat)) := by
  have step : execUnsealLines ka kb s = .next (holdLanes (unsealed s (s.viOf s.iss.blk) (sealNamed s ka kb))
      (waitOp s (.unsealOp (sealNamed s ka kb).base (s.wft.kreg kb.toNat).toNat))) := by
    unfold sealNamed at held ⊢
    refine (issue_ready hi hi.2.2.1 _).trans ?_
    simp only [noteIssue_wft_kreg, noteIssue_wft_kpair, noteIssue_iss, noteIssue_viOf, noteIssue_asnOf, noteIssue_viface,
      waitOp_noteIssue, pass, List.contains_iff_mem, held, if_true]
    rfl
  obtain ⟨v, eq, lanes, others, rest⟩ := holdLanes_held (u := unsealed s (s.viOf s.iss.blk) (sealNamed s ka kb)) hi.1
    (noteIssue_iss s) (waitOp s (.unsealOp (sealNamed s ka kb).base (s.wft.kreg kb.toNat).toNat))
  have number : (unsealed s (s.viOf s.iss.blk) (sealNamed s ka kb)).nextOp = s.nextOp := noteIssue_nextOp s
  rw [number] at lanes
  have kept : { noteIssue s with ops := s.ops, nextOp := s.nextOp, vis := s.vis } = noteIssue s := by
    rw [← noteIssue_ops s, ← noteIssue_nextOp s, ← noteIssue_vis s]
  have same := rest.field (fun t => { t with threads := [], ops := s.ops, nextOp := s.nextOp, vis := s.vis }) fun _ => rfl
  refine ⟨_, step.trans (congrArg _ eq),
    ⟨lanes, others, same.trans (congrArg (fun t : State => { t with threads := [] }) kept)⟩, ?_, ?_⟩
  · refine (congrArg VIface.seals (rest.field (fun t => t.viface (s.viOf s.iss.blk)) fun _ => rfl)).trans ?_
    rw [unsealed, State.viface_setVI_same]
  · rw [State.op_addOp, if_pos ((rest.field State.nextOp fun _ => rfl).trans number).symm]

theorem execUnsealLines_of_not_mem (absent : sealNamed s ka kb ∉ (s.viface (s.viOf s.iss.blk)).seals) :
    execUnsealLines ka kb s = .next (trapAll (noteIssue s) (sealCond (s.wft.kpair ka.toNat) 3)) := by
  unfold sealNamed at absent
  refine (issue_ready hi hi.2.2.1 _).trans ?_
  simp only [noteIssue_wft_kreg, noteIssue_wft_kpair, noteIssue_iss, noteIssue_viOf, noteIssue_asnOf, noteIssue_viface, pass,
    List.contains_iff_mem, absent, if_false]

end

/-! ## The descriptor of an install (R350, R352) -/

theorem firstBreach_of_destination {m : Memory} {busy : Nat → Bool} (bad : m.read 0 8 % 65536 ≠ 0) :
    firstBreach (installChecks m busy) = some 0 := by
  simp [firstBreach, installChecks, bad]

/-- A ticket that is BUSY refuses a descriptor whose fields before it pass. -/
theorem firstBreach_of_ticketBusy {m : Memory} {busy : Nat → Bool} (dest : m.read 0 8 % 65536 = 0) (src : m.read 8 8 % 256 = 0)
    (whole : m.read 0x10 8 % 65536 = 0) (nonempty : m.read 0x10 8 ≠ 0) (within : m.read 0x10 8 ≤ 4294967296)
    (held : busy (m.read 0x18 4) = true) : firstBreach (installChecks m busy) = some 0x18 := by
  simp [firstBreach, installChecks, dest, src, whole, nonempty, within, held]

theorem descRead_of_not_canonical {s : State} {va : DWord} (core : Nat) (far : canonical va = false) :
    descRead s core va = (.error { cause := .translate, reason := 4, addr := va.toNat, info := 8 }, s) := by
  unfold descRead
  exact if_pos (by rw [far]; rfl)

theorem descRead_of_misaligned {s : State} {va : DWord} (core : Nat) (near : canonical va = true) (off : va.toNat % 64 ≠ 0) :
    descRead s core va = (.error { cause := .misalign, addr := va.toNat, info := 8 }, s) := by
  unfold descRead
  exact (if_neg (by rw [near]; decide)).trans (if_pos (bne_iff_ne.mpr off))

/-! ## PINSTALL (R352) -/

/-- The operation of an install, with the fields of its descriptor. -/
def installKind (m : Memory) : OpKind :=
  .install (m.read 0 8) (m.read 8 8) (m.read 0x10 8) (m.read 0x18 4) (m.read 0x1C 4) (m.read 0x20 2)

/-- A PINSTALL that no lane, ticket table, engraver or TLB miss holds back. -/
structure Installs (s : State) (ka : KReg) : Prop where
  issues : Issues .memory [] [(ka.toNat, 2)] s
  settled : lanesPending s = false
  tickets : ticketsFull s (s.viOf s.iss.blk) = false
  engraver : installsOf s (domOf (s.block s.iss.blk).core) < 64
  misses : missStall s [(s.wft.kpair ka.toNat).toNat] = false

section
variable {s u : State} {ka : KReg} (h : Installs s ka)
include h

theorem Installs.ready :
    (issueBusy s [] [(ka.toNat, 2)] || lanesPending s || false || missStall s [(s.wft.kpair ka.toNat).toNat] ||
      ticketsFull s (s.viOf s.iss.blk) || decide (64 ≤ installsOf s (domOf (s.block s.iss.blk).core))) = false := by
  obtain ⟨⟨-, -, free, -⟩, settled, tickets, engraver, misses⟩ := h
  simp [free, settled, tickets, engraver, misses]

/-- A trap of the address check alone, which looks nothing up. -/
theorem execPinstall_unread {c : Cond} (user : c.sys = false)
    (read : descRead s (s.block s.iss.blk).core (s.wft.kpair ka.toNat) = (.error c, s)) :
    execPinstall ka s = .next (trapAll (noteIssue s) c) := by
  unfold execPinstall
  simp only [read]
  refine (issue_ready h.issues h.ready _).trans ?_
  rw [raiseAll, if_neg (by rw [user]; decide), withIssue_noteIssue]

variable {x : Nat} (read : descRead s (s.block s.iss.blk).core (s.wft.kpair ka.toNat) = (.ok (.ok (x, none)), u))
include read

theorem execPinstall_refused {o : Nat}
    (breach : firstBreach (installChecks (Memory.write [] 0 64 x) (ticketBusy s (s.viOf s.iss.blk))) = some o) :
    execPinstall ka s = .next (trapAll (u.withIssue (noteIssue s))
      { cause := .mxparam, addr := (s.wft.kpair ka.toNat).toNat, info := o }) := by
  unfold execPinstall
  simp only [read, breach]
  exact issue_ready h.issues h.ready _

theorem execPinstall_waits
    (sound : firstBreach (installChecks (Memory.write [] 0 64 x) (ticketBusy s (s.viOf s.iss.blk))) = none) :
    ∃ t id, execPinstall ka s = .next t ∧
      (∀ l ∈ s.iss.lanes, t.thread s.iss.blk s.iss.weft l =
        { (noteIssue s).thread s.iss.blk s.iss.weft l with hold := some id }.past s) ∧
      (t.op? id).map MemOp.kind = some (installKind (Memory.write [] 0 64 x)) := by
  have step : execPinstall ka s = .next (holdLanes (u.withIssue (noteIssue s))
      (waitOp (u.withIssue (noteIssue s)) (installKind (Memory.write [] 0 64 x)))) := by
    unfold execPinstall
    simp only [read, sound]
    exact issue_ready h.issues h.ready _
  obtain ⟨v, eq, lanes, -, rest⟩ := holdLanes_held (u := u.withIssue (noteIssue s)) h.issues.1 (noteIssue_iss s)
    (waitOp (u.withIssue (noteIssue s)) (installKind (Memory.write [] 0 64 x)))
  refine ⟨_, _, step.trans (congrArg _ eq), lanes, ?_⟩
  rw [State.op_addOp, if_pos (rest.field State.nextOp fun _ => rfl).symm]
  rfl

end

/-! ## PSTATUS (R353) -/

/-- The state with the issue recorded and a ticket's code written. -/
def codeWritten (s : State) (kd : KReg) (code : Nat) : State :=
  (noteIssue s).setWeft s.iss.blk s.iss.weft ((noteIssue s).wft.setK kd.toNat (BitVec.ofNat 32 code))

section
variable {s : State} {kd ka : KReg} {code : Nat} (hi : Issues .memory [] [(kd.toNat, 1), (ka.toNat, 1)] s)
  (hc : ticketCode s (s.viOf s.iss.blk) (s.wft.kreg ka.toNat).toNat = code)
include hi hc

theorem execPstatus_pending (pending : code = 2 ∨ code = 9) :
    ∃ t, execPstatus kd ka s = .next t ∧ WeftDoes s t ((noteIssue s).wft.setK kd.toNat (BitVec.ofNat 32 code)) := by
  refine ⟨_, issue_ready hi hi.2.2.1 _, ?_⟩
  simp only [noteIssue_iss, noteIssue_viOf, noteIssue_wft_kreg, ticketCode_noteIssue, hc, pending, if_true]
  exact weftDoes_advanceAll hi.1 _

/-- A final code acquires: the lanes wait for a fence. -/
theorem execPstatus_final (final : ¬ (code = 2 ∨ code = 9)) :
    ∃ t, execPstatus kd ka s = .next t ∧ t.wft = (noteIssue s).wft.setK kd.toNat (BitVec.ofNat 32 code) ∧
      (∀ l ∈ s.iss.lanes, t.thread s.iss.blk s.iss.weft l =
        { (noteIssue s).thread s.iss.blk s.iss.weft l with hold := some s.nextOp }.past s) ∧
      (t.op? s.nextOp).map MemOp.kind = some (.fence .acq .dom) := by
  have iss : (codeWritten s kd code).iss = s.iss := noteIssue_iss s
  have number : (codeWritten s kd code).nextOp = s.nextOp := noteIssue_nextOp s
  have step : execPstatus kd ka s =
      .next (holdLanes (codeWritten s kd code) (waitOp (codeWritten s kd code) (.fence .acq .dom))) := by
    refine (issue_ready hi hi.2.2.1 _).trans ?_
    simp only [noteIssue_iss, noteIssue_viOf, noteIssue_wft_kreg, ticketCode_noteIssue, hc, final, if_false, codeWritten]
  obtain ⟨v, eq, lanes, -, rest⟩ := holdLanes_held hi.1 iss (waitOp (codeWritten s kd code) (.fence .acq .dom))
  rw [number] at lanes
  refine ⟨_, step.trans (congrArg _ eq), ?_, lanes, ?_⟩
  · refine (rest.field State.wft fun _ => rfl).trans ?_
    rw [State.wft, iss, codeWritten, State.weft_setWeft_same]
  · rw [State.op_addOp, if_pos ((rest.field State.nextOp fun _ => rfl).trans number).symm]
    rfl

end

/-! ## FENCE and EVSIG (R252, R253, R373) -/

theorem execFence_waits {s : State} (k : FenceKind) (sc : Scope) (hi : Issues .memory [] [] s) :
    ∃ t, execFence k sc s = .next t ∧ LeavesWait s t (.fence k sc) := by
  refine ⟨_, issue_ready hi hi.2.2.1 _, ?_⟩
  rw [waitOp_noteIssue]
  exact leavesWait_holdLanes hi.1 _

theorem execEvsig_waits {s : State} {ka : KReg} (hi : Issues .sync [] [(ka.toNat, 1)] s) :
    ∃ t, execEvsig ka s = .next t ∧ LeavesWait s t (.evsig ((s.wft.kreg ka.toNat).toNat % 2 ^ 16)) := by
  refine ⟨_, issue_ready hi hi.2.2.1 _, ?_⟩
  rw [waitOp_noteIssue, noteIssue_wft_kreg]
  exact leavesWait_holdLanes hi.1 _

/-- Settles O40: what waits is `holdLanes`, a refused range or address traps before anything is looked up, and a refused
descriptor traps from what its read left. -/
theorem fencesSealsAndInstalls : Obligations.FencesSealsAndInstalls := by
  unfold Obligations.FencesSealsAndInstalls
  refine ⟨fun s ka kb k sc => ?waits, fun s kd ka x u => ?installs, fun s ka kb => ?traps⟩
  case waits =>
    intro base len vi e
    refine ⟨execFence_waits k sc, execEvsig_waits, fun hi => ⟨execCwb_waits hi, execCwb_nothing hi, fun pass =>
      ⟨execSealLines_waits hi pass, execSealLines_full hi pass, execUnsealLines_takes hi pass, execUnsealLines_of_not_mem hi pass⟩⟩⟩
  case installs =>
    intro vi core m code
    refine ⟨fun hi settled tickets engraver misses read sound => ?_, fun hi => ⟨execPstatus_pending hi rfl, fun busy absent => ?_⟩⟩
    · exact execPinstall_waits ⟨hi, settled, tickets, engraver, misses⟩ read sound
    · exact execPstatus_final hi rfl (not_or.mpr ⟨busy, absent⟩)
  case traps =>
    intro base len
    refine ⟨fun hi i h => ⟨fun bad => ?misaligned, fun aligned nonempty whole far => ?far⟩, ?install⟩
    case misaligned => exact exec_of_refused_range hi (rangeCond_of_misaligned bad) i h
    case far => exact exec_of_refused_range hi (rangeCond_of_not_canonical aligned nonempty whole far) i h
    case install =>
      intro vi core hi settled tickets engraver misses run
      have install : Installs s ka := ⟨hi, settled, tickets, engraver, misses⟩
      refine ⟨fun far => execPinstall_unread install rfl (descRead_of_not_canonical core far),
        fun near off => execPinstall_unread install rfl (descRead_of_misaligned core near off), fun x u read grids => ?_⟩
      refine ⟨fun o breach => ⟨_, execPinstall_refused install read breach, ?_⟩, firstBreach_of_destination, firstBreach_of_ticketBusy⟩
      exact trapAll_trapped hi.1 rfl grids run fun l => hold_eq_none_of_not_busy hi.2.2.1

end Sys2Proof.Machine
end

section
/-!
Two tables in canonical form that read alike are equal.
-/
namespace Sys2Proof
namespace Sp

variable {α : Type}

/-- A key below every listed key reads as missing. -/
theorem find_eq_none_of_rising {m : Sp α} {lo k : Nat} (hm : rising lo m = true) (hk : k < lo) : find? m k = none := by
  induction m generalizing lo with
  | nil => rfl
  | cons e m ih =>
    obtain ⟨j, a⟩ := e
    simp only [rising, Bool.and_eq_true, decide_eq_true_eq] at hm
    rw [find_cons, if_neg (by omega), ih hm.2 (by omega)]

/-- Tables whose keys rise are equal where every key finds the same in both. -/
theorem ext_of_rising {m n : Sp α} {lo lo' : Nat} (hm : rising lo m = true) (hn : rising lo' n = true)
    (h : ∀ k, find? m k = find? n k) : m = n := by
  induction m generalizing n lo lo' with
  | nil =>
    cases n with
    | nil => rfl
    | cons e n => obtain ⟨j, a⟩ := e; simpa [find_cons] using h j
  | cons e m ih =>
    cases n with
    | nil => obtain ⟨j, a⟩ := e; simpa [find_cons] using h j
    | cons f n =>
      obtain ⟨j, a⟩ := e
      obtain ⟨k, b⟩ := f
      simp only [rising, Bool.and_eq_true, decide_eq_true_eq] at hm hn
      have below {i x} {y z : Sp α} (hy : rising (i + 1) y = true) (hz : rising (x + 1) z = true) (hi : i < x) {u v : α}
          (eq : find? ((i, u) :: y) i = find? ((x, v) :: z) i) : False := by
        rw [find_cons, if_pos rfl, find_cons, if_neg (by omega), find_eq_none_of_rising hz (by omega)] at eq
        cases eq
      have key : j = k := by
        rcases Nat.lt_trichotomy j k with lt | eq | lt
        · exact (below hm.2 hn.2 lt (h j)).elim
        · exact eq
        · exact (below hn.2 hm.2 lt (h k).symm).elim
      subst key
      have val : a = b := by simpa [find_cons] using h j
      have tail : m = n := by
        refine ih hm.2 hn.2 fun i => ?_
        by_cases hi : i = j
        · rw [hi, find_eq_none_of_rising hm.2 (by omega), find_eq_none_of_rising hn.2 (by omega)]
        · simpa [find_cons, Ne.symm hi] using h i
      rw [val, tail]

theorem ne_of_find {m : Sp α} {d a : α} {k : Nat} (hm : ∀ e ∈ m, e.2 ≠ d) (h : find? m k = some a) : a ≠ d := by
  induction m with
  | nil => cases h
  | cons e m ih =>
    obtain ⟨j, b⟩ := e
    rw [find_cons] at h
    split at h
    · cases h; exact hm _ (List.mem_cons_self ..)
    · exact ih (fun e he => hm e (List.mem_cons_of_mem _ he)) h

/-- In canonical form, what a key reads tells whether it is listed. -/
theorem ext_of_wf [DecidableEq α] {d : α} {m n : Sp α} (hm : wf d m = true) (hn : wf d n = true)
    (h : ∀ k, get d m k = get d n k) : m = n := by
  rw [wf_iff] at hm hn
  refine ext_of_rising hm.1 hn.1 fun k => ?_
  have read := h k
  unfold get at read
  cases hi : find? m k with
  | none =>
    cases hj : find? n k with
    | none => rfl
    | some b => exact absurd (by simpa [hi, hj] using read.symm) (ne_of_find hn.2 hj)
  | some a =>
    cases hj : find? n k with
    | none => exact absurd (by simpa [hi, hj] using read) (ne_of_find hm.2 hi)
    | some b => simpa [hi, hj] using read

end Sp

/-- Settles O3: a memory is a table that lists no zero. -/
theorem canonicalMemoriesAreEqual : Obligations.CanonicalMemoriesAreEqual :=
  fun _ _ hm hn h => Sp.ext_of_wf hm hn h

/-- Settles O5: each word is decoded by evaluation. -/
theorem wordsDecodeAsTheTablesSay : Obligations.WordsDecodeAsTheTablesSay := by
  unfold Obligations.WordsDecodeAsTheTablesSay
  decide

end Sys2Proof
end

section
/-!
Every word that decodes is the encoding of what it decodes to, format by format (R44 to R63).
-/
namespace Sys2Proof

/-! ## Fields that hold codes -/

theorem Order.ofCode_eq_some {n : Nat} {o : Order} : Order.ofCode n = some o ↔ n = o.code := by
  cases o <;> unfold Order.ofCode <;> split <;> simp_all [Order.code]

theorem Scope.ofCode_eq_some {n : Nat} {c : Scope} : Scope.ofCode n = some c ↔ n = c.code := by
  cases c <;> unfold Scope.ofCode <;> split <;> simp_all [Scope.code]

theorem Policy.ofCode_eq_some {n : Nat} {p : Policy} : Policy.ofCode n = some p ↔ n = p.code := by
  cases p <;> unfold Policy.ofCode <;> split <;> simp_all [Policy.code]

theorem AtomFn.ofCode_eq_some {n : Nat} {f : AtomFn} : AtomFn.ofCode n = some f ↔ n = f.code := by
  cases f <;> unfold AtomFn.ofCode <;> split <;> simp_all [AtomFn.code]

theorem AtfFn.ofCode_eq_some {n : Nat} {f : AtfFn} : AtfFn.ofCode n = some f ↔ n = f.code := by
  cases f <;> unfold AtfFn.ofCode <;> split <;> simp_all [AtfFn.code]

theorem FenceKind.ofCode_eq_some {n : Nat} {k : FenceKind} : FenceKind.ofCode n = some k ↔ n = k.code := by
  cases k <;> unfold FenceKind.ofCode <;> split <;> simp_all [FenceKind.code]

theorem CpSize.ofCode_eq_some {n : Nat} {z : CpSize} : CpSize.ofCode n = some z ↔ n = z.code := by
  cases z <;> unfold CpSize.ofCode <;> split <;> simp_all [CpSize.code]

theorem RedOp.ofCode_eq_some {n : Nat} {o : RedOp} : RedOp.ofCode n = some o ↔ n = o.code := by
  cases o <;> unfold RedOp.ofCode <;> split <;> simp_all [RedOp.code]

theorem RedType.ofCode_eq_some {n : Nat} {t : RedType} : RedType.ofCode n = some t ↔ n = t.code := by
  cases t <;> unfold RedType.ofCode <;> split <;> simp_all [RedType.code]

/-- The vb field and the K bit are the parts of the operand's code (R48). -/
theorem Src.code_of_ofCode {k vb : Nat} {b : Src} (hk : k < 2) (hv : vb < 128) (h : Src.ofCode k vb = some b) :
    b.code = vb * 2 ^ 25 + k * 16 := by
  unfold Src.ofCode at h
  split at h
  · cases h
    simp only [Src.code, BitVec.toNat_ofNat]; omega
  · split at h <;> cases h
    simp only [Src.code, BitVec.toNat_ofNat]; omega

/-! ## The arms of the decoder -/

theorem zeros_eq_ok {c : Bool} {i j : Instr} : zeros c i = .ok j ↔ c = true ∧ i = j := by
  cases c <;> simp [zeros]

theorem legal_eq_ok {o : Option Instr} {j : Instr} : legal o = .ok j ↔ o = some j := by
  cases o <;> simp [legal]

theorem guarded_eq_ok {c : Bool} {x : Except Reject Instr} {j : Instr} :
    (if c then x else .error .mustBeZero) = .ok j ↔ c = true ∧ x = .ok j := by
  cases c <;> simp

theorem Order.code_lt (o : Order) : o.code < 3 := by cases o <;> decide
theorem Scope.code_lt (c : Scope) : c.code < 4 := by cases c <;> decide

/-! ## Every word that decodes is the encoding of what it decodes to -/

/-- The word is that of the instruction, of 32 bits. -/
abbrev Encodes (w : Nat) (i : Instr) : Prop := encode i = w ∧ i.len = 4

theorem wordAluA_of_fields {w op : Nat} {b : Src} (hw : w < 2 ^ 32) (hf : w % 16 = 1) (hop : field w 5 6 = op)
    (hb : Src.ofCode (field w 4 1) (field w 25 7) = some b) :
    wordAluA op (BitVec.ofNat 7 (field w 11 7)) (BitVec.ofNat 7 (field w 18 7)) b = w := by
  have code := Src.code_of_ofCode (Nat.mod_lt _ (by decide)) (Nat.mod_lt _ (by decide)) hb
  simp only [wordAluA, BitVec.toNat_ofNat, code, field] at *
  omega

theorem encodes_of_aluA {w : Nat} {i : Instr} (hw : w < 2 ^ 32) (hf : w % 16 = 1) (h : decodeAluA w = .ok i) : Encodes w i := by
  unfold decodeAluA at h
  split at h
  case h_65 => cases h
  all_goals
    next op =>
    obtain ⟨b, hb, rfl⟩ := Option.map_eq_some_iff.mp (legal_eq_ok.mp h)
    exact ⟨wordAluA_of_fields hw hf op hb, rfl⟩

theorem wordAluB_of_fields {w op : Nat} {b : Src} (hw : w < 2 ^ 32) (hf : w % 16 = 3) (hop : field w 5 6 = op)
    (hb : Src.ofCode (field w 4 1) (field w 25 7) = some b) :
    wordAluB op (BitVec.ofNat 7 (field w 11 7)) (BitVec.ofNat 7 (field w 18 7)) b = w := by
  have code := Src.code_of_ofCode (Nat.mod_lt _ (by decide)) (Nat.mod_lt _ (by decide)) hb
  simp only [wordAluB, BitVec.toNat_ofNat, code, field] at *
  omega

theorem toNat_ofNat_field (w lo n : Nat) : (BitVec.ofNat n (field w lo n)).toNat = field w lo n := by
  rw [BitVec.toNat_ofNat, field, Nat.mod_mod]

theorem wordAluBSel_of_fields {w op sel : Nat} {d a : VReg} (hw : w < 2 ^ 32) (hf : w % 16 = 3) (hop : field w 5 6 = op)
    (hd : d.toNat = field w 11 7) (ha : a.toNat = field w 18 7) (hk : field w 4 1 = 0) (hs : sel = field w 25 7) :
    wordAluBSel op d a sel = w := by
  simp only [wordAluBSel, hd, ha, hs]
  unfold field at *
  omega

theorem encodes_of_aluB {w : Nat} {i : Instr} (hw : w < 2 ^ 32) (hf : w % 16 = 3) (h : decodeAluB w = .ok i) : Encodes w i := by
  unfold decodeAluB at h
  split at h
  case h_55 => cases h
  case h_11 | h_12 | h_17 | h_18 | h_29 | h_32 | h_34 | h_35 | h_36 | h_37 | h_38 | h_39 | h_40 | h_41 =>
    next op =>
    obtain ⟨b, hb, rfl⟩ := Option.map_eq_some_iff.mp (legal_eq_ok.mp h)
    exact ⟨wordAluB_of_fields hw hf op hb, rfl⟩
  case h_13 | h_14 | h_15 | h_16 | h_50 | h_51 | h_52 | h_53 =>
    next op =>
    obtain ⟨z, rfl⟩ := zeros_eq_ok.mp h
    refine ⟨?_, rfl⟩
    simp only [Bool.and_eq_true, beq_iff_eq] at z
    change wordAluBSel _ _ _ _ = _
    simp only [wordAluBSel, BitVec.ofNat_eq_ofNat, BitVec.toNat_ofNat]
    unfold field at *
    omega
  all_goals
    next op =>
    obtain ⟨z, rfl⟩ := zeros_eq_ok.mp h
    simp only [Bool.and_eq_true, beq_iff_eq] at z
    exact ⟨wordAluBSel_of_fields hw hf op (toNat_ofNat_field ..) (toNat_ofNat_field ..) z.1 z.2.symm, rfl⟩

theorem encodes_of_imm {w : Nat} {i : Instr} (hw : w < 2 ^ 32) (hf : w % 16 = 5) (h : decodeImm w = .ok i) : Encodes w i := by
  unfold decodeImm at h
  split at h
  case h_15 => cases h
  case h_5 | h_6 | h_7 | h_13 =>
    next op =>
    obtain ⟨z, rfl⟩ := zeros_eq_ok.mp h
    refine ⟨?_, rfl⟩
    simp only [Bool.and_eq_true, beq_iff_eq] at z
    change wordImm _ _ _ _ = _
    simp only [wordImm, BitVec.ofNat_eq_ofNat, BitVec.toNat_ofNat]
    unfold field at *
    omega
  all_goals
    next op =>
    cases h
    refine ⟨?_, rfl⟩
    change wordImm _ _ _ _ = _
    simp only [wordImm, toNat_ofNat_field]
    unfold field at *
    omega

theorem encodes_of_lit {w : Nat} {i : Instr} (hw : w < 2 ^ 32) (hf : w % 16 = 15) (h : decodeLit w = .ok i) : Encodes w i := by
  unfold decodeLit at h
  split at h
  case h_3 => cases h
  all_goals
    next op =>
    cases h
    refine ⟨?_, rfl⟩
    change wordLit _ _ _ = _
    simp only [wordLit, toNat_ofNat_field]
    unfold field at *
    omega

theorem encodes_of_ctl {w : Nat} {i : Instr} (hw : w < 2 ^ 32) (hf : w % 16 = 9) (h : decodeCtl w = .ok i) : Encodes w i := by
  unfold decodeCtl at h
  split at h
  case h_10 => cases h
  case h_5 | h_6 | h_7 =>
    next op =>
    obtain ⟨z, rfl⟩ := zeros_eq_ok.mp h
    refine ⟨?_, rfl⟩
    simp only [beq_iff_eq] at z
    change wordCtl _ _ = _
    simp only [wordCtl, toNat_ofNat_field]
    unfold field at *
    omega
  all_goals
    next op =>
    cases h
    refine ⟨?_, rfl⟩
    change wordCtl _ _ = _
    simp only [wordCtl, toNat_ofNat_field]
    unfold field at *
    omega

theorem wordUniImm_of_fields {w op : Nat} (hw : w < 2 ^ 32) (hf : w % 16 = 11) (hop : field w 4 5 = op) :
    wordUniImm op (BitVec.ofNat 6 (field w 9 6)) (BitVec.ofNat 6 (field w 15 6))
      (BitVec.ofNat 11 (field w 21 6 * 32 + field w 27 5)) = w := by
  have high : field w 21 6 < 2 ^ 6 := Nat.mod_lt _ (by decide)
  have low : field w 27 5 < 2 ^ 5 := Nat.mod_lt _ (by decide)
  have imm : (BitVec.ofNat 11 (field w 21 6 * 32 + field w 27 5)).toNat = field w 21 6 * 32 + field w 27 5 := by
    rw [BitVec.toNat_ofNat, Nat.mod_eq_of_lt (by omega)]
  have halves : (field w 21 6 * 32 + field w 27 5) / 32 = field w 21 6 ∧
      (field w 21 6 * 32 + field w 27 5) % 32 = field w 27 5 := by omega
  simp only [wordUniImm, toNat_ofNat_field, imm, halves.1, halves.2]
  clear high low imm halves
  unfold field at *
  omega

theorem encodes_of_uni {w : Nat} {i : Instr} (hw : w < 2 ^ 32) (hf : w % 16 = 11) (h : decodeUni w = .ok i) : Encodes w i := by
  unfold decodeUni at h
  split at h
  case h_23 => cases h
  case h_10 | h_19 =>
    next op =>
    cases h
    exact ⟨wordUniImm_of_fields hw hf op, rfl⟩
  case h_20 | h_21 =>
    next op =>
    cases h
    refine ⟨?_, rfl⟩
    change wordUniTop _ _ _ = _
    simp only [wordUniTop, toNat_ofNat_field]
    unfold field at *
    omega
  case h_18 =>
    next op =>
    obtain ⟨z, rfl⟩ := zeros_eq_ok.mp h
    refine ⟨?_, rfl⟩
    change wordUniTop _ _ _ = _
    simp only [beq_iff_eq] at z
    simp only [wordUniTop, toNat_ofNat_field]
    unfold field at *
    omega
  all_goals
    next op =>
    obtain ⟨z, rfl⟩ := zeros_eq_ok.mp h
    refine ⟨?_, rfl⟩
    change wordUni _ _ _ _ _ = _
    simp only [beq_iff_eq] at z
    simp only [wordUni, toNat_ofNat_field]
    unfold field at *
    omega

theorem encodes_of_sys {w : Nat} {i : Instr} (hw : w < 2 ^ 32) (hf : w % 16 = 13) (h : decodeSys w = .ok i) : Encodes w i := by
  unfold decodeSys at h
  split at h
  case h_44 => cases h
  case h_8 | h_9 =>
    next op =>
    obtain ⟨z, h⟩ := guarded_eq_ok.mp h
    obtain ⟨y, hy, rfl⟩ := Option.map_eq_some_iff.mp (legal_eq_ok.mp h)
    refine ⟨?_, rfl⟩
    change wordSys _ _ = _
    simp only [beq_iff_eq] at z
    simp only [wordSys, toNat_ofNat_field, ← CpSize.ofCode_eq_some.mp hy]
    unfold field at *
    omega
  case h_10 | h_11 =>
    next op =>
    cases h
    refine ⟨?_, rfl⟩
    change wordSys _ _ = _
    simp only [wordSys, toNat_ofNat_field]
    unfold field at *
    omega
  case h_28 =>
    next op =>
    obtain ⟨z, h⟩ := guarded_eq_ok.mp h
    obtain ⟨k, hk, h⟩ := Option.bind_eq_some_iff.mp (legal_eq_ok.mp h)
    obtain ⟨c, hc, rfl⟩ := Option.map_eq_some_iff.mp h
    refine ⟨?_, rfl⟩
    change wordSys _ _ = _
    simp only [beq_iff_eq] at z
    simp only [wordSys, ← FenceKind.ofCode_eq_some.mp hk, ← Scope.ofCode_eq_some.mp hc]
    unfold field at *
    omega
  case h_31 =>
    next op =>
    obtain ⟨z, h⟩ := guarded_eq_ok.mp h
    obtain ⟨c, hc, rfl⟩ := Option.map_eq_some_iff.mp (legal_eq_ok.mp h)
    refine ⟨?_, rfl⟩
    change wordSys _ _ = _
    simp only [beq_iff_eq] at z
    simp only [wordSys, toNat_ofNat_field, ← Scope.ofCode_eq_some.mp hc]
    unfold field at *
    omega
  case h_41 =>
    next op =>
    obtain ⟨o, ho, h⟩ := Option.bind_eq_some_iff.mp (legal_eq_ok.mp h)
    obtain ⟨t, ht, rfl⟩ := Option.map_eq_some_iff.mp h
    refine ⟨?_, rfl⟩
    change wordSys _ _ = _
    simp only [wordSys, toNat_ofNat_field, ← RedOp.ofCode_eq_some.mp ho, ← RedType.ofCode_eq_some.mp ht]
    unfold field at *
    omega
  all_goals
    next op =>
    obtain ⟨z, rfl⟩ := zeros_eq_ok.mp h
    refine ⟨?_, rfl⟩
    change wordSys _ _ = _
    simp only [Bool.and_eq_true, beq_iff_eq] at z
    simp only [wordSys, toNat_ofNat_field]
    unfold field at *
    omega

theorem encodes_of_mem8 {w space op : Nat} (hw : w < 2 ^ 32) (hf : w % 16 = 7) (hs : field w 4 3 = space) (hop : field w 7 3 = op) :
    wordMem8 space op (BitVec.ofNat 7 (field w 10 7)) (BitVec.ofNat 7 (field w 17 7)) (BitVec.ofNat 8 (field w 24 8)).toNat = w := by
  simp only [wordMem8, toNat_ofNat_field]
  unfold field at *
  omega

theorem encodes_of_spm {w : Nat} {i : Instr} (hw : w < 2 ^ 32) (hf : w % 16 = 7) (hs : field w 4 3 = 0) (h : decodeSpm w = .ok i) :
    Encodes w i := by
  unfold decodeSpm at h
  split at h
  case h_9 => cases h
  all_goals
    next op =>
    cases h
    exact ⟨encodes_of_mem8 hw hf hs op, rfl⟩

theorem encodes_of_plate {w : Nat} {i : Instr} (hw : w < 2 ^ 32) (hf : w % 16 = 7) (hs : field w 4 3 = 3)
    (h : decodePlate w = .ok i) : Encodes w i := by
  unfold decodePlate at h
  split at h
  case h_5 => cases h
  case h_4 =>
    next op =>
    obtain ⟨z, rfl⟩ := zeros_eq_ok.mp h
    have word := encodes_of_mem8 hw hf hs op
    rw [beq_iff_eq.mp z] at word
    exact ⟨word, rfl⟩
  all_goals
    next op =>
    cases h
    exact ⟨encodes_of_mem8 hw hf hs op, rfl⟩

theorem encodes_of_const {w : Nat} {i : Instr} (hw : w < 2 ^ 32) (hf : w % 16 = 7) (hs : field w 4 3 = 4)
    (h : decodeConst w = .ok i) : Encodes w i := by
  unfold decodeConst at h
  split at h
  case h_4 => cases h
  all_goals
    next op =>
    cases h
    exact ⟨encodes_of_mem8 hw hf hs op, rfl⟩

theorem encodes_of_cluster {w : Nat} {i : Instr} (hw : w < 2 ^ 32) (hf : w % 16 = 7) (hs : field w 4 3 = 1)
    (h : decodeCluster w = .ok i) : Encodes w i := by
  unfold decodeCluster at h
  split at h
  case h_9 => cases h
  all_goals
    next op =>
    obtain ⟨o, ho, rfl⟩ := Option.map_eq_some_iff.mp (legal_eq_ok.mp h)
    refine ⟨?_, rfl⟩
    change wordCluster _ _ _ _ _ _ = _
    simp only [wordCluster, toNat_ofNat_field, ← Order.ofCode_eq_some.mp ho]
    unfold field at *
    omega

theorem encodes_of_host {w : Nat} {i : Instr} (hw : w < 2 ^ 32) (hf : w % 16 = 7) (hs : field w 4 3 = 5)
    (h : decodeHost w = .ok i) : Encodes w i := by
  unfold decodeHost at h
  split at h
  case h_8 => cases h
  all_goals
    next op =>
    obtain ⟨z, h⟩ := guarded_eq_ok.mp h
    obtain ⟨o, ho, rfl⟩ := Option.map_eq_some_iff.mp (legal_eq_ok.mp h)
    refine ⟨?_, rfl⟩
    change wordHost _ _ _ _ = _
    simp only [beq_iff_eq] at z
    simp only [wordHost, toNat_ofNat_field, ← Order.ofCode_eq_some.mp ho]
    unfold field at *
    omega

theorem wordGlobal_of_fields {w op top : Nat} {o : Order} {c : Scope} (hw : w < 2 ^ 32) (hf : w % 16 = 7)
    (hs : field w 4 3 = 2) (hop : field w 7 4 = op) (ho : Order.ofCode (field w 25 2) = some o)
    (hc : Scope.ofCode (field w 27 2) = some c) (ht : field w 29 3 = top) :
    wordGlobal op (BitVec.ofNat 7 (field w 11 7)) (BitVec.ofNat 7 (field w 18 7)) o c top = w := by
  simp only [wordGlobal, toNat_ofNat_field, ← Order.ofCode_eq_some.mp ho, ← Scope.ofCode_eq_some.mp hc]
  unfold field at *
  omega

theorem encodes_of_global {w : Nat} {i : Instr} (hw : w < 2 ^ 32) (hf : w % 16 = 7) (hs : field w 4 3 = 2)
    (h : decodeGlobal w = .ok i) : Encodes w i := by
  unfold decodeGlobal at h
  split at h
  case h_17 => cases h
  case h_13 =>
    next op =>
    obtain ⟨z, h⟩ := guarded_eq_ok.mp h
    obtain ⟨p, hp, rfl⟩ := Option.map_eq_some_iff.mp (legal_eq_ok.mp h)
    refine ⟨?_, rfl⟩
    change wordGlobal _ _ _ _ _ _ = _
    simp only [Bool.and_eq_true, beq_iff_eq] at z
    simp only [wordGlobal, toNat_ofNat_field, Order.code, Scope.code, ← Policy.ofCode_eq_some.mp hp, BitVec.ofNat_eq_ofNat, BitVec.toNat_zero]
    unfold field at *
    omega
  case h_14 | h_15 =>
    next op =>
    obtain ⟨f, hf', h⟩ := Option.bind_eq_some_iff.mp (legal_eq_ok.mp h)
    obtain ⟨o, ho, h⟩ := Option.bind_eq_some_iff.mp h
    obtain ⟨c, hc, rfl⟩ := Option.map_eq_some_iff.mp h
    exact ⟨wordGlobal_of_fields hw hf hs op ho hc (AtomFn.ofCode_eq_some.mp hf'), rfl⟩
  case h_16 =>
    next op =>
    obtain ⟨f, hf', h⟩ := Option.bind_eq_some_iff.mp (legal_eq_ok.mp h)
    obtain ⟨o, ho, h⟩ := Option.bind_eq_some_iff.mp h
    obtain ⟨c, hc, rfl⟩ := Option.map_eq_some_iff.mp h
    exact ⟨wordGlobal_of_fields hw hf hs op ho hc (AtfFn.ofCode_eq_some.mp hf'), rfl⟩
  all_goals
    next op =>
    obtain ⟨o, ho, h⟩ := Option.bind_eq_some_iff.mp (legal_eq_ok.mp h)
    obtain ⟨c, hc, h⟩ := Option.bind_eq_some_iff.mp h
    obtain ⟨p, hp, rfl⟩ := Option.map_eq_some_iff.mp h
    exact ⟨wordGlobal_of_fields hw hf hs op ho hc (Policy.ofCode_eq_some.mp hp), rfl⟩

theorem encodes_of_mem {w : Nat} {i : Instr} (hw : w < 2 ^ 32) (hf : w % 16 = 7) (h : decodeMem w = .ok i) : Encodes w i := by
  unfold decodeMem at h
  split at h
  · exact encodes_of_spm hw hf ‹_› h
  · exact encodes_of_cluster hw hf ‹_› h
  · exact encodes_of_global hw hf ‹_› h
  · exact encodes_of_plate hw hf ‹_› h
  · exact encodes_of_const hw hf ‹_› h
  · exact encodes_of_host hw hf ‹_› h
  · cases h

theorem encodes_of_format {w : Nat} {i : Instr} (hw : w < 2 ^ 32) (odd : w % 2 = 1) (h : decodeFormat w = .ok i) : Encodes w i := by
  have low {n : Nat} (hn : field w 1 3 = n) : w % 16 = 2 * n + 1 := by unfold field at hn; omega
  unfold decodeFormat at h
  split at h
  · exact encodes_of_aluA hw (low ‹_›) h
  · exact encodes_of_aluB hw (low ‹_›) h
  · exact encodes_of_imm hw (low ‹_›) h
  · exact encodes_of_mem hw (low ‹_›) h
  · exact encodes_of_ctl hw (low ‹_›) h
  · exact encodes_of_uni hw (low ‹_›) h
  · exact encodes_of_sys hw (low ‹_›) h
  · have top : field w 1 3 = 7 := by
      have : field w 1 3 < 8 := Nat.mod_lt _ (by decide)
      simp only [imp_false] at *
      omega
    exact encodes_of_lit hw (low top) h

theorem checkShape_eq_ok {i j : Instr} : checkShape i = .ok j ↔ i = j ∧ j.WellFormed := by
  unfold checkShape Instr.WellFormed
  split
  · next h => exact ⟨fun e => by cases e; exact ⟨rfl, h⟩, fun e => by rw [e.1]⟩
  · next h => exact ⟨nofun, fun ⟨e, wf⟩ => by rw [e, wf] at h; cases h⟩

theorem decode32_eq_ok {w : Nat} {i : Instr} : decode32 w = .ok i ↔ decodeFormat w = .ok i ∧ i.WellFormed := by
  unfold decode32
  split
  · next j hj => rw [checkShape_eq_ok, hj]; simp
  · next e he => simp [he]

theorem decodeShort_spec {w : Nat} (hw : w < 2 ^ 16) (even : w % 2 = 0) :
    (decodeShort w).WellFormed ∧ encode (decodeShort w) = w ∧ (decodeShort w).len = 2 := by
  have word {op : Nat} (h : field w 1 4 = op) :
      wordShort op (BitVec.ofNat 6 (field w 5 6)) (BitVec.ofNat 5 (field w 11 5)).toNat = w := by
    simp only [wordShort, toNat_ofNat_field]
    unfold field at *
    omega
  unfold decodeShort
  split
  case h_16 => 
    have top : field w 1 4 = 15 := by
      have : field w 1 4 < 16 := Nat.mod_lt _ (by decide)
      simp only [imp_false] at *
      omega
    exact ⟨rfl, word top, rfl⟩
  all_goals exact ⟨rfl, word ‹_›, rfl⟩

/-- Settles O7: a word of 16 bits by `decodeShort_spec`, one of 32 by the format that its low bits name. -/
theorem decodedInstructionEncodesToItsWord : Obligations.DecodedInstructionEncodesToItsWord := by
  intro w i h hw
  unfold decodeWord at h
  split at h
  · next even =>
    rw [if_pos even] at hw ⊢
    cases h
    rw [Nat.mod_eq_of_lt hw]
    exact decodeShort_spec hw even
  · next odd =>
    rw [if_neg odd] at hw ⊢
    rw [Nat.mod_eq_of_lt hw] at h
    obtain ⟨format, wf⟩ := decode32_eq_ok.mp h
    obtain ⟨word, len⟩ := encodes_of_format hw (by omega) format
    exact ⟨wf, word, len⟩

end Sys2Proof
end

section
/-!
Every instruction decodes from its encoding: the field lines of each format, read back by its decoder (R44 to R63).
-/
namespace Sys2Proof

/-- The word has 32 bits, and its format decodes it to the instruction. -/
abbrev DecodesTo (w : Nat) (i : Instr) : Prop := w % 2 = 1 ∧ w < 2 ^ 32 ∧ decodeFormat w = .ok i

theorem ofNat_field {n w lo : Nat} {x : BitVec n} (h : field w lo n = x.toNat) : BitVec.ofNat n (field w lo n) = x := by
  rw [h, BitVec.ofNat_toNat, BitVec.setWidth_eq]

theorem Src.ofCode_of_code {k vb : Nat} {b : Src} (hk : k < 2) (h : b.code = vb * 2 ^ 25 + k * 16) :
    Src.ofCode k vb = some b := by
  cases b with
  | v r =>
    have parts : k = 0 ∧ vb = r.toNat := by simp only [Src.code] at h; omega
    rw [parts.1, parts.2]
    simp [Src.ofCode]
  | k r =>
    have parts : k = 1 ∧ vb = r.toNat := by simp only [Src.code] at h; omega
    rw [parts.1, parts.2]
    simp [Src.ofCode, r.isLt]

theorem Src.code_parts (b : Src) : ∃ k vb, k < 2 ∧ vb < 128 ∧ b.code = vb * 2 ^ 25 + k * 16 := by
  cases b with
  | v r => exact ⟨0, r.toNat, by omega, r.isLt, by rw [Nat.zero_mul, Nat.add_zero, Src.code]⟩
  | k r => exact ⟨1, r.toNat, by omega, by omega, by rw [Nat.one_mul, Src.code]⟩

/-- The fields of an ALU word with an operand in vb. -/
def AluFields (w op : Nat) (d a : VReg) (b : Src) : Prop :=
  field w 5 6 = op ∧ BitVec.ofNat 7 (field w 11 7) = d ∧ BitVec.ofNat 7 (field w 18 7) = a ∧
    Src.ofCode (field w 4 1) (field w 25 7) = some b

theorem aluFields_of_sum {w low op : Nat} {d a : VReg} {b : Src} (hl : low < 16) (hop : op < 64)
    (hw : w = low + op * 2 ^ 5 + d.toNat * 2 ^ 11 + a.toNat * 2 ^ 18 + b.code) :
    w % 16 = low ∧ w < 2 ^ 32 ∧ AluFields w op d a b := by
  obtain ⟨k, vb, hk, hv, code⟩ := b.code_parts
  rw [code] at hw
  have parts : field w 4 1 = k ∧ field w 25 7 = vb := by unfold field; omega
  refine ⟨by omega, by omega, by unfold field; omega, ofNat_field (by unfold field; omega), ofNat_field (by unfold field; omega), ?_⟩
  rw [parts.1, parts.2]
  exact Src.ofCode_of_code hk code

/-- A word whose low bits name the format, where the format's decoder reads it. -/
theorem decodesTo_of_format {w n : Nat} {i : Instr} {dec : Nat → Except Reject Instr} (hw : w < 2 ^ 32) (low : w % 16 = 2 * n + 1)
    (format : ∀ w, field w 1 3 = n → decodeFormat w = dec w) (h : dec w = .ok i) : DecodesTo w i :=
  ⟨by omega, hw, (format w (by unfold field; omega)).trans h⟩

theorem decodesTo_aluA {op : Nat} {d a : VReg} {b : Src} {i : Instr} (hop : op < 64)
    (h : ∀ w, AluFields w op d a b → decodeAluA w = .ok i) : DecodesTo (wordAluA op d a b) i := by
  obtain ⟨w, hw⟩ : ∃ w, w = 1 + op * 2 ^ 5 + d.toNat * 2 ^ 11 + a.toNat * 2 ^ 18 + b.code := ⟨_, rfl⟩
  obtain ⟨low, bound, fields⟩ := aluFields_of_sum (by decide) hop hw
  rw [wordAluA, ← hw]
  exact decodesTo_of_format (n := 0) (dec := decodeAluA) bound low (fun w hf => by unfold decodeFormat; rw [hf]; rfl) (h w fields)

theorem decodesTo_aluB {op : Nat} {d a : VReg} {b : Src} {i : Instr} (hop : op < 64)
    (h : ∀ w, AluFields w op d a b → decodeAluB w = .ok i) : DecodesTo (wordAluB op d a b) i := by
  obtain ⟨w, hw⟩ : ∃ w, w = 3 + op * 2 ^ 5 + d.toNat * 2 ^ 11 + a.toNat * 2 ^ 18 + b.code := ⟨_, rfl⟩
  obtain ⟨low, bound, fields⟩ := aluFields_of_sum (by decide) hop hw
  rw [wordAluB, ← hw]
  exact decodesTo_of_format (n := 1) (dec := decodeAluB) bound low (fun w hf => by unfold decodeFormat; rw [hf]; rfl) (h w fields)

theorem decodesTo_aluBSel {op sel : Nat} {d a : VReg} {i : Instr} (hop : op < 64) (hs : sel < 128)
    (h : ∀ w, w = 3 + op * 2 ^ 5 + d.toNat * 2 ^ 11 + a.toNat * 2 ^ 18 + sel * 2 ^ 25 → field w 5 6 = op → 
      BitVec.ofNat 7 (field w 11 7) = d → BitVec.ofNat 7 (field w 18 7) = a → field w 4 1 = 0 → decodeAluB w = .ok i) : DecodesTo (wordAluBSel op d a sel) i := by
  obtain ⟨w, hw⟩ : ∃ w, w = 3 + op * 2 ^ 5 + d.toNat * 2 ^ 11 + a.toNat * 2 ^ 18 + sel * 2 ^ 25 := ⟨_, rfl⟩
  rw [wordAluBSel, ← hw]
  refine decodesTo_of_format (n := 1) (by omega) (by omega) (fun w hf => by unfold decodeFormat; rw [hf]) ?_
  exact h w hw (by unfold field; omega) (ofNat_field (by unfold field; omega)) (ofNat_field (by unfold field; omega))  (by unfold field; omega)

theorem decodesTo_sys {op rest : Nat} {i : Instr} (hop : op < 64) (hr : rest < 2 ^ 22)
    (h : ∀ w, w = 13 + op * 2 ^ 4 + rest * 2 ^ 10 → field w 4 6 = op → decodeSys w = .ok i) : DecodesTo (wordSys op rest) i := by
  obtain ⟨w, hw⟩ : ∃ w, w = 13 + op * 2 ^ 4 + rest * 2 ^ 10 := ⟨_, rfl⟩
  rw [wordSys, ← hw]
  refine decodesTo_of_format (n := 6) (by omega) (by omega) (fun w hf => by unfold decodeFormat; rw [hf]) ?_
  exact h w hw (by unfold field; omega)

theorem decodesTo_imm {op imm : Nat} {d a : VReg} {i : Instr} (hop : op < 32) (hi : imm < 2 ^ 9)
    (h : ∀ w, w = 5 + op * 2 ^ 4 + d.toNat * 2 ^ 9 + a.toNat * 2 ^ 16 + imm * 2 ^ 23 → field w 4 5 = op →
      BitVec.ofNat 7 (field w 9 7) = d → BitVec.ofNat 7 (field w 16 7) = a → decodeImm w = .ok i) :
    DecodesTo (wordImm op d a imm) i := by
  obtain ⟨w, hw⟩ : ∃ w, w = 5 + op * 2 ^ 4 + d.toNat * 2 ^ 9 + a.toNat * 2 ^ 16 + imm * 2 ^ 23 := ⟨_, rfl⟩
  rw [wordImm, ← hw]
  refine decodesTo_of_format (n := 2) (by omega) (by omega) (fun w hf => by unfold decodeFormat; rw [hf]) ?_
  exact h w hw (by unfold field; omega) (ofNat_field (by unfold field; omega)) (ofNat_field (by unfold field; omega))

theorem decodesTo_lit {op imm : Nat} {d : VReg} {i : Instr} (hop : op < 8) (hi : imm < 2 ^ 18)
    (h : ∀ w, w = 15 + op * 2 ^ 4 + d.toNat * 2 ^ 7 + imm * 2 ^ 14 → field w 4 3 = op →
      BitVec.ofNat 7 (field w 7 7) = d → decodeLit w = .ok i) : DecodesTo (wordLit op d imm) i := by
  obtain ⟨w, hw⟩ : ∃ w, w = 15 + op * 2 ^ 4 + d.toNat * 2 ^ 7 + imm * 2 ^ 14 := ⟨_, rfl⟩
  rw [wordLit, ← hw]
  refine decodesTo_of_format (n := 7) (by omega) (by omega) (fun w hf => by unfold decodeFormat; rw [hf]) ?_
  exact h w hw (by unfold field; omega) (ofNat_field (by unfold field; omega))

theorem decodesTo_ctl {op rest : Nat} {i : Instr} (hop : op < 16) (hr : rest < 2 ^ 24)
    (h : ∀ w, w = 9 + op * 2 ^ 4 + rest * 2 ^ 8 → field w 4 4 = op → decodeCtl w = .ok i) : DecodesTo (wordCtl op rest) i := by
  obtain ⟨w, hw⟩ : ∃ w, w = 9 + op * 2 ^ 4 + rest * 2 ^ 8 := ⟨_, rfl⟩
  rw [wordCtl, ← hw]
  refine decodesTo_of_format (n := 4) (by omega) (by omega) (fun w hf => by unfold decodeFormat; rw [hf]) ?_
  exact h w hw (by unfold field; omega)

/-- A UNI word by the value above kd (R55). -/
theorem decodesTo_uni {v op top : Nat} {d : KReg} {i : Instr} (hv : v = 11 + op * 2 ^ 4 + d.toNat * 2 ^ 9 + top * 2 ^ 15)
    (hop : op < 32) (ht : top < 2 ^ 17)
    (h : ∀ w, w = 11 + op * 2 ^ 4 + d.toNat * 2 ^ 9 + top * 2 ^ 15 → field w 4 5 = op →
      BitVec.ofNat 6 (field w 9 6) = d → decodeUni w = .ok i) : DecodesTo v i := by
  obtain ⟨w, hw⟩ : ∃ w, w = 11 + op * 2 ^ 4 + d.toNat * 2 ^ 9 + top * 2 ^ 15 := ⟨_, rfl⟩
  rw [hv, ← hw]
  refine decodesTo_of_format (n := 5) (by omega) (by omega) (fun w hf => by unfold decodeFormat; rw [hf]) ?_
  exact h w hw (by unfold field; omega) (ofNat_field (by unfold field; omega))

theorem wordUni_top (op : Nat) (d a b : KReg) (imm5 : Nat) :
    wordUni op d a b imm5 = 11 + op * 2 ^ 4 + d.toNat * 2 ^ 9 + (a.toNat + b.toNat * 2 ^ 6 + imm5 * 2 ^ 12) * 2 ^ 15 := by
  unfold wordUni; omega

theorem decodesTo_uniImm {op : Nat} {d a : KReg} {imm : BitVec 11} {i : Instr} (hop : op < 32)
    (h : ∀ w, field w 4 5 = op → BitVec.ofNat 6 (field w 9 6) = d → BitVec.ofNat 6 (field w 15 6) = a →
      BitVec.ofNat 11 (field w 21 6 * 32 + field w 27 5) = imm → decodeUni w = .ok i) : DecodesTo (wordUniImm op d a imm) i := by
  obtain ⟨high, low, whole, hh, hl⟩ : ∃ high low, imm.toNat = high * 32 + low ∧ high < 64 ∧ low < 32 :=
    ⟨imm.toNat / 32, imm.toNat % 32, by omega, by omega, by omega⟩
  have word : wordUniImm op d a imm = 11 + op * 2 ^ 4 + d.toNat * 2 ^ 9 + (a.toNat + high * 2 ^ 6 + low * 2 ^ 12) * 2 ^ 15 := by
    unfold wordUniImm; omega
  refine decodesTo_uni word hop (by omega) fun w hw hop hd => ?_
  have shifted : w / 2 ^ 21 = high + low * 64 ∧ w / 2 ^ 27 = low := by omega
  have parts : field w 21 6 = high ∧ field w 27 5 = low := by rw [field, field, shifted.1, shifted.2]; omega
  refine h w hop hd (ofNat_field (by unfold field; omega)) ?_
  rw [parts.1, parts.2, ← whole, BitVec.ofNat_toNat, BitVec.setWidth_eq]

/-- A MEM word by the value above its space (R56). -/
theorem decodesTo_mem {v space rest : Nat} {i : Instr} (hv : v = 7 + space * 2 ^ 4 + rest * 2 ^ 7)
    (hs : space < 8) (hr : rest < 2 ^ 25)
    (h : ∀ w, w = 7 + space * 2 ^ 4 + rest * 2 ^ 7 → field w 4 3 = space → decodeMem w = .ok i) : DecodesTo v i := by
  obtain ⟨w, hw⟩ : ∃ w, w = 7 + space * 2 ^ 4 + rest * 2 ^ 7 := ⟨_, rfl⟩
  rw [hv, ← hw]
  refine decodesTo_of_format (n := 3) (by omega) (by omega) (fun w hf => by unfold decodeFormat; rw [hf]) ?_
  exact h w hw (by unfold field; omega)

theorem decodesTo_mem8 {space op : Nat} {d base : VReg} {imm : BitVec 8} {i : Instr} (hs : space < 8) (hop : op < 8)
    (h : ∀ w, field w 4 3 = space → field w 7 3 = op → field w 10 7 = d.toNat → BitVec.ofNat 7 (field w 17 7) = base →
      BitVec.ofNat 8 (field w 24 8) = imm → decodeMem w = .ok i) : DecodesTo (wordMem8 space op d base imm.toNat) i := by
  refine decodesTo_mem (rest := op + d.toNat * 2 ^ 3 + base.toNat * 2 ^ 10 + imm.toNat * 2 ^ 17) (by unfold wordMem8; omega) hs
    (by omega) fun w hw space => ?_
  exact h w space (by unfold field; omega) (by unfold field; omega) (ofNat_field (by unfold field; omega))
    (ofNat_field (by unfold field; omega))

theorem decodesTo_cluster {op : Nat} {d base : VReg} {t : BitVec 2} {o : Order} {imm : BitVec 4} {i : Instr} (hop : op < 8)
    (h : ∀ w, field w 7 3 = op → BitVec.ofNat 7 (field w 10 7) = d → BitVec.ofNat 7 (field w 17 7) = base →
      BitVec.ofNat 2 (field w 24 2) = t → Order.ofCode (field w 26 2) = some o → BitVec.ofNat 4 (field w 28 4) = imm →
      decodeCluster w = .ok i) : DecodesTo (wordCluster op d base t o imm) i := by
  have order := o.code_lt
  refine decodesTo_mem (space := 1) (rest := op + d.toNat * 2 ^ 3 + base.toNat * 2 ^ 10 + t.toNat * 2 ^ 17 + o.code * 2 ^ 19 +
    imm.toNat * 2 ^ 21) (by unfold wordCluster; omega) (by decide) (by omega) fun w hw space => ?_
  unfold decodeMem
  rw [space]
  exact h w (by unfold field; omega) (ofNat_field (by unfold field; omega)) (ofNat_field (by unfold field; omega))
    (ofNat_field (by unfold field; omega)) (Order.ofCode_eq_some.mpr (by unfold field; omega)) (ofNat_field (by unfold field; omega))

theorem decodesTo_global {op top : Nat} {d a : VReg} {o : Order} {c : Scope} {i : Instr} (hop : op < 16) (ht : top < 8)
    (h : ∀ w, field w 7 4 = op → field w 11 7 = d.toNat → BitVec.ofNat 7 (field w 18 7) = a →
      field w 25 2 = o.code → field w 27 2 = c.code → field w 29 3 = top → decodeGlobal w = .ok i) :
    DecodesTo (wordGlobal op d a o c top) i := by
  have order := o.code_lt
  have scope := c.code_lt
  refine decodesTo_mem (space := 2) (rest := op + d.toNat * 2 ^ 4 + a.toNat * 2 ^ 11 + o.code * 2 ^ 18 + c.code * 2 ^ 20 +
    top * 2 ^ 22) (by unfold wordGlobal; omega) (by decide) (by omega) fun w hw space => ?_
  unfold decodeMem
  rw [space]
  exact h w (by unfold field; omega) (by unfold field; omega) (ofNat_field (by unfold field; omega))
    (by unfold field; omega) (by unfold field; omega) (by unfold field; omega)

theorem decodesTo_host {op : Nat} {d base : VReg} {o : Order} {i : Instr} (hop : op < 16)
    (h : ∀ w, field w 7 4 = op → BitVec.ofNat 7 (field w 11 7) = d → BitVec.ofNat 7 (field w 18 7) = base →
      Order.ofCode (field w 25 2) = some o → field w 27 5 = 0 → decodeHost w = .ok i) : DecodesTo (wordHost op d base o) i := by
  have order := o.code_lt
  refine decodesTo_mem (space := 5) (rest := op + d.toNat * 2 ^ 4 + base.toNat * 2 ^ 11 + o.code * 2 ^ 18)
    (by unfold wordHost; omega) (by decide) (by omega) fun w hw space => ?_
  unfold decodeMem
  rw [space]
  exact h w (by unfold field; omega) (ofNat_field (by unfold field; omega)) (ofNat_field (by unfold field; omega))
    (Order.ofCode_eq_some.mpr (by unfold field; omega)) (by unfold field; omega)

theorem Policy.code_lt (p : Policy) : p.code < 8 := by cases p <;> decide
theorem AtomFn.code_lt (f : AtomFn) : f.code < 8 := by cases f <;> decide
theorem AtfFn.code_lt (f : AtfFn) : f.code < 8 := by cases f <;> decide
theorem FenceKind.code_lt (k : FenceKind) : k.code < 4 := by cases k <;> decide
theorem CpSize.code_lt (z : CpSize) : z.code < 4 := by cases z <;> decide
theorem RedOp.code_lt (o : RedOp) : o.code < 4 := by cases o <;> decide
theorem RedType.code_lt (t : RedType) : t.code < 4 := by cases t <;> decide

/-- The formats of the 32-bit words, in the groups that the proof takes them by: ALU-A and ALU-B; IMM, LIT, CTL and UNI;
MEM; SYS (R46). -/
inductive WordGroup where
  | alu | immOrControl | mem | sys

/-- The group of the instruction's format, if its word has 32 bits. -/
def Instr.group : Instr → Option WordGroup
  | .iadd .. | .isub .. | .imul .. | .imulhi .. | .imulhin .. | .imad .. | .imin .. | .imax .. | .iminn .. |
    .imaxn .. | .and .. | .or .. | .xor .. | .andn .. | .shl .. | .shrl .. | .shra .. | .rotl .. | .sel .. |
    .iaddsat .. | .isubsat .. | .bfx .. | .bfi .. | .iadd64 .. | .isub64 .. | .imulw .. | .imulwn .. | .shl64 .. |
    .shrl64 .. | .shra64 .. | .iseq .. | .isne .. | .islt .. | .isle .. | .isltn .. | .islen .. | .fadd .. |
    .fsub .. | .fmul .. | .ffma .. | .fmin .. | .fmax .. | .fseq .. | .fsne .. | .fslt .. | .fsle .. | .fsuno .. |
    .fcopysign .. | .dadd .. | .dsub .. | .dmul .. | .dfma .. | .dmin .. | .dmax .. | .dseq .. | .dslt .. | .dsle ..
    | .dsuno .. | .hadd2 .. | .hmul2 .. | .hfma2 .. | .badd2 .. | .bmul2 .. | .bfma2 .. | .cvtF16x2F32 .. |
    .cvtBf16x2F32 .. | .cvtE4m3x4F32 .. | .cvtE5m2x4F32 .. | .fdiv .. | .ddiv .. | .idiv .. | .irem .. | .idivn .. |
    .iremn .. | .shfl .. | .shflup .. | .shfldn .. | .shflx .. | .cvtF32I32 .. | .cvtF32N32 .. | .cvtI32F32 .. |
    .cvtN32F32 .. | .cvtF64F32 .. | .cvtF32F64 .. | .cvtF64I32 .. | .cvtI32F64 .. | .cvtF64I64 .. | .cvtI64F64 .. |
    .frint .. | .fclass .. | .fabs .. | .fneg .. | .popc .. | .clz .. | .brev .. | .frcp .. | .frsq .. | .fsqrt .. |
    .fex2 .. | .flg2 .. | .dsqrt .. | .ballot .. | .vany .. | .vall .. | .redadd .. | .redfadd .. | .redmax .. |
    .redmin .. | .scanadd .. | .mov64 .. | .cvtF32F16 .. | .cvtF32Bf16 .. | .cvtF32E4m3 .. | .cvtF32E5m2 .. |
    .movx .. | .movxw .. | .setx .. | .getx .. => some .alu
  | .iaddi .. | .andi .. | .ori .. | .xori .. | .iseqi .. | .islti .. | .isltni .. | .imuli .. | .iadd64i .. |
    .isnei .. | .shli .. | .shrli .. | .shrai .. | .movk .. | .movi .. | .movhi .. | .bra .. | .bnz .. | .bz .. |
    .call .. | .kbnz .. | .kbz .. | .callr .. | .jmpr .. | .ret | .kadd .. | .ksub .. | .kmul .. | .kand .. |
    .kor .. | .kxor .. | .kshl .. | .kshr .. | .ksra .. | .kseq .. | .kslt .. | .ksltn .. | .kmin .. | .kmax .. |
    .ksel .. | .kadd64 .. | .kmulhi .. | .kaddi .. | .kldcb .. | .kmovv .. | .kli .. | .klih .. => some .immOrControl
  | .lds32 .. | .lds64 .. | .lds128 .. | .sts32 .. | .sts64 .. | .sts128 .. | .atsAdd32 .. | .atsExch32 .. |
    .ldp32 .. | .ldp64 .. | .ldp128 .. | .pfp .. | .ldcb32 .. | .ldcb64 .. | .ldcb128 .. | .ldn32 .. | .ldn64 .. |
    .ldn128 .. | .stn32 .. | .stn64 .. | .stn128 .. | .atnAdd32 .. | .atnExch32 .. | .ldgZ8 .. | .ldgS8 .. |
    .ldgZ16 .. | .ldgS16 .. | .ldg32 .. | .ldg64 .. | .ldg128 .. | .stg8 .. | .stg16 .. | .stg32 .. | .stg64 .. |
    .stg128 .. | .pfg .. | .atg32 .. | .atg64 .. | .atf32 .. | .ldh32 .. | .ldh64 .. | .sth32 .. | .sth64 .. |
    .athAdd64 .. | .athCas64 .. | .athExch64 .. => some .mem
  | .cpgs .. | .cpsg .. | .cptl .. | .cpts .. | .fence .. | .cwb .. | .wred .. | .mxfence | .yield | .exit | .bkpt |
    .rett | .binit .. | .barr .. | .barrx .. | .bexp .. | .bwait .. | .btest .. | .bdrop .. | .cppw .. | .waitcnt ..
    | .mxpush .. | .mxquery .. | .qblk .. | .rresv .. | .rcommit .. | .rrecv .. | .rrelease .. | .rtryresv .. |
    .rtryrecv .. | .rclose .. | .rstat .. | .pinstall .. | .pstatus .. | .sealLines .. | .unsealLines .. | .wsync ..
    | .trap .. | .csrr .. | .csrw .. | .rdcyc .. | .evsig .. | .movsr .. => some .sys
  | _ => none

theorem Instr.group_isSome (i : Instr) : i.group.isSome = (i.len == 4) := by cases i <;> rfl

theorem decodesTo_encode_alu {i : Instr} (h : i.group = some .alu) : DecodesTo (encode i) i := by
  cases i
  case iadd | isub | imul | imulhi | imulhin | imad | imin | imax | iminn | imaxn | and | or | xor | andn | shl | shrl
      | shra | rotl | sel | iaddsat | isubsat | bfx | bfi | iadd64 | isub64 | imulw | imulwn | shl64 | shrl64 | shra64
      | iseq | isne | islt | isle | isltn | islen | fadd | fsub | fmul | ffma | fmin | fmax | fseq | fsne | fslt | fsle
      | fsuno | fcopysign | dadd | dsub | dmul | dfma | dmin | dmax | dseq | dslt | dsle | dsuno | hadd2 | hmul2
      | hfma2 | badd2 | bmul2 | bfma2 =>
    refine decodesTo_aluA (by decide) fun w fields => ?_
    obtain ⟨op, hd, ha, hb⟩ := fields
    unfold decodeAluA
    rw [op, hd, ha, hb]
    rfl
  case cvtF16x2F32 | cvtBf16x2F32 | cvtE4m3x4F32 | cvtE5m2x4F32 | fdiv | ddiv | idiv | irem | idivn | iremn | shfl
      | shflup | shfldn | shflx =>
    refine decodesTo_aluB (by decide) fun w fields => ?_
    obtain ⟨op, hd, ha, hb⟩ := fields
    unfold decodeAluB
    rw [op, hd, ha, hb]
    rfl
  case cvtF32I32 | cvtF32N32 | cvtI32F32 | cvtN32F32 | cvtF64F32 | cvtF32F64 | cvtF64I32 | cvtI32F64 | cvtF64I64 | cvtI64F64
      | frint | fclass | fabs | fneg | popc | clz | brev | frcp | frsq | fsqrt | fex2 | flg2 | dsqrt | ballot | vany
      | vall | redadd | redfadd | redmax | redmin | scanadd | mov64 =>
    refine decodesTo_aluBSel (by decide) (by decide) fun w hw op hd ha k => ?_
    have sel : field w 25 7 = 0 := by unfold field; omega
    unfold decodeAluB
    rw [op, hd, ha, k, sel]
    rfl
  case cvtF32F16 | cvtF32Bf16 | cvtF32E4m3 | cvtF32E5m2 | movx | movxw | setx | getx =>
    refine decodesTo_aluBSel (by decide) (by omega) fun w hw op hd ha k => ?_
    have zero : (0 : VReg).toNat = 0 := rfl
    unfold decodeAluB
    rw [op, hd, ha]
    refine zeros_eq_ok.mpr ⟨?_, ?_⟩
    · simp only [Bool.and_eq_true, beq_iff_eq, field]
      omega
    · congr 1
      exact ofNat_field (by unfold field; omega)
  all_goals cases h

theorem decodesTo_encode_immOrControl {i : Instr} (h : i.group = some .immOrControl) : DecodesTo (encode i) i := by
  cases i
  case iaddi | andi | ori | xori | iseqi | islti | isltni | imuli | iadd64i | isnei =>
    refine decodesTo_imm (by decide) (by omega) fun w hw op hd ha => ?_
    unfold decodeImm
    rw [op, hd, ha]
    exact congrArg Except.ok (congrArg _ (ofNat_field (by unfold field; omega)))
  case shli | shrli | shrai | movk =>
    refine decodesTo_imm (by decide) (by omega) fun w hw op hd ha => ?_
    have zero : (0 : VReg).toNat = 0 := rfl
    unfold decodeImm
    rw [op, hd, ha]
    refine zeros_eq_ok.mpr ⟨?_, congrArg _ (ofNat_field (by unfold field; omega))⟩
    simp only [Bool.and_eq_true, beq_iff_eq, field]
    omega
  case movi | movhi =>
    refine decodesTo_lit (by decide) (by omega) fun w hw op hd => ?_
    unfold decodeLit
    rw [op, hd]
    exact congrArg Except.ok (congrArg _ (ofNat_field (by unfold field; omega)))
  case bra | bnz | bz | call | kbnz | kbz =>
    refine decodesTo_ctl (by decide) (by omega) fun w hw op => ?_
    unfold decodeCtl
    rw [op]
    refine congrArg Except.ok ?_
    congr 1 <;> exact ofNat_field (by unfold field; omega)
  case callr | jmpr =>
    refine decodesTo_ctl (by decide) (by omega) fun w hw op => ?_
    unfold decodeCtl
    rw [op]
    refine zeros_eq_ok.mpr ⟨?_, congrArg _ (ofNat_field (by unfold field; omega))⟩
    simp only [beq_iff_eq, field]
    omega
  case ret =>
    refine decodesTo_ctl (by decide) (by omega) fun w hw op => ?_
    unfold decodeCtl
    rw [op]
    refine zeros_eq_ok.mpr ⟨?_, rfl⟩
    simp only [beq_iff_eq, field]
    omega
  case kadd | ksub | kmul | kand | kor | kxor | kshl | kshr | ksra | kseq | kslt | ksltn | kmin | kmax | ksel | kadd64 | kmulhi =>
    refine decodesTo_uni (wordUni_top ..) (by decide) (by omega) fun w hw op hd => ?_
    unfold decodeUni
    rw [op, hd]
    refine zeros_eq_ok.mpr ⟨?_, ?_⟩
    · simp only [beq_iff_eq, field]
      omega
    · congr 1 <;> exact ofNat_field (by unfold field; omega)
  case kaddi d a imm | kldcb d a imm =>
    refine decodesTo_uniImm (by decide) fun w op hd ha hi => ?_
    unfold decodeUni
    rw [op, hd, ha, hi]
    rfl
  case kmovv =>
    refine decodesTo_uni rfl (by decide) (by omega) fun w hw op hd => ?_
    unfold decodeUni
    rw [op, hd]
    refine zeros_eq_ok.mpr ⟨?_, congrArg _ (ofNat_field (by unfold field; omega))⟩
    simp only [beq_iff_eq, field]
    omega
  case kli | klih =>
    refine decodesTo_uni rfl (by decide) (by omega) fun w hw op hd => ?_
    unfold decodeUni
    rw [op, hd]
    exact congrArg Except.ok (congrArg _ (ofNat_field (by unfold field; omega)))
  all_goals cases h

theorem decodesTo_encode_mem {i : Instr} (h : i.group = some .mem) : DecodesTo (encode i) i := by
  cases i
  case lds32 | lds64 | lds128 | sts32 | sts64 | sts128 | atsAdd32 | atsExch32 =>
    refine decodesTo_mem8 (by decide) (by decide) fun w space op hd hb hi => ?_
    unfold decodeMem decodeSpm
    rw [space, op, ofNat_field hd, hb, hi]
    rfl
  case ldp32 | ldp64 | ldp128 =>
    refine decodesTo_mem8 (by decide) (by decide) fun w space op hd hb hi => ?_
    unfold decodeMem decodePlate
    rw [space, op, ofNat_field hd, hb, hi]
    rfl
  case pfp =>
    refine decodesTo_mem8 (by decide) (by decide) fun w space op hd hb hi => ?_
    unfold decodeMem decodePlate
    rw [space, op, hd, hb, hi]
    rfl
  case ldcb32 | ldcb64 | ldcb128 =>
    refine decodesTo_mem8 (by decide) (by decide) fun w space op hd hb hi => ?_
    unfold decodeMem decodeConst
    rw [space, op, ofNat_field hd, hb, hi]
    rfl
  case ldn32 | ldn64 | ldn128 | stn32 | stn64 | stn128 | atnAdd32 | atnExch32 =>
    refine decodesTo_cluster (by decide) fun w op hd hb ht ho hi => ?_
    unfold decodeCluster
    rw [op, hd, hb, ht, ho, hi]
    rfl
  case ldgZ8 p | ldgS8 p | ldgZ16 p | ldgS16 p | ldg32 p | ldg64 p | ldg128 p | stg8 p | stg16 p | stg32 p | stg64 p | stg128 p =>
    refine decodesTo_global (by decide) p.code_lt fun w op hd ha ho hc hp => ?_
    unfold decodeGlobal
    rw [op, ofNat_field hd, ha, Order.ofCode_eq_some.mpr ho, Scope.ofCode_eq_some.mpr hc, Policy.ofCode_eq_some.mpr hp]
    rfl
  case pfg p =>
    refine decodesTo_global (by decide) p.code_lt fun w op hd ha ho hc hp => ?_
    have zero : field w 25 4 = 0 := by simp only [Order.code, Scope.code] at ho hc; unfold field at *; omega
    unfold decodeGlobal
    rw [op, hd, zero, ha, Policy.ofCode_eq_some.mpr hp]
    rfl
  case atg32 f _ _ | atg64 f _ _ =>
    refine decodesTo_global (by decide) f.code_lt fun w op hd ha ho hc hf => ?_
    unfold decodeGlobal
    rw [op, ofNat_field hd, ha, Order.ofCode_eq_some.mpr ho, Scope.ofCode_eq_some.mpr hc, AtomFn.ofCode_eq_some.mpr hf]
    rfl
  case atf32 f _ _ =>
    refine decodesTo_global (by decide) f.code_lt fun w op hd ha ho hc hf => ?_
    unfold decodeGlobal
    rw [op, ofNat_field hd, ha, Order.ofCode_eq_some.mpr ho, Scope.ofCode_eq_some.mpr hc, AtfFn.ofCode_eq_some.mpr hf]
    rfl
  case ldh32 | ldh64 | sth32 | sth64 | athAdd64 | athCas64 | athExch64 =>
    refine decodesTo_host (by decide) fun w op hd hb ho zero => ?_
    unfold decodeHost
    rw [op, hd, hb, ho, zero]
    rfl
  all_goals cases h

theorem decodesTo_encode_sys {i : Instr} (h : i.group = some .sys) : DecodesTo (encode i) i := by
  cases i
  case cpgs z | cpsg z =>
    have size := z.code_lt
    refine decodesTo_sys (by decide) (by omega) fun w hw op => ?_
    have hz : CpSize.ofCode (field w 28 2) = some z := CpSize.ofCode_eq_some.mpr (by unfold field; omega)
    unfold decodeSys
    rw [op, hz]
    refine guarded_eq_ok.mpr ⟨?_, congrArg Except.ok ?_⟩
    · simp only [beq_iff_eq, field]
      omega
    · dsimp only
      congr 1 <;> exact ofNat_field (by unfold field; omega)
  case cptl | cpts =>
    refine decodesTo_sys (by decide) (by omega) fun w hw op => ?_
    unfold decodeSys
    rw [op]
    refine congrArg Except.ok ?_
    congr 1 <;> exact ofNat_field (by unfold field; omega)
  case fence k c =>
    have kind := k.code_lt
    have scope := c.code_lt
    refine decodesTo_sys (by decide) (by omega) fun w hw op => ?_
    have hk : FenceKind.ofCode (field w 10 2) = some k := FenceKind.ofCode_eq_some.mpr (by unfold field; omega)
    have hc : Scope.ofCode (field w 12 2) = some c := Scope.ofCode_eq_some.mpr (by unfold field; omega)
    unfold decodeSys
    rw [op, hk, hc]
    refine guarded_eq_ok.mpr ⟨?_, rfl⟩
    simp only [beq_iff_eq, field]
    omega
  case cwb c =>
    have scope := c.code_lt
    refine decodesTo_sys (by decide) (by omega) fun w hw op => ?_
    have hc : Scope.ofCode (field w 22 2) = some c := Scope.ofCode_eq_some.mpr (by unfold field; omega)
    unfold decodeSys
    rw [op, hc]
    refine guarded_eq_ok.mpr ⟨?_, congrArg Except.ok ?_⟩
    · simp only [beq_iff_eq, field]
      omega
    · dsimp only
      congr 1 <;> exact ofNat_field (by unfold field; omega)
  case wred o t _ =>
    have code := o.code_lt
    have type := t.code_lt
    refine decodesTo_sys (by decide) (by omega) fun w hw op => ?_
    have ho : RedOp.ofCode (field w 24 2) = some o := RedOp.ofCode_eq_some.mpr (by unfold field; omega)
    have ht : RedType.ofCode (field w 26 2) = some t := RedType.ofCode_eq_some.mpr (by unfold field; omega)
    unfold decodeSys
    rw [op, ho, ht]
    refine congrArg Except.ok ?_
    dsimp only
    congr 1 <;> exact ofNat_field (by unfold field; omega)
  case mxfence | yield | exit | bkpt | rett =>
    refine decodesTo_sys (by decide) (by omega) fun w hw op => ?_
    unfold decodeSys
    rw [op]
    refine zeros_eq_ok.mpr ⟨?_, rfl⟩
    simp only [beq_iff_eq, field]
    omega
  case binit | barr | barrx | bexp | bwait | btest | bdrop | cppw | waitcnt | mxpush | mxquery | qblk | rresv | rcommit | rrecv
      | rrelease | rtryresv | rtryrecv | rclose | rstat | pinstall | pstatus | sealLines | unsealLines | wsync | trap
      | csrr | csrw | rdcyc | evsig | movsr =>
    refine decodesTo_sys (by decide) (by omega) fun w hw op => ?_
    unfold decodeSys
    rw [op]
    refine zeros_eq_ok.mpr ⟨?_, ?_⟩
    · simp only [Bool.and_eq_true, beq_iff_eq, field]
      omega
    · congr 1 <;> exact ofNat_field (by unfold field; omega)
  all_goals cases h

theorem decodesTo_encode {i : Instr} (len : i.len = 4) : DecodesTo (encode i) i := by
  have grouped : i.group.isSome = true := by rw [i.group_isSome, len]; rfl
  obtain ⟨g, h⟩ := Option.isSome_iff_exists.mp grouped
  cases g with
  | alu => exact decodesTo_encode_alu h
  | immOrControl => exact decodesTo_encode_immOrControl h
  | mem => exact decodesTo_encode_mem h
  | sys => exact decodesTo_encode_sys h

theorem decodeShort_encode {i : Instr} (len : i.len = 2) :
    encode i < 2 ^ 16 ∧ encode i % 2 = 0 ∧ decodeShort (encode i) = i := by
  have word {op s : Nat} {d : BitVec 6} (hop : op < 16) (hs : s < 32)
      (h : ∀ w, field w 1 4 = op → BitVec.ofNat 6 (field w 5 6) = d → field w 11 5 = s → decodeShort w = i) :
      wordShort op d s < 2 ^ 16 ∧ wordShort op d s % 2 = 0 ∧ decodeShort (wordShort op d s) = i := by
    obtain ⟨w, hw⟩ : ∃ w, w = op * 2 + d.toNat * 2 ^ 5 + s * 2 ^ 11 := ⟨_, rfl⟩
    rw [wordShort, ← hw]
    exact ⟨by omega, by omega, h w (by unfold field; omega) (ofNat_field (by unfold field; omega)) (by unfold field; omega)⟩
  cases i
  case shortMov | shortIadd | shortIsub | shortImul | shortAnd | shortOr | shortXor | shortShl | shortShrl | shortShra | shortFadd
      | shortFsub | shortFmul | shortFmax | shortFmin | shortIaddi =>
    refine word (by decide) (by omega) fun w op hd hs => ?_
    unfold decodeShort
    rw [op, hd, hs, BitVec.ofNat_toNat, BitVec.setWidth_eq]
    rfl
  all_goals cases len

/-! ## Bytes -/

theorem leBytes_two (w : Nat) : leBytes 2 w = [BitVec.ofNat 8 w, BitVec.ofNat 8 (w / 256)] := rfl

theorem leBytes_four (w : Nat) :
    leBytes 4 w =
      [BitVec.ofNat 8 w, BitVec.ofNat 8 (w / 256), BitVec.ofNat 8 (w / 256 / 256), BitVec.ofNat 8 (w / 256 / 256 / 256)] := rfl

/-- The bytes of a number, read again (R7). -/
theorem leNat_leBytes (n w : Nat) : leNat (leBytes n w) = w % 256 ^ n := by
  induction n generalizing w with
  | zero => rw [pow_zero, Nat.mod_one]; rfl
  | succ n ih => rw [leBytes, leNat, ih, BitVec.toNat_ofNat, pow_succ' 256, Nat.mod_mul]

theorem decode_leBytes_two {w : Nat} (hw : w < 2 ^ 16) (even : w % 2 = 0) (rest : List Byte) :
    decode (leBytes 2 w ++ rest) = .ok (decodeShort w, rest) := by
  have whole : leNat (leBytes 2 w) = w := by rw [leNat_leBytes]; omega
  rw [leBytes_two] at whole ⊢
  simp only [List.cons_append, List.nil_append, decode, whole]
  rw [if_pos (by rw [BitVec.toNat_ofNat]; omega)]

theorem decode_leBytes_four {w : Nat} {i : Instr} (hw : w < 2 ^ 32) (odd : w % 2 = 1) (h : decode32 w = .ok i)
    (rest : List Byte) : decode (leBytes 4 w ++ rest) = .ok (i, rest) := by
  have whole : leNat (leBytes 4 w) = w := by rw [leNat_leBytes]; omega
  rw [leBytes_four] at whole ⊢
  simp only [List.cons_append, List.nil_append, decode, whole, h]
  rw [if_neg (by rw [BitVec.toNat_ofNat]; omega)]

theorem Instr.len_cases (i : Instr) : i.len = 0 ∨ i.len = 2 ∨ i.len = 4 := by
  have three : (i.len == 0 || i.len == 2 || i.len == 4) = true := by cases i <;> rfl
  simpa [or_assoc] using three

/-- Settles O6: a word of 16 bits by `decodeShort_encode`, one of 32 by its format. -/
theorem encodedInstructionDecodesToItself : Obligations.EncodedInstructionDecodesToItself := by
  intro i wf word
  obtain len | len | len := i.len_cases
  · exact absurd len word
  · obtain ⟨bound, even, short⟩ := decodeShort_encode len
    refine ⟨?_, by rw [len]; exact bound, fun rest => ?_⟩
    · rw [decodeWord, if_pos even, Nat.mod_eq_of_lt bound, short]
    · rw [encodeBytes, len, decode_leBytes_two bound even, short]
  · obtain ⟨odd, bound, format⟩ := decodesTo_encode len
    have decoded : decode32 (encode i) = .ok i := decode32_eq_ok.mpr ⟨format, wf⟩
    refine ⟨?_, by rw [len]; exact bound, fun rest => ?_⟩
    · rw [decodeWord, if_neg (by omega), Nat.mod_eq_of_lt bound, decoded]
    · rw [encodeBytes, len, decode_leBytes_four bound odd decoded]

end Sys2Proof
end

section
/-!
Taking a trap, parking in handler mode, TRAP, BKPT and RETT (R376 to R388).
-/
namespace Sys2Proof.Machine
open Sys2Proof

/-! ## The frame of a trap (R376 to R380) -/

/-- A lane that a spill or a refill holds stands at its instruction again. -/
theorem restartStack_thread {s : State} {b w l id : Nat} {o : MemOp} {a : LaneAcc} (h : stackHold s b w l = some (id, o, a)) :
    (restartStack s b w l).thread b w l =
      if o.acc.fn = .spill then undoCall (s.thread b w l) o.pc a else { s.thread b w l with hold := none } := by
  unfold restartStack
  rw [h]
  exact State.thread_setThread_same ..

theorem restartStack_other (s : State) {b w l k : Nat} (h : k ≠ tkey b w l) :
    Sp.find? (restartStack s b w l).threads k = Sp.find? s.threads k := by
  unfold restartStack
  split
  · rfl
  · exact (Sp.find_put ..).trans (if_neg h)

/-- Nothing but threads and operations changes. -/
theorem restartStack_rest (s : State) (b w l : Nat) :
    { restartStack s b w l with threads := s.threads, ops := s.ops } = s := by
  unfold restartStack
  split <;> rfl

theorem restartStack_launch (s : State) (b w l b' : Nat) : (restartStack s b w l).launch b' = s.launch b' := by
  rw [State.launch, State.launch, State.block, State.grid, State.block, State.grid,
    (restartStack_trapsOnly s b w l).field State.blocks fun _ => rfl,
    (restartStack_trapsOnly s b w l).field State.grids fun _ => rfl]

/-- What the trap leaves of the state, once a CALL or RET that has not ended stands to run again. -/
theorem enterTrap_eq (s : State) (b w l : Nat) (c : Cond) :
    let u := restartStack s b w l
    enterTrap s b w l c = (captureHeld u b w l).2.setThread b w l
      (trapFrame (u.thread b w l) (u.launch b).handler c (((captureHeld u b w l).1 ++ (u.thread b w l).parkq).map ParkedOp.toReOp)
        u.nextOp) := rfl

theorem captureHeld_ops (s : State) (b w l : Nat) :
    (captureHeld s b w l).2.ops = s.ops.map fun e => (e.1, if e.2.blk = b ∧ e.2.weft = w then e.2.withdraw l else e.2) := by
  simp [captureHeld, MemOp.ofWeft]

/-- Settles O25, by the one equation of a trap. -/
theorem trapEntryWritesTheFrame : Obligations.TrapEntryWritesTheFrame := by
  intro s b w l c
  dsimp only
  rw [enterTrap_eq, State.thread_setThread_same]
  refine ⟨fun h => by simp only [restartStack, h], fun id o a h => restartStack_thread h, rfl,
    congrArg Launch.handler (restartStack_launch ..), rfl, rfl, rfl, rfl, rfl, rfl, rfl, rfl, rfl, rfl, rfl, rfl, rfl, ?_, ?_,
    captureHeld_ops ..⟩
  · exact fun k hk => ((Sp.find_put ..).trans (if_neg hk)).trans (restartStack_other s hk)
  · exact restartStack_rest s b w l

/-! ## A condition in handler mode (R386) -/

theorem parkWeft_posts {s : State} {b w : Nat} (h : (s.weft b w).park = none)
    (room : parkedIn s (domOf (s.block b).core) < 1024) (first : pendingIn s (domOf (s.block b).core) = false) (e : FqEntry)
    (i : Bool) : (parkWeft s b w e i).faults = s.faults ++ [.weft b w] ∧ (parkWeft s b w e i).pendq = s.pendq := by
  have free : (decide (1024 ≤ parkedIn s (domOf (s.block b).core)) || pendingIn s (domOf (s.block b).core)) = false := by
    simp [first, room]
  simp only [parkWeft, h, free, Option.isSome_none, Bool.false_eq_true, if_false]
  exact ⟨postFault_faults .., postFault_pendq ..⟩

theorem parkWeft_pends {s : State} {b w : Nat} (h : (s.weft b w).park = none)
    (full : 1024 ≤ parkedIn s (domOf (s.block b).core) ∨ pendingIn s (domOf (s.block b).core) = true) (e : FqEntry)
    (i : Bool) : (parkWeft s b w e i).faults = s.faults ∧ (parkWeft s b w e i).pendq = s.pendq ++ [(b, w)] := by
  have full' : (decide (1024 ≤ parkedIn s (domOf (s.block b).core)) || pendingIn s (domOf (s.block b).core)) = true := by
    simpa using full
  simp only [parkWeft, h, full', Option.isSome_none, Bool.false_eq_true, if_false, if_true]
  exact ⟨rfl, rfl⟩

/-- Settles O26: in handler mode a condition is a park. -/
theorem trapInHandlerModeParksTheWeft : Obligations.TrapInHandlerModeParksTheWeft := by
  intro s b w l c issue done
  refine ⟨fun user => if_neg user, fun handler free => ?_⟩
  have park : deliverTrap s b w l c issue done =
      parkWeft s b w (faultEntry s b w 3 c issue done (s.thread b w l).pc) true := if_pos handler
  dsimp only
  rw [park]
  obtain ⟨p, weft⟩ := parkWeft_weft free (faultEntry s b w 3 c issue done (s.thread b w l).pc) true
  refine ⟨parkWeft_threads .., parkWeft_mem .., ?_, ?_, fun room first => parkWeft_posts free room first ..,
    fun full => parkWeft_pends free full ..⟩
  · rw [weft]
  · rw [weft]
    exact ⟨_, rfl, rfl, rfl, rfl, rfl, rfl, rfl, rfl, rfl, rfl⟩

/-! ## TRAP and BKPT (R388) -/

/-- An instruction that traps every lane in user mode leaves each lane the frame of its condition. -/
theorem issueLanes_trap {s : State} {f : State → Nat → LaneRes} {c : Cond} (hi : Issues .sync [] [] s)
    (run : ∀ l ∈ s.iss.lanes, (s.lane l).tst = .run) (user : c.sys = false) (trap : ∀ l, f (noteIssue s) l = .trap c) :
    ∃ t, issueLanes .sync [] [] f s = .next t ∧ ∀ l ∈ s.iss.lanes, ∃ d q n, t.thread s.iss.blk s.iss.weft l =
      trapFrame { s.lane l with deliver := d } (s.launch s.iss.blk).handler c q n := by
  obtain ⟨formed, allowed, free, clean⟩ := hi
  refine ⟨_, issue_body formed.1 (preCond_none allowed) free clean _, fun l hl => ?_⟩
  have after := foldl_laneStep_mixed (f := f (noteIssue s)) formed free run
    (fun k e he => by rw [trap] at he; cases he; exact user) l hl
  obtain ⟨d, hd⟩ := noteIssue_thread_lane s l
  simp only [AfterLane, trap, AfterCheck, user, Bool.false_eq_true, if_false, noteIssue_lane, hd, noteIssue_iss,
    noteIssue_launch] at after ⊢
  obtain ⟨q, n, eq⟩ := after
  exact ⟨d, q, n, eq⟩

/-- Settles O27. -/
theorem trapAndBreakpointEnterTheHandler : Obligations.TrapAndBreakpointEnterTheHandler := by
  intro s hi run
  constructor
  · intro n
    obtain ⟨t, ht, frames⟩ := issueLanes_trap (f := fun s _ =>
      .trap { cause := .software, addr := s.iss.pc.toNat, info := n.toNat, skip := 4 }) hi run
      (c := { cause := .software, addr := s.iss.pc.toNat, info := n.toNat, skip := 4 }) rfl fun l => by rw [noteIssue_iss]
    refine ⟨t, ht, fun l hl => ?_⟩
    obtain ⟨d, q, m, eq⟩ := frames l hl
    simp only [eq, trapFrame, Cond.tcause]
    refine ⟨trivial, trivial, rfl, ?_, rfl, ?_, trivial⟩
    · exact BitVec.eq_of_toNat_eq (by simp)
    · exact BitVec.eq_of_toNat_eq (by simp)
  · obtain ⟨t, ht, frames⟩ := issueLanes_trap (f := fun s _ => .trap { cause := .breakpoint, addr := s.iss.pc.toNat }) hi run
      (c := { cause := .breakpoint, addr := s.iss.pc.toNat }) rfl fun l => by rw [noteIssue_iss]
    refine ⟨t, ht, fun l hl => ?_⟩
    obtain ⟨d, q, m, eq⟩ := frames l hl
    simp only [eq, trapFrame, Cond.tcause]
    refine ⟨trivial, trivial, rfl, rfl, ?_, ?_, trivial⟩
    · exact BitVec.add_zero _
    · exact BitVec.eq_of_toNat_eq (by simp)

/-! ## RETT (R388) -/

theorem reissued_toReOp (s : State) (l : Nat) : (reissued s l).map ParkedOp.toReOp = (s.lane l).trq := by
  unfold reissued
  rw [List.map_map]
  exact (List.map_congr_left fun e _ => rfl).trans (List.zipIdx_map_fst ..)

theorem mem_reissued {s : State} {l : Nat} {p : ParkedOp} (h : p ∈ reissued s l) :
    s.nextOp ≤ p.op ∧ p.pc = (s.lane l).tpc ∧ p.handler = false := by
  obtain ⟨e, -, rfl⟩ := List.mem_map.mp h
  exact ⟨by simp only; omega, rfl, rfl⟩

/-- Whether a RETT waits (R377). -/
def rettBusy (s : State) : Bool :=
  issueBusy s [] [] || s.iss.lanes.any fun l => decide (8 < heldCount s s.iss.blk s.iss.weft l + (s.lane l).trq.length)

/-- What a RETT that goes on leaves. -/
def rettBody (s : State) : State :=
  { s.iss.lanes.foldl (laneStep (rettLane s)) s with nextOp := s.nextOp + 256 }

theorem exec_rett (s : State) :
    exec .rett s = issue { permitted := fun k => k.permits .sync, regs := [], early := rettCond s } rettBusy rettBody s := rfl

/-- Settles O28, by the three ways of an issue. -/
theorem returnFromTrap : Obligations.ReturnFromTrap := by
  intro s
  rw [exec_rett]
  refine ⟨fun hi handler legal room => ?_, fun hi handler full => ?_, fun lanes user => ?_⟩
  · obtain ⟨formed, allowed, free, clean⟩ := hi
    have early : rettCond s = none := if_pos handler
    have ready : rettBusy s = false := by simpa [rettBusy, free] using room
    have lane : ∀ l ∈ s.iss.lanes, rettLane (noteIssue s) l =
        .goto { leaveTrap ((noteIssue s).lane l) with parkq := reissued (noteIssue s) l } := by
      intro l hl
      obtain ⟨d, hd⟩ := noteIssue_thread_lane s l
      have same : ((noteIssue s).lane l).tpc = (s.lane l).tpc := by rw [noteIssue_lane, hd]
      simp only [rettLane, same, targetCond_of_legal (legal l hl)]
    obtain ⟨lanes, others, rest⟩ := foldl_laneStep (u := noteIssue s) (f := rettLane (noteIssue s)) (noteIssue_iss s) formed.nodup
      fun l hl => by rw [lane l hl]; rfl
    refine ⟨_, _, reissued (noteIssue s), issue_body formed.1 (preCond_none_of_early early allowed) ready clean _,
      ⟨fun l hl => ?_, others, rest⟩, ?_, fun l hl => ?_⟩
    · rw [lanes l hl, lane l hl, ← noteIssue_lane]
      rfl
    · simp only [rettBody, noteIssue_iss, noteIssue_nextOp]
    · obtain ⟨d, hd⟩ := noteIssue_thread_lane s l
      have same : (noteIssue s).lane l = { s.lane l with deliver := d } := by rw [noteIssue_lane, hd]
      refine ⟨by rw [reissued_toReOp, same], fun p hp => ?_⟩
      have := mem_reissued hp
      rwa [same, noteIssue_nextOp] at this
  · obtain ⟨formed, allowed, free, clean⟩ := hi
    exact issue_stall formed.1 (preCond_none_of_early (if_pos handler) allowed) (by simpa [rettBusy, free] using full) _
  · refine issue_trap lanes ?_ _ _
    simp [preCond, rettCond, user]

end Sys2Proof.Machine
end

section
/-!
WAITCNT (R270, R287).
-/
namespace Sys2Proof.Machine
open Sys2Proof

/-! ## The failure that is issued first (R287) -/

/-- The better of the failures seen so far and one more. -/
def earlier (m : Option Failure) (f : Failure) : Option Failure :=
  match m with
  | none => some f
  | some g => if f.op < g.op then some f else some g

theorem firstFailure_eq (fs : List Failure) : firstFailure fs = fs.foldl earlier none := rfl

/-- A failure that is issued before each other one stays the first. -/
theorem foldl_earlier_first {f : Failure} : ∀ {fs : List Failure}, (∀ g ∈ fs, g = f ∨ f.op < g.op) →
    fs.foldl earlier (some f) = some f
  | [], _ => rfl
  | g :: gs, h => by
    have stay : earlier (some f) g = some f := by
      rcases h g (by simp) with rfl | lt
      · simp [earlier]
      · simp only [earlier, if_neg (by omega : ¬ g.op < f.op)]
    rw [List.foldl_cons, stay]
    exact foldl_earlier_first fun k hk => h k (by simp [hk])

theorem foldl_earlier {f : Failure} : ∀ {fs : List Failure}, (∀ g ∈ fs, g = f ∨ f.op < g.op) → f ∈ fs →
    ∀ m : Option Failure, (∀ g ∈ m, g = f ∨ f.op < g.op) → fs.foldl earlier m = some f
  | g :: gs, h, hf, m, hm => by
    have hgs : ∀ k ∈ gs, k = f ∨ f.op < k.op := fun k hk => h k (by simp [hk])
    rw [List.foldl_cons]
    by_cases hg : g = f
    · subst hg
      have won : earlier m g = some g := by
        cases m with
        | none => rfl
        | some k =>
          rcases hm k rfl with rfl | lt
          · simp [earlier]
          · simp [earlier, lt]
      rw [won]
      exact foldl_earlier_first hgs
    · refine foldl_earlier hgs ((List.mem_cons.mp hf).resolve_left (Ne.symm hg)) _ fun k hk => ?_
      have : k = g ∨ m = some k := by
        cases m with
        | none => cases hk; exact .inl rfl
        | some j => simp only [earlier, Option.mem_def] at hk; split at hk <;> cases hk <;> simp
      rcases this with rfl | eq
      · exact h k (by simp)
      · exact hm k eq

theorem firstFailure_of_first {fs : List Failure} {f : Failure} (hf : f ∈ fs) (first : ∀ g ∈ fs.erase f, f.op < g.op) :
    firstFailure fs = some f := by
  refine foldl_earlier (fun g hg => ?_) hf none (fun _ h => nomatch h)
  by_cases eq : g = f
  · exact .inl eq
  · exact .inr (first g ((List.mem_erase_of_ne eq).mpr hg))

/-! ## The wait (R287) -/

/-- Whether a WAITCNT of these immediates waits. -/
def waitcntBusy (ld st cp mx : Nat) (s : State) : Bool :=
  issueBusy s [] [] ||
    !(decide (s.wft.ld.length ≤ ld) && decide (s.wft.st.length ≤ st) && decide (s.wft.cp.length ≤ cp) &&
      decide (s.wft.mx.length ≤ mx))

/-- What a WAITCNT that goes on leaves. -/
def waitcntBody (cp mx : Nat) (s : State) : State :=
  match firstFailure (s.wft.failures.filter (observes s.wft cp mx)) with
  | none => advanceAll s
  | some f => trapAll (s.setWeft s.iss.blk s.iss.weft { s.wft with failures := s.wft.failures.erase f }) f.cond

theorem exec_waitcnt (ld st : BitVec 6) (cp : BitVec 5) (mx : BitVec 4) (s : State) :
    exec (.waitcnt ld st cp mx) s = issue { permitted := fun k => k.permits .sync, regs := [] }
      (waitcntBusy ld.toNat st.toNat cp.toNat mx.toNat) (waitcntBody cp.toNat mx.toNat) s := rfl

/-- The weft at issue keeps all but its starvation counters and the stream that issued last. -/
theorem noteIssue_wft (s : State) :
    ∃ i j k, (noteIssue s).wft = { s.wft with sbUser := i, sbHandler := j, lastHandler := k } := by
  rw [State.wft, noteIssue_iss]
  exact noteIssue_weft s s.iss.blk s.iss.weft

/-- The record of an issue leaves the failures, and what is observed of them. -/
theorem noteIssue_observed (s : State) (cp mx : Nat) :
    (noteIssue s).wft.failures = s.wft.failures ∧ observes (noteIssue s).wft cp mx = observes s.wft cp mx := by
  obtain ⟨i, j, k, eq⟩ := noteIssue_wft s
  rw [eq]
  exact ⟨rfl, rfl⟩

/-- Settles O38: the issue goes on, traps for the first failure, or stalls. -/
theorem counterWaits : Obligations.CounterWaits := by
  intro s ld st cp mx met seen hi
  obtain ⟨formed, allowed, free, clean⟩ := hi
  obtain ⟨failures, observed⟩ := noteIssue_observed s cp.toNat mx.toNat
  have goes : met → exec (.waitcnt ld st cp mx) s = .next (waitcntBody cp.toNat mx.toNat (noteIssue s)) := by
    intro ⟨hl, hs, hc, hm⟩
    rw [exec_waitcnt]
    exact issue_body formed.1 (preCond_none allowed) (by simp [waitcntBusy, free, hl, hs, hc, hm]) clean _
  refine ⟨fun hm none => ⟨_, goes hm, ?_⟩, fun f hf first hm => ?_, fun unmet => ?_⟩
  · have : waitcntBody cp.toNat mx.toNat (noteIssue s) = advanceAll (noteIssue s) := by
      rw [waitcntBody, failures, observed, show s.wft.failures.filter (observes s.wft cp.toNat mx.toNat) = [] from none]
      rfl
    rw [this]
    exact lanesDo_advanceAll formed.nodup
  · rw [goes hm, waitcntBody, failures, observed, firstFailure_of_first hf first, noteIssue_iss]
  · rw [exec_waitcnt]
    refine issue_stall formed.1 (preCond_none allowed) ?_ _
    rw [waitcntBusy, free, Bool.false_or, Bool.not_eq_true', Bool.eq_false_iff]
    intro all
    simp only [Bool.and_eq_true, decide_eq_true_eq, and_assoc] at all
    exact unmet all

end Sys2Proof.Machine
end

section
/-!
The lanes of an issue set advanced after a change of other fields; and WRED (R447 to R449).
-/
namespace Sys2Proof.Machine
open Sys2Proof

/-! ## Lanes that go on after a change of other fields (R22) -/

theorem advanceAll_threadsOnly (u : State) : ThreadsOnly u (advanceAll u) := by
  rw [advanceAll_eq u u rfl]
  exact setLanes_threadsOnly ..

/-- The lanes go on in a state in which the issue is recorded, whatever else has changed. -/
theorem lanesPast_advanceAll {s u : State} (formed : FormedSet s) (iss : u.iss = s.iss)
    (threads : u.threads = (noteIssue s).threads) : LanesPast s (advanceAll u) := by
  obtain ⟨lanes, others, -⟩ := advanceAll_spec iss formed.nodup
  refine ⟨fun l hl => (lanes l hl).trans ?_, fun k hk => (others k hk).trans (by rw [threads])⟩
  rw [State.thread, State.thread, threads]

/-! ## WRED (R447 to R449) -/

/-- Whether a WRED waits (R448). -/
def wredWaits (rs : List Regs) (g : Nat) (s : State) : Bool :=
  issueBusy s rs [] || wredBusy s ||
    match readGroup s (s.block s.iss.blk).gid g with
    | .wait => true
    | _ => false

/-- A block that has taken part in a race or a round (R413). -/
def markRaced (s : State) (b : Nat) : State := s.setBlock b { s.block b with raced := true }

/-- The member's contribution enters its round. -/
def wredJoin (d a : VReg) (op : RedOp) (ty : RedType) (g b gid : Nat) (x : Group) (s : State) : State :=
  let rank := (s.block b).lin - x.first
  let u := markRaced s b
  let q := joinRound u (domOf (u.block b).core) gid g rank op ty (contribution s op ty a.toNat) x
  advanceAll (addOp q.1 (wredOp q.1 d.toNat ty g q.2 rank))

/-- What a WRED that issues does. -/
def wredBody (d a : VReg) (op : RedOp) (ty : RedType) (g : Nat) (s : State) : State :=
  let b := s.iss.blk
  let gid := (s.block b).gid
  match readGroup s gid g with
  | .wait => s
  | .fault _ s => s
  | .ok (.error c, s) => raiseAll s c
  | .ok (.ok x, s) =>
    match memberCond s b s.iss.weft g x with
    | some c => raiseAll s c
    | none => wredJoin d a op ty g b gid x s

theorem exec_wred (d a : VReg) (op : RedOp) (ty : RedType) (g : BitVec 4) (s : State) :
    let n := if ty = .f64 then 2 else 1
    exec (.wred d a op ty g) s =
      issue { permitted := fun k => k.permits .sync, regs := [(d.toNat, n), (a.toNat, n)], early := handlerIllegal s }
        (wredWaits [(d.toNat, n), (a.toNat, n)] g.toNat) (wredBody d a op ty g.toNat) s := rfl

/-- A group that the launch has read and found lawful is found again. -/
theorem readGroup_known {s : State} {gid n : Nat} {x : Group} (h : Sp.find? (s.grid gid).groups n = some x) (ok : x.breach = none) :
    readGroup s gid n = .ok (.ok x, s) := by
  simp only [readGroup, h, ok]

theorem noteIssue_memberCond (s : State) (b w n : Nat) (x : Group) : memberCond (noteIssue s) b w n x = memberCond s b w n x := by
  simp only [memberCond, noteIssue_grid, noteIssue_block_gid, noteIssue_block_lin, noteIssue_block_stage]

theorem noteIssue_contribution (s : State) (op : RedOp) (ty : RedType) (a : Nat) :
    contribution (noteIssue s) op ty a = contribution s op ty a := by
  simp only [contribution, noteIssue_iss, redOperand, noteIssue_lane_pair, noteIssue_lane_reg]
  rfl

/-- The round that a contribution joins, with the contribution. -/
def joinedRound (s : State) (gid n rank : Nat) (op : RedOp) (ty : RedType) (v : FRes) (x : Group) : Round :=
  let tree := Sp.find? (s.grid gid).trees n
  let fresh : Round := { op := op.code, ty := ty.code, tree := tree, lost := (tree.map (treeDown s)).getD false }
  let rd := (Sp.find? x.rounds (Sp.get 0 x.next rank)).getD fresh
  { rd with
    mismatch := rd.mismatch || rd.op != op.code || rd.ty != ty.code
    parts := Sp.put rd.parts rank (v.bits, v.flags), onWay := rd.onWay ++ [rank] }

/-- The group with the round that a contribution has joined. -/
def joinedGroup (s : State) (gid n rank : Nat) (op : RedOp) (ty : RedType) (v : FRes) (x : Group) : Group :=
  let r := Sp.get 0 x.next rank
  { x with next := Sp.put x.next rank (r + 1), rounds := Sp.put x.rounds r (joinedRound s gid n rank op ty v x) }

theorem joinRound_eq (s : State) (d gid n rank : Nat) (op : RedOp) (ty : RedType) (v : FRes) (x : Group) :
    joinRound s d gid n rank op ty v x =
      (sendPart (s.setGrid gid { s.grid gid with
          groups := Sp.put (s.grid gid).groups n (joinedGroup s gid n rank op ty v x) }) (s.grid gid).vi d gid n
        (Sp.get 0 x.next rank) rank, Sp.get 0 x.next rank) := rfl

/-- The contribution stands in the group's round. -/
theorem joinRound_group (s : State) (d gid n rank : Nat) (op : RedOp) (ty : RedType) (v : FRes) (x : Group) :
    Sp.find? ((joinRound s d gid n rank op ty v x).1.grid gid).groups n = some (joinedGroup s gid n rank op ty v x) := by
  have grid : (joinRound s d gid n rank op ty v x).1.grid gid =
      { s.grid gid with groups := Sp.put (s.grid gid).groups n (joinedGroup s gid n rank op ty v x) } :=
    State.grid_setGrid_same ..
  rw [grid]
  exact Sp.find_put_same ..

/-- Settles O41: the group has been read, so the member's contribution joins its round. -/
theorem collectiveContribution : Obligations.CollectiveContribution := by
  intro s d a op ty g x n gid rank v rs hi user free member found lawful
  obtain ⟨formed, allowed, ready, clean⟩ := hi
  have waits : wredWaits rs g.toNat s = false := by
    rw [wredWaits, ready, free, readGroup_known found lawful]
    rfl
  have body : wredBody d a op ty g.toNat (noteIssue s) = wredJoin d a op ty g.toNat s.iss.blk gid x (noteIssue s) := by
    have found' : Sp.find? ((noteIssue s).grid gid).groups g.toNat = some x := by rwa [noteIssue_grid]
    rw [← noteIssue_memberCond] at member
    simp only [wredBody, noteIssue_iss, noteIssue_block_gid]
    rw [show (s.block s.iss.blk).gid = gid from rfl, readGroup_known found' lawful]
    simp only [noteIssue_iss, member]
  have goes : exec (.wred d a op ty g) s = .next (wredJoin d a op ty g.toNat s.iss.blk gid x (noteIssue s)) := by
    rw [exec_wred, ← body]
    exact issue_body formed.1 (preCond_none_of_early (if_neg (by simp [user])) allowed) waits clean _
  refine ⟨_, joinedGroup (markRaced (noteIssue s) s.iss.blk) gid g.toNat rank op ty v x,
    joinedRound (markRaced (noteIssue s) s.iss.blk) gid g.toNat rank op ty v x, goes, ?_, ?_, ?_, rfl, ?_, ?_, ?_⟩
  · exact lanesPast_advanceAll formed (noteIssue_iss s) rfl
  · rw [wredJoin, (advanceAll_threadsOnly _).field (fun t => (t.block s.iss.blk).raced) fun _ => rfl]
    exact congrArg Block.raced (State.block_setBlock_same ..)
  · rw [wredJoin, (advanceAll_threadsOnly _).field (fun t => Sp.find? (t.grid gid).groups g.toNat) fun _ => rfl]
    simp only [noteIssue_block_lin, noteIssue_contribution]
    exact joinRound_group (markRaced (noteIssue s) s.iss.blk) (domOf ((markRaced (noteIssue s) s.iss.blk).block s.iss.blk).core)
      gid g.toNat rank op ty v x
  · exact Sp.find_put_same ..
  · exact Sp.find_put_same ..
  · rw [wredJoin, (advanceAll_threadsOnly _).field (fun t => t.op? s.nextOp) fun _ => rfl, State.op_addOp,
      if_pos (by rw [joinRound_eq]; exact (noteIssue_nextOp s).symm)]
    simp only [noteIssue_block_lin, joinRound_eq]
    have size : (if ty = .f64 then 8 else 4) = 4 * n := by simp only [n]; split <;> rfl
    simp only [wredOp, issuedOp, Option.map_some, size]
    rfl

end Sys2Proof.Machine
end

section
/-!
MXPUSH, MXFENCE and MXQUERY (R306 to R309).
-/
namespace Sys2Proof.Machine
open Sys2Proof

/-! ## What the record of an issue leaves (R143, R144) -/

@[simp] theorem noteIssue_array (s : State) (core part : Nat) : (noteIssue s).array core part = s.array core part := by
  simp only [State.array, noteIssue_core]

@[simp] theorem noteIssue_wft_part (s : State) : (noteIssue s).wft.part = s.wft.part := by
  obtain ⟨i, j, k, eq⟩ := noteIssue_wft s; rw [eq]
@[simp] theorem noteIssue_wft_mx (s : State) : (noteIssue s).wft.mx = s.wft.mx := by
  obtain ⟨i, j, k, eq⟩ := noteIssue_wft s; rw [eq]
@[simp] theorem noteIssue_wft_mxSeq (s : State) : (noteIssue s).wft.mxSeq = s.wft.mxSeq := by
  obtain ⟨i, j, k, eq⟩ := noteIssue_wft s; rw [eq]
@[simp] theorem noteIssue_wft_mxFailed (s : State) : (noteIssue s).wft.mxFailed = s.wft.mxFailed := by
  obtain ⟨i, j, k, eq⟩ := noteIssue_wft s; rw [eq]
@[simp] theorem noteIssue_block_spmBad (s : State) (b : Nat) : ((noteIssue s).block b).spmBad = (s.block b).spmBad := by
  obtain ⟨n, eq⟩ := noteIssue_block s b; rw [eq]

theorem noteIssue_pushed (s : State) (off : Nat) : pushed (noteIssue s) off = pushed s off := by
  simp only [pushed, noteIssue_iss, noteIssue_nextOp, noteIssue_wft_mxSeq, noteIssue_block_spm]

theorem noteIssue_mxCond (s : State) (c : MxCmd) (a : MxArray) : mxCond (noteIssue s) c a = mxCond s c a := by
  simp only [mxCond, noteIssue_launch, noteIssue_block_spmBad, noteIssue_block_bar]

/-! ## What the advance of the lanes leaves (R22) -/

@[simp] theorem advanceAll_wft (u : State) : (advanceAll u).wft = u.wft := (advanceAll_threadsOnly u).field State.wft fun _ => rfl
@[simp] theorem advanceAll_weft (u : State) (b w : Nat) : (advanceAll u).weft b w = u.weft b w :=
  (advanceAll_threadsOnly u).field (fun t => t.weft b w) fun _ => rfl
@[simp] theorem advanceAll_block (u : State) (b : Nat) : (advanceAll u).block b = u.block b :=
  (advanceAll_threadsOnly u).field (fun t => t.block b) fun _ => rfl
@[simp] theorem advanceAll_core (u : State) (c : Nat) : (advanceAll u).core c = u.core c :=
  (advanceAll_threadsOnly u).field (fun t => t.core c) fun _ => rfl
@[simp] theorem advanceAll_array (u : State) (c p : Nat) : (advanceAll u).array c p = u.array c p :=
  (advanceAll_threadsOnly u).field (fun t => t.array c p) fun _ => rfl
@[simp] theorem advanceAll_mem (u : State) : (advanceAll u).mem = u.mem := (advanceAll_threadsOnly u).field State.mem fun _ => rfl
@[simp] theorem advanceAll_iss (u : State) : (advanceAll u).iss = u.iss := (advanceAll_threadsOnly u).field State.iss fun _ => rfl

/-! ## MXPUSH (R306, R307) -/

/-- Whether an MXPUSH waits. -/
def mxpushBusy (core k : Nat) (s : State) : Bool :=
  issueBusy s [] [(k, 1)] || lanesPending s || !s.wft.room .mx 1 || decide (32 ≤ (s.array core s.wft.part).queue.length)

/-- The array with a command queued, and the view that a LOADW gives its slot (R294). -/
def MxArray.push (a : MxArray) (c : MxCmd) : MxArray :=
  { a with queue := a.queue ++ [c], views := if c.f 0 1 = 1 then Sp.put a.views c.slot c.view else a.views }

/-- The state with a lawful command queued and counted, and its array noted in the block (R285, R307). -/
def pushCmd (s : State) (core : Nat) (c : MxCmd) : State :=
  let w := s.wft
  let u := s.setArray core w.part ((s.array core w.part).push c)
  let v := u.setWeft s.iss.blk s.iss.weft { w with mx := w.mx ++ [{ op := u.nextOp }], mxSeq := w.mxSeq + 1 }
  let x := v.setBlock s.iss.blk { v.block s.iss.blk with pushed := (v.block s.iss.blk).pushed ||| 1 <<< w.part }
  { x with nextOp := x.nextOp + 1 }

/-- What an MXPUSH that issues does. -/
def mxpushBody (core k : Nat) (s : State) : State :=
  let c := pushed s (s.wft.kreg k).toNat
  match mxCond s c (s.array core s.wft.part) with
  | some e => raiseAll s e
  | none => advanceAll (pushCmd s core c)

theorem exec_mxpush (ka : KReg) (s : State) :
    exec (.mxpush ka) s = issue { permitted := matrixRole, regs := [] } (mxpushBusy (s.block s.iss.blk).core ka.toNat)
      (mxpushBody (s.block s.iss.blk).core ka.toNat) s := rfl

theorem exec_mxpush_body {ka : KReg} {s : State} (hi : IssuesAs matrixRole [] [(ka.toNat, 1)] s)
    (settled : lanesPending s = false) (room : s.wft.room .mx 1 = true)
    (short : (s.array (s.block s.iss.blk).core s.wft.part).queue.length < 32) :
    exec (.mxpush ka) s = .next (mxpushBody (s.block s.iss.blk).core ka.toNat (noteIssue s)) := by
  obtain ⟨formed, allowed, free, clean⟩ := hi
  rw [exec_mxpush]
  exact issue_body formed.1 (preCond_none allowed) (by simp [mxpushBusy, free, settled, room, short]) clean _

/-- The command stands at the end of its array's queue. -/
theorem pushCmd_array (s : State) (core : Nat) (c : MxCmd) :
    (pushCmd s core c).array core s.wft.part = (s.array core s.wft.part).push c := by
  have core' : (pushCmd s core c).core core =
      { s.core core with arrays := Sp.put (s.core core).arrays s.wft.part ((s.array core s.wft.part).push c) } :=
    State.core_setCore_same ..
  rw [State.array, core', Sp.get_put_same]

theorem pushCmd_wft (s : State) (core : Nat) (c : MxCmd) : (pushCmd s core c).wft =
    { s.wft with mx := s.wft.mx ++ [{ op := s.nextOp }], mxSeq := s.wft.mxSeq + 1 } :=
  State.weft_setWeft_same ..

theorem pushCmd_spm (s : State) (core : Nat) (c : MxCmd) (k : Nat) : ((pushCmd s core c).block k).spm = (s.block k).spm := by
  have block : (pushCmd s core c).block k = if k = s.iss.blk then
      { s.block s.iss.blk with pushed := (s.block s.iss.blk).pushed ||| 1 <<< s.wft.part } else s.block k :=
    State.block_setBlock ..
  rw [block]
  split
  · next h => rw [h]
  · rfl

theorem mxpush_queues {s : State} {ka : KReg} (hi : IssuesAs matrixRole [] [(ka.toNat, 1)] s) (settled : lanesPending s = false)
    (room : s.wft.room .mx 1 = true) (short : (s.array (s.block s.iss.blk).core s.wft.part).queue.length < 32)
    (lawful : mxCond s (pushed s (s.wft.kreg ka.toNat).toNat) (s.array (s.block s.iss.blk).core s.wft.part) = none) :
    exec (.mxpush ka) s = .next (advanceAll (pushCmd (noteIssue s) (s.block s.iss.blk).core
      (pushed s (s.wft.kreg ka.toNat).toNat))) := by
  rw [exec_mxpush_body hi settled room short, mxpushBody]
  simp only [noteIssue_wft_kreg, noteIssue_pushed, noteIssue_wft_part, noteIssue_array, noteIssue_mxCond, lawful]

/-! ## MXQUERY (R309) -/

/-- The weft at issue with its failure bit clear. -/
def unfailed (s : State) : State := s.setWeft s.iss.blk s.iss.weft { s.wft with mxFailed := false }

/-- What an MXQUERY that issues does. -/
def mxqueryBody (d : VReg) (s : State) : State :=
  let x := BitVec.ofNat 32 (mxQueryWord (s.array (s.block s.iss.blk).core s.wft.part) s.wft.mxFailed)
  (unfailed s).iss.lanes.foldl (laneStep fun l => .next (((unfailed s).lane l).setReg d.toNat x)) (unfailed s)

theorem exec_mxquery (d : VReg) (s : State) :
    exec (.mxquery d) s = issue { permitted := matrixRole, regs := [one d] } (fun s => issueBusy s [one d] [])
      (mxqueryBody d) s := rfl

theorem exec_mxfence (s : State) :
    exec .mxfence s = issue { permitted := matrixRole, regs := [] } (fun s => issueBusy s [] [])
      (fun s => holdLanes s (waitOp s (.mxfence s.wft.part))) s := rfl

/-- Settles O36. -/
theorem matrixInstructionResults : Obligations.MatrixInstructionResults := by
  intro s ka d core part a c role
  refine ⟨fun hi settled room short lawful => ?push, fun hi => ?fence, fun hi => ?query⟩
  case push =>
    refine ⟨_, mxpush_queues hi settled room short lawful, lanesPast_advanceAll hi.1 (noteIssue_iss s) rfl, ?_, ?_, ?_, ?_, ?_⟩
    · rw [advanceAll_array]
      have queued := pushCmd_array (noteIssue s) core c
      rwa [noteIssue_wft_part, noteIssue_array] at queued
    · rw [advanceAll_wft, pushCmd_wft, noteIssue_wft_mx, noteIssue_nextOp]
    · rw [advanceAll_wft, pushCmd_wft, noteIssue_wft_mxSeq]
    · exact (advanceAll_mem _).trans (noteIssue_mem s)
    · intro k
      rw [advanceAll_block, pushCmd_spm, noteIssue_block_spm]
  case fence =>
    rw [exec_mxfence]
    obtain ⟨formed, allowed, free, clean⟩ := hi
    refine ⟨_, issue_body formed.1 (preCond_none allowed) free clean _, ?_⟩
    rw [noteIssue_wft_part, waitOp_noteIssue]
    exact leavesWait_holdLanes formed (.mxfence part)
  case query =>
    rw [exec_mxquery]
    obtain ⟨formed, allowed, free, clean⟩ := hi
    refine ⟨_, issue_body formed.1 (preCond_none allowed) free clean _, ?_⟩
    have same : mxqueryBody d (noteIssue s) = s.iss.lanes.foldl (laneStep fun l => .next (((unfailed (noteIssue s)).lane l).setReg
        d.toNat (BitVec.ofNat 32 (mxQueryWord a s.wft.mxFailed)))) (unfailed (noteIssue s)) := by
      simp only [mxqueryBody, unfailed, State.setWeft_iss, noteIssue_iss, noteIssue_block_core, noteIssue_wft_part,
        noteIssue_array, noteIssue_wft_mxFailed]
      rfl
    obtain ⟨lanes, others, rest⟩ := foldl_laneStep (s := s) (u := unfailed (noteIssue s)) (ls := s.iss.lanes)
      (f := fun l => .next (((unfailed (noteIssue s)).lane l).setReg d.toNat (BitVec.ofNat 32 (mxQueryWord a s.wft.mxFailed))))
      (noteIssue_iss s) formed.nodup fun _ _ => rfl
    rw [← same] at lanes others rest
    refine ⟨fun l hl => (lanes l hl).trans ?_, others, ?_⟩
    · rw [← noteIssue_lane]
      rfl
    · rw [unfailed, noteIssue_iss] at rest
      exact rest

end Sys2Proof.Machine
end

section
/-!
QBLK (R313, R314).
-/
namespace Sys2Proof.Machine
open Sys2Proof

/-! ## Writes of an allocation by an engine (R393) -/

/-- `v` holds what `u` holds in every field but the blocks, and in every block but `b`. -/
def BlockOnly (b : Nat) (u v : State) : Prop :=
  { v with blocks := [] } = { u with blocks := [] } ∧ ∀ c, c ≠ b → v.block c = u.block c

theorem BlockOnly.refl (b : Nat) (u : State) : BlockOnly b u u := ⟨Eq.refl _, fun _ _ => Eq.refl _⟩
theorem BlockOnly.trans {b : Nat} {u v w : State} (h : BlockOnly b u v) (h' : BlockOnly b v w) : BlockOnly b u w :=
  ⟨h'.1.trans h.1, fun c hc => (h'.2 c hc).trans (h.2 c hc)⟩

/-- Any other field is the same in both. -/
theorem BlockOnly.field {b : Nat} {u v : State} (h : BlockOnly b u v) {α : Sort*} (f : State → α)
    (hf : ∀ s : State, f { s with blocks := [] } = f s) : f v = f u := by
  rw [← hf v, ← hf u, h.1]

theorem setBlock_blockOnly (s : State) (b : Nat) (x : Block) : BlockOnly b s (s.setBlock b x) :=
  ⟨Eq.refl _, fun c hc => by rw [State.block_setBlock, if_neg hc]⟩

theorem spmWrite_blockOnly (s : State) (b off n x : Nat) : BlockOnly b s (spmWrite s b off n x) := setBlock_blockOnly ..

theorem noteSpm_blockOnly (s : State) (b off n : Nat) (array : Option Nat) : BlockOnly b s (noteSpm s b off n array) := by
  rcases noteSpm_eq s b off n array with h | ⟨was, h⟩
  · rw [h]; exact .refl b s
  · rw [h]; exact setBlock_blockOnly ..

theorem spmWrite_spm (s : State) (b off n x : Nat) : ((spmWrite s b off n x).block b).spm = (s.block b).spm.write off n x :=
  congrArg Block.spm (State.block_setBlock_same ..)

/-! ## Bytes one after another -/

/-- Bytes written at offsets of an allocation, from a place on. -/
def spmBytes (b off : Nat) (es : List (Nat × Nat)) (s : State) : State :=
  es.foldl (fun s e => spmWrite s b (off + e.1) 1 e.2) s

theorem spmBytes_blockOnly (b off : Nat) (es : List (Nat × Nat)) (s : State) : BlockOnly b s (spmBytes b off es s) :=
  foldl_rel (BlockOnly.refl b) BlockOnly.trans _ (fun u _ => spmWrite_blockOnly u b _ _ _) _ s

/-- Bytes written one after another, the first at offset `k`. -/
theorem spmBytes_byte (b off : Nat) (xs : List Nat) : ∀ (k : Nat) (s : State) (x : Nat),
    ((spmBytes b off ((List.range' k xs.length).zip xs) s).block b).spm.byte x =
      if off + k ≤ x ∧ x < off + k + xs.length then BitVec.ofNat 8 (xs.getD (x - (off + k)) 0) else (s.block b).spm.byte x := by
  induction xs with
  | nil => exact fun k s x => (if_neg (by simp only [List.length_nil]; omega)).symm
  | cons y ys ih =>
    intro k s x
    have step : spmBytes b off ((List.range' k (y :: ys).length).zip (y :: ys)) s =
        spmBytes b off ((List.range' (k + 1) ys.length).zip ys) (spmWrite s b (off + k) 1 y) := rfl
    rw [step, ih, spmWrite_spm, Memory.byte_write, List.length_cons]
    by_cases first : x = off + k
    · subst first
      rw [if_neg (by omega), if_pos (by omega), if_pos (by omega), Nat.sub_self, pow_zero, Nat.div_one, List.getD_cons_zero]
    · by_cases later : off + k < x ∧ x < off + k + (ys.length + 1)
      · rw [if_pos (by omega), if_pos (by omega), show x - (off + k) = x - (off + (k + 1)) + 1 by omega, List.getD_cons_succ]
      · rw [if_neg (by omega), if_neg (by omega), if_neg (by omega)]

/-! ## QBLK (R313, R314) -/

theorem qblk_length (e5 : Bool) (xs : List Nat) : (qblk e5 xs).1.length = xs.length := by
  unfold qblk
  split
  · exact List.length_map ..
  · simp only [List.length_map]

/-- The words of an allocation that a QBLK has written whole are poisoned no longer (R393). -/
def unpoison (s : State) (b off n : Nat) : State :=
  s.setBlock b { s.block b with
    spmBad := (s.block b).spmBad.filter fun x => !(decide (off ≤ 4 * x.1) && decide (4 * x.1 + 4 ≤ off + n)) }

/-- The bytes and the scale of a QBLK in their allocation. -/
def qblkWrite (s : State) (b ob oc : Nat) (r : List Nat × Nat × Nat) : State :=
  let u := noteSpm (noteSpm s b ob 128 none) b oc 4 none
  let v := spmBytes b ob ((List.range 128).zip r.1) u
  spmWrite (unpoison v b ob 128) b oc 4 r.2.1

/-- What a QBLK that issues does. -/
def qblkBody (ka kb kc : Nat) (f : BitVec 1) (s : State) : State :=
  let oa := (s.wft.kreg ka).toNat
  let ob := (s.wft.kreg kb).toNat
  let oc := (s.wft.kreg kc).toNat
  match qblkCond s oa ob oc with
  | some c => raiseAll s c
  | none =>
    match spmFailed (s.block s.iss.blk).spmBad oa 512 with
    | some r => raiseAll s { cause := .uncorrectable, reason := r, addr := oa, info := 0, sys := true }
    | none =>
      let r := qblk (f == 1) ((List.range 128).map fun i => (s.block s.iss.blk).spm.read (oa + 4 * i) 4)
      let u := qblkWrite s s.iss.blk ob oc r
      u.iss.lanes.foldl (laneStep fun l => .next ((u.lane l).raise r.2.2)) u

/-- Whether the roles permit QBLK (R152). -/
def qblkRole (k : RoleKind) : Bool := k == .general || k == .vector

theorem exec_qblk (ka kb kc : KReg) (f : BitVec 1) (s : State) :
    exec (.qblk ka kb kc f) s = issue { permitted := qblkRole, regs := [] }
      (fun s => issueBusy s [] [(ka.toNat, 1), (kb.toNat, 1), (kc.toNat, 1)] || lanesPending s)
      (qblkBody ka.toNat kb.toNat kc.toNat f) s := rfl

theorem exec_qblk_body {ka kb kc : KReg} {s : State}
    (hi : IssuesAs qblkRole [] [(ka.toNat, 1), (kb.toNat, 1), (kc.toNat, 1)] s) (settled : lanesPending s = false) (f : BitVec 1) :
    exec (.qblk ka kb kc f) s = .next (qblkBody ka.toNat kb.toNat kc.toNat f (noteIssue s)) := by
  obtain ⟨formed, allowed, free, clean⟩ := hi
  rw [exec_qblk]
  exact issue_body formed.1 (preCond_none allowed) (by simp [free, settled]) clean _

theorem noteIssue_block_other {s : State} {b : Nat} (h : b ≠ s.iss.blk) : (noteIssue s).block b = s.block b := by
  have block : (noteIssue s).block b = ((clearDeliver s).setBlock (clearDeliver s).iss.blk
      { (clearDeliver s).block (clearDeliver s).iss.blk with
        issues := ((clearDeliver s).block (clearDeliver s).iss.blk).issues + 1 }).block b := State.setWeft_block_home ..
  rw [block, State.block_setBlock, clearDeliver_iss, if_neg h, State.block, clearDeliver_blocks, State.block]

theorem noteIssue_qblkCond (s : State) (oa ob oc : Nat) : qblkCond (noteIssue s) oa ob oc = qblkCond s oa ob oc := by
  simp only [qblkCond, noteIssue_launch, noteIssue_iss]

section
variable (s : State) (b ob oc : Nat) {r : List Nat × Nat × Nat}

theorem qblkWrite_blockOnly : BlockOnly b s (qblkWrite s b ob oc r) := by
  have noted := (noteSpm_blockOnly s b ob 128 none).trans (noteSpm_blockOnly _ b oc 4 none)
  have bytes := noted.trans (spmBytes_blockOnly b ob ((List.range 128).zip r.1) _)
  exact (bytes.trans (setBlock_blockOnly ..)).trans (spmWrite_blockOnly ..)

theorem qblkWrite_byte (len : r.1.length = 128) (x : Nat) : ((qblkWrite s b ob oc r).block b).spm.byte x =
    if oc ≤ x ∧ x < oc + 4 then BitVec.ofNat 8 (r.2.1 / 256 ^ (x - oc))
    else if ob ≤ x ∧ x < ob + 128 then BitVec.ofNat 8 (r.1.getD (x - ob) 0)
    else (s.block b).spm.byte x := by
  have noted : ((noteSpm (noteSpm s b ob 128 none) b oc 4 none).block b).spm = (s.block b).spm :=
    (noteSpm_spec _ b oc 4 none).1.trans (noteSpm_spec s b ob 128 none).1
  have from0 : List.range 128 = List.range' 0 r.1.length := by rw [len, List.range_eq_range']
  have clean : ∀ u : State, ((unpoison u b ob 128).block b).spm = (u.block b).spm := fun u => by
    rw [unpoison, State.block_setBlock_same]
  rw [qblkWrite, spmWrite_spm, Memory.byte_write, clean, from0, spmBytes_byte, noted, len]
  simp only [Nat.add_zero]

end

/-- Settles O37. -/
theorem blockQuantisation : Obligations.BlockQuantisation := by
  intro s ka kb kc f oa ob oc m r hi settled lawful sound
  have formed := hi.1
  have len : r.1.length = 128 := by rw [qblk_length, List.length_map, List.length_range]
  obtain ⟨only, others⟩ := qblkWrite_blockOnly (noteIssue s) s.iss.blk ob oc (r := r)
  have iss : (qblkWrite (noteIssue s) s.iss.blk ob oc r).iss = s.iss :=
    ((qblkWrite_blockOnly ..).field State.iss fun _ => rfl).trans (noteIssue_iss s)
  have threads : (qblkWrite (noteIssue s) s.iss.blk ob oc r).threads = (noteIssue s).threads :=
    (qblkWrite_blockOnly ..).field State.threads fun _ => rfl
  have lane : ∀ l, (qblkWrite (noteIssue s) s.iss.blk ob oc r).lane l = (noteIssue s).thread s.iss.blk s.iss.weft l := fun l => by
    rw [State.lane, State.thread, threads, iss, State.thread]
  have body : qblkBody ka.toNat kb.toNat kc.toNat f (noteIssue s) = s.iss.lanes.foldl (laneStep fun l =>
      .next (((qblkWrite (noteIssue s) s.iss.blk ob oc r).lane l).raise r.2.2)) (qblkWrite (noteIssue s) s.iss.blk ob oc r) := by
    simp only [qblkBody, noteIssue_wft_kreg, noteIssue_iss, noteIssue_qblkCond, noteIssue_block_spmBad, noteIssue_block_spm]
    simp only [oa, ob, oc] at lawful sound
    simp only [lawful, sound]
    exact congrArg (fun i : Issue => i.lanes.foldl _ _) iss
  obtain ⟨lanes, rest, fields⟩ := foldl_laneStep (s := s) (u := qblkWrite (noteIssue s) s.iss.blk ob oc r) (ls := s.iss.lanes)
    (f := fun l => .next (((qblkWrite (noteIssue s) s.iss.blk ob oc r).lane l).raise r.2.2)) iss formed.nodup fun _ _ => rfl
  rw [← body] at lanes rest fields
  refine ⟨_, exec_qblk_body hi settled f, fun l hl => (lanes l hl).trans ?_, fun x => ?_, fun k hk => ?_, ?_, ?_, fun k hk => ?_⟩
  · rw [← lane l]
    rfl
  · rw [fields.field (fun t => t.block s.iss.blk) fun _ => rfl, qblkWrite_byte _ _ _ _ len, noteIssue_block_spm]
  · rw [fields.field (fun t => t.block k) fun _ => rfl, others k hk, noteIssue_block_other hk]
  · exact (fields.field State.mem fun _ => rfl).trans (((qblkWrite_blockOnly ..).field State.mem fun _ => rfl).trans (noteIssue_mem s))
  · exact (fields.field State.wefts fun _ => rfl).trans ((qblkWrite_blockOnly ..).field State.wefts fun _ => rfl)
  · rw [rest k hk, threads]

end Sys2Proof.Machine
end

section
/-!
The copies at issue: CPGS and CPSG, CPTL and CPTS, and CPPW (R273 to R283, R346).
-/
namespace Sys2Proof.Machine
open Sys2Proof

/-! ## The issue of a copy that finds its slot (R273) -/

theorem setCopyq_coresOnly (s : State) (core : Nat) (q : List CopyWait) :
    { setCopyq s core q with cores := [] } = { s with cores := [] } := by
  unfold setCopyq
  split <;> rfl

/-- Any field beside the cores is the same with another queue of waiting streams. -/
theorem setCopyq_field (s : State) (core : Nat) (q : List CopyWait) {α : Sort*} (f : State → α)
    (hf : ∀ s : State, f { s with cores := [] } = f s) : f (setCopyq s core q) = f s := by
  rw [← hf (setCopyq s core q), ← hf s, setCopyq_coresOnly]

section
variable (s : State) (core : Nat) (q : List CopyWait)

@[simp] theorem setCopyq_threads : (setCopyq s core q).threads = s.threads := setCopyq_field s core q State.threads fun _ => rfl
@[simp] theorem setCopyq_iss : (setCopyq s core q).iss = s.iss := setCopyq_field s core q State.iss fun _ => rfl
@[simp] theorem setCopyq_wft : (setCopyq s core q).wft = s.wft := setCopyq_field s core q State.wft fun _ => rfl
@[simp] theorem setCopyq_weft (b w : Nat) : (setCopyq s core q).weft b w = s.weft b w :=
  setCopyq_field s core q (fun t => t.weft b w) fun _ => rfl
@[simp] theorem setCopyq_thread (b w l : Nat) : (setCopyq s core q).thread b w l = s.thread b w l :=
  setCopyq_field s core q (fun t => t.thread b w l) fun _ => rfl
@[simp] theorem setCopyq_block (b : Nat) : (setCopyq s core q).block b = s.block b :=
  setCopyq_field s core q (fun t => t.block b) fun _ => rfl

/-- A core keeps all but its waiting streams. -/
theorem setCopyq_core (c : Nat) : ∃ q', (setCopyq s core q).core c = { s.core c with copyq := q' } := by
  unfold setCopyq
  split
  · exact ⟨_, rfl⟩
  · rw [State.core_setCore]
    split
    · next same => exact ⟨q, by rw [same]⟩
    · exact ⟨_, rfl⟩

@[simp] theorem setCopyq_copy (c i : Nat) : (setCopyq s core q).copy? c i = s.copy? c i := by
  obtain ⟨q', eq⟩ := setCopyq_core s core q c
  rw [State.copy?, eq, State.copy?]

@[simp] theorem setCopyq_array (c p : Nat) : (setCopyq s core q).array c p = s.array c p := by
  obtain ⟨q', eq⟩ := setCopyq_core s core q c
  rw [State.array, eq, State.array]

end

/-- A copy instruction whose slot, counter and ownership are there does what it does. -/
theorem issueCopy_body {rs ks : List Regs} {s : State} (hi : IssuesAs copyRole rs ks s) {core : Nat} {busy wants : Bool}
    (ready : busy = false) (slot : slotFor s core = true) (room : s.wft.room .cp 1 = true) (has : wants = false)
    (body : State → State) :
    issueCopy rs core busy wants body s = .next (setCopyq (body (noteIssue s)) core (nextCopyq s core)) := by
  obtain ⟨formed, allowed, -, clean⟩ := hi
  subst ready has
  simp only [issueCopy, slot, room, Bool.not_true, Bool.or_self, Bool.false_and, Bool.false_eq_true, if_false]
  exact issue_body formed.1 (preCond_none allowed) rfl clean _

/-! ## A copy takes its slot (R273, R285) -/

/-- A copy under way has the number and the place that its start gives it. -/
theorem startCopy_copy (s : State) (slot : Nat) (c : Copy) :
    (startCopy s slot c).copy? (s.block c.blk).core slot =
      some { c with op := s.nextOp, seq := (s.weft c.blk c.weft).cpSeq } :=
  State.copy_setCopy_same ..

theorem startCopy_weft (s : State) (slot : Nat) (c : Copy) : (startCopy s slot c).weft c.blk c.weft =
    { s.weft c.blk c.weft with
      cp := (s.weft c.blk c.weft).cp ++ [{ op := s.nextOp }], cpSeq := (s.weft c.blk c.weft).cpSeq + 1 } :=
  State.weft_setWeft_same ..

theorem startCopy_threads (s : State) (slot : Nat) (c : Copy) : (startCopy s slot c).threads = s.threads := rfl
theorem startCopy_block (s : State) (slot : Nat) (c : Copy) (b : Nat) : (startCopy s slot c).block b = s.block b := rfl
theorem startCopy_iss (s : State) (slot : Nat) (c : Copy) : (startCopy s slot c).iss = s.iss := rfl

/-- What the start of a copy leaves, its lanes past the instruction: the copy `c` in its slot, counted, and no
scratchpad changed. -/
structure CopyStarted (s t : State) (core slot : Nat) (c : Copy) : Prop where
  past : LanesPast s t
  copy : t.copy? core slot = some c
  counted : t.wft.cp = s.wft.cp ++ [{ op := c.op }]
  spm : ∀ k, (t.block k).spm = (s.block k).spm

@[simp] theorem noteIssue_wft_cp (s : State) : (noteIssue s).wft.cp = s.wft.cp := by
  obtain ⟨i, j, k, eq⟩ := noteIssue_wft s; rw [eq]

/-- A state that has looked things up after the issue was recorded, its lanes past the instruction, starts a copy. -/
theorem startCopy_started {s u : State} {slot : Nat} {c : Copy} (past : LanesPast s u) (iss : u.iss = s.iss)
    (wefts : u.wefts = (noteIssue s).wefts) (blocks : u.blocks = (noteIssue s).blocks) (blk : c.blk = s.iss.blk)
    (weft : c.weft = s.iss.weft) (core : Nat) (q : List CopyWait) :
    ∃ op seq, CopyStarted s (setCopyq (startCopy u slot c) core q) (s.block s.iss.blk).core slot { c with op := op, seq := seq } := by
  have block : ∀ b, u.block b = (noteIssue s).block b := fun b => by rw [State.block, blocks, State.block]
  have wft : u.weft c.blk c.weft = (noteIssue s).wft := by
    rw [State.weft, wefts, blk, weft, State.wft, noteIssue_iss, State.weft]
  refine ⟨u.nextOp, (u.weft c.blk c.weft).cpSeq, ⟨?_, ?_, ?_, fun k => ?_⟩⟩
  · simp only [LanesPast, setCopyq_thread, setCopyq_threads]
    exact past
  · rw [setCopyq_copy, ← noteIssue_block_core, ← block, ← blk]
    exact startCopy_copy ..
  · have weft' := startCopy_weft u slot c
    rw [setCopyq_wft, State.wft, startCopy_iss, iss, ← blk, ← weft, weft', wft]
    simp only [noteIssue_wft_cp]
  · rw [setCopyq_block, startCopy_block, block, noteIssue_block_spm]

/-! ## The lanes of a per-lane copy (R275, R276) -/

/-- With no condition, every lane of the issue set has a piece. -/
theorem passing_ne_nil {store : Bool} : ∀ {q : List LaneCopy}, q ≠ [] → copyConds q = [] → (∀ x ∈ q, x.2 ≠ none) →
    passing store q ≠ []
  | (l, r) :: q, _, pass, done => by
    match r with
    | none => exact absurd rfl (done (l, none) (by simp))
    | some (.ok e) => simp [passing]
    | some (.error c) => simp [copyConds] at pass

theorem copyLanes_fst (store : Bool) (vs a : VReg) (n : Nat) (s : State) :
    (copyLanes store vs a n s).1.map (·.1) = s.iss.lanes := by
  have key : ∀ (ls : List Nat) (r : List LaneCopy × State),
      (ls.foldl (fun r l => let q := copyLane store vs a n r.2 l; (r.1 ++ [(l, q.1)], q.2)) r).1.map (·.1) =
        r.1.map (·.1) ++ ls := by
    intro ls
    induction ls with
    | nil => exact fun r => (List.append_nil _).symm
    | cons l ls ih =>
      intro r
      rw [List.foldl_cons, ih]
      simp
  exact key _ _

theorem noteIssue_copyBar (s : State) (b : BitVec 4) : copyBar (noteIssue s) b = copyBar s b := by
  simp only [copyBar, noteIssue_launch, noteIssue_iss]

theorem noteIssue_copyBarCond (s : State) (b : BitVec 4) : copyBarCond (noteIssue s) b = copyBarCond s b := by
  simp only [copyBarCond, noteIssue_copyBar, noteIssue_iss, noteIssue_block_bar]

/-- The copy that the lanes of an issue set begin. -/
def laneCopy (store : Bool) (b : BitVec 4) (es : List Elem) (s : State) : Copy :=
  { kind := if store then .store else .load, blk := s.iss.blk, weft := s.iss.weft, pc := s.iss.pc, bar := copyBar s b, pend := es }

/-- What a per-lane copy of which no lane meets a system fault leaves: the trapping lanes `traps` trapped, the lanes
`passed` past the instruction. -/
def laneCopyRun (store : Bool) (b : BitVec 4) (core slot : Nat) (es : List Elem) (traps : State → State) (passed : List Nat)
    (looked s s' : State) : State :=
  let s3 := traps ((owned store core slot es looked).withIssue s')
  let s4 := passed.foldl (laneStep fun l => .next (s3.lane l)) s3
  let c := laneCopy store b es s
  let s5 := startCopy s4 slot c
  if es.isEmpty then endCopy s5 core slot ((s5.copy? core slot).getD c) 0 else s5

/-- The traps of the lanes of a per-lane copy that fail their checks (R275). -/
def laneTraps (cs : List (Nat × Cond)) (done : Nat) (s : State) : State :=
  (cs.filter fun c => !c.2.sys).foldl (fun u c =>
    deliverTrap u u.iss.blk u.iss.weft c.1 c.2 (laneMask u.iss.lanes) done) s

/-- What a per-lane copy does at issue, with its checks `q` made. -/
def laneCopyBody (store : Bool) (b : BitVec 4) (q : List LaneCopy × State) (s s' : State) : State :=
  let cs := copyConds q.1
  let fails := cs.filter fun c => c.2.sys
  let core := (s.block s.iss.blk).core
  let passed := s.iss.lanes.filter fun l => !(cs.any fun c => c.1 == l)
  match copyBarCond s' b with
  | some c => trapAll s' c
  | none =>
    if !fails.isEmpty then
      systemFault (laneTraps cs 0 (q.2.withIssue s')) s.iss.blk s.iss.weft (fails.map fun c => (c.1, { c.2 with sys := false }))
        s.iss.deliver (laneMask (s.iss.lanes.filter fun l => !(cs.any fun c => c.1 == l && !c.2.sys))) 0 s.iss.pc true
    else laneCopyRun store b core ((freeSlot s core).getD 0) (passing store q.1) (laneTraps cs (laneMask passed)) passed q.2 s s'

/-- Whether a per-lane copy waits for its translations or for its lines. -/
def laneCopyWants (store : Bool) (vs a : VReg) (b : BitVec 4) (n : Nat) (s : State) : Bool :=
  let q := copyLanes store vs a n s
  let core := (s.block s.iss.blk).core
  (copyBarCond s b).isNone &&
    (missStall s (s.iss.lanes.map fun l => ((s.lane l).pair a.toNat).toNat) || q.1.any (·.2.isNone) ||
      (((copyConds q.1).filter fun c => c.2.sys).isEmpty &&
        !canOwn store core ((freeSlot s core).getD 0) (passing store q.1) q.2))

theorem copyLanesIssue_eq (store : Bool) (vs a : VReg) (b : BitVec 4) (n : Nat) (s : State) :
    copyLanesIssue store vs a b n s = issueCopy [one vs, two a] (s.block s.iss.blk).core
      (issueBusy s [one vs, two a] [] || lanesPending s) (laneCopyWants store vs a b n s)
      (laneCopyBody store b (copyLanes store vs a n s) s) s := rfl

/-- The lanes of a per-lane copy that none of them fails go on. -/
theorem laneCopyRun_lanes {s : State} (formed : FormedSet s) (store : Bool) (b : BitVec 4) (core slot : Nat) {es : List Elem}
    (some_ : es ≠ []) (looked : State) (q : List CopyWait) :
    ∃ op seq, CopyStarted s (setCopyq (laneCopyRun store b core slot es id s.iss.lanes looked s (noteIssue s)) core q)
      (s.block s.iss.blk).core slot { laneCopy store b es s with op := op, seq := seq } := by
  have run : laneCopyRun store b core slot es id s.iss.lanes looked s (noteIssue s) =
      startCopy (s.iss.lanes.foldl (laneStep fun l => .next (((owned store core slot es looked).withIssue (noteIssue s)).lane l))
        ((owned store core slot es looked).withIssue (noteIssue s))) slot (laneCopy store b es s) := by
    simp only [laneCopyRun, id_eq, List.isEmpty_iff, some_, if_false]
  rw [run]
  obtain ⟨lanes, others, rest⟩ := foldl_laneStep (s := s) (u := (owned store core slot es looked).withIssue (noteIssue s))
    (f := fun l => .next (((owned store core slot es looked).withIssue (noteIssue s)).lane l)) (noteIssue_iss s) formed.nodup
    fun _ _ => rfl
  refine startCopy_started ⟨fun l hl => (lanes l hl).trans ?_, others⟩ ((rest.field State.iss fun _ => rfl).trans (noteIssue_iss s))
    (rest.field State.wefts fun _ => rfl) (rest.field State.blocks fun _ => rfl) rfl rfl core q
  show (LaneRes.next ((noteIssue s).lane l)).thread s = _
  rw [noteIssue_lane]
  rfl

/-! ## Tile copies (R277 to R283) -/

/-- A piece before its page is found. -/
def Elem.unplaced (e : Elem) : Elem := { e with pa := none, nc := false, refused := false }

/-- A translation changes nothing of a piece but what it says of the page. -/
theorem tileTranslate_unplaced {core b : Nat} : ∀ {es : List Elem} {s u : State} {pend : List Elem},
    tileTranslate core b es s = (some pend, u) → pend.map Elem.unplaced = es.map Elem.unplaced
  | [], _, _, _, h => by cases h; rfl
  | e :: es, s, u, pend, h => by
    have rest : ∀ (x : Elem) (v : State), x.unplaced = e.unplaced →
        (Option.map (x :: ·) (tileTranslate core b es v).1, (tileTranslate core b es v).2) = (some pend, u) →
        pend.map Elem.unplaced = (e :: es).map Elem.unplaced := by
      intro x v same eq
      obtain ⟨first, -⟩ := Prod.mk.inj eq
      obtain ⟨pend', found, rfl⟩ := Option.map_eq_some_iff.mp first
      rw [List.map_cons, List.map_cons, same, tileTranslate_unplaced (pend := pend') (Prod.ext found rfl)]
    unfold tileTranslate at h
    split at h
    · exact rest e s rfl h
    · split at h
      · cases h
      · exact rest _ _ (by split <;> rfl) h

theorem unplaced_tileElem (t : Tile) (store : Bool) (start : List Int) (spm i : Nat) :
    (tileElem t store start spm i).unplaced = tileElem t store start spm i := rfl

@[simp] theorem noteIssue_wft_kBad (s : State) : (noteIssue s).wft.kBad = s.wft.kBad := by
  obtain ⟨i, j, k, eq⟩ := noteIssue_wft s; rw [eq]

theorem noteIssue_tileCond (s : State) (desc spm kc : Nat) : tileCond (noteIssue s) desc spm kc = tileCond s desc spm kc := by
  simp only [tileCond, noteIssue_iss, noteIssue_launch, noteIssue_block_spm, noteIssue_block_spmBad, badStart, noteIssue_wft_kBad]

/-- The operands of a tile copy, as its issue reads them. -/
structure TileArgs where
  store : Bool
  desc : Nat
  spm : Nat
  kc : Nat
  b : BitVec 4
  core : Nat
  t : Tile
  es : List Elem

/-- The operands that the registers of a tile copy name (R278). -/
def tileArgs (store : Bool) (ka kb kc : KReg) (b : BitVec 4) (s : State) : TileArgs :=
  let desc := (s.wft.kreg ka.toNat).toNat
  let spm := (s.wft.kreg kb.toNat).toNat
  let t := readTile (s.block s.iss.blk).spm desc
  let start := (List.range t.rank).map fun i => (s.wft.kreg (kc.toNat + i)).toInt
  { store := store, desc := desc, spm := spm, kc := kc.toNat, b := b, core := (s.block s.iss.blk).core, t := t
    es := (List.range (t.bytes / t.e)).map (tileElem t store start spm) }

/-- The pieces of a tile copy as its issue leaves them. -/
def TileArgs.pieces (x : TileArgs) (s : State) : Option (List Elem) × State :=
  if x.store then tileTranslate x.core s.iss.blk x.es s else (some x.es, s)

/-- The copy that a tile copy begins. -/
def tileCopy (x : TileArgs) (s : State) : Copy :=
  { kind := if x.store then .store else .load, tile := true, blk := s.iss.blk, weft := s.iss.weft,
    pc := s.iss.pc, bar := copyBar s x.b, policy := policyOf x.t.policy, pend := (x.pieces s).1.getD [] }

/-- What a tile copy does at issue. -/
def tileBody (x : TileArgs) (s s' : State) : State :=
  let slot := (freeSlot s x.core).getD 0
  match tileCond s' x.desc x.spm x.kc with
  | some c => raiseAll s' c
  | none =>
    match copyBarCond s' x.b with
    | some c => trapAll s' c
    | none =>
      startCopy (advanceAll ((owned x.store x.core slot ((x.pieces s).1.getD []) (x.pieces s).2).withIssue s')) slot (tileCopy x s)

/-- Whether a tile copy waits for its translations or for its lines. -/
def tileWants (x : TileArgs) (s : State) : Bool :=
  ((tileCond s x.desc x.spm x.kc).isNone && (copyBarCond s x.b).isNone) &&
    ((x.store && missStall s ((x.es.filter (·.live)).map (·.va))) || (x.pieces s).1.isNone ||
      !canOwn x.store x.core ((freeSlot s x.core).getD 0) ((x.pieces s).1.getD []) (x.pieces s).2)

theorem tileIssue_eq (store : Bool) (ka kb kc : KReg) (b : BitVec 4) (s : State) :
    tileIssue store ka kb kc b s = issueCopy [] (s.block s.iss.blk).core
      (issueBusy s [] [(ka.toNat, 1), (kb.toNat, 1),
        (kc.toNat, min (readTile (s.block s.iss.blk).spm (s.wft.kreg ka.toNat).toNat).rank 5)] || lanesPending s)
      (tileWants (tileArgs store ka kb kc b s) s) (tileBody (tileArgs store ka kb kc b s) s) s := rfl

/-- A tile copy that reads global memory never waits; one that writes it does not, once its pieces are found and own
their lines. -/
theorem tileWants_eq_false {x : TileArgs} {s : State} {slot : Nat} (free : freeSlot s x.core = some slot)
    (own : x.store = true → missStall s ((x.es.filter (·.live)).map (·.va)) = false ∧
      ∃ pend, (x.pieces s).1 = some pend ∧ canOwn true x.core slot pend (x.pieces s).2 = true) : tileWants x s = false := by
  cases store : x.store with
  | false => simp [tileWants, TileArgs.pieces, canOwn, store]
  | true =>
    obtain ⟨miss, pend, found, owns⟩ := own store
    simp [tileWants, store, miss, found, free, owns]

/-- A tile copy with a lawful descriptor whose pieces are found starts. -/
theorem tileBody_starts {s : State} (formed : FormedSet s) {x : TileArgs} (lawful : tileCond s x.desc x.spm x.kc = none)
    (bar : copyBarCond s x.b = none) {slot : Nat} (free : freeSlot s x.core = some slot) (core : Nat) (q : List CopyWait) :
    ∃ op seq, CopyStarted s (setCopyq (tileBody x s (noteIssue s)) core q) (s.block s.iss.blk).core slot
      { tileCopy x s with op := op, seq := seq } := by
  have body : tileBody x s (noteIssue s) = startCopy
      (advanceAll ((owned x.store x.core slot ((x.pieces s).1.getD []) (x.pieces s).2).withIssue (noteIssue s))) slot
      (tileCopy x s) := by
    simp only [tileBody, noteIssue_tileCond, lawful, noteIssue_copyBarCond, bar, free, Option.getD_some]
  rw [body]
  have threads := advanceAll_threadsOnly
    ((owned x.store x.core slot ((x.pieces s).1.getD []) (x.pieces s).2).withIssue (noteIssue s))
  exact startCopy_started
    (lanesPast_advanceAll formed (u := (owned _ _ _ _ _).withIssue (noteIssue s)) (noteIssue_iss s) rfl) ((threads.field State.iss fun _ => rfl).trans (noteIssue_iss s)) (threads.field State.wefts fun _ => rfl)
    (threads.field State.blocks fun _ => rfl) rfl rfl core q

/-! ## CPPW (R346) -/

/-- The copy that a CPPW of a plate page begins. -/
def pageCopy (ka kb : KReg) (b : BitVec 4) (page : Nat) (s : State) : Copy :=
  { kind := .stage page ((s.wft.kreg kb.toNat).toNat % 4096), blk := s.iss.blk, weft := s.iss.weft
    pc := s.iss.pc, bar := copyBar s b, addr := (s.wft.kpair ka.toNat).toNat }

/-- The frame that holds a page already is used once more (R346). -/
def touchPage (s : State) (core page : Nat) (u : State) : State :=
  match frameOf s core page with
  | some e => touchFrame u core e.1
  | none => u

/-- What a CPPW does at issue, with its page looked for. -/
def cppwBody (ka kb : KReg) (b : BitVec 4) (s s' : State) : State :=
  let core := (s.block s.iss.blk).core
  let q := cppwPage s core (s.wft.kpair ka.toNat)
  match q.1 with
  | none => s'
  | some (.error c) => raiseAll (q.2.withIssue s') c
  | some (.ok page) =>
    match copyBarCond s' b with
    | some c => trapAll (q.2.withIssue s') c
    | none => startCopy (advanceAll (touchPage s core page (q.2.withIssue s'))) ((freeSlot s core).getD 0) (pageCopy ka kb b page s)

theorem exec_cppw (ka kb : KReg) (b : BitVec 4) (s : State) :
    exec (.cppw ka kb b) s = issueCopy [] (s.block s.iss.blk).core (issueBusy s [] [(ka.toNat, 2), (kb.toNat, 1)])
      (missStall s [(s.wft.kpair ka.toNat).toNat] ||
        (cppwPage s (s.block s.iss.blk).core (s.wft.kpair ka.toNat)).1.isNone) (cppwBody ka kb b s) s := rfl

theorem touchPage_coresOnly (s : State) (core page : Nat) (u : State) :
    { touchPage s core page u with cores := [] } = { u with cores := [] } := by
  unfold touchPage
  split <;> rfl

theorem cppwBody_starts {s : State} (formed : FormedSet s) {ka kb : KReg} {b : BitVec 4} {page : Nat}
    (found : (cppwPage s (s.block s.iss.blk).core (s.wft.kpair ka.toNat)).1 = some (.ok page))
    (bar : copyBarCond s b = none) {slot : Nat} (free : freeSlot s (s.block s.iss.blk).core = some slot) (core : Nat)
    (q : List CopyWait) :
    ∃ op seq, CopyStarted s (setCopyq (cppwBody ka kb b s (noteIssue s)) core q) (s.block s.iss.blk).core slot
      { pageCopy ka kb b page s with op := op, seq := seq } := by
  let looked := (cppwPage s (s.block s.iss.blk).core (s.wft.kpair ka.toNat)).2.withIssue (noteIssue s)
  have body : cppwBody ka kb b s (noteIssue s) =
      startCopy (advanceAll (touchPage s (s.block s.iss.blk).core page looked)) slot (pageCopy ka kb b page s) := by
    simp only [cppwBody, found, noteIssue_copyBarCond, bar, free, Option.getD_some, looked]
  rw [body]
  have cores := touchPage_coresOnly s (s.block s.iss.blk).core page looked
  have threads := advanceAll_threadsOnly (touchPage s (s.block s.iss.blk).core page looked)
  have iss : (touchPage s (s.block s.iss.blk).core page looked).iss = s.iss := (congrArg State.iss cores :).trans (noteIssue_iss s)
  exact startCopy_started (lanesPast_advanceAll formed iss (congrArg State.threads cores :))
    ((threads.field State.iss fun _ => rfl).trans iss) ((threads.field State.wefts fun _ => rfl).trans (congrArg State.wefts cores :))
    ((threads.field State.blocks fun _ => rfl).trans (congrArg State.blocks cores :)) rfl rfl core q

/-! ## The three kinds of copy (R273 to R283, R346) -/

/-- A per-lane copy whose every lane passes starts. -/
theorem laneCopy_starts {store : Bool} {vs a : VReg} {b : BitVec 4} {n slot : Nat} {s : State}
    (hi : IssuesAs copyRole [one vs, two a] [] s) (settled : lanesPending s = false) (bar : copyBarCond s b = none)
    (pass : copyConds (copyLanes store vs a n s).1 = [])
    (miss : missStall s (s.iss.lanes.map fun l => ((s.lane l).pair a.toNat).toNat) = false)
    (done : ∀ x ∈ (copyLanes store vs a n s).1, x.2 ≠ none) (room : s.wft.room .cp 1 = true)
    (slots : slotFor s (s.block s.iss.blk).core = true) (free : freeSlot s (s.block s.iss.blk).core = some slot)
    (own : canOwn store (s.block s.iss.blk).core slot (passing store (copyLanes store vs a n s).1) (copyLanes store vs a n s).2 = true) :
    ∃ t op seq, copyLanesIssue store vs a b n s = .next t ∧ CopyStarted s t (s.block s.iss.blk).core slot
      { laneCopy store b (passing store (copyLanes store vs a n s).1) s with op := op, seq := seq } := by
  have formed := hi.1
  have wants : laneCopyWants store vs a b n s = false := by
    have found : (copyLanes store vs a n s).1.any (·.2.isNone) = false := by
      rw [List.any_eq_false]
      exact fun x hx none => done x hx (Option.isNone_iff_eq_none.mp none)
    simp only [laneCopyWants, miss, found, free, Option.getD_some, own, Bool.not_true, Bool.and_false, Bool.or_self]
  have body : laneCopyBody store b (copyLanes store vs a n s) s (noteIssue s) =
      laneCopyRun store b (s.block s.iss.blk).core slot (passing store (copyLanes store vs a n s).1) id s.iss.lanes
        (copyLanes store vs a n s).2 s (noteIssue s) := by
    have all : s.iss.lanes.filter (fun _ => true) = s.iss.lanes := List.filter_true ..
    simp only [laneCopyBody, noteIssue_copyBarCond, bar, pass, List.filter_nil, List.isEmpty_nil, Bool.not_true,
      Bool.false_eq_true, if_false, free, Option.getD_some, List.any_nil, Bool.not_false, all]
    rfl
  have some_ : passing store (copyLanes store vs a n s).1 ≠ [] := by
    refine passing_ne_nil (fun none => formed.1 ?_) pass done
    rw [← copyLanes_fst store vs a n s, none, List.map_nil]
  obtain ⟨op, seq, started⟩ := laneCopyRun_lanes formed store b (s.block s.iss.blk).core slot some_ (copyLanes store vs a n s).2
    (nextCopyq s (s.block s.iss.blk).core)
  have ready : (issueBusy s [one vs, two a] [] || lanesPending s) = false := by rw [hi.2.2.1, settled]; rfl
  refine ⟨_, op, seq, ?_, started⟩
  rw [copyLanesIssue_eq, ← body]
  exact issueCopy_body hi ready slots room wants _

/-- A tile copy with a lawful descriptor starts. -/
theorem tileCopy_starts {store : Bool} {ka kb kc : KReg} {b : BitVec 4} {slot : Nat} {s : State}
    (hi : IssuesAs copyRole [] [(ka.toNat, 1), (kb.toNat, 1),
      (kc.toNat, min (readTile (s.block s.iss.blk).spm (s.wft.kreg ka.toNat).toNat).rank 5)] s) (settled : lanesPending s = false)
    (lawful : tileCond s (s.wft.kreg ka.toNat).toNat (s.wft.kreg kb.toNat).toNat kc.toNat = none)
    (bar : copyBarCond s b = none) (room : s.wft.room .cp 1 = true)
    (slots : slotFor s (s.block s.iss.blk).core = true) (free : freeSlot s (s.block s.iss.blk).core = some slot)
    (wants : tileWants (tileArgs store ka kb kc b s) s = false) :
    ∃ t op seq, tileIssue store ka kb kc b s = .next t ∧ CopyStarted s t (s.block s.iss.blk).core slot
      { tileCopy (tileArgs store ka kb kc b s) s with op := op, seq := seq } := by
  obtain ⟨op, seq, started⟩ := tileBody_starts hi.1 (x := tileArgs store ka kb kc b s) lawful bar free (s.block s.iss.blk).core
    (nextCopyq s (s.block s.iss.blk).core)
  rw [tileIssue_eq]
  refine ⟨_, op, seq, issueCopy_body hi ?_ slots room wants _, started⟩
  rw [hi.2.2.1, settled]
  rfl

/-- Settles O35. -/
theorem copiesStart : Obligations.CopiesStart := by
  refine ⟨fun s vs a b z slot e he => ?lane, fun s ka kb kc b slot e he => ?tile, fun s ka kb b slot page => ?page⟩
  case lane =>
    intro q core hi settled bar pass miss done room slots free own
    have run : exec e.1 s = copyLanesIssue e.2.1 vs a b (CpSize.bytes z) s ∧ e.2.2 = if e.2.1 then .store else .load := by
      simp only [List.mem_cons, List.not_mem_nil, or_false] at he
      rcases he with rfl | rfl <;> exact ⟨rfl, rfl⟩
    obtain ⟨t, op, seq, next, started⟩ := laneCopy_starts hi settled bar pass miss done room slots free own
    exact ⟨t, _, run.1.trans next, started.past, started.copy, run.2.symm, rfl, rfl, rfl, rfl, rfl, rfl, started.counted, started.spm⟩
  case tile =>
    intro desc spm d start core es q hi settled lawful bar room slots free own
    have run : exec e.1 s = tileIssue e.2.1 ka kb kc b s ∧ e.2.2 = if e.2.1 then .store else .load := by
      simp only [List.mem_cons, List.not_mem_nil, or_false] at he
      rcases he with rfl | rfl <;> exact ⟨rfl, rfl⟩
    have pieces : (tileArgs e.2.1 ka kb kc b s).pieces s = if e.2.1 then q else (some es, s) := rfl
    have pend : (tileCopy (tileArgs e.2.1 ka kb kc b s) s).pend = (if e.2.1 then q else (some es, s)).1.getD [] := rfl
    have wants : tileWants (tileArgs e.2.1 ka kb kc b s) s = false := tileWants_eq_false free fun store => by
      obtain ⟨miss, pend, found, owns⟩ := own store
      rw [pieces, if_pos (show e.2.1 = true from store)]
      exact ⟨miss, pend, found, owns⟩
    obtain ⟨t, op, seq, next, started⟩ := tileCopy_starts (store := e.2.1) hi settled lawful bar room slots free wants
    refine ⟨t, _, run.1.trans next, started.past, started.copy, run.2.symm, rfl, rfl, rfl, rfl, rfl, fun load => ?_, fun store => ?_,
      started.counted, started.spm⟩
    · exact pend.trans (by rw [load]; rfl)
    · obtain ⟨-, ps, found, -⟩ := own store
      have placed : (tileCopy (tileArgs e.2.1 ka kb kc b s) s).pend = ps := by rw [pend, if_pos store, found]; rfl
      refine ⟨found.trans (congrArg some placed.symm), ?_⟩
      have elems := tileTranslate_unplaced (es := es) (Prod.ext found rfl : tileTranslate core s.iss.blk es s = (some ps, q.2))
      have kept : es.map Elem.unplaced = es := by simp only [es, List.map_map]; rfl
      exact (congrArg (List.map Elem.unplaced) placed).trans (elems.trans kept)
  case page =>
    intro core hi miss found bar room slots free
    obtain ⟨op, seq, started⟩ := cppwBody_starts hi.1 (kb := kb) found bar free core (nextCopyq s core)
    rw [exec_cppw]
    refine ⟨_, _, issueCopy_body hi hi.2.2.1 slots room ?_ _, started.past, started.copy, rfl, rfl, started.counted, started.spm⟩
    rw [miss, found]
    rfl

end Sys2Proof.Machine
end

section
/-!
The conditions of the copies, of MXPUSH and of QBLK (R275, R278, R282, R306, R313, R346).
-/
namespace Sys2Proof.Machine
open Sys2Proof

/-! ## What a translation changes (R212 to R219) -/

/-- `v` holds what `u` holds in every field but those that looking an address up may change: the caches and TLBs of
cores and domains, main DRAM, and the free values. -/
def LookOnly (u v : State) : Prop :=
  { v with domains := [], cores := [], mem := [], bad := [], free := 0 } =
    { u with domains := [], cores := [], mem := [], bad := [], free := 0 }

theorem LookOnly.refl (u : State) : LookOnly u u := Eq.refl _
theorem LookOnly.trans {u v w : State} (h : LookOnly u v) (h' : LookOnly v w) : LookOnly u w := Eq.trans h' h

/-- Any other field is the same in both. -/
theorem LookOnly.field {u v : State} (h : LookOnly u v) {α : Sort*} (f : State → α)
    (hf : ∀ s : State, f { s with domains := [], cores := [], mem := [], bad := [], free := 0 } = f s) : f v = f u := by
  rw [← hf v, ← hf u, h]

theorem DomainsOnly.look {u v : State} (h : DomainsOnly u v) : LookOnly u v :=
  h.field (α := State) (fun s => { s with domains := [], cores := [], mem := [], bad := [], free := 0 }) fun _ => rfl

theorem setDomain_lookOnly (s : State) (d : Nat) (x : Domain) : LookOnly s (s.setDomain d x) := Eq.refl _

theorem fillCore_lookOnly (s : State) (core : Nat) (t : TlbEnt) : LookOnly s (fillCore s core t) := Eq.refl _

theorem fillTlbs_lookOnly (s : State) (core : Nat) (t : TlbEnt) : LookOnly s (fillTlbs s core t) := by
  unfold fillTlbs
  exact (foldl_rel LookOnly.refl LookOnly.trans _ (fun u c => fillCore_lookOnly u c t) _ s).trans (setDomain_lookOnly _ _ _)

theorem noteDrop_lookOnly (s : State) (router : Option Nat) : LookOnly s (noteDrop s router) := by
  cases router <;> exact Eq.refl _

/-- What an attempt leaves, whether it goes ahead or waits, is `s` but for look-ups. -/
def Looked (s : State) (r : Try) : Prop := (∀ t, r = .ok t → LookOnly s t) ∧ ∀ t, r = .error t → LookOnly s t

theorem Looked.ok {s t : State} (h : LookOnly s t) : Looked s (.ok t) :=
  ⟨fun u hu => by cases hu; exact h, fun _ hu => (by cases hu)⟩
theorem Looked.error {s t : State} (h : LookOnly s t) : Looked s (.error t) :=
  ⟨fun _ hu => (by cases hu), fun u hu => by cases hu; exact h⟩

theorem Looked.bind {s : State} {r : Try} {f : State → Try} (h : Looked s r) (hf : ∀ t, Looked t (f t)) :
    Looked s (r >>= f) := by
  cases r with
  | error t => exact .error (h.2 t rfl)
  | ok t =>
    have first := h.1 t rfl
    exact ⟨fun u hu => first.trans ((hf t).1 u hu), fun u hu => first.trans ((hf t).2 u hu)⟩

theorem Looked.tried {s : State} {r : Try} (h : Looked s r) : LookOnly s (tried r) := by
  cases r with
  | error t => exact h.2 t rfl
  | ok t => exact h.1 t rfl

theorem l2Gate_looked (s : State) (d line : Nat) : Looked s (l2Gate s d line) := by
  unfold l2Gate
  split
  · exact .error (setDomain_lookOnly _ _ _)
  · exact .ok (.refl s)

theorem homeGate_looked (s : State) (line : Nat) : Looked s (homeGate s line) := by
  have gate : ∀ p : Bool, Looked s (if p then .error s else .ok s) := fun p => by
    cases p <;> [exact .ok (.refl s); exact .error (.refl s)]
  exact gate _

theorem homeReach_looked (s : State) (d line : Nat) : Looked s (homeReach s d line) :=
  .bind (.bind (l2Gate_looked s d line) fun t => l2Gate_looked t _ line) fun t => homeGate_looked t line

theorem homeBytes_lookOnly (s : State) (line : Nat) (data : Memory) (mask : Nat) (bad : Sp Nat) :
    LookOnly s (homeBytes s line data mask bad) := by
  unfold homeBytes
  dsimp only
  split
  · split <;> exact Eq.refl _
  · exact Eq.refl _

theorem orPte_looked (s : State) (d entry bits : Nat) : Looked s (orPte s d entry bits) := by
  unfold orPte
  split
  · exact .ok (.refl s)
  · exact .bind (homeReach_looked s d _) fun t =>
      .ok ((homeBytes_lookOnly t _ _ _ _).trans (dirWrite_domainsOnly _ _ _ _).look)

theorem domainWalk_lookOnly (s : State) (d vi asn va : Nat) : LookOnly s (domainWalk s d vi asn va).2 := by
  have leaves : ∀ w : Walked, LookOnly s (w.leaves s d) := by
    intro w
    have gate : LookOnly s (match w.held with | some (x, line) => tried (l2Gate s x line) | none => s) := by
      split <;> [exact (l2Gate_looked s _ _).tried; exact .refl s]
    have drop : ∀ u : State, LookOnly s u →
        LookOnly s (if w.drop.isSome then noteDrop (drawClasses u) w.drop else u) := by
      intro u hu
      split <;> [exact (hu.trans (Eq.refl _ : LookOnly u (drawClasses u))).trans (noteDrop_lookOnly _ _); exact hu]
    unfold Walked.leaves
    dsimp only
    split <;> [exact drop _ gate; exact (drop _ gate).trans (setDomain_lookOnly _ _ _)]
  unfold domainWalk
  split <;> [exact .refl s; exact leaves _]

theorem endWalk_lookOnly (s : State) (core vi asn va : Nat) (u : PageUse) (w : WalkRes) :
    LookOnly s (endWalk s core vi asn va u w).2 := by
  cases w with
  | fail c r => exact .refl s
  | ok entry t =>
    have pte := orPte_looked s (domOf core) entry (if mayDirty s vi asn va t u then 0x180 else 0x80)
    unfold endWalk
    dsimp only
    split
    · next h => exact pte.2 _ h
    · next h => exact (pte.1 _ h).trans (fillTlbs_lookOnly _ _ _)

/-- A translation is a look-up. -/
theorem translate_lookOnly (s : State) (core vi asn va : Nat) (u : PageUse) : LookOnly s (translate s core vi asn va u).2 := by
  have walk := domainWalk_lookOnly s (domOf core) vi asn va
  unfold translate
  split
  · exact .refl s
  · split
    · exact fillCore_lookOnly _ _ _
    · split
      · next h => rw [h] at walk; exact walk
      · next h => rw [h] at walk; exact walk.trans (endWalk_lookOnly _ _ _ _ _ _ _)

/-! ## Barriers (R282) -/

theorem copyBarCond_eq (s : State) (b : BitVec 4) :
    copyBarCond s b = if b.toNat < (s.launch s.iss.blk).nbar ∧ ((s.block s.iss.blk).bar b.toNat).init = false
      then some { cause := .barrier, info := b.toNat * 4096 } else none := by
  unfold copyBarCond copyBar
  by_cases named : b.toNat < (s.launch s.iss.blk).nbar
  · cases init : ((s.block s.iss.blk).bar b.toNat).init <;> simp [named, init, barrierCond]
  · simp [named]

/-! ## One lane of a copy (R275) -/

/-- The piece of a lane of a copy whose page translates. -/
def lanePiece (o g n : Nat) (p : TlbEnt) : Elem := { spm := o, va := g, n := n, pa := some (p.phys (g % 2 ^ 57)), nc := p.nc }

section
variable {store : Bool} {vs a : VReg} {n l : Nat} {s : State}

theorem copyLane_of_not_canonical (h : canonical ((s.lane l).pair a.toNat) = false) : copyLane store vs a n s l =
    (some (.error { cause := .translate, reason := 4, addr := ((s.lane l).pair a.toNat).toNat, info := 2 }), s) := by
  simp only [copyLane, h, Bool.not_false, if_true]

theorem copyLane_of_misaligned_spm (h : canonical ((s.lane l).pair a.toNat) = true)
    (odd : ((s.lane l).reg vs.toNat).toNat % n ≠ 0) : copyLane store vs a n s l =
    (some (.error { cause := .misalign, addr := ((s.lane l).reg vs.toNat).toNat, info := 0 }), s) := by
  simp only [copyLane, h, Bool.not_true, Bool.false_eq_true, if_false, bne_iff_ne.mpr odd, if_true]

theorem copyLane_of_misaligned_global (h : canonical ((s.lane l).pair a.toNat) = true)
    (even : ((s.lane l).reg vs.toNat).toNat % n = 0) (odd : ((s.lane l).pair a.toNat).toNat % n ≠ 0) : copyLane store vs a n s l =
    (some (.error { cause := .misalign, addr := ((s.lane l).pair a.toNat).toNat, info := 2 }), s) := by
  simp only [copyLane, h, Bool.not_true, Bool.false_eq_true, if_false, even, bne_self_eq_false, bne_iff_ne.mpr odd, if_true]

/-- A lane whose addresses are lawful and whose page translates is checked against the page and its allocation. -/
theorem copyLane_of_page {p : TlbEnt} {u : State} (h : canonical ((s.lane l).pair a.toNat) = true)
    (even : ((s.lane l).reg vs.toNat).toNat % n = 0) (even' : ((s.lane l).pair a.toNat).toNat % n = 0)
    (page : translate s (s.block s.iss.blk).core (s.viOf s.iss.blk) (s.asnOf s.iss.blk)
      (((s.lane l).pair a.toNat).toNat % 2 ^ 57) { reads := !store, writes := store } = (.ok p, u)) :
    copyLane store vs a n s l =
      match checkGlobal u (s.viOf s.iss.blk) (s.asnOf s.iss.blk) (((s.lane l).pair a.toNat).toNat % 2 ^ 57) p (!store) store with
      | some (c, r) =>
        if c = .protect then
          (some (.error { cause := c, addr := ((s.lane l).pair a.toNat).toNat, info := 2, sys := true }), u)
        else (some (.error { cause := c, reason := r, addr := ((s.lane l).pair a.toNat).toNat }), u)
      | none =>
        if (u.launch u.iss.blk).spm < ((s.lane l).reg vs.toNat).toNat + n then
          (some (.error { cause := .protect, addr := ((s.lane l).reg vs.toNat).toNat, info := 0, sys := true }), u)
        else (some (.ok (lanePiece ((s.lane l).reg vs.toNat).toNat ((s.lane l).pair a.toNat).toNat n p)), u) := by
  simp only [copyLane, h, Bool.not_true, Bool.false_eq_true, if_false, even, even', bne_self_eq_false, page]
    <;> rfl

end

section
variable {store : Bool} {vs a : VReg} {n l : Nat} {s : State}

/-- A lane whose addresses are lawful and whose page translates to `p`, leaving `u`. -/
structure LanePage (store : Bool) (vs a : VReg) (n l : Nat) (s : State) (p : TlbEnt) (u : State) : Prop where
  canonical : canonical ((s.lane l).pair a.toNat) = true
  spm : ((s.lane l).reg vs.toNat).toNat % n = 0
  global : ((s.lane l).pair a.toNat).toNat % n = 0
  page : translate s (s.block s.iss.blk).core (s.viOf s.iss.blk) (s.asnOf s.iss.blk)
    (((s.lane l).pair a.toNat).toNat % 2 ^ 57) { reads := !store, writes := store } = (.ok p, u)

variable {p : TlbEnt} {u : State}

theorem copyLane_of_plate (h : LanePage true vs a n l s p u) (w : p.w = true) (plate : p.plate = true) :
    copyLane true vs a n s l = (some (.error { cause := .plateWrite, addr := ((s.lane l).pair a.toNat).toNat }), u) := by
  obtain ⟨canon, even, even', page⟩ := h
  rw [copyLane_of_page canon even even' page]
  simp [checkGlobal, w, plate]

theorem copyLane_of_refused (h : LanePage store vs a n l s p u) (refused : (if store then p.w else p.r) = false) :
    copyLane store vs a n s l =
      (some (.error { cause := .protect, addr := ((s.lane l).pair a.toNat).toNat, info := 2, sys := true }), u) := by
  obtain ⟨canon, even, even', page⟩ := h
  rw [copyLane_of_page canon even even' page]
  cases store
  · simp only [Bool.false_eq_true, if_false] at refused
    simp [checkGlobal, refused]
  · simp only [if_true] at refused
    simp [checkGlobal, refused]

theorem copyLane_of_beyond (h : LanePage store vs a n l s p u)
    (pass : checkGlobal u (s.viOf s.iss.blk) (s.asnOf s.iss.blk) (((s.lane l).pair a.toNat).toNat % 2 ^ 57) p (!store) store = none)
    (beyond : (s.launch s.iss.blk).spm < ((s.lane l).reg vs.toNat).toNat + n) : copyLane store vs a n s l =
      (some (.error { cause := .protect, addr := ((s.lane l).reg vs.toNat).toNat, info := 0, sys := true }), u) := by
  obtain ⟨canon, even, even', page⟩ := h
  have look := translate_lookOnly s (s.block s.iss.blk).core (s.viOf s.iss.blk) (s.asnOf s.iss.blk)
    (((s.lane l).pair a.toNat).toNat % 2 ^ 57) { reads := !store, writes := store }
  rw [page] at look
  have launch : u.launch u.iss.blk = s.launch s.iss.blk := look.field (fun t => t.launch t.iss.blk) fun _ => rfl
  rw [copyLane_of_page canon even even' page, pass]
  simp only [launch, if_pos beyond]

end

/-! ## The descriptor of a tile (R277, R278) -/

section
variable {s : State} {desc spm kc : Nat}

theorem tileCond_of_misaligned (odd : desc % 64 ≠ 0) :
    tileCond s desc spm kc = some { cause := .misalign, addr := desc, info := 8 } := if_pos odd

theorem tileCond_of_outside (even : desc % 64 = 0) (beyond : (s.launch s.iss.blk).spm < desc + 64) :
    tileCond s desc spm kc = some { cause := .protect, addr := desc, info := 8, sys := true } :=
  (if_neg (by omega)).trans (if_pos beyond)

/-- A descriptor that its allocation holds, and of which no word is poisoned. -/
structure SoundTile (s : State) (desc : Nat) : Prop where
  even : desc % 64 = 0
  inside : desc + 64 ≤ (s.launch s.iss.blk).spm
  sound : spmFailed (s.block s.iss.blk).spmBad desc 64 = none

theorem tileCond_of_breach (h : SoundTile s desc) {x : Nat}
    (breach : tileBreach (s.block s.iss.blk).spm desc (readTile (s.block s.iss.blk).spm desc) = some x) :
    tileCond s desc spm kc = some { cause := .mxparam, addr := desc, info := x } := by
  simp only [tileCond, h.even, ne_eq, not_true_eq_false, if_false, Nat.not_lt.mpr h.inside, h.sound, breach]

/-- A lawful descriptor leaves the checks of the copy's place in its allocation. -/
theorem tileCond_of_lawful (h : SoundTile s desc)
    (lawful : tileBreach (s.block s.iss.blk).spm desc (readTile (s.block s.iss.blk).spm desc) = none)
    (start : badStart s kc (readTile (s.block s.iss.blk).spm desc).rank = none) :
    tileCond s desc spm kc =
      if spm % (readTile (s.block s.iss.blk).spm desc).span ≠ 0 then some { cause := .misalign, addr := spm, info := 0 }
      else if (s.launch s.iss.blk).spm < spm + (readTile (s.block s.iss.blk).spm desc).bytes then
        some { cause := .protect, addr := spm, info := 0, sys := true }
      else none := by
  simp only [tileCond, h.even, ne_eq, not_true_eq_false, if_false, Nat.not_lt.mpr h.inside, h.sound, lawful, start]

end

theorem tileBreach_base {m : Memory} {o : Nat} {d : Tile}
    (bad : canonical (BitVec.ofNat 64 d.base) = false ∨ d.base % 16 ≠ 0) : tileBreach m o d = some 0 := by
  unfold tileBreach
  dsimp only
  rw [if_pos (by simpa using bad)]

theorem tileBreach_rank {m : Memory} {o : Nat} {d : Tile} (canon : canonical (BitVec.ofNat 64 d.base) = true)
    (even : d.base % 16 = 0) (bad : d.rank = 0 ∨ 5 < d.rank) : tileBreach m o d = some 8 := by
  unfold tileBreach
  dsimp only
  rw [if_neg (by simp [canon, even]), if_pos bad]

/-! ## The parameter block of a matrix command (R294, R306) -/

section
variable {s : State} {c : MxCmd} {a : MxArray}

theorem mxCond_of_misaligned (odd : c.off % 64 ≠ 0) : mxCond s c a = some { cause := .misalign, addr := c.off, info := 8 } :=
  if_pos (bne_iff_ne.mpr odd)

theorem mxCond_of_outside (even : c.off % 64 = 0) (beyond : (s.launch c.blk).spm < c.off + 64) :
    mxCond s c a = some { cause := .protect, addr := c.off, info := 8, sys := true } :=
  (if_neg (by simp [even])).trans (if_pos beyond)

/-- A parameter block that its allocation holds, and of which no word is poisoned. -/
structure SoundBlock (s : State) (c : MxCmd) : Prop where
  even : c.off % 64 = 0
  inside : c.off + 64 ≤ (s.launch c.blk).spm
  sound : spmFailed (s.block c.blk).spmBad c.off 64 = none

theorem mxCond_of_breach (h : SoundBlock s c) {x : Nat} (breach : mxBreach c a (s.launch c.blk).nbar = some x) :
    mxCond s c a = some { cause := .mxparam, addr := c.off, info := x } := by
  simp only [mxCond, h.even, bne_self_eq_false, Bool.false_eq_true, if_false, Nat.not_lt.mpr h.inside, h.sound, breach]

theorem mxCond_of_range (h : SoundBlock s c) (lawful : mxBreach c a (s.launch c.blk).nbar = none) {r : Nat × Nat}
    (beyond : (mxRanges c a).find? (fun r => decide ((s.launch c.blk).spm < r.1 + r.2)) = some r) :
    mxCond s c a = some { cause := .protect, addr := max r.1 (s.launch c.blk).spm, info := 0, sys := true } := by
  simp only [mxCond, h.even, bne_self_eq_false, Bool.false_eq_true, if_false, Nat.not_lt.mpr h.inside, h.sound, lawful, beyond]

/-- A command whose fields and ranges are lawful leaves the check of a SIGNAL's barrier. -/
theorem mxCond_of_inside (h : SoundBlock s c) (lawful : mxBreach c a (s.launch c.blk).nbar = none)
    (inside : ∀ r ∈ mxRanges c a, r.1 + r.2 ≤ (s.launch c.blk).spm) :
    mxCond s c a = if c.f 0 1 = 5 && !((s.block c.blk).bar (c.f 2 1)).init then some (barrierCond (c.f 2 1) 0 0 0) else none := by
  have none : (mxRanges c a).find? (fun r => decide ((s.launch c.blk).spm < r.1 + r.2)) = none :=
    List.find?_eq_none.mpr fun r hr => by simpa using inside r hr
  simp only [mxCond, h.even, bne_self_eq_false, Bool.false_eq_true, if_false, Nat.not_lt.mpr h.inside, h.sound, lawful, none]

theorem mxBreach_of_op {nbar : Nat} (bad : c.f 0 1 = 0 ∨ 5 < c.f 0 1) : mxBreach c a nbar = some 0 := by
  have other : ∀ k, 1 ≤ k → k ≤ 5 → c.f 0 1 ≠ k := by omega
  unfold mxBreach
  split
  · next h => exact absurd h (other 1 (by omega) (by omega))
  · next h => exact absurd h (other 2 (by omega) (by omega))
  · next h => exact absurd h (other 3 (by omega) (by omega))
  · next h => exact absurd h (other 4 (by omega) (by omega))
  · next h => exact absurd h (other 5 (by omega) (by omega))
  · rfl

theorem mxBreach_of_no_view {nbar : Nat} (stream : c.f 0 1 = 2) (none : Sp.find? a.views c.slot = none) :
    mxBreach c a nbar = some 1 := by
  simp only [mxBreach, stream, none, streamBreach]

end

/-! ## What a condition of an issue names (R381, R384) -/

/-- The space that a fault-queue entry holds of a condition (R384). -/
def Cond.space (c : Cond) : Nat := if c.cause = .integrity then 0 else c.info % 16

/-- A condition whose information a fault-queue entry can hold as it is, if it is a system fault: a space, or none. -/
def Cond.Postable (c : Cond) : Prop := c.sys = true → c.space = c.info

theorem tileCond_postable {s : State} {desc spm kc : Nat} {c : Cond} (h : tileCond s desc spm kc = some c) : c.Postable := by
  unfold tileCond at h
  dsimp only at h
  repeat' split at h
  all_goals cases h
  all_goals simp [Cond.Postable, Cond.space, regCond]

theorem mxCond_postable {s : State} {x : MxCmd} {a : MxArray} {c : Cond} (h : mxCond s x a = some c) : c.Postable := by
  unfold mxCond at h
  dsimp only at h
  repeat' split at h
  all_goals cases h
  all_goals simp [Cond.Postable, Cond.space, barrierCond]

end Sys2Proof.Machine
end

section
/-!
What the caches leave alone: the launches, the instruction at issue, and the canonical form of the memories
(R222 to R233, R239, R437 to R446).
-/
namespace Sys2Proof.Machine
open Sys2Proof

/-! ## Actions of the caches -/

/-- `v` has the launches, the blocks, the threads and the issue of `u`, in each weft the uniform registers and the race
slots of `u`, and its memories in canonical form if `u` has. -/
structure Cached (u v : State) : Prop where
  grids : v.grids = u.grids
  blocks : v.blocks = u.blocks
  threads : v.threads = u.threads
  iss : v.iss = u.iss
  held : ∀ b w, (v.weft b w).k = (u.weft b w).k ∧ (v.weft b w).slots = (u.weft b w).slots
  inv : u.inv = true → v.inv = true

theorem Cached.refl (u : State) : Cached u u := ⟨rfl, rfl, rfl, rfl, fun _ _ => ⟨rfl, rfl⟩, id⟩
theorem Cached.trans {u v w : State} (h : Cached u v) (h' : Cached v w) : Cached u w where
  grids := h'.grids.trans h.grids
  blocks := h'.blocks.trans h.blocks
  threads := h'.threads.trans h.threads
  iss := h'.iss.trans h.iss
  held b x := ⟨(h'.held b x).1.trans (h.held b x).1, (h'.held b x).2.trans (h.held b x).2⟩
  inv i := h'.inv (h.inv i)

theorem Cached.of_wefts {u v : State} (grids : v.grids = u.grids) (blocks : v.blocks = u.blocks) (threads : v.threads = u.threads)
    (wefts : v.wefts = u.wefts) (iss : v.iss = u.iss) (inv : u.inv = true → v.inv = true) : Cached u v :=
  ⟨grids, blocks, threads, iss, fun b w => by rw [State.weft, wefts]; exact ⟨rfl, rfl⟩, inv⟩

/-- What an attempt leaves, whether it goes ahead or waits, has changed no more than the caches change. -/
def TryCached (s : State) (r : Try) : Prop := Cached s (tried r)

theorem TryCached.bind {s : State} {r : Try} {f : State → Try} (h : TryCached s r) (hf : ∀ t, TryCached t (f t)) :
    TryCached s (r >>= f) := by
  cases r with
  | error t => exact h
  | ok t => exact Cached.trans h (hf t)

/-- An attempt after which the state changes once more. -/
theorem TryCached.map {s : State} {r : Try} {f : State → State} (h : TryCached s r) (hf : ∀ t, Cached t (f t)) :
    TryCached s (r >>= fun t => .ok (f t)) := .bind h hf

/-- The same of a read. -/
def ReadCached (s : State) : TryRead → Prop
  | .ok x => Cached s x.1
  | .error t => Cached s t

theorem ReadCached.bind {s : State} {r : Try} {f : State → TryRead} (h : TryCached s r) (hf : ∀ t, ReadCached t (f t)) :
    ReadCached s (r >>= f) := by
  cases r with
  | error t => exact h
  | ok t =>
    have next := hf t
    change ReadCached s (f t)
    cases eq : f t with
    | ok x => rw [eq] at next; exact Cached.trans h next
    | error u => rw [eq] at next; exact Cached.trans h next

/-- A read after an attempt. -/
theorem ReadCached.value {s : State} {r : Try} (h : TryCached s r) (v : State → Nat × Option Nat) :
    ReadCached s (r >>= fun t => .ok (t, v t)) := .bind h fun t => .refl t

theorem foldl_cached {β : Type*} (f : State → β → State) (hf : ∀ s x, Cached s (f s x)) (ls : List β) (s : State) :
    Cached s (ls.foldl f s) :=
  foldl_rel Cached.refl Cached.trans f hf ls s

/-! ## Lines and the directory (R222, R439 to R441) -/

theorem setDomain_cached (s : State) (d : Nat) (x : Domain) : Cached s (s.setDomain d x) := .of_wefts rfl rfl rfl rfl rfl id
theorem setCore_cached (s : State) (c : Nat) (x : Core) : Cached s (s.setCore c x) := .of_wefts rfl rfl rfl rfl rfl id

theorem LookOnly.cached {u v : State} (h : LookOnly u v) (inv : u.inv = true → v.inv = true) : Cached u v where
  grids := h.field State.grids fun _ => rfl
  blocks := h.field State.blocks fun _ => rfl
  threads := h.field State.threads fun _ => rfl
  iss := h.field State.iss fun _ => rfl
  held b w := by rw [h.field (fun s => s.weft b w) fun _ => rfl]; exact ⟨rfl, rfl⟩
  inv := inv

theorem DomainsOnly.cached {u v : State} (h : DomainsOnly u v) : Cached u v :=
  h.look.cached fun i => (h.field State.inv fun _ => rfl).trans i

theorem postFault_cached (s : State) (vi : Nat) (f : FaultRef) : Cached s (postFault s vi f) := by
  unfold postFault
  dsimp only
  split <;> exact .of_wefts rfl rfl rfl rfl rfl id

theorem parkWeft_cached (s : State) (b w : Nat) (e : FqEntry) (i : Bool) : Cached s (parkWeft s b w e i) := by
  have parks : ∀ x : Weft, x.k = (s.weft b w).k → x.slots = (s.weft b w).slots → Cached s (s.setWeft b w x) := fun x k slots =>
    ⟨rfl, rfl, rfl, rfl, fun c v => by
      rw [State.weft_setWeft]
      split
      · next same => rw [State.weft, same]; exact ⟨k, slots⟩
      · exact ⟨rfl, rfl⟩, id⟩
  unfold parkWeft
  extract_lets x d full u
  have parked : Cached s u := parks _ rfl rfl
  split
  · exact .refl s
  · split
    · exact parked.trans (.of_wefts rfl rfl rfl rfl rfl id)
    · exact parked.trans (postFault_cached _ _ _)

theorem homeBytes_cached (s : State) (line : Nat) (data : Memory) (mask : Nat) (bad : Sp Nat) :
    Cached s (homeBytes s line data mask bad) :=
  (homeBytes_lookOnly s line data mask bad).cached (homeBytes_inv line data mask bad)

theorem mergeHome_cached (s : State) (src line : Nat) (data : Memory) (mask : Nat) (bad : Sp Nat) :
    Cached s (mergeHome s src line data mask bad) :=
  (homeBytes_cached s line data mask bad).trans (dirWrite_domainsOnly _ _ _ _).cached

theorem noteDrop_cached (s : State) (router : Option Nat) : Cached s (noteDrop s router) := by
  cases router <;> exact .of_wefts rfl rfl rfl rfl rfl id

theorem drawClasses_cached (s : State) : Cached s (drawClasses s) := .of_wefts rfl rfl rfl rfl rfl id

theorem loseStores_cached (s : State) (writers : List Nat) : Cached s (loseStores s writers) := by
  refine foldl_cached _ (fun u k => ?_) _ _
  split
  · exact .trans (v := u.fresh.2) (.of_wefts rfl rfl rfl rfl rfl id) (parkWeft_cached _ _ _ _ _)
  · exact .refl u

/-- A message that a router drops loses the stores that it carried. -/
theorem dropMessage_cached (s : State) (router : Option Nat) (who : List Nat) :
    Cached s (loseStores (noteDrop (drawClasses s) router) who) :=
  ((drawClasses_cached s).trans (noteDrop_cached _ _)).trans (loseStores_cached _ _)

/-! ## The gates of the L2s (R240, R354, R441) -/

theorem l2Gate_cached (s : State) (d line : Nat) : TryCached s (l2Gate s d line) := by
  unfold l2Gate
  split
  · exact setDomain_cached _ _ _
  · exact Cached.refl s

theorem homeGate_cached (s : State) (line : Nat) : TryCached s (homeGate s line) := by
  have either : ∀ p : Bool, TryCached s (if p then .error s else .ok s) := fun p => by cases p <;> exact Cached.refl s
  exact either _

theorem bothGates_cached (s : State) (d line : Nat) : TryCached s (bothGates s d line) :=
  .bind (l2Gate_cached s d line) fun t => l2Gate_cached t _ line

theorem homeReach_cached (s : State) (d line : Nat) : TryCached s (homeReach s d line) :=
  .bind (bothGates_cached s d line) fun t => homeGate_cached t line

/-! ## Remote copies and the ways of the L2 (R228, R233, R437) -/

theorem cleanRemote_cached (s : State) (d line : Nat) : TryCached s (cleanRemote s d line) := by
  unfold cleanRemote
  dsimp only
  split
  · exact Cached.refl s
  next c _ =>
    have merge : ∀ t, TryCached t (do
        let s ← homeGate (← l2Gate t (lineHome line) line) line
        .ok ((mergeHome s d line c.data c.dirty c.bad).setRem d line { c with dirty := 0, writers := [] })) := fun t =>
      .bind (l2Gate_cached t _ line) fun u => .bind (homeGate_cached u line) fun v =>
        (mergeHome_cached v _ _ _ _ _).trans (setDomain_cached _ _ _)
    split
    · exact Cached.refl s
    · split
      · exact Cached.refl s
      · exact (drawClasses_cached s).trans (merge _)
      · split
        · exact .map (merge s) fun t => dropMessage_cached t _ _
        · exact .trans (setDomain_cached _ _ _) (dropMessage_cached _ _ _)

theorem evictRemote_cached (s : State) (d line : Nat) : TryCached s (evictRemote s d line) :=
  .map (cleanRemote_cached s d line) fun t => setDomain_cached t _ _

theorem l2Drop_cached (s : State) (d line : Nat) : TryCached s (l2Drop s d line) := by
  unfold l2Drop
  split
  · exact setDomain_cached _ _ _
  · exact evictRemote_cached s d line

theorem markKeep_cached (s : State) (d line : Nat) : TryCached s (markKeep s d line) := by
  unfold markKeep
  dsimp only
  split
  · exact setDomain_cached _ _ _
  · exact .map (l2Drop_cached s d _) fun t => setDomain_cached t _ _

theorem keepAs_cached (s : State) (d line : Nat) (p : Policy) : TryCached s (keepAs s d line p) := by
  unfold keepAs
  split
  · exact markKeep_cached s d line
  · exact Cached.refl s

theorem l2Room_cached (s : State) (d line : Nat) : TryCached s (l2Room s d line) := by
  have next : Cached s s.fresh.2 := .of_wefts rfl rfl rfl rfl rfl id
  unfold l2Room
  dsimp only
  split
  · exact next
  · exact next.trans (l2Drop_cached _ d _)

theorem allocRemote_cached (s : State) (d line : Nat) (p : Policy) : TryCached s (allocRemote s d line p) := by
  unfold allocRemote
  split
  · exact Cached.refl s
  · exact .map (l2Room_cached s d line) fun t => setDomain_cached t _ _

theorem dropAlias_cached (s : State) (d line : Nat) : TryCached s (dropAlias s d line) := by
  unfold dropAlias
  split
  · exact evictRemote_cached s d _
  · exact Cached.refl s

theorem fillRemote_cached (s : State) (d line sec : Nat) : TryCached s (fillRemote s d line sec) :=
  .bind (l2Gate_cached s _ line) fun t => .bind (homeGate_cached t line) fun u =>
    (setDomain_cached u _ _).trans (dirUpdate_domainsOnly _ _ _).cached

theorem dirtyRemote_cached (s : State) (d line : Nat) (data : Memory) (mask : Nat) (bad : Sp Nat) (p : Policy) (who : List Nat) :
    TryCached s (dirtyRemote s d line data mask bad p who) :=
  .bind (allocRemote_cached s d line p) fun t => setDomain_cached t _ _

/-! ## The local L2 (R228, R437) -/

theorem l2Ready_cached (s : State) (d line off n : Nat) (p : Policy) : TryCached s (l2Ready s d line off n p) := by
  refine .bind (l2Gate_cached s d line) fun r => .bind (dropAlias_cached r d line) fun t => ?_
  split
  · exact .bind (homeGate_cached t line) fun u => keepAs_cached u d line p
  · split
    · exact homeReach_cached t d line
    · refine .bind (allocRemote_cached t d line p) fun r => .bind (keepAs_cached r d line p) fun u => ?_
      split
      · exact Cached.refl u
      · exact fillRemote_cached u d line _

theorem l2Put_cached (s : State) (d line : Nat) (data : Memory) (mask : Nat) (bad : Sp Nat) (p : Policy) (who : List Nat) :
    TryCached s (l2Put s d line data mask bad p who) := by
  refine .bind (dropAlias_cached s d line) fun t => ?_
  split
  · exact .bind (homeGate_cached t line) fun r => .bind (keepAs_cached r d line p) fun u => mergeHome_cached u _ _ _ _ _
  · split
    · exact .bind (l2Gate_cached t _ line) fun r => .bind (homeGate_cached r line) fun u => mergeHome_cached u _ _ _ _ _
    · exact .bind (keepAs_cached t d line p) fun u => dirtyRemote_cached u d line data mask bad p who

theorem l2Write_cached (s : State) (d line : Nat) (data : Memory) (mask : Nat) (bad : Sp Nat) (p : Policy) (who : List Nat) :
    TryCached s (l2Write s d line data mask bad p who) :=
  .bind (l2Gate_cached s d line) fun t => l2Put_cached t d line data mask bad p who

theorem l2Send_cached (s : State) (d line : Nat) (data : Memory) (mask : Nat) (bad : Sp Nat) (p : Policy) (who : List Nat) :
    TryCached s (l2Send s d line data mask bad p who) := by
  have put := l2Put_cached s d line data mask bad p who
  unfold l2Send
  split
  · exact put
  · exact Cached.refl s
  · dsimp only
    split
    · exact .map put fun t => dropMessage_cached t _ _
    · exact dropMessage_cached s _ _

/-! ## The L1 (R222 to R226) -/

theorem noteStore_cached (s : State) (core : Option Nat) (pa n x : Nat) : Cached s (noteStore s core pa n x) := .of_wefts rfl rfl rfl rfl rfl id

theorem noteHalves_cached (s : State) (core line : Nat) (c : CLine) : Cached s (noteHalves s core line c) := by
  have note : ∀ (u : State) (p : Bool) (a n x : Nat), Cached u (if p then noteStore u (some core) a n x else u) := fun u p a n x => by
    cases p <;> [exact .refl u; exact noteStore_cached u _ a n x]
  exact foldl_cached _ (fun u i => note u _ _ _ _) _ s

theorem cleanL1_cached (s : State) (sc line : Nat) : TryCached s (cleanL1 s sc line) := by
  unfold cleanL1
  split
  · exact Cached.refl s
  next c _ =>
    split
    · exact Cached.refl s
    · exact .bind (l2Gate_cached s _ line) fun t => .map (l2Send_cached t _ _ _ _ _ _ _)
        (f := fun u => noteHalves (u.setL1 sc line { c with dirty := 0, writers := [] }) sc line c) fun u =>
          (setCore_cached u _ _).trans (noteHalves_cached _ _ _ _)

theorem victim_cached (s : State) (set : List (Nat × CLine)) : Cached s (victim s set).2 := by
  unfold victim
  split <;> exact .of_wefts rfl rfl rfl rfl rfl id

theorem evictL1_cached (s : State) (sc line : Nat) : TryCached s (evictL1 s sc line) :=
  .map (cleanL1_cached s sc line) fun t => setCore_cached t _ _

theorem dropAliasL1_cached (s : State) (core line : Nat) : TryCached s (dropAliasL1 s core line) := by
  unfold dropAliasL1
  split
  · exact evictL1_cached s _ _
  · exact Cached.refl s

theorem allocL1_cached (s : State) (core line : Nat) (p : Policy) : TryCached s (allocL1 s core line p) := by
  refine .bind (dropAliasL1_cached s core line) fun t => ?_
  dsimp only
  split
  · exact Cached.refl t
  · split
    · exact setCore_cached t _ _
    · exact (victim_cached t _).trans (TryCached.map (evictL1_cached _ _ _) fun u => setCore_cached u _ _)

theorem fillL1_cached (s : State) (core line sec : Nat) (p : Policy) : TryCached s (fillL1 s core line sec p) :=
  .bind (l2Ready_cached s _ line _ _ p) fun t => setCore_cached t _ _

theorem loadL1_cached (s : State) (core pa n : Nat) (p : Policy) : ReadCached s (loadL1 s core pa n p) := by
  refine .bind (allocL1_cached s core _ p) fun t => ?_
  dsimp only
  split
  · exact Cached.refl t
  · exact .value (fillL1_cached t core _ _ p) _

theorem storeL1_cached (s : State) (core pa n x : Nat) (p : Policy) (who : Nat) : TryCached s (storeL1 s core pa n x p who) :=
  .bind (allocL1_cached s core _ p) fun t => setCore_cached t _ _

theorem updateL1_cached (s : State) (core pa n x : Nat) : Cached s (updateL1 s core pa n x) := by
  unfold updateL1
  dsimp only
  split
  · exact .refl s
  · exact setCore_cached s _ _

theorem readL2_cached (s : State) (d pa n : Nat) (p : Policy) : ReadCached s (readL2 s d pa n p) :=
  .value (l2Ready_cached s d _ _ n p) _

theorem readHome_cached (s : State) (d pa n : Nat) : ReadCached s (readHome s d pa n) :=
  .bind (l2Gate_cached s d _) fun r => .bind (dropAlias_cached r d _) fun t =>
    .value (homeReach_cached t d _) _

theorem placeHome_cached (s : State) (d pa n x : Nat) : TryCached s (placeHome s d pa n x) := by
  refine .bind (dropAlias_cached s d _) fun r => .bind (homeGate_cached r _) fun t => ?_
  dsimp only
  split
  · exact mergeHome_cached t _ _ _ _ _
  · exact (setDomain_cached t _ _).trans (mergeHome_cached _ _ _ _ _ _)

theorem writeHome_cached (s : State) (d pa n x : Nat) : TryCached s (writeHome s d pa n x) :=
  .bind (bothGates_cached s d _) fun t => placeHome_cached t d pa n x

/-! ## Releases and acquires (R226, R442, R446) -/

theorem tryAll_cached (f : State → Nat → Try) (hf : ∀ s l, TryCached s (f s l)) (lines : List Nat) (s : State) :
    Cached s (tryAll f lines s).2 := by
  unfold tryAll
  refine foldl_rel (R := fun u v : Bool × State => Cached u.2 v.2) (fun u => .refl u.2) .trans _ (fun u l => ?_) lines (true, s)
  have step := hf u.2 l
  split
  · next h => rw [h] at step; exact step
  · next h => rw [h] at step; exact step

theorem cleanL1All_cached (s : State) (core : Nat) : Cached s (cleanL1All s core).2 := by
  have one : ∀ (u : Bool × State) (sc : Nat), Cached u.2 (tryAll (fun t l => cleanL1 t sc l) (Sp.keys (u.2.core sc).l1) u.2).2 :=
    fun u sc => tryAll_cached _ (fun t l => cleanL1_cached t sc l) _ u.2
  unfold cleanL1All
  refine foldl_rel (R := fun u v : Bool × State => Cached u.2 v.2) (fun u => .refl u.2) .trans _ (fun u sc => ?_) _ (true, s)
  exact one u sc

theorem releaseTry_cached (s : State) (core : Nat) (sc : Scope) : TryCached s (releaseTry s core sc) := by
  have l1 := cleanL1All_cached s core
  unfold releaseTry
  dsimp only
  split
  · exact Cached.refl s
  · split
    · split <;> exact l1
    · have l2 := l1.trans (tryAll_cached _ (fun t l => cleanRemote_cached t (domOf core) l)
        (Sp.keys ((cleanL1All s core).2.domain (domOf core)).remote) (cleanL1All s core).2)
      split <;> exact l2

/-- A line of which a sector is read again, or dropped. -/
theorem refill_cached {s : State} {r : Try} {p : Prop} [Decidable p] {f : State → State} (h : TryCached s r) (hf : Cached s (f s)) :
    Cached s (match if p then r else .error s with
      | .ok s => s
      | .error _ => f s) := by
  by_cases hp : p
  · rw [if_pos hp]
    cases r with
    | ok t => exact h
    | error t => exact hf
  · rw [if_neg hp]
    exact hf

theorem refreshRemote_cached (s : State) (d line : Nat) : Cached s (refreshRemote s d line) :=
  foldl_cached _ (fun u sec => refill_cached (fillRemote_cached u d line sec)
    (f := fun u => u.setRem d line (((u.remLine d line).getD {}).dropSector sec)) (setDomain_cached _ _ _)) _ _

theorem applyInval_cached (s : State) (d line : Nat) : Cached s (applyInval s d line) := by
  unfold applyInval
  split
  · exact .refl s
  · exact (setDomain_cached s _ _).trans (refreshRemote_cached _ d line)

theorem applyAll_cached (s : State) (d : Nat) : Cached s (applyAll s d) :=
  (foldl_cached _ (fun u q => foldl_cached (fun t l => applyInval t d l) (fun t l => applyInval_cached t d l) (Prod.snd q) u) _ s).trans (setDomain_cached _ _ _)

theorem refreshL1_cached (s : State) (core sc line : Nat) : Cached s (refreshL1 s core sc line) :=
  foldl_cached _ (fun u sec => refill_cached (fillL1_cached u core line sec _)
    (f := fun u => u.setL1 sc line (((u.l1Line sc line).getD {}).dropSector sec)) (setCore_cached _ _ _)) _ _

theorem invalidateL1_cached (s : State) (core : Nat) : Cached s (invalidateL1 s core) :=
  foldl_cached _ (fun u sc => (setCore_cached u _ _).trans (foldl_cached _ (fun t l => refreshL1_cached t core sc l) _ _)) _ s

theorem acquire_cached (s : State) (core : Nat) (sc : Scope) : Cached s (acquire s core sc) := by
  cases sc
  · exact .refl s
  · exact invalidateL1_cached s core
  · exact (applyAll_cached s _).trans (invalidateL1_cached _ core)
  · exact (applyAll_cached s _).trans (invalidateL1_cached _ core)

/-! ## The lines that a copy owns (R239) -/

theorem dropLines_cached (core : Nat) : ∀ (lines : List Nat) (s : State), TryCached s (dropLines core lines s)
  | [], s => Cached.refl s
  | l :: ls, s => .bind (dropAliasL1_cached s core l) fun r => .bind (evictL1_cached r _ l) fun t => dropLines_cached core ls t

theorem ownLines_cached (s : State) (core slot : Nat) (lines : List Nat) : TryCached s (ownLines s core slot lines) := by
  unfold ownLines
  dsimp only
  split
  · exact Cached.refl s
  · exact .map (dropLines_cached core _ s) fun t => setDomain_cached t _ _

theorem owned_cached (store : Bool) (core slot : Nat) (es : List Elem) (s : State) : Cached s (owned store core slot es s) := by
  have own := ownLines_cached s core slot (destLines es)
  unfold owned
  split
  · split
    · next h => rw [h] at own; exact own
    · next h => rw [h] at own; exact own
  · exact .refl s

end Sys2Proof.Machine
end

section
/-!
Where the copies, MXPUSH and QBLK fail the checks of their issue (R275, R278, R282, R306, R313, R346, R383, R384).
-/
namespace Sys2Proof.Machine
open Sys2Proof

/-! ## What a condition of every lane leaves (R382, R383) -/

theorem enterTrap_weft (s : State) (b w l : Nat) (c : Cond) (b' w' : Nat) : (enterTrap s b w l c).weft b' w' = s.weft b' w' := by
  have same := congrArg (fun t : State => t.weft b' w') (restartStack_rest s b w l)
  rw [enterTrap_eq]
  exact same

/-- A trap or a park changes no counter of its weft. -/
theorem deliverTrap_counter (s : State) (b w l : Nat) (c : Cond) (i d : Nat) (k : Counter) :
    ((deliverTrap s b w l c i d).weft b w).counter k = (s.weft b w).counter k := by
  unfold deliverTrap
  split
  · exact parkWeft_counter ..
  · rw [enterTrap_weft]

theorem wft_counter_deliverTrap (s : State) (l : Nat) (c : Cond) (i d : Nat) (k : Counter) :
    (deliverTrap s s.iss.blk s.iss.weft l c i d).wft.counter k = s.wft.counter k := by
  rw [State.wft, deliverTrap_iss, deliverTrap_counter, State.wft]

theorem trapAll_counter (s : State) (c : Cond) (k : Counter) : (trapAll s c).wft.counter k = s.wft.counter k :=
  foldl_rel (R := fun u v : State => v.wft.counter k = u.wft.counter k) (fun _ => rfl) (fun h h' => h'.trans h) _
    (fun u l => wft_counter_deliverTrap u l c _ _ k) _ s

/-- A system fault of every lane, where none stands under DELIVER, parks the weft with an entry for the first. -/
theorem raiseAll_sys {s : State} {c : Cond} (sys : c.sys = true) (lanes : s.iss.lanes ≠ []) (undelivered : s.iss.deliver = 0) :
    ∃ l ∈ s.iss.lanes, raiseAll s c = parkWeft s s.iss.blk s.iss.weft
      (faultEntry s s.iss.blk s.iss.weft (if (s.lane l).tst == .trap then 3 else 1) { c with sys := false }
        (laneMask s.iss.lanes) 0 s.iss.pc) true := by
  match h : s.iss.lanes, lanes with
  | l :: ls, _ =>
    refine ⟨l, by simp, ?_⟩
    rw [raiseAll, if_pos sys, undelivered, h, List.map_cons, systemFault_undelivered, State.lane]

theorem raiseAll_user {s : State} {c : Cond} (user : c.sys = false) : raiseAll s c = trapAll s c := if_neg (by simp [user])

/-- A weft that parks with an entry for a condition stands at the instruction with it. -/
theorem parkedAtIssue_of_postable {s u : State} {c : Cond} {issue done : Nat} (iss : u.iss = s.iss) (space : c.space = c.info)
    (free : (u.weft s.iss.blk s.iss.weft).park = none) :
    ParkedAtIssue s (parkWeft u s.iss.blk s.iss.weft (faultEntry u s.iss.blk s.iss.weft 1 c issue done s.iss.pc) true) c issue
      done := by
  obtain ⟨p, weft⟩ := parkWeft_weft free (faultEntry u s.iss.blk s.iss.weft 1 c issue done s.iss.pc) true
  rw [ParkedAtIssue, State.wft, parkWeft_iss, iss, weft]
  refine ⟨rfl, rfl, ?_⟩
  rw [← space]
  rfl

/-- The copies, the commands and the allocations stand in `t` as in `s`, beside the look-ups that `u` has made. -/
structure Unstarted (s u t : State) (core : Nat) : Prop where
  cp : t.wft.cp = s.wft.cp
  mx : t.wft.mx = s.wft.mx
  copies : ∀ i, t.copy? core i = u.copy? core i
  arrays : ∀ i, t.array core i = u.array core i
  spm : ∀ k, (t.block k).spm = (s.block k).spm

theorem wft_withIssue (u s : State) : (u.withIssue (noteIssue s)).wft = (noteIssue s).wft := rfl

theorem trapAll_unstarted (s u : State) (c : Cond) (core : Nat) : Unstarted s u (trapAll (u.withIssue (noteIssue s)) c) core := by
  have counter := fun k => trapAll_counter (u.withIssue (noteIssue s)) c k
  have only := trapAll_trapsOnly (u.withIssue (noteIssue s)) c
  refine ⟨(counter .cp).trans (noteIssue_wft_cp s), (counter .mx).trans (noteIssue_wft_mx s), fun i => ?_, fun i => ?_, fun k => ?_⟩
  · exact only.field (fun t => t.copy? core i) fun _ => rfl
  · exact only.field (fun t => t.array core i) fun _ => rfl
  · exact (only.field (fun t => (t.block k).spm) fun _ => rfl).trans (noteIssue_block_spm s k)

theorem parkWeft_unstarted (s u : State) (e : FqEntry) (i : Bool) (core : Nat) :
    Unstarted s u (parkWeft (u.withIssue (noteIssue s)) s.iss.blk s.iss.weft e i) core := by
  have only := parkWeft_trapsOnly (u.withIssue (noteIssue s)) s.iss.blk s.iss.weft e i
  have counter : ∀ k, (parkWeft (u.withIssue (noteIssue s)) s.iss.blk s.iss.weft e i).wft.counter k = (noteIssue s).wft.counter k := by
    intro k
    rw [State.wft, parkWeft_iss, State.withIssue_iss, noteIssue_iss, parkWeft_counter, State.wft, noteIssue_iss]
    rfl
  refine ⟨(counter .cp).trans (noteIssue_wft_cp s), (counter .mx).trans (noteIssue_wft_mx s), fun i => ?_, fun i => ?_, fun k => ?_⟩
  · exact only.field (fun t => t.copy? core i) fun _ => rfl
  · exact only.field (fun t => t.array core i) fun _ => rfl
  · exact (only.field (fun t => (t.block k).spm) fun _ => rfl).trans (noteIssue_block_spm s k)

theorem Unstarted.setCopyq {s u t : State} {core : Nat} (h : Unstarted s u t core) (c : Nat) (q : List CopyWait) :
    Unstarted s u (setCopyq t c q) core where
  cp := by rw [setCopyq_wft, h.cp]
  mx := by rw [setCopyq_wft, h.mx]
  copies i := by rw [setCopyq_copy, h.copies]
  arrays i := by rw [setCopyq_array, h.arrays]
  spm k := by rw [setCopyq_block, h.spm]

theorem Trapped.setCopyq {s t : State} {l : Nat} {c : Cond} (h : Trapped s t l c) (k : Nat) (q : List CopyWait) :
    Trapped s (setCopyq t k q) l c := by
  unfold Trapped at h ⊢
  rwa [setCopyq_thread]

theorem ParkedAtIssue.setCopyq {s t : State} {c : Cond} {i d : Nat} (h : ParkedAtIssue s t c i d) (k : Nat) (q : List CopyWait) :
    ParkedAtIssue s (setCopyq t k q) c i d := by
  unfold ParkedAtIssue at h ⊢
  rwa [setCopyq_wft]

/-! ## A user's instruction that fails its checks -/

/-- An issue set of lanes in RUN, of which none stands under DELIVER, in a weft that has not parked. -/
structure AtUser (s : State) : Prop where
  formed : FormedSet s
  run : ∀ l ∈ s.iss.lanes, (s.lane l).tst = .run
  free : ∀ l ∈ s.iss.lanes, (s.lane l).hold = none
  undelivered : s.iss.deliver = 0
  unparked : s.wft.park = none

/-- Every lane takes the trap `c`, and nothing of the copies and commands changes. -/
def AllTrap (s u t : State) (core : Nat) (c : Cond) : Prop := (∀ l ∈ s.iss.lanes, Trapped s t l c) ∧ Unstarted s u t core

/-- The weft parks for `c`, with no lane complete, and nothing of the copies and commands changes. -/
def WeftParks (s u t : State) (core : Nat) (c : Cond) : Prop :=
  ParkedAtIssue s t c (laneMask s.iss.lanes) 0 ∧ Unstarted s u t core

theorem trapAll_allTrap {s u : State} (h : AtUser s) {c : Cond} (user : c.sys = false) (grids : u.grids = s.grids) (core : Nat) :
    AllTrap s u (trapAll (u.withIssue (noteIssue s)) c) core c :=
  ⟨trapAll_trapped h.formed user grids h.run h.free, trapAll_unstarted s u c core⟩

theorem raiseAll_weftParks {s u : State} (h : AtUser s) {c : Cond} (sys : c.sys = true) (post : c.Postable) (core : Nat) :
    WeftParks s u (raiseAll (u.withIssue (noteIssue s)) c) core c := by
  have iss : (u.withIssue (noteIssue s)).iss = s.iss := noteIssue_iss s
  obtain ⟨l, hl, eq⟩ := raiseAll_sys (s := u.withIssue (noteIssue s)) sys (by rw [iss]; exact h.formed.1)
    (by rw [iss]; exact h.undelivered)
  rw [iss] at hl
  have tst : ((u.withIssue (noteIssue s)).lane l).tst = .run := by
    rw [show (u.withIssue (noteIssue s)).lane l = (noteIssue s).lane l from rfl, noteIssue_lane, noteIssue_thread_tst]
    exact h.run l hl
  rw [eq, tst, iss]
  refine ⟨?_, parkWeft_unstarted s u _ _ core⟩
  exact parkedAtIssue_of_postable (c := { c with sys := false }) iss (post sys) ((noteIssue_weft_park s _ _).trans h.unparked)

/-- A condition comes to a trap of every lane, or to a park. -/
theorem raiseAll_stops {s : State} (h : AtUser s) {c : Cond} (post : c.Postable) (core : Nat) :
    if c.sys = true then WeftParks s s (raiseAll (noteIssue s) c) core c else AllTrap s s (raiseAll (noteIssue s) c) core c := by
  cases sys : c.sys with
  | true =>
    have parks := raiseAll_weftParks (u := s) h sys post core
    rwa [withIssue_noteIssue] at parks
  | false =>
    have traps := trapAll_allTrap (u := s) h sys rfl core
    rw [withIssue_noteIssue] at traps
    rw [raiseAll_user sys]
    exact traps

/-! ## QBLK (R313) -/

section
variable {s : State} {ka kb kc : KReg} {f : BitVec 1}

/-- A QBLK whose operands fail a check meets it in every lane. -/
theorem qblk_stops (h : AtUser s) (hi : IssuesAs qblkRole [] [(ka.toNat, 1), (kb.toNat, 1), (kc.toNat, 1)] s)
    (settled : lanesPending s = false) {c : Cond}
    (fails : qblkCond s (s.wft.kreg ka.toNat).toNat (s.wft.kreg kb.toNat).toNat (s.wft.kreg kc.toNat).toNat = some c)
    (post : c.Postable) (core : Nat) :
    ∃ t, exec (.qblk ka kb kc f) s = .next t ∧
      if c.sys = true then WeftParks s s t core c else AllTrap s s t core c := by
  refine ⟨_, exec_qblk_body hi settled f, ?_⟩
  simp only [qblkBody, noteIssue_wft_kreg, noteIssue_qblkCond, fails]
  exact raiseAll_stops h post core

end

/-- The first of QBLK's checks that fails (R313). -/
theorem qblkCond_eq (s : State) (oa ob oc : Nat) : qblkCond s oa ob oc =
    if oa % 16 ≠ 0 then some { cause := .misalign, addr := oa, info := 0 }
    else if ob % 16 ≠ 0 then some { cause := .misalign, addr := ob, info := 0 }
    else if oc % 4 ≠ 0 then some { cause := .misalign, addr := oc, info := 0 }
    else if (s.launch s.iss.blk).spm < oa + 512 then some { cause := .protect, addr := oa, info := 0, sys := true }
    else if (s.launch s.iss.blk).spm < ob + 128 then some { cause := .protect, addr := ob, info := 0, sys := true }
    else if (s.launch s.iss.blk).spm < oc + 4 then some { cause := .protect, addr := oc, info := 0, sys := true }
    else none := by
  have first : ∀ (p : Prop) [Decidable p] (c : Cond) (os : List (Option Cond)),
      (((if p then some c else none) :: os).filterMap id).head? = if p then some c else (os.filterMap id).head? := by
    intro p _ c os
    split <;> rfl
  simp only [qblkCond, first, bne_iff_ne]
  rfl

theorem AtUser.intro {s : State} {p : RoleKind → Bool} {rs ks : List Regs} (hi : IssuesAs p rs ks s)
    (run : ∀ l ∈ s.iss.lanes, (s.lane l).tst = .run) (undelivered : s.iss.deliver = 0) (unparked : s.wft.park = none) : AtUser s :=
  ⟨hi.1, run, fun _ hl => hold_eq_none_of_not_busy hi.2.2.1 hl, undelivered, unparked⟩

/-! ## MXPUSH (R306) -/

/-- An MXPUSH whose parameter block fails a check meets it in every lane. -/
theorem mxpush_stops {s : State} {ka : KReg} (h : AtUser s) (hi : IssuesAs matrixRole [] [(ka.toNat, 1)] s)
    (settled : lanesPending s = false) (room : s.wft.room .mx 1 = true)
    (short : (s.array (s.block s.iss.blk).core s.wft.part).queue.length < 32) {c : Cond}
    (fails : mxCond s (pushed s (s.wft.kreg ka.toNat).toNat) (s.array (s.block s.iss.blk).core s.wft.part) = some c) (core : Nat) :
    ∃ t, exec (.mxpush ka) s = .next t ∧ if c.sys = true then WeftParks s s t core c else AllTrap s s t core c := by
  refine ⟨_, exec_mxpush_body hi settled room short, ?_⟩
  simp only [mxpushBody, noteIssue_wft_kreg, noteIssue_pushed, noteIssue_wft_part, noteIssue_array, noteIssue_mxCond, fails]
  exact raiseAll_stops h (mxCond_postable fails) core

/-! ## CPTL, CPTS and CPPW (R278, R346) -/

theorem AllTrap.setCopyq {s u t : State} {core : Nat} {c : Cond} (h : AllTrap s u t core c) (k : Nat) (q : List CopyWait) :
    AllTrap s u (setCopyq t k q) core c :=
  ⟨fun l hl => (h.1 l hl).setCopyq k q, h.2.setCopyq k q⟩

theorem WeftParks.setCopyq {s u t : State} {core : Nat} {c : Cond} (h : WeftParks s u t core c) (k : Nat) (q : List CopyWait) :
    WeftParks s u (setCopyq t k q) core c :=
  ⟨h.1.setCopyq k q, h.2.setCopyq k q⟩

/-- What a condition comes to does not turn on who waits for a slot. -/
theorem stops_setCopyq {s u t : State} {core : Nat} {c : Cond}
    (h : if c.sys = true then WeftParks s u t core c else AllTrap s u t core c) (k : Nat) (q : List CopyWait) :
    if c.sys = true then WeftParks s u (setCopyq t k q) core c else AllTrap s u (setCopyq t k q) core c := by
  cases sys : c.sys with
  | true => exact WeftParks.setCopyq (by simpa [sys] using h) k q
  | false => exact AllTrap.setCopyq (by simpa [sys] using h) k q

/-- A trap of every lane in a state that has looked nothing up. -/
theorem trapAll_noteIssue_allTrap {s : State} (h : AtUser s) {c : Cond} (user : c.sys = false) (core : Nat) :
    AllTrap s s (trapAll (noteIssue s) c) core c := by
  have traps := trapAll_allTrap (u := s) h user rfl core
  rwa [withIssue_noteIssue] at traps

section
variable {s : State} {store : Bool} {ka kb kc : KReg} {b : BitVec 4}

/-- A tile copy that issues, whatever its checks come to. -/
theorem tileIssue_body (hi : IssuesAs copyRole [] [(ka.toNat, 1), (kb.toNat, 1),
      (kc.toNat, min (readTile (s.block s.iss.blk).spm (s.wft.kreg ka.toNat).toNat).rank 5)] s) (settled : lanesPending s = false)
    (room : s.wft.room .cp 1 = true) (slots : slotFor s (s.block s.iss.blk).core = true)
    (wants : tileWants (tileArgs store ka kb kc b s) s = false) :
    tileIssue store ka kb kc b s = .next (setCopyq (tileBody (tileArgs store ka kb kc b s) s (noteIssue s)) (s.block s.iss.blk).core
      (nextCopyq s (s.block s.iss.blk).core)) := by
  rw [tileIssue_eq]
  refine issueCopy_body hi ?_ slots room wants _
  rw [hi.2.2.1, settled]
  rfl

/-- A tile copy whose operands fail a check meets it in every lane. -/
theorem tile_stops (h : AtUser s) (hi : IssuesAs copyRole [] [(ka.toNat, 1), (kb.toNat, 1),
      (kc.toNat, min (readTile (s.block s.iss.blk).spm (s.wft.kreg ka.toNat).toNat).rank 5)] s) (settled : lanesPending s = false)
    (room : s.wft.room .cp 1 = true) (slots : slotFor s (s.block s.iss.blk).core = true) {c : Cond}
    (fails : tileCond s (s.wft.kreg ka.toNat).toNat (s.wft.kreg kb.toNat).toNat kc.toNat = some c) (core : Nat) :
    ∃ t, tileIssue store ka kb kc b s = .next t ∧ if c.sys = true then WeftParks s s t core c else AllTrap s s t core c := by
  have fails' : tileCond s (tileArgs store ka kb kc b s).desc (tileArgs store ka kb kc b s).spm (tileArgs store ka kb kc b s).kc =
      some c := fails
  have wants : tileWants (tileArgs store ka kb kc b s) s = false := by
    rw [tileWants, fails']
    rfl
  refine ⟨_, tileIssue_body hi settled room slots wants, ?_⟩
  simp only [tileBody, noteIssue_tileCond, fails']
  exact stops_setCopyq (raiseAll_stops h (tileCond_postable fails) core) _ _

/-- A lawful tile copy that names an uninitialised barrier traps in every lane. -/
theorem tile_bars (h : AtUser s) (hi : IssuesAs copyRole [] [(ka.toNat, 1), (kb.toNat, 1),
      (kc.toNat, min (readTile (s.block s.iss.blk).spm (s.wft.kreg ka.toNat).toNat).rank 5)] s) (settled : lanesPending s = false)
    (room : s.wft.room .cp 1 = true) (slots : slotFor s (s.block s.iss.blk).core = true) {c : Cond}
    (lawful : tileCond s (s.wft.kreg ka.toNat).toNat (s.wft.kreg kb.toNat).toNat kc.toNat = none)
    (bar : copyBarCond s b = some c) (user : c.sys = false) (core : Nat) :
    ∃ t, tileIssue store ka kb kc b s = .next t ∧ AllTrap s s t core c := by
  have lawful' : tileCond s (tileArgs store ka kb kc b s).desc (tileArgs store ka kb kc b s).spm (tileArgs store ka kb kc b s).kc =
      none := lawful
  have bar' : copyBarCond s (tileArgs store ka kb kc b s).b = some c := bar
  have wants : tileWants (tileArgs store ka kb kc b s) s = false := by
    rw [tileWants, lawful', bar']
    rfl
  refine ⟨_, tileIssue_body hi settled room slots wants, ?_⟩
  simp only [tileBody, noteIssue_tileCond, lawful', noteIssue_copyBarCond, bar']
  exact (trapAll_noteIssue_allTrap h user core).setCopyq _ _

end

section
variable {s : State} {ka kb : KReg} {b : BitVec 4} {u : State}

theorem exec_cppw_body {r : Except Cond Nat} (hi : IssuesAs copyRole [] [(ka.toNat, 2), (kb.toNat, 1)] s)
    (miss : missStall s [(s.wft.kpair ka.toNat).toNat] = false) (room : s.wft.room .cp 1 = true)
    (slots : slotFor s (s.block s.iss.blk).core = true)
    (found : cppwPage s (s.block s.iss.blk).core (s.wft.kpair ka.toNat) = (some r, u)) :
    exec (.cppw ka kb b) s = .next (setCopyq (cppwBody ka kb b s (noteIssue s)) (s.block s.iss.blk).core
      (nextCopyq s (s.block s.iss.blk).core)) := by
  rw [exec_cppw]
  refine issueCopy_body hi hi.2.2.1 slots room ?_ _
  rw [miss, found]
  rfl

/-- A CPPW whose page fails a check. -/
theorem cppw_stops {c : Cond} (hi : IssuesAs copyRole [] [(ka.toNat, 2), (kb.toNat, 1)] s)
    (miss : missStall s [(s.wft.kpair ka.toNat).toNat] = false) (room : s.wft.room .cp 1 = true)
    (slots : slotFor s (s.block s.iss.blk).core = true)
    (found : cppwPage s (s.block s.iss.blk).core (s.wft.kpair ka.toNat) = (some (.error c), u)) :
    exec (.cppw ka kb b) s = .next (setCopyq (raiseAll (u.withIssue (noteIssue s)) c) (s.block s.iss.blk).core
      (nextCopyq s (s.block s.iss.blk).core)) := by
  rw [exec_cppw_body hi miss room slots found]
  simp only [cppwBody, found]

/-- A CPPW of a lawful page that names an uninitialised barrier. -/
theorem cppw_bars {c : Cond} {page : Nat} (hi : IssuesAs copyRole [] [(ka.toNat, 2), (kb.toNat, 1)] s)
    (miss : missStall s [(s.wft.kpair ka.toNat).toNat] = false) (room : s.wft.room .cp 1 = true)
    (slots : slotFor s (s.block s.iss.blk).core = true)
    (found : cppwPage s (s.block s.iss.blk).core (s.wft.kpair ka.toNat) = (some (.ok page), u)) (bar : copyBarCond s b = some c) :
    exec (.cppw ka kb b) s = .next (setCopyq (trapAll (u.withIssue (noteIssue s)) c) (s.block s.iss.blk).core
      (nextCopyq s (s.block s.iss.blk).core)) := by
  rw [exec_cppw_body hi miss room slots found]
  simp only [cppwBody, found, noteIssue_copyBarCond, bar]

end

/-! ## The lanes of a per-lane copy that fail their checks (R275) -/

/-- The lanes whose conditions are traps, each delivered. -/
theorem laneTraps_eq_checkStep {v : State} {chk : Nat → Option Cond} (done : Nat) : ∀ {es : List (Nat × Cond)},
    (∀ e ∈ es, chk e.1 = some e.2 ∧ e.2.sys = false) → ∀ u : State, u.iss = v.iss →
      es.foldl (fun u c => deliverTrap u u.iss.blk u.iss.weft c.1 c.2 (laneMask u.iss.lanes) done) u =
        (es.map (·.1)).foldl (checkStep v chk (laneMask v.iss.lanes) done) u
  | [], _, _, _ => rfl
  | e :: es, h, u, iss => by
    obtain ⟨found, user⟩ := h e (by simp)
    have step : checkStep v chk (laneMask v.iss.lanes) done u e.1 =
        deliverTrap u u.iss.blk u.iss.weft e.1 e.2 (laneMask u.iss.lanes) done := by
      simp only [checkStep, found, user, Bool.false_eq_true, if_false, iss]
    rw [List.foldl_cons, List.map_cons, List.foldl_cons, step]
    exact laneTraps_eq_checkStep done (fun e he => h e (by simp [he])) _ ((deliverTrap_iss ..).trans iss)

/-- The condition of each lane that has one. -/
def condOf (cs : List (Nat × Cond)) (l : Nat) : Option Cond := (cs.find? (·.1 == l)).map (·.2)

theorem condOf_of_mem {cs : List (Nat × Cond)} (once : (cs.map (·.1)).Nodup) {e : Nat × Cond} (he : e ∈ cs) :
    condOf cs e.1 = some e.2 := by
  induction cs with
  | nil => cases he
  | cons x cs ih =>
    obtain ⟨fresh, once⟩ := List.nodup_cons.mp once
    rcases List.mem_cons.mp he with rfl | he
    · simp [condOf]
    · have other : (x.1 == e.1) = false := by
        rw [beq_eq_false_iff_ne]
        exact fun same => fresh (show x.1 ∈ cs.map (·.1) by rw [same]; exact List.mem_map_of_mem he)
      rw [← ih once he, condOf, condOf, List.find?_cons, other]

/-- The conditions are of lanes of the issue set, one of each at most. -/
theorem copyConds_sublist (q : List LaneCopy) : ((copyConds q).map (·.1)).Sublist (q.map (·.1)) := by
  induction q with
  | nil => exact .slnil
  | cons x q ih =>
    obtain ⟨l, r⟩ := x
    match r with
    | none => exact ih.cons _
    | some (.ok e) => exact ih.cons _
    | some (.error c) => exact ih.cons_cons _

/-- A lane's frame holds its condition. -/
theorem trapped_of_frame {s t : State} {l : Nat} {c : Cond} {d : Bool} {q : List ReOp} {n : Nat} (user : c.sys = false)
    (frame : t.thread s.iss.blk s.iss.weft l =
      trapFrame { s.lane l with deliver := d } (s.launch s.iss.blk).handler c q n) : Trapped s t l c := by
  simp only [Trapped, frame]
  exact ⟨rfl, rfl, by simp [trapFrame, Cond.tcause, user], rfl, rfl, rfl, rfl, rfl⟩

section
variable {s looked : State} (h : AtUser s) {cs : List (Nat × Cond)} (once : (cs.map (·.1)).Nodup)
  (lanes : ∀ e ∈ cs, e.1 ∈ s.iss.lanes) (grids : looked.grids = s.grids)
include h once lanes grids

/-- Each lane that a trap meets has taken it; the others stand as they were. -/
theorem laneTraps_spec (done : Nat) :
    LanesOnly s.iss.blk s.iss.weft ((cs.filter fun c => !c.2.sys).map (·.1)) (looked.withIssue (noteIssue s))
        (laneTraps cs done (looked.withIssue (noteIssue s))) ∧
      ∀ e ∈ cs, e.2.sys = false → Trapped s (laneTraps cs done (looked.withIssue (noteIssue s))) e.1 e.2 := by
  have iss : (looked.withIssue (noteIssue s)).iss = s.iss := noteIssue_iss s
  have launch : (looked.withIssue (noteIssue s)).launch s.iss.blk = s.launch s.iss.blk := by
    have same : (looked.withIssue (noteIssue s)).launch s.iss.blk = (noteIssue s).launch s.iss.blk := by
      rw [State.launch, State.launch, State.grid, State.grid, State.withIssue_grids, grids, noteIssue_grids]
      rfl
    rw [same, noteIssue_launch]
  have lane : ∀ l, ∃ d, (looked.withIssue (noteIssue s)).thread s.iss.blk s.iss.weft l = { s.lane l with deliver := d } :=
    noteIssue_thread_lane s
  have found : ∀ e ∈ cs.filter fun c => !c.2.sys, condOf cs e.1 = some e.2 ∧ e.2.sys = false := fun e he => by
    obtain ⟨he, user⟩ := List.mem_filter.mp he
    exact ⟨condOf_of_mem once he, by simpa using user⟩
  have eq := laneTraps_eq_checkStep (v := looked.withIssue (noteIssue s)) done found _ rfl
  have nodup : ((cs.filter fun c => !c.2.sys).map (·.1)).Nodup := once.sublist (List.filter_sublist.map _)
  obtain ⟨only, after⟩ := foldl_checkStep (s := looked.withIssue (noteIssue s)) (condOf cs)
    (laneMask (looked.withIssue (noteIssue s)).iss.lanes) done _ nodup (looked.withIssue (noteIssue s)) (fun l hl => by
      obtain ⟨e, he, rfl⟩ := List.mem_map.mp hl
      have mem := lanes e (List.mem_filter.mp he).1
      obtain ⟨d, hd⟩ := lane e.1
      rw [State.lane, iss, hd]
      exact ⟨rfl, h.run _ mem, h.free _ mem⟩) rfl
  rw [← eq, iss] at only
  refine ⟨only, fun e he user => ?_⟩
  have mine := after e.1 (List.mem_map_of_mem (List.mem_filter.mpr ⟨he, by simp [user]⟩))
  rw [← eq, iss] at mine
  obtain ⟨d, hd⟩ := lane e.1
  simp only [AfterCheck, condOf_of_mem once he, user, Bool.false_eq_true, if_false, State.lane, iss, hd, launch] at mine
  obtain ⟨q, n, frame⟩ := mine
  exact trapped_of_frame user frame

end

end Sys2Proof.Machine
end

section
/-!
A per-lane copy of which some lanes fail their checks, and the checks of the other copies and commands put together
(R275, R278, R282, R306, R313, R346, R383, R384).
-/
namespace Sys2Proof.Machine
open Sys2Proof

/-! ## The conditions of the lanes (R275) -/

theorem walkCond_postable (c : Cause) (reason va : Nat) : (walkCond c reason va 2).Postable := by
  intro
  unfold walkCond Cond.space
  split <;> rfl

theorem copyLane_postable {store : Bool} {vs a : VReg} {n l : Nat} {s : State} {c : Cond}
    (h : (copyLane store vs a n s l).1 = some (.error c)) : c.Postable := by
  have user : ∀ {x : Cond}, x.sys = false → x.Postable := fun h h' => by rw [h] at h'; cases h'
  unfold copyLane at h
  dsimp only at h
  repeat' split at h
  all_goals cases h
  case h_2.refl => exact walkCond_postable _ _ _
  all_goals simp_all [Cond.Postable, Cond.space]

/-- What holds of the condition of any lane's checks holds of those that the lanes of a copy meet. -/
theorem copyLanes_conds {store : Bool} {vs a : VReg} {n : Nat} {P : Cond → Prop}
    (h : ∀ u l c, (copyLane store vs a n u l).1 = some (.error c) → P c) (s : State) :
    ∀ x ∈ copyConds (copyLanes store vs a n s).1, P x.2 := by
  have key : ∀ (ls : List Nat) (r : List LaneCopy × State), (∀ x ∈ copyConds r.1, P x.2) →
      ∀ x ∈ copyConds (ls.foldl (fun r l => let q := copyLane store vs a n r.2 l; (r.1 ++ [(l, q.1)], q.2)) r).1, P x.2 := by
    intro ls
    induction ls with
    | nil => exact fun r hr => hr
    | cons l ls ih =>
      intro r hr
      refine ih _ fun x hx => ?_
      rw [copyConds, List.filterMap_append] at hx
      rcases List.mem_append.mp hx with hx | hx
      · exact hr x hx
      · obtain ⟨y, hy, eq⟩ := List.mem_filterMap.mp hx
        rw [List.mem_singleton] at hy
        subst hy
        dsimp only at eq
        split at eq
        · next c found =>
          cases eq
          exact h r.2 l c found
        · cases eq
  exact key _ _ fun x hx => by cases hx

/-- The conditions of a copy's lanes are of lanes of the issue set, at most one of each. -/
theorem copyConds_lanes (store : Bool) (vs a : VReg) (n : Nat) {s : State} (formed : FormedSet s) :
    ((copyConds (copyLanes store vs a n s).1).map (·.1)).Nodup ∧
    ∀ e ∈ copyConds (copyLanes store vs a n s).1, e.1 ∈ s.iss.lanes := by
  have sub := copyConds_sublist (copyLanes store vs a n s).1
  rw [copyLanes_fst] at sub
  exact ⟨formed.nodup.sublist sub, fun e he => sub.subset (List.mem_map_of_mem he)⟩

section
variable {s t u : State} {l : Nat} {c : Cond}

theorem Trapped.of_thread (h : Trapped s u l c) (same : t.thread s.iss.blk s.iss.weft l = u.thread s.iss.blk s.iss.weft l) :
    Trapped s t l c := by
  unfold Trapped at h ⊢
  rwa [same]

end

/-! ## A per-lane copy (R275, R276, R282) -/

section
variable {store : Bool} {vs a : VReg} {b : BitVec 4} {n : Nat} {s : State}
  (hi : IssuesAs copyRole [one vs, two a] [] s) (settled : lanesPending s = false) (room : s.wft.room .cp 1 = true)
  (slots : slotFor s (s.block s.iss.blk).core = true)
include hi settled room slots

theorem copyLanesIssue_body (wants : laneCopyWants store vs a b n s = false) :
    copyLanesIssue store vs a b n s = .next (setCopyq (laneCopyBody store b (copyLanes store vs a n s) s (noteIssue s))
      (s.block s.iss.blk).core (nextCopyq s (s.block s.iss.blk).core)) := by
  have ready : (issueBusy s [one vs, two a] [] || lanesPending s) = false := by rw [hi.2.2.1, settled]; rfl
  rw [copyLanesIssue_eq]
  exact issueCopy_body hi ready slots room wants _

/-- A per-lane copy that names an uninitialised barrier traps in every lane. -/
theorem laneCopy_bars (h : AtUser s) {c : Cond} (bar : copyBarCond s b = some c) (user : c.sys = false) (core : Nat) :
    ∃ t, copyLanesIssue store vs a b n s = .next t ∧ AllTrap s s t core c := by
  have wants : laneCopyWants store vs a b n s = false := by simp only [laneCopyWants, bar, Option.isNone_some, Bool.false_and]
  refine ⟨_, copyLanesIssue_body hi settled room slots wants, ?_⟩
  simp only [laneCopyBody, noteIssue_copyBarCond, bar]
  exact (trapAll_noteIssue_allTrap h user core).setCopyq _ _

end

/-! ## Some lane meets a system fault (R383) -/

section
variable {s looked : State} (h : AtUser s) {cs : List (Nat × Cond)} (once : (cs.map (·.1)).Nodup)
  (lanes : ∀ e ∈ cs, e.1 ∈ s.iss.lanes) (grids : looked.grids = s.grids) (post : ∀ e ∈ cs, e.2.Postable)
include h once lanes grids

theorem laneTraps_weft (done : Nat) :
    (laneTraps cs done (looked.withIssue (noteIssue s))).weft s.iss.blk s.iss.weft = (noteIssue s).wft := by
  obtain ⟨only, -⟩ := laneTraps_spec h once lanes grids done
  have same : (looked.withIssue (noteIssue s)).weft s.iss.blk s.iss.weft = (noteIssue s).wft := by
    rw [State.wft, noteIssue_iss]
    rfl
  rw [← same]
  exact only.field (fun t => t.weft s.iss.blk s.iss.weft) fun _ => rfl

/-- A lane that meets no trap stands as it stood at issue. -/
theorem laneTraps_other (done : Nat) {l : Nat} (hl : ∀ e ∈ cs, e.2.sys = false → e.1 ≠ l) :
    (laneTraps cs done (looked.withIssue (noteIssue s))).thread s.iss.blk s.iss.weft l =
      (noteIssue s).thread s.iss.blk s.iss.weft l := by
  obtain ⟨only, -⟩ := laneTraps_spec h once lanes grids done
  refine only.others l fun mem => ?_
  obtain ⟨e, he, rfl⟩ := List.mem_map.mp mem
  obtain ⟨he, user⟩ := List.mem_filter.mp he
  exact hl e he (by simpa using user) rfl

include post in
/-- The lanes that trap have trapped, and the weft has parked for the first of those with a system fault. -/
theorem laneTraps_parks {l : Nat} {c : Cond} {rest : List (Nat × Cond)} (first : (cs.filter fun c => c.2.sys) = (l, c) :: rest)
    (issue : Nat) :
    let t := systemFault (laneTraps cs 0 (looked.withIssue (noteIssue s))) s.iss.blk s.iss.weft
      ((cs.filter fun c => c.2.sys).map fun c => (c.1, { c.2 with sys := false })) s.iss.deliver issue 0 s.iss.pc true
    t.wft.cp = s.wft.cp ∧ (∀ x ∈ cs, x.2.sys = false → Trapped s t x.1 x.2) ∧ ParkedAtIssue s t c issue 0 := by
  intro t
  obtain ⟨only, traps⟩ := laneTraps_spec h once lanes grids 0
  have weft := laneTraps_weft h once lanes grids 0
  obtain ⟨mem, sys⟩ := List.mem_filter.mp (first ▸ List.mem_cons_self : (l, c) ∈ cs.filter fun c => c.2.sys)
  have iss : (laneTraps cs 0 (looked.withIssue (noteIssue s))).iss = s.iss := (only.field State.iss fun _ => rfl).trans (noteIssue_iss s)
  have run : ((laneTraps cs 0 (looked.withIssue (noteIssue s))).thread s.iss.blk s.iss.weft l).tst = .run := by
    rw [laneTraps_other h once lanes grids 0 fun e he user same => ?_, noteIssue_thread_tst]
    · exact h.run l (lanes _ mem)
    · have eq := (condOf_of_mem once he).symm.trans ((congrArg (condOf cs) same).trans (condOf_of_mem once mem))
      rw [Option.some.inj eq] at user
      exact Bool.noConfusion (user.symm.trans sys)
  have parks : t = parkWeft (laneTraps cs 0 (looked.withIssue (noteIssue s))) s.iss.blk s.iss.weft
      (faultEntry (laneTraps cs 0 (looked.withIssue (noteIssue s))) s.iss.blk s.iss.weft 1 { c with sys := false } issue 0
        s.iss.pc) true := by
    simp only [t, first, List.map_cons, h.undelivered]
    rw [systemFault_undelivered, run]
    rfl
  rw [parks]
  refine ⟨?_, fun x hx user => (traps x hx user).of_thread (parkWeft_thread ..), ?_⟩
  · rw [State.wft, parkWeft_iss, iss]
    exact (parkWeft_counter _ _ _ _ _ .cp).trans ((congrArg Weft.cp weft).trans (noteIssue_wft_cp s))
  · refine parkedAtIssue_of_postable (c := { c with sys := false }) iss (post _ mem sys) ?_
    rw [weft, State.wft, noteIssue_iss, noteIssue_weft_park]
    exact h.unparked

/-! ## No lane meets a system fault (R275, R276) -/

/-- The lanes that fail have trapped, the others are past the instruction, and the copy of their pieces is under way. -/
theorem laneCopyRun_mixed (store : Bool) (b : BitVec 4) (slot : Nat) {es : List Elem} (some_ : es ≠ []) {look : State}
    (own : looked = owned store (s.block s.iss.blk).core slot es look) (user : ∀ e ∈ cs, e.2.sys = false) :
    let passed := s.iss.lanes.filter fun l => !(cs.any fun c => c.1 == l)
    let t := laneCopyRun store b (s.block s.iss.blk).core slot es (laneTraps cs (laneMask passed)) passed look s (noteIssue s)
    (∀ x ∈ cs, Trapped s t x.1 x.2) ∧
      (∀ l ∈ s.iss.lanes, (∀ x ∈ cs, x.1 ≠ l) →
        t.thread s.iss.blk s.iss.weft l = ((noteIssue s).thread s.iss.blk s.iss.weft l).past s) ∧
      ∃ c, t.copy? (s.block s.iss.blk).core slot = some c ∧ c.pend = es := by
  intro passed t
  obtain ⟨only, traps⟩ := laneTraps_spec h once lanes grids (laneMask passed)
  let s3 := laneTraps cs (laneMask passed) (looked.withIssue (noteIssue s))
  have iss3 : s3.iss = s.iss := (only.field State.iss fun _ => rfl).trans (noteIssue_iss s)
  let s4 := passed.foldl (laneStep fun l => .next (s3.lane l)) s3
  obtain ⟨goes, others, steps⟩ := foldl_laneStep (s := s) (u := s3) (f := fun l => .next (s3.lane l)) iss3
    (h.formed.nodup.sublist List.filter_sublist : passed.Nodup) fun _ _ => rfl
  have run : t = startCopy s4 slot (laneCopy store b es s) := by
    simp only [t, laneCopyRun, List.isEmpty_iff, some_, if_false, ← own]
    rfl
  have threads : ∀ l, t.thread s.iss.blk s.iss.weft l = s4.thread s.iss.blk s.iss.weft l := fun l => by
    rw [run, State.thread, startCopy_threads, State.thread]
  have core : (s4.block s.iss.blk).core = (s.block s.iss.blk).core := by
    have same : s4.block s.iss.blk = (noteIssue s).block s.iss.blk :=
      (steps.field (fun t => t.block s.iss.blk) fun _ => rfl).trans (only.field (fun t => t.block s.iss.blk) fun _ => rfl)
    rw [same, noteIssue_block_core]
  refine ⟨fun x hx => (traps x hx (user x hx)).of_thread ?_, fun l hl free => ?_,
    { laneCopy store b es s with op := s4.nextOp, seq := (s4.weft s.iss.blk s.iss.weft).cpSeq }, ?_, rfl⟩
  · rw [threads]
    refine congrArg (fun o : Option Thread => o.getD {}) (others _ fun l hl same => ?_)
    have out := (List.mem_filter.mp hl).2
    rw [← (tkey_lane _ _ _ _).mp same, Bool.not_eq_true', List.any_eq_false] at out
    exact absurd (beq_self_eq_true x.1) (out x hx)
  · have mem : l ∈ passed := List.mem_filter.mpr ⟨hl, by simpa using fun i c hx => free (i, c) hx⟩
    rw [threads, goes l mem]
    show { s3.lane l with pc := nextPc s } = _
    rw [State.lane, iss3, laneTraps_other h once lanes grids _ fun e he _ => free e he]
    rfl
  · rw [run, ← core]
    exact startCopy_copy s4 slot (laneCopy store b es s)

end

/-! ## CPGS and CPSG (R275) -/

section
variable {store : Bool} {vs a : VReg} {b : BitVec 4} {n : Nat} {s : State} (h : AtUser s)
  (hi : IssuesAs copyRole [one vs, two a] [] s) (settled : lanesPending s = false) (room : s.wft.room .cp 1 = true)
  (slots : slotFor s (s.block s.iss.blk).core = true) (bar : copyBarCond s b = none)
  (miss : missStall s (s.iss.lanes.map fun l => ((s.lane l).pair a.toNat).toNat) = false)
  (done : ∀ x ∈ (copyLanes store vs a n s).1, x.2 ≠ none) (grids : (copyLanes store vs a n s).2.grids = s.grids)
include h hi settled room slots bar miss done grids

/-- Of a copy of which some lane meets a system fault, the lanes that trap have trapped, and the weft has parked. -/
theorem laneCopy_parks (fails : ∃ x ∈ copyConds (copyLanes store vs a n s).1, x.2.sys = true) :
    ∃ t, copyLanesIssue store vs a b n s = .next t ∧ t.wft.cp = s.wft.cp ∧
      (∀ x ∈ copyConds (copyLanes store vs a n s).1, x.2.sys = false → Trapped s t x.1 x.2) ∧
      ∀ x, (copyConds (copyLanes store vs a n s).1).find? (fun x => x.2.sys) = some x → ParkedAtIssue s t x.2
        (laneMask (s.iss.lanes.filter fun l => !(copyConds (copyLanes store vs a n s).1).any fun x => x.1 == l && !x.2.sys)) 0 := by
  obtain ⟨once, lanes⟩ := copyConds_lanes store vs a n h.formed
  have found : (copyLanes store vs a n s).1.any (·.2.isNone) = false := by
    rw [List.any_eq_false]
    exact fun x hx none => done x hx (Option.isNone_iff_eq_none.mp none)
  obtain ⟨e, he, sys⟩ := fails
  match first : (copyConds (copyLanes store vs a n s).1).filter (fun c => c.2.sys) with
  | [] => exact absurd (List.mem_filter.mpr ⟨he, sys⟩) (by rw [first]; exact List.not_mem_nil)
  | (l, c) :: rest =>
    have wants : laneCopyWants store vs a b n s = false := by
      simp only [laneCopyWants, miss, found, first, List.isEmpty_cons, Bool.false_and, Bool.or_self, Bool.and_false]
    refine ⟨_, copyLanesIssue_body hi settled room slots wants, ?_⟩
    obtain ⟨cp, traps, parked⟩ := laneTraps_parks h once lanes grids (copyLanes_conds (fun _ _ _ => copyLane_postable) s) first
      (laneMask (s.iss.lanes.filter fun l => !(copyConds (copyLanes store vs a n s).1).any fun x => x.1 == l && !x.2.sys))
    have some_ : ((copyConds (copyLanes store vs a n s).1).filter (fun c => c.2.sys)).isEmpty = false := by rw [first]; rfl
    simp only [laneCopyBody, noteIssue_copyBarCond, bar, some_, Bool.not_false, if_true]
    refine ⟨(congrArg Weft.cp (setCopyq_wft ..)).trans cp, fun x hx user => (traps x hx user).setCopyq _ _, fun x hx => ?_⟩
    rw [← List.head?_filter, first] at hx
    cases hx
    exact parked.setCopyq _ _

/-- Of a copy of which no lane meets a system fault, the lanes that fail have trapped, and the copy of the others' pieces
is under way. -/
theorem laneCopy_mixed (user : ∀ x ∈ copyConds (copyLanes store vs a n s).1, x.2.sys = false) {slot : Nat}
    (free : freeSlot s (s.block s.iss.blk).core = some slot) (some_ : passing store (copyLanes store vs a n s).1 ≠ [])
    (own : canOwn store (s.block s.iss.blk).core slot (passing store (copyLanes store vs a n s).1) (copyLanes store vs a n s).2 = true) :
    ∃ t c, copyLanesIssue store vs a b n s = .next t ∧
      (∀ x ∈ copyConds (copyLanes store vs a n s).1, Trapped s t x.1 x.2) ∧
      (∀ l ∈ s.iss.lanes, (∀ x ∈ copyConds (copyLanes store vs a n s).1, x.1 ≠ l) →
        t.thread s.iss.blk s.iss.weft l = ((noteIssue s).thread s.iss.blk s.iss.weft l).past s) ∧
      t.copy? (s.block s.iss.blk).core slot = some c ∧ c.pend = passing store (copyLanes store vs a n s).1 := by
  obtain ⟨once, lanes⟩ := copyConds_lanes store vs a n h.formed
  have found : (copyLanes store vs a n s).1.any (·.2.isNone) = false := by
    rw [List.any_eq_false]
    exact fun x hx none => done x hx (Option.isNone_iff_eq_none.mp none)
  have wants : laneCopyWants store vs a b n s = false := by
    simp only [laneCopyWants, miss, found, free, Option.getD_some, own, Bool.not_true, Bool.and_false, Bool.or_self]
  have none : (copyConds (copyLanes store vs a n s).1).filter (fun c => c.2.sys) = [] :=
    List.filter_eq_nil_iff.mpr fun x hx => by rw [user x hx]; exact Bool.false_ne_true
  have owns : (owned store (s.block s.iss.blk).core slot (passing store (copyLanes store vs a n s).1)
      (copyLanes store vs a n s).2).grids = s.grids := (owned_cached ..).grids.trans grids
  obtain ⟨traps, past, c, copy, pend⟩ := laneCopyRun_mixed h once lanes owns store b slot some_ rfl user
  refine ⟨_, c, copyLanesIssue_body hi settled room slots wants, ?_⟩
  simp only [laneCopyBody, noteIssue_copyBarCond, bar, none, List.isEmpty_nil, Bool.not_true, Bool.false_eq_true, if_false, free,
    Option.getD_some]
  exact ⟨fun x hx => (traps x hx).setCopyq _ _, fun l hl free => (setCopyq_thread ..).trans (past l hl free),
    (setCopyq_copy ..).trans copy, pend⟩

end

/-! ## CPPW (R346) -/

section
variable {s : State} {core : Nat} {va : DWord}

theorem cppwPage_of_not_canonical (h : canonical va = false) : cppwPage s core va =
    (some (.error { cause := .translate, reason := 4, addr := va.toNat, info := 8 }), s) := by
  simp only [cppwPage, h, Bool.not_false, if_true]

theorem cppwPage_of_misaligned (h : canonical va = true) (odd : va.toNat % 65536 ≠ 0) : cppwPage s core va =
    (some (.error { cause := .misalign, addr := va.toNat, info := 8 }), s) := by
  simp only [cppwPage, h, Bool.not_true, Bool.false_eq_true, if_false, bne_iff_ne.mpr odd, if_true]

/-- An aligned page that its table maps is a plate page, or is refused. -/
theorem cppwPage_of_page (h : canonical va = true) (even : va.toNat % 65536 = 0) {p : TlbEnt} {u : State}
    (page : translate s core (s.viOf s.iss.blk) (s.asnOf s.iss.blk) (va.toNat % 2 ^ 57) {} = (.ok p, u)) :
    cppwPage s core va =
      if p.plate && p.r then (some (.ok (p.phys (va.toNat % 2 ^ 57) / 65536 * 65536)), u)
      else (some (.error { cause := .protect, addr := va.toNat, info := 8, sys := true }), u) := by
  simp only [cppwPage, h, Bool.not_true, Bool.false_eq_true, if_false, even, bne_self_eq_false, page]

end

section
variable {s : State} {ka kb : KReg} {b : BitVec 4} {u : State} (h : AtUser s) (hi : IssuesAs copyRole [] [(ka.toNat, 2), (kb.toNat, 1)] s)
  (miss : missStall s [(s.wft.kpair ka.toNat).toNat] = false) (room : s.wft.room .cp 1 = true)
  (slots : slotFor s (s.block s.iss.blk).core = true) (grids : u.grids = s.grids) (core : Nat)
include h hi miss room slots grids

/-- A CPPW that a trap meets takes it in every lane. -/
theorem cppw_traps {c : Cond} (user : c.sys = false)
    (found : cppwPage s (s.block s.iss.blk).core (s.wft.kpair ka.toNat) = (some (.error c), u)) :
    ∃ t, exec (.cppw ka kb b) s = .next t ∧ AllTrap s u t core c := by
  refine ⟨_, cppw_stops hi miss room slots found, ?_⟩
  rw [raiseAll_user user]
  exact (trapAll_allTrap h user grids core).setCopyq _ _

omit grids in
/-- A CPPW that a system fault meets parks the weft. -/
theorem cppw_parks {c : Cond} (sys : c.sys = true) (post : c.Postable)
    (found : cppwPage s (s.block s.iss.blk).core (s.wft.kpair ka.toNat) = (some (.error c), u)) :
    ∃ t, exec (.cppw ka kb b) s = .next t ∧ WeftParks s u t core c :=
  ⟨_, cppw_stops hi miss room slots found, (raiseAll_weftParks h sys post core).setCopyq _ _⟩

theorem cppw_barTraps {c : Cond} {page : Nat} (user : c.sys = false) (bar : copyBarCond s b = some c)
    (found : cppwPage s (s.block s.iss.blk).core (s.wft.kpair ka.toNat) = (some (.ok page), u)) :
    ∃ t, exec (.cppw ka kb b) s = .next t ∧ AllTrap s u t core c :=
  ⟨_, cppw_bars hi miss room slots found bar, (trapAll_allTrap h user grids core).setCopyq _ _⟩

end

end Sys2Proof.Machine
end

section
/-!
The checks of the copies, of MXPUSH and of QBLK (R275, R278, R282, R306, R313, R346, R383, R384).
-/
namespace Sys2Proof.Machine
open Sys2Proof

/-! ## What a failed check comes to, spelled out -/

section
variable {s u : State} {o : Host.Outcome State Fault Refusal} {c : Cond} {core : Nat}

theorem Unstarted.parts {t : State} (h : Unstarted s u t core) :
    t.wft.cp = s.wft.cp ∧ t.wft.mx = s.wft.mx ∧ (∀ i, t.copy? core i = u.copy? core i) ∧
      (∀ i, t.array core i = u.array core i) ∧ ∀ k, (t.block k).spm = (s.block k).spm :=
  ⟨h.cp, h.mx, h.copies, h.arrays, h.spm⟩

theorem AllTrap.spelled (h : ∃ t, o = .next t ∧ AllTrap s u t core c) :
    ∃ t, o = .next t ∧ (∀ l ∈ s.iss.lanes, Trapped s t l c) ∧ t.wft.cp = s.wft.cp ∧ t.wft.mx = s.wft.mx ∧
      (∀ i, t.copy? core i = u.copy? core i) ∧ (∀ i, t.array core i = u.array core i) ∧ ∀ k, (t.block k).spm = (s.block k).spm :=
  let ⟨t, next, traps, rest⟩ := h
  ⟨t, next, traps, rest.parts⟩

theorem WeftParks.spelled (h : ∃ t, o = .next t ∧ WeftParks s u t core c) :
    ∃ t, o = .next t ∧ ParkedAtIssue s t c (laneMask s.iss.lanes) 0 ∧ t.wft.cp = s.wft.cp ∧ t.wft.mx = s.wft.mx ∧
      (∀ i, t.copy? core i = u.copy? core i) ∧ (∀ i, t.array core i = u.array core i) ∧ ∀ k, (t.block k).spm = (s.block k).spm :=
  let ⟨t, next, parks, rest⟩ := h
  ⟨t, next, parks, rest.parts⟩

/-- A condition that comes to a trap or to a park, where it is one of the two. -/
theorem stops_user (user : c.sys = false)
    (h : ∃ t, o = .next t ∧ if c.sys = true then WeftParks s u t core c else AllTrap s u t core c) :
    ∃ t, o = .next t ∧ AllTrap s u t core c := by
  simpa only [user, Bool.false_eq_true, if_false] using h

theorem stops_sys (sys : c.sys = true)
    (h : ∃ t, o = .next t ∧ if c.sys = true then WeftParks s u t core c else AllTrap s u t core c) :
    ∃ t, o = .next t ∧ WeftParks s u t core c := by
  simpa only [sys, if_true] using h

theorem stops_spelled (h : ∃ t, o = .next t ∧ if c.sys = true then WeftParks s u t core c else AllTrap s u t core c) :
    if c.sys = true then
      ∃ t, o = .next t ∧ ParkedAtIssue s t c (laneMask s.iss.lanes) 0 ∧ t.wft.cp = s.wft.cp ∧ t.wft.mx = s.wft.mx ∧
        (∀ i, t.copy? core i = u.copy? core i) ∧ (∀ i, t.array core i = u.array core i) ∧ ∀ k, (t.block k).spm = (s.block k).spm
    else
      ∃ t, o = .next t ∧ (∀ l ∈ s.iss.lanes, Trapped s t l c) ∧ t.wft.cp = s.wft.cp ∧ t.wft.mx = s.wft.mx ∧
        (∀ i, t.copy? core i = u.copy? core i) ∧ (∀ i, t.array core i = u.array core i) ∧
        ∀ k, (t.block k).spm = (s.block k).spm := by
  split
  · next sys => exact (stops_sys sys h).imp fun t ht => ⟨ht.1, ht.2.1, ht.2.2.parts⟩
  · next user => exact (stops_user (by simpa using user) h).imp fun t ht => ⟨ht.1, ht.2.1, ht.2.2.parts⟩

end

/-- Settles O60. -/
theorem copyAndMatrixTraps : Obligations.CopyAndMatrixTraps := by
  intro s vs a ka kb kc b z f slot run undelivered unparked core size bar same trapsAll parks stops
  refine ⟨copyBarCond_eq s b, ?lane, ?tile, ?page, ?matrix, ?quantise⟩
  case lane =>
    intro e he n o g q
    have exe : exec e.1 s = copyLanesIssue e.2 vs a b n s := by
      simp only [List.mem_cons, List.not_mem_nil, or_false] at he
      rcases he with rfl | rfl <;> rfl
    refine ⟨fun l => ⟨copyLane_of_not_canonical, copyLane_of_misaligned_spm, copyLane_of_misaligned_global,
      fun p u canon even even' page => ?_⟩, fun hi settled room slots => ?_⟩
    · have found : LanePage e.2 vs a n l s p u := ⟨canon, even, even', page⟩
      refine ⟨fun store w plate => ?_, copyLane_of_refused found, copyLane_of_beyond found⟩
      rw [store] at found ⊢
      exact copyLane_of_plate found w plate
    · have user := AtUser.intro hi run undelivered unparked
      refine ⟨fun h => AllTrap.spelled (exe ▸ laneCopy_bars hi settled room slots user h rfl core),
        fun free miss done grids => ⟨?_, fun traps place some_ own => ?_⟩⟩
      · rw [exe]
        exact laneCopy_parks user hi settled room slots free miss done grids
      · rw [exe]
        exact laneCopy_mixed user hi settled room slots free miss done grids traps place some_ own
  case tile =>
    intro desc spm m d cond
    refine ⟨tileCond_of_misaligned, tileCond_of_outside, fun even inside sound => ?_, fun i hi' hi settled room slots => ?_⟩
    · have tile : SoundTile s desc := ⟨even, inside, sound⟩
      refine ⟨fun x => tileCond_of_breach tile, tileBreach_base (d := d), tileBreach_rank (d := d), fun lawful start => ?_⟩
      have eq : cond = _ := tileCond_of_lawful (spm := spm) tile lawful start
      refine ⟨fun odd => eq.trans (if_pos odd), fun even beyond => ?_, fun even fits => ?_⟩
      · rw [eq, if_neg (not_not.mpr even), if_pos beyond]
      · rw [eq, if_neg (not_not.mpr even), if_neg (Nat.not_lt.mpr fits)]
    · have user := AtUser.intro hi run undelivered unparked
      have exe : ∃ store, exec i s = tileIssue store ka kb kc b s := by
        simp only [List.mem_cons, List.not_mem_nil, or_false] at hi'
        rcases hi' with rfl | rfl
        · exact ⟨false, rfl⟩
        · exact ⟨true, rfl⟩
      obtain ⟨store, exe⟩ := exe
      exact ⟨fun c fails => stops_spelled (exe ▸ tile_stops user hi settled room slots fails core),
        fun lawful h => AllTrap.spelled (exe ▸ tile_bars user hi settled room slots lawful h rfl core)⟩
  case page =>
    intro cppw va hi miss room slots
    have user := AtUser.intro hi run undelivered unparked
    refine ⟨fun h => ?_, fun canon odd => ?_, fun p u canon even page grids => ⟨fun refused => ?_, fun plate r h => ?_⟩⟩
    · exact AllTrap.spelled (cppw_traps user hi miss room slots rfl core rfl (cppwPage_of_not_canonical h))
    · exact AllTrap.spelled (cppw_traps user hi miss room slots rfl core rfl (cppwPage_of_misaligned canon odd))
    · have none : (p.plate && p.r) = false := by rcases refused with h | h <;> simp [h]
      refine WeftParks.spelled (cppw_parks user hi miss room slots core rfl (fun _ => rfl) ?_)
      rw [cppwPage_of_page canon even page, none]
      rfl
    · refine AllTrap.spelled (cppw_barTraps (page := p.phys (va.toNat % 2 ^ 57) / 65536 * 65536) user hi miss room slots grids core rfl h ?_)
      rw [cppwPage_of_page canon even page, plate, r]
      rfl
  case matrix =>
    intro off c q cond
    refine ⟨mxCond_of_misaligned (c := c), mxCond_of_outside (c := c), fun even inside sound => ?_, fun hi settled room short e fails => ?_⟩
    · have block : SoundBlock s c := ⟨even, inside, sound⟩
      refine ⟨fun x => mxCond_of_breach block, mxBreach_of_op, mxBreach_of_no_view, fun lawful => ⟨fun r => mxCond_of_range block lawful,
        fun fits signal uninit => ?_, fun fits init => ?_⟩⟩
      · have uninit' : ((s.block c.blk).bar (c.f 2 1)).init = false := uninit
        rw [show cond = _ from mxCond_of_inside block lawful fits, signal, uninit', if_pos (by decide)]
        simp [barrierCond]
      · refine (mxCond_of_inside block lawful fits).trans (if_neg ?_)
        rw [Bool.and_eq_true, decide_eq_true_iff, Bool.not_eq_true']
        exact fun ⟨signal, uninit⟩ => Bool.noConfusion ((init signal).symm.trans uninit)
    · have user := AtUser.intro hi run undelivered unparked
      exact stops_spelled (mxpush_stops user hi settled room short fails core)
  case quantise =>
    intro oa ob oc mis out hi settled
    have user := AtUser.intro hi run undelivered unparked
    have stop := fun c fails post => qblk_stops (f := f) user hi settled (c := c) fails post core
    simp only [qblkCond_eq] at stop
    refine ⟨fun odd => ?_, fun ea odd => ?_, fun ea eb odd => ?_, fun ea eb ec => ⟨fun beyond => ?_, fun fa beyond => ?_,
      fun fa fb beyond => ?_⟩⟩
    · exact AllTrap.spelled (stops_user rfl (stop _ (if_pos odd) (fun h => by cases h)))
    · exact AllTrap.spelled (stops_user rfl (stop _ (by rw [if_neg (not_not.mpr ea), if_pos odd]) (fun h => by cases h)))
    · exact AllTrap.spelled (stops_user rfl (stop _ (by rw [if_neg (not_not.mpr ea), if_neg (not_not.mpr eb), if_pos odd])
        (fun h => by cases h)))
    · exact WeftParks.spelled (stops_sys rfl (stop _ (by
        rw [if_neg (not_not.mpr ea), if_neg (not_not.mpr eb), if_neg (not_not.mpr ec), if_pos beyond]) (fun _ => rfl)))
    · exact WeftParks.spelled (stops_sys rfl (stop _ (by
        rw [if_neg (not_not.mpr ea), if_neg (not_not.mpr eb), if_neg (not_not.mpr ec), if_neg (Nat.not_lt.mpr fa), if_pos beyond])
          (fun _ => rfl)))
    · exact WeftParks.spelled (stops_sys rfl (stop _ (by
        rw [if_neg (not_not.mpr ea), if_neg (not_not.mpr eb), if_neg (not_not.mpr ec), if_neg (Nat.not_lt.mpr fa),
          if_neg (Nat.not_lt.mpr fb), if_pos beyond]) (fun _ => rfl)))

end Sys2Proof.Machine
end

section
/-!
Both memories stay in canonical form: traps and parks, the issue of an instruction, look-ups and fetches, and what the
device does by itself.
-/
namespace Sys2Proof.Machine
open Sys2Proof

/-! ## States whose memories stay in canonical form -/

/-- `v` has its memories in canonical form if `u` has. -/
def InForm (u v : State) : Prop := u.inv = true → v.inv = true

theorem InForm.refl (u : State) : InForm u u := id
theorem InForm.trans {u v w : State} (h : InForm u v) (h' : InForm v w) : InForm u w := fun i => h' (h i)

theorem Cached.inForm {u v : State} (h : Cached u v) : InForm u v := h.inv
theorem TrapsOnly.inForm {u v : State} (h : TrapsOnly u v) : InForm u v := fun i => (h.field State.inv fun _ => rfl).trans i
theorem DomainsOnly.inForm {u v : State} (h : DomainsOnly u v) : InForm u v := h.cached.inv
theorem ThreadsOnly.inForm {u v : State} (h : ThreadsOnly u v) : InForm u v := fun i => (h.field State.inv fun _ => rfl).trans i

theorem foldl_inForm {β : Type*} (f : State → β → State) (hf : ∀ s x, InForm s (f s x)) (ls : List β) (s : State) :
    InForm s (ls.foldl f s) :=
  foldl_rel InForm.refl InForm.trans f hf ls s

/-- A state chosen by a test. -/
theorem ite_inForm {s t u : State} {p : Prop} [Decidable p] (ht : InForm s t) (hu : InForm s u) : InForm s (if p then t else u) := by
  split
  · exact ht
  · exact hu

/-- An attempt keeps the memories in form, whether it goes ahead or waits. -/
def TryInForm (s : State) (r : Try) : Prop := InForm s (tried r)

theorem TryCached.inForm {s : State} {r : Try} (h : TryCached s r) : TryInForm s r := h.inv

theorem TryInForm.ok {s t : State} {r : Try} (h : TryInForm s r) (eq : r = .ok t) : InForm s t := by
  rw [eq] at h; exact h
theorem TryInForm.error {s t : State} {r : Try} (h : TryInForm s r) (eq : r = .error t) : InForm s t := by
  rw [eq] at h; exact h

theorem TryInForm.bind {s : State} {r : Try} {f : State → Try} (h : TryInForm s r) (hf : ∀ t, TryInForm t (f t)) :
    TryInForm s (r >>= f) := by
  cases r with
  | error t => exact h
  | ok t => exact InForm.trans h (hf t)

/-- The outcome of a step is a next state that has its memories in canonical form if the state before it has. -/
def Meets (s : State) (o : Host.Outcome State Fault Refusal) : Prop := ∃ t, o = .next t ∧ InForm s t

theorem Meets.next {s t : State} (h : InForm s t) : Meets s (.next t) := ⟨t, rfl, h⟩
theorem Meets.stay (s : State) : Meets s (.next s) := .next (.refl s)
theorem Meets.after {s t : State} {o : Host.Outcome State Fault Refusal} (h : Meets t o) (h' : InForm s t) : Meets s o :=
  let ⟨u, next, kept⟩ := h
  ⟨u, next, h'.trans kept⟩

/-- An outcome chosen by a test. -/
theorem ite_meets {s : State} {p : Prop} [Decidable p] {o o' : Host.Outcome State Fault Refusal} (h : Meets s o)
    (h' : Meets s o') : Meets s (if p then o else o') := by
  split
  · exact h
  · exact h'

/-! ## Traps and the issue of an instruction (R142, R376 to R386) -/

theorem setThread_inForm (s : State) (b w l : Nat) (x : Thread) : InForm s (s.setThread b w l x) := id
theorem setWeft_inForm (s : State) (b w : Nat) (x : Weft) : InForm s (s.setWeft b w x) := id
theorem setBlock_inForm (s : State) (b : Nat) (x : Block) : InForm s (s.setBlock b x) := id
theorem setCore_inForm (s : State) (c : Nat) (x : Core) : InForm s (s.setCore c x) := id
theorem setDomain_inForm (s : State) (d : Nat) (x : Domain) : InForm s (s.setDomain d x) := id
theorem setGrid_inForm (s : State) (g : Nat) (x : Grid) : InForm s (s.setGrid g x) := id
theorem setVI_inForm (s : State) (v : Nat) (x : VIface) : InForm s (s.setVI v x) := id
theorem setQueue_inForm (s : State) (q : Nat) (x : Queue) : InForm s (s.setQueue q x) := id

theorem parkWeft_inForm (s : State) (b w : Nat) (e : FqEntry) (i : Bool) : InForm s (parkWeft s b w e i) :=
  (parkWeft_trapsOnly s b w e i).inForm
theorem postFault_inForm (s : State) (vi : Nat) (f : FaultRef) : InForm s (postFault s vi f) := (postFault_trapsOnly s vi f).inForm
theorem restartStack_inForm (s : State) (b w l : Nat) : InForm s (restartStack s b w l) := (restartStack_trapsOnly s b w l).inForm
theorem enterTrap_inForm (s : State) (b w l : Nat) (c : Cond) : InForm s (enterTrap s b w l c) := (enterTrap_trapsOnly s b w l c).inForm
theorem deliverTrap_inForm (s : State) (b w l : Nat) (c : Cond) (i d : Nat) : InForm s (deliverTrap s b w l c i d) :=
  (deliverTrap_trapsOnly s b w l c i d).inForm
theorem trapAll_inForm (s : State) (c : Cond) : InForm s (trapAll s c) := (trapAll_trapsOnly s c).inForm
theorem raiseAll_inForm (s : State) (c : Cond) : InForm s (raiseAll s c) := (raiseAll_trapsOnly s c).inForm
theorem systemFault_inForm (s : State) (b w : Nat) (fs : List (Nat × Cond)) (d i n : Nat) (pc : DWord) (a : Bool) :
    InForm s (systemFault s b w fs d i n pc a) := (systemFault_trapsOnly s b w fs d i n pc a).inForm

theorem captureWeft_inForm (s : State) (b w : Nat) : InForm s (captureWeft s b w) := by
  refine foldl_inForm _ (fun u l => ?_) _ s
  have back : InForm u (if stackHeld u b w l then restartStack u b w l else u) := ite_inForm (restartStack_inForm u b w l) (.refl u)
  exact back.trans (ite_inForm id id)

theorem clearDeliver_inForm (s : State) : InForm s (clearDeliver s) := foldl_inForm _ (fun u l => setThread_inForm u _ _ l _) _ s
theorem noteIssue_inForm (s : State) : InForm s (noteIssue s) := clearDeliver_inForm s
theorem advanceAll_inForm (s : State) : InForm s (advanceAll s) := (advanceAll_threadsOnly s).inForm

theorem laneStep_inForm (f : Nat → LaneRes) (s : State) (l : Nat) : InForm s (laneStep f s l) := by
  unfold laneStep
  split
  · exact .refl s
  · exact .refl s
  · exact deliverTrap_inForm s _ _ _ _ _ _

theorem laneSteps_inForm (f : Nat → LaneRes) (ls : List Nat) (s : State) : InForm s (ls.foldl (laneStep f) s) :=
  foldl_inForm _ (laneStep_inForm f) ls s

theorem splitFault_inForm {s u : State} {body : State → State} (hb : ∀ v, InForm s v → InForm s (body v)) (hu : InForm s u) :
    InForm s (splitFault body u) := by
  have ran : InForm s (if (u.iss.lanes.filter fun l => !u.isBad l).isEmpty then u
      else { body { u with iss := { u.iss with lanes := u.iss.lanes.filter fun l => !u.isBad l } } with iss := u.iss }) :=
    ite_inForm hu (hb { u with iss := { u.iss with lanes := u.iss.lanes.filter fun l => !u.isBad l } } hu)
  unfold splitFault
  exact ran.trans (ite_inForm (setWeft_inForm _ _ _ _) (systemFault_inForm _ _ _ _ _ _ _ _ _))

/-- An instruction whose effect depends on the state before it, as the copies' does, which look up their pages there. -/
theorem issue_meets_from {s u : State} (p : Pre) (busy : State → Bool) {body : State → State}
    (hb : ∀ v, InForm s v → InForm s (body v)) (hu : InForm s u) : Meets s (issue p busy body u) := by
  have note := hu.trans (noteIssue_inForm u)
  unfold issue
  split
  · exact .next hu
  · split
    · exact .next (note.trans (trapAll_inForm _ _))
    · split
      · exact .next hu
      · split
        · exact .next (hb _ note)
        · exact .next (hb _ note)
        · exact .next (splitFault_inForm hb note)
        · exact .next (note.trans (systemFault_inForm _ _ _ _ _ _ _ _ _))

/-- An instruction whose effect keeps the memories in form issues to a state that does. -/
theorem issue_meets (p : Pre) (busy : State → Bool) {body : State → State} (hb : ∀ u, InForm u (body u)) (s : State) :
    Meets s (issue p busy body s) :=
  issue_meets_from p busy (fun v h => h.trans (hb v)) (.refl s)

theorem issueLanes_meets (c : IClass) (rs ks : List Regs) (f : State → Nat → LaneRes) (s : State) :
    Meets s (issueLanes c rs ks f s) :=
  issue_meets _ _ (fun u => laneSteps_inForm (f u) u.iss.lanes u) s

theorem issueOnce_meets (rs ks : List Regs) (f : State → Weft) (s : State) : Meets s (issueOnce rs ks f s) :=
  issue_meets _ _ (fun u => (setWeft_inForm u _ _ (f u)).trans (advanceAll_inForm _)) s

/-! ## Operations and re-injection (R130, R310, R385, R388) -/

theorem noteSpm_inForm (s : State) (blk off n : Nat) (array : Option Nat) : InForm s (noteSpm s blk off n array) := by
  unfold noteSpm
  exact ite_inForm (setBlock_inForm s _ _) (ite_inForm (.refl s) (setBlock_inForm s _ _))

theorem spmSeen_inForm (s : State) (blk : Nat) (olds : List SpmOld) : InForm s (spmSeen s blk olds).2 := by
  unfold spmSeen
  refine foldl_rel (R := fun u v : Memory × State => InForm u.2 v.2) (fun u => .refl u.2) .trans _ (fun u e => ?_) olds
    ((s.block blk).spm, s)
  exact .refl u.2

theorem addOp_inForm (s : State) (o : MemOp) : InForm s (addOp s o) := id
theorem addCounted_inForm (s : State) (c : Counter) (o : MemOp) : InForm s (addCounted s c o) := id

theorem reinject_inForm (s : State) (b w : Nat) (a : Access) (p : ParkedOp) (lanes : List (Nat × ParkedOp)) :
    InForm s (reinject s b w a p lanes) :=
  (foldl_inForm _ (fun u (e : Nat × ParkedOp) => setThread_inForm u b w e.1
    { u.thread b w e.1 with parkq := (u.thread b w e.1).parkq.drop 1 }) lanes s).trans (addCounted_inForm _ _ _)

theorem reinjectWeft_inForm (b w : Nat) : ∀ (fuel : Nat) (s : State), InForm s (reinjectWeft b w fuel s)
  | 0, s => .refl s
  | fuel + 1, s => by
    unfold reinjectWeft
    split
    · exact .refl s
    · dsimp only
      split
      · exact .refl s
      · exact ite_inForm ((reinject_inForm s b w _ _ _).trans (reinjectWeft_inForm b w fuel _)) (.refl s)

theorem reinjectAll_inForm (s : State) : InForm s (reinjectAll s) := by
  unfold reinjectAll
  exact ite_inForm (.refl s) (foldl_inForm _ (fun u e => reinjectWeft_inForm _ _ _ u) _ s)

theorem takeDue_inForm (s : State) : InForm s (takeDue s) := by
  unfold takeDue
  refine ite_inForm (.refl s) (foldl_inForm _ (fun u e => ?_) _ s)
  dsimp only
  exact ite_inForm ((setThread_inForm u _ _ _ _).trans (enterTrap_inForm _ _ _ _ _)) (.refl u)

/-! ## Translation and fetch (R22, R212 to R219) -/

theorem l2Gate_inForm (s : State) (d line : Nat) : TryInForm s (l2Gate s d line) := (l2Gate_cached s d line).inForm

theorem noteDrop_inForm (s : State) (router : Option Nat) : InForm s (noteDrop s router) := (noteDrop_cached s router).inv

theorem leaves_inForm (w : Walked) (s : State) (d : Nat) : InForm s (w.leaves s d) := by
  have gate : InForm s (match w.held with | some (x, line) => tried (l2Gate s x line) | none => s) := by
    split <;> [exact l2Gate_inForm s _ _; exact .refl s]
  have drop : ∀ u : State, InForm u (if w.drop.isSome then noteDrop (drawClasses u) w.drop else u) := fun u =>
    ite_inForm (fun h => noteDrop_inForm (drawClasses u) _ h) (.refl u)
  unfold Walked.leaves
  dsimp only
  exact ite_inForm (gate.trans (drop _)) (gate.trans (drop _))

theorem domainWalk_inForm (s : State) (d vi asn va : Nat) : InForm s (domainWalk s d vi asn va).2 := by
  unfold domainWalk
  split
  · exact .refl s
  · exact leaves_inForm _ s d

theorem fillCore_inForm (s : State) (core : Nat) (t : TlbEnt) : InForm s (fillCore s core t) := id

theorem fillTlbs_inForm (s : State) (core : Nat) (t : TlbEnt) : InForm s (fillTlbs s core t) :=
  foldl_inForm _ (fun u c => fillCore_inForm u c t) _ s

theorem orPte_inForm (s : State) (d entry bits : Nat) : TryInForm s (orPte s d entry bits) := by
  unfold orPte
  split
  · exact InForm.refl s
  · exact .bind (homeReach_cached s d _).inForm fun t =>
      (homeBytes_cached t _ _ _ _).inForm.trans (dirWrite_domainsOnly _ _ _ _).inForm

theorem endWalk_inForm (s : State) (core vi asn va : Nat) (u : PageUse) (w : WalkRes) : InForm s (endWalk s core vi asn va u w).2 := by
  cases w with
  | fail c r => exact .refl s
  | ok entry t =>
    have pte := orPte_inForm s (domOf core) entry (if mayDirty s vi asn va t u then 0x180 else 0x80)
    unfold endWalk
    dsimp only
    split
    · next h => exact pte.error h
    · next h => exact (pte.ok h).trans (fillTlbs_inForm _ _ _)

theorem translate_inForm (s : State) (core vi asn va : Nat) (u : PageUse) : InForm s (translate s core vi asn va u).2 := by
  have walk := domainWalk_inForm s (domOf core) vi asn va
  unfold translate
  split
  · exact .refl s
  · split
    · exact fillCore_inForm s _ _
    · split
      · next h => rw [h] at walk; exact walk
      · next h => rw [h] at walk; exact walk.trans (endWalk_inForm _ _ _ _ _ _ _)

theorem plateSlot_inForm (s : State) (pa : Nat) : InForm s (plateSlot s pa).2 := by
  unfold plateSlot
  dsimp only
  split <;> exact .refl s

theorem plateGet_inForm (s : State) (pa n : Nat) : InForm s (plateGet s pa n).1 := by
  unfold plateGet
  dsimp only
  split <;> exact plateSlot_inForm s pa

theorem codeUnit_inForm (s : State) (core : Nat) (g : Grid) (va pa : Nat) : InForm s (codeUnit s core g va pa).2 := by
  have plate := plateGet_inForm s pa 2
  unfold codeUnit
  dsimp only
  split
  · exact .refl s
  · exact fun h => noteDrop_inForm (drawClasses s) _ h
  · split
    · split
      · next h => rw [h] at plate; exact plate
      · next h => rw [h] at plate; exact plate
    · split
      · exact .refl s
      · split <;> exact .refl s

theorem fetchUnit_inForm (s : State) (core : Nat) (g : Grid) (va : DWord) : InForm s (fetchUnit s core g va).2 := by
  have page := translate_inForm s core g.vi g.asn (va.toNat % 2 ^ 57) {}
  unfold fetchUnit
  split
  · exact .refl s
  · split
    · next h => rw [h] at page; exact page
    · next h => rw [h] at page; exact page
    · next h =>
      rw [h] at page
      split
      · exact page
      · exact page.trans (codeUnit_inForm _ _ _ _ _)

theorem fetchWord_inForm (s : State) (core : Nat) (g : Grid) (pc : DWord) : InForm s (fetchWord s core g pc).2 := by
  have first := fetchUnit_inForm s core g pc
  unfold fetchWord
  split
  · next h => rw [h] at first; exact first
  · next h => rw [h] at first; exact first
  · next u t h =>
    rw [h] at first
    have second := fetchUnit_inForm t core g (pc + 2)
    split
    · exact first
    · split
      · next h => rw [h] at second; exact first.trans second
      · next h => rw [h] at second; exact first.trans second
      · next h => rw [h] at second; exact first.trans second

theorem fetchFault_inForm (s : State) (i : Issue) (c : Cond) : InForm s (fetchFault s i c) := by
  unfold fetchFault
  exact ite_inForm (systemFault_inForm _ _ _ _ _ _ _ _ _) (fun h => trapAll_inForm { s with iss := i } c h)

/-! ## What the device does by itself (R349, R356, R371, R413, R432) -/

/-- What an access of the device leaves, of which `state` reads the state, keeps the memories in form. -/
inductive DevInForm {α : Type} (state : α → State) (s : State) : DevRes α → Prop
  | ok {a : α} (h : InForm s (state a)) : DevInForm state s (.ok a)
  | wait : DevInForm state s .wait
  | fault {va : Nat} {t : State} (h : InForm s t) : DevInForm state s (.fault va t)

theorem DevInForm.of_ok {α : Type} {f : α → State} {s : State} {x : DevRes α} {a : α} (h : DevInForm f s x) (eq : x = .ok a) :
    InForm s (f a) := by
  subst eq; cases h with | ok h => exact h

theorem DevInForm.of_fault {α : Type} {f : α → State} {s t : State} {x : DevRes α} {va : Nat} (h : DevInForm f s x)
    (eq : x = .fault va t) : InForm s t := by
  subst eq; cases h with | fault h => exact h

theorem DevInForm.after {α : Type} {f : α → State} {s t : State} {x : DevRes α} (h : DevInForm f t x) (h' : InForm s t) :
    DevInForm f s x := by
  cases h with
  | ok h => exact .ok (h'.trans h)
  | wait => exact .wait
  | fault h => exact .fault (h'.trans h)

theorem DevInForm.bind {α β : Type} {f : α → State} {g : β → State} {s : State} {x : DevRes α} {k : α → DevRes β}
    (h : DevInForm f s x) (hk : ∀ a, DevInForm g (f a) (k a)) : DevInForm g s (x.bind k) := by
  cases h with
  | ok h => exact (hk _).after h
  | wait => exact .wait
  | fault h => exact .fault h

theorem devWalk_inForm (s : State) (vi asn va : Nat) (write : Bool) : DevInForm Prod.snd s (devWalk s vi asn va write) := by
  have walk := domainWalk_inForm s (s.leadDom vi) vi asn (va % 2 ^ 57)
  unfold devWalk
  split
  · exact .fault (.refl s)
  · split
    · exact .wait
    · next h => rw [h] at walk; exact .fault walk
    · next entry t u h =>
      rw [h] at walk
      have pte := orPte_inForm u (u.leadDom vi) entry
        (if mayDirty u vi asn (va % 2 ^ 57) t { reads := !write, writes := write } then 0x180 else 0x80)
      dsimp only
      split
      · exact .wait
      · next h => exact .ok (walk.trans (pte.ok h))

theorem devAt_inForm {α : Type} {f : α → State} (s : State) (vi va pa : Nat) {k : State → DevRes α} (hk : ∀ t, DevInForm f t (k t)) :
    DevInForm f s (devAt s vi va pa k) := by
  unfold devAt
  split
  · exact hk s
  · exact .wait
  · exact .fault (noteDrop_inForm (drawClasses s) _)

theorem ReadCached.inForm_ok {s t : State} {r : TryRead} {v : Nat} {b : Option Nat} (h : ReadCached s r) (eq : r = .ok (t, v, b)) :
    InForm s t := by
  rw [eq] at h; exact h.inv

theorem devGet_inForm (s : State) (vi asn va n : Nat) : DevInForm Prod.snd s (devGet s vi asn va n) := by
  refine .bind (devWalk_inForm s vi asn va false) fun q => ?_
  dsimp only
  split
  · exact .fault (.refl q.2)
  · refine devAt_inForm q.2 vi va _ fun t => ?_
    split
    · have plate := plateGet_inForm t (q.1.phys (va % 2 ^ 57)) n
      split
      · exact .fault plate
      · exact .ok plate
    · have home := readHome_cached t (homeOf (q.1.phys (va % 2 ^ 57))) (q.1.phys (va % 2 ^ 57)) n
      split
      · exact .wait
      · next h => exact .ok (home.inForm_ok h)
      · next h => exact .fault (home.inForm_ok h)

theorem devPut_inForm (s : State) (vi asn va n x : Nat) : DevInForm id s (devPut s vi asn va n x) := by
  refine .bind (devWalk_inForm s vi asn va true) fun q => ?_
  dsimp only
  split
  · exact .fault (.refl q.2)
  · refine devAt_inForm q.2 vi va _ fun t => ?_
    have home := (writeHome_cached t (homeOf (q.1.phys (va % 2 ^ 57))) (q.1.phys (va % 2 ^ 57)) n x).inForm
    split
    · exact .wait
    · next h => exact .ok ((home.ok h).trans (noteStore_cached _ _ _ _ _).inForm)

theorem devReadAll_inForm (vi asn base : Nat) : ∀ (ps : List (Nat × Nat)) (s : State) (m : Memory),
    DevInForm Prod.snd s (devReadAll vi asn base ps s m)
  | [], s, _ => .ok (.refl s)
  | (va, n) :: ps, s, _ => .bind (devGet_inForm s vi asn va n) fun r => devReadAll_inForm vi asn base ps r.2 _

theorem devRead_inForm (s : State) (vi asn va n : Nat) : DevInForm Prod.snd s (devRead s vi asn va n) := devReadAll_inForm _ _ _ _ s []

theorem devWriteAll_inForm (vi asn base : Nat) (m : Memory) : ∀ (ps : List (Nat × Nat)) (s : State),
    DevInForm id s (devWriteAll vi asn base m ps s)
  | [], s => .ok (.refl s)
  | (va, n) :: ps, s => .bind (devPut_inForm s vi asn va n _) fun t => devWriteAll_inForm vi asn base m ps t

theorem devWrite_inForm (s : State) (vi asn va n : Nat) (m : Memory) : DevInForm id s (devWrite s vi asn va n m) :=
  devWriteAll_inForm _ _ _ _ _ s

theorem devPoke_inForm (s : State) (vi asn va n x : Nat) : DevInForm id s (devPoke s vi asn va n x) := devWrite_inForm s _ _ _ _ _

theorem devQueue_inForm {s t : State} {vi asn va n x : Nat} (h : devQueue s vi asn va n x = some t) : InForm s t := by
  unfold devQueue at h
  split at h
  · cases h
  · cases h
    exact .refl s

theorem flushPut_inForm (s : State) (vi : Nat) : InForm s (flushPut s vi) := by
  unfold flushPut
  split
  · exact .refl s
  next p ps _ =>
    have put := devPut_inForm s vi p.asn p.va p.n p.x
    dsimp only
    refine ite_inForm (.refl s) (ite_inForm (setVI_inForm s _ _) ?_)
    split
    · exact .refl s
    · next h => exact (put.of_fault h).trans (setVI_inForm _ _ _)
    · next h => exact (put.of_ok h).trans (setVI_inForm _ _ _)

theorem flushPuts_inForm (s : State) : InForm s (flushPuts s) := by
  unfold flushPuts
  exact ite_inForm (.refl s) (foldl_inForm _ (fun u e => flushPut_inForm u _) _ s)

theorem setNode_inForm (s : State) (q n : Nat) (x : Node) : InForm s (s.setNode q n x) := by
  unfold State.setNode
  split <;> exact .refl s

theorem testWaits_inForm (vi n : Nat) : ∀ (ws : List (Nat × Nat)) (s : State), InForm s (testWaits vi n ws s)
  | [], s => .refl s
  | w :: ws, s => by
    unfold testWaits
    dsimp only
    split
    · refine InForm.trans ?_ (testWaits_inForm vi n ws _)
      exact fun h => setNode_inForm _ _ _ _ (ite_inForm (setVI_inForm s _ _) (.refl s) h)
    · exact testWaits_inForm vi n ws s

theorem countRaise_inForm (s : State) (vi n : Nat) : InForm s (countRaise s vi n) := id

theorem testEvent_inForm (s : State) (vi n : Nat) : InForm s (testEvent s vi n) := by
  unfold testEvent
  exact ite_inForm id (testWaits_inForm vi n _ s)

theorem raiseEvents_inForm (s : State) (vi : Nat) (ns : List Nat) : InForm s (raiseEvents s vi ns) :=
  (foldl_inForm _ (fun u n => countRaise_inForm u vi n) _ s).trans (foldl_inForm _ (fun u n => testEvent_inForm u vi n) _ _)

theorem raiseEvent_inForm (s : State) (vi n : Nat) : InForm s (raiseEvent s vi n) := raiseEvents_inForm s vi [n]
theorem sendVector_inForm (s : State) (vi vec : Nat) : InForm s (sendVector s vi vec) := id
theorem countErr_inForm (s : State) (vi : Nat) : InForm s (countErr s vi) := id

end Sys2Proof.Machine
end

section
/-!
Both memories stay in canonical form: control flow, the memory operations, barriers and fences.
-/
namespace Sys2Proof.Machine
open Sys2Proof

/-! ## Calls, returns and the end of a thread (R24 to R27, R146, R157, R188 to R190, R388) -/

/-- Lanes of which some leave an operation that steps a counter. -/
theorem counted_inForm {s t : State} (h : InForm s t) (p : Prop) [Decidable p] (c : Counter) (o : MemOp) :
    InForm s (if p then t else addCounted t c o) := ite_inForm h h

theorem execCallTo_meets (rs : List Regs) (target : State → Nat → DWord) (s : State) : Meets s (execCallTo rs target s) :=
  issue_meets _ _ (fun u => counted_inForm (laneSteps_inForm (fun l => callLane u l (target u l)) u.iss.lanes u) _ _ _) s

theorem execRet_meets (s : State) : Meets s (execRet s) :=
  issue_meets _ _ (fun u => counted_inForm (laneSteps_inForm (retLane u) u.iss.lanes u) _ _ _) s

theorem execCsrr_meets (d : VReg) (csr : BitVec 12) (s : State) : Meets s (execCsrr d csr s) :=
  issue_meets _ _ (fun u => laneSteps_inForm _ u.iss.lanes u) s
theorem execCsrw_meets (csr : BitVec 12) (a : VReg) (s : State) : Meets s (execCsrw csr a s) :=
  issue_meets _ _ (fun u => laneSteps_inForm _ u.iss.lanes u) s

theorem execRett_meets (s : State) : Meets s (execRett s) := by
  refine issue_meets _ _ (fun u => ?_) s
  exact laneSteps_inForm (rettLane u) u.iss.lanes u

theorem wsyncRelease_inForm (s : State) (b w : Nat) : InForm s (wsyncRelease s b w) := by
  refine foldl_inForm _ (fun u l => ?_) _ s
  dsimp only
  split
  · exact ite_inForm (setThread_inForm u _ _ _ _) (.refl u)
  · exact .refl u

theorem yieldCheck_inForm (s : State) (b : Nat) : InForm s (yieldCheck s b) := ite_inForm id (.refl s)
theorem finishCheck_inForm (s : State) (b w : Nat) : InForm s (finishCheck s b w) := ite_inForm id (.refl s)

theorem execWsync_meets (ka : KReg) (s : State) : Meets s (execWsync ka s) :=
  issue_meets _ _ (fun u => (laneSteps_inForm _ u.iss.lanes u).trans (wsyncRelease_inForm _ _ _)) s

theorem execYield_meets (s : State) : Meets s (execYield s) := by
  refine issue_meets _ _ (fun u => ?_) s
  split
  · exact trapAll_inForm u _
  · exact (laneSteps_inForm _ u.iss.lanes u).trans (yieldCheck_inForm _ _)

theorem execExit_meets (s : State) : Meets s (execExit s) := by
  refine issue_meets _ _ (fun u => ?_) s
  split
  · exact trapAll_inForm u _
  · exact (((laneSteps_inForm _ u.iss.lanes u).trans (wsyncRelease_inForm _ _ _)).trans (finishCheck_inForm _ _ _)).trans
      (yieldCheck_inForm _ _)

/-! ## Memory instructions at issue (R126 to R132) -/

theorem memIssue_meets (a : Access) (rs : List Regs) (stall : State → Bool) (check : State → Nat → Option Cond)
    (acc : State → Nat → LaneAcc) (s : State) : Meets s (memIssue a rs stall check acc s) := by
  refine issue_meets _ _ (fun u => ?_) s
  have lanes : ∀ (chk : Nat → Option Cond) (ok : List Nat), InForm u (u.iss.lanes.foldl (fun v l =>
      match chk l with
      | some c => if c.sys then v else deliverTrap v u.iss.blk u.iss.weft l c (laneMask u.iss.lanes) (laneMask ok)
      | none => v.setThread u.iss.blk u.iss.weft l { u.lane l with pc := nextPc u }) u) := by
    refine fun chk ok => foldl_inForm _ (fun v l => ?_) _ u
    split
    · exact ite_inForm (.refl v) (deliverTrap_inForm v _ _ _ _ _ _)
    · exact setThread_inForm v _ _ _ _
  have ops := fun chk ok o => counted_inForm (lanes chk ok) (List.isEmpty ok = true) a.fn.counter o
  exact ite_inForm (ops _ _ _) ((ops _ _ _).trans (systemFault_inForm _ _ _ _ _ _ _ _ _))

theorem prefetchIssue_meets (a : Access) (base : VReg) (imm : Nat) (s : State) : Meets s (prefetchIssue a base imm s) := by
  refine issue_meets _ _ (fun u => ?_) s
  exact ite_inForm (advanceAll_inForm u) (advanceAll_inForm u)

/-! ## Outstanding accesses (R126, R377, R382 to R386) -/

theorem setOp_inForm (s : State) (id : Nat) (o : MemOp) : InForm s (s.setOp id o) := fun h => h
theorem dropOp_inForm (s : State) (id : Nat) : InForm s (s.dropOp id) := fun h => h

theorem setAcc_inForm (s : State) (id : Nat) (a : LaneAcc) : InForm s (setAcc s id a) := by
  unfold setAcc
  split <;> exact .refl s

theorem failAcc_inForm (s : State) (id : Nat) (o : MemOp) (a : LaneAcc) : InForm s (failAcc s id o a) :=
  ite_inForm (setAcc_inForm s _ _) (ite_inForm (restartStack_inForm s _ _ _) (setAcc_inForm s _ _))

theorem accSystemFault_inForm (s : State) (id : Nat) (o : MemOp) (a : LaneAcc) (c : Cond) :
    InForm s (accSystemFault s id o a c) := by
  have fault : ∀ d pc, InForm s
      (systemFault (failAcc s id o a) o.blk o.weft [(a.lane, c)] d o.issue o.doneMask pc o.acc.fn.isStack) :=
    fun d pc => (failAcc_inForm s id o a).trans (systemFault_inForm _ _ _ _ _ _ _ _ _)
  refine ite_inForm (setAcc_inForm s _ _) (ite_inForm ?_ (fault _ _))
  exact fun h => captureWeft_inForm (noteParkOp _ o.blk o.weft id) _ _ (fault _ _ h)

theorem accPreciseTrap_inForm (s : State) (id : Nat) (o : MemOp) (a : LaneAcc) (c : Cond) :
    InForm s (accPreciseTrap s id o a c) :=
  fun h => deliverTrap_inForm _ _ _ _ _ _ _ h

theorem accReady_inForm (s : State) (id : Nat) (o : MemOp) (a : LaneAcc) (t : TlbEnt) : InForm s (accReady s id o a t) := by
  have set : ∀ a, InForm s (setAcc s id a) := fun a => setAcc_inForm s id a
  unfold accReady
  dsimp only
  split <;> exact set _

theorem accTranslate_inForm (s : State) (id : Nat) (o : MemOp) (a : LaneAcc) : InForm s (accTranslate s id o a) := by
  have page := translate_inForm s o.core (s.viOf o.blk) (s.asnOf o.blk) (a.addr % 2 ^ 57) o.acc.pageUse
  have fault : ∀ (t : State) (c : Cond), InForm s t →
      InForm s (if (s.weft o.blk o.weft).park.isSome then s else accSystemFault t id o a c) :=
    fun t c h => ite_inForm (.refl s) (h.trans (accSystemFault_inForm t id o a c))
  unfold accTranslate
  dsimp only
  split
  · next h => rw [h] at page; exact page
  · next h =>
    rw [h] at page
    exact ite_inForm (page.trans (setAcc_inForm _ _ _)) (fault _ _ page)
  · next h =>
    rw [h] at page
    split
    · exact ite_inForm (page.trans (setAcc_inForm _ _ _)) (page.trans (accReady_inForm _ _ _ _ _))
    · exact ite_inForm (page.trans (setAcc_inForm _ _ _))
        (ite_inForm (fault _ _ page) (page.trans (accPreciseTrap_inForm _ _ _ _ _)))

theorem accResolve_inForm (s : State) (id : Nat) (o : MemOp) (a : LaneAcc) : InForm s (accResolve s id o a) := by
  unfold accResolve
  split
  · exact setAcc_inForm s _ _
  · exact ite_inForm (.refl s) (accSystemFault_inForm s id o a _)

theorem execPageWalk_meets (op lane : Nat) (s : State) : Meets s (execPageWalk op lane s) := by
  unfold execPageWalk
  split
  · exact .stay s
  · split
    · exact .stay s
    · exact .next (ite_inForm (.refl s) (ite_inForm (accResolve_inForm s _ _ _) (accTranslate_inForm s _ _ _)))

/-! ## What an access does at its place -/

/-- A read keeps the memories in form, whether it goes ahead or waits. -/
def ReadInForm (s : State) : TryRead → Prop
  | .ok x => InForm s x.1
  | .error t => InForm s t

theorem ReadCached.inForm {s : State} {r : TryRead} (h : ReadCached s r) : ReadInForm s r := by
  cases r <;> exact h.inv

theorem ReadInForm.bind {s : State} {r : Try} {f : State → TryRead} (h : TryInForm s r) (hf : ∀ t, ReadInForm t (f t)) :
    ReadInForm s (r >>= f) := by
  cases r with
  | error t => exact h
  | ok t =>
    have next := hf t
    change ReadInForm s (f t)
    cases eq : f t with
    | ok x => rw [eq] at next; exact InForm.trans h next
    | error u => rw [eq] at next; exact InForm.trans h next

theorem ReadInForm.after {s t : State} {r : TryRead} (h : ReadInForm t r) (h' : InForm s t) : ReadInForm s r := by
  cases r <;> exact h'.trans h

theorem TryInForm.map {s : State} {r : Try} {f : State → State} (h : TryInForm s r) (hf : ∀ t, InForm t (f t)) :
    TryInForm s (r >>= fun t => .ok (f t)) := .bind h hf

theorem TryInForm.after {s t : State} {r : Try} (h : TryInForm t r) (h' : InForm s t) : TryInForm s r := InForm.trans h' h

/-- A read after an attempt. -/
theorem ReadInForm.value {s : State} {r : Try} (h : TryInForm s r) (v : State → Nat × Option Nat) :
    ReadInForm s (r >>= fun t => .ok (t, v t)) := .bind h fun t => .refl t

/-- A read chosen by a test. -/
theorem ite_readInForm {s : State} {p : Prop} [Decidable p] {r r' : TryRead} (h : ReadInForm s r) (h' : ReadInForm s r') :
    ReadInForm s (if p then r else r') := by
  split
  · exact h
  · exact h'

theorem spmAccess_inForm (s : State) (o : MemOp) (a : LaneAcc) : ReadInForm s (spmAccess s o a) := by
  have wrote := noteSpm_inForm s a.aux a.addr o.acc.size none
  exact ite_readInForm (InForm.refl s) (ite_readInForm (fun h => wrote h) (InForm.refl s))

theorem plateLoad_inForm (s : State) (d pa n : Nat) (p : Policy) : ReadInForm s (plateLoad s d pa n p) := by
  have plate := plateGet_inForm s pa n
  unfold plateLoad
  split
  · next h => rw [h] at plate; exact plate
  · next t v h =>
    rw [h] at plate
    refine ReadInForm.after ?_ plate
    dsimp only
    split
    · exact .value (keepAs_cached t d _ p).inForm _
    · split
      · exact InForm.refl t
      · refine .bind (l2Room_cached t d _).inForm fun u => .value ?_ _
        exact .after (keepAs_cached _ d _ p).inForm (setDomain_inForm u _ _)

theorem cleanToHome_inForm (s : State) (core line : Nat) : TryInForm s (cleanToHome s core line) :=
  .bind (cleanL1_cached s _ line).inForm fun t => (cleanRemote_cached t _ line).inForm

theorem globalLoad_inForm (s : State) (o : MemOp) (pa n : Nat) (nc plate : Bool) : ReadInForm s (globalLoad s o pa n nc plate) := by
  have home : ReadInForm s (do
      let s ← cleanToHome s o.core (lineOf pa)
      readHome (← keepAs s (lineHome (lineOf pa)) (lineOf pa) o.acc.policy) (domOf o.core) pa n) :=
    .bind (cleanToHome_inForm s _ _) fun t => .bind (keepAs_cached t _ _ _).inForm fun u => (readHome_cached u _ pa n).inForm
  unfold globalLoad
  dsimp only
  split
  · exact plateLoad_inForm s _ pa n _
  · split
    · exact .bind (cleanToHome_inForm s _ _) fun t => (readHome_cached t _ pa n).inForm
    · split
      · split
        · exact .bind (cleanL1_cached s _ _).inForm fun t => (readL2_cached t _ pa n _).inForm
        · exact (loadL1_cached s _ pa n _).inForm
      · exact .bind (cleanL1_cached s _ _).inForm fun t => (readL2_cached t _ pa n _).inForm
      · exact home

theorem globalStore_inForm (s : State) (o : MemOp) (pa n x : Nat) (nc : Bool) : TryInForm s (globalStore s o pa n x nc) := by
  have put : ∀ t, TryInForm t (do
      let v ← writeHome t (domOf o.core) pa n x
      .ok (noteStore (updateL1 v o.core pa n x) (some o.core) pa n x)) := fun t =>
    .map (writeHome_cached t _ pa n x).inForm fun v => (updateL1_cached v o.core pa n x).inForm.trans (noteStore_cached _ _ _ _ _).inForm
  refine .bind (dropAliasL1_cached s o.core _).inForm fun t => ?_
  dsimp only
  split
  · exact .map (storeL1_cached t o.core pa n x _ _).inForm fun u => (noteStore_cached u _ pa n x).inForm
  · split
    · split
      · exact put t
      · exact .bind (keepAs_cached t _ _ _).inForm put
    · exact .map (l2Write_cached t _ _ _ _ _ _ _).inForm fun v =>
        (updateL1_cached v o.core pa n x).inForm.trans (noteStore_cached _ _ _ _ _).inForm

theorem atomPrepare_inForm (s : State) (core line : Nat) : TryInForm s (atomPrepare s core line) := by
  refine .bind (dropAliasL1_cached s core line).inForm fun t => .bind (evictL1_cached t _ line).inForm fun t =>
    .bind (bothGates_cached t _ line).inForm fun t => .bind (cleanRemote_cached t _ line).inForm fun t =>
    .bind (dropAlias_cached t _ line).inForm fun t => ?_
  dsimp only
  split
  · exact .after (homeGate_cached _ line).inForm (setDomain_inForm t _ _)
  · exact (homeGate_cached t line).inForm

theorem globalAtomic_inForm (s : State) (o : MemOp) (a : LaneAcc) (pa : Nat) : ReadInForm s (globalAtomic s o a pa) := by
  refine .bind (atomPrepare_inForm s o.core _) fun t => ?_
  dsimp only
  split
  · exact InForm.refl t
  · exact ((homeBytes_cached t _ _ _ _).inForm.trans (dirWrite_domainsOnly _ _ _ _).inForm).trans (noteStore_cached _ _ _ _ _).inForm

theorem hostAccess_inForm (s : State) (o : MemOp) (a : LaneAcc) (p : HostPlace) : InForm s (hostAccess s o a p).1 := hostAccess_inv o a p

/-- A host access that is performed. -/
theorem hostAccess_readInForm (s : State) (o : MemOp) (a : LaneAcc) (p : HostPlace) :
    ReadInForm s (let r := hostAccess s o a p; .ok (r.1, r.2, none)) := hostAccess_inForm s o a p

theorem accPlace_inForm (s : State) (o : MemOp) (a : LaneAcc) (half : Nat) : ReadInForm s (accPlace s o a half) := by
  unfold accPlace
  split
  next pa nc plate _ =>
    dsimp only
    split
    · exact spmAccess_inForm s o a
    · exact spmAccess_inForm s o a
    · exact InForm.refl s
    · exact plateLoad_inForm s _ _ _ _
    · exact hostAccess_readInForm s o a (hostPlace s pa)
    · split
      · exact globalAtomic_inForm s o a _
      · exact globalAtomic_inForm s o a _
      · exact globalLoad_inForm s o _ _ _ _
      · exact globalLoad_inForm s o _ _ _ _
      · exact .value (globalStore_inForm s o _ _ _ _) _
      · exact .value (globalStore_inForm s o _ _ _ _) _
  · exact InForm.refl s

theorem ask_inForm {s : State} {f : State → State} (way : Way) (hf : InForm s (f s)) :
    InForm s (match way with
      | .crosses => f s
      | .waits => s
      | .dropped at_ _ => noteDrop (drawClasses s) at_) := by
  cases way with
  | crosses => exact hf
  | waits => exact .refl s
  | dropped at_ _ => exact fun h => noteDrop_inForm (drawClasses s) at_ h

theorem prefetchLine_inForm (s : State) (o : MemOp) (pa : Nat) (plate : Bool) : InForm s (prefetchLine s o pa plate) := by
  unfold prefetchLine
  dsimp only
  split
  · refine ask_inForm _ (f := fun s => match plateLoad s (domOf o.core) (pa / 256 * 256) 256 o.acc.policy with
      | .ok (s, _, _) => s
      | .error s => s) ?_
    have load := plateLoad_inForm s (domOf o.core) (pa / 256 * 256) 256 o.acc.policy
    split
    · next h => rw [h] at load; exact load
    · next h => rw [h] at load; exact load
  · refine foldl_inForm _ (fun u sec => ask_inForm _ (f := fun s => tried _) ?_) _ s
    show TryInForm u _
    split
    · exact (l2Ready_cached u _ _ _ _ _).inForm
    · exact .bind (allocL1_cached u _ _ _).inForm fun t => (fillL1_cached t _ _ _ _).inForm

theorem acquire_inForm (s : State) (core : Nat) (sc : Scope) : InForm s (acquire s core sc) := (acquire_cached s core sc).inForm

theorem accServed_inForm (s : State) (id : Nat) (o : MemOp) (a : LaneAcc) (half v : Nat) : InForm s (accServed s id o a half v) := by
  unfold accServed
  exact ite_inForm ((setAcc_inForm s _ _).trans (acquire_inForm _ _ _)) (setAcc_inForm s _ _)

theorem hostError_inForm (s : State) (id : Nat) (o : MemOp) (a : LaneAcc) (addr : Nat) : InForm s (hostError s id o a addr) :=
  ite_inForm (.refl s) (accSystemFault_inForm s id o a _)

/-- A host access beyond the port, and any other access at its place. -/
theorem served_inForm {t : State} (o : MemOp) (a : LaneAcc) (f : Nat → State) (g : State) (hf : ∀ pa, InForm t (f pa))
    (hg : InForm t g) : InForm t (match o.acc.space, a.st with
      | .host, .ready pa _ _ => f pa
      | _, _ => g) := by
  split
  · exact hf _
  · exact hg

theorem accServe_inForm (s : State) (id : Nat) (o : MemOp) (a : LaneAcc) (half : Nat) : InForm s (accServe s id o a half) := by
  have released : TryInForm s (if o.acc.releases || o.acc.wideSc then releaseTry s o.core o.acc.scope else .ok s) := by
    split
    · exact (releaseTry_cached s _ _).inForm
    · exact InForm.refl s
  unfold accServe
  split
  · next h => exact released.error h
  · next t h =>
    refine (released.ok h).trans (ite_inForm (.refl t) (served_inForm o a _ _ (fun pa => ?_) ?_))
    · obtain ⟨p, hp⟩ : ∃ p, p = hostPlace t pa := ⟨_, rfl⟩
      rw [← hp]
      cases p with
      | host h => exact (hostAccess_inForm t o a _).trans (accServed_inForm _ _ _ _ _ _)
      | peer port w => exact (hostAccess_inForm t o a _).trans (accServed_inForm _ _ _ _ _ _)
      | error h => exact hostError_inForm t id o a h
    · have place := accPlace_inForm t o a half
      split
      · next h => rw [h] at place; exact place
      · next h => rw [h] at place; exact place.trans (accServed_inForm _ _ _ _ _ _)
      · next h =>
        rw [h] at place
        exact place.trans (ite_inForm (.refl _) (accSystemFault_inForm _ _ _ _ _))

/-! ## Completion (R25, R130, R286) -/

theorem endRet_inForm (s : State) (o : MemOp) (a : LaneAcc) (t : Thread) (r : LaneRes) : InForm s (endRet s o a t r) := by
  cases r with
  | trap c => exact fun h => deliverTrap_inForm _ _ _ _ _ _ _ h
  | goto t => exact setThread_inForm s _ _ _ t
  | next t => exact setThread_inForm s _ _ _ t

theorem accComplete_inForm (s : State) (o : MemOp) (a : LaneAcc) : InForm s (accComplete s o a) := by
  unfold accComplete
  refine ite_inForm (.refl s) ?_
  split
  · exact endRet_inForm s o a _ _
  · exact setThread_inForm s _ _ _ _

theorem retireEntry_inForm (s : State) (id : Nat) (o : MemOp) (c : Counter) : InForm s (retireEntry s id o c) := fun h => h
theorem retireOp_inForm (s : State) (id : Nat) (o : MemOp) (c : Counter) : InForm s (retireOp s id o c) := fun h => h

theorem execMemComplete_meets (op : Nat) (s : State) : Meets s (execMemComplete op s) := by
  unfold execMemComplete
  split
  · exact .stay s
  · refine ite_meets ?_ (.stay s)
    split
    · exact .next (ite_inForm id (foldl_inForm _ (fun u a => accComplete_inForm u _ a) _ s))
    · exact .next (dropOp_inForm s op)
    · exact .stay s

theorem execHostCompletionTimeout_meets (op lane : Nat) (s : State) : Meets s (execHostCompletionTimeout op lane s) := by
  unfold execHostCompletionTimeout
  split
  · exact .stay s
  · split
    · exact .stay s
    · split
      · exact .next (hostError_inForm s _ _ _ _)
      · exact .stay s

theorem execInvalidationAccept_meets (dom line target : Nat) (s : State) : Meets s (execInvalidationAccept dom line target s) := by
  unfold execInvalidationAccept
  dsimp only
  split
  · exact .next id
  · split
    · exact .stay s
    · exact ite_meets (.stay s) (ite_meets (.stay s) (.next id))

theorem execInvalidationApply_meets (dom bank : Nat) (s : State) : Meets s (execInvalidationApply dom bank s) := by
  unfold execInvalidationApply
  split
  · exact .stay s
  · exact .next fun h => (applyInval_cached _ dom _).inv h

theorem execParkPendingAdmit_meets (dom : Nat) (s : State) : Meets s (execParkPendingAdmit dom s) := by
  unfold execParkPendingAdmit
  refine ite_meets (.stay s) ?_
  split
  · exact .stay s
  · exact .next fun h => postFault_inForm _ _ _ h

theorem execKeepMarkClear_meets (dom : Nat) (s : State) : Meets s (execKeepMarkClear dom s) := .next id

/-! ## Barriers (R183 to R187) -/

theorem barTrap_inForm (s : State) (b n : Nat) (c : Cond) : InForm s (barTrap s b n c) :=
  foldl_inForm _ (fun u _ => enterTrap_inForm u b _ _ c) _ s

theorem barWake_inForm (s : State) (b n : Nat) : InForm s (barWake s b n) := foldl_inForm _ (fun u _ => setThread_inForm u b _ _ _) _ s

theorem barApply_inForm (s : State) (b n : Nat) (u : BarUpdate) : InForm s (barApply s b n u) :=
  ite_inForm (.refl s) (ite_inForm (fun h => barTrap_inForm _ _ _ _ h) (ite_inForm (fun h => barWake_inForm _ _ _ h) id))

theorem barUpdate_inForm (s : State) (b n : Nat) (u : BarUpdate) : InForm s (barUpdate s b n u) := by
  unfold barUpdate
  split
  · exact barApply_inForm s b n u
  · exact .refl s
  · exact fun h => barApply_inForm { s with cycle := _ } b n _ h
  · exact .refl s

theorem testBarriers_inForm (s : State) (c : Cycle) : InForm s (testBarriers s c) :=
  foldl_inForm _ (fun u _ => barApply_inForm u _ _ _) _ s

theorem barIssue_meets (n : Nat) (ks : List Regs) (early : State → Option Cond) (init waits arrives : Bool) {body : State → State}
    (hb : ∀ u, InForm u (body u)) (rs : List Regs) (s : State) : Meets s (barIssue n ks early init waits arrives body rs s) := by
  refine issue_meets _ _ (fun u => ?_) s
  split
  · exact trapAll_inForm u _
  · exact hb u

/-- An instruction that makes one update of a barrier. -/
theorem barUpdated_inForm (s : State) (b n : Nat) (u : BarUpdate) : InForm s (advanceAll (barUpdate s b n u)) :=
  (barUpdate_inForm s b n u).trans (advanceAll_inForm _)

theorem execBinit_meets (b : BitVec 4) (count : BitVec 12) (s : State) : Meets s (execBinit b count s) := by
  refine barIssue_meets _ _ _ _ _ _ (fun u => ?_) _ s
  exact fun h => advanceAll_inForm _ (barTrap_inForm (u.setBlock u.iss.blk _) _ _ _ h)
theorem execBarr_meets (b : BitVec 4) (s : State) : Meets s (execBarr b s) :=
  barIssue_meets _ _ _ _ _ _ (fun u => barUpdated_inForm u _ _ _) _ s
theorem execBarrx_meets (b : BitVec 4) (ka : KReg) (s : State) : Meets s (execBarrx b ka s) :=
  barIssue_meets _ _ _ _ _ _ (fun u => barUpdated_inForm u _ _ _) _ s
theorem execBexp_meets (b : BitVec 4) (ka : KReg) (s : State) : Meets s (execBexp b ka s) :=
  barIssue_meets _ _ _ _ _ _ (fun u => barUpdated_inForm u _ _ _) _ s
theorem execBdrop_meets (b : BitVec 4) (s : State) : Meets s (execBdrop b s) :=
  barIssue_meets _ _ _ _ _ _ (fun u => barUpdated_inForm u _ _ _) _ s
theorem execBwait_meets (b : BitVec 4) (p : BitVec 1) (s : State) : Meets s (execBwait b p s) :=
  barIssue_meets _ _ _ _ _ _ (fun u => ite_inForm (advanceAll_inForm u) (laneSteps_inForm _ u.iss.lanes u)) _ s
theorem execBtest_meets (d : VReg) (b : BitVec 4) (p : BitVec 1) (s : State) : Meets s (execBtest d b p s) :=
  barIssue_meets _ _ _ _ _ _ (fun u => laneSteps_inForm _ u.iss.lanes u) _ s

theorem execWaitcnt_meets (ld st : BitVec 6) (cp : BitVec 5) (mx : BitVec 4) (s : State) : Meets s (execWaitcnt ld st cp mx s) := by
  refine issue_meets _ _ (fun u => ?_) s
  split
  · exact advanceAll_inForm u
  · exact fun h => trapAll_inForm _ _ h

/-! ## FENCE, SEAL, UNSEAL and CWB (R252 to R257) -/

theorem holdLanes_inForm (s : State) (o : MemOp) : InForm s (holdLanes s o) := fun h => laneSteps_inForm _ s.iss.lanes s h

theorem execFence_meets (kind : FenceKind) (sc : Scope) (s : State) : Meets s (execFence kind sc s) :=
  issue_meets _ _ (fun u => holdLanes_inForm u _) s

theorem execSealLines_meets (ka kb : KReg) (s : State) : Meets s (execSealLines ka kb s) := by
  refine issue_meets _ _ (fun u => ?_) s
  dsimp only
  split
  · exact trapAll_inForm u _
  · exact ite_inForm (trapAll_inForm u _) (holdLanes_inForm u _)

theorem execUnsealLines_meets (ka kb : KReg) (s : State) : Meets s (execUnsealLines ka kb s) := by
  refine issue_meets _ _ (fun u => ?_) s
  dsimp only
  split
  · exact trapAll_inForm u _
  · exact ite_inForm (fun h => holdLanes_inForm _ _ h) (trapAll_inForm u _)

theorem execCwb_meets (ka kb : KReg) (sc : Scope) (s : State) : Meets s (execCwb ka kb sc s) :=
  issue_meets _ _ (fun u => ite_inForm (advanceAll_inForm u) (holdLanes_inForm u _)) s

theorem freeLanes_inForm (s : State) (id : Nat) (o : MemOp) : InForm s (freeLanes s id o) := by
  refine fun h => foldl_inForm _ (fun u l => ?_) _ (s.dropOp id) h
  exact ite_inForm (setThread_inForm u _ _ _ _) (.refl u)

theorem opRelease_inForm (s : State) (id : Nat) (o : MemOp) (sc : Scope) : TryInForm s (opRelease s id o sc) := by
  unfold opRelease
  split
  · exact InForm.refl s
  · exact (releaseTry_cached s _ sc).inForm

theorem opAcquire_inForm (s : State) (id : Nat) (o : MemOp) (sc : Scope) : TryInForm s (opAcquire s id o sc) := by
  unfold opAcquire
  split
  · exact InForm.refl s
  · exact acquire_inForm s _ sc

theorem fenceTry_inForm (s : State) (id : Nat) (o : MemOp) (k : FenceKind) (sc : Scope) : TryInForm s (fenceTry s id o k sc) := by
  cases k
  · exact opAcquire_inForm s id o sc
  · exact opRelease_inForm s id o sc
  · exact .bind (opRelease_inForm s id o sc) fun t => opAcquire_inForm t id o sc
  · exact .bind (opRelease_inForm s id o sc) fun t => opAcquire_inForm t id o sc

theorem execSealComplete_meets (op : Nat) (s : State) : Meets s (execSealComplete op s) := by
  unfold execSealComplete
  split
  · exact .stay s
  · split
    · exact .next (freeLanes_inForm s _ _)
    · exact .next fun h => foldl_inForm _ (fun u d => setDomain_inForm u d _) _ s h
    · exact .stay s

end Sys2Proof.Machine
end

section
/-!
Both memories stay in canonical form: the copy units, the weight banks and the matrix arrays.
-/
namespace Sys2Proof.Machine
open Sys2Proof

/-! ## Copies at issue (R273 to R283, R346) -/

theorem withIssue_inForm {s u : State} (h : InForm s u) (v : State) : InForm s (u.withIssue v) := h

theorem setCopy_inForm (s : State) (core slot : Nat) (c : Copy) : InForm s (s.setCopy core slot c) := setCore_inForm s _ _

theorem setCopyq_inForm (s : State) (core : Nat) (q : List CopyWait) : InForm s (setCopyq s core q) :=
  ite_inForm (.refl s) (setCore_inForm s _ _)

theorem issueCopy_meets (rs : List Regs) (core : Nat) (busy wants : Bool) {body : State → State} {s : State}
    (hb : ∀ u, InForm s u → InForm s (body u)) : Meets s (issueCopy rs core busy wants body s) := by
  unfold issueCopy
  dsimp only
  refine issue_meets_from (body := fun v => setCopyq (body v) core (nextCopyq s core)) _ _
    (fun u h => (hb u h).trans (setCopyq_inForm _ _ _)) ?_
  exact ite_inForm (setCopyq_inForm s _ _) (.refl s)

theorem endRecalls_inForm (s : State) (d : Nat) : InForm s (endRecalls s d) := ite_inForm (.refl s) (setDomain_inForm s _ _)

theorem startCopy_inForm (s : State) (slot : Nat) (c : Copy) : InForm s (startCopy s slot c) := fun h => h

theorem endCopy_inForm (s : State) (core slot : Nat) (c : Copy) (landed : Nat) : InForm s (endCopy s core slot c landed) := by
  unfold endCopy
  dsimp only
  split
  · exact fun h => barUpdate_inForm _ _ _ _ (endRecalls_inForm _ _ h)
  · exact fun h => endRecalls_inForm _ _ h

theorem copyLane_inForm (store : Bool) (vs a : VReg) (n : Nat) (s : State) (l : Nat) : InForm s (copyLane store vs a n s l).2 := by
  have page := translate_inForm s (s.block s.iss.blk).core (s.viOf s.iss.blk) (s.asnOf s.iss.blk)
    (((s.lane l).pair a.toNat).toNat % 2 ^ 57) { reads := !store, writes := store }
  unfold copyLane
  dsimp only
  split
  · exact .refl s
  · split
    · exact .refl s
    · split
      · exact .refl s
      · split
        · next h => rw [h] at page; exact page
        · next h => rw [h] at page; exact page
        · next h =>
          rw [h] at page
          split
          · split <;> exact page
          · split <;> exact page

theorem copyLanes_inForm (store : Bool) (vs a : VReg) (n : Nat) (s : State) : InForm s (copyLanes store vs a n s).2 :=
  foldl_rel (R := fun u v : List LaneCopy × State => InForm u.2 v.2) (fun u => .refl u.2) .trans _
    (fun u l => copyLane_inForm store vs a n u.2 l) s.iss.lanes ([], s)

theorem owned_inForm (store : Bool) (core slot : Nat) (es : List Elem) (s : State) : InForm s (owned store core slot es s) :=
  (owned_cached store core slot es s).inForm

theorem laneTraps_inForm (cs : List (Nat × Cond)) (done : Nat) (s : State) : InForm s (laneTraps cs done s) :=
  foldl_inForm _ (fun u _ => deliverTrap_inForm u _ _ _ _ _ _) _ s

theorem laneCopyRun_inForm (store : Bool) (b : BitVec 4) (core slot : Nat) (es : List Elem) {traps : State → State}
    (ht : ∀ u, InForm u (traps u)) (passed : List Nat) {s looked : State} (hl : InForm s looked) (s' : State) :
    InForm s (laneCopyRun store b core slot es traps passed looked s s') := by
  have own := withIssue_inForm (hl.trans (owned_inForm store core slot es looked)) s'
  have past : ∀ u, InForm s u → InForm s (passed.foldl (laneStep fun l => .next (u.lane l)) u) := fun u h =>
    h.trans (laneSteps_inForm _ passed u)
  have started := (past _ (own.trans (ht _))).trans (startCopy_inForm _ slot (laneCopy store b es s))
  exact ite_inForm (started.trans (endCopy_inForm _ _ _ _ _)) started

theorem laneCopyBody_inForm (store : Bool) (b : BitVec 4) {q : List LaneCopy × State} {s s' : State} (hq : InForm s q.2)
    (hs : InForm s s') : InForm s (laneCopyBody store b q s s') := by
  unfold laneCopyBody
  dsimp only
  split
  · exact hs.trans (trapAll_inForm s' _)
  · exact ite_inForm (((withIssue_inForm hq s').trans (laneTraps_inForm _ _ _)).trans (systemFault_inForm _ _ _ _ _ _ _ _ _))
      (laneCopyRun_inForm store b _ _ _ (laneTraps_inForm _ _) _ hq s')

theorem copyLanesIssue_meets (store : Bool) (vs a : VReg) (b : BitVec 4) (n : Nat) (s : State) :
    Meets s (copyLanesIssue store vs a b n s) := by
  rw [copyLanesIssue_eq]
  exact issueCopy_meets _ _ _ _ fun u h => laneCopyBody_inForm store b (copyLanes_inForm store vs a n s) h

theorem tilePage_inForm (s : State) (core b : Nat) (store : Bool) (va : Nat) : InForm s (tilePage s core b store va).2 := by
  have page := translate_inForm s core (s.viOf b) (s.asnOf b) (va % 2 ^ 57) { reads := !store, writes := store }
  unfold tilePage
  dsimp only
  split
  · exact .refl s
  · split
    · next h => rw [h] at page; exact page
    · next h => rw [h] at page; exact page
    · next h =>
      rw [h] at page
      split
      · exact page
      · split
        · exact page
        · split <;> exact page

theorem tileTranslate_inForm (core b : Nat) : ∀ (es : List Elem) (s : State), InForm s (tileTranslate core b es s).2
  | [], s => .refl s
  | e :: es, s => by
    have page := tilePage_inForm s core b true e.va
    unfold tileTranslate
    dsimp only
    split
    · exact tileTranslate_inForm core b es s
    · split
      · next h => rw [h] at page; exact page
      · next h => rw [h] at page; exact page.trans (tileTranslate_inForm core b es _)

theorem tileBody_inForm (x : TileArgs) {s s' : State} (hs : InForm s s') : InForm s (tileBody x s s') := by
  have pieces : InForm s (x.pieces s).2 := by
    unfold TileArgs.pieces
    split
    · exact tileTranslate_inForm _ _ _ s
    · exact .refl s
  unfold tileBody
  dsimp only
  split
  · exact hs.trans (raiseAll_inForm s' _)
  · split
    · exact hs.trans (trapAll_inForm s' _)
    · exact ((withIssue_inForm (pieces.trans (owned_inForm _ _ _ _ _)) s').trans (advanceAll_inForm _)).trans (startCopy_inForm _ _ _)

theorem tileIssue_meets (store : Bool) (ka kb kc : KReg) (b : BitVec 4) (s : State) : Meets s (tileIssue store ka kb kc b s) := by
  rw [tileIssue_eq]
  exact issueCopy_meets _ _ _ _ fun u h => tileBody_inForm _ h

theorem cppwPage_inForm (s : State) (core : Nat) (va : DWord) : InForm s (cppwPage s core va).2 := by
  have page := translate_inForm s core (s.viOf s.iss.blk) (s.asnOf s.iss.blk) (va.toNat % 2 ^ 57) {}
  unfold cppwPage
  split
  · exact .refl s
  · split
    · exact .refl s
    · split
      · next h => rw [h] at page; exact page
      · next h => rw [h] at page; exact page
      · next h =>
        rw [h] at page
        split <;> exact page

theorem touchFrame_inForm (s : State) (core frame : Nat) : InForm s (touchFrame s core frame) := setCore_inForm s _ _

theorem touchPage_inForm (s : State) (core page : Nat) (u : State) : InForm u (touchPage s core page u) := by
  unfold touchPage
  split
  · exact touchFrame_inForm u _ _
  · exact .refl u

theorem cppwBody_inForm (ka kb : KReg) (b : BitVec 4) {s s' : State} (hs : InForm s s') : InForm s (cppwBody ka kb b s s') := by
  have page := withIssue_inForm (cppwPage_inForm s (s.block s.iss.blk).core (s.wft.kpair ka.toNat)) s'
  unfold cppwBody
  dsimp only
  split
  · exact hs
  · exact page.trans (raiseAll_inForm _ _)
  · split
    · exact page.trans (trapAll_inForm _ _)
    · exact ((page.trans (touchPage_inForm _ _ _ _)).trans (advanceAll_inForm _)).trans (startCopy_inForm _ _ _)

theorem execCppw_meets (ka kb : KReg) (b : BitVec 4) (s : State) : Meets s (exec (.cppw ka kb b) s) := by
  rw [exec_cppw]
  exact issueCopy_meets _ _ _ _ fun u h => cppwBody_inForm ka kb b h

/-! ## The transfer (R271, R276, R279, R281 to R284, R288) -/

theorem copyReadL1_inForm (s : State) (core pa n : Nat) (p : Policy) : ReadInForm s (copyReadL1 s core pa n p) := by
  refine .bind (dropAliasL1_cached s core _).inForm fun t => ?_
  obtain ⟨f, hf⟩ : ∃ f, f = if p = .noL1 then t.fresh else (0, t) := ⟨_, rfl⟩
  have draw : InForm t f.2 := by
    rw [hf]
    split <;> exact .refl t
  refine ReadInForm.after ?_ draw
  dsimp only
  rw [← hf]
  split
  · exact .value (r := .ok f.2) (InForm.refl f.2) _
  · exact .value (l2Ready_cached _ _ _ _ _ _).inForm _

theorem copyRead_inForm (s : State) (core pa n : Nat) (nc : Bool) (p : Policy) : ReadInForm s (copyRead s core pa n nc p) :=
  ite_readInForm (plateLoad_inForm s _ _ _ _) (ite_readInForm
    (.bind (cleanToHome_inForm s _ _) fun t => (readHome_cached t _ pa n).inForm) (copyReadL1_inForm s _ _ _ _))

/-- What a copy writes of a piece, at the home of a non-cacheable page or at the L2. -/
theorem copyPut_inForm (s : State) (core who pa n x : Nat) (nc : Bool) (p : Policy) : TryInForm s (do
    let s ←
      if nc then do
        placeHome (← if lineHome (lineOf pa) = domOf core then .ok s else l2Gate s (lineHome (lineOf pa)) (lineOf pa))
          (domOf core) pa n x
      else l2Put s (domOf core) (lineOf pa) (lineData pa n x) (byteMask (pa % 256) n) [] p [who]
    .ok (noteStore s (some core) pa n x)) := by
  have noted : ∀ t, InForm t (noteStore t (some core) pa n x) := fun t => (noteStore_cached t _ pa n x).inForm
  dsimp only
  split
  · split
    · exact .map (placeHome_cached s _ pa n x).inForm noted
    · exact .bind (l2Gate_inForm s _ _) fun t => .map (placeHome_cached t _ pa n x).inForm noted
  · exact .map (l2Put_cached s _ _ _ _ _ _ _).inForm noted

theorem copyWrite_inForm (s : State) (core who pa n x : Nat) (nc : Bool) (p : Policy) :
    TryInForm s (copyWrite s core who pa n x nc p) := by
  have put := fun t => copyPut_inForm t core who pa n x nc p
  have lost : ∀ (t : State) (at_ : Option Nat), InForm t (loseStores (noteDrop (drawClasses t) at_) [who]) := fun t at_ =>
    ((drawClasses_cached t).trans ((noteDrop_cached _ at_).trans (loseStores_cached _ _))).inForm
  unfold copyWrite
  dsimp only
  split
  · exact put s
  · exact InForm.refl s
  · split
    · exact .map (put s) fun t => lost t _
    · exact .map (InForm.refl s) fun t => lost t _

theorem findPage_inForm {s : State} {core slot : Nat} {c c' : Copy} {e : Elem} {t : State}
    (h : findPage s core slot c e = some (t, c')) : InForm s t := by
  have page := tilePage_inForm s core c.blk (c.kind == .store) e.va
  unfold findPage at h
  dsimp only at h
  split at h
  · cases h
  · next eq =>
    rw [eq] at page
    split at h
    · cases h; exact page
    · cases h
  · next eq => rw [eq] at page; cases h; exact page
  · next u eq =>
    rw [eq] at page
    split at h
    · split at h
      · next own => cases h; exact page.trans ((ownLines_cached u core slot _).inForm.ok own)
      · cases h
    · cases h; exact page

theorem movePiece_inForm (s : State) (core : Nat) (c : Copy) (e : Elem) (pa : Nat) : TryInForm s (movePiece s core c e pa) := by
  have read := copyRead_inForm s core pa e.n e.nc c.policy
  unfold movePiece
  dsimp only
  split
  · split
    · exact copyWrite_inForm s _ _ _ _ _ _ _
    · exact InForm.refl s
  · cases eq : copyRead s core pa e.n e.nc c.policy with
    | error t => rw [eq] at read; exact read
    | ok r => rw [eq] at read; exact InForm.trans read (ite_inForm (setBlock_inForm _ _ _) (.refl _))

theorem moveAll_inForm {s : State} (core : Nat) : ∀ (es : List Elem) (r : Landing), InForm s r.s → InForm s (moveAll core es r).s
  | [], _, h => h
  | e :: es, r, h => by
    have moved := movePiece_inForm r.s core r.c e (e.pa.getD 0)
    unfold moveAll
    dsimp only
    split
    · exact moveAll_inForm core es r h
    · split
      · exact moveAll_inForm core es _ h
      · split
        · exact h
        · exact moveAll_inForm core es _ (h.trans ((drawClasses_cached r.s).trans (noteDrop_cached _ _)).inForm)
        · split
          · exact moveAll_inForm core es _ h
          · split
            · next w => exact h.trans (moved.error w)
            · next w => exact moveAll_inForm core es _ (h.trans (moved.ok w))

theorem landedWords_inForm (s : State) (blk : Nat) (moved : List Elem) : InForm s (landedWords s blk moved) :=
  ite_inForm (.refl s) (setBlock_inForm s _ _)

theorem moveChosen_inForm (s : State) (core slot : Nat) (c : Copy) (e : Elem) (j : Nat) :
    InForm s (moveChosen s core slot c e j).s := by
  have moved := (moveAll_inForm core (choosePieces c e j).1 { s := s, c := (choosePieces c e j).2 } (.refl s)).trans
    (setCopy_inForm _ core slot (moveAll core (choosePieces c e j).1 { s := s, c := (choosePieces c e j).2 }).c)
  unfold moveChosen
  dsimp only
  split
  · exact moved.trans (endRecalls_inForm _ _)
  · exact moved.trans (landedWords_inForm _ _ _)

theorem copySeek_inForm (s : State) (core slot : Nat) (c : Copy) (e : Elem) : InForm s (copySeek s core slot c e).s := by
  unfold copySeek
  split
  · exact .refl s
  · next h =>
    have page := findPage_inForm h
    split
    · exact (page.trans (setCopy_inForm _ _ _ _)).trans (postFault_inForm _ _ _)
    · split
      · split
        · exact page.trans (moveChosen_inForm _ _ _ _ _ _)
        · exact page.trans (setCopy_inForm _ _ _ _)
      · exact page

theorem copyMove_inForm (s : State) (core slot k : Nat) (c : Copy) : InForm s (copyMove s core slot k c).s := by
  unfold copyMove
  dsimp only
  split
  · exact moveChosen_inForm s _ _ _ _ _
  · split
    · exact .refl s
    · split
      · exact copySeek_inForm s _ _ _ _
      · exact moveChosen_inForm s _ _ _ _ _

theorem countLanded_inForm (c : Copy) (r : Landing) : InForm r.s (countLanded c r) := by
  unfold countLanded
  split
  · exact ite_inForm (.refl r.s) (barUpdate_inForm _ _ _ _)
  · exact .refl r.s

theorem execCopyLand_meets (core slot k : Nat) (s : State) : Meets s (execCopyLand core slot k s) := by
  unfold execCopyLand
  split
  · exact .stay s
  · split
    · exact .stay s
    · exact .stay s
    · exact ite_meets (.stay s) (.next ((copyMove_inForm s core slot k _).trans (countLanded_inForm _ _)))

theorem copyFinish_inForm (s : State) (core slot : Nat) (c : Copy) : InForm s (copyFinish s core slot c) := by
  have moved := copyMove_inForm s core slot 0 c
  unfold copyFinish
  split
  · exact ite_inForm (moved.trans (endCopy_inForm _ _ _ _ _)) (moved.trans (countLanded_inForm _ _))
  · exact ite_inForm (endCopy_inForm s _ _ _ _) (.refl s)
  · exact .refl s

theorem execCopyComplete_meets (core slot : Nat) (s : State) : Meets s (execCopyComplete core slot s) := by
  unfold execCopyComplete
  split
  · exact .stay s
  · split
    · refine ite_meets (.next (endCopy_inForm s _ _ _ _)) ?_
      split
      · exact ite_meets (.next (endCopy_inForm s _ _ _ _)) (.stay s)
      · exact .stay s
    · exact ite_meets (.stay s) (.next (copyFinish_inForm s _ _ _))

/-! ## Commands of a matrix array (R293 to R309, R312 to R314) -/

theorem setArray_inForm (s : State) (core part : Nat) (a : MxArray) : InForm s (s.setArray core part a) := setCore_inForm s _ _

theorem spmWrite_inForm (s : State) (blk off n x : Nat) : InForm s (spmWrite s blk off n x) := setBlock_inForm s _ _

theorem mxSetHead_inForm (s : State) (core part : Nat) (f : MxCmd → MxCmd) : InForm s (mxSetHead s core part f) := by
  unfold mxSetHead
  dsimp only
  split
  · exact setArray_inForm s _ _ _
  · exact .refl s

theorem mxEnd_inForm (s : State) (core part status : Nat) : InForm s (mxEnd s core part status) := mxSetHead_inForm s core part _

theorem spmQueued_inForm (s : State) (array blk : Nat) (c : MxCmd) : InForm s (spmQueued s array blk c).2 := spmSeen_inForm s blk _

theorem loadwEnd_inForm (s : State) (core part : Nat) (c : MxCmd) (r : Except Nat Memory) : InForm s (loadwEnd s core part c r) := by
  have ended : ∀ (t : State) (a : MxArray) (code : Nat), InForm s t → InForm s (mxEnd (t.setArray core part a) core part code) :=
    fun t a code h => (h.trans (setArray_inForm t _ _ a)).trans (mxEnd_inForm _ _ _ code)
  have queued := spmQueued_inForm s (arrayId core part) c.blk c
  unfold loadwEnd
  dsimp only
  split
  · exact ended s _ _ (.refl s)
  · exact ite_inForm (ended s _ _ (.refl s)) (ite_inForm (ended _ _ _ queued) (ended s _ _ (.refl s)))

theorem loadwSpm_inForm (s : State) (core part : Nat) (c : MxCmd) (blk off n : Nat) : InForm s (loadwSpm s core part c blk off n) :=
  ite_inForm (loadwEnd_inForm s _ _ _ _) ((spmQueued_inForm s _ _ _).trans (loadwEnd_inForm _ _ _ _ _))

theorem emptyFrame_inForm (s : State) (core frame : Nat) : InForm s (emptyFrame s core frame) := setCore_inForm s _ _

theorem bankAddr_inForm (s : State) (core : Nat) (c : MxCmd) : InForm s (bankAddr s core c).2 := by
  have page := translate_inForm s core (s.viOf c.blk) (s.asnOf c.blk) (c.f 8 8 % 2 ^ 57) {}
  unfold bankAddr
  dsimp only
  split
  · exact .refl s
  · split
    · next h => rw [h] at page; exact page
    · next h => rw [h] at page; exact page
    · next h => rw [h] at page; exact page

theorem execLoadw_meets (core part : Nat) (s : State) : Meets s (execLoadw core part s) := by
  unfold execLoadw
  split
  · exact .stay s
  next c _ =>
    have addr := bankAddr_inForm s core c
    split
    · split
      · next h => rw [h] at addr; exact .next addr
      · next h => rw [h] at addr; exact .next (addr.trans (loadwEnd_inForm _ _ _ _ _))
      · next h =>
        rw [h] at addr
        split
        · exact ite_meets (.next (addr.trans (mxSetHead_inForm _ _ _ _))) (ite_meets
            (.next (addr.trans ((emptyFrame_inForm _ _ _).trans (loadwEnd_inForm _ _ _ _ _))))
            (.next (addr.trans ((touchFrame_inForm _ _ _).trans (loadwEnd_inForm _ _ _ _ _)))))
        · exact .next (addr.trans (mxSetHead_inForm _ _ _ _))
    · exact .next (loadwSpm_inForm s _ _ _ _ _ _)
    · split
      · exact .next (loadwEnd_inForm s _ _ _ _)
      · exact ite_meets (.next (loadwEnd_inForm s _ _ _ _)) (.next (loadwSpm_inForm s _ _ _ _ _ _))

theorem mxRows_inForm {f : State → Nat → Option State} (hf : ∀ s m t, f s m = some t → InForm s t) :
    ∀ (ms : List Nat) (s : State), InForm s (mxRows f ms s).1
  | [], s => .refl s
  | m :: ms, s => by
    unfold mxRows
    split
    · exact .refl s
    · next h => exact (hf s m _ h).trans (mxRows_inForm hf ms _)

/-- A row that is read where no word of it is poisoned. -/
theorem row_inForm {s u t : State} {p : Prop} [Decidable p] (hu : InForm s u) (h : (if p then none else some u) = some t) :
    InForm s t := by
  split at h
  · cases h
  · cases h
    exact hu

theorem streamRow_inForm {core part : Nat} {w : WSlot} {c : MxCmd} {src : Nat} {s t : State} {m : Nat}
    (h : streamRow core part w c src s m = some t) : InForm s t := by
  have queued := (spmQueued_inForm s (arrayId core part) src c).trans (spmQueued_inForm _ (arrayId core part) c.blk c)
  exact row_inForm (queued.trans (setArray_inForm _ core part _)) h

theorem execStream_meets (core part : Nat) (s : State) : Meets s (execStream core part s) := by
  have ended : ∀ {t : State} (code : Nat), InForm s t → Meets s (.next (mxEnd t core part code)) :=
    fun code h => .next (h.trans (mxEnd_inForm _ core part code))
  unfold execStream
  split
  · exact .stay s
  · refine ite_meets (ended _ (.refl s)) ?_
    split
    · exact ended _ (.refl s)
    · exact ite_meets (ended _ (.refl s)) (ended _ (mxRows_inForm (fun s m t h => streamRow_inForm h) _ s))

theorem accumRow_inForm {core part : Nat} {c : MxCmd} {s t : State} {m : Nat} (h : accumRow core part c s m = some t) : InForm s t := by
  have queued := spmQueued_inForm s (arrayId core part) c.blk c
  exact row_inForm (queued.trans (setArray_inForm _ core part _)) h

theorem execAccum_meets (core part : Nat) (s : State) : Meets s (execAccum core part s) := by
  unfold execAccum
  split
  · exact .stay s
  · exact .next ((mxRows_inForm (fun s m t h => accumRow_inForm h) _ s).trans (mxEnd_inForm _ _ _ _))

theorem landDrain_inForm (s : State) (array : Nat) (c : MxCmd) (bs : List (Nat × Byte)) : InForm s (landDrain s array c bs) :=
  foldl_inForm _ (fun u _ => (noteSpm_inForm u _ _ _ _).trans (setBlock_inForm _ _ _)) bs s

theorem pickLanding_inForm (s : State) : ∀ bs : List (Nat × Byte), InForm s (pickLanding s bs).2
  | [] => .refl s
  | e :: es => by
    refine foldl_rel (R := fun u v : List (Nat × Byte) × State => InForm u.2 v.2) (fun u => .refl u.2) .trans _
      (fun u x => ?_) es ([e], s)
    exact .refl u.2

theorem drainStep_inForm (s : State) (core part : Nat) (c : MxCmd) : InForm s (drainStep s core part c) :=
  ((pickLanding_inForm s c.land).trans (landDrain_inForm _ _ _ _)).trans (mxSetHead_inForm _ _ _ _)

theorem execDrain_meets (core part : Nat) (s : State) : Meets s (execDrain core part s) := by
  unfold execDrain
  split
  · exact .next ((((setArray_inForm s _ _ _).trans (mxEnd_inForm _ _ _ _)).trans (mxSetHead_inForm _ _ _ _)).trans
      (drainStep_inForm _ _ _ _))
  · exact .next (ite_inForm (.refl s) (drainStep_inForm s _ _ _))
  · exact .stay s

theorem execSignal_meets (core part : Nat) (s : State) : Meets s (execSignal core part s) := by
  unfold execSignal
  split
  · exact .stay s
  next c _ =>
    have told : InForm s ((mxUndelivered s c.blk part).foldl (fun s e =>
        s.setWeft c.blk e.1 { s.weft c.blk e.1 with failures := (s.weft c.blk e.1).failures.erase e.2 }) s) :=
      foldl_inForm _ (fun u _ => setWeft_inForm u _ _ _) _ s
    dsimp only
    split
    · exact .next (told.trans ((barUpdate_inForm _ _ _ _).trans (mxEnd_inForm _ _ _ _)))
    · exact .next (told.trans ((barUpdate_inForm _ _ _ _).trans (mxEnd_inForm _ _ _ _)))

theorem landRest_inForm (s : State) (array : Nat) (c : MxCmd) (st : Nat) : InForm s (landRest s array c st) :=
  ite_inForm (landDrain_inForm s _ _ _) ((landDrain_inForm s _ _ _).trans (setBlock_inForm _ _ _))

theorem execMxComplete_meets (core part : Nat) (s : State) : Meets s (execMxComplete core part s) := by
  unfold execMxComplete
  dsimp only
  split
  · exact .stay s
  · split
    · exact .stay s
    · exact .next (((((setArray_inForm s _ _ _).trans (landRest_inForm _ _ _ _)).trans (noteSpm_inForm _ _ _ _ _)).trans
        (spmWrite_inForm _ _ _ _ _)).trans (setWeft_inForm _ _ _ _))

theorem execMxpush_meets (ka : KReg) (s : State) : Meets s (execMxpush ka s) := by
  unfold execMxpush
  refine issue_meets _ _ (fun u => ?_) s
  dsimp only
  split
  · exact raiseAll_inForm u _
  · exact fun h => advanceAll_inForm _ h

theorem execMxfence_meets (s : State) : Meets s (execMxfence s) := issue_meets _ _ (fun u => holdLanes_inForm u _) s

theorem execMxquery_meets (d : VReg) (s : State) : Meets s (execMxquery d s) :=
  issue_meets _ _ (fun u => (setWeft_inForm u _ _ _).trans (laneSteps_inForm _ _ _)) s

theorem execQblk_meets (ka kb kc : KReg) (f : BitVec 1) (s : State) : Meets s (execQblk ka kb kc f s) := by
  refine issue_meets _ _ (fun u => ?_) s
  dsimp only
  split
  · exact raiseAll_inForm u _
  · split
    · exact raiseAll_inForm u _
    · refine InForm.trans ?_ (laneSteps_inForm _ _ _)
      refine InForm.trans ?_ (spmWrite_inForm _ _ _ _ _)
      refine InForm.trans ?_ (setBlock_inForm _ _ _)
      exact ((noteSpm_inForm u _ _ _ _).trans (noteSpm_inForm _ _ _ _ _)).trans
        (foldl_inForm _ (fun v e => spmWrite_inForm v _ _ _ _) _ _)

/-! ## The weight bank and power (R312, R345, R346) -/

theorem stageFrame_inForm (s : State) (core frame page : Nat) : InForm s (stageFrame s core frame page) := by
  have start : ∀ (t : State) (f : Frame), InForm t
      (touchFrame (t.setCore core { t.core core with bank := Sp.put (t.core core).bank frame f }) core frame) :=
    fun t f h => touchFrame_inForm _ _ _ h
  unfold stageFrame
  dsimp only
  split
  · exact start s _
  · exact .refl s
  · exact ((drawClasses_cached s).trans (noteDrop_cached _ _)).inForm.trans (start _ _)

theorem execWeightStage_meets (core frame : Nat) (s : State) : Meets s (execWeightStage core frame s) := by
  have stage : Meets s (match cppwNeed s core frame with
      | some p => .next (stageFrame s core frame p)
      | none => .next s) := by
    split
    · exact .next (stageFrame_inForm s _ _ _)
    · exact .stay s
  unfold execWeightStage
  split
  · exact ite_meets (.next (stageFrame_inForm s _ _ _)) stage
  · exact stage

theorem stageFailed_inForm (s : State) (core page w : Nat) : InForm s (stageFailed s core page w) := by
  refine fun h => setCore_inForm _ core _ (foldl_inForm _ (fun u p => ?_) (List.range 4) s h)
  split
  · exact ite_inForm (loadwEnd_inForm u _ _ _ _) (.refl u)
  · exact .refl u

theorem execWeightStageDone_meets (core frame : Nat) (s : State) : Meets s (execWeightStageDone core frame s) := by
  unfold execWeightStageDone
  split
  · exact .stay s
  · refine ite_meets (.stay s) (ite_meets (.next (emptyFrame_inForm s _ _)) ?_)
    split
    · exact .next ((emptyFrame_inForm s _ _).trans (stageFailed_inForm _ _ _ _))
    · exact .next (setCore_inForm s _ _)

theorem execMxPowerGate_meets (core part quarter : Nat) (s : State) : Meets s (execMxPowerGate core part quarter s) :=
  ite_meets (.stay s) (.next (setArray_inForm s _ _ _))

theorem execMxWake_meets (core part quarter : Nat) (s : State) : Meets s (execMxWake core part quarter s) := by
  unfold execMxWake
  dsimp only
  split
  · exact ite_meets (.next (setArray_inForm s _ _ _)) (.stay s)
  · exact .stay s

end Sys2Proof.Machine
end

section
/-!
Both memories stay in canonical form: daybooks, and the ends of phases, blocks and grids.
-/
namespace Sys2Proof.Machine
open Sys2Proof

theorem HostOnly.inForm {u v : State} (h : HostOnly u v) : InForm u v := fun i => (h.field State.inv fun _ => rfl).trans i
theorem PlacesOnly.inForm {u v : State} (h : PlacesOnly u v) : InForm u v := fun i => (h.field State.inv fun _ => rfl).trans i

/-! ## The context region (R393, R403) -/

theorem putArea_inForm {s t : State} {base len : Nat} {m : Memory} {bad : List (Nat × Nat)} (h : putArea s base len m bad = .ok t) :
    InForm s t := putArea_inv h

/-- An area waits for its lines with nothing written. -/
theorem putArea_error {s t : State} {base len : Nat} {m : Memory} {bad : List (Nat × Nat)} (h : putArea s base len m bad = .error t) :
    t = s := by
  unfold putArea at h
  split at h
  · exact (Except.error.inj h).symm
  · cases h

theorem startThreads_inForm (s : State) (b : Nat) : InForm s (startThreads s b) := (startThreads_threadsOnly s b).inForm

theorem loadPhase_inForm (s : State) (b : Nat) (m : Memory) : InForm s (loadPhase s b m) := by
  refine InForm.trans ?_ (setBlock_inForm _ _ _)
  exact foldl_inForm _ (fun u w => foldl_inForm _ (fun v i => setThread_inForm v b w i _) _ u) _ s

theorem loadSave_inForm (s : State) (b : Nat) (m : Memory) : InForm s (loadSave s b m) := by
  refine InForm.trans (InForm.trans ?_ (setBlock_inForm _ b _)) (foldl_inForm _ (fun u p => ?_) _ _)
  · exact foldl_inForm _ (fun u w => (setWeft_inForm u b w _).trans
      (foldl_inForm _ (fun v i => setThread_inForm v b w i _) _ _)) _ s
  · exact fun h => h

/-! ## Daybooks (R413 to R417) -/

theorem devQueued_inForm (s : State) (vi asn va n x : Nat) : InForm s ((devQueue s vi asn va n x).getD s) :=
  (devQueue_getD_hostOnly s vi asn va n x).inForm

theorem readRecords_inForm (vi asn buf : Nat) : ∀ (n i : Nat) (s : State) (rs : List Nat),
    DevInForm Prod.snd s (readRecords vi asn buf n i s rs)
  | 0, _, s, _ => .ok (.refl s)
  | n + 1, i, s, _ => .bind (devRead_inForm s vi asn _ 32) fun r => readRecords_inForm vi asn buf n (i + 1) r.2 _

theorem readBook_inForm (s : State) (vi asn va record : Nat) : DevInForm Prod.snd s (readBook s vi asn va record) := by
  unfold readBook
  split
  · exact .ok (.refl s)
  · refine .bind (devRead_inForm s vi asn va 64) fun r => ?_
    dsimp only
    split
    · exact .ok (.refl r.2)
    · split
      · exact .ok (.refl r.2)
      · split
        · exact .ok (.refl r.2)
        · exact .bind (readRecords_inForm vi asn _ _ 0 r.2 []) fun q => .ok (.refl q.2)

theorem openBook_inForm (s : State) (vi asn : Nat) (b : Daybook) : InForm s (openBook s vi asn b) :=
  ite_inForm (.refl s) (devQueued_inForm s _ _ _ _ _)

theorem putBook_inForm (s : State) (vi asn : Nat) (b : Daybook) (o n x : Nat) : InForm s (putBook s vi asn b o n x) :=
  devQueued_inForm s _ _ _ _ _

theorem putDivergence_inForm (s : State) (vi asn : Nat) (b : Daybook) (blk ph kind : Nat) :
    InForm s (putDivergence s vi asn b blk ph kind) :=
  (((putBook_inForm s _ _ _ _ _ _).trans (putBook_inForm _ _ _ _ _ _ _)).trans (putBook_inForm _ _ _ _ _ _ _)).trans
    (putBook_inForm _ _ _ _ _ _ _)

theorem closeBook_inForm (s : State) (vi asn : Nat) (b : Daybook) : InForm s (closeBook s vi asn b) := by
  have used : InForm s (if b.replay then s else putBook s vi asn b 0x18 8 b.used) := ite_inForm (.refl s) (putBook_inForm s _ _ _ _ _ _)
  unfold closeBook
  dsimp only
  split
  · exact used.trans (putDivergence_inForm _ _ _ _ _ _ _)
  · exact ite_inForm used (used.trans (putBook_inForm _ _ _ _ _ _ _))

theorem logDecision_inForm (s : State) (gid kind src stage body : Nat) : InForm s (logDecision s gid kind src stage body) := by
  unfold logDecision
  dsimp only
  split
  · exact .refl s
  · exact ite_inForm (.refl s) ((bookWrite_hostOnly s _ _ _ _ _ _ _).inForm.trans (setGrid_inForm _ _ _))

theorem bookUse_inForm (s : State) (gid r : Nat) : InForm s (bookUse s gid r) := by
  unfold bookUse
  split
  · exact .refl s
  · exact setGrid_inForm s _ _

/-! ## What a block leaves behind (R158, R204, R331, R334, R370) -/

theorem clearWefts_inForm (s : State) (b : Nat) : InForm s (clearWefts s b) := fun h => h

theorem releaseWefts_inForm (s : State) (b : Nat) : InForm s (releaseWefts s b) :=
  foldl_inForm _ (fun u w => setWeft_inForm u b w _) _ (clearWefts s b)

theorem dropWork_inForm (s : State) (b : Nat) : InForm s (dropWork s b) := fun h => endRecalls_inForm _ _ h

theorem recordStatus_inForm (s : State) (b code : Nat) : InForm s (recordStatus s b code) := ite_inForm (.refl s) (setGrid_inForm s _ _)

theorem noteFailures_inForm (s : State) (b : Nat) : InForm s (noteFailures s b) := by
  have noted : ∀ (t : State) (p : Bool) (code : Nat), InForm t (if p then recordStatus t b code else t) := fun t p code =>
    ite_inForm (recordStatus_inForm t b code) (.refl t)
  exact (noted s _ _).trans (noted _ _ _)

theorem noteFigures_inForm (s : State) (b : Nat) : InForm s (noteFigures s b) := setGrid_inForm s _ _

theorem logPreempt_inForm (s : State) (b : Nat) (m : Method) : InForm s (logPreempt s b m) := by
  cases m
  · exact ite_inForm (logDecision_inForm s _ _ _ _ _) (.refl s)
  · exact logDecision_inForm s _ _ _ _ _
  · exact logDecision_inForm s _ _ _ _ _

theorem leaveCmd_inForm (s : State) (b : Nat) (m : Method) : InForm s (leaveCmd s b m) := by
  refine InForm.trans ((logPreempt_inForm s b m).trans (foldl_inForm _ (fun u n => ?_) _ _)) (setBlock_inForm _ b _)
  exact .refl u

theorem settleCore_inForm (s : State) (core : Nat) : InForm s (settleCore s core) := by
  unfold settleCore
  split
  · exact .refl s
  · split
    · exact .refl s
    · split
      · exact .refl s
      · exact ite_inForm (setGrid_inForm s _ _) (.refl s)

theorem checkShares_inForm (s : State) (gid : Nat) : InForm s (checkShares s gid) :=
  ite_inForm (.refl s) ((setGrid_inForm s _ _).trans (raiseEvents_inForm _ _ _))

theorem countBlock_inForm (s : State) (b : Nat) : InForm s (countBlock s b) := (setGrid_inForm s _ _).trans (checkShares_inForm _ _)

theorem settleRaces_inForm (s : State) (gid : Nat) : InForm s (settleRaces s gid) := by
  unfold settleRaces
  split
  · exact .refl s
  · exact setGrid_inForm s _ _

theorem giveUpSlots_inForm (s : State) (b : Nat) : InForm s (giveUpSlots s b) := by
  unfold giveUpSlots
  dsimp only
  split
  · exact .refl s
  · exact setGrid_inForm s _ _

/-- A block of a launch that is over leaves its core. -/
theorem endBlock_inForm (s : State) (b : Nat) (m : Method) (x : State → Block) (y : State → Block) :
    InForm s (let t := dropWork s b
      let t := leaveCmd (t.setBlock b (x t)) b m
      settleCore (t.setBlock b (y t)) (t.block b).core) := fun h =>
  settleCore_inForm _ _ (leaveCmd_inForm _ _ _ (dropWork_inForm s b h))

theorem endLaunch_inForm (s : State) (gid : Nat) (status : LaunchStatus) : InForm s (endLaunch s gid status) := by
  refine ite_inForm (.refl s) ?_
  refine InForm.trans (InForm.trans (foldl_inForm _ (fun u e => ?_) _ s) (setGrid_inForm _ gid _))
    ((settleRaces_inForm _ _).trans (checkShares_inForm _ _))
  exact endBlock_inForm u e.1 .drain (fun t => { t.block e.1 with method := none })
    (fun t => { t.block e.1 with bst := .retired, record := none, area := none })

theorem diverge_inForm (s : State) (gid lin phase kind : Nat) : InForm s (diverge s gid lin phase kind) := by
  unfold diverge
  dsimp only
  split
  · exact (setGrid_inForm s _ _).trans (endLaunch_inForm _ _ _)
  · exact endLaunch_inForm s _ _

theorem execGridEnd_meets (gid : Nat) (s : State) : Meets s (execGridEnd gid s) := by
  unfold execGridEnd
  split
  · exact .stay s
  · exact .next (endLaunch_inForm s _ _)

theorem noteDigest_inForm (s : State) (b len : Nat) (m : Memory) : InForm s (noteDigest s b len m) := by
  unfold noteDigest
  dsimp only
  split
  · exact logDecision_inForm s _ _ _ _ _
  · exact diverge_inForm s _ _ _ _
  · exact ite_inForm (bookUse_inForm s _ _) (diverge_inForm s _ _ _ _)

theorem release_inForm (s : State) (core : Nat) (sc : Scope) : TryInForm s (releaseTry s core sc) := (releaseTry_cached s core sc).inForm

theorem execPhaseEnd_meets (blk : Nat) (s : State) : Meets s (execPhaseEnd blk s) := by
  unfold execPhaseEnd
  dsimp only
  refine ite_meets (.stay s) ?_
  split
  · next h => exact .next ((release_inForm s _ _).error h)
  next t h =>
    refine Meets.after ?_ ((release_inForm s _ _).ok h)
    split
    · exact .stay t
    · split
      · next w => rw [putArea_error w]; exact .stay t
      next u w =>
        have noted : ∀ len m, InForm t (noteDigest (noteFailures u blk) blk len m) := fun len m =>
          (putArea_inForm w).trans ((noteFailures_inForm u blk).trans (noteDigest_inForm _ blk len m))
        exact ite_meets (.next (noted _ _)) (.next ((((noted _ _).trans (releaseWefts_inForm _ _)).trans (leaveCmd_inForm _ _ _)).trans
          ((setBlock_inForm _ _ _).trans (settleCore_inForm _ _))))

theorem execBlockRetire_meets (blk : Nat) (s : State) : Meets s (execBlockRetire blk s) := by
  unfold execBlockRetire
  dsimp only
  refine ite_meets (.stay s) ?_
  split
  · next h => exact .next ((release_inForm s _ _).error h)
  next t h =>
    have noted : ∀ len m, InForm s (noteDigest (noteFigures (noteFailures t blk) blk) blk len m) := fun len m =>
      ((release_inForm s _ _).ok h).trans
        (((noteFailures_inForm t blk).trans (noteFigures_inForm _ blk)).trans (noteDigest_inForm _ blk len m))
    exact ite_meets (.next (noted _ _)) (.next ((((noted _ _).trans (clearWefts_inForm _ _)).trans (leaveCmd_inForm _ _ _)).trans
      ((setBlock_inForm _ _ _).trans ((settleCore_inForm _ _).trans ((countBlock_inForm _ _).trans (settleRaces_inForm _ _))))))

theorem loseBlock_inForm (s : State) (b : Nat) : InForm s (loseBlock s b) := fun h =>
  settleRaces_inForm _ _ (countBlock_inForm _ _ (settleCore_inForm _ _
    (dropWork_inForm _ b (recordStatus_inForm _ b 0x10 (giveUpSlots_inForm s b h)))))

/-! ## Completion (R204, R335) -/

theorem releaseCores_inForm (cores : List Nat) (sc : Scope) (s : State) : InForm s (releaseCores cores sc s).2 := by
  refine foldl_rel (R := fun u v : Bool × State => InForm u.2 v.2) (fun u => .refl u.2) .trans _ (fun u c => ?_) cores (true, s)
  have core := release_inForm u.2 c sc
  split
  · next h => exact core.ok h
  · next h => exact core.error h

theorem nodeOutcome_inForm (s : State) (q n code addr : Nat) : InForm s (nodeOutcome s q n code addr) :=
  (nodeOutcome_hostOnly s q n code addr).inForm

theorem announceLaunch_inForm (s : State) (gid : Nat) : InForm s (announceLaunch s gid) := fun h =>
  (announceLaunch_hostOnly s gid).inForm h

theorem endBook_inForm (s : State) (gid : Nat) : TryInForm s (endBook s gid) := by
  unfold endBook
  dsimp only
  split
  · exact InForm.trans (closeBook_inForm s _ _ _) (setGrid_inForm _ _ _)
  · split
    · exact InForm.refl s
    · exact InForm.refl s

theorem execGridComplete_meets (gid : Nat) (s : State) : Meets s (execGridComplete gid s) := by
  unfold execGridComplete
  split
  · exact .stay s
  · refine ite_meets (.stay s) ?_
    split
    · next h => exact .next ((endBook_inForm s gid).error h)
    next t h =>
      have released : ∀ cores sc, InForm s (releaseCores cores sc t).2 := fun cores sc =>
        ((endBook_inForm s gid).ok h).trans (releaseCores_inForm cores sc t)
      exact .next (ite_inForm ((released _ _).trans (announceLaunch_inForm _ _)) (released _ _))

end Sys2Proof.Machine
end

section
/-!
Both memories stay in canonical form: launches, the places of accesses, the orrery images and the dispatchers.
-/
namespace Sys2Proof.Machine
open Sys2Proof

/-! ## Launches (R192 to R201) -/

theorem readBank_inForm (s : State) (vi asn : Nat) (m : Memory) : DevInForm Prod.snd s (readBank s vi asn m) := devRead_inForm s _ _ _ _

theorem checkBook_inForm (s : State) (vi asn va record : Nat) :
    DevInForm (fun r : Bool × Option Daybook × State => r.2.2) s (checkBook s vi asn va record) := by
  unfold checkBook
  split
  · exact .ok (.refl s)
  · exact .bind (readBook_inForm s vi asn va record) fun r => .ok (.refl r.2)

theorem acceptLaunch_inForm (s : State) (g : Grid) (book : Option Daybook) : InForm s (acceptLaunch s g book).2 := by
  unfold acceptLaunch
  split
  · exact fun h => openBook_inForm s g.vi g.asn _ h
  · exact fun h => h

theorem launchGrid_inForm (s : State) (vi asn va : Nat) (node : Nat × Nat) : DevInForm Prod.snd s (launchGrid s vi asn va node) := by
  unfold launchGrid
  split
  · exact .ok (.refl s)
  · refine .bind (devRead_inForm s vi asn va 256) fun r => ?_
    dsimp only
    split
    · exact .ok (.refl r.2)
    · refine .bind (checkBook_inForm r.2 vi asn _ _) fun b => ?_
      split
      · exact .ok (.refl b.2.2)
      · split
        · exact .ok (.refl b.2.2)
        · split
          · exact .ok (.refl b.2.2)
          · exact .bind (readBank_inForm b.2.2 vi asn _) fun k => .ok (acceptLaunch_inForm k.2 _ _)

/-! ## The place of an access (R259, R420, R437) -/

theorem addPacket_inForm (s : State) (src cls tbl : Nat) (p : Packet) : InForm s (addPacket s src cls tbl p) := fun h => h

theorem injectOn_inForm {s t : State} {src tbl : Nat} {p : Packet} (h : injectOn s src tbl p = some t) : InForm s t := by
  obtain ⟨c, -, eq⟩ := Option.map_eq_some_iff.mp h
  cases eq
  exact .refl s

theorem inject_inForm {s t : State} {src : Nat} {p : Packet} (h : inject s src p = some t) : InForm s t := injectOn_inForm h

theorem loseTrip_inForm (s : State) (id lane : Nat) : InForm s (loseTrip s id lane) := by
  unfold loseTrip
  split
  · exact .refl s
  · split
    · exact .refl s
    · exact ite_inForm (setAcc_inForm s _ _) ((setAcc_inForm s _ _).trans (accSystemFault_inForm _ _ _ _ _))

theorem sendTrip_inForm (s : State) (id : Nat) (o : MemOp) (a : LaneAcc) (back : Bool) : InForm s (sendTrip s id o a back) := by
  unfold sendTrip
  split
  · exact .refl s
  · exact .refl s
  · dsimp only
    split
    · next h => exact (inject_inForm h).trans (setAcc_inForm _ _ _)
    · exact loseTrip_inForm s _ _

theorem noteAtomic_inForm (s : State) (o : MemOp) (lane pa : Nat) (r : Option Nat) : InForm s (noteAtomic s o lane pa r) := by
  unfold noteAtomic
  dsimp only
  split
  · exact (setBlock_inForm s _ _).trans (bookUse_inForm _ _ _)
  · exact (setBlock_inForm s _ _).trans (logDecision_inForm _ _ _ _ _ _)

theorem servePlace_inForm (s : State) (id : Nat) (o : MemOp) (a : LaneAcc) (half pa : Nat) : InForm s (servePlace s id o a half pa) := by
  have served := accServe_inForm s id o a half
  have noted : ∀ (p : Bool) (r : Option Nat), InForm s
      (if p then noteAtomic (accServe s id o a half) o a.lane pa r else accServe s id o a half) := fun p r =>
    ite_inForm (served.trans (noteAtomic_inForm _ _ _ _ _)) served
  unfold servePlace
  refine ite_inForm ?_ served
  dsimp only
  split
  · exact .refl s
  · exact diverge_inForm s _ _ _ _
  · exact noted _ _

theorem respond_inForm (s : State) (id lane home : Nat) : InForm s (respond s id lane home) := by
  unfold respond
  split
  · exact .refl s
  · split
    · exact ite_inForm (sendTrip_inForm s _ _ _ _) (.refl s)
    · exact .refl s

theorem atPlace_inForm (s : State) (id : Nat) (o : MemOp) (a : LaneAcc) (half pa : Nat) : InForm s (atPlace s id o a half pa) :=
  ite_inForm (ite_inForm ((setAcc_inForm s _ _).trans (sendTrip_inForm _ _ _ _ _)) (setAcc_inForm s _ _))
    ((servePlace_inForm s _ _ _ _ _).trans (respond_inForm _ _ _ _))

theorem execHomeAccess_meets (op lane : Nat) (s : State) : Meets s (execHomeAccess op lane s) := by
  unfold execHomeAccess
  split
  · exact .stay s
  · split
    · exact .stay s
    · split
      · refine ite_meets (.next ((prefetchLine_inForm s _ _ _).trans (setAcc_inForm _ _ _))) (ite_meets (.stay s) ?_)
        split
        · exact .next (ite_inForm (sendTrip_inForm s _ _ _ _) (atPlace_inForm s _ _ _ _ _))
        · exact .next (atPlace_inForm s _ _ _ _ _)
        · exact .next (loseTrip_inForm s _ _)
        · exact .stay s
        · exact .next (ite_inForm (servePlace_inForm s _ _ _ _ _) (.refl s))
        · exact .next (ite_inForm (servePlace_inForm s _ _ _ _ _) (.refl s))
      · exact .next (ite_inForm (loseTrip_inForm s _ _) (.refl s))
      · exact .stay s
      · exact .stay s

/-! ## The orrery images (R430 to R432) -/

theorem changeOrrery_inForm (s : State) (vi off n : Nat) (m : Memory) : InForm s (changeOrrery s vi off n m) :=
  (changeOrrery_hostOnly s vi off n m).inForm

theorem writeOrrery_inForm (s : State) (vi : Nat) : InForm s (writeOrrery s vi) := by
  unfold writeOrrery
  exact changeOrrery_inForm s vi 0 _ _

theorem countCorrected_inForm (s : State) (d : Nat) : InForm s (countCorrected s d) := fun h => h

theorem refreshOrrery_inForm (s : State) (d : Nat) : InForm s (refreshOrrery s d) :=
  (countCorrected_inForm s d).trans (foldl_inForm _ (fun u _ => changeOrrery_inForm u _ _ _ _) _ _)

theorem refreshLink_inForm (s : State) (d p : Nat) : InForm s (refreshLink s d p) := by
  unfold refreshLink
  split
  · exact (refreshOrrery_inForm s _).trans (refreshOrrery_inForm _ _)
  · exact refreshOrrery_inForm s _

theorem refreshAround_inForm (s : State) (d : Nat) : InForm s (refreshAround s d) :=
  (refreshOrrery_inForm s d).trans (foldl_inForm _ refreshOrrery_inForm _ _)

/-! ## Handing blocks to domains (R199, R204, R435, R436) -/

theorem hintOf_inForm (s : State) (gid st lin : Nat) : DevInForm Prod.snd s (hintOf s gid st lin) := by
  unfold hintOf
  dsimp only
  split
  · exact .ok (.refl s)
  · have byte := devGet_inForm s (s.grid gid).vi (s.grid gid).asn ((stageLaunch s gid st).hints.toNat + lin) 1
    split
    · next h => exact .ok (byte.of_ok h)
    · exact .wait
    · next h => exact .ok (byte.of_fault h)
  · exact .ok (.refl s)

theorem handBlock_inForm (s : State) (gid st lin d : Nat) (blk : Option Nat) : InForm s (handBlock s gid st lin d blk) := by
  unfold handBlock
  split
  · exact setBlock_inForm s _ _
  · exact fun h => checkShares_inForm _ _ h

/-- A block is handed as its hint says, once that has been read. -/
theorem handHinted_meets {s : State} (r : DevRes (Option Nat × State)) (gid stage lin : Nat) (blk : Option Nat) :
    DevInForm Prod.snd s r → Meets s (match r with
      | .ok (h, s) =>
        match handTo s gid stage h with
        | none => .next s
        | some d => .next (handBlock s gid stage lin d blk)
      | _ => .next s) := by
  intro hr
  cases r with
  | wait => exact .stay s
  | fault va t => exact .stay s
  | ok r =>
    have hinted := hr.of_ok rfl
    dsimp only
    split
    · exact .next hinted
    · exact .next (hinted.trans (handBlock_inForm _ _ _ _ _ _))

theorem execHandBlock_meets (gid stage : Nat) (s : State) : Meets s (execHandBlock gid stage s) := by
  unfold execHandBlock
  split
  · exact .stay s
  · refine ite_meets (.stay s) ?_
    split
    · exact .stay s
    · extract_lets phase area h
      split
      · exact .next (diverge_inForm s _ _ _ _)
      · split
        · exact .next (diverge_inForm s _ _ _ _)
        · exact .next (handBlock_inForm s _ _ _ _ _)
      · refine handHinted_meets h _ _ _ _ ?_
        simp only [h]
        clear_value h area
        split
        · exact .ok (.refl s)
        · exact hintOf_inForm s _ _ _

/-! ## Placing blocks (R160, R161, R198, R410 to R412) -/

theorem switchCore_inForm (s : State) (core vi : Nat) : InForm s (switchCore s core vi).2 := by
  have clean := (cleanL1All_cached s core).inForm
  unfold switchCore
  dsimp only
  split
  · exact .refl s
  · split
    · exact .refl s
    · split
      · exact clean
      · exact clean.trans (InForm.trans (foldl_inForm _ (fun u c => setCore_inForm u c _) _ _) (setCore_inForm _ _ _))

theorem leaveDomain_inForm (s : State) (od : Nat) : InForm s (leaveDomain s od).2 :=
  (tryAll_cached _ (fun u l => cleanRemote_cached u od l) _ s).inForm

theorem seatWefts_inForm (s : State) (b : Nat) (spots : List Spot) (keep : Bool) : InForm s (seatWefts s b spots keep) :=
  foldl_inForm _ (fun u _ => setWeft_inForm u b _ _) _ s

theorem wakeWefts_inForm (s : State) (b : Nat) : InForm s (wakeWefts s b) := by
  refine foldl_inForm _ (fun u w => ?_) _ s
  dsimp only
  split
  · exact finishCheck_inForm u b w
  · exact (setWeft_inForm u b w _).trans (parkWeft_inForm _ _ _ _ _)

theorem noteLoad_inForm (d : Nat) (s : State) (a : Area) : InForm s (noteLoad d s a) := by
  unfold noteLoad
  split
  · exact ((drawClasses_cached s).trans (noteDrop_cached _ _)).inForm
  · exact .refl s

theorem placeOn_inForm (s : State) (b core : Nat) (spots : List Spot) : InForm s (placeOn s b core spots) := by
  unfold placeOn
  extract_lets k g d s' key sc sw lv s1 s2 dom s3 base fresh bookPlace
  refine ite_inForm (.refl s) ?_
  have loaded : InForm s s' := foldl_inForm _ (noteLoad_inForm d) _ s
  split
  · exact loaded.trans (loseBlock_inForm s' b)
  · exact loaded.trans (setBlock_inForm s' _ _)
  extract_lets restored s4 old s5 s6
  refine ite_inForm (.refl s) ?_
  have switched : InForm s sw.2 := switchCore_inForm s core g.vi
  have left : InForm s lv.2 := by
    simp only [lv]
    split
    · split
      · exact switched
      · exact switched.trans (leaveDomain_inForm _ _)
    · exact switched
  refine ite_inForm left (left.trans ?_)
  clear_value sc lv
  have acquired : InForm lv.2 s3 := by
    refine InForm.trans (v := s2) ?_ (setDomain_inForm s2 d _)
    simp only [s2]
    split
    · exact acquire_inForm s1 core _
    · exact .refl s1
  have seated : ∀ x keep, InForm lv.2 (seatWefts (s3.setBlock b x) b spots keep) := fun x keep =>
    (acquired.trans (setBlock_inForm s3 b x)).trans (seatWefts_inForm _ b spots keep)
  have started : InForm lv.2 s4 := by
    simp only [s4]
    generalize startOf s b d = start
    cases start with
    | save m => exact (seated _ _).trans (loadSave_inForm _ _ _)
    | phase m => exact (seated _ _).trans (loadPhase_inForm _ _ _)
    | first => exact (seated _ _).trans (startThreads_inForm _ _)
    | again => exact (seated _ _).trans (startThreads_inForm _ _)
    | lost => exact (seated _ _).trans (startThreads_inForm _ _)
  refine (started.trans (InForm.trans (v := s5) (setGrid_inForm s4 _ _) ?_)).trans (wakeWefts_inForm s6 b)
  clear_value bookPlace s5
  simp only [s6]
  split
  · exact bookUse_inForm _ _ _
  · exact logDecision_inForm _ _ _ _ _ _

theorem execPlaceBlock_meets (dom : Nat) (s : State) : Meets s (execPlaceBlock dom s) := by
  unfold execPlaceBlock
  split
  · exact .stay s
  · exact .next (placeOn_inForm s _ _ _)
  · exact .next (diverge_inForm s _ _ _ _)

theorem execClusterConvert_meets (dom cl : Nat) (s : State) : Meets s (execClusterConvert dom cl s) :=
  ite_meets (.stay s) (ite_meets (.next (setDomain_inForm s _ _)) (ite_meets (.next (setDomain_inForm s _ _)) (.stay s)))

theorem execClusterConvertDone_meets (dom cl : Nat) (s : State) : Meets s (execClusterConvertDone dom cl s) := by
  unfold execClusterConvertDone
  split
  · exact .stay s
  · extract_lets cores r u x
    have cleaned : InForm s r.2 :=
      foldl_rel (R := fun u v : Bool × State => InForm u.2 v.2) (fun u => .refl u.2) .trans _
        (fun u c => by exact (cleanL1All_cached u.2 c).inForm) cores (true, s)
    have emptied : InForm r.2 u := foldl_inForm _ (fun v c => setCore_inForm v c _) _ _
    exact ite_meets (.stay s) (ite_meets (.next cleaned)
      (.next ((cleaned.trans emptied).trans ((setDomain_inForm u dom _).trans (refreshOrrery_inForm _ _)))))

end Sys2Proof.Machine
end

section
/-!
Both memories stay in canonical form: mills and their races, collectives and the millwright.
-/
namespace Sys2Proof.Machine
open Sys2Proof

/-! ## The mill record and the start of a mill (R315 to R319) -/

theorem bufferMapped_inForm (vi asn home top : Nat) : ∀ (n va : Nat) (s : State),
    DevInForm Prod.snd s (bufferMapped vi asn home top n va s)
  | 0, _, s => .ok (.refl s)
  | n + 1, va, s => by
    have walk := domainWalk_inForm s (s.leadDom vi) vi asn (va % 2 ^ 57)
    unfold bufferMapped
    split
    · exact .ok (.refl s)
    · split
      · exact .ok (.refl s)
      · split
        · exact .wait
        · next h => rw [h] at walk; exact .ok walk
        · next h => rw [h] at walk; exact .fault walk
        · next entry t u h =>
          rw [h] at walk
          have pte := orPte_inForm u (u.leadDom vi) entry 0x80
          split
          · exact .wait
          · next w =>
            have marked := InForm.trans walk (pte.ok w)
            dsimp only
            split
            · exact .after (bufferMapped_inForm vi asn home top n _ _) marked
            · exact .ok marked

theorem readStages_inForm (vi asn base : Nat) : ∀ (n i : Nat) (s : State) (ms : List Memory),
    DevInForm Prod.snd s (readStages vi asn base n i s ms)
  | 0, _, s, _ => .ok (.refl s)
  | n + 1, i, s, ms => by
    refine .bind (devRead_inForm s vi asn (base + 256 * i) 256) fun r => ?_
    split
    · exact .ok (.refl r.2)
    · exact readStages_inForm vi asn base n (i + 1) r.2 _

theorem readRaces_inForm (vi asn base nstage : Nat) : ∀ (n q : Nat) (s : State) (rs : List Race),
    DevInForm Prod.snd s (readRaces vi asn base nstage n q s rs)
  | 0, _, s, _ => .ok (.refl s)
  | n + 1, q, s, rs => by
    refine .bind (devRead_inForm s vi asn (base + 64 * q) 64) fun r => ?_
    dsimp only
    split
    · exact .ok (.refl r.2)
    · refine .bind (bufferMapped_inForm vi asn _ _ _ _ r.2) fun b => ?_
      split
      · exact readRaces_inForm vi asn base nstage n (q + 1) b.2 _
      · exact .ok (.refl b.2)

theorem readBanks_inForm (vi asn : Nat) : ∀ (ms : List Memory) (s : State) (ls : List Launch),
    DevInForm Prod.snd s (readBanks vi asn ms s ls)
  | [], s, _ => .ok (.refl s)
  | m :: ms, s, _ => .bind (readBank_inForm s vi asn m) fun r => readBanks_inForm vi asn ms r.2 _

theorem launchMill_inForm (s : State) (vi asn va : Nat) (node : Nat × Nat) : DevInForm Prod.snd s (launchMill s vi asn va node) := by
  unfold launchMill
  split
  · exact .ok (.refl s)
  · refine .bind (devRead_inForm s vi asn va 256) fun r => ?_
    dsimp only
    split
    · exact .ok (.refl r.2)
    · refine .bind (checkBook_inForm r.2 vi asn _ _) fun b => ?_
      split
      · exact .ok (.refl b.2.2)
      · split
        · exact .ok (.refl b.2.2)
        · refine .bind (readStages_inForm vi asn _ _ 0 b.2.2 []) fun st => ?_
          split
          · exact .ok (.refl st.2)
          · split
            · exact .ok (.refl st.2)
            · refine .bind (readRaces_inForm vi asn _ _ _ 0 st.2 []) fun rs => ?_
              split
              · exact .ok (.refl rs.2)
              · split
                · exact .ok (.refl rs.2)
                · exact .bind (readBanks_inForm vi asn _ rs.2 []) fun k => .ok (acceptLaunch_inForm k.2 _ _)

theorem execMillStart_meets (gid : Nat) (s : State) : Meets s (execMillStart gid s) := by
  unfold execMillStart
  dsimp only
  split
  · exact .stay s
  next m _ =>
    have taken : InForm s (m.homes.foldl (fun s d => s.setDomain d { s.domain d with raceRegion := some gid }) s) :=
      foldl_inForm _ (fun u d => setDomain_inForm u d _) _ s
    refine ite_meets (.stay s) ?_
    split
    · exact .next taken
    · exact .next (taken.trans (setGrid_inForm _ _ _))

theorem execMillCoreJoin_meets (gid core : Nat) (s : State) : Meets s (execMillCoreJoin gid core s) := by
  unfold execMillCoreJoin
  dsimp only
  split
  · exact .stay s
  · refine ite_meets (.stay s) ?_
    split
    · exact .stay s
    · exact ite_meets (.stay s) (.next (setGrid_inForm s _ _))

/-! ## Race instructions (R324 to R332) -/

theorem setRace_inForm (s : State) (gid q : Nat) (r : Race) : InForm s (setRace s gid q r) := by
  unfold setRace
  split
  · exact .refl s
  · exact setGrid_inForm s _ _

theorem setPair_inForm (s : State) (b w kd x : Nat) : InForm s (setPair s b w kd x) := setWeft_inForm s _ _ _

theorem raceIssue_meets (q : Nat) (side : RaceSide) (grants mark : Bool) (rs ks : List Regs) (early : State → Option Cond)
    (held : State → Option (Nat × Bool)) (busy : State → Bool) {body : State → State} (hb : ∀ u, InForm u (body u)) (s : State) :
    Meets s (raceIssue q side grants mark rs ks early held busy body s) := by
  refine issue_meets _ _ (fun u => ?_) s
  have marked : InForm u (if mark then noteRace u else u) := ite_inForm (setBlock_inForm u _ _) (.refl u)
  dsimp only
  split
  · exact marked.trans (trapAll_inForm _ _)
  · exact marked.trans (hb _)

theorem noteGrant_inForm (s : State) (gid q kind slot b w : Nat) : InForm s (noteGrant s gid q kind slot b w) := by
  unfold noteGrant
  dsimp only
  split
  · exact bookUse_inForm s _ _
  · exact .refl s
  · exact logDecision_inForm s _ _ _ _ _

theorem grantSlot_inForm (s : State) (b w q kd : Nat) (recv : Bool) : InForm s (grantSlot s b w q kd recv) := by
  unfold grantSlot
  dsimp only
  split
  · exact .refl s
  · exact ((((noteGrant_inForm s _ _ _ _ _ _).trans (setRace_inForm _ _ _ _)).trans (setPair_inForm _ _ _ _ _)).trans
      (setWeft_inForm _ _ _ _)).trans (acquire_inForm _ _ _)

/-- A request of the issue set joins a queue of its race. -/
theorem queued_inForm {s u : State} (h : InForm s u) (o : Option Race) (gid q : Nat) (f : Race → Race) :
    InForm s (match o with
      | none => u
      | some r => setRace u gid q (f r)) := by
  cases o with
  | none => exact h
  | some r => exact h.trans (setRace_inForm u gid q (f r))

theorem execRresv_meets (kd : KReg) (q : BitVec 5) (s : State) : Meets s (execRresv kd q s) := by
  refine raceIssue_meets _ _ _ _ _ _ _ _ _ (fun u => ?_) s
  exact queued_inForm (laneSteps_inForm _ u.iss.lanes u) _ _ _ fun r => { r with reservers := r.reservers ++ [raceReq _ _ kd.toNat] }

theorem execRrecv_meets (kd : KReg) (q : BitVec 5) (s : State) : Meets s (execRrecv kd q s) := by
  refine raceIssue_meets _ _ _ _ _ _ _ _ _ (fun u => ?_) s
  exact queued_inForm (laneSteps_inForm _ u.iss.lanes u) _ _ _ fun r => { r with receivers := r.receivers ++ [raceReq _ _ kd.toNat] }

theorem tryRace_inForm (q kd : Nat) (recv : Bool) (kinds : List Nat) (s : State) : InForm s (tryRace q kd recv kinds s) := by
  unfold tryRace
  dsimp only
  split
  · exact .refl s
  · split
    · exact diverge_inForm s _ _ _ _
    · refine InForm.trans ?_ (advanceAll_inForm _)
      split
      · exact grantSlot_inForm s _ _ _ _ _
      · exact grantSlot_inForm s _ _ _ _ _
      · exact ((noteGrant_inForm s _ _ _ _ _ _).trans (setPair_inForm _ _ _ _ _)).trans (acquire_inForm _ _ _)
      · exact (noteGrant_inForm s _ _ _ _ _ _).trans (setPair_inForm _ _ _ _ _)

theorem execRtryresv_meets (kd : KReg) (q : BitVec 5) (s : State) : Meets s (execRtryresv kd q s) :=
  raceIssue_meets _ _ _ _ _ _ _ _ _ (tryRace_inForm _ _ _ _) s
theorem execRtryrecv_meets (kd : KReg) (q : BitVec 5) (s : State) : Meets s (execRtryrecv kd q s) :=
  raceIssue_meets _ _ _ _ _ _ _ _ _ (tryRace_inForm _ _ _ _) s

theorem letGo_inForm (s : State) (q addr : Nat) (recv : Bool) : InForm s (letGo s q addr recv) := by
  unfold letGo
  split
  · exact .refl s
  · exact ((setWeft_inForm s _ _ _).trans (advanceAll_inForm _)).trans (addOp_inForm _ _)

theorem execRcommit_meets (q : BitVec 5) (ka : KReg) (s : State) : Meets s (execRcommit q ka s) :=
  raceIssue_meets _ _ _ _ _ _ _ _ _ (fun u => letGo_inForm u _ _ _) s
theorem execRrelease_meets (q : BitVec 5) (ka : KReg) (s : State) : Meets s (execRrelease q ka s) :=
  raceIssue_meets _ _ _ _ _ _ _ _ _ (fun u => letGo_inForm u _ _ _) s
theorem execRclose_meets (q : BitVec 5) (s : State) : Meets s (execRclose q s) :=
  raceIssue_meets _ _ _ _ _ _ _ _ _ (fun u => (advanceAll_inForm u).trans (addOp_inForm _ _)) s

theorem execRstat_meets (kd : KReg) (q : BitVec 5) (s : State) : Meets s (execRstat kd q s) := by
  refine raceIssue_meets _ _ _ _ _ _ _ _ _ (fun u => ?_) s
  split
  · exact .refl u
  · exact (setWeft_inForm u _ _ _).trans (advanceAll_inForm _)

/-! ## The home of a race (R322, R323, R328, R329) -/

theorem wakeRace_inForm (s : State) (b w q kd : Nat) (recv : Bool) {f : State → Nat → State} (hf : ∀ u l, InForm u (f u l)) :
    InForm s (wakeRace s b w q kd recv f) :=
  foldl_inForm _ (fun u l => ite_inForm (hf u l) (.refl u)) _ s

theorem passRace_inForm (b w : Nat) (s : State) (l : Nat) : InForm s (passRace b w s l) := setThread_inForm s _ _ _ _

theorem grantWaiting_inForm (s : State) (gid q : Nat) (recv : Bool) (x : Nat × Nat) : InForm s (grantWaiting s gid q recv x) := by
  unfold grantWaiting
  dsimp only
  split
  · exact .refl s
  · exact ite_inForm (.refl s) (((setRace_inForm s _ _ _).trans (grantSlot_inForm _ _ _ _ _ _)).trans
      (wakeRace_inForm _ _ _ _ _ _ (passRace_inForm _ _)))

theorem endReceiver_inForm (gid q : Nat) (s : State) (x : Nat × Nat) : InForm s (endReceiver gid q s x) := by
  unfold endReceiver
  dsimp only
  split
  · exact .refl s
  · exact ite_inForm (.refl s) (((((setRace_inForm s _ _ _).trans (noteGrant_inForm _ _ _ _ _ _ _)).trans
      (setPair_inForm _ _ _ _ _)).trans (acquire_inForm _ _ _)).trans (wakeRace_inForm _ _ _ _ _ _ (passRace_inForm _ _)))

theorem trapReservers_inForm (gid q reason : Nat) (r : Race) (s : State) : InForm s (trapReservers gid q reason r s) :=
  (setRace_inForm s _ _ _).trans (foldl_inForm _ (fun u _ => wakeRace_inForm u _ _ _ _ _ fun v l =>
    (setThread_inForm v _ _ l _).trans (enterTrap_inForm _ _ _ _ _)) _ _)

theorem execRaceGrant_meets (gid race : Nat) (s : State) : Meets s (execRaceGrant gid race s) := by
  have asked : ∀ (o : Option (Nat × Nat)) (t : State) (f : State → Nat × Nat → State) (hf : ∀ u x, InForm u (f u x)),
      InForm t (match o with
        | some x => f t x
        | none => t) := by
    intro o t f hf
    cases o with
    | none => exact .refl t
    | some x => exact hf t x
  unfold execRaceGrant
  split
  · exact .stay s
  next r _ =>
    split
    · exact .next (diverge_inForm s _ _ _ _)
    · extract_lets t
      have reserved : InForm s t := by
        simp only [t]
        split
        · exact ite_inForm (asked _ s (fun u x => grantWaiting u gid race false x) fun u x => grantWaiting_inForm u _ _ _ _) (.refl s)
        · exact trapReservers_inForm _ _ _ _ s
        · exact trapReservers_inForm _ _ _ _ s
      clear_value t
      refine Meets.after ?_ reserved
      split
      · exact .stay t
      · split
        · split
          · exact .next (grantWaiting_inForm t _ _ _ _)
          · exact .stay t
        · split
          · split
            · exact .next (endReceiver_inForm _ _ t _)
            · exact .stay t
          · exact .stay t

theorem endSlot_inForm (s : State) (id : Nat) (o : MemOp) (q i : Nat) (commit : Bool) : InForm s (endSlot s id o q i commit) := by
  have released := opRelease_inForm s id o (((raceOf s o.blk q).map fun r => effScope r o.core).getD .dom)
  unfold endSlot
  split
  · exact dropOp_inForm s _
  · next h => exact released.error h
  · next t _ h =>
    refine (released.ok h).trans ?_
    split
    · exact dropOp_inForm t _
    · exact (dropOp_inForm t id).trans (setRace_inForm _ _ _ _)

theorem execCommitComplete_meets (op : Nat) (s : State) : Meets s (execCommitComplete op s) := by
  unfold execCommitComplete
  split
  · exact .stay s
  · split
    · exact .next (endSlot_inForm s _ _ _ _ _)
    · exact .stay s

theorem execReleaseComplete_meets (op : Nat) (s : State) : Meets s (execReleaseComplete op s) := by
  unfold execReleaseComplete
  split
  · exact .stay s
  · split
    · exact .next (endSlot_inForm s _ _ _ _ _)
    · exact .stay s

theorem closeRace_inForm (s : State) (o : MemOp) (q : Nat) : InForm s (closeRace s o q) := by
  unfold closeRace
  split
  · exact .refl s
  · exact setRace_inForm s _ _ _

theorem execMillComplete_meets (gid : Nat) (s : State) : Meets s (execMillComplete gid s) := by
  unfold execMillComplete
  extract_lets g
  split
  · exact .stay s
  · refine ite_meets (.stay s) ?_
    split
    · next h => exact .next ((endBook_inForm s gid).error h)
    next t h =>
      extract_lets r u
      have released : InForm s r.2 := ((endBook_inForm s gid).ok h).trans (releaseCores_inForm _ _ t)
      have freed : InForm r.2 u := foldl_inForm _ (fun v d => ite_inForm (setDomain_inForm v d _) (.refl v)) _ r.2
      exact ite_meets (.next released)
        (.next ((released.trans freed).trans ((setGrid_inForm u _ _).trans (announceLaunch_inForm _ _))))

/-! ## Collectives (R447 to R450, R456) -/

theorem readGroup_inForm (s : State) (gid n : Nat) : DevInForm Prod.snd s (readGroup s gid n) := by
  unfold readGroup
  extract_lets g keep at'
  have kept : ∀ t x, InForm t (keep t x) := fun t x => setGrid_inForm t _ _
  clear_value keep
  split
  · split <;> exact .ok (.refl s)
  · split
    · exact .ok (.refl s)
    · have head := devRead_inForm s g.vi g.asn g.coll 16
      split
      · exact .wait
      · next h => exact .ok (head.of_fault h)
      next m t h =>
        replace head := head.of_ok h
        split
        · exact .ok head
        · have entry := devRead_inForm t g.vi g.asn at' 32
          split
          · exact .wait
          · next h => exact .ok (head.trans (entry.of_fault h))
          next h =>
            replace entry := entry.of_ok h
            split
            · exact .ok (head.trans (entry.trans (kept _ _)))
            · exact .ok (head.trans (entry.trans (kept _ _)))

theorem joinRound_inForm (s : State) (d gid n rank : Nat) (op : RedOp) (ty : RedType) (v : FRes) (x : Group) :
    InForm s (joinRound s d gid n rank op ty v x).1 := fun h => h

theorem execWred_meets (d a : VReg) (op : RedOp) (ty : RedType) (g : BitVec 4) (s : State) : Meets s (execWred d a op ty g s) := by
  unfold execWred
  extract_lets n rs
  refine issue_meets _ _ (fun u => ?_) s
  have group := readGroup_inForm u (u.block u.iss.blk).gid g.toNat
  dsimp only
  split
  · exact .refl u
  · next h => exact group.of_fault h
  · next h => exact (group.of_ok h).trans (raiseAll_inForm _ _)
  · next h =>
    replace group := group.of_ok h
    refine InForm.trans group ?_
    split
    · exact raiseAll_inForm _ _
    · exact fun i => advanceAll_inForm _ i

theorem putRound_inForm (s : State) (gid group n : Nat) (x : Group) (rd : Round) : InForm s (putRound s gid group n x rd) :=
  setGrid_inForm s _ _

theorem deliverRound_inForm (s : State) (gid group n rank id : Nat) (o : MemOp) (x : Group) (rd : Round) :
    InForm s (deliverRound s gid group n rank id o x rd) := by
  unfold deliverRound
  extract_lets g core told t u
  have acquired : InForm s t := acquire_inForm s core .waf
  have word := devPut_inForm s g.vi g.asn (x.statva + 4 * rank) 4 (n % 2 ^ 24 * 256 + rd.status)
  have written : InForm t u := by
    simp only [u]
    split
    · exact foldl_inForm _ (fun v _ => setThread_inForm v _ _ _ _) _ t
    · exact .refl t
  clear_value u
  split
  · split
    · next h => exact (word.of_ok h).trans (putRound_inForm _ _ _ _ _ _)
    · next h => exact (word.of_fault h).trans (putRound_inForm _ _ _ _ _ _)
    · exact .refl s
  · exact ite_inForm (.refl s) ((acquired.trans written).trans ((putRound_inForm u _ _ _ _ _).trans (dropOp_inForm _ _)))

theorem execWredRoundResult_meets (gid group round member : Nat) (s : State) :
    Meets s (execWredRoundResult gid group round member s) := by
  unfold execWredRoundResult
  split
  · exact .stay s
  · split
    · exact .next (ite_inForm (deliverRound_inForm s _ _ _ _ _ _ _ _) (.refl s))
    · exact .stay s

theorem mapRounds_inForm (s : State) (f : Nat → Nat → Nat → Round → Round) : InForm s (mapRounds s f) := fun h => h
theorem setRound_inForm (s : State) (gid n r : Nat) (f : Round → Round) : InForm s (setRound s gid n r f) := mapRounds_inForm s _
theorem breakLink_inForm (s : State) (d e : Nat) : InForm s (breakLink s d e) := mapRounds_inForm s _
theorem breakRouter_inForm (s : State) (d : Nat) : InForm s (breakRouter s d) := mapRounds_inForm s _
theorem loseRounds_inForm (s : State) (b : Nat) : InForm s (loseRounds s b) := mapRounds_inForm s _

theorem buildTree_inForm (s : State) (vi ident group root : Nat) : InForm s (buildTree s vi ident group root) := by
  unfold buildTree
  split
  · exact setGrid_inForm s _ _
  · exact .refl s

theorem setCtree_inForm (s : State) (d vi : Nat) (m : Memory) : InForm s (s.setCtree d vi m) := setDomain_inForm s _ _

theorem execCtreeBuild_meets (vi ident group root : Nat) (s : State) : Meets s (execCtreeBuild vi ident group root s) := by
  unfold execCtreeBuild
  split
  · exact .next ((setCtree_inForm s _ _ _).trans (buildTree_inForm _ _ _ _ _))
  · exact .next (buildTree_inForm s _ _ _ _)

/-! ## The millwright (R336 to R339) -/

theorem execOccSample_meets (gid race dom : Nat) (s : State) : Meets s (execOccSample gid race dom s) := by
  unfold execOccSample
  dsimp only
  split
  · exact .stay s
  · split
    · exact .stay s
    · exact ite_meets (.stay s) (.next (setGrid_inForm s _ _))

theorem millwright_inForm (s : State) (gid : Nat) (m : Mill) (dom src interval : Nat) :
    InForm s (millwright s gid m dom src interval) := fun h => h

theorem execMillwrightStep_meets (gid dom : Nat) (s : State) : Meets s (execMillwrightStep gid dom s) := by
  unfold execMillwrightStep
  dsimp only
  split
  · exact .stay s
  · exact ite_meets (.stay s) (.next (millwright_inForm s _ _ _ _ _))

theorem execWaferMillwrightStep_meets (gid : Nat) (s : State) : Meets s (execWaferMillwrightStep gid s) := by
  unfold execWaferMillwrightStep
  dsimp only
  split
  · exact .stay s
  · exact ite_meets (.stay s) (.next (millwright_inForm s _ _ _ _ _))

theorem execMoveApply_meets (gid : Nat) (s : State) : Meets s (execMoveApply gid s) := by
  unfold execMoveApply
  extract_lets g
  split
  · exact .stay s
  · split
    · exact .stay s
    · extract_lets m n count t vd u
      have logged : InForm s u := by
        refine InForm.trans (v := t) (setGrid_inForm s _ _) ?_
        clear_value t
        simp only [u]
        split
        · exact bookUse_inForm t _ _
        · exact logDecision_inForm t _ _ _ _ _
      exact ite_meets (.next (setGrid_inForm s _ _)) (.next (logged.trans (settleCore_inForm u _)))

end Sys2Proof.Machine
end

section
/-!
Both memories stay in canonical form: the engraver and flash, the completion of fences, and the answers to faults.
-/
namespace Sys2Proof.Machine
open Sys2Proof

/-! ## Tickets (R350 to R353) -/

theorem addTicket_inForm (s : State) (vi : Nat) (x : Install) : InForm s (addTicket s vi x) := setVI_inForm s _ _
theorem setTicket_inForm (s : State) (vi : Nat) (old new : Install) : InForm s (setTicket s vi old new) := setVI_inForm s _ _

/-- What the read of a descriptor leaves, whether it is read, fails or waits. -/
structure DescInForm (s : State) (r : Except Cond (Except State (Nat × Option Nat)) × State) : Prop where
  state : InForm s r.2
  waits : ∀ t, r.1 = .ok (.error t) → InForm s t

theorem DescInForm.fails {s t : State} {c : Cond} (h : InForm s t) : DescInForm s (.error c, t) := ⟨h, fun _ e => by cases e⟩
theorem DescInForm.stalls {s t : State} (h : InForm s t) : DescInForm s (.ok (.error t), t) := ⟨h, fun _ e => by cases e; exact h⟩

/-- A descriptor read at its place. -/
theorem descAt_inForm {s t : State} {r : TryRead} (h : InForm s t) : ReadInForm t r → DescInForm s (match r with
    | .error u => (.ok (.error u), u)
    | .ok (u, v) => (.ok (.ok v), u)) := by
  intro hr
  cases r with
  | error u => exact .stalls (h.trans hr)
  | ok x => exact ⟨InForm.trans h hr, fun _ e => by cases e⟩

theorem descRead_inForm (s : State) (core : Nat) (va : DWord) : DescInForm s (descRead s core va) := by
  have page := translate_inForm s core (s.viOf s.iss.blk) (s.asnOf s.iss.blk) (va.toNat % 2 ^ 57) {}
  unfold descRead
  extract_lets cond vi
  split
  · exact .fails (.refl s)
  · split
    · exact .fails (.refl s)
    · split
      · next h => rw [h] at page; exact .stalls page
      · next h => rw [h] at page; exact .fails page
      next t u h =>
        rw [h] at page
        split
        · exact .fails page
        · extract_lets pa
          split
          · exact .stalls page
          · exact .fails (page.trans ((drawClasses_cached u).trans (noteDrop_cached _ _)).inForm)
          · refine descAt_inForm page ?_
            split
            · exact plateLoad_inForm u _ _ _ _
            · split
              · exact .bind (cleanToHome_inForm u _ _) fun t => (readHome_cached t _ pa 64).inForm
              · exact (loadL1_cached u _ _ _ _).inForm

theorem execPinstall_meets (ka : KReg) (s : State) : Meets s (execPinstall ka s) := by
  unfold execPinstall
  extract_lets core vi q waits
  have read : DescInForm s q := descRead_inForm s core _
  clear_value waits q
  refine issue_meets_from _ _ (fun u _ => ?_) (.refl s)
  have looked : InForm s (q.2.withIssue u) := withIssue_inForm read.state u
  dsimp only
  split
  · exact looked.trans (raiseAll_inForm _ _)
  · next h => exact read.waits _ h
  · exact looked.trans (raiseAll_inForm _ _)
  · split
    · exact looked.trans (trapAll_inForm _ _)
    · exact looked.trans (holdLanes_inForm _ _)

theorem installTicket_inForm (s : State) (o : MemOp) (dest src len ticket flags event : Nat) :
    InForm s (installTicket s o dest src len ticket flags event) := addTicket_inForm s _ _

theorem execPstatus_meets (kd ka : KReg) (s : State) : Meets s (execPstatus kd ka s) := by
  refine issue_meets _ _ (fun u => ?_) s
  exact ite_inForm ((setWeft_inForm u _ _ _).trans (advanceAll_inForm _)) ((setWeft_inForm u _ _ _).trans (holdLanes_inForm _ _))

theorem finishInstall_inForm (s : State) (vi : Nat) (x : Install) (code : Nat) : InForm s (finishInstall s vi x code) := by
  unfold finishInstall
  extract_lets v back t u
  have raised : InForm s u := (setVI_inForm s _ _).trans (raiseEvent_inForm t vi x.event)
  clear_value u
  split
  · exact ite_inForm (raised.trans (nodeOutcome_inForm u _ _ _ _)) (raised.trans (nodeOutcome_inForm u _ _ _ _))
  · exact raised

theorem settleInstall_inForm (s : State) (vi : Nat) (old new : Install) : InForm s (settleInstall s vi old new) :=
  ite_inForm ((setTicket_inForm s _ _ _).trans (finishInstall_inForm _ _ _ _)) (setTicket_inForm s _ _ _)

theorem destPages_inForm (vi : Nat) (x : Install) : ∀ (n i : Nat) (s : State) (ps : List InstPage),
    DevInForm Prod.snd s (destPages vi x n i s ps)
  | 0, _, s, _ => .ok (.refl s)
  | n + 1, i, s, ps => by
    have walk := devWalk_inForm s vi x.asn (x.dest + 65536 * i) false
    unfold destPages
    dsimp only
    split
    · exact .wait
    · next h => exact .ok (walk.of_fault h)
    · next h =>
      replace walk := walk.of_ok h
      split
      · exact .after (destPages_inForm vi x n (i + 1) _ _) walk
      · exact .ok walk

theorem execInstallAccept_meets (vi ticket : Nat) (s : State) : Meets s (execInstallAccept vi ticket s) := by
  unfold execInstallAccept
  split
  · exact .stay s
  next x _ =>
    have pages := destPages_inForm vi x (x.len / 65536) 0 s []
    refine ite_meets (.stay s) ?_
    split
    · exact .stay s
    · next h => exact .next (pages.of_fault h)
    · next h => exact .next ((pages.of_ok h).trans (finishInstall_inForm _ _ _ _))
    · next h =>
      replace pages := pages.of_ok h
      exact ite_meets (.next (InForm.trans pages (finishInstall_inForm _ _ _ _))) (.next fun i => pages i)

theorem execTicketAbort_meets (vi ticket : Nat) (s : State) : Meets s (execTicketAbort vi ticket s) :=
  .next (foldl_inForm _ (fun u x => settleInstall_inForm u vi x _) _ s)

/-! ## The engraver (R347 to R349) -/

theorem sourceBad_inForm (vi asn : Nat) : ∀ (as : List Nat) (s : State), DevInForm Prod.snd s (sourceBad vi asn as s)
  | [], s => .ok (.refl s)
  | a :: as, s => by
    have walk := devWalk_inForm s vi asn a false
    unfold sourceBad
    split
    · exact .wait
    · next h => exact .ok (walk.of_fault h)
    · next h =>
      replace walk := walk.of_ok h
      split
      · exact .ok walk
      · exact .after (sourceBad_inForm vi asn as _) walk

theorem failPage_inForm (s : State) (vi : Nat) (x : Install) (i : Nat) (p : InstPage) (code : Nat) :
    InForm s (failPage s vi x i p code) := settleInstall_inForm s _ _ _

theorem execEngraveRead_meets (vi ticket page : Nat) (s : State) : Meets s (execEngraveRead vi ticket page s) := by
  unfold execEngraveRead
  generalize 65536 = n
  split
  · exact .stay s
  next x p _ =>
    have source : DevInForm Prod.snd s ((sourceBad vi x.asn (sourceVas p.src) s).bind fun b =>
        if b.1 then .fault p.src b.2 else devRead b.2 vi x.asn p.src n) := by
      refine .bind (sourceBad_inForm vi x.asn _ s) fun b => ?_
      split
      · exact .fault (.refl b.2)
      · exact devRead_inForm b.2 vi x.asn p.src n
    refine ite_meets (.stay s) ?_
    split
    · exact .stay s
    · next h => exact .next ((source.of_fault h).trans (failPage_inForm _ _ _ _ _ _))
    · next h =>
      replace source := source.of_ok h
      exact ite_meets (.next (InForm.trans source (settleInstall_inForm _ _ _ _)))
        (.next (InForm.trans source (setTicket_inForm _ _ _ _)))

theorem retireAt_inForm (s : State) (d b : Nat) : InForm s (retireAt s d b) :=
  ite_inForm (.refl s) (fun h => refreshOrrery_inForm _ d h)

theorem blockFailed_inForm (s : State) (vi name : Nat) (x : Install) (i : Nat) (p : InstPage) (b : Nat) :
    InForm s (blockFailed s vi name x i p b) :=
  (retireAt_inForm s _ _).trans (ite_inForm (failPage_inForm _ _ _ _ _ _) (setTicket_inForm _ _ _ _))

theorem execEngraveProgram_meets (vi ticket page fblk ok : Nat) (s : State) : Meets s (execEngraveProgram vi ticket page fblk ok s) := by
  unfold execEngraveProgram
  split
  · exact .stay s
  · exact ite_meets (ite_meets (.stay s) (.next (failPage_inForm s _ _ _ _ _))) (ite_meets (.stay s)
      (ite_meets (.next (blockFailed_inForm s _ _ _ _ _ _)) (.next ((setDomain_inForm s _ _).trans (setTicket_inForm _ _ _ _)))))

theorem execEngraveVerify_meets (vi ticket page ok : Nat) (s : State) : Meets s (execEngraveVerify vi ticket page ok s) := by
  unfold execEngraveVerify
  split
  · exact .stay s
  · exact ite_meets (.next (blockFailed_inForm s _ _ _ _ _ _)) (.next (setTicket_inForm s _ _ _))

theorem dropFrames_inForm (s : State) (dest : Nat) : InForm s (dropFrames s dest) := fun h => h
theorem switchDone_inForm (s : State) (dest : Nat) : InForm s (switchDone s dest) := fun h => h
theorem writeMap_inForm (s : State) (p : InstPage) : InForm s (writeMap s p) := setDomain_inForm s _ _

theorem execPlateSwitch_meets (vi ticket page : Nat) (s : State) : Meets s (execPlateSwitch vi ticket page s) := by
  unfold execPlateSwitch
  split
  · exact .stay s
  · split
    · exact .stay s
    · exact .next ((switchDone_inForm s _).trans (settleInstall_inForm _ _ _ _))
    · exact ite_meets (.stay s) (.next (writeMap_inForm s _))

/-! ## Reclaiming and erasing (R342, R343) -/

theorem setMove_inForm (s : State) (dom k : Nat) (p : Option InstPage) : InForm s (setMove s dom k p) := setDomain_inForm s _ _

theorem moveFailed_inForm (s : State) (dom k : Nat) (p : InstPage) (b : Nat) : InForm s (moveFailed s dom k p b) :=
  (retireAt_inForm s _ _).trans (setMove_inForm _ _ _ _)

theorem fresh_inForm (s : State) : InForm s s.fresh.2 := fun h => h

theorem moveProgram_inForm (s : State) (dom k dest : Nat) (p : InstPage) : InForm s (moveProgram s dom k dest p) :=
  ite_inForm (ite_inForm (.refl s) (setMove_inForm s _ _ _)) (ite_inForm (.refl s)
    (ite_inForm ((fresh_inForm s).trans (moveFailed_inForm _ _ _ _ _))
      ((fresh_inForm s).trans ((setDomain_inForm _ _ _).trans (setMove_inForm _ _ _ _)))))

theorem moveStep_inForm (s : State) (dom k dest : Nat) (p : InstPage) : InForm s (moveStep s dom k dest p) := by
  unfold moveStep
  split
  · exact moveProgram_inForm s _ _ _ _
  · exact ite_inForm ((fresh_inForm s).trans (moveFailed_inForm _ _ _ _ _)) ((fresh_inForm s).trans (setMove_inForm _ _ _ _))
  · split
    · exact .refl s
    · exact (switchDone_inForm s _).trans (setMove_inForm _ _ _ _)
    · exact ite_inForm (setMove_inForm s _ _ _) (writeMap_inForm s _)
  · exact setMove_inForm s _ _ _

theorem execBlockReclaim_meets (dom fblk dest : Nat) (s : State) : Meets s (execBlockReclaim dom fblk dest s) := by
  unfold execBlockReclaim
  extract_lets x
  split
  · split
    · exact .next (moveStep_inForm s _ _ _ _)
    · exact .stay s
  · refine ite_meets (.stay s) ?_
    split
    · exact .stay s
    · exact .next (setDomain_inForm s _ _)

theorem execBlockErase_meets (dom fblk ok : Nat) (s : State) : Meets s (execBlockErase dom fblk ok s) :=
  ite_meets (.stay s) (ite_meets (.next ((setDomain_inForm s _ _).trans (retireAt_inForm _ _ _)))
    (.next ((setDomain_inForm s _ _).trans (refreshOrrery_inForm _ _))))

/-! ## The completion of fences (R252 to R257, R308, R330, R352, R373) -/

theorem cwbPages_inForm (o : MemOp) : ∀ (fuel : Nat) (s : State) (va n : Nat), TryInForm s (cwbPages s o fuel va n)
  | 0, s, _, _ => InForm.refl s
  | fuel + 1, s, va, n => by
    have page := translate_inForm s o.core (s.viOf o.blk) (s.asnOf o.blk) (va % 2 ^ 57) {}
    unfold cwbPages
    split
    · exact InForm.refl s
    · dsimp only
      split
      · exact cwbPages_inForm o fuel s _ _
      · split
        · next h => rw [h] at page; exact page
        · next h => rw [h] at page; exact .after (cwbPages_inForm o fuel _ _ _) page
        · next h => rw [h] at page; exact .after (cwbPages_inForm o fuel _ _ _) page

theorem cwbTry_inForm (s : State) (id : Nat) (o : MemOp) (sc : Scope) (va len : Nat) : TryInForm s (cwbTry s id o sc va len) := by
  unfold cwbTry
  split
  · exact InForm.refl s
  · exact .bind (cwbPages_inForm o _ s _ _) fun t => release_inForm t _ _

theorem completeOp_inForm (s : State) (id : Nat) (o : MemOp) : TryInForm s (completeOp s id o) := by
  unfold completeOp
  split
  · exact .map (fenceTry_inForm s _ _ _ _) fun t => freeLanes_inForm t _ _
  · exact .map (opRelease_inForm s _ _ _) fun t h => h
  · exact .map (opRelease_inForm s _ _ _) fun t => freeLanes_inForm t _ _
  · exact .map (cwbTry_inForm s _ _ _ _ _) fun t => freeLanes_inForm t _ _
  · exact .map (opRelease_inForm s _ _ _) fun t => (raiseEvent_inForm t _ _).trans (freeLanes_inForm _ _ _)
  · refine .bind (opRelease_inForm s _ _ _) fun t => ?_
    split
    · exact InForm.refl t
    · exact (installTicket_inForm t _ _ _ _ _ _ _).trans (freeLanes_inForm _ _ _)
  · exact .map (opRelease_inForm s _ _ _) fun t => (dropOp_inForm t _).trans (closeRace_inForm _ _ _)
  · split
    · exact freeLanes_inForm s _ _
    · exact InForm.refl s
  · exact InForm.refl s

theorem execFenceComplete_meets (op : Nat) (s : State) : Meets s (execFenceComplete op s) := by
  unfold execFenceComplete
  split
  · exact .stay s
  next o _ =>
    split
    · next h => exact .next ((completeOp_inForm s op o).ok h)
    · next h => exact .next ((completeOp_inForm s op o).error h)

theorem execEvsig_meets (ka : KReg) (s : State) : Meets s (execEvsig ka s) := issue_meets _ _ (fun u => holdLanes_inForm u _) s

/-! ## The answers to fault-queue entries (R384 to R386, R394, R427, R428, R456) -/

theorem execFqpop_meets (vi : Nat) (s : State) : Meets s (execFqpop vi s) := by
  unfold execFqpop
  dsimp only
  split
  · exact .next fun h => h
  · exact .next (setVI_inForm s _ _)

theorem unpost_inForm (s : State) (f : FaultRef) : InForm s (s.unpost f) := fun h => h

theorem armDeliver_inForm (b w : Nat) (s : State) (l : Nat) : InForm s (armDeliver b w s l) := setThread_inForm s _ _ _ _
theorem armParked_inForm (b w : Nat) (s : State) (l : Nat) : InForm s (armParked b w s l) :=
  ite_inForm (.refl s) (setThread_inForm s _ _ _ _)

theorem leaveRace_inForm (b w : Nat) (s : State) (l : Nat) : InForm s (leaveRace b w s l) := by
  unfold leaveRace
  dsimp only
  split
  · split
    · exact setThread_inForm s _ _ _ _
    · exact (setRace_inForm s _ _ _).trans (setThread_inForm _ _ _ _ _)
  · exact .refl s

theorem deliverParity_inForm (b w : Nat) (s : State) (l : Nat) : InForm s (deliverParity b w s l) := by
  unfold deliverParity
  split
  · exact enterTrap_inForm s _ _ _ _
  · exact setThread_inForm s _ _ _ _
  · exact deliverTrap_inForm s _ _ _ _ _ _
  · exact .refl s
  · exact .refl s

theorem resumeWeft_inForm (s : State) (b w : Nat) (deliver : Bool) : InForm s (resumeWeft s b w deliver) := by
  have armed : ∀ (t : State) (again : List Nat), InForm t ((List.range 32).foldl (armParked b w) (again.foldl (armDeliver b w) t)) :=
    fun t again => (foldl_inForm _ (armDeliver_inForm b w) again t).trans (foldl_inForm _ (armParked_inForm b w) _ _)
  have told : ∀ (t : State) (p : Bool), InForm t (if p then (List.range 32).foldl (deliverParity b w) t else t) := fun t p =>
    ite_inForm (foldl_inForm _ (deliverParity_inForm b w) _ t) (.refl t)
  unfold resumeWeft
  extract_lets x t
  split
  · exact .refl s
  · extract_lets d again u v
    have out : InForm s t := fun h => h
    have set : InForm t u := ite_inForm (.refl t) (armed t _)
    have delivered : InForm u v := told u _
    exact ((out.trans set).trans delivered).trans (ite_inForm (.refl v) (finishCheck_inForm v b w))

theorem resumeCopy_inForm (s : State) (core slot : Nat) (goOn : Bool) : InForm s (resumeCopy s core slot goOn) := by
  unfold resumeCopy
  split
  · exact .refl s
  · exact ite_inForm ((unpost_inForm s _).trans (setCopy_inForm _ _ _ _)) ((unpost_inForm s _).trans (endCopy_inForm _ _ _ _ _))

theorem answer_inForm (s : State) (vi handle : Nat) (resume : Bool) : InForm s (answer s vi handle resume) := by
  unfold answer
  split
  · exact countErr_inForm s vi
  · exact resumeWeft_inForm s _ _ _
  · exact resumeCopy_inForm s _ _ _

theorem setMessage_inForm (s : State) (n : Nat) (m : NameMsg) : InForm s (s.setMessage n m) := fun h => h
theorem dropMessage_inForm (s : State) (n : Nat) : InForm s (s.dropMessage n) := fun h => h

theorem endMessage_inForm (s : State) (n : Nat) (m : NameMsg) : InForm s (endMessage s n m) :=
  ite_inForm (setMessage_inForm s _ _) (ite_inForm (dropMessage_inForm s _) (setMessage_inForm s _ _))

/-- A message is sent where it has a route. -/
theorem sent_inForm {s u : State} (hu : InForm s u) (d : Nat) (p : Packet) : InForm s ((inject s d p).getD u) := by
  cases h : inject s d p with
  | none => exact hu
  | some t => exact inject_inForm h

theorem floodMessage_inForm (s : State) (d n : Nat) (m : NameMsg) : InForm s (floodMessage s d n m) := by
  refine InForm.trans ?_ (endMessage_inForm _ n _)
  refine foldl_rel (R := fun u v : Nat × State => InForm u.2 v.2) (fun u => .refl u.2) .trans _ (fun u t => ?_) (s.domsOf m.part) (0, s)
  split
  · next h => exact inject_inForm h
  · exact .refl u.2

theorem sendMessage_inForm (s : State) (n : Nat) (m : NameMsg) : InForm s (sendMessage s n m) := by
  unfold sendMessage
  extract_lets t
  have set : InForm s t := setMessage_inForm s _ _
  clear_value t
  split
  · exact set.trans (floodMessage_inForm t _ _ _)
  · exact set.trans (sent_inForm (dropMessage_inForm t n) _ _)

theorem takeMessage_inForm (s : State) (d n : Nat) (copy : Bool) : InForm s (takeMessage s d n copy) := by
  unfold takeMessage
  split
  · exact .refl s
  · exact ite_inForm (endMessage_inForm s _ _) (ite_inForm ((answer_inForm s _ _ _).trans (endMessage_inForm _ _ _))
      (ite_inForm (endMessage_inForm s _ _) (floodMessage_inForm s _ _ _)))

theorem loseMessage_inForm (s : State) (n : Nat) (copy : Bool) : InForm s (loseMessage s n copy) := by
  unfold loseMessage
  split
  · exact .refl s
  · exact ite_inForm (endMessage_inForm s _ _) (dropMessage_inForm s _)

theorem retryMessages_inForm (s : State) (part name : Nat) : InForm s (retryMessages s part name) :=
  foldl_inForm _ (fun u (e : Nat × NameMsg) => sendMessage_inForm u e.1 e.2) _ s

theorem actOn_inForm (s : State) (vi handle : Nat) (resume : Bool) : InForm s (actOn s vi handle resume) := by
  unfold actOn
  split
  · exact countErr_inForm s vi
  · exact ite_inForm (answer_inForm s _ _ _)
      (InForm.trans (v := { s with nextMessage := s.nextMessage + 1 }) (.refl s) (sendMessage_inForm _ _ _))

theorem execFqResume_meets (vi handle : Nat) (s : State) : Meets s (execFqResume vi handle s) := .next (actOn_inForm s _ _ _)
theorem execFqDeliver_meets (vi handle : Nat) (s : State) : Meets s (execFqDeliver vi handle s) := .next (actOn_inForm s _ _ _)
theorem execFqAbort_meets (vi handle : Nat) (s : State) : Meets s (execFqAbort vi handle s) := .next (actOn_inForm s _ _ _)

theorem parkParity_inForm (s : State) (b w : Nat) : InForm s (parkParity s b w) :=
  (fresh_inForm s).trans (parkWeft_inForm _ _ _ _ _)

theorem execL1TagParityError_meets (core line : Nat) (s : State) : Meets s (execL1TagParityError core line s) :=
  ite_meets (.stay s) (.next fun h => foldl_inForm _ (fun u (x : Nat × Nat) => parkParity_inForm u x.1 x.2) _ (s.dropL1 core line) h)

end Sys2Proof.Machine
end

section
/-!
Both memories stay in canonical form: the mesh, core names, route tables and clocks.
-/
namespace Sys2Proof.Machine
open Sys2Proof

/-! ## Links and packets (R395, R418 to R422, R428, R458) -/

theorem learnName_inForm (s : State) (d part name dom : Nat) : InForm s (learnName s d part name dom) := setDomain_inForm s _ _

theorem execNameAgeTick_meets (dom : Nat) (s : State) : Meets s (execNameAgeTick dom s) := .next (setDomain_inForm s _ _)

theorem takeDown_inForm (s : State) (d p : Nat) : InForm s (takeDown s d p) := by
  unfold takeDown
  split
  · exact .refl s
  · exact (((setDomain_inForm s _ _).trans (setDomain_inForm _ _ _)).trans (breakLink_inForm _ _ _)).trans (refreshLink_inForm _ _ _)

theorem losePacket_inForm (s : State) (id : Nat) : InForm s (losePacket s id) := by
  unfold losePacket
  split
  · exact .refl s
  next p _ =>
    have gone : InForm s { s with packets := Sp.del s.packets id } := .refl s
    dsimp only
    split
    · split
      · exact gone.trans (loseTrip_inForm _ _ _)
      · exact gone
    · exact gone
    · exact gone.trans (setRound_inForm _ _ _ _ _)
    · exact gone.trans (loseMessage_inForm _ _ _)
    · exact gone
    · exact gone

theorem dropPacket_inForm (s : State) (d id : Nat) : InForm s (dropPacket s d id) := (setDomain_inForm s _ _).trans (losePacket_inForm _ _)

theorem execLinkTakeDown_meets (link : Nat) (s : State) : Meets s (execLinkTakeDown link s) := .next (takeDown_inForm s _ _)

theorem execLinkCrcFail_meets (link packet : Nat) (s : State) : Meets s (execLinkCrcFail link packet s) :=
  ite_meets (.stay s) (ite_meets (.next ((setDomain_inForm s _ _).trans (refreshLink_inForm _ _ _)))
    (.next (ite_inForm ((takeDown_inForm s _ _).trans (losePacket_inForm _ _)) (takeDown_inForm s _ _))))

/-! ## Core names (R427, R429, R455) -/

theorem fuseOut_inForm (s : State) (core : Nat) : InForm s (fuseOut s core) := ite_inForm (setDomain_inForm s _ _) (.refl s)
theorem fuseIn_inForm (s : State) (core : Nat) : InForm s (fuseIn s core) := setDomain_inForm s _ _
theorem setRename_inForm (s : State) (d : Nat) (r : RenameReg) : InForm s (s.setRename d r) := setDomain_inForm s _ _

theorem floodPeers_inForm (s : State) (d : Nat) (p : Packet) : InForm s (floodPeers s d p) :=
  foldl_inForm _ (fun u _ => sent_inForm (.refl u) _ _) _ s

theorem endClaim_inForm (s : State) (d : Nat) : InForm s (endClaim s d) := by
  unfold endClaim
  extract_lets r r' u
  split
  · exact .refl s
  · extract_lets k v w
    have taken : InForm s w := ((setCore_inForm s _ _).trans (setRename_inForm _ d _)).trans (learnName_inForm v _ _ _ _)
    have failed : InForm s u := setRename_inForm s d _
    clear_value u w
    split
    · split
      · exact (failed.trans (fuseIn_inForm u _)).trans (refreshOrrery_inForm _ _)
      · exact failed
    · exact (taken.trans (floodPeers_inForm w _ _)).trans (refreshOrrery_inForm _ _)

theorem meetClaim_inForm (s : State) (d src n : Nat) : InForm s (meetClaim s d src n) := by
  unfold meetClaim
  extract_lets r mine crossing u r' v
  have crossed : InForm s u := ite_inForm (setRename_inForm s _ _) (.refl s)
  have met : InForm s v := crossed.trans (setRename_inForm u _ _)
  exact ite_inForm (.refl s) (ite_inForm (met.trans (endClaim_inForm v _)) met)

theorem meetAnnounce_inForm (s : State) (d src n : Nat) : InForm s (meetAnnounce s d src n) :=
  ite_inForm (.refl s) (setRename_inForm s _ _)

theorem startRename_inForm (s : State) (d value : Nat) : InForm s (startRename s d value) := by
  unfold startRename
  extract_lets spare n src r hs dead others
  split
  · exact setRename_inForm s _ _
  · extract_lets u v
    have begun : InForm s u := setRename_inForm s _ _
    clear_value u
    have fused : InForm s v := by
      simp only [v]
      clear_value v dead
      split
      · exact (begun.trans (fuseOut_inForm u _)).trans (refreshOrrery_inForm _ _)
      · exact begun
    exact ite_inForm (setRename_inForm s _ _) (ite_inForm (fused.trans (endClaim_inForm v _)) (fused.trans (floodPeers_inForm v _ _)))

theorem execRenameCore_meets (dom value : Nat) (s : State) : Meets s (execRenameCore dom value s) :=
  .next (ite_inForm (.refl s) (startRename_inForm s _ _))

theorem execRenameComplete_meets (dom : Nat) (s : State) : Meets s (execRenameComplete dom s) :=
  .next (ite_inForm ((setRename_inForm s _ _).trans (retryMessages_inForm _ _ _)) (.refl s))

/-! ## The way of a packet (R418 to R422, R449) -/

theorem deliverPacket_inForm (s : State) (d id : Nat) (p : Packet) : InForm s (deliverPacket s d id p) := by
  unfold deliverPacket
  extract_lets t
  have gone : InForm s t := .refl s
  clear_value t
  split
  · split
    · split
      · exact gone.trans (setAcc_inForm t _ _)
      · exact gone
    · exact gone
  · exact gone.trans (meetClaim_inForm t _ _ _)
  · exact gone.trans (meetAnnounce_inForm t _ _ _)
  · exact gone
  · exact gone.trans (setRound_inForm t _ _ _ _)
  · exact gone.trans (takeMessage_inForm t _ _ _)

theorem sendOut_inForm (s : State) (dom packet : Nat) (p : Packet) (out : Nat) : InForm s (sendOut s dom packet p out) := by
  unfold sendOut
  split
  · exact dropPacket_inForm s _ _
  · exact ite_inForm (dropPacket_inForm s _ _) (ite_inForm (.refl s) fun h => h)

theorem climbTree_inForm (s : State) (dom packet : Nat) (p : Packet) (gid n r : Nat) : InForm s (climbTree s dom packet p gid n r) := by
  unfold climbTree
  split
  · exact .refl s
  · refine ite_inForm id ?_
    split
    · exact .refl s
    · exact deliverPacket_inForm s _ _ _
    · exact sendOut_inForm s _ _ _ _

theorem execPacketForward_meets (dom packet : Nat) (s : State) : Meets s (execPacketForward dom packet s) := by
  unfold execPacketForward
  split
  · exact .stay s
  next p _ =>
    refine ite_meets (.stay s) ?_
    extract_lets t
    have learned : InForm s t := by
      simp only [t]
      split
      · exact learnName_inForm s _ _ _ _
      · exact .refl s
    clear_value t
    refine Meets.after (ite_meets (.next (dropPacket_inForm t _ _)) ?_) learned
    split
    · exact .next (climbTree_inForm t _ _ _ _ _ _)
    · split
      · exact .next (ite_inForm (deliverPacket_inForm t _ _ _) (dropPacket_inForm t _ _))
      · exact .next (sendOut_inForm t _ _ _ _)

/-! ## Route tables (R423 to R426) -/

theorem execRtArm_meets (dom tbl : Nat) (s : State) : Meets s (execRtArm dom tbl s) :=
  ite_meets (.stay s) (.next ((setDomain_inForm s _ _).trans (refreshOrrery_inForm _ _)))

theorem execRtSelect_meets (dom tbl : Nat) (s : State) : Meets s (execRtSelect dom tbl s) :=
  .next (ite_inForm ((setDomain_inForm s _ _).trans (refreshOrrery_inForm _ _)) (.refl s))

theorem setTables_inForm (s : State) (tbl st : Nat) : InForm s (setTables s tbl st) :=
  foldl_inForm _ (fun u d => (setDomain_inForm u d _).trans (refreshOrrery_inForm _ d)) _ s

theorem setDrain_inForm (s : State) (r : Option Drain) : InForm s { s with drain := r } := .refl s

theorem execRtDrain_meets (dom tbl : Nat) (s : State) : Meets s (execRtDrain dom tbl s) :=
  ite_meets (.stay s) (.next ((setTables_inForm s _ _).trans (setDrain_inForm _ _)))

theorem execRtClear_meets (dom : Nat) (s : State) : Meets s (execRtClear dom s) :=
  .next ((setDomain_inForm s _ _).trans (refreshOrrery_inForm _ _))

theorem endPass_inForm (s : State) (r : Drain) : InForm s (endPass s r) := by
  unfold endPass
  extract_lets t
  have cleared : InForm s t := setTables_inForm s _ _
  clear_value t
  exact ite_inForm (cleared.trans (((setDomain_inForm t _ _).trans (setDrain_inForm _ _)).trans (refreshOrrery_inForm _ _)))
    (setDrain_inForm s _)

theorem visit_inForm (s : State) (r : Drain) (dom i : Nat) : InForm s (visit s r dom i) := by
  unfold visit
  extract_lets x r' u t
  have visited : InForm s t := (setDomain_inForm s dom _).trans (setDrain_inForm u (some r'))
  clear_value t
  exact ite_inForm (visited.trans (endPass_inForm t _)) visited

theorem sendToken_inForm (s : State) (r : Drain) (dest : Nat) : InForm s (sendToken s r dest) := by
  unfold sendToken
  cases h : injectOn { s with drain := some { r with moving := true } } r.here (1 - r.tbl)
      { part := (partitionOf s r.here).getD 0, dest := dest, kind := 3, cargo := .token } with
  | none => exact .refl s
  | some t => exact InForm.trans (v := { s with drain := some { r with moving := true } }) (.refl s) (injectOn_inForm h)

theorem execDrainTokenVisit_meets (dom : Nat) (s : State) : Meets s (execDrainTokenVisit dom s) := by
  unfold execDrainTokenVisit
  split
  · exact .stay s
  · refine ite_meets (.stay s) ?_
    split
    · exact .next (endPass_inForm s _)
    · exact .next (ite_inForm (visit_inForm s _ _ _) (sendToken_inForm s _ _))

/-! ## Clocks and power (R433, R434, R460) -/

theorem startChange_inForm (s : State) (d code : Nat) : InForm s (startChange s d code) := setDomain_inForm s _ _

theorem execVfctlWrite_meets (dom value : Nat) (s : State) : Meets s (execVfctlWrite dom value s) :=
  ite_meets (.next (setDomain_inForm s _ _)) (.next ((startChange_inForm s _ _).trans (setDomain_inForm _ _ _)))

theorem execLinkPauseEnd_meets (dom : Nat) (s : State) : Meets s (execLinkPauseEnd dom s) :=
  .next (ite_inForm ((setDomain_inForm s _ _).trans (refreshOrrery_inForm _ _)) (.refl s))

theorem execPowerLimitTick_meets (watts : Nat) (s : State) : Meets s (execPowerLimitTick watts s) := by
  unfold execPowerLimitTick
  split
  · split
    · exact .next (startChange_inForm s _ _)
    · exact .stay s
  · exact .next (foldl_inForm _ (fun u d => ite_inForm (startChange_inForm u d _) (.refl u)) _ s)

end Sys2Proof.Machine
end

section
/-!
Both memories stay in canonical form: queues, their graphs and the end of a cycle.
-/
namespace Sys2Proof.Machine
open Sys2Proof

/-! ## Queues (R356 to R359) -/

theorem ringQueue_inForm (s : State) (q tail : Nat) : InForm s (ringQueue s q tail) :=
  ite_inForm (setQueue_inForm s _ _) (ite_inForm (setQueue_inForm s _ _) (setQueue_inForm s _ _))

theorem execQueueDoorbell_meets (door tail : Nat) (s : State) : Meets s (execQueueDoorbell door tail s) :=
  ite_meets (.next (countErr_inForm s _)) (ite_meets (.next id) (.next (ringQueue_inForm s _ _)))

theorem execQueueEntry_meets (q : Nat) (s : State) : Meets s (execQueueEntry q s) := by
  unfold execQueueEntry
  extract_lets x
  have entry := devRead_inForm s x.vi x.asn (x.base + 64 * (x.head % 2 ^ x.sizeLog)) 64
  refine ite_meets (.stay s) ?_
  split
  · exact .stay s
  · next h => exact .next ((entry.of_fault h).trans (setQueue_inForm _ _ _))
  · next h =>
    replace entry := entry.of_ok h
    dsimp only
    split
    · exact .next (InForm.trans entry (setQueue_inForm _ _ _))
    · exact .next (InForm.trans entry (setQueue_inForm _ _ _))

theorem execGraphStart_meets (q : Nat) (s : State) : Meets s (execGraphStart q s) := by
  unfold execGraphStart
  extract_lets x
  split
  · exact .stay s
  next g _ =>
    extract_lets nnode nsuccs base
    refine ite_meets (.stay s) ?_
    have nodes := devRead_inForm s x.vi x.asn base (64 * nnode)
    split
    · exact .stay s
    · next h => exact .next ((nodes.of_fault h).trans (setQueue_inForm _ _ _))
    next m t h =>
      replace nodes := nodes.of_ok h
      have table := devRead_inForm t x.vi x.asn (g.entry.read 0x10 8) (2 * nsuccs)
      split
      · exact .next nodes
      · next w => exact .next (InForm.trans nodes ((table.of_fault w).trans (setQueue_inForm _ _ _)))
      · next w =>
        replace table := table.of_ok w
        split
        · exact .next (InForm.trans nodes (InForm.trans table (setQueue_inForm _ _ _)))
        · exact .next (InForm.trans nodes (InForm.trans table (setQueue_inForm _ _ _)))

/-! ## Nodes (R361 to R367) -/

theorem modGraph_inForm (s : State) (q : Nat) (f : Graph → Graph) : InForm s (s.modGraph q f) := by
  unfold State.modGraph
  split
  · exact .refl s
  · exact setQueue_inForm s _ _

theorem startNode_inForm (s : State) (q n : Nat) : InForm s (startNode s q n) := (modGraph_inForm s q _).trans (setNode_inForm _ _ _ _)
theorem endNode_inForm (s : State) (q n code addr : Nat) : InForm s (endNode s q n code addr) := setNode_inForm s _ _ _

theorem launchNode_inForm {s : State} (q n : Nat) {r : DevRes (Except Refused Nat × State)} (h : DevInForm Prod.snd s r) :
    InForm s (launchNode s q n r) := by
  unfold launchNode
  split
  · exact .refl s
  · exact (h.of_fault rfl).trans ((startNode_inForm _ _ _).trans (endNode_inForm _ _ _ _ _))
  · exact (h.of_ok rfl).trans ((startNode_inForm _ _ _).trans (endNode_inForm _ _ _ _ _))
  · exact (h.of_ok rfl).trans (startNode_inForm _ _ _)

theorem execKernelNode_meets (q node : Nat) (s : State) : Meets s (execKernelNode q node s) :=
  ite_meets (.next (launchNode_inForm q node (launchGrid_inForm s _ _ _ _))) (.stay s)
theorem execMillNode_meets (q node : Nat) (s : State) : Meets s (execMillNode q node s) :=
  ite_meets (.next (launchNode_inForm q node (launchMill_inForm s _ _ _ _))) (.stay s)

theorem copyMoved_inForm (s : State) (q n k : Nat) : InForm s (copyMoved s q n k) := setNode_inForm s _ _ _

theorem copyBytes_inForm (s : State) (q n k : Nat) : DevInForm id s (copyBytes s q n k) :=
  .bind (devGet_inForm s _ _ _ k) fun r => .bind (devPut_inForm r.2 _ _ _ k r.1) fun t => .ok (copyMoved_inForm t q n k)

theorem copyPiece_inForm (s : State) (q n : Nat) : InForm s (copyPiece s q n) := by
  unfold copyPiece
  extract_lets y src dst
  have whole := copyBytes_inForm s q n (min (y.f 0x20 8 - y.pos) (min (64 - src % 64) (64 - dst % 64)))
  split
  · exact .refl s
  · next h => exact whole.of_ok h
  · next va t h =>
    replace whole := whole.of_fault h
    have first := copyBytes_inForm s q n (va - src)
    split
    · split
      · exact .refl s
      · next w => exact first.of_ok w
      · next w => exact (first.of_fault w).trans (endNode_inForm _ _ _ _ _)
    · exact InForm.trans whole (endNode_inForm _ _ _ _ _)

theorem execCopyNode_meets (q node : Nat) (s : State) : Meets s (execCopyNode q node s) :=
  ite_meets (.next ((startNode_inForm s _ _).trans (copyPiece_inForm _ _ _)))
    (ite_meets (.next (copyPiece_inForm s _ _)) (.stay s))

theorem nodeInstall_inForm (s : State) (q n : Nat) : InForm s (nodeInstall s q n) := by
  unfold nodeInstall
  extract_lets x y desc
  have read := devRead_inForm s x.vi x.asn desc 64
  refine ite_inForm (.refl s) (ite_inForm (endNode_inForm s _ _ _ _) ?_)
  split
  · exact .refl s
  · next h => exact (read.of_fault h).trans (endNode_inForm _ _ _ _ _)
  · next h =>
    replace read := read.of_ok h
    split
    · exact InForm.trans read (endNode_inForm _ _ _ _ _)
    · exact ite_inForm read (InForm.trans read ((setNode_inForm _ _ _ _).trans (addTicket_inForm _ _ _)))

theorem execInstallNode_meets (q node : Nat) (s : State) : Meets s (execInstallNode q node s) :=
  ite_meets (.next ((startNode_inForm s _ _).trans (nodeInstall_inForm _ _ _)))
    (ite_meets (.next (nodeInstall_inForm s _ _)) (.stay s))

theorem execEventNode_meets (q node : Nat) (s : State) : Meets s (execEventNode q node s) := by
  have told : ∀ (t : State) (p : Prop) [Decidable p] (vi vec : Nat), InForm t (if p then sendVector t vi vec else t) :=
    fun t p _ vi vec => ite_inForm (sendVector_inForm t vi vec) (.refl t)
  exact ite_meets (.next ((((startNode_inForm s _ _).trans (raiseEvent_inForm _ _ _)).trans (told _ _ _ _)).trans
    (endNode_inForm _ _ _ _ _))) (.stay s)

theorem setWaiters_inForm (s : State) (ws : List (Nat × Nat)) : InForm s { s with waiters := ws } := .refl s

theorem execWaitNode_meets (q node : Nat) (s : State) : Meets s (execWaitNode q node s) :=
  ite_meets (.next (((startNode_inForm s _ _).trans (setWaiters_inForm _ _)).trans (testEvent_inForm _ _ _))) (.stay s)

/-! ## Predicates and the graph daybook (R363, R364, R462) -/

theorem branchDiverges_inForm (s : State) (q n : Nat) : InForm s (branchDiverges s q n) := by
  unfold branchDiverges
  extract_lets vi src t u
  have told : InForm s t := by
    simp only [t]
    split
    · exact (setVI_inForm s _ _).trans (putDivergence_inForm _ _ _ _ _ _ _)
    · exact .refl s
  exact (told.trans (modGraph_inForm t _ _)).trans (setNode_inForm u _ _ _)

theorem noteBranch_inForm (s : State) (q n value outcome : Nat) : InForm s (noteBranch s q n value outcome).2 := by
  unfold noteBranch
  extract_lets vi v armed
  split
  · split
    · split
      · exact .refl s
      · split
        · exact setVI_inForm s _ _
        · exact .refl s
    · exact (bookWrite_hostOnly s _ _ _ _ _ _ _).inForm.trans (setVI_inForm _ _ _)
  · exact .refl s

theorem predicate_inForm (s : State) (q n : Nat) : DevInForm Prod.snd s (predicate s q n) := by
  have word := devGet_inForm s (s.queue q).vi (s.queue q).asn ((s.node q n).f 0x10 8) 4
  unfold predicate
  split
  · exact .wait
  · next h => exact .ok (word.of_fault h)
  · next h => exact .ok (word.of_ok h)

theorem execCondNode_meets (q node : Nat) (s : State) : Meets s (execCondNode q node s) := by
  have word := predicate_inForm s q node
  unfold execCondNode
  refine ite_meets (.stay s) ?_
  split
  · exact .stay s
  · next h => exact .next (word.of_fault h)
  next p t h =>
    replace word := word.of_ok h
    extract_lets v r src u
    have noted : InForm s r.2 := InForm.trans word ((startNode_inForm t q node).trans (noteBranch_inForm _ _ _ _ _))
    exact ite_meets (.next (noted.trans (branchDiverges_inForm _ _ _)))
      (.next ((noted.trans (setNode_inForm _ _ _ _)).trans (endNode_inForm u _ _ _ _)))

theorem execLoopNode_meets (q node : Nat) (s : State) : Meets s (execLoopNode q node s) := by
  have word := predicate_inForm s q node
  unfold execLoopNode
  refine ite_meets (.stay s) ?_
  split
  · exact .stay s
  · next h => exact .next (word.of_fault h)
  next p t h =>
    replace word := word.of_ok h
    extract_lets v y again r u src w x
    have noted : InForm s r.2 := InForm.trans word ((startNode_inForm t q node).trans (noteBranch_inForm _ _ _ _ _))
    have ended : InForm s x := (noted.trans (setNode_inForm u _ _ _)).trans (ite_inForm (modGraph_inForm w _ _) (.refl w))
    exact ite_meets (.next (noted.trans (branchDiverges_inForm _ _ _))) (ite_meets (.next (noted.trans (setNode_inForm u _ _ _)))
      (.next (ended.trans (endNode_inForm x _ _ _ _))))

/-! ## Counters and readiness (R364, R366) -/

theorem setCycle_inForm (s : State) (c : Cycle) : InForm s { s with cycle := c } := .refl s

theorem decrementAll_inForm (s : State) (q src : Nat) (list : List Nat) : InForm s (decrementAll s q src list) := by
  unfold decrementAll
  split
  · exact .refl s
  · exact ite_inForm ((setQueue_inForm s _ _).trans (setCycle_inForm _ _)) (setQueue_inForm s _ _)

theorem execLoopRearm_meets (q node : Nat) (s : State) : Meets s (execLoopRearm q node s) := by
  unfold execLoopRearm
  extract_lets y lo body busy t u
  split
  · exact .stay s
  · have idle : InForm s t := foldl_inForm _ (fun v m => setNode_inForm v q m _) body s
    exact ite_meets (.stay s) (.next ((idle.trans (setNode_inForm t _ _ _)).trans (decrementAll_inForm u _ _ _)))

theorem recordFailure_inForm (s : State) (q node code addr : Nat) (goOn : Bool) : InForm s (recordFailure s q node code addr goOn) := by
  unfold recordFailure
  extract_lets t
  have noted : InForm s t := modGraph_inForm s _ _
  exact ite_inForm (noted.trans (setCycle_inForm t _)) noted

theorem execNodeComplete_meets (q node : Nat) (s : State) : Meets s (execNodeComplete q node s) := by
  unfold execNodeComplete
  extract_lets y t list goOn
  split
  · have set : InForm s t := setNode_inForm s _ _ _
    exact ite_meets (.stay s) (ite_meets (.next (set.trans (decrementAll_inForm t _ _ _)))
      (ite_meets (.next (set.trans ((recordFailure_inForm t _ _ _ _ _).trans (decrementAll_inForm _ _ _ _))))
        (.next (set.trans (recordFailure_inForm t _ _ _ _ _)))))
  · exact .stay s

/-! ## Completion (R368, R369) -/

theorem bookUsed_inForm (s : State) (vi : Nat) (g : Graph) : InForm s (bookUsed s vi g) := by
  unfold bookUsed
  split
  · exact ite_inForm (.refl s) (putBook_inForm s _ _ _ _ _ _)
  · exact .refl s

theorem putRecord_inForm (s : State) (q va : Nat) (g : Graph) : InForm s (putRecord s q va g) := by
  unfold putRecord
  extract_lets x next
  have word := devPut_inForm s x.vi x.asn (va + 8 * g.written) 8 (g.record.getD g.written 0)
  split
  · exact .refl s
  · next h => exact (word.of_fault h).trans (modGraph_inForm _ _ _)
  · next h => exact (word.of_ok h).trans (modGraph_inForm _ _ _)

theorem announceGraph_inForm (s : State) (q : Nat) (g : Graph) : InForm s (announceGraph s q g) := by
  unfold announceGraph
  extract_lets x t vec u
  have raised : InForm s t := ite_inForm (raiseEvent_inForm s _ _) (.refl s)
  have sent : InForm t u := ite_inForm (sendVector_inForm t _ _) (.refl t)
  exact (raised.trans sent).trans (setQueue_inForm u _ _)

theorem execGraphComplete_meets (q : Nat) (s : State) : Meets s (execGraphComplete q s) := by
  unfold execGraphComplete
  extract_lets x
  split
  · exact .stay s
  · refine ite_meets (.stay s) (ite_meets (.next ((bookUsed_inForm s _ _).trans (modGraph_inForm _ _ _))) (ite_meets (.stay s) ?_))
    split
    · exact ite_meets (.next (putRecord_inForm s _ _ _)) (.next (announceGraph_inForm s _ _))
    · exact .next (announceGraph_inForm s _ _)

/-! ## Queue registers and aborts (R370, R371, R457) -/

theorem abortQueue_inForm (s : State) (q : Nat) : InForm s (abortQueue s q) := by
  unfold abortQueue
  split
  · exact .refl s
  · extract_lets vi mine t ts u w
    have ended : InForm s t := foldl_inForm _ (fun v (e : Nat × Grid) => endLaunch_inForm v e.1 _) mine s
    have aborted : InForm t u := foldl_inForm _ (fun v x => settleInstall_inForm v vi x _) ts t
    exact ((ended.trans aborted).trans (setWaiters_inForm u _)).trans (modGraph_inForm w _ _)

theorem execQcfgWrite_meets (vi q reg value : Nat) (s : State) : Meets s (execQcfgWrite vi q reg value s) := by
  unfold execQcfgWrite
  extract_lets x open' refused
  have kept : InForm s refused := setQueue_inForm s _ _
  refine ite_meets (.next (countErr_inForm s _)) ?_
  split
  · exact .next (ite_inForm (setQueue_inForm s _ _) kept)
  · exact .next (ite_inForm (setQueue_inForm s _ _) kept)
  · exact ite_meets (.next kept) (.next (ite_inForm ((setQueue_inForm s _ _).trans (abortQueue_inForm _ _)) (setQueue_inForm s _ _)))
  · exact .stay s

theorem execEvraise_meets (vi n : Nat) (s : State) : Meets s (execEvraise vi n s) := .next (raiseEvent_inForm s _ _)

theorem execGdaybookWrite_meets (vi value : Nat) (s : State) : Meets s (execGdaybookWrite vi value s) := .next (setVI_inForm s _ _)

theorem readGraphBook_inForm (s : State) (vi va : Nat) : DevInForm Prod.snd s (readGraphBook s vi va) := by
  unfold readGraphBook
  exact .bind (devRead_inForm s vi 0 va 64) fun r => .bind (readBook_inForm r.2 vi 0 va _) fun q => .ok (.refl q.2)

theorem execGdaybookArm_meets (vi : Nat) (s : State) : Meets s (execGdaybookArm vi s) := by
  unfold execGdaybookArm
  split
  · exact .stay s
  next va _ =>
    extract_lets running endWith fails
    refine ite_meets (.stay s) ?_
    split
    · exact .next ((closeBook_inForm s _ _ _).trans (setVI_inForm _ _ _))
    · refine ite_meets (.stay s) ?_
      have ended : ∀ t b, InForm t (endWith t b) := fun t b => setVI_inForm t _ _
      have failed : ∀ t, InForm t (fails t) := fun t => ((ended t none).trans (setVI_inForm _ _ _)).trans (countErr_inForm _ _)
      clear_value endWith fails
      have book := readGraphBook_inForm s vi va
      refine ite_meets (.next (ended s none)) ?_
      split
      · exact .stay s
      · next h => exact .next ((book.of_fault h).trans (failed _))
      · next h => exact .next ((book.of_ok h).trans (failed _))
      · next h => exact .next ((book.of_ok h).trans ((openBook_inForm _ _ _ _).trans (ended _ _)))

theorem endCycle_inForm (s : State) : InForm s (endCycle s) := by
  unfold endCycle
  extract_lets c t u
  have tested : InForm s t := (setCycle_inForm s {}).trans (testBarriers_inForm _ c)
  have waited : InForm t u := foldl_inForm _ (fun v (e : Nat × Nat) => testWaits_inForm e.1 e.2 v.waiters v) _ t
  exact (tested.trans waited).trans (foldl_inForm _ (fun v (e : Nat × Nat) => ringQueue_inForm v e.1 e.2) _ u)

end Sys2Proof.Machine
end

section
/-!
Both memories stay in canonical form: pre-emption, and what the host, the peers and the resets do.
-/
namespace Sys2Proof.Machine
open Sys2Proof

/-! ## Commands and decisions (R397 to R400) -/

theorem setCmds_inForm (s : State) (cs : Sp PreCmd) : InForm s { s with cmds := cs } := .refl s

theorem discardHeld_inForm (s : State) (b : Nat) : InForm s (discardHeld s b) := fun h => h

theorem stopBlock_inForm (s : State) (b : Nat) (m : Method) : InForm s (stopBlock s b m) :=
  (setBlock_inForm s b _).trans (ite_inForm (discardHeld_inForm _ b) (.refl _))

theorem applyDecision_inForm (s : State) (n b : Nat) (m : Method) : InForm s (applyDecision s n b m) :=
  (setBlock_inForm s b _).trans (ite_inForm (.refl _) (ite_inForm (setBlock_inForm _ b _) (stopBlock_inForm _ b m)))

theorem execPreemptCommand_meets (vi value : Nat) (s : State) : Meets s (execPreemptCommand vi value s) :=
  ite_meets (.stay s) (ite_meets (.next (countErr_inForm s vi)) (.next ((setCmds_inForm s _).trans
    (foldl_inForm _ (fun u (e : Nat × Block) => applyDecision_inForm u _ e.1 _) _ _))))

theorem execDrainBudgetExpire_meets (blk : Nat) (s : State) : Meets s (execDrainBudgetExpire blk s) :=
  ite_meets (.next (stopBlock_inForm s blk .save)) (.stay s)

theorem execHoldLift_meets (vi cmd : Nat) (s : State) : Meets s (execHoldLift vi cmd s) := by
  unfold execHoldLift
  split
  · exact .stay s
  · exact .next (ite_inForm (setCmds_inForm s _) (.refl s))

theorem execPreemptDone_meets (cmd : Nat) (s : State) : Meets s (execPreemptDone cmd s) := by
  unfold execPreemptDone
  split
  · exact .stay s
  · exact ite_meets (.stay s) (.next ((setCmds_inForm s _).trans (raiseEvent_inForm _ _ _)))

/-! ## Flushing and saving (R401 to R408) -/

theorem forced_inForm (s : State) (b : Nat) (m : Method) : InForm s (forced s b m) := by
  unfold forced
  split
  · exact ite_inForm ((bookUse_inForm s _ _).trans (stopBlock_inForm _ b m)) (.refl s)
  · exact .refl s

theorem execFlushRelease_meets (blk : Nat) (s : State) : Meets s (execFlushRelease blk s) := by
  unfold execFlushRelease
  extract_lets t k u v src w
  have stopped : InForm s t := forced_inForm s blk .flush
  have discarded : InForm s u := stopped.trans (discardHeld_inForm t blk)
  have left : InForm u v :=
    (ite_inForm (releaseWefts_inForm u blk) (clearWefts_inForm u blk)).trans (leaveCmd_inForm _ blk .flush)
  exact ite_meets (.next stopped) (ite_meets (.next discarded)
    (.next ((discarded.trans left).trans ((setBlock_inForm v blk _).trans (settleCore_inForm w _)))))

theorem withdrawWaits_inForm (s : State) (b : Nat) : InForm s (withdrawWaits s b) :=
  (loseRounds_inForm s b).trans (foldl_inForm _ (fun u w => foldl_inForm _ (leaveRace_inForm b w) _ u) _ _)

theorem shelveWefts_inForm (s : State) (b : Nat) : InForm s (shelveWefts s b) := fun h => h

theorem noRoom_inForm (s : State) (b : Nat) : InForm s (noRoom s b) :=
  (foldl_inForm _ (fun u _ => setCmds_inForm u _) _ s).trans (setBlock_inForm _ b _)

theorem leaveSaved_inForm (s : State) (b base len : Nat) : InForm s (leaveSaved s b base len) :=
  (shelveWefts_inForm s b).trans ((leaveCmd_inForm _ b .save).trans ((setBlock_inForm _ b _).trans (settleCore_inForm _ _)))

theorem execSaveWrite_meets (blk : Nat) (s : State) : Meets s (execSaveWrite blk s) := by
  unfold execSaveWrite
  extract_lets t k u
  have stopped : InForm s t := forced_inForm s blk .save
  have withdrawn : InForm s u := stopped.trans (withdrawWaits_inForm t blk)
  refine ite_meets (.next stopped) (ite_meets (.next withdrawn) ?_)
  have released := release_inForm u k.core .dom
  split
  · next h => exact .next (withdrawn.trans (released.error h))
  next v h =>
    have left : InForm s v := withdrawn.trans (released.ok h)
    extract_lets len
    split
    · exact .next (left.trans (noRoom_inForm v blk))
    · split
      · next waits => rw [putArea_error waits]; exact .next left
      · next written => exact .next (left.trans ((putArea_inForm written).trans (leaveSaved_inForm _ _ _ _)))

/-! ## Contexts and invalidations (R212, R221, R232) -/

theorem execAsnroot_meets (vi off value : Nat) (s : State) : Meets s (execAsnroot vi off value s) := by
  unfold execAsnroot
  split
  · exact .next (setVI_inForm s vi _)
  · exact .next (setVI_inForm s vi _)
  · exact .next (countErr_inForm s vi)

theorem dropTlbs_inForm (s : State) (q : InvScope) : InForm s (dropTlbs s q) := (dropTlbs_placesOnly q s).inForm

theorem execTlbinv_meets (vi value : Nat) (s : State) : Meets s (execTlbinv vi value s) :=
  .next ((setVI_inForm s vi _).trans (ite_inForm (dropTlbs_inForm _ _) (.refl _)))

/-- A fold that also notes whether all went well keeps the memories in form if each step does. -/
theorem foldl_noted_inForm {β : Type*} (f : Bool × State → β → Bool × State) (hf : ∀ r x, InForm r.2 (f r x).2) (ls : List β)
    (r : Bool × State) : InForm r.2 (ls.foldl f r).2 :=
  foldl_rel (R := fun u v : Bool × State => InForm u.2 v.2) (fun u => .refl u.2) .trans f hf ls r

theorem cleanPartition_inForm (s : State) (vi : Nat) : InForm s (cleanPartition s vi).2 := by
  unfold cleanPartition
  refine foldl_noted_inForm _ (fun r c => ?_) _ (true, s)
  exact (cleanL1All_cached r.2 c).inForm

theorem execTlbinvDone_meets (vi : Nat) (s : State) : Meets s (execTlbinvDone vi s) := by
  unfold execTlbinvDone
  extract_lets v q t r
  have dropped : InForm s t := dropTlbs_inForm s q
  have cleaned : InForm s r.2 := dropped.trans (cleanPartition_inForm t vi)
  exact ite_meets (.stay s) (ite_meets (.next dropped) (.next (ite_inForm (cleaned.trans (setVI_inForm r.2 vi _)) cleaned)))

theorem execL2hashWrite_meets (dom index value : Nat) (s : State) : Meets s (execL2hashWrite dom index value s) := by
  unfold execL2hashWrite
  extract_lets resident r x
  have cleaned : InForm s r.2 := (tryAll_cached _ (fun u l => cleanRemote_cached u dom l) _ s).inForm
  exact ite_meets (.stay s) (ite_meets (.next cleaned) (.next (cleaned.trans (setDomain_inForm r.2 dom _))))

/-! ## Migration (R354, R355) -/

theorem execMigrateStart_meets (vi : Nat) (s : State) : Meets s (execMigrateStart vi s) :=
  ite_meets (.stay s) (.next (setVI_inForm s vi _))

theorem execMigrateCopied_meets (vi : Nat) (s : State) : Meets s (execMigrateCopied vi s) := by
  have moved : ∀ old new size, InForm s (forgetFrame (copyFrame s old new size) new size) := fun old new size =>
    InForm.trans (copyFrame_inv old new size) (forgetFrame_placesOnly _ _ _).inForm
  exact ite_meets (.stay s) (.next ((moved _ _ _).trans (setVI_inForm _ vi _)))

theorem purgeFrame_inForm (s : State) (vi old size : Nat) : InForm s (purgeFrame s vi old size).2 := by
  have l1 : ∀ (r : State) (c : Nat) (ls : List Nat),
      InForm r (tryAll (fun s l => do .ok ((← cleanL1 s c l).dropL1 c l)) ls r).2 := fun r c ls =>
    (tryAll_cached _ (fun u l => .map (cleanL1_cached u c l) fun v => setCore_cached v c _) ls r).inForm
  have l2 : ∀ (r : State) (d : Nat) (ls : List Nat),
      InForm r (tryAll (fun s l => do .ok ((← cleanRemote s d l).dropRem d l)) ls r).2 := fun r d ls =>
    (tryAll_cached _ (fun u l => .map (cleanRemote_cached u d l) fun v => setDomain_cached v d _) ls r).inForm
  unfold purgeFrame
  extract_lets inFrame
  refine foldl_noted_inForm _ (fun r d => ?_) _ (true, s)
  refine InForm.trans (foldl_noted_inForm _ (fun q c => ?_) _ r) (l2 _ d _)
  exact l1 q.2 c _

theorem execMigrateFinish_meets (vi : Nat) (s : State) : Meets s (execMigrateFinish vi s) := by
  unfold execMigrateFinish
  extract_lets v r
  have purged : InForm s r.2 := purgeFrame_inForm s vi _ _
  exact ite_meets (.stay s) (.next (ite_inForm (purged.trans (setVI_inForm r.2 vi _)) purged))

/-! ## Accesses of the host and of peers (R446, R451, R453) -/

theorem outAccess_inForm (s : State) (host : Bool) (f : OutFn) (pa n x : Nat) : InForm s (outAccess s host f pa n x) := by
  unfold outAccess
  extract_lets line
  refine ite_inForm (.refl s) ?_
  have reach := (homeReach_cached s (homeOf pa) line).inForm
  split
  · next h => exact reach.error h
  next t h =>
    refine (reach.ok h).trans (ite_inForm (ite_inForm (dirUpdate_domainsOnly t line _).inForm (.refl t)) (ite_inForm (.refl t) ?_))
    exact ((homeBytes_cached t line _ _ _).inForm.trans (dirWrite_domainsOnly _ line _ _).inForm).trans
      (noteStore_cached _ none pa n _).inForm

theorem execHostMemAccess_meets (vi fn off size data : Nat) (s : State) : Meets s (execHostMemAccess vi fn off size data s) := by
  unfold execHostMemAccess
  split
  · exact .next (ite_inForm (.refl s) (countErr_inForm s vi))
  · exact .next (outAccess_inForm s true _ _ _ _)

theorem execPeerAccess_meets (port fn off size data : Nat) (s : State) : Meets s (execPeerAccess port fn off size data s) :=
  .next (ite_inForm (outAccess_inForm s false _ _ _ _) (.refl s))

/-! ## Registers (R424, R453 to R456) -/

theorem writeTable_inForm (s : State) (d tbl i byte : Nat) : InForm s (writeTable s d tbl i byte) :=
  ite_inForm (.refl s) (setDomain_inForm s d _)

theorem writePeer_inForm (s : State) (d off value : Nat) : InForm s (writePeer s d off value) :=
  ite_inForm (.refl s) (fun h => h)

theorem writeCtree_inForm (s : State) (vi d off size value : Nat) : InForm s (writeCtree s vi d off size value) :=
  (setCtree_inForm s d vi _).trans (ite_inForm (buildTree_inForm _ vi _ _ _) (.refl _))

theorem writeWindow_inForm (s : State) (vi d off size value : Nat) : InForm s (writeWindow s vi d off size value) :=
  ite_inForm (setDomain_inForm s d _) (ite_inForm (setDomain_inForm s d _) (ite_inForm (writeCtree_inForm s vi d _ _ _)
    (ite_inForm (countErr_inForm s vi) (ite_inForm (setDomain_inForm s d _) (ite_inForm (writePeer_inForm s d _ _)
      (ite_inForm (foldl_inForm _ (fun u _ => writeTable_inForm u d _ _ _) _ s) (countErr_inForm s vi)))))))

theorem execRegisterWrite_meets (vi off size value : Nat) (s : State) : Meets s (execRegisterWrite vi off size value s) := by
  unfold execRegisterWrite
  refine ite_meets (execAsnroot_meets vi _ value s) (ite_meets (.next (setVI_inForm s vi _))
    (ite_meets (.next ((setVI_inForm s vi _).trans (writeOrrery_inForm _ vi))) (ite_meets (.next (setVI_inForm s vi _))
      (ite_meets (.next (ite_inForm (.refl s) (.refl s))) (ite_meets ?_ (.next (countErr_inForm s vi)))))))
  split
  · exact .next (writeWindow_inForm s vi _ _ _ _)
  · exact .next (countErr_inForm s vi)

theorem execPartmap_meets (vi mask : Nat) (s : State) : Meets s (execPartmap vi mask s) :=
  ite_meets (.stay s) (.next ((setVI_inForm s vi _).trans (writeOrrery_inForm _ vi)))

theorem execAttest_meets (vi value : Nat) (s : State) : Meets s (execAttest vi value s) :=
  ite_meets (.stay s) (.next ((queueBytes_hostOnly s vi 0 _ _ _).inForm.trans (setVI_inForm _ vi _)))

/-! ## Bring-up and resets (R311, R341, R371, R423, R461) -/

theorem refreshAll_inForm (s : State) : InForm s (refreshAll s) :=
  foldl_inForm _ (fun u (e : Nat × VIface) => writeOrrery_inForm u e.1) _ s

theorem execPowerOn_meets (s : State) : Meets s (execPowerOn s) := by
  refine .next ((foldl_inForm _ (fun u d => ?_) _ s).trans (refreshAll_inForm _))
  exact ite_inForm (fun h => h) (.refl u)

theorem abortInstalls_inForm (s : State) (d : Nat) : InForm s (abortInstalls s d) :=
  foldl_inForm _ (fun u (e : Nat × VIface) => foldl_inForm _ (fun v t => settleInstall_inForm v e.1 t _) _ u) _ s

theorem losePackets_inForm (s : State) (d : Nat) : InForm s (losePackets s d) := foldl_inForm _ losePacket_inForm _ s

theorem execDomainReset_meets (dom : Nat) (s : State) : Meets s (execDomainReset dom s) := by
  have lost : ∀ ls : List Nat, InForm s (ls.foldl (fun s b =>
      let s := loseBlock s b
      leaveCmd (s.setBlock b { s.block b with method := none }) b .drain) s) := fun ls =>
    foldl_inForm _ (fun u b => (loseBlock_inForm u b).trans ((setBlock_inForm _ b _).trans (leaveCmd_inForm _ b .drain))) ls s
  have broken : ∀ t, InForm t (losePackets (abortInstalls (breakRouter t dom) dom) dom) := fun t =>
    (breakRouter_inForm t dom).trans ((abortInstalls_inForm _ dom).trans (losePackets_inForm _ dom))
  have cores : ∀ t, InForm t ((List.range 40).foldl
      (fun s i => s.setCore (dom * 40 + i) (s.core (dom * 40 + i)).afterReset) t) := fun t =>
    foldl_inForm _ (fun u _ => setCore_inForm u _ _) _ t
  exact .next (((lost _).trans (broken _)).trans ((setDomain_inForm _ dom _).trans ((cores _).trans
    ((setDomain_inForm _ dom _).trans (refreshAround_inForm _ dom)))))

theorem execVirtualInterfaceReset_meets (vi : Nat) (s : State) : Meets s (execVirtualInterfaceReset vi s) :=
  .next ((foldl_inForm _ (fun u _ => setDomain_inForm u _ _) _ s).trans (setVI_inForm _ vi _))

/-- The memory is empty after a loss of power, and the host's stays as it is. -/
theorem execPowerLoss_meets (s : State) : Meets s (execPowerLoss s) :=
  .next fun h => (State.inv_iff _).mpr ⟨rfl, ((State.inv_iff s).mp h).2⟩

end Sys2Proof.Machine
end

section
/-!
Both memories stay in canonical form, whatever instruction or step the module takes; and each answers a next state.
-/
namespace Sys2Proof.Machine
open Sys2Proof

/-! ## Instructions that name registers of their own (R102, R168, R169) -/

theorem execMovx_meets (d : VReg) (i : BitVec 2) (s : State) : Meets s (execMovx d i s) :=
  issue_meets _ _ (fun u => laneSteps_inForm _ u.iss.lanes u) s
theorem execMovxw_meets (i : BitVec 2) (a : VReg) (s : State) : Meets s (execMovxw i a s) :=
  issue_meets _ _ (fun u => laneSteps_inForm _ u.iss.lanes u) s
theorem execKmovv_meets (d : KReg) (a : VReg) (s : State) : Meets s (execKmovv d a s) :=
  issue_meets _ _ (fun u => (setWeft_inForm u _ _ _).trans (advanceAll_inForm _)) s
theorem execKldcb_meets (d a : KReg) (i : BitVec 11) (s : State) : Meets s (execKldcb d a i s) :=
  issue_meets _ _ (fun u => ite_inForm (trapAll_inForm u _) ((setWeft_inForm u _ _ _).trans (advanceAll_inForm _))) s

/-! ## The forms that instructions share -/

theorem aluWord_meets (f : Word → Word → Word) (c : IClass) (d a : VReg) (b : Src) (s : State) : Meets s (aluWord f c d a b
    s) := issueLanes_meets ..
theorem aluShort_meets (f : Word → Word → Word) (d : BitVec 6) (r : BitVec 5) (s : State) : Meets s (aluShort f d r s) :=
  aluWord_meets ..
theorem fp32Bin_meets (f : Nat → FVal → FVal → FRes) (d a : VReg) (b : Src) (s : State) : Meets s (fp32Bin f d a b s) :=
  issueLanes_meets ..
theorem fp32MinMax_meets (mx : Bool) (d a : VReg) (b : Src) (s : State) : Meets s (fp32MinMax mx d a b s) := issueLanes_meets ..
theorem aluImm_meets (f : Word → Word → Word) (d a : VReg) (imm : Word) (s : State) : Meets s (aluImm f d a imm s) :=
  issueLanes_meets ..
theorem aluAccum_meets (f : Word → Word → Word → Word) (c : IClass) (d a : VReg) (b : Src) (s : State) : Meets s (aluAccum f
    c d a b s) := issueLanes_meets ..
theorem aluPair_meets (f : DWord → DWord → DWord) (c : IClass) (d a : VReg) (b : Src) (s : State) : Meets s (aluPair f c d a
    b s) := issueLanes_meets ..
theorem aluWide_meets (f : Word → Word → DWord) (d a : VReg) (b : Src) (s : State) : Meets s (aluWide f d a b s) :=
  issueLanes_meets ..
theorem aluShift64_meets (f : DWord → Word → DWord) (d a : VReg) (b : Src) (s : State) : Meets s (aluShift64 f d a b s) :=
  issueLanes_meets ..
theorem fp32Rel_meets (r : FRel) (d a : VReg) (b : Src) (s : State) : Meets s (fp32Rel r d a b s) := issueLanes_meets ..
theorem fp64Bin_meets (f : Nat → FVal → FVal → FRes) (d a : VReg) (b : Src) (s : State) : Meets s (fp64Bin f d a b s) :=
  issueLanes_meets ..
theorem fp64MinMax_meets (mx : Bool) (d a : VReg) (b : Src) (s : State) : Meets s (fp64MinMax mx d a b s) := issueLanes_meets ..
theorem fp64Rel_meets (r : FRel) (d a : VReg) (b : Src) (s : State) : Meets s (fp64Rel r d a b s) := issueLanes_meets ..
theorem packed_meets (f : Fmt) (op : FVal → FVal → FVal → FRes) (d a : VReg) (b : Src) (s : State) : Meets s (packed f op d a
    b s) := issueLanes_meets ..
theorem aluUnary_meets (f : Word → Word) (d a : VReg) (s : State) : Meets s (aluUnary f d a s) := issueLanes_meets ..
theorem fp32Un_meets (f : Nat → FVal → FRes) (d a : VReg) (s : State) : Meets s (fp32Un f d a s) := issueLanes_meets ..
theorem shuffle_meets (j : Nat → Nat → Int) (d a : VReg) (b : Src) (s : State) : Meets s (shuffle j d a b s) :=
  issueLanes_meets ..
theorem reduce_meets (f : (Nat → Word) → List Nat → Nat → Word) (d a : VReg) (s : State) : Meets s (reduce f d a s) :=
  issueLanes_meets ..
theorem uniWord_meets (f : Word → Word → Word) (d a b : KReg) (s : State) : Meets s (uniWord f d a b s) := issueOnce_meets ..
theorem spmIssue_meets (a : Access) (base : VReg) (imm : Nat) (s : State) : Meets s (spmIssue a base imm s) := memIssue_meets ..
theorem clusterIssue_meets (a : Access) (base : VReg) (imm : Nat) (s : State) : Meets s (clusterIssue a base imm s) :=
  memIssue_meets ..
theorem vaIssue_meets (a : Access) (space : Nat) (base : VReg) (imm : Nat) (s : State) : Meets s (vaIssue a space base imm s)
    := memIssue_meets ..
theorem constIssue_meets (a : Access) (x : VReg) (imm : Nat) (s : State) : Meets s (constIssue a x imm s) := memIssue_meets ..

/-! ## Every instruction and every step -/

theorem exec_meets (i : Instr) (s : State) : Meets s (exec i s) := by
  cases i
  all_goals unfold exec
  case shortMov | iadd | isub | imul | imulhi | imulhin | imin | imax | iminn | imaxn | and | or | xor | andn | shl |
    shrl | shra | rotl | iaddsat | isubsat | bfx | iseq | isne | islt | isle | isltn | islen | idiv | irem | idivn |
    iremn =>
    exact aluWord_meets ..
  case shortIadd | shortIsub | shortImul | shortAnd | shortOr | shortXor | shortShl | shortShrl | shortShra =>
    exact aluShort_meets ..
  case shortFadd | shortFsub | shortFmul | fadd | fsub | fmul | fdiv =>
    exact fp32Bin_meets ..
  case shortFmax | shortFmin | fmin | fmax =>
    exact fp32MinMax_meets ..
  case shortIaddi | iaddi | andi | ori | xori | shli | shrli | shrai | iseqi | islti | isltni | imuli | isnei =>
    exact aluImm_meets ..
  case imad | sel | bfi =>
    exact aluAccum_meets ..
  case iadd64 | isub64 =>
    exact aluPair_meets ..
  case imulw | imulwn =>
    exact aluWide_meets ..
  case shl64 | shrl64 | shra64 =>
    exact aluShift64_meets ..
  case ffma | fcopysign | dfma | cvtF32I32 | cvtF32N32 | cvtI32F32 | cvtN32F32 | cvtF64F32 | cvtF32F64 | cvtF64I32 |
    cvtI32F64 | cvtF64I64 | cvtI64F64 | cvtF16x2F32 | cvtBf16x2F32 | cvtF32F16 | cvtF32Bf16 | cvtF32E4m3 | cvtF32E5m2
    | cvtE4m3x4F32 | cvtE5m2x4F32 | frint | fclass | fabs | fneg | dsqrt | redfadd | setx | getx | mov64 | iadd64i |
    movk | movi | movhi | bra | bnz | bz | jmpr | kbnz | kbz | trap | bkpt | rdcyc | movsr =>
    exact issueLanes_meets ..
  case fseq | fsne | fslt | fsle | fsuno =>
    exact fp32Rel_meets ..
  case dadd | dsub | dmul | ddiv =>
    exact fp64Bin_meets ..
  case dmin | dmax =>
    exact fp64MinMax_meets ..
  case dseq | dslt | dsle | dsuno =>
    exact fp64Rel_meets ..
  case hadd2 | hmul2 | hfma2 | badd2 | bmul2 | bfma2 =>
    exact packed_meets ..
  case popc | clz | brev =>
    exact aluUnary_meets ..
  case frcp | frsq | fsqrt | fex2 | flg2 =>
    exact fp32Un_meets ..
  case shfl | shflup | shfldn | shflx =>
    exact shuffle_meets ..
  case ballot | vany | vall | redadd | redmax | redmin | scanadd =>
    exact reduce_meets ..
  case call | callr =>
    exact execCallTo_meets ..
  case kadd | ksub | kmul | kand | kor | kxor | kshl | kshr | ksra | kseq | kslt | ksltn | kmin | kmax | kmulhi =>
    exact uniWord_meets ..
  case kaddi | ksel | kadd64 | kli | klih =>
    exact issueOnce_meets ..
  case lds32 | lds64 | lds128 | sts32 | sts64 | sts128 | atsAdd32 | atsExch32 =>
    exact spmIssue_meets ..
  case ldn32 | ldn64 | ldn128 | stn32 | stn64 | stn128 | atnAdd32 | atnExch32 =>
    exact clusterIssue_meets ..
  case ldgZ8 | ldgS8 | ldgZ16 | ldgS16 | ldg32 | ldg64 | ldg128 | stg8 | stg16 | stg32 | stg64 | stg128 | atg32 |
    atg64 | atf32 | ldp32 | ldp64 | ldp128 | ldh32 | ldh64 | sth32 | sth64 | athAdd64 | athCas64 | athExch64 =>
    exact vaIssue_meets ..
  case pfg | pfp =>
    exact prefetchIssue_meets ..
  case ldcb32 | ldcb64 | ldcb128 =>
    exact constIssue_meets ..
  case cpgs | cpsg =>
    exact copyLanesIssue_meets ..
  case cptl | cpts =>
    exact tileIssue_meets ..
  case movx => exact execMovx_meets ..
  case movxw => exact execMovxw_meets ..
  case ret => exact execRet_meets ..
  case kmovv => exact execKmovv_meets ..
  case kldcb => exact execKldcb_meets ..
  case binit => exact execBinit_meets ..
  case barr => exact execBarr_meets ..
  case barrx => exact execBarrx_meets ..
  case bexp => exact execBexp_meets ..
  case bwait => exact execBwait_meets ..
  case btest => exact execBtest_meets ..
  case bdrop => exact execBdrop_meets ..
  case cppw => exact execCppw_meets ..
  case waitcnt => exact execWaitcnt_meets ..
  case mxpush => exact execMxpush_meets ..
  case mxfence => exact execMxfence_meets ..
  case mxquery => exact execMxquery_meets ..
  case qblk => exact execQblk_meets ..
  case rresv => exact execRresv_meets ..
  case rcommit => exact execRcommit_meets ..
  case rrecv => exact execRrecv_meets ..
  case rrelease => exact execRrelease_meets ..
  case rtryresv => exact execRtryresv_meets ..
  case rtryrecv => exact execRtryrecv_meets ..
  case rclose => exact execRclose_meets ..
  case rstat => exact execRstat_meets ..
  case pinstall => exact execPinstall_meets ..
  case pstatus => exact execPstatus_meets ..
  case fence => exact execFence_meets ..
  case sealLines => exact execSealLines_meets ..
  case unsealLines => exact execUnsealLines_meets ..
  case cwb => exact execCwb_meets ..
  case yield => exact execYield_meets ..
  case wsync => exact execWsync_meets ..
  case exit => exact execExit_meets ..
  case rett => exact execRett_meets ..
  case csrr => exact execCsrr_meets ..
  case csrw => exact execCsrw_meets ..
  case wred => exact execWred_meets ..
  case evsig => exact execEvsig_meets ..
  case phaseEnd => exact execPhaseEnd_meets ..
  case queueDoorbell => exact execQueueDoorbell_meets ..
  case queueEntry => exact execQueueEntry_meets ..
  case graphStart => exact execGraphStart_meets ..
  case kernelNode => exact execKernelNode_meets ..
  case millNode => exact execMillNode_meets ..
  case millStart => exact execMillStart_meets ..
  case millCoreJoin => exact execMillCoreJoin_meets ..
  case copyNode => exact execCopyNode_meets ..
  case installNode => exact execInstallNode_meets ..
  case condNode => exact execCondNode_meets ..
  case loopNode => exact execLoopNode_meets ..
  case loopRearm => exact execLoopRearm_meets ..
  case eventNode => exact execEventNode_meets ..
  case waitNode => exact execWaitNode_meets ..
  case nodeComplete => exact execNodeComplete_meets ..
  case graphComplete => exact execGraphComplete_meets ..
  case qcfgWrite => exact execQcfgWrite_meets ..
  case evraise => exact execEvraise_meets ..
  case handBlock => exact execHandBlock_meets ..
  case placeBlock => exact execPlaceBlock_meets ..
  case clusterConvert => exact execClusterConvert_meets ..
  case clusterConvertDone => exact execClusterConvertDone_meets ..
  case blockRetire => exact execBlockRetire_meets ..
  case gridComplete => exact execGridComplete_meets ..
  case pageWalk => exact execPageWalk_meets ..
  case parkPendingAdmit => exact execParkPendingAdmit_meets ..
  case memComplete => exact execMemComplete_meets ..
  case fenceComplete => exact execFenceComplete_meets ..
  case homeAccess => exact execHomeAccess_meets ..
  case invalidationAccept => exact execInvalidationAccept_meets ..
  case invalidationApply => exact execInvalidationApply_meets ..
  case tlbinv => exact execTlbinv_meets ..
  case tlbinvDone => exact execTlbinvDone_meets ..
  case asnroot => exact execAsnroot_meets ..
  case l2hashWrite => exact execL2hashWrite_meets ..
  case migrateStart => exact execMigrateStart_meets ..
  case migrateCopied => exact execMigrateCopied_meets ..
  case migrateFinish => exact execMigrateFinish_meets ..
  case copyLand => exact execCopyLand_meets ..
  case copyComplete => exact execCopyComplete_meets ..
  case loadw => exact execLoadw_meets ..
  case stream => exact execStream_meets ..
  case accum => exact execAccum_meets ..
  case drain => exact execDrain_meets ..
  case signal => exact execSignal_meets ..
  case mxComplete => exact execMxComplete_meets ..
  case weightStage => exact execWeightStage_meets ..
  case weightStageDone => exact execWeightStageDone_meets ..
  case mxPowerGate => exact execMxPowerGate_meets ..
  case mxWake => exact execMxWake_meets ..
  case installAccept => exact execInstallAccept_meets ..
  case engraveRead => exact execEngraveRead_meets ..
  case engraveProgram => exact execEngraveProgram_meets ..
  case engraveVerify => exact execEngraveVerify_meets ..
  case plateSwitch => exact execPlateSwitch_meets ..
  case blockReclaim => exact execBlockReclaim_meets ..
  case blockErase => exact execBlockErase_meets ..
  case raceGrant => exact execRaceGrant_meets ..
  case commitComplete => exact execCommitComplete_meets ..
  case releaseComplete => exact execReleaseComplete_meets ..
  case millComplete => exact execMillComplete_meets ..
  case millwrightStep => exact execMillwrightStep_meets ..
  case waferMillwrightStep => exact execWaferMillwrightStep_meets ..
  case occSample => exact execOccSample_meets ..
  case moveApply => exact execMoveApply_meets ..
  case preemptCommand => exact execPreemptCommand_meets ..
  case drainBudgetExpire => exact execDrainBudgetExpire_meets ..
  case flushRelease => exact execFlushRelease_meets ..
  case saveWrite => exact execSaveWrite_meets ..
  case preemptDone => exact execPreemptDone_meets ..
  case fqpop => exact execFqpop_meets ..
  case fqResume => exact execFqResume_meets ..
  case fqDeliver => exact execFqDeliver_meets ..
  case fqAbort => exact execFqAbort_meets ..
  case l1TagParityError => exact execL1TagParityError_meets ..
  case linkCrcFail => exact execLinkCrcFail_meets ..
  case packetForward => exact execPacketForward_meets ..
  case rtArm => exact execRtArm_meets ..
  case rtSelect => exact execRtSelect_meets ..
  case rtDrain => exact execRtDrain_meets ..
  case rtClear => exact execRtClear_meets ..
  case drainTokenVisit => exact execDrainTokenVisit_meets ..
  case nameAgeTick => exact execNameAgeTick_meets ..
  case renameCore => exact execRenameCore_meets ..
  case renameComplete => exact execRenameComplete_meets ..
  case vfctlWrite => exact execVfctlWrite_meets ..
  case linkPauseEnd => exact execLinkPauseEnd_meets ..
  case powerLimitTick => exact execPowerLimitTick_meets ..
  case ctreeBuild => exact execCtreeBuild_meets ..
  case wredRoundResult => exact execWredRoundResult_meets ..
  case peerAccess => exact execPeerAccess_meets ..
  case hostMemAccess => exact execHostMemAccess_meets ..
  case attest => exact execAttest_meets ..
  case gdaybookWrite => exact execGdaybookWrite_meets ..
  case gdaybookArm => exact execGdaybookArm_meets ..
  case partmap => exact execPartmap_meets ..
  case powerOn => exact execPowerOn_meets ..
  case domainReset => exact execDomainReset_meets ..
  case registerWrite => exact execRegisterWrite_meets ..
  case holdLift => exact execHoldLift_meets ..
  case gridEnd => exact execGridEnd_meets ..
  case ticketAbort => exact execTicketAbort_meets ..
  case keepMarkClear => exact execKeepMarkClear_meets ..
  case virtualInterfaceReset => exact execVirtualInterfaceReset_meets ..
  case powerLoss => exact execPowerLoss_meets ..
  case hostCompletionTimeout => exact execHostCompletionTimeout_meets ..
  case sealComplete => exact execSealComplete_meets ..
  case linkTakeDown => exact execLinkTakeDown_meets ..

/-- Settles O57: what `exec` answers for each constructor is a next state. -/
theorem execAlwaysAnswers : Obligations.ExecAlwaysAnswers := by
  intro i s
  obtain ⟨t, next, -⟩ := exec_meets i s
  exact ⟨t, next⟩

/-! ## What happens by itself before a turn (R273, R385, R394, R413) -/

theorem noteWait_inForm (core : Nat) (s : State) (x : Nat × Nat × Bool) : InForm s (noteWait core s x) := by
  unfold noteWait
  refine ite_inForm ?_ (.refl s)
  split
  · exact ite_inForm (setCopyq_inForm s core _) (.refl s)
  · exact .refl s

theorem noteCopyWaits_inForm (s : State) : InForm s (noteCopyWaits s) :=
  foldl_inForm _ (fun u (e : Nat × Core) => foldl_inForm _ (noteWait_inForm e.1) _ u) _ s

theorem prelude_inForm (s : State) : InForm s (prelude s) :=
  (reinjectAll_inForm s).trans ((takeDue_inForm _).trans ((noteCopyWaits_inForm _).trans (flushPuts_inForm _)))

/-! ## Issuing (R22, R139 to R143, R205) -/

theorem tickOnce_inForm (s : State) (core : Nat) : InForm s (tickOnce s core) :=
  ite_inForm (.refl s) ((fresh_inForm s).trans (setCore_inForm _ core _))

theorem issueWeft_meets (s : State) (b w : Nat) (handler : Bool) : Meets s (issueWeft s b w handler) := by
  unfold issueWeft
  split
  · exact .next id
  next i _ =>
    have fetched := fetchWord_inForm s (s.block b).core (s.grid (s.block b).gid) i.pc
    split
    · next h => rw [h] at fetched; exact .next fetched
    · next t h => rw [h] at fetched; exact .next (fetched.trans (fetchFault_inForm { t with stalled := false } _ _))
    · next word len t h =>
      rw [h] at fetched
      dsimp only
      split
      · exact (exec_meets _ _).after fetched
      · exact .next (fetched.trans ((noteIssue_inForm (prepare t _)).trans (trapAll_inForm _ _)))

theorem issueAll_meets : ∀ (xs : List (Nat × Nat × Bool)) (s : State), Meets s (issueAll xs s)
  | [], s => .stay s
  | x :: xs, s => by
    obtain ⟨t, next, form⟩ := issueWeft_meets s x.1 x.2.1 x.2.2
    unfold issueAll
    rw [next]
    exact ite_meets ((issueAll_meets xs t).after form) (issueAll_meets xs s)

theorem issueTurn_meets (s : State) (core part : Nat) : Meets s (issueTurn s core part) := by
  unfold issueTurn
  split
  · exact .stay s
  next row g _ =>
    have ticked : ∀ c, InForm s (tickOnce (s.setCore core c) core) := fun c =>
      (setCore_inForm s core c).trans (tickOnce_inForm _ core)
    exact (issueAll_meets g _).after ((ticked _).trans (ite_inForm (.refl _) (setCycle_inForm _ _)))

theorem takeTurn_meets (s : State) (t : Turn) : Meets s (takeTurn s t) := by
  cases t with
  | issue core part => exact issueTurn_meets s core part
  | event i => exact ite_meets (exec_meets i s) (.stay s)
  | sameCycle => exact .stay s

/-! ## A cycle and a step (R184) -/

theorem cycleTurn_meets (s : State) (t : Turn) : Meets s (cycleTurn s t) := by
  unfold cycleTurn
  extract_lets u
  have begun : InForm s u := ite_inForm (endCycle_inForm s) (.refl s)
  obtain ⟨v, next, form⟩ := takeTurn_meets u t
  rw [next]
  have taken : InForm s v := begun.trans form
  exact ite_meets (.next (taken.trans (setCycle_inForm v _)))
    (.next (ite_inForm taken (taken.trans (endCycle_inForm v))))

theorem step_meets (s : State) : Meets s (step s) := by
  unfold step
  refine Meets.after ?_ (prelude_inForm s)
  generalize prelude s = u
  dsimp only
  split
  · exact .next id
  · exact (cycleTurn_meets _ _).after id
  · split
    · exact cycleTurn_meets u _
    · split
      · exact (cycleTurn_meets _ _).after id
      · exact .next (endCycle_inForm u)

/-- Settles O58: each instruction and each step of the device writes main DRAM and host memory by `Memory.setByte`, or
leaves them as they are; what else happens in a step writes neither. -/
theorem stepKeepsInvariant : Obligations.StepKeepsInvariant := by
  intro s t form taken
  obtain ⟨u, next, kept⟩ := step_meets s
  cases next.symm.trans taken
  exact kept form

end Sys2Proof.Machine
end

section
/-!
The race instructions at issue: which of them pass their checks, and what those leave (R324 to R332).
-/
namespace Sys2Proof.Machine
open Sys2Proof

/-! ## What a race instruction reads -/

/-- `v` has what the race instructions read of `u`. -/
structure SameRaces (u v : State) : Prop where
  iss : v.iss = u.iss
  ops : v.ops = u.ops
  grids : v.grids = u.grids
  block : ∀ b, ∃ i r, v.block b = { u.block b with issues := i, raced := r }
  k : v.wft.k = u.wft.k
  slots : v.wft.slots = u.wft.slots

theorem sameRaces_noteIssue (s : State) : SameRaces s (noteIssue s) := by
  obtain ⟨i, j, k, eq⟩ := noteIssue_wft s
  refine ⟨noteIssue_iss s, noteIssue_ops s, noteIssue_grids s, fun b => ?_, by rw [eq], by rw [eq]⟩
  obtain ⟨n, eq⟩ := noteIssue_block s b
  exact ⟨n, (s.block b).raced, eq⟩

/-- The state in which a race instruction takes its effect: issued, and marked but for an RSTAT. -/
def raceNoted (mark : Bool) (s : State) : State := if mark then noteRace (noteIssue s) else noteIssue s

theorem sameRaces_raceNoted (mark : Bool) (s : State) : SameRaces s (raceNoted mark s) := by
  have issued := sameRaces_noteIssue s
  cases mark with
  | false => exact issued
  | true =>
    refine ⟨issued.iss, issued.ops, issued.grids, fun b => ?_, issued.k, issued.slots⟩
    obtain ⟨i, r, eq⟩ := issued.block b
    rw [raceNoted, if_pos rfl, noteRace, State.block_setBlock]
    split
    · next same => exact ⟨i, true, by rw [← same, eq]⟩
    · exact ⟨i, r, eq⟩

section
variable {u v : State} (h : SameRaces u v)
include h

theorem SameRaces.gid (b : Nat) : (v.block b).gid = (u.block b).gid := by
  obtain ⟨i, r, eq⟩ := h.block b; rw [eq]

theorem SameRaces.stage (b : Nat) : (v.block b).stage = (u.block b).stage := by
  obtain ⟨i, r, eq⟩ := h.block b; rw [eq]

theorem SameRaces.grid_eq (g : Nat) : v.grid g = u.grid g := by rw [State.grid, h.grids, State.grid]

theorem SameRaces.raceOf_eq (b q : Nat) : raceOf v b q = raceOf u b q := by
  rw [raceOf, h.grid_eq, h.gid, raceOf]

theorem SameRaces.kpair_eq (r : Nat) : v.wft.kpair r = u.wft.kpair r := by
  have word : ∀ n, v.wft.kreg n = u.wft.kreg n := fun n => by rw [Weft.kreg, h.k, Weft.kreg]
  rw [Weft.kpair, word, word, Weft.kpair]

theorem SameRaces.raceFault_eq (q : Nat) (side : RaceSide) (held : Option (Nat × Bool)) (grants : Bool) :
    raceFault v q side held grants = raceFault u q side held grants := by
  have closes : closing v q = closing u q := by simp only [closing, h.iss, h.ops]
  unfold raceFault
  rw [h.iss, closes, h.slots]
  dsimp only
  rw [h.grid_eq, h.gid, h.stage]

theorem SameRaces.grantFor_eq (b w : Nat) (kinds : List Nat) (r : Nat) : grantFor v b w kinds r = grantFor u b w kinds r := by
  obtain ⟨i, m, eq⟩ := h.block b
  simp only [grantFor, stageByte, h.grid_eq, eq]

theorem SameRaces.tryTurn_eq (q : Nat) (kinds : List Nat) : tryTurn v q kinds = tryTurn u q kinds := by
  have next : ∀ p gid, bookNext v gid p = bookNext u gid p := fun p gid => by simp only [bookNext, State.grid, h.grids]
  simp only [tryTurn, nextGrant, grantLeft, next, h.iss, h.gid, h.grantFor_eq]

end

@[simp] theorem raceNoted_iss (mark : Bool) (s : State) : (raceNoted mark s).iss = s.iss := (sameRaces_raceNoted mark s).iss

theorem raceNoted_threads (mark : Bool) (s : State) : (raceNoted mark s).threads = (noteIssue s).threads := by
  cases mark <;> rfl

@[simp] theorem raceNoted_thread (mark : Bool) (s : State) (b w l : Nat) :
    (raceNoted mark s).thread b w l = (noteIssue s).thread b w l := by
  rw [State.thread, raceNoted_threads, State.thread]

@[simp] theorem raceNoted_nextOp (mark : Bool) (s : State) : (raceNoted mark s).nextOp = s.nextOp := by
  cases mark <;> exact noteIssue_nextOp s

/-! ## The checks of R327 -/

section
variable {s : State} {q : Nat} {side : RaceSide} {grants mark : Bool} {ks : List Regs} {early : State → Option Cond}
  {held : State → Option (Nat × Bool)} {busy : State → Bool} {body : State → State}

/-- A race instruction that passes its checks and need not wait takes its effect. -/
theorem raceIssue_runs (hi : Issues .sync [] ks s) (mode : early s = none) (same : held (raceNoted mark s) = held s)
    (ready : busy s = false) (passes : raceFault s q side (held s) grants = none) :
    raceIssue q side grants mark [] ks early held busy body s = .next (body (raceNoted mark s)) := by
  obtain ⟨formed, allowed, free, clean⟩ := hi
  have fault := (sameRaces_raceNoted mark s).raceFault_eq q side (held s) grants
  rw [passes, ← same] at fault
  refine (issue_body formed.1 (preCond_none_of_early mode allowed) (by simp only [free, ready, Bool.false_and, Bool.or_self])
    clean _).trans ?_
  change Host.Outcome.next (match raceFault (raceNoted mark s) q side (held (raceNoted mark s)) grants with
    | some c => trapAll (raceNoted mark s) c
    | none => body (raceNoted mark s)) = _
  rw [fault]

/-- One that fails a check traps in every lane, with nothing done. -/
theorem raceIssue_traps (hi : Issues .sync [] ks s) (mode : early s = none) (same : held (raceNoted mark s) = held s)
    {c : Cond} (fails : raceFault s q side (held s) grants = some c) :
    raceIssue q side grants mark [] ks early held busy body s = .next (trapAll (raceNoted mark s) c) := by
  obtain ⟨formed, allowed, free, clean⟩ := hi
  have fault := (sameRaces_raceNoted mark s).raceFault_eq q side (held s) grants
  rw [fails, ← same] at fault
  refine (issue_body formed.1 (preCond_none_of_early mode allowed)
    (by simp only [free, fails, Option.isNone_some, Bool.and_false, Bool.or_self]) clean _).trans ?_
  change Host.Outcome.next (match raceFault (raceNoted mark s) q side (held (raceNoted mark s)) grants with
    | some c => trapAll (raceNoted mark s) c
    | none => body (raceNoted mark s)) = _
  rw [fault]

end

theorem slotNamed_raceNoted (k : KReg) (recv mark : Bool) (s : State) :
    slotNamed k recv (raceNoted mark s) = slotNamed k recv s := by
  rw [slotNamed, (sameRaces_raceNoted mark s).kpair_eq, slotNamed]

theorem raceFault_of_no_mill {s : State} (h : (s.grid (s.block s.iss.blk).gid).mill = none) (q : Nat) (side : RaceSide)
    (held : Option (Nat × Bool)) (grants : Bool) : raceFault s q side held grants = some (raceCond 1 0) := by
  simp only [raceFault, h]

theorem raceFault_of_no_race {s : State} {m : Mill} (h : (s.grid (s.block s.iss.blk).gid).mill = some m) {q : Nat}
    (out : m.races.length ≤ q) (side : RaceSide) (held : Option (Nat × Bool)) (grants : Bool) :
    raceFault s q side held grants = some (raceCond 2 0) := by
  simp only [raceFault, h, List.getElem?_eq_none out]

/-- Whether the block at issue is on the wrong side of a race. -/
def wrongSide (s : State) (r : Race) : RaceSide → Bool
  | .prod => (s.block s.iss.blk).stage != r.prod
  | .cons => (s.block s.iss.blk).stage != r.cons
  | .any => false

/-- Whether the weft at issue holds a slot of a race. -/
def holdsSlot (s : State) (q : Nat) (x : Nat × Bool) : Bool :=
  s.wft.slots.any fun h => h.race == q && h.addr == x.1 && h.recv == x.2

/-- The checks of R327 of a race that there is, in their order. -/
theorem raceFault_eq {s : State} {r : Race} {q : Nat} (h : raceOf s s.iss.blk q = some r) (side : RaceSide)
    (held : Option (Nat × Bool)) (grants : Bool) : raceFault s q side held grants =
      if wrongSide s r side then some (raceCond 3 0)
      else if (held.any fun x => !holdsSlot s q x) then some (raceCond 4 ((held.map (·.1)).getD 0))
      else if grants && side == .prod && r.rst == .abandoned then some (raceCond 6 0)
      else if grants && side == .prod && (r.rst == .closed || closing s q) then some (raceCond 5 0)
      else if grants && decide (8 ≤ s.wft.slots.length) then some (raceCond 7 0)
      else none := by
  obtain ⟨m, mill, race⟩ := Option.bind_eq_some_iff.mp h
  simp only [raceFault, mill, race]
  cases side <;> cases held <;> rfl

end Sys2Proof.Machine
end

section
/-!
The effects of the race instructions (R322 to R332).
-/
namespace Sys2Proof.Machine
open Sys2Proof

/-! ## Requests (R321, R327, R328) -/

/-- Every lane of the issue set waits for a race. -/
def raceWaits (q kd : Nat) (recv : Bool) (s : State) : State :=
  s.iss.lanes.foldl (laneStep fun l => .goto { s.lane l with tst := .wait, wait := .race q kd recv }) s

/-- A race with one more request, for a slot or for a token. -/
def Race.queued (r : Race) (recv : Bool) (x : Nat × Nat) : Race :=
  if recv then { r with receivers := r.receivers ++ [x] } else { r with reservers := r.reservers ++ [x] }

/-- The request of the weft at issue is queued. -/
def queueRequest (q kd : Nat) (recv : Bool) (s : State) : State :=
  match raceOf s s.iss.blk q with
  | none => s
  | some r => setRace s (s.block s.iss.blk).gid q (r.queued recv (raceReq s.iss.blk s.iss.weft kd))

theorem exec_rresv (k : KReg) (q : BitVec 5) (s : State) : exec (.rresv k q) s =
    raceIssue q.toNat .prod true true [] [(k.toNat, 2)] handlerIllegal (fun _ => none) (fun _ => false)
      (fun u => queueRequest q.toNat k.toNat false (raceWaits q.toNat k.toNat false u)) s := rfl
theorem exec_rrecv (k : KReg) (q : BitVec 5) (s : State) : exec (.rrecv k q) s =
    raceIssue q.toNat .cons true true [] [(k.toNat, 2)] handlerIllegal (fun _ => none) (fun _ => false)
      (fun u => queueRequest q.toNat k.toNat true (raceWaits q.toNat k.toNat true u)) s := rfl

theorem raceOf_setRace {s : State} {b q : Nat} {r : Race} (h : raceOf s b q = some r) (r' : Race) :
    raceOf (setRace s (s.block b).gid q r') b q = some r' := by
  obtain ⟨m, mill, race⟩ := Option.bind_eq_some_iff.mp h
  have bound : q < m.races.length := (List.getElem?_eq_some_iff.mp race).1
  simp only [setRace, mill]
  rw [raceOf]
  change ((State.grid (s.setGrid _ _) (s.block b).gid).mill).bind _ = _
  rw [State.grid_setGrid_same]
  exact List.getElem?_set_self bound

/-- What the races, and the notes of their grants, leave alone. -/
structure RunsKept (u v : State) : Prop where
  threads : v.threads = u.threads
  wefts : v.wefts = u.wefts
  blocks : v.blocks = u.blocks
  iss : v.iss = u.iss

theorem RunsKept.refl (u : State) : RunsKept u u := ⟨rfl, rfl, rfl, rfl⟩
theorem RunsKept.trans {u v w : State} (h : RunsKept u v) (h' : RunsKept v w) : RunsKept u w :=
  ⟨h'.threads.trans h.threads, h'.wefts.trans h.wefts, h'.blocks.trans h.blocks, h'.iss.trans h.iss⟩
theorem RunsKept.ite {u v w : State} {p : Prop} [Decidable p] (h : RunsKept u v) (h' : RunsKept u w) :
    RunsKept u (if p then v else w) := by
  split
  · exact h
  · exact h'
theorem HostOnly.runs {u v : State} (h : HostOnly u v) : RunsKept u v :=
  ⟨h.field State.threads fun _ => rfl, h.field State.wefts fun _ => rfl, h.blocks, h.field State.iss fun _ => rfl⟩

theorem setGrid_runs (s : State) (g : Nat) (x : Grid) : RunsKept s (s.setGrid g x) := ⟨rfl, rfl, rfl, rfl⟩

theorem setRace_runs (s : State) (g q : Nat) (r : Race) : RunsKept s (setRace s g q r) := by
  unfold setRace
  split
  · exact .refl s
  · exact setGrid_runs s _ _

theorem RunsKept.thread {u v : State} (h : RunsKept u v) (b w l : Nat) : v.thread b w l = u.thread b w l := by
  rw [State.thread, h.threads, State.thread]

/-- RRESV and RRECV put the issue set into WAIT and queue its request. -/
theorem request_waits {s : State} {q kd : Nat} {r : Race} (formed : FormedSet s) (race : raceOf s s.iss.blk q = some r)
    (recv : Bool) :
    (∀ l ∈ s.iss.lanes, (queueRequest q kd recv (raceWaits q kd recv (raceNoted true s))).thread s.iss.blk s.iss.weft l =
      { (noteIssue s).thread s.iss.blk s.iss.weft l with tst := .wait, wait := .race q kd recv }) ∧
    raceOf (queueRequest q kd recv (raceWaits q kd recv (raceNoted true s))) s.iss.blk q =
      some (r.queued recv (raceReq s.iss.blk s.iss.weft kd)) := by
  obtain ⟨lanes, -, rest⟩ := foldl_laneStep (s := s) (u := raceNoted true s)
    (f := fun l => .goto { (raceNoted true s).lane l with tst := .wait, wait := .race q kd recv }) (raceNoted_iss true s)
    formed.nodup fun _ _ => rfl
  have waits : raceWaits q kd recv (raceNoted true s) = s.iss.lanes.foldl
      (laneStep fun l => .goto { (raceNoted true s).lane l with tst := .wait, wait := .race q kd recv }) (raceNoted true s) := by
    rw [raceWaits, raceNoted_iss]
  rw [← waits] at lanes rest
  generalize raceWaits q kd recv (raceNoted true s) = u at lanes rest
  have iss : u.iss = s.iss := (rest.field State.iss fun _ => rfl).trans (raceNoted_iss true s)
  have known : raceOf u s.iss.blk q = some r := by
    rw [rest.field (fun t => raceOf t s.iss.blk q) fun _ => rfl, (sameRaces_raceNoted true s).raceOf_eq, race]
  have queues : queueRequest q kd recv u =
      setRace u (u.block s.iss.blk).gid q (r.queued recv (raceReq s.iss.blk s.iss.weft kd)) := by
    rw [queueRequest, iss, known]
  rw [queues]
  refine ⟨fun l hl => ?_, raceOf_setRace known _⟩
  rw [(setRace_runs _ _ _ _).thread, lanes l hl]
  have same : (raceNoted true s).lane l = (noteIssue s).thread s.iss.blk s.iss.weft l := by
    rw [State.lane, raceNoted_iss, raceNoted_thread]
  rw [same]
  rfl

/-! ## Grants to the weft at issue (R322 to R325, R328) -/

/-- `t` has the threads of `u`; in weft `w` of block `b` it has the pair of register `kd` written, and `more` slots held. -/
structure PairGiven (u t : State) (b w kd x : Nat) (more : List HeldSlot) : Prop where
  threads : t.threads = u.threads
  iss : t.iss = u.iss
  pair : (t.weft b w).kpair kd = if kd = 0 then 0 else BitVec.ofNat 64 x
  slots : (t.weft b w).slots = (u.weft b w).slots ++ more

theorem bookUse_runs (s : State) (gid r : Nat) : RunsKept s (bookUse s gid r) := by
  unfold bookUse
  split
  · exact .refl s
  · exact setGrid_runs s _ _

theorem logDecision_runs (s : State) (gid kind src stage body : Nat) : RunsKept s (logDecision s gid kind src stage body) := by
  unfold logDecision
  dsimp only
  split
  · exact .refl s
  · exact .ite (.refl s) ((bookWrite_hostOnly s _ _ _ _ _ _ _).runs.trans (setGrid_runs _ _ _))

theorem noteGrant_runs (s : State) (gid q kind slot b w : Nat) : RunsKept s (noteGrant s gid q kind slot b w) := by
  unfold noteGrant
  dsimp only
  split
  · exact bookUse_runs s _ _
  · exact .refl s
  · exact logDecision_runs s _ _ _ _ _

theorem Cached.kpair_eq {u v : State} (h : Cached u v) (b w r : Nat) : (v.weft b w).kpair r = (u.weft b w).kpair r := by
  have word : ∀ n, (v.weft b w).kreg n = (u.weft b w).kreg n := fun n => by rw [Weft.kreg, (h.held b w).1, Weft.kreg]
  rw [Weft.kpair, word, word, Weft.kpair]

theorem PairGiven.cached {u t v : State} {b w kd x : Nat} {more : List HeldSlot} (h : PairGiven u t b w kd x more)
    (acquired : Cached t v) : PairGiven u v b w kd x more :=
  ⟨acquired.threads.trans h.threads, acquired.iss.trans h.iss, (acquired.kpair_eq b w kd).trans h.pair,
    (acquired.held b w).2.trans h.slots⟩

theorem setPair_given {u v : State} (h : RunsKept u v) (b w kd x : Nat) : PairGiven u (setPair v b w kd x) b w kd x [] := by
  refine ⟨h.threads, h.iss, ?_, ?_⟩
  · rw [setPair, State.weft_setWeft_same, Weft.kpair_setKPair]
  · rw [setPair, State.weft_setWeft_same, Weft.setKPair_slots, List.append_nil, State.weft, h.wefts, State.weft]

/-- A weft with one more slot held. -/
def holdSlot (s : State) (b w : Nat) (h : HeldSlot) : State :=
  s.setWeft b w { s.weft b w with slots := (s.weft b w).slots ++ [h] }

theorem PairGiven.holdSlot {u t : State} {b w kd x : Nat} (given : PairGiven u t b w kd x []) (h : HeldSlot) :
    PairGiven u (holdSlot t b w h) b w kd x [h] := by
  refine ⟨given.threads, given.iss, ?_, ?_⟩
  · rw [Machine.holdSlot, State.weft_setWeft_same]
    exact given.pair
  · rw [Machine.holdSlot, State.weft_setWeft_same]
    exact congrArg (· ++ [h]) (given.slots.trans (List.append_nil _))

/-- The place of the pointer that a grant takes its slot at. -/
def Race.next (r : Race) (recv : Bool) : Nat := if recv then r.cp else r.rp

/-- A race whose slot at the pointer is granted to a weft. -/
def Race.granted (r : Race) (b w : Nat) (recv : Bool) : Race :=
  let i := r.next recv
  let r' := { r with slot := Sp.put r.slot i { sst := if recv then .received else .reserved, blk := b, weft := w } }
  if recv then ({ r' with cp := (i + 1) % r.slots } : Race).normal else { r' with rp := (i + 1) % r.slots }

theorem grantSlot_eq {u : State} {b w q : Nat} {r : Race} (race : raceOf u b q = some r) (kd : Nat) (recv : Bool) :
    grantSlot u b w q kd recv = acquire (holdSlot (setPair (setRace
      (noteGrant u (u.block b).gid q (if recv then 1 else 0) (r.next recv) b w) (u.block b).gid q (r.granted b w recv))
      b w kd (r.addr (r.next recv))) b w { race := q, slot := r.next recv, recv := recv, addr := r.addr (r.next recv) })
      (u.block b).core (effScope r (u.block b).core) := by
  rw [grantSlot, race]
  rfl

/-- A grant writes the address of its slot to the pair, and the weft holds the slot. -/
theorem grantSlot_given {u : State} {b w q : Nat} {r : Race} (race : raceOf u b q = some r) (kd : Nat) (recv : Bool) :
    PairGiven u (grantSlot u b w q kd recv) b w kd (r.addr (r.next recv))
      [{ race := q, slot := r.next recv, recv := recv, addr := r.addr (r.next recv) }] := by
  rw [grantSlot_eq race]
  exact ((setPair_given ((noteGrant_runs u _ _ _ _ _ _).trans (setRace_runs _ _ _ _)) b w kd _).holdSlot _).cached
    (acquire_cached _ _ _)

/-- What a try form does once its answer is known. -/
def tryGives (u : State) (q kd : Nat) (r : Race) : Nat → State
  | 0 => grantSlot u u.iss.blk u.iss.weft q kd false
  | 1 => grantSlot u u.iss.blk u.iss.weft q kd true
  | 2 => acquire (setPair (noteGrant u (u.block u.iss.blk).gid q 2 0 u.iss.blk u.iss.weft) u.iss.blk u.iss.weft kd 1)
      (u.block u.iss.blk).core (effScope r (u.block u.iss.blk).core)
  | _ => setPair (noteGrant u (u.block u.iss.blk).gid q 3 0 u.iss.blk u.iss.weft) u.iss.blk u.iss.weft kd 0

theorem tryRace_answers {u : State} {q : Nat} {r : Race} {kinds : List Nat} (race : raceOf u u.iss.blk q = some r)
    (goes : tryTurn u q kinds ≠ .never) (kd : Nat) (recv : Bool) :
    tryRace q kd recv kinds u = advanceAll (tryGives u q kd r (tryAnswer r recv (tryTurn u q kinds))) := by
  unfold tryRace
  simp only [race]
  cases turn : tryTurn u q kinds with
  | never => exact absurd turn goes
  | free => rfl
  | wait => rfl
  | now kind => rfl

theorem tryRace_diverges {u : State} {q : Nat} {r : Race} {kinds : List Nat} (race : raceOf u u.iss.blk q = some r)
    (never : tryTurn u q kinds = .never) (kd : Nat) (recv : Bool) : tryRace q kd recv kinds u =
      diverge u (u.block u.iss.blk).gid (u.block u.iss.blk).lin (u.block u.iss.blk).phase 3 := by
  unfold tryRace
  simp only [race, never]

end Sys2Proof.Machine
end

section
/-!
The results of the race instructions, and where they trap (R324 to R332).
-/
namespace Sys2Proof.Machine
open Sys2Proof

/-! ## The try forms (R323, R327, R328) -/

/-- What the pair of a try form names, by the kind of its answer. -/
def Race.answerPair (r : Race) : Nat → Nat
  | 0 => r.addr r.rp
  | 1 => r.addr r.cp
  | 2 => 1
  | _ => 0

/-- The slots that a try form is granted, by the kind of its answer. -/
def Race.answerSlots (r : Race) (q : Nat) : Nat → List HeldSlot
  | 0 => [{ race := q, slot := r.rp, recv := false, addr := r.addr r.rp }]
  | 1 => [{ race := q, slot := r.cp, recv := true, addr := r.addr r.cp }]
  | _ => []

theorem tryGives_given {u : State} {q : Nat} {r : Race} (race : raceOf u u.iss.blk q = some r) (kd : Nat) : ∀ a : Nat,
    PairGiven u (tryGives u q kd r a) u.iss.blk u.iss.weft kd (r.answerPair a) (r.answerSlots q a)
  | 0 => grantSlot_given race kd false
  | 1 => grantSlot_given race kd true
  | 2 => (setPair_given (noteGrant_runs u _ _ _ _ _ _) _ _ kd 1).cached (acquire_cached _ _ _)
  | _ + 3 => setPair_given (noteGrant_runs u _ _ _ _ _ _) _ _ kd 0

section
variable {s : State} {q kd : Nat} {recv : Bool} {kinds : List Nat} {r : Race}

/-- A try form puts the lanes past it; its answer is in the pair and in the slots that the weft holds. -/
theorem tryRace_result (formed : FormedSet s) (race : raceOf s s.iss.blk q = some r) (goes : tryTurn s q kinds ≠ .never) :
    LanesPast s (tryRace q kd recv kinds (raceNoted true s)) ∧ ∀ a, tryAnswer r recv (tryTurn s q kinds) = a →
      (tryRace q kd recv kinds (raceNoted true s)).wft.kpair kd = (if kd = 0 then 0 else BitVec.ofNat 64 (r.answerPair a)) ∧
      (tryRace q kd recv kinds (raceNoted true s)).wft.slots = s.wft.slots ++ r.answerSlots q a := by
  have same := sameRaces_raceNoted true s
  have turn := same.tryTurn_eq q kinds
  have known : raceOf (raceNoted true s) (raceNoted true s).iss.blk q = some r := by rw [same.iss, same.raceOf_eq, race]
  rw [← turn] at goes ⊢
  rw [tryRace_answers known goes]
  have given := tryGives_given known kd (tryAnswer r recv (tryTurn (raceNoted true s) q kinds))
  refine ⟨lanesPast_advanceAll formed (given.iss.trans same.iss) (given.threads.trans (raceNoted_threads true s)), ?_⟩
  rintro a rfl
  have weft : ∀ v : State, v.iss = (raceNoted true s).iss →
      (advanceAll v).wft = v.weft (raceNoted true s).iss.blk (raceNoted true s).iss.weft := fun v iss => by
    rw [advanceAll_wft, State.wft, iss]
  rw [weft _ given.iss]
  exact ⟨given.pair, given.slots.trans (congrArg (· ++ _) same.slots)⟩

theorem tryRace_never (race : raceOf s s.iss.blk q = some r) (never : tryTurn s q kinds = .never) :
    tryRace q kd recv kinds (raceNoted true s) =
      diverge (noteRace (noteIssue s)) (s.block s.iss.blk).gid (s.block s.iss.blk).lin (s.block s.iss.blk).phase 3 := by
  have same := sameRaces_raceNoted true s
  obtain ⟨i, m, block⟩ := same.block s.iss.blk
  rw [tryRace_diverges (r := r) (by rw [same.iss, same.raceOf_eq, race]) (by rw [same.tryTurn_eq, never]), same.iss, block]
  rfl

theorem tryWaits_never (never : tryTurn s q kinds = .never) : tryWaits s q recv kinds = false := by
  unfold tryWaits
  split
  · rfl
  · simp only [never, bne_self_eq_false, Bool.false_and, Bool.or_self]

end

theorem exec_rtryresv (k : KReg) (q : BitVec 5) (s : State) : exec (.rtryresv k q) s =
    raceIssue q.toNat .prod true true [] [(k.toNat, 2)] (fun _ => none) (fun _ => none)
      (fun u => tryWaits u q.toNat false [0, 3]) (tryRace q.toNat k.toNat false [0, 3]) s := rfl
theorem exec_rtryrecv (k : KReg) (q : BitVec 5) (s : State) : exec (.rtryrecv k q) s =
    raceIssue q.toNat .cons true true [] [(k.toNat, 2)] (fun _ => none) (fun _ => none)
      (fun u => tryWaits u q.toNat true [1, 2, 3]) (tryRace q.toNat k.toNat true [1, 2, 3]) s := rfl

section
variable {s : State} {k : KReg} {q : BitVec 5} {r : Race}

theorem rtryresv_answers (race : raceOf s s.iss.blk q.toNat = some r) (hi : Issues .sync [] [(k.toNat, 2)] s)
    (passes : raceFault s q.toNat .prod none true = none) (ready : tryWaits s q.toNat false [0, 3] = false)
    (goes : tryTurn s q.toNat [0, 3] ≠ .never) :
    ∃ t, exec (.rtryresv k q) s = .next t ∧ LanesPast s t ∧
      (tryTurn s q.toNat [0, 3] = .now 0 ∨ (tryTurn s q.toNat [0, 3] = .free ∧ r.reservers = [] ∧ r.canReserve = true) →
        t.wft.kpair k.toNat = (if k.toNat = 0 then 0 else BitVec.ofNat 64 (r.addr r.rp)) ∧
        t.wft.slots = s.wft.slots ++ [{ race := q.toNat, slot := r.rp, recv := false, addr := r.addr r.rp }]) ∧
      (tryTurn s q.toNat [0, 3] = .now 3 ∨
          (tryTurn s q.toNat [0, 3] = .free ∧ (r.reservers ≠ [] ∨ r.canReserve = false)) →
        t.wft.kpair k.toNat = 0 ∧ t.wft.slots = s.wft.slots) := by
  obtain ⟨past, answers⟩ := tryRace_result (kd := k.toNat) (recv := false) hi.1 race goes
  refine ⟨_, (exec_rtryresv k q s).trans (raceIssue_runs (held := fun _ => none) hi rfl rfl ready passes), past, fun grants => answers 0 ?_, fun refuses => ?_⟩
  · rcases grants with now | ⟨free, empty, can⟩
    · rw [now]; rfl
    · rw [free]; simp [tryAnswer, empty, can]
  · obtain ⟨pair, slots⟩ := answers 3 (by
      rcases refuses with now | ⟨free, busy⟩
      · rw [now]; rfl
      · rw [free]; rcases busy with some | no
        · simp [tryAnswer, some]
        · simp [tryAnswer, no])
    exact ⟨pair.trans (ite_self _), slots.trans (List.append_nil _)⟩

theorem rtryrecv_answers (race : raceOf s s.iss.blk q.toNat = some r) (hi : Issues .sync [] [(k.toNat, 2)] s)
    (passes : raceFault s q.toNat .cons none true = none) (ready : tryWaits s q.toNat true [1, 2, 3] = false)
    (goes : tryTurn s q.toNat [1, 2, 3] ≠ .never) :
    ∃ t, exec (.rtryrecv k q) s = .next t ∧ LanesPast s t ∧
      (tryTurn s q.toNat [1, 2, 3] = .now 1 ∨
          (tryTurn s q.toNat [1, 2, 3] = .free ∧ r.receivers = [] ∧ r.canReceive = true) →
        t.wft.kpair k.toNat = (if k.toNat = 0 then 0 else BitVec.ofNat 64 (r.addr r.cp)) ∧
        t.wft.slots = s.wft.slots ++ [{ race := q.toNat, slot := r.cp, recv := true, addr := r.addr r.cp }]) ∧
      (tryTurn s q.toNat [1, 2, 3] = .now 2 ∨ (tryTurn s q.toNat [1, 2, 3] = .free ∧
          (r.receivers ≠ [] ∨ r.canReceive = false) ∧ (r.eos ∨ r.rst = .abandoned)) →
        t.wft.kpair k.toNat = (if k.toNat = 0 then 0 else 1) ∧ t.wft.slots = s.wft.slots) ∧
      (tryTurn s q.toNat [1, 2, 3] = .now 3 ∨ (tryTurn s q.toNat [1, 2, 3] = .free ∧
          (r.receivers ≠ [] ∨ r.canReceive = false) ∧ ¬ (r.eos ∨ r.rst = .abandoned)) →
        t.wft.kpair k.toNat = 0 ∧ t.wft.slots = s.wft.slots) := by
  obtain ⟨past, answers⟩ := tryRace_result (kd := k.toNat) (recv := true) hi.1 race goes
  have unserved : r.receivers ≠ [] ∨ r.canReceive = false → (r.receivers.isEmpty && r.canReceive) = false := by
    rintro (some | no)
    · simp [some]
    · simp [no]
  refine ⟨_, (exec_rtryrecv k q s).trans (raceIssue_runs (held := fun _ => none) hi rfl rfl ready passes), past, fun grants => answers 1 ?_, fun ends => ?_, fun refuses => ?_⟩
  · rcases grants with now | ⟨free, empty, can⟩
    · rw [now]; rfl
    · rw [free]; simp [tryAnswer, empty, can]
  · obtain ⟨pair, slots⟩ := answers 2 (by
      rcases ends with now | ⟨free, busy, ended⟩
      · rw [now]; rfl
      · rw [free]; simp [tryAnswer, unserved busy, Race.answers, ended])
    exact ⟨pair, slots.trans (List.append_nil _)⟩
  · obtain ⟨pair, slots⟩ := answers 3 (by
      rcases refuses with now | ⟨free, busy, goesOn⟩
      · rw [now]; rfl
      · rw [free]; simp [tryAnswer, unserved busy, Race.answers, goesOn])
    exact ⟨pair.trans (ite_self _), slots.trans (List.append_nil _)⟩

end

end Sys2Proof.Machine
end

section
/-!
Commits, releases and closes of races at issue, RSTAT, and where the race instructions trap (R324, R327, R329 to R332).
-/
namespace Sys2Proof.Machine
open Sys2Proof

/-! ## RCOMMIT, RRELEASE, RCLOSE and RSTAT (R324, R329, R330, R332) -/

theorem exec_rcommit (q : BitVec 5) (k : KReg) (s : State) : exec (.rcommit q k) s =
    raceIssue q.toNat .prod false true [] [(k.toNat, 2)] (fun _ => none) (slotNamed k false) (fun _ => false)
      (fun u => letGo u q.toNat (u.wft.kpair k.toNat).toNat false) s := rfl
theorem exec_rrelease (q : BitVec 5) (k : KReg) (s : State) : exec (.rrelease q k) s =
    raceIssue q.toNat .cons false true [] [(k.toNat, 2)] (fun _ => none) (slotNamed k true) (fun _ => false)
      (fun u => letGo u q.toNat (u.wft.kpair k.toNat).toNat true) s := rfl
theorem exec_rclose (q : BitVec 5) (s : State) : exec (.rclose q) s =
    raceIssue q.toNat .prod false true [] [] (fun _ => none) (fun _ => none) (fun _ => false)
      (fun u => addOp (advanceAll u) (waitOp u (.rclose q.toNat))) s := rfl

/-- What RSTAT leaves. -/
def rstatBody (k : KReg) (q : Nat) (s : State) : State :=
  match raceOf s s.iss.blk q with
  | none => s
  | some r => advanceAll (s.setWeft s.iss.blk s.iss.weft (s.wft.setK k.toNat (BitVec.ofNat 32 r.stat)))

theorem exec_rstat (k : KReg) (q : BitVec 5) (s : State) : exec (.rstat k q) s =
    raceIssue q.toNat .any false false [] [(k.toNat, 1)] (fun _ => none) (fun _ => none) (fun _ => false)
      (rstatBody k q.toNat) s := rfl

theorem waitOp_raceNoted (mark : Bool) (s : State) (k : OpKind) : waitOp (raceNoted mark s) k = waitOp s k := by
  obtain ⟨i, r, eq⟩ := (sameRaces_raceNoted mark s).block s.iss.blk
  simp only [waitOp, issuedOp, raceNoted_iss, eq]

/-- Lanes that go on and leave an operation outstanding. -/
theorem past_addOp {s v : State} (formed : FormedSet s) (iss : v.iss = s.iss) (threads : v.threads = (noteIssue s).threads)
    (next : v.nextOp = s.nextOp) (o : MemOp) :
    LanesPast s (addOp (advanceAll v) o) ∧ (addOp (advanceAll v) o).op? s.nextOp = some o := by
  refine ⟨lanesPast_advanceAll formed iss threads, ?_⟩
  rw [State.op_addOp, (advanceAll_threadsOnly v).field State.nextOp fun _ => rfl, next, if_pos rfl]

/-- The weft at issue without one of its slots. -/
def dropSlot (s : State) (h : HeldSlot) : State :=
  s.setWeft s.iss.blk s.iss.weft { s.wft with slots := s.wft.slots.erase h }

/-- The operation that ends a weft's part in a slot. -/
def slotOp (q : Nat) (recv : Bool) (h : HeldSlot) : OpKind := if recv then .relSlot q h.slot else .commit q h.slot

theorem letGo_eq {s : State} {q addr : Nat} {recv : Bool} {h : HeldSlot}
    (found : (s.wft.slots.find? fun h => h.race == q && h.addr == addr && h.recv == recv) = some h) :
    letGo s q addr recv = addOp (advanceAll (dropSlot s h)) (waitOp (dropSlot s h) (slotOp q recv h)) := by
  rw [letGo, found]
  rfl

/-- A weft gives up a slot that it holds, and the release of the slot is under way. -/
theorem letGo_leaves {s : State} {q addr : Nat} {recv : Bool} (formed : FormedSet s) (holds : holdsSlot s q (addr, recv) = true) :
    ∃ h, LanesPast s (letGo (raceNoted true s) q addr recv) ∧ h ∈ s.wft.slots ∧ h.race = q ∧ h.addr = addr ∧ h.recv = recv ∧
      (letGo (raceNoted true s) q addr recv).wft.slots = s.wft.slots.erase h ∧
      (letGo (raceNoted true s) q addr recv).op? s.nextOp = some { issuedOp s {} [] (laneMask s.iss.lanes) with
        kind := slotOp q recv h } := by
  have same := sameRaces_raceNoted true s
  obtain ⟨h, found⟩ := Option.isSome_iff_exists.mp (List.find?_isSome.mpr (List.any_eq_true.mp holds))
  have names := List.find?_some found
  simp only [Bool.and_eq_true, beq_iff_eq] at names
  obtain ⟨⟨race, at'⟩, side⟩ := names
  rw [letGo_eq (by rw [same.slots]; exact found)]
  have iss : (dropSlot (raceNoted true s) h).iss = s.iss := raceNoted_iss true s
  obtain ⟨past, op⟩ := past_addOp (v := dropSlot (raceNoted true s) h) formed iss (raceNoted_threads true s)
    (raceNoted_nextOp true s) (waitOp (dropSlot (raceNoted true s) h) (slotOp q recv h))
  refine ⟨h, past, List.mem_of_find?_eq_some found, race, at', side, ?_, op.trans (congrArg some (waitOp_raceNoted true s _))⟩
  change (advanceAll (dropSlot (raceNoted true s) h)).wft.slots = _
  rw [advanceAll_wft, dropSlot, State.wft, State.setWeft_iss, State.weft_setWeft_same, same.slots]

theorem holdsSlot_of_passes {s : State} {q : Nat} {r : Race} (race : raceOf s s.iss.blk q = some r) {side : RaceSide}
    {x : Nat × Bool} {grants : Bool} (passes : raceFault s q side (some x) grants = none) : holdsSlot s q x = true := by
  rw [raceFault_eq race] at passes
  by_contra lacks
  split at passes
  · cases passes
  · rw [Option.any_some, if_pos (by simpa using lacks)] at passes
    cases passes

section
variable {s : State} {k : KReg} {q : BitVec 5} {r : Race}

theorem rcommit_leaves (hi : Issues .sync [] [(k.toNat, 2)] s)
    (passes : raceFault s q.toNat .prod (some ((s.wft.kpair k.toNat).toNat, false)) false = none) :
    exec (.rcommit q k) s = .next (letGo (raceNoted true s) q.toNat (s.wft.kpair k.toNat).toNat false) :=
  (exec_rcommit q k s).trans ((raceIssue_runs hi rfl (slotNamed_raceNoted k false true s) rfl passes).trans
    (by rw [(sameRaces_raceNoted true s).kpair_eq]))

theorem rrelease_leaves (hi : Issues .sync [] [(k.toNat, 2)] s)
    (passes : raceFault s q.toNat .cons (some ((s.wft.kpair k.toNat).toNat, true)) false = none) :
    exec (.rrelease q k) s = .next (letGo (raceNoted true s) q.toNat (s.wft.kpair k.toNat).toNat true) :=
  (exec_rrelease q k s).trans ((raceIssue_runs hi rfl (slotNamed_raceNoted k true true s) rfl passes).trans
    (by rw [(sameRaces_raceNoted true s).kpair_eq]))

theorem rclose_leaves (hi : Issues .sync [] [] s) (passes : raceFault s q.toNat .prod none false = none) :
    ∃ t, exec (.rclose q) s = .next t ∧ LanesPast s t ∧
      t.op? s.nextOp = some { issuedOp s {} [] (laneMask s.iss.lanes) with kind := .rclose q.toNat } :=
  ⟨_, (exec_rclose q s).trans (raceIssue_runs (held := fun _ => none) hi rfl rfl rfl passes),
    waitOp_raceNoted true s (.rclose q.toNat) ▸
      past_addOp hi.1 (raceNoted_iss true s) (raceNoted_threads true s) (raceNoted_nextOp true s) _⟩

theorem rstat_reports (race : raceOf s s.iss.blk q.toNat = some r) (hi : Issues .sync [] [(k.toNat, 1)] s)
    (passes : raceFault s q.toNat .any none false = none) :
    ∃ t, exec (.rstat k q) s = .next t ∧ WeftDoes s t ((noteIssue s).wft.setK k.toNat (BitVec.ofNat 32 r.stat)) := by
  refine ⟨_, (exec_rstat k q s).trans (raceIssue_runs (held := fun _ => none) hi rfl rfl rfl passes), ?_⟩
  change WeftDoes s (rstatBody k q.toNat (noteIssue s)) _
  rw [rstatBody, noteIssue_iss, (sameRaces_noteIssue s).raceOf_eq, race]
  obtain ⟨lanes, others, rest⟩ := advanceAll_spec (s := s) (u := (noteIssue s).setWeft s.iss.blk s.iss.weft
    ((noteIssue s).wft.setK k.toNat (BitVec.ofNat 32 r.stat))) (noteIssue_iss s) hi.1.nodup
  exact ⟨fun l hl => lanes l hl, others, rest⟩

end

end Sys2Proof.Machine
end

section
/-!
The race instructions (R324 to R332), assembled.
-/
namespace Sys2Proof.Machine
open Sys2Proof

/-! ## Where the race instructions trap (R191, R327) -/

section
variable {s : State} {q : Nat} {r : Race} (race : raceOf s s.iss.blk q = some r)
include race

theorem raceFault_wrong {side : RaceSide} (wrong : wrongSide s r side = true) (held : Option (Nat × Bool)) (grants : Bool) :
    raceFault s q side held grants = some (raceCond 3 0) := by
  rw [raceFault_eq race, if_pos wrong]

theorem raceFault_unheld {side : RaceSide} (right : wrongSide s r side = false) {x : Nat × Bool} (lacks : holdsSlot s q x = false)
    (grants : Bool) : raceFault s q side (some x) grants = some (raceCond 4 x.1) := by
  rw [raceFault_eq race, if_neg (by simp [right]), if_pos (by simp [lacks])]
  rfl

theorem raceFault_closed (right : wrongSide s r .prod = false) (closed : r.rst = .closed) :
    raceFault s q .prod none true = some (raceCond 5 0) := by
  simp [raceFault_eq race, right, closed]

theorem raceFault_abandoned (right : wrongSide s r .prod = false) (abandoned : r.rst = .abandoned) :
    raceFault s q .prod none true = some (raceCond 6 0) := by
  simp [raceFault_eq race, right, abandoned]

theorem raceFault_prod_full (right : wrongSide s r .prod = false) (opened : r.rst = .opened) (stays : closing s q = false)
    (full : 8 ≤ s.wft.slots.length) : raceFault s q .prod none true = some (raceCond 7 0) := by
  simp [raceFault_eq race, right, opened, stays, full]

theorem raceFault_cons_full (right : wrongSide s r .cons = false) (full : 8 ≤ s.wft.slots.length) :
    raceFault s q .cons none true = some (raceCond 7 0) := by
  simp [raceFault_eq race, right, full]

theorem raceFault_any : raceFault s q .any none false = none := by
  simp [raceFault_eq race, wrongSide]

end

theorem holdsSlot_eq_false {s : State} {q : Nat} {x : Nat × Bool}
    (none : ¬ ∃ h ∈ s.wft.slots, h.race = q ∧ h.addr = x.1 ∧ h.recv = x.2) : holdsSlot s q x = false := by
  simp only [holdsSlot, List.any_eq_false, Bool.and_eq_true, beq_iff_eq]
  rintro h mem ⟨⟨race, at'⟩, side⟩
  exact none ⟨h, mem, race, at', side⟩

theorem raceInstr_traps {s : State} {k : KReg} {q : BitVec 5} {c : Cond} {i : Instr} {side : RaceSide}
    {held : Option (Nat × Bool)} {grants : Bool} {ks : List Regs}
    (mem : (i, side, held, grants, ks) ∈ ([
      (.rresv k q, .prod, none, true, [(k.toNat, 2)]), (.rrecv k q, .cons, none, true, [(k.toNat, 2)]),
      (.rtryresv k q, .prod, none, true, [(k.toNat, 2)]), (.rtryrecv k q, .cons, none, true, [(k.toNat, 2)]),
      (.rcommit q k, .prod, some ((s.wft.kpair k.toNat).toNat, false), false, [(k.toNat, 2)]),
      (.rrelease q k, .cons, some ((s.wft.kpair k.toNat).toNat, true), false, [(k.toNat, 2)]),
      (.rclose q, .prod, none, false, [])] : List (Instr × RaceSide × Option (Nat × Bool) × Bool × List Regs)))
    (hi : Issues .sync [] ks s) (mode : s.iss.handler = true → i ≠ .rresv k q ∧ i ≠ .rrecv k q)
    (fails : raceFault s q.toNat side held grants = some c) : exec i s = .next (trapAll (noteRace (noteIssue s)) c) := by
  simp only [List.mem_cons, List.not_mem_nil, or_false, Prod.mk.injEq] at mem
  rcases mem with ⟨rfl, rfl, rfl, rfl, rfl⟩ | ⟨rfl, rfl, rfl, rfl, rfl⟩ | ⟨rfl, rfl, rfl, rfl, rfl⟩ | ⟨rfl, rfl, rfl, rfl, rfl⟩ |
    ⟨rfl, rfl, rfl, rfl, rfl⟩ | ⟨rfl, rfl, rfl, rfl, rfl⟩ | ⟨rfl, rfl, rfl, rfl, rfl⟩
  · have user : s.iss.handler = false := Bool.eq_false_iff.mpr fun h => (mode h).1 rfl
    exact (exec_rresv k q s).trans (raceIssue_traps (held := fun _ => none) hi (handlerIllegal_user user) rfl fails)
  · have user : s.iss.handler = false := Bool.eq_false_iff.mpr fun h => (mode h).2 rfl
    exact (exec_rrecv k q s).trans (raceIssue_traps (held := fun _ => none) hi (handlerIllegal_user user) rfl fails)
  · exact (exec_rtryresv k q s).trans (raceIssue_traps (held := fun _ => none) hi rfl rfl fails)
  · exact (exec_rtryrecv k q s).trans (raceIssue_traps (held := fun _ => none) hi rfl rfl fails)
  · exact (exec_rcommit q k s).trans (raceIssue_traps hi rfl (slotNamed_raceNoted k false true s) fails)
  · exact (exec_rrelease q k s).trans (raceIssue_traps hi rfl (slotNamed_raceNoted k true true s) fails)
  · exact (exec_rclose q s).trans (raceIssue_traps (held := fun _ => none) hi rfl rfl fails)

/-- In handler mode a request is ILLEGAL. -/
theorem request_illegal {s : State} {k : KReg} {q : BitVec 5} (formed : FormedSet s)
    (handler : s.iss.handler = true) : ∀ i ∈ ([.rresv k q, .rrecv k q] : List Instr),
      exec i s = .next (trapAll (noteIssue s) { cause := .illegal, addr := s.iss.pc.toNat, info := s.iss.word }) := by
  have early : handlerIllegal s = some { cause := .illegal, addr := s.iss.pc.toNat, info := s.iss.word } := by
    rw [handlerIllegal, if_pos handler]; rfl
  have pre : preCond s { permitted := fun k => k.permits .sync, regs := [], early := handlerIllegal s } =
      some { cause := .illegal, addr := s.iss.pc.toNat, info := s.iss.word } := by
    rw [early]; rfl
  simp only [List.forall_mem_cons]
  exact ⟨(exec_rresv k q s).trans (issue_trap formed.1 pre _ _), (exec_rrecv k q s).trans (issue_trap formed.1 pre _ _),
    fun _ h => nomatch h⟩

/-- Settles O39, by the checks of R327 in their order, and for those that pass by what each effect leaves. -/
theorem raceInstructionResults : Obligations.RaceInstructionResults := by
  unfold Obligations.RaceInstructionResults
  constructor
  · intro s k q r b w addr resv recv never race
    refine ⟨fun hi => ⟨?_, ?_, ?_, ?_, ?_, ?_, ?_⟩, ?_, ?_⟩
    · intro user passes
      obtain ⟨lanes, queued⟩ := request_waits (kd := k.toNat) hi.1 race false
      exact ⟨_, (exec_rresv k q s).trans (raceIssue_runs (held := fun _ => none) hi (handlerIllegal_user user) rfl rfl passes),
        lanes, queued⟩
    · intro user passes
      obtain ⟨lanes, queued⟩ := request_waits (kd := k.toNat) hi.1 race true
      exact ⟨_, (exec_rrecv k q s).trans (raceIssue_runs (held := fun _ => none) hi (handlerIllegal_user user) rfl rfl passes),
        lanes, queued⟩
    · exact fun passes ready goes => rtryresv_answers race hi passes ready goes
    · intro passes diverges
      exact ((exec_rtryresv k q s).trans (raceIssue_runs (held := fun _ => none) hi rfl rfl (tryWaits_never diverges) passes)).trans
        (congrArg _ (tryRace_never race diverges))
    · exact fun passes ready goes => rtryrecv_answers race hi passes ready goes
    · intro passes diverges
      exact ((exec_rtryrecv k q s).trans (raceIssue_runs (held := fun _ => none) hi rfl rfl (tryWaits_never diverges) passes)).trans
        (congrArg _ (tryRace_never race diverges))
    · simp only [List.forall_mem_cons]
      refine ⟨fun passes => ?_, fun passes => ?_, fun _ h => nomatch h⟩
      · obtain ⟨h, past, mem, same, at', side, slots, op⟩ := letGo_leaves hi.1 (holdsSlot_of_passes race passes)
        exact ⟨_, h, rcommit_leaves hi passes, past, mem, same, at', side, slots, op⟩
      · obtain ⟨h, past, mem, same, at', side, slots, op⟩ := letGo_leaves hi.1 (holdsSlot_of_passes race passes)
        exact ⟨_, h, rrelease_leaves hi passes, past, mem, same, at', side, slots, op⟩
    · exact fun hi passes => rclose_leaves hi passes
    · exact fun hi passes => rstat_reports race hi passes
  · intro s k q b blk addr fault holds reason illegal
    refine ⟨?_, ?_, ?_, ?_, ?_, ?_⟩
    · exact fun side held grants none => raceFault_of_no_mill none _ _ _ _
    · exact fun m side held grants mill out => raceFault_of_no_race mill out _ _ _
    · intro r race
      refine ⟨fun held grants wrong => ?_, fun held grants wrong => ?_, fun right lacks => ?_, fun right lacks => ?_,
        fun right closed => ?_, fun right abandoned => ?_, fun right opened stays full => ?_, fun right full => ?_, raceFault_any race⟩
      · exact raceFault_wrong (side := .prod) race (bne_iff_ne.mpr wrong) held grants
      · exact raceFault_wrong (side := .cons) race (bne_iff_ne.mpr wrong) held grants
      · exact raceFault_unheld (side := .prod) race (bne_eq_false_iff_eq.mpr right) (holdsSlot_eq_false lacks) false
      · exact raceFault_unheld (side := .cons) race (bne_eq_false_iff_eq.mpr right) (holdsSlot_eq_false lacks) false
      · exact raceFault_closed race (bne_eq_false_iff_eq.mpr right) closed
      · exact raceFault_abandoned race (bne_eq_false_iff_eq.mpr right) abandoned
      · exact raceFault_prod_full race (bne_eq_false_iff_eq.mpr right) opened stays full
      · exact raceFault_cons_full race (bne_eq_false_iff_eq.mpr right) full
    · exact fun e mem hi mode c fails => raceInstr_traps mem hi mode fails
    · exact fun hi c fails => (exec_rstat k q s).trans (raceIssue_traps (held := fun _ => none) hi rfl rfl fails)
    · exact fun i mem formed allowed handler => request_illegal formed handler i mem

end Sys2Proof.Machine
end

section
/-!
The steps of queues and of their graphs (R356 to R359, R365 to R373, R457, R462).
-/
namespace Sys2Proof.Machine
open Sys2Proof

/-! ## Doorbells and entries (R356 to R358) -/

/-- A doorbell in a cycle of its own rings the queue. -/
theorem exec_queueDoorbell {s : State} {vi q : Nat} (owns : ownsQueue s vi q = true)
    (now : (s.queue q).enable = false ∨ s.cycle = {}) (v : Nat) :
    exec (.queueDoorbell (vi * 65536 + q) v) s = .next (ringQueue s q v) := by
  have bound : q < 65536 := of_decide_eq_true (Bool.and_eq_true_iff.mp owns).1
  have door : (vi * 65536 + q) / 65536 = vi ∧ (vi * 65536 + q) % 65536 = q := by omega
  have once : ((s.queue q).enable && (s.cycle.joined || !s.cycle.bells.isEmpty)) = false := by
    rcases now with off | fresh
    · rw [off]; rfl
    · rw [fresh]; exact Bool.and_false _
  change execQueueDoorbell _ _ _ = _
  simp only [execQueueDoorbell, door.1, door.2, owns, once, Bool.not_true, Bool.false_eq_true, if_false]

theorem queueDoorbell_discarded {s : State} {vi q : Nat} (bound : q < 65536) (other : ownsQueue s vi q = false) (v : Nat) :
    exec (.queueDoorbell (vi * 65536 + q) v) s = .next (countErr s vi) := by
  have door : (vi * 65536 + q) / 65536 = vi ∧ (vi * 65536 + q) % 65536 = q := by omega
  change execQueueDoorbell _ _ _ = _
  simp only [execQueueDoorbell, door.1, door.2, other, Bool.not_false, if_true]

theorem ringQueue_takes {s : State} {q v : Nat} (on : (s.queue q).enable = true)
    (fits : (v + 2 ^ 32 - (s.queue q).head) % 2 ^ 32 ≤ 2 ^ (s.queue q).sizeLog) :
    (ringQueue s q v).queue q = { s.queue q with tail := v % 2 ^ 32 } := by
  unfold ringQueue
  dsimp only
  rw [if_neg (by simp [on]), if_neg (Nat.not_lt.mpr fits), State.queue_setQueue_same]

theorem ringQueue_far {s : State} {q v : Nat} (on : (s.queue q).enable = true)
    (far : 2 ^ (s.queue q).sizeLog < (v + 2 ^ 32 - (s.queue q).head) % 2 ^ 32) :
    (ringQueue s q v).queue q = { s.queue q with err := (s.queue q).err ||| 1 } := by
  unfold ringQueue
  dsimp only
  rw [if_neg (by simp [on]), if_pos far, State.queue_setQueue_same]

theorem ringQueue_off {s : State} {q v : Nat} (off : (s.queue q).enable = false) :
    (ringQueue s q v).queue q = { s.queue q with err := (s.queue q).err ||| 2 } := by
  unfold ringQueue
  dsimp only
  rw [if_pos (by simp [off]), State.queue_setQueue_same]

/-- An entry that passes its checks becomes the graph. -/
theorem queueEntry_loads {s u : State} {q : Nat} {m : Memory} (on : (s.queue q).enable = true) (idle : (s.queue q).graph = none)
    (rung : (s.queue q).head ≠ (s.queue q).tail)
    (read : devRead s (s.queue q).vi (s.queue q).asn ((s.queue q).base + 64 * ((s.queue q).head % 2 ^ (s.queue q).sizeLog)) 64 =
      .ok (m, u)) (passes : firstBreach (entryChecks m) = none) :
    exec (.queueEntry q) s = .next (u.setQueue q { s.queue q with graph := some { entry := m } }) := by
  change execQueueEntry q s = _
  unfold execQueueEntry
  dsimp only
  rw [if_neg (by simp [on, idle, rung]), read]
  dsimp only
  rw [passes]

/-! ## The start of a graph (R359, R365) -/

/-- A graph whose nodes have passed their checks, as it starts: those with no predecessor are ready. -/
def Graph.begun (g : Graph) (armed : Bool) (ns : List (Nat × Node)) : Graph :=
  { g with
    started := true, ready := (ns.filter fun n => n.2.cnt == 0).map (·.1), book := armed
    nodes := ns.map fun n => (n.1, if n.2.cnt = 0 then { n.2 with nst := .ready, reached := true } else n.2) }

theorem graphStart_begins {s u w : State} {q : Nat} {g : Graph} {nodes table : Memory} (has : (s.queue q).graph = some g)
    (fresh : g.started = false) (room : countersUsed s (s.queue q).vi + g.entry.read 4 2 ≤ 262144)
    (first : devRead s (s.queue q).vi (s.queue q).asn (g.entry.read 8 8) (64 * g.entry.read 4 2) = .ok (nodes, u))
    (second : devRead u (s.queue q).vi (s.queue q).asn (g.entry.read 0x10 8) (2 * g.entry.read 0x18 4) = .ok (table, w))
    (pass : ∀ i < g.entry.read 4 2, nodeBreach (nodeBytes nodes i) table i (g.entry.read 4 2) (g.entry.read 0x18 4)
      (bodyRanges nodes (g.entry.read 4 2) i) = none) :
    exec (.graphStart q) s = .next (w.setQueue q { s.queue q with graph := some (g.begun (bookArmed (w.viface (s.queue q).vi))
      ((List.range (g.entry.read 4 2)).map fun i => (i, parseNode (nodeBytes nodes i) table))) }) := by
  have clean : ((List.range (g.entry.read 4 2)).findSome? fun i => (nodeBreach (nodeBytes nodes i) table i (g.entry.read 4 2)
      (g.entry.read 0x18 4) (bodyRanges nodes (g.entry.read 4 2) i)).map fun o => (i, o)) = none :=
    List.findSome?_eq_none_iff.mpr fun i hi => by rw [pass i (List.mem_range.mp hi)]; rfl
  change execGraphStart q s = _
  unfold execGraphStart
  simp only [has]
  rw [if_neg (by simp [fresh, room]), first]
  dsimp only
  rw [second]
  dsimp only
  rw [clean]
  rfl

theorem ready_begun (g : Graph) (armed : Bool) (n : Nat) (f : Nat → Node) :
    (g.begun armed ((List.range n).map fun i => (i, f i))).ready = (List.range n).filter fun i => (f i).cnt == 0 := by
  change (((List.range n).map fun i => (i, f i)).filter fun n => n.2.cnt == 0).map (·.1) = _
  rw [List.filter_map, List.map_map]
  exact List.map_id _

/-! ## The completion of a graph (R358, R368, R369) -/

section
variable {s : State} {q : Nat} {g : Graph} (has : (s.queue q).graph = some g) (ended : g.over = true)
include has ended

theorem graphComplete_covers (first : g.covered = false) : exec (.graphComplete q) s =
    .next ((bookUsed s (s.queue q).vi g).modGraph q fun g => { g with covered := true }) := by
  change execGraphComplete q s = _
  unfold execGraphComplete
  simp only [has]
  rw [if_neg (by simp [ended]), if_pos (by simp [first])]

variable (covered : g.covered = true) (put : (s.viface (s.queue q).vi).puts = []) (quiet : deviceQuietAt s g.scope = true)
include covered put quiet

theorem graphComplete_records {va : Nat} (at' : g.recordAt = some va) (more : g.written < 4) :
    exec (.graphComplete q) s = .next (putRecord s q va g) := by
  change execGraphComplete q s = _
  unfold execGraphComplete
  simp only [has]
  rw [if_neg (by simp [ended]), if_neg (by simp [covered]), if_neg (by simp [put, quiet]), at']
  dsimp only
  rw [if_pos more]

theorem graphComplete_announces (done : g.recordAt = none ∨ 4 ≤ g.written) :
    exec (.graphComplete q) s = .next (announceGraph s q g) := by
  change execGraphComplete q s = _
  unfold execGraphComplete
  simp only [has]
  rw [if_neg (by simp [ended]), if_neg (by simp [covered]), if_neg (by simp [put, quiet])]
  split
  · next va at' =>
    rw [at'] at done
    rw [if_neg (Nat.not_lt.mpr (done.resolve_left (by simp)))]
  · rfl

end

theorem announceGraph_queue (s : State) (q : Nat) (g : Graph) : ((announceGraph s q g).queue q).graph = none ∧
    ((announceGraph s q g).queue q).head = ((s.queue q).head + 1) % 2 ^ 32 := by
  unfold announceGraph
  extract_lets x t vec u
  rw [State.queue_setQueue_same]
  exact ⟨rfl, rfl⟩

/-! ## Registers of queues (R454, R457) -/

section
variable {s : State} {vi q v : Nat} (owns : ownsQueue s vi q = true) (off : (s.queue q).enable = false)
  (empty : (s.queue q).head = (s.queue q).tail)
include owns off empty

theorem qcfgWrite_base (aligned : v % 64 = 0) :
    exec (.qcfgWrite vi q 0 v) s = .next (s.setQueue q { s.queue q with base := v % 2 ^ 64 }) := by
  change execQcfgWrite vi q 0 v s = _
  unfold execQcfgWrite
  dsimp only
  rw [if_neg (by simp [owns])]
  exact congrArg Host.Outcome.next (if_pos (by simp [off, empty, aligned]))

theorem qcfgWrite_asn : exec (.qcfgWrite vi q 12 v) s = .next (s.setQueue q { s.queue q with asn := v % 2 ^ 16 }) := by
  change execQcfgWrite vi q 12 v s = _
  unfold execQcfgWrite
  dsimp only
  rw [if_neg (by simp [owns])]
  exact congrArg Host.Outcome.next (if_pos (by simp [off, empty]))

theorem qcfgWrite_cfg (low : 4 ≤ v / 16 % 32) (high : v / 16 % 32 ≤ 16)
    (known : (if vi = 64 then v / 2 ^ 16 % 128 else (s.queue q).vi) ≤ 64) :
    exec (.qcfgWrite vi q 8 v) s = .next (s.setQueue q { s.queue q with
      vi := if vi = 64 then v / 2 ^ 16 % 128 else (s.queue q).vi, sizeLog := v / 16 % 32, enable := v.testBit 0 }) := by
  change execQcfgWrite vi q 8 v s = _
  unfold execQcfgWrite
  dsimp only
  generalize (if vi = 64 then v / 2 ^ 16 % 128 else (s.queue q).vi) = nvi at known ⊢
  rw [if_neg (by simp [owns])]
  refine (if_neg (by simp [off, empty, known, low, high])).trans ?_
  exact congrArg Host.Outcome.next (if_neg (by simp [off]))

end

/-! ## The graph daybook's register (R462) -/

section
variable {s : State} {vi : Nat} (next : (s.viface vi).gbookNext = some 0)
  (still : ∀ e ∈ s.queues, e.2.vi = vi → ∀ h, e.2.graph = some h → h.book = false)

include still in
theorem noneRuns : (List.any s.queues fun e => e.2.vi == vi &&
    match e.2.graph with
    | some g => g.book
    | none => false) = false := by
  rw [List.any_eq_false]
  intro e mem runs
  obtain ⟨mine, booked⟩ := Bool.and_eq_true_iff.mp runs
  split at booked
  · next g has => rw [still e mem (beq_iff_eq.mp mine) g has] at booked; cases booked
  · cases booked

include next still

theorem gdaybookArm_ends {b : Daybook} (open' : (s.viface vi).gbook = some b) : exec (.gdaybookArm vi) s =
    .next ((closeBook s vi 0 b).setVI vi { (closeBook s vi 0 b).viface vi with gbook := none }) := by
  change execGdaybookArm vi s = _
  unfold execGdaybookArm
  simp only [next, open']
  exact if_neg (by rw [Bool.not_eq_true]; exact noneRuns still)

theorem gdaybookArm_disarms (closed : (s.viface vi).gbook = none) (put : (s.viface vi).puts = []) : exec (.gdaybookArm vi) s =
    .next (s.setVI vi { s.viface vi with gbook := none, gbookNext := none }) := by
  change execGdaybookArm vi s = _
  unfold execGdaybookArm
  simp only [next, closed, put]
  exact if_neg (by rw [Bool.not_eq_true]; exact noneRuns still)

end

/-- Settles O43, step by step of a queue. -/
theorem queueSteps_hold : Obligations.QueueSteps := by
  intro s q vi v x
  refine ⟨fun owns on fresh => ⟨fun fits => ?_, fun far => ?_⟩, fun owns off => ?_, fun bound other => ?_,
    fun m u on idle rung read passes => ?_, ?_,
    fun g has ended => ⟨?_, fun covered put quiet => ⟨?_, fun done => ?_⟩⟩,
    fun owns off empty => ⟨fun aligned => ?_, ?_, fun low high known => ?_⟩, ?_, ?_, fun next still => ⟨?_, fun closed put => ?_⟩⟩
  · exact ⟨_, exec_queueDoorbell owns (.inr fresh) v, ringQueue_takes on fits⟩
  · exact ⟨_, exec_queueDoorbell owns (.inr fresh) v, ringQueue_far on far⟩
  · exact ⟨_, exec_queueDoorbell owns (.inl off) v, ringQueue_off off⟩
  · exact ⟨_, queueDoorbell_discarded bound other v, rfl⟩
  · exact ⟨_, queueEntry_loads on idle rung read passes, by rw [State.queue_setQueue_same]⟩
  · intro g nodes table u w n has unstarted room first second pass
    exact ⟨_, _, graphStart_begins has unstarted room first second pass, congrArg Queue.graph (State.queue_setQueue_same _ _ _),
      rfl, rfl, ready_begun _ _ _ _⟩
  · exact graphComplete_covers has ended
  · exact fun va at' more => graphComplete_records has ended covered put quiet at' more
  · exact ⟨_, graphComplete_announces has ended covered put quiet done, announceGraph_queue s q g⟩
  · exact ⟨_, qcfgWrite_base owns off empty aligned, State.queue_setQueue_same _ _ _⟩
  · exact ⟨_, qcfgWrite_asn owns off empty, State.queue_setQueue_same _ _ _⟩
  · exact ⟨_, qcfgWrite_cfg owns off empty low high known, State.queue_setQueue_same _ _ _⟩
  · refine ⟨_, rfl, fun quiet raised => ?_⟩
    exact (eventCount_raiseEvent (vi := vi) (ev := v % 2 ^ 16) quiet vi _).trans (if_pos ⟨raised, rfl, rfl⟩)
  · exact ⟨_, rfl, by rw [State.viface_setVI_same], by rw [State.viface_setVI_same]⟩
  · exact fun b open' => gdaybookArm_ends next still open'
  · exact ⟨_, gdaybookArm_disarms next still closed put, by rw [State.viface_setVI_same], by rw [State.viface_setVI_same]⟩

end Sys2Proof.Machine
end

section
/-!
The steps of the engraver and of flash (R340 to R351).
-/
namespace Sys2Proof.Machine
open Sys2Proof

/-! ## The acceptance of an install (R350) -/

/-- The walk of an access that the device makes is a look-up. -/
theorem devWalk_lookOnly {s u : State} {vi asn va : Nat} {write : Bool} {t : TlbEnt} (h : devWalk s vi asn va write = .ok (t, u)) :
    LookOnly s u := by
  have walked := domainWalk_lookOnly s (s.leadDom vi) vi asn (va % 2 ^ 57)
  unfold devWalk at h
  split at h
  · cases h
  · split at h
    · cases h
    · cases h
    · next entry x v found =>
      rw [found] at walked
      dsimp only at h
      split at h
      · cases h
      · next w marked => cases h; exact walked.trans ((orPte_looked _ _ _ _).1 _ marked)

/-- To find the pages of an install is to look them up. -/
theorem destPages_lookOnly (vi : Nat) (x : Install) (n i : Nat) {s u : State} {ps qs : List InstPage}
    (h : destPages vi x n i s ps = .ok (some qs, u)) : LookOnly s u := by
  induction n generalizing i s ps with
  | zero => cases h; exact .refl _
  | succ n ih =>
    unfold destPages at h
    dsimp only at h
    split at h
    · cases h
    · cases h
    · next t v walked =>
      split at h
      · exact (devWalk_lookOnly walked).trans (ih _ h)
      · cases h

theorem setTicket_tickets (s : State) (vi : Nat) (old new : Install) :
    ((setTicket s vi old new).viface vi).tickets = (s.viface vi).tickets.replace old new :=
  congrArg VIface.tickets (State.viface_setVI_same s vi _)

theorem mem_replace_of_mem {α : Type*} [BEq α] [LawfulBEq α] {a b : α} {l : List α} (h : a ∈ l) : b ∈ l.replace a b := by
  induction l with
  | nil => exact absurd h List.not_mem_nil
  | cons c l ih =>
    rw [List.replace_cons]
    cases same : a == c with
    | true => exact List.mem_cons_self
    | false =>
      rcases List.mem_cons.mp h with rfl | inside
      · simp at same
      · exact List.mem_cons_of_mem _ (ih inside)

/-- An accepted install has its pages, at the cost of the budget. -/
theorem installAccept_accepts {s u : State} {vi : Nat} {x : Install} {ps : List InstPage}
    (first : (s.viface vi).tickets.find? (fun t => t.code == 2 && t.accepted.isNone) = some x)
    (pages : destPages vi x (x.len / 65536) 0 s [] = .ok (some ps, u)) (fits : x.len ≤ (s.viface vi).ibudget) :
    ∃ t y, exec (.installAccept vi x.ticket) s = .next t ∧ (t.viface vi).ibudget = (s.viface vi).ibudget - x.len ∧
      y ∈ (t.viface vi).tickets ∧ y.ticket = x.ticket ∧ y.pages = ps ∧ y.accepted = some s.nextOp := by
  have look := destPages_lookOnly vi x _ 0 pages
  have host : u.viface vi = s.viface vi := look.field (fun s => s.viface vi) fun _ => rfl
  have number : u.nextOp = s.nextOp := look.field State.nextOp fun _ => rfl
  have taken : (setTicket (u.setVI vi { u.viface vi with ibudget := (u.viface vi).ibudget - x.len }) vi x
      { x with accepted := some u.nextOp, pages := ps }).viface vi =
      { u.viface vi with ibudget := (u.viface vi).ibudget - x.len,
                         tickets := (u.viface vi).tickets.replace x { x with accepted := some u.nextOp, pages := ps } } := by
    rw [setTicket, State.viface_setVI_same, State.viface_setVI_same]
  refine ⟨{ (setTicket (u.setVI vi { u.viface vi with ibudget := (u.viface vi).ibudget - x.len }) vi x
    { x with accepted := some u.nextOp, pages := ps }) with nextOp := u.nextOp + 1 },
    { x with accepted := some u.nextOp, pages := ps }, ?_, ?_, ?_, rfl, rfl, congrArg some number⟩
  · change execInstallAccept vi x.ticket s = _
    unfold execInstallAccept
    simp only [first, pages, ne_eq, not_true_eq_false, if_false]
    exact if_neg (by rw [host]; omega)
  · exact (congrArg VIface.ibudget taken).trans (by rw [host])
  · refine (congrArg (_ ∈ ·) (congrArg VIface.tickets taken)).mpr ?_
    rw [host]
    exact mem_replace_of_mem (List.mem_of_find?_eq_some first)

/-! ## The end of an install (R351) -/

/-- `v` has the ticket tables of `u`. -/
def TicketsKept (u v : State) : Prop := ∀ vi, (v.viface vi).tickets = (u.viface vi).tickets

theorem TicketsKept.refl (u : State) : TicketsKept u u := fun _ => rfl
theorem TicketsKept.trans {u v w : State} (h : TicketsKept u v) (h' : TicketsKept v w) : TicketsKept u w :=
  fun vi => (h' vi).trans (h vi)
theorem TicketsKept.of_vis {u v : State} (h : v.vis = u.vis) : TicketsKept u v := fun vi => by rw [State.viface, h]; rfl

theorem setVI_ticketsKept {s : State} {vi : Nat} {x : VIface} (h : x.tickets = (s.viface vi).tickets) :
    TicketsKept s (s.setVI vi x) := fun v => by
  rw [State.viface_setVI]
  split
  · next same => rw [same, h]
  · rfl

theorem testWait_ticketsKept (vi ev : Nat) (s : State) (w : Nat × Nat) : TicketsKept s (testWait vi ev s w) := by
  have taken : TicketsKept s (takeCount s vi ev (s.node w.1 w.2)) := by
    unfold takeCount
    split
    · exact setVI_ticketsKept rfl
    · exact .refl s
  unfold testWait passWait
  split
  · exact taken.trans (.of_vis (State.setNode_vis _ _ _ _))
  · exact .refl s

theorem testEvent_ticketsKept (s : State) (vi ev : Nat) : TicketsKept s (testEvent s vi ev) := by
  unfold testEvent
  split
  · exact .of_vis rfl
  · rw [testWaits_eq_foldl]
    exact foldl_rel TicketsKept.refl TicketsKept.trans _ (testWait_ticketsKept vi ev) _ _

theorem raiseEvent_ticketsKept (s : State) (vi ev : Nat) : TicketsKept s (raiseEvent s vi ev) := by
  by_cases zero : ev = 0
  · rw [zero, raiseEvent_zero]; exact .refl s
  · rw [raiseEvent_of_ne_zero s vi zero]
    have counted : TicketsKept s (countRaise s vi ev) := setVI_ticketsKept rfl
    exact counted.trans (testEvent_ticketsKept _ vi ev)

theorem nodeOutcome_ticketsKept (s : State) (q n code addr : Nat) : TicketsKept s (nodeOutcome s q n code addr) := by
  unfold nodeOutcome
  dsimp only
  split
  · exact .of_vis (State.setNode_vis _ _ _ _)
  · exact .refl s

/-- The node of an install learns its code, if it has one. -/
def tellNode (s : State) (x : Install) (code : Nat) : State :=
  match x.node with
  | some (q, n) => if code ≤ 1 then nodeOutcome s q n 0 0 else nodeOutcome s q n (0x20 + code) x.ticket
  | none => s

theorem tellNode_hostOnly (s : State) (x : Install) (code : Nat) : HostOnly s (tellNode s x code) := by
  unfold tellNode
  split
  · split <;> exact nodeOutcome_hostOnly _ _ _ _ _
  · exact .refl s

theorem tellNode_ticketsKept (s : State) (x : Install) (code : Nat) : TicketsKept s (tellNode s x code) := by
  unfold tellNode
  split
  · split <;> exact nodeOutcome_ticketsKept _ _ _ _ _
  · exact .refl s

/-- The ticket table as an install ends: its entry last, with its code, and the budget refunded. -/
def VIface.ended (v : VIface) (x : Install) (code : Nat) : VIface :=
  { v with
    tickets := v.tickets.erase x ++ [{ x with code := code, pages := [] }]
    ibudget := min (v.ibudget + 65536 * (x.pages.filter fun p => p.pst == .skipped || p.pst == .failed).length) (2 ^ 64 - 1) }

theorem finishInstall_eq (s : State) (vi : Nat) (x : Install) (code : Nat) :
    finishInstall s vi x code = tellNode (raiseEvent (s.setVI vi ((s.viface vi).ended x code)) vi x.event) x code := rfl

theorem finishInstall_hostOnly (s : State) (vi : Nat) (x : Install) (code : Nat) : HostOnly s (finishInstall s vi x code) := by
  rw [finishInstall_eq]
  exact ((setVI_hostOnly s vi _).trans (raiseEvents_hostOnly _ vi _)).trans (tellNode_hostOnly _ _ _)

theorem finishInstall_tickets (s : State) (vi : Nat) (x : Install) (code : Nat) :
    ((finishInstall s vi x code).viface vi).tickets =
      (s.viface vi).tickets.erase x ++ [{ x with code := code, pages := [] }] := by
  rw [finishInstall_eq, tellNode_ticketsKept, raiseEvent_ticketsKept, State.viface_setVI_same]
  rfl

theorem settleInstall_hostOnly (s : State) (vi : Nat) (old new : Install) : HostOnly s (settleInstall s vi old new) := by
  have put : HostOnly s (setTicket s vi old new) := setVI_hostOnly s vi _
  unfold settleInstall
  dsimp only
  split
  · exact put.trans (finishInstall_hostOnly _ _ _ _)
  · exact put

theorem stopPages_final {x : Install} (running : ∀ p ∈ x.pages, p.pst ≠ .switching) (code : Nat) :
    (stopPages x code).pages.all (·.pst.final) = true := by
  refine List.all_eq_true.mpr fun y inside => ?_
  obtain ⟨p, among, rfl⟩ := List.mem_map.mp inside
  have off : (p.pst == PageState.switching) = false := beq_eq_false_iff_ne.mpr (running p among)
  unfold InstPage.stops
  rw [off, Bool.false_or]
  cases done : p.pst.final with
  | true => exact done
  | false => rfl

theorem stopPages_fail {x : Install} (running : ∀ p ∈ x.pages, p.pst.final = false ∧ p.pst ≠ .switching) (first : x.fail = none)
    (code : Nat) : (stopPages x code).fail = some code := by
  have some' : (x.pages.isEmpty || x.pages.any (·.stops)) = true := by
    cases pages : x.pages with
    | nil => rfl
    | cons p ps =>
      obtain ⟨unfinished, staying⟩ := running p (by rw [pages]; exact List.mem_cons_self)
      have stops : p.stops = true := by
        unfold InstPage.stops
        rw [unfinished, beq_eq_false_iff_ne.mpr staying]; rfl
      rw [List.any_cons, stops]; rfl
  unfold stopPages
  dsimp only
  rw [if_pos some', first]
  rfl

/-- An install that runs is stopped and ends ABORTED. -/
theorem ticketAbort_aborts {s : State} {vi ticket : Nat} {x : Install} (only : busyInstalls s vi ticket = [x])
    (running : ∀ p ∈ x.pages, p.pst.final = false ∧ p.pst ≠ .switching) (first : x.fail = none) :
    ∃ t y, exec (.ticketAbort vi ticket) s = .next t ∧ (t.viface vi).tickets.getLast? = some y ∧ y.ticket = x.ticket ∧
      y.code = 8 := by
  refine ⟨settleInstall s vi x (stopPages x 8), { stopPages x 8 with code := 8, pages := [] }, ?_, ?_, rfl, rfl⟩
  · change execTicketAbort vi ticket s = _
    rw [execTicketAbort, only]; rfl
  · have aborted : (stopPages x 8).fail.getD (if (stopPages x 8).remapped then 1 else 0) = 8 := by
      rw [stopPages_fail running first]; rfl
    unfold settleInstall
    dsimp only
    rw [if_pos (stopPages_final (fun p among => (running p among).2) 8), aborted, finishInstall_tickets]
    exact List.getLast?_concat

end Sys2Proof.Machine
end

section
/-!
A page is engraved: it is read, programmed, verified and switched (R347, R348).
-/
namespace Sys2Proof.Machine
open Sys2Proof

section
variable {s : State} {vi ticket page : Nat} {x : Install} {p : InstPage}

/-! ## Reading, programming and verifying (R347, R349) -/

/-- The first page of a home that still waits takes its source. -/
theorem engraveRead_reads (at' : pageOf s vi ticket page .queued = some (x, p))
    (first : ∀ y ∈ x.pages.take page, y.pst = .queued → homeOf y.dest ≠ homeOf p.dest) {w u : State} {m : Memory}
    (sound : sourceBad vi x.asn (sourceVas p.src) s = .ok (false, w)) (whole : x.skip = false)
    (read : devRead w vi x.asn p.src 65536 = .ok (m, u)) :
    exec (.engraveRead vi ticket page) s =
      .next (setTicket u vi x (x.withPage page { p with pst := .programming, data := m })) := by
  have ahead : ((x.pages.take page).any fun y => y.pst == .queued && homeOf y.dest == homeOf p.dest) = false :=
    List.any_eq_false.mpr fun y before => by
      rw [Bool.and_eq_true_iff, beq_iff_eq, beq_iff_eq]
      exact fun both => first y before both.1 both.2
  change execEngraveRead vi ticket page s = _
  unfold execEngraveRead
  simp only [at', ahead, sound, DevRes.bind, read, whole, Bool.false_eq_true, if_false, Bool.false_and]

/-- A page is programmed into the next slot of an open block. -/
theorem engraveProgram_programs (at' : pageOf s vi ticket page .programming = some (x, p)) {fblk : Nat} (fresh : fblk ∉ p.tried)
    (opened : fblk ∈ openBlocks (s.domain (homeOf p.dest)) p.tried) :
    exec (.engraveProgram vi ticket page fblk 1) s =
      .next (setTicket (s.setDomain (homeOf p.dest) (programSlot (s.domain (homeOf p.dest)) fblk p.data).1) vi x
        (x.withPage page { p with pst := .verifying, slot := (programSlot (s.domain (homeOf p.dest)) fblk p.data).2 })) := by
  have some' : (openBlocks (s.domain (homeOf p.dest)) p.tried).isEmpty = false := by
    rw [List.isEmpty_eq_false_iff_exists_mem]; exact ⟨fblk, opened⟩
  have among : (openBlocks (s.domain (homeOf p.dest)) p.tried).contains fblk = true := List.contains_iff_mem.mpr opened
  have untried : p.tried.contains fblk = false := by
    rw [Bool.eq_false_iff, ne_eq, List.contains_iff_mem]; exact fresh
  change execEngraveProgram vi ticket page fblk 1 s = _
  unfold execEngraveProgram
  simp only [at', some', among, untried, Bool.false_and, Bool.false_eq_true, if_false, Bool.true_or, Bool.not_true,
    Bool.false_or, Nat.one_ne_zero]

theorem programSlot_flash (x : Domain) (fblk : Nat) (data : Memory) :
    Sp.find? (programSlot x fblk data).1.flash (fblk * 64 + (x.fblock fblk).used) = some data := Sp.find_put_same _ _ _

theorem programSlot_used (x : Domain) (fblk : Nat) (data : Memory) :
    ((programSlot x fblk data).1.fblock fblk).used = (x.fblock fblk).used + 1 :=
  congrArg FBlock.used (Sp.get_put_same _ _ _ _)

theorem engraveVerify_verifies (at' : pageOf s vi ticket page .verifying = some (x, p)) :
    exec (.engraveVerify vi ticket page 1) s = .next (setTicket s vi x (x.withPage page { p with pst := .switching })) := by
  change execEngraveVerify vi ticket page 1 s = _
  unfold execEngraveVerify
  simp only [at', Nat.one_ne_zero, if_false]

/-! ## The switch (R348) -/

section
variable (at' : pageOf s vi ticket page .switching = some (x, p))
include at'

theorem plateSwitch_idle (mine : switchStep s p = .idle) (free : switchBlocked s x p = false) :
    exec (.plateSwitch vi ticket page) s = .next (writeMap s p) := by
  change execPlateSwitch vi ticket page s = _
  unfold execPlateSwitch
  simp only [at', mine, free, Bool.false_eq_true, if_false]

theorem plateSwitch_other (mine : switchStep s p = .other) : exec (.plateSwitch vi ticket page) s = .next s := by
  change execPlateSwitch vi ticket page s = _
  unfold execPlateSwitch
  simp only [at', mine]

theorem plateSwitch_written (mine : switchStep s p = .written) : exec (.plateSwitch vi ticket page) s =
    .next (settleInstall (switchDone s p.dest) vi x (x.withPage page { p with pst := .done, data := [] })) := by
  change execPlateSwitch vi ticket page s = _
  unfold execPlateSwitch
  simp only [at', mine]

end

/-- The map entry as it is written: it names the new slot. -/
theorem writeMap_plateMap (s : State) (p : InstPage) :
    ((writeMap s p).domain (homeOf p.dest)).plateMap =
      Sp.put (s.domain (homeOf p.dest)).plateMap (platePage p.dest)
        { slot := p.slot
          version := if p.keeps then ((Sp.find? (s.domain (homeOf p.dest)).plateMap (platePage p.dest)).map (·.version)).getD 0
            else (((Sp.find? (s.domain (homeOf p.dest)).plateMap (platePage p.dest)).map (·.version)).getD 0 + 1) % 2 ^ 32 } :=
  congrArg Domain.plateMap (State.domain_setDomain_same s _ _)

/-- A domain without the lines of a plate page, if it is of the partition. -/
theorem dropFrames_domain (s : State) (dest d : Nat) :
    (dropFrames s dest).domain d = if (s.partOf (homeOf dest)).testBit d then
      { s.domain d with plates := List.filter (fun l => l.1 / 256 != dest / 65536) (s.domain d).plates } else s.domain d := by
  unfold State.domain Sp.get
  rw [show (dropFrames s dest).domains = s.domains.map fun e => (e.1, if (s.partOf (homeOf dest)).testBit e.1 then
    { e.2 with plates := List.filter (fun l => l.1 / 256 != dest / 65536) e.2.plates } else e.2) from rfl,
    Sp.find_mapIdx fun k (y : Domain) => if (s.partOf (homeOf dest)).testBit k then
      { y with plates := List.filter (fun l => l.1 / 256 != dest / 65536) y.plates } else y]
  cases Sp.find? s.domains d <;> split <;> rfl

theorem dropFrames_switching (s : State) (dest d : Nat) :
    ((dropFrames s dest).domain d).switching = (s.domain d).switching := by
  rw [dropFrames_domain]
  split <;> rfl

theorem dropFrames_plateMap (s : State) (dest d : Nat) :
    ((dropFrames s dest).domain d).plateMap = (s.domain d).plateMap := by
  rw [dropFrames_domain]
  split <;> rfl

/-- A core whose weight bank holds no valid frame of a page. -/
def Core.dropPage (x : Core) (dest : Nat) : Core :=
  { x with
    bank := (List.filter (fun f => !(f.2.tag == dest && f.2.valid)) x.bank).map fun f =>
      (f.1, if f.2.tag = dest then { f.2 with stale := true } else f.2)
    bankUse := x.bankUse.filter fun n =>
      match Sp.find? x.bank n with
      | some f => !(f.tag == dest && f.valid)
      | none => true }

theorem dropFrames_core (s : State) (dest c : Nat) : (dropFrames s dest).core c =
    if (s.partOf (homeOf dest)).testBit (domOf c) then (s.core c).dropPage dest else s.core c := by
  have cores : (dropFrames s dest).cores = s.cores.map fun e =>
      (e.1, if (s.partOf (homeOf dest)).testBit (domOf e.1) then e.2.dropPage dest else e.2) :=
    List.map_congr_left fun e _ => by split <;> rfl
  unfold State.core Sp.get
  rw [cores, Sp.find_mapIdx fun k (y : Core) => if (s.partOf (homeOf dest)).testBit (domOf k) then y.dropPage dest else y]
  cases Sp.find? s.cores c <;> split <;> rfl

theorem Core.dropPage_tag {x : Core} {dest n : Nat} {f : Frame} (held : Sp.find? (x.dropPage dest).bank n = some f)
    (valid : f.valid = true) : f.tag ≠ dest := by
  obtain ⟨e, kept, same⟩ := List.mem_map.mp (Sp.mem_of_find held)
  have stays := (List.mem_filter.mp kept).2
  intro named
  obtain ⟨_, rfl⟩ := Prod.mk.inj same
  split at named
  · next is => rw [if_pos is] at valid; simp [is, show e.2.valid = true from valid] at stays
  · next is => exact is named

/-- Once every L2 and bank has acknowledged, none holds the old version. -/
theorem switchDone_drops (s : State) (dest : Nat) :
    Sp.find? ((switchDone s dest).domain (homeOf dest)).switching (platePage dest) = none ∧
      ((switchDone s dest).domain (homeOf dest)).plateMap = (s.domain (homeOf dest)).plateMap ∧
      (∀ c, (s.partOf (homeOf dest)).testBit c = true → ∀ l ∈ ((switchDone s dest).domain c).plates, l.1 / 256 ≠ dest / 65536) ∧
      ∀ c n f, (s.partOf (homeOf dest)).testBit (domOf c) = true → Sp.find? ((switchDone s dest).core c).bank n = some f →
        f.valid = true → f.tag ≠ dest := by
  have part : ∀ d (y : Domain), (s.setDomain d y).partOf (homeOf dest) = s.partOf (homeOf dest) := fun _ _ => rfl
  refine ⟨?_, ?_, fun c inside l held => ?_, fun c n f inside held valid => ?_⟩
  · rw [switchDone, dropFrames_switching, State.domain_setDomain_same, Sp.find_del_same]
  · rw [switchDone, dropFrames_plateMap, State.domain_setDomain_same]
  · rw [switchDone, dropFrames_domain, part, if_pos inside] at held
    exact bne_iff_ne.mp (List.mem_filter.mp held).2
  · rw [switchDone, dropFrames_core, part, if_pos inside] at held
    exact Core.dropPage_tag held valid

end

end Sys2Proof.Machine
end

section
/-!
Erase blocks: their live pages move, one by one, and a block whose every slot is stale is erased (R342, R343).
-/
namespace Sys2Proof.Machine
open Sys2Proof

/-! ## A block retires (R343) -/

/-- Of its domain, a block that retires changes its own entry, the counts and the reserve. -/
theorem retireAt_domain (s : State) (d b : Nat) : ∃ n, (retireAt s d b).domain d =
    { (if ((s.domain d).fblock b).retired then s.domain d else retireBlock (s.domain d) b) with corrected := n } := by
  unfold retireAt
  split
  · exact ⟨(s.domain d).corrected, rfl⟩
  · obtain ⟨n, same⟩ := refreshOrrery_domain { s.setDomain d (retireBlock (s.domain d) b) with
      vis := s.vis.map fun e => (e.1, { e.2 with tickets := e.2.tickets.map (·.noteRetired d) }) } d
    exact ⟨n, same.trans (congrArg (fun y : Domain => { y with corrected := n }) (State.domain_setDomain_same s d _))⟩

theorem retireAt_retired (s : State) (d b : Nat) : (((retireAt s d b).domain d).fblock b).retired = true := by
  obtain ⟨n, same⟩ := retireAt_domain s d b
  rw [same]
  split
  · assumption
  · exact congrArg FBlock.retired (Sp.get_put_same _ _ _ _)

theorem retireAt_plateMap (s : State) (d b : Nat) : ((retireAt s d b).domain d).plateMap = (s.domain d).plateMap := by
  obtain ⟨n, same⟩ := retireAt_domain s d b
  rw [same]
  split <;> rfl

/-! ## The pages that move (R342) -/

/-- The pages that a domain's engraver moves, as the `k`-th takes another form or is over. -/
def movesWith (ms : List InstPage) (k : Nat) : Option InstPage → List InstPage
  | some p => ms.set k p
  | none => ms.eraseIdx k

theorem setMove_domain (s : State) (d k : Nat) (p : Option InstPage) :
    (setMove s d k p).domain d = { s.domain d with moves := movesWith (s.domain d).moves k p } := by
  cases p <;> exact State.domain_setDomain_same s d _

section
variable {s : State} {d k : Nat} {p : InstPage}

/-- A page begins to move. -/
theorem blockReclaim_begins {fblk : Nat} (small : fblk < 2 ^ 24)
    (stale : (liveSlots (s.domain d) fblk).length < ((s.domain d).fblock fblk).used) (settled : pendingSlot s d fblk = false)
    (live : nextMove (s.domain d) d fblk = some p) (dst : Nat) :
    exec (.blockReclaim d fblk dst) s =
      .next (s.setDomain d { s.domain d with moves := (s.domain d).moves ++ [p] }) := by
  change execBlockReclaim d fblk dst s = _
  unfold execBlockReclaim
  dsimp only
  rw [if_neg (Nat.not_le.mpr small), if_neg (by simp [stale, settled]), live]

theorem blockReclaim_moves (moves : (s.domain d).moves[k]? = some p) (dst : Nat) :
    exec (.blockReclaim d (2 ^ 24 + k) dst) s = .next (moveStep s d k dst p) := by
  change execBlockReclaim d (2 ^ 24 + k) dst s = _
  unfold execBlockReclaim
  dsimp only
  rw [if_pos (Nat.le_add_right _ _), Nat.add_sub_cancel_left, moves]

/-- In an open block, a page that moves is programmed, or the block fails under it. -/
theorem moveProgram_of_open {dst : Nat} (opened : dst ∈ openBlocks (s.domain d) (p.tried ++ [p.src / 64])) :
    moveProgram s d k dst p =
      if Config.flashFails s.fresh.1 then moveFailed s.fresh.2 d k p dst
      else setMove (s.fresh.2.setDomain d (programSlot (s.domain d) dst p.data).1) d k
        (some { p with pst := .verifying, slot := (programSlot (s.domain d) dst p.data).2 }) := by
  have some' : (openBlocks (s.domain d) (p.tried ++ [p.src / 64])).isEmpty = false :=
    List.isEmpty_eq_false_iff_exists_mem.mpr ⟨dst, opened⟩
  have among : (openBlocks (s.domain d) (p.tried ++ [p.src / 64])).contains dst = true := List.contains_iff_mem.mpr opened
  have untried : (p.tried ++ [p.src / 64]).contains dst = false := by
    have kept := (List.mem_filter.mp opened).2
    rw [Bool.and_eq_true_iff, Bool.not_eq_true'] at kept
    exact kept.2
  unfold moveProgram
  dsimp only
  rw [if_neg (by rw [some']; exact Bool.false_ne_true), if_neg (by rw [among, untried]; exact Bool.false_ne_true)]

theorem moveFailed_retires (b : Nat) : ((moveFailed s d k p b).domain d).plateMap = (s.domain d).plateMap ∧
    (((moveFailed s d k p b).domain d).fblock b).retired = true := by
  rw [moveFailed, setMove_domain]
  exact ⟨retireAt_plateMap s d b, retireAt_retired s d b⟩

section
variable (moves : (s.domain d).moves[k]? = some p)
include moves

/-- The block fails and retires, or its next slot holds the page. -/
theorem blockReclaim_programs (stage : p.pst = .programming) {dst : Nat}
    (opened : dst ∈ openBlocks (s.domain d) (p.tried ++ [p.src / 64])) :
    ∃ t, exec (.blockReclaim d (2 ^ 24 + k) dst) s = .next t ∧ (t.domain d).plateMap = (s.domain d).plateMap ∧
      (((t.domain d).fblock dst).retired = true ∨
        (((t.domain d).fblock dst).used = ((s.domain d).fblock dst).used + 1 ∧
          Sp.find? (t.domain d).flash (dst * 64 + ((s.domain d).fblock dst).used) = some p.data ∧
          (t.domain d).moves[k]? =
            some { p with pst := .verifying, slot := dst * 64 + ((s.domain d).fblock dst).used })) := by
  refine ⟨moveProgram s d k dst p, ?_, ?_⟩
  · rw [blockReclaim_moves moves, moveStep, stage]
  rw [moveProgram_of_open opened]
  split
  · obtain ⟨same, retired⟩ := moveFailed_retires (s := s.fresh.2) (d := d) (k := k) (p := p) dst
    exact ⟨same, .inl retired⟩
  · rw [setMove_domain, State.domain_setDomain_same]
    refine ⟨rfl, .inr ⟨programSlot_used _ _ p.data, programSlot_flash _ _ _, ?_⟩⟩
    have among : k < (s.domain d).moves.length := (List.getElem?_eq_some_iff.mp moves).1
    exact (List.getElem?_set_self among).trans rfl

/-- Where no block can be had, the page stays where it is. -/
theorem blockReclaim_stays (stage : p.pst = .programming) (shut : openBlocks (s.domain d) (p.tried ++ [p.src / 64]) = [])
    (used : anyFree (s.domain d) (p.tried ++ [p.src / 64]) = false) (full : canFree s d = false) (dst : Nat) :
    exec (.blockReclaim d (2 ^ 24 + k) dst) s =
      .next (s.setDomain d { s.domain d with moves := (s.domain d).moves.eraseIdx k }) := by
  rw [blockReclaim_moves moves, moveStep, stage]
  dsimp only
  unfold moveProgram
  dsimp only
  rw [shut, used, if_pos (by rfl), full]
  rfl

/-- A page that moves keeps its version. -/
theorem blockReclaim_switches (stage : p.pst = .switching) (keeps : p.keeps = true) (home : homeOf p.dest = d)
    (mine : switchStep s p = .idle) {e : PlateEnt} (named : Sp.find? (s.domain d).plateMap (platePage p.dest) = some e)
    (from' : e.slot = p.src) (dst : Nat) :
    ∃ t, exec (.blockReclaim d (2 ^ 24 + k) dst) s = .next t ∧
      (t.domain d).plateMap = Sp.put (s.domain d).plateMap (platePage p.dest) { e with slot := p.slot } := by
  refine ⟨writeMap s p, ?_, ?_⟩
  · rw [blockReclaim_moves moves, moveStep, stage]
    dsimp only
    rw [mine]
    dsimp only
    rw [named, Option.map_some, from', if_neg (by simp)]
  · rw [← home] at named ⊢
    rw [writeMap_plateMap, named, if_pos keeps]
    rfl

end

end

/-! ## A block is erased (R342, R343) -/

/-- A domain with a block erased. -/
def Domain.erased (x : Domain) (fblk : Nat) : Domain :=
  { x with
    fblocks := Sp.put x.fblocks fblk { x.fblock fblk with used := 0, wear := (x.fblock fblk).wear + 1 }
    flash := List.filter (fun e => e.1 / 64 != fblk) x.flash
    flashBad := x.flashBad.filter (· / 1024 != fblk) }

theorem blockErase_erases {s : State} {d fblk : Nat} (serves : inService (s.domain d) fblk = true)
    (full : 64 ≤ ((s.domain d).fblock fblk).used) (stale : liveSlots (s.domain d) fblk = [])
    (settled : pendingSlot s d fblk = false) (young : ((s.domain d).fblock fblk).wear + 1 < 5000) :
    ∃ t, exec (.blockErase d fblk 1) s = .next t ∧ ((t.domain d).fblock fblk).used = 0 ∧
      ((t.domain d).fblock fblk).wear = ((s.domain d).fblock fblk).wear + 1 ∧
      ((t.domain d).fblock fblk).retired = ((s.domain d).fblock fblk).retired := by
  refine ⟨refreshOrrery (s.setDomain d ((s.domain d).erased fblk)) d, ?_, ?_⟩
  · change execBlockErase d fblk 1 s = _
    unfold execBlockErase
    dsimp only
    rw [if_neg (by simp [serves, full, stale, settled]), if_neg (by simp; omega)]
    rfl
  · obtain ⟨n, same⟩ := refreshOrrery_domain (s.setDomain d ((s.domain d).erased fblk)) d
    have block : ((s.domain d).erased fblk).fblock fblk =
        { (s.domain d).fblock fblk with used := 0, wear := ((s.domain d).fblock fblk).wear + 1 } := Sp.get_put_same _ _ _ _
    have kept : ((refreshOrrery (s.setDomain d ((s.domain d).erased fblk)) d).domain d).fblock fblk =
        ((s.domain d).erased fblk).fblock fblk := by
      rw [same, State.domain_setDomain_same]; rfl
    rw [kept, block]
    exact ⟨rfl, rfl, rfl⟩

/-! ## The obligation -/

/-- Settles O48: each step by the lemma of its operation; what tells an install's node and event of its end leaves the
domains and the cores as they are. -/
theorem plateSteps : Obligations.PlateSteps := by
  unfold Obligations.PlateSteps
  intro s vi ticket page fblk d x p
  refine ⟨?_, ?_, ?_, ?_, ?_, ?_, plateSwitch_other, ?_, ?_, ?_, ?_⟩
  · rintro ps u first rfl pages fits
    exact installAccept_accepts first pages fits
  · exact ticketAbort_aborts
  · exact fun at' first w m u sound whole read => engraveRead_reads at' first sound whole read
  · intro at' fresh opened
    refine ⟨_, engraveProgram_programs at' fresh opened, ?_⟩
    have home : ∀ new, (setTicket (s.setDomain (homeOf p.dest) (programSlot (s.domain (homeOf p.dest)) fblk p.data).1) vi x
        new).domain (homeOf p.dest) = (programSlot (s.domain (homeOf p.dest)) fblk p.data).1 :=
      fun _ => State.domain_setDomain_same s _ _
    rw [home]
    exact ⟨programSlot_flash _ _ _, programSlot_used _ _ _, rfl⟩
  · exact engraveVerify_verifies
  · intro at' free mine new
    refine ⟨_, plateSwitch_idle at' mine free, ?_⟩
    rw [writeMap_plateMap, new]
    rfl
  · intro at' mine
    have told := settleInstall_hostOnly (switchDone s p.dest) vi x (x.withPage page { p with pst := .done, data := [] })
    refine ⟨_, plateSwitch_written at' mine, ?_⟩
    simp only [told.field State.domain fun _ => rfl, told.field State.core fun _ => rfl]
    exact switchDone_drops s p.dest
  · exact fun dst small stale settled live => blockReclaim_begins small stale settled live dst
  · intro dst k moves
    exact ⟨fun stage opened => blockReclaim_programs moves stage opened,
      fun stage shut used full => blockReclaim_stays moves stage shut used full dst,
      fun e stage keeps home mine named from' => blockReclaim_switches moves stage keeps home mine named from' dst⟩
  · exact blockErase_erases

end Sys2Proof.Machine
end

section
/-!
A mill takes its race regions and its cores, starts, and completes (R319, R335, R436).
-/
namespace Sys2Proof.Machine
open Sys2Proof

/-! ## Race regions (R319) -/

/-- `v` holds what `u` holds, but for the mills that hold the race regions of domains. -/
structure RegionsOnly (u v : State) : Prop where
  rest : DomainsOnly u v
  domain : ∀ d, { v.domain d with raceRegion := none } = { u.domain d with raceRegion := none }

namespace RegionsOnly
variable {u v w : State}

theorem refl (u : State) : RegionsOnly u u := ⟨.refl u, fun _ => rfl⟩
theorem trans (h : RegionsOnly u v) (h' : RegionsOnly v w) : RegionsOnly u w :=
  ⟨h.rest.trans h'.rest, fun d => (h'.domain d).trans (h.domain d)⟩
theorem setDomain (s : State) (d : Nat) (x : Option Nat) :
    RegionsOnly s (s.setDomain d { s.domain d with raceRegion := x }) := by
  refine ⟨setDomain_domainsOnly s d _, fun c => ?_⟩
  rw [State.domain_setDomain]
  split
  · next same => rw [same]
  · rfl

variable (h : RegionsOnly u v)
include h

theorem field {α : Sort*} (f : State → α) (hf : ∀ s : State, f { s with domains := [] } = f s) : f v = f u := h.rest.field f hf
theorem of_domain {α : Sort*} (d : Nat) (f : Domain → α) (hf : ∀ x : Domain, f { x with raceRegion := none } = f x) :
    f (v.domain d) = f (u.domain d) := by rw [← hf (v.domain d), ← hf (u.domain d), h.domain d]

theorem coresIn_eq (d : Nat) : v.coresIn d = u.coresIn d := by
  unfold State.coresIn State.usable
  exact List.filter_congr fun c _ => h.of_domain _ (fun x => x.coremap.testBit (c % 40)) fun _ => rfl

theorem coresByName_eq (d : Nat) : v.coresByName d = u.coresByName d := by
  unfold State.coresByName
  rw [h.coresIn_eq, h.field State.coreName fun _ => rfl]

theorem domainUp_eq : domainUp v = domainUp u :=
  funext fun d => h.of_domain d (fun x => x.st == 1 || x.st == 2) fun _ => rfl

theorem millCores_eq (gid : Nat) : millCores v gid = millCores u gid := by
  unfold millCores
  simp only [h.domainUp_eq, h.coresByName_eq, h.field (fun s => s.grid gid) fun _ => rfl, h.field State.domsOf fun _ => rfl,
    h.field State.onCore fun _ => rfl, h.field State.millOf fun _ => rfl]

theorem owedCores_eq (gid : Nat) (m : Mill) : owedCores v gid m = owedCores u gid m := by
  unfold owedCores
  simp only [h.field (fun s => s.grid gid) fun _ => rfl, h.field State.domsOf fun _ => rfl,
    h.field bookedStage fun _ => rfl, show v.coresIn = u.coresIn from funext h.coresIn_eq]

theorem dealCores_eq (gid : Nat) (m : Mill) : dealCores v gid m = dealCores u gid m := by
  unfold dealCores
  simp only [h.millCores_eq, h.owedCores_eq, h.field bookedStage fun _ => rfl]

end RegionsOnly

/-- The race regions of domains taken. -/
def takeRegions (gid : Nat) (ds : List Nat) (s : State) : State :=
  ds.foldl (fun s d => s.setDomain d { s.domain d with raceRegion := some gid }) s

theorem takeRegions_only (gid : Nat) (ds : List Nat) (s : State) : RegionsOnly s (takeRegions gid ds s) :=
  foldl_rel RegionsOnly.refl RegionsOnly.trans _ (fun t d => .setDomain t d _) ds s

theorem takeRegions_region (gid : Nat) (ds : List Nat) (s : State) (d : Nat) :
    ((takeRegions gid ds s).domain d).raceRegion = if d ∈ ds then some gid else (s.domain d).raceRegion := by
  induction ds generalizing s with
  | nil => rfl
  | cons c ds ih =>
    rw [takeRegions, List.foldl_cons]
    refine (ih _).trans ?_
    rw [State.domain_setDomain]
    by_cases later : d ∈ ds
    · rw [if_pos later, if_pos (List.mem_cons_of_mem _ later)]
    · by_cases same : d = c
      · rw [if_neg later, if_pos same, if_pos (same ▸ List.mem_cons_self)]
      · rw [if_neg later, if_neg same, if_neg (by simp [same, later])]

theorem Mill.mem_homes {m : Mill} {r : Race} (h : r ∈ m.races) : r.home ∈ m.homes := by
  rw [Mill.homes, List.mem_eraseDups]
  exact List.mem_map_of_mem h

/-! ## The cores that a mill takes (R319, R436) -/

section
variable {s : State} {gid : Nat}

theorem bookedStage_of_no_book (book : (s.grid gid).book = none) (c : Nat) : bookedStage s gid c = none := by
  rw [bookedStage, bookNext_of_no_book book]; rfl

theorem owedCores_of_no_book (book : (s.grid gid).book = none) (m : Mill) : owedCores s gid m = 0 := by
  unfold owedCores
  simp only [bookedStage_of_no_book book, Option.isSome_none, Bool.false_and, List.filter_false, List.length_nil]

/-- With no record to follow, each stage has its least, and the rest are divided. -/
theorem dealCores_of_no_book (book : (s.grid gid).book = none) {m : Mill} (enough : m.minc.sum ≤ (millCores s gid).length) :
    ∃ held, dealCores s gid m =
      some (held, divide m (min (millCores s gid).length m.cores - m.minc.sum) m.minc) := by
  have booked : (millCores s gid).filterMap (fun c => (bookedStage s gid c).map fun t => (c, t)) = [] :=
    List.filterMap_eq_nil_iff.mpr fun c _ => by rw [bookedStage_of_no_book book]; rfl
  have rest : (millCores s gid).filter (fun c => (bookedStage s gid c).isNone) = millCores s gid :=
    List.filter_eq_self.mpr fun c _ => by rw [bookedStage_of_no_book book]; rfl
  have least : (m.minc.zipIdx.map fun x => max x.1 0) = m.minc := by
    simp only [Nat.max_zero]
    exact List.zipIdx_map_fst 0 m.minc
  unfold dealCores
  simp only [booked, rest, owedCores_of_no_book book, List.filter_nil, List.length_nil, least, Nat.sub_zero, Nat.not_lt.mpr enough,
    if_false, Nat.sub_min_sub_right, List.nil_append]
  exact ⟨_, rfl⟩

/-- A mill that starts. -/
def Mill.begun (m : Mill) (held : Sp Nat) (count : List Nat) : Mill :=
  { m with started := true, held := held, count := count, lead := ((Sp.keys held).map domOf).foldl min 63 }

theorem millStart_starts {g : Grid} {m : Mill} (grid : s.grid gid = g) (mill : g.mill = some m) (waits : m.started = false)
    (live : g.ended = false) (only : s.grids = [(gid, g)]) (free : regionsFree s gid m = true) {held : Sp Nat} {count : List Nat}
    (deals : dealCores s gid m = some (held, count)) :
    exec (.millStart gid) s =
      .next ((takeRegions gid m.homes s).setGrid gid { g with mill := some (m.begun held count) }) := by
  have alone : (List.filter (fun (e : Nat × Grid) => !e.2.complete && !e.2.ended &&
      (decide (g.prio < e.2.prio) || (e.2.prio == g.prio && decide (e.1 < gid)))) s.grids) = [] := by
    rw [only]
    simp
  have kept := (takeRegions_only gid m.homes s).dealCores_eq gid m
  rw [deals, takeRegions] at kept
  change execMillStart gid s = _
  unfold execMillStart
  simp only [grid, mill, waits, live, alone, free, kept, List.any_nil, Bool.not_true, Bool.or_self, Bool.false_eq_true, if_false]
  rfl

/-- A mill that a core has joined, for a stage. -/
def Mill.joined (m : Mill) (core st : Nat) : Mill :=
  { m with held := Sp.put m.held core st, count := m.count.set st (m.count.getD st 0 + 1) }

/-- A core joins the stage that the division would choose next. -/
theorem millCoreJoin_joins {g : Grid} {m : Mill} (grid : s.grid gid = g) (mill : g.mill = some m) (book : g.book = none)
    (started : m.started = true) (going : g.complete = false) (live : g.ended = false) (wants : m.count.sum < m.cores) {core st : Nat}
    (first : (millCores s gid).head? = some core) (stage : nextStage m m.count = some st) :
    exec (.millCoreJoin gid core) s = .next (s.setGrid gid { g with mill := some (m.joined core st) }) := by
  have unbooked : (s.grid gid).book = none := by rw [grid, book]
  have booked : (millCores s gid).filterMap (fun c => (bookedStage s gid c).map fun t => (c, t)) = [] :=
    List.filterMap_eq_nil_iff.mpr fun c _ => by rw [bookedStage_of_no_book unbooked]; rfl
  have join : nextJoin s gid m = some (core, st) := by
    unfold nextJoin
    simp only [booked, owedCores_of_no_book unbooked, Nat.add_zero, Nat.not_le.mpr wants, if_false, List.head?_nil, first,
      Option.bind_some, stage, Option.map_some]
  change execMillCoreJoin gid core s = _
  unfold execMillCoreJoin
  simp only [grid, mill, started, going, live, join, Bool.not_true, Bool.or_self, Bool.false_eq_true, if_false, ne_eq,
    not_true_eq_false, Mill.joined]

/-! ## Completion (R335) -/

/-- The race regions that a mill holds, free again. -/
def leaveRegions (gid : Nat) (ds : List Nat) (s : State) : State :=
  ds.foldl (fun s d =>
    if (s.domain d).raceRegion = some gid then s.setDomain d { s.domain d with raceRegion := none } else s) s

theorem leaveRegions_only (gid : Nat) (ds : List Nat) (s : State) : RegionsOnly s (leaveRegions gid ds s) :=
  foldl_rel RegionsOnly.refl RegionsOnly.trans _ (fun t d => by
    split
    · exact .setDomain t d _
    · exact .refl t) ds s

theorem leaveRegions_free (gid : Nat) (ds : List Nat) (s : State) {d : Nat} (h : d ∈ ds ∨ (s.domain d).raceRegion ≠ some gid) :
    ((leaveRegions gid ds s).domain d).raceRegion ≠ some gid := by
  induction ds generalizing s with
  | nil => exact h.resolve_left List.not_mem_nil
  | cons c ds ih =>
    refine ih _ ?_
    by_cases later : d ∈ ds
    · exact .inl later
    · refine .inr ?_
      dsimp only
      split
      · rw [State.domain_setDomain]
        split
        · exact nofun
        · next other => exact h.resolve_left (by simp [other, later])
      · next free =>
        by_cases same : d = c
        · rw [same]; exact free
        · exact h.resolve_left (by simp [same, later])

section
variable {g : Grid} {m : Mill} (grid : s.grid gid = g) (mill : g.mill = some m) (going : g.complete = false)
  (ended : ∀ st < g.stages.length, stageOver s gid st = true) (met : sharesMet s gid = true)
include grid mill going ended met

theorem exec_millComplete_of_book {t : State} (book : endBook s gid = .error t) : exec (.millComplete gid) s = .next t := by
  have all : (List.range g.stages.length).all (stageOver s gid) = true :=
    List.all_eq_true.mpr fun st h => ended st (List.mem_range.mp h)
  change execMillComplete gid s = _
  unfold execMillComplete
  simp only [grid, mill, going, all, met, book, Bool.not_true, Bool.or_self, Bool.false_eq_true, if_false]

/-- A mill whose cores are released gives up its regions and completes. -/
theorem exec_millComplete_of_released {u : State} (book : endBook s gid = .ok s)
    (released : releaseCores g.cores g.scope s = (true, u)) :
    exec (.millComplete gid) s = .next (announceLaunch ((leaveRegions gid m.homes u).setGrid gid
      { (leaveRegions gid m.homes u).grid gid with
        mill := some { m with held := [], departing := [], mover := [], moves := [] } }) gid) := by
  have all : (List.range g.stages.length).all (stageOver s gid) = true :=
    List.all_eq_true.mpr fun st h => ended st (List.mem_range.mp h)
  change execMillComplete gid s = _
  unfold execMillComplete
  simp only [grid, mill, going, all, met, book, released, Bool.not_true, Bool.or_self, Bool.false_eq_true, if_false]
  rfl

theorem millComplete_completes {u : State} (book : g.book = none) (written : (s.viface g.vi).puts = [])
    (released : releaseCores g.cores g.scope s = (true, u)) :
    ∃ t, exec (.millComplete gid) s = .next t ∧ (t.grid gid).complete = true ∧
      ∀ r ∈ m.races, (t.domain r.home).raceRegion ≠ some gid := by
  have over' : endBook s gid = .ok s := by
    simp only [endBook, grid, book, written, List.isEmpty_nil, if_true]
  refine ⟨_, exec_millComplete_of_released grid mill going ended met over' released, by rw [announceLaunch_grid], fun r among => ?_⟩
  rw [(announceLaunch_hostOnly _ gid).field State.domain fun _ => rfl]
  exact leaveRegions_free gid m.homes u (.inl (Mill.mem_homes among))

end

end

end Sys2Proof.Machine
end

section
/-!
The steps of a race's home: grants, and the ends of the parts of wefts in slots (R322, R324, R328, R329).
-/
namespace Sys2Proof.Machine
open Sys2Proof

section
variable {s : State} {gid q : Nat}

/-- The race of a launch, as its home finds it. -/
def raceAt (s : State) (gid q : Nat) : Option Race := (s.grid gid).mill.bind fun m => m.races[q]?

theorem raceOf_of_gid {b : Nat} (own : (s.block b).gid = gid) : raceOf s b q = raceAt s gid q := by
  rw [raceOf, own]; rfl

theorem raceAt_setRace {r : Race} (h : raceAt s gid q = some r) (r' : Race) : raceAt (setRace s gid q r') gid q = some r' := by
  obtain ⟨m, mill, race⟩ := Option.bind_eq_some_iff.mp h
  have bound : q < m.races.length := (List.getElem?_eq_some_iff.mp race).1
  simp only [setRace, mill, raceAt, State.grid_setGrid_same, Option.bind_some]
  exact List.getElem?_set_self bound

theorem setRace_book (s : State) (gid q : Nat) (r : Race) : ((setRace s gid q r).grid gid).book = (s.grid gid).book := by
  unfold setRace
  split
  · rfl
  · rw [State.grid_setGrid_same]

/-! ## Grants (R322, R328) -/

theorem nextGrant_of_no_book (book : (s.grid gid).book = none) : nextGrant s gid q = none := bookNext_of_no_book book _

theorem unserved_of_no_book (book : (s.grid gid).book = none) (kinds : List Nat) (reqs : List (Nat × Nat)) :
    unserved s gid q kinds reqs = none :=
  List.find?_eq_none.mpr fun x _ => by rw [grantLeft, bookNext_of_no_book book]; exact Bool.false_ne_true

theorem noteGrant_of_no_book (book : (s.grid gid).book = none) (kind slot b w : Nat) : noteGrant s gid q kind slot b w = s := by
  unfold noteGrant
  simp only [nextGrant_of_no_book book, logDecision_of_no_book book]

/-- The lanes that leave their wait change threads alone. -/
theorem wakeRace_threadsOnly (s : State) (b w q kd : Nat) (recv : Bool) :
    ThreadsOnly s (wakeRace s b w q kd recv (passRace b w)) := by
  unfold wakeRace
  refine foldl_rel ThreadsOnly.refl ThreadsOnly.trans _ (fun t l => ?_) _ s
  dsimp only
  split
  · exact Eq.refl _
  · exact .refl t

/-- A request of a weft, taken from the head of its queue, finds the parts it was made of. -/
theorem reqParts_raceReq {b w kd : Nat} (small : w < 128) : reqParts (raceReq b w kd) = (b, w, kd) := by
  have parts : (w + 128 * kd) % 128 = w ∧ (w + 128 * kd) / 128 = kd := by omega
  rw [reqParts, raceReq]
  exact Prod.ext rfl (Prod.ext parts.1 parts.2)

variable {b w kd : Nat} {ys : List (Nat × Nat)} {r : Race}

/-- The race as the request at the head of its reservers is granted. -/
def Race.served (r : Race) (b w : Nat) (ys : List (Nat × Nat)) : Race := ({ r with reservers := ys } : Race).granted b w false

/-- A grant to the head of the reservers: the slot at the pointer is the weft's. -/
theorem grantWaiting_reserves (own : (s.block b).gid = gid) (race : raceAt s gid q = some r) (book : (s.grid gid).book = none)
    (queue : r.reservers = raceReq b w kd :: ys) (small : w < 128) (room : (s.weft b w).slots.length < 8)
    (acquires : raceAcquires s r (s.block b).core = true) :
    raceAt (grantWaiting s gid q false (raceReq b w kd)) gid q = some (r.served b w ys) ∧
      ((grantWaiting s gid q false (raceReq b w kd)).weft b w).slots =
        (s.weft b w).slots ++ [{ race := q, slot := r.rp, recv := false, addr := r.addr r.rp }] ∧
      ((grantWaiting s gid q false (raceReq b w kd)).weft b w).kpair kd = (if kd = 0 then 0 else BitVec.ofNat 64 (r.addr r.rp)) := by
  have known : raceOf s b q = some r := (raceOf_of_gid own).trans race
  have runs := setRace_runs s gid q { r with reservers := ys }
  have own' : ((setRace s gid q { r with reservers := ys }).block b).gid = gid := by
    rw [State.block, runs.blocks]; exact own
  have race' := (raceOf_of_gid own').trans (raceAt_setRace race { r with reservers := ys })
  have run : grantWaiting s gid q false (raceReq b w kd) =
      wakeRace (grantSlot (setRace s gid q { r with reservers := ys }) b w q kd false) b w q kd false (passRace b w) := by
    have erased : r.reservers.erase (raceReq b w kd) = ys := by rw [queue, List.erase_cons_head]
    unfold grantWaiting
    simp only [reqParts_raceReq small, known, acquires, Nat.not_le.mpr room, decide_false, Bool.not_true, Bool.or_self,
      Bool.false_eq_true, if_false, erased]
  have woken := wakeRace_threadsOnly (grantSlot (setRace s gid q { r with reservers := ys }) b w q kd false) b w q kd false
  have given := grantSlot_given (w := w) race' kd false
  have held : (setRace s gid q { r with reservers := ys }).weft b w = s.weft b w := by rw [State.weft, runs.wefts]; rfl
  refine ⟨?_, ?_, ?_⟩
  · rw [run, woken.field (fun t => raceAt t gid q) fun _ => rfl, grantSlot_eq race', own',
      noteGrant_of_no_book ((setRace_book s gid q _).trans book)]
    rw [raceAt, State.grid, (acquire_cached _ _ _).grids]
    exact raceAt_setRace (raceAt_setRace race _) _
  · rw [run, woken.field State.weft fun _ => rfl, given.slots, held]
    rfl
  · rw [run, woken.field State.weft fun _ => rfl, given.pair]
    rfl

theorem Race.served_waits (r : Race) (b w : Nat) (ys : List (Nat × Nat)) (full : r.canReceive = false) :
    (r.served b w ys).canReceive = false := by
  change (match Sp.find? (Sp.put r.slot r.rp _) r.cp with | some x => x.sst == .committed | none => false) = false
  rw [Sp.find_put]
  by_cases same : r.cp = r.rp
  · rw [if_pos same]; rfl
  · rw [if_neg same]; exact full

theorem raceGrant_reserves (own : (s.block b).gid = gid) (race : raceAt s gid q = some r) (book : (s.grid gid).book = none)
    (opened : r.rst = .opened) (free : r.canReserve = true) (full : r.canReceive = false)
    (queue : r.reservers = raceReq b w kd :: ys) (small : w < 128) (room : (s.weft b w).slots.length < 8)
    (acquires : raceAcquires s r (s.block b).core = true) :
    exec (.raceGrant gid q) s = .next (grantWaiting s gid q false (raceReq b w kd)) := by
  obtain ⟨after, -, -⟩ := grantWaiting_reserves own race book queue small room acquires
  have none' : unservedOf s gid q r = none := by
    rw [unservedOf, unserved_of_no_book book, unserved_of_no_book book, ite_self]; rfl
  have first : nextRequest s gid q [0] r.reservers = some (raceReq b w kd) := by
    rw [nextRequest, nextGrant_of_no_book book, queue]; rfl
  rw [raceAt] at race after
  change execRaceGrant gid q s = _
  unfold execRaceGrant
  simp only [race, none', opened, free, first, after, Race.served_waits r b w ys full, if_true, Bool.false_eq_true, if_false]
  exact if_neg (by
    change ¬ ((r.served b w ys).eos || r.rst == .abandoned) = true
    simp [Race.eos, Race.served, Race.granted, opened])

end

end Sys2Proof.Machine
end

section
/-!
The ends of slots, and the millwright: samples, steps and moves (R329, R336 to R338).
-/
namespace Sys2Proof.Machine
open Sys2Proof

/-! ## The ends of the parts of wefts in slots (R329) -/

section
variable {s u : State} {gid q i id : Nat} {o : MemOp} {r : Race}

theorem setRace_ops (s : State) (gid q : Nat) (r : Race) : (setRace s gid q r).ops = s.ops := by
  unfold setRace
  split <;> rfl

/-- The race as a weft's part in a slot of it ends. -/
def Race.slotEnded (r : Race) (i : Nat) (commit : Bool) (o : MemOp) : Race :=
  if commit && r.rst != .abandoned then { r with slot := Sp.put r.slot i { sst := .committed, blk := o.blk, weft := o.weft } }
  else ({ r with slot := Sp.del r.slot i } : Race).normal

theorem Race.normal_slot (r : Race) : r.normal.slot = r.slot := by
  unfold Race.normal
  split <;> rfl

theorem Race.slotEnded_commit (opened : r.rst = .opened) : Sp.find? (r.slotEnded i true o).slot i =
    some { sst := .committed, blk := o.blk, weft := o.weft } := by
  rw [Race.slotEnded, if_pos (by rw [opened]; rfl)]
  exact Sp.find_put_same _ _ _

theorem Race.slotEnded_release : Sp.find? (r.slotEnded i false o).slot i = none := by
  rw [Race.slotEnded, if_neg (by simp), Race.normal_slot]
  exact Sp.find_del_same _ _

theorem endSlot_ends (own : (s.block o.blk).gid = gid) (race : raceAt s gid q = some r)
    (released : opRelease s id o (effScope r o.core) = .ok u) (grids : u.grids = s.grids) (blocks : u.blocks = s.blocks)
    (commit : Bool) :
    (endSlot s id o q i commit).op? id = none ∧ raceAt (endSlot s id o q i commit) gid q = some (r.slotEnded i commit o) := by
  have known : raceOf s o.blk q = some r := (raceOf_of_gid own).trans race
  have own' : (u.block o.blk).gid = gid := by rw [State.block, blocks]; exact own
  have race' : raceAt u gid q = some r := by rw [raceAt, State.grid, grids]; exact race
  have known' : raceOf u o.blk q = some r := (raceOf_of_gid own').trans race'
  have run : endSlot s id o q i commit = setRace (u.dropOp id) gid q (r.slotEnded i commit o) := by
    unfold endSlot
    simp only [known, Option.map_some, Option.getD_some, released, known', own']
    rfl
  rw [run]
  refine ⟨?_, raceAt_setRace (s := u.dropOp id) race' _⟩
  rw [State.op?, setRace_ops]
  exact Sp.find_del_same _ _

theorem commitComplete_commits (named : s.op? id = some o) (own : (s.block o.blk).gid = gid) (race : raceAt s gid q = some r)
    (opened : r.rst = .opened) (released : opRelease s id o (effScope r o.core) = .ok u) (grids : u.grids = s.grids)
    (blocks : u.blocks = s.blocks) (kind : o.kind = .commit q i) :
    ∃ t y, exec (.commitComplete id) s = .next t ∧ t.op? id = none ∧ raceAt t gid q = some y ∧
      Sp.find? y.slot i = some { sst := .committed, blk := o.blk, weft := o.weft } := by
  obtain ⟨gone, at'⟩ := endSlot_ends (i := i) own race released grids blocks true
  refine ⟨_, _, ?_, gone, at', Race.slotEnded_commit opened⟩
  change execCommitComplete id s = _
  simp only [execCommitComplete, named, kind]

theorem releaseComplete_frees (named : s.op? id = some o) (own : (s.block o.blk).gid = gid) (race : raceAt s gid q = some r)
    (released : opRelease s id o (effScope r o.core) = .ok u) (grids : u.grids = s.grids)
    (blocks : u.blocks = s.blocks) (kind : o.kind = .relSlot q i) :
    ∃ t y, exec (.releaseComplete id) s = .next t ∧ t.op? id = none ∧ raceAt t gid q = some y ∧ Sp.find? y.slot i = none := by
  obtain ⟨gone, at'⟩ := endSlot_ends (i := i) own race released grids blocks false
  refine ⟨_, _, ?_, gone, at', Race.slotEnded_release⟩
  change execReleaseComplete id s = _
  simp only [execReleaseComplete, named, kind]

end

/-! ## Samples and steps (R336, R337) -/

/-- The end of an interval is counted, and its samples are spent. -/
theorem millwright_ends (s : State) (gid : Nat) (m : Mill) (d src interval : Nat) : ∃ y, ((millwright s gid m d src interval).grid gid).mill = some y ∧
    Sp.get 0 y.intervals d = Sp.get 0 m.intervals d + 1 ∧ Sp.find? y.samples d = none ∧ y.count = m.count := by
  unfold millwright
  dsimp only
  rw [State.grid_setGrid_same]
  exact ⟨_, rfl, Sp.get_put_same _ _ _ _, Sp.find_del_same _ _, rfl⟩

section
variable {s : State} {gid : Nat} {g : Grid} {m : Mill} (grid : s.grid gid = g) (mill : g.mill = some m)
include grid mill

theorem occSample_samples {d q : Nat} {r : Race} (race : m.races[q]? = some r) (decides : m.decider d = true)
    (going : g.complete = false) : exec (.occSample gid q d) s = .next (s.setGrid gid { g with mill := some { m with
      samples := Sp.put m.samples d (Sp.put (Sp.get [] m.samples d) q r.slot.length) } }) := by
  change execOccSample gid q d s = _
  unfold execOccSample
  simp only [grid, mill, race, decides, going, Bool.not_true, Bool.or_self, Bool.false_eq_true, if_false]

theorem millwrightStep_steps {d : Nat} (domain : d < 64) (decides : m.decider d = true) (going : g.complete = false)
    (asked : sampled m d = true) :
    exec (.millwrightStep gid d) s = .next (millwright s gid m d d (Sp.get 0 m.intervals d)) := by
  change execMillwrightStep gid d s = _
  unfold execMillwrightStep
  simp only [grid, mill, ge_iff_le, Nat.not_le.mpr domain, decide_false, decides, going, asked, Bool.not_true, Bool.or_self,
    Bool.false_eq_true, if_false]

theorem waferMillwrightStep_steps (started : m.started = true) (going : g.complete = false) (asked : sampled m 64 = true)
    (due : Sp.get 0 m.intervals 64 < Sp.get 0 m.intervals m.lead / 16) :
    exec (.waferMillwrightStep gid) s =
      .next (millwright s gid m 64 m.lead (Sp.get 0 m.intervals 64 * 16 + 15)) := by
  change execWaferMillwrightStep gid s = _
  unfold execWaferMillwrightStep
  simp only [grid, mill, started, going, asked, Nat.not_le.mpr due, decide_false, Bool.not_true, Bool.or_self, Bool.false_eq_true,
    if_false]

end

/-! ## Moves (R338) -/

/-- A core that has nothing left changes no count of cores and no move of any mill. -/
theorem settleCore_mill (s : State) (core gid : Nat) {m : Mill} (mill : (s.grid gid).mill = some m) :
    ∃ y, ((settleCore s core).grid gid).mill = some y ∧ y.moves = m.moves ∧ y.count = m.count := by
  have same : ∃ y, (s.grid gid).mill = some y ∧ y.moves = m.moves ∧ y.count = m.count := ⟨m, mill, rfl, rfl⟩
  unfold settleCore
  split
  · exact same
  · next g st named =>
    split
    · exact same
    · next n own =>
      split
      · exact same
      · split
        · by_cases this : gid = g
          · subst this
            rw [State.grid_setGrid_same]
            rw [mill] at own
            cases own
            exact ⟨_, rfl, rfl, rfl⟩
          · rw [State.grid_setGrid, if_neg this]
            exact same
        · exact same

/-- A mill as a move is applied: a core of the donor departs for the bottleneck. -/
def Mill.moved (m : Mill) (v : Move) (vs : List Move) : Mill :=
  { m with
    moves := vs
    count := (m.count.set v.donor (m.count.getD v.donor 0 - 1)).set v.bneck (m.count.getD v.bneck 0 + 1)
    departing := Sp.put m.departing v.core v.bneck
    mover := Sp.put m.mover v.core (if v.wafer then 64 else v.src) }

section
variable {s : State} {gid : Nat} {g : Grid} {m : Mill} {v : Move} {vs : List Move}

theorem moveApply_applies (grid : s.grid gid = g) (mill : g.mill = some m) (first : m.moves = v :: vs) (book : g.book = none)
    (spare : m.minc.getD v.donor 0 < m.count.getD v.donor 0) (wants : m.count.getD v.bneck 0 < m.maxc.getD v.bneck 0)
    (serves : Sp.find? m.held v.core = some v.donor) (stays : Sp.find? m.departing v.core = none) :
    exec (.moveApply gid) s = .next (settleCore (s.setGrid gid { g with mill := some (m.moved v vs) }) v.core) := by
  have unbooked : ((s.setGrid gid { g with mill := some (m.moved v vs) }).grid gid).book = none := by
    rw [State.grid_setGrid_same, book]
  change execMoveApply gid s = _
  unfold execMoveApply
  simp only [grid, mill, first]
  refine (if_neg (by simpa [serves, stays] using ⟨spare, wants⟩)).trans ?_
  change Host.Outcome.next (settleCore (match bookNext (s.setGrid gid { g with mill := some (m.moved v vs) }) gid _ with
    | some (some r) => bookUse (s.setGrid gid { g with mill := some (m.moved v vs) }) gid r
    | _ => logDecision (s.setGrid gid { g with mill := some (m.moved v vs) }) gid 2 _ 0xFF _) v.core) = _
  rw [bookNext_of_no_book unbooked, logDecision_of_no_book unbooked]

theorem Mill.moved_counts (apart : v.donor ≠ v.bneck) (donor : v.donor < m.count.length) (bneck : v.bneck < m.count.length) :
    (m.moved v vs).count.getD v.donor 0 = m.count.getD v.donor 0 - 1 ∧
      (m.moved v vs).count.getD v.bneck 0 = m.count.getD v.bneck 0 + 1 := by
  constructor
  · change ((m.count.set v.donor _).set v.bneck _).getD v.donor 0 = _
    rw [List.getD_eq_getElem?_getD, List.getElem?_set_ne apart.symm, List.getElem?_set_self donor]
    rfl
  · change ((m.count.set v.donor _).set v.bneck _).getD v.bneck 0 = _
    rw [List.getD_eq_getElem?_getD, List.getElem?_set_self (by rw [List.length_set]; exact bneck)]
    rfl

end

end Sys2Proof.Machine
end

section
/-!
Rounds and trees of collectives; the steps of mills (R317 to R339, R447 to R450, R456).
-/
namespace Sys2Proof.Machine
open Sys2Proof

/-! ## Rounds (R449) -/

section
variable {s : State} {gid n r q id : Nat} {g : Grid} {x : Group} {rd : Round} {o : MemOp}

/-- The one round of the one WRED under way reaches its member. -/
theorem wredRoundResult_delivers (grid : s.grid gid = g) (group : Sp.find? g.groups n = some x) (round : Sp.find? x.rounds r = some rd)
    (ends : rd.ready s x.count = true ∨ rd.lost = true) (only : s.ops = [(id, o)]) (own : (s.block o.blk).gid = gid)
    (kind : o.kind = .wred n r q) :
    exec (.wredRoundResult gid n r q) s = .next (deliverRound s gid n r q id o x rd) := by
  have named : List.find? (fun (e : Nat × MemOp) => (s.block e.2.blk).gid == gid && e.2.kind == .wred n r q) s.ops =
      some (id, o) := by
    rw [only, List.find?_cons_of_pos (by simp [own, kind])]
  have comes : (rd.lost || rd.ready s x.count) = true := by
    rcases ends with ready | lost
    · rw [ready, Bool.or_true]
    · rw [lost, Bool.true_or]
  change execWredRoundResult gid n r q s = _
  unfold execWredRoundResult
  simp only [grid, group, round, named, comes, if_true]

theorem deliverRound_tells (grid : s.grid gid = g) (first : q ∉ rd.told) {u : State}
    (put : devPut s g.vi g.asn (x.statva + 4 * q) 4 (r % 2 ^ 24 * 256 + rd.status) = .ok u) :
    deliverRound s gid n r q id o x rd = putRound u gid n r x { rd with told := rd.told ++ [q] } := by
  have unknown : rd.told.contains q = false := by
    rw [Bool.eq_false_iff, ne_eq, List.contains_iff_mem]; exact first
  unfold deliverRound
  simp only [unknown, grid, put, Bool.not_false, if_true]

/-- The value of a round that is good reaches the one lane of its member. -/
theorem deliverRound_gives (told : q ∈ rd.told) (ready : acquireReady s (domOf (s.block o.blk).core) .waf = true)
    (good : rd.status = 0) {a : LaneAcc} (lane : o.lanes = [a]) {op : RedOp} {ty : RedType} (isOp : RedOp.ofCode rd.op = some op)
    (isTy : RedType.ofCode rd.ty = some ty) :
    (deliverRound s gid n r q id o x rd).op? id = none ∧
      (deliverRound s gid n r q id o x rd).thread o.blk o.weft a.lane =
        takeResult (s.thread o.blk o.weft a.lane) o.acc.dest (ty == .f64) (rd.value op ty x.count) := by
  have known : rd.told.contains q = true := List.contains_iff_mem.mpr told
  have run : deliverRound s gid n r q id o x rd = (putRound ((acquire s (s.block o.blk).core .waf).setThread o.blk o.weft a.lane
      (takeResult ((acquire s (s.block o.blk).core .waf).thread o.blk o.weft a.lane) o.acc.dest (ty == .f64)
        (rd.value op ty x.count))) gid n r x { rd with left := true }).dropOp id := by
    unfold deliverRound
    simp only [known, ready, good, lane, isOp, isTy, Bool.not_true, Bool.false_eq_true, if_false, List.foldl_cons, List.foldl_nil]
  rw [run]
  refine ⟨(State.op_dropOp _ _ _).trans (if_pos rfl), ?_⟩
  refine (State.thread_setThread_same _ _ _ _ _).trans ?_
  rw [State.thread, (acquire_cached _ _ _).threads, State.thread]

end

/-! ## Trees (R456) -/

theorem treeGrow_congr {u v : State} (h : linkDown v = linkDown u) (doms : List Nat) (front tree : List (Nat × Nat)) :
    treeGrow v doms tree front = treeGrow u doms tree front := by
  induction front generalizing tree with
  | nil => rfl
  | cons e front ih => rw [treeGrow, treeGrow, h, ih]

theorem treeFrom_congr {u v : State} (h : linkDown v = linkDown u) (doms : List Nat) (n : Nat) (tree front : List (Nat × Nat)) :
    treeFrom v doms n tree front = treeFrom u doms n tree front := by
  induction n generalizing tree front with
  | zero => rfl
  | succ n ih => rw [treeFrom, treeFrom, treeGrow_congr h, ih]

theorem linkDown_setCtree (s : State) (d vi : Nat) (m : Memory) : linkDown (s.setCtree d vi m) = linkDown s := by
  have down : ∀ c, ((s.setCtree d vi m).domain c).down = (s.domain c).down := fun c => by
    rw [State.setCtree, State.domain_setDomain]
    split
    · next same => rw [same]
    · rfl
  funext c p
  unfold linkDown
  rw [down]
  cases neighbour c p with
  | none => rfl
  | some e => exact congrArg (fun x : Nat => _ || x.testBit _) (down e)

/-- The tree of a group is built from the domain whose window is written. -/
theorem ctreeBuild_builds {s : State} {gid d dom : Nat} {g : Grid} (only : s.grids = [(gid, g)]) (going : g.complete = false)
    (root : s.physDomain g.vi d = some dom) (n : Nat) :
    ∃ t, exec (.ctreeBuild g.vi g.ident n d) s = .next t ∧
      Sp.find? (t.domain dom).ctree g.vi = some (((Memory.write [] 0 8 g.ident).write 8 1 n).write 9 1 d) ∧
      Sp.find? (t.grid gid).trees (n % 16) = some (treeFrom s (s.domsOf g.vi) 64 [(dom, dom)] [(dom, dom)]) := by
  have named : List.find? (fun (e : Nat × Grid) => e.2.vi == g.vi && e.2.ident == g.ident && !e.2.complete) s.grids =
      some (gid, g) := by
    rw [only, List.find?_cons_of_pos (by simp [going])]
  refine ⟨buildTree (s.setCtree dom g.vi (((Memory.write [] 0 8 g.ident).write 8 1 n).write 9 1 d)) g.vi g.ident n d, ?_, ?_⟩
  · change execCtreeBuild g.vi g.ident n d s = _
    unfold execCtreeBuild
    rw [root]
  generalize ((Memory.write [] 0 8 g.ident).write 8 1 n).write 9 1 d = m
  have named' : List.find? (fun (e : Nat × Grid) => e.2.vi == g.vi && e.2.ident == g.ident && !e.2.complete)
      (s.setCtree dom g.vi m).grids = some (gid, g) := named
  have root' : (s.setCtree dom g.vi m).physDomain g.vi d = some dom := root
  unfold buildTree
  rw [named', root']
  dsimp only
  rw [treeFrom_congr (linkDown_setCtree s dom g.vi m), State.grid_setGrid_same]
  refine ⟨?_, Sp.find_put_same _ _ _⟩
  refine (congrArg (fun x : Domain => Sp.find? x.ctree g.vi) (State.domain_setDomain_same s dom _)).trans ?_
  exact Sp.find_put_same _ _ _

/-! ## The obligation -/

/-- Settles O49: the start of a mill deals out the cores that it found, since the race regions that it takes tell nothing
of them; every other step is by the lemma of its operation. -/
theorem millSteps : Obligations.MillSteps := by
  unfold Obligations.MillSteps
  intro s gid d q core g m grid mill
  refine ⟨?_, ?_, ?_, ?_, ?_, ?_, ?_, ?_, ?_, ?_, ?_, ?_, ?_⟩
  · intro waits live only free book enough
    obtain ⟨held, deals⟩ := dealCores_of_no_book (s := s) (gid := gid) (by rw [grid, book]) enough
    refine ⟨_, m.begun held _, millStart_starts grid mill waits live only free deals, ?_, rfl, rfl, fun r among => ?_⟩
    · rw [State.grid_setGrid_same]
    · exact (takeRegions_region gid m.homes s r.home).trans (if_pos (Mill.mem_homes among))
  · intro held count waits live only free deals
    refine ⟨_, m.begun held count, millStart_starts grid mill waits live only free deals, ?_, rfl, rfl, rfl⟩
    rw [State.grid_setGrid_same]
  · intro st book started going live wants first stage
    refine ⟨_, m.joined core st, millCoreJoin_joins grid mill book started going live wants first stage, ?_,
      Sp.find_put_same _ _ _, rfl⟩
    rw [State.grid_setGrid_same]
  · intro r b w kd ys race book opened free full _ _ queue small own room acquires
    have race' : raceAt s gid q = some r := by rw [raceAt, grid, mill]; exact race
    have book' : (s.grid gid).book = none := by rw [grid, book]
    obtain ⟨at', slots, pair⟩ := grantWaiting_reserves own race' book' queue small room acquires
    exact ⟨_, _, raceGrant_reserves own race' book' opened free full queue small room acquires, at', Sp.find_put_same _ _ _,
      rfl, rfl, slots, pair⟩
  · intro id o i r u named own race opened released grids blocks
    have race' : raceAt s gid q = some r := by rw [raceAt, grid, mill]; exact race
    exact ⟨fun kind => commitComplete_commits named own race' opened released grids blocks kind,
      fun kind => releaseComplete_frees named own race' released grids blocks kind⟩
  · intro bk going ended met book
    exact exec_millComplete_of_book grid mill going ended met (by simp only [endBook, grid, book])
  · exact fun u going ended met book written released => millComplete_completes grid mill going ended met book written released
  · intro r race decides going
    refine ⟨_, _, occSample_samples grid mill race decides going, by rw [State.grid_setGrid_same], ?_⟩
    change Sp.find? (Sp.get [] (Sp.put m.samples d _) d) q = _
    rw [Sp.get_put_same, Sp.find_put_same]
  · intro domain decides going asked
    obtain ⟨y, at', intervals, samples, count⟩ := millwright_ends s gid m d d (Sp.get 0 m.intervals d)
    exact ⟨_, y, millwrightStep_steps grid mill domain decides going asked, at', intervals, samples, count⟩
  · intro started going asked due
    obtain ⟨y, at', intervals, -, count⟩ := millwright_ends s gid m 64 m.lead (Sp.get 0 m.intervals 64 * 16 + 15)
    exact ⟨_, y, waferMillwrightStep_steps grid mill started going asked due, at', intervals, count⟩
  · intro v vs first book apart donor bneck spare wants serves stays
    obtain ⟨y, at', moves, count⟩ := settleCore_mill (s.setGrid gid { g with mill := some (m.moved v vs) }) v.core gid
      (m := m.moved v vs) (by rw [State.grid_setGrid_same])
    refine ⟨_, y, moveApply_applies grid mill first book spare wants serves stays, at', moves, ?_⟩
    rw [count]
    exact Mill.moved_counts apart donor bneck
  · intro x rd n r id o group round ends only own kind
    have run := wredRoundResult_delivers grid group round ends only own kind
    refine ⟨fun u first put => run.trans (congrArg _ (deliverRound_tells grid first put)), ?_⟩
    exact fun a op ty told ready good lane isOp isTy => ⟨_, run, deliverRound_gives told ready good lane isOp isTy⟩
  · exact fun n dom _ only going root => ctreeBuild_builds only going root n

end Sys2Proof.Machine
end

section
/-!
Links, and the orrery entries that report them (R395, R418, R430 to R432).
-/
namespace Sys2Proof.Machine
open Sys2Proof

/-! ## What it changes to write an orrery entry (R430 to R432) -/

/-- `v` holds what `u` holds in every field but the host's, the count of corrected errors of domains, and the free
values: what the steward changes as it writes an entry. -/
structure EntryOnly (u v : State) : Prop where
  rest : { v with vis := [], queues := [], waiters := [], cycle := {}, domains := [], free := 0 } =
    { u with vis := [], queues := [], waiters := [], cycle := {}, domains := [], free := 0 }
  domain : ∀ c, { v.domain c with corrected := 0 } = { u.domain c with corrected := 0 }

namespace EntryOnly
variable {u v w : State}

theorem refl (u : State) : EntryOnly u u := ⟨rfl, fun _ => rfl⟩
theorem trans (h : EntryOnly u v) (h' : EntryOnly v w) : EntryOnly u w :=
  ⟨h'.rest.trans h.rest, fun c => (h'.domain c).trans (h.domain c)⟩

/-- Any other field is the same in both. -/
theorem field (h : EntryOnly u v) {α : Sort*} (f : State → α)
    (hf : ∀ s : State, f { s with vis := [], queues := [], waiters := [], cycle := {}, domains := [], free := 0 } = f s) :
    f v = f u := by rw [← hf v, ← hf u, h.rest]

/-- So is any other field of a domain. -/
theorem of_domain (h : EntryOnly u v) (c : Nat) {α : Sort*} (f : Domain → α) (hf : ∀ x : Domain, f { x with corrected := 0 } = f x) :
    f (v.domain c) = f (u.domain c) := by rw [← hf (v.domain c), ← hf (u.domain c), h.domain c]

end EntryOnly

theorem HostOnly.entry {u v : State} (h : HostOnly u v) : EntryOnly u v :=
  ⟨h.field (fun s => { s with vis := [], queues := [], waiters := [], cycle := {}, domains := [], free := 0 }) fun _ => rfl,
    fun c => by rw [h.field (fun s => s.domain c) fun _ => rfl]⟩

theorem refreshOrrery_entryOnly (s : State) (d : Nat) : EntryOnly s (refreshOrrery s d) := by
  have counted : EntryOnly s (countCorrected s d) := by
    refine ⟨rfl, fun c => ?_⟩
    unfold countCorrected
    dsimp only
    rw [State.domain_setDomain]
    split
    · next same => rw [same]; rfl
    · rfl
  rw [refreshOrrery]
  exact counted.trans (foldl_hostOnly _ (fun t _ => changeOrrery_hostOnly t _ _ _ _) _ _).entry

theorem refreshLink_entryOnly (s : State) (d p : Nat) : EntryOnly s (refreshLink s d p) := by
  unfold refreshLink
  split
  · exact (refreshOrrery_entryOnly s d).trans (refreshOrrery_entryOnly _ _)
  · exact refreshOrrery_entryOnly s d

/-- `v` has the packets, the drain and the operations of `u`. -/
structure TrafficKept (u v : State) : Prop where
  packets : v.packets = u.packets
  drain : v.drain = u.drain
  ops : v.ops = u.ops

theorem TrafficKept.trans {u v w : State} (h : TrafficKept u v) (h' : TrafficKept v w) : TrafficKept u w :=
  ⟨h'.packets.trans h.packets, h'.drain.trans h.drain, h'.ops.trans h.ops⟩

theorem EntryOnly.traffic {u v : State} (h : EntryOnly u v) : TrafficKept u v :=
  ⟨h.field State.packets fun _ => rfl, h.field State.drain fun _ => rfl, h.field State.ops fun _ => rfl⟩

/-! ## Links (R395, R418) -/

theorem linkOf {d p : Nat} (first : 1 ≤ p) (last : p ≤ 4) : (4 * d + p - 1) / 4 = d ∧ (4 * d + p - 1) % 4 + 1 = p := by omega

theorem testBit_or_shiftLeft_one (m i : Nat) : (m ||| 1 <<< i).testBit i = true := by
  rw [Nat.testBit_or, Nat.one_shiftLeft, Nat.testBit_two_pow_self, Bool.or_true]

/-- A domain with the link at a port marked down. -/
def Domain.markDown (x : Domain) (p : Nat) : Domain := { x with down := x.down ||| 1 <<< (p - 1) }

/-- A link marked down at both its ends. -/
def markLink (s : State) (d p n : Nat) : State :=
  let u := s.setDomain d { (s.domain d).markDown p with retries := Sp.del (s.domain d).retries p }
  u.setDomain n ((u.domain n).markDown (opposite p))

section
variable {s : State} {d n p : Nat} (link : neighbour d p = some n)
include link

theorem takeDown_eq : takeDown s d p = refreshLink (breakLink (markLink s d p n) d n) d p := by
  simp only [takeDown, link]
  rfl

/-- A link is down as both its ends mark it. -/
theorem takeDown_down : ((takeDown s d p).domain d).down.testBit (p - 1) = true ∧
    ((takeDown s d p).domain n).down.testBit (opposite p - 1) = true := by
  have entry := refreshLink_entryOnly (breakLink (markLink s d p n) d n) d p
  rw [takeDown_eq link, entry.of_domain d (fun x => x.down) fun _ => rfl, entry.of_domain n (fun x => x.down) fun _ => rfl]
  change ((markLink s d p n).domain d).down.testBit _ = true ∧ ((markLink s d p n).domain n).down.testBit _ = true
  rw [markLink, State.domain_setDomain_same, State.domain_setDomain]
  refine ⟨?_, testBit_or_shiftLeft_one _ _⟩
  split
  · next same =>
    rw [← same, State.domain_setDomain_same, Domain.markDown, Nat.testBit_or]
    exact Bool.or_eq_true_iff.mpr (.inl (testBit_or_shiftLeft_one _ _))
  · rw [State.domain_setDomain_same]
    exact testBit_or_shiftLeft_one _ _

/-- A link that is taken down loses no packet by itself. -/
theorem takeDown_traffic : TrafficKept s (takeDown s d p) := by
  rw [takeDown_eq link]
  exact TrafficKept.trans (v := breakLink (markLink s d p n) d n) ⟨rfl, rfl, rfl⟩ (refreshLink_entryOnly _ d p).traffic

theorem linkTakeDown_takesDown (first : 1 ≤ p) (last : p ≤ 4) :
    ∃ t, exec (.linkTakeDown (4 * d + p - 1)) s = .next t ∧ (t.domain d).down.testBit (p - 1) = true ∧
      (t.domain n).down.testBit (opposite p - 1) = true ∧ t.packets = s.packets := by
  obtain ⟨dom, port⟩ := linkOf (d := d) first last
  refine ⟨takeDown s d p, ?_, (takeDown_down link).1, (takeDown_down link).2, (takeDown_traffic link).packets⟩
  change execLinkTakeDown _ s = _
  rw [execLinkTakeDown, dom, port]

end

/-! ## A flit that fails its CRC (R395, R434) -/

section
variable {s : State} {d n p id : Nat} (first : 1 ≤ p) (last : p ≤ 4)
include first last

theorem linkCrcFail_ignored (still : linkDown s d p = true ∨ linkPaused s d p = true) :
    exec (.linkCrcFail (4 * d + p - 1) id) s = .next s := by
  obtain ⟨dom, port⟩ := linkOf (d := d) first last
  change execLinkCrcFail _ _ s = _
  unfold execLinkCrcFail
  simp only [dom, port]
  rw [if_pos (by rcases still with h | h <;> simp [h])]

/-- A domain that has retried a flit at a port once more. -/
def Domain.retried (x : Domain) (p : Nat) : Domain :=
  { x with retries := Sp.put x.retries p (Sp.get 0 x.retries p + 1), degraded := x.degraded ||| 1 <<< (p - 1) }

variable (runs : linkDown s d p = false) (open' : linkPaused s d p = false)
include runs open'

theorem linkCrcFail_retries (few : Sp.get 0 (s.domain d).retries p < 16) :
    exec (.linkCrcFail (4 * d + p - 1) id) s = .next (refreshLink (s.setDomain d ((s.domain d).retried p)) d p) := by
  obtain ⟨dom, port⟩ := linkOf (d := d) first last
  change execLinkCrcFail _ _ s = _
  unfold execLinkCrcFail
  simp only [dom, port]
  rw [if_neg (by simp [runs, open']), if_pos few]
  rfl

/-- After the last retry the link is down, and the packet that crosses it lost. -/
theorem linkCrcFail_takesDown (many : 16 ≤ Sp.get 0 (s.domain d).retries p) :
    exec (.linkCrcFail (4 * d + p - 1) id) s =
      .next (if (Sp.find? s.packets id).any (fun x => x.here == d && x.out s == some p) then losePacket (takeDown s d p) id
        else takeDown s d p) := by
  obtain ⟨dom, port⟩ := linkOf (d := d) first last
  change execLinkCrcFail _ _ s = _
  unfold execLinkCrcFail
  simp only [dom, port]
  rw [if_neg (by simp [runs, open']), if_neg (Nat.not_lt.mpr many)]

end

/-! ## A packet that is lost (R395, R422) -/

/-- `v` has the domains and the cores of `u`. -/
structure PlacesKept (u v : State) : Prop where
  domains : v.domains = u.domains
  cores : v.cores = u.cores

theorem PlacesKept.refl (u : State) : PlacesKept u u := ⟨rfl, rfl⟩
theorem PlacesKept.trans {u v w : State} (h : PlacesKept u v) (h' : PlacesKept v w) : PlacesKept u w :=
  ⟨h'.domains.trans h.domains, h'.cores.trans h.cores⟩
theorem PlacesKept.domain {u v : State} (h : PlacesKept u v) (d : Nat) : v.domain d = u.domain d := by
  rw [State.domain, h.domains, State.domain]

theorem PlacesKept.ite {u v w : State} {p : Prop} [Decidable p] (h : PlacesKept u v) (h' : PlacesKept u w) :
    PlacesKept u (if p then v else w) := by
  split
  · exact h
  · exact h'

theorem TrapsOnly.places {u v : State} (h : TrapsOnly u v) : PlacesKept u v :=
  ⟨h.field State.domains fun _ => rfl, h.field State.cores fun _ => rfl⟩

theorem setAcc_places (s : State) (id : Nat) (a : LaneAcc) : PlacesKept s (setAcc s id a) := by
  unfold setAcc
  split <;> exact ⟨rfl, rfl⟩

theorem failAcc_places (s : State) (id : Nat) (o : MemOp) (a : LaneAcc) : PlacesKept s (failAcc s id o a) :=
  .ite (setAcc_places s _ _) (.ite (restartStack_trapsOnly s _ _ _).places (setAcc_places s _ _))

theorem accSystemFault_places (s : State) (id : Nat) (o : MemOp) (a : LaneAcc) (c : Cond) :
    PlacesKept s (accSystemFault s id o a c) := by
  have parked : ∀ u : State, PlacesKept u (captureWeft (noteParkOp u o.blk o.weft id) o.blk o.weft) := fun u =>
    PlacesKept.trans (v := noteParkOp u o.blk o.weft id) ⟨rfl, rfl⟩ (captureWeft_trapsOnly _ _ _).places
  have captured : ∀ u : State, PlacesKept u (if (u.weft o.blk o.weft).park.isSome then
      captureWeft (noteParkOp u o.blk o.weft id) o.blk o.weft else u) := fun u => .ite (parked u) (.refl u)
  exact .ite (setAcc_places s _ _)
    (((failAcc_places s id o a).trans (systemFault_trapsOnly _ _ _ _ _ _ _ _ _).places).trans (captured _))

theorem loseTrip_places (s : State) (id lane : Nat) : PlacesKept s (loseTrip s id lane) := by
  unfold loseTrip
  split
  · exact .refl s
  · split
    · exact .refl s
    · exact .ite (setAcc_places s _ _) ((setAcc_places s _ _).trans (accSystemFault_places _ _ _ _ _))

theorem endMessage_places (s : State) (n : Nat) (m : NameMsg) : PlacesKept s (endMessage s n m) :=
  .ite ⟨rfl, rfl⟩ (.ite ⟨rfl, rfl⟩ ⟨rfl, rfl⟩)

theorem dropMessage_places (s : State) (n : Nat) : PlacesKept s (s.dropMessage n) := ⟨rfl, rfl⟩

theorem loseMessage_places (s : State) (n : Nat) (copy : Bool) : PlacesKept s (loseMessage s n copy) := by
  unfold loseMessage
  split
  · exact .refl s
  · exact .ite (endMessage_places _ _ _) (dropMessage_places _ _)

/-- A packet that is lost changes no domain and no core. -/
theorem losePacket_places (s : State) (id : Nat) : PlacesKept s (losePacket s id) := by
  have out : PlacesKept s { s with packets := Sp.del s.packets id } := ⟨rfl, rfl⟩
  unfold losePacket
  split
  · exact .refl s
  · next y _ =>
    dsimp only
    cases y.cargo with
    | access =>
      dsimp only
      split
      · exact out.trans (loseTrip_places _ _ _)
      · exact out
    | message n copy => exact out.trans (loseMessage_places _ _ _)
    | token | part | claim | announce => exact ⟨rfl, rfl⟩

/-- A token that is lost is sent again from where it was. -/
theorem losePacket_token {s : State} {id : Nat} {y : Packet} (held : Sp.find? s.packets id = some y) (token : y.cargo = .token) :
    losePacket s id = { s with packets := Sp.del s.packets id, drain := s.drain.map fun r => { r with moving := false } } := by
  unfold losePacket
  simp only [held, token]

theorem linkSteps {s : State} {d n p id : Nat} (link : neighbour d p = some n) (first : 1 ≤ p) (last : p ≤ 4) :
    (linkDown s d p = true ∨ linkPaused s d p = true → exec (.linkCrcFail (4 * d + p - 1) id) s = .next s) ∧
      (linkDown s d p = false → linkPaused s d p = false → Sp.get 0 (s.domain d).retries p < 16 →
        ∃ t, exec (.linkCrcFail (4 * d + p - 1) id) s = .next t ∧
          Sp.get 0 (t.domain d).retries p = Sp.get 0 (s.domain d).retries p + 1 ∧ (t.domain d).degraded.testBit (p - 1) = true ∧
          (t.domain d).down = (s.domain d).down ∧ t.packets = s.packets) ∧
      (linkDown s d p = false → linkPaused s d p = false → 16 ≤ Sp.get 0 (s.domain d).retries p →
        ∃ t, exec (.linkCrcFail (4 * d + p - 1) id) s = .next t ∧ (t.domain d).down.testBit (p - 1) = true ∧
          (t.domain n).down.testBit (opposite p - 1) = true ∧
          (∀ y, Sp.find? s.packets id = some y → y.cargo = .token → y.here = d → y.out s = some p →
            Sp.find? t.packets id = none ∧ t.drain = s.drain.map fun r => { r with moving := false }) ∧
          (∀ y, Sp.find? s.packets id = some y → y.here ≠ d ∨ y.out s ≠ some p → t.packets = s.packets ∧ t.ops = s.ops)) ∧
      (∃ t, exec (.linkTakeDown (4 * d + p - 1)) s = .next t ∧ (t.domain d).down.testBit (p - 1) = true ∧
        (t.domain n).down.testBit (opposite p - 1) = true ∧ t.packets = s.packets) := by
  have kept := takeDown_traffic (s := s) link
  refine ⟨linkCrcFail_ignored first last, fun runs open' few => ?_, fun runs open' many => ?_, linkTakeDown_takesDown link first last⟩
  · have entry := refreshLink_entryOnly (s.setDomain d ((s.domain d).retried p)) d p
    have put := State.domain_setDomain_same s d ((s.domain d).retried p)
    refine ⟨_, linkCrcFail_retries first last runs open' few, ?_, ?_, ?_, entry.traffic.packets⟩
    · rw [entry.of_domain d (fun x => x.retries) fun _ => rfl, put]
      exact Sp.get_put_same _ _ _ _
    · rw [entry.of_domain d (fun x => x.degraded) fun _ => rfl, put]
      exact testBit_or_shiftLeft_one _ _
    · rw [entry.of_domain d (fun x => x.down) fun _ => rfl, put]
      rfl
  · obtain ⟨near, far⟩ := takeDown_down (s := s) link
    refine ⟨_, linkCrcFail_takesDown first last runs open' many, ?_, ?_, fun y held token here out => ?_, fun y held other => ?_⟩
    · split
      · rw [(losePacket_places _ _).domain]; exact near
      · exact near
    · split
      · rw [(losePacket_places _ _).domain]; exact far
      · exact far
    · rw [held, if_pos (by simp [here, out]), losePacket_token (by rw [kept.packets]; exact held) token, kept.drain]
      exact ⟨Sp.find_del_same _ _, rfl⟩
    · rw [held, if_neg (by rcases other with h | h <;> simp [h])]
      exact ⟨kept.packets, kept.ops⟩

end Sys2Proof.Machine
end

section
/-!
A packet in a router goes on, waits, is delivered or is dropped (R419 to R422, R426, R449, R458).
-/
namespace Sys2Proof.Machine
open Sys2Proof

/-! ## Rounds that a packet's contribution belongs to (R449) -/

/-- A round of a group of a launch, if there is one. -/
def launchRound (s : State) (gid g r : Nat) : Option Round := (Sp.find? (s.grid gid).groups g).bind fun x => Sp.find? x.rounds r

theorem launchRound_mapRounds (s : State) (f : Nat → Nat → Nat → Round → Round) (gid n r : Nat) :
    launchRound (mapRounds s f) gid n r = (launchRound s gid n r).map (f gid n r) := by
  have groups : Sp.find? ((mapRounds s f).grid gid).groups n = (Sp.find? (s.grid gid).groups n).map
      fun (x : Group) => { x with rounds := List.map (fun (e : Nat × Round) => (e.1, f gid n e.1 e.2)) x.rounds } := by
    rw [mapRounds_grid]
    exact Sp.find_mapIdx (fun k (x : Group) => { x with rounds := List.map (fun (e : Nat × Round) => (e.1, f gid k e.1 e.2)) x.rounds }) _ n
  rw [launchRound, groups, launchRound]
  cases Sp.find? (s.grid gid).groups n with
  | none => rfl
  | some x => exact Sp.find_mapIdx (f gid n) _ r

section
variable {s : State} {d id : Nat} {y : Packet} (held : Sp.find? s.packets id = some y) (here : y.here = d)
  (plain : y.source = none) (ready : tableState (s.domain d) y.tbl ≠ 0)
include held here plain ready

/-! ## The way a packet takes (R422, R449) -/

theorem packetForward_climbs {gid g r k : Nat} (part : y.cargo = .part gid g r k) :
    exec (.packetForward d id) s = .next (climbTree s d id y gid g r) := by
  change execPacketForward d id s = _
  unfold execPacketForward
  simp only [held, here, plain, ready, part, ne_eq, not_true_eq_false, if_false]

/-- A packet that is no contribution goes as its table says. -/
theorem packetForward_routes (alone : ∀ gid g r k, y.cargo ≠ .part gid g r k) :
    ∃ out, y.out s = some out ∧ exec (.packetForward d id) s =
      .next (if out = 0 then (if y.mayReach s d then deliverPacket s d id y else dropPacket s d id)
        else sendOut s d id y out) := by
  refine ⟨routeEntry s d y.tbl (routeIndex y.cls y.port y.dest), ?_, ?_⟩
  · unfold Packet.out
    rw [here]
    cases cargo : y.cargo with
    | part gid g r k => exact absurd cargo (alone gid g r k)
    | access | token | message | claim | announce => rfl
  · change execPacketForward d id s = _
    unfold execPacketForward
    simp only [held, here, plain, ready, ne_eq, not_true_eq_false, if_false]
    cases cargo : y.cargo with
    | part gid g r k => exact absurd cargo (alone gid g r k)
    | access | token | message | claim | announce =>
      split
      · next zero => rw [if_pos zero]
      · next other => rw [if_neg other]

theorem packetForward_arrives (alone : ∀ gid g r k, y.cargo ≠ .part gid g r k) (out : y.out s = some 0) :
    exec (.packetForward d id) s = .next (if y.mayReach s d then deliverPacket s d id y else dropPacket s d id) := by
  obtain ⟨o, same, run⟩ := packetForward_routes held here plain ready alone
  rw [out] at same
  cases same
  exact run

/-- Where its table or its tree names a port, a packet is sent out of it. -/
theorem packetForward_sends {p : Nat} (out : y.out s = some p) (port : p ≠ 0)
    (live : ∀ gid g r k, y.cargo = .part gid g r k → (launchRound s gid g r).map Round.lost = some false) :
    exec (.packetForward d id) s = .next (sendOut s d id y p) := by
  by_cases alone : ∀ gid g r k, y.cargo ≠ .part gid g r k
  · obtain ⟨o, same, run⟩ := packetForward_routes held here plain ready alone
    rw [out] at same
    cases same
    rw [run, if_neg port]
  · simp only [ne_eq, not_forall, not_not] at alone
    obtain ⟨gid, g, r, k, part⟩ := alone
    have up : treePort s d gid g r = some p := by
      rw [← out, Packet.out, part, here]
    have going := live gid g r k part
    rw [packetForward_climbs held here plain ready part, climbTree]
    rw [launchRound] at going
    cases round : (Sp.find? (s.grid gid).groups g).bind fun x => Sp.find? x.rounds r with
    | none => rw [round] at going; cases going
    | some rd =>
      rw [round] at going
      have whole : rd.lost = false := Option.some.inj going
      simp only [whole, Bool.false_eq_true, if_false, up]

/-! ## Contributions (R449) -/

section
variable {gid g r k : Nat} {rd : Round} (part : y.cargo = .part gid g r k) (round : launchRound s gid g r = some rd)
include part round

theorem packetForward_gone (lost : rd.lost = true) :
    exec (.packetForward d id) s = .next { s with packets := Sp.del s.packets id } := by
  rw [launchRound] at round
  rw [packetForward_climbs held here plain ready part, climbTree]
  simp only [round, lost, if_true]

theorem packetForward_root (whole : rd.lost = false) (root : treePort s d gid g r = some 0) :
    exec (.packetForward d id) s = .next (setRound { s with packets := Sp.del s.packets id } gid g r
      fun rd => { rd with onWay := rd.onWay.erase k }) := by
  rw [launchRound] at round
  rw [packetForward_climbs held here plain ready part, climbTree]
  simp only [round, whole, Bool.false_eq_true, if_false, root, deliverPacket, part]

theorem packetForward_waits (whole : rd.lost = false) (treeless : treePort s d gid g r = none) :
    exec (.packetForward d id) s = .next s := by
  rw [launchRound] at round
  rw [packetForward_climbs held here plain ready part, climbTree]
  simp only [round, whole, Bool.false_eq_true, if_false, treeless]

end

end

/-! ## Out of a port (R418, R422, R434) -/

section
variable {s : State} {d p n id : Nat} {y : Packet} (link : neighbour d p = some n)
include link

theorem sendOut_down (down : linkDown s d p = true) : sendOut s d id y p = dropPacket s d id := by
  simp only [sendOut, link, down, if_true]

theorem sendOut_paused (up : linkDown s d p = false) (paused : linkPaused s d p = true) : sendOut s d id y p = s := by
  simp only [sendOut, link, up, paused, Bool.false_eq_true, if_false, if_true]

theorem sendOut_sends (up : linkDown s d p = false) (open' : linkPaused s d p = false) :
    (sendOut s d id y p).ops = s.ops ∧
      Sp.find? (sendOut s d id y p).packets id = some { y with here := n, port := opposite p } := by
  simp only [sendOut, link, up, open', Bool.false_eq_true, if_false]
  exact ⟨rfl, Sp.find_put_same _ _ _⟩

end

/-! ## Drops (R422, R424, R426) -/

theorem countDrop_drops (s : State) (d : Nat) : ((countDrop s d).domain d).drops = min 1023 ((s.domain d).drops + 1) := by
  rw [countDrop, State.domain_setDomain_same]

theorem dropPacket_drops (s : State) (d id : Nat) : ((dropPacket s d id).domain d).drops = min 1023 ((s.domain d).drops + 1) := by
  rw [dropPacket, (losePacket_places _ _).domain]
  exact countDrop_drops s d

theorem dropPacket_token {s : State} {id : Nat} {y : Packet} (held : Sp.find? s.packets id = some y) (token : y.cargo = .token)
    (d : Nat) : Sp.find? (dropPacket s d id).packets id = none ∧
      (dropPacket s d id).drain = s.drain.map fun r => { r with moving := false } := by
  rw [dropPacket, losePacket_token (s := countDrop s d) held token]
  exact ⟨Sp.find_del_same _ _, rfl⟩

theorem MemOp.lane_setLane {o : MemOp} {a b : LaneAcc} {l : Nat} (known : o.lane? l = some a) (same : b.lane = a.lane) :
    (o.setLane b).lane? l = some b := by
  have lane : a.lane = l := beq_iff_eq.mp (List.find?_some (p := fun x : LaneAcc => x.lane == l) known)
  unfold MemOp.lane? MemOp.setLane at *
  rw [List.find?_map]
  have pred : ((fun x : LaneAcc => x.lane == l) ∘ fun x => if x.lane == b.lane then b else x) = fun x => x.lane == l := by
    funext x
    simp only [Function.comp_apply]
    split
    · next h => rw [beq_iff_eq] at h; rw [h]
    · rfl
  rw [pred, known, Option.map_some, same, if_pos (beq_self_eq_true _)]

theorem op_setAcc {s : State} {op : Nat} {o : MemOp} (known : s.op? op = some o) (a : LaneAcc) :
    (setAcc s op a).op? op = some (o.setLane a) := by
  simp only [setAcc, known]
  exact Sp.find_put_same _ _ _

/-- An access whose packet is dropped while its weft is parked is lost. -/
theorem dropPacket_access {s : State} {id : Nat} {y : Packet} (held : Sp.find? s.packets id = some y) (access : y.cargo = .access)
    {op l : Nat} {o : MemOp} {a : LaneAcc} (carries : y.carries = some (op, l)) (known : s.op? op = some o)
    (lane : o.lane? l = some a) (parked : (s.weft o.blk o.weft).park.isSome = true) (d : Nat) :
    Sp.find? (dropPacket s d id).packets id = none ∧
      (((dropPacket s d id).op? op).bind fun o => o.lane? l).map LaneAcc.trip = some .lost := by
  have known' : State.op? { countDrop s d with packets := Sp.del s.packets id } op = some o := known
  have run : dropPacket s d id = setAcc { countDrop s d with packets := Sp.del s.packets id } op { a with trip := .lost } := by
    unfold dropPacket losePacket
    rw [show Sp.find? (countDrop s d).packets id = some y from held]
    simp only [access, carries]
    unfold loseTrip
    rw [show State.op? { countDrop s d with packets := Sp.del (countDrop s d).packets id } op = some o from known]
    simp only [lane]
    refine if_pos ?_
    rw [← parked]
    unfold setAcc
    split <;> rfl
  rw [run]
  refine ⟨?_, ?_⟩
  · refine (congrArg (fun m => Sp.find? m id) ?_).trans (Sp.find_del_same s.packets id)
    unfold setAcc
    split <;> rfl
  · rw [op_setAcc known', Option.bind_some, MemOp.lane_setLane lane (by rfl)]
    rfl

end Sys2Proof.Machine
end

section
/-!
What a packet that is delivered leaves; the whole of PACKET_FORWARD (R421, R426, R429).
-/
namespace Sys2Proof.Machine
open Sys2Proof

/-! ## Deliveries (R421, R426, R429) -/

/-- The state without a packet. -/
def takeOut (s : State) (id : Nat) : State := { s with packets := Sp.del s.packets id }

theorem takeOut_packets (s : State) (id : Nat) : Sp.find? (takeOut s id).packets id = none := Sp.find_del_same _ _

section
variable {s : State} {d id : Nat} {y : Packet}

theorem deliverPacket_token (token : y.cargo = .token) : deliverPacket s d id y =
    { takeOut s id with drain := s.drain.map fun r => { r with here := d, moving := false } } := by
  simp only [deliverPacket, token]
  rfl

theorem setAcc_packets (s : State) (op : Nat) (a : LaneAcc) : (setAcc s op a).packets = s.packets := by
  unfold setAcc
  split <;> rfl

/-- The access that a packet carried stands at its home, or is back. -/
theorem deliverPacket_access (access : y.cargo = .access) {op l : Nat} {o : MemOp} {a : LaneAcc}
    (carries : y.carries = some (op, l)) (known : s.op? op = some o) (lane : o.lane? l = some a) :
    Sp.find? (deliverPacket s d id y).packets id = none ∧
      ((deliverPacket s d id y).op? op).bind (fun o => o.lane? l) =
        some { a with trip := if y.kind = 1 then .back else .atHome } := by
  have known' : (takeOut s id).op? op = some o := known
  have run : deliverPacket s d id y =
      setAcc (takeOut s id) op { a with trip := if y.kind = 1 then .back else .atHome } := by
    simp only [deliverPacket, access, carries]
    rw [show State.op? { s with packets := Sp.del s.packets id } op = some o from known, Option.bind_some, lane]
    rfl
  rw [run, setAcc_packets, op_setAcc known', Option.bind_some]
  exact ⟨takeOut_packets s id, MemOp.lane_setLane lane (by rfl)⟩

theorem deliverPacket_announce {src v : Nat} (announce : y.cargo = .announce src v) (done : (s.domain src).rename.claim = none)
    (same : (s.domain src).rename.name = v) : Sp.find? (deliverPacket s d id y).packets id = none ∧
      ((deliverPacket s d id y).domain src).rename.waiting = (s.domain src).rename.waiting.filter (· != d) := by
  have run : deliverPacket s d id y = (takeOut s id).setRename src
      { (s.domain src).rename with waiting := (s.domain src).rename.waiting.filter (· != d) } := by
    simp only [deliverPacket, announce]
    change meetAnnounce (takeOut s id) d src v = _
    unfold meetAnnounce
    change (if (s.domain src).rename.claim.isSome || (s.domain src).rename.name != v then _ else _) = _
    rw [if_neg (by simp [done, same])]
    rfl
  rw [run]
  refine ⟨takeOut_packets s id, ?_⟩
  rw [State.setRename, State.domain_setDomain_same]

/-! ### A claim that meets another -/

/-- What a domain's end of a claim leaves of the renames of others. -/
theorem endClaim_conflict {s : State} {src : Nat} (both : (s.domain src).rename.claim.isSome = true)
    (conflict : (s.domain src).rename.conflict = true) :
    ((endClaim s src).domain src).rename.status = 3 ∧
      ∀ c, c ≠ src → ((endClaim s src).domain c).rename = (s.domain c).rename := by
  have fused : ∀ (u : State) (h c : Nat), ((refreshOrrery (fuseIn u h) (domOf h)).domain c).rename = (u.domain c).rename := by
    intro u h c
    rw [(refreshOrrery_entryOnly _ _).of_domain c (fun x => x.rename) fun _ => rfl, fuseIn, State.domain_setDomain]
    split
    · next same => rw [same]
    · rfl
  obtain ⟨⟨spare, dead⟩, claim⟩ := Option.isSome_iff_exists.mp both
  have put : ∀ r c, ((s.setRename src r).domain c).rename = if c = src then r else (s.domain c).rename := by
    intro r c
    rw [State.setRename, State.domain_setDomain]
    split <;> rfl
  unfold endClaim
  simp only [claim, conflict, if_true]
  cases dead with
  | none =>
    refine ⟨?_, fun c other => ?_⟩
    · rw [put, if_pos rfl]
    · rw [put, if_neg other]
  | some h =>
    refine ⟨?_, fun c other => ?_⟩
    · rw [fused, put, if_pos rfl]
    · rw [fused, put, if_neg other]

/-- The renames of two domains whose claims cross, as one has met the other's. -/
def crossClaims (s : State) (d src : Nat) : State :=
  (s.setRename d { (s.domain d).rename with conflict := true }).setRename src
    { (s.domain src).rename with conflict := true, waiting := (s.domain src).rename.waiting.filter (· != d) }

/-- Two claims of one name that cross both fail. -/
theorem meetClaim_crosses {s : State} {d src v : Nat} (other : src ≠ d) (theirs : (s.domain src).rename.claim ≠ none)
    (name : (s.domain src).rename.name = v) (mine : (s.domain d).rename.claim ≠ none) (name' : (s.domain d).rename.name = v) :
    ((meetClaim s d src v).domain d).rename.conflict = true ∧
      (((meetClaim s d src v).domain src).rename.conflict = true ∨ ((meetClaim s d src v).domain src).rename.status = 3) := by
  have has : (s.domain src).rename.claim.isSome = true := Option.isSome_iff_ne_none.mpr theirs
  have crossing : ((s.domain d).rename.claim.isSome && (s.domain d).rename.name == v) = true := by
    rw [Option.isSome_iff_ne_none.mpr mine, name']; simp
  have run : meetClaim s d src v = if ((s.domain src).rename.waiting.filter (· != d)).isEmpty then
      endClaim (crossClaims s d src) src else crossClaims s d src := by
    unfold meetClaim
    dsimp only
    rw [if_neg (by rw [← Option.not_isSome, has, name]; simp), crossing, if_pos rfl, Bool.or_true, Bool.true_or]
    rfl
  have there : ((crossClaims s d src).domain src).rename =
      { (s.domain src).rename with conflict := true, waiting := (s.domain src).rename.waiting.filter (· != d) } := by
    rw [crossClaims, State.setRename, State.domain_setDomain_same]
  have here : ((crossClaims s d src).domain d).rename.conflict = true := by
    rw [crossClaims, State.setRename, State.domain_setDomain, if_neg other.symm, State.setRename, State.domain_setDomain_same]
  rw [run]
  split
  · obtain ⟨status, others⟩ := endClaim_conflict (s := crossClaims s d src) (src := src) (by rw [there]; exact has)
      (by rw [there])
    exact ⟨by rw [others d other.symm]; exact here, .inr status⟩
  · exact ⟨here, .inl (by rw [there])⟩

theorem deliverPacket_claim {s : State} {d id : Nat} {y : Packet} {src v : Nat} (claim : y.cargo = .claim src v) :
    deliverPacket s d id y = meetClaim (takeOut s id) d src v := by
  simp only [deliverPacket, claim]
  rfl

end

/-! ## PACKET_FORWARD -/

theorem packetSteps {s : State} {d n p v id : Nat} {y : Packet} (held : Sp.find? s.packets id = some y) (here : y.here = d)
    (plain : y.source = none) (ready : tableState (s.domain d) y.tbl ≠ 0) :
    let alone := ∀ gid g r k, y.cargo ≠ .part gid g r k
    let mine := y.out s = some p ∧ p ≠ 0 ∧ neighbour d p = some n ∧
      ∀ gid g r k, y.cargo = .part gid g r k → (launchRound s gid g r).map Round.lost = some false
    let arrives := alone ∧ y.out s = some 0 ∧ y.mayReach s d = true
    (mine → linkDown s d p = false →
      (linkPaused s d p = false →
        ∃ t, exec (.packetForward d id) s = .next t ∧ t.ops = s.ops ∧
          Sp.find? t.packets id = some { y with here := n, port := opposite p }) ∧
      (linkPaused s d p = true → exec (.packetForward d id) s = .next s)) ∧
    (∀ gid g r k rd, y.cargo = .part gid g r k → launchRound s gid g r = some rd →
      (rd.lost = true → ∃ t, exec (.packetForward d id) s = .next t ∧ Sp.find? t.packets id = none ∧ t.grids = s.grids) ∧
      (rd.lost = false → treePort s d gid g r = some 0 →
        ∃ t, exec (.packetForward d id) s = .next t ∧ Sp.find? t.packets id = none ∧
          launchRound t gid g r = some { rd with onWay := rd.onWay.erase k }) ∧
      (rd.lost = false → treePort s d gid g r = none → exec (.packetForward d id) s = .next s)) ∧
    (mine ∧ linkDown s d p = true ∨ alone ∧ y.out s = some 0 ∧ y.mayReach s d = false →
      (∀ op l o a, y.cargo = .access → y.carries = some (op, l) → s.op? op = some o → o.lane? l = some a →
        (s.weft o.blk o.weft).park.isSome = true →
        ∃ t, exec (.packetForward d id) s = .next t ∧ Sp.find? t.packets id = none ∧
          (t.domain d).drops = min 1023 ((s.domain d).drops + 1) ∧
          (((t.op? op).bind fun o => o.lane? l).map LaneAcc.trip) = some .lost) ∧
      (y.cargo = .token →
        ∃ t, exec (.packetForward d id) s = .next t ∧ Sp.find? t.packets id = none ∧
          (t.domain d).drops = min 1023 ((s.domain d).drops + 1) ∧ t.drain = s.drain.map fun r => { r with moving := false })) ∧
    (arrives →
      (∀ op l o a, y.cargo = .access → y.carries = some (op, l) → s.op? op = some o → o.lane? l = some a →
        ∃ t, exec (.packetForward d id) s = .next t ∧ Sp.find? t.packets id = none ∧
          ((t.op? op).bind fun o => o.lane? l) = some { a with trip := if y.kind = 1 then .back else .atHome }) ∧
      (y.cargo = .token →
        ∃ t, exec (.packetForward d id) s = .next t ∧ Sp.find? t.packets id = none ∧
          t.drain = s.drain.map fun r => { r with here := d, moving := false }) ∧
      (∀ src, y.cargo = .announce src v → (s.domain src).rename.claim = none → (s.domain src).rename.name = v →
        ∃ t, exec (.packetForward d id) s = .next t ∧ Sp.find? t.packets id = none ∧
          (t.domain src).rename.waiting = (s.domain src).rename.waiting.filter (· != d)) ∧
      (∀ src, y.cargo = .claim src v → src ≠ d →
        (s.domain src).rename.claim ≠ none → (s.domain src).rename.name = v → (s.domain d).rename.claim ≠ none →
        (s.domain d).rename.name = v →
        ∃ t, exec (.packetForward d id) s = .next t ∧ (t.domain d).rename.conflict = true ∧
          ((t.domain src).rename.conflict = true ∨ (t.domain src).rename.status = 3))) := by
  intro alone mine arrives
  refine ⟨fun ⟨out, port, link, live⟩ up => ?_, fun gid g r k rd part round => ?_, fun lost => ?_, fun ⟨single, out, reach⟩ => ?_⟩
  · have run := packetForward_sends held here plain ready out port live
    refine ⟨fun open' => ⟨_, run, sendOut_sends link up open'⟩, fun paused => run.trans ?_⟩
    rw [sendOut_paused link up paused]
  · refine ⟨fun lost => ⟨_, packetForward_gone held here plain ready part round lost, Sp.find_del_same _ _, rfl⟩,
      fun whole root => ⟨_, packetForward_root held here plain ready part round whole root, Sp.find_del_same _ _, ?_⟩,
      packetForward_waits held here plain ready part round⟩
    have round' : launchRound { s with packets := Sp.del s.packets id } gid g r = some rd := round
    rw [setRound, launchRound_mapRounds, round', Option.map_some, if_pos ⟨rfl, rfl, rfl⟩]
  · have run : exec (.packetForward d id) s = .next (dropPacket s d id) := by
      rcases lost with ⟨⟨out, port, link, live⟩, down⟩ | ⟨single, out, reach⟩
      · rw [packetForward_sends held here plain ready out port live, sendOut_down link down]
      · rw [packetForward_arrives held here plain ready single out, if_neg (by rw [reach]; exact Bool.false_ne_true)]
    refine ⟨fun op l o a access carries known lane parked => ?_, fun token => ?_⟩
    · obtain ⟨gone, trip⟩ := dropPacket_access held access carries known lane parked d
      exact ⟨_, run, gone, dropPacket_drops s d id, trip⟩
    · obtain ⟨gone, drain⟩ := dropPacket_token held token d
      exact ⟨_, run, gone, dropPacket_drops s d id, drain⟩
  · have run := packetForward_arrives held here plain ready single out
    rw [if_pos reach] at run
    refine ⟨fun op l o a access carries known lane => ⟨_, run, deliverPacket_access access carries known lane⟩,
      fun token => ⟨_, run, ?_⟩, fun src announce done same => ⟨_, run, deliverPacket_announce announce done same⟩,
      fun src claim other theirs name mine' name' => ⟨_, run, ?_⟩⟩
    · rw [deliverPacket_token token]
      exact ⟨takeOut_packets s id, rfl⟩
    · rw [deliverPacket_claim claim]
      exact meetClaim_crosses (s := takeOut s id) other theirs name mine' name'

end Sys2Proof.Machine
end

section
/-!
Route tables and their drains, ages, names and clocks; the steps of the mesh (R395, R418 to R429, R433, R434, R460).
-/
namespace Sys2Proof.Machine
open Sys2Proof

/-! ## Route tables (R423 to R426) -/

theorem tableState_setTable (x : Domain) {t : Nat} (st : Nat) : tableState (setTable x t st) t = st := by
  unfold tableState setTable
  split <;> rfl

/-- An entry that is written leaves the domain as it is put, in the fields that it does not count. -/
theorem refreshOrrery_setDomain (s : State) (d : Nat) (x : Domain) {α : Sort*} (f : Domain → α)
    (hf : ∀ y : Domain, f { y with corrected := 0 } = f y) : f ((refreshOrrery (s.setDomain d x) d).domain d) = f x := by
  rw [(refreshOrrery_entryOnly _ d).of_domain d f hf, State.domain_setDomain_same]

/-- Every router's table takes the new state. -/
theorem setTables_state (s : State) (tbl st : Nat) {c : Nat} (among : c < 64) :
    tableState ((setTables s tbl st).domain c) tbl = st := by
  unfold setTables
  refine foldl_reaches (I := fun _ => True) (P := fun t : State => tableState (t.domain c) tbl = st) (fun _ _ h => h)
    (fun t _ => ?_) (fun t d h => ?_) (List.mem_range.mpr among) trivial
  · rw [refreshOrrery_setDomain t c _ (fun x => tableState x tbl) fun _ => rfl, tableState_setTable]
  · rw [(refreshOrrery_entryOnly _ d).of_domain c (fun x => tableState x tbl) fun _ => rfl, State.domain_setDomain]
    split
    · exact tableState_setTable _ _
    · exact h

/-- A drain is no domain's. -/
theorem State.domain_of_drain (u : State) (r : Option Drain) (c : Nat) : State.domain { u with drain := r } c = u.domain c := rfl

section
variable {s : State} {d tbl : Nat} (small : tbl < 2)
include small

theorem rtArm_arms (free : tableState (s.domain d) tbl = 0) (good : turnFailure s d tbl = none) :
    ∃ t, exec (.rtArm d tbl) s = .next t ∧ tableState (t.domain d) tbl = 1 ∧ (t.domain d).rsel = (s.domain d).rsel := by
  have run : exec (.rtArm d tbl) s = .next (refreshOrrery (s.setDomain d (setTable (s.domain d) tbl 1)) d) := by
    change execRtArm d tbl s = _
    unfold execRtArm
    simp only [Nat.mod_eq_of_lt small, free, ne_eq, not_true_eq_false, if_false, good]
  refine ⟨_, run, ?_, ?_⟩
  · rw [refreshOrrery_setDomain s d _ (fun x => tableState x tbl) fun _ => rfl, tableState_setTable]
  · rw [refreshOrrery_setDomain s d _ (fun x => x.rsel) fun _ => rfl]
    unfold setTable
    split <;> rfl

theorem rtSelect_selects (armed : tableState (s.domain d) tbl = 1) :
    ∃ t, exec (.rtSelect d tbl) s = .next t ∧ (t.domain d).rsel = tbl := by
  have run : exec (.rtSelect d tbl) s = .next (refreshOrrery (s.setDomain d { s.domain d with rsel := tbl }) d) := by
    change execRtSelect d tbl s = _
    unfold execRtSelect
    simp only [Nat.mod_eq_of_lt small, armed, if_true]
  exact ⟨_, run, refreshOrrery_setDomain s d _ (fun x => x.rsel) fun _ => rfl⟩

theorem rtDrain_drains (armed : tableState (s.domain d) tbl = 1) (unused : (s.domain d).rsel ≠ tbl) (idle : s.drain = none) :
    exec (.rtDrain d tbl) s = .next { setTables s tbl 2 with drain := some { tbl := tbl, start := d, here := d } } := by
  change execRtDrain d tbl s = _
  unfold execRtDrain
  simp only [Nat.mod_eq_of_lt small]
  exact if_neg (by simp [armed, unused, idle])

end

theorem rtClear_clears (s : State) (d : Nat) : ∃ t, exec (.rtClear d) s = .next t ∧ (t.domain d).drops = 0 ∧
    (t.domain d).armErr = false ∧ (t.domain d).drained = false :=
  ⟨_, rfl, refreshOrrery_setDomain s d _ (fun x => x.drops) fun _ => rfl,
    refreshOrrery_setDomain s d _ (fun x => x.armErr) fun _ => rfl,
    refreshOrrery_setDomain s d _ (fun x => x.drained) fun _ => rfl⟩

/-! ## The token of a drain (R426) -/

section
variable {s : State} {d i : Nat} {r : Drain} (drain : s.drain = some r) (stands : r.moving = false) (here : r.here = d)
  (due : nextVisit s r.at_ = some i)
include drain stands here due

theorem drainTokenVisit_leaves (away : snake i ≠ d) : exec (.drainTokenVisit d) s = .next (sendToken s r (snake i)) := by
  change execDrainTokenVisit d s = _
  unfold execDrainTokenVisit
  simp only [drain, stands, here, ne_eq, not_true_eq_false, decide_false, Bool.or_self, Bool.false_eq_true, if_false, due, away]

theorem drainTokenVisit_visits (home : snake i = d) : exec (.drainTokenVisit d) s = .next (visit s r d i) := by
  change execDrainTokenVisit d s = _
  unfold execDrainTokenVisit
  simp only [drain, stands, here, ne_eq, not_true_eq_false, decide_false, Bool.or_self, Bool.false_eq_true, if_false, due, home,
    if_true]

end

/-- The visit clears DIRTY, and the token keeps what it has read. -/
theorem visit_reads {s : State} {d i : Nat} {r : Drain} (more : nextVisit s (i + 1) ≠ none) :
    ((visit s r d i).domain d).dirty = false ∧ (visit s r d i).drain =
      some { r with clean := r.clean && oldEmpty s d r.tbl && !(s.domain d).dirty, at_ := i + 1 } := by
  have up : ∀ c, ((s.setDomain d { s.domain d with dirty := false }).domain c).st = (s.domain c).st := fun c => by
    rw [State.domain_setDomain]
    split
    · next same => rw [same]
    · rfl
  have next : ∀ r', nextVisit { s.setDomain d { s.domain d with dirty := false } with drain := some r' } (i + 1) =
      nextVisit s (i + 1) := fun r' => by
    unfold nextVisit
    congr 1
    funext j
    rw [← up (snake j)]
    rfl
  have run : visit s r d i = { s.setDomain d { s.domain d with dirty := false } with
      drain := some { r with clean := r.clean && oldEmpty s d r.tbl && !(s.domain d).dirty, at_ := i + 1 } } := by
    unfold visit
    dsimp only
    rw [next]
    exact if_neg (by rw [Option.isNone_iff_eq_none]; exact more)
  rw [run]
  exact ⟨congrArg Domain.dirty (State.domain_setDomain_same s d _), rfl⟩

/-! ## Ages and names (R428, R429) -/

theorem nameAgeTick_ages (s : State) (d : Nat) : ∃ t, exec (.nameAgeTick d) s = .next t ∧ ∀ e, e ∈ (t.domain d).names ↔
    ∃ y ∈ (s.domain d).names, y.2.age < 2 ∧ e = (y.1, { y.2 with age := y.2.age + 1 }) := by
  refine ⟨_, rfl, fun e => ?_⟩
  rw [State.domain_setDomain_same]
  change e ∈ List.filter _ (List.map _ _) ↔ _
  rw [List.mem_filter, List.mem_map]
  constructor
  · rintro ⟨⟨y, among, rfl⟩, young⟩
    exact ⟨y, among, Nat.lt_of_succ_lt_succ (of_decide_eq_true young), rfl⟩
  · rintro ⟨y, among, young, rfl⟩
    exact ⟨⟨y, among, rfl⟩, decide_eq_true (Nat.succ_lt_succ young)⟩

theorem inject_places {s t : State} {d : Nat} {p : Packet} (h : inject s d p = some t) : PlacesKept s t := by
  unfold inject injectOn at h
  obtain ⟨c, -, rfl⟩ := Option.map_eq_some_iff.mp h
  exact ⟨rfl, rfl⟩

theorem inject_getD_places {s u : State} (h : PlacesKept s u) (d : Nat) (p : Packet) : PlacesKept s ((inject s d p).getD u) := by
  cases sent : inject s d p with
  | none => exact h
  | some t => exact inject_places sent

theorem floodPeers_places (s : State) (d : Nat) (p : Packet) : PlacesKept s (floodPeers s d p) :=
  foldl_rel PlacesKept.refl PlacesKept.trans _ (fun t _ => inject_getD_places (.refl t) _ _) _ s

/-- A claim that meets no conflict ends with the name at the spare. -/
theorem endClaim_takes {s : State} {d c : Nat} {dead : Option Nat} (claim : (s.domain d).rename.claim = some (c, dead))
    (clear : (s.domain d).rename.conflict = false) : ((endClaim s d).core c).name = some (s.domain d).rename.name ∧
      ((endClaim s d).domain d).rename = { (s.domain d).rename with claim := none, waiting := peersOf s d } := by
  have learns : ∀ (u : State) (part name : Nat), ((learnName u d part name d).domain d).rename = (u.domain d).rename := by
    intro u part name
    rw [learnName, State.domain_setDomain_same]
  unfold endClaim
  simp only [claim, clear, Bool.false_eq_true, if_false]
  constructor
  · rw [refreshOrrery_core, State.core, (floodPeers_places _ _ _).cores]
    exact congrArg Core.name (State.core_setCore_same s c _)
  · rw [(refreshOrrery_entryOnly _ d).of_domain d (fun x => x.rename) fun _ => rfl, (floodPeers_places _ _ _).domain, learns,
      State.setRename, State.domain_setDomain_same]

/-- The rename of a domain as its steward claims a name for a spare. -/
def claimed (s : State) (d v c : Nat) : RenameReg :=
  { (s.domain d).rename with
    spare := v % 2 ^ 16, name := v / 2 ^ 16 % 2 ^ 16, conflict := false, status := 1, waiting := peersOf s d, claim := some (c, none) }

theorem floodMessage_places (s : State) (d n : Nat) (m : NameMsg) : PlacesKept s (floodMessage s d n m) := by
  refine PlacesKept.trans ?_ (endMessage_places _ _ _)
  refine foldl_rel (R := fun (a b : Nat × State) => PlacesKept a.2 b.2) (fun a => .refl a.2) PlacesKept.trans _ (fun a t => ?_)
    (s.domsOf m.part) (0, s)
  split
  · next sent => exact inject_places sent
  · exact .refl a.2

theorem sendMessage_places (s : State) (n : Nat) (m : NameMsg) : PlacesKept s (sendMessage s n m) := by
  have put : PlacesKept s (s.setMessage n { m with missed := false }) := ⟨rfl, rfl⟩
  unfold sendMessage
  dsimp only
  split
  · exact put.trans (floodMessage_places _ _ _ _)
  · exact put.trans (inject_getD_places (dropMessage_places _ n) _ _)

theorem retryMessages_places (s : State) (part name : Nat) : PlacesKept s (retryMessages s part name) :=
  foldl_rel PlacesKept.refl PlacesKept.trans _ (fun t (e : Nat × NameMsg) => sendMessage_places t e.1 e.2) _ s

theorem renameComplete_completes {s : State} {d : Nat} (pending : (s.domain d).rename.status = 1)
    (claimed : (s.domain d).rename.claim = none) (told : (s.domain d).rename.waiting = []) :
    ∃ t, exec (.renameComplete d) s = .next t ∧ (t.domain d).rename = { (s.domain d).rename with status := 2 } := by
  refine ⟨_, congrArg Host.Outcome.next (if_pos ⟨pending, by rw [claimed]; rfl, told⟩), ?_⟩
  rw [(retryMessages_places _ _ _).domain, State.setRename, State.domain_setDomain_same]

section
variable {s : State} {d v c : Nat} (free : (s.domain d).rename.status ≠ 1)
  (spare : (s.coresIn d).find? (fun c => s.coreName c == v % 2 ^ 16 && spareFit s c) = some c)
  (unheld : holders s d (v / 2 ^ 16 % 2 ^ 16) = [])
include free spare unheld

/-- A name that no core holds is claimed for the spare, and nothing is fused out. -/
theorem renameCore_claims : exec (.renameCore d v) s = .next (if (peersOf s d).isEmpty then
    endClaim (s.setRename d (claimed s d v c)) d
    else floodPeers (s.setRename d (claimed s d v c)) d { cargo := .claim d (v / 2 ^ 16 % 2 ^ 16) }) := by
  change execRenameCore d v s = _
  unfold execRenameCore
  rw [if_neg free]
  unfold startRename
  simp only [spare, unheld, List.find?_nil, List.head?_nil, List.filter_nil, List.isEmpty_nil, Bool.not_true, Option.orElse_none,
    Bool.false_or]
  rfl

theorem renameCore_alone (single : peersOf s d = []) : ∃ t, exec (.renameCore d v) s = .next t ∧
    (t.core c).name = some (v / 2 ^ 16 % 2 ^ 16) ∧ (t.domain d).rename.status = 1 ∧ (t.domain d).rename.claim = none := by
  have run := renameCore_claims free spare unheld
  rw [single, List.isEmpty_nil, if_pos rfl] at run
  have claim : ((s.setRename d (claimed s d v c)).domain d).rename = claimed s d v c := by
    rw [State.setRename, State.domain_setDomain_same]
  obtain ⟨name, rename⟩ := endClaim_takes (s := s.setRename d (claimed s d v c)) (d := d) (c := c) (dead := none)
    (by rw [claim]; rfl) (by rw [claim]; rfl)
  rw [claim] at name rename
  exact ⟨_, run, name, by rw [rename]; rfl, by rw [rename]⟩

theorem renameCore_floods (peers : peersOf s d ≠ []) : ∃ t, exec (.renameCore d v) s = .next t ∧ t.cores = s.cores ∧
    (t.domain d).rename.status = 1 ∧ (t.domain d).rename.claim = some (c, none) ∧ (t.domain d).rename.waiting = peersOf s d := by
  have some' : (peersOf s d).isEmpty = false := by
    rw [Bool.eq_false_iff, ne_eq, List.isEmpty_iff]; exact peers
  have run := renameCore_claims free spare unheld
  rw [some', if_neg Bool.false_ne_true] at run
  have places := floodPeers_places (s.setRename d (claimed s d v c)) d { cargo := .claim d (v / 2 ^ 16 % 2 ^ 16) }
  refine ⟨_, run, places.cores, ?_⟩
  rw [places.domain, State.setRename, State.domain_setDomain_same]
  exact ⟨rfl, rfl, rfl⟩

end

/-! ## Clocks and power (R433, R434, R460) -/

theorem vfctlWrite_answers {s : State} {d v : Nat} (code : v % 32 ≤ 16) : ∃ t, exec (.vfctlWrite d v) s = .next t ∧ t.domain d =
    if Config.powerAbove d (v % 32) (powerShare s) then { s.domain d with vfRefused := true }
    else { s.domain d with fcode := v % 32, vfBusy := true, vfNext := v % 32, vfRefused := false } := by
  change ∃ t, execVfctlWrite d v s = _ ∧ _
  unfold execVfctlWrite
  dsimp only
  cases above : Config.powerAbove d (v % 32) (powerShare s) with
  | true =>
    rw [if_pos (.inr rfl), if_pos rfl]
    exact ⟨_, rfl, State.domain_setDomain_same _ _ _⟩
  | false =>
    rw [if_neg (by simp [Nat.not_lt.mpr code]), if_neg Bool.false_ne_true]
    refine ⟨_, rfl, (State.domain_setDomain_same _ _ _).trans ?_⟩
    rw [startChange, State.domain_setDomain_same]

theorem vfctlWrite_refuses {s : State} {d v : Nat} (far : 16 < v % 32) : ∃ t, exec (.vfctlWrite d v) s = .next t ∧
    t.domain d = { s.domain d with vfRefused := true } :=
  ⟨_, if_pos (.inl far), State.domain_setDomain_same _ _ _⟩

theorem linkPauseEnd_ends {s : State} {d : Nat} (busy : (s.domain d).vfBusy = true) : ∃ t, exec (.linkPauseEnd d) s = .next t ∧
    (t.domain d).vfBusy = false ∧ (t.domain d).fcur = (s.domain d).vfNext :=
  ⟨_, congrArg Host.Outcome.next (if_pos busy), refreshOrrery_setDomain s d _ (fun x => x.vfBusy) fun _ => rfl,
    refreshOrrery_setDomain s d _ (fun x => x.fcur) fun _ => rfl⟩

theorem powerLimitTick_lowers {s : State} {d v : Nat} (above : s.pwrlim < v) (hot : hottest s = some d) :
    ∃ t, exec (.powerLimitTick v) s = .next t ∧ (t.domain d).vfBusy = true ∧ (t.domain d).vfNext = (s.domain d).fcur - 1 := by
  refine ⟨startChange s d ((s.domain d).fcur - 1), (if_pos above).trans ?_, ?_⟩
  · rw [hot]
  · rw [startChange, State.domain_setDomain_same]
    exact ⟨rfl, rfl⟩

/-! ## The obligation -/

/-- Settles O51: each step by the lemma of its operation. What writes an orrery entry changes, of a domain, only the count
of its corrected errors; so the fields that a step writes there stay as it wrote them. -/
theorem fabricSteps : Obligations.FabricSteps := by
  unfold Obligations.FabricSteps
  intro s d n p v tbl id x
  refine ⟨linkSteps, fun y => packetSteps, rtArm_arms, rtSelect_selects, ?_, rtClear_clears s d, ?_, ?_, nameAgeTick_ages s d, ?_,
    renameComplete_completes, vfctlWrite_answers, vfctlWrite_refuses, linkPauseEnd_ends, powerLimitTick_lowers⟩
  · refine fun small armed unused idle => ⟨_, rtDrain_drains small armed unused idle, rfl, fun c among => ?_⟩
    rw [State.domain_of_drain]
    exact setTables_state s tbl 2 among
  · exact fun r i drain stands here due away => drainTokenVisit_leaves drain stands here due away
  · exact fun r i drain stands here due home => ⟨_, drainTokenVisit_visits drain stands here due home, visit_reads⟩
  · exact fun c free spare unheld => ⟨renameCore_alone free spare unheld, renameCore_floods free spare unheld⟩

end Sys2Proof.Machine
end

section
/-!
A quote whose second piece is lost: the table of virtual interfaces is out of order, and the first write that the
device is to make brings another migration to the front (R354, R413, R459).
-/
namespace Sys2Proof.Machine
open Sys2Proof

/-! ## The length of a quote (R459) -/

theorem length_readBytes (m : Memory) (a n : Nat) : (m.readBytes a n).length = n := by
  induction n generalizing a with
  | zero => rfl
  | succ n ih => rw [Memory.readBytes, List.length_cons, ih]

theorem length_littleEndian (n x : Nat) : (littleEndian n x).length = n := by
  rw [littleEndian, List.length_map, List.length_range]

theorem length_quoteBody_le (s : State) (vi : Nat) : (quoteBody s vi).length ≤ 624 := by
  have digest : ∀ m, (shake256 m 32).length ≤ 32 := fun m => List.length_take_le _ _
  have masks : (((List.range 65).map fun i => littleEndian 8 (s.viface i).partmap).flatten).length = 520 := by
    rw [List.length_flatten, List.map_map]
    simp only [Function.comp_def, length_littleEndian]
    rfl
  have firmware : (firmwareDigest s).length ≤ 32 := digest _
  have orrery : (orreryDigest s vi).length ≤ 32 := digest _
  unfold quoteBody
  simp only [List.length_append, length_readBytes, masks, length_littleEndian]
  omega

theorem lt_of_mem_blockPieces {va n : Nat} {p : Nat × Nat} (h : p ∈ blockPieces va n) : p.1 < va + n := by
  obtain ⟨i, -, piece⟩ := List.mem_filterMap.mp h
  dsimp only at piece
  split at piece
  · next some =>
    cases piece
    show max _ _ < _
    omega
  · cases piece

/-- Bytes that begin at a block have a piece in each block that they fill. -/
theorem mem_blockPieces {k n i : Nat} (fills : 64 * (i + 1) ≤ n) : (64 * (k + i), 64) ∈ blockPieces (64 * k) n := by
  refine List.mem_filterMap.mpr ⟨i, List.mem_range.mpr (by omega), ?_⟩
  have block : 64 * k / 64 = k := by omega
  have low : max (64 * k) ((k + i) * 64) = 64 * (k + i) := by omega
  have high : min (64 * k + n) ((k + i + 1) * 64) = 64 * (k + i) + 64 := by omega
  simp [block, low, high]

theorem two_le_length_blockPieces {k n : Nat} (long : 128 ≤ n) : 2 ≤ (blockPieces (64 * k) n).length := by
  have first := mem_blockPieces (k := k) (n := n) (i := 0) (by omega)
  have second := mem_blockPieces (k := k) (n := n) (i := 1) (by omega)
  match pieces : blockPieces (64 * k) n with
  | [] => rw [pieces] at first; cases first
  | [p] =>
    rw [pieces, List.mem_singleton] at first second
    have same := first.trans second.symm
    rw [Prod.mk.injEq] at same
    omega
  | _ :: _ :: _ => simp

/-! ## The state (R354) -/

/-- The physical function of `attesting`, with a migration of the page of its root table to another place. -/
def movingRoot : VIface :=
  { partmap := 1, roots := [(0, 0x1000)], regs := [(0x562, 5)], mig := { old := 0x1000, new := 0x8000, status := 2 } }

/-- The same, with writes that the device is to make. -/
def movingRootWith (puts : List DevPut) : VIface := { movingRoot with puts := puts }

/-- `attesting`, with virtual interface 65, whose migration leaves the page in its place, listed before the physical
function. -/
def misordered : State :=
  { Tests.attesting with vis := [(65, { mig := { old := 0x1000, new := 0x1000, status := 2 } }), (64, movingRoot)] }

/-- What virtual interface 65 says of the page of the root table counts: it stays where it is. -/
theorem placeOf_misordered (pa : Nat) : placeOf misordered pa = pa := by
  by_cases moving : 0x1000 ≤ pa ∧ pa < 0x1000 + 2 ^ szBits 0
  · have moved : movedTo misordered pa true = some { pa := 0x1000 + (pa - 0x1000), copied := true } := by
      simp [movedTo, misordered, moving]
    rw [placeOf, moved]
    exact Nat.add_sub_cancel' moving.1
  · have still : movedTo misordered pa true = none := by
      simp [movedTo, misordered, movingRoot, moving]
    rw [placeOf, still]

theorem placeOf_attesting (pa : Nat) : placeOf Tests.attesting pa = pa := placeOf_eq (by unfold NoMigration; decide) pa

theorem readEntry_misordered (asn va n base : Nat) :
    readEntry misordered asn va n base = readEntry Tests.attesting asn va n base := by
  unfold readEntry State.homeBad State.homeRead
  simp only [placeOf_misordered, placeOf_attesting]
  rfl

theorem walkFrom_misordered (asn va n base : Nat) :
    walkFrom misordered asn va n base = walkFrom Tests.attesting asn va n base := by
  induction n generalizing base with
  | zero => rfl
  | succ n ih =>
    unfold walkFrom
    rw [readEntry_misordered]
    simp only [ih]

theorem putFaults_misordered {va : Nat} (low : va < 2 ^ 30) : putFaults misordered 64 0 va = false := by
  have same : putFaults misordered 64 0 va = putFaults Tests.attesting 64 0 va := by
    unfold putFaults walk
    rw [walkFrom_misordered]
    rfl
  rw [same, Tests.putFaults_low va low]

/-- Once an entry of the physical function has been put before that of 65, the root table reads as zero, and no write goes
ahead. -/
theorem putFaults_of_put {va : Nat} (low : va < 2 ^ 30) (puts : List DevPut) :
    putFaults (misordered.setVI 64 (movingRootWith puts)) 64 0 va = true := by
  have index : va % 2 ^ 57 / 2 ^ (12 + 9 * 4) % 512 = 0 := by omega
  have moved : placeOf (misordered.setVI 64 (movingRootWith puts)) 0x1000 = 0x8000 := by
    have there : movedTo (misordered.setVI 64 (movingRootWith puts)) 0x1000 true = some { pa := 0x8000, copied := true } := by
      simp [movedTo, misordered, State.setVI, Sp.put, movingRootWith, movingRoot, szBits]
    rw [placeOf, there]
    rfl
  have empty : (misordered.setVI 64 (movingRootWith puts)).homeRead 0x1000 8 = 0 := by
    rw [State.homeRead, moved]
    exact (by decide : misordered.mem.read 0x8000 8 = 0)
  have sound : (misordered.setVI 64 (movingRootWith puts)).homeBad 0x1000 8 = none := by
    rw [State.homeBad, moved]
    exact (by decide : badIn misordered.bad 0x8000 8 = none)
  have root : rootOf (misordered.setVI 64 (movingRootWith puts)) 64 0 = 0x1000 := by
    rw [rootOf, State.viface_setVI_same]
    rfl
  have fails : walk (misordered.setVI 64 (movingRootWith puts)) 64 0 (va % 2 ^ 57) = .fail .translate 1 := by
    have dram : regionOf (misordered.setVI 64 (movingRootWith puts)) 0x1000 = .dram := (by decide : regionOf misordered 0x1000 = .dram)
    rw [walk, root, if_neg (by rw [dram]; decide), walkFrom]
    simp only [readEntry, index, Nat.mul_zero, Nat.add_zero, sound, empty]
    rfl
  rw [putFaults, fails, Bool.or_true]

/-! ## The quote (R459) -/

theorem foldl_eq_self {α β : Type} {f : α → β → α} {a : α} {ls : List β} (h : ∀ b ∈ ls, f a b = a) : ls.foldl f a = a := by
  induction ls with
  | nil => rfl
  | cons b ls ih => rw [List.foldl_cons, h b List.mem_cons_self, ih fun c hc => h c (List.mem_cons_of_mem _ hc)]

/-- Of the pieces of bytes in the first GiB, the first alone is left to be written. -/
theorem queueBytes_misordered {va n : Nat} {m : Memory} (low : va + n ≤ 2 ^ 30) {p : Nat × Nat} {ps : List (Nat × Nat)}
    (pieces : blockPieces va n = p :: ps) : queueBytes misordered 64 0 va n m =
      misordered.setVI 64 (movingRootWith [{ asn := 0, va := p.1, n := p.2, x := m.read (p.1 - va) p.2 }]) := by
  have within : ∀ q ∈ p :: ps, q.1 < 2 ^ 30 := fun q hq =>
    Nat.lt_of_lt_of_le (lt_of_mem_blockPieces (pieces.symm ▸ hq)) low
  have first : ∀ x, devQueue misordered 64 0 p.1 p.2 x =
      some (misordered.setVI 64 (movingRootWith [{ asn := 0, va := p.1, n := p.2, x := x }])) := fun x => by
    rw [devQueue, putFaults_misordered (within p List.mem_cons_self), if_neg Bool.false_ne_true]
    rfl
  rw [queueBytes, pieces, List.foldl_cons, first, Option.getD_some]
  refine foldl_eq_self fun q hq => ?_
  rw [devQueue, putFaults_of_put (within q (List.mem_cons_of_mem _ hq)), if_pos rfl, Option.getD_none]

theorem exec_attest_puts {s t : State} {vi v : Nat} (go : v.testBit 0 = true) (ran : exec (.attest vi v) s = .next t) :
    let all := quoteBody s vi ++ (List.range 29792).map (Config.signature (quoteBody s vi))
    (t.viface vi).puts = ((queueBytes s vi 0 ((s.viface vi).regs.read 0x560 8) all.length (Memory.writeBytes [] 0 all)).viface
      vi).puts ++ [{ asn := 0, va := 0, n := 0, x := 0 }] := by
  change execAttest vi v s = _ at ran
  unfold execAttest at ran
  rw [go] at ran
  cases ran
  rw [State.viface_setVI_same]

/-- Refutes O52: in a state whose table of virtual interfaces is out of order (65 before 64), where every piece of a quote
may be written, the first piece that is left puts another entry of 64 in front, and its migration then takes the root table
elsewhere, so that the device drops every other piece. -/
theorem not_hostSteps : ¬ Obligations.HostSteps := by
  intro h
  obtain ⟨-, -, attest, -⟩ := h misordered 64 0 0 1 0 0
  let quote := quoteBody misordered 64
  let all := quote ++ (List.range 29792).map (Config.signature quote)
  have long : all.length = quote.length + 29792 := by
    rw [List.length_append, List.length_map, List.length_range]
  have bound : quote.length ≤ 624 := length_quoteBody_le misordered 64
  have buf : (misordered.viface 64).regs.read 0x560 8 = 64 * 0x1400 := by decide +kernel
  have two : 2 ≤ (blockPieces (64 * 0x1400) all.length).length := two_le_length_blockPieces (by omega)
  obtain ⟨p, ps, pieces⟩ := List.exists_cons_of_length_pos (Nat.lt_of_lt_of_le Nat.two_pos two)
  obtain ⟨t, ran, -, -, left⟩ := attest (by decide) fun p hp => by
    have inside : p.1 < (misordered.viface 64).regs.read 0x560 8 + all.length := lt_of_mem_blockPieces hp
    exact putFaults_misordered (by omega)
  rw [exec_attest_puts (by decide) ran, buf, queueBytes_misordered (by omega) pieces, State.viface_setVI_same] at left
  have lengths := congrArg List.length left
  rw [List.length_append, List.length_append, List.length_append, List.length_map] at lengths
  have more : 2 ≤ (blockPieces ((misordered.viface 64).regs.read 0x560 8) all.length).length := buf ▸ two
  have fewer : (blockPieces ((misordered.viface 64).regs.read 0x560 8) all.length).length ≤ 1 := by
    have kept := Nat.add_right_cancel lengths
    exact Nat.le_trans (Nat.le_add_left _ _) (Nat.le_of_eq kept.symm)
  omega

end Sys2Proof.Machine
end

section
/-!
The values of a STREAM, the bytes of a DRAIN, and the words of an accumulator memory (R82 to R85, R289, R300, R302).
-/
namespace Sys2Proof.Machine
open Sys2Proof

/-! ## An output element of a STREAM (R82 to R85) -/

theorem WSlot.column_dense {w : WSlot} (dense : w.view.sparse = false) (n : Nat) : w.column n =
    (List.range w.view.kw).map fun k => (k, w.data.read (mxSize w.view.fmt * (32 * k + n)) (mxSize w.view.fmt)) := by
  unfold WSlot.column
  simp only [dense, Bool.false_eq_true, if_false]

theorem streamElem_int {w : WSlot} {af : Nat} (dense : w.view.sparse = false) (group : mxGroup af = 2) (act : Nat → Nat)
    (n scale acc : Nat) : streamElem w af act n scale acc =
      (((acc : Int) + ((List.range w.view.kw).map fun k =>
        int8 af (act k) * int8 w.view.fmt (w.data.read (mxSize w.view.fmt * (32 * k + n)) (mxSize w.view.fmt))).sum) % 2 ^ 32).toNat := by
  unfold streamElem
  simp only [group, w.column_dense dense, List.map_map, Function.comp_def]

/-- Where a set is one pass, every element of a column is of it. -/
theorem passes_one {w : WSlot} (dense : w.view.sparse = false) (one : w.view.kpass = 1) (af : Nat) (act : Nat → Nat) (n : Nat) :
    passes w af act (w.column n) = [passSum ((List.range (mxPass w.view.fmt)).map fun k =>
      fProd (unpack (mxFmt af) (act k))
        (unpack (mxFmt w.view.fmt) (w.data.read (mxSize w.view.fmt * (32 * k + n)) (mxSize w.view.fmt))))] := by
  have kw : w.view.kw = mxPass w.view.fmt := by rw [MxView.kw, one, Nat.one_mul]
  have all : (w.column n).filter (fun x => x.1 / mxPass w.view.fmt == 0) = w.column n := by
    refine List.filter_eq_self.mpr fun x hx => ?_
    rw [w.column_dense dense, List.mem_map] at hx
    obtain ⟨k, hk, rfl⟩ := hx
    rw [List.mem_range, kw] at hk
    exact beq_iff_eq.mpr (Nat.div_eq_of_lt hk)
  unfold passes
  rw [one, show List.range 1 = [0] from rfl, List.map_singleton, all, w.column_dense dense, List.map_map, kw]
  rfl

theorem streamElem_pass {w : WSlot} {af : Nat} (dense : w.view.sparse = false) (group : mxGroup af < 2)
    (unscaled : w.view.scaled = false) (one : w.view.kpass = 1) (act : Nat → Nat) (n scale acc : Nat) :
    streamElem w af act n scale acc =
      mxAdd acc (passSum ((List.range (mxPass w.view.fmt)).map fun k =>
        fProd (unpack (mxFmt af) (act k))
          (unpack (mxFmt w.view.fmt) (w.data.read (mxSize w.view.fmt * (32 * k + n)) (mxSize w.view.fmt))))) := by
  have added : streamElem w af act n scale acc = (passes w af act (w.column n)).foldl mxAdd acc := by
    unfold streamElem
    dsimp only
    rw [unscaled]
    split
    · next h => omega
    · next h => omega
    · exact if_neg Bool.false_ne_true
  rw [added, passes_one dense one, List.foldl_cons, List.foldl_nil]

/-! ## The words of an accumulator memory (R289) -/

theorem MxArray.word_setWord (a : MxArray) (r k x r' k' : Nat) (hk : k < 32) (hk' : k' < 32) :
    (a.setWord r k x).word r' k' = if r' = r ∧ k' = k then x % 2 ^ 32 else a.word r' k' := by
  have same : r' * 32 + k' = r * 32 + k ↔ r' = r ∧ k' = k := by omega
  unfold MxArray.word MxArray.setWord
  dsimp only
  rw [Sp.get_set]
  simp only [same]
  split
  · exact BitVec.toNat_ofNat ..
  · rfl

/-- `b` differs from `a` in the accumulator words alone. -/
def AccOnly (a b : MxArray) : Prop := { b with acc := [] } = { a with acc := [] }

theorem AccOnly.refl (a : MxArray) : AccOnly a a := Eq.refl _
theorem AccOnly.trans {a b c : MxArray} (h : AccOnly a b) (h' : AccOnly b c) : AccOnly a c := Eq.trans h' h

/-- Any other field is the same in both. -/
theorem AccOnly.field {a b : MxArray} (h : AccOnly a b) {α : Sort*} (f : MxArray → α)
    (hf : ∀ x : MxArray, f { x with acc := [] } = f x) : f b = f a := by
  rw [← hf b, ← hf a, h]

theorem setWord_accOnly (a : MxArray) (r n x : Nat) : AccOnly a (a.setWord r n x) := Eq.refl _

/-- The first words of a row, each written from what it held. -/
def MxArray.writeWords (a : MxArray) (r : Nat) (g : Nat → Nat → Nat) (m : Nat) : MxArray :=
  (List.range m).foldl (fun a n => a.setWord r n (g n (a.word r n))) a

/-- A row written. -/
def MxArray.writeRow (a : MxArray) (r : Nat) (g : Nat → Nat → Nat) : MxArray := a.writeWords r g 32

theorem MxArray.writeWords_succ (a : MxArray) (r : Nat) (g : Nat → Nat → Nat) (m : Nat) : a.writeWords r g (m + 1) =
    (a.writeWords r g m).setWord r m (g m ((a.writeWords r g m).word r m)) := by
  unfold MxArray.writeWords
  rw [List.range_succ, List.foldl_append, List.foldl_cons, List.foldl_nil]

theorem MxArray.writeRow_accOnly (a : MxArray) (r : Nat) (g : Nat → Nat → Nat) : AccOnly a (a.writeRow r g) := by
  unfold MxArray.writeRow MxArray.writeWords
  generalize List.range 32 = ns
  exact foldl_rel AccOnly.refl AccOnly.trans _ (fun b n => setWord_accOnly b r n _) ns a

theorem MxArray.word_writeWords (a : MxArray) (r : Nat) (g : Nat → Nat → Nat) {m : Nat} (hm : m ≤ 32) (r' : Nat) {k : Nat}
    (hk : k < 32) : (a.writeWords r g m).word r' k = if r' = r ∧ k < m then g k (a.word r k) % 2 ^ 32 else a.word r' k := by
  induction m generalizing r' k with
  | zero => exact (if_neg (fun h => Nat.not_lt_zero _ h.2)).symm
  | succ m ih =>
    rw [MxArray.writeWords_succ, MxArray.word_setWord _ _ _ _ _ _ hm hk]
    by_cases last : r' = r ∧ k = m
    · obtain ⟨rfl, rfl⟩ := last
      rw [if_pos ⟨rfl, rfl⟩, if_pos ⟨rfl, Nat.lt_succ_self k⟩, ih (Nat.le_of_succ_le hm) _ hk,
        if_neg fun h => Nat.lt_irrefl _ h.2]
    · rw [if_neg last, ih (Nat.le_of_succ_le hm) _ hk]
      exact if_congr (and_congr_right fun same => by have := fun h => last ⟨same, h⟩; omega) rfl rfl

theorem MxArray.word_writeRow (a : MxArray) (r : Nat) (g : Nat → Nat → Nat) (r' : Nat) {k : Nat} (hk : k < 32) :
    (a.writeRow r g).word r' k = if r' = r then g k (a.word r k) % 2 ^ 32 else a.word r' k := by
  rw [MxArray.writeRow, MxArray.word_writeWords a r g (Nat.le_refl 32) r' hk]
  simp only [hk, and_true]

/-! ## The bytes that a DRAIN writes (R302) -/

theorem getElem_flatten_even {α : Type} {e : Nat} {ls : List (List α)} (even : ∀ l ∈ ls, l.length = e) (n : Nat) {i : Nat}
    (hi : i < e) : ls.flatten[e * n + i]? = ls[n]?.bind (·[i]?) := by
  induction ls generalizing n with
  | nil => simp
  | cons l ls ih =>
    have length : l.length = e := even l List.mem_cons_self
    rw [List.flatten_cons]
    cases n with
    | zero => rw [Nat.mul_zero, Nat.zero_add, List.getElem?_append_left (by omega)]; rfl
    | succ n =>
      rw [List.getElem?_append_right (by rw [Nat.mul_succ]; omega), length, Nat.mul_succ,
        show e * n + e + i - e = e * n + i by omega, ih (fun l hl => even l (List.mem_cons_of_mem _ hl)), List.getElem?_cons_succ]

theorem getElem_readBytes (m : Memory) (a : Nat) {n i : Nat} (hi : i < n) : (m.readBytes a n)[i]? = some (m.byte (a + i)) := by
  induction n generalizing a i with
  | zero => omega
  | succ n ih =>
    cases i with
    | zero => rfl
    | succ i => rw [Memory.readBytes, List.getElem?_cons_succ, ih _ (by omega), show a + 1 + i = a + (i + 1) by omega]

section
variable {c : MxCmd} {a : MxArray}

theorem MxCmd.length_drainBytes (m : Nat) : (c.drainBytes a m).length = 32 * accSize (c.f 4 1) := by
  unfold MxCmd.drainBytes
  rw [List.length_flatten, List.map_map]
  simp only [Function.comp_def, length_readBytes, List.map_const', List.length_range, List.sum_replicate, smul_eq_mul]

theorem MxCmd.drainBytes_getElem (words : c.f 4 1 ≠ 7) (m : Nat) {n i : Nat} (hn : n < 32) (hi : i < accSize (c.f 4 1)) :
    (c.drainBytes a m)[accSize (c.f 4 1) * n + i]? =
      some (BitVec.ofNat 8 (drainElem ((c.f 1 1).testBit 1) (c.f 4 1) (a.word (c.f 0x14 2 + m) n) / 256 ^ i)) := by
  have row : (c.drainRows m).headD 0 = c.f 0x14 2 + m := by simp [MxCmd.drainRows, words]
  unfold MxCmd.drainBytes
  simp only [row, if_neg words]
  rw [getElem_flatten_even (fun l hl => ?_) n hi]
  · rw [List.getElem?_map, List.getElem?_range hn, Option.map_some, Option.bind_some, getElem_readBytes _ _ hi,
      Memory.byte_write_add hi]
  · obtain ⟨k, -, rfl⟩ := List.mem_map.mp hl
    exact length_readBytes ..

/-- Bytes put one after another, the first at `at_`. -/
def putBytes (o : Sp Byte) (at_ : Nat) (bs : List Byte) : Sp Byte :=
  (bs.zip (List.range bs.length)).foldl (fun o x => Sp.put o (at_ + x.2) x.1) o

theorem find_foldl_put (bs : List Byte) (at_ k : Nat) (o : Sp Byte) (x : Nat) :
    Sp.find? ((bs.zip (List.range' k bs.length)).foldl (fun o x => Sp.put o (at_ + x.2) x.1) o) x =
      if at_ + k ≤ x ∧ x < at_ + k + bs.length then bs[x - (at_ + k)]? else Sp.find? o x := by
  induction bs generalizing k o with
  | nil => rw [if_neg (by simp only [List.length_nil]; omega)]; rfl
  | cons b bs ih =>
    rw [List.length_cons, List.range'_succ, List.zip_cons_cons, List.foldl_cons, ih, Sp.find_put]
    by_cases first : x = at_ + k
    · subst first
      rw [if_neg (by omega), if_pos rfl, if_pos (by omega), Nat.sub_self]
      rfl
    · by_cases later : at_ + k < x ∧ x < at_ + k + (bs.length + 1)
      · rw [if_pos (by omega), if_pos (by omega), show x - (at_ + k) = x - (at_ + (k + 1)) + 1 by omega, List.getElem?_cons_succ]
      · rw [if_neg (by omega), if_neg (by omega), if_neg (by omega)]

theorem find_putBytes (o : Sp Byte) (at_ : Nat) (bs : List Byte) (x : Nat) :
    Sp.find? (putBytes o at_ bs) x = if at_ ≤ x ∧ x < at_ + bs.length then bs[x - at_]? else Sp.find? o x := by
  rw [putBytes, List.range_eq_range', find_foldl_put, Nat.add_zero]

theorem rising_putBytes {o : Sp Byte} (at_ : Nat) (bs : List Byte) (rises : Sp.rising 0 o = true) :
    Sp.rising 0 (putBytes o at_ bs) = true := by
  unfold putBytes
  induction bs.zip (List.range bs.length) generalizing o with
  | nil => exact rises
  | cons e es ih => exact ih (Sp.rising_put _ (Nat.zero_le _) rises)

theorem MxCmd.drainOut_zero : c.drainOut a 0 = [] := rfl

theorem MxCmd.drainOut_succ (n : Nat) : c.drainOut a (n + 1) = putBytes (c.drainOut a n) (c.drainAt n) (c.drainBytes a n) := by
  unfold MxCmd.drainOut putBytes
  rw [List.range_succ, List.foldl_append, List.foldl_cons, List.foldl_nil, MxCmd.length_drainBytes]

/-- No offset stands twice in what a DRAIN writes. -/
theorem MxCmd.rising_drainOut (n : Nat) : Sp.rising 0 (c.drainOut a n) = true := by
  induction n with
  | zero => rfl
  | succ n ih => rw [MxCmd.drainOut_succ]; exact rising_putBytes _ _ ih

/-- Rows that stand apart hold each its bytes. -/
theorem MxCmd.find_drainOut (apart : 32 * accSize (c.f 4 1) ≤ c.f 0xC 4) {rows m j : Nat} (hm : m < rows)
    (hj : j < 32 * accSize (c.f 4 1)) :
    Sp.find? (c.drainOut a rows) (c.drainAt m + j) = (c.drainBytes a m)[j]? := by
  induction rows with
  | zero => omega
  | succ n ih =>
    rw [MxCmd.drainOut_succ, find_putBytes, MxCmd.length_drainBytes]
    by_cases last : m = n
    · subst last
      rw [if_pos (by omega), Nat.add_sub_cancel_left]
    · have before : c.drainAt m + 32 * accSize (c.f 4 1) ≤ c.drainAt n := by
        have rows : (m + 1) * c.f 0xC 4 ≤ n * c.f 0xC 4 := Nat.mul_le_mul_right _ (by omega)
        rw [Nat.succ_mul] at rows
        unfold MxCmd.drainAt
        omega
      rw [if_neg (by omega), ih (by omega)]

theorem MxCmd.find_drainOut_word (words : c.f 4 1 ≠ 7) (apart : 32 * accSize (c.f 4 1) ≤ c.f 0xC 4) {rows m n i : Nat}
    (hm : m < rows) (hn : n < 32) (hi : i < accSize (c.f 4 1)) :
    Sp.find? (c.drainOut a rows) (c.f 8 4 + m * c.f 0xC 4 + accSize (c.f 4 1) * n + i) =
      some (BitVec.ofNat 8 (drainElem ((c.f 1 1).testBit 1) (c.f 4 1) (a.word (c.f 0x14 2 + m) n) / 256 ^ i)) := by
  have within : accSize (c.f 4 1) * n + i < 32 * accSize (c.f 4 1) := by
    have := Nat.mul_le_mul_left (accSize (c.f 4 1)) (show n + 1 ≤ 32 by omega)
    rw [Nat.mul_succ] at this
    omega
  rw [Nat.add_assoc _ (accSize (c.f 4 1) * n) i, show c.f 8 4 + m * c.f 0xC 4 = c.drainAt m from rfl,
    MxCmd.find_drainOut apart hm within, MxCmd.drainBytes_getElem words m hn hi]

end

end Sys2Proof.Machine
end

section
/-!
STREAM and ACCUM row by row, the end of a command, and the set that a LOADW leaves (R293, R298, R300, R302).
-/
namespace Sys2Proof.Machine
open Sys2Proof

/-! ## Arrays and the head of their queue (R293) -/

theorem State.array_setArray_same (s : State) (core part : Nat) (a : MxArray) : (s.setArray core part a).array core part = a := by
  rw [State.array, State.setArray, State.core_setCore_same, Sp.get_put_same]

theorem mxHead_eq_some {s : State} {core part op : Nat} {c : MxCmd} (head : mxHead s core part op = some c) :
    ∃ q, (s.array core part).queue = c :: q ∧ c.f 0 1 = op ∧ c.res = none := by
  unfold mxHead at head
  dsimp only at head
  split at head
  · next x q queue =>
    split at head
    · next runs =>
      cases head
      exact ⟨q, queue, runs.1, runs.2.1⟩
    · cases head
  · cases head

section
variable {s : State} {core part : Nat} {c : MxCmd} {q : List MxCmd} (queue : (s.array core part).queue = c :: q)
include queue

theorem mxSetHead_of_queue (f : MxCmd → MxCmd) :
    mxSetHead s core part f = s.setArray core part { s.array core part with queue := f c :: q } := by
  unfold mxSetHead
  dsimp only
  rw [queue]

theorem mxEnd_of_queue (st : Nat) : mxEnd s core part st =
    s.setArray core part { s.array core part with queue := { c with res := some st, need := none } :: q } :=
  mxSetHead_of_queue queue _

/-- A command that has made its effect: its STATUS is known, and the array holds what it held. -/
theorem mxEnd_array (st : Nat) : (mxEnd s core part st).array core part =
    { s.array core part with queue := { c with res := some st, need := none } :: q } := by
  rw [mxEnd_of_queue queue, State.array_setArray_same]

theorem mxEnd_head (st : Nat) : ((mxEnd s core part st).array core part).queue.head?.map MxCmd.res = some (some st) := by
  rw [mxEnd_array queue]
  rfl

end

theorem mxSetHead_blocks (s : State) (core part : Nat) (f : MxCmd → MxCmd) : (mxSetHead s core part f).blocks = s.blocks := by
  unfold mxSetHead
  dsimp only
  split <;> rfl

/-! ## An allocation that no write overtakes (R310) -/

section
variable {s : State} {blk : Nat}

theorem spmQueued_of_settled (settled : (s.block blk).was = []) (array : Nat) (c : MxCmd) :
    spmQueued s array blk c = ((s.block blk).spm, s) := by
  unfold spmQueued spmSeen
  rw [settled]
  rfl

theorem spmPoisoned_of_sound (sound : (s.block blk).spmBad = []) (off n : Nat) : spmPoisoned s blk off n = false := by
  unfold spmPoisoned
  rw [sound]
  rfl

end

/-! ## Rows one after another -/

theorem mxRows_induct {α : Type} {f : α → Nat → Option α} {I : Nat → α → Prop} {n : Nat} {x : α} (start : I 0 x)
    (step : ∀ m < n, ∀ y, I m y → ∃ z, f y m = some z ∧ I (m + 1) z) : ∃ y, mxRows f (List.range n) x = (y, none) ∧ I n y := by
  have from_ : ∀ (k m : Nat) (y : α), m + k = n → I m y →
      ∃ z, mxRows f (List.range' m k) y = (z, none) ∧ I n z := by
    intro k
    induction k with
    | zero =>
      intro m y hm hy
      exact ⟨y, rfl, (Nat.add_zero m ▸ hm) ▸ hy⟩
    | succ k ih =>
      intro m y hm hy
      obtain ⟨z, row, hz⟩ := step m (by omega) y hy
      rw [List.range'_succ, mxRows, row]
      exact ih (m + 1) z (by omega) hz
  rw [List.range_eq_range']
  exact from_ n 0 x (Nat.zero_add n) start

/-- What rows that are written one after another leave, of an array that held `a`. -/
structure RowsDone (s : State) (core part lo : Nat) (elem : Nat → Nat → Nat → Nat) (m : Nat) (t : State) : Prop where
  blocks : t.blocks = s.blocks
  only : AccOnly (s.array core part) (t.array core part)
  word : ∀ r n, n < 32 → (t.array core part).word r n =
    if lo ≤ r ∧ r < lo + m then elem (r - lo) n ((s.array core part).word r n) % 2 ^ 32 else (s.array core part).word r n

/-- Rows of which each writes its own row of the accumulator memory, from what that row held. -/
theorem mxRows_done {s : State} {core part lo n : Nat} {elem : Nat → Nat → Nat → Nat} {f : State → Nat → Option State}
    (sound : (s.array core part).accBad = [])
    (row : ∀ u m, u.blocks = s.blocks → (u.array core part).accBad = [] →
      f u m = some (u.setArray core part ((u.array core part).writeRow (lo + m) (elem m)))) :
    ∃ t, mxRows f (List.range n) s = (t, none) ∧ RowsDone s core part lo elem n t := by
  refine mxRows_induct (I := RowsDone s core part lo elem)
    ⟨rfl, .refl _, fun r k _ => (if_neg (by omega)).symm⟩ fun m _ u h => ?_
  refine ⟨_, row u m h.blocks ((h.only.field MxArray.accBad fun _ => rfl).trans sound), h.blocks, ?_, fun r k hk => ?_⟩
  · rw [State.array_setArray_same]
    exact h.only.trans (MxArray.writeRow_accOnly ..)
  · rw [State.array_setArray_same, MxArray.word_writeRow _ _ _ _ hk]
    by_cases this : r = lo + m
    · subst this
      rw [if_pos rfl, h.word _ k hk, if_neg (by omega), if_pos (by omega), Nat.add_sub_cancel_left]
    · rw [if_neg this, h.word _ k hk]
      exact if_congr (by omega) rfl rfl

/-- The rows of a command, and its end. -/
theorem mxRows_ended {s t : State} {core part lo n : Nat} {elem : Nat → Nat → Nat → Nat} {c : MxCmd} {q : List MxCmd}
    (queue : (s.array core part).queue = c :: q) (done : RowsDone s core part lo elem n t) :
    let u := mxEnd t core part 0
    u.blocks = s.blocks ∧ (u.array core part).queue.head?.map MxCmd.res = some (some 0) ∧
      (∀ m < n, ∀ k < 32, (u.array core part).word (lo + m) k = elem m k ((s.array core part).word (lo + m) k) % 2 ^ 32) ∧
      ∀ r k, k < 32 → r < lo ∨ lo + n ≤ r → (u.array core part).word r k = (s.array core part).word r k := by
  have queue' : (t.array core part).queue = c :: q := (done.only.field MxArray.queue fun _ => rfl).trans queue
  have word : ∀ r k, ((mxEnd t core part 0).array core part).word r k = (t.array core part).word r k := fun r k => by
    rw [mxEnd_array queue']; rfl
  refine ⟨(mxSetHead_blocks ..).trans done.blocks, mxEnd_head queue' 0, fun m hm k hk => ?_, fun r k hk out => ?_⟩
  · rw [word, done.word _ k hk, if_pos (by omega), Nat.add_sub_cancel_left]
  · rw [word, done.word _ k hk, if_neg (by omega)]

/-! ## STREAM (R300) -/

/-- The value that a STREAM from the block's own allocation puts in column `n` of row `m` of its output. -/
def streamValue (s : State) (w : WSlot) (c : MxCmd) (m n old : Nat) : Nat :=
  streamElem w (c.f 4 1) (fun k => (s.block c.blk).spm.read (c.f 8 4 + m * c.f 0xC 4 + mxSize (c.f 4 1) * k) (mxSize (c.f 4 1))) n
    ((s.block c.blk).spm.read (c.f 0x10 4 + 4 * m) 4) (if (c.f 1 1).testBit 1 = true then 0 else old)

theorem streamRow_eq {u : State} {core part : Nat} {w : WSlot} {c : MxCmd} (settled : (u.block c.blk).was = [])
    (sound : (u.block c.blk).spmBad = []) (words : c.f 4 1 ≠ 6) (whole : (u.array core part).accBad = []) (m : Nat) :
    streamRow core part w c c.blk u m =
      some (u.setArray core part ((u.array core part).writeRow (c.f 0x14 2 + m) (streamValue u w c m))) := by
  have kept : { u.array core part with accBad := [] } = u.array core part := by rw [← whole]
  unfold streamRow
  simp only [if_neg words, spmPoisoned_of_sound sound, whole, List.any_cons, List.contains_nil, List.any_nil, Bool.or_false,
    Bool.and_false, Bool.false_eq_true, if_false, spmQueued_of_settled settled, List.filter_nil]
  rw [kept]
  rfl

/-! ## ACCUM (R302) -/

/-- The value that an ACCUM puts in column `n` of row `m`. -/
def accumValue (s : State) (c : MxCmd) (m n old : Nat) : Nat :=
  accumElem ((c.f 1 1).testBit 0) (c.f 4 1) old
    ((s.block c.blk).spm.read (c.f 8 4 + m * c.f 0xC 4 + accSize (c.f 4 1) * n) (accSize (c.f 4 1)))

theorem accumRow_eq {u : State} {core part : Nat} {c : MxCmd} (settled : (u.block c.blk).was = [])
    (sound : (u.block c.blk).spmBad = []) (words : c.f 4 1 ≠ 7) (whole : (u.array core part).accBad = []) (m : Nat) :
    accumRow core part c u m =
      some (u.setArray core part ((u.array core part).writeRow (c.f 0x14 2 + m) (accumValue u c m))) := by
  have kept : { u.array core part with accBad := [] } = u.array core part := by rw [← whole]
  unfold accumRow
  simp only [if_neg words, spmPoisoned_of_sound sound, whole, List.any_cons, List.contains_nil, List.any_nil, Bool.or_false,
    Bool.and_false, Bool.false_eq_true, if_false, spmQueued_of_settled settled, List.filter_nil]
  rw [kept]
  rfl

/-! ## The steps -/

section
variable {s : State} {core part : Nat} {c : MxCmd}

theorem exec_stream_of_invalid (head : mxHead s core part 2 = some c)
    (invalid : (Sp.get {} (s.array core part).slots c.slot).valid = false) :
    exec (.stream core part) s = .next (mxEnd s core part 4) := by
  change execStream core part s = _
  unfold execStream
  simp only [head, invalid, Bool.not_false, if_true]

theorem block_congr {u : State} (blocks : u.blocks = s.blocks) (b : Nat) : u.block b = s.block b := by
  rw [State.block, blocks, State.block]

theorem exec_stream_own (head : mxHead s core part 2 = some c) {w : WSlot} (slot : Sp.get {} (s.array core part).slots c.slot = w)
    (valid : w.valid = true) (own : c.f 2 1 = 1)
    (within : c.f 8 4 + (c.f 6 2 - 1) * c.f 0xC 4 + w.view.kw * mxSize (c.f 4 1) ≤ (s.launch c.blk).spm)
    (settled : (s.block c.blk).was = []) (sound : (s.block c.blk).spmBad = []) (whole : (s.array core part).accBad = [])
    (words : c.f 4 1 ≠ 6) :
    ∃ t, exec (.stream core part) s = .next (mxEnd t core part 0) ∧
      RowsDone s core part (c.f 0x14 2) (streamValue s w c) (c.f 6 2) t := by
  obtain ⟨t, rows, done⟩ := mxRows_done (n := c.f 6 2) (lo := c.f 0x14 2) (elem := streamValue s w c)
    (f := streamRow core part w c c.blk) whole fun u m blocks whole' => by
      have same := block_congr blocks c.blk
      have values : streamValue u w c = streamValue s w c := by unfold streamValue; rw [same]
      rw [streamRow_eq (same ▸ settled) (same ▸ sound) words whole', values]
  refine ⟨t, ?_, done⟩
  change execStream core part s = _
  unfold execStream
  simp only [head, slot, valid, own, Bool.not_true, Bool.false_eq_true, if_false, if_true, if_neg (Nat.not_lt.mpr within), rows]
  rfl

theorem exec_accum_rows (head : mxHead s core part 3 = some c) (settled : (s.block c.blk).was = [])
    (sound : (s.block c.blk).spmBad = []) (whole : (s.array core part).accBad = []) (words : c.f 4 1 ≠ 7) :
    ∃ t, exec (.accum core part) s = .next (mxEnd t core part 0) ∧
      RowsDone s core part (c.f 0x14 2) (accumValue s c) (c.f 6 2) t := by
  obtain ⟨t, rows, done⟩ := mxRows_done (n := c.f 6 2) (lo := c.f 0x14 2) (elem := accumValue s c)
    (f := accumRow core part c) whole fun u m blocks whole' => by
      have same := block_congr blocks c.blk
      have values : accumValue u c = accumValue s c := by unfold accumValue; rw [same]
      rw [accumRow_eq (same ▸ settled) (same ▸ sound) words whole', values]
  refine ⟨t, ?_, done⟩
  change execAccum core part s = _
  unfold execAccum
  simp only [head, rows]
  rfl

end

/-! ## LOADW (R294, R297, R298) -/

theorem byte_writeBytes (m : Memory) (a : Nat) (bs : List Byte) (x : Nat) :
    (m.writeBytes a bs).byte x = if a ≤ x ∧ x < a + bs.length then bs.getD (x - a) 0 else m.byte x := by
  induction bs generalizing m a with
  | nil => exact (if_neg (by simp only [List.length_nil]; omega)).symm
  | cons b bs ih =>
    rw [Memory.writeBytes, ih, Memory.byte_setByte, List.length_cons]
    by_cases first : x = a
    · subst first
      rw [if_neg (by omega), if_pos rfl, if_pos (by omega), Nat.sub_self, List.getD_cons_zero]
    · by_cases later : a < x ∧ x < a + (bs.length + 1)
      · rw [if_pos (by omega), if_pos (by omega), show x - a = x - (a + 1) + 1 by omega, List.getD_cons_succ]
      · rw [if_neg (by omega), if_neg (by omega), if_neg (by omega)]

theorem read_congr_bytes {m m' : Memory} {a b n : Nat} (h : ∀ i < n, m.byte (a + i) = m'.byte (b + i)) :
    m.read a n = m'.read b n := by
  induction n generalizing a b with
  | zero => rfl
  | succ n ih =>
    have first := h 0 (Nat.succ_pos n)
    rw [Nat.add_zero, Nat.add_zero] at first
    rw [Memory.read_succ, Memory.read_succ, first]
    exact congrArg _ (congrArg _ (ih fun i hi => by rw [Nat.add_assoc, Nat.add_assoc, Nat.add_comm 1]; exact h (i + 1) (by omega)))

/-- Bytes taken out of a memory read as they stood there. -/
theorem read_writeBytes_readBytes (m : Memory) (off : Nat) {n x e : Nat} (within : x + e ≤ n) :
    (Memory.writeBytes [] 0 (m.readBytes off n)).read x e = m.read (off + x) e := by
  refine read_congr_bytes fun i hi => ?_
  rw [byte_writeBytes, length_readBytes, if_pos (by omega), Nat.sub_zero, List.getD_eq_getElem?_getD,
    getElem_readBytes _ _ (by omega), Option.getD_some, Nat.add_assoc]

/-- The set that a LOADW leaves of bytes from a place on. -/
def loadedSet (c : MxCmd) (m : Memory) (off : Nat) : WSlot :=
  { view := c.view, wscale := c.f 0x10 4, valid := true, data := Memory.writeBytes [] 0 (m.readBytes off c.view.bytes) }

theorem loadedSet_column {c : MxCmd} (dense : c.view.sparse = false) (m : Memory) (off : Nat) {n : Nat} (hn : n < 32) :
    (loadedSet c m off).column n = (List.range c.view.kw).map fun k =>
      (k, m.read (off + mxSize c.view.fmt * (32 * k + n)) (mxSize c.view.fmt)) := by
  rw [WSlot.column_dense dense, show (loadedSet c m off).view = c.view from rfl]
  refine List.map_congr_left fun k hk => ?_
  rw [List.mem_range] at hk
  refine congrArg (Prod.mk k) (read_writeBytes_readBytes m off ?_)
  have bytes : c.view.bytes = mxSize c.view.fmt * (32 * c.view.kw) := by
    rw [MxView.bytes, dense, if_neg Bool.false_ne_true, Nat.div_one, Nat.mul_comm]
  have last := Nat.mul_le_mul_left (mxSize c.view.fmt) (show 32 * k + n + 1 ≤ 32 * c.view.kw by omega)
  rw [Nat.mul_succ] at last
  exact bytes ▸ last

section
variable {s : State} {core part : Nat} {c : MxCmd}

theorem loadwEnd_dense (dense : c.view.sparse = false) (settled : (s.block c.blk).was = []) (m : Memory) (off : Nat) :
    loadwEnd s core part c (.ok (Memory.writeBytes [] 0 (m.readBytes off c.view.bytes))) =
      mxEnd (s.setArray core part { s.array core part with
        slots := Sp.put (s.array core part).slots c.slot (loadedSet c m off) }) core part 0 := by
  have ordered : (loadedSet c m off).metaOk = true := by
    unfold WSlot.metaOk
    rw [show (loadedSet c m off).view = c.view from rfl, dense]
    rfl
  unfold loadedSet at ordered ⊢
  unfold loadwEnd
  simp only [dense, Bool.false_and, Bool.false_eq_true, if_false, spmQueued_of_settled settled, ordered, if_true]

/-- What a LOADW of weights that are not sparse leaves. -/
structure LoadedFrom (t : State) (core part : Nat) (c : MxCmd) (m : Memory) (off : Nat) : Prop where
  slot : Sp.find? (t.array core part).slots c.slot = some (loadedSet c m off)
  ended : (t.array core part).queue.head?.map MxCmd.res = some (some 0)

theorem loadwEnd_loaded {q : List MxCmd} (queue : (s.array core part).queue = c :: q) (dense : c.view.sparse = false)
    (settled : (s.block c.blk).was = []) (m : Memory) (off : Nat) :
    LoadedFrom (loadwEnd s core part c (.ok (Memory.writeBytes [] 0 (m.readBytes off c.view.bytes)))) core part c m off := by
  have queue' : ((s.setArray core part { s.array core part with
      slots := Sp.put (s.array core part).slots c.slot (loadedSet c m off) }).array core part).queue = c :: q := by
    rw [State.array_setArray_same]; exact queue
  rw [loadwEnd_dense dense settled]
  refine ⟨?_, mxEnd_head queue' 0⟩
  rw [mxEnd_array queue', State.array_setArray_same]
  exact Sp.find_put_same ..

theorem exec_loadw_spm (head : mxHead s core part 1 = some c) (own : c.f 2 1 = 1) (settled : (s.block c.blk).was = [])
    (sound : spmPoisoned s c.blk (c.f 8 4) c.view.bytes = false) : exec (.loadw core part) s =
      .next (loadwEnd s core part c (.ok (Memory.writeBytes [] 0 ((s.block c.blk).spm.readBytes (c.f 8 4) c.view.bytes)))) := by
  change execLoadw core part s = _
  unfold execLoadw loadwSpm
  simp only [head, own, sound, Bool.false_eq_true, if_false, spmQueued_of_settled settled]

theorem exec_loadw_bank {u : State} {pa frame : Nat} {f : Frame} (head : mxHead s core part 1 = some c) (bank : c.f 2 1 = 0)
    (found : bankAddr s core c = (some (some pa), u)) (holds : frameOf u core (pa / 65536 * 65536) = some (frame, f))
    (valid : f.valid = true) (sound : f.poisoned (pa % 65536) c.view.bytes = false) : exec (.loadw core part) s =
      .next (loadwEnd (touchFrame u core frame) core part c
        (.ok (Memory.writeBytes [] 0 (f.data.readBytes (pa % 65536) c.view.bytes)))) := by
  change execLoadw core part s = _
  unfold execLoadw
  simp only [head, bank, found, holds, valid, sound, Bool.not_true, Bool.false_eq_true, if_false]

theorem touchFrame_array (u : State) (core frame part : Nat) : (touchFrame u core frame).array core part = u.array core part := by
  rw [State.array, touchFrame, State.core_setCore_same, State.array]

end

end Sys2Proof.Machine
end

section
/-!
DRAIN and the bytes that it leaves to land, the end of a command, the weight bank and the power of quarters (R295, R302,
R304, R312, R345).
-/
namespace Sys2Proof.Machine
open Sys2Proof

/-! ## Bytes that land (R271, R295) -/

/-- Keys that rise repeat none: a pair of a table is what its key reads as. -/
theorem find_of_mem_rising {α : Type} {m : Sp α} {lo : Nat} (rises : Sp.rising lo m = true) {e : Nat × α} (he : e ∈ m) :
    Sp.find? m e.1 = some e.2 := by
  induction m generalizing lo with
  | nil => cases he
  | cons x m ih =>
    obtain ⟨j, b⟩ := x
    simp only [Sp.rising, Bool.and_eq_true, decide_eq_true_eq] at rises
    rw [Sp.find_cons]
    rcases List.mem_cons.mp he with rfl | he
    · exact if_pos rfl
    · have found := ih rises.2 he
      rw [if_neg, found]
      rintro rfl
      rw [Sp.find_of_rising rises.2 (Nat.lt_succ_self _)] at found
      cases found

section
variable {o : Sp Byte} {bs : List (Nat × Byte)} (listed : ∀ e ∈ bs, Sp.find? o e.1 = some e.2)
include listed

/-- Bytes of a table that are set one after another: each as the table has it. -/
theorem byte_foldl_listed (m : Memory) (x : Nat) :
    (bs.foldl (fun m e => m.setByte e.1 e.2) m).byte x = if x ∈ bs.map (·.1) then (Sp.find? o x).getD 0 else m.byte x := by
  induction bs generalizing m with
  | nil => rfl
  | cons e bs ih =>
    rw [List.foldl_cons, ih fun y hy => listed y (List.mem_cons_of_mem _ hy), Memory.byte_setByte, List.map_cons]
    by_cases later : x ∈ bs.map (·.1)
    · rw [if_pos later, if_pos (List.mem_cons_of_mem _ later)]
    · rw [if_neg later]
      by_cases first : x = e.1
      · subst first
        rw [if_pos rfl, if_pos List.mem_cons_self, listed e List.mem_cons_self, Option.getD_some]
      · rw [if_neg first, if_neg (mt List.mem_cons.mp (not_or_intro first later))]

end

theorem find_foldl_del {α : Type} (bs : List (Nat × α)) (l : Sp α) (x : Nat) :
    Sp.find? (bs.foldl (fun l e => Sp.del l e.1) l) x = if x ∈ bs.map (·.1) then none else Sp.find? l x := by
  induction bs generalizing l with
  | nil => rfl
  | cons e bs ih =>
    rw [List.foldl_cons, ih, Sp.find_del, List.map_cons]
    by_cases first : x = e.1
    · subst first
      rw [if_pos rfl, ite_self, if_pos List.mem_cons_self]
    · rw [if_neg first]
      exact if_congr (by rw [List.mem_cons, or_iff_right first]) rfl rfl

section
variable (s : State) (array : Nat) (c : MxCmd) (bs : List (Nat × Byte))

theorem landDrain_blockOnly : BlockOnly c.blk s (landDrain s array c bs) :=
  foldl_rel (BlockOnly.refl _) BlockOnly.trans _
    (fun u _ => (noteSpm_blockOnly u _ _ _ _).trans (setBlock_blockOnly _ _ _)) bs s

theorem landDrain_spm : ((landDrain s array c bs).block c.blk).spm =
    bs.foldl (fun m e => m.setByte e.1 e.2) (s.block c.blk).spm := by
  induction bs generalizing s with
  | nil => rfl
  | cons e bs ih =>
    have step : landDrain s array c (e :: bs) = landDrain ((noteSpm s c.blk e.1 1 (some array)).setBlock c.blk
        { (noteSpm s c.blk e.1 1 (some array)).block c.blk with
          spm := ((noteSpm s c.blk e.1 1 (some array)).block c.blk).spm.setByte e.1 e.2 }) array c bs := rfl
    rw [step, ih, State.block_setBlock_same, (noteSpm_spec s c.blk e.1 1 (some array)).1, List.foldl_cons]

theorem pickLanding_subset : ∀ e ∈ (pickLanding s bs).1, e ∈ bs := by
  cases bs with
  | nil => exact fun e he => he
  | cons b bs =>
    have kept : ∀ (xs : List (Nat × Byte)) (r : List (Nat × Byte) × State), (∀ e ∈ xs, e ∈ b :: bs) → (∀ e ∈ r.1, e ∈ b :: bs) →
        ∀ e ∈ (xs.foldl (fun r x =>
          (if Config.freeVersion r.2.fresh.1 then r.1 ++ [x] else r.1, r.2.fresh.2)) r).1, e ∈ b :: bs := by
      intro xs
      induction xs with
      | nil => exact fun r _ hr => hr
      | cons x xs ih =>
        intro r hxs hr
        refine ih _ (fun e he => hxs e (List.mem_cons_of_mem _ he)) fun e he => ?_
        dsimp only at he
        split at he
        · rcases List.mem_append.mp he with h | h
          · exact hr e h
          · exact List.mem_singleton.mp h ▸ hxs x List.mem_cons_self
        · exact hr e he
    exact kept bs ([b], s) (fun e he => List.mem_cons_of_mem _ he)
      fun e he => List.mem_singleton.mp he ▸ List.mem_cons_self

/-- What is picked draws free choices, and changes nothing else. -/
theorem pickLanding_field {α : Sort*} (f : State → α) (hf : ∀ u : State, f { u with free := 0 } = f u) :
    f (pickLanding s bs).2 = f s := by
  cases bs with
  | nil => rfl
  | cons b bs =>
    refine foldl_rel (R := fun u v : List (Nat × Byte) × State => f v.2 = f u.2) (fun _ => rfl) (fun h h' => h'.trans h) _
      (fun u x => ?_) bs ([b], s)
    change f { u.2 with free := u.2.free + 1 } = f u.2
    rw [← hf { u.2 with free := u.2.free + 1 }, ← hf u.2]

end

/-! ## DRAIN (R295, R302, R304) -/

section
variable {s : State} {core part : Nat} {c : MxCmd} {q : List MxCmd}

theorem MxCmd.drainGood_of_whole {a : MxArray} (whole : a.accBad = []) : c.drainGood a = c.f 6 2 := by
  have fine : ((List.range (c.f 6 2)).find? fun m => (c.drainRows m).any a.accBad.contains) = none :=
    List.find?_eq_none.mpr fun m _ => by simp [whole]
  rw [MxCmd.drainGood, fine, Option.getD_none]

/-- Rows cleared one after another. -/
def clearRows (a : MxArray) (lo n : Nat) : MxArray := (List.range n).foldl (fun a m => a.writeRow (lo + m) fun _ _ => 0) a

theorem MxCmd.drainClear_eq {a : MxArray} (words : c.f 4 1 ≠ 7) (n : Nat) :
    c.drainClear a n = if (c.f 1 1).testBit 0 = true then clearRows a (c.f 0x14 2) n else a := by
  have row : ∀ m, c.drainRows m = [c.f 0x14 2 + m] := fun m => by simp [MxCmd.drainRows, words]
  unfold MxCmd.drainClear clearRows MxArray.writeRow MxArray.writeWords
  simp only [row, List.foldl_cons, List.foldl_nil]

theorem clearRows_accOnly (a : MxArray) (lo n : Nat) : AccOnly a (clearRows a lo n) :=
  foldl_rel AccOnly.refl AccOnly.trans _ (fun b _ => MxArray.writeRow_accOnly b _ _) _ a

theorem word_clearRows (a : MxArray) (lo n r : Nat) {k : Nat} (hk : k < 32) :
    (clearRows a lo n).word r k = if lo ≤ r ∧ r < lo + n then 0 else a.word r k := by
  induction n with
  | zero => exact (if_neg (by omega)).symm
  | succ n ih =>
    have step : clearRows a lo (n + 1) = (clearRows a lo n).writeRow (lo + n) fun _ _ => 0 := by
      unfold clearRows
      rw [List.range_succ, List.foldl_append, List.foldl_cons, List.foldl_nil]
    rw [step, MxArray.word_writeRow _ _ _ _ hk, ih]
    by_cases last : r = lo + n
    · rw [if_pos last, if_pos (by omega), Nat.zero_mod]
    · rw [if_neg last]
      exact if_congr (by omega) rfl rfl

theorem MxCmd.drainClear_accOnly {a : MxArray} (words : c.f 4 1 ≠ 7) (n : Nat) : AccOnly a (c.drainClear a n) := by
  rw [MxCmd.drainClear_eq words]
  split
  · exact clearRows_accOnly ..
  · exact .refl a

theorem MxCmd.word_drainClear {a : MxArray} (words : c.f 4 1 ≠ 7) (n r : Nat) {k : Nat} (hk : k < 32) :
    (c.drainClear a n).word r k =
      if (c.f 1 1).testBit 0 = true ∧ c.f 0x14 2 ≤ r ∧ r < c.f 0x14 2 + n then 0 else a.word r k := by
  rw [MxCmd.drainClear_eq words]
  by_cases clear : (c.f 1 1).testBit 0 = true
  · rw [if_pos clear, word_clearRows _ _ _ _ hk]
    exact if_congr (by rw [and_iff_right clear]) rfl rfl
  · rw [if_neg clear, if_neg fun h => clear h.1]

/-- A DRAIN that has read its rows: its bytes are to land. -/
def drainRead (s : State) (core part : Nat) (c : MxCmd) : State :=
  mxSetHead (mxEnd (s.setArray core part (c.drainClear (s.array core part) (c.f 6 2))) core part 0) core part
    fun x => { x with land := c.drainOut (s.array core part) (c.f 6 2) }

theorem exec_drain_whole (head : mxHead s core part 4 = some c) (whole : (s.array core part).accBad = []) :
    exec (.drain core part) s = .next (drainStep (drainRead s core part c) core part
      { c with land := c.drainOut (s.array core part) (c.f 6 2) }) := by
  change execDrain core part s = _
  unfold execDrain
  simp only [head, MxCmd.drainGood_of_whole whole, if_true]
  rfl

theorem drainRead_array (queue : (s.array core part).queue = c :: q) (words : c.f 4 1 ≠ 7) :
    (drainRead s core part c).array core part = { c.drainClear (s.array core part) (c.f 6 2) with
      queue := { c with res := some 0, need := none, land := c.drainOut (s.array core part) (c.f 6 2) } :: q } := by
  have cleared : ((s.setArray core part (c.drainClear (s.array core part) (c.f 6 2))).array core part).queue = c :: q := by
    rw [State.array_setArray_same, (MxCmd.drainClear_accOnly words _).field MxArray.queue fun _ => rfl, queue]
  have ended := mxEnd_array cleared 0
  rw [State.array_setArray_same] at ended
  rw [drainRead, mxSetHead_of_queue (congrArg MxArray.queue ended), State.array_setArray_same, ended]

theorem mxSetHead_mem (s : State) (core part : Nat) (f : MxCmd → MxCmd) : (mxSetHead s core part f).mem = s.mem := by
  unfold mxSetHead
  dsimp only
  split <;> rfl

/-- Some bytes of a DRAIN have landed, and its array and its allocation hold what else they held. -/
theorem drainStep_spec {u : State} {h : MxCmd} (queue : (u.array core part).queue = h :: q) (land : h.land = c.land)
    (rises : Sp.rising 0 c.land = true) : ∃ landed : List Nat,
      (∃ rest, (drainStep u core part c).array core part = { u.array core part with queue := { h with land := rest } :: q } ∧
        ∀ x, Sp.find? rest x = if x ∈ landed then none else Sp.find? c.land x) ∧
      (∀ x ∈ landed, Sp.find? c.land x ≠ none) ∧
      (∀ x, ((drainStep u core part c).block c.blk).spm.byte x =
        if x ∈ landed then (Sp.find? c.land x).getD 0 else (u.block c.blk).spm.byte x) ∧
      (drainStep u core part c).mem = u.mem := by
  let picked := pickLanding u c.land
  let v := landDrain picked.2 (arrayId core part) c picked.1
  have listed : ∀ e ∈ picked.1, Sp.find? c.land e.1 = some e.2 := fun e he =>
    find_of_mem_rising rises (pickLanding_subset u c.land e he)
  have array : v.array core part = u.array core part :=
    ((landDrain_blockOnly picked.2 (arrayId core part) c picked.1).field (fun t => t.array core part) fun _ => rfl).trans
      (pickLanding_field u c.land (fun t => t.array core part) fun _ => rfl)
  have spm : (v.block c.blk).spm = picked.1.foldl (fun m e => m.setByte e.1 e.2) (u.block c.blk).spm :=
    (landDrain_spm picked.2 (arrayId core part) c picked.1).trans
      (congrArg (fun m => picked.1.foldl (fun m e => Memory.setByte m e.1 e.2) m)
        (pickLanding_field u c.land (fun t => (t.block c.blk).spm) fun _ => rfl))
  have step : drainStep u core part c = mxSetHead v core part fun x =>
      { x with land := picked.1.foldl (fun l e => Sp.del l e.1) x.land } := rfl
  refine ⟨picked.1.map (·.1), ⟨picked.1.foldl (fun l e => Sp.del l e.1) c.land, ?_, find_foldl_del _ _⟩, ?_, ?_, ?_⟩
  · rw [step, mxSetHead_of_queue (congrArg MxArray.queue array |>.trans queue), State.array_setArray_same, array, land]
  · intro x hx
    obtain ⟨e, he, rfl⟩ := List.mem_map.mp hx
    rw [listed e he]
    nofun
  · intro x
    rw [step, State.block, mxSetHead_blocks, ← State.block, spm, byte_foldl_listed listed]
  · rw [step, mxSetHead_mem, (landDrain_blockOnly picked.2 (arrayId core part) c picked.1).field State.mem fun _ => rfl]
    exact pickLanding_field u c.land State.mem fun _ => rfl

/-- What a DRAIN of which no row is lost leaves. -/
theorem exec_drain_spec (head : mxHead s core part 4 = some c) (whole : (s.array core part).accBad = [])
    (words : c.f 4 1 ≠ 7) :
    ∃ t h, exec (.drain core part) s = .next t ∧ (t.array core part).queue.head? = some h ∧ h.res = some 0 ∧ t.mem = s.mem ∧
      (∀ x b, Sp.find? (c.drainOut (s.array core part) (c.f 6 2)) x = some b →
        Sp.find? h.land x = some b ∨ (Sp.find? h.land x = none ∧ (t.block c.blk).spm.byte x = b)) ∧
      (∀ x, Sp.find? (c.drainOut (s.array core part) (c.f 6 2)) x = none →
        Sp.find? h.land x = none ∧ (t.block c.blk).spm.byte x = (s.block c.blk).spm.byte x) ∧
      ∀ r n, n < 32 → (t.array core part).word r n =
        if (c.f 1 1).testBit 0 = true ∧ c.f 0x14 2 ≤ r ∧ r < c.f 0x14 2 + c.f 6 2 then 0
        else (s.array core part).word r n := by
  obtain ⟨q, queue, -, -⟩ := mxHead_eq_some head
  have read := drainRead_array queue words
  have blocks : (drainRead s core part c).blocks = s.blocks := (mxSetHead_blocks ..).trans (mxSetHead_blocks ..)
  obtain ⟨landed, ⟨rest, array, left⟩, named, bytes, mem⟩ := drainStep_spec
    (c := { c with land := c.drainOut (s.array core part) (c.f 6 2) }) (congrArg MxArray.queue read) rfl
    (MxCmd.rising_drainOut _)
  refine ⟨_, _, exec_drain_whole head whole, by rw [array]; rfl, rfl,
    mem.trans ((mxSetHead_mem ..).trans (mxSetHead_mem ..)), fun x b hx => ?_, fun x hx => ?_, fun r n hn => ?_⟩
  · by_cases hl : x ∈ landed
    · refine .inr ⟨(left x).trans (if_pos hl), ?_⟩
      rw [bytes, if_pos hl]
      exact (congrArg (Option.getD · 0) hx).trans rfl
    · exact .inl (((left x).trans (if_neg hl)).trans hx)
  · have hl : x ∉ landed := fun h => named x h hx
    refine ⟨((left x).trans (if_neg hl)).trans hx, ?_⟩
    rw [bytes, if_neg hl, block_congr blocks]
  · rw [array, read]
    exact MxCmd.word_drainClear words _ _ hn

end

end Sys2Proof.Machine
end

section
/-!
The end of a command, the weight bank, and the power of quarters (R295, R304, R312, R345).
-/
namespace Sys2Proof.Machine
open Sys2Proof

section
variable {s : State} {core part : Nat} {c : MxCmd} {q : List MxCmd}

/-! ## SIGNAL and MX_COMPLETE (R295, R303 to R305) -/

theorem exec_signal_of_delivered (head : mxHead s core part 5 = some c) (delivered : mxUndelivered s c.blk part = []) :
    exec (.signal core part) s = .next (mxEnd (barUpdate s c.blk (c.f 2 1) { arrivals := 1 }) core part 0) := by
  change execSignal core part s = _
  unfold execSignal
  simp only [head, delivered]
  rfl

theorem landRest_eq (s : State) (array : Nat) (c : MxCmd) (st : Nat) : ∃ bad, landRest s array c st = landDrain s array c c.land ∨
    landRest s array c st = (landDrain s array c c.land).setBlock c.blk
      { (landDrain s array c c.land).block c.blk with spmBad := bad } := by
  unfold landRest
  dsimp only
  split
  · exact ⟨[], .inl rfl⟩
  · exact ⟨_, .inr rfl⟩

theorem landRest_blockOnly (s : State) (array : Nat) (c : MxCmd) (st : Nat) : BlockOnly c.blk s (landRest s array c st) := by
  obtain ⟨bad, same | set⟩ := landRest_eq s array c st
  · exact same ▸ landDrain_blockOnly s array c c.land
  · exact set ▸ (landDrain_blockOnly s array c c.land).trans (setBlock_blockOnly _ _ _)

theorem landRest_spm (s : State) (array : Nat) (c : MxCmd) (st : Nat) : ((landRest s array c st).block c.blk).spm =
    c.land.foldl (fun m e => m.setByte e.1 e.2) (s.block c.blk).spm := by
  rw [← landDrain_spm s array c c.land]
  obtain ⟨bad, same | set⟩ := landRest_eq s array c st
  · rw [same]
  · rw [set, State.block_setBlock_same]

/-- The bytes of a table whose keys rise, set one after another. -/
theorem byte_foldl_rising {l : Sp Byte} (rises : Sp.rising 0 l = true) (m : Memory) (x : Nat) :
    (l.foldl (fun m e => m.setByte e.1 e.2) m).byte x = (Sp.find? l x).getD (m.byte x) :=
  Memory.byte_foldl_moved (old := 0) (new := 0) rises (fun _ _ => Nat.zero_le _) (Nat.zero_le x) m

/-- The last bytes of a command have landed, and STATUS stands in its parameter block. -/
def mxWritten (s : State) (core part : Nat) (c : MxCmd) (q : List MxCmd) (st : Nat) : State :=
  let u := landRest (s.setArray core part { s.array core part with queue := q }) (arrayId core part) c st
  spmWrite (noteSpm u c.blk (c.off + 0x3C) 4 (some (arrayId core part))) c.blk (c.off + 0x3C) 4 st

theorem mxWritten_blockOnly (st : Nat) : BlockOnly c.blk (s.setArray core part { s.array core part with queue := q })
    (mxWritten s core part c q st) :=
  ((landRest_blockOnly _ _ c st).trans (noteSpm_blockOnly _ _ _ _ _)).trans (spmWrite_blockOnly _ _ _ _ _)

theorem mxWritten_spm (st : Nat) : ((mxWritten s core part c q st).block c.blk).spm =
    (c.land.foldl (fun m e => m.setByte e.1 e.2) (s.block c.blk).spm).write (c.off + 0x3C) 4 st := by
  unfold mxWritten
  dsimp only
  rw [spmWrite_spm, (noteSpm_spec _ c.blk _ 4 _).1, landRest_spm]
  rfl

/-- The weft of a command that has retired with a STATUS. -/
def Weft.retire (x : Weft) (c : MxCmd) (st : Nat) : Weft :=
  let bad := st % 256 != 0
  { x with
    mx := countDone x.mx c.op, mxFailed := x.mxFailed || bad
    failures := if bad then
      x.failures ++ [{ cls := .matrix, seq := c.seq, op := c.op, code := st % 256, addr := c.off }] else x.failures }

theorem exec_mxComplete_of_res (queue : (s.array core part).queue = c :: q) {st : Nat} (res : c.res = some st) :
    exec (.mxComplete core part) s = .next ((mxWritten s core part c q st).setWeft c.blk c.weft
      (((mxWritten s core part c q st).weft c.blk c.weft).retire c st)) := by
  change execMxComplete core part s = _
  unfold execMxComplete
  simp only [queue, res]
  rfl

theorem exec_mxComplete_spec (queue : (s.array core part).queue = c :: q) {st : Nat} (res : c.res = some st)
    (rises : Sp.rising 0 c.land = true) :
    ∃ t, exec (.mxComplete core part) s = .next t ∧ (t.array core part).queue = q ∧
      (t.block c.blk).spm.read (c.off + 0x3C) 4 = st % 2 ^ 32 ∧
      (∀ x, x < c.off + 0x3C ∨ c.off + 0x40 ≤ x →
        (t.block c.blk).spm.byte x = (Sp.find? c.land x).getD ((s.block c.blk).spm.byte x)) ∧
      (t.weft c.blk c.weft).mx = countDone (s.weft c.blk c.weft).mx c.op := by
  have only := mxWritten_blockOnly (s := s) (core := core) (part := part) (c := c) (q := q) st
  refine ⟨_, exec_mxComplete_of_res queue res, ?_, ?_, fun x hx => ?_, ?_⟩
  · change ((mxWritten s core part c q st).array core part).queue = q
    rw [only.field (fun t => t.array core part) fun _ => rfl, State.array_setArray_same]
  · change ((mxWritten s core part c q st).block c.blk).spm.read _ 4 = _
    rw [mxWritten_spm, Memory.read_write, show 256 ^ 4 = 2 ^ 32 by norm_num]
  · change ((mxWritten s core part c q st).block c.blk).spm.byte x = _
    rw [mxWritten_spm, Memory.byte_write_of_not_mem (by omega), byte_foldl_rising rises]
  · rw [State.weft_setWeft_same, only.field (fun t => t.weft c.blk c.weft) fun _ => rfl]
    rfl

end

/-! ## The weight bank (R345) -/

section
variable {s : State} {core slot : Nat}

theorem exec_weightStage_of_need {p : Nat} (need : bankNeed s core = some p) (frame : missFrame s core = some slot)
    (way : wayTo s (domOf core) (homeOf p) = .crosses) : exec (.weightStage core slot) s =
      .next (touchFrame (s.setCore core { s.core core with bank := Sp.put (s.core core).bank slot (stagedPage s p) }) core slot) := by
  change execWeightStage core slot s = _
  unfold execWeightStage stageFrame
  simp only [need, frame, way, if_true]

theorem stagedPage_tag (s : State) (p : Nat) : (stagedPage s p).tag = p ∧ (stagedPage s p).valid = false := by
  unfold stagedPage
  dsimp only
  split <;> exact ⟨rfl, rfl⟩

theorem touchFrame_bank (u : State) (core frame : Nat) : ((touchFrame u core frame).core core).bank = (u.core core).bank := by
  rw [touchFrame, State.core_setCore_same]

theorem exec_weightStageDone_of_sound {f : Frame} (found : Sp.find? (s.core core).bank slot = some f) (staging : f.valid = false)
    (current : f.stale = false) (read : f.lost = false) (sound : f.bad = none) : exec (.weightStageDone core slot) s =
      .next (s.setCore core { s.core core with bank := Sp.put (s.core core).bank slot { f with valid := true } }) := by
  change execWeightStageDone core slot s = _
  unfold execWeightStageDone
  simp only [found, staging, current, read, sound, Bool.false_eq_true, if_false]

end

/-! ## Power (R312) -/

theorem testBit_or_one_shiftLeft (x k i : Nat) : (x ||| 1 <<< k).testBit i = (x.testBit i || decide (i = k)) := by
  rw [Nat.testBit_or, Nat.one_shiftLeft, Nat.testBit_two_pow]
  exact congrArg _ (decide_eq_decide.mpr eq_comm)

/-- A bit that is set is cleared by the difference, and every other stays. -/
theorem testBit_sub_two_pow_of_testBit {v k : Nat} (bit : v.testBit k = true) (i : Nat) :
    (v - 2 ^ k).testBit i = (v.testBit i && decide (i ≠ k)) := by
  induction k generalizing v i with
  | zero =>
    rw [Nat.testBit_zero, decide_eq_true_eq] at bit
    cases i with
    | zero => simp only [Nat.testBit_zero, pow_zero, ne_eq, not_true, decide_false, Bool.and_false, decide_eq_false_iff_not]; omega
    | succ i =>
      rw [Nat.testBit_add_one, Nat.testBit_add_one, show (v - 2 ^ 0) / 2 = v / 2 by omega]
      simp
  | succ k ih =>
    have even : 2 ^ (k + 1) = 2 * 2 ^ k := Nat.pow_succ'
    rw [Nat.testBit_add_one] at bit
    have low : 2 ^ k ≤ v / 2 := Nat.ge_two_pow_of_testBit bit
    cases i with
    | zero =>
      rw [Nat.testBit_zero, Nat.testBit_zero, show (v - 2 ^ (k + 1)) % 2 = v % 2 by omega]
      simp
    | succ i =>
      rw [Nat.testBit_add_one, Nat.testBit_add_one, show (v - 2 ^ (k + 1)) / 2 = v / 2 - 2 ^ k by omega, ih bit]
      simp

section
variable {s : State} {core part quarter : Nat}

theorem exec_mxPowerGate_of_idle (idle : (s.domain (domOf core)).mxIdle ≠ 0) (empty : (s.array core part).queue = [])
    (among : quarter < 4) : exec (.mxPowerGate core part quarter) s =
      .next (s.setArray core part { s.array core part with gated := (s.array core part).gated ||| 1 <<< quarter }) := by
  change execMxPowerGate core part quarter s = _
  unfold execMxPowerGate
  exact if_neg (by simp only [empty, idle, ne_eq, not_true, false_or]; omega)

theorem exec_mxWake_of_gated {c : MxCmd} {q : List MxCmd} (queue : (s.array core part).queue = c :: q) (needs : c.f 0 1 ≠ 5)
    (gated : (s.array core part).gated.testBit quarter = true) : exec (.mxWake core part quarter) s =
      .next (s.setArray core part { s.array core part with gated := (s.array core part).gated - 2 ^ quarter }) := by
  change execMxWake core part quarter s = _
  unfold execMxWake
  simp only [queue, gated, bne_iff_ne.mpr needs, Bool.and_true, if_true]

end

end Sys2Proof.Machine
end

section
/-!
A piece of a copy moves: into the scratchpad from its home, or to its home (R228, R271, R276, R279).
-/
namespace Sys2Proof.Machine
open Sys2Proof

/-! ## Bytes read as a number -/

/-- Each digit of what is read is the byte there. -/
theorem ofNat_read_div (m : Memory) (a : Nat) {n i : Nat} (hi : i < n) :
    BitVec.ofNat 8 (m.read a n / 256 ^ i) = m.byte (a + i) := by
  induction n generalizing a i with
  | zero => omega
  | succ n ih =>
    rw [Memory.read_succ]
    cases i with
    | zero =>
      apply BitVec.eq_of_toNat_eq
      rw [pow_zero, Nat.div_one, BitVec.toNat_ofNat, Nat.add_zero a]
      have := (m.byte a).isLt
      omega
    | succ i =>
      have first := (m.byte a).isLt
      rw [pow_succ', ← Nat.div_div_eq_div_mul,
        show ((m.byte a).toNat + 256 * m.read (a + 1) n) / 256 = m.read (a + 1) n by omega, ih _ (by omega),
        show a + 1 + i = a + (i + 1) by omega]

theorem foldr_bytes_read {β : Type} (m : Memory) (a n : Nat) (f : Nat → Nat × β) (bytes : ∀ i < n, (f i).1 = m.read (a + i) 1) :
    ((List.range n).map f).foldr (fun b v => b.1 + 256 * v) 0 = m.read a n := by
  have from_ : ∀ k j, j + k = n → ((List.range' j k).map f).foldr (fun b v => b.1 + 256 * v) 0 = m.read (a + j) k := by
    intro k
    induction k with
    | zero => exact fun _ _ => rfl
    | succ k ih =>
      intro j hj
      rw [List.range'_succ, List.map_cons, List.foldr_cons, ih (j + 1) (by omega), bytes j (by omega), Memory.read_succ,
        Memory.read_succ]
      rfl
  rw [List.range_eq_range', from_ n 0 (by omega), Nat.add_zero]

/-! ## The way to the home, where the home is the copy's own domain (R228, R271) -/

theorem lineHome_lineOf (pa : Nat) : lineHome (lineOf pa) = homeOf pa := by
  unfold lineHome lineOf homeOf
  omega

section
variable {s : State} {core pa n : Nat}

theorem copyReadL1_home (still : NoMigration s) (near : homeOf pa = domOf core) (gate : homeGate s (lineOf pa) = .ok s)
    (own : l2Gate s (domOf core) (lineOf pa) = .ok s) (absent : s.l1Line (sliceOf s core (lineOf pa)) (lineOf pa) = none)
    (some_ : 0 < n) : ∃ bad, copyReadL1 s core pa n .normal = .ok (s, s.mem.read pa n, bad) := by
  have frames : dropAliasL1 s core (lineOf pa) = .ok s := by simp only [dropAliasL1, aliasLine_eq_none still]
  have home : lineHome (lineOf pa) = domOf core := (lineHome_lineOf pa).trans near
  have ready : ∀ off k, l2Ready s (domOf core) (lineOf pa) off k .normal = .ok s := fun off k => by
    unfold l2Ready
    simp only [own, dropAlias, aliasLine_eq_none still, home, gate, keepAs, bind, Except.bind, if_true, if_neg (by decide : ¬ Policy.normal = .keepL2)]
  have no_byte : ((List.range n).all fun _ => false) = false :=
    List.all_eq_false.mpr ⟨0, List.mem_range.mpr some_, Bool.false_ne_true⟩
  have value := foldr_bytes_read s.mem pa n (fun i => l2Value s (domOf core) (lineOf pa) (pa % 256 + i) 1) fun i _ => by
    have place : lineOf pa * 256 + (pa % 256 + i) = pa + i := by unfold lineOf; omega
    simp only [l2Value, home, if_true, State.homeRead, placeOf_eq still, place]
  unfold copyReadL1
  simp only [frames, absent, bind, Except.bind, Option.getD_none, Nat.zero_testBit, Bool.false_and, Bool.or_self, no_byte,
    Bool.false_eq_true, if_false, if_neg (by decide : ¬ Policy.normal = .noL1), ready, value]
  exact ⟨_, rfl⟩

/-- A write of a copy to its own domain's main DRAM. -/
theorem copyWrite_home (still : NoMigration s) (near : homeOf pa = domOf core) (gate : homeGate s (lineOf pa) = .ok s)
    (within : pa % 256 + n ≤ 256) (who x : Nat) :
    ∃ t, copyWrite s core who pa n x false .normal = .ok t ∧ t.blocks = s.blocks ∧ StoredAt s pa n x t := by
  have home : lineHome (lineOf pa) = domOf core := (lineHome_lineOf pa).trans near
  have kept : putsHome s (domOf core) (lineOf pa) .normal = false := by
    rw [putsHome, home, bne_self_eq_false, Bool.false_and, Bool.false_and]
  have put : l2Put s (domOf core) (lineOf pa) (lineData pa n x) (byteMask (pa % 256) n) [] .normal [who] =
      .ok (mergeHome s (domOf core) (lineOf pa) (lineData pa n x) (byteMask (pa % 256) n) []) := by
    unfold l2Put
    simp only [dropAlias, aliasLine_eq_none still, home, gate, keepAs, bind, Except.bind, if_true,
      if_neg (by decide : ¬ Policy.normal = .keepL2)]
  have stored := storedAt_dirWrite still within x [] (domOf core) false
  have look : LookOnly s (mergeHome s (domOf core) (lineOf pa) (lineData pa n x) (byteMask (pa % 256) n) []) :=
    (homeBytes_lookOnly s _ _ _ _).trans (dirWrite_domainsOnly _ _ _ _).look
  refine ⟨noteStore (mergeHome s (domOf core) (lineOf pa) (lineData pa n x) (byteMask (pa % 256) n) []) (some core) pa n x,
    ?_, look.field State.blocks fun _ => rfl, stored.threads, stored.ops, stored.byte⟩
  unfold copyWrite
  simp only [Bool.false_or, kept, Bool.false_eq_true, if_false, put, bind, Except.bind]

end

/-! ## The move of one piece (R276, R279, R288) -/

/-- The first piece of a copy that may move, alone before the first whose page is to be found, and sound at its source. -/
structure FirstPiece (s : State) (core : Nat) (x : Copy) (e : Elem) (es : List Elem) (pa : Nat) : Prop where
  pend : x.pend = e :: es
  open_ : x.open_ = [e]
  live : e.live = true
  accepted : e.refused = false
  cached : e.nc = false
  place : e.pa = some pa
  sound : ∀ y ∈ x.pend, sameSector x e y = true → sourceLost s core x pa false y = false

section
variable {s : State} {core slot pa : Nat} {x : Copy} {e : Elem} {es : List Elem} (first : FirstPiece s core x e es pa)
include first

theorem FirstPiece.group : pieceGroup x e = [e] := by
  rw [pieceGroup, first.open_, List.filter_cons_of_pos, List.filter_nil]
  simp [first.place]

theorem FirstPiece.drop : x.drop [e] = { x with pend := es } := by
  rw [Copy.drop, List.foldl_cons, List.foldl_nil, first.pend, List.erase_cons_head]

theorem FirstPiece.copyMove : copyMove s core slot 0 x = moveChosen s core slot x e 0 := by
  have recalled : ∀ y, recalledPiece s core x = some y → y = e := fun y hy => by
    unfold recalledPiece at hy
    split at hy
    · have member := List.mem_of_find?_eq_some hy
      rw [first.open_, List.mem_singleton] at member
      exact member
    · cases hy
  unfold Machine.copyMove
  dsimp only
  cases found : recalledPiece s core x with
  | some y => rw [recalled y found]
  | none =>
    rw [first.open_, first.pend]
    simp only [List.length_singleton, Nat.zero_mod, Nat.zero_div, List.getElem?_cons_zero, Nat.zero_ne_one, if_false]

/-- A piece that crosses and that moves leaves the copy. -/
theorem FirstPiece.moveAll {t : State} (way : x.kind = .store ∨ copyWay s core pa e.n false x.policy = .crosses)
    (moved : movePiece s core x e pa = .ok t) : moveAll core [e] { s := s, c := x } =
      { s := t, c := { x with pend := es }, moved := [e], landed := e.n } := by
  have listed : x.pend.contains e = true := by rw [first.pend, List.contains_cons, beq_self_eq_true, Bool.true_or]
  have crosses : (if x.kind == .store then Way.crosses else copyWay s core pa e.n e.nc x.policy) = .crosses := by
    rcases way with store | way
    · rw [store]; rfl
    · rw [first.cached, way, ite_self]
  have sound : (x.pend.find? fun y => sameSector x e y && sourceLost s core x pa e.nc y) = none := by
    refine List.find?_eq_none.mpr fun y hy => ?_
    rw [first.cached, Bool.and_eq_true, not_and, Bool.not_eq_true]
    exact first.sound y hy
  have place : e.pa.getD 0 = pa := by rw [first.place]; rfl
  simp only [Machine.moveAll, listed, first.accepted, place, crosses, sound, moved, first.drop, Bool.not_true,
    Bool.false_eq_true, if_false, List.nil_append, Nat.zero_add]

end

end Sys2Proof.Machine
end

section
/-!
COPY_LAND and COPY_COMPLETE, and the steps of the engines together (R271 to R312, R345, R346).
-/
namespace Sys2Proof.Machine
open Sys2Proof

section
variable {s : State} {core slot pa : Nat} {x : Copy} {e : Elem} {es : List Elem} (first : FirstPiece s core x e es pa)

/-! ## COPY_LAND of a copy into the scratchpad (R271, R276) -/

theorem landedWords_eq (s : State) (b : Nat) (moved : List Elem) : landedWords s b moved = s ∨
    ∃ bad, landedWords s b moved = s.setBlock b { s.block b with spmBad := bad } := by
  unfold landedWords
  dsimp only
  split
  · exact .inl rfl
  · exact .inr ⟨_, rfl⟩

theorem landedWords_blockOnly (s : State) (b : Nat) (moved : List Elem) : BlockOnly b s (landedWords s b moved) := by
  rcases landedWords_eq s b moved with h | ⟨bad, h⟩
  · rw [h]; exact .refl b s
  · rw [h]; exact setBlock_blockOnly ..

theorem landedWords_spm (s : State) (b : Nat) (moved : List Elem) : ((landedWords s b moved).block b).spm = (s.block b).spm := by
  rcases landedWords_eq s b moved with h | ⟨bad, h⟩
  · rw [h]
  · rw [h, State.block_setBlock_same]

theorem countLanded_of_no_barrier {c : Copy} (bar : c.bar = none) (r : Landing) : countLanded c r = r.s := by
  unfold countLanded
  rw [bar]
  split
  · next h => cases h
  · rfl

/-- The bytes of a piece stand in the scratchpad. -/
def pieceLanded (s : State) (b : Nat) (e : Elem) (v : Nat) : State :=
  s.setBlock b { s.block b with spm := (s.block b).spm.write e.spm e.n v }

theorem copyWay_home {core n : Nat} (near : homeOf pa = domOf core) (dram : regionOf s pa = .dram) :
    copyWay s core pa n false .normal = .crosses := by
  have home : lineHome (lineOf pa) = domOf core := (lineHome_lineOf pa).trans near
  have none_ : l2Way s (domOf core) (lineOf pa) (pa % 256) n = .crosses := by
    rw [l2Way, l2Asks, home, bne_self_eq_false, Bool.false_and, if_neg Bool.false_ne_true]
  unfold copyWay
  simp only [dram, Bool.false_eq_true, none_, ite_self, reduceCtorEq, if_false]

include first

theorem exec_copyLand_load (found : s.copy? core slot = some x) (running : x.fault = none) (bar : x.bar = none)
    (kind : x.kind = .load) (more : es ≠ []) (way : copyWay s core pa e.n false x.policy = .crosses) {v : Nat} {bad : Option Nat}
    (read : copyRead s core pa e.n false x.policy = .ok (s, v, bad)) : exec (.copyLand core slot 0) s =
      .next (landedWords ((pieceLanded s x.blk e v).setCopy core slot { x with pend := es }) x.blk [e]) := by
  have moved : movePiece s core x e pa = .ok (pieceLanded s x.blk e v) := by
    unfold movePiece
    have other : (x.kind == CopyKind.store) = false := by rw [kind]; rfl
    simp only [other, Bool.false_eq_true, if_false, first.cached, read, bind, Except.bind, first.live, if_true]
    rfl
  have chosen : moveChosen s core slot x e 0 =
      ⟨landedWords ((pieceLanded s x.blk e v).setCopy core slot { x with pend := es }) x.blk [e],
        { x with pend := es }, [e], e.n⟩ := by
    unfold moveChosen choosePieces
    have other : (x.kind == CopyKind.store) = false := by rw [kind]; rfl
    simp only [if_true, first.group, first.moveAll (.inr way) moved, other, Bool.false_eq_true, if_false]
  have left : es.isEmpty = false := by cases es with | nil => exact absurd rfl more | cons => rfl
  change execCopyLand core slot 0 s = _
  unfold execCopyLand
  simp only [found, kind, running, first.copyMove, chosen, left, Bool.and_false, Bool.false_eq_true, if_false,
    countLanded_of_no_barrier bar]

/-- The bytes of a piece from its own domain's main DRAM. -/
theorem exec_copyLand_load_spec (found : s.copy? core slot = some x) (running : x.fault = none) (bar : x.bar = none)
    (kind : x.kind = .load) (more : es ≠ []) (policy : x.policy = .normal) (some_ : 0 < e.n) (still : NoMigration s)
    (dram : regionOf s pa = .dram) (near : homeOf pa = domOf core) (gate : homeGate s (lineOf pa) = .ok s)
    (own : l2Gate s (domOf core) (lineOf pa) = .ok s) (absent : s.l1Line (sliceOf s core (lineOf pa)) (lineOf pa) = none) :
    ∃ t, exec (.copyLand core slot 0) s = .next t ∧ t.copy? core slot = some { x with pend := es } ∧ t.mem = s.mem ∧
      ∀ i, (t.block x.blk).spm.byte i =
        if e.spm ≤ i ∧ i < e.spm + e.n then s.mem.byte (pa + (i - e.spm)) else (s.block x.blk).spm.byte i := by
  obtain ⟨bad, home⟩ := copyReadL1_home (n := e.n) still near gate own absent some_
  have read : copyRead s core pa e.n false x.policy = .ok (s, s.mem.read pa e.n, bad) := by
    unfold copyRead
    rw [if_neg (by rw [dram]; nofun), if_neg Bool.false_ne_true, policy, home]
  have way : copyWay s core pa e.n false x.policy = .crosses := policy ▸ copyWay_home near dram
  have only := landedWords_blockOnly ((pieceLanded s x.blk e (s.mem.read pa e.n)).setCopy core slot { x with pend := es }) x.blk [e]
  refine ⟨_, exec_copyLand_load first found running bar kind more way read, ?_, ?_, fun i => ?_⟩
  · rw [only.field (fun t => t.copy? core slot) fun _ => rfl, State.copy_setCopy_same]
  · exact only.field State.mem fun _ => rfl
  · rw [landedWords_spm]
    have spm : (((pieceLanded s x.blk e (s.mem.read pa e.n)).setCopy core slot { x with pend := es }).block x.blk).spm =
        (s.block x.blk).spm.write e.spm e.n (s.mem.read pa e.n) := congrArg Block.spm (State.block_setBlock_same ..)
    rw [spm, Memory.byte_write]
    split
    · exact ofNat_read_div s.mem pa (by omega)
    · rfl

/-! ## COPY_LAND of a copy to global memory (R228, R276) -/

theorem exec_copyLand_store (found : s.copy? core slot = some x) (running : x.fault = none) (kind : x.kind = .store) {u : State}
    (moved : movePiece s core x e pa = .ok u) : exec (.copyLand core slot 0) s =
      .next (endRecalls (u.setCopy core slot { x with pend := es }) (domOf core)) := by
  have store : (x.kind == CopyKind.store) = true := by rw [kind]; rfl
  have chosen : moveChosen s core slot x e 0 =
      ⟨endRecalls (u.setCopy core slot { x with pend := es }) (domOf core), { x with pend := es }, [e], e.n⟩ := by
    unfold moveChosen choosePieces
    simp only [if_true, first.group, first.moveAll (.inl kind) moved, store]
  have other : (CopyKind.store == CopyKind.load) = false := rfl
  change execCopyLand core slot 0 s = _
  unfold execCopyLand
  simp only [found, kind, running, first.copyMove, chosen, other, Bool.false_and, Bool.false_eq_true, if_false]
  unfold countLanded
  simp only [kind]

theorem exec_copyLand_store_spec (found : s.copy? core slot = some x) (running : x.fault = none) (kind : x.kind = .store)
    (policy : x.policy = .normal) (within : pa % 256 + e.n ≤ 256) (still : NoMigration s) (near : homeOf pa = domOf core)
    (gate : homeGate s (lineOf pa) = .ok s) :
    ∃ t, exec (.copyLand core slot 0) s = .next t ∧ t.copy? core slot = some { x with pend := es } ∧ t.blocks = s.blocks ∧
      ∀ i, t.mem.byte i =
        if pa ≤ i ∧ i < pa + e.n then (s.block x.blk).spm.byte (e.spm + (i - pa)) else s.mem.byte i := by
  obtain ⟨u, written, blocks, stored⟩ := copyWrite_home still near gate within (wkey x.blk x.weft)
    ((s.block x.blk).spm.read e.spm e.n)
  have moved : movePiece s core x e pa = .ok u := by
    have store : (x.kind == CopyKind.store) = true := by rw [kind]; rfl
    unfold movePiece
    simp only [store, if_true, first.live, first.cached, policy, written]
  have only := endRecalls_domainsOnly (u.setCopy core slot { x with pend := es }) (domOf core)
  refine ⟨_, exec_copyLand_store first found running kind moved, ?_, ?_, fun i => ?_⟩
  · rw [only.field (fun t => t.copy? core slot) fun _ => rfl, State.copy_setCopy_same]
  · exact (only.field State.blocks fun _ => rfl).trans blocks
  · rw [only.field State.mem fun _ => rfl]
    refine (stored.byte i).trans ?_
    split
    · exact ofNat_read_div _ _ (by omega)
    · rfl

end

/-! ## COPY_COMPLETE (R281) -/

theorem exec_copyComplete_store {s : State} {core slot : Nat} {x : Copy} (found : s.copy? core slot = some x)
    (kind : x.kind = .store) (running : x.fault = none) (moved : x.pend = []) (bar : x.bar = none) :
    exec (.copyComplete core slot) s = .next (copyEnded s core slot x) := by
  change execCopyComplete core slot s = _
  unfold execCopyComplete copyFinish
  simp only [found, kind, running, moved, Option.isSome_none, Bool.false_eq_true, if_false, List.isEmpty_nil, if_true,
    endCopy_eq_of_no_barrier s core slot x bar]

/-- Settles O47: a copy moves the piece that `FirstPiece` names; the rows of STREAM and ACCUM are written one after another
(`mxRows_done`); what a DRAIN leaves to land holds no offset twice (`MxCmd.rising_drainOut`), so that each of its bytes lands
as it was read. -/
theorem engineSteps_hold : Obligations.EngineSteps := by
  unfold Obligations.EngineSteps
  refine ⟨fun w af n scale acc act dense => ⟨fun group => streamElem_int dense group act n scale acc,
    fun group unscaled one => streamElem_pass dense group unscaled one act n scale acc⟩,
    fun c a rows m n i words apart hm hn hi => MxCmd.find_drainOut_word words apart hm hn hi, ?_⟩
  intro s core slot part quarter a c spm
  refine ⟨?_, ?_, ?_, ?_, ?_, ?_, ?_, ?_, ?_, ?_, ?_, ?_, ?_⟩
  case refine_1 =>
    intro x e es pa found running bar pend open_ live accepted cached place some_ within policy sound still dram near gate
    have first : FirstPiece s core x e es pa := ⟨pend, open_, live, accepted, cached, place, sound⟩
    exact ⟨fun kind more own absent =>
        exec_copyLand_load_spec first found running bar kind more policy some_ still dram near gate own absent,
      fun kind => exec_copyLand_store_spec first found running kind policy within still near gate⟩
  case refine_2 =>
    intro x found kind running moved bar
    refine ⟨_, exec_copyComplete_store found kind running moved bar, copyEnded_copy s core slot x,
      copyEnded_field s core slot x State.mem fun _ => rfl, ?_⟩
    rw [copyEnded_weft]
  case refine_3 =>
    intro head dense settled
    obtain ⟨q, queue, -, -⟩ := mxHead_eq_some head
    constructor
    · intro own sound
      have loaded := loadwEnd_loaded queue dense settled (s.block c.blk).spm (c.f 8 4)
      exact ⟨_, _, exec_loadw_spm head own settled sound, loaded.slot, rfl, rfl, rfl, loaded.ended,
        fun n hn => loadedSet_column dense _ _ hn⟩
    · intro pa u frame f bank found blocks same holds valid sound
      have queue' : ((touchFrame u core frame).array core part).queue = c :: q := by rw [touchFrame_array, same]; exact queue
      have settled' : ((touchFrame u core frame).block c.blk).was = [] := by
        rw [block_congr (s := s) (u := touchFrame u core frame) blocks]; exact settled
      have loaded := loadwEnd_loaded queue' dense settled' f.data (pa % 65536)
      exact ⟨_, _, exec_loadw_bank head bank found holds valid sound, loaded.slot, rfl, rfl, rfl, loaded.ended,
        fun n hn => loadedSet_column dense _ _ hn⟩
  case refine_4 =>
    intro head invalid
    obtain ⟨q, queue, -, -⟩ := mxHead_eq_some head
    refine ⟨_, exec_stream_of_invalid head invalid, mxEnd_head queue 4, ?_⟩
    rw [mxEnd_array queue]
  case refine_5 =>
    intro w head slot valid own within settled sound whole words act
    obtain ⟨q, queue, -, -⟩ := mxHead_eq_some head
    obtain ⟨t, ran, done⟩ := exec_stream_own head slot valid own within settled sound whole words
    exact ⟨_, ran, mxRows_ended queue done⟩
  case refine_6 =>
    intro head settled sound whole words
    obtain ⟨q, queue, -, -⟩ := mxHead_eq_some head
    obtain ⟨t, ran, done⟩ := exec_accum_rows head settled sound whole words
    exact ⟨_, ran, mxRows_ended queue done⟩
  case refine_7 => exact exec_drain_spec
  case refine_8 => exact exec_signal_of_delivered
  case refine_9 => exact fun q st queue res rises => exec_mxComplete_spec queue res rises
  case refine_10 =>
    intro p need frame way
    refine ⟨_, exec_weightStage_of_need need frame way, ?_, rfl⟩
    obtain ⟨tag, valid⟩ := stagedPage_tag s p
    rw [touchFrame_bank, State.core_setCore_same, Sp.find_put_same, Option.map_some, tag, valid]
  case refine_11 =>
    intro f found staging current read sound
    refine ⟨_, exec_weightStageDone_of_sound found staging current read sound, ?_⟩
    rw [State.core_setCore_same, Sp.find_put_same]
  case refine_12 =>
    intro idle empty among
    refine ⟨_, exec_mxPowerGate_of_idle idle empty among, fun i => ?_⟩
    rw [State.array_setArray_same]
    exact testBit_or_one_shiftLeft _ _ i
  case refine_13 =>
    intro q queue needs gated
    refine ⟨_, exec_mxWake_of_gated queue needs gated, fun i => ?_⟩
    rw [State.array_setArray_same]
    exact testBit_sub_two_pow_of_testBit gated i

end Sys2Proof.Machine
end
